-- ==== Sys2Proof/Word.lean ====
section
/-!
DEFINITION. The word types of the FV2412 model and nothing else: registers are 32 bits wide (R56),
structures in layer memory are bytes (R5).
-/

namespace Sys2Proof

/-- A register word (R56). -/
abbrev Word := BitVec 32

/-- A byte of layer memory, of the configuration flash or of a frame. -/
abbrev Byte := BitVec 8

/-- A layer address (R641), 33 bits. -/
abbrev LAddr := BitVec 33

end Sys2Proof
end

