-- ==== Sys2Proof/Machine/Bits.lean ====
section
/-!
DEFINITION. Bit fields, signed values, byte order, checksums, rounding and the canonical sparse maps that the
rest of the machine is written with.
-/

namespace Sys2Proof.Machine

/-! ### Bit fields -/

/-- Bits `[hi:lo]` of a bit vector, as a number. -/
def fld {n : Nat} (w : BitVec n) (hi lo : Nat) : Nat := (w.toNat >>> lo) % 2 ^ (hi + 1 - lo)

/-- Bit `i` of a bit vector. -/
def bitOf {n : Nat} (w : BitVec n) (i : Nat) : Bool := w.toNat.testBit i

/-- `0` or `1`. -/
def b2n (b : Bool) : Nat := if b then 1 else 0

/-- A field value `v` placed at bit `lo` of a word. -/
def at' (lo : Nat) (v : Nat) : Nat := v <<< lo

/-- A flag placed at bit `i`. -/
def flag (i : Nat) (b : Bool) : Nat := if b then 2 ^ i else 0

/-- A word with bit `i` set or cleared. -/
def setBit {n : Nat} (w : BitVec n) (i : Nat) (b : Bool) : BitVec n :=
  if b then w ||| BitVec.ofNat n (2 ^ i) else w &&& ~~~ BitVec.ofNat n (2 ^ i)

/-- The low `n` bits of a natural number read as a two's-complement value. -/
def signed (n : Nat) (v : Nat) : Int := (BitVec.ofNat n v).toInt

/-- A signed field `[hi:lo]` of a word. -/
def sfld {n : Nat} (w : BitVec n) (hi lo : Nat) : Int := signed (hi + 1 - lo) (fld w hi lo)

/-- A value limited to `lo ≤ x ≤ hi`. -/
def clampI (lo hi x : Int) : Int := if x < lo then lo else if hi < x then hi else x

/-- A value limited to a signed `n`-bit range (saturation). -/
def satS (n : Nat) (x : Int) : Int := clampI (-(2 ^ (n - 1))) (2 ^ (n - 1) - 1) x

/-- A value limited to an unsigned `n`-bit range. -/
def satU (n : Nat) (x : Int) : Nat := (clampI 0 (2 ^ n - 1) x).toNat

/-- `a ÷ b` to the nearest integer, halves away from zero. -/
def divR (a : Int) (b : Int) : Int :=
  if b = 0 then 0
  else
    let n := a.natAbs
    let d := b.natAbs
    let q : Int := ((2 * n + d) / (2 * d) : Nat)
    if (decide (a < 0)) != (decide (b < 0)) then -q else q

/-- `a ÷ b` rounded towards minus infinity (0 for a zero divisor). -/
def divF (a : Int) (b : Int) : Int := if b = 0 then 0 else Int.fdiv a b

/-- `a ÷ b` rounded up. -/
def divUp (a b : Nat) : Nat := if b = 0 then 0 else (a + b - 1) / b

/-- The ring distance `a - b` modulo `2^32`. -/
def wsub (a b : BitVec 32) : Nat := (a - b).toNat

/-! ### Bytes, least significant first (R5) -/

/-- The number spelled by bytes, least significant first. -/
def leNat : List Byte → Nat
  | [] => 0
  | b :: t => b.toNat + 256 * leNat t

/-- `n` bytes of a number, least significant first. -/
def leBytes : Nat → Nat → List Byte
  | 0, _ => []
  | n + 1, v => BitVec.ofNat 8 v :: leBytes n (v / 256)

/-- The number spelled by bytes, most significant first. -/
def beNat (bs : List Byte) : Nat := leNat bs.reverse

/-- Bytes `[off, off + n)` of a byte string (zero beyond its end) as a number, least significant first. -/
def rdLe (bs : List Byte) (off n : Nat) : Nat := leNat ((bs.drop off).take n)

/-- A signed little-endian field of `n` bytes. -/
def rdLeS (bs : List Byte) (off n : Nat) : Int := signed (8 * n) (rdLe bs off n)

/-- `2^k`-fold doubling of a list walk: the first `n` elements of `f 0, f 1, …`. -/
def tab {α : Type} (n : Nat) (f : Nat → α) : List α := (List.range n).map f

/-! ### Checksums -/

/-- One step of the reflected CRC-32 of IEEE 802.3 over one bit. -/
def crc32Bit (c : BitVec 32) : BitVec 32 :=
  if c.toNat % 2 = 1 then (c >>> 1) ^^^ 0xEDB88320#32 else c >>> 1

/-- One step of the reflected CRC-32 over one byte. -/
def crc32Byte (c : BitVec 32) (b : Byte) : BitVec 32 :=
  Nat.repeat crc32Bit 8 (c ^^^ b.zeroExtend 32)

/-- CRC-32 of R114: polynomial 0x04C1_1DB7 reflected, initial value and final XOR 0xFFFF_FFFF. -/
def crc32 (bs : List Byte) : BitVec 32 := (bs.foldl crc32Byte 0xFFFFFFFF#32) ^^^ 0xFFFFFFFF#32

/-- One bit of the CRC-16 with polynomial 0x1021, most significant bit first. -/
def crc16Bit (c : BitVec 16) : BitVec 16 :=
  if c.toNat / 32768 = 1 then (c <<< 1) ^^^ 0x1021#16 else c <<< 1

/-- One byte of that CRC-16. -/
def crc16Byte (c : BitVec 16) (b : Byte) : BitVec 16 :=
  Nat.repeat crc16Bit 8 (c ^^^ (b.zeroExtend 16 <<< 8))

/-- CRC-16 with polynomial 0x1021 and initial value 0xFFFF (R593). -/
def crc16 (bs : List Byte) : BitVec 16 := bs.foldl crc16Byte 0xFFFF#16

/-! ### Sparse maps in one canonical form: keys strictly rising, no entry equal to its default -/

/-- The value at key `k`: the listed one, or the default. -/
def look {α : Type} (d : Nat → α) : List (Nat × α) → Nat → α
  | [], k => d k
  | (k', v) :: t, k => if k = k' then v else look d t k

/-- The map with `v` at key `k`, keeping the canonical form. -/
def put {α : Type} [DecidableEq α] (d : Nat → α) : List (Nat × α) → Nat → α → List (Nat × α)
  | [], k, v => if v = d k then [] else [(k, v)]
  | (k', v') :: t, k, v =>
    if k < k' then (if v = d k then (k', v') :: t else (k, v) :: (k', v') :: t)
    else if k = k' then (if v = d k then t else (k, v) :: t)
    else (k', v') :: put d t k v

/-- Keys strictly rising from `lo`, no entry equal to its default. -/
def wfFrom {α : Type} [DecidableEq α] (d : Nat → α) (lo : Nat) : List (Nat × α) → Bool
  | [] => true
  | (k, v) :: t => decide (lo ≤ k) && decide (v ≠ d k) && wfFrom d (k + 1) t

/-- The canonical form of a sparse map. -/
def mapWf {α : Type} [DecidableEq α] (d : Nat → α) (l : List (Nat × α)) : Bool := wfFrom d 0 l

/-- Values written at consecutive keys from `k`. -/
def putAll {α : Type} [DecidableEq α] (d : Nat → α) : List (Nat × α) → Nat → List α → List (Nat × α)
  | l, _, [] => l
  | l, k, v :: t => putAll d (put d l k v) (k + 1) t

/-- The map with every key of `[a, a + n)` back at its default. -/
def dropRange {α : Type} (l : List (Nat × α)) (a n : Nat) : List (Nat × α) :=
  l.filter (fun e => !(decide (a ≤ e.1) && decide (e.1 < a + n)))

/-- The values at consecutive keys `k, k + 1, …`, `n` of them. -/
def lookAll {α : Type} (d : Nat → α) (l : List (Nat × α)) (k n : Nat) : List α :=
  (List.range n).map (fun i => look d l (k + i))

/-- A list with no repeats, `x` added at the end if it is absent. -/
def addNew {α : Type} [DecidableEq α] (l : List α) (x : α) : List α := if x ∈ l then l else l ++ [x]

/-- The list with entry `i` replaced (unchanged where `i` is past its end). -/
def setAt {α : Type} (l : List α) (i : Nat) (x : α) : List α := l.set i x

end Sys2Proof.Machine
end

