-- ==== Sys2Proof/Machine/Parts/Global.lean ====
section
/-!
DEFINITION. State of the device state machine, the host interface and always-on retention (01, 02 and 14 of spec/).
-/

namespace Sys2Proof.Machine

/-- The two requester ports of R46 and R58. -/
inductive Port where
  | host | mgmt
deriving DecidableEq, Repr

/-- The device states of R17. -/
inductive DevState where
  | off | standby | boot | configured | building | proof | safeHold | shutdownLatched
deriving DecidableEq, Repr

/-- GLB_STATUS.STATE (R69). -/
def DevState.code : DevState → Nat
  | .off => 0 | .standby => 1 | .boot => 2 | .configured => 3
  | .building => 4 | .proof => 5 | .safeHold => 6 | .shutdownLatched => 7

/-- A register pair's shadow (R58): the pair's BAR0 offset and the held word. -/
abbrev Shadow := Option (Nat × Word)

/-- What belongs to one requester port: the two shadows of R58, the key sequence of R104 and the record staging
of R147 and R154 to R158. -/
structure PortSt where
  rd : Shadow := none
  wr : Shadow := none
  keyOpen : Bool := false
  recSel : BitVec 17 := 0
  /-- BOOT_REC_SEL has been written since the reset -/
  recChosen : Bool := false
  recBuf : List Word := []
  recResult : BitVec 4 := 0
  recWord : BitVec 8 := 0
  /-- record of the last commit, whose fate RESULT follows -/
  recId : BitVec 16 := 0
  /-- GLB device-time sub-nanosecond latch of this port (R635) -/
  dtSub : BitVec 16 := 0
deriving DecidableEq, Repr

/-- The states of a DMA channel (R96). -/
inductive DmaState where
  | idle | running | stopping | halted
deriving DecidableEq, Repr

/-- GLB_DMAn_STATUS.STATE. -/
def DmaState.code : DmaState → Nat
  | .idle => 0 | .running => 1 | .stopping => 2 | .halted => 3

/-- One DMA channel (R96). -/
structure DmaCh where
  ringLo : Word := 0
  ringHi : Word := 0
  log2 : BitVec 4 := 4
  tail : BitVec 12 := 0
  head : BitVec 12 := 0
  enable : Bool := false
  st : DmaState := .idle
  lastTag : BitVec 16 := 0
  lastResult : BitVec 3 := 0
  /-- bytes of the descriptor at HEAD that requests have moved (R97) -/
  moved : Nat := 0
  /-- a descriptor was in progress as SAFE_HOLD was entered (R99) -/
  held : Bool := false
deriving DecidableEq, Repr

/-- The endpoint's configuration space as host software sets it and the link as trained (R83, R84, R106, R107). -/
structure PciCfg where
  /-- BAR0 (with BAR1): base, a multiple of 16 MB; none: not yet restored -/
  bar0 : Option (BitVec 64) := none
  /-- BAR2 (with BAR3): base, a multiple of 256 MB -/
  bar2 : Option (BitVec 64) := none
  /-- MSI-X enable -/
  msixOn : Bool := false
  /-- max payload size and max read request size, bytes -/
  payload : Nat := 128
  readReq : Nat := 512
  /-- completion timeout value as programmed; 50 ms by default -/
  cplTimeout : BitVec 4 := 0
  /-- lanes and transfer rate of the link as trained: ×1, ×2 or ×4, in 0.5 GT/s -/
  width : Nat := 0
  rate : Nat := 0
  /-- ASPM L1 enabled -/
  l1 : Bool := false
deriving DecidableEq, Repr

/-- One MSI-X table entry with its pending bit and its moderation interval (R100, R102). -/
structure MsixVec where
  addr : BitVec 64 := 0
  data : Word := 0
  mask : Bool := true
  pend : Bool := false
  interval : Bool := false
deriving DecidableEq, Repr

/-- Device state and host interface. -/
structure Glob where
  dev : DevState := .boot
  /-- SAFE_HOLD was entered by fault (GLB_STATUS.SAFE_BY_FAULT) -/
  safeByFault : Bool := false
  /-- device state held before SAFE_HOLD or the reset (R32) -/
  heldBefore : DevState := .boot
  resetCause : BitVec 3 := 0
  bootWarm : Bool := false
  hostAbsent : Bool := false
  /-- device time at which host-absent mode began (entry 0x0041) -/
  absentAt : BitVec 64 := 0
  /-- the host timeout has expired since the last heartbeat (R36) -/
  hbExpired : Bool := false
  preserve : Bool := false
  heartbeat : Word := 0
  errAddr : Word := 0
  winLo : Word := 0
  winHi : Word := 0
  linkUp : Bool := false
  d3hot : Bool := false
  pci : PciCfg := {}
  /-- the channel whose request is served next (R97) -/
  dmaTurn : Fin 4 := 0
  host : PortSt := {}
  mgmt : PortSt := {}
  dma : Vector DmaCh 4 := Vector.replicate 4 {}
  msix : Vector MsixVec 64 := Vector.replicate 64 {}
  /-- the device has reached CONFIGURED since the boot began (R63) -/
  configuredOnce : Bool := false
  /-- LOCK fields written since the last full reset: BAR0 offset and the value of that one write (R49) -/
  locked : List (Nat × Word) := []
  /-- RESET_N is held low and the full reset it began has not been released -/
  resetHeld : Bool := false
deriving DecidableEq, Repr

/-- The states of the test port's controller (IEEE 1149.1, R793). -/
inductive TapState where
  | testLogicReset | runTestIdle | selectDr | captureDr | shiftDr | exit1Dr | pauseDr | exit2Dr | updateDr
  | selectIr | captureIr | shiftIr | exit1Ir | pauseIr | exit2Ir | updateIr
deriving DecidableEq, Repr

/-- A bank's standing (R114, R116, R128). -/
structure Standing where
  attempts : BitVec 2 := 0
  withdrawn : Bool := false
  writing : Bool := false
deriving DecidableEq, Repr

/-- The AON domain: supplies, wake, RTC and the 256 retention bits of R702 (the CRC is computed when shown). -/
structure Aon where
  vbat : Bool := true
  mains : Bool := true
  /-- level of RESET_N -/
  resetN : Bool := true
  pwrReq : Bool := true
  /-- REFSEL as sampled when the main supplies came up: true an external clock, false a crystal (R794) -/
  refSel : Bool := false
  /-- level of TRST_N, tied low by the integrator, and the state of the test port (R793) -/
  trstN : Bool := false
  tap : TapState := .testLogicReset
  retValid : Bool := false
  a : Standing := {}
  b : Standing := {}
  /-- bank last booted: false A, true B -/
  last : Bool := false
  shutdown : BitVec 4 := 0
  marker : BitVec 64 := 0
  resetDt : BitVec 64 := 0
  lastFail : BitVec 4 := 0
  rtc : BitVec 48 := 0
  rtcRun : Bool := false
  alarm : BitVec 48 := 0
  /-- PWR_STBY: ALARM_EN, WAKE_EDGE, WAKE_EN, RTC_KEEP -/
  stby : BitVec 5 := 0b00010#5
  /-- CLK_AON ticks counted since the last reset with PRESERVE (R611, R820) -/
  count : Nat := 0
  /-- time since that reset as the SAFE ring oscillator measures it, 2^-16 ns (R680) -/
  gap : Nat := 0
  /-- time since the last CLK_AON edge, 2^-16 ns (the model's own phase, log row 8) -/
  phase : Nat := 0
  /-- retention was valid at this boot (BOOT_STATUS.RET_VALID) -/
  validAtBoot : Bool := false
deriving DecidableEq, Repr

/-- The standby sequence of R699. -/
inductive StandbySeq where
  | none | waiting | woken
deriving DecidableEq, Repr

/-- The forced fallback of R690 and R693. -/
inductive Fallback where
  | none | rcWait | pllWait | firmwareWait | onBackup | dead
deriving DecidableEq, Repr

/-- One CLKOUT multiplexer (R685, R709). -/
structure ClkOut where
  div : BitVec 8 := 0
  src : BitVec 2 := 0
  pend : Option (BitVec 2) := none
  stuck : Bool := false
deriving DecidableEq, Repr

/-- Oscillators, PLLs, gates and power domains (14 of spec/). -/
structure Clk where
  rcRun : Bool := true
  rcQual : Bool := true
  refQual : Bool := false
  xtalQual : Bool := false
  /-- LOCK: root, memory, lane north, lane south, host, spread -/
  lock : BitVec 6 := 0
  rootRef : BitVec 4 := 1
  tripCause : BitVec 2 := 0
  /-- the boot ROM waits for REFCLK past 10 ms with FAULT_N low (R679) -/
  refWait : Bool := false
  /-- SS_ON, DEPTH and RATE_KHZ in force at the spread PLL (R684) -/
  spread : Word := 0
  out0 : ClkOut := {}
  out1 : ClkOut := {}
  gateReq : BitVec 14 := 0
  gateClosed : BitVec 14 := 0
  gateErrs : Word := 0
  fallback : Fallback := .none
  standby : StandbySeq := .none
  /-- device time of the STANDBY command, 2^-16 ns (R699) -/
  standbyAt : Nat := 0
  /-- the SAFE_HOLD internal inhibit asserted by a trip (R690) -/
  tripInhibit : Bool := false
  /-- PWR_STATUS.ON: AON, SAFE, MGMT, CLK, CELL-A, CELL-B, BEAM, MEM, LANE-N, LANE-S, HOST, STAGE -/
  domains : BitVec 12 := 0b000000001111#12
deriving DecidableEq, Repr

end Sys2Proof.Machine
end

