-- ==== Sys2Proof/Machine/Parts/Hlt.lean ====
section
/-!
DEFINITION. State of the health subsystem (15 of spec/).
-/

namespace Sys2Proof.Machine

/-- Throttle stages (R742). -/
inductive Stage where
  | normal | ask | reduce | slow
deriving DecidableEq, Repr

/-- HLT_STAGE.STAGE. -/
def Stage.code : Stage → Nat
  | .normal => 0 | .ask => 1 | .reduce => 2 | .slow => 3

/-- A laser source's monitoring (R726 to R730). Gains are Q2.14; the ratio R and the sum of samples have 30 fraction bits. -/
structure Laser where
  ratio : Nat := 1073741824
  gain : BitVec 16 := 16384
  /-- gain computed, taken at the next emission's first DAC instant -/
  nextGain : BitVec 16 := 16384
  /-- consecutive evaluations with R below RETIRE_AT -/
  low : Nat := 0
  short : Bool := false
  /-- settled samples of this second: count and the sum of r -/
  n : Nat := 0
  sum : Int := 0
  /-- DAC code and the device time since which it has been within 1 % -/
  code : Nat := 0
  since : Nat := 0
deriving DecidableEq, Repr

/-- A calibration unit: domain (0 TAPS, 1 LANE, 2 PD, 3 DAC, 4 ADC) and index. -/
structure CalUnit where
  domain : Nat
  index : Nat
deriving DecidableEq, Repr

/-- A run or the steps of a calibration unit: the values still to be reached, as the registers' words. -/
structure CalRun where
  unit : CalUnit
  /-- a further measurement follows the steps (R738) -/
  again : Bool := false
  /-- none while the measurement runs; then target register offsets and words -/
  target : Option (List (Nat × Word)) := none
deriving DecidableEq, Repr

/-- The health subsystem. -/
structure Hlt where
  tempCore : BitVec 16 := 0
  tempIo : BitVec 16 := 0
  stage : Stage := .normal
  /-- κ_th is 1 − 0.05 m -/
  kappaM : Nat := 0
  /-- device time at which the stage or κ_th last changed, 2^-16 ns (R743) -/
  stageAt : Nat := 0
  /-- device time since which the device has been hot, and cool, without interruption (R743) -/
  hotSince : Option Nat := none
  coolSince : Option Nat := none
  /-- a DRAM die reports its high limit (R654) -/
  dramHot : Bool := false
  /-- the code on VCORE_REQ (R718, R799) -/
  vcore : BitVec 5 := 16
  vcoreBoot : BitVec 5 := 16
  vcoreMv : BitVec 16 := 0
  raises : Word := 0
  /-- device time of the last raise, and of the last exhaustion, ns -/
  raisedAt : Option Nat := none
  exhaustedAt : Option Nat := none
  dMax : Word := 0
  lasers : Vector Laser 12 := Vector.replicate 12 {}
  /-- units that hold a failed assay, and the temperature (m°C) of the failed run -/
  failed : List (CalUnit × Int) := []
  /-- reference temperatures of the units, m°C (R735) -/
  refTemp : List (CalUnit × Int) := []
  runs : List CalRun := []
  /-- lane whose eye is scanned next (R724) -/
  eyeNext : Nat := 0
  /-- lanes with a retraining request that waits (R733) -/
  laneWait : List Nat := []
  /-- device time of each lane's last retraining request -/
  laneReqAt : List (Nat × Nat) := []
  /-- lanes whose eye scan was asked for by the margin plan -/
  planScan : List Nat := []
  /-- hourly bases: MEM_CE, and MEM_CORR by cell -/
  ceBase : Word := 0
  corrBase : List (Nat × Word) := []
  /-- notch retunes that wait: entry and F0 in mHz (R732) -/
  retune : List (Nat × Nat) := []
  /-- resonance measurements in progress: entry, cell and trace channel (R731) -/
  notch : List (Nat × Nat × Nat) := []
  /-- core die temperature at each channel's last training, 1/16 °C, and its device time -/
  trainTemp0 : Int := 0
  trainTemp1 : Int := 0
  trainAt0 : Nat := 0
  trainAt1 : Nat := 0
deriving DecidableEq, Repr

end Sys2Proof.Machine
end

