-- ==== Sys2Proof/Machine/Parts/Boot.lean ====
section
/-!
DEFINITION. State of the ingot, the banks, the configuration records, reload and update (03 of spec/).
-/

namespace Sys2Proof.Machine

/-- Boot phases (R137, BOOT_STATUS.PHASE). -/
inductive Phase where
  | rom | clocks | select | memory | load | configure | done | halted
deriving DecidableEq, Repr

/-- BOOT_STATUS.PHASE. -/
def Phase.code : Phase → Nat
  | .rom => 0 | .clocks => 1 | .select => 2 | .memory => 3 | .load => 4 | .configure => 5 | .done => 6 | .halted => 15

/-- One bank of the flash (R112): its bytes (an unlisted byte is erased, 0xFF), the state of its last check and
its VERSION as last read (R185). -/
structure Bank where
  cells : List Host.Cell := []
  state : BitVec 4 := 0
  ver : Word := 0
deriving DecidableEq, Repr

/-- A fuse word with its check bits (R125). -/
structure Fuse where
  v : Word
  check : BitVec 7
deriving DecidableEq, Repr

/-- What the flash holds once an external programmer has driven it (R112, R113): both banks, the boot record sectors as 64-byte entries,
newest first, and the log partition's sectors, oldest first. -/
structure FlashIn where
  bankA : List Host.Cell
  bankB : List Host.Cell
  rec0 : List (List Byte)
  rec1 : List (List Byte)
deriving DecidableEq, Repr

/-- A boot record entry (R114). -/
structure BootRec where
  seq : Word
  a : Standing
  b : Standing
  last : Bool
  verA : Word
  verB : Word
deriving DecidableEq, Repr

/-- A section of the running configuration, held in the configuration region (R120, R123). -/
structure Section where
  type : Nat
  inst : Nat
  bytes : List Byte
deriving DecidableEq, Repr

/-- A record's pending copy (R149): its words, the port that committed it and the device time of its acceptance, ns (R433). -/
structure PendRec where
  id : BitVec 16
  words : List Word
  port : Port
  at_ : Nat
  /-- the pending copy that it replaced, with the port that had committed it (R152) -/
  prev : Option (List Word × Port) := none
deriving DecidableEq, Repr

/-- Section reload (R165 to R172). -/
inductive ReloadState where
  | idle | loading | armed
deriving DecidableEq, Repr

/-- BOOT_RELOAD_STATUS.STATE. -/
def ReloadState.code : ReloadState → Nat
  | .idle => 0 | .loading => 1 | .armed => 2

/-- Update stages (R174). -/
inductive UpdStage where
  | idle | checking | erasing | programming | verifying | done
deriving DecidableEq, Repr

/-- BOOT_UPD_STATUS.STAGE. -/
def UpdStage.code : UpdStage → Nat
  | .idle => 0 | .checking => 1 | .erasing => 2 | .programming => 3 | .verifying => 4 | .done => 5

/-- Who asked for an update: host software, or the Ethernet transfer of R780. -/
inductive UpdBy where
  | host | net
deriving DecidableEq, Repr

/-- The boot block. -/
structure Boot where
  phase : Phase := .rom
  /-- a boot attempt is running -/
  attempt : Bool := false
  /-- bank of the attempt, then the booted bank: false A, true B -/
  bank : Bool := false
  bankA : Bank := {}
  bankB : Bank := {}
  /-- boot record entries of sector 0 and sector 1 as their 64 bytes, newest first, and the sector in use (R112, R114, R115) -/
  rec0 : List (List Byte) := []
  rec1 : List (List Byte) := []
  recIn1 : Bool := false
  /-- the fuse word of the slot revocation, once it is programmed (R125) -/
  revFuse : Option Fuse := none
  /-- the version floor words programmed (R125) -/
  floorWords : List Fuse := []
  ver : Word := 0
  stamp : BitVec 64 := 0
  pred : Word := 0
  keySlot : BitVec 2 := 0
  floorOk : Bool := false
  fwVer : Word := 0
  reloaded : BitVec 12 := 0
  sections : List Section := []
  /-- sections read for a reload, waiting for the switch point (R167) -/
  staged : List Section := []
  /-- active record values that differ from the reset values of their chapter (R159) -/
  recs : List (Nat × List Word) := []
  recPend : List PendRec := []
  /-- records changed by a commit since boot (R153) -/
  recChanged : List Nat := []
  quoins : List (BitVec 16) := []
  quoinAll : Bool := false
  /-- a layer is in progress (R146) -/
  layerOn : Bool := false
  cmdOp : BitVec 4 := 0
  cmdResult : BitVec 4 := 0
  rlState : ReloadState := .idle
  /-- head of the last request, and of the reload in progress (R172) -/
  rlAsked : BitVec 4 := 0
  rlHead : BitVec 4 := 0
  rlResult : BitVec 4 := 0
  rlMode : Bool := false
  rlWhat : BitVec 2 := 0
  updSrcLo : Word := 0
  updSrcHi : Word := 0
  updLen : Word := 0
  updStage : UpdStage := .idle
  updResult : BitVec 4 := 0
  updSectors : BitVec 10 := 0
  updTarget : Bool := false
  updBy : UpdBy := .host
deriving DecidableEq, Repr

end Sys2Proof.Machine
end

