-- ==== Sys2Proof/Machine/Parts/Memory.lean ====
section
/-!
DEFINITION. State of layer memory and its controller (13 of spec/).
-/

namespace Sys2Proof.Machine

/-- Channel states (R671). -/
inductive ChState where
  | off | training | ready | retraining | selfRefresh
deriving DecidableEq, Repr

/-- MEM_STATUS.CHc. -/
def ChState.code : ChState → Nat
  | .off => 0 | .training => 1 | .ready => 2 | .retraining => 3 | .selfRefresh => 4

/-- A read of one block that the controller has to serve: its requester, by the codes of MEM_UE_ADDR, and the block number k of R641. -/
structure RdReq where
  req : Nat
  block : Nat
deriving DecidableEq, Repr

/-- One memory channel (R671, R672, R647, R650 to R657). -/
structure MemCh where
  st : ChState := .off
  temp : BitVec 8 := 0
  refMult : BitVec 4 := 0
  winRd : BitVec 8 := 0
  winWr : BitVec 8 := 0
  trains : Word := 0
  trainNone : Bool := false
  retrainPend : Bool := false
  /-- blocks in the write queue, oldest first, by block number k of R641 -/
  writeQ : List Nat := []
  /-- refreshes postponed, by bank (R653) -/
  postponed : List (Nat × Nat) := []
  /-- hot-row tables: bank, row, activates in this window (R655) -/
  hot : List (Nat × Nat × Nat) := []
  /-- reads in the banks' read queues and reserves, oldest first (R647) -/
  readQ : List RdReq := []
  /-- reads whose bank's queue is full, oldest first (R647) -/
  readWait : List RdReq := []
  /-- the bank served last; after reset the rotation begins at bank 0 (R647) -/
  turn : Nat := 15
  /-- the row open in a bank, plus 1 (R655) -/
  openRow : List (Nat × Nat) := []
  /-- rows whose neighbours are to be refreshed, by bank (R655, R657) -/
  nbr : List (Nat × Nat) := []
deriving DecidableEq, Repr

/-- What a read finds in the memory cells it touches: blocks with a corrected error and blocks with an uncorrectable
one, by block number. The command that reads carries it (log row 9). -/
structure Ecc where
  ce : List Nat := []
  ue : List Nat := []
deriving DecidableEq, Repr

/-- Layer memory (R639 to R676): data bytes by layer address (an unlisted byte reads 0, R663). -/
structure Mem where
  cells : List Host.Cell := []
  /-- poisoned blocks, by block number k (R660) -/
  poison : List Nat := []
  ch0 : MemCh := {}
  ch1 : MemCh := {}
  trained : Bool := false
  sweeping : Bool := false
  preserved : Bool := false
  ueAddr : BitVec 33 := 0
  ueReq : BitVec 4 := 0
  ueOverrun : Bool := false
  ce : Word := 0
  ue : Word := 0
  hotRef : Word := 0
  scrubPasses : Word := 0
  fwd : Word := 0
  scrubbing : Bool := false
  /-- MEM_CFG word 0 in force in this refresh window (R669) -/
  hotCfg : Word := 0x10400
deriving DecidableEq, Repr

end Sys2Proof.Machine
end

