-- ==== Sys2Proof/Machine/Parts/Inputs.lean ====
section
/-!
DEFINITION. What the events bring from outside, as the operands of commands: frames and blocks received on a lane, measured
calibration values, and messages.
-/

namespace Sys2Proof.Machine

/-- What is wrong with a received frame on its lane (R479, R480). -/
inductive FrameFault where
  | none
  /-- CRC mismatch, or an invalid block within the frame -/
  | crc
  /-- another control block arrived before the frame was complete -/
  | abort
  /-- an undefined frame type -/
  | undefined
deriving DecidableEq, Repr

/-- A frame as it arrives (R478); its type is the command's own. -/
structure FrameIn where
  fault : FrameFault := .none
  nblk : Nat
  fseq : BitVec 16
  stamp : Word
  bytes : List Byte
deriving DecidableEq, Repr

/-- A superframe that a SEAL block should close (R495, R496): its 1,023 first blocks as 17 bytes each, whether block 1,023 is a SEAL
block, the block's SFN and TAG, and what went wrong in it. -/
structure SealIn where
  blocks : List Byte
  sealed : Bool
  dir : Byte
  sfn : BitVec 48
  tag : BitVec 64
  /-- a frame ending in it failed its CRC -/
  badFrame : Bool
  /-- blocks with an invalid header, and blocks that a run error spoiled -/
  badHeaders : Nat
  runErrors : Nat
  /-- control blocks of an undefined type -/
  undefined : Nat
deriving DecidableEq, Repr

/-- What a calibration run measures (R734, R739): the values for the unit's registers, the measured delay elements in fs, eye widths
before and after, and noise. -/
structure CalMeas where
  words : List Word
  elems : List Nat := []
  before : Nat := 0
  after : Nat := 0
  noise : Nat := 0
deriving DecidableEq, Repr

/-- What the firmware's protocol and servo conclude from a received event message (R614, R620, R622): the port's state, UTC_VALID,
LEAP and currentUtcOffset, whether a master has been selected, and the offset to the master in ns that a Sync gives. -/
structure ServoIn where
  portState : BitVec 4
  utc : BitVec 18
  selected : Bool := false
  offset : Option Word := none
deriving DecidableEq, Repr

/-- What a DMA channel has read of host memory for the descriptor at HEAD (R90): the descriptor's bytes 0-7, 8-15, 16-19 and 20-23, the data
of a DIR 0 descriptor, a host error after that many bytes, the bytes moved as SAFE_HOLD was entered or the link was lost, and what its
reads of layer memory find. -/
structure DmaIn where
  host : BitVec 64
  layer : BitVec 64
  len : Word
  ctl : Word
  data : List Byte := []
  hostErr : Option Nat := none
  stop : Nat := 0
  ecc : Ecc := {}
deriving DecidableEq, Repr

/-- What the device meets while a command takes effect: what its reads of layer memory find (R658, R659), and the descriptors that DMA
channels have in progress (R202). -/
structure Env where
  ecc : Ecc := {}
  dma : List (Fin 4 × DmaIn) := []
deriving DecidableEq, Repr

end Sys2Proof.Machine
end

