-- ==== Sys2Proof/Machine/Parts/Mgt.lean ====
section
/-!
DEFINITION. State of the management subsystem: mailbox, log, network window and Ethernet ports (16 of spec/).
-/

namespace Sys2Proof.Machine

/-- A log entry (R768); its CRC is computed when it is spelled out in bytes. -/
structure LogEnt where
  seq : Word
  time : BitVec 64
  code : BitVec 16
  sev : BitVec 8
  unit : BitVec 8
  /-- the 12 ARG bytes -/
  arg : List Byte
deriving DecidableEq, Repr

/-- A sector of the NVM log partition (R773). -/
structure LogSector where
  seq : Word
  first : Word
  erases : Word
  entries : List LogEnt
deriving DecidableEq, Repr

/-- The mailbox states (R785). -/
inductive MbState where
  | idle | busy | done
deriving DecidableEq, Repr

/-- MGT_MB_STATUS.STATE. -/
def MbState.code : MbState → Nat
  | .idle => 0 | .busy => 1 | .done => 2

/-- An open Ethernet transfer (R780): sender, identifier, length, bytes held. -/
structure NetXfer where
  sender : BitVec 32
  id : Word
  len : Nat
  /-- ranges received, as (offset, length) -/
  got : List (Nat × Nat)
deriving DecidableEq, Repr

/-- One Ethernet port's pins and link (R782). -/
structure EthPort where
  los : Bool := false
  linkUp : Bool := false
deriving DecidableEq, Repr

/-- The management subsystem. -/
structure Mgt where
  safeCause : BitVec 16 := 0
  /-- device time at which the fault of that cause occurred, 2^-16 ns (R783) -/
  safeAt : Nat := 0
  repairs : Word := 0
  mbState : MbState := .idle
  mbTag : BitVec 8 := 0
  mbResult : BitVec 4 := 0
  mbOp : BitVec 4 := 0
  mbArgs : Vector Word 8 := Vector.replicate 8 0
  mbRes : Vector Word 8 := Vector.replicate 8 0
  wdogCount : Word := 0
  /-- device time of the last watchdog expiry -/
  wdogAt : BitVec 64 := 0
  /-- SEQ of the next entry (MGT_LOG_SEQ) -/
  logSeq : Word := 0
  /-- entries not yet copied to staging, oldest first (R771) -/
  ring : List LogEnt := []
  /-- entries not yet in the NVM partition, oldest first -/
  waiting : List LogEnt := []
  /-- entries of this boot made before its BOOT entry, which they follow (R770) -/
  early : List LogEnt := []
  /-- the BOOT entry of this boot is written -/
  bootLogged : Bool := false
  logWr : Word := 0
  logFlushed : Word := 0xFFFFFFFF
  logLost : Word := 0
  /-- sectors of the NVM log partition, oldest first -/
  nvm : List LogSector := []
  nvmOldest : Word := 0
  /-- sectors skipped since the boot (R773) -/
  nvmSkipped : Nat := 0
  /-- an update window of NET_ARM is open, in s (R765) -/
  netWindow : Option Word := none
  xfer : Option NetXfer := none
  eth0 : EthPort := {}
  eth1 : EthPort := {}
deriving DecidableEq, Repr

end Sys2Proof.Machine
end

