-- ==== Sys2Proof/Machine/Parts/Output.lean ====
section
/-!
DEFINITION. What the device sends out: messages, completions, frames and datagrams. The list is the model's own
record of them, newest first; no rule reads it back (log row 7).
-/

namespace Sys2Proof.Machine

/-- One thing sent. -/
inductive Output where
  /-- an MSI-X message (R102) -/
  | msix (vector : Nat) (addr : BitVec 64) (data : Word)
  /-- the completion of a register read (R58, R61) -/
  | readData (p : Port) (off : Nat) (w : Word)
  /-- the completion of a BAR2 read (R88) -/
  | bar2Data (addr : Nat) (bytes : List Byte)
  /-- a poisoned completion (R89) -/
  | bar2Poison (addr : Nat)
  /-- data written to host memory by a DMA channel (R93, R94) -/
  | dmaData (ch : Nat) (host : BitVec 64) (bytes : List Byte) (poisoned : Bool)
  /-- the 8 status bytes of a descriptor, written at its index (R90) -/
  | dmaStatus (ch : Nat) (index : Nat) (status : Word) (moved : Word)
  /-- a frame sent on a lane: lane, frame type, FSEQ, STAMP, payload (R478) -/
  | frame (lane : Nat) (type : Nat) (fseq : BitVec 16) (stamp : Word) (payload : List Byte)
  /-- a control block sent on a lane: lane, block kind, contents -/
  | block (lane : Nat) (kind : Nat) (payload : List Byte)
  /-- a lamp bus frame (R594) -/
  | lampFrame (bytes : List Byte)
  /-- a broadcast frame of the AL series (R603) -/
  | alFrame (bytes : List Byte)
  /-- a UDP datagram: IPv4 address, port, contents (R779, R781) -/
  | datagram (ip : Word) (port : Nat) (bytes : List Byte)
  /-- a PTP message as it leaves the MII: Ethernet port, message and compensation bytes (R616, R617) -/
  | ptp (port : Nat) (bytes : List Byte)
  /-- a laser gate edge on LGATE of a beam: the CLK_EV tick of its time in 2^-16 ns, and how many delay elements after it (R316 to R318) -/
  | gate (beam : Nat) (level : Bool) (tick tap : Nat)
  /-- the transmitted stream of a lane is corrupted: lane, OP of LANEl_INJECT, EXP (R501) -/
  | corrupt (lane : Nat) (op : Nat) (exp : Nat)
  /-- a CMPOUT or ENCOUT pin change: output number, level -/
  | pin (out : Nat) (level : Bool)
deriving DecidableEq, Repr

end Sys2Proof.Machine
end

