-- ==== Sys2Proof/Machine/RegMap.lean ====
section
/-!
DEFINITION. The BAR0 map (R65): the event registers with their enables and vectors (R101), and the implemented bits
and reset value of every read-write register whose value is held as written (R46).
-/

namespace Sys2Proof.Machine

/-- The event (SQC) registers of the device. -/
inductive EvReg where
  | glb | dma (n : Fin 4) | boot | job | imp | beam (b : Fin 12) | mpl (b : Fin 12) | hmap | sig
  | cell (c : Fin 128) | cellArr | lane (l : Fin 28) | stg (a : Fin 8) | ilk | time | mem | clk | pwr | hlt | mgt
deriving DecidableEq, Repr

/-- BAR0 offset of an event register (R76, R96, R187, R229, R286, R345, R399, R401, R470, R463, R468, R517, R579,
R608, R638, R676, R711, R716, R759, R787). -/
def EvReg.off : EvReg → Nat
  | .glb => 0x30
  | .dma n => 0x101C + 0x100 * n.val
  | .boot => 0x10300
  | .job => 0x20100
  | .imp => 0x30200
  | .beam b => 0x40100 + 0x1000 * b.val
  | .mpl b => 0x50100 + 0x1000 * b.val
  | .hmap => 0x5C100
  | .sig => 0x60100
  | .cell c => 0x80200 + 0x400 * c.val
  | .cellArr => 0x70100
  | .lane l => 0xA0100 + 0x400 * l.val
  | .stg a => 0xB0100 + 0x800 * a.val
  | .ilk => 0xC0200
  | .time => 0xD0300
  | .mem => 0xE0200
  | .clk => 0xF0100
  | .pwr => 0xF8100
  | .hlt => 0x100200
  | .mgt => 0x110200

/-- The enable register stands one word above its event register. -/
def EvReg.en (e : EvReg) : Nat := e.off + 4

/-- The MSI-X vector an event bit feeds (R101). -/
def EvReg.vec (e : EvReg) (bit : Nat) : Nat :=
  match e with
  | .glb => if bit = 0 then 0 else if bit = 1 then 1 else 2
  | .dma n => 4 + n.val
  | .boot => 60
  | .job => 3
  | .imp => 8
  | .beam b => 16 + b.val
  | .mpl b => 16 + b.val
  | .hmap => 58
  | .sig => 57
  | .cell _ => 56
  | .cellArr => 56
  | .lane l => 28 + l.val
  | .stg _ => 15
  | .ilk => 14
  | .time => 12
  | .mem => 13
  | .clk => 59
  | .pwr => 59
  | .hlt => 11
  | .mgt => if bit = 0 then 9 else 10

/-- Registers held as written: `count` words from `base`, `stride` apart. -/
structure RegRow where
  base : Nat
  stride : Nat
  count : Nat
  mask : Word
  reset : Word
deriving DecidableEq, Repr

/-- Whether `off` is one of a row's registers. -/
def RegRow.has (r : RegRow) (off : Nat) : Bool :=
  decide (r.base ≤ off) && decide ((off - r.base) % r.stride = 0) && decide ((off - r.base) / r.stride < r.count)

/-- Enable registers. -/
def enRows : List RegRow := [
  ⟨0x34, 4, 1, 0xFFFFFF, 0x3⟩,
  ⟨0x1020, 0x100, 4, 0x7, 0x3⟩,
  ⟨0x10304, 4, 1, 0xFF, 0x3F⟩,
  ⟨0x20104, 4, 1, 0xFF, 0x9F⟩,
  ⟨0x30204, 4, 1, 0x1FF, 0x11F⟩,
  ⟨0x40104, 0x1000, 12, 0xFF, 0xC3⟩,
  ⟨0x50104, 0x1000, 12, 0x7F, 0x35⟩,
  ⟨0x5C104, 4, 1, 0xF, 0xB⟩,
  ⟨0x60104, 4, 1, 0x3, 0x2⟩,
  ⟨0x70104, 4, 1, 0x1F, 0x0D⟩,
  ⟨0x80204, 0x400, 128, 0x1FF, 0x3C⟩,
  ⟨0xA0104, 0x400, 28, 0x1FFF, 0xA0F⟩,
  ⟨0xB0104, 0x800, 8, 0xFFF, 0xB1E⟩,
  ⟨0xC0204, 4, 1, 0x3FF, 0x15D⟩,
  ⟨0xD0304, 4, 1, 0x3F, 0x3C⟩,
  ⟨0xE0204, 4, 1, 0x1FF, 0x1AA⟩,
  ⟨0xF0104, 4, 1, 0x1F, 0x1F⟩,
  ⟨0xF8104, 4, 1, 0x7, 0x7⟩,
  ⟨0x100204, 4, 1, 0xFFFFF, 0x7C3BE⟩,
  ⟨0x110204, 4, 1, 0x3F, 0x3F⟩]

/-- Other registers held as written. The resets that the spec gives as "per calibration" are 0 (log row 12). -/
def rwRows : List RegRow := [
  -- GLB_SCRATCH, GLB_MSIX_MOD (R67, R82)
  ⟨0x2C, 4, 1, 0xFFFFFFFF, 0⟩,
  ⟨0x50, 4, 1, 0x3FF, 0⟩] ++
  -- BEAMb_TAPn (R344)
  tab 12 (fun b => ⟨0x40080 + 0x1000 * b, 4, 8, 0x3F3F3F3F, 0⟩) ++
  -- MPLb_DARK_AB, MPLb_DARK_BR (R397)
  [⟨0x50040, 0x1000, 12, 0xFFFFFFFF, 0⟩, ⟨0x50044, 0x1000, 12, 0xFFFFFFFF, 0⟩,
  -- LANEl_EQ, LANEl_PRBS (R513, R514)
  ⟨0xA000C, 0x400, 28, 0x3F3F3F3F, 0⟩, ⟨0xA0010, 0x400, 28, 0x31, 0x20⟩,
  -- TRCn_CTRL, LEVEL, DECIM of both channels (R462)
  ⟨0x80100, 0x400, 128, 0xFFFFF003, 0⟩, ⟨0x80120, 0x400, 128, 0xFFFFF003, 0⟩,
  ⟨0x80108, 0x400, 128, 0xFFFFFFFF, 0⟩, ⟨0x80128, 0x400, 128, 0xFFFFFFFF, 0⟩,
  ⟨0x8010C, 0x400, 128, 0xFFFF, 1⟩, ⟨0x8012C, 0x400, 128, 0xFFFF, 1⟩,
  -- CELL_DEEP_CTRL (R467), SIG_SEL (R470)
  ⟨0x70020, 4, 1, 0xFFFFFF0F, 0x100000⟩, ⟨0x60000, 4, 1, 0x7FF, 0⟩,
  -- STGa_TARGET, STGa_CMP_POS, STGa_CMP_CTRL (R574, R577)
  ⟨0xB0008, 0x800, 8, 0xFFFFFFFF, 0⟩, ⟨0xB0080, 0x800, 8, 0xFFFFFFFF, 0⟩, ⟨0xB0088, 0x800, 8, 0xFFFF0001, 0x03E80001⟩,
  -- HLT_DACb, HLT_ADCi (R758); gain per calibration
  ⟨0x100140, 4, 12, 0xFFFFFFFF, 0x40000000⟩, ⟨0x100180, 4, 16, 0xFFFF, 0⟩]

/-- Every register held as written. -/
def regRows : List RegRow := enRows ++ rwRows

/-- The row of an offset. -/
def regRow (off : Nat) : Option RegRow := regRows.find? (fun r => r.has off)

/-- Reset value of a register held as written (event registers reset to 0) (DESIGN CHOICE, log row 12). -/
def regReset (off : Nat) : Word := match regRow off with | some r => r.reset | none => 0

/-- The event registers, for finding one by its offset. -/
def evFind (off : Nat) : Option EvReg :=
  if off = 0x30 then some .glb
  else if off = 0x10300 then some .boot
  else if off = 0x20100 then some .job
  else if off = 0x30200 then some .imp
  else if off = 0x5C100 then some .hmap
  else if off = 0x60100 then some .sig
  else if off = 0x70100 then some .cellArr
  else if off = 0xC0200 then some .ilk
  else if off = 0xD0300 then some .time
  else if off = 0xE0200 then some .mem
  else if off = 0xF0100 then some .clk
  else if off = 0xF8100 then some .pwr
  else if off = 0x100200 then some .hlt
  else if off = 0x110200 then some .mgt
  else if 0x101C ≤ off ∧ off < 0x1400 ∧ (off - 0x101C) % 0x100 = 0 then
    if h : (off - 0x101C) / 0x100 < 4 then some (.dma ⟨_, h⟩) else none
  else if 0x40100 ≤ off ∧ (off - 0x40100) % 0x1000 = 0 ∧ off < 0x4C000 then
    if h : (off - 0x40100) / 0x1000 < 12 then some (.beam ⟨_, h⟩) else none
  else if 0x50100 ≤ off ∧ (off - 0x50100) % 0x1000 = 0 ∧ off < 0x5C000 then
    if h : (off - 0x50100) / 0x1000 < 12 then some (.mpl ⟨_, h⟩) else none
  else if 0x80200 ≤ off ∧ (off - 0x80200) % 0x400 = 0 ∧ off < 0xA0000 then
    if h : (off - 0x80200) / 0x400 < 128 then some (.cell ⟨_, h⟩) else none
  else if 0xA0100 ≤ off ∧ (off - 0xA0100) % 0x400 = 0 ∧ off < 0xA7000 then
    if h : (off - 0xA0100) / 0x400 < 28 then some (.lane ⟨_, h⟩) else none
  else if 0xB0100 ≤ off ∧ (off - 0xB0100) % 0x800 = 0 ∧ off < 0xB4000 then
    if h : (off - 0xB0100) / 0x800 < 8 then some (.stg ⟨_, h⟩) else none
  else none

end Sys2Proof.Machine
end

