-- ==== Sys2Proof/Syntax.lean ====
section
/-!
DEFINITION. The commands of the FV2412: one constructor for each row of spec/opcode_table.json, in the table's order. A command carries
what comes from outside the device: the port and the word of a register write, what arrived on a lane or a pin, and what a measurement
found (log row 40). A command register's operation is fixed by its row; `hi` are the bits of the word above it. An operand with a
default value is one that the command's surroundings need not supply: left out, nothing of its kind happened (log row 120).
-/

namespace Sys2Proof

open Machine

/-- A command. -/
inductive Instr where
  /-- VBAT_RISE (R19): VBAT rises above its minimum, taking the device from OFF to STANDBY with retention marked invalid and PWR_REQ raised. -/
  | vbatRise
  /-- VBAT_FALL (R19): VBAT falls below its minimum in STANDBY, taking the device to OFF and losing retention. -/
  | vbatFall
  /-- MAIN_SUPPLY_UP (R703): Every monitored main rail reaches its rising threshold with RESET_N high, starting a cold boot. -/
  | mainSupplyUp (refSel : Bool := false)
  /-- MAIN_SUPPLY_LOSS (R703): A main rail stays below its falling threshold for 1 µs; supply lost is recorded and the device goes to STANDBY or OFF. -/
  | mainSupplyLoss
  /-- WAKE_EDGE (R701): An enabled WAKE edge in STANDBY raises PWR_REQ to request main power. -/
  | wakeEdge (rising : Bool)
  /-- RTC_ALARM (R701): An enabled RTC alarm in STANDBY raises PWR_REQ to request main power. -/
  | rtcAlarm
  /-- RESET_N_LOW (R703): RESET_N held low for 1 µs or longer begins a full reset on the timeline of R106. -/
  | resetNLow
  /-- RESET_N_RISE (R703): RESET_N rises after a full reset, and the boot begins. -/
  | resetNRise (flash : Option FlashIn := none)
  /-- RESET_KEY_OPEN (R104): A write of 0xC0DE to GLB_RESET opens or restarts the port's 1 ms key window. -/
  | resetKeyOpen (p : Port)
  /-- RESET_KEY_CONFIRM (R104): A write of 0xF00D to GLB_RESET within an open window begins a full reset. -/
  | resetKeyConfirm (p : Port)
  /-- RESET_KEY_INVALID (R104): Any other GLB_RESET write closes the sequence and raises KEY_ABANDONED. -/
  | resetKeyInvalid (p : Port) (v : Word)
  /-- RESET_KEY_WINDOW_END (R104): The 1 ms key window ends without a second write, closing the sequence and raising KEY_ABANDONED. -/
  | resetKeyWindowEnd (p : Port)
  /-- REFCLK_QUALIFIED (R679): REFCLK completes its qualification count, and boot continues from the CLOCKS phase. -/
  | refclkQualified (flashOk : Bool)
  /-- REFCLK_WAIT_TIMEOUT (R679): REFCLK has not qualified 10 ms after the backup RC, so FAULT_N is driven low and the ROM keeps waiting. -/
  | refclkWaitTimeout
  /-- MEM_TRAINING_DONE (R662): LPDDR5 training completes during boot, or fails, which ends the attempt with cause MEMORY. -/
  | memTrainingDone (ok0 ok1 : Bool) (rd0 wr0 rd1 wr1 : Byte) (crcOk : Bool)
  /-- SWEEP_DONE (R663): The cold-boot zero sweep of layer memory completes. -/
  | sweepDone
  /-- BOOT_COMPLETE (R19): Ingot loaded, hallmark valid and every block configured, so the device enters CONFIGURED and clears the attempt count. -/
  | bootComplete (failed : List (Fin 128)) (dMax : Word) (nB : BitVec 5) (cal : List (CalUnit × CalMeas)) (ecc : Ecc := {})
  /-- BOOT_ATTEMPT_FAIL (R129): A boot attempt fails; its cause is recorded and the bank choice of R128 is applied again. -/
  | bootAttemptFail (cause : BitVec 4)
  /-- BOOT_WATCHDOG_EXPIRE (R130): An attempt has not reached CONFIGURED 5 s after it began and is ended as failed with cause WATCHDOG. -/
  | bootWatchdogExpire
  /-- POWER_GOOD_LOST (R698): A domain loses power-good while on, which is an unrepairable fault raising POWER_FAULT. -/
  | powerGoodLost (d : Fin 12)
  /-- GLB_START (R19): GLB_CMD START takes the device from CONFIGURED to BUILDING or PROOF, with the job IDLE. -/
  | glbStart (p : Port) (hi : BitVec 28) (env : Env := {})
  /-- GLB_END (R19): GLB_CMD END returns the device from BUILDING or PROOF to CONFIGURED when the job is IDLE, FINISHED or ABORTED. -/
  | glbEnd (p : Port) (hi : BitVec 28)
  /-- GLB_STANDBY (R699): GLB_CMD STANDBY parks heads, stops axes, flushes the log, and switches domains off. -/
  | glbStandby (p : Port) (hi : BitVec 28)
  /-- STANDBY_SEQUENCE_RESUME (R699): Once the axes are at rest, or 100 ms has passed, the standby sequence continues to the flush, power-off and PWR_REQ … -/
  | standbySequenceResume
  /-- GLB_SAFE_HOLD (R19): GLB_CMD SAFE_HOLD enters safe hold by command, with FAULT_N staying high. -/
  | glbSafeHold (p : Port) (hi : BitVec 28)
  /-- HOST_TIMEOUT_EXPIRE (R36): No GLB_HEARTBEAT arrives within HOST_TIMEOUT, so the host is no longer present. -/
  | hostTimeoutExpire
  /-- GLB_HEARTBEAT (R42): A host write to GLB_HEARTBEAT restarts the host timeout and ends host-absent mode if the link is up. -/
  | glbHeartbeat (p : Port) (v : Word)
  /-- PCIE_LINK_LOSS (R108): The PCIe link is lost; LINK_WAS_DOWN is raised, DMA halts with LINK_LOST, and host-absent mode is entered in a build. -/
  | pcieLinkLoss (lost : List (Fin 4 × DmaIn) := [])
  /-- PCIE_HOT_RESET (R108): A PCIe hot reset is handled as a link loss without resetting the device. -/
  | pcieHotReset (lost : List (Fin 4 × DmaIn) := [])
  /-- PCIE_LINK_UP (R108): The PCIe link returns; host-absent mode is not ended by this alone. -/
  | pcieLinkUp (cfg : PciCfg)
  /-- D3HOT_ENTRY (R84): Entry into D3hot is treated as link loss, and MSI-X occurrences are gathered as if masked. -/
  | d3hotEntry
  /-- D0_RETURN (R84): Return from D3hot to D0 sends the gathered MSI-X messages. -/
  | d0Return
  /-- PERST_N_ASSERT (R792): Assertion of PERST_N is treated as a PCIe link loss and never causes a full reset. -/
  | perstNAssert (lost : List (Fin 4 × DmaIn) := [])
  /-- REGISTER_WRITE (R46): A write to a register field without a row of its own acts according to its access code. -/
  | registerWrite (p : Port) (off : BitVec 24) (v : Word) (be : BitVec 4) (env : Env := {})
  /-- SQC_CLEAR_WRITE (R46): A write to an SQC event register clears the named bits only if its sequence number matches. -/
  | sqcClearWrite (p : Port) (e : EvReg) (v : Word)
  /-- LOCK_FIELD_WRITE (R49): A write to a LOCK field takes effect only as the first write since reset; later writes raise LOCKERR. -/
  | lockFieldWrite (p : Port) (off : BitVec 24) (v : Word)
  /-- PAIR_LOW_READ (R58): A 32-bit read of a pair's low word latches the high word into the port's read shadow. -/
  | pairLowRead (p : Port) (off : BitVec 24) (long : BitVec 10 := 0)
  /-- PAIR_HIGH_READ (R58): A 32-bit read of a pair's high word returns the shadow, or returns the live word and raises SHADOW_MISS. -/
  | pairHighRead (p : Port) (off : BitVec 24)
  /-- PAIR_LOW_WRITE (R58): A 32-bit write of a pair's low word is held in the port's write shadow. -/
  | pairLowWrite (p : Port) (off : BitVec 24) (v : Word)
  /-- PAIR_HIGH_WRITE (R58): A 32-bit write of a pair's high word writes both words together if the shadow holds the pair. -/
  | pairHighWrite (p : Port) (off : BitVec 24) (v : Word)
  /-- PAIR_64BIT_WRITE (R57): An aligned 64-bit write updates both words of a pair at the same instant. -/
  | pair64bitWrite (p : Port) (off : BitVec 24) (v : BitVec 64) (more : List Word := []) (env : Env := {})
  /-- BAR2_READ (R88): A host read through BAR2 is served from layer memory, or returns a poisoned completion on an uncorrectable error. -/
  | bar2Read (off : BitVec 28) (len : Nat) (ecc : Ecc)
  /-- BAR2_WRITE (R87): A host write through BAR2 is accepted only into the forme store or spare region outside guarded ranges and SAFE_HOLD. -/
  | bar2Write (off : BitVec 28) (bytes : List Byte)
  /-- WINDOW_BASE_WRITE (R85): A write of GLB_WIN moves the BAR2 window base, or is refused with ACCERR. -/
  | windowBaseWrite (p : Port) (lo hi : Word)
  /-- DMA_TAIL_WRITE (R96): A write of GLB_DMAn_TAIL makes descriptors ready for the channel. -/
  | dmaTailWrite (p : Port) (n : Fin 4) (v : Word)
  /-- DMA_ENABLE (R96): Setting ENABLE starts the channel performing descriptors from HEAD to TAIL. -/
  | dmaEnable (p : Port) (n : Fin 4)
  /-- DMA_DISABLE (R99): Clearing ENABLE lets the channel finish its descriptor and become IDLE, keeping HEAD. -/
  | dmaDisable (p : Port) (n : Fin 4)
  /-- DMA_SKIP (R96): SKIP on a HALTED channel advances HEAD and resumes the channel. -/
  | dmaSkip (p : Port) (n : Fin 4)
  /-- DMA_RETRY (R96): RETRY on a HALTED channel performs the descriptor at HEAD again. -/
  | dmaRetry (p : Port) (n : Fin 4)
  /-- DMA_RING_WRITE (R96): A write of the ring base or size sets HEAD to 0, or is refused while ENABLE is 1. -/
  | dmaRingWrite (p : Port) (n : Fin 4) (size : Bool) (lo hi : Word)
  /-- DMA_DESC_DONE (R95): A descriptor completes or fails; the status is written back, and the channel halts on any result other than OK. -/
  | dmaDescDone (n : Fin 4) (host layer : BitVec 64) (len ctl : Word) (data : List Byte) (hostErr : Option Nat) (stop : Nat) (ecc : Ecc)
      (others : List (Fin 4 × DmaIn) := [])
  /-- MSIX_INTERVAL_END (R102): A moderation interval ends, and the gathered occurrences of the vector are sent as one message. -/
  | msixIntervalEnd (v : Fin 64)
  /-- ROLLBACK (R133): BOOT_CMD ROLLBACK withdraws the booted bank so that the next full reset boots the other. -/
  | rollback (p : Port) (hi : BitVec 28)
  /-- REINSTATE (R133): BOOT_CMD REINSTATE clears the attempt count and the withdrawn flag of a bank. -/
  | reinstate (p : Port) (hi : BitVec 28)
  /-- RAISE_FLOOR (R133): BOOT_CMD RAISE_FLOOR programs a version floor word with the booted VERSION. -/
  | raiseFloor (p : Port) (hi : BitVec 28)
  /-- REVOKE_SLOT (R133): BOOT_CMD REVOKE_SLOT revokes a key-hash slot. -/
  | revokeSlot (p : Port) (hi : BitVec 28)
  /-- REC_SELECT (R147): A write of BOOT_REC_SEL copies the selected record's active values into the port's staging buffer. -/
  | recSelect (p : Port) (v : Word)
  /-- REC_DATA_WRITE (R158): A write of BOOT_REC_DATA changes one word of the port's staging buffer. -/
  | recDataWrite (p : Port) (i : BitVec 8) (v : Word)
  /-- REC_COMMIT (R148): BOOT_REC_COMMIT checks the staging buffer, then refuses it or copies it into the record's pending copy. -/
  | recCommit (p : Port) (v : Word)
  /-- RECORD_TAKE (R149): At its take point the consumer replaces a record's active values with the pending copy in one step. -/
  | recordTake (id : BitVec 16)
  /-- QUOIN_ADD (R162): BOOT_QUOIN_ADD locks a record, or every layer and live record, until the next full reset. -/
  | quoinAdd (p : Port) (v : Word)
  /-- RELOAD_REQUEST (R165): BOOT_RELOAD requests that one head's sections be reloaded from the inactive bank. -/
  | reloadRequest (p : Port) (v : Word)
  /-- RELOAD_ARMED (R167): The requested sections are loaded and digest-checked, and the reload becomes ARMED or ends with DIGEST. -/
  | reloadArmed
  /-- RELOAD_SWITCH (R168): At the selected layer or slug boundary, the beam switches to the reloaded sections. -/
  | reloadSwitch
  /-- UPDATE_WRITE (R174): BOOT_UPD_CMD WRITE starts writing a staged ingot into the inactive bank. -/
  | updateWrite (p : Port) (hi : BitVec 30)
  /-- UPDATE_CANCEL (R175): BOOT_UPD_CMD CANCEL ends an update, leaving the target marked as being written. -/
  | updateCancel (p : Port) (hi : BitVec 30)
  /-- UPDATE_STAGE_END (R174): An update stage completes or fails, and the update moves to its next stage, DONE, or failure. -/
  | updateStageEnd (r : Option Bool)
  /-- JOB_COMMIT (R202): A JOB_COMMIT write starts the commit check of a forme at the given address. -/
  | jobCommit (p : Port) (v : Word) (env : Env)
  /-- COMMIT_CHECK_END (R203): The commit check finishes reading the forme, and the slot is QUEUED or returns to FREE. -/
  | commitCheckEnd (ecc : Ecc) (dma : List (Fin 4 × DmaIn))
  /-- JOB_PAUSE (R219): JOB_CMD PAUSE stops further make-ready steps or slug hand-out. -/
  | jobPause (p : Port) (hi : BitVec 28)
  /-- JOB_STOP (R219): JOB_CMD STOP stops beams in mid-slug and decelerates axes, keeping their remaining distances. -/
  | jobStop (p : Port) (hi : BitVec 28)
  /-- JOB_RESUME (R219): JOB_CMD RESUME clears absent causes and returns the job to the state that RESUME_TO names. -/
  | jobResume (p : Port) (hi : BitVec 28) (env : Env := {})
  /-- JOB_ABORT (R219): JOB_CMD ABORT stops emission and motion and enters ABORTED. -/
  | jobAbort (p : Port) (hi : BitVec 28)
  /-- JOB_START (R219): JOB_CMD START from FINISHED or ABORTED makes the head forme ACTIVE and begins make-ready. -/
  | jobStart (p : Port) (hi : BitVec 28) (env : Env := {})
  /-- JOB_FLUSH (R219): JOB_CMD FLUSH frees every QUEUED slot and ends a commit in CHECKING with FLUSHED. -/
  | jobFlush (p : Port) (hi : BitVec 28)
  /-- ABORT_SETTLED (R207): Once every beam has stopped after ABORT, the ACTIVE slot becomes FREE. -/
  | abortSettled
  /-- MAKE_READY_STEP_END (R213): A make-ready step ends, and the next step begins or the job passes to EXPOSING or PAUSED. -/
  | makeReadyStepEnd (env : Env := {})
  /-- MR_TIMEOUT (R215): A make-ready step has not ended by MR_TIMEOUT, and a make-ready fault is reported. -/
  | mrTimeout
  /-- IMAGE_TIMEOUT (R216): The layer image has not arrived within IMAGE_TIMEOUT, so step 5 ends and IMAGE_MISSED is raised. -/
  | imageTimeout (env : Env := {})
  /-- IMP_CHOICE (R248): The imposition engine makes one choice of a beam's next slug, or leaves the beam waiting. -/
  | impChoice (b : Fin 12) (ecc : Ecc)
  /-- SLUG_END (R298): A beam's slug ends; it is recorded, and the reserved slug becomes current. -/
  | slugEnd (b : Fin 12) (env : Env := {})
  /-- WAIT_PRIO_ELAPSED (R249): A beam whose galley candidate failed keep-out has waited WAIT_PRIO and now waits with priority. -/
  | waitPrioElapsed (b : Fin 12)
  /-- RETIRE (R280): IMP_CMD RETIRE retires a beam with cause HOST. -/
  | retire (p : Port) (hi : BitVec 28)
  /-- RETIREMENT_SCAN_END (R257): The retirement scan over the beam's remaining slugs ends, writing RETIRE and HELD entries and raising SCAN_DONE. -/
  | retirementScanEnd (ecc : Ecc)
  /-- RETURN (R266): IMP_CMD RETURN asks that a retired beam return, starting its stopped contexts where needed. -/
  | returnBeam (p : Port) (hi : BitVec 28)
  /-- RETURN_ENGAGED (R266): The beam's scanner, focus and laser contexts engage, and the commanded return completes. -/
  | returnEngaged (b : Fin 12)
  /-- RETURN_TIMEOUT (R266): The contexts are not engaged 100 ms after RETURN, so the return fails and the contexts stop again. -/
  | returnTimeout (b : Fin 12)
  /-- BEAM_AUTO_RETURN (R265): A beam retired for NOT_READY, or with AUTO_RETURN set, returns as soon as R264 holds. -/
  | beamAutoReturn (b : Fin 12)
  /-- IMP_REC_RD_WRITE (R283): A write of IMP_REC_RD releases imposition record entries, or is refused with ACCERR. -/
  | impRecRdWrite (p : Port) (v : Word)
  /-- RECORD_ENTRY_DEFERRED (R275): A record entry that waited for free space is written once space is available. -/
  | recordEntryDeferred (env : Env := {})
  /-- BEAM_SAMPLE_INSTANT (R288): At each sample instant the beam engine publishes X, Y and F setpoints and feed-forward to the signal switch. -/
  | beamSampleInstant (b : Fin 12) (grid : Option (Word × Bool))
  /-- GATE_EDGE_FIRE (R318): An issued gate edge fires on LGATE at its placed time. -/
  | gateEdgeFire (b : Fin 12)
  /-- DAC_INSTANT (R327): At each 500 ns DAC instant the power request is formed and the LPWR DAC is written. -/
  | dacInstant (b : Fin 12)
  /-- LOOKAHEAD_ANSWER (R383): The heat map unit answers a look-ahead request with the scale σ. -/
  | lookaheadAnswer (b : Fin 12) (late : Bool) (ecc : Ecc)
  /-- BEAM_MOVE_AT_TARGET (R335): A JUMP or inserted move brings the setpoint to rest at its target. -/
  | beamMoveAtTarget (b : Fin 12)
  /-- JUMP_SETTLE_ELAPSED (R292): JUMP_SETTLE has elapsed, and run-up, mark or dwell begins. -/
  | jumpSettleElapsed (b : Fin 12)
  /-- RUNUP_AT_START (R293): The run-up setpoint reaches the mark start at mark speed. -/
  | runupAtStart (b : Fin 12)
  /-- MARK_AT_END (R335): The setpoint reaches the mark end, and run-out, a continued junction or the slug end follows. -/
  | markAtEnd (b : Fin 12)
  /-- STOPPING_AT_REST (R328): A decelerating beam comes to rest in HOLD and raises STOPPED. -/
  | stoppingAtRest (b : Fin 12)
  /-- DRIFT_STALE (R309): The head temperature is older than 1 s, so the last value is kept and DRIFT_STALE is raised. -/
  | driftStale (b : Fin 12)
  /-- PD_PAYLOAD (R349): A photodiode payload arrives and is placed in its slot, or discarded as a duplicate or late. -/
  | pdPayload (l : Fin 28) (f : FrameIn)
  /-- CAM_BEGIN (R350): A camera frame-begin payload arrives, and any incomplete earlier frame is discarded. -/
  | camBegin (l : Fin 28) (f : FrameIn)
  /-- CAM_LINE (R350): A camera line payload arrives, completing the frame once all 128 lines are present. -/
  | camLine (l : Fin 28) (f : FrameIn)
  /-- FRAME_METRICS_READY (R363): The imaging engine finishes the metrics of a complete frame and updates SLOW_METRIC. -/
  | frameMetricsReady (b : Fin 12)
  /-- FRAME_VALID_TIMEOUT (R365): No frame has been processed within 3 frame periods, so FRAME_VALID clears and FRAME_GAP is raised. -/
  | frameValidTimeout (b : Fin 12)
  /-- NO_LIGHT (R373): PD_SEL stays below EMIT_THR for DARK_US windows in emission, so NO_LIGHT is set. -/
  | noLight (b : Fin 12)
  /-- BACKREFL (R374): PD_BR reaches BR_LIMIT at BR_COUNT consecutive windows, raising BACKREFL and possibly retiring the beam. -/
  | backrefl (b : Fin 12)
  /-- CORR_SAT (R371): CORR exceeds its limit at every DAC instant for SAT_TIME_US, raising CORR_SAT. -/
  | corrSat (b : Fin 12)
  /-- HMAP_DECAY_SWEEP (R380): Every DECAY_PERIOD the heat map unit sweeps the current map, decaying each node. -/
  | hmapDecaySweep
  /-- HMAP_REC_RD_WRITE (R400): A write of HMAP_REC_RD releases recording ring entries, or is refused with ACCERR. -/
  | hmapRecRdWrite (p : Port) (v : Word)
  /-- CELL_SAMPLE_START (R428): A ready context sample starts on its cell and runs its law program to the end. -/
  | cellSampleStart (k : Fin 256) (agree late lost : Bool) (corr : Nat)
  /-- CELL_SAMPLE_OVERRUN (R429): A sample not ready at its latest start overruns: no sort executes and the overrun is counted. -/
  | cellSampleOverrun (k : Fin 256)
  /-- CTX_AUTO_RESTART (R437): A FAULTED context with AUTO_RESTART restarts after 64 consecutive fresh sample instants. -/
  | ctxAutoRestart (k : Fin 256)
  /-- CELL_HARD_FAULT (R444): A cell has an uncorrectable memory error or an over-long sample. -/
  | cellHardFault (c : Fin 128)
  /-- HARD_SETTLE_DONE (R447): A restarted context has executed HARD_SETTLE samples, and its owner is released. -/
  | hardSettleDone (k : Fin 256)
  /-- SUBST_COPY_DONE (R445): Programs and banks have been copied into the spare, and shadow execution begins. -/
  | substCopyDone
  /-- SHADOW_HANDOVER (R445): After SHADOW_N matching samples the spare takes over the outputs and the original enters QUARANTINE. -/
  | shadowHandover (k : Fin 256)
  /-- KAT_PERIOD_ELAPSED (R443): KAT_PERIOD has elapsed for a SPARE cell, and its known-answer test starts. -/
  | katPeriodElapsed (c : Fin 128)
  /-- KAT_DONE (R449): A known-answer test ends, and the cell becomes SPARE, QUARANTINE or FAILED. -/
  | katDone (c : Fin 128) (pass : Bool)
  /-- CELL_START (R464): CELL_CMD START starts a STOPPED context. -/
  | cellStart (p : Port) (hi : BitVec 28)
  /-- CELL_STOP (R464): CELL_CMD STOP stops a RUNNING context with its safe action. -/
  | cellStop (p : Port) (hi : BitVec 28)
  /-- RESTART (R464): CELL_CMD RESTART restarts a FAULTED context. -/
  | restart (p : Port) (hi : BitVec 28)
  /-- SUBST (R464): CELL_CMD SUBST starts a proactive substitution of a cell. -/
  | subst (p : Port) (hi : BitVec 28)
  /-- TEST (R464): CELL_CMD TEST starts a known-answer test of a SPARE cell. -/
  | test (p : Port) (hi : BitVec 28)
  /-- TRIG (R464): CELL_CMD TRIG fires a global trigger line. -/
  | trig (p : Port) (hi : BitVec 28)
  /-- CELL_TRG_WRITE (R469): A write of CELL_TRG fires the selected global trigger lines. -/
  | cellTrgWrite (p : Port) (v : Word)
  /-- TRACE_STOP (R451): An ARM channel has recorded 2,048 − PRE samples after its trigger and stops. -/
  | traceStop (c : Fin 128) (ch : Fin 2)
  /-- TRC_CTRL_WRITE (R462): A write of TRCn_CTRL sets the trace mode, and ARM or RING re-arms the channel. -/
  | trcCtrlWrite (p : Port) (c : Fin 128) (ch : Fin 2) (v : Word)
  /-- DEEP_RUN (R467): A write of RUN to CELL_DEEP_CTRL clears the counters and starts deep capture. -/
  | deepRun (p : Port) (hi : BitVec 30)
  /-- DEEP_DONE (R454): After DEEP_LINE fires, DEEP_POST entries are written, then capture stops and raises DEEP_DONE. -/
  | deepDone
  /-- LAG_MAX_CLEAR (R461): A write of any value to LAG_MAX clears it. -/
  | lagMaxClear (p : Port) (c : Fin 128) (slot : Bool) (v : Word)
  /-- SIG_SEL_WRITE (R470): A write of SIG_SEL latches the value, stamp and writer of one signal. -/
  | sigSelWrite (p : Port) (v : Word)
  /-- LANE_SIGNAL_DETECT (R491): A signal appears at a DETECT lane's receiver, and equalisation begins. -/
  | laneSignalDetect (l : Fin 28)
  /-- LANE_DETECT_TIMEOUT (R491): 10 ms pass in DETECT without a signal, raising NO_PARTNER once. -/
  | laneDetectTimeout (l : Fin 28)
  /-- LANE_EQUALISE_DONE (R491): Clock recovery and adaptation settle, and the lane enters ALIGN. -/
  | laneEqualiseDone (l : Fin 28)
  /-- LANE_ALIGN_LOCK (R475): 64 consecutive valid headers lock the receiver, and the lane enters IDENT. -/
  | laneAlignLock (l : Fin 28)
  /-- TRAIN_BLOCK (R491): A TRAIN control block is received and checked for identity, port and rate. -/
  | trainBlock (l : Fin 28) (seen : Bool) (port rate : Nat) (ident : BitVec 64) (inverted : Bool)
  /-- KEY_BLOCK (R494): A KEY block carries a keying step, and the head proof is judged valid or hostile. -/
  | keyBlock (l : Fin 28) (step : Nat) (data : List Byte)
  /-- LANE_SOAK_END (R493): The SOAK time elapses with zero errors at both ends, and the lane enters UP. -/
  | laneSoakEnd (l : Fin 28) (errors : Nat)
  /-- LANE_TRAIN_TIMEOUT (R491): A training state times out, and the attempt is retried or the lane enters FAILED. -/
  | laneTrainTimeout (l : Fin 28)
  /-- LANE_SIGNAL_LOSS (R491): The signal at a lane's receiver is lost during training or UP. -/
  | laneSignalLoss (l : Fin 28)
  /-- LANE_LOCK_LOST (R475): 16 invalid blocks in 64 lose lock, and an UP lane leaves UP to retrain. -/
  | laneLockLost (l : Fin 28)
  /-- LANE_CRC_LIMIT (R491): CRC errors exceed CRC_LIMIT in a second, and the lane retrains. -/
  | laneCrcLimit (l : Fin 28)
  /-- LANE_VOID_LIMIT (R491): Four consecutive VOID superframes make the lane retrain. -/
  | laneVoidLimit (l : Fin 28)
  /-- LANE_RETRY_ELAPSED (R491): RETRY_S elapses for a FAILED lane with AUTO_RETRY, and it returns to DETECT. -/
  | laneRetryElapsed (l : Fin 28)
  /-- SEAL_BLOCK (R496): A SEAL block closes a superframe, which is judged PASS, VOID or FAIL. -/
  | sealBlock (l : Fin 28) (f : SealIn)
  /-- SWITCH_ROUTED (R486): A SWITCH ROUTED block gives F_sw, from which camera frames are taken only from the new lane. -/
  | switchRouted (l : Fin 28) (fsw : BitVec 16)
  /-- SWITCH_SOAK_RESULT (R493): The head reports its soak error count at the end of SOAK. -/
  | switchSoakResult (l : Fin 28) (errors : Word)
  /-- POS_FRAME (R482): A POS frame delivers head positions and currents to the signal switch, stamped. -/
  | posFrame (l : Fin 28) (f : FrameIn)
  /-- STATUS_FRAME (R504): A STATUS frame delivers head temperature and bits, and a fault or unasked park retires the beam. -/
  | statusFrame (l : Fin 28) (f : FrameIn)
  /-- TSYNC_R_FRAME (R628): A TSYNC_R is received, and the lane's delay and offset are computed and alignment judged. -/
  | tsyncRFrame (l : Fin 28) (f : FrameIn)
  /-- AUX_VAL_FRAME (R505): An AUX_VAL frame writes auxiliary head values to the signal switch. -/
  | auxValFrame (l : Fin 28) (f : FrameIn)
  /-- IMG_BEGIN_FRAME (R506): An IMG_BEGIN frame starts an image in the image buffer. -/
  | imgBeginFrame (l : Fin 28) (f : FrameIn)
  /-- IMG_SEG_FRAME (R506): An IMG_SEG frame stores pixel bytes, and a complete image raises IMG_DONE. -/
  | imgSegFrame (l : Fin 28) (f : FrameIn) (env : Env := {})
  /-- CMD_KEEPALIVE (R483): No output write for 10 µs, so a CMD frame is sent anyway. -/
  | cmdKeepalive (b : Fin 12)
  /-- AUX_CMD_KEEPALIVE (R480): An AUX_CMD frame is sent at least every 100 µs to an auxiliary head. -/
  | auxCmdKeepalive (a : Fin 4)
  /-- TSYNC_SEND (R627): A TSYNC frame with T1 and ADJ is sent on each lane at 1,000 per second. -/
  | tsyncSend
  /-- RELEASE_SEND (R503): When a lane is UP, the beam is live and its scanner contexts are engaged, RELEASE is sent to the head. -/
  | releaseSend (b : Fin 12)
  /-- STATUS_TIMEOUT (R504): No STATUS for STATUS_TIMEOUT_US, so the head is treated as faulted and the beam retired. -/
  | statusTimeout (h : Fin 16)
  /-- FLOOD_TIMEOUT (R504): A run of flood drops lasts longer than FLOOD_MS, so the beam is retired with cause HEAD. -/
  | floodTimeout (h : Fin 16)
  /-- LANE_RETRAIN (R512): LANE_CMD RETRAIN sends the lane back to training. -/
  | laneRetrain (p : Port) (l : Fin 28) (hi : BitVec 28)
  /-- EYE_SCAN (R512): LANE_CMD EYE_SCAN starts an eye scan on the offset sampler. -/
  | eyeScan (p : Port) (l : Fin 28) (hi : BitVec 28)
  /-- EYE_SCAN_DONE (R500): An eye scan ends, reporting eye width and height and raising EYE_DONE. -/
  | eyeScanDone (l : Fin 28) (w h : Byte)
  /-- TEST_ENTER (R512): LANE_CMD TEST_ENTER puts the lane in raw PRBS TEST. -/
  | testEnter (p : Port) (l : Fin 28) (hi : BitVec 28)
  /-- TEST_EXIT (R512): LANE_CMD TEST_EXIT returns the lane to DETECT. -/
  | testExit (p : Port) (l : Fin 28) (hi : BitVec 28) (errors : Nat)
  /-- INJECT_BIT_ERROR (R514): LANEl_INJECT OP 0x1 corrupts one transmitted bit. -/
  | injectBitError (p : Port) (l : Fin 28) (hi : BitVec 28)
  /-- INJECT_ERROR_RATE (R514): LANEl_INJECT OP 0x2 starts bit errors at a set rate. -/
  | injectErrorRate (p : Port) (l : Fin 28) (hi : BitVec 28)
  /-- INJECT_STOP (R514): LANEl_INJECT OP 0x3 stops rate injection. -/
  | injectStop (p : Port) (l : Fin 28) (hi : BitVec 28)
  /-- INJECT_INVALID_HEADER (R514): LANEl_INJECT OP 0x4 sends one invalid block header. -/
  | injectInvalidHeader (p : Port) (l : Fin 28) (hi : BitVec 28)
  /-- INJECT_CRC_ERROR (R514): LANEl_INJECT OP 0x5 corrupts one frame CRC. -/
  | injectCrcError (p : Port) (l : Fin 28) (hi : BitVec 28)
  /-- INJECT_SEAL_ERROR (R514): LANEl_INJECT OP 0x6 corrupts one SEAL TAG. -/
  | injectSealError (p : Port) (l : Fin 28) (hi : BitVec 28)
  /-- MOVE_ABS (R574): STGa_CMD MOVE_ABS starts a move to an absolute target. -/
  | moveAbs (p : Port) (a : Fin 8) (hi : BitVec 28)
  /-- MOVE_REL (R574): STGa_CMD MOVE_REL starts a move by a relative distance. -/
  | moveRel (p : Port) (a : Fin 8) (hi : BitVec 28)
  /-- AXIS_STOP (R531): STGa_CMD STOP decelerates the axis at DEC and keeps REMAIN. -/
  | axisStop (p : Port) (a : Fin 8) (hi : BitVec 28)
  /-- AXIS_RESUME (R532): STGa_CMD RESUME moves to the stopped move's target if REMAIN is valid. -/
  | axisResume (p : Port) (a : Fin 8) (hi : BitVec 28)
  /-- HOME (R552): STGa_CMD HOME runs the homing sequence that MODE selects. -/
  | home (p : Port) (a : Fin 8) (hi : BitVec 28)
  /-- CLEAR (R562): STGa_CMD CLEAR takes an axis from FAULT to IDLE. -/
  | clear (p : Port) (a : Fin 8) (hi : BitVec 28)
  /-- CMP_CLEAR (R558): STGa_CMD CMP_CLEAR empties the compare list and clears MISSED. -/
  | cmpClear (p : Port) (a : Fin 8) (hi : BitVec 28)
  /-- CMP_PUSH (R555): A write of STGa_CMP_PUSH appends a compare entry, or is refused if the list is full. -/
  | cmpPush (p : Port) (a : Fin 8) (v : Word)
  /-- PROFILE_UPDATE (R522): Every 1 µs the profile generator computes the commanded speed and loads the rate multiplier. -/
  | profileUpdate (a : Fin 8)
  /-- AXIS_TARGET_REACHED (R525): The microstep reaching the target ends the move and raises MOVE_DONE. -/
  | axisTargetReached (a : Fin 8)
  /-- AXIS_AT_REST (R531): A stopping axis comes to rest, keeping REMAIN, and enters IDLE. -/
  | axisAtRest (a : Fin 8)
  /-- ENC_QUAD_STEP (R539): An accepted quadrature transition counts one encoder step up or down. -/
  | encQuadStep (a : Fin 8) (la lb : Bool)
  /-- QUAD_ERR_LIMIT (R540): More than QERR_MAX double transitions occur in 1 ms, faulting the axis with cause QUAD. -/
  | quadErrLimit (a : Fin 8)
  /-- ENC_INDEX_EDGE (R541): An active Z edge latches the measured position and raises INDEX. -/
  | encIndexEdge (a : Fin 8)
  /-- SSI_READING (R542): An SSI reading is taken and unwrapped, or counted invalid, faulting after three. -/
  | ssiReading (a : Fin 8) (raw : BitVec 32) (high parityOk : Bool) (env : Env := {})
  /-- AXIS_SIGNAL_PUBLISH (R520): Every 10 µs the axis writes its positions, speed and status to the signal switch. -/
  | axisSignalPublish (a : Fin 8)
  /-- STALL_CHECK (R545): Every 10 µs the deviation between measured and commanded position is checked against STALL_WIN. -/
  | stallCheck (a : Fin 8)
  /-- AXIS_STALL (R546): STALL_COUNT consecutive excessive deviations stall the axis, which enters FAULT with cause STALL. -/
  | axisStall (a : Fin 8)
  /-- LIMIT_ASSERT (R549): A limit input reaches its active level, latching its position and stopping motion towards it. -/
  | limitAssert (a : Fin 8) (pos : Bool)
  /-- LIMIT_RELEASE (R548): A limit has been inactive for LIM_DEB_US and becomes released. -/
  | limitRelease (a : Fin 8) (pos : Bool) (cmd meas : Int)
  /-- HOME_INPUT_EDGE (R552): The HOME input changes during homing, latching the point or changing the seek. -/
  | homeInputEdge (a : Fin 8) (on : Bool)
  /-- ENCOUT_EMIT (R560): A queued pulse-divider output count is emitted, spaced 100 ns from the last. -/
  | encoutEmit (c : Fin 2)
  /-- SPEED_ZERO_TIMEOUT (R544): No encoder count for SPD_ZERO_MS, so the measured speed becomes 0. -/
  | speedZeroTimeout (a : Fin 8)
  /-- HOLD_DELAY_ELAPSED (R536): HOLD_DELAY after coming to rest has elapsed, and the drive drops to HOLD_AMP. -/
  | holdDelayElapsed (a : Fin 8)
  /-- INHIBIT_FALL (R582): A low on an INHIBIT input sets the input latch, forces the gates low and stops exposure. -/
  | inhibitFall (ch : Bool)
  /-- INHIBIT_RISE (R584): An INHIBIT input returns high and the re-arm count restarts or begins. -/
  | inhibitRise (ch : Bool)
  /-- INPUT_LATCH_REARM (R584): Both inputs have been high for REARM_MS, so the input latch clears and REARMED is raised. -/
  | inputLatchRearm
  /-- DISCREPANCY_FAULT (R585): The INHIBIT inputs disagree for the whole ring-oscillator count, so the device enters SAFE_HOLD. -/
  | discrepancyFault
  /-- LAMP_ACK (R598): ILK_CMD LAMP_ACK clears a standing lamp inhibit, or is refused while a module has failed. -/
  | lampAck (p : Port) (hi : BitVec 28)
  /-- SCENE (R601): ILK_CMD SCENE applies a lamp scene by SET with WAIT_GO and then GO. -/
  | scene (p : Port) (hi : BitVec 28)
  /-- LAMP_POLL_CYCLE (R596): Every 2.5 ms the master polls interlocked modules and then the others in rotation. -/
  | lampPollCycle (n : BitVec 4)
  /-- LAMP_REPLY (R594): A module's STATUS, IDENT or COLOUR reply is received and its channel states are judged. -/
  | lampReply (a : Fin 32) (bytes : List Byte)
  /-- LAMP_POLL_MISSED (R597): A polled module does not answer in time, and three missed polls fail it. -/
  | lampPollMissed (a : Fin 32)
  /-- NOT_MEASURED_TIMEOUT (R597): A channel reports NOT_MEASURED for more than 1 s, so the module has failed. -/
  | notMeasuredTimeout (a : Fin 32)
  /-- AL_FRAME_SEND (R603): Every 20 ms with AL_ENABLE, an AL-series broadcast frame of duties is sent. -/
  | alFrameSend
  /-- COLOUR_FEEDBACK (R602): Every 20 ms the colour gains are updated from the sensor and new duties sent. -/
  | colourFeedback
  /-- BLINK_TOGGLE (R599): Every BLINK_MS a blinking pattern alternates between its duties and 0. -/
  | blinkToggle (g : Fin 8)
  /-- PTP_EVENT_RX (R618): A received PTP event message is stamped and delivered to the management subsystem. -/
  | ptpEventRx (p : Fin 2) (type : BitVec 4) (i : ServoIn)
  /-- PTP_TX (R616): A PTP message is transmitted, with one-step fields written as it leaves the MII. -/
  | ptpTx (p : Fin 2) (bytes : List Byte) (udp : Option (BitVec 16))
  /-- MASTER_LOST (R621): The announce receipt timeout expires with no qualifying master, so the servo enters HOLDOVER. -/
  | masterLost
  /-- TIME_MAP_CHANGE (R619): The network-time map terms are replaced together at the chosen device-time instant. -/
  | timeMapChange (dt : BitVec 64) (sec : BitVec 48) (ns rate : Word)
  /-- TIME_SNAP (R636): A TIME_SNAP write latches device time, the map and network time at one edge. -/
  | timeSnap (p : Port) (v : Word)
  /-- XTAL32_FAIL (R680): XTAL32 shows no edge for 1 ms, so XTAL32_FAIL is raised and the RTC stops. -/
  | xtal32Fail
  /-- MEM_RETRAIN (R675): MEM_CMD RETRAIN requests a retraining of a memory channel. -/
  | memRetrain (p : Port) (hi : BitVec 28)
  /-- SCRUB_NOW (R675): MEM_CMD SCRUB_NOW starts a patrol scrub pass at once. -/
  | scrubNow (p : Port) (hi : BitVec 28)
  /-- RETRAIN_RUN (R664): A pending retraining runs at the first moment the job is not EXPOSING. -/
  | retrainRun (c : Fin 2)
  /-- RETRAIN_END (R665): A retraining ends with a new setting, or keeps the old one and sets TRAIN_NONE. -/
  | retrainEnd (c : Fin 2) (ok : Bool) (rd wr : Byte) (env : Env := {})
  /-- REFRESH_DUE (R653): A bank's refresh falls due and is issued when its queues are empty or after 8 postponements. -/
  | refreshDue (c : Fin 2) (bank : Fin 16) (reads : List RdReq)
  /-- WRITE_QUEUE_DRAIN (R652): A channel drains its write queue at 48 entries or when no read waits. -/
  | writeQueueDrain (c : Fin 2) (reads : List RdReq)
  /-- HOT_ROW_REFRESH (R655): A row's activate count reaches HOT_THRESHOLD, and its neighbours are refreshed. -/
  | hotRowRefresh (c : Fin 2) (bank : Fin 16) (row : BitVec 16)
  /-- HOT_ROW_WINDOW (R655): A 32 ms refresh window starts, and the hot-row tables are emptied. -/
  | hotRowWindow
  /-- MR4_POLL (R654): Every 16 ms mode register 4 of each die is read and the refresh multiplier applied. -/
  | mr4Poll (t0 t1 : Byte) (r0 r1 : BitVec 4) (h0 h1 : Bool)
  /-- SCRUB_PASS_START (R661): A patrol scrub pass starts every SCRUB_HOURS. -/
  | scrubPassStart (ecc : Ecc)
  /-- SCRUB_PASS_DONE (R661): A patrol scrub pass completes, raising SCRUB_DONE. -/
  | scrubPassDone
  /-- CLOCK_MONITOR_TRIP (R688): REFCLK stops, drifts, or the root PLL loses lock, starting the forced fallback. -/
  | clockMonitorTrip (cause : BitVec 2)
  /-- FALLBACK_RC_QUALIFIED (R690): The backup RC qualifies after a trip, and M_REF and M_SYS are forced to it. -/
  | fallbackRcQualified
  /-- FALLBACK_PLL_LOCKED (R690): The root PLL locks on the backup RC, and domain reset is released except on the lane and host domains. -/
  | fallbackPllLocked (gap : BitVec 64)
  /-- FALLBACK_FIRMWARE_READY (R690): The restarted firmware passes its check, and SAFE_HOLD by fault is entered on the backup. -/
  | fallbackFirmwareReady (digestOk : Bool)
  /-- FALLBACK_TIMEOUT (R693): The RC or PLL does not come up within 10 ms of a trip, so only AON and SAFE act. -/
  | fallbackTimeout
  /-- PLL_UNLOCK (R689): A non-root PLL loses lock, raising PLL_UNLOCK with the action its row gives. -/
  | pllUnlock (i : Fin 6) (lost : List (Fin 4 × DmaIn) := [])
  /-- PLL_RELOCK (R689): An unlocked PLL relocks, and its lanes, links or axes resume as R689 gives. -/
  | pllRelock (i : Fin 6)
  /-- CLKOUT_SRC_WRITE (R686): A write of a new SRC to CLK_OUTc starts a glitch-free software switch. -/
  | clkoutSrcWrite (p : Port) (c : Fin 2) (v : Word)
  /-- CLKOUT_SWITCH_DONE (R685): A pending switch completes when the old and new clocks give their low phases. -/
  | clkoutSwitchDone (c : Fin 2)
  /-- SWITCH_STUCK (R686): A software switch has been pending for 1 ms, raising SWITCH_STUCK. -/
  | switchStuck (c : Fin 2)
  /-- CLK_GATE_REQUEST (R695): A management write to CLK_GATE requests or opens a block's clock gate. -/
  | clkGateRequest (p : Port) (v : Word)
  /-- GATE_CLOSE (R695): A requested gate closes at the first CLK_SYS edge at which the block's port is idle. -/
  | gateClose (i : Fin 14)
  /-- GATE_TIMEOUT (R695): The port is not idle within 1,024 cycles, so the request lapses and GATE_ERR is raised. -/
  | gateTimeout (i : Fin 14)
  /-- VBAT_LOW_SAMPLE (R716): VBAT is sampled every second and VBAT_LOW raised if below 1.8 V. -/
  | vbatLowSample (low : Bool)
  /-- TEMP_READ (R717): Every 1 ms the die temperatures are read for throttling and calibration triggers. -/
  | tempRead (core io mv : BitVec 16)
  /-- THROTTLE_TIMER (R743): A throttle grace, step or recovery time elapses, changing stage or κ_th. -/
  | throttleTimer
  /-- THERMAL_SHUTDOWN (R747): A shutdown comparator trips on two samples, so emission is inhibited and the device latches shut down. -/
  | thermalShutdown
  /-- CANARY_LIMIT (R721): Canary warnings reach CANARY_LIMIT in a second, so VDD_CORE is raised one code. -/
  | canaryLimit
  /-- VCORE_MISMATCH (R723): VDD_CORE reads more than 15 mV from its request for 1 ms, raising VCORE_MISMATCH. -/
  | vcoreMismatch (mv : BitVec 16)
  /-- TOUCHSTONE_MEASURE (R724): Hourly, the touchstones are measured and ageing compared with AGE_WARN. -/
  | touchstoneMeasure (dMax : Word)
  /-- MARGIN_HOURLY_CHECK (R724): Hourly corrected-error counts of DRAM and cells are compared with their limits. -/
  | marginHourlyCheck
  /-- EYE_SCAN_SCHEDULE (R724): Every EYE_PERIOD_S ÷ 28 the margin plan scans the next UP lane's eye. -/
  | eyeScanSchedule
  /-- LANE_RETRAIN_REQUEST (R733): A waiting lane retraining request of the margin plan is made once R733 allows it. -/
  | laneRetrainRequest (l : Fin 28)
  /-- LASER_MON_SAMPLE (R726): Every 10 µs the laser monitor signal and DAC code are sampled. -/
  | laserMonSample (b : Fin 12)
  /-- LASER_RATIO_UPDATE (R726): After each second of settled samples, the output ratio R is updated. -/
  | laserRatioUpdate (b : Fin 12)
  /-- LASER_EVALUATION (R727): Every 10 s of settled emission, compensation, margin weight, shortfall and retirement are evaluated. -/
  | laserEvaluation (b : Fin 12)
  /-- NOTCH_MEASURE (R731): Every NOTCH_PERIOD_S a trace is captured and the mirror resonance peak found. -/
  | notchMeasure (e : Fin 64) (peak : Word) (edge : Bool)
  /-- NOTCH_RETUNE_COMMIT (R732): At the next idle moment, the new notch F0 is committed to the context's coefficients. -/
  | notchRetuneCommit (e : Fin 64)
  /-- CAL (R757): HLT_CMD CAL runs the named calibration domains on every unit. -/
  | cal (p : Port) (hi : BitVec 28)
  /-- CAL_RUN_DONE (R740): A calibration run completes; its result is assayed and applied or rejected. -/
  | calRunDone (u : CalUnit) (r : CalMeas)
  /-- CAL_STEP (R736): One in-service step of a calibration result is applied. -/
  | calStep (u : CalUnit)
  /-- ECHO (R765): Mailbox ECHO returns its arguments. -/
  | echo (p : Port) (hi : BitVec 28)
  /-- INFO (R765): Mailbox INFO returns firmware version, boot number, log size and watchdog count. -/
  | info (p : Port) (hi : BitVec 28)
  /-- LOG_FETCH (R766): Mailbox LOG_FETCH copies NVM log entries into the spare region. -/
  | logFetch (p : Port) (hi : BitVec 28)
  /-- LOG_FLUSH (R765): Mailbox LOG_FLUSH flushes every waiting entry to the NVM partition. -/
  | logFlush (p : Port) (hi : BitVec 28)
  /-- NET_ARM (R765): Mailbox NET_ARM opens or closes the Ethernet update window. -/
  | netArm (p : Port) (hi : BitVec 28)
  /-- RTC_SET (R767): Mailbox RTC_SET sets the RTC, refused while the servo is LOCKED. -/
  | rtcSet (p : Port) (hi : BitVec 28)
  /-- MB_REPLY (R764): The management subsystem completes a mailbox request and raises MB_REPLY. -/
  | mbReply
  /-- MGMT_WATCHDOG_EXPIRE (R763): The management watchdog expires, restarting the firmware or entering SAFE_HOLD. -/
  | mgmtWatchdogExpire (digestOk : Bool)
  /-- LOG_STAGE_COPY (R771): A log entry is copied from the on-chip ring to the staging region within 1 ms. -/
  | logStageCopy
  /-- LOG_NVM_FLUSH (R772): Waiting log entries are flushed to the NVM partition by severity, FLUSH_S or count. -/
  | logNvmFlush (bad : Bool)
  /-- UPD_BEGIN (R780): A BEGIN datagram opens an Ethernet ingot transfer, or is refused. -/
  | updBegin (sender : BitVec 32) (id len : Word)
  /-- UPD_DATA (R779): A DATA datagram stores ingot bytes, and an ACK is returned. -/
  | updData (sender : BitVec 32) (id off : Word) (bytes : List Byte)
  /-- UPD_END (R780): An END datagram with every byte received starts the update of R174. -/
  | updEnd (sender : BitVec 32) (id : Word)
  /-- LOG_REQ (R779): A LOG_REQ datagram is answered with the requested log entries when LOG_NET is set. -/
  | logReq (sender : BitVec 32) (id first count : Word)
  /-- NET_TRANSFER_IDLE (R780): A transfer with no datagram for 5 s is abandoned. -/
  | netTransferIdle
  /-- NET_WINDOW_CLOSE (R780): The NET_ARM window closes, abandoning any open transfer. -/
  | netWindowClose
  /-- TELEMETRY_SEND (R781): Every TELEM_MS a telemetry datagram is sent. -/
  | telemetrySend
  /-- ETH_LOS (R782): ETH_LOSp high holds the port's link down. -/
  | ethLos (p : Fin 2) (los : Bool)
  /-- XTAL32_QUALIFIED (R680): XTAL32 completes its qualification count, setting XTAL_QUAL and starting the RTC again. -/
  | xtal32Qualified
  /-- PWM_VALLEY (R535): At each valley of the 40 kHz PWM carrier, each axis computes its phase values and loads new compare values. -/
  | pwmValley
  /-- MICROSTEP (R524): A carry out of bit 47 of the rate multiplier emits one microstep, advancing the commanded count. -/
  | microstep (a : Fin 8)
  /-- CMP_PULSE_END (R556): A compare pulse of CMP_PULSE_NS ends, and CMPOUT returns to its level before the pulse. -/
  | cmpPulseEnd (a : Fin 8)
  /-- AIN_CONVERSION (R426): Each analogue input converts at 1 MS/s and writes its stamped code to signals 640–655, with the ADC reference … -/
  | ainConversion (i : Fin 16) (raw : BitVec 12) (ref : Bool)
  /-- GPIO_SAMPLE (R426): GPIO input levels are sampled every 1 µs and written to signals 720–751. -/
  | gpioSample (levels : BitVec 32)
  /-- POWER_GOOD_TIMEOUT (R698): A domain being switched on during BOOT has no power-good within 100 µs, so boot halts without counting an attempt. -/
  | powerGoodTimeout
  /-- BACKUP_RC_STOPPED (R693): The backup RC stops while it is the root reference after a forced switch, leaving only AON and SAFE acting. -/
  | backupRcStopped
  /-- HMAP_COPY_DONE (R381): The heat-map layer copy ends, COPYING clears, and reads are served from the new current map alone. -/
  | hmapCopyDone
  /-- HMAP_SWEEP_DONE (R380): A decay sweep of the current map completes, SWEEPING clears, and HMAP_SWEEPS advances. -/
  | hmapSweepDone
  /-- MSIX_UNMASK (R102): Host software clears a vector's mask bit in the MSI-X table, and the occurrences gathered while it was masked are … -/
  | msixUnmask (v : Fin 64)
deriving DecidableEq, Repr

end Sys2Proof
end

