-- ==== Sys2Proof/Config.lean ====
section
/-!
DEFINITION. What one part fixes at manufacture, the algorithms the spec takes from other standards, and the free
values: constants WITHOUT a body, so that nothing can be proved from their value (assumption log rows 2 to 6).
-/

namespace Sys2Proof.Config

/-! ### Per part (R67, R68, R125) -/

/-- GLB_ID.STEP_LETTER, per stepping (DEDUCED, log row 2). -/
opaque stepLetter : BitVec 4
/-- GLB_ID.STEP_DIGIT, per stepping (DEDUCED, log row 2). -/
opaque stepDigit : BitVec 4
/-- GLB_ID.SCREEN, per fuse (DEDUCED, log row 2). -/
opaque screen : BitVec 4
/-- The unique die identifier, per fuse (DEDUCED, log row 2). -/
opaque uid : BitVec 64
/-- Key-hash slot k: its 256-bit hash where it is programmed and every word passes its check (R125, R126) (DEDUCED, log row 2). -/
opaque keyHash : Nat → Option (BitVec 256)
/-- The 7 check bits of a fuse word (R125) (DESIGN CHOICE, log row 115). -/
opaque fuseCheck : BitVec 32 → BitVec 7
/-- 64 KB sectors of the log partition (R112: 31 MB or more, so 496 or more) (DEDUCED, log row 2). -/
opaque logSectors : Nat

/-! ### Algorithms of other standards (FIPS 180, FIPS 186-5, SP 800-38B and the firmware image's own format) -/

/-- SHA-256 of a byte string (R120, R127) (DEDUCED, log row 3). -/
opaque sha256 : List Byte → BitVec 256
/-- ECDSA over P-256 with SHA-256: public key X‖Y, signature r‖s, message (R124) (DEDUCED, log row 4). -/
opaque ecdsaVerify : BitVec 512 → BitVec 512 → List Byte → Bool
/-- AES-128 CMAC: key, message (lane keying and sealing) (DEDUCED, log row 5). -/
opaque aesCmac : BitVec 128 → List Byte → BitVec 128
/-- The firmware version held in a FIRMWARE section, Griendon's own image (R121, R786) (DEDUCED, log row 5). -/
opaque firmwareVersion : List Byte → BitVec 32

/-! ### Free values: what the spec leaves open, applied to the state's counter `free` -/

/-- The device's random source (R667, R494) (DEDUCED, log row 6). -/
opaque random : Nat → BitVec 128
/-- Whether a write of a boot record entry fails (R117) (DESIGN CHOICE, log row 116). -/
opaque recordFails : Nat → Bool
/-- The block of the working area that holds a slug's state: the spec does not lay the area out (R270) (DESIGN CHOICE, log row 121). -/
opaque stateBlock : Nat → Nat → Nat
/-- A free 32-bit value (DEDUCED, log row 6). -/
opaque freeWord : Nat → BitVec 32

/-- The ratio of R358 where PD_A × GA and PD_B × GB are both 0, of which the spec states no result: a function of the four operands
(DEDUCED, log row 77). -/
opaque ratioOfZeros : Nat → Nat → Nat → Nat → BitVec 32

end Sys2Proof.Config
end

