-- ==== Sys2Proof/Machine/Records.lean ====
section
/-!
DEFINITION. The configuration records: identity, class, length, reset words, field ranges and reserved bits
(R144 to R148 and the record tables of the chapters).
-/

namespace Sys2Proof.Machine

/-- Record classes (R145). -/
inductive RecClass where
  | static | layer | live
deriving DecidableEq, Repr

/-- BOOT_REC_STATUS.CLASS. -/
def RecClass.code : RecClass → Nat
  | .static => 0 | .layer => 1 | .live => 2

/-- A named field of a record: bits `[hi:lo]` of word `w`, its reset value, and the values in range. A signed field
compares as a two's-complement value. `also` is one further value in range beside `lo..hi`. -/
structure RecField where
  w : Nat
  hi : Nat
  lo : Nat
  reset : Int
  min : Int
  max : Int
  sgn : Bool := false
  also : Int := 0
deriving DecidableEq, Repr

/-- A record, or `count` records with IDs `stride` apart. `atOnce` says that a commit takes effect without waiting
for a take point of a consumer. -/
structure RecInfo where
  base : Nat
  stride : Nat := 1
  count : Nat := 1
  cls : RecClass
  len : Nat
  fields : List RecField
  atOnce : Bool := false
deriving DecidableEq, Repr

/-- Whether `id` is one of these records. -/
def RecInfo.has (r : RecInfo) (id : Nat) : Bool :=
  decide (r.base ≤ id) && decide ((id - r.base) % r.stride = 0) && decide ((id - r.base) / r.stride < r.count)

/-- An unsigned field whose whole bit range is in range. -/
def uF (w hi lo : Nat) (reset : Nat) : RecField := ⟨w, hi, lo, reset, 0, 2 ^ (hi + 1 - lo) - 1, false, reset⟩

/-- An unsigned field with a range. -/
def rF (w hi lo : Nat) (reset min max : Nat) : RecField := ⟨w, hi, lo, reset, min, max, false, min⟩

/-- An unsigned field with a range and one further allowed value. -/
def rFa (w hi lo : Nat) (reset min max also : Nat) : RecField := ⟨w, hi, lo, reset, min, max, false, also⟩

/-- A signed field with a range. -/
def sF (w hi lo : Nat) (reset min max : Int) : RecField := ⟨w, hi, lo, reset, min, max, true, min⟩

/-- A signed field whose whole bit range is in range. -/
def sW (w hi lo : Nat) (reset : Int) : RecField :=
  ⟨w, hi, lo, reset, -(2 ^ (hi - lo)), 2 ^ (hi - lo) - 1, true, reset⟩

/-- A field's value in a record's words. -/
def RecField.get (f : RecField) (ws : List Word) : Int :=
  let w := ws.getD f.w 0
  if f.sgn then sfld w f.hi f.lo else fld w f.hi f.lo

/-- Whether a field's value is in range. -/
def RecField.ok (f : RecField) (ws : List Word) : Bool :=
  let v := f.get ws
  (decide (f.min ≤ v) && decide (v ≤ f.max)) || decide (v = f.also)

/-- The bits of word `i` that fields name. -/
def RecInfo.named (r : RecInfo) (i : Nat) : Word :=
  r.fields.foldl (fun m f => if f.w = i then m ||| BitVec.ofNat 32 ((2 ^ (f.hi + 1 - f.lo) - 1) <<< f.lo) else m) 0

/-- Reset word `i`. -/
def RecInfo.resetWord (r : RecInfo) (i : Nat) : Word :=
  r.fields.foldl (fun m f =>
    if f.w = i then m ||| BitVec.ofNat 32 ((BitVec.ofInt (f.hi + 1 - f.lo) f.reset).toNat <<< f.lo) else m) 0

/-- The reset words of a record. -/
def RecInfo.resetWords (r : RecInfo) : List Word := tab r.len r.resetWord

/-- Words with zero in every reserved bit (R148). -/
def RecInfo.strip (r : RecInfo) (ws : List Word) : List Word := tab r.len (fun i => ws.getD i 0 &&& r.named i)

/-- Index of the first word that holds a field out of range (R148). -/
def RecInfo.firstBad (r : RecInfo) (ws : List Word) : Option Nat :=
  (List.range r.len).find? (fun i => r.fields.any (fun f => decide (f.w = i) && !f.ok ws))

end Sys2Proof.Machine
end

