-- ==== Sys2Proof/Machine/Trig.lean ====
section
/-!
DEFINITION. Square root, sine, cosine and exponential on integers with 60 fraction bits, for paths, registration-free
geometry, the microstep table, the notch derivation and the decay factor. The spec states results to a nearest unit or
to 40 bits; 60 bits are the model's own working precision (log row 30).
-/

namespace Sys2Proof.Machine

/-- 2^60. -/
def q60 : Int := 1152921504606846976

/-- π with 60 fraction bits. -/
def piQ : Int := 3622009729038561421

/-- A product of two values with 60 fraction bits. -/
def mulQ (a b : Int) : Int := divR (a * b) q60

/-- Alternating power series: term `t` of degree `k`, `x2` the square of the argument (DEDUCED, log row 30). -/
def altSeries : Nat → Int → Nat → Int → Int
  | 0, _, _, _ => 0
  | n + 1, t, k, x2 => t + altSeries n (-(divR (mulQ t x2) ((k + 1) * (k + 2)))) (k + 2) x2

/-- An angle brought into [-π, π). -/
def wrapQ (x : Int) : Int := Int.emod (x + piQ) (2 * piQ) - piQ

/-- Sine of radians with 60 fraction bits (DEDUCED, log row 30). -/
def sinQ (x : Int) : Int := let y := wrapQ x; altSeries 24 y 1 (mulQ y y)

/-- Cosine of radians with 60 fraction bits (DEDUCED, log row 30). -/
def cosQ (x : Int) : Int := let y := wrapQ x; altSeries 24 q60 0 (mulQ y y)

/-- µdeg as radians with 60 fraction bits. -/
def udegQ (a : Int) : Int := divR (a * piQ) 180000000

/-- Exponential of a value of magnitude below 1, by its series. -/
def expSeries : Nat → Int → Nat → Int → Int
  | 0, _, _, _ => 0
  | n + 1, t, k, x => t + expSeries n (divR (mulQ t x) (k + 1)) (k + 1) x

/-- Exponential, 60 fraction bits (DEDUCED, log row 30). -/
def expQ (x : Int) : Int := expSeries 24 q60 0 x

/-- Newton iteration for the square root, from above. -/
def sqrtStep : Nat → Nat → Nat → Nat
  | 0, _, x => x
  | k + 1, n, x => let y := (x + n / x) / 2; if y < x then sqrtStep k n y else x

/-- Integer square root, rounded down (DEDUCED, log row 30). -/
def isqrt (n : Nat) : Nat := if n = 0 then 0 else sqrtStep 64 n (2 ^ ((Nat.log2 n) / 2 + 1))

/-- Length of a vector with integer components, in the components' unit × `2^k`, rounded down (DEDUCED, log row 30). -/
def hypotQ (k : Nat) (x y : Int) : Nat := isqrt ((x.natAbs * x.natAbs + y.natAbs * y.natAbs) * 2 ^ (2 * k))

/-- A unit vector with 60 fraction bits; (1, 0) for the zero vector. -/
def unitQ (x y : Int) : Int × Int :=
  let d := hypotQ 60 x y
  if d = 0 then (q60, 0) else (divR (x * q60 * q60) d, divR (y * q60 * q60) d)

end Sys2Proof.Machine
end

