-- ==== Sys2Proof/Machine/RecTable.lean ====
section
/-!
DEFINITION. The records of the chapters (R80, R212, R276, R277, R670, R706, R707, R784 and those of the other chapters).
-/

namespace Sys2Proof.Machine

/-- Records of the global, job, imposition, memory, clock and management blocks. -/
def recsCore : List RecInfo := [
  { base := 0x0000, cls := .live, len := 1, atOnce := true, fields := [rF 0 9 0 50 1 600] },
  { base := 0x0800, cls := .layer, len := 6, fields := [
      rF 0 3 0 0 0 7, rFa 0 7 4 0xF 0 7 0xF, rF 0 11 8 1 0 7, rFa 0 15 12 0xF 0 3 0xF, uF 0 16 16 0, uF 0 17 17 1,
      sW 1 31 0 0, sW 2 31 0 0, rF 3 31 0 60000 1000 600000, rF 4 31 0 500 10 10000,
      rF 5 6 0 2 0 64, uF 5 7 7 1] },
  { base := 0x0C00, cls := .layer, len := 7, fields := [
      rF 0 31 0 20000000 0 500000000, rF 1 31 0 30000000 0 500000000, rF 2 31 0 150000000 0 1000000000,
      rF 3 31 0 2000 100 1000000, rF 4 31 0 20000 0 1000000, rF 5 31 0 4096 64 1048576, uF 6 0 0 1] },
  { base := 0x0C01, cls := .live, len := 12, fields := tab 12 (fun b => rF b 15 0 65535 256 65535) },
  { base := 0x3400, cls := .live, len := 2, fields := [
      rF 0 15 0 1024 64 16384, rF 0 17 16 1 1 2, rF 1 7 0 24 0 168] },
  { base := 0x3800, cls := .static, len := 1, fields := [uF 0 0 0 1] },
  { base := 0x3801, cls := .live, len := 1, fields := [uF 0 0 0 0, rF 0 12 8 0 0 20, rF 0 21 16 32 30 63] },
  { base := 0x4400, cls := .live, len := 2, atOnce := true, fields := [rF 0 31 0 10 1 3600, uF 1 1 0 2] },
  { base := 0x4401, cls := .layer, len := 1, fields := [uF 0 0 0 0, uF 0 1 1 1] },
  { base := 0x4402, cls := .static, len := 4, fields := [
      uF 0 0 0 0, uF 0 1 1 0, uF 0 31 16 49410, uF 1 31 0 0, uF 2 15 0 49411, rFa 2 31 16 0 10 60000 0,
      rF 3 1 0 2 0 2, rF 3 3 2 0 0 2, uF 3 4 4 1, uF 3 5 5 1] }]

/-- Records of the beam engines (R337 to R340). -/
def recsBeam : List RecInfo := [
  { base := 0x1000, stride := 16, count := 12, cls := .static, len := 2, fields := [
      uF 0 1 0 3, rFa 1 15 0 0xFFFF 0 2047 0xFFFF] },
  { base := 0x1001, stride := 16, count := 12, cls := .layer, len := 4, fields := [
      uF 0 15 0 65535, uF 0 31 16 0, uF 1 15 0 6554, rF 2 31 0 500000 0 10000000,
      rF 3 31 0 400000000 1000000 2000000000] },
  { base := 0x1002, stride := 16, count := 12, cls := .live, len := 9, fields := [
      rF 0 31 0 24000 0 500000, rF 1 31 0 1200 0 100000, rF 2 31 0 800 0 100000, rF 3 31 0 2000 0 100000,
      rF 4 31 0 0 0 5000000, rF 5 31 0 20 2 100000, rF 6 31 0 0 0 100000, uF 7 0 0 0, rF 8 31 0 50000 0 10000000] },
  { base := 0x1003, stride := 16, count := 12, cls := .live, len := 4, fields := [
      sF 0 31 0 0 (-2000000) 2000000, sF 1 31 0 0 (-2000000) 2000000, sF 2 31 0 0 (-200000) 200000,
      sF 3 31 0 0 (-1000000) 1000000] }]

/-- Records of the melt-pool engines and the heat map (R390 to R394). -/
def recsMelt : List RecInfo := [
  { base := 0x1400, stride := 16, count := 12, cls := .live, len := 8, fields := [
      uF 0 2 0 0, rF 0 5 4 0 0 2, uF 1 15 0 16384, uF 1 31 16 16384, uF 2 31 0 0x4000, uF 3 31 0 0x40000,
      rF 4 31 0 5000 0 1000000, rF 5 31 0 20 1 10000, uF 6 15 0 6554, uF 7 15 0 60000, rF 7 31 16 5 1 1000] },
  { base := 0x1401, stride := 16, count := 12, cls := .static, len := 256, fields :=
      tab 256 (fun i => rF i 31 0 (273150 + 20000 * i) 273150 10000000) },
  { base := 0x1402, stride := 16, count := 12, cls := .layer, len := 9, fields := [
      rF 0 31 0 20000 1000 20000, rF 1 31 0 20000 1000 4294967295, uF 2 9 0 16, rF 2 25 16 200 1 1023,
      rF 3 9 0 120 1 1023, rF 3 23 16 2 1 255, rF 4 31 0 10000 1000 100000, uF 5 1 0 0, uF 5 2 2 0,
      rF 6 15 0 1016 0 2047, rF 6 31 16 1016 0 2047, uF 7 15 0 64, uF 8 31 0 10000] },
  { base := 0x1403, stride := 16, count := 12, cls := .live, len := 4, fields := [
      uF 0 0 0 0, uF 0 1 1 0, uF 0 5 4 1, uF 1 31 0 0, rF 2 31 0 3200 0 65472, rF 3 31 0 200 1 1000000] },
  { base := 0x1800, cls := .static, len := 1, fields := [rF 0 31 0 200000 100000 500000] },
  { base := 0x1801, cls := .layer, len := 5, fields := [
      uF 0 31 0 26214, rF 1 31 0 0 0 512, rF 2 31 0 2000 10 600000, rF 3 31 0 50 5 1000, uF 4 31 0 16384] },
  { base := 0x1802, cls := .live, len := 5, fields := [
      rF 0 31 0 8 0 16, rF 1 31 0 16 0 256, uF 2 31 0 1440, uF 3 31 0 1000, rF 4 31 0 0 0 32767] },
  { base := 0x1803, cls := .live, len := 3, fields := [
      uF 0 11 0 0xFFF, uF 0 16 16 0, rF 1 31 0 10 0 1000, rF 2 31 0 1 0 1000] }]

/-- Records of the signal switch, the loop cells and the lanes (R433, R450, R458, R510). The words of CELL_COEF are the
bank that the CELL_PROGRAMS section gives; their ranges are those of R435. -/
def recsCells : List RecInfo := [
  { base := 0x1C00, cls := .static, len := 3, fields := [uF 0 31 0 0, uF 1 31 0 0, rF 2 31 0 1000 100 100000] },
  { base := 0x2000, count := 256, cls := .live, len := 0, fields := [] },
  { base := 0x2100, cls := .live, len := 6, atOnce := true, fields := [
      rF 0 15 0 256 16 65535, uF 1 15 0 2, rF 2 3 0 2 1 8, rF 3 15 0 64 1 65535, rFa 4 31 0 10000 100 3600000 0,
      uF 5 0 0 1] },
  { base := 0x2400, cls := .live, len := 8, atOnce := true, fields := [
      rF 0 31 0 100 0 10000, rF 1 31 0 10 0 10000, rF 2 31 0 10 1 3600, uF 3 0 0 1, rF 4 31 0 100 1 1000000,
      rF 5 31 0 10000 1000 1000000, rF 6 31 0 10 1 10000, rF 7 3 0 3 1 8] }]

/-- Reset entry i of the microstep table (R571). -/
def stepEntry (i : Nat) : Int := divR (511 * sinQ (divR (piQ * (2 * i + 1)) 1024)) q60

/-- Two signed 10-bit entries of a word of the microstep table. -/
def stepFields (base w : Nat) : List RecField :=
  [sF w 9 0 (stepEntry (base + 2 * w)) (-511) 511, sF w 25 16 (stepEntry (base + 2 * w + 1)) (-511) 511]

/-- Records of the stage axes (R566 to R572). -/
def recsStage : List RecInfo := [
  { base := 0x2800, stride := 8, count := 8, cls := .static, len := 6, fields := [
      uF 0 0 0 0, uF 0 1 1 0, rF 0 3 2 0 0 2, uF 0 4 4 0, uF 0 5 5 1, uF 0 6 6 1, uF 0 7 7 1, uF 0 12 8 3,
      rF 1 31 0 0x640000 0x1000 0x7FFFFFFF, rF 2 31 0 0x3E80000 0x1000 0x7FFFFFFF, rF 3 5 0 25 10 32, uF 3 6 6 1,
      uF 3 7 7 0, rF 3 31 16 2000 500 10000, rF 4 31 0 50000 2000 1000000, rF 5 31 0 20000 1000 100000] },
  { base := 0x2801, stride := 8, count := 8, cls := .live, len := 5, fields := [
      rF 0 31 0 100000 1 100000000, rF 1 31 0 500 1 1000000, rF 2 31 0 500 1 1000000, rF 3 31 0 2000 1 1000000,
      rFa 4 31 0 0 1000 2000000000 0] },
  { base := 0x2802, stride := 8, count := 8, cls := .live, len := 3, fields := [
      uF 0 9 0 400, uF 0 25 16 200, rF 1 31 0 200 0 10000, rF 2 15 0 0 0 1023, rF 2 31 16 0 0 1024] },
  { base := 0x2803, stride := 8, count := 8, cls := .layer, len := 9, fields := [
      rF 0 31 0 200000 0 100000000, rF 1 7 0 3 1 255, uF 1 23 16 4, rF 2 31 0 2000 10 100000,
      sW 3 31 0 (-2147483648), sW 4 31 0 2147483647, uF 5 31 0 20000, uF 6 31 0 10000, rF 7 31 0 100 10 10000,
      rF 8 31 0 100 1 1000] },
  { base := 0x2804, stride := 8, count := 8, cls := .live, len := 6, fields := [
      rF 0 2 0 1 1 5, uF 0 4 4 0, uF 0 5 5 0, uF 1 31 0 20000, uF 2 31 0 2000, sW 3 31 0 0,
      rF 4 31 0 1000000000 1 2000000000, sW 5 31 0 0] },
  { base := 0x2840, cls := .static, len := 256, fields := (tab 256 (stepFields 0)).flatten },
  { base := 0x2841, cls := .static, len := 256, fields := (tab 256 (stepFields 512)).flatten },
  { base := 0x2842, cls := .live, len := 6, fields := (tab 2 (fun c => [
      uF (3 * c) 2 0 0, uF (3 * c) 4 4 0, uF (3 * c) 5 5 0, uF (3 * c) 6 6 0, uF (3 * c) 7 7 0,
      uF (3 * c + 1) 31 0 1, rF (3 * c + 2) 31 0 1 1 2147483647])).flatten }]

/-- Four 16-bit duties in two words (R605). -/
def dutyFields (w : Nat) : List RecField := [uF w 15 0 0, uF w 31 16 0, uF (w + 1) 15 0 0, uF (w + 1) 31 16 0]

/-- Records of the interlock and the lamps (R605). -/
def recsLamps : List RecInfo := [
  { base := 0x2C00, cls := .static, len := 2, fields := [rF 0 31 0 100 1 1000, rF 1 31 0 1000 0 100000] },
  { base := 0x2C01, cls := .static, len := 3, fields := [uF 0 31 1 0, uF 1 4 0 0, uF 1 8 8 0, uF 2 15 0 4096] },
  { base := 0x2C02, cls := .static, len := 128, fields := (tab 8 (fun g =>
      [uF (16 * g) 31 1 0, uF (16 * g + 1) 15 0 0, uF (16 * g + 1) 16 16 0, uF (16 * g + 1) 17 17 0] ++
      (tab 5 (fun d => dutyFields (16 * g + 2 + 2 * d))).flatten ++
      [uF (16 * g + 12) 4 0 0, rF (16 * g + 13) 31 0 500 100 5000])).flatten },
  { base := 0x2C03, cls := .live, len := 255, fields := (tab 15 (fun s =>
      rF (17 * s) 15 0 0 0 60000 :: (tab 8 (fun g => dutyFields (17 * s + 1 + 2 * g))).flatten)).flatten },
  { base := 0x2C04, cls := .live, len := 30, fields := (tab 15 (fun s => dutyFields (2 * s))).flatten }]

/-- Records of time (R632 to R634). -/
def recsTime : List RecInfo := [
  { base := 0x3000, cls := .static, len := 4, fields := [
      uF 0 6 0 0, uF 0 9 8 0, rF 0 11 10 0 0 2, uF 0 13 12 0, uF 0 14 14 1, uF 0 15 15 1, uF 1 7 0 128, uF 1 15 8 128,
      rF 2 15 0 0 0 10000, uF 2 31 16 0, uF 3 15 0 0, uF 3 31 16 0] },
  { base := 0x3001, cls := .live, len := 3, fields := [
      rF 0 31 0 100 1 1000000, rF 1 31 0 1000 100 1000000000, rF 2 31 0 100 1 500] },
  { base := 0x3002, cls := .live, len := 29, fields :=
      tab 28 (fun l => sF l 15 0 0 (-1000) 1000) ++ [rF 28 15 0 10 2 1000, rF 28 31 16 100 2 10000] }]

/-- Records of health (R749 to R754). -/
def recsHealth : List RecInfo := [
  { base := 0x4000, cls := .live, len := 5, fields := [
      rF 0 7 0 100 70 115, rF 0 15 8 5 1 20, rF 1 31 0 5 1 600, rF 2 31 0 5 1 600, rF 3 31 0 2 1 600,
      rF 4 31 0 30 1 3600] },
  { base := 0x4001, cls := .live, len := 1, fields := [rF 0 15 0 65535 32768 65535] },
  { base := 0x4002, cls := .live, len := 2, atOnce := true, fields := [rF 0 31 0 8000 1000 50000, uF 1 4 0 0x1F] },
  { base := 0x4003, cls := .static, len := 9, fields := [
      rF 0 4 0 20 0 20, rF 0 31 16 16 1 65535, uF 1 31 0 30000, rF 2 31 0 600 60 86400, uF 3 7 0 20, uF 3 15 8 12,
      uF 3 23 16 16, rF 4 31 0 24 1 720, uF 5 31 0 100, uF 6 31 0 10, rF 7 7 0 25 1 99, rF 8 31 0 600 60 86400] },
  { base := 0x4010, count := 12, cls := .static, len := 7, fields := [
      rFa 0 15 0 0xFFFF 0 2047 0xFFFF, uF 1 31 0 65536, sW 2 31 0 0, rF 3 31 0 200 10 100000, rF 4 31 0 60 1 3600,
      uF 5 15 0 15892, uF 5 31 16 13926, rF 6 15 0 17203 16384 20480] },
  { base := 0x4020, cls := .static, len := 128, fields := (tab 64 (fun e => [
      uF (2 * e) 7 0 0, uF (2 * e) 15 8 0, uF (2 * e) 16 16 0, uF (2 * e) 17 17 0,
      rF (2 * e + 1) 15 0 20 1 10000, rF (2 * e + 1) 31 16 400 1 50000])).flatten }]

/-- Every record. -/
def recTable : List RecInfo :=
  recsCore ++ recsBeam ++ recsMelt ++ recsCells ++ recsStage ++ recsLamps ++ recsTime ++ recsHealth

/-- A CELL_COEF record (R433). -/
def isCoef (id : Nat) : Bool := decide (0x2000 ≤ id) && decide (id < 0x2100)

/-- A record's words with zero in every reserved bit; the words of CELL_COEF have none (R148, R433). -/
def recStrip (id : Nat) (r : RecInfo) (ws : List Word) : List Word := if isCoef id then ws else r.strip ws

/-- The description of a record ID; `none` for an unknown record. -/
def recInfo (id : Nat) : Option RecInfo := recTable.find? (fun r => r.has id)

/-- The reset words of a record. -/
def recDefault (id : Nat) : List Word := match recInfo id with | some r => r.resetWords | none => []

/-- Named record IDs. -/
def recGlbHost : Nat := 0x0000
def recJob : Nat := 0x0800
def recImp : Nat := 0x0C00
def recImpWeight : Nat := 0x0C01
def recMemCfg : Nat := 0x3400
def recClkCfg : Nat := 0x3800
def recClkSs : Nat := 0x3801
def recMgtLog : Nat := 0x4400
def recMgtFault : Nat := 0x4401
def recMgtNet : Nat := 0x4402

def recBeamConfig (b : Nat) : Nat := 0x1000 + 16 * b
def recBeamLimits (b : Nat) : Nat := 0x1001 + 16 * b
def recBeamTiming (b : Nat) : Nat := 0x1002 + 16 * b
def recBeamFine (b : Nat) : Nat := 0x1003 + 16 * b
def recMplFront (b : Nat) : Nat := 0x1400 + 16 * b
def recMplRatio (b : Nat) : Nat := 0x1401 + 16 * b
def recMplCamera (b : Nat) : Nat := 0x1402 + 16 * b
def recMplLoop (b : Nat) : Nat := 0x1403 + 16 * b
def recHmapGrid : Nat := 0x1800
def recHmapHeat : Nat := 0x1801
def recHmapLa : Nat := 0x1802
def recHmapRec : Nat := 0x1803
def recSigGpio : Nat := 0x1C00
def recCoef (k : Nat) : Nat := 0x2000 + k
def recCellSub : Nat := 0x2100
def recLane : Nat := 0x2400
def recStgAxis (a : Nat) : Nat := 0x2800 + 8 * a
def recStgMotion (a : Nat) : Nat := 0x2801 + 8 * a
def recStgDrive (a : Nat) : Nat := 0x2802 + 8 * a
def recStgGuard (a : Nat) : Nat := 0x2803 + 8 * a
def recStgHome (a : Nat) : Nat := 0x2804 + 8 * a
def recStgTable0 : Nat := 0x2840
def recStgTable1 : Nat := 0x2841
def recStgEncout : Nat := 0x2842
def recIlkCfg : Nat := 0x2C00
def recLampBus : Nat := 0x2C01
def recLampGroups : Nat := 0x2C02
def recLampScenes : Nat := 0x2C03
def recLampColour : Nat := 0x2C04
def recTimePtp : Nat := 0x3000
def recTimeServo : Nat := 0x3001
def recTimeLink : Nat := 0x3002
def recHltTherm : Nat := 0x4000
def recHltSpeed : Nat := 0x4001
def recHltCal : Nat := 0x4002
def recHltPlan : Nat := 0x4003
def recHltLaser (b : Nat) : Nat := 0x4010 + b
def recHltNotch : Nat := 0x4020

end Sys2Proof.Machine
end

