-- ==== Sys2Proof/Machine/Parts/Axis.lean ====
section
/-!
DEFINITION. State of a stage axis and of the pulse dividers (10 of spec/).
-/

namespace Sys2Proof.Machine

/-- Axis states (R561). -/
inductive AxState where
  | off | idle | moving | stopping | homing | fault
deriving DecidableEq, Repr

/-- STGa_STATUS.STATE. -/
def AxState.code : AxState → Nat
  | .off => 0 | .idle => 1 | .moving => 2 | .stopping => 3 | .homing => 4 | .fault => 5

/-- The steps of a homing sequence (R552). -/
inductive HomeStep where
  /-- away until the home target is released -/
  | clear
  /-- towards until the home target is asserted -/
  | seek
  /-- away at V_SLOW to the latch, and on until the target is released -/
  | slow
  /-- to the next Z edge at V_SLOW -/
  | index
  /-- decelerating at DEC_MAX after the last edge -/
  | finish
deriving DecidableEq, Repr

/-- Homing in progress: mode, step, commanded count at the HOME command, the latched counts (commanded and measured). -/
structure Homing where
  mode : Nat
  step : HomeStep
  start : Int
  latched : Option (Int × Int)
deriving DecidableEq, Repr

/-- A compare entry (R555): position in nm, direction positive, action. -/
structure CmpEnt where
  pos : Int
  up : Bool
  act : Nat
deriving DecidableEq, Repr

/-- Compare list and output (R555 to R558, R577). -/
structure Cmp where
  list : List CmpEnt := []
  /-- index of the head entry, from 0 at the last CMP_CLEAR -/
  idx : Nat := 0
  missed : Bool := false
  missedIdx : BitVec 8 := 0
  fired : BitVec 8 := 0
  level : Bool := false
  /-- a pulse runs, and the level to return to -/
  pulse : Option Bool := none
  time : BitVec 64 := 0
deriving DecidableEq, Repr

/-- A pulse divider channel (R559, R560). -/
structure EncOut where
  acc : Int := 0
  /-- counts that wait, oldest first: true forward -/
  queue : List Bool := []
  /-- quadrature state 0 to 3 (MODE 0), or the direction pin (MODE 1) -/
  phase : Nat := 0
  dropped : Word := 0
deriving DecidableEq, Repr

/-- One axis. Speeds are in 10^-6 nm/s, accelerations in nm/s². -/
structure Axis where
  st : AxState := .off
  faultCause : BitVec 4 := 0
  homeResult : BitVec 4 := 0
  posUnknown : Bool := true
  homed : Bool := false
  window : Bool := false
  decKept : Bool := false
  homeIn : Bool := false
  limP : Bool := false
  limN : Bool := false
  /-- limit positions latched at assertion, microsteps (R550) -/
  limPosP : Int := 0
  limPosN : Int := 0
  /-- REMAIN in microsteps with the target it belongs to (R531) -/
  remain : Option Int := none
  remainTarget : Int := 0
  dirPos : Bool := false
  /-- commanded count, microsteps; measured count (R518, R519) -/
  cmd : Int := 0
  meas : Int := 0
  target : Int := 0
  /-- the target of the present or last move as it was given, nm (R520) -/
  goal : Int := 0
  /-- upper bound of this move's speed beside V_MAX, µm/s (R823); none for other moves -/
  bound : Option Nat := none
  v : Nat := 0
  acc : Int := 0
  inc : Nat := 0
  /-- accumulator of the rate multiplier at the last update, and the microsteps emitted since (R524) -/
  phase : Nat := 0
  steps : Nat := 0
  /-- a new DEC was taken in a deceleration ramp: the speed is held until it must fall again (R529) -/
  hold : Bool := false
  /-- DEC and DEC_MAX of the present move or ramp, mm/s² (R528, R530) -/
  dec : Nat := 500
  decMax : Nat := 2000
  /-- the ramp in STOPPING runs at DEC_MAX -/
  stopMax : Bool := false
  /-- the speed now falls in a deceleration ramp (R529) -/
  decel : Bool := false
  /-- microstep count at which a STOP ramp at DEC comes to rest (R530) -/
  rampEnd : Int := 0
  /-- cause of the fault that the stop in progress ends in (R562) -/
  stopFault : Option (BitVec 4) := none
  homing : Option Homing := none
  /-- accepted levels of the quadrature inputs -/
  encA : Bool := false
  encB : Bool := false
  /-- device times of double transitions within the last 1 ms (R540) -/
  qerrAt : List Nat := []
  /-- measured speed, nm/s -/
  speed : Int := 0
  /-- device time and direction of the last count, and the last period, ns (R543) -/
  lastAt : Option (Nat × Bool) := none
  period : Nat := 0
  /-- counts within the speed window: device time and step, newest first -/
  hist : List (Nat × Int) := []
  ssiLast : Option Nat := none
  /-- the last reading before a warm reset, with which the preserved position agrees (R33) -/
  ssiKept : Option Nat := none
  ssiBad : Nat := 0
  devMax : Nat := 0
  margin : Int := 0
  indexPos : Int := 0
  quadErr : Word := 0
  stalls : Word := 0
  limitStops : Word := 0
  ssiErr : Word := 0
  decKeptN : Word := 0
  stallRun : Nat := 0
  cmdResult : BitVec 4 := 0
  cmdOp : BitVec 4 := 0
  cmp : Cmp := {}
  /-- the drive holds at HOLD_AMP (R536) -/
  holdAmp : Bool := false
  vA : Int := 0
  vB : Int := 0
  /-- used on axes 0 and 1 -/
  enc : EncOut := {}
deriving DecidableEq, Repr

end Sys2Proof.Machine
end

