-- ==== Sys2Proof/Machine/Parts/Imp.lean ====
section
/-!
DEFINITION. State of the imposition engine (05 of spec/).
-/

namespace Sys2Proof.Machine

/-- State of a slug in the working area (R270). -/
inductive SlugState where
  | untaken | taken | ended | held
deriving DecidableEq, Repr

/-- Where a slug goes on: distance along its path in nm, part of a DWELL still to run in ns, and the point (R221, R255). -/
structure Restart where
  dist : Nat
  dur : Nat
  x : Int
  y : Int
deriving DecidableEq, Repr

/-- A slug given to a beam: its source (0 to 63 pool z, 0x80 + b galley b, R271), its index, the rescue pool it was
taken from, and where it restarts when it is a remainder or resumes. -/
structure Work where
  src : Nat
  index : Nat
  rescue : Option Nat := none
  restart : Option Restart := none
  /-- restarts after retirement of another beam (REMAINDER), as opposed to resuming on the same beam -/
  remainder : Bool := false
  waited : Bool := false
  /-- goes on after a stop on the same beam (R221) -/
  resumed : Bool := false
deriving DecidableEq, Repr

/-- A slug in a rescue pool (R257, R258). -/
structure Rescue where
  src : Nat
  index : Nat
  mask : BitVec 12
  restart : Option Restart := none
  taken : Bool := false
deriving DecidableEq, Repr

/-- A beam that waits (R249). -/
structure Waiting where
  since : Nat
  prio : Bool
  /-- its galley candidate failed keep-out -/
  blocked : Bool
  /-- a candidate has failed keep-out since the wait began (R273) -/
  kept : Bool := false
deriving DecidableEq, Repr

/-- What the imposition engine holds for one beam. -/
structure ImpBeam where
  /-- retirement cause of R253, 0 not retired -/
  cause : BitVec 4 := 0
  galleyPending : Bool := false
  /-- GALLEY_PENDING lasts until the next layer boundary rather than the next entry into EXPOSING (R267) -/
  pendingBoundary : Bool := false
  cur : Option Work := none
  next : Option Work := none
  /-- an interrupted slug that awaits its resumption -/
  interrupted : Option Work := none
  wait : Option Waiting := none
  /-- device time at which the current slug began, ns -/
  curStart : Nat := 0
  /-- first gate-on of the current slug, device time ns (ON_OFFSET) -/
  curOn : Option Nat := none
  /-- predicted duration of the current slug, 2^-16 ns -/
  curPred : Nat := 0
  nextPred : Nat := 0
  /-- slug being executed when last retired (R246): source and index -/
  lastCut : Option (Nat × Nat) := none
  margin : BitVec 16 := 0xFFFF
  effective : BitVec 16 := 0xFFFF
  busyUs : Word := 0
  waitUs : Word := 0
  /-- IMP_CMD RETURN waits for the contexts to engage (R266) -/
  returning : Bool := false
  /-- untaken galley slugs' predicted durations before κ (R241), 2^-16 ns -/
  g : Nat := 0
  /-- next untaken galley index -/
  galleyAt : Nat := 0
deriving DecidableEq, Repr

/-- A retirement scan that waits or runs (R257): the beam, its cause, the detection time. -/
structure Scan where
  beam : Fin 12
  cause : BitVec 4
  at_ : Nat
  /-- whether the beam had a remainder or slugs to dispose of -/
  exposing : Bool
  /-- what has been rescued and held, while the scan's HELD entries still wait for space (R269) -/
  counts : Option (Nat × Nat) := none
deriving DecidableEq, Repr

/-- An imposition record entry before its SEQ is given (R271). -/
structure ImpEnt where
  type : Nat
  beam : Nat := 0xFF
  flags : Nat := 0
  forme : Nat := 0
  index : Nat := 0
  src : Nat := 0xFF
  cause : Nat := 0
  start : Nat := 0
  end_ : Nat := 0
  a : Int := 0
  b : Int := 0
  part : Nat := 0
  layer : Nat := 0
  onOff : Nat := 0
deriving DecidableEq, Repr

/-- The imposition engine. -/
structure Imp where
  beams : Vector ImpBeam 12 := Vector.replicate 12 {}
  /-- slugs of the present layer that are not untaken: key source × 2^27 + index -/
  slugs : List (Nat × SlugState) := []
  /-- untaken pool slugs that restart as remainders: key and restart point -/
  remainders : List (Nat × Restart) := []
  rescue : Vector (List Rescue) 12 := Vector.replicate 12 []
  /-- remaining work of the shared pools before κ (R240), 2^-16 ns, by pool -/
  u : List Nat := []
  scans : List Scan := []
  /-- retired beams whose galleys are still to be scanned for the exposure entered (R261) -/
  toScan : List (Fin 12) := []
  held : Word := 0
  endedCount : Nat := 0
  incomplete : Bool := false
  /-- LAYER_BEGIN of the layer is written and its LAYER_END is not -/
  layerOpen : Bool := false
  running : Bool := false
  recWr : Word := 0
  recRd : Word := 0
  recSeq : Word := 0
  /-- unread entries between RD and WR -/
  recCount : Nat := 0
  /-- entries that wait for space, oldest first (R275) -/
  deferred : List ImpEnt := []
  cmdResult : BitVec 4 := 0
  cmdBeam : BitVec 4 := 0
  cmdOp : BitVec 4 := 0
deriving DecidableEq, Repr

end Sys2Proof.Machine
end

