-- ==== Sys2Proof/Machine/Parts/Beam.lean ====
section
/-!
DEFINITION. State of a beam engine (06 of spec/). Times of a plan are device times in 2^-16 ns, lengths and bed points in
2^-16 nm, speeds in 2^-32 µm/s, accelerations in mm/s².
-/

namespace Sys2Proof.Machine

/-- Beam engine states (R334). -/
inductive BeamSt where
  | idle | move | settle | runup | mark | runout | dwell | stopping | hold | parked
deriving DecidableEq, Repr

/-- BEAMb_STATUS.STATE. -/
def BeamSt.code : BeamSt → Nat
  | .idle => 0 | .move => 1 | .settle => 2 | .runup => 3 | .mark => 4 | .runout => 5 | .dwell => 6 | .stopping => 7
  | .hold => 8 | .parked => 9

/-- A path on the bed, or in head field coordinates (R311). -/
inductive Path where
  /-- at rest at a point -/
  | point (x y : Int)
  /-- a straight line between two points -/
  | line (x0 y0 x1 y1 : Int)
  /-- an arc about a centre from a start point through a signed angle in 2^-16 µdeg (R299) -/
  | arc (cx cy x0 y0 : Int) (sweep : Int)
  /-- a straight line in head field coordinates -/
  | field (x0 y0 x1 y1 : Int)
deriving DecidableEq, Repr

/-- One segment of a plan: the state it holds, its path, length, entry speed, speed limit, exit speed, acceleration, and
its interval of device time. -/
structure Seg where
  st : BeamSt
  path : Path
  len : Nat
  v0 : Nat
  v : Nat
  v1 : Nat
  a : Nat
  t0 : Nat
  t1 : Nat
deriving DecidableEq, Repr

/-- The plan of a slug (R289 to R302, R315). -/
structure Plan where
  work : Work
  pset : Nat
  forme : Word
  segs : List Seg
  vm : Nat
  vj : Nat
  a : Nat
  kappa : BitVec 16
  /-- speed ratio of R296, × 2^48 -/
  rho : Nat
  /-- power code of the slug -/
  power : Nat
  /-- head temperature for drift, m°C (R309) -/
  temp : Int
  /-- the emission's interval, T0 to T1; none for a slug without emission -/
  emit : Option (Nat × Nat)
  /-- its placed edges; none where R320 or R321 removed one, or for none -/
  on : Option Nat
  off : Option Nat
  /-- the emission is merged or continued from the previous one, or into the next -/
  contFrom : Bool
  contInto : Bool
  isDwell : Bool
  skywrite : Bool
  /-- shape, amplitude (2^-16 nm), frequency (Hz) of the wobble in force (R302) -/
  wobShape : Nat
  wobAmp : Nat
  wobFreq : Nat
  /-- BEAM_TIMING and BEAM_FINE words in force -/
  timing : List Word
  fine : List Word
  /-- the parameter set's bytes -/
  set : List Byte
  /-- device time at which the slug became current -/
  start : Nat
  /-- time of the slug's end (R298) -/
  finish : Nat
  /-- the slug's start had an inserted move -/
  inserted : Bool
deriving DecidableEq, Repr

/-- A deceleration after a stop (R331). -/
structure Decel where
  path : Path
  len : Nat
  /-- distance along the path and speed at the start -/
  s0 : Nat
  v : Nat
  a : Nat
  t0 : Nat
  /-- wobble envelope at the start, 60 fraction bits, which falls to 0 -/
  env : Int
  plan : Plan
deriving DecidableEq, Repr

/-- One beam engine. -/
structure Beam where
  st : BeamSt := .parked
  plan : Option Plan := none
  /-- the plans before it that the spot may still follow, newest first -/
  prev : List Plan := []
  /-- device time of the last stop: plans begun before it have no emission any more -/
  cutT : Nat := 0
  /-- device time at which LGATE was forced low since the last gate-on, by the engine or by the interlock (R329) -/
  forcedAt : Option Nat := none
  /-- edges that the last forced gate-off cancelled (R328) -/
  cancelled : List (Nat × Bool) := []
  /-- a JUMP has ended and its JUMP_SETTLE belongs to the next slug (R292) -/
  owed : Bool := false
  stopping : Option Decel := none
  /-- edges issued and not yet fired, in time order: time, level -/
  edges : List (Nat × Bool) := []
  gate : Bool := false
  /-- the intervals of the commanded gate of the last 2 ms, newest first: on edge, and off edge once it has fired (2^-16 ns) -/
  gates : List (Nat × Option Nat) := []
  /-- velocity feed-forward of the last samples, newest first, at most 2,048: instant in ns, X and Y in µm/s -/
  vff : List (Nat × Int × Int) := []
  stopValid : Bool := false
  stopX : Word := 0
  stopY : Word := 0
  /-- present setpoint on the bed, without wobble -/
  bedX : Int := 0
  bedY : Int := 0
  spX : Int := 0
  spY : Int := 0
  spF : Int := 0
  /-- field setpoints at rest, nm: X, Y, F -/
  restX : Int := 0
  restY : Int := 0
  restF : Int := 0
  sigma : BitVec 16 := 0xFFFF
  kappa : BitVec 16 := 0xFFFF
  req : BitVec 16 := 0
  dac : BitVec 16 := 0
  /-- the code written to the DAC, after calibration (R325) -/
  lpwr : BitVec 16 := 0
  temp : Int := 0
  driftStale : Bool := false
  gridAlt : Bool := false
  onTime : BitVec 64 := 0
  onSub : BitVec 16 := 0
  /-- time of the last gate-off edge placed -/
  lastOff : Option Nat := none
  shortMarks : Word := 0
  gapMoved : Word := 0
  arcLimited : Word := 0
  wobLimited : Word := 0
  laLate : Word := 0
  edgesOn : Word := 0
  /-- the registration or BEAM_FINE changed since the last inserted move (R311) -/
  switched : Bool := false
  /-- parameter sets of the forme, 64 records, and those that met an uncorrectable error (R336) -/
  psets : List (List Byte) := []
  poisoned : List Nat := []
  /-- a look-ahead answer for the next DAC instant, and whether one is awaited -/
  laAns : Option (BitVec 16) := none
  /-- source, index, parameter set and forme of the current or held slug -/
  src : BitVec 8 := 0xFF
  index : Word := 0
  pset : BitVec 6 := 0
  forme : Word := 0
  /-- gate-on of the emission in which the last DAC instant lay -/
  emitting : Option Nat := none
  /-- a beam stopped by a safe action waits for its release (R447), or for a reread registration (R777) -/
  awaiting : Bool := false
  regFault : Bool := false
deriving DecidableEq, Repr

end Sys2Proof.Machine
end

