-- ==== Sys2Proof/Machine/Parts/Cells.lean ====
section
/-!
DEFINITION. State of the loop cell array (08 of spec/).
-/

namespace Sys2Proof.Machine

/-- Cell states (R442). -/
inductive CellState where
  | off | testing | spare | active | shadow | quarantine | failed
deriving DecidableEq, Repr

/-- CELLc_STATUS.STATE. -/
def CellState.code : CellState → Nat
  | .off => 0 | .testing => 1 | .spare => 2 | .active => 3 | .shadow => 4 | .quarantine => 5 | .failed => 6

/-- Context states (R436). -/
inductive CtxState where
  | unused | stopped | running | faulted
deriving DecidableEq, Repr

/-- CELLc_CTXx_STATUS.STATE. -/
def CtxState.code : CtxState → Nat
  | .unused => 0 | .stopped => 1 | .running => 2 | .faulted => 3

/-- What a sort keeps from sample to sample (R417 to R422): delayed inputs and outputs, the integral at 16 further
fraction bits, the wind-up flag, the filtered derivative, the last error and measurement, and whether it has begun and
is done. -/
structure SortSt where
  x1 : Int := 0
  x2 : Int := 0
  y1 : Int := 0
  y2 : Int := 0
  i : Int := 0
  w : Int := 0
  df : Int := 0
  begun : Bool := false
  done : Bool := false
deriving DecidableEq, Repr

/-- The data of a context: its slots and its sorts' state [R403]. -/
structure CtxData where
  slots : List (Nat × Int) := []
  sorts : List (Nat × SortSt) := []
deriving DecidableEq, Repr

/-- A context's running state. -/
structure Ctx where
  st : CtxState := .unused
  /-- cell and slot that host it -/
  cell : Option (Fin 128) := none
  slot : Bool := false
  engaged : Bool := false
  ovrRun : Nat := 0
  data : CtxData := {}
  samples : Word := 0
  overruns : Word := 0
  inClamped : Word := 0
  limited : Word := 0
  lagMax : Word := 0
  clampRun : Bool := false
  /-- the last sample instant judged, ns -/
  last : Option Nat := none
  /-- FAULTED by a hard fault that found no spare; `cell` is then the cell that failed -/
  hard : Bool := false
  /-- samples still to execute before the owner is released (R447) -/
  settle : Option Nat := none
  /-- stopped by the retirement of its beam (R437, R440) -/
  byRetire : Bool := false
  /-- values that the TRACE sorts of the context recorded last, by channel (R429) -/
  traced : List (Nat × Word) := []
deriving DecidableEq, Repr

/-- A trace channel (R451 to R453, R462). -/
structure Trc where
  ring : List (Nat × Word) := []
  /-- 0 OFF, 1 ARMED, 2 TRIGGERED, 3 STOPPED -/
  st : BitVec 2 := 0
  wptr : Nat := 0
  wrapped : Bool := false
  ovrIn : Bool := false
  trigIdx : Nat := 0
  time : BitVec 64 := 0
  /-- executed samples counted towards DECIM -/
  count : Nat := 0
  /-- samples still to record after the trigger -/
  post : Nat := 0
  /-- previous traced value, for the level crossings -/
  prev : Option Word := none
  /-- a command, line, overrun or fault trigger waits for the next sample recorded -/
  trigNow : Bool := false
  /-- samples waiting for a deep entry, oldest first, the instant of the first, and the entry's flags -/
  deep : List Word := []
  deepAt : Nat := 0
  deepFlags : Nat := 0
deriving DecidableEq, Repr

/-- A cell. -/
structure Cell where
  st : CellState := .off
  hardFaults : BitVec 4 := 0
  kat : BitVec 3 := 0
  partner : BitVec 8 := 0xFF
  /-- the test in progress is that of a cell that came from QUARANTINE (R449) -/
  quarantined : Bool := false
  memCorr : Word := 0
  /-- device time in 2^-16 ns until which the execution unit runs a sample (R428) -/
  busy : Nat := 0
  trc0 : Trc := {}
  trc1 : Trc := {}
deriving DecidableEq, Repr

/-- Progress of one context of a proactive substitution (R445, R446). -/
structure ShadowCtx where
  ctx : Nat
  /-- state of the spare's copy; none until the copy at a sample instant -/
  data : Option CtxData := none
  matched : Nat := 0
  handed : Bool := false
deriving DecidableEq, Repr

/-- A substitution in progress (R466). -/
structure Subst where
  src : Fin 128
  dst : Fin 128
  tries : Nat
  /-- 1 copying, 2 shadow, 3 settling -/
  stage : BitVec 2
  ctxs : List ShadowCtx
deriving DecidableEq, Repr

/-- The array. -/
structure Cells where
  cells : Vector Cell 128 := Vector.replicate 128 {}
  ctx : Vector Ctx 256 := Vector.replicate 256 {}
  subst : Option Subst := none
  /-- proactive substitutions that wait for the one in progress: cells -/
  waiting : List (Fin 128) := []
  cmdResult : BitVec 4 := 0
  cmdTarget : BitVec 8 := 0
  cmdOp : BitVec 4 := 0
  /-- 0 OFF, 1 RUNNING, 2 POST, 3 STOPPED -/
  deepSt : BitVec 2 := 0
  deepWrapped : Bool := false
  deepWr : Word := 0
  deepLost : Word := 0
  deepPost : Nat := 0
deriving DecidableEq, Repr

end Sys2Proof.Machine
end

