-- ==== Sys2Proof/Machine/Parts/Head.lean ====
section
/-!
DEFINITION. State of what the device holds of a head: 12 scan heads, then 4 auxiliary heads (09 of spec/).
-/

namespace Sys2Proof.Machine

/-- A change of the camera route in progress or settled (R486). -/
structure CamSwitch where
  /-- new route -/
  route : Bool
  /-- F_sw, once the head has sent ROUTED -/
  fsw : Option (BitVec 16)
  /-- a lane that has returned to UP, whose repair entry carries F_sw (R778) -/
  back : Option (Fin 28)
deriving DecidableEq, Repr

/-- A token bucket of R504: tokens × 4·10^9 (at most 16 tokens), the device time of its last filling in ns, and the start of the
run of drops. -/
structure Bucket where
  tokens : Nat := 64000000000
  at_ : Nat := 0
  dropping : Option Nat := none
deriving DecidableEq, Repr

/-- An image in assembly (R506). -/
structure Image where
  seq : BitVec 16
  width : Nat
  height : Nat
  bpp : Nat
  tag : Word
  /-- the image is discarded: too large, or not the one asked for -/
  void : Bool
  /-- received byte ranges of the pixel area: offset, count -/
  got : List (Nat × Nat)
deriving DecidableEq, Repr

/-- A head. -/
structure Head where
  rxFseq : BitVec 16 := 0
  txFseq : BitVec 16 := 0
  /-- FSEQ values used, newest first, at most 4,096 (R485) -/
  used : List (BitVec 16) := []
  released : Bool := false
  silent : Bool := false
  /-- device time from which STATUS_TIMEOUT_US counts: the last STATUS, or the first lane's entry into UP (R504) -/
  statusAt : Nat := 0
  route : Bool := false
  switch : Option CamSwitch := none
  bits : BitVec 16 := 0
  faultCode : BitVec 16 := 0
  buckets : List (Nat × Bucket) := []
  /-- an output signal was written since the last CMD or AUX_CMD frame -/
  cmdDue : Bool := false
  /-- outstanding IMG_REQ frames and the TAG of the last (auxiliary heads) -/
  imgTag : Option Word := none
  img : Option Image := none
  /-- number of IMG_REQ frames sent -/
  imgReqs : Nat := 0
deriving DecidableEq, Repr

end Sys2Proof.Machine
end

