-- ==== Sys2Proof/Machine/Parts/Hmap.lean ====
section
/-!
DEFINITION. State of the heat map unit and the recording ring (07 of spec/). The nodes of both maps lie in layer memory.
-/

namespace Sys2Proof.Machine

/-- A run of deposits into one node (R378): node index and the sum, in the parts that `depositDen` counts. -/
structure Deposit where
  node : Option Nat
  sum : Nat
  /-- instants counted since the throttle halved the updates -/
  skip : Bool := false
deriving DecidableEq, Repr

/-- The HMAP block. -/
structure Hmap where
  /-- false: the first buffer holds the current map -/
  cur : Bool := false
  copying : Bool := false
  sweeping : Bool := false
  sweeps : Word := 0
  late : Word := 0
  runs : Vector Deposit 12 := Vector.replicate 12 ⟨none, 0, false⟩
  wr : Word := 0
  rd : Word := 0
  seq : Word := 0
  lost : Word := 0
  /-- unread entries -/
  count : Nat := 0
  overwriting : Bool := false
  low : Bool := false
deriving DecidableEq, Repr

end Sys2Proof.Machine
end

