-- ==== Sys2Proof/Machine/Parts/Ilk.lean ====
section
/-!
DEFINITION. State of the emission interlock and the lamp controller (11 of spec/).
-/

namespace Sys2Proof.Machine

/-- A lamp bus module as the master sees it (R597, R607). -/
structure LampMod where
  missed : BitVec 4 := 0
  failed : Bool := false
  floored : Bool := false
  /-- channel states of the last STATUS reply -/
  ch : BitVec 16 := 0x1111
  /-- consecutive polls answered with every lit channel LIT, up to 3 (R598) -/
  good : Nat := 0
  /-- a channel reports NOT_MEASURED without interruption -/
  notMeasured : Bool := false
  /-- requests to it that await a reply, oldest first: their CMDs -/
  polled : List Nat := []
  /-- three good polls have been answered since the last full reset (R598) -/
  proved : Bool := false
  /-- an IDENT reply has arrived since the last full reset -/
  known : Bool := false
deriving DecidableEq, Repr

/-- The interlock (SAFE domain) and the lamp controller. -/
structure Ilk where
  /-- levels of INHIBIT_A_N and INHIBIT_B_N -/
  a : Bool := false
  b : Bool := false
  /-- the input latch (R582) -/
  latch : Bool := true
  /-- a discrepancy fault stands -/
  disc : Bool := false
  lampInh : Bool := false
  /-- HOLD_b of R498 -/
  hold : BitVec 12 := 0
  /-- internal inhibits of R581: full reset begun, entry into SAFE_HOLD, thermal shutdown -/
  inhReset : Bool := false
  inhSafe : Bool := false
  inhThermal : Bool := false
  inhTime : BitVec 64 := 0
  stampLate : Bool := false
  inhSub : BitVec 16 := 0
  scene : BitVec 4 := 1
  inhCount : Word := 0
  busCrc : Word := 0
  noAnswer : Word := 0
  flooredCount : Word := 0
  mods : Vector LampMod 32 := Vector.replicate 32 {}
  /-- colour gains g_c × 2^32 for RED, GREEN, BLUE and WHITE (R602) -/
  gains : Vector Nat 4 := Vector.replicate 4 4294967296
  /-- a clamp of a gain has been reported and not left since -/
  atLimit : Bool := false
  /-- duties last sent to FEEDBACK groups, for change detection: group and its four duties -/
  sentDuty : List (Nat × Nat) := []
  /-- PERMIT as last driven, for its edges -/
  permit : Bool := false
  /-- a stamp waits for CLK_EV (R586) -/
  stampWait : Bool := false
  /-- display state last shown (R599) -/
  display : Nat := 0
  /-- colour readings RED, GREEN, BLUE, CLEAR of the last COLOUR reply -/
  reading : Vector Nat 4 := Vector.replicate 4 0
  /-- a COLOUR reply has arrived since boot -/
  colour : Bool := false
  /-- groups whose blinking pattern shows 0 now -/
  dark : BitVec 8 := 0
  /-- next address of the rotation of polls (R596) -/
  next : Nat := 1
  /-- LEN_b now, and the device time of each rise (R588) -/
  len : BitVec 12 := 0
  lenRise : Vector Nat 12 := Vector.replicate 12 0
deriving DecidableEq, Repr

end Sys2Proof.Machine
end

