-- ==== Sys2Proof/Machine/Parts/Job.lean ====
section
/-!
DEFINITION. State of the forme queue and the job sequencer (04 of spec/).
-/

namespace Sys2Proof.Machine

/-- Job states (R24); `none` outside BUILDING and PROOF (R227). -/
inductive JobState where
  | idle | makeReady | exposing | paused | stopped | finished | aborted | none
deriving DecidableEq, Repr

/-- JOB_STATUS.STATE. -/
def JobState.code : JobState → Nat
  | .idle => 0 | .makeReady => 1 | .exposing => 2 | .paused => 3 | .stopped => 4 | .finished => 5 | .aborted => 6 | .none => 15

/-- Slot states (R206). -/
inductive SlotState where
  | free | checking | queued | active
deriving DecidableEq, Repr

/-- JOB_SLOT_STATEn.STATE. -/
def SlotState.code : SlotState → Nat
  | .free => 0 | .checking => 1 | .queued => 2 | .active => 3

/-- A queue slot: its forme's layer address, length and identifier, and the predicted work that the commit check
computed (R240), in 2^-16 ns before κ. -/
structure Slot where
  st : SlotState := .free
  addr : Nat := 0
  len : Nat := 0
  id : Word := 0
  g : List Nat := []
  u : List Nat := []
deriving DecidableEq, Repr

/-- Make-ready parameters (R189, R31, R39). -/
structure MrParams where
  thickness : Nat := 0
  dose : Nat := 0
  scene : Nat := 0
  recoat : Nat := 0
  ret : Nat := 0
  settle : Nat := 0
  flags : Nat := 0
deriving DecidableEq, Repr

/-- The job sequencer. -/
structure Job where
  st : JobState := .none
  /-- causes in the order of JOB_STATUS[16:8] -/
  causes : BitVec 9 := 0
  /-- RESUME_TO: true EXPOSING -/
  toExposing : Bool := false
  mrStep : Nat := 0
  slots : Vector Slot 64 := Vector.replicate 64 {}
  /-- QUEUED slots in queue order -/
  queue : List (Fin 64) := []
  active : Option (Fin 64) := none
  commitLo : Word := 0
  commitHi : Word := 0
  commitFront : Bool := false
  commitResult : BitVec 8 := 0
  commitSlot : BitVec 6 := 0
  commitSeq : BitVec 8 := 0
  commitWhere : Word := 0
  layersDone : Word := 0
  /-- a pause waits for the make-ready step or the beams' slugs to end, with this cause (R25, R27) -/
  pausing : Option (BitVec 9) := none
  /-- the make-ready in progress is the host-absent one of R39 -/
  hostMr : Bool := false
  params : MrParams := {}
  /-- values kept for a host-absent make-ready (R39) -/
  kept : Option MrParams := none
  /-- thickness of the layer last spread (LAYER_BEGIN, R272) -/
  spread : Nat := 0
  /-- the layer being exposed follows a host-absent pause (R43) -/
  afterAbsent : Bool := false
  /-- a make-ready step was stopped or abandoned and begins again on RESUME (R219) -/
  mrStopped : Bool := false
  /-- scene to restore after the IMAGE step, while it waits for its frame (R213) -/
  imageScene : Option Nat := none
  /-- a frame still to arrive is to be discarded (R225) -/
  dropFrame : Bool := false
  /-- absolute targets of the moves of the make-ready step in progress (R823), nm -/
  mrTargets : List (Fin 8 × Int) := []
  /-- axes whose move goes on once their stop has ended, after a RESUME (R219) -/
  mrPending : List (Fin 8) := []
  /-- the step at which RESUME goes on (R219); 6: every step has ended -/
  mrNext : Nat := 1
  /-- axes whose position differs after a warm boot (R33, R222) -/
  lostAxes : List (Fin 8) := []
  /-- the RESUME of R34 waits for the first readings of the SSI axes (R33) -/
  autoResume : Bool := false
  /-- ABORT has not settled: beams still stop (R207) -/
  aborting : Bool := false
  /-- the slot that last passed its commit check, and when, ns (R225) -/
  passed : Option (Fin 64 × Nat) := none
  /-- a RESUME into exposure waits for the end of a retraining (R664) -/
  resumeWaits : Bool := false
deriving DecidableEq, Repr

/-- Cause bits of JOB_STATUS[16:8]. -/
def causeHost : BitVec 9 := 1
def causeInhibit : BitVec 9 := 2
def causeIncomplete : BitVec 9 := 4
def causeRecordFull : BitVec 9 := 8
def causeHostAbsent : BitVec 9 := 16
def causeWarmReset : BitVec 9 := 32
def causePositionLost : BitVec 9 := 64
def causeFormeLost : BitVec 9 := 128
def causeConfigChanged : BitVec 9 := 256

end Sys2Proof.Machine
end

