-- ==== Sys2Proof/Machine/Parts/Lane.lean ====
section
/-!
DEFINITION. State of a lane (09 of spec/).
-/

namespace Sys2Proof.Machine

/-- Lane states (R490). -/
inductive LaneState where
  | off | detect | equalise | align | ident | keying | soak | up | failed | hostile | test
deriving DecidableEq, Repr

/-- LANEl_STATUS.STATE. -/
def LaneState.code : LaneState → Nat
  | .off => 0 | .detect => 1 | .equalise => 2 | .align => 3 | .ident => 4 | .keying => 5 | .soak => 6 | .up => 7
  | .failed => 8 | .hostile => 9 | .test => 10

/-- An injection in force (R514). -/
inductive Inject where
  | none | rate (exp : Nat)
deriving DecidableEq, Repr

/-- Keying in progress or done (R494): the nonces, the session key once both proofs are known, and the number of KEY
steps seen. -/
structure Keying where
  nd : BitVec 96 := 0
  nh : BitVec 96 := 0
  step : Nat := 0
  ks : BitVec 128 := 0
deriving DecidableEq, Repr

/-- One lane. -/
structure Lane where
  st : LaneState := .off
  failCause : BitVec 4 := 0
  attempt : BitVec 4 := 0
  swapped : Bool := false
  rxInvert : Bool := false
  locked : Bool := false
  /-- signal at the receiver -/
  signal : Bool := false
  eyeW : BitVec 8 := 0
  eyeH : BitVec 8 := 0
  scans : BitVec 16 := 0
  scanning : Bool := false
  prbsErr : Word := 0
  inject : Inject := .none
  crcErr : Word := 0
  hdrInvalid : Word := 0
  runErr : Word := 0
  lockLoss : Word := 0
  sealVoid : Word := 0
  floodDrop : Word := 0
  duplicates : Word := 0
  frameAbort : Word := 0
  protocol : Word := 0
  retrains : Word := 0
  /-- the lane has entered UP since boot (R493) -/
  wasUp : Bool := false
  /-- NO_PARTNER was raised in this stay in DETECT (R491) -/
  noPartner : Bool := false
  /-- consecutive TRAIN blocks that meet R491, and whether the port last read was not the expected one -/
  trained : Nat := 0
  wrongPort : Bool := false
  /-- consecutive VOID superframes -/
  voids : Nat := 0
  key : Keying := {}
  /-- number of the next upstream superframe (R495) -/
  sfn : BitVec 48 := 0
  /-- device time of entry into the present state, ns -/
  since : Nat := 0
  /-- errors in SOAK: of the head, from SOAK_RESULT, and of the device, once the time has elapsed -/
  soakHead : Option Nat := none
  soakDev : Option Nat := none
  /-- device times of the latest CRC errors, newest first, CRC_LIMIT + 1 of them (R491) -/
  crcTimes : List Nat := []
  /-- equaliser value in force, taken at the start of an attempt (R513) -/
  eq : Word := 0
deriving DecidableEq, Repr

end Sys2Proof.Machine
end

