-- ==== Sys2Proof/Machine/Parts/Mpl.lean ====
section
/-!
DEFINITION. State of a melt-pool engine (07 of spec/).
-/

namespace Sys2Proof.Machine

/-- A photodiode slot that has arrived: slot number and its 12 raw codes A0, B0, BR0, A1, … (R346). -/
structure PdSlot where
  n : Nat
  codes : List Nat
deriving DecidableEq, Repr

/-- A camera frame in assembly (R350, R351): lines by number, each of 128 raw pixels. -/
structure CamFrame where
  seq : BitVec 16
  start : Nat
  exposure : Nat
  lines : List (Nat × List Nat)
deriving DecidableEq, Repr

/-- The metrics of R363. -/
structure Metrics where
  intensity : Word := 0
  area : Word := 0
  length : BitVec 16 := 0
  width : BitVec 16 := 0
  cx : Word := 0
  cy : Word := 0
  spatter : BitVec 8 := 0
  sat : BitVec 16 := 0
  peak : BitVec 16 := 0
  seq : BitVec 16 := 0
deriving DecidableEq, Repr

/-- A photodiode sample held for a recording entry (R385). -/
structure PdHeld where
  a : Nat
  b : Nat
  br : Nat
  corr : Int
deriving DecidableEq, Repr

/-- One engine. -/
structure Mpl where
  /-- recording entries held while a retraining runs (R664) -/
  recHeld : Nat := 0
  /-- filtered values y of the three channels -/
  a : Nat := 0
  b : Nat := 0
  br : Nat := 0
  /-- slots received and not yet used by a window, newest first -/
  slots : List PdSlot := []
  /-- greatest window number judged -/
  window : Option Nat := none
  /-- completeness of the last windows, newest first, at most 4 -/
  complete : List Bool := []
  pdValid : Bool := false
  tempValid : Bool := false
  temp : Word := 0
  ratio : Nat := 0
  /-- a run of incomplete windows runs -/
  gap : Bool := false
  /-- gate-on of the emission in which PD_SAT and CORR_SAT were raised last -/
  satRaised : Option Nat := none
  corrRaised : Option Nat := none
  /-- the last writes of CORR, newest first, at most 8: device time in ns and value -/
  corrLog : List (Nat × Int) := []
  /-- consecutive DAC instants with |CORR| beyond Lc -/
  satRun : Nat := 0
  frame : Option CamFrame := none
  /-- complete frames whose metrics are not ready yet, oldest first (R351) -/
  done : List CamFrame := []
  met : Metrics := {}
  frameValid : Bool := false
  /-- device time at which the last complete frame was processed -/
  frameAt : Option Nat := none
  implausible : Bool := false
  lastInEmission : Bool := false
  slowMetric : Word := 0
  noLight : Bool := false
  darkRun : Nat := 0
  backrefl : Bool := false
  brRun : Nat := 0
  fastEn : Bool := false
  trimEn : Bool := false
  /-- applied trim T_app, correction in force, guarded power -/
  tApp : Int := 0
  corr : Int := 0
  pwrOut : Nat := 0
  /-- MP_SET of the last emission (R370) -/
  lastSet : Option Nat := none
  pdMissing : Word := 0
  pdLate : Word := 0
  pdSatWindows : Word := 0
  ratioClip : Word := 0
  framesOk : Word := 0
  framesDropped : Word := 0
  framesImplausible : Word := 0
  /-- samples held for a PD entry, oldest first, the time stamp of the first, and FAST_EN and emission flags there -/
  held : List PdHeld := []
  heldAt : Nat := 0
  heldFlags : Nat := 0
  pdCount : Nat := 0
  frameCount : Nat := 0
  /-- camera settings in force at the head (R352): FRAME_RATE and EXPOSURE last sent -/
  camRate : Word := 20000
  camExp : Word := 20000
  /-- corrections in force over the present exposure window, with their instants, newest first (R385) -/
  corrHist : List (Nat × Int) := []
deriving DecidableEq, Repr

end Sys2Proof.Machine
end

