-- ==== Sys2Proof/Machine/Parts/Sig.lean ====
section
/-!
DEFINITION. The signal switch (R424, R470).
-/

namespace Sys2Proof.Machine

/-- A signal: value, stamp, valid bit, and the writing context where a context wrote it. -/
structure SigVal where
  v : Word := 0
  t : BitVec 64 := 0
  valid : Bool := false
  ctx : Option (BitVec 8) := none
deriving DecidableEq, Repr

/-- The switch: signals by number, and the latched signal of SIG_SEL. -/
structure Sig where
  vals : List (Nat × SigVal) := []
  latch : SigVal := {}
deriving DecidableEq, Repr

end Sys2Proof.Machine
end

