-- ==== Sys2Proof/Machine/Parts/Time.lean ====
section
/-!
DEFINITION. State of the time block (12 of spec/): device time, the network-time map and its servo, the snapshot, build
time, and the exchanges with the heads.
-/

namespace Sys2Proof.Machine

/-- Servo states (R620). -/
inductive Servo where
  | free | acquiring | locked | holdover
deriving DecidableEq, Repr

/-- TIME_STATUS.SERVO. -/
def Servo.code : Servo → Nat
  | .free => 0 | .acquiring => 1 | .locked => 2 | .holdover => 3

/-- The map of R619. -/
structure TimeMap where
  dt : BitVec 64 := 0
  sec : BitVec 48 := 0
  ns : Word := 0
  rate : Word := 0
deriving DecidableEq, Repr

/-- One lane's exchanges (R628, R637). -/
structure LaneTime where
  /-- offset, ns × 16 -/
  offset : Word := 0
  /-- delay, ns × 16 -/
  delay : Word := 0
  /-- departures not yet answered: T1 and the device time in ns -/
  sent : List (Word × Nat) := []
  /-- ADJ of the next TSYNC; none: no correction -/
  adj : Option Word := none
deriving DecidableEq, Repr

/-- The time block. -/
structure TimeSt where
  /-- device time, ns, with its sub-nanosecond part in 2^-16 ns (R609, R610) -/
  dt : BitVec 64 := 0
  sub : BitVec 16 := 0
  running : Bool := false
  degraded : Bool := false
  resumed : Bool := false
  servo : Servo := .free
  /-- consecutive Sync intervals within LOCK_NS (R620) -/
  within : Nat := 0
  /-- a master was selected and its first offset is still to come (R620, R622) -/
  stepDue : Bool := false
  /-- port states of ports 0 and 1 (R635) -/
  port0 : BitVec 4 := 0
  port1 : BitVec 4 := 0
  /-- TIME_UTC: UTC_VALID, LEAP, OFFSET -/
  utc : BitVec 18 := 0
  offset : Word := 0
  map : TimeMap := {}
  snapDt : BitVec 64 := 0
  snapSec : BitVec 48 := 0
  snapNs : Word := 0
  /-- device time and LAYER of the last LAYER_BEGIN (R624) -/
  layerAt : Option (BitVec 64) := none
  layerNo : Word := 0
  /-- device time of the last START (R625) -/
  startAt : Option (BitVec 64) := none
  tsyncLost : Word := 0
  lanes : Vector LaneTime 28 := Vector.replicate 28 {}
  /-- heads ALIGNED: 12 scan heads, then 4 auxiliary heads (R637) -/
  aligned : BitVec 16 := 0
  /-- consecutive exchanges within ALIGN_NS, and beyond LOSS_NS, by head (R630) -/
  good : List (Nat × Nat) := []
  bad : List (Nat × Nat) := []
  /-- PTP event messages delivered to the firmware with their receive stamps, newest first: port, type, ns, sub (R618) -/
  ptpRx : List (Nat × Nat × Nat × Nat) := []
deriving DecidableEq, Repr

end Sys2Proof.Machine
end

