-- ==== Sys2Proof/Machine/State.lean ====
section
/-!
DEFINITION. The state of the FV2412: `Mach` holds every register, memory, queue, counter and mode the spec gives the
device; `State` adds the queue of commands that wait (the model's own).
-/

namespace Sys2Proof.Machine

/-- The preserve block (R31, R140, R153, R268, R611, R623, R642, R667, R821), typed: the spec gives its contents and not its layout.
Its own damage is told by MEM_TRAINING_DONE. -/
structure Preserved where
  marker : BitVec 64
  /-- device state held before the reset, or before the SAFE_HOLD that it left (R32) -/
  dev : DevState
  ver : Word
  job : Job
  imp : Imp
  /-- BEAMb_STOP: valid, X, Y -/
  stops : List (Bool × Word × Word)
  axes : Vector Axis 8
  layerOn : Bool
  /-- active images of the records changed since boot -/
  recs : List (Nat × List Word)
  map : TimeMap
  startAt : Option (BitVec 64)
  layerAt : Option (BitVec 64)
  layerNo : Word
  hmap : Hmap
  logWr : Word
deriving DecidableEq, Repr

/-- The device. -/
structure Mach where
  g : Glob
  aon : Aon
  clk : Clk
  boot : Boot
  mem : Mem
  mgt : Mgt
  time : TimeSt
  job : Job
  imp : Imp
  beams : Vector Beam 12
  mpl : Vector Mpl 12
  hmap : Hmap
  cells : Cells
  sig : Sig
  lanes : Vector Lane 28
  heads : Vector Head 16
  stg : Vector Axis 8
  ilk : Ilk
  hlt : Hlt
  /-- the preserve block of layer memory -/
  keep : Option Preserved
  /-- registers held as written and event registers, by BAR0 offset (an unlisted one reads its reset value) -/
  regs : List (Nat × Word)
  /-- what has been sent, newest first (the model's own) -/
  outs : List Output
  /-- how many free values have been drawn (the model's own) -/
  free : Nat
  /-- what the command being executed meets, empty between commands (the model's own) -/
  env : Env
deriving DecidableEq, Repr

/-- The device right after reset (DESIGN CHOICE, log row 1) (DESIGN CHOICE, log row 26) (DESIGN CHOICE, log row 43) (DEDUCED, log row 111)
(DESIGN CHOICE, log row 115). -/
def Mach.reset : Mach where
  g := {}
  aon := {}
  clk := {}
  boot := {}
  mem := {}
  mgt := {}
  time := {}
  job := {}
  imp := {}
  beams := Vector.replicate 12 {}
  mpl := Vector.replicate 12 {}
  hmap := {}
  cells := {}
  sig := {}
  lanes := Vector.replicate 28 {}
  heads := Vector.replicate 16 {}
  stg := Vector.replicate 8 {}
  ilk := {}
  hlt := {}
  keep := none
  regs := []
  outs := []
  free := 0
  env := {}

/-- The machine's state: the device and the commands that wait, first in, first out. -/
structure State where
  m : Mach
  pending : List Instr
deriving DecidableEq, Repr

/-- The state right after reset: the device at its reset values, no command waiting (DESIGN CHOICE, log row 1). -/
def State.reset : State := { m := Mach.reset, pending := [] }

/-- No meaning of this model ends in a fault: the type has no case that is raised. -/
inductive Fault where
  /-- raised by no command: every event the spec describes has an effect on the state (safe) -/
  | none
deriving DecidableEq, Repr

/-- Why a command is refused by the model. -/
inductive Refusal where
  /-- raised by a command that has no meaning yet, by its mnemonic (safe) -/
  | notModelled (mnemonic : String)
deriving DecidableEq, Repr

/-- What a step answers. -/
abbrev Out := Host.Outcome State Fault Refusal

/-- A command whose effect on the device is `f`: it answers the next state, and the queue is untouched. -/
def State.act (s : State) (f : Mach → Mach) : Out := .next { s with m := f s.m }

end Sys2Proof.Machine
end

