-- ==== Sys2Proof/Machine/Ops.lean ====
section
/-!
DEFINITION. The named operations every meaning is written with: free values, outputs, device time, events and
MSI-X, access errors, the log, layer memory, records and ingot sections. The block has no exception entry: raising
an event, an error flag or a fault is an effect on the state.
-/

namespace Sys2Proof.Machine

/-- Two effects, one after the other. -/
def seqM (f g : Mach → Mach) (m : Mach) : Mach := g (f m)

/-- An effect under a condition. -/
def whenM (c : Bool) (f : Mach → Mach) (m : Mach) : Mach := if c then f m else m

/-- An effect for each element of a list, in order. -/
def eachM {α : Type} (l : List α) (f : α → Mach → Mach) (m : Mach) : Mach := l.foldl (fun m a => f a m) m

/-- What a block's functional clock drives: nothing happens while its gate is closed (R695, R696). Gates: 0 to 11 beams, 12 heat map,
13 imposition and job. -/
def clocked (i : Nat) (f : Mach → Mach) (m : Mach) : Mach := if bitOf m.clk.gateClosed i then m else f m

/-! ### Free values, outputs, device time -/

/-- A fresh free 32-bit value, and the machine that has drawn it (DEDUCED, log row 6). -/
def drawWord (m : Mach) : Word × Mach := (Config.freeWord m.free, { m with free := m.free + 1 })

/-- A fresh value of the device's random source (DEDUCED, log row 6). -/
def drawRandom (m : Mach) : BitVec 128 × Mach := (Config.random m.free, { m with free := m.free + 1 })

/-- Send something. -/
def emit (o : Output) (m : Mach) : Mach := { m with outs := o :: m.outs }

/-- Device time in ns (R609). -/
def now (m : Mach) : Nat := m.time.dt.toNat

/-! ### Device state -/

/-- The device is in BUILDING or PROOF. -/
def inBuild (m : Mach) : Bool := m.g.dev = .building || m.g.dev = .proof

/-- The device is in CONFIGURED, BUILDING or PROOF. -/
def inWork (m : Mach) : Bool := m.g.dev = .configured || inBuild m

/-- The main supplies are on and the device is in a state with its registers alive. -/
def powered (m : Mach) : Bool :=
  m.aon.mains && (m.g.dev = .boot || inWork m || m.g.dev = .safeHold || m.g.dev = .shutdownLatched)

/-- A power domain is on, by its PWR_STATUS.ON bit (R697, R712). -/
def domainOn (m : Mach) (d : Nat) : Bool := bitOf m.clk.domains d

/-- The domains are in the reset of a forced fallback (R690): host interface, Ethernet and lanes unavailable. -/
def hostHeld (m : Mach) : Bool := m.clk.fallback ≠ .none

/-! ### Registers held as written, events and MSI-X -/

/-- A register held as written, or an event register. -/
def regGet (m : Mach) (off : Nat) : Word := look regReset m.regs off

/-- Its new value. -/
def regSet (off : Nat) (w : Word) (m : Mach) : Mach := { m with regs := put regReset m.regs off w }

/-- MSI-X may send now (R84, R102, R103). -/
def msixLive (m : Mach) : Bool := m.g.pci.msixOn && m.g.linkUp && !hostHeld m

/-- Send a vector's message, and start its moderation interval if GLB_MSIX_MOD sets one (R82, R102). -/
def msixSend (v : Fin 64) (m : Mach) : Mach :=
  let e := m.g.msix[v]
  let e' := { e with pend := false, interval := decide (fld (regGet m 0x50) 9 0 ≠ 0) }
  emit (.msix v.val e.addr e.data) { m with g := { m.g with msix := m.g.msix.set v e' } }

/-- A new occurrence of an event on a vector (R84, R102, R103) (DEDUCED, log row 48). -/
def msixOccur (v : Fin 64) (m : Mach) : Mach :=
  let e := m.g.msix[v]
  if !msixLive m then m
  else if e.mask || e.interval || m.g.d3hot then
    { m with g := { m.g with msix := m.g.msix.set v { e with pend := true } } }
  else msixSend v m

/-- The SQC word after one more occurrence of event `bit` (R47) (DEDUCED, log row 48). -/
def sqcRaise (w : Word) (bit : Nat) : Word :=
  BitVec.ofNat 32 (((fld w 31 24 + 1) % 256) * 2 ^ 24 + (fld w 23 0 ||| 2 ^ bit) % 2 ^ 24)

/-- The SQC word after a clear write (R46). -/
def sqcClear (w v : Word) : Word :=
  if fld w 31 24 = fld v 31 24 then w &&& ~~~ (v &&& 0x00FFFFFF#32) else w

/-- Raise an event: its bit is set, the sequence number advances, and the vector gets an occurrence when the enable
bit is set (R47, R102). -/
def raise (e : EvReg) (bit : Nat) (m : Mach) : Mach :=
  let m' := regSet e.off (sqcRaise (regGet m e.off) bit) m
  if bitOf (regGet m e.en) bit then msixOccur (Fin.ofNat 64 (e.vec bit)) m' else m'

/-- Whether an event bit stands. -/
def raised (m : Mach) (e : EvReg) (bit : Nat) : Bool := bitOf (regGet m e.off) bit

/-! ### Records and sections -/

/-- The active words of a record (R149, R159). -/
def recWords (m : Mach) (id : Nat) : List Word := look recDefault m.boot.recs id

/-- Word `i` of a record. -/
def recWord (m : Mach) (id i : Nat) : Word := (recWords m id).getD i 0

/-- Field `[hi:lo]` of word `i` of a record. -/
def recFld (m : Mach) (id i hi lo : Nat) : Nat := fld (recWord m id i) hi lo

/-- A signed field of a record. -/
def recS (m : Mach) (id i hi lo : Nat) : Int := sfld (recWord m id i) hi lo

/-- A section of the running configuration (R121, R123). -/
def findSection (m : Mach) (type inst : Nat) : Option Section :=
  m.boot.sections.find? (fun s => decide (s.type = type) && decide (s.inst = inst))

/-- The bytes of a running section, or none. -/
def secBytes (m : Mach) (type inst : Nat) : List Byte := match findSection m type inst with | some s => s.bytes | none => []

/-- A head is fitted when it has its REGISTRATION and HEAD sections (R122). -/
def fitted (m : Mach) (h : Nat) : Bool := (findSection m 3 h).isSome && (findSection m 4 h).isSome

/-- An auxiliary head is fitted when it has its AUX_HEAD section (R121). -/
def auxFitted (m : Mach) (h : Nat) : Bool := (findSection m 7 h).isSome

/-! ### Layer memory -/

/-- A byte of layer memory that nothing has written reads 0 (R663) (DEDUCED, log row 11). -/
def memDefault : Nat → Byte := fun _ => 0

/-- One byte of layer memory. -/
def memByte (m : Mach) (a : Nat) : Byte := look memDefault m.mem.cells a

/-- `n` bytes of layer memory from `a`. -/
def memBytes (m : Mach) (a n : Nat) : List Byte := lookAll memDefault m.mem.cells a n

/-- `n` bytes as a number, least significant first (R5). -/
def memLe (m : Mach) (a n : Nat) : Nat := leNat (memBytes m a n)

/-- A signed 32-bit value of layer memory. -/
def memS32 (m : Mach) (a : Nat) : Int := signed 32 (memLe m a 4)

/-- Block number of a layer address (R641). -/
def blockOf (a : Nat) : Nat := a / 64

/-- Channel of a block (R641). -/
def chanOf (k : Nat) : Nat := (k / 56) % 2

/-- Bank of a block (R641). -/
def bankOf (k : Nat) : Nat := (((k / 56) / 2) ^^^ ((k / 56) / 32)) % 16

/-- Row of a block (R641). -/
def rowOf (k : Nat) : Nat := (k / 56) / 32

/-- The blocks that `n` bytes from `a` touch. -/
def blocksOf (a n : Nat) : List Nat := if n = 0 then [] else (List.range ((a + n - 1) / 64 - a / 64 + 1)).map (· + a / 64)

/-- The blocks of a range that a write covers whole. -/
def wholeBlocks (a n : Nat) : List Nat := (blocksOf a n).filter (fun k => decide (a ≤ 64 * k) && decide (64 * k + 64 ≤ a + n))

/-- The channel's state. -/
def Mem.ch (x : Mem) (c : Nat) : MemCh := if c = 0 then x.ch0 else x.ch1

/-- The channel's state replaced. -/
def Mem.setCh (x : Mem) (c : Nat) (v : MemCh) : Mem := if c = 0 then { x with ch0 := v } else { x with ch1 := v }

/-- A block enters its channel's write queue, or merges with its entry (R650). A full queue first drains its oldest
entry. -/
def queueWrite (x : Mem) (k : Nat) : Mem :=
  let c := x.ch (chanOf k)
  if k ∈ c.writeQ then x
  else
    let q := if c.writeQ.length < 64 then c.writeQ else c.writeQ.drop 1
    x.setCh (chanOf k) { c with writeQ := q ++ [k] }

/-- Bytes written at a layer address: whole blocks lose their poison, other poisoned blocks keep it (R650, R660). -/
def memWrite (a : Nat) (bs : List Byte) (m : Mach) : Mach :=
  let x := (blocksOf a bs.length).foldl queueWrite m.mem
  { m with mem := { x with cells := putAll memDefault x.cells a bs,
                           poison := x.poison.filter (fun k => k ∉ wholeBlocks a bs.length) } }

/-- A boot that has not loaded its MEMORY_MAP, so that no allocation is in force yet (R87, R141, R643). -/
def unmapped (m : Mach) : Bool := (m.g.dev = .boot || m.g.dev = .safeHold) && m.boot.phase ≠ .halted

/-- A region of the MEMORY_MAP section; where none is loaded a halted boot has the default allocation, and any other boot none yet
(R141, R643, R645). -/
def region (m : Mach) (r : Nat) : Nat × Nat :=
  match findSection m 9 0xFFFF with
  | some s => (rdLe s.bytes (16 * r) 8, rdLe s.bytes (16 * r + 8) 8)
  | none =>
    if unmapped m then (0, 0)
    else match r with
    | 0 => (0, 0x100000000)
    | 1 => (0x100000000, 0x40000000)
    | 2 => (0x140000000, 0x10000000)
    | 3 => (0x150000000, 0x4000000)
    | 4 => (0x154000000, 0x10000000)
    | 5 => (0x164000000, 0x4000000)
    | 6 => (0x168000000, 0x54000000)
    | _ => (0, 0)

/-- Whether `n` bytes from `a` lie wholly in region `r`. -/
def inRegion (m : Mach) (r a n : Nat) : Bool :=
  let (b, z) := region m r
  decide (b ≤ a) && decide (a + n ≤ b + z)

/-- The end of layer memory (R641). -/
def layerEnd : Nat := 0x1C0000000

/-! ### Log (R768 to R772) -/

/-- Severities of R768. -/
def sevInfo : Nat := 0
def sevNotice : Nat := 1
def sevRepair : Nat := 2
def sevFault : Nat := 3

/-- An ARG field: 12 bytes from the given bytes, zero-filled. -/
def argBytes (bs : List Byte) : List Byte := (bs ++ List.replicate 12 0).take 12

/-- The 32 bytes of an entry (R768). -/
def LogEnt.bytes (e : LogEnt) : List Byte :=
  let b := leBytes 4 e.seq.toNat ++ leBytes 8 e.time.toNat ++ leBytes 2 e.code.toNat ++ [e.sev, e.unit] ++ argBytes e.arg
  b ++ leBytes 4 (crc32 b).toNat

/-- The MGMT domain is out of the reset of a forced fallback and its firmware runs (R690, R693). -/
def mgmtRuns (m : Mach) : Bool := m.clk.fallback = .none || m.clk.fallback = .onBackup

/-- The management firmware runs, so entries can be written (R21, R774). -/
def logAlive (m : Mach) : Bool :=
  m.aon.mains && m.g.dev ≠ .off && m.g.dev ≠ .standby && m.g.dev ≠ .shutdownLatched && !m.g.resetHeld && mgmtRuns m

/-- Write a log entry at device time `t` (R768, R771, R787) (DEDUCED, log row 29). -/
def logAt (t code sev unit : Nat) (arg : List Byte) (m : Mach) : Mach :=
  if !logAlive m then m
  else if m.g.dev = .boot && !m.mgt.bootLogged then
    { m with mgt := { m.mgt with early := m.mgt.early ++ [⟨0, BitVec.ofNat 64 t, BitVec.ofNat 16 code, BitVec.ofNat 8 sev, BitVec.ofNat 8 unit, argBytes arg⟩] } }
  else
    let e : LogEnt := ⟨m.mgt.logSeq, BitVec.ofNat 64 t, BitVec.ofNat 16 code, BitVec.ofNat 8 sev, BitVec.ofNat 8 unit, argBytes arg⟩
    let past := decide (8192 ≤ m.mgt.ring.length)
    let ring := (if past then m.mgt.ring.drop 1 else m.mgt.ring) ++ [e]
    let m1 := { m with mgt := { m.mgt with logSeq := m.mgt.logSeq + 1, ring := ring, waiting := m.mgt.waiting ++ [e],
                                           logLost := if past then m.mgt.logLost + 1 else m.mgt.logLost } }
    let m2 := if past then raise .mgt 2 m1 else m1
    if recFld m recMgtLog 1 1 0 ≤ sev % 4 then raise .mgt 1 m2 else m2

/-- Write a log entry now. -/
def log (code sev unit : Nat) (arg : List Byte) (m : Mach) : Mach := logAt (now m) code sev unit arg m

/-- GLB_STATUS.LAST_SHUTDOWN (R69). -/
def lastShutdown (m : Mach) : Nat := if m.aon.validAtBoot then m.aon.shutdown.toNat else 4

/-- The entries that open a boot: BOOT, the cause that retention holds from before a power-on, then what came before them (R770)
(DEDUCED, log row 29). -/
def bootEntries (m0 : Mach) : Mach :=
  if m0.mgt.bootLogged then m0
  else
    let es := m0.mgt.early
    let m := { m0 with mgt := { m0.mgt with bootLogged := true, early := [] } }
    let b := b2n m.boot.bank + 2 * b2n m.g.bootWarm + 4 * m.g.resetCause.toNat
    let m1 := log 0x0001 sevInfo 0xFF (leBytes 4 m.boot.ver.toNat ++ [BitVec.ofNat 8 b, BitVec.ofNat 8 (lastShutdown m)] ++ leBytes 6 m.aon.rtc.toNat) m
    let power := decide (m.g.resetCause.toNat ≤ 1)
    let m2 := whenM (power && lastShutdown m = 1) (log 0xD010 sevFault 0xFF []) m1
    let m3 := whenM (power && lastShutdown m = 2) (log 0x0030 sevNotice 0xFF []) m2
    eachM es (fun e => logAt e.time.toNat e.code.toNat e.sev.toNat e.unit.toNat e.arg) m3

/-- An in-service repair: its entry, REPAIR in GLB_EVENT, MGT_REPAIRS (R778). -/
def repairAt (t code unit : Nat) (arg : List Byte) (m : Mach) : Mach :=
  let m1 := logAt t code sevRepair unit arg m
  raise .glb 10 { m1 with mgt := { m1.mgt with repairs := m1.mgt.repairs + 1 } }

/-- A repair now. -/
def repair (code unit : Nat) (arg : List Byte) (m : Mach) : Mach := repairAt (now m) code unit arg m

/-! ### Ports and access errors (R49, R58, R59, R63, R78) -/

/-- A port's state. -/
def Glob.port (g : Glob) : Port → PortSt
  | .host => g.host
  | .mgmt => g.mgmt

/-- A port's state replaced. -/
def Glob.setPort (g : Glob) (p : Port) (v : PortSt) : Glob :=
  match p with
  | .host => { g with host := v }
  | .mgmt => { g with mgmt := v }

/-- A port's state changed. -/
def onPort (p : Port) (f : PortSt → PortSt) (m : Mach) : Mach := { m with g := m.g.setPort p (f (m.g.port p)) }

/-- The GLB_ERR_ADDR word of an access (R78): OVERRUN while LOCKERR, ACCERR or SHADOW_MISS stands. -/
def errWord (m : Mach) (p : Port) (cause off : Nat) : Word :=
  BitVec.ofNat 32 (flag 31 (raised m .glb 3 || raised m .glb 4 || raised m .glb 5) + flag 30 (p = .mgmt) + cause * 2 ^ 28 + off % 2 ^ 24)

/-- Record an access error: GLB_ERR_ADDR, its event, its log entry. -/
def accessError (cause bit code : Nat) (p : Port) (off : Nat) (m : Mach) : Mach :=
  let m1 := { m with g := { m.g with errAddr := errWord m p cause off } }
  log code (sevNotice + (if p = .mgmt then 4 else 0)) 0xFF (leBytes 3 off) (raise .glb bit m1)

/-- LOCKERR (R49) (DESIGN CHOICE, log row 19). -/
def lockErr : Port → Nat → Mach → Mach := accessError 1 3 0x20
/-- ACCERR (R59, R63). -/
def accErr : Port → Nat → Mach → Mach := accessError 2 4 0x21
/-- SHADOW_MISS (R58). -/
def shadowMiss : Port → Nat → Mach → Mach := accessError 3 5 0x22

/-- CMD_ERROR in GLB_EVENT (R72 and the command registers of every block). -/
def cmdError (m : Mach) : Mach := raise .glb 2 m

/-! ### Power domains and register answers (R16, R63) -/

/-- The power domain of the block at a BAR0 offset, as a PWR_STATUS.ON bit (R16, R65). -/
def domainOf (off : Nat) : Nat :=
  if off < 0x20000 then 10
  else if off < 0x5C000 then 6
  else if off < 0x60000 then 6
  else if off < 0x80000 then 4
  else if off < 0x90000 then 4
  else if off < 0xA0000 then 5
  else if off < 0xA3800 then 8
  else if off < 0xB0000 then 9
  else if off < 0xC0000 then 11
  else if off < 0xD0000 then 1
  else if off < 0xE0000 then 3
  else if off < 0xF0000 then 7
  else if off < 0x100000 then 3
  else if off < 0x110000 then 2
  else if off < 0x200000 then 2
  else if off < 0x300000 then 4
  else 5

/-- An offset that no block and no unit has (R53, R65): its accesses read zero, write nothing and raise nothing. -/
def blockless (off : Nat) : Bool :=
  (0x4C000 ≤ off && off < 0x50000) || (0xA7000 ≤ off && off < 0xB0000) || (0xB4000 ≤ off && off < 0xC0000) ||
  (0x120000 ≤ off && off < 0x200000) || decide (0x400000 ≤ off)

/-- Whether an access at an offset is served (R63): GLB, BOOT, MGT, CLK and PWR answer from the moment HOST is on, MEM once
layer memory is trained, every other block once CONFIGURED has been reached and its domain is on. -/
def answers (m : Mach) (off : Nat) : Bool :=
  if blockless off then true
  else if off < 0x20000 || (0x110000 ≤ off && off < 0x120000) || (0xF0000 ≤ off && off < 0x100000) then domainOn m 10
  else if 0xE0000 ≤ off && off < 0xF0000 then m.mem.trained
  else m.g.configuredOnce && domainOn m (domainOf off)

/-- A port reaches the registers: the host through an up link in D0 with BAR0 placed (R106, R107), the management port while its firmware
runs. -/
def reaches (m : Mach) (p : Port) : Bool :=
  powered m && !m.g.resetHeld && m.g.dev ≠ .shutdownLatched &&
  match p with
  | .host => m.g.linkUp && m.g.pci.bar0.isSome && !m.g.d3hot && domainOn m 10 && !hostHeld m
  | .mgmt => domainOn m 2 && mgmtRuns m

/-- The low-word offset of the pair an offset belongs to. -/
def pairLow (off : Nat) : Nat := off / 8 * 8

/-- A write by a port to an offset other than the pair its full write shadow holds discards the held word and raises
SHADOW_MISS (R58) (DEDUCED, log row 21). -/
def dropShadow (p : Port) (off : Nat) (m : Mach) : Mach :=
  match (m.g.port p).wr with
  | none => m
  | some _ => shadowMiss p off (onPort p (fun s => { s with wr := none }) m)

/-- A register write that reaches the device: the port's shadow rule, then ACCERR where the block does not answer,
then the register's own effect. -/
def writeGate (p : Port) (off : Nat) (f : Mach → Mach) (m : Mach) : Mach :=
  if !reaches m p then m
  else
    let m1 := dropShadow p off m
    if answers m1 off then f m1 else accErr p off m1

/-- A write of both words of a pair at one instant (R57): the shadow that holds this very pair is emptied without
SHADOW_MISS (R58) (DEDUCED, log row 21). -/
def pairGate (p : Port) (low : Nat) (f : Mach → Mach) (m : Mach) : Mach :=
  match (m.g.port p).wr with
  | some (o, _) => if o = low && reaches m p then writeGate p low f (onPort p (fun s => { s with wr := none }) m) else writeGate p low f m
  | none => writeGate p low f m

/-- A log entry of a class whose own code the spec does not fix: the low 12 bits of CODE are a free value (R769, R816)
(DEDUCED, log row 16). -/
def logClass (cls unit : Nat) (arg : List Byte) (m : Mach) : Mach :=
  if !logAlive m then m
  else
    let (w, m1) := drawWord m
    log (cls * 4096 + w.toNat % 4096) sevNotice unit arg m1

/-- A health entry: quantity in the row order of R724 from 0, value, limit (R725, R769) (DEDUCED, log row 16). -/
def healthLog (q unit : Nat) (value limit : Int) (m : Mach) : Mach :=
  logClass 0xD unit (leBytes 4 q ++ leBytes 4 (BitVec.ofInt 32 value).toNat ++ leBytes 4 (BitVec.ofInt 32 limit).toNat) m

/-! ### Vectors of parts -/

/-- A beam's imposition state changed. -/
def onImp (b : Fin 12) (f : ImpBeam → ImpBeam) (m : Mach) : Mach :=
  { m with imp := { m.imp with beams := m.imp.beams.set b (f m.imp.beams[b]) } }

/-- The beams, in order. -/
def allBeams : List (Fin 12) := List.finRange 12

/-! ### Single parts changed -/

/-- A beam engine changed. -/
def onBeam (b : Fin 12) (f : Beam → Beam) (m : Mach) : Mach := { m with beams := m.beams.set b (f m.beams[b]) }
/-- A melt-pool engine changed. -/
def onMpl (b : Fin 12) (f : Mpl → Mpl) (m : Mach) : Mach := { m with mpl := m.mpl.set b (f m.mpl[b]) }
/-- A lane changed. -/
def onLane (l : Fin 28) (f : Lane → Lane) (m : Mach) : Mach := { m with lanes := m.lanes.set l (f m.lanes[l]) }
/-- A head changed. -/
def onHead (h : Fin 16) (f : Head → Head) (m : Mach) : Mach := { m with heads := m.heads.set h (f m.heads[h]) }
/-- An axis changed. -/
def onAxis (a : Fin 8) (f : Axis → Axis) (m : Mach) : Mach := { m with stg := m.stg.set a (f m.stg[a]) }
/-- A cell changed. -/
def onCell (c : Fin 128) (f : Cell → Cell) (m : Mach) : Mach :=
  { m with cells := { m.cells with cells := m.cells.cells.set c (f m.cells.cells[c]) } }
/-- A context changed. -/
def onCtx (k : Fin 256) (f : Ctx → Ctx) (m : Mach) : Mach :=
  { m with cells := { m.cells with ctx := m.cells.ctx.set k (f m.cells.ctx[k]) } }
/-- The interlock changed. -/
def onIlk (f : Ilk → Ilk) (m : Mach) : Mach := { m with ilk := f m.ilk }
/-- The job sequencer changed. -/
def onJob (f : Job → Job) (m : Mach) : Mach := { m with job := f m.job }
/-- The time block changed. -/
def onTime (f : TimeSt → TimeSt) (m : Mach) : Mach := { m with time := f m.time }
/-- The health subsystem changed. -/
def onHlt (f : Hlt → Hlt) (m : Mach) : Mach := { m with hlt := f m.hlt }
/-- The heat map block changed. -/
def onHmap (f : Hmap → Hmap) (m : Mach) : Mach := { m with hmap := f m.hmap }
/-- The imposition engine changed. -/
def onImpAll (f : Imp → Imp) (m : Mach) : Mach := { m with imp := f m.imp }

/-- One CLK_EV tick in 2^-16 ns (R609). -/
def tickQ : Nat := 81920

/-- Device time in 2^-16 ns (R609). -/
def nowQ (m : Mach) : Nat := m.time.dt.toNat * 65536 + m.time.sub.toNat

/-- A command refused by a block: CMD_ERROR in GLB_EVENT and the block's own CMD_REFUSED. A command error is refused
in the same way, as R281 says for IMP_CMD (log row 31). -/
def refuse (e : EvReg) (bit : Nat) (m : Mach) : Mach := raise e bit (cmdError m)

/-- A command takes effect with what it meets outside (DESIGN CHOICE, log row 120). -/
def withEnv (e : Env) (f : Mach → Mach) (m : Mach) : Mach := { f { m with env := e } with env := m.env }

/-! ### The signal switch (R424 to R426) -/

/-- A signal's value, stamp and valid bit. -/
def sigGet (m : Mach) (n : Nat) : SigVal := look (fun _ => {}) m.sig.vals n

/-- A signal's value as a signed number. -/
def sigInt (m : Mach) (n : Nat) : Int := (sigGet m n).v.toInt

/-- A write sets value, stamp and valid bit together (R424). -/
def sigPut (n : Nat) (s : SigVal) (m : Mach) : Mach :=
  { m with sig := { m.sig with vals := put (fun _ => {}) m.sig.vals n s } }

/-- A device block writes a signal with stamp `t`; a value outside 32 bits saturates (R287, R409). -/
def sigWriteAt (n : Nat) (v : Int) (t : Nat) (m : Mach) : Mach :=
  sigPut n { v := BitVec.ofInt 32 (satS 32 v), t := BitVec.ofNat 64 t, valid := true } m

/-- A write stamped now. -/
def sigWrite (n : Nat) (v : Int) (m : Mach) : Mach := sigWriteAt n v (now m) m

/-- A raw 32-bit value written with stamp `t`. -/
def sigWriteRaw (n : Nat) (v : Word) (t : Nat) (m : Mach) : Mach :=
  sigPut n { v := v, t := BitVec.ofNat 64 t, valid := true } m

/-- A signal marked not valid: value and stamp stay (R498). -/
def sigInvalidate (n : Nat) (m : Mach) : Mach :=
  let s := sigGet m n
  if s.valid then sigPut n { s with valid := false } m else m

/-- A device signal that is written on change only (R426, signals 752 to 757). -/
def sigPub (n : Nat) (v : Nat) (m : Mach) : Mach :=
  let s := sigGet m n
  if s.valid && s.v = BitVec.ofNat 32 v then m else sigWriteRaw n (BitVec.ofNat 32 v) (now m) m

/-- The device's own signals after a change of state (R227, R426). -/
def devSignals (m0 : Mach) : Mach :=
  let m := sigPub 756 (if inBuild m0 then m0.job.st.code else 15) m0
  sigPub 754 (b2n (m.g.dev = .proof)) (sigPub 753 (b2n (m.g.dev = .safeHold)) (sigPub 752 m.g.dev.code m))

end Sys2Proof.Machine
end

