-- ==== Sys2Proof/Machine/Ingot.lean ====
section
/-!
DEFINITION. The ingot: header, section table and the bank check of R127, bank standing and bank choice (R114 to R129).
-/

namespace Sys2Proof.Machine

/-- A reader of bytes: offset, count. -/
abbrev Reader := Nat → Nat → List Byte

/-- Bytes of a bank; an erased byte reads 0xFF (DESIGN CHOICE, log row 20). -/
def bankReader (b : Bank) : Reader := fun off n => lookAll (fun _ => 0xFF#8) b.cells off n

/-- Bytes of layer memory from a base. -/
def memReader (m : Mach) (base : Nat) : Reader := fun off n => memBytes m (base + off) n

/-- A header field. -/
def hdr (rd : Reader) (off n : Nat) : Nat := leNat (rd off n)

/-- Whether `n` bytes from `off` are all zero. -/
def zeros (rd : Reader) (off n : Nat) : Bool := (rd off n).all (fun b => decide (b = 0))

/-- One section table entry (R120). -/
structure SecEntry where
  type : Nat
  inst : Nat
  off : Nat
  len : Nat
  clean : Bool
  digest : Nat
deriving DecidableEq, Repr

/-- Section table entry `i`. -/
def secEntry (rd : Reader) (i : Nat) : SecEntry :=
  let o := 256 + 64 * i
  ⟨hdr rd o 2, hdr rd (o + 2) 2, hdr rd (o + 4) 4, hdr rd (o + 8) 4, zeros rd (o + 12) 20, beNat (rd (o + 32) 32)⟩

/-- The section table. -/
def secTable (rd : Reader) : List SecEntry := tab (hdr rd 6 2) (secEntry rd)

/-- A TYPE and INSTANCE that R121 lists. -/
def secKnown (e : SecEntry) : Bool :=
  match e.type with
  | 1 | 2 | 5 | 6 | 8 | 9 => decide (e.inst = 0xFFFF)
  | 3 | 4 => decide (e.inst < 12)
  | 7 => decide (e.inst < 4)
  | _ => false

/-- Two entries neither repeat a TYPE and INSTANCE nor overlap. -/
def secApart (a b : SecEntry) : Bool :=
  !(decide (a.type = b.type) && decide (a.inst = b.inst)) && (decide (a.off + a.len ≤ b.off) || decide (b.off + b.len ≤ a.off))

/-- Every pair of a list stands in a relation. -/
def allPairs {α : Type} (r : α → α → Bool) : List α → Bool
  | [] => true
  | a :: t => t.all (r a) && allPairs r t

/-- Step 6 of R127: the section table meets R120, R121 and R122. -/
def secTableOk (rd : Reader) : Bool :=
  let t := secTable rd
  let has := fun ty i => t.any (fun e => decide (e.type = ty) && decide (e.inst = i))
  t.all (fun e => e.clean && decide (e.off % 64 = 0) && decide (1 ≤ e.len) && decide (256 + 64 * t.length ≤ e.off) &&
    decide (e.off + e.len ≤ hdr rd 8 4) && secKnown e && (decide (e.type ≠ 1) || decide (e.len ≤ 458752))) &&
  allPairs secApart t &&
  [1, 2, 5, 6, 9].all (fun ty => has ty 0xFFFF) &&
  (List.range 12).all (fun h => has 3 h == has 4 h)

/-- A fuse word with its check bits (DESIGN CHOICE, log row 115). -/
def fuseOf (w : Word) : Fuse := ⟨w, Config.fuseCheck w⟩

/-- A fuse word passes its check. -/
def Fuse.good (f : Fuse) : Bool := f.check = Config.fuseCheck f.v

/-- The slot revocation bits; an unprogrammed word, or one that fails its check, reads 0 (R125). -/
def Boot.revoked (b : Boot) : BitVec 4 :=
  match b.revFuse with
  | some f => if f.good then BitVec.ofNat 4 f.v.toNat else 0
  | none => 0

/-- The floor words that read as programmed (R125). -/
def Boot.floors (b : Boot) : List Fuse := b.floorWords.filter Fuse.good

/-- A key-hash slot is usable (R126). -/
def slotUsable (m : Mach) (k : Nat) : Bool := (Config.keyHash k).isSome && !bitOf m.boot.revoked k

/-- The version floor (R126). -/
def versionFloor (m : Mach) : Nat := m.boot.floors.foldl (fun a w => max a w.v.toNat) 0

/-- GLB_ID[15:8], the stepping as MIN_STEP codes it. -/
def stepping : Nat := Config.stepLetter.toNat * 16 + Config.stepDigit.toNat

/-- Step 1 of R127 (DEDUCED, log row 4). -/
def headerOk (rd : Reader) : Bool :=
  decide (hdr rd 0 4 = 0x54474E49) && decide (hdr rd 4 2 = 1) && decide (hdr rd 28 2 = 0x2412) &&
  decide (hdr rd 30 1 ≤ stepping) && decide (1 ≤ hdr rd 6 2) && decide (hdr rd 6 2 ≤ 128) &&
  decide (256 ≤ hdr rd 8 4) && decide (hdr rd 8 4 ≤ 50331648) && decide (hdr rd 40 4 < 2) && zeros rd 48 16 && zeros rd 160 32

/-- Steps 1 to 6 of R127: 0 valid, else the failure state of R185. An all-erased header reads as erased (log row 20) (DEDUCED, log row 3). -/
def bankCheck (m : Mach) (rd : Reader) : Nat :=
  if (rd 0 256).all (fun b => decide (b = 0xFF#8)) then 7
  else if !headerOk rd then 1
  else
    let k := hdr rd 31 1
    if 4 ≤ k || !slotUsable m k || Config.keyHash k ≠ some (Config.sha256 (rd 64 64)) then 2
    else if !Config.ecdsaVerify (BitVec.ofNat 512 (beNat (rd 64 64))) (BitVec.ofNat 512 (beNat (rd 192 64)))
        (rd 0 192 ++ rd 256 (64 * hdr rd 6 2)) then 3
    else if hdr rd 12 4 < versionFloor m then 4
    else if hdr rd 32 8 ≠ 0 && hdr rd 32 8 ≠ Config.uid.toNat then 5
    else if !secTableOk rd then 1
    else 0

/-- A section's bytes, where its SHA-256 equals its DIGEST (step 7 of R127) (DEDUCED, log row 3). -/
def loadSection (rd : Reader) (e : SecEntry) : Option Section :=
  let b := rd e.off e.len
  if (Config.sha256 b).toNat = e.digest then some ⟨e.type, e.inst, b⟩ else none

/-- Every section, where all digests match. -/
def loadSections (rd : Reader) : Option (List Section) := (secTable rd).mapM (loadSection rd)

/-! ### Standing and bank choice -/

/-- The bank: false A, true B. -/
def Boot.getBank (b : Boot) (x : Bool) : Bank := if x then b.bankB else b.bankA

/-- The bank replaced. -/
def Boot.setBank (b : Boot) (x : Bool) (v : Bank) : Boot := if x then { b with bankB := v } else { b with bankA := v }

/-- A bank's standing. -/
def Aon.standing (a : Aon) (x : Bool) : Standing := if x then a.b else a.a

/-- A bank's standing replaced. -/
def Aon.setStanding (a : Aon) (x : Bool) (v : Standing) : Aon := if x then { a with b := v } else { a with a := v }

/-- The 64 bytes of a boot record entry (R114). -/
def BootRec.image (e : BootRec) : List Byte :=
  let fl := b2n e.a.withdrawn + 2 * b2n e.b.withdrawn + 4 * b2n e.a.writing + 8 * b2n e.b.writing + 16 * b2n e.last
  let b := leBytes 4 e.seq.toNat ++ leBytes 1 e.a.attempts.toNat ++ leBytes 1 e.b.attempts.toNat ++ leBytes 1 fl ++ [0] ++
    leBytes 4 e.verA.toNat ++ leBytes 4 e.verB.toNat ++ List.replicate 44 0
  b ++ leBytes 4 (crc32 b).toNat

/-- The entry that 64 bytes spell, where their CRC is valid (R114, R115). -/
def BootRec.read (bs : List Byte) : Option BootRec :=
  if bs.length = 64 && rdLe bs 60 4 = (crc32 (bs.take 60)).toNat then
    let fl := BitVec.ofNat 8 (rdLe bs 6 1)
    some ⟨BitVec.ofNat 32 (rdLe bs 0 4), ⟨BitVec.ofNat 2 (rdLe bs 4 1), bitOf fl 0, bitOf fl 2⟩, ⟨BitVec.ofNat 2 (rdLe bs 5 1), bitOf fl 1, bitOf fl 3⟩,
      bitOf fl 4, BitVec.ofNat 32 (rdLe bs 8 4), BitVec.ofNat 32 (rdLe bs 12 4)⟩
  else none

/-- The entry of the greatest SEQ among some. -/
def recTop (es : List BootRec) : Option BootRec :=
  es.foldl (fun best e => match best with | none => some e | some b => if b.seq.toNat < e.seq.toNat then some e else best) none

/-- The governing boot record entry: a valid CRC and the greatest SEQ across both sectors (R115). -/
def bootRecBest (b : Boot) : Option BootRec := recTop (b.rec0.filterMap BootRec.read ++ b.rec1.filterMap BootRec.read)

/-- A new boot record entry with the present standing, in the sector in use, or in the other once it is full; the first entry of all has
SEQ 1. An entry that cannot be written is logged, and retention alone holds the standing (R114, R115, R117) (DESIGN CHOICE, log row 116). -/
def bootRecAppend (m0 : Mach) : Mach :=
  let m := { m0 with free := m0.free + 1 }
  if Config.recordFails m0.free then logClass 0 0xFF [] m
  else
    let b := m.boot
    let seq : Word := match bootRecBest b with | some e => e.seq + 1 | none => 1
    let e := (BootRec.mk seq m.aon.a m.aon.b m.aon.last b.bankA.ver b.bankB.ver).image
    let cur := if b.recIn1 then b.rec1 else b.rec0
    { m with boot :=
        if cur.length < 1024 then (if b.recIn1 then { b with rec1 := e :: cur } else { b with rec0 := e :: cur })
        else if b.recIn1 then { b with rec0 := [e], recIn1 := false } else { b with rec1 := [e], recIn1 := true } }

/-- A bank's standing changes: AON retention first, the boot record second (R116). -/
def changeStanding (x : Bool) (f : Standing → Standing) (m : Mach) : Mach :=
  bootRecAppend { m with aon := { m.aon.setStanding x (f (m.aon.standing x)) with retValid := true } }

/-- At boot, retention governs where it is valid; otherwise the boot record, or no entry: counts 0, no flag (R115, R116). -/
def standingAtBoot (m : Mach) : Mach :=
  if m.aon.retValid then m
  else
    match bootRecBest m.boot with
    | some e => { m with aon := { m.aon with a := e.a, b := e.b, last := e.last } }
    | none => { m with aon := { m.aon with a := {}, b := {}, last := false } }

/-- A bank's header and section table are read and checked; a bank whose last load failed step 7 keeps the state DIGEST while it passes
steps 1 to 6 (R127, R137, R185). -/
def readBank (x : Bool) (m : Mach) : Mach :=
  let k := m.boot.getBank x
  let rd := bankReader k
  let c := bankCheck m rd
  { m with boot := m.boot.setBank x { k with state := if c = 0 && k.state = 6 then 6 else BitVec.ofNat 4 c, ver := BitVec.ofNat 32 (hdr rd 12 4) } }

/-- Steps 1 to 6 of R127 have passed: the state is valid, or DIGEST. -/
def Bank.valid (k : Bank) : Bool := k.state = 0 || k.state = 6

/-- A bank is eligible (R128). -/
def eligible (m : Mach) (x : Bool) : Bool :=
  let s := m.aon.standing x
  (m.boot.getBank x).valid && decide (s.attempts.toNat < 3) && !s.withdrawn && !s.writing

/-- The bank to boot (R128). -/
def chooseBank (m : Mach) : Option Bool :=
  match eligible m false, eligible m true with
  | true, true =>
    let va := m.boot.bankA.ver.toNat
    let vb := m.boot.bankB.ver.toNat
    some (if va = vb then m.aon.last else decide (vb > va))
  | true, false => some false
  | false, true => some true
  | false, false => none

/-! ### BOOT_CMD (R133 to R136) -/

/-- A command register's word from its bits [31:4] and its OP. -/
def opWord (hi : BitVec 28) (op : BitVec 4) : Word := hi ++ op

/-- BOOT_CMD_STATUS of the last operation, and CMD_DONE (R136, R187). -/
def bootCmdEnd (op result : Nat) (m : Mach) : Mach :=
  raise .boot 6 { m with boot := { m.boot with cmdOp := BitVec.ofNat 4 op, cmdResult := BitVec.ofNat 4 result } }

/-- The bank not booted is valid, with a count below 3, and not being written (R134). -/
def otherOk (m : Mach) : Bool :=
  let x := !m.boot.bank
  let s := m.aon.standing x
  (m.boot.getBank x).valid && decide (s.attempts.toNat < 3) && !s.writing

/-- ROLLBACK. -/
def bootRollback (m : Mach) : Mach :=
  if !(inWork m || m.g.dev = .safeHold) then bootCmdEnd 1 2 m
  else if (m.aon.standing (!m.boot.bank)).writing then bootCmdEnd 1 8 m
  else if !otherOk m then bootCmdEnd 1 3 m
  else bootCmdEnd 1 1 (changeStanding m.boot.bank (fun s => { s with withdrawn := true }) m)

/-- REINSTATE of a bank. -/
def bootReinstate (x : Bool) (m : Mach) : Mach :=
  if m.boot.attempt then bootCmdEnd 2 2 m
  else if (m.aon.standing x).writing then bootCmdEnd 2 8 m
  else bootCmdEnd 2 1 (changeStanding x (fun s => { s with attempts := 0, withdrawn := false }) m)

/-- RAISE_FLOOR: a raised floor takes effect at once on eligibility (R135). -/
def bootRaiseFloor (m : Mach) : Mach :=
  if m.g.dev ≠ .configured then bootCmdEnd 3 2 m
  else if !m.boot.floorOk then bootCmdEnd 3 4 m
  else if m.boot.ver.toNat ≤ versionFloor m then bootCmdEnd 3 5 m
  else if 16 ≤ m.boot.floorWords.length then bootCmdEnd 3 6 m
  else
    let m1 := { m with boot := { m.boot with floorWords := m.boot.floorWords ++ [fuseOf m.boot.ver] } }
    bootCmdEnd 3 1 (readBank (!m1.boot.bank) m1)

/-- REVOKE_SLOT: the bank not booted is checked again with the slot revoked (R126, R127). -/
def bootRevoke (k : Nat) (m : Mach) : Mach :=
  if m.g.dev ≠ .configured then bootCmdEnd 4 2 m
  else if (Config.keyHash k).isNone || k = m.boot.keySlot.toNat then bootCmdEnd 4 7 m
  else
    let old : Word := match m.boot.revFuse with | some f => f.v | none => 0
    let m1 := { m with boot := { m.boot with revFuse := some (fuseOf (setBit old k true)) } }
    bootCmdEnd 4 1 (readBank (!m1.boot.bank) m1)

/-- A BOOT_CMD write: a wrong key, a nonzero reserved field, an undefined OP or an ARG that its OP does not allow is
a command error (R133, R134). -/
def bootCmd (w : Word) (m : Mach) : Mach :=
  let arg := fld w 23 16
  if fld w 31 24 ≠ 0xB7 || fld w 15 4 ≠ 0 then cmdError m
  else
    match fld w 3 0 with
    | 1 => if arg = 0 then bootRollback m else cmdError m
    | 2 => if arg < 2 then bootReinstate (decide (arg = 1)) m else cmdError m
    | 3 => if arg = 0 then bootRaiseFloor m else cmdError m
    | 4 => if arg < 4 then bootRevoke arg m else cmdError m
    | _ => cmdError m

/-- BOOT_CMD, offset 0x01_0040 (R133). -/
def offBootCmd : Nat := 0x10040

/-- ROLLBACK: a BOOT_CMD write with OP 0x1. -/
def execRollback (p : Port) (hi : BitVec 28) (s : State) : Out := s.act (writeGate p offBootCmd (bootCmd (opWord hi 1)))
/-- REINSTATE: a BOOT_CMD write with OP 0x2. -/
def execReinstate (p : Port) (hi : BitVec 28) (s : State) : Out := s.act (writeGate p offBootCmd (bootCmd (opWord hi 2)))
/-- RAISE_FLOOR: a BOOT_CMD write with OP 0x3. -/
def execRaiseFloor (p : Port) (hi : BitVec 28) (s : State) : Out := s.act (writeGate p offBootCmd (bootCmd (opWord hi 3)))
/-- REVOKE_SLOT: a BOOT_CMD write with OP 0x4. -/
def execRevokeSlot (p : Port) (hi : BitVec 28) (s : State) : Out := s.act (writeGate p offBootCmd (bootCmd (opWord hi 4)))

end Sys2Proof.Machine
end

