-- ==== Sys2Proof/Machine/CellLaw.lean ====
section
/-!
DEFINITION. Law programs as functions: the CELL_PROGRAMS section (R456, R457), sort words (R412, R413), number formats
(R409 to R411) and every sort (R415 to R423), the ranges of R435 and the re-clamp of R434.
-/

namespace Sys2Proof.Machine

/-! ### The section -/

/-- A context descriptor (R457). -/
structure CtxDesc where
  cell : Nat
  slot : Nat
  owner : Nat
  beam : Nat
  safeValue : Bool
  flags : Nat
  ovrLimit : Nat
  period : Nat
  phase : Nat
  trigger : Nat
  sorts : Nat
  coefs : Nat
  progOff : Nat
  coefOff : Nat
  formats : List Nat
deriving DecidableEq, Repr

def CtxDesc.autoStart (d : CtxDesc) : Bool := d.flags.testBit 0
def CtxDesc.autoRestart (d : CtxDesc) : Bool := d.flags.testBit 1
def CtxDesc.subst (d : CtxDesc) : Bool := d.flags.testBit 2
def CtxDesc.arrival (d : CtxDesc) : Bool := d.flags.testBit 3
/-- OVR_LIMIT; 0 selects 4. -/
def CtxDesc.limit (d : CtxDesc) : Nat := if d.ovrLimit = 0 then 4 else d.ovrLimit
/-- Fraction bits of a slot. -/
def CtxDesc.fmt (d : CtxDesc) (s : Nat) : Nat := d.formats.getD s 0

/-- Number of contexts of a CELL_PROGRAMS section. -/
def ctxCount (sec : List Byte) : Nat := rdLe sec 0 2

/-- Descriptor k [R403]. -/
def ctxDesc (sec : List Byte) (k : Nat) : CtxDesc :=
  let o := 64 + 128 * k
  let r := fun i n => rdLe sec (o + i) n
  { cell := r 0 1, slot := r 1 1, owner := r 2 1, beam := r 3 1, safeValue := decide (r 4 1 = 1), flags := r 5 1, ovrLimit := r 6 1,
    period := r 8 4, phase := r 12 4, trigger := r 16 2, sorts := r 18 2, coefs := r 20 2, progOff := r 24 4, coefOff := r 28 4,
    formats := tab 64 (fun s => r (64 + s) 1) }

/-- The descriptor of context k, if the section defines it. -/
def ctxDesc? (sec : List Byte) (k : Nat) : Option CtxDesc := if k < ctxCount sec then some (ctxDesc sec k) else none

/-- Initial coefficient bank of a descriptor. -/
def ctxBank (sec : List Byte) (d : CtxDesc) : List Word := tab d.coefs (fun i => BitVec.ofNat 32 (rdLe sec (d.coefOff + 4 * i) 4))

/-- A sort word (R412). -/
structure Sort_ where
  op : Nat
  d : Nat
  a : Nat
  b : Nat
  c : Nat
  k : Nat
  zero : Bool
  f16 : Bool
  f17 : Bool
  qs : Nat
  sig : Nat
deriving DecidableEq, Repr

/-- A sort word read from its 64 bits. -/
def sortOf (n : Nat) : Sort_ :=
  let w : BitVec 64 := BitVec.ofNat 64 n
  { op := fld w 63 56, d := fld w 55 50, a := fld w 49 44, b := fld w 43 38, c := fld w 37 32, k := fld w 31 24,
    zero := decide (fld w 23 18 = 0), f16 := bitOf w 16, f17 := bitOf w 17, qs := fld w 15 11, sig := fld w 10 0 }

/-- The program of a descriptor. -/
def ctxProg (sec : List Byte) (d : CtxDesc) : List Sort_ := tab d.sorts (fun i => sortOf (rdLe sec (d.progOff + 8 * i) 8))

/-- Cycles of a sort (R413). -/
def sortCost (op : Nat) : Nat :=
  match op with
  | 1 => 2 | 2 => 2 | 3 => 6 | 4 => 6 | 5 => 10 | 6 => 4 | 7 => 3 | 8 => 4 | 9 => 6 | 10 => 5 | 11 => 1 | _ => 0

/-- A context's cost C in CLK_FAB cycles (R405). -/
def progCost (p : List Sort_) : Nat := 6 + p.foldl (fun a s => a + sortCost s.op) 0

/-- Coefficients a sort reads, from K on (R413); LUT reads its N. -/
def coefCount (bank : List Word) (s : Sort_) : Nat :=
  match s.op with
  | 1 => 3 | 2 => 1 | 3 => 5 | 4 => 3 | 5 => 8 | 6 => 3 | 7 => 3 | 8 => 1 | 9 => 3 + (bank.getD (s.k + 2) 0).toNat | 10 => 3 | _ => 0

/-! ### Formats -/

/-- Scale at which results are formed exactly: 100 fraction bits. -/
def lawBits : Nat := 100

/-- A slot value at the exact scale. -/
def ex (n : Nat) (v : Int) : Int := v * 2 ^ (lawBits - n)

/-- A result rounded to n fraction bits, halves away from zero, and saturated to 32 bits (R409). -/
def toFmt (n : Nat) (x : Int) : Int := satS 32 (divR x (2 ^ (lawBits - n)))

/-- The 48-bit accumulator at n + 16 fraction bits saturates (R409) (DEDUCED, log row 74). -/
def acc48 (n : Nat) (x : Int) : Int := clampI (-(2 ^ 47) * 2 ^ (lawBits - n - 16)) ((2 ^ 47 - 1) * 2 ^ (lawBits - n - 16)) x

/-- A sum in the accumulator, term by term (DEDUCED, log row 74). -/
def accSum (n : Nat) (ts : List Int) : Int := ts.foldl (fun a t => acc48 n (a + t)) 0

/-- A gain word times a slot value, exact (R410, R411) (DEDUCED, log row 74). -/
def gainMul (g : Word) (n : Nat) (v : Int) : Int := sfld g 26 0 * v * 2 ^ (lawBits - 42 - n + fld g 31 27)

/-- A gain word times an exact value with lawBits fraction bits. -/
def gainMulEx (g : Word) (x : Int) : Int := divR (sfld g 26 0 * x * 2 ^ fld g 31 27) (2 ^ 42)

/-- A coefficient with f fraction bits times a slot value. -/
def coefMul (f : Nat) (c : Word) (n : Nat) (v : Int) : Int := c.toInt * v * 2 ^ (lawBits - f - n)

/-- NOTCH coefficients b0, b1, b2, a1, a2 in Q3.29 (R418). -/
def notchCoefs (period : Nat) (f0 width depth : Word) : List Word :=
  let w0 : Int := divR (2 * piQ * f0.toNat * period) 1000000000000
  let c := cosQ w0
  let al := divR (sinQ w0 * width.toNat) (2 * f0.toNat)
  let de := depth.toInt * 2 ^ 30
  let den := q60 + al
  let q := fun (x : Int) => BitVec.ofInt 32 (satS 32 (divR (x * 2 ^ 29) den))
  [q (q60 + mulQ al de), q (-2 * c), q (q60 - mulQ al de), q (-2 * c), q (q60 - al)]

/-! ### One sample -/

/-- What a sample reads beside its own data: signals, bank, device in SAFE_HOLD. -/
structure SampleEnv where
  sig : Nat → SigVal
  bank : List Word
  safeHold : Bool
  desc : CtxDesc

/-- Data of a context while a sample runs, and what it has produced: outputs (signal, value, saturated), trace values
(channel, word), clamped inputs, LIMIT actions. -/
structure SampleRun where
  data : CtxData
  outs : List (Nat × Int × Bool) := []
  traces : List (Nat × Word) := []
  clamped : Nat := 0
  limited : Nat := 0
deriving DecidableEq, Repr

/-- A slot's value. -/
def CtxData.slot (d : CtxData) (s : Nat) : Int := look (fun _ => 0) d.slots s

/-- A slot written. -/
def CtxData.setSlot (d : CtxData) (s : Nat) (v : Int) : CtxData := { d with slots := put (fun _ => 0) d.slots s v }

/-- State of sort i. -/
def CtxData.sort (d : CtxData) (i : Nat) : SortSt := look (fun _ => {}) d.sorts i

/-- State of sort i written. -/
def CtxData.setSort (d : CtxData) (i : Nat) (s : SortSt) : CtxData := { d with sorts := put (fun _ => {}) d.sorts i s }

/-- The second-order recursion of R417 on stored inputs and outputs. -/
def biquad (nD nA : Nat) (co : List Word) (x : Int) (s : SortSt) : Int × SortSt :=
  let k := fun i => co.getD i 0
  let y := toFmt nD (accSum nD [coefMul 29 (k 0) nA x, coefMul 29 (k 1) nA s.x1, coefMul 29 (k 2) nA s.x2,
    -(coefMul 29 (k 3) nD s.y1), -(coefMul 29 (k 4) nD s.y2)])
  (y, { s with x1 := x, x2 := s.x1, y1 := y, y2 := s.y1, begun := true })

/-- PID (R419, R420). `gate` is operand C; e in nA, y in nB fraction bits (DEDUCED, log row 74). -/
def pid (nD nA nB : Nat) (co : List Word) (dom holdC : Bool) (e y gate : Int) (s : SortSt) : Int × SortSt :=
  let k := fun i => co.getD i 0
  let lim := fun i => ex nD (k i).toInt
  let unI := fun (v : Int) => v * 2 ^ (lawBits - nD - 16)
  let toI := fun (x : Int) => satS 48 (divR x (2 ^ (lawBits - nD - 16)))
  let w1 := if s.w = 1 && e < 0 then 0 else if s.w = -1 && 0 < e then 0 else s.w
  let go := w1 = 0 && (!holdC || gate ≠ 0)
  let i0 := unI s.i
  let i1 := if go then unI (toI (i0 + gainMul (k 1) nA e)) else i0
  let (i2, w2) := if go && lim 5 < i1 then (lim 5, 1) else if go && i1 < lim 4 then (lim 4, -1) else (i1, w1)
  let ep := if s.begun then s.x1 else e
  let yp := if s.begun then s.y1 else y
  let r := if dom then gainMul (k 2) nB (yp - y) else gainMul (k 2) nA (e - ep)
  let df0 := unI s.df
  let df := unI (toI (df0 + divR ((k 3).toInt * (r - df0)) (2 ^ 30)))
  let u := accSum nD [gainMul (k 0) nA e, i2, df]
  let (out, w3) := if lim 7 < u then (lim 7, if 0 < e then 1 else w2)
    else if u < lim 6 then (lim 6, if e < 0 then -1 else w2) else (u, w2)
  (toFmt nD out, { s with i := toI i2, w := w3, df := toI df, x1 := e, y1 := y, begun := true })

/-- LIMIT (R421): the new D and whether an action changed the value (DEDUCED, log row 74). -/
def limitSort (nD nA : Nat) (co : List Word) (a prev : Int) : Int × Bool :=
  let k := fun i => (co.getD i 0).toInt
  let v := ex nA a
  let c := clampI (ex nD (k 0)) (ex nD (k 1)) v
  let cd := toFmt nD c
  let out := if 0 < k 2 then clampI (prev - k 2) (prev + k 2) cd else cd
  (out, decide (c ≠ v) || decide (out ≠ cd))

/-- RAMP (R422). -/
def rampSort (nD nA nB : Nat) (step : Word) (a b : Int) (s : SortSt) : Int × SortSt :=
  if !s.begun then
    let o := toFmt nD (ex nB b)
    (o, { s with begun := true, done := false, y1 := o })
  else
    let av := ex nA a
    let ov := ex nD s.y1
    let st := ex nD step.toInt
    if s.done then (toFmt nD av, { s with y1 := toFmt nD av })
    else if (av - ov).natAbs ≤ st.toNat then (toFmt nD av, { s with y1 := toFmt nD av, done := true })
    else
      let o := satS 32 (s.y1 + if ov < av then step.toInt else -step.toInt)
      (o, { s with y1 := o })

/-- LUT (R423): `co` from K on, in A's and D's formats. -/
def lutSort (co : List Word) (a : Int) : Int :=
  let x0 := (co.getD 0 0).toInt
  let xs := (co.getD 1 0).toInt
  let n := (co.getD 2 0).toNat
  let y := fun i => (co.getD (3 + i) 0).toInt
  let u := a - x0
  if u ≤ 0 then y 0
  else if ((n : Int) - 1) * xs ≤ u then y (n - 1)
  else
    let i := (u / xs).toNat
    satS 32 (divR (y i * xs + (u - i * xs) * (y (i + 1) - y i)) xs)

/-- One sort executes (R413). -/
def runSort (env : SampleEnv) (r : SampleRun) (is : Nat × Sort_) : SampleRun :=
  let (i, s) := is
  let d := env.desc
  let nD := d.fmt s.d
  let nA := d.fmt s.a
  let nB := d.fmt s.b
  let nC := d.fmt s.c
  let va := r.data.slot s.a
  let vb := r.data.slot s.b
  let vc := r.data.slot s.c
  let co := env.bank.drop s.k
  let k := fun j => co.getD j 0
  let setD := fun (v : Int) (st : SortSt) => { r with data := (r.data.setSort i st).setSlot s.d v }
  let st := r.data.sort i
  match s.op with
  | 1 =>
    if s.f17 && env.safeHold then { r with data := r.data.setSlot s.d (k 2).toInt }
    else
      let v := (env.sig s.sig).v.toInt
      let c := clampI (k 0).toInt (k 1).toInt v
      { r with data := r.data.setSlot s.d (toFmt nD (ex s.qs c)), clamped := r.clamped + b2n (decide (c ≠ v)) }
  | 2 =>
    let x := divR (ex nA va) (2 ^ (lawBits - s.qs))
    let y := satS 32 x
    { r with outs := r.outs ++ [(s.sig, y, decide (x ≠ y))] }
  | 3 => let (y, st') := biquad nD nA co va st; setD y st'
  | 4 => let (y, st') := biquad nD nA (notchCoefs d.period (k 0) (k 1) (k 2)) va st; setD y st'
  | 5 => let (y, st') := pid nD nA nB co s.f16 s.f17 va vb vc st; setD y st'
  | 6 => { r with data := r.data.setSlot s.d (toFmt nD (accSum nD [ex nA va, gainMul (k 0) nB vb, gainMul (k 1) nC vc, ex nD (k 2).toInt])) }
  | 7 =>
    let (y, c) := limitSort nD nA co va (r.data.slot s.d)
    { r with data := r.data.setSlot s.d y, limited := r.limited + b2n c }
  | 8 => let (y, st') := rampSort nD nA nB (k 0) va vb st; setD y st'
  | 9 => { r with data := r.data.setSlot s.d (lutSort co va) }
  | 10 => { r with data := r.data.setSlot s.d (toFmt nD (accSum nD [gainMul (k 0) nA va, gainMul (k 1) nB vb, gainMul (k 2) nC vc])) }
  | 11 => { r with traces := r.traces ++ [(s.sig % 2, BitVec.ofInt 32 va)] }
  | _ => r

/-- A whole sample: every sort in order. -/
def runProg (env : SampleEnv) (p : List Sort_) (d : CtxData) : SampleRun :=
  (((List.range p.length).zip p).foldl (runSort env) { data := d })

/-! ### Ranges and the re-clamp -/

/-- The first word of a sort that breaks R435, for a bank of `n` words. -/
def sortBad (period n : Nat) (bank : List Word) (s : Sort_) : Option Nat :=
  let k := fun j => (bank.getD (s.k + j) 0).toInt
  let u := fun j => (bank.getD (s.k + j) 0).toNat
  let at_ := fun j => some (s.k + j)
  match s.op with
  | 1 => if k 1 < k 0 then at_ 0 else none
  | 4 =>
    if u 0 < 1000 || 450 * 1000000000 < u 0 * period then at_ 0
    else if u 1 * 100 < u 0 || 2 * u 0 < u 1 then at_ 1
    else if k 2 < 0 || 2 ^ 30 < k 2 then at_ 2 else none
  | 5 =>
    if k 3 < 0 || 2 ^ 30 < k 3 then at_ 3
    else if k 5 < k 4 || 0 < k 4 then at_ 4
    else if k 5 < 0 then at_ 5
    else if k 7 < k 6 then at_ 6 else none
  | 7 => if k 1 < k 0 then at_ 0 else if k 2 < 0 then at_ 2 else none
  | 8 => if k 0 ≤ 0 then at_ 0 else none
  | 9 => if k 1 ≤ 0 then at_ 1 else if u 2 < 2 || 64 < u 2 || n ≤ s.k + 2 + u 2 then at_ 2 else none
  | _ => none

/-- The lowest failing word of a bank (R435). -/
def bankBad (d : CtxDesc) (p : List Sort_) (bank : List Word) : Option Nat :=
  (p.filterMap (sortBad d.period d.coefs bank)).foldl (fun a i => match a with | none => some i | some j => some (min i j)) none

/-- Every PID re-clamps its integral under a new bank (R434). -/
def reclamp (p : List Sort_) (bank : List Word) (x : CtxData) : CtxData :=
  ((List.range p.length).zip p).foldl (fun x (i, s) =>
    if s.op = 5 then
      let st := x.sort i
      let lo := (bank.getD (s.k + 4) 0).toInt * 65536
      let hi := (bank.getD (s.k + 5) 0).toInt * 65536
      x.setSort i (if hi < st.i then { st with i := hi, w := 1 } else if st.i < lo then { st with i := lo, w := -1 } else st)
    else x) x

end Sys2Proof.Machine
end

