-- ==== Sys2Proof/Machine/RecHooks.lean ====
section
/-!
DEFINITION. What single records add to the common rules: cross-field ranges, consumers that run, and what a chapter
ties to a record's new values.
-/

namespace Sys2Proof.Machine

/-- The CELL_PROGRAMS section. -/
def cellSec (m : Mach) : List Byte := secBytes m 5 0xFFFF

/-- FRAME_RATE limit of a lane rate (R489). -/
def frameLimit (rate : Nat) : Nat := if rate = 2 then 20000 else if rate = 1 then 16000 else 1000

/-- Index of the first element of a list that meets a condition on neighbours. -/
def firstFall : Nat → List Nat → Option Nat
  | i, a :: b :: t => if b ≤ a then some (i + 1) else firstFall (i + 1) (b :: t)
  | _, _ => none

/-- Modules of interlocked groups in LAMP_GROUPS words. -/
def lockedOf (ws : List Word) : Nat :=
  ((List.range 8).map (fun g => if bitOf (ws.getD (16 * g + 1) 0) 16
    then ((List.range 32).filter (fun a => decide (1 ≤ a) && bitOf (ws.getD (16 * g) 0) a)).length else 0)).foldl (· + ·) 0

/-- LAMP_GROUPS: each address in at most one group and named in LAMPS, at most 8 interlocked modules (7 with AL_ENABLE), no
AL-series slot in an interlocked group (R596, R603, R605). `bus` holds the words of LAMP_BUS. -/
def groupsBad (bus ws : List Word) : Option Nat :=
  let max' := if bitOf (bus.getD 1 0) 8 then 7 else 8
  (List.range 8).foldl (fun r g =>
    match r with
    | some i => some i
    | none =>
      let w := ws.getD (16 * g) 0
      let seen : Word := (List.range g).foldl (fun a h => a ||| ws.getD (16 * h) 0) 0
      let c := ws.getD (16 * g + 1) 0
      if w &&& seen ≠ 0 || w &&& ~~~ (bus.getD 0 0) ≠ 0 then some (16 * g)
      else if bitOf c 16 && (fld c 15 0 ≠ 0 || max' < lockedOf ws) then some (16 * g + 1)
      else none) none

/-- HLT_NOTCH entries name a NOTCH at K and a TRACE sort on CH (R754). -/
def notchBad (sec : List Byte) (ws : List Word) : Option Nat :=
  ((List.range 64).find? (fun e =>
    let w := ws.getD (2 * e) 0
    bitOf w 17 && match ctxDesc? sec (fld w 7 0) with
      | none => true
      | some d =>
        let p := ctxProg sec d
        !(p.any (fun s => s.op = 4 && s.k = fld w 15 8) && p.any (fun s => s.op = 11 && s.sig % 2 = fld w 16 16)))).map (2 * ·)

/-- The rules across fields of a record (R148 and the records' own tables). -/
def crossBad (m : Mach) (id : Nat) (ws : List Word) : Option Nat :=
  let u := fun i hi lo => fld (ws.getD i 0) hi lo
  let w := fun i => (ws.getD i 0).toNat
  let bad := fun (c : Bool) (i : Nat) => if c then some i else (none : Option Nat)
  let beamKind := decide (0x1000 ≤ id) && decide (id < 0x10C0)
  let mplKind := decide (0x1400 ≤ id) && decide (id < 0x14C0)
  let axKind := decide (0x2800 ≤ id) && decide (id < 0x2840)
  if id = recJob then
    let p := u 0 3 0
    let d := u 0 7 4
    let r := u 0 11 8
    let h := u 0 15 12
    bad (p = d || p = r || d = r || (h ≠ 15 && !auxFitted m h)) 0
  else if id = recImp then bad (decide (((region m 2).2 - 0x2000000) / 64 ≤ 2 * w 5)) 5
  else if beamKind && id % 16 = 1 then bad (decide (u 0 15 0 < u 0 31 16)) 0
  else if beamKind && id % 16 = 2 then bad (decide (w 0 + w 8 < w 1 + w 3 + 2000)) 1
  else if mplKind && id % 16 = 0 then bad (decide (w 3 ≤ w 2)) 3
  else if mplKind && id % 16 = 1 then firstFall 0 (ws.map (·.toNat))
  else if mplKind && id % 16 = 2 then
    let sec := secBytes m 4 ((id - 0x1400) / 16)
    if sec ≠ [] && decide (frameLimit (rdLe sec 8 1) < w 0) then some 0
    else bad (decide (1000000000 < (w 1 + 2000) * w 0)) 1
  else if id = recHmapHeat then bad (decide (w 2 < 4 * w 3)) 3
  else if id = recHmapLa then bad (decide (256 < w 1 * (w 0 + 1))) 1
  else if id = recSigGpio then bad (decide (ws.getD 1 0 &&& ~~~ (ws.getD 0 0) ≠ 0)) 1
  else if axKind && id % 8 = 0 then
    let a := (id - 0x2800) / 8
    if u 0 3 2 = 2 && decide (4 ≤ a) then some 0
    else
      let bits := u 3 5 0 + 1 + u 3 6 6
      bad (u 0 3 2 = 2 && decide (w 4 * u 3 31 16 < bits * 1000000 + w 5 * u 3 31 16)) 4
  else if axKind && id % 8 = 1 then
    let us := (recWord m (id - 1) 1).toNat
    if 2000 * us < w 0 * 65536 then some 0 else bad (decide (w 3 < w 1) || decide (w 3 < w 2)) 3
  else if axKind && id % 8 = 3 then
    if (ws.getD 4 0).toInt ≤ (ws.getD 3 0).toInt then some 4 else bad (decide (w 5 ≤ w 6)) 6
  else if axKind && id % 8 = 4 then bad (u 0 2 0 = 5 && recFld m (id - 4) 0 3 2 ≠ 2) 0
  else if id = recStgEncout then if w 2 < w 1 then some 1 else bad (decide (w 5 < w 4)) 4
  else if id = recLampBus then bad (u 1 4 0 ≠ 0 && bitOf (ws.getD 0 0) (u 1 4 0)) 1
  else if id = recLampGroups then groupsBad (recWords m recLampBus) ws
  else if id = recTimeLink then bad (decide (u 28 31 16 < u 28 15 0)) 28
  else if 0x4010 ≤ id && id < 0x401C then bad (decide (u 5 15 0 ≤ u 5 31 16)) 5
  else if id = recHltNotch then notchBad (cellSec m) ws
  else if isCoef id then
    match ctxDesc? (cellSec m) (id - 0x2000) with
    | some d => bankBad d (ctxProg (cellSec m) d) ws
    | none => none
  else none

/-- The first word out of range, the rules across fields of a record among them (R148). -/
def recFirstBad (m : Mach) (id : Nat) (info : RecInfo) (ws : List Word) : Option Nat :=
  match info.firstBad ws, crossBad m id ws with
  | some i, some j => some (min i j)
  | some i, none => some i
  | none, j => j

/-- A lane of scan head h is UP. -/
def scanUp (m : Mach) (h : Nat) : Bool := m.lanes.toList.zipIdx.any (fun (l, i) => i / 2 = h && i < 24 && l.st = .up)

/-- The record's consumer runs, so a live commit waits for its take point (R145, R150). -/
def recConsumerRuns (m : Mach) (id : Nat) : Bool :=
  if id = recImpWeight then m.imp.running
  else if id = recMemCfg then m.mem.trained
  else if id = recClkSs then bitOf m.clk.spread 0 || bitOf m.clk.lock 5
  else if 0x1000 ≤ id && id < 0x10C0 then inBuild m && (m.beams.toList.getD ((id - 0x1000) / 16) {}).st ≠ .parked
  else if 0x1400 ≤ id && id < 0x14C0 then scanUp m ((id - 0x1400) / 16)
  else if id = recHmapLa || id = recHmapRec then inBuild m
  else if isCoef id then (m.cells.ctx.toList.getD (id - 0x2000) {}).st = .running
  else if 0x2800 ≤ id && id < 0x2840 then (m.stg.toList.getD ((id - 0x2800) / 8) {}).st ≠ .off
  else if id = recStgEncout then m.stg.toList.any (fun a => a.st ≠ .off)
  else if id = recLampScenes || id = recLampColour then inWork m || m.g.dev = .safeHold
  else if id = recTimeServo then m.time.servo ≠ .free
  else if id = recTimeLink then m.lanes.toList.any (fun l => l.st = .up)
  else if id = recHltTherm || id = recHltSpeed then m.g.configuredOnce
  else false

/-! ### Build-speed scale (R743, R744) -/

/-- κ_th as a code: round(65,535 × (1 − 0.05 m)). -/
def kappaTh (m : Mach) : Nat := (2 * 65535 * (20 - m.hlt.kappaM) + 20) / 40

/-- κ in force, as a code. -/
def kappaNow (m : Mach) : Nat := min (kappaTh m) (recFld m recHltSpeed 0 15 0)

/-! ### The imposition record's levels (R270, R275, R276) -/

/-- CAP (R270). -/
def impCap (m : Mach) : Nat := ((region m 2).2 - 0x2000000) / 64

/-- Free entries. -/
def impFree (m : Mach) : Nat := impCap m - m.imp.recCount

/-- RESERVE (R276). -/
def impReserve (m : Mach) : Nat := (recWord m recImp 5).toNat

/-- IMP_STATUS.FULL (R278). -/
def impFull (m : Mach) : Bool := decide (0 < impCap m) && decide (impFree m < impReserve m)

/-- The events of falling below twice RESERVE and below RESERVE, where `free` entries were free of a reserve `r` before (R275). -/
def impLevels (free r : Nat) (m : Mach) : Mach :=
  let f := impFree m
  let n := impReserve m
  whenM (decide (r ≤ free) && decide (f < n)) (raise .imp 4) (whenM (decide (2 * r ≤ free) && decide (f < 2 * n)) (raise .imp 3) m)

/-- What a chapter ties to a record's new values: the switched registration of R311, the re-clamp of R434, the hot-row and
spread settings in force. -/
def recApplied (id : Nat) (m : Mach) : Mach :=
  if id = recMemCfg then { m with mem := { m.mem with hotCfg := recWord m recMemCfg 0 } }
  else if id = recHltSpeed then sigPub 755 (kappaNow m) m
  else if id = recClkSs then { m with clk := { m.clk with spread := recWord m recClkSs 0 } }
  else if 0x1000 ≤ id && id < 0x10C0 && id % 16 = 3 then onBeam (Fin.ofNat 12 ((id - 0x1000) / 16)) (fun x => { x with switched := true }) m
  else if isCoef id then
    let k : Fin 256 := Fin.ofNat 256 (id - 0x2000)
    match ctxDesc? (cellSec m) k.val with
    | some d => onCtx k (fun x => { x with data := reclamp (ctxProg (cellSec m) d) (recWords m id) x.data }) m
    | none => m
  else m

end Sys2Proof.Machine
end

