-- ==== Sys2Proof/Machine/RecordOps.lean ====
section
/-!
DEFINITION. Configuration records and quoins: select, write, commit, take, quoin (R144 to R164), and the layer
boundary's part in them (R146, R152).
-/

namespace Sys2Proof.Machine

/-- A record is under quoin (R160 to R163). -/
def quoined (m : Mach) (id : Nat) : Bool :=
  m.boot.quoins.any (fun q => decide (q.toNat = id)) ||
  (m.boot.quoinAll && match recInfo id with | some r => decide (r.cls ≠ .static) | none => false)

/-- The pending copy of a record. -/
def pendingOf (m : Mach) (id : Nat) : Option PendRec := m.boot.recPend.find? (fun r => decide (r.id.toNat = id))

/-- The result of a port's last commit, where it was a commit of this record still pending. -/
def settleResult (id : BitVec 16) (code : BitVec 4) (s : PortSt) : PortSt :=
  if s.recId = id ∧ s.recResult = 1 then { s with recResult := code } else s

/-- A commit takes effect: the active values, with zero in every reserved bit, the log entry 0x1020, and what the
record's chapter ties to it (R148, R149, R151). -/
def recApply (r : PendRec) (m : Mach) : Mach :=
  match recInfo r.id.toNat with
  | none => m
  | some info =>
    let id := r.id.toNat
    let b := { m.boot with recs := put recDefault m.boot.recs id (recStrip id info r.words),
                           recPend := m.boot.recPend.filter (fun x => x.id ≠ r.id),
                           recChanged := addNew m.boot.recChanged id }
    let m1 := onPort .host (settleResult r.id 2) (onPort .mgmt (settleResult r.id 2) { m with boot := b })
    let m2 := recApplied id (log 0x1020 sevInfo 0xFF (leBytes 2 id ++ leBytes 1 info.cls.code ++ leBytes 1 (b2n (r.port = .mgmt))) m1)
    whenM (id = recImp) (impLevels (impFree m) (impReserve m)) m2

/-- Two device times lie in one cycle of CLK_SYS, 5 ns (R682) (DEDUCED, log row 117). -/
def sameSys (a b : Nat) : Bool := a / 5 = b / 5

/-- The values of a superseded copy take effect, and the commit that replaced it still waits (R152) (DEDUCED, log row 117). -/
def recApplyPrev (r : PendRec) (ws : List Word) (p : Port) (m : Mach) : Mach :=
  let m1 := recApply { r with words := ws, port := p, prev := none } (onPort p (fun s => { s with recResult := if s.recId = r.id then 2 else s.recResult }) m)
  onPort r.port (fun s => if s.recId = r.id then { s with recResult := 1 } else s)
    { m1 with boot := { m1.boot with recPend := m1.boot.recPend ++ [{ r with prev := none }] } }

/-- A consumer takes a record's pending copy, if there is one. A live commit accepted in this very cycle of CLK_SYS waits for the next take
point, and the copy that it replaced is taken (R149, R152) (DEDUCED, log row 117). -/
def takeRecord (id : Nat) (m : Mach) : Mach :=
  match pendingOf m id with
  | none => m
  | some r =>
    if sameSys r.at_ (now m) && (recInfo id).any (fun i => decide (i.cls = .live)) then
      match r.prev with
      | some (ws, p) => recApplyPrev r ws p m
      | none => m
    else recApply r m

/-- Every pending layer commit takes effect (R146, R152). -/
def takeLayerRecords (m : Mach) : Mach :=
  eachM (m.boot.recPend.filter (fun r => (recInfo r.id.toNat).any (fun i => decide (i.cls = .layer)))) recApply m

/-- No layer is in progress from here: pending layer commits take effect (R146). -/
def layerOver (m : Mach) : Mach := takeLayerRecords { m with boot := { m.boot with layerOn := false } }

/-- Whether an accepted commit waits for a take point (R145, R150). -/
def commitWaits (m : Mach) (id : Nat) (info : RecInfo) : Bool :=
  match info.cls with
  | .static => false
  | .layer => m.boot.layerOn
  | .live => !info.atOnce && recConsumerRuns m id

/-- A refused commit: RESULT, WORD and REC_REFUSED (R148, R156, R187). -/
def recRefuse (p : Port) (id : BitVec 16) (code : BitVec 4) (word : Nat) (m : Mach) : Mach :=
  raise .boot 4 (onPort p (fun s => { s with recId := id, recResult := code, recWord := BitVec.ofNat 8 word }) m)

/-- BOOT_REC_COMMIT, offset 0x01_0104. -/
def offRecCommit : Nat := 0x10104

/-- An accepted commit (R149, R150, R152). -/
def recAccept (p : Port) (id : BitVec 16) (info : RecInfo) (words : List Word) (m : Mach) : Mach :=
  let old := (pendingOf m id.toNat).isSome
  let m1 := onPort .host (settleResult id 8) (onPort .mgmt (settleResult id 8) m)
  let m2 := whenM old (raise .boot 7) m1
  let r : PendRec := ⟨id, words, p, now m2, (pendingOf m id.toNat).map (fun o => (o.words, o.port))⟩
  let m3 := { m2 with boot := { m2.boot with recPend := m2.boot.recPend.filter (fun x => x.id ≠ id) ++ [r] } }
  let m4 := onPort p (fun s => { s with recId := id, recResult := 1, recWord := 0 }) m3
  if commitWaits m4 id.toNat info then m4 else recApply r m4

/-- A BOOT_REC_COMMIT write (R148, R155, R161). -/
def recCommit (p : Port) (w : Word) (m : Mach) : Mach :=
  let s := m.g.port p
  let id := BitVec.ofNat 16 (fld w 15 0)
  if fld w 31 24 ≠ 0x5C || fld w 23 16 ≠ 0 || id.toNat ≠ fld s.recSel 15 0 then cmdError m
  else
    match recInfo id.toNat with
    | none => recRefuse p id 6 0 m
    | some info =>
      if info.cls = .static then recRefuse p id 4 0 (lockErr p offRecCommit m)
      else if m.g.dev = .boot then recRefuse p id 7 0 m
      else if quoined m id.toNat then recRefuse p id 5 0 (lockErr p offRecCommit m)
      else
        match recFirstBad m id.toNat info s.recBuf with
        | some i => recRefuse p id 3 i (accErr p offRecCommit m)
        | none => recAccept p id info s.recBuf m

/-- A BOOT_REC_SEL write copies the record's active values into the port's staging buffer (R147, R154). -/
def recSelect (p : Port) (w : Word) (m : Mach) : Mach :=
  onPort p (fun s => { s with recSel := BitVec.ofNat 17 w.toNat, recChosen := true, recBuf := recWords m (fld w 15 0) }) m

/-- A BOOT_REC_DATA write changes one word of the port's staging buffer; with VIEW 1, or at or beyond WORDS, it is
ignored (R158). -/
def recDataWrite (p : Port) (i : Nat) (v : Word) (m : Mach) : Mach :=
  onPort p (fun s => if bitOf s.recSel 16 then s else { s with recBuf := s.recBuf.set i v }) m

/-- A quoin on one record; its pending commit still takes effect at its take point (R152, R162, R163). -/
def quoinOne (p : Port) (id : Nat) (m : Mach) : Mach :=
  if (recInfo id).isNone then accErr p 0x10110 m
  else if m.boot.quoins.any (fun q => decide (q.toNat = id)) then m
  else if 256 ≤ m.boot.quoins.length then accErr p 0x10110 m
  else { m with boot := { m.boot with quoins := m.boot.quoins ++ [BitVec.ofNat 16 id] } }

/-- A BOOT_QUOIN_ADD write (R162). -/
def quoinAdd (p : Port) (w : Word) (m : Mach) : Mach :=
  if fld w 31 24 ≠ 0x9A || fld w 23 16 ≠ 0 then cmdError m
  else if fld w 15 0 = 0xFFFF then { m with boot := { m.boot with quoinAll := true } }
  else quoinOne p (fld w 15 0) m

/-- The consumer's take point of one record: a layer record only while no layer is in progress or at its boundary,
which the steps that reach a boundary carry out themselves (R149); a coefficient bank no earlier than 4 µs after its commit
(R433). -/
def recordTake (id : Nat) (m : Mach) : Mach :=
  match recInfo id with
  | none => m
  | some info =>
    if info.cls = .layer && m.boot.layerOn then m
    else if isCoef id && (pendingOf m id).any (fun r => decide (now m < r.at_ + 4000)) then m
    else takeRecord id m

/-! ### The switch of a section reload (R168) -/

/-- The beam that a section reload is for. -/
def reloadBeam (m : Mach) : Fin 12 := Fin.ofNat 12 m.boot.rlHead.toNat

/-- A section's bytes stand in the configuration region, at its OFFSET in the ingot (R123) (DESIGN CHOICE, log row 118). -/
def holdSection (off : Nat) (bs : List Byte) (m : Mach) : Mach := memWrite (0x1BC000000 + off) bs m

/-- The beam changes to the reloaded sections (R168, R170, R172) (DEDUCED, log row 68). -/
def reloadSwitch (m : Mach) : Mach :=
  if m.boot.rlState ≠ .armed then m
  else
    let keep := m.boot.sections.filter (fun s => !(m.boot.staged.any (fun x => decide (x.type = s.type) && decide (x.inst = s.inst))))
    let grid := m.boot.staged.any (fun x => x.type = 3)
    raise .boot 2 (whenM grid (onBeam (reloadBeam m) (fun b => { b with switched := true }))
      { m with boot := { m.boot with sections := keep ++ m.boot.staged, staged := [], rlState := .idle, rlResult := 1,
                                     reloaded := setBit m.boot.reloaded (reloadBeam m).val true } })

/-- With MODE 1 the switch lies between the end of the beam's slug and the start of its next (R168). -/
def slugSwitch (b : Fin 12) (m : Mach) : Mach := if m.boot.rlMode && reloadBeam m = b then reloadSwitch m else m

/-- REC_SELECT: a BOOT_REC_SEL write. -/
def execRecSelect (p : Port) (v : Word) (s : State) : Out := s.act (writeGate p 0x10100 (recSelect p v))
/-- REC_DATA_WRITE: a write of word `i` of the record window. -/
def execRecDataWrite (p : Port) (i : BitVec 8) (v : Word) (s : State) : Out :=
  s.act (writeGate p (0x10400 + 4 * i.toNat) (recDataWrite p i.toNat v))
/-- QUOIN_ADD: a BOOT_QUOIN_ADD write. -/
def execQuoinAdd (p : Port) (v : Word) (s : State) : Out := s.act (writeGate p 0x10110 (quoinAdd p v))

end Sys2Proof.Machine
end

