-- ==== Sys2Proof/Machine/JobBase.lean ====
section
/-!
DEFINITION. Job state, causes and queue slots: the operations every job rule shares (R21, R25, R206, R207, R227, R229).
-/

namespace Sys2Proof.Machine

/-- JOB_STATUS (R227) (DEDUCED, log row 54). -/
def jobStatus (m : Mach) : Word :=
  BitVec.ofNat 32 (m.job.mrStep * 2 ^ 24 + m.job.causes.toNat * 2 ^ 8 + flag 4 m.job.toExposing + (if inBuild m then m.job.st.code else 15))

/-- The job's state and causes change: JOB_STATUS, the STATE event, and the log entry 0x1010 of a state change
(R25, R229, R816) (DEDUCED, log row 54). -/
def jobMove (st : JobState) (causes : BitVec 9) (m : Mach) : Mach :=
  if m.job.st = st ∧ m.job.causes = causes then m
  else
    let old := m.job.st
    let m1 := sigPub 756 st.code (raise .job 0 { m with job := { m.job with st := st, causes := causes } })
    if old = st then m1
    else log 0x1010 sevInfo 0xFF (leBytes 1 old.code ++ leBytes 1 st.code ++ leBytes 2 causes.toNat) m1

/-- A cause is added to a paused or stopped job (R27). -/
def jobAddCause (c : BitVec 9) (m : Mach) : Mach := jobMove m.job.st (m.job.causes ||| c) m

/-- A slot's state. -/
def onSlot (i : Fin 64) (f : Slot → Slot) (m : Mach) : Mach :=
  { m with job := { m.job with slots := m.job.slots.set i (f m.job.slots[i]) } }

/-- QUEUE_LOW when the QUEUED count falls below LOW_WATER (R212, R229). -/
def queueFell (before : Nat) (m : Mach) : Mach :=
  let lw := recFld m recJob 5 6 0
  whenM (decide (lw ≤ before) && decide (m.job.queue.length < lw)) (raise .job 5) m

/-- A QUEUED slot leaves the queue. -/
def unqueue (i : Fin 64) (m : Mach) : Mach :=
  queueFell m.job.queue.length { m with job := { m.job with queue := m.job.queue.filter (fun x => x ≠ i) } }

/-- LAYER of the ACTIVE forme, or zero (R228). -/
def jobLayer (m : Mach) : Nat := match m.job.active with | some i => memLe m (m.job.slots[i].addr + 8) 4 | none => 0

/-- A QUEUED or ACTIVE slot becomes FREE (R207); signal 757 follows JOB_LAYER. -/
def freeSlot (i : Fin 64) (m : Mach) : Mach :=
  let was := m.job.slots[i].st
  let m1 := onSlot i (fun _ => {}) m
  let m2 := if was = .queued then unqueue i m1 else m1
  let m3 := if m2.job.active = some i then sigPub 757 0 { m2 with job := { m2.job with active := none } } else m2
  whenM (was = .queued || was = .active) (raise .job 3) m3

/-- The ranges guarded against host writes (R204, R206). -/
def guarded (m : Mach) : List (Nat × Nat) :=
  (m.job.slots.toList.filter (fun s => decide (s.st ≠ .free))).map (fun s => (s.addr, s.len))

/-- Whether `n` bytes from `a` meet a range. -/
def meets (a n : Nat) (r : Nat × Nat) : Bool := decide (a < r.1 + r.2) && decide (r.1 < a + n)

/-- The slot in CHECKING, if a commit check runs (R202). -/
def checkingSlot (m : Mach) : Option (Fin 64) := (List.finRange 64).find? (fun i => decide (m.job.slots[i].st = .checking))

/-- A commit ends with a result; results 0x10 to 0x27 raise COMMIT_FAIL (R203, R210). -/
def commitResult (code : Nat) (m : Mach) : Mach :=
  whenM (decide (0x10 ≤ code)) (raise .job 2) { m with job := { m.job with commitResult := BitVec.ofNat 8 code } }

/-- A commit in CHECKING ends without passing: its slot returns to FREE (R203, R207). -/
def commitDrop (code : Nat) (m : Mach) : Mach :=
  match checkingSlot m with
  | some i => commitResult code (onSlot i (fun _ => {}) m)
  | none => m

/-- The MAKE-READY parameters in a forme header at a layer address (R189). -/
def formeParams (m : Mach) (a : Nat) : MrParams :=
  ⟨memLe m (a + 16) 4, memLe m (a + 32) 2, memLe m (a + 34) 2, memLe m (a + 36) 4, memLe m (a + 40) 4, memLe m (a + 44) 4, memLe m (a + 6) 2⟩

end Sys2Proof.Machine
end

