-- ==== Sys2Proof/Machine/AxisBase.lean ====
section
/-!
DEFINITION. Stage axes: scale, stops, faults, compare lists, pulse dividers, measured speed and homing (10 of spec/): the
operations that the stage commands share.
-/

namespace Sys2Proof.Machine

/-! ### Scale (R518 to R520) -/

/-- USTEP_NM, Q16.16 (R566). -/
def ustep (m : Mach) (a : Fin 8) : Nat := (recWord m (recStgAxis a) 1).toNat
/-- ENC_NM, Q16.16. -/
def encNm (m : Mach) (a : Fin 8) : Nat := (recWord m (recStgAxis a) 2).toNat
/-- DIR_INV. -/
def dirInv (m : Mach) (a : Fin 8) : Bool := recFld m (recStgAxis a) 0 1 1 = 1
/-- ENC_TYPE (R538). -/
def encType (m : Mach) (a : Fin 8) : Nat := recFld m (recStgAxis a) 0 3 2
/-- A sign: 1, or -1 where it is inverted. -/
def sgnOf (inv : Bool) : Int := if inv then -1 else 1

/-- A count of microsteps as nm of travel (R518). -/
def stepNm (m : Mach) (a : Fin 8) (n : Int) : Int := sgnOf (dirInv m a) * divR (n * ustep m a) 65536
/-- nm of travel as the nearest whole microstep (R520). -/
def nmStep (m : Mach) (a : Fin 8) (x : Int) : Int := sgnOf (dirInv m a) * divR (x * 65536) (ustep m a)
/-- A count of the encoder as nm of travel (R519). -/
def encToNm (m : Mach) (a : Fin 8) (n : Int) : Int := sgnOf (recFld m (recStgAxis a) 0 4 4 = 1) * divR (n * encNm m a) 65536
/-- nm of travel as the nearest encoder count. -/
def nmEnc (m : Mach) (a : Fin 8) (x : Int) : Int := sgnOf (recFld m (recStgAxis a) 0 4 4 = 1) * divR (x * 65536) (encNm m a)
/-- Commanded position, nm. -/
def posCmd (m : Mach) (a : Fin 8) : Int := stepNm m a m.stg[a].cmd
/-- Measured position, nm (R519). -/
def posMeas (m : Mach) (a : Fin 8) : Int := if encType m a = 0 then posCmd m a else encToNm m a m.stg[a].meas
/-- Commanded speed, µm/s, signed by the direction. -/
def cmdSpeed (m : Mach) (a : Fin 8) : Int :=
  let ax := m.stg[a]
  (if ax.dirPos then 1 else -1) * divR ax.v 1000000000
/-- Measured speed, µm/s (R519, R543). -/
def measSpeed (m : Mach) (a : Fin 8) : Int := if encType m a = 0 then cmdSpeed m a else divR m.stg[a].speed 1000

/-- The axis moves (R561). -/
def axMoving (s : AxState) : Bool := s = .moving || s = .stopping || s = .homing

/-! ### Braking distance (R523, R526) -/

/-- Braking distance from speed `v` (10^-6 nm/s) at `d` mm/s² and jerk `j` mm/s³, in 2^-16 nm. -/
def brakeQ (v d j : Nat) : Nat :=
  if d = 0 then 0
  else if j = 0 then v * v * 65536 / (2 * d * 10 ^ 18)
  else if v * j ≥ d * d * 10 ^ 12 then v * v * 65536 / (2 * d * 10 ^ 18) + v * d * 65536 / (2 * j * 10 ^ 6)
  else v * isqrt (v * 10 ^ 12 / j) * 65536 / 10 ^ 18

/-! ### Compare list (R555 to R558) -/

/-- The compared position (R555). -/
def cmpPos (m : Mach) (a : Fin 8) : Int := if bitOf (regGet m (0xB0088 + 0x800 * a.val)) 0 then posMeas m a else posCmd m a

/-- The list's output changes by ACTION (R556). -/
def Cmp.action (c : Cmp) (act : Nat) : Cmp :=
  match act with
  | 0 => { c with level := !(c.pulse.getD c.level), pulse := some (c.pulse.getD c.level) }
  | 1 => { c with level := true, pulse := c.pulse.map (fun _ => true) }
  | 2 => { c with level := false, pulse := c.pulse.map (fun _ => false) }
  | _ => { c with level := !c.level, pulse := c.pulse.map (fun x => !x) }

/-- An entry is behind a position (R557). -/
def CmpEnt.behind (e : CmpEnt) (p : Int) : Bool := if e.up then decide (e.pos ≤ p) else decide (p ≤ e.pos)

/-- Entries that are behind when armed are discarded in turn (R557). -/
def Cmp.arm (p : Int) : Nat → Cmp → Cmp
  | 0, c => c
  | n + 1, c =>
    match c.list with
    | [] => c
    | e :: t =>
      if e.behind p then
        Cmp.arm p n { c with list := t, idx := c.idx + 1, missed := true,
                             missedIdx := if c.missed then c.missedIdx else BitVec.ofNat 8 c.idx }
      else c

/-- The measured position is not valid: FAULT with cause QUAD or SSI (R558). -/
def measInvalid (ax : Axis) : Bool := ax.st = .fault && (ax.faultCause = 2 || ax.faultCause = 3)

/-- The list follows a measured position that is not valid: it fires nothing and its entries stay armed (R558). -/
def cmpFrozen (m : Mach) (a : Fin 8) : Bool := measInvalid m.stg[a] && bitOf (regGet m (0xB0088 + 0x800 * a.val)) 0

/-- The list after arming, with CMP_MISSED where an entry was discarded (R557, R579). -/
def cmpArm (a : Fin 8) (m : Mach) : Mach :=
  let c := m.stg[a].cmp
  let c' := if cmpFrozen m a then c else c.arm (cmpPos m a) c.list.length
  whenM (decide (c'.idx ≠ c.idx)) (raise (.stg a) 8) (onAxis a (fun x => { x with cmp := c' }) m)

/-- The compared position has changed from `old`: the armed entry fires where it was crossed (R556, R558). -/
def cmpCross (a : Fin 8) (old : Int) (m : Mach) : Mach :=
  let new := cmpPos m a
  let ax := m.stg[a]
  if cmpFrozen m a then m
  else
    match ax.cmp.list with
    | [] => m
    | e :: t =>
      if if e.up then decide (old < e.pos) && decide (e.pos ≤ new) else decide (e.pos < old) && decide (new ≤ e.pos) then
        let c := ({ ax.cmp with list := t, idx := ax.cmp.idx + 1, fired := ax.cmp.fired + 1, time := m.time.dt } : Cmp).action e.act
        cmpArm a (emit (.pin a.val c.level) (onAxis a (fun x => { x with cmp := c }) m))
      else m

/-! ### Pulse dividers (R559, R560) -/

/-- Source counts enter channel `c`; counts beyond 65,535 waiting are dropped. -/
def encOutCount (c : Fin 2) (dir : Int) (m : Mach) : Mach :=
  let w := recWord m recStgEncout (3 * c.val)
  let a : Fin 8 := ⟨c.val, by omega⟩
  if !bitOf w 6 then m
  else
    let num : Int := (recWord m recStgEncout (3 * c.val + 1)).toNat
    let den : Int := (recWord m recStgEncout (3 * c.val + 2)).toNat
    let e := m.stg[a].enc
    let acc := e.acc + dir * num
    let out := decide (den ≤ acc) || decide (acc ≤ -den)
    let fwd := decide (den ≤ acc)
    let acc' := if fwd then acc - den else if out then acc + den else acc
    if !out then onAxis a (fun x => { x with enc := { e with acc := acc' } }) m
    else if e.queue.length < 65535 then
      onAxis a (fun x => { x with enc := { e with acc := acc', queue := e.queue ++ [fwd] } }) m
    else raise (.stg a) 11 (onAxis a (fun x => { x with enc := { e with acc := acc', dropped := e.dropped + 1 } }) m)

/-- One count of a source (0 measured, 1 commanded) of an axis reaches the channels that follow it; the record's
pending commit is taken first (R559, R565, R572). -/
def encOutSource (a : Fin 8) (commanded : Bool) (dir : Int) (m : Mach) : Mach :=
  let m1 := takeRecord recStgEncout m
  if !commanded && measInvalid m1.stg[a] then m1
  else
    eachM (List.finRange 2) (fun c m' =>
      let w := recWord m' recStgEncout (3 * c.val)
      if fld w 2 0 = a.val && bitOf w 4 = commanded then encOutCount c dir m' else m') m1

/-! ### Ends, stops and faults -/

/-- Distance still to go of a stopping ramp, and the ramp begins (R531): `atMax` at DEC_MAX, else at DEC. -/
def axRamp (atMax : Bool) (a : Fin 8) (m : Mach) : Mach :=
  let ax := m.stg[a]
  let j := if atMax then 0 else (recWord m (recStgMotion a) 4).toNat
  let d := if atMax then ax.decMax else ax.dec
  let dist : Int := brakeQ ax.v d j / max 1 (ustep m a)
  let dir : Int := (if ax.dirPos then 1 else -1) * sgnOf (dirInv m a)
  onAxis a (fun x => { x with st := .stopping, stopMax := atMax, decel := true,
                              rampEnd := if ax.st = .moving then (if (ax.target - ax.cmd).natAbs ≤ dist.natAbs + 1 then ax.target else ax.cmd + dir * dist)
                                         else ax.cmd + dir * dist }) m

/-- The end of a move: MARGIN, and STALL_MARGIN where it is below its limit (R547, R724). -/
def moveEnded (a : Fin 8) (m : Mach) : Mach :=
  let win := (recWord m (recStgGuard a) 0).toNat
  let margin : Int := (win : Int) - m.stg[a].devMax
  let lim := recFld m recHltPlan 7 7 0 * win / 100
  let m1 := onAxis a (fun x => { x with margin := margin }) m
  if 0 < win && encType m a ≠ 0 && decide (margin < lim) then
    raise .hlt 12 (healthLog 9 a.val margin lim m1)
  else m1

/-- An axis comes to rest in FAULT (R546, R562, R563). -/
def axFaulted (cause : BitVec 4) (a : Fin 8) (m : Mach) : Mach :=
  let homing := m.stg[a].homing.isSome
  let m1 := onAxis a (fun x => { x with st := .fault, faultCause := cause, v := 0, inc := 0, acc := 0, stopFault := none, homing := none,
                                        homeResult := if homing then 6 else x.homeResult,
                                        homed := if homing then false else x.homed, holdAmp := true }) m
  let m2 := whenM homing (raise (.stg a) 4) m1
  raise (.stg a) 1 (log 0x8001 sevFault a.val [BitVec.ofNat 8 cause.toNat] m2)

/-- An encoder fault: a stop at DEC_MAX on the commanded position, POS_UNKNOWN set, REMAIN discarded (R562). -/
def encFault (cause : BitVec 4) (a : Fin 8) (m : Mach) : Mach :=
  let ax := m.stg[a]
  let m1 := onAxis a (fun x => { x with posUnknown := true, remain := none }) m
  if ax.st = .off || ax.st = .fault then m
  else if ax.st = .idle || ax.v = 0 then axFaulted cause a m1
  else
    let homing := ax.homing.isSome
    let m2 := onAxis a (fun x => { x with stopFault := some cause, homing := none, homeResult := if homing then 6 else x.homeResult,
                                          homed := if homing then false else x.homed }) (axRamp true a m1)
    whenM homing (raise (.stg a) 4) m2

/-- An axis comes to rest from STOPPING: at its move's target the move is done, otherwise REMAIN is kept (R531, R562) (DEDUCED, log row 97). -/
def axAtRest (a : Fin 8) (m : Mach) : Mach :=
  let ax := m.stg[a]
  match ax.stopFault with
  | some c => axFaulted c a m
  | none =>
    let keep := ax.remain.isSome
    let done := keep && decide (ax.cmd = ax.remainTarget)
    let m1 := onAxis a (fun x => { x with st := .idle, v := 0, inc := 0, acc := 0, stopMax := false, decel := false,
                                          remain := if keep && !done then some (x.remainTarget - x.cmd) else none }) m
    whenM done (fun m' => raise (.stg a) 0 (moveEnded a m')) m1

/-- Homing is aborted: a stop at DEC_MAX, HOMED clear, HOME_DONE with the result (R553, R554). -/
def homeAbort (code : BitVec 4) (a : Fin 8) (m : Mach) : Mach :=
  let ax := m.stg[a]
  let m1 := onAxis a (fun x => { x with homing := none, homed := false, homeResult := code, remain := none }) m
  let m2 := raise (.stg a) 4 m1
  if ax.v = 0 then axAtRest a (onAxis a (fun x => { x with st := .stopping }) m2) else axRamp true a m2

/-- A moving axis stops under R531: `atMax` for a limit or R534; `keep` is false where REMAIN is discarded. A ramp at
DEC_MAX is never replaced by one at DEC (R565). -/
def axStop (atMax keep : Bool) (a : Fin 8) (m : Mach) : Mach :=
  let ax := m.stg[a]
  match ax.st with
  | .moving =>
    let m1 := onAxis a (fun x => { x with remain := if keep then some (x.target - x.cmd) else none, remainTarget := x.target }) m
    if ax.v = 0 then axAtRest a (onAxis a (fun x => { x with st := .stopping }) m1) else axRamp atMax a m1
  | .stopping =>
    let m1 := if keep then m else onAxis a (fun x => { x with remain := none }) m
    if atMax && !ax.stopMax then axRamp true a m1 else m1
  | _ => if keep then m else onAxis a (fun x => { x with remain := none }) m

/-- R534: every moving axis stops at DEC_MAX, homing ends with ABORTED_STATE. -/
def axesHalt (m : Mach) : Mach :=
  eachM (List.finRange 8) (fun a m' => if m'.stg[a].st = .homing then homeAbort 5 a m' else axStop true true a m') m

/-- A job command stops an axis: a moving one at its DEC, homing as a STOP aborts it (R219, R531, R554) (DEDUCED, log row 97). -/
def jobStopAxis (keep : Bool) (a : Fin 8) (m : Mach) : Mach := if m.stg[a].st = .homing then homeAbort 4 a m else axStop false keep a m

/-! ### Moves (R521, R533, R550, R551) -/

/-- Result code that refuses a move to `goal` (nm), or 1: the soft limits judge the target given, an asserted limit the microstep it
becomes (R520, R533, R550, R551). -/
def moveCheck (m : Mach) (a : Fin 8) (goal : Int) : Nat :=
  let ax := m.stg[a]
  let x := stepNm m a (nmStep m a goal)
  if goal < recS m (recStgGuard a) 3 31 0 || recS m (recStgGuard a) 4 31 0 < goal then 5
  else if ax.limP && ax.limN then 6
  else if ax.limP && decide (stepNm m a ax.limPosP < x) then 6
  else if ax.limN && decide (x < stepNm m a ax.limPosN) then 6
  else 1

/-- An accepted move to `goal` (nm) begins, to the nearest whole microstep (R520, R521, R525, R530). -/
def moveBegin (goal : Int) (bound : Option Nat) (a : Fin 8) (m : Mach) : Mach :=
  let mot := recWords m (recStgMotion a)
  let tgt := nmStep m a goal
  let d := stepNm m a (tgt - m.stg[a].cmd)
  onAxis a (fun x => { x with st := .moving, target := tgt, goal := goal, bound := bound, dirPos := decide (0 ≤ d),
                              v := 0, acc := 0, inc := 0, phase := 0, steps := 0, hold := false, decel := false, remain := none, decKept := false,
                              dec := (mot.getD 2 0).toNat, decMax := (mot.getD 3 0).toNat, devMax := 0, stallRun := 0,
                              holdAmp := false, stopMax := false }) m

/-- A move ordered by the job sequencer: a refused one does not start (R823) (DEDUCED, log row 53). -/
def jobMoveAxis (goal : Int) (bound : Option Nat) (a : Fin 8) (m : Mach) : Mach :=
  if m.stg[a].st = .idle && moveCheck m a goal = 1 then moveBegin goal bound a m else m

/-- One microstep of the commanded count, with what follows it: compare and pulse dividers (R524, R556, R559). -/
def oneStep (a : Fin 8) (m : Mach) : Mach :=
  let ax := m.stg[a]
  let dir : Int := (if ax.dirPos then 1 else -1) * sgnOf (dirInv m a)
  let old := cmpPos m a
  let m1 := onAxis a (fun x => { x with cmd := x.cmd + dir }) m
  let m2 := cmpCross a old m1
  let m3 := encOutSource a true dir m2
  if encType m a = 0 then encOutSource a false dir m3 else m3

/-! ### Homing (R552) -/

/-- The direction of a homing step: true positive. -/
def homeDir (m : Mach) (a : Fin 8) (h : Homing) (s : HomeStep) : Bool :=
  let towards := recFld m (recStgHome a) 0 4 4 = 1
  match s with
  | .seek => towards
  | .index => if h.mode = 3 then towards else !towards
  | _ => !towards

/-- The homing sequence goes on with step `s` after the present motion has come to rest at DEC_MAX. -/
def homeNext (s : HomeStep) (a : Fin 8) (m : Mach) : Mach :=
  onAxis a (fun x => { x with homing := x.homing.map (fun h => { h with step := s }), decel := true }) m

/-- The present counts are latched as the home point. -/
def homeLatch (cmd meas : Int) (a : Fin 8) (m : Mach) : Mach :=
  onAxis a (fun x => { x with homing := x.homing.map (fun h => { h with latched := some (cmd, meas) }) }) m

/-- The sequence ends: both positions shift by the same amount so that the latched point reads HOME_POS (R552). -/
def homeEnd (a : Fin 8) (m : Mach) : Mach :=
  match m.stg[a].homing with
  | none => m
  | some h =>
    let home := recS m (recStgHome a) 3 31 0
    let (lc, lm) := h.latched.getD (m.stg[a].cmd, m.stg[a].meas)
    let latched := if encType m a = 0 then stepNm m a lc else encToNm m a lm
    let shift := home - latched
    let cmd := nmStep m a (posCmd m a + shift)
    let meas := nmEnc m a (encToNm m a m.stg[a].meas + shift)
    raise (.stg a) 4 (onAxis a (fun x => { x with st := .idle, homing := none, homed := true, posUnknown := false, homeResult := 1,
                                                  cmd := cmd, meas := if encType m a = 0 then x.meas else meas, v := 0, inc := 0, acc := 0,
                                                  decel := false }) m)

/-- The home target is asserted now: HOME for SWITCH, the limit in direction DIR for LIMIT. -/
def homeTarget (m : Mach) (a : Fin 8) (mode : Nat) : Bool :=
  if mode = 2 then (if recFld m (recStgHome a) 0 4 4 = 1 then m.stg[a].limP else m.stg[a].limN) else m.stg[a].homeIn

/-- A HOME command is accepted: REMAIN is discarded and the sequence of MODE begins (R552, R565, R570). -/
def homeBegin (a : Fin 8) (m0 : Mach) : Mach :=
  let m := takeRecord (recStgHome a) m0
  let mode := recFld m (recStgHome a) 0 2 0
  let h : Homing := ⟨mode, .seek, m.stg[a].cmd, none⟩
  let mot := recWords m (recStgMotion a)
  let start := fun (s : HomeStep) (m' : Mach) =>
    onAxis a (fun x => { x with st := .homing, homing := some { h with step := s }, dirPos := homeDir m a h s, remain := none,
                                v := 0, acc := 0, inc := 0, phase := 0, steps := 0, hold := false, decel := false, homed := false, holdAmp := false,
                                devMax := 0, stallRun := 0, decMax := (mot.getD 3 0).toNat }) m'
  match mode with
  | 3 => start .index m
  | 4 =>
    let home := recS m (recStgHome a) 3 31 0
    raise (.stg a) 4 (onAxis a (fun x => { x with cmd := nmStep m a home, meas := if encType m a = 0 then x.meas else nmEnc m a home,
                                                  homed := true, posUnknown := false, homeResult := 1, remain := none }) m)
  | 5 =>
    let cnt := m.stg[a].ssiLast.getD 0
    let meas : Int := cnt + nmEnc m a (recS m (recStgHome a) 5 31 0)
    let cmd := nmStep m a (encToNm m a meas)
    raise (.stg a) 4 (onAxis a (fun x => { x with meas := meas, cmd := cmd, homed := true, posUnknown := false, homeResult := 1, remain := none }) m)
  | _ => if homeTarget m a mode then start .clear m else start .seek m

end Sys2Proof.Machine
end

