-- ==== Sys2Proof/Machine/IlkBase.lean ====
section
/-!
DEFINITION. The emission gate at the pins and the lamp frames (11 of spec/): PERMIT, the stamp, LEN, display states and
the SET frames, as the interlock commands and the changes of device state share them.
-/

namespace Sys2Proof.Machine

/-- Beam b is live: fitted and not retired (R253). -/
def beamLive (m : Mach) (b : Fin 12) : Bool := fitted m b.val && m.imp.beams[b].cause = 0

/-- PERMIT (R581). -/
def permitNow (m : Mach) : Bool :=
  let i := m.ilk
  i.a && i.b && !i.latch && m.g.dev = .building && !i.inhSafe && !i.inhReset && !i.inhThermal && !i.disc && !i.lampInh && !m.clk.tripInhibit

/-- The cause INHIBIT is present (R587). -/
def inhibitNow (m : Mach) : Bool := !m.ilk.a || !m.ilk.b || m.ilk.latch || m.ilk.lampInh

/-- The stamp of R586: now, to the CLK_EV tick, or once CLK_EV runs again (DEDUCED, log row 28). -/
def ilkStamp (m : Mach) : Mach :=
  if m.time.running then onIlk (fun i => { i with
      inhTime := BitVec.ofNat 64 (nowQ m / tickQ * tickQ / 65536), inhSub := BitVec.ofNat 16 (nowQ m / tickQ * tickQ % 65536),
      stampLate := false, stampWait := false }) m
  else onIlk (fun i => { i with stampWait := true, stampLate := true }) m

/-- LEN_b: LEN_REQ_b of R588, PERMIT and no HOLD_b (R580) [R18, R322]. -/
def lenNow (m : Mach) (b : Fin 12) : Bool := m.g.dev = .building && beamLive m b && permitNow m && !bitOf m.ilk.hold b.val

/-- LGATE pins that a change of LEN drives low or lets through; the interlock's forced gate-off is noted for the stop point (R329, R580). -/
def gatesFollow (old new : BitVec 12) (m : Mach) : Mach :=
  eachM (allBeams.filter (fun b => m.beams[b].gate && bitOf old b.val != bitOf new b.val)) (fun b m' =>
    emit (.gate b.val (bitOf new b.val) (nowQ m / tickQ * tickQ) 0)
      (onBeam b (fun x => { x with forcedAt := if bitOf new b.val then x.forcedAt else some (x.forcedAt.getD (nowQ m)) }) m')) m

/-- The outputs follow PERMIT, HOLD and LEN_REQ: a falling PERMIT forces LGATE low and is stamped (R580, R586, R588) (DEDUCED, log row 28). -/
def ilkDrive (m : Mach) : Mach :=
  let p := permitNow m
  let m1 := whenM (m.ilk.permit && !p) ilkStamp m
  let len : BitVec 12 := (List.finRange 12).foldl (fun w b => setBit w b.val (lenNow m1 b)) 0
  gatesFollow m.ilk.len len (onIlk (fun i => { i with
    permit := p, len := len,
    lenRise := Vector.ofFn (fun b => if bitOf len b.val && !bitOf i.len b.val then nowQ m1 else i.lenRise[b]) }) m1)

/-! ### Lamp frames (R592 to R603) -/

/-- A frame of R593. -/
def lampFrame (addr cmd : Nat) (data : List Byte) : List Byte :=
  let b : List Byte := [BitVec.ofNat 8 addr, BitVec.ofNat 8 cmd, BitVec.ofNat 8 data.length] ++ data
  b ++ leBytes 2 (crc16 b).toNat

/-- The lamp bus runs (R604). -/
def busOn (m : Mach) : Bool := inWork m || m.g.dev = .safeHold

/-- Send a frame on the bus. -/
def lampSend (addr cmd : Nat) (data : List Byte) (m : Mach) : Mach := whenM (busOn m) (emit (.lampFrame (lampFrame addr cmd data))) m

/-- Word of LAMP_GROUPS. -/
def grpWord (m : Mach) (i : Nat) : Word := recWord m recLampGroups i
/-- Modules of group g. -/
def grpMods (m : Mach) (g : Nat) : List Nat := (List.range 32).filter (fun a => decide (1 ≤ a) && bitOf (grpWord m (16 * g)) a)
/-- Group g is interlocked. -/
def grpLocked (m : Mach) (g : Nat) : Bool := bitOf (grpWord m (16 * g + 1)) 16
/-- Modules of interlocked groups. -/
def lockedMods (m : Mach) : List Nat := ((List.range 8).filter (grpLocked m)).flatMap (grpMods m)

/-- Four duties from two words. -/
def duties (w1 w2 : Word) : List Nat := [fld w1 15 0, fld w1 31 16, fld w2 15 0, fld w2 31 16]

/-- The display state in force (R599). -/
def displayNow (m : Mach) : Nat :=
  match m.g.dev with
  | .building => if m.ilk.len ≠ 0 then 1 else 0
  | .proof => 2
  | .safeHold => if m.g.safeByFault then 4 else 3
  | _ => 0

/-- A group follows the pattern of the display state rather than the scene (R599). -/
def followsPattern (m : Mach) (g : Nat) : Bool := grpLocked m g || 3 ≤ displayNow m

/-- Gains applied to a FEEDBACK group's duties (R602). -/
def gained (m : Mach) (g : Nat) (l : List Nat) : List Nat :=
  if bitOf (grpWord m (16 * g + 1)) 17 then
    (l.zip m.ilk.gains.toList).map (fun (d, k) => min 65535 ((2 * d * k + 4294967296) / 8589934592))
  else l

/-- The duties a group shows now: its pattern, dark while it blinks, or its scene (R599, R601, R602). -/
def grpDuties (m : Mach) (g : Nat) : List Nat :=
  let d := displayNow m
  if followsPattern m g then
    (if bitOf (grpWord m (16 * g + 12)) d && bitOf m.ilk.dark g then [0, 0, 0, 0]
     else duties (grpWord m (16 * g + 2 + 2 * d)) (grpWord m (16 * g + 3 + 2 * d)))
  else
    let s := m.ilk.scene.toNat
    if s = 0 then [0, 0, 0, 0]
    else gained m g (duties (recWord m recLampScenes (17 * (s - 1) + 1 + 2 * g)) (recWord m recLampScenes (17 * (s - 1) + 2 + 2 * g)))

/-- A duty sent to an interlocked module is raised to 3,277 unless it is 0 (R600). -/
def floorDuty (d : Nat) : Nat := if 0 < d && d < 3277 then 3277 else d

/-- A SET to one module (R594, R600). -/
def sendSet (a g fade : Nat) (waitGo : Bool) (m : Mach) : Mach :=
  let raw := grpDuties m g
  let ds := if grpLocked m g then raw.map floorDuty else raw
  let raised := ((raw.zip ds).filter (fun (x, y) => x ≠ y)).length
  let m1 := onIlk (fun i => { i with flooredCount := i.flooredCount + BitVec.ofNat 32 raised,
                                     mods := i.mods.set (a % 32) { i.mods[a % 32]'(Nat.mod_lt _ (by decide)) with floored := decide (0 < raised) } (Nat.mod_lt _ (by decide)) }) m
  lampSend a 1 (ds.flatMap (leBytes 2) ++ leBytes 2 (if grpLocked m g then 0 else fade) ++ [BitVec.ofNat 8 (b2n waitGo)]) m1

/-- A SET to every module of a group. -/
def sendGroup (g : Nat) (m : Mach) : Mach := eachM (grpMods m g) (fun a => sendSet a g 0 false) m

/-- The lamps follow a change of the display state (R599). -/
def lampsFollow (m : Mach) : Mach :=
  let d := displayNow m
  if d = m.ilk.display then m
  else eachM (List.range 8) sendGroup (onIlk (fun i => { i with display := d, dark := 0 }) m)

/-- A scene is applied: SET with WAIT_GO to each module of the groups that follow it, then one GO (R601, R605). -/
def applyScene (s : BitVec 4) (m0 : Mach) : Mach :=
  let m := takeRecord recLampScenes (onIlk (fun i => { i with scene := s }) m0)
  let fade := fld (recWord m recLampScenes (17 * (s.toNat - 1))) 15 0
  let m1 := eachM ((List.range 8).filter (fun g => !followsPattern m g)) (fun g m' => eachM (grpMods m' g) (fun a => sendSet a g fade true) m') m
  lampSend 0 4 [] m1

/-- Everything that follows the device state at the pins and lamps. -/
def pinsFollow (m : Mach) : Mach := lampsFollow (ilkDrive m)

end Sys2Proof.Machine
end

