-- ==== Sys2Proof/Machine/LaneBase.lean ====
section
/-!
DEFINITION. Sending on the lanes of a head (09 of spec/): the operations that parks, releases, camera settings and
make-ready share with the lane events.
-/

namespace Sys2Proof.Machine

/-- The head of a lane: 0 to 11, or 12 + a for auxiliary head a. -/
def laneHead (l : Fin 28) : Fin 16 := if h : l.val < 24 then ⟨l.val / 2, by omega⟩ else ⟨l.val - 12, by omega⟩

/-- The lanes of a head. -/
def headLanes (h : Fin 16) : List (Fin 28) := (List.finRange 28).filter (fun l => laneHead l = h)

/-- The lane is UP. -/
def laneUp (m : Mach) (l : Fin 28) : Bool := m.lanes[l].st = .up

/-- A lane of the head is UP. -/
def headUp (m : Mach) (h : Fin 16) : Bool := (headLanes h).any (laneUp m)

/-- The other lane of the same head. -/
def partner (l : Fin 28) : Option (Fin 28) := (headLanes (laneHead l)).find? (fun x => x ≠ l)

/-- The scan head of a beam. -/
def beamHead (b : Fin 12) : Fin 16 := ⟨b.val, by omega⟩

/-- The lane carries its head's port 0: the even one, unless the pair is swapped (R492). -/
def isPrimary (m : Mach) (l : Fin 28) : Bool := (l.val % 2 = 0 || 24 ≤ l.val) != m.lanes[l].swapped

/-- The HEAD or AUX_HEAD section of a head (R509). -/
def headSec (m : Mach) (h : Fin 16) : List Byte := if h.val < 12 then secBytes m 4 h.val else secBytes m 7 (h.val - 12)

/-- The head is fitted. -/
def headFitted (m : Mach) (h : Fin 16) : Bool := if h.val < 12 then fitted m h.val else auxFitted m (h.val - 12)

/-- RATE of a lane's section (R471). -/
def laneRate (m : Mach) (l : Fin 28) : Nat := rdLe (headSec m (laneHead l)) 8 1

/-- P_MAX of a beam, mW (R509). -/
def pMax (m : Mach) (b : Fin 12) : Nat := rdLe (secBytes m 4 b.val) 12 4

/-- A frame on one lane, with the head's next FSEQ (R485). -/
def sendOn (l : Fin 28) (type : Nat) (stamp : Word) (payload : List Byte) (m : Mach) : Mach :=
  let h := laneHead l
  if laneUp m l then
    emit (.frame l.val type m.heads[h].txFseq stamp payload) (onHead h (fun x => { x with txFseq := x.txFseq + 1 }) m)
  else m

/-- A frame on every UP lane of a head, with one FSEQ (R480, R485). -/
def sendBoth (h : Fin 16) (type : Nat) (stamp : Word) (payload : List Byte) (m : Mach) : Mach :=
  let f := m.heads[h].txFseq
  if headUp m h then
    eachM ((headLanes h).filter (laneUp m)) (fun l => emit (.frame l.val type f stamp payload)) (onHead h (fun x => { x with txFseq := x.txFseq + 1 }) m)
  else m

/-- A control block on every UP lane of a head. -/
def sendBlock (h : Fin 16) (kind : Nat) (payload : List Byte) (m : Mach) : Mach :=
  eachM ((headLanes h).filter (laneUp m)) (fun l => emit (.block l.val kind payload)) m

/-- Low 32 bits of device time, a short stamp (R12) (DEDUCED, log row 17). -/
def shortNow (m : Mach) : Word := BitVec.ofNat 32 (now m)

/-! ### Token buckets (R504) -/

/-- A token in a bucket's unit, and its depth. -/
def oneToken : Nat := 4000000000
def bucketDepth : Nat := 16 * oneToken

/-- A head's bucket of a type. -/
def bucketOf (m : Mach) (h : Fin 16) (type : Nat) : Bucket := look (fun _ => {}) m.heads[h].buckets type

/-- A bucket stored. -/
def setBucket (h : Fin 16) (type : Nat) (b : Bucket) (m : Mach) : Mach :=
  onHead h (fun x => { x with buckets := put (fun _ => {}) x.buckets type b }) m

/-- A frame sent gives a token to the type that answers it (TSYNC_R, IMG_BEGIN). -/
def bucketCredit (h : Fin 16) (type : Nat) (m : Mach) : Mach :=
  let b := bucketOf m h type
  setBucket h type { b with tokens := min bucketDepth (b.tokens + oneToken) } m

/-! ### Orders to a head -/

/-- PARK with a reason (R481, R503) (DEDUCED, log row 93). -/
def parkSend (reason : Nat) (h : Fin 16) (m : Mach) : Mach :=
  onHead h (fun x => { x with released := false }) (sendBoth h 0x13 (shortNow m) [1, BitVec.ofNat 8 reason] m)

/-- RELEASE (R481, R503). -/
def releaseSend (h : Fin 16) (m : Mach) : Mach :=
  if headUp m h then onHead h (fun x => { x with released := true }) (sendBoth h 0x13 (shortNow m) [2, 0] m) else m

/-- Sample period of a beam's RATE, ns (R288). -/
def samplePeriod (m : Mach) (b : Fin 12) : Nat :=
  match recFld m (recBeamConfig b.val) 0 1 0 with | 0 => 10000 | 1 => 5000 | 2 => 2500 | _ => 1250

/-- The signals a CMD or AUX_CMD frame carries (R482, R505). -/
def cmdSignals (h : Fin 16) : List Nat := if h.val < 12 then tab 6 (fun k => 768 + 16 * h.val + k) else tab 8 (fun i => 768 + 16 * h.val + i)

/-- A CMD frame, or an AUX_CMD frame, with the latest stamp among its signals (R483, R505). -/
def cmdSend (h : Fin 16) (m : Mach) : Mach :=
  let vs := (cmdSignals h).map (sigGet m)
  let t := vs.foldl (fun a s => max a s.t.toNat) 0
  onHead h (fun x => { x with cmdDue := false })
    (sendBoth h (if h.val < 12 then 0x11 else 0x15) (BitVec.ofNat 32 t) (vs.flatMap (fun s => leBytes 4 s.v.toNat)) m)

/-- The frames due after writes of output signals (R483). -/
def cmdFlush (m : Mach) : Mach := eachM ((List.finRange 16).filter (fun h => m.heads[h].cmdDue)) cmdSend m

/-- CONFIG to the head of a beam: FRAME_RATE, EXPOSURE, sample period (R352, R481). -/
def configSend (b : Fin 12) (m : Mach) : Mach :=
  let rate := recWord m (recMplCamera b.val) 0
  let exp := recWord m (recMplCamera b.val) 1
  let pay := leBytes 4 rate.toNat ++ leBytes 4 exp.toNat ++ leBytes 4 (samplePeriod m b / 1)
  if headUp m (beamHead b) then
    sendBoth (beamHead b) 0x12 (shortNow m) pay (onMpl b (fun x => { x with camRate := rate, camExp := exp }) m)
  else m

end Sys2Proof.Machine
end

