-- ==== Sys2Proof/Machine/SlugGeom.lean ====
section
/-!
DEFINITION. Slugs, parameter sets and paths as geometry: the fields of a slug (R195, R196), path length, points along a path,
boxes (R233), polygons (R234) and the keep-out tests (R236, R237). Points and lengths are in 2^-16 nm.
-/

namespace Sys2Proof.Machine

/-- Slug types (R195). -/
def slugJump : Nat := 1
def slugLine : Nat := 2
def slugArc : Nat := 3
def slugDwell : Nat := 4

/-- The fields of a slug; coordinates in nm (R195, R196). -/
structure Slug where
  word : Word
  type : Nat
  pset : Nat
  group : Nat
  ovrSpeed : Bool
  ovrPower : Bool
  x0 : Int
  y0 : Int
  /-- LINE end, or ARC centre -/
  x1 : Int
  y1 : Int
  sweep : Int
  dur : Nat
  speed : Nat
  power : Nat
  part : Nat
deriving DecidableEq, Repr

/-- A slug's 32 bytes read as fields. -/
def slugOf (bs : List Byte) : Slug :=
  let w : Word := BitVec.ofNat 32 (rdLe bs 0 4)
  let ty := fld w 31 28
  { word := w, type := ty, pset := fld w 27 22, group := fld w 21 16, ovrSpeed := bitOf w 15, ovrPower := bitOf w 14,
    x0 := rdLeS bs 4 4, y0 := rdLeS bs 8 4, x1 := rdLeS bs 12 4, y1 := rdLeS bs 16 4, sweep := rdLeS bs 20 4,
    dur := rdLe bs 12 4, speed := rdLe bs 20 4, power := if ty = slugDwell then rdLe bs 16 2 else rdLe bs 24 2,
    part := rdLe bs 28 4 }

/-! ### Parameter-set fields (R193) -/

def psPower (p : List Byte) : Nat := rdLe p 0 2
def psFlag (p : List Byte) (i : Nat) : Bool := (rdLe p 2 2).testBit i
def psSpeed (p : List Byte) : Nat := rdLe p 4 4
def psJump (p : List Byte) : Nat := rdLe p 8 4
def psAcc (p : List Byte) : Nat := rdLe p 12 4
def psFocus (p : List Byte) : Int := rdLeS p 16 4
def psBackstep (p : List Byte) : Nat := rdLe p 20 4
def psWobShape (p : List Byte) : Nat := rdLe p 24 1
def psWobFreq (p : List Byte) : Nat := rdLe p 26 2
def psWobAmp (p : List Byte) : Nat := rdLe p 28 4
def psMpSet (p : List Byte) : Nat := rdLe p 32 2
def psCorrLim (p : List Byte) : Nat := rdLe p 34 2
def psLaFloor (p : List Byte) : Nat := rdLe p 36 2

/-- Mark speed before κ, µm/s (R290). -/
def slugSpeed (s : Slug) (p : List Byte) : Nat := if s.ovrSpeed then s.speed else psSpeed p

/-- Mark power (R323). -/
def slugPower (s : Slug) (p : List Byte) : Nat := if s.type = slugDwell || s.ovrPower then s.power else psPower p

/-- The slug commands emission. -/
def slugEmits (s : Slug) : Bool := s.type = slugLine || s.type = slugArc || (s.type = slugDwell && s.power ≠ 0)

/-! ### Paths -/

/-- An angle in 2^-16 µdeg as radians with 60 fraction bits. -/
def udeg16Q (a : Int) : Int := divR (a * piQ) (180000000 * 65536)

/-- A vector turned counter-clockwise by an angle in 2^-16 µdeg. -/
def turn (x y a : Int) : Int × Int :=
  let r := udeg16Q a
  (divR (x * cosQ r - y * sinQ r) q60, divR (x * sinQ r + y * cosQ r) q60)

/-- The path of a slug from its restart point or its start (R196, R221). -/
def slugPath (s : Slug) (r : Option Restart) : Path :=
  if s.type = slugLine then
    match r with
    | none => .line (s.x0 * 65536) (s.y0 * 65536) (s.x1 * 65536) (s.y1 * 65536)
    | some q => .line (q.x * 65536) (q.y * 65536) (s.x1 * 65536) (s.y1 * 65536)
  else if s.type = slugArc then
    let ux := (s.x0 - s.x1) * 65536
    let uy := (s.y0 - s.y1) * 65536
    match r with
    | none => .arc (s.x1 * 65536) (s.y1 * 65536) (s.x0 * 65536) (s.y0 * 65536) (s.sweep * 65536)
    | some q =>
      let rad := hypotQ 16 (s.x0 - s.x1) (s.y0 - s.y1)
      let gone : Int := divR (q.dist * 65536 * 180000000 * q60 * 65536) (rad * piQ)
      let a := if s.sweep < 0 then -gone else gone
      let (vx, vy) := turn ux uy a
      .arc (s.x1 * 65536) (s.y1 * 65536) (s.x1 * 65536 + vx) (s.y1 * 65536 + vy) (s.sweep * 65536 - a)
  else
    match r with
    | none => .point (s.x0 * 65536) (s.y0 * 65536)
    | some q => .point (q.x * 65536) (q.y * 65536)

/-- Path length, 2^-16 nm. -/
def pathLen : Path → Nat
  | .point _ _ => 0
  | .line x0 y0 x1 y1 => isqrt ((x1 - x0).natAbs ^ 2 + (y1 - y0).natAbs ^ 2)
  | .arc cx cy x0 y0 a => (isqrt ((x0 - cx).natAbs ^ 2 + (y0 - cy).natAbs ^ 2) * (udeg16Q a).natAbs + q60.toNat / 2) / q60.toNat
  | .field x0 y0 x1 y1 => isqrt ((x1 - x0).natAbs ^ 2 + (y1 - y0).natAbs ^ 2)

/-- The point at distance `s` along a path of length `n` (R299). -/
def pathAt (p : Path) (n s : Nat) : Int × Int :=
  match p with
  | .point x y => (x, y)
  | .line x0 y0 x1 y1 => if n = 0 then (x1, y1) else (x0 + divR ((x1 - x0) * s) n, y0 + divR ((y1 - y0) * s) n)
  | .arc cx cy x0 y0 a =>
    let (vx, vy) := turn (x0 - cx) (y0 - cy) (if n = 0 then a else divR (a * s) n)
    (cx + vx, cy + vy)
  | .field x0 y0 x1 y1 => if n = 0 then (x1, y1) else (x0 + divR ((x1 - x0) * s) n, y0 + divR ((y1 - y0) * s) n)

/-- Unit tangent at distance `s`, 60 fraction bits; bed +X at rest (R300). -/
def pathTangent (p : Path) (n s : Nat) : Int × Int :=
  match p with
  | .point _ _ => (q60, 0)
  | .line x0 y0 x1 y1 => unitQ (x1 - x0) (y1 - y0)
  | .arc cx cy x0 y0 a =>
    let (vx, vy) := turn (x0 - cx) (y0 - cy) (if n = 0 then a else divR (a * s) n)
    let (ux, uy) := unitQ vx vy
    if a < 0 then (uy, -ux) else (-uy, ux)
  | .field x0 y0 x1 y1 => unitQ (x1 - x0) (y1 - y0)

/-- End point of a slug in nm, each coordinate rounded once to the nearest nanometre (R197). -/
def slugEnd (s : Slug) : Int × Int :=
  if s.type = slugLine then (s.x1, s.y1)
  else if s.type = slugArc then
    let r := udeg16Q (s.sweep * 65536)
    let ux := s.x0 - s.x1
    let uy := s.y0 - s.y1
    (s.x1 + divR (ux * cosQ r - uy * sinQ r) q60, s.y1 + divR (ux * sinQ r + uy * cosQ r) q60)
  else (s.x0, s.y0)

/-! ### Boxes and polygons -/

/-- A rectangle in 2^-16 nm. -/
structure Box where
  xmin : Int
  xmax : Int
  ymin : Int
  ymax : Int
deriving DecidableEq, Repr

/-- The arc from direction `(ux, uy)` to `(ex, ey)`, counter-clockwise through an angle above 180° where `wide`, meets the
direction `(dx, dy)`. -/
def arcMeets (wide : Bool) (ux uy ex ey dx dy : Int) : Bool :=
  let ud := ux * dy - uy * dx
  let de := dx * ey - dy * ex
  if wide then !(decide (ex * dy - ey * dx > 0) && decide (dx * uy - dy * ux > 0)) else decide (0 ≤ ud) && decide (0 ≤ de)

/-- The smallest rectangle round a path. -/
def pathBox (p : Path) : Box :=
  match p with
  | .point x y => ⟨x, x, y, y⟩
  | .line x0 y0 x1 y1 => ⟨min x0 x1, max x0 x1, min y0 y1, max y0 y1⟩
  | .field x0 y0 x1 y1 => ⟨min x0 x1, max x0 x1, min y0 y1, max y0 y1⟩
  | .arc cx cy x0 y0 a =>
    let ux := x0 - cx
    let uy := y0 - cy
    let (ex, ey) := turn ux uy a
    let r : Int := isqrt (ux.natAbs ^ 2 + uy.natAbs ^ 2)
    let wide := decide ((180000000 : Int) * 65536 < a.natAbs)
    let meets := fun dx dy => if a < 0 then arcMeets wide ex ey ux uy dx dy else arcMeets wide ux uy ex ey dx dy
    ⟨if meets (-1) 0 then cx - r else min x0 (cx + ex), if meets 1 0 then cx + r else max x0 (cx + ex),
     if meets 0 (-1) then cy - r else min y0 (cy + ey), if meets 0 1 then cy + r else max y0 (cy + ey)⟩

/-- The box of a slug or remainder, grown by its set's WOB_AMP; none for a slug without emission (R233). -/
def slugBox (s : Slug) (p : List Byte) (r : Option Restart) : Option Box :=
  if slugEmits s then
    let b := pathBox (slugPath s r)
    let g : Int := psWobAmp p * 65536
    some ⟨b.xmin - g, b.xmax + g, b.ymin - g, b.ymax + g⟩
  else none

/-- Corners of a box. -/
def Box.corners (b : Box) : List (Int × Int) := [(b.xmin, b.ymin), (b.xmax, b.ymin), (b.xmax, b.ymax), (b.xmin, b.ymax)]

/-- A point lies inside or on a convex polygon listed counter-clockwise (vertices in nm, the point in 2^-16 nm). -/
def inPoly (vs : List (Int × Int)) (x y : Int) : Bool :=
  2 < vs.length && (vs.zip (vs.drop 1 ++ vs.take 1)).all (fun ((ax, ay), (bx, by_)) =>
    decide (0 ≤ (bx - ax) * (y - ay * 65536) - (by_ - ay) * (x - ax * 65536)))

/-- A slug lies inside a polygon (R234). -/
def slugInPoly (vs : List (Int × Int)) (s : Slug) (p : List Byte) (r : Option Restart) : Bool :=
  match slugBox s p r with
  | some b => b.corners.all (fun (x, y) => inPoly vs x y)
  | none => inPoly vs (s.x0 * 65536) (s.y0 * 65536)

/-- Separation of two boxes (R236), S_MIN in nm. -/
def separated (smin : Nat) (a b : Box) : Bool :=
  let dx := max 0 (max (a.xmin - b.xmax) (b.xmin - a.xmax))
  let dy := max 0 (max (a.ymin - b.ymax) (b.ymin - a.ymax))
  decide ((smin * 65536) ^ 2 ≤ dx.natAbs ^ 2 + dy.natAbs ^ 2)

/-- The interval of a box's corners on an axis with 30 fraction bits. -/
def project (b : Box) (ux uy : Int) : Int × Int :=
  let ps := b.corners.map (fun (x, y) => x * ux + y * uy)
  (ps.foldl min (ps.headD 0), ps.foldl max (ps.headD 0))

/-- Box `a` lies in the plume of box `b` (R237): gas direction `g` in Q2.30, corridor in nm. Each projection of the corridor
is widened by 4 nm, more than every rounding of the test and less than the 1 µm allowed. -/
def inPlume (gx gy : Int) (width len : Nat) (a b : Box) : Bool :=
  let one : Int := 1073741824
  let axes : List (Int × Int × Int × Int) := [(one, 0, gx, -gy), (0, one, gy, gx), (gx, gy, one, 0), (-gy, gx, 0, one)]
  axes.all (fun (ux, uy, gu, nu) =>
    let (a0, a1) := project a ux uy
    let (b0, b1) := project b ux uy
    let l : Int := (len : Int) * 65536 * gu
    let w : Int := (width : Int) * 32768 * nu.natAbs
    let slack : Int := 4 * 65536 * one
    let b0' := b0 + min 0 l - w - slack
    let b1' := b1 + max 0 l + w + slack
    decide (a0 ≤ b1') && decide (b0' ≤ a1))

/-! ### Times in 2^-16 ns -/

/-- Time of a move of length `d` (2^-16 nm) from rest to rest at `v` (µm/s) and `a` (mm/s²) (R239, R289). -/
def moveTime (d v a : Nat) : Nat :=
  if v = 0 || a = 0 then 0
  else if v * v * 65536 ≤ d * a then (d * 1000000 + v / 2) / v + (v * 1000000 * 65536 + a / 2) / a
  else 2 * isqrt (d * 1000000000000 * 65536 / a)

/-- Path term of R239. -/
def pathTime (s : Slug) (p : List Byte) (r : Option Restart) : Nat :=
  if s.type = slugDwell then (match r with | some q => q.dur | none => s.dur) * 65536
  else if s.type = slugJump then 0
  else
    let v := slugSpeed s p
    if v = 0 then 0 else (pathLen (slugPath s r) * 1000000 + v / 2) / v

/-- First point of a slug or remainder, nm. -/
def slugFrom (s : Slug) (r : Option Restart) : Int × Int := match r with | some q => (q.x, q.y) | none => (s.x0, s.y0)

/-- Distance between two points in nm, as 2^-16 nm. -/
def dist16 (p q : Int × Int) : Nat := hypotQ 16 (q.1 - p.1) (q.2 - p.2)

end Sys2Proof.Machine
end

