-- ==== Sys2Proof/Machine/BeamPlan.lean ====
section
/-!
DEFINITION. The plan of a slug (R289 to R302, R315 to R321) and what it gives at a time: path point, speed, wobble,
registration (R303 to R308), power (R323). Times in 2^-16 ns, points in 2^-16 nm, speeds in 2^-32 µm/s.
-/

namespace Sys2Proof.Machine

/-! ### A slug in layer memory -/

/-- Offset of a source's descriptor within a forme (R188, R271). -/
def descOff (src : Nat) : Nat := if 0x80 ≤ src then 256 + 32 * (src - 0x80) else 640 + 32 * src

/-- Number of slugs of a source. -/
def srcCount (m : Mach) (forme src : Nat) : Nat := memLe m (forme + descOff src + 4) 4

/-- Layer address of a slug. -/
def slugAddr (m : Mach) (forme src i : Nat) : Nat := forme + memLe m (forme + descOff src) 4 + 32 * i

/-- A slug as read. -/
def slugAt (m : Mach) (forme src i : Nat) : Slug := slugOf (memBytes m (slugAddr m forme src i) 32)

/-- Layer address of the ACTIVE forme. -/
def activeAddr (m : Mach) : Option Nat := m.job.active.map (fun i => m.job.slots[i].addr)

/-- FORME_ID of the ACTIVE forme. -/
def activeId (m : Mach) : Word := match m.job.active with | some i => m.job.slots[i].id | none => 0

/-- The slug of a piece of work. -/
def workSlug (m : Mach) (w : Work) : Slug := slugAt m ((activeAddr m).getD 0) w.src w.index

/-- Parameter set n of a forme in layer memory. -/
def formeSet (m : Mach) (forme n : Nat) : List Byte := memBytes m (forme + 4096 + 64 * n) 64

/-! ### Motion along one segment (R289, R293 to R295) -/

/-- One µm/s in the unit of speeds. -/
def spdQ : Nat := 4294967296

/-- Peak speed of a segment: its limit, or what acceleration and deceleration within its length allow. -/
def Seg.peak (g : Seg) : Nat :=
  let s := (2 * g.a * g.len * (65536 * spdQ) + g.v0 * g.v0 + g.v1 * g.v1) / 2
  if g.v * g.v ≤ s then g.v else max (isqrt s) (max g.v0 g.v1)

/-- Time of a speed change from `u` to `w` at the segment's acceleration. -/
def rampTime (a u w : Nat) : Nat := if a = 0 then 0 else ((max u w - min u w) * 1000000 + a * 32768) / (a * 65536)

/-- Length of that speed change, 2^-16 nm. -/
def rampLen (a u w : Nat) : Nat := if a = 0 then 0 else (max u w * max u w - min u w * min u w) / (2 * a * (65536 * spdQ))

/-- Time of the constant part (DEDUCED, log row 62). -/
def Seg.cruise (g : Seg) : Nat :=
  let p := g.peak
  if p = 0 then 0 else ((g.len - rampLen g.a g.v0 p - rampLen g.a p g.v1) * 1000000 * spdQ + p / 2) / p

/-- Duration of a segment. -/
def Seg.span (g : Seg) : Nat := rampTime g.a g.v0 g.peak + g.cruise + rampTime g.a g.peak g.v1

/-- Distance gone while the speed changes from `u` towards `w` for time `t` (DEDUCED, log row 62). -/
def rampAt (a u w t : Nat) : Nat :=
  let c := u * t / (1000000 * spdQ)
  let d := a * t * t / (2 * 1000000000000 * 65536)
  if u ≤ w then c + d else c - d

/-- Distance along a segment at a time (clamped to the segment). -/
def Seg.at_ (g : Seg) (t : Nat) : Nat :=
  if g.t1 ≤ t then g.len
  else
    let u := t - g.t0
    let p := g.peak
    let ta := rampTime g.a g.v0 p
    let tc := g.cruise
    min g.len (if u ≤ ta then rampAt g.a g.v0 p u
      else if u ≤ ta + tc then rampLen g.a g.v0 p + p * (u - ta) / (1000000 * spdQ)
      else g.len - rampAt g.a g.v1 p (g.t1 - t))

/-- Speed at a time. -/
def Seg.speed (g : Seg) (t : Nat) : Nat :=
  if t < g.t0 then g.v0
  else if g.t1 ≤ t then g.v1
  else
    let u := t - g.t0
    let p := g.peak
    let ta := rampTime g.a g.v0 p
    let tc := g.cruise
    if u ≤ ta then (if g.v0 ≤ p then min p (g.v0 + g.a * u * 65536 / 1000000) else max p (g.v0 - g.a * u * 65536 / 1000000))
    else if u ≤ ta + tc then p
    else (if g.v1 ≤ p then min p (g.v1 + g.a * (g.t1 - t) * 65536 / 1000000) else max p (g.v1 - g.a * (g.t1 - t) * 65536 / 1000000))

/-- A segment laid from a time on. -/
def layOne (t : Nat) (g : Seg) : Seg :=
  let s := if g.v = 0 then g.t1 else g.span
  { g with t0 := t, t1 := t + s }

/-- Segments laid one after the other. A segment at rest gives its duration as `t1` (DEDUCED, log row 62) (DEDUCED, log row 64). -/
def layOut : Nat → List Seg → List Seg
  | _, [] => []
  | t, g :: r => let h := layOne t g; h :: layOut h.t1 r

/-! ### Building a plan -/

/-- Word i of a plan's BEAM_TIMING, in 2^-16 ns. -/
def Plan.tim (p : Plan) (i : Nat) : Nat := (p.timing.getD i 0).toNat * 65536

/-- An edge placed at the nearest step of 39.0625 ps, a tie to the later step (R316). -/
def placeEdge (t : Nat) : Nat := (t + 1280) / 2560 * 2560

/-- The mark or dwell segment. -/
def Plan.markSeg (p : Plan) : Option Seg := p.segs.find? (fun g => g.st = .mark || g.st = .dwell)

/-- Ideal gate-on (R315) (DEDUCED, log row 63). -/
def Plan.idealOn (p : Plan) : Nat := match p.emit with | some (t0, _) => t0 + p.tim 0 - p.tim 1 | none => 0

/-- Ideal gate-off (R315) (DEDUCED, log row 63). -/
def Plan.idealOff (p : Plan) : Nat :=
  match p.emit with
  | some (t0, t1) => if p.isDwell then p.idealOn + p.tim 1 + (t1 - t0) - p.tim 2 else t1 + p.tim 0 - p.tim 2
  | none => 0

/-- End of the slug (R297, R298). -/
def Plan.ends (p : Plan) : Nat :=
  let e := match p.segs.getLast? with | some g => g.t1 | none => p.start
  match p.off with
  | some o => if p.isDwell then o else max o e
  | none => e

/-- The plan with its gate edges, from the gate-off before it: MIN_PULSE, MIN_GAP and merging (R319 to R321). With MERGE set, a gate-off
that has fired cannot be removed any more, and the gate-on stays where it is placed (DEDUCED, log row 61). -/
def withEdges (lastOff : Option Nat) (p : Plan) : Plan × Bool × Bool :=
  match p.emit with
  | none => ({ p with finish := p.ends }, false, false)
  | some _ =>
    let on0 := placeEdge p.idealOn
    let tight := match lastOff with | some o => decide (on0 < o + p.tim 6) | none => false
    let moved := tight && !p.contFrom && !(p.timing.getD 7 0).getLsbD 0
    let on1 := if moved then placeEdge (lastOff.getD 0 + p.tim 6) else on0
    let off0 := placeEdge p.idealOff
    let short := decide (off0 < on1 + p.tim 5) && !p.contFrom && !p.contInto
    let off1 := if short then placeEdge (on1 + p.tim 5) else off0
    let q := { p with on := if p.contFrom then none else some on1, off := if p.contInto then none else some off1 }
    ({ q with finish := q.ends }, short, moved)

/-- The plan with its mark running into the next slug, or coming to rest (R294, R295). -/
def intoNext (into : Bool) (p : Plan) : Plan :=
  let segs := p.segs.map (fun g =>
    if g.st = .mark && !p.skywrite then
      let h := { g with v1 := if into then p.vm else 0 }
      { h with t1 := h.t0 + h.span }
    else g)
  let e := match p.emit, segs.find? (fun g => g.st = .mark) with
    | some (t0, _), some g => if p.isDwell then p.emit else some (t0, g.t1)
    | x, _ => x
  { p with segs := segs, emit := e, contInto := into }

/-- Mark speed in force and ρ × 2^48 of a slug (R290, R296). -/
def markSpeed (s : Slug) (set : List Byte) (kappa : Nat) : Nat × Nat :=
  let vm := slugSpeed s set * kappa * spdQ / 65535
  if s.type = slugArc then
    let lim := psAcc set * hypotQ 16 (s.x0 - s.x1) (s.y0 - s.y1) * (65536 * spdQ)
    if lim < vm * vm then (isqrt lim, if vm = 0 then 281474976710656 else (isqrt (lim * 79228162514264337593543950336) + vm / 2) / vm)
    else (vm, 281474976710656)
  else (vm, 281474976710656)

/-- Square of 2π × WOB_FREQ in s^-2, × 65,536. -/
def wobOmega2 (f : Nat) : Nat := (4 * piQ * piQ * f * f * 65536 / (q60 * q60)).toNat

/-- Wobble amplitude in force, 2^-16 nm (R302): reduced where it would exceed WOB_ACC_MAX (mm/s²). -/
def wobAmpOf (set : List Byte) (accMax : Nat) : Nat :=
  let a := psWobAmp set
  let o := wobOmega2 (psWobFreq set)
  if psWobShape set = 0 || o = 0 then a * 65536
  else if accMax * 1000000 * 65536 < a * o then accMax * 1000000 * 65536 * 65536 / o else a * 65536

/-- What a plan starts from: device time, bed point and field point of the setpoint, speed carried on at a continued
junction, whether the gate stays on from the slug before, whether moves run in field coordinates (R311), and whether the JUMP_SETTLE of a
JUMP is still to be held (R292). -/
structure Begin where
  t : Nat
  x : Int
  y : Int
  fx : Int
  fy : Int
  cont : Option Nat
  gateOn : Bool
  field : Bool
  owed : Bool
deriving DecidableEq, Repr

/-- The segments of a slug before they are laid in time: the settle that a JUMP has left to a slug that moves (R292), inserted move, settle,
run-up, mark or dwell, run-out. `toField` turns a bed point into a field point. -/
def slugSegs (s : Slug) (w : Work) (bg : Begin) (vm vj a settle : Nat) (sky : Bool) (toField : Int → Int → Int × Int) : List Seg :=
  let path := slugPath s w.restart
  let n := pathLen path
  let (px, py) := pathAt path n 0
  let run := if a = 0 then 0 else vm * vm / (2 * a * (65536 * spdQ))
  let (tx, ty) := pathTangent path n 0
  let (ex, ey) := pathTangent path n n
  let (qx, qy) := pathAt path n n
  let rx := px - divR (tx * run) q60
  let ry := py - divR (ty * run) q60
  let (gx, gy) := if sky then (rx, ry) else (px, py)
  let mk := fun (st : BeamSt) (p : Path) (v0 v v1 : Nat) => (⟨st, p, pathLen p, v0, v, v1, a, 0, 0⟩ : Seg)
  let still := fun (st : BeamSt) (x y : Int) (d : Nat) => (⟨st, .point x y, 0, 0, 0, 0, a, 0, d⟩ : Seg)
  let hold : List Seg := if bg.owed then [⟨.move, if bg.field then .field bg.fx bg.fy bg.fx bg.fy else .point bg.x bg.y, 0, 0, 0, 0, a, 0, settle⟩] else []
  let moves := if gx = bg.x && gy = bg.y && !bg.field then []
    else if bg.field then let (hx, hy) := toField gx gy; hold ++ [mk .move (.field bg.fx bg.fy hx hy) 0 vj 0]
    else hold ++ [mk .move (.line bg.x bg.y gx gy) 0 vj 0]
  if s.type = slugJump then (if moves = [] then [still .move gx gy 0] else moves)
  else
    let settles := [still .settle gx gy settle]
    match bg.cont with
    | some v0 => [mk .mark path v0 vm 0]
    | none =>
      if s.type = slugDwell then
        moves ++ settles ++ [still .dwell px py ((match w.restart with | some q => q.dur | none => s.dur) * 65536)]
      else if sky then
        moves ++ settles ++ [mk .runup (.line rx ry px py) 0 vm vm, mk .mark path vm vm vm,
          mk .runout (.line qx qy (qx + divR (ex * run) q60) (qy + divR (ey * run) q60)) vm vm 0]
      else moves ++ settles ++ [mk .mark path 0 vm 0]

/-- The interval in which the setpoint is on the emission's path (R315). -/
def emitOf (s : Slug) (segs : List Seg) : Option (Nat × Nat) :=
  if slugEmits s then (segs.find? (fun g => g.st = .mark || g.st = .dwell)).map (fun g => (g.t0, g.t1)) else none

/-! ### Registration (R303 to R308) -/

/-- Field of the REGISTRATION section (R304). -/
def regS (sec : List Byte) (off : Nat) : Int := rdLeS sec off 4

/-- A grid value at a bed point in 2^-16 nm, as 2^-16 nm (R306). Table 0 is X, 1 is Y, 2 is F. -/
def gridAt (sec : List Byte) (table : Nat) (x y : Int) : Int :=
  let nx := rdLe sec 16 2
  let ny := rdLe sec 18 2
  let px : Int := rdLe sec 8 4
  let py : Int := rdLe sec 12 4
  let ux := x - regS sec 0 * 65536
  let uy := y - regS sec 4 * 65536
  let i := (clampI 0 (nx - 2 : Int) (divF ux (px * 65536))).toNat
  let j := (clampI 0 (ny - 2 : Int) (divF uy (py * 65536))).toNat
  let fu := divR ((ux - i * px * 65536) * 256) px
  let fv := divR ((uy - j * py * 65536) * 256) py
  let nd := fun (i j : Nat) => regS sec (64 + 4 * nx * ny * table + 4 * (j * nx + i))
  let top := nd i j * 16777216 + fu * (nd (i + 1) j - nd i j)
  let bot := nd i (j + 1) * 16777216 + fu * (nd (i + 1) (j + 1) - nd i (j + 1))
  divR (top * 16777216 + fv * (bot - top)) 4294967296

/-- The fine offset (R308). -/
def fineOffset (sec : List Byte) (fine : List Word) (x y : Int) : Int × Int :=
  let f := fun i => (fine.getD i 0).toInt
  let dx := x - regS sec 48 * 65536
  let dy := y - regS sec 52 * 65536
  (x + f 0 * 65536 + divR (f 3 * dx - f 2 * dy) 1000000000, y + f 1 * 65536 + divR (f 3 * dy + f 2 * dx) 1000000000)

/-- Field setpoints X and Y of a bed point, in 2^-16 nm (R303, R307); `temp` in m°C. -/
def regXY (sec : List Byte) (fine : List Word) (temp : Int) (x y : Int) : Int × Int :=
  let (x', y') := fineOffset sec fine x y
  let xg := gridAt sec 0 x' y'
  let yg := gridAt sec 1 x' y'
  let dT := temp - regS sec 20
  (xg + divR (dT * (regS sec 24 * 65536 * 1000000000 + regS sec 32 * xg - regS sec 40 * yg)) 1000000000000,
   yg + divR (dT * (regS sec 28 * 65536 * 1000000000 + regS sec 36 * yg + regS sec 40 * xg)) 1000000000000)

/-- Field setpoint F of a bed point, nm (R303, R307) (DEDUCED, log row 66). -/
def regF (sec : List Byte) (fine : List Word) (temp focus : Int) (x y : Int) : Int :=
  let (x', y') := fineOffset sec fine x y
  divR (focus * 65536 * 1000 + gridAt sec 2 x' y' * 1000 + (temp - regS sec 20) * regS sec 44 * 65536) 65536000

/-! ### What a plan gives at a time -/

/-- The segment in force at a time. -/
def Plan.segAt (p : Plan) (t : Nat) : Option Seg :=
  match p.segs.find? (fun g => decide (t < g.t1)) with
  | some g => some g
  | none => p.segs.getLast?

/-- The path point, and whether it is in field coordinates (DEDUCED, log row 66). -/
def Plan.point (p : Plan) (t : Nat) : Option (Bool × Int × Int) :=
  (p.segAt t).map (fun g =>
    let (x, y) := pathAt g.path g.len (if t < g.t0 then 0 else g.at_ t)
    (match g.path with | .field .. => true | _ => false, x, y))

/-- Speed along the path. -/
def Plan.speed (p : Plan) (t : Nat) : Nat := match p.segAt t with | some g => g.speed t | none => 0

/-- Unit tangent at a time. -/
def Plan.tangent (p : Plan) (t : Nat) : Int × Int :=
  match p.segAt t with | some g => pathTangent g.path g.len (if t < g.t0 then 0 else g.at_ t) | none => (q60, 0)

/-- Spot time of the first gate-on edge, and the emission's duration (R300, R301); removed edges count at their ideal times. -/
def Plan.light (p : Plan) : Nat × Nat :=
  let on := p.on.getD p.idealOn
  let off := p.off.getD p.idealOff
  (on - p.tim 0, off - on)

/-- The envelope of the wobble at a time, 60 fraction bits: 0 outside the emission (R301) (DEDUCED, log row 63). -/
def Plan.envelope (p : Plan) (t : Nat) : Int :=
  let (t0, d) := p.light
  if p.wobShape = 0 || p.wobFreq = 0 || p.emit.isNone || t < t0 || t0 + d < t then 0
  else
    let u := t - t0
    let tr := min (1000000000 * 65536 / p.wobFreq) (d / 4)
    let edge := min u (d - u)
    if tr = 0 || tr ≤ edge then q60 else (edge : Int) * q60 / tr

/-- Unit tangent of the emission's path at a time: at its first point before it, at its last point after it (R300). -/
def Plan.emitTangent (p : Plan) (t : Nat) : Int × Int :=
  match p.markSeg with | some g => pathTangent g.path g.len (if t < g.t0 then 0 else g.at_ t) | none => p.tangent t

/-- The wobble offset at a time with an envelope and a tangent, 2^-16 nm (R300 to R302). -/
def Plan.wobbleWith (p : Plan) (e : Int) (tan : Int × Int) (t : Nat) : Int × Int :=
  if e = 0 then (0, 0)
  else
    let u := t - p.light.1
    let phi : Int := 2 * piQ * p.wobFreq * u / (65536 * 1000000000)
    let (tx, ty) := tan
    let nx := -ty
    let ny := tx
    let (ct, cn) :=
      if p.wobShape = 1 then (sinQ phi, cosQ phi - q60)
      else if p.wobShape = 2 then (sinQ (2 * phi) / 2, sinQ phi)
      else (0, sinQ phi)
    let k := fun (c : Int) (w : Int) => mulQ (mulQ e c) w
    (divR ((k ct tx + k cn nx) * p.wobAmp) q60, divR ((k ct ty + k cn ny) * p.wobAmp) q60)

/-- The wobble offset at a time (R300 to R302) (DEDUCED, log row 63). -/
def Plan.wobble (p : Plan) (t : Nat) : Int × Int := p.wobbleWith (p.envelope t) (p.emitTangent t) t

/-- Power request at spot time τ with look-ahead scale σ (R323), a power code. -/
def Plan.request (p : Plan) (rampFloor sigma tau : Nat) : Nat :=
  match p.emit with
  | none => 0
  | some (t0, t1) =>
    let tc := max t0 (min t1 tau)
    let v := p.speed tc
    let (rn, rd) :=
      if p.isDwell || p.skywrite || p.vm = 0 || v = p.vm then (1, 1)
      else if rampFloor * p.vm ≤ v * 65535 then (v, p.vm) else (rampFloor, 65535)
    min 65535 (divR ((p.power * sigma * p.kappa.toNat * p.rho * rn : Nat) : Int) ((65535 * 65535 * 281474976710656 * rd : Nat) : Int)).toNat

end Sys2Proof.Machine
end

