-- ==== Sys2Proof/Machine/ImpBase.lean ====
section
/-!
DEFINITION. The imposition record ring (R270 to R275), slug states, predictions (R239 to R242), and the operations on work that
choices, ends, pauses and retirement share.
-/

namespace Sys2Proof.Machine

/-! ### The record ring -/

/-- Layer address of the first ring entry (R270, R283). -/
def impRing (m : Mach) : Nat := (region m 2).1 + 0x2000000

/-- The 64 bytes of an entry (R271). -/
def entBytes (e : ImpEnt) (seq : Nat) : List Byte :=
  let b := [BitVec.ofNat 8 e.type, BitVec.ofNat 8 e.beam] ++ leBytes 2 e.flags ++ leBytes 4 e.forme ++ leBytes 4 e.index ++
    [BitVec.ofNat 8 e.src, BitVec.ofNat 8 e.cause] ++ leBytes 2 0 ++ leBytes 8 e.start ++ leBytes 8 e.end_ ++
    leBytes 4 (BitVec.ofInt 32 e.a).toNat ++ leBytes 4 (BitVec.ofInt 32 e.b).toNat ++ leBytes 4 e.part ++ leBytes 4 e.layer ++
    leBytes 4 seq ++ leBytes 4 e.onOff ++ leBytes 4 0
  b ++ leBytes 4 (crc32 b).toNat

/-- Whether an entry may use the reserve (R275). -/
def ImpEnt.reserved (e : ImpEnt) : Bool := e.type ≠ 6 && e.type ≠ 7

/-- An entry that may use the reserve waits for a free entry: no choice and no scan proceeds (R275). -/
def impBlocked (m : Mach) : Bool := m.imp.deferred.any ImpEnt.reserved

/-- Beams with a current slug. -/
def anyCurrent (m : Mach) : Bool := allBeams.any (fun b => m.imp.beams[b].cur.isSome)

/-! ### Slug states and predictions -/

/-- Key of a slug in the working area. -/
def slugKey (src i : Nat) : Nat := src * 134217728 + i

/-- A slug's state (R270) (DEDUCED, log row 58). -/
def slugState (m : Mach) (src i : Nat) : SlugState := look (fun _ => .untaken) m.imp.slugs (slugKey src i)

/-- A slug's new state (DEDUCED, log row 58). -/
def setSlug (src i : Nat) (st : SlugState) (m : Mach) : Mach :=
  onImpAll (fun x => { x with slugs := put (fun _ => .untaken) x.slugs (slugKey src i) st }) m

/-- Where a pool slug restarts when it is a remainder (R255). -/
def remainderOf (m : Mach) (src i : Nat) : Option Restart := (m.imp.remainders.find? (fun r => decide (r.1 = slugKey src i))).map (·.2)

/-- T_OVH, 2^-16 ns. -/
def tOvh (m : Mach) : Nat := (recWord m recImp 4).toNat * 65536

/-- Field polygon of a head, from the MACHINE section (R230). -/
def fieldPoly (m : Mach) (h : Nat) : List (Int × Int) :=
  let s := secBytes m 2 0xFFFF
  let o := 64 + 136 * h
  tab (rdLe s o 1) (fun i => (rdLeS s (o + 8 + 8 * i) 4, rdLeS s (o + 12 + 8 * i) 4))

/-- Number of zones. -/
def zoneCount (m : Mach) : Nat := rdLe (secBytes m 2 0xFFFF) 24 1

/-- Zone polygon (R230). -/
def zonePoly (m : Mach) (z : Nat) : List (Int × Int) :=
  let s := secBytes m 2 0xFFFF
  let o := 1696 + 144 * z
  tab (rdLe s o 1) (fun i => (rdLeS s (o + 16 + 8 * i) 4, rdLeS s (o + 20 + 8 * i) 4))

/-- BEAMS of a zone. -/
def zoneBeams (m : Mach) (z : Nat) : Nat := rdLe (secBytes m 2 0xFFFF) (1696 + 144 * z + 2) 2

/-- Field reference point of a beam: the mean of the vertices, to the nearest nanometre (R240). -/
def fieldRef (m : Mach) (h : Nat) : Int × Int :=
  let p := fieldPoly m h
  (divR (p.foldl (fun a v => a + v.1) 0) p.length, divR (p.foldl (fun a v => a + v.2) 0) p.length)

/-- Gas-flow unit vector in Q2.30 (R232). -/
def gasUnit (m : Mach) : Int × Int :=
  let s := secBytes m 2 0xFFFF
  let (x, y) := unitQ (rdLeS s 16 4) (rdLeS s 20 4)
  (divR x 1073741824, divR y 1073741824)

/-- Move term from a point to the slug's start (R239). -/
def moveTerm (s : Slug) (set : List Byte) (from_ : Int × Int) (r : Option Restart) : Nat :=
  moveTime (dist16 from_ (slugFrom s r)) (psJump set) (psAcc set)

/-- Term of slug i of galley b, its move taken from the slug before it (R240). -/
def galleyTerm (m : Mach) (forme b i : Nat) : Nat :=
  let s := slugAt m forme (0x80 + b) i
  let set := formeSet m forme s.pset
  let from_ := if i = 0 then fieldRef m b else slugEnd (slugAt m forme (0x80 + b) (i - 1))
  tOvh m + moveTerm s set from_ none + pathTime s set none

/-- Term of a pool slug (R240). -/
def poolTerm (m : Mach) (forme z i : Nat) (r : Option Restart) : Nat :=
  let s := slugAt m forme z i
  tOvh m + pathTime s (formeSet m forme s.pset) r

/-- G of every galley and U of every pool of a forme (R240). -/
def formeWork (m : Mach) (forme : Nat) : List Nat × List Nat :=
  (tab 12 (fun b => (List.range (srcCount m forme (0x80 + b))).foldl (fun a i => a + galleyTerm m forme b i) 0),
   tab 64 (fun z => (List.range (srcCount m forme z)).foldl (fun a i => a + poolTerm m forme z i none) 0))

/-- A prediction divided by κ (R239). -/
def byKappa (m : Mach) (t : Nat) : Nat := t * 65535 / kappaNow m

/-- Predicted duration of a slug taken at a point (R239). -/
def predict (m : Mach) (w : Work) (from_ : Int × Int) : Nat :=
  let s := workSlug m w
  let set := formeSet m ((activeAddr m).getD 0) s.pset
  byKappa m (tOvh m + moveTerm s set from_ w.restart + pathTime s set w.restart)

/-- Remaining work of a rescue pool (R258). -/
def rescueWork (m : Mach) (r : Fin 12) : Nat :=
  ((m.imp.rescue[r]).filter (fun e => !e.taken)).foldl (fun a e => a + poolTerm m ((activeAddr m).getD 0) e.src e.index e.restart) 0

/-- Load of a beam (R241). -/
def loadOf (m : Mach) (b : Fin 12) : Nat :=
  let x := m.imp.beams[b]
  (if x.cur.isSome then x.curPred - (nowQ m - x.curStart * 65536) else 0) + x.nextPred + byKappa m x.g

/-- Effective weight code (R241). -/
def weightOf (m : Mach) (b : Fin 12) : Nat := min (recFld m recImpWeight b.val 15 0) m.imp.beams[b].margin.toNat

/-- Water level of work U over eligible beams given as (weight, load), sorted by load (R242). -/
def levelGo (u : Nat) : Nat → Nat → List (Nat × Nat) → Nat
  | _, _, [] => 0
  | w, s, (wk, lk) :: t =>
    let w' := w + wk
    let s' := s + wk * lk
    let lam := if w' = 0 then 0 else (u * 65535 + s') / w'
    match t with
    | [] => lam
    | (_, ln) :: _ => if lam ≤ ln then lam else levelGo u w' s' t

/-- A list sorted by an insertion on a key. -/
def sortOn {α : Type} (key : α → Nat) (l : List α) : List α :=
  l.foldl (fun acc x => acc.takeWhile (fun y => decide (key y ≤ key x)) ++ [x] ++ acc.dropWhile (fun y => decide (key y ≤ key x))) []

/-- Water level of a pool (R242). -/
def level (m : Mach) (u : Nat) (e : List (Fin 12)) : Nat :=
  levelGo u 0 0 (sortOn (·.2) (e.map (fun b => (weightOf m b, loadOf m b))))

/-- Live beams. -/
def liveBeams (m : Mach) : List (Fin 12) := allBeams.filter (beamLive m)

/-- BEAMS of a shared pool. -/
def poolBeams (m : Mach) (z : Nat) : Nat := memLe m ((activeAddr m).getD 0 + 640 + 32 * z + 8) 2

/-! ### Work goes back and comes -/

/-- A slug is taken by a beam: its state, and its term leaves its source (R240) (DEDUCED, log row 58). -/
def takeWork (b : Fin 12) (w : Work) (m : Mach) : Mach :=
  let fa := (activeAddr m).getD 0
  match w.rescue with
  | some r => onImpAll (fun x => { x with rescue := x.rescue.set (r % 12) ((x.rescue[r % 12]'(Nat.mod_lt _ (by decide))).map (fun e => if e.src = w.src && e.index = w.index then { e with taken := true } else e)) (Nat.mod_lt _ (by decide)) }) (setSlug w.src w.index .taken m)
  | none =>
    let m1 := setSlug w.src w.index .taken m
    if 0x80 ≤ w.src then onImp b (fun x => { x with g := x.g - galleyTerm m fa b.val w.index, galleyAt := w.index + 1 }) m1
    else onImpAll (fun x => { x with u := x.u.modify w.src (fun u => u - poolTerm m fa w.src w.index w.restart) }) m1

/-- A slug returns untaken to its source (R240, R250, R255). A pool slug that returns as a remainder keeps its restart point
(DEDUCED, log row 58). -/
def returnWork (b : Fin 12) (w : Work) (m : Mach) : Mach :=
  let fa := (activeAddr m).getD 0
  match w.rescue with
  | some r => onImpAll (fun x => { x with rescue := x.rescue.set (r % 12) ((x.rescue[r % 12]'(Nat.mod_lt _ (by decide))).map (fun e => if e.src = w.src && e.index = w.index then { e with taken := false, restart := w.restart } else e)) (Nat.mod_lt _ (by decide)) }) (setSlug w.src w.index .untaken m)
  | none =>
    let m1 := setSlug w.src w.index .untaken m
    if 0x80 ≤ w.src then onImp b (fun x => { x with g := x.g + galleyTerm m fa b.val w.index, galleyAt := min x.galleyAt w.index }) m1
    else onImpAll (fun x => { x with
      u := x.u.modify w.src (fun u => u + poolTerm m fa w.src w.index w.restart),
      remainders := x.remainders.filter (fun e => e.1 ≠ slugKey w.src w.index) ++ (match w.restart with | some r => [(slugKey w.src w.index, r)] | none => []) }) m1

/-- Placed edges of a plan that have not been issued before: added to the beam's edges in time order. -/
def addEdges (es : List (Nat × Bool)) (l : List (Nat × Bool)) : List (Nat × Bool) := sortOn (·.1) (l ++ es)

/-- The current plan runs into the next slug, or comes to rest again: its gate-off edge goes or comes back (R295, R320, R321)
(DEDUCED, log row 61). -/
def joinCurrent (into motion : Bool) (b : Fin 12) (m : Mach) : Mach :=
  match m.beams[b].plan with
  | none => m
  | some p =>
    let q := if motion then intoNext into p else { p with contInto := into }
    let off := if into then none else if p.emit.isSome then some (placeEdge q.idealOff) else none
    let q1 := { q with off := off }
    let q2 := { q1 with finish := q1.ends }
    let drop := m.beams[b].edges.filter (fun e => !(match p.off with | some o => e = (o, false) | none => false))
    onBeam b (fun x => { x with plan := some q2, edges := addEdges ((off.map (fun o => (o, false))).toList) drop,
                                lastOff := match off with | some o => some o | none => x.lastOff }) m

/-- The reserved next slug of a beam is released (R250). -/
def releaseNext (b : Fin 12) (m : Mach) : Mach :=
  match m.imp.beams[b].next with
  | none => m
  | some w =>
    let m1 := returnWork b w (onImp b (fun x => { x with next := none, nextPred := 0 }) m)
    match m.beams[b].plan with
    | some p => if p.contInto then joinCurrent false true b m1 else m1
    | none => m1

/-- PAUSE in EXPOSING, and the pause of RECORD_FULL: no further slug is handed out, reservations are released; the job is
PAUSED once no beam has a current slug (R25, R219, R250). -/
def pauseSettle (m : Mach) : Mach :=
  match m.job.pausing with
  | none => m
  | some c =>
    if m.job.st = .exposing && !anyCurrent m then
      jobMove .paused c (onJob (fun j => { j with pausing := none, toExposing := true }) m)
    else m

/-- A beam waits no longer: its time in WAIT is counted (R285). -/
def ImpBeam.waitOver (t : Nat) (x : ImpBeam) : ImpBeam :=
  match x.wait with
  | some w => { x with wait := none, waitUs := x.waitUs + BitVec.ofNat 32 ((t - w.since) / 1000) }
  | none => x

/-- The start of that pause [R333]. -/
def pauseExposing (c : BitVec 9) (m : Mach) : Mach :=
  let m1 := eachM allBeams releaseNext (onImpAll (fun x => { x with running := false }) m)
  pauseSettle (eachM allBeams (fun b => onImp b (ImpBeam.waitOver (now m)))
    (onJob (fun j => { j with pausing := some (c ||| j.pausing.getD 0) }) m1))

/-! ### Writing entries -/

/-- The job pauses for RECORD_FULL; once LAYER_END is due, the pause waits for what follows the layer (R25, R27, R275). -/
def pauseRecord (m : Mach) : Mach :=
  if m.imp.layerOpen then pauseExposing causeRecordFull m
  else onJob (fun j => { j with pausing := some (causeRecordFull ||| j.pausing.getD 0) }) m

/-- Crossing of the thresholds of R275 after an entry has been written. -/
def impCross (before : Nat) (m : Mach) : Mach :=
  let m1 := impLevels before (impReserve m) m
  whenM (decide (impReserve m ≤ before) && impFull m1 && decide (m1.job.st = .exposing)) pauseRecord m1

/-- An entry goes into the ring: bytes, WR, SEQ (R271, R275). -/
def impStore (e : ImpEnt) (m : Mach) : Mach :=
  let before := impFree m
  let wr := m.imp.recWr.toNat
  let m1 := memWrite (impRing m + 64 * wr) (entBytes e m.imp.recSeq.toNat) m
  let next := if wr + 1 < impCap m then wr + 1 else 0
  impCross before (onImpAll (fun x => { x with recWr := BitVec.ofNat 32 next, recSeq := x.recSeq + 1, recCount := x.recCount + 1 }) m1)

/-- Whether an entry may be written now (R275). -/
def impMay (m : Mach) (e : ImpEnt) : Bool := if e.reserved then decide (0 < impFree m) else decide (impReserve m < impFree m)

/-- The oldest entry that waits and may be written now is written (R274, R275). -/
def impWaiter (m : Mach) : Mach :=
  match m.imp.deferred.find? (impMay m) with
  | some e => impStore e (onImpAll (fun x => { x with deferred := x.deferred.erase e }) m)
  | none => m

/-- Every entry that waited and may be written now is written, in order (R274, R275). -/
def impWaiters (m : Mach) : Mach := eachM m.imp.deferred (fun _ => impWaiter) m

/-- The layer in hand is one of PROOF: in PROOF, and in the SAFE_HOLD entered from it (R226, R273) (DEDUCED, log row 57). -/
def proofLayer (m : Mach) : Bool := m.g.dev = .proof || (m.g.dev = .safeHold && m.g.heldBefore = .proof)

/-- An entry is written, or waits behind those of its kind; entries that waited go first (R274, R275). PROOF marks every entry of a layer
exposed in PROOF (R226, R273) (DEDUCED, log row 57). -/
def impPut (e0 : ImpEnt) (m0 : Mach) : Mach :=
  let m := impWaiters m0
  let e := { e0 with flags := e0.flags ||| b2n (proofLayer m) }
  if impMay m e && !m.imp.deferred.any (fun d => d.reserved = e.reserved) then impStore e m
  else onImpAll (fun x => { x with deferred := x.deferred ++ [e] }) m

/-- Fields of an entry that name the ACTIVE forme (DEDUCED, log row 57). -/
def formeEnt (m : Mach) (e : ImpEnt) : ImpEnt := { e with forme := (activeId m).toNat, layer := jobLayer m }

/-- A run of consecutive slugs is held with one cause (R251, R257, R259, R272). -/
def holdRun (src i n cause : Nat) (m : Mach) : Mach :=
  if n = 0 then m
  else
    let m1 := eachM (List.range n) (fun k => setSlug src (i + k) .held) m
    let first := decide (m.imp.held = 0)
    let m2 := onImpAll (fun x => { x with held := x.held + BitVec.ofNat 32 n, incomplete := true }) m1
    impPut (formeEnt m { type := 6, index := i, src := src, cause := cause, start := now m, a := n }) (whenM first (raise .imp 2) m2)

/-- Consecutive indices grouped into runs: first index and length. -/
def runsOf : List Nat → List (Nat × Nat)
  | [] => []
  | i :: t =>
    match runsOf t with
    | (j, n) :: r => if j = i + 1 then (i, n + 1) :: r else (i, 1) :: (j, n) :: r
    | [] => [(i, 1)]

/-- Slugs of one source held with one cause, run by run. -/
def holdAll (src cause : Nat) (is : List Nat) (m : Mach) : Mach := eachM (runsOf is) (fun (i, n) => holdRun src i n cause) m

/-- The SLUG entry of the beam's current or interrupted slug (R272, R273). -/
def slugEntry (m : Mach) (b : Fin 12) (w : Work) (end_ : Nat) (stop : Option (Int × Int)) : ImpEnt :=
  let x := m.imp.beams[b]
  let s := workSlug m w
  let (a, c) := match stop, w.restart with
    | some p, _ => p
    | none, some r => (r.x, r.y)
    | none, none => if w.resumed then (s.x0, s.y0) else (0, 0)
  formeEnt m { type := 1, beam := b.val, index := w.index, src := w.src, start := x.curStart, end_ := end_, a := a, b := c,
               part := s.part, onOff := match x.curOn with | some t => (t - x.curStart) % 4294967296 | none => 0xFFFFFFFF,
               flags := flag 2 stop.isSome + flag 3 w.resumed + flag 4 w.remainder + flag 5 w.rescue.isSome + flag 6 w.waited }

end Sys2Proof.Machine
end

