-- ==== Sys2Proof/Machine/BeamBase.lean ====
section
/-!
DEFINITION. Beam engine operations that stops, retirement and slug starts share: setpoints at a time, the stop in mid-slug
(R328 to R331), parking, and taking up a slug (R245, R290 to R302, R335).
-/

namespace Sys2Proof.Machine

/-- Slug running of a beam engine: MOVE, SETTLE, RUNUP, MARK, RUNOUT or DWELL. -/
def BeamSt.runs (s : BeamSt) : Bool := s = .move || s = .settle || s = .runup || s = .mark || s = .runout || s = .dwell

/-- The REGISTRATION section of a beam's head. -/
def regSec (m : Mach) (b : Fin 12) : List Byte := secBytes m 3 b.val

/-- LAG, 2^-16 ns. -/
def lagOf (m : Mach) (b : Fin 12) : Nat := (recWord m (recBeamTiming b.val) 0).toNat * 65536

/-- Distance and fraction left of a deceleration at a time (R331). -/
def Decel.gone (d : Decel) (t : Nat) : Nat × Nat :=
  let u := t - d.t0
  let full := rampTime d.a d.v 0
  let v := min u full
  (min d.len (d.s0 + rampAt d.a d.v 0 v), full - v)

/-- Bed setpoint of a deceleration at a time: the path point, and the wobble with its envelope falling to 0 (R331). -/
def Decel.bed (d : Decel) (t : Nat) : Int × Int :=
  let (s, left) := d.gone t
  let full := rampTime d.a d.v 0
  let (px, py) := pathAt d.path d.len s
  let (wx, wy) := d.plan.wobbleWith (if full = 0 then 0 else divR (d.env * left) full) (pathTangent d.path d.len s) t
  (px + wx, py + wy)

/-- The bed point of the setpoint at a time, without wobble; a field-coordinate move gives the point it starts from. -/
def bedPoint (m : Mach) (b : Fin 12) (t : Nat) : Int × Int :=
  let x := m.beams[b]
  match x.stopping, x.plan with
  | some d, _ => match d.path with | .field .. => (x.bedX, x.bedY) | _ => pathAt d.path d.len (d.gone t).1
  | none, some p => match p.point t with | some (false, q) => q | _ => (x.bedX, x.bedY)
  | none, none => (x.bedX, x.bedY)

/-- A point in 2^-16 nm to the nearest nanometre. -/
def toNm (p : Int × Int) : Int × Int := (divR p.1 65536, divR p.2 65536)

/-- Bed or field point of a plan's setpoint at a time, with wobble, and whether it is in field coordinates. -/
def planAim (m : Mach) (b : Fin 12) (p : Plan) (t : Nat) : Bool × Int × Int :=
  match p.point t with
  | some (f, px, py) => let (wx, wy) := p.wobble t; (f, px + wx, py + wy)
  | none => (false, m.beams[b].bedX, m.beams[b].bedY)

/-- Field setpoints X and Y of a plan at a time, nm (R303). -/
def planXY (m : Mach) (b : Fin 12) (p : Plan) (t : Nat) : Int × Int :=
  let (f, px, py) := planAim m b p t
  toNm (if f then (px, py) else regXY (regSec m b) p.fine p.temp px py)

/-- Field setpoint F of a plan at a time, nm; during a move in field coordinates that of the point it leads to (R303, R311)
(DEDUCED, log row 66). -/
def planF (m : Mach) (b : Fin 12) (p : Plan) (t : Nat) : Int :=
  let (f, qx, qy) := planAim m b p t
  let (gx, gy) := if f then (match p.segs.find? (fun g => match g.path with | .field .. => false | _ => true) with
    | some g => pathAt g.path g.len 0 | none => (m.beams[b].bedX, m.beams[b].bedY)) else (qx, qy)
  regF (regSec m b) p.fine p.temp (psFocus p.set) gx gy

/-- Field setpoints X and Y at a time and F at `tf`, nm, each to the nearest, with the plan that serves a time (R303, R313, R331). -/
def setpointsOf (m : Mach) (b : Fin 12) (plan : Nat → Option Plan) (t tf : Nat) : Int × Int × Int :=
  let x := m.beams[b]
  match x.stopping with
  | some d =>
    let (sx, sy) := match d.path with
      | .field .. => toNm (pathAt d.path d.len (d.gone t).1)
      | _ => toNm (regXY (regSec m b) d.plan.fine d.plan.temp (d.bed t).1 (d.bed t).2)
    (sx, sy, x.restF)
  | none =>
    let (sx, sy) := match plan t with | some p => planXY m b p t | none => (x.restX, x.restY)
    (sx, sy, match plan tf with | some p => planF m b p tf | none => x.restF)

/-- The setpoints from the current plan alone (DEDUCED, log row 66). -/
def setpoints (m : Mach) (b : Fin 12) (t tf : Nat) : Int × Int × Int := setpointsOf m b (fun _ => m.beams[b].plan) t tf

/-- The setpoints at a time, as those at which a beam that comes to rest then stays; F leads by F_LEAD (R313, R331). -/
def restAt (b : Fin 12) (t : Nat) (m : Mach) : Mach :=
  let (sx, sy, f) := setpoints m b t (t + (recWord m (recBeamTiming b.val) 4).toNat * 65536)
  onBeam b (fun x => { x with restX := sx, restY := sy, restF := f }) m

/-- The LGATE pin: the commanded gate while PERMIT and LEN let it through (R17, R580). -/
def lgate (m : Mach) (b : Fin 12) : Bool := m.beams[b].gate && lenNow m b

/-- The intervals of the commanded gate after it takes level `v` at a time. -/
def gateLog (x : Beam) (v : Bool) (t : Nat) : List (Nat × Option Nat) :=
  let old := x.gates.filter (fun g => match g.2 with | some o => decide (t ≤ o + 131072000000) | none => true)
  if x.gate = v then x.gates
  else if v then (t, none) :: old
  else match x.gates with
    | (on, none) :: r => (on, some t) :: r
    | l => l

/-- The commanded gate put the light on through the whole of a device-time interval (R314): an on edge LON_DELAY before, no off edge
LOFF_DELAY before its end. -/
def litFrom (m : Mach) (b : Fin 12) (s e : Nat) : Bool :=
  let lon := (recWord m (recBeamTiming b.val) 1).toNat * 65536
  let loff := (recWord m (recBeamTiming b.val) 2).toNat * 65536
  m.beams[b].gates.any (fun (on, off) => decide (on + lon ≤ s) && match off with | some o => decide (e ≤ o + loff) | none => true)

/-- The commanded gate stood on at a device time in 2^-16 ns. -/
def gateAt (m : Mach) (b : Fin 12) (t : Nat) : Bool :=
  m.beams[b].gates.any (fun (on, off) => decide (on ≤ t) && match off with | some o => decide (t < o) | none => true)

/-- The commanded gate at a new level since `t`; a change at the pin is sent, with the fine delay of the edge's step (R316, R318). -/
def setGate (b : Fin 12) (v : Bool) (t tap : Nat) (m : Mach) : Mach :=
  let was := lgate m b
  let m1 := onBeam b (fun x => { x with gate := v, gates := gateLog x v t }) m
  let is := lgate m1 b
  whenM (was != is) (emit (.gate b.val is (t / tickQ * tickQ) tap)) m1

/-- Gate-off forced, issued edges cancelled, LPWR at code 0 (R328). -/
def gateForced (b : Fin 12) (m : Mach) : Mach :=
  let was := m.beams[b].gate
  onBeam b (fun x => { x with
    edges := [], cancelled := x.cancelled ++ x.edges, dac := 0, lpwr := 0, laAns := none,
    forcedAt := if was then some (x.forcedAt.getD (nowQ m)) else x.forcedAt,
    lastOff := match x.gates with | (_, o) :: _ => o | [] => none }) (setGate b false (nowQ m) 0 m)

/-- An edge of the beam neither waits nor was cancelled: it has fired. -/
def edgeFired (m : Mach) (b : Fin 12) (e : Nat × Bool) : Bool := !(e ∈ m.beams[b].edges) && !(e ∈ m.beams[b].cancelled)

/-- The gate-on of a plan's emission has fired, or was carried over from the slug before. -/
def onFired (m : Mach) (b : Fin 12) (p : Plan) : Bool :=
  p.emit.isSome && match p.on with | some t => edgeFired m b (t, true) | none => !(m.beams[b].edges ++ m.beams[b].cancelled).any (fun e => e.2)

/-- Its gate-off has fired. -/
def offFired (m : Mach) (b : Fin 12) (p : Plan) : Bool :=
  p.emit.isSome && match p.off with | some t => edgeFired m b (t, false) | none => false

/-- What is cut of a slug whose emission ends at `tOff`: the stop point in nm and the restart (R221, R329, R330). -/
def cutAt (m : Mach) (p : Plan) (tOff : Nat) : (Int × Int) × Restart :=
  let s := workSlug m p.work
  let lightOff := tOff + p.tim 2
  if p.isDwell then
    let q := slugFrom s p.work.restart
    let l := match p.work.restart with | some r => r.dur | none => s.dur
    let spent := min (l * 65536) (lightOff - (p.on.getD p.idealOn + p.tim 1))
    (q, ⟨0, divUp (l * 65536 - spent) 65536, q.1, q.2⟩)
  else
    let whole := slugPath s none
    let n := pathLen whole
    let before := (match p.work.restart with | some r => r.dist | none => 0) * 65536
    let tau := match p.emit with | some (t0, t1) => max t0 (min t1 (lightOff - p.tim 0)) | none => 0
    let g := match p.markSeg with | some g => g.at_ tau | none => 0
    let stop := min n (before + g)
    let back := stop - psBackstep p.set * 65536
    let (sx, sy) := pathAt whole n stop
    let (rx, ry) := if back = 0 then (s.x0 * 65536, s.y0 * 65536) else pathAt whole n back
    ((divR sx 65536, divR sy 65536), ⟨(back + 32768) / 65536, 0, divR rx 65536, divR ry 65536⟩)

/-- The plans that the spot may still follow at a device time, and what camera frames of the last 2 ms look back on. -/
def recentPlans (t : Nat) (ps : List Plan) : List Plan := ps.filter (fun p => decide (t ≤ p.finish + p.tim 0 + 131072000000))

/-- A beam's plans before the one that follows now. -/
def Beam.past (x : Beam) (t : Nat) : List Plan := recentPlans t (x.plan.toList ++ x.prev)

/-- The beam stops moving: the deceleration of R331. F keeps its value. -/
def decelerate (b : Fin 12) (m0 : Mach) : Mach :=
  let t := nowQ m0
  let m := restAt b t m0
  match m.beams[b].plan with
  | none => m0
  | some p =>
    match p.segAt t with
    | none => onBeam b (fun x => { x with st := .stopping, plan := none, prev := x.past t, cutT := t }) m
    | some g =>
      let d : Decel := ⟨g.path, g.len, if t < g.t0 then 0 else g.at_ t, g.speed t, p.a, t, p.envelope t, p⟩
      onBeam b (fun x => { x with st := .stopping, stopping := some d, plan := none, prev := x.past t, cutT := t }) m

/-- A slug's end is written to the record (R272). -/
def recordEnd (b : Fin 12) (m : Mach) : Mach :=
  match m.imp.beams[b].cur with
  | none => m
  | some w =>
    let e := slugEntry m b w (now m) none
    let m1 := impPut e m
    let m2 := setSlug w.src w.index .ended m1
    let m3 := onImpAll (fun x => { x with
      endedCount := x.endedCount + 1,
      remainders := x.remainders.filter (fun e => e.1 ≠ slugKey w.src w.index) }) m2
    onImp b (fun x => { x with cur := none, busyUs := x.busyUs + BitVec.ofNat 32 ((now m - x.curStart) / 1000) }) m3

/-- The current slug of a beam is at its end: its path run, its edges fired; at a carried-on gate its path run (R298). -/
def slugOver (m : Mach) (b : Fin 12) : Bool :=
  match m.imp.beams[b].cur, m.beams[b].plan with
  | some _, some p =>
    let s := m.beams[b].st
    (s = .mark || s = .runout || s = .dwell || s = .idle) &&
    (!p.emit.isSome || p.contInto || (onFired m b p && offFired m b p))
  | _, _ => false

/-- Where a beam's slug stands for a stop. -/
inductive CutKind where
  /-- no slug -/
  | none
  /-- its gate-off has fired: the slug counts as ended, or ends normally -/
  | ended
  /-- emission begun: stop point recorded -/
  | cut
  /-- no emission yet: the whole slug, or its restart, is kept -/
  | whole
  /-- a DWELL with POWER 0 that has begun: what is left of it is kept (R221) -/
  | spent
deriving DecidableEq, Repr

/-- Device time of the forced gate-off: the interlock's, where it came first (R329). -/
def stopTime (m : Mach) (b : Fin 12) : Nat := m.beams[b].forcedAt.getD (nowQ m)

/-- How a stop meets the beam's slug (R219, R221, R336). A planned gate-off in the CLK_EV tick of the forced one counts as fired; before the
mark or the dwell no stop point is recorded. -/
def cutKind (m : Mach) (b : Fin 12) : CutKind :=
  let st := m.beams[b].st
  match m.imp.beams[b].cur, m.beams[b].plan with
  | some _, some p =>
    if st = .move || st = .settle || st = .runup then .whole
    else if p.emit.isNone then (if p.isDwell then .spent else .whole)
    else if offFired m b p || (onFired m b p && match p.off with | some t => decide (t / tickQ ≤ stopTime m b / tickQ) | none => false) then .ended
    else if onFired m b p then .cut
    else .whole
  | some _, none => .whole
  | none, _ => .none

/-- What is left of a DWELL with POWER 0 (R221). -/
def dwellLeft (m : Mach) (p : Plan) (t : Nat) : Restart :=
  let s := workSlug m p.work
  let q := slugFrom s p.work.restart
  let l := match p.work.restart with | some r => r.dur | none => s.dur
  let spent := match p.markSeg with | some g => min (l * 65536) (t - g.t0) | none => 0
  ⟨0, divUp (l * 65536 - spent) 65536, q.1, q.2⟩

/-- The stop in mid-slug (R328 to R331). `ends` says that a beam past its gate-off finishes its run-out and ends normally, as for
STOP (R335). The interrupted slug stays with the beam. -/
def beamStop (ends : Bool) (b : Fin 12) (m0 : Mach) : Mach :=
  let m := releaseNext b m0
  if !m.beams[b].st.runs then gateForced b m
  else
    let tOff := stopTime m b
    match cutKind m b, m.imp.beams[b].cur, m.beams[b].plan with
    | .ended, some _, _ => if ends then m else decelerate b (gateForced b (recordEnd b m))
    | .cut, some w, some p =>
      let (sp, r) := cutAt m p tOff
      let m1 := impPut (slugEntry m b w (now m) (some sp)) m
      let m2 := onImp b (fun x => { x with cur := none, interrupted := some { w with restart := some r },
                                           busyUs := x.busyUs + BitVec.ofNat 32 ((now m - x.curStart) / 1000) }) m1
      decelerate b (gateForced b (onBeam b (fun x => { x with stopValid := true, stopX := BitVec.ofInt 32 sp.1, stopY := BitVec.ofInt 32 sp.2 }) m2))
    | .spent, some w, some p =>
      let m1 := onImp b (fun x => { x with cur := none, interrupted := some { w with restart := some (dwellLeft m p tOff) },
                                           busyUs := x.busyUs + BitVec.ofNat 32 ((now m - x.curStart) / 1000) }) m
      decelerate b (gateForced b m1)
    | _, some w, _ =>
      let m1 := onImp b (fun x => { x with cur := none, interrupted := some w, busyUs := x.busyUs + BitVec.ofNat 32 ((now m - x.curStart) / 1000) }) m
      decelerate b (gateForced b m1)
    | _, none, _ => decelerate b (gateForced b m)

/-- The engine enters PARKED (R335). -/
def beamPark (b : Fin 12) (m : Mach) : Mach :=
  if m.beams[b].st = .parked then m
  else raise (.beam b) 0 (onBeam b (fun x => { x with st := .parked, plan := none, prev := x.past (nowQ m), cutT := nowQ m, stopping := none, src := 0xFF }) m)

/-- SAFE_HOLD freezes the engine after the forced gate-off (R28, R335). -/
def beamFreeze (b : Fin 12) (m : Mach) : Mach := gateForced b m

/-! ### Taking up a slug -/

/-- The latest head temperature of a beam, m°C, if it is at most 1 s old (R309). -/
def headTemp (m : Mach) (b : Fin 12) : Option Int :=
  let s := sigGet m (16 * b.val + 6)
  if s.valid && now m ≤ s.t.toNat + 1000000000 then some s.v.toInt else none

/-- The head temperature is sampled for a slug (R309). -/
def sampleTemp (b : Fin 12) (m : Mach) : Mach :=
  match headTemp m b with
  | some t => onBeam b (fun x => { x with temp := t, driftStale := false }) m
  | none => if m.beams[b].driftStale then m else raise (.beam b) 6 (onBeam b (fun x => { x with driftStale := true }) m)

/-- The unedged plan of a piece of work from a beginning (R289 to R302). -/
def planOf (m : Mach) (b : Fin 12) (w : Work) (bg : Begin) : Plan × Bool × Bool :=
  let s := workSlug m w
  let set := (m.beams[b].psets).getD s.pset []
  let timing := recWords m (recBeamTiming b.val)
  let fine := recWords m (recBeamFine b.val)
  let lim := recWords m (recBeamLimits b.val)
  let kap := kappaNow m
  let (vm, rho) := markSpeed s set kap
  let vj := psJump set * kap * spdQ / 65535
  let mark := s.type = slugLine || s.type = slugArc
  let sky := psFlag set 3 && mark
  let temp := m.beams[b].temp
  let toField := fun x y => regXY (regSec m b) fine temp x y
  let segs := layOut bg.t (slugSegs s w bg vm vj (psAcc set) ((timing.getD 8 0).toNat * 65536) sky toField)
  let amp := wobAmpOf set (lim.getD 3 0).toNat
  let p : Plan := {
    work := w, pset := s.pset, forme := activeId m, segs := segs, vm := vm, vj := vj, a := psAcc set,
    kappa := BitVec.ofNat 16 kap, rho := rho, power := slugPower s set, temp := temp, emit := emitOf s segs, on := none, off := none,
    contFrom := bg.gateOn, contInto := false, isDwell := s.type = slugDwell, skywrite := sky, wobShape := psWobShape set,
    wobAmp := amp, wobFreq := psWobFreq set, timing := timing, fine := fine, set := set, start := bg.t, finish := bg.t,
    inserted := segs.any (fun g => g.st = .move) }
  (p, decide (amp ≠ psWobAmp set * 65536) && slugEmits s && psWobShape set ≠ 0, decide (rho ≠ 281474976710656))

/-- No gate-on earlier than LEN_SETTLE_US after LEN rose (R588): the slug is begun later by what is missing (DEDUCED, log row 65). -/
def lenWait (m : Mach) (b : Fin 12) (p : Plan) : Nat :=
  match p.emit with
  | some _ =>
    if bitOf m.ilk.len b.val && !p.contFrom then
      (m.ilk.lenRise[b] + (recWord m recIlkCfg 1).toNat * 65536000) - p.idealOn
    else 0
  | none => 0

/-- State in which a plan begins (R335). -/
def Plan.first (p : Plan) : BeamSt := match p.segs.head? with | some g => g.st | none => .idle

/-- Records whose take point is the start of a beam's slug, and the head temperature (R309, R339, R340). -/
def slugRecords (b : Fin 12) (m : Mach) : Mach :=
  sampleTemp b (takeRecord recHltSpeed (takeRecord (recBeamFine b.val) (takeRecord (recBeamTiming b.val) m)))

/-- The motion of a plan runs on into the next slug (R295). -/
def Plan.runsOn (p : Plan) : Bool := p.contInto && !p.skywrite && p.segs.any (fun g => g.st = .mark && g.v1 ≠ 0)

/-- Bed point that a plan leaves its setpoint at. -/
def Plan.bedEnd (m : Mach) (p : Plan) : Int × Int :=
  match p.segs.getLast? with
  | some g => (match g.path with
    | .field .. => let q := slugFrom (workSlug m p.work) p.work.restart; (q.1 * 65536, q.2 * 65536)
    | _ => pathAt g.path g.len g.len)
  | none => (0, 0)

/-- A beam takes up a slug: a section reload that waits for it (R168, R169), the records that it takes, the plan and its edges (R245, R339,
R340). `cont` is the previous plan at a continued junction (DEDUCED, log row 65). -/
def slugBegin (w : Work) (cont : Option Plan) (b : Fin 12) (m0 : Mach) : Mach :=
  let (fx, fy, _) := setpoints m0 b (nowQ m0) (nowQ m0)
  let m := slugRecords b (if cont.isNone then slugSwitch b m0 else m0)
  let t := nowQ m
  let x := m.beams[b]
  let (bx, by_) := bedPoint m b t
  let merged := match x.plan with | some p => p.contInto | none => false
  let bg : Begin := ⟨t, bx, by_, fx * 65536, fy * 65536, cont.map (fun p => p.vm), merged, x.switched, x.owed⟩
  let (p0, wob, arc) := planOf m b w bg
  let wait := lenWait m b p0
  let (p1, _, _) := if wait = 0 then (p0, wob, arc) else planOf m b w { bg with t := t + wait }
  let (p, short, moved) := withEdges x.lastOff p1
  let es := (p.on.map (fun o => (o, true))).toList ++ (p.off.map (fun o => (o, false))).toList
  let first := p.first
  let s := workSlug m w
  let m1 := onBeam b (fun x => { x with
    st := first, plan := some p, prev := x.past t, stopping := none, stopValid := false, edges := addEdges es x.edges, cancelled := [],
    forcedAt := none, owed := false, bedX := bx, bedY := by_, switched := x.switched && !p.inserted, kappa := p.kappa,
    lastOff := match p.off with | some o => some o | none => x.lastOff,
    shortMarks := if short then x.shortMarks + 1 else x.shortMarks, gapMoved := if moved then x.gapMoved + 1 else x.gapMoved,
    arcLimited := if arc then x.arcLimited + 1 else x.arcLimited, wobLimited := if wob then x.wobLimited + 1 else x.wobLimited,
    edgesOn := if p.on.isSome then x.edgesOn + 1 else x.edgesOn,
    src := BitVec.ofNat 8 w.src, index := BitVec.ofNat 32 w.index, pset := BitVec.ofNat 6 s.pset, forme := p.forme, awaiting := false }) m
  let m1 := whenM (p.contFrom && p.emit.isSome && m.beams[b].gate) (onMpl b (fun y => { y with lastSet := some (psMpSet p.set) })) m1
  let m2 := whenM wob (raise (.beam b) 4) (whenM arc (raise (.beam b) 3) (whenM (short || moved) (raise (.beam b) 2) m1))
  onImp b (fun y => { y.waitOver (now m) with
    cur := some w, interrupted := none, curStart := now m, curOn := p.on.map (· / 65536),
    curPred := predict m w (divR bx 65536, divR by_ 65536) }) m2

/-- Two slugs run on without coming to rest at their junction (R295). `p` is the current plan, `w` the reserved slug (DEDUCED, log row 61). -/
def continues (m : Mach) (b : Fin 12) (p : Plan) (w : Work) : Bool :=
  let s := workSlug m p.work
  let t := workSlug m w
  let set := (m.beams[b].psets).getD t.pset []
  let mark := fun (x : Slug) => x.type = slugLine || x.type = slugArc
  let ps := slugPath s p.work.restart
  let pt := slugPath t w.restart
  let (ax, ay) := pathTangent ps (pathLen ps) (pathLen ps)
  let (cx, cy) := pathTangent pt (pathLen pt) 0
  let tol := udegQ (recWord m (recBeamLimits b.val) 2).toNat
  mark s && mark t && !p.skywrite && !psFlag set 3 && !p.inserted && !m.beams[b].switched &&
  decide (slugEnd s = slugFrom t w.restart) && decide (cosQ tol ≤ mulQ ax cx + mulQ ay cy)

/-- A reservation made while the current slug runs joins it where the junction is continued or the gap is merged (R295, R320)
(DEDUCED, log row 61). -/
def joinNext (b : Fin 12) (m : Mach) : Mach :=
  match m.beams[b].plan, m.imp.beams[b].next, m.imp.beams[b].cur with
  | some p, some w, some _ =>
    if !p.emit.isSome || offFired m b p then m
    else if continues m b p w then joinCurrent true true b m
    else
      match (recWord m (recBeamTiming b.val) 7).getLsbD 0, p.off, p.segs.getLast? with
      | true, some o, some g =>
        let (ex, ey) := pathAt g.path g.len g.len
        let (q, _, _) := planOf m b w ⟨max p.finish (nowQ m), ex, ey, 0, 0, none, false, false, false⟩
        if q.emit.isSome && decide (placeEdge q.idealOn < o + p.tim 6) then
          raise (.beam b) 2 (joinCurrent true false b m)
        else m
      | _, _, _ => m
  | _, _, _ => m

/-- The plan of the reserved slug as it follows the current one (R312, R313) (DEDUCED, log row 66). -/
def planNext (m0 : Mach) (b : Fin 12) : Option Plan :=
  match m0.beams[b].plan, m0.imp.beams[b].next with
  | some p, some w =>
    let m := slugRecords b m0
    let (ex, ey) := p.bedEnd m
    let (fx, fy) := planXY m0 b p p.finish
    let jump := decide ((workSlug m p.work).type = slugJump)
    let bg : Begin := ⟨p.finish, ex, ey, fx * 65536, fy * 65536, if p.runsOn then some p.vm else none, p.contInto, m.beams[b].switched, jump⟩
    some (withEdges p.off (planOf m b w bg).1).1
  | _, _ => none

/-- The setpoints at a time, past the current slug's end those of the reserved one (R312, R313) (DEDUCED, log row 66). -/
def setpointsAhead (m : Mach) (b : Fin 12) (t tf : Nat) : Int × Int × Int :=
  setpointsOf m b (fun u => (m.beams[b].plan).map (fun p => if p.finish < u then (planNext m b).getD p else p)) t tf

end Sys2Proof.Machine
end

