-- ==== Sys2Proof/Machine/CellBase.lean ====
section
/-!
DEFINITION. Contexts of the loop cell array: descriptors, starts, stops and safe actions (R436 to R440), as safe hold,
retirement, returns and the cell commands share them.
-/

namespace Sys2Proof.Machine

/-- The descriptor of context k (R457). -/
def ctxOf (m : Mach) (k : Fin 256) : Option CtxDesc := ctxDesc? (cellSec m) k.val

/-- The program of context k. -/
def progOf (m : Mach) (d : CtxDesc) : List Sort_ := ctxProg (cellSec m) d

/-- The active bank of context k. -/
def bankOfCtx (m : Mach) (k : Fin 256) : List Word := recWords m (recCoef k.val)

/-- Defined contexts. -/
def ctxList (m : Mach) : List (Fin 256) := (List.finRange 256).filter (fun k => decide (k.val < ctxCount (cellSec m)))

/-- Owner class of a context (R439), 0 where it is not defined. -/
def ownerOf (m : Mach) (k : Fin 256) : Nat := match ctxOf m k with | some d => d.owner | none => 0

/-- Contexts of owner beam b, by class. -/
def beamCtx (m : Mach) (b : Fin 12) (classes : List Nat) : List (Fin 256) :=
  (ctxList m).filter (fun k => match ctxOf m k with | some d => d.owner ∈ classes && d.beam = b.val | none => false)

/-- A write of a melt-pool engine's CORR and its device time are kept for the guard (R366, R367). -/
def corrNote (n : Nat) (v : Int) (m : Mach) : Mach :=
  if 448 ≤ n ∧ n < 640 ∧ n % 16 = 6 then onMpl (Fin.ofNat 12 ((n - 448) / 16)) (fun x => { x with corrLog := ((now m, v) :: x.corrLog).take 8 }) m else m

/-- A context writes a signal (R416); a write to a head output makes that head's next frame due (R483). -/
def ctxWrite (k : Fin 256) (n : Nat) (v : Int) (t : Nat) (m : Mach) : Mach :=
  let m1 := corrNote n (BitVec.ofInt 32 v).toInt (sigPut n { v := BitVec.ofInt 32 v, t := BitVec.ofNat 64 t, valid := true, ctx := some (BitVec.ofNat 8 k.val) } m)
  if 768 ≤ n ∧ n < 1024 then onHead (Fin.ofNat 16 ((n - 768) / 16)) (fun h => { h with cmdDue := true }) m1 else m1

/-- A context takes its safe action (R438). -/
def safeAct (k : Fin 256) (m : Mach) : Mach :=
  match ctxOf m k with
  | none => m
  | some d =>
    if d.safeValue then
      let bank := bankOfCtx m k
      cmdFlush (eachM ((progOf m d).filter (fun s => s.op = 2)) (fun s => ctxWrite k s.sig (bank.getD s.k 0).toInt (now m)) m)
    else m

/-- A start of a context (R414, R420, R422, R461). -/
def ctxStart (k : Fin 256) (m : Mach) : Mach :=
  onCtx k (fun c => { c with
    st := .running, engaged := false, ovrRun := 0, data := {}, samples := 0, overruns := 0, inClamped := 0, limited := 0,
    lagMax := 0, clampRun := false, last := none, hard := false, byRetire := false, settle := none, traced := [] }) m

/-- FAST_EN falls with a MELT_FAST context (R439). -/
def fastFalls (k : Fin 256) (m : Mach) : Mach :=
  match ctxOf m k with
  | some d => if d.owner = 5 && decide (d.beam < 12) then onMpl (Fin.ofNat 12 d.beam) (fun x => { x with fastEn := false }) m else m
  | none => m

/-- A RUNNING context stops with its safe action (R437). -/
def ctxStop (byRetire : Bool) (k : Fin 256) (m : Mach) : Mach :=
  if m.cells.ctx[k].st = .running then
    fastFalls k (safeAct k (onCtx k (fun c => { c with st := .stopped, engaged := false, ovrRun := 0, settle := none, byRetire := byRetire }) m))
  else m

/-- Every context that R439 stops in SAFE_HOLD: all but CHAMBER. -/
def ctxSafeHold (m : Mach) : Mach := eachM ((ctxList m).filter (fun k => ownerOf m k ≠ 7)) (ctxStop false) m

/-- SCAN_X, SCAN_Y, FOCUS and LASER of a beam. -/
def scanClasses : List Nat := [1, 2, 3, 4]

/-- The beam's contexts are running and engaged, and it has SCAN_X, SCAN_Y and FOCUS (R264, R431, R503). -/
def ctxEngaged (m : Mach) (b : Fin 12) : Bool :=
  [1, 2, 3].all (fun c => !(beamCtx m b [c]).isEmpty) &&
  (beamCtx m b scanClasses).all (fun k => m.cells.ctx[k].st = .running && m.cells.ctx[k].engaged)

/-- As `ctxEngaged`, a context stopped by the beam's retirement counting too (R264). -/
def ctxReturnable (m : Mach) (b : Fin 12) : Bool :=
  [1, 2, 3].all (fun c => !(beamCtx m b [c]).isEmpty) &&
  (beamCtx m b scanClasses).all (fun k => (m.cells.ctx[k].st = .running && m.cells.ctx[k].engaged) || (m.cells.ctx[k].st = .stopped && m.cells.ctx[k].byRetire))

/-- Contexts of a beam that its retirement stopped start again (R266, R437, R440) (DEDUCED, log row 96). -/
def ctxRestartBeam (b : Fin 12) (m : Mach) : Mach :=
  eachM ((beamCtx m b [1, 2, 3, 4, 5, 6]).filter (fun k => m.cells.ctx[k].st = .stopped && m.cells.ctx[k].byRetire)) ctxStart m

/-! ### Cells, spares and the start of a substitution (R443, R444) -/

/-- The array's own state changed. -/
def onCells (f : Cells → Cells) (m : Mach) : Mach := { m with cells := f m.cells }

/-- The contexts a cell hosts. -/
def hosted (m : Mach) (c : Fin 128) : List (Fin 256) :=
  (ctxList m).filter (fun k => m.cells.ctx[k].cell = some c && !m.cells.ctx[k].hard)

/-- Cells in SPARE. -/
def spares (m : Mach) : List (Fin 128) := (List.finRange 128).filter (fun c => m.cells.cells[c].st = .spare)

/-- SPARE_MIN of the section (R456). -/
def spareMin (m : Mach) : Nat := rdLe (cellSec m) 5 1

/-- An effect that may take a spare: SPARES_LOW where SPARES fell below SPARE_MIN (R468). -/
def spareWatch (f : Mach → Mach) (m : Mach) : Mach :=
  let m1 := f m
  whenM (decide (spareMin m ≤ (spares m).length) && decide ((spares m1).length < spareMin m)) (raise .cellArr 2) m1

/-- A cell goes through QUARANTINE to its test (R443, R449) (DEDUCED, log row 83). -/
def toQuarantine (c : Fin 128) (m : Mach) : Mach := onCell c (fun x => { x with st := .testing, quarantined := true }) m

/-- The spare for a cell (R444): the lowest in the same half, else the lowest in the other. -/
def spareFor (m : Mach) (c : Fin 128) : Option (Fin 128) :=
  let s := spares m
  match s.find? (fun d => d.val / 64 = c.val / 64) with
  | some d => some d
  | none => s.head?

/-- Every context of the cell has SUBST set. -/
def substitutable (m : Mach) (c : Fin 128) : Bool :=
  (hosted m c).all (fun k => match ctxOf m k with | some d => d.subst | none => false)

/-- A proactive substitution of cell c starts with the next spare (R443, R445) (DEDUCED, log row 84). -/
def substStart (c : Fin 128) (m : Mach) : Mach :=
  match spareFor m c with
  | none => raise .cellArr 3 m
  | some d =>
    let m1 := onCell c (fun x => { x with partner := BitVec.ofNat 8 d.val }) (onCell d (fun x => { x with st := .shadow, partner := BitVec.ofNat 8 c.val }) m)
    onCells (fun x => { x with subst := some ⟨c, d, 1, 1, (hosted m c).map (fun k => { ctx := k.val })⟩ }) m1

/-- No substitution is in progress from here: the next that waits starts, if it still may (DEDUCED, log row 84). -/
def substOver (m : Mach) : Mach :=
  let m1 := onCells (fun x => { x with subst := none }) m
  match m1.cells.waiting.dropWhile (fun c => !(m1.cells.cells[c].st = .active && substitutable m1 c)) with
  | [] => onCells (fun x => { x with waiting := [] }) m1
  | c :: t => substStart c (onCells (fun x => { x with waiting := t }) m1)

end Sys2Proof.Machine
end

