-- ==== Sys2Proof/Machine/Retire.lean ====
section
/-!
DEFINITION. Retirement and return of beams (R253 to R268): the retirement itself, its scan, and the return.
-/

namespace Sys2Proof.Machine

/-- Retirement causes (R253). -/
def retHost : Nat := 1
def retNotReady : Nat := 2
def retLanes : Nat := 3
def retHostile : Nat := 4
def retLaser : Nat := 5
def retContext : Nat := 6
def retHead : Nat := 7

/-- The causes whose contexts restart once the head has a lane up and sealed (R440). -/
def retByHead (cause : Nat) : Bool := cause = retNotReady || cause = retLanes || cause = retHostile || cause = retHead

/-- The job is EXPOSING, or PAUSED or STOPPED in exposure, not merely on its way there (R261, R267). -/
def inExposure (m : Mach) : Bool :=
  m.job.active.isSome && (m.job.st = .exposing || ((m.job.st = .paused || m.job.st = .stopped) && m.job.toExposing &&
    (m.imp.layerOpen || m.job.causes &&& causeIncomplete ≠ 0)))

/-- What becomes of the slug a retired beam held (R255, R256): a JUMP is dropped and counts as ended, a pool or rescue slug returns
to its pool, a galley slug stays for the scan. -/
def disposeCut (b : Fin 12) (m : Mach) : Mach :=
  match m.imp.beams[b].interrupted with
  | none => m
  | some w =>
    let s := workSlug m w
    let cut := fun (m : Mach) => onImp b (fun x => { x with lastCut := if w.restart.isSome then some (w.src, w.index) else x.lastCut }) m
    if s.type = slugJump then
      onImp b (fun x => { x with interrupted := none })
        (onImpAll (fun x => { x with endedCount := x.endedCount + 1 }) (if w.rescue.isNone then setSlug w.src w.index .ended m else m))
    else if w.rescue.isSome || w.src < 0x80 then
      cut (onImp b (fun x => { x with interrupted := none }) (returnWork b { w with remainder := w.restart.isSome, waited := false } m))
    else cut m

/-- The beam's slug ends now. -/
def slugEnding (m : Mach) (b : Fin 12) : Bool := slugOver m b && match m.beams[b].plan with | some p => decide (p.finish ≤ nowQ m) | none => false

/-- A retired beam's slug and motion end: a slug that ends now has ended, any other is cut and disposed of (R254, R255, R269). SAFE_HOLD has
frozen the engine (R28, R335). -/
def retireStop (b : Fin 12) (m : Mach) : Mach :=
  if m.g.dev = .safeHold then m
  else disposeCut b (beamStop false b (if slugEnding m b then recordEnd b (releaseNext b m) else m))

/-- A live beam is retired (R254): emission and motion stopped, removed from the live set, its head parked except for HOSTILE,
its contexts stopped except for CONTEXT (R437), and started again where R440 says and a lane is up, its scan queued (R257). -/
def retire (b : Fin 12) (cause : Nat) (m : Mach) : Mach :=
  if !beamLive m b then m
  else
    let ex := inExposure m
    let m1 := retireStop b m
    let m2 := onImp b (fun x => { x.waitOver (now m) with cause := BitVec.ofNat 4 cause, galleyPending := false, pendingBoundary := false, returning := false }) m1
    let m3 := onImpAll (fun x => { x with scans := x.scans ++ [⟨b, BitVec.ofNat 4 cause, now m, ex, none⟩] }) m2
    let m4 := raise .imp 0 m3
    let m4' := if cause = retContext then m4 else eachM (beamCtx m4 b [1, 2, 3, 4, 5, 6]) (ctxStop true) m4
    let m5 := whenM (retByHead cause && headUp m4' (beamHead b)) (ctxRestartBeam b) m4'
    let m6 := if m5.beams[b].st = .stopping || m5.g.dev = .safeHold then m5 else beamPark b m5
    let m7 := if cause = retHostile then m6 else parkSend 2 (beamHead b) m6
    ilkDrive (onBeam b (fun x => { x with awaiting := false }) m7)

/-! ### The scan -/

/-- Beams other than r, fitted, in whose fields a slug lies (R257). -/
def coverMask (m : Mach) (r : Fin 12) (s : Slug) (set : List Byte) (q : Option Restart) : BitVec 12 :=
  allBeams.foldl (fun w b => setBit w b.val (b ≠ r && fitted m b.val && slugInPoly (fieldPoly m b.val) s set q)) 0

/-- Untaken slugs left in a beam's galley, in order. -/
def galleyLeft (m : Mach) (b : Fin 12) : List Nat :=
  match activeAddr m with
  | none => []
  | some fa => (List.range (srcCount m fa (0x80 + b.val))).filter (fun i => m.imp.beams[b].galleyAt ≤ i && slugState m (0x80 + b.val) i = .untaken)

/-- What the scan does with one galley slug. -/
inductive Dispose where
  | ended | rescue (mask : BitVec 12) | held (cause : Nat)
deriving DecidableEq, Repr

/-- The disposition of one galley slug of retired beam r (R257); `bad` says that its read failed (R269). -/
def disposeOf (m : Mach) (r : Fin 12) (i : Nat) (q : Option Restart) (bad : Bool) : Dispose :=
  if bad then .held 3
  else
    let fa := (activeAddr m).getD 0
    let s := slugAt m fa (0x80 + r.val) i
    let set := formeSet m fa s.pset
    if s.type = slugJump || (s.type = slugDwell && s.power = 0) then .ended
    else
      let mask := coverMask m r s set q
      if (liveBeams m).any (fun b => bitOf mask b.val) then .rescue mask else .held 1

/-- Held slugs of a scan grouped into runs of one cause: first index, length, cause. -/
def causeRuns : List (Nat × Nat) → List (Nat × Nat × Nat)
  | [] => []
  | (i, c) :: t =>
    match causeRuns t with
    | (j, n, d) :: r => if j = i + 1 && c = d then (i, n + 1, c) :: r else (i, 1, c) :: (j, n, d) :: r
    | [] => [(i, 1, c)]

/-- The galley of retired beam r is scanned (R257): rescued and held counts (DEDUCED, log row 60). -/
def scanGalley (r : Fin 12) (bad : Nat → Bool) (m : Mach) : (Nat × Nat) × Mach :=
  let src := 0x80 + r.val
  let head : List (Nat × Option Restart) := match m.imp.beams[r].interrupted with
    | some w => if w.src = src && w.rescue.isNone then [(w.index, w.restart)] else []
    | none => []
  let work := head ++ ((galleyLeft m r).filter (fun i => !head.any (fun h => h.1 = i))).map (fun i => (i, (none : Option Restart)))
  let ds := work.map (fun (i, q) => (i, q, disposeOf m r i q (bad (slugAddr m ((activeAddr m).getD 0) src i))))
  let resc := ds.filterMap (fun (i, q, d) => match d with | .rescue mask => some (⟨src, i, mask, q, false⟩ : Rescue) | _ => none)
  let held := ds.filterMap (fun (i, _, d) => match d with | .held c => some (i, c) | _ => none)
  let ended := ds.filterMap (fun (i, _, d) => match d with | .ended => some i | _ => none)
  let m1 := eachM ended (fun i => setSlug src i .ended) (onImpAll (fun x => { x with endedCount := x.endedCount + ended.length }) m)
  let m2 := eachM resc (fun e => setSlug src e.index .untaken) m1
  let m3 := onImpAll (fun x => { x with rescue := x.rescue.set r (x.rescue[r] ++ resc) }) m2
  let m4 := onImp r (fun x => { x with interrupted := none, g := 0, galleyAt := srcCount m ((activeAddr m).getD 0) src }) m3
  ((resc.length, held.length), eachM (causeRuns held) (fun (i, n, c) => holdRun src i n c) m4)

/-- Whether a live beam may still take a pool slug: in the mask, and not the one that was executing this remainder (R246, R259). -/
def someEligible (m : Mach) (mask : Nat) (src i : Nat) (isRem : Bool) : Bool :=
  (liveBeams m).any (fun b => mask.testBit b.val && !(isRem && m.imp.beams[b].lastCut = some (src, i)))

/-- Every pool is examined: untaken slugs that no live beam may take are held (R259). Returns how many (DEDUCED, log row 60). -/
def scanPools (r : Fin 12) (m : Mach) : Nat × Mach :=
  match activeAddr m with
  | none => (0, m)
  | some fa =>
    let (n1, m1) := (List.range 64).foldl (fun (acc : Nat × Mach) z =>
      let (n, m) := acc
      let mask := poolBeams m z
      let lost := (List.range (srcCount m fa z)).filter (fun i =>
        slugState m z i = .untaken && !someEligible m mask z i (remainderOf m z i).isSome)
      (n + lost.length, holdAll z 2 lost m)) (0, m)
    allBeams.foldl (fun (acc : Nat × Mach) q =>
      let (n, m) := acc
      if q = r then acc
      else
        let lost := (m.imp.rescue[q]).filter (fun e => !e.taken && !someEligible m e.mask.toNat e.src e.index e.restart.isSome)
        let m2 := onImpAll (fun x => { x with rescue := x.rescue.set q ((x.rescue[q]).filter (fun e => e.taken || !(e ∈ lost))) }) m
        (n + lost.length, holdAll (0x80 + q.val) 1 (lost.map (·.index)) m2)) (n1, m1)

/-- The scan at the head of the list has ended, once its HELD entries are written: the RETIRE entry, SCAN_DONE and the repair 0x3001
(R262, R269, R274). -/
def scanClose (m : Mach) : Mach :=
  match m.imp.scans with
  | [] => m
  | sc :: rest =>
    match sc.counts with
    | none => m
    | some (n, held) =>
      if m.imp.deferred.any (fun e => decide (e.type = 6)) then m
      else
        let e : ImpEnt := { type := 4, beam := sc.beam.val, cause := sc.cause.toNat, start := sc.at_, a := n, b := held, onOff := 0 }
        let m3 := raise .imp 8 (impPut e (onImpAll (fun x => { x with scans := rest }) m))
        repairAt sc.at_ 0x3001 sc.beam.val ([BitVec.ofNat 8 sc.beam.val, sc.cause.setWidth 8, 0, 0] ++ leBytes 4 n ++ leBytes 4 held) m3

/-- The first scan is over (R257 to R262): pools and galley disposed of, then its end. -/
def scanEnd (bad : Nat → Bool) (m : Mach) : Mach :=
  match m.imp.scans with
  | [] => m
  | sc :: rest =>
    if impBlocked m then m
    else if sc.counts.isSome then scanClose m
    else
      let run := sc.exposing && inExposure m
      let ((n, h1), m1) := if run then scanGalley sc.beam bad m else ((0, 0), m)
      let (h2, m2) := if run then scanPools sc.beam m1 else (0, m1)
      scanClose (onImpAll (fun x => { x with scans := { sc with counts := some (n, h1 + h2) } :: rest }) m2)

/-! ### Return -/

/-- R264, without the rules on the cause and the scan. -/
def returnReady (m : Mach) (b : Fin 12) : Bool :=
  inWork m && fitted m b.val && bitOf (m.heads[beamHead b]).bits 0 && headUp m (beamHead b) &&
  (if m.imp.beams[b].cause = 1 || m.imp.beams[b].cause = 5 then ctxReturnable m b else ctxEngaged m b)

/-- A scan of beam b waits or runs. -/
def scanBusy (m : Mach) (b : Fin 12) : Bool := m.imp.scans.any (fun s => s.beam = b)

/-- The beam returns (R267): live again, its galley withheld, RETURN entry, repair 0x3002, RETURNED; R restarts at 1 after a LASER
retirement (R726). -/
def beamReturn (b : Fin 12) (m : Mach) : Mach :=
  let was := m.imp.beams[b].cause.toNat
  let m0 := whenM (was = retLaser) (onHlt (fun h => { h with lasers := h.lasers.set b { h.lasers[b] with ratio := 1073741824, n := 0, sum := 0, low := 0 } })) m
  let m1 := onImp b (fun x => { x with cause := 0, galleyPending := true, pendingBoundary := inExposure m, returning := false }) m0
  let m2 := onBeam b (fun x => { x with st := if x.st = .parked then .idle else x.st }) m1
  let m3 := raise .imp 1 (impPut { type := 5, beam := b.val, start := now m, onOff := 0 } m2)
  ilkDrive (repair 0x3002 b.val [BitVec.ofNat 8 b.val] m3)

end Sys2Proof.Machine
end

