-- ==== Sys2Proof/Machine/SecCheck.lean ====
section
/-!
DEFINITION. The checks on sections that the chapters give: REGISTRATION (R305), HEAD and AUX_HEAD (R822), MACHINE (R231),
CELL_PROGRAMS with its placement (R407, R408, R441).
-/

namespace Sys2Proof.Machine

/-- A value lies in a closed range. -/
def within (lo hi x : Int) : Bool := decide (lo ≤ x) && decide (x ≤ hi)

/-- All bytes `[a, a + n)` are zero. -/
def zeroBytes (bs : List Byte) (a n : Nat) : Bool := ((bs.drop a).take n).all (fun b => decide (b = 0))

/-- A REGISTRATION section is valid for a field polygon (R305): ranges, node values, and every vertex within the grid after any
fine offset within the ranges of R308. -/
def regOk (poly : List (Int × Int)) (s : List Byte) : Bool :=
  let nx := rdLe s 16 2
  let ny := rdLe s 18 2
  let px := rdLe s 8 4
  let py := rdLe s 12 4
  let x0 := rdLeS s 0 4
  let y0 := rdLeS s 4 4
  let small := fun o => within (-100000) 100000 (rdLeS s o 4)
  let nodes := fun t lim => (List.range (nx * ny)).all (fun i => within (-lim) lim (rdLeS s (64 + 4 * (t * nx * ny + i)) 4))
  decide (s.length = 64 + 12 * nx * ny) && within 100000 50000000 px && within 100000 50000000 py && within 2 257 nx && within 2 257 ny &&
  within (-40000) 150000 (rdLeS s 20 4) && small 24 && small 28 && small 32 && small 36 && small 40 &&
  within (-1000000) 1000000 (rdLeS s 44 4) && zeroBytes s 56 8 && nodes 0 1000000000 && nodes 1 1000000000 && nodes 2 20000000 &&
  poly.all (fun (vx, vy) =>
    let dx := (vx - rdLeS s 48 4).natAbs
    let dy := (vy - rdLeS s 52 4).natAbs
    let ex : Int := 2000000 + divUp (dx * 1000000 + dy * 200000) 1000000000
    let ey : Int := 2000000 + divUp (dy * 1000000 + dx * 200000) 1000000000
    within x0 (x0 + (nx - 1 : Int) * px) (vx - ex) && within x0 (x0 + (nx - 1 : Int) * px) (vx + ex) &&
    within y0 (y0 + (ny - 1 : Int) * py) (vy - ey) && within y0 (y0 + (ny - 1 : Int) * py) (vy + ey))

/-- A HEAD section has the values of R509 (R822). -/
def headOk (s : List Byte) : Bool :=
  rdLe s 0 8 ≠ 0 && decide (rdLe s 8 1 ≤ 2) && decide (rdLe s 9 1 ≤ 1) && zeroBytes s 10 2 && within 1000 10000000 (rdLe s 12 4) &&
  zeroBytes s 32 32 && decide (s.length = 64)

/-- An AUX_HEAD section has the values of R509 (R822); its image buffer lies in the spare region. -/
def auxOk (m : Mach) (s : List Byte) : Bool :=
  rdLe s 0 8 ≠ 0 && decide (rdLe s 8 1 ≤ 2) && rdLe s 9 1 = 0 && zeroBytes s 10 6 && rdLe s 32 8 % 4096 = 0 &&
  within 4096 268435456 (rdLe s 40 4) && inRegion m 6 (rdLe s 32 8) (rdLe s 40 4) && zeroBytes s 44 20 && decide (s.length = 64)

/-! ### MACHINE (R231) -/

/-- Twice the signed area of the triangle a, b, c. -/
def cross (a b c : Int × Int) : Int := (b.1 - a.1) * (c.2 - a.2) - (b.2 - a.2) * (c.1 - a.1)

/-- Edges of a polygon. -/
def edges (p : List (Int × Int)) : List ((Int × Int) × (Int × Int)) := p.zip (p.drop 1 ++ p.take 1)

/-- Counter-clockwise and strictly convex, each vertex listed once. -/
def convex (p : List (Int × Int)) : Bool :=
  2 < p.length && decide p.Nodup && (edges p).all (fun (a, b) => p.all (fun c => c = a || c = b || decide (0 < cross a b c)))

/-- Two convex polygons share no interior point. -/
def apart (p q : List (Int × Int)) : Bool :=
  (edges p).any (fun (a, b) => q.all (fun c => decide (cross a b c ≤ 0))) || (edges q).any (fun (a, b) => p.all (fun c => decide (cross a b c ≤ 0)))

/-- The MACHINE section is valid (R231). -/
def machineOk (m : Mach) : Bool :=
  let s := secBytes m 2 0xFFFF
  let xmin := rdLeS s 0 4
  let xmax := rdLeS s 4 4
  let ymin := rdLeS s 8 4
  let ymax := rdLeS s 12 4
  let zs := List.range (zoneCount m)
  decide (xmin < xmax) && decide (ymin < ymax) && (rdLeS s 16 4 ≠ 0 || rdLeS s 20 4 ≠ 0) && decide (zoneCount m ≤ 64) &&
  decide (s.length = 1696 + 144 * zoneCount m) &&
  (List.range 12).all (fun h =>
    let p := fieldPoly m h
    if fitted m h then decide (p.length ≤ 16) && convex p else p = []) &&
  zs.all (fun z =>
    let p := zonePoly m z
    decide (p.length ≤ 16) && convex p && p.all (fun (x, y) => within xmin xmax x && within ymin ymax y) &&
    decide (2 ≤ ((List.range 12).filter (fun b => (zoneBeams m z).testBit b && fitted m b)).length) &&
    (List.range 12).all (fun b => !(zoneBeams m z).testBit b || p.all (fun (x, y) => inPoly (fieldPoly m b) (x * 65536) (y * 65536))) &&
    zs.all (fun y => decide (y ≤ z) || apart p (zonePoly m y)))

/-! ### CELL_PROGRAMS (R407, R408, R441) -/

/-- A signal that OUTPUT may name (R426). -/
def writable (m : Mach) (n : Nat) : Bool :=
  (448 ≤ n && n < 640 && (n % 16 = 6 || n % 16 = 7)) || (768 ≤ n && n < 1032) ||
  (1032 ≤ n && n < 1064 && bitOf (recWord m recSigGpio 0) (n - 1032)) || (1536 ≤ n && n < 2048)

/-- A sort word meets R412 and R413. -/
def sortOk (s : Sort_) : Bool :=
  decide (1 ≤ s.op) && decide (s.op ≤ 11) && s.zero && (s.op = 1 || s.op = 5 || (!s.f16 && !s.f17)) && (s.op ≤ 2 || s.qs = 0) &&
  (s.op ≤ 2 || s.sig = 0 || (s.op = 11 && s.sig ≤ 1))

/-- One context of the section (R407, R441, R457). -/
def ctxOk (m : Mach) (halves : Nat) (d : CtxDesc) (bank : List Word) (p : List Sort_) : Bool :=
  decide (d.cell < if halves.testBit 1 then 128 else 64) && decide (d.slot ≤ 1) && within 1 8 d.owner &&
  (if d.owner ≤ 6 then decide (d.beam < 12) && fitted m d.beam else d.beam = 0xFF) && decide (d.flags < 16) &&
  within 1000 1000000000 d.period && (if d.arrival then d.phase = 0 && decide (d.trigger < 2048) else decide (d.phase < d.period)) &&
  within 1 256 d.sorts && decide (d.coefs ≤ 256) && d.progOff % 8 = 0 && d.coefOff % 4 = 0 && d.formats.all (fun n => decide (n ≤ 31)) &&
  p.all sortOk && p.all (fun s => coefCount bank s = 0 || decide (s.k + coefCount bank s ≤ d.coefs)) && (bankBad d p bank).isNone &&
  (d.owner ≠ 7 || p.all (fun s => s.op ≠ 1 || decide (256 ≤ s.sig)))

/-- Where every context goes: number, cell and slot. A cell that failed its test gives its contexts together to the lowest free
passing cell of its half, or else of the other (R408). -/
def placeCells (m : Mach) (failed : List Nat) : Option (List (Nat × Nat × Nat)) :=
  let sec := cellSec m
  let top := if (rdLe sec 4 1).testBit 1 then 128 else 64
  let ks := List.range (ctxCount sec)
  let named := (ks.map (fun k => (ctxDesc sec k).cell)).eraseDups
  let moves := (named.filter (fun c => c ∈ failed)).foldl (fun (acc : Option (List (Nat × Nat))) c =>
    acc.bind (fun mv =>
      let free := (List.range top).filter (fun d => !(d ∈ failed) && !(d ∈ named) && !mv.any (fun x => x.2 = d))
      match free.find? (fun d => d / 64 = c / 64) with
      | some d => some (mv ++ [(c, d)])
      | none => free.head?.map (fun d => mv ++ [(c, d)]))) (some [])
  moves.map (fun mv => ks.map (fun k =>
    let d := ctxDesc sec k
    (k, ((mv.find? (fun x => x.1 = d.cell)).map (·.2)).getD d.cell, d.slot)))

/-- The section passes the checks of R407 with the cells that failed their test [R406]. -/
def cellsOk (m : Mach) (failed : List Nat) : Bool :=
  let sec := cellSec m
  let halves := rdLe sec 4 1
  let ks := List.range (ctxCount sec)
  let ds := ks.map (ctxDesc sec)
  let progs := ds.map (ctxProg sec)
  let outs := (progs.flatten.filter (fun s => s.op = 2)).map (·.sig)
  let named := (ds.map (·.cell)).eraseDups
  let top := if halves.testBit 1 then 128 else 64
  let spare := top - ((List.range top).filter (fun c => c ∈ failed || c ∈ named)).length
  let moved := (named.filter (fun c => c ∈ failed)).length
  within 1 256 (ctxCount sec) && halves.testBit 0 && decide (halves < 4) && decide (rdLe sec 5 1 ≤ 64) &&
  (ds.zip progs).all (fun (d, p) => ctxOk m halves d (ctxBank sec d) p) &&
  decide ((ds.map (fun d => (d.cell, d.slot))).Nodup) && decide (outs.Nodup) && outs.all (writable m) &&
  decide (((ds.filter (fun d => d.owner ≤ 6)).map (fun d => (d.owner, d.beam))).Nodup) &&
  named.all (fun c =>
    let here := (ds.zip progs).filter (fun (d, _) => d.cell = c)
    let cost : Nat := (here.map (fun (_, p) => progCost p)).foldl (· + ·) 0
    let pmin : Nat := (here.map (fun (d, _) => d.period)).foldl Nat.min 1000000000
    decide (5 * cost ≤ pmin) &&
    [0, 1].all (fun ch => decide (((here.map (·.2)).flatten.filter (fun s => s.op = 11 && s.sig = ch)).length ≤ 1))) &&
  (placeCells m failed).isSome && decide (rdLe sec 5 1 + moved ≤ spare)

end Sys2Proof.Machine
end

