-- ==== Sys2Proof/Machine/UpdateOps.lean ====
section
/-!
DEFINITION. Section reload (R165 to R172) and the update of the inactive bank (R173 to R182).
-/

namespace Sys2Proof.Machine

/-! ### Section reload -/

/-- An update is in progress (BOOT_STATUS.UPD_BUSY). -/
def updBusy (m : Mach) : Bool := m.boot.updStage ≠ .idle && m.boot.updStage ≠ .done

/-- A reload ends with a result other than done (R172, R187). -/
def reloadFail (code : Nat) (m : Mach) : Mach :=
  raise .boot 3 { m with boot := { m.boot with rlResult := BitVec.ofNat 4 code } }

/-- The requested section types: REGISTRATION, HEAD. -/
def reloadTypes (what : Nat) : List Nat := (if what % 2 = 1 then [3] else []) ++ (if 2 ≤ what then [4] else [])

/-- The inactive bank's reader. -/
def inactiveReader (m : Mach) : Reader := bankReader (m.boot.getBank (!m.boot.bank))

/-- The table entry of a section in the inactive bank. -/
def inactiveEntry (m : Mach) (type inst : Nat) : Option SecEntry :=
  (secTable (inactiveReader m)).find? (fun e => decide (e.type = type) && decide (e.inst = inst))

/-- What a reload may not change of a HEAD section: identity, lane rate and flags, pairing key (R166, R509). -/
def headIdentity (bs : List Byte) : List Byte := bs.take 10 ++ (bs.drop 16).take 16

/-- The inactive bank's HEAD section changes a lane rate, lane identity or head identity, whichever sections are asked for (R166). -/
def reloadNeedsReset (m : Mach) (h : Nat) : Bool :=
  match inactiveEntry m 4 h with
  | some e => decide (headIdentity ((inactiveReader m) e.off e.len) ≠ headIdentity (secBytes m 4 h))
  | none => false

/-- A BOOT_RELOAD write (R165, R166, R171). -/
def reloadRequest (w : Word) (m : Mach) : Mach :=
  let h := fld w 3 0
  let what := fld w 17 16
  if fld w 31 24 ≠ 0x3E || fld w 23 18 ≠ 0 || fld w 15 13 ≠ 0 || fld w 11 4 ≠ 0 || what = 0 || 12 ≤ h then cmdError m
  else
    let m1 := { m with boot := { m.boot with rlAsked := BitVec.ofNat 4 h } }
    if !(inWork m || m.g.dev = .safeHold) then reloadFail 8 m1
    else if updBusy m || m.boot.rlState ≠ .idle then reloadFail 7 m1
    else if !(m.boot.getBank (!m.boot.bank)).valid then reloadFail 2 m1
    else if hdr (inactiveReader m) 16 4 ≠ m.boot.ver.toNat then reloadFail 3 m1
    else if (reloadTypes what).any (fun ty => (inactiveEntry m ty h).isNone) then reloadFail 4 m1
    else if reloadNeedsReset m h then reloadFail 6 m1
    else { m1 with boot := { m1.boot with rlState := .loading, rlHead := BitVec.ofNat 4 h, rlResult := 0, rlMode := bitOf w 12, rlWhat := BitVec.ofNat 2 what } }

/-- The reloading beam is retired, not fitted or not ready, or the device is in SAFE_HOLD: it switches at once (R169). -/
def reloadNow (m : Mach) : Bool :=
  let b := reloadBeam m
  m.g.dev = .safeHold || decide (m.imp.beams[b].cause ≠ 0) || !fitted m b.val || !scanUp m b.val

/-- A loaded section meets the chapter's own checks (R305, R822) (DEDUCED, log row 69). -/
def stagedOk (m : Mach) (s : Section) : Bool := if s.type = 3 then regOk (fieldPoly m s.inst) s.bytes else headOk s.bytes

/-- The requested sections are loaded and checked against their DIGESTs and their values (R167, R169, R305, R822) (DEDUCED, log row 69). -/
def reloadArmed (m : Mach) : Mach :=
  if m.boot.rlState ≠ .loading then m
  else
    let h := m.boot.rlHead.toNat
    let es := (reloadTypes m.boot.rlWhat.toNat).filterMap (fun ty => inactiveEntry m ty h)
    match es.mapM (loadSection (inactiveReader m)) with
    | none => reloadFail 5 { m with boot := { m.boot with rlState := .idle } }
    | some ss =>
      if ss.all (stagedOk m) then
        let m1 := { m with boot := { m.boot with staged := ss, rlState := .armed } }
        if reloadNow m1 then reloadSwitch m1 else m1
      else reloadFail 5 { m with boot := { m.boot with rlState := .idle } }

/-- The selected switch point is reached (R168): with MODE 1 the reloading beam stands between two slugs. The layer boundary and the start
of a slug switch of themselves, so that with MODE 0 nothing is left to the event (DEDUCED, log row 68). -/
def reloadBoundary (m : Mach) : Mach :=
  if m.boot.rlMode && m.imp.beams[reloadBeam m].cur.isNone then reloadSwitch m else m

/-- BOOT_RELOAD, offset 0x01_0200. -/
def execReloadRequest (p : Port) (v : Word) (s : State) : Out := s.act (writeGate p 0x10200 (reloadRequest v))
/-- RELOAD_ARMED: the load of the requested sections ends. -/
def execReloadArmed (s : State) : Out := s.act reloadArmed
/-- RELOAD_SWITCH: the selected boundary is reached. -/
def execReloadSwitch (s : State) : Out := s.act reloadBoundary

/-! ### Update -/

/-- Layer address of the staged ingot (R179). -/
def updSrc (m : Mach) : Nat := (fld m.boot.updSrcHi 0 0) * 2 ^ 32 + fld m.boot.updSrcLo 31 6 * 64

/-- BOOT_UPD_STATUS (R182). -/
def updStatus (m : Mach) : Word :=
  BitVec.ofNat 32 (m.boot.updResult.toNat * 2 ^ 28 + m.boot.updStage.code * 2 ^ 24 + m.boot.updSectors.toNat)

/-- The end of an update asked for over Ethernet: the RESULT datagram and NET_XFER (R780, R787). -/
def updAnswer (m : Mach) : Mach :=
  match m.boot.updBy, m.mgt.xfer with
  | .net, some x =>
    raise .mgt 5 (emit (.datagram x.sender (recFld m recMgtNet 0 31 16)
      (leBytes 2 0x82 ++ leBytes 2 0 ++ leBytes 4 x.id.toNat ++ leBytes 4 0 ++ leBytes 4 (updStatus m).toNat))
      { m with mgt := { m.mgt with xfer := none } })
  | _, _ => m

/-- An update fails or is cancelled: the result, UPD_FAIL (R175). -/
def updFail (code : Nat) (m : Mach) : Mach :=
  updAnswer (raise .boot 1 { m with boot := { m.boot with updStage := .idle, updResult := BitVec.ofNat 4 code } })

/-- The device may update now (R176): CONFIGURED, BUILDING, PROOF, SAFE_HOLD, or a halted boot with layer memory
trained (R142). -/
def updAllowed (m : Mach) : Bool := inWork m || m.g.dev = .safeHold || (m.boot.phase = .halted && m.mem.trained)

/-- An update starts (R173, R174) (DEDUCED, log row 70). -/
def updStart (bank : Bool) (by_ : UpdBy) (m : Mach) : Mach :=
  let n := (fld m.boot.updLen 25 0)
  if !updAllowed m then cmdError m
  else if updBusy m || m.boot.rlState ≠ .idle then { m with boot := { m.boot with updResult := 0xC } }
  else
    let m1 := { m with boot := { m.boot with updTarget := if m.boot.phase = .halted then bank else !m.boot.bank, updBy := by_,
                                              updSectors := 0, updResult := 0 } }
    if n < 256 || 50331648 < n then updFail 8 m1
    else if !(inRegion m 0 (updSrc m) n || inRegion m 6 (updSrc m) n) then updFail 9 m1
    else { m1 with boot := { m1.boot with updStage := .checking } }

/-- BOOT_UPD_CMD (R181). -/
def updCmd (w : Word) (m : Mach) : Mach :=
  if fld w 31 24 ≠ 0xD4 || fld w 23 9 ≠ 0 || fld w 7 2 ≠ 0 then cmdError m
  else
    match fld w 1 0 with
    | 1 => updStart (bitOf w 8) .host m
    | 2 => if updBusy m then updFail 0xB m else m
    | _ => cmdError m

/-- 64 KB sectors that the staged ingot covers. -/
def updSectorCount (m : Mach) : Nat := divUp (fld m.boot.updLen 25 0) 65536

/-- The result of the CHECKING stage: 0 passes (R127, R174, R182). -/
def updCheckResult (m : Mach) : Nat :=
  let rd := memReader m (updSrc m)
  match bankCheck m rd with
  | 0 => if hdr rd 8 4 ≠ fld m.boot.updLen 25 0 then 8 else if (loadSections rd).isNone then 7 else 0
  | 2 => 3
  | 3 => 4
  | 4 => 5
  | 5 => 6
  | _ => 2

/-- The target bank's bytes replaced. -/
def setTarget (cells : List Host.Cell) (m : Mach) : Mach :=
  let x := m.boot.updTarget
  { m with boot := m.boot.setBank x { m.boot.getBank x with cells := cells } }

/-- One more 64 KB sector of the stage is finished: it is erased, or programmed but for the header, which comes last (R174, R182). -/
def updSectorDone (m : Mach) : Mach :=
  let i := m.boot.updSectors.toNat
  if updSectorCount m ≤ i then m
  else
    let k := m.boot.getBank m.boot.updTarget
    let lo := if i = 0 then 256 else i * 65536
    let hi := min (fld m.boot.updLen 25 0) ((i + 1) * 65536)
    let m1 := match m.boot.updStage with
      | .erasing => setTarget (dropRange k.cells (i * 65536) 65536) m
      | .programming => setTarget (putAll (fun _ => 0xFF#8) k.cells lo (memBytes m (updSrc m + lo) (hi - lo))) m
      | _ => m
    { m1 with boot := { m1.boot with updSectors := m1.boot.updSectors + 1 } }

/-- A stage completes, or fails because the flash reports an error or the read-back differs (R174, R175) (DEDUCED, log row 70). -/
def updStageOver (ok : Bool) (m : Mach) : Mach :=
  let x := m.boot.updTarget
  let n := fld m.boot.updLen 25 0
  let k := m.boot.getBank x
  let staged := memBytes m (updSrc m) n
  match m.boot.updStage with
  | .checking =>
    match updCheckResult m with
    | 0 =>
      let m1 := changeStanding x (fun s => { s with writing := true }) m
      { m1 with boot := { m1.boot with updStage := .erasing, updSectors := 0 } }
    | r => updFail r m
  | .erasing =>
    if ok then
      let m1 := setTarget (dropRange k.cells 0 (updSectorCount m * 65536)) m
      readBank x { m1 with boot := { m1.boot with updStage := .programming, updSectors := 0 } }
    else updFail 0xA m
  | .programming =>
    if ok then
      let m1 := setTarget (putAll (fun _ => 0xFF#8) k.cells 0 staged) m
      { m1 with boot := { m1.boot with updStage := .verifying, updSectors := 0 } }
    else updFail 0xA m
  | .verifying =>
    if ok && (bankReader k) 0 n = staged then
      let m1 := readBank x (changeStanding x (fun _ => {}) m)
      updAnswer (raise .boot 0 { m1 with boot := { m1.boot with updStage := .done, updResult := 1,
                                                                 updSectors := BitVec.ofNat 10 (updSectorCount m) } })
    else updFail 0xA m
  | _ => m

/-- What the update's stage has come to: one more sector finished, or its end (R174, R182) (DEDUCED, log row 70). -/
def updStageEnd (r : Option Bool) (m : Mach) : Mach :=
  match r with
  | none => whenM (updBusy m) updSectorDone m
  | some ok => updStageOver ok m

/-- BOOT_UPD_CMD's word from its bits [31:2] and its OP. -/
def updWord (hi : BitVec 30) (op : BitVec 2) : Word := hi ++ op

/-- UPDATE_WRITE: a BOOT_UPD_CMD write with OP 0x1. -/
def execUpdateWrite (p : Port) (hi : BitVec 30) (s : State) : Out := s.act (writeGate p 0x1021C (updCmd (updWord hi 1)))
/-- UPDATE_CANCEL: a BOOT_UPD_CMD write with OP 0x2. -/
def execUpdateCancel (p : Port) (hi : BitVec 30) (s : State) : Out := s.act (writeGate p 0x1021C (updCmd (updWord hi 2)))
/-- UPDATE_STAGE_END: the stage in progress completes, or the flash reports an error; `none`: it has finished one more sector. -/
def execUpdateStageEnd (r : Option Bool) (s : State) : Out := s.act (updStageEnd r)

end Sys2Proof.Machine
end

