-- ==== Sys2Proof/Machine/SafeHold.lean ====
section
/-!
DEFINITION. Changes of the device state (R19, R21) and safe hold (R23, R28, R775).
-/

namespace Sys2Proof.Machine

/-- Cause codes of the entry 0x0010 (R818). -/
def chBoot : Nat := 1
def chWarm : Nat := 2
def chStart : Nat := 3
def chEnd : Nat := 4
def chStandby : Nat := 5
def chFault : Nat := 6
def chSafeHold : Nat := 7
def chTrip : Nat := 8

/-- The entry 0x0010 and STATE_CHANGE of a change from `old`; a device on the backup oscillator raises no event (R21). -/
def stateEntry (old : DevState) (cause : Nat) (m : Mach) : Mach :=
  let m1 := log 0x0010 sevInfo 0xFF [BitVec.ofNat 8 old.code, BitVec.ofNat 8 m.g.dev.code, BitVec.ofNat 8 cause] m
  whenM (m.clk.fallback ≠ .onBackup) (raise .glb 0) m1

/-- The device changes state with its entry and event; its own signals, pins and lamps follow. -/
def devMove (new : DevState) (cause : Nat) (m : Mach) : Mach :=
  let old := m.g.dev
  pinsFollow (devSignals (stateEntry old cause { m with g := { m.g with dev := new } }))

/-- A substitution in shadow at the entry (R443, R455): one of a CHAMBER context goes on, another is abandoned, its contexts staying on the
original and the spare going to its test. -/
def shadowDrop (m : Mach) : Mach :=
  match m.cells.subst with
  | none => m
  | some x =>
    let chamber := fun (c : Fin 128) => (hosted m c).any (fun k => ownerOf m k = 7)
    let m1 := onCells (fun y => { y with waiting := y.waiting.filter chamber }) m
    if x.stage = 3 then m1
    else if x.ctxs.any (fun c => ownerOf m (Fin.ofNat 256 c.ctx) = 7) then
      onCells (fun y => { y with subst := some { x with ctxs := x.ctxs.map (fun c =>
        if ownerOf m (Fin.ofNat 256 c.ctx) = 7 || c.handed then c else { c with data := none, matched := 0 }) } }) m1
    else substOver (toQuarantine x.dst (eachM x.ctxs (fun c => onCtx (Fin.ofNat 256 c.ctx) (fun y => { y with cell := some x.src })) m1))

/-- A channel changed. -/
def onCh (c : Fin 2) (f : MemCh → MemCh) (m : Mach) : Mach := { m with mem := m.mem.setCh c.val (f (m.mem.ch c.val)) }

/-- A pending retraining begins, once its channel is ready (R664). -/
def retrainNow (c : Fin 2) (m : Mach) : Mach :=
  whenM ((m.mem.ch c.val).retrainPend && decide ((m.mem.ch c.val).st = .ready))
    (onCh c (fun x => { x with st := .retraining, retrainPend := false })) m

/-- Steps 2 to 9 of R28, and the retrainings that run at once with the entry (R669); step 3 asks for the gates of CLK_GATE (R695) (DEDUCED, log row 46) (DEDUCED, log row 93). -/
def safeRest (m1 : Mach) : Mach :=
  let m2' := eachM allBeams beamFreeze m1
  let m2 := if m2'.clk.fallback = .none then { m2' with clk := { m2'.clk with gateReq := 0x3FFF } } else m2'
  let m3 := eachM (List.finRange 16) (parkSend 3) m2
  let m4 := onImpAll (fun x => { x with running := false }) m3
  let m5 := ctxSafeHold (spareWatch shadowDrop m4)
  let m6 := layerOver (axesHalt m5)
  eachM (List.finRange 2) retrainNow (reloadSwitch m6)

/-- The steps of R28. -/
def safeSteps (m : Mach) : Mach := safeRest (ilkDrive (onIlk (fun i => { i with inhSafe := true }) m))

/-- SAFE_HOLD is entered (R19, R28), by fault or by command. -/
def enterSafe (byFault : Bool) (cause : Nat) (m : Mach) : Mach :=
  let held := m.g.dma.map (fun c => { c with held := (c.st = .running || c.st = .stopping) && decide (c.head ≠ c.tail) })
  let m1 := { m with g := { m.g with heldBefore := m.g.dev, safeByFault := byFault, dma := held } }
  devMove .safeHold cause (safeSteps m1)

/-- 2^-16 ns in one CLK_SYS period (R682). -/
def sysQ : Nat := 4 * tickQ

/-- A fault that the device cannot repair (R19, R23, R775): its log entry, then SAFE_HOLD by fault; of two in one CLK_SYS cycle the lower
code is the cause (R783) (DEDUCED, log row 117). -/
def faultInto (cause code unit : Nat) (arg : List Byte) (m : Mach) : Mach :=
  let m1 := log code sevFault unit arg (whenM (m.g.dev = .boot && logAlive m) bootEntries m)
  let taken := fun (m : Mach) => raise .glb 1 { m with mgt := { m.mgt with safeCause := BitVec.ofNat 16 code, safeAt := nowQ m } }
  if m.g.dev = .boot || inWork m then
    enterSafe true cause (taken { m1 with boot := { m1.boot with attempt := false } })
  else if m.g.dev = .safeHold && !m.g.safeByFault then
    pinsFollow (stateEntry .safeHold chFault (taken { m1 with g := { m1.g with safeByFault := true } }))
  else if m.g.dev = .safeHold && m.mgt.safeAt / sysQ = nowQ m / sysQ && decide (code < m.mgt.safeCause.toNat) then
    { m1 with mgt := { m1.mgt with safeCause := BitVec.ofNat 16 code } }
  else m1

/-- The usual fault of R775 with outcome SAFE_HOLD. -/
def faultSafeHold : Nat → Nat → List Byte → Mach → Mach := faultInto chFault

end Sys2Proof.Machine
end

