-- ==== Sys2Proof/Machine/MemRead.lean ====
section
/-!
DEFINITION. Reads of layer memory: requester classes, the banks' read queues and their order, activates, hot rows, neighbour refreshes,
and what a read finds (R646, R647, R650, R655 to R660).
-/

namespace Sys2Proof.Machine

/-! ### Classes and read queues (R646, R647) -/

/-- Class of a requester by its code of MEM_UE_ADDR (R646, R672): 0 RT, 1 NEAR, 2 BULK. -/
def reqClass (req : Nat) : Nat :=
  match req with
  | 3 | 4 | 6 => 0
  | 5 | 7 => 1
  | _ => 2

/-- The reads of one bank, oldest first. -/
def bankReads (q : List RdReq) (b : Nat) : List RdReq := q.filter (fun r => bankOf r.block = b)

/-- A bank's queue of 16 entries, with the RT reserve of 64 beside it, has room for a read (R647). -/
def MemCh.room (c : MemCh) (r : RdReq) : Bool :=
  let n := (bankReads c.readQ (bankOf r.block)).length
  decide (n < 16) || (decide (reqClass r.req = 0) && decide (n < 80))

/-- Waiting reads enter the queues that have room, oldest first. -/
def MemCh.takeIn (c : MemCh) : MemCh :=
  c.readWait.foldl (fun c r => if c.room r then { c with readQ := c.readQ ++ [r] } else { c with readWait := c.readWait ++ [r] })
    { c with readWait := [] }

/-- Reads are accepted. -/
def MemCh.accept (rs : List RdReq) (c : MemCh) : MemCh := MemCh.takeIn { c with readWait := c.readWait ++ rs }

/-- The first bank after the one served last that has a read ready (R647). -/
def MemCh.nextBank (c : MemCh) : Option Nat :=
  (tab 16 (fun i => (c.turn + 1 + i) % 16)).find? (fun b => decide (bankReads c.readQ b ≠ []))

/-- Of a bank's reads the oldest RT, else the oldest NEAR, else the oldest BULK one (R647). -/
def MemCh.oldest (c : MemCh) (b : Nat) : Option RdReq :=
  [0, 1, 2].findSome? (fun k => (bankReads c.readQ b).find? (fun r => decide (reqClass r.req = k)))

/-- One read is served, and its place is taken (DESIGN CHOICE, log row 112). -/
def MemCh.serve (c : MemCh) : Option (RdReq × MemCh) :=
  c.nextBank.bind (fun b => (c.oldest b).map (fun r => (r, MemCh.takeIn { c with readQ := c.readQ.erase r, turn := b })))

/-- Up to `n` reads served, in the order of service. -/
def MemCh.serveN : Nat → MemCh → List RdReq × MemCh
  | 0, c => ([], c)
  | n + 1, c =>
    match c.serve with
    | none => ([], c)
    | some (r, c') => let (t, d) := MemCh.serveN n c'; (r :: t, d)

/-! ### Activates, hot rows and neighbour refreshes (R655 to R657) -/

/-- The entry of lowest count of a bank's hot-row table. -/
def hotLowest (t : List (Nat × Nat × Nat)) (bank : Nat) : Option (Nat × Nat × Nat) :=
  (t.filter (fun e => decide (e.1 = bank))).foldl (fun best e =>
    match best with | none => some e | some b => if e.2.2 < b.2.2 then some e else best) none

/-- Whether a row stands in its bank's table. -/
def hotHas (t : List (Nat × Nat × Nat)) (bank row : Nat) : Bool := t.any (fun e => decide (e.1 = bank) && decide (e.2.1 = row))

/-- A bank's table of 128 entries is full. -/
def hotFull (t : List (Nat × Nat × Nat)) (bank : Nat) : Bool := decide (128 ≤ (t.filter (fun e => decide (e.1 = bank))).length)

/-- The count that one more activate gives a row: its own plus 1; the lowest plus 1 where the table is full (R655, R656). -/
def hotNext (t : List (Nat × Nat × Nat)) (bank row : Nat) : Nat :=
  match t.find? (fun e => decide (e.1 = bank) && decide (e.2.1 = row)) with
  | some e => e.2.2 + 1
  | none => if hotFull t bank then (match hotLowest t bank with | some e => e.2.2 + 1 | none => 1) else 1

/-- A row's count is set in its bank's table of 128 entries, replacing the entry of lowest count where the table is
full (R655, R656). -/
def hotSet (t : List (Nat × Nat × Nat)) (bank row count : Nat) : List (Nat × Nat × Nat) :=
  let t1 := t.filter (fun e => !(decide (e.1 = bank) && decide (e.2.1 = row)))
  let t2 := if hotFull t1 bank then (match hotLowest t1 bank with | some e => t1.erase e | none => t1) else t1
  t2 ++ [(bank, row, count)]

/-- The neighbours of a row are refreshed: its count returns to 0, MEM_HOT_REF and HOT_REFRESH (R655). -/
def neighbourRefresh (c : Fin 2) (bank row : Nat) (m : Mach) : Mach :=
  let m1 := onCh c (fun x => { x with hot := hotSet x.hot bank row 0, nbr := x.nbr.filter (fun e => e ≠ (bank, row)) }) m
  raise .mem 4 { m1 with mem := { m1.mem with hotRef := m1.mem.hotRef + 1 } }

/-- The neighbour refreshes that a bank waits for are issued (R657). -/
def neighboursFirst (c : Fin 2) (bank : Nat) (m : Mach) : Mach :=
  eachM ((m.mem.ch c.val).nbr.filter (fun e => decide (e.1 = bank))) (fun e => neighbourRefresh c e.1 e.2) m

/-- An access to a block whose row is not open in its bank activates it: pending neighbour refreshes of the bank go first, and the row's
count rises; at HOT_THRESHOLD its neighbours are to be refreshed (R655 to R657) (DESIGN CHOICE, log row 112). -/
def rowActivate (k : Nat) (m : Mach) : Mach :=
  let c : Fin 2 := Fin.ofNat 2 (chanOf k)
  let b := bankOf k
  let r := rowOf k
  if look (fun _ => 0) (m.mem.ch c.val).openRow b = r + 1 then m
  else
    let m1 := neighboursFirst c b m
    onCh c (fun x =>
      let n := hotNext x.hot b r
      { x with openRow := put (fun _ => 0) x.openRow b (r + 1), hot := hotSet x.hot b r n,
               nbr := if fld m.mem.hotCfg 15 0 ≤ n then addNew x.nbr (b, r) else x.nbr }) m1

/-! ### What a read finds (R650, R658 to R660) -/

/-- An uncorrectable block is found: MEM_UE, MEM_UE_ADDR, UNCORRECTABLE, the log entry 0xB004, and SAFE_HOLD where the
channel has TRAIN_NONE (R659, R660, R666) (DESIGN CHOICE, log row 9). -/
def ueFound (req k : Nat) (m : Mach) : Mach :=
  let x := m.mem
  let past := raised m .mem 1
  let m1 := { m with mem := { x with ue := x.ue + 1, ueAddr := BitVec.ofNat 33 (64 * k), ueReq := BitVec.ofNat 4 req,
                                      ueOverrun := x.ueOverrun || past, poison := addNew x.poison k } }
  let arg := leBytes 8 (64 * k) ++ leBytes 1 req
  let m2 := log 0xB004 sevNotice (chanOf k) arg (raise .mem 1 m1)
  if (m.mem.ch (chanOf k)).trainNone then faultSafeHold 0xB002 (chanOf k) arg m2 else m2

/-- A corrected block: MEM_CE, CORRECTED, and a write-back unless a write of the block is queued (R658, R669) (DESIGN CHOICE, log row 9). -/
def ceFound (k : Nat) (m : Mach) : Mach := raise .mem 0 { m with mem := { queueWrite m.mem k with ce := m.mem.ce + 1 } }

/-- A read that finds its block in the write queue is served from it and counted in MEM_FWD; any other activates the block's row (R650). -/
def readServed (r : RdReq) (m : Mach) : Mach :=
  if r.block ∈ (m.mem.ch (chanOf r.block)).writeQ then { m with mem := { m.mem with fwd := m.mem.fwd + 1 } } else rowActivate r.block m

/-- The reads of channel `c` that wait are served, up to `n` of them. -/
def serveReads (c : Fin 2) (n : Nat) (m : Mach) : Mach :=
  let (rs, x) := MemCh.serveN n (m.mem.ch c.val)
  eachM rs readServed (onCh c (fun _ => x) m)

/-- A channel accepts the reads of `ks` for a requester and serves what then waits there (R647) (DESIGN CHOICE, log row 112). -/
def readBlocks (c : Fin 2) (req : Nat) (ks : List Nat) (m : Mach) : Mach :=
  let m1 := onCh c (MemCh.accept ((ks.filter (fun k => decide (chanOf k = c.val))).map (fun k => ⟨req, k⟩))) m
  let x := m1.mem.ch c.val
  serveReads c (x.readQ.length + x.readWait.length) m1

/-- A range of layer memory is read by a requester: its blocks are served in the order of R647, those in the write queue are counted in
MEM_FWD, corrected and uncorrectable blocks are reported (DESIGN CHOICE, log row 9). -/
def memRead (req a n : Nat) (e : Ecc) (m : Mach) : Mach :=
  let ks := blocksOf a n
  let m1 := readBlocks 1 req ks (readBlocks 0 req ks m)
  let bad := ks.filter (fun k => k ∈ m.mem.poison || k ∈ e.ue)
  eachM bad (ueFound req) (eachM (ks.filter (fun k => k ∈ e.ce && k ∉ bad)) ceFound m1)

/-- Whether a read of a range meets an uncorrectable block (DESIGN CHOICE, log row 9). -/
def readBad (m : Mach) (a n : Nat) (e : Ecc) : Bool := (blocksOf a n).any (fun k => k ∈ m.mem.poison || k ∈ e.ue)

end Sys2Proof.Machine
end

