-- ==== Sys2Proof/Machine/HostOps.lean ====
section
/-!
DEFINITION. Host presence, the PCIe link, MSI-X moderation, the BAR2 window and the DMA channels (02 of spec/, R36 to R42).
-/

namespace Sys2Proof.Machine

/-! ### DMA channels (R90 to R99) -/

/-- A channel changed. -/
def onDma (n : Fin 4) (f : DmaCh → DmaCh) (m : Mach) : Mach := { m with g := { m.g with dma := m.g.dma.set n (f m.g.dma[n]) } }

/-- Ring index one on. -/
def DmaCh.inc (c : DmaCh) : BitVec 12 := BitVec.ofNat 12 ((c.head.toNat + 1) % 2 ^ c.log2.toNat)

/-- A descriptor is in progress: the channel performs the one at HEAD (R96). -/
def DmaCh.busy (c : DmaCh) : Bool := (c.st = .running || c.st = .stopping) && decide (c.head ≠ c.tail)

/-- GLB_DMAn_TAIL (R96, R99): HALTED stays HALTED. -/
def dmaTail (n : Fin 4) (v : Word) : Mach → Mach :=
  onDma n (fun c => { c with tail := BitVec.ofNat 12 (fld v 11 0 % 2 ^ c.log2.toNat) })

/-- SKIP and RETRY on a HALTED channel; SKIP wins. A channel whose ENABLE is 0 performs the one descriptor of a RETRY and no other
(R96, R99) (DEDUCED, log row 27). -/
def DmaCh.recover (skip retry : Bool) (c : DmaCh) : DmaCh :=
  if c.st ≠ .halted then c
  else if skip then { c with head := c.inc, moved := 0, st := if c.enable then .running else .idle }
  else if retry then { c with moved := 0, st := if c.enable then .running else if c.head = c.tail then .idle else .stopping }
  else c

/-- ENABLE set or cleared. A channel with ENABLE 1 and nothing to perform is RUNNING (R96, R99) (DEDUCED, log row 27). -/
def DmaCh.setEnable (on : Bool) (c : DmaCh) : DmaCh :=
  if on then { c with enable := true, st := if c.st = .idle || c.st = .stopping then .running else c.st }
  else
    { c with enable := false,
             st := match c.st with
               | .running => if c.head = c.tail then .idle else .stopping
               | .halted => .idle
               | x => x }

/-- GLB_DMAn_CTRL, a masked write; a SKIP that brings HEAD to TAIL raises RING_EMPTY (R46, R96). -/
def dmaCtrl (n : Fin 4) (w : Word) (m : Mach) : Mach :=
  let c := m.g.dma[n]
  let c1 := if bitOf w 16 then c.setEnable (bitOf w 0) else c
  let c2 := c1.recover (bitOf w 18 && bitOf w 2) (bitOf w 17 && bitOf w 1)
  whenM (decide (c2.head ≠ c.head) && decide (c2.head = c2.tail)) (raise (.dma n) 2) (onDma n (fun _ => c2) m)

/-- GLB_DMAn_RING_LO and HI together: refused while ENABLE is 1, with the offset of the access (R78, R96, R99). -/
def dmaRing (p : Port) (off : Nat) (n : Fin 4) (lo hi : Word) (m : Mach) : Mach :=
  if m.g.dma[n].enable then accErr p off m
  else onDma n (fun c => { c with ringLo := lo &&& 0xFFFFF000#32, ringHi := hi, head := 0, moved := 0 }) m

/-- GLB_DMAn_RING_SIZE; TAIL is an index modulo the ring's size (R96). -/
def dmaSize (p : Port) (n : Fin 4) (v : Word) (m : Mach) : Mach :=
  let k := fld v 3 0
  if m.g.dma[n].enable || k < 4 || 12 < k then accErr p (0x1008 + 0x100 * n.val) m
  else onDma n (fun c => { c with log2 := BitVec.ofNat 4 k, tail := BitVec.ofNat 12 (c.tail.toNat % 2 ^ k), head := 0, moved := 0 }) m

/-- How a descriptor ended: its result and the bytes moved. -/
structure DmaEnd where
  result : Nat
  moved : Nat
deriving DecidableEq, Repr

/-- The first byte of a range at which a write into a guarded forme would begin, as a count from its start (R204). -/
def guardStop (m : Mach) (a n : Nat) : Option Nat :=
  ((guarded m).filter (meets a n)).foldl (fun best r => let x := r.1 - a; match best with | none => some x | some y => some (min x y)) none

/-- Where a transfer of `n` bytes at layer address `a` is cut short, each with its result: a guarded range (R204), SAFE_HOLD (R29, R99), a
host error, or host data that do not come (R90). A descriptor in progress as SAFE_HOLD was entered stops at the next 512-byte boundary;
any later DIR 0 descriptor moves nothing. -/
def dmaCuts (m : Mach) (c : DmaCh) (x : DmaIn) (a n : Nat) (toLayer : Bool) : List DmaEnd :=
  (if toLayer then (match guardStop m a n with | some k => [⟨3, k⟩] | none => []) else []) ++
  (if toLayer && m.g.dev = .safeHold then
    (let k := if c.held then divUp (a + x.stop) 512 * 512 - a else 0; if k < n then [⟨5, k⟩] else []) else []) ++
  (match x.hostErr with | some k => [⟨1, min k n⟩] | none => []) ++
  (if toLayer && decide (x.data.length < n) then [⟨1, x.data.length⟩] else [])

/-- The first of several cuts; of cuts at one byte the first in the list. -/
def dmaFirst : List DmaEnd → Option DmaEnd
  | [] => none
  | e :: t => match dmaFirst t with | some f => some (if f.moved < e.moved then f else e) | none => some e

/-- Result of a descriptor and the bytes it moves: ALIGN, then REGION, then what comes first in the range, then POISONED. Reserved bits are
ignored (R15, R90, R91, R94, R99, R204, R659) (DEDUCED, log row 27) (DESIGN CHOICE, log row 114). -/
def dmaJudge (m : Mach) (c : DmaCh) (x : DmaIn) : DmaEnd :=
  let a := fld x.layer 32 0
  let n := fld x.len 28 0
  let toLayer := !bitOf x.ctl 0
  if x.host.toNat % 32 ≠ 0 || a % 32 ≠ 0 || n % 32 ≠ 0 || n < 32 || 268435456 < n then ⟨4, 0⟩
  else if (toLayer && !(inRegion m 0 a n || inRegion m 6 a n)) || layerEnd < a + n then ⟨3, 0⟩
  else
    match dmaFirst (dmaCuts m c x a n toLayer) with
    | some e => ⟨e.result, max c.moved e.moved⟩
    | none =>
      let bad := if toLayer then ((blocksOf a n).filter (fun k => k ∉ wholeBlocks a n)).any (fun k => k ∈ m.mem.poison || k ∈ x.ecc.ue)
        else readBad m a n x.ecc
      ⟨if bad then 2 else 0, n⟩

/-- The bytes a DIR 0 descriptor stores: those of partly covered blocks that cannot be merged are left out (R659). -/
def dmaStore (a : Nat) (bs : List Byte) (e : Ecc) (m : Mach) : Mach :=
  let n := bs.length
  let bad := (blocksOf a n).filter (fun k => k ∉ wholeBlocks a n && (k ∈ m.mem.poison || k ∈ e.ue))
  if bad = [] then memWrite a bs m
  else
    let m1 := eachM bad (ueFound 1) m
    eachM ((blocksOf a n).filter (fun k => k ∉ bad)) (fun k m' =>
      let lo := max a (64 * k)
      let hi := min (a + n) (64 * k + 64)
      memWrite lo ((bs.drop (lo - a)).take (hi - lo)) m') m1

/-- The data a DIR 1 descriptor sends for `n` bytes at `a`, block by block: those of an uncorrectable block go as poisoned TLPs, the others
as they are (R94). -/
def dmaSend (ch : Nat) (host : BitVec 64) (a n : Nat) (e : Ecc) (m : Mach) : Mach :=
  eachM (blocksOf a n) (fun k m' =>
    let lo := max a (64 * k)
    let hi := min (a + n) (64 * k + 64)
    emit (.dmaData ch (host + BitVec.ofNat 64 (lo - a)) (memBytes m lo (hi - lo)) (k ∈ m.mem.poison || k ∈ e.ue)) m') (memRead 1 a n e m)

/-- One request of a channel: the descriptor's bytes up to the next 512-byte boundary, or to byte `k` of it (R97). -/
def dmaRequest (n : Fin 4) (x : DmaIn) (k : Nat) (m : Mach) : Mach :=
  let c := m.g.dma[n]
  if k ≤ c.moved then m
  else
    let a := fld x.layer 32 0 + c.moved
    let z := min (512 - a % 512) (k - c.moved)
    let m1 := if bitOf x.ctl 0 then dmaSend n.val (x.host + BitVec.ofNat 64 c.moved) a z x.ecc m
      else dmaStore a ((x.data.drop c.moved).take z) x.ecc m
    onDma n (fun c => { c with moved := c.moved + z }) m1

/-- What a channel is given of host memory, and where its descriptor ends. -/
abbrev DmaJob := Fin 4 × DmaIn × DmaEnd

/-- One turn of the rotation: the channel whose turn it is gets one request, if it is ready; the turn passes on. Nothing more is served
once channel `n` has moved `k` bytes (R97). -/
def dmaTurn (n : Fin 4) (k : Nat) (js : List DmaJob) (m : Mach) : Mach :=
  if k ≤ m.g.dma[n].moved then m
  else
    let t := m.g.dmaTurn
    let m1 := match js.find? (fun j => decide (j.1 = t)) with
      | some j => if m.g.dma[t].busy then dmaRequest t j.2.1 j.2.2.moved m else m
      | none => m
    { m1 with g := { m1.g with dmaTurn := t + 1 } }

/-- The channels are served in rotation, one request each, until channel `n` has moved what its descriptor moves (R97). -/
def dmaServe (n : Fin 4) (js : List DmaJob) (k : Nat) (m : Mach) : Mach :=
  eachM (List.range (4 * (k / 512 + 2))) (fun _ => dmaTurn n k js) m

/-- A descriptor ends: LAST_TAG, LAST_RESULT, HEAD, the channel's state and its events; DESC_DONE comes with any result (R90, R95, R96). -/
def dmaClose (n : Fin 4) (tag : BitVec 16) (result : Nat) (irq : Bool) (m : Mach) : Mach :=
  let c := m.g.dma[n]
  let ok := decide (result = 0)
  let head := if ok then c.inc else c.head
  let st := if !ok then DmaState.halted else if c.st = .stopping then .idle else .running
  let m1 := onDma n (fun c => { c with head := head, st := st, lastTag := tag, lastResult := BitVec.ofNat 3 result, moved := 0, held := false }) m
  let m2 := whenM irq (raise (.dma n) 0) m1
  let m3 := whenM (ok && decide (head = c.tail)) (raise (.dma n) 2) m2
  whenM (!ok) (raise (.dma n) 1) m3

/-- A descriptor completes or fails: the channels' data in rotation, the status written back, and the channel's registers (R90 to R97).
`others` is what the other channels have read of host memory. -/
def dmaDescDone (n : Fin 4) (x : DmaIn) (others : List (Fin 4 × DmaIn)) (m : Mach) : Mach :=
  let c := m.g.dma[n]
  if !(c.busy && m.g.linkUp) then m
  else
    let r := dmaJudge m c x
    let js : List DmaJob := (n, x, r) :: others.map (fun o => (o.1, o.2, dmaJudge m m.g.dma[o.1] o.2))
    let m1 := dmaServe n js r.moved m
    let m2 := emit (.dmaStatus n.val c.head.toNat (BitVec.ofNat 32 (r.result * 2 + 1)) (BitVec.ofNat 32 r.moved)) m1
    dmaClose n (BitVec.ofNat 16 (fld x.ctl 31 16)) r.result (bitOf x.ctl 1) m2

/-! ### Host presence (R36 to R42) -/

/-- Host-absent mode begins (R37, R38): reason 0 the host timeout, 1 the link (R816). -/
def hostAbsentBegin (reason : Nat) (m : Mach) : Mach :=
  if !inBuild m || m.g.hostAbsent then m
  else
    let m1 := raise .glb 7 { m with g := { m.g with hostAbsent := true, absentAt := m.time.dt } }
    let m2 := log 0x40 sevNotice 0xFF (leBytes 1 reason) m1
    match checkingSlot m2 with
    | some i => commitDrop 0x16 (log 0x1040 sevNotice i.val (leBytes 8 (m2.job.slots[i].addr)) m2)
    | none => m2

/-- The host is present (R36). -/
def hostPresent (m : Mach) : Bool := !m.g.hbExpired && m.g.linkUp && !m.g.d3hot

/-- A GLB_HEARTBEAT write: from the host port it restarts the host timeout and ends host-absent mode (R42, R73). -/
def heartbeat (p : Port) (v : Word) (m : Mach) : Mach :=
  let m1 := { m with g := { m.g with heartbeat := v } }
  match p with
  | .mgmt => m1
  | .host =>
    let m2 := { m1 with g := { m1.g with hbExpired := false } }
    if m2.g.hostAbsent && m2.g.linkUp then
      raise .glb 8 (log 0x41 sevNotice 0xFF (leBytes 8 (m2.time.dt - m2.g.absentAt).toNat) { m2 with g := { m2.g with hostAbsent := false } })
    else m2

/-- The host timeout expires (R36, R37). -/
def hostTimeout (m : Mach) : Mach :=
  if !powered m || m.g.dev = .shutdownLatched then m else hostAbsentBegin 0 { m with g := { m.g with hbExpired := true } }

/-- The upload that a lost link cuts short in host-absent mode is logged as a forme discarded (R38, R108) (DEDUCED, log row 27). -/
def uploadLost (x : DmaIn) (m : Mach) : Mach :=
  let a := fld x.layer 32 0
  whenM (m.g.hostAbsent && !bitOf x.ctl 0 && inRegion m 0 a 1) (log 0x1040 sevNotice 0xFF (leBytes 8 a)) m

/-- A channel whose descriptor is in progress when the link is lost stops at once and halts with LINK_LOST; its write-back is lost with the
link (R99, R108). `lost` is what the channels had read; the TAG of a descriptor that it does not name is a free value (DEDUCED, log row 27). -/
def dmaLinkLost (lost : List (Fin 4 × DmaIn)) (n : Fin 4) (m : Mach) : Mach :=
  let c := m.g.dma[n]
  if !c.busy then m
  else
    match lost.find? (fun o => decide (o.1 = n)) with
    | some o =>
      let k := min (dmaJudge m c o.2).moved (max c.moved o.2.stop)
      let m1 := dmaServe n [(n, o.2, ⟨6, k⟩)] k m
      dmaClose n (BitVec.ofNat 16 (fld o.2.ctl 31 16)) 6 (bitOf o.2.ctl 1) m1
    | none =>
      let (tag, m1) := drawWord m
      dmaClose n (BitVec.ofNat 16 tag.toNat) 6 false m1

/-- The link goes down: LINK_WAS_DOWN, MSI-X disabled, DMA halted, host-absent mode in a build (R37, R103, R108). The configuration space
returns to its defaults, as it does with a reset (R106, R107) (DEDUCED, log row 113). -/
def linkLoss (lost : List (Fin 4 × DmaIn)) (m : Mach) : Mach :=
  if !m.g.linkUp then m
  else
    let off := m.g.msix.map (fun e => { e with pend := false, interval := false })
    let m1 := { m with g := { m.g with linkUp := false, d3hot := false, pci := {}, msix := off } }
    let m2 := hostAbsentBegin 1 (eachM (List.finRange 4) (dmaLinkLost lost) (raise .glb 9 m1))
    eachM (lost.filter (fun o => m.g.dma[o.1].busy)) (fun o => uploadLost o.2) m2

/-- The link comes up, as trained, and host software restores the configuration space: `cfg` (R83, R103, R107) (DEDUCED, log row 113). -/
def linkUp (cfg : PciCfg) (m : Mach) : Mach :=
  if powered m && domainOn m 10 && !hostHeld m && !m.g.resetHeld && m.g.dev ≠ .shutdownLatched then
    { m with g := { m.g with linkUp := true, d3hot := false, pci := cfg } }
  else m

/-- Entry into D3hot (R84). -/
def d3hotEntry (m : Mach) : Mach :=
  if !m.g.linkUp || m.g.d3hot then m else hostAbsentBegin 1 (raise .glb 9 { m with g := { m.g with d3hot := true } })

/-- Send a vector's gathered occurrences, if nothing holds them back (R102). -/
def msixFlush (v : Fin 64) (m : Mach) : Mach :=
  let e := m.g.msix[v]
  if e.pend && !e.mask && !e.interval && msixLive m && !m.g.d3hot then msixSend v m else m

/-- Return to D0 (R84). -/
def d0Return (m : Mach) : Mach :=
  if !m.g.d3hot then m else eachM (List.finRange 64) msixFlush { m with g := { m.g with d3hot := false } }

/-- A vector's moderation interval ends (R102). -/
def msixIntervalEnd (v : Fin 64) (m : Mach) : Mach :=
  msixFlush v { m with g := { m.g with msix := m.g.msix.set v { m.g.msix[v] with interval := false } } }

/-- A vector's mask bit is written (R100, R102). -/
def msixMask (v : Fin 64) (b : Bool) (m : Mach) : Mach :=
  msixFlush v { m with g := { m.g with msix := m.g.msix.set v { m.g.msix[v] with mask := b } } }

/-- GLB_HEARTBEAT, offset 0x00_0024. -/
def execGlbHeartbeat (p : Port) (v : Word) (s : State) : Out := s.act (writeGate p 0x24 (heartbeat p v))
/-- HOST_TIMEOUT_EXPIRE. -/
def execHostTimeoutExpire (s : State) : Out := s.act hostTimeout
/-- PCIE_LINK_LOSS. -/
def execPcieLinkLoss (s : State) (lost : List (Fin 4 × DmaIn) := []) : Out := s.act (linkLoss lost)
/-- PCIE_HOT_RESET: handled as a link loss (R108). -/
def execPcieHotReset (s : State) (lost : List (Fin 4 × DmaIn) := []) : Out := s.act (linkLoss lost)
/-- PERST_N_ASSERT: handled as a link loss (R792). -/
def execPerstNAssert (s : State) (lost : List (Fin 4 × DmaIn) := []) : Out := s.act (linkLoss lost)
/-- PCIE_LINK_UP: link up alone does not end host-absent mode (R108). -/
def execPcieLinkUp (cfg : PciCfg) (s : State) : Out := s.act (linkUp cfg)
/-- D3HOT_ENTRY. -/
def execD3hotEntry (s : State) : Out := s.act d3hotEntry
/-- D0_RETURN. -/
def execD0Return (s : State) : Out := s.act d0Return
/-- MSIX_INTERVAL_END. -/
def execMsixIntervalEnd (v : Fin 64) (s : State) : Out := s.act (msixIntervalEnd v)
/-- MSIX_UNMASK: a mask bit of the MSI-X table is cleared (entry word 3 at 0x00_2000 + 16 v + 12). -/
def execMsixUnmask (v : Fin 64) (s : State) : Out := s.act (writeGate .host (0x2000 + 16 * v.val + 12) (msixMask v false))

/-! ### BAR2 (R81, R85 to R89) -/

/-- The window base. -/
def winBase (m : Mach) : Nat := fld m.g.winHi 0 0 * 2 ^ 32 + fld m.g.winLo 31 20 * 2 ^ 20

/-- A write of both GLB_WIN words; a refusal records the offset of the access (R78, R85). -/
def winWrite (p : Port) (off : Nat) (lo hi : Word) (m : Mach) : Mach :=
  if fld hi 0 0 * 2 ^ 32 + fld lo 31 20 * 2 ^ 20 ≤ 0x1B0000000 then
    { m with g := { m.g with winLo := lo &&& 0xFFF00000#32, winHi := hi &&& 1#32 } }
  else accErr p off m

/-- A BAR2 request reaches the device: the host reaches it and has placed BAR2 (R83, R107). -/
def bar2Live (m : Mach) : Bool := reaches m .host && m.g.pci.bar2.isSome

/-- A BAR2 read (R86, R88, R89); before layer memory is trained it gets no completion (DESIGN CHOICE, log row 114). -/
def bar2Read (off n : Nat) (e : Ecc) (m : Mach) : Mach :=
  if !(bar2Live m && m.mem.trained) then m
  else
    let a := winBase m + off
    let m1 := memRead 0 a n e m
    if readBad m a n e then emit (.bar2Poison a) m1 else emit (.bar2Data a (memBytes m a n)) m1

/-- A BAR2 write is accepted where it lies in the forme store or in the spare region, outside guarded ranges and SAFE_HOLD; any
other, one across both regions too, is dropped and raises WIN_REFUSED (R29, R87, R204) (DESIGN CHOICE, log row 114). -/
def bar2Write (off : Nat) (bs : List Byte) (m : Mach) : Mach :=
  if !bar2Live m then m
  else
    let a := winBase m + off
    let n := bs.length
    if m.mem.trained && (inRegion m 0 a n || inRegion m 6 a n) && m.g.dev ≠ .safeHold && !(guarded m).any (meets a n) then memWrite a bs m
    else raise .glb 11 m

/-- BAR2_READ of `len` bytes. -/
def execBar2Read (off : BitVec 28) (len : Nat) (ecc : Ecc) (s : State) : Out := s.act (bar2Read off.toNat len ecc)
/-- BAR2_WRITE. -/
def execBar2Write (off : BitVec 28) (bytes : List Byte) (s : State) : Out := s.act (bar2Write off.toNat bytes)
/-- WINDOW_BASE_WRITE: both words of GLB_WIN. -/
def execWindowBaseWrite (p : Port) (lo hi : Word) (s : State) : Out := s.act (pairGate p 0x48 (winWrite p 0x48 lo hi))

/-- DMA_TAIL_WRITE. -/
def execDmaTailWrite (p : Port) (n : Fin 4) (v : Word) (s : State) : Out := s.act (writeGate p (0x100C + 0x100 * n.val) (dmaTail n v))
/-- DMA_ENABLE: a GLB_DMAn_CTRL write of 0x0001_0001. -/
def execDmaEnable (p : Port) (n : Fin 4) (s : State) : Out := s.act (writeGate p (0x1014 + 0x100 * n.val) (dmaCtrl n 0x00010001))
/-- DMA_DISABLE: a GLB_DMAn_CTRL write of 0x0001_0000. -/
def execDmaDisable (p : Port) (n : Fin 4) (s : State) : Out := s.act (writeGate p (0x1014 + 0x100 * n.val) (dmaCtrl n 0x00010000))
/-- DMA_SKIP: a GLB_DMAn_CTRL write of 0x0004_0004. -/
def execDmaSkip (p : Port) (n : Fin 4) (s : State) : Out := s.act (writeGate p (0x1014 + 0x100 * n.val) (dmaCtrl n 0x00040004))
/-- DMA_RETRY: a GLB_DMAn_CTRL write of 0x0002_0002. -/
def execDmaRetry (p : Port) (n : Fin 4) (s : State) : Out := s.act (writeGate p (0x1014 + 0x100 * n.val) (dmaCtrl n 0x00020002))
/-- DMA_RING_WRITE: the ring size, or both words of the ring base. -/
def execDmaRingWrite (p : Port) (n : Fin 4) (size : Bool) (lo hi : Word) (s : State) : Out :=
  s.act (if size then writeGate p (0x1008 + 0x100 * n.val) (dmaSize p n lo) else pairGate p (0x1000 + 0x100 * n.val) (dmaRing p (0x1000 + 0x100 * n.val) n lo hi))
/-- DMA_DESC_DONE. -/
def execDmaDescDone (n : Fin 4) (host layer : BitVec 64) (len ctl : Word) (data : List Byte) (hostErr : Option Nat) (stop : Nat) (ecc : Ecc)
    (s : State) (others : List (Fin 4 × DmaIn) := []) : Out :=
  s.act (dmaDescDone n ⟨host, layer, len, ctl, data, hostErr, stop, ecc⟩ others)

end Sys2Proof.Machine
end

