-- ==== Sys2Proof/Machine/HeatBase.lean ====
section
/-!
DEFINITION. The heat maps and the recording ring (R376 to R388) as deposits, sweeps, layer boundaries and the melt-pool engines
share them.
-/

namespace Sys2Proof.Machine

/-! ### The grid (R376) -/

/-- PITCH, nm. -/
def hmPitch (m : Mach) : Nat := max 1 (recWord m recHmapGrid 0).toNat

/-- A field of the MACHINE section's bed extent (R230). -/
def bedS (m : Mach) (off : Nat) : Int := rdLeS (secBytes m 2 0xFFFF) off 4

/-- NX. -/
def hmNx (m : Mach) : Nat := divUp (bedS m 4 - bedS m 0).toNat (hmPitch m) + 1

/-- NY. -/
def hmNy (m : Mach) : Nat := divUp (bedS m 12 - bedS m 8).toNat (hmPitch m) + 1

/-- Bytes of one map. -/
def hmBytes (m : Mach) : Nat := 2 * hmNx m * hmNy m

/-- Layer address of the current map (`true`) or of the previous one. -/
def hmBase (m : Mach) (current : Bool) : Nat := (region m 3).1 + (if m.hmap.cur == current then hmBytes m else 0)

/-- A node's 16 bits. -/
def hmNode (m : Mach) (current : Bool) (n : Nat) : Nat := memLe m (hmBase m current + 2 * n) 2

/-- Bytes of the heat-map unit's own, kept within it rather than in a channel's write queue. -/
def memPoke (a : Nat) (bs : List Byte) (m : Mach) : Mach := { m with mem := { m.mem with cells := putAll memDefault m.mem.cells a bs } }

/-- A node rewritten. -/
def hmSet (current : Bool) (n v : Nat) (m : Mach) : Mach := memPoke (hmBase m current + 2 * n) (leBytes 2 v) m

/-- The nodes of a map that are not zero. -/
def hmListed (m : Mach) (current : Bool) : List Nat :=
  let a := hmBase m current
  (m.mem.cells.filter (fun e => decide (a ≤ e.1) && decide (e.1 < a + hmBytes m))).foldl (fun l e => addNew l ((e.1 - a) / 2)) []

/-- A map set to zero. -/
def hmZero (current : Bool) (m : Mach) : Mach :=
  { m with mem := { m.mem with cells := dropRange m.mem.cells (hmBase m current) (hmBytes m) } }

/-- Column or row nearest a coordinate in 2^-16 nm, before the grid's bounds (DEDUCED, log row 73). -/
def hmIndex (m : Mach) (lo : Int) (x : Int) : Int := divF (2 * (x - lo * 65536) + hmPitch m * 65536) (2 * hmPitch m * 65536)

/-- The node nearest a bed point, or none outside the grid (DEDUCED, log row 73). -/
def hmAt (m : Mach) (x y : Int) : Option Nat :=
  let i := hmIndex m (bedS m 0) x
  let j := hmIndex m (bedS m 8) y
  if 0 ≤ i ∧ i < hmNx m ∧ 0 ≤ j ∧ j < hmNy m then some (j.toNat * hmNx m + i.toNat) else none

/-! ### Deposits (R378, R389) -/

/-- The halved updates of R389 are in force. -/
def throttled (m : Mach) : Bool := m.hlt.stage = .reduce || m.hlt.stage = .slow

/-- ΔH of one DAC instant, in the parts of 0.2 mJ/mm² that `depositDen` counts; `mul` is the factor m × 2^48. -/
def depositUnit (m : Mach) (b : Fin 12) (code mul : Nat) : Nat := code * pMax m b * (recWord m recHmapHeat 0).toNat * mul * 2500000

/-- Parts of a deposit in one unit of 0.2 mJ/mm². -/
def depositDen (m : Mach) : Nat := hmPitch m * hmPitch m * 65535 * 65536 * 281474976710656

/-- The run in progress of a beam is added to its node, which sets EXPOSED (DEDUCED, log row 73). -/
def depositEnd (b : Fin 12) (m : Mach) : Mach :=
  let d := m.hmap.runs[b]
  let m1 := onHmap (fun h => { h with runs := h.runs.set b ⟨none, 0, false⟩ }) m
  match d.node with
  | none => m1
  | some n => hmSet true n (32768 + min 32767 (hmNode m true n % 32768 + (2 * d.sum + depositDen m) / (2 * depositDen m))) m1

/-- A deposit at a bed point: the run goes on while the nearest node stays the same. -/
def deposit (b : Fin 12) (x y : Int) (code mul : Nat) (m : Mach) : Mach :=
  let d := m.hmap.runs[b]
  if throttled m && d.skip then onHmap (fun h => { h with runs := h.runs.set b { d with skip := false } }) m
  else
    let node := hmAt m x y
    let m1 := if d.node ≠ node then depositEnd b m else m
    let add := depositUnit m b code mul * (if throttled m then 2 else 1)
    onHmap (fun h => { h with runs := h.runs.set b ⟨node, h.runs[b].sum + add, throttled m⟩ }) m1

/-! ### Sweeps and layers -/

/-- f with 16 fraction bits (R380), squared under R389. -/
def hmDecay (m : Mach) : Nat :=
  let per := (recWord m recHmapHeat 3).toNat
  let tau := max 1 (recWord m recHmapHeat 2).toNat
  let f := (divR (expQ (-(per * q60 / tau)) * 65536) q60).toNat
  if throttled m then (f * f + 32768) / 65536 else f

/-- The current map decays by one sweep (R380) (DEDUCED, log row 72). -/
def hmSweep (m : Mach) : Mach :=
  let f := hmDecay m
  eachM (hmListed m true) (fun n m' => let v := hmNode m' true n; hmSet true n (v / 32768 * 32768 + (2 * (v % 32768) * f + 65536) / 131072) m') m

/-- The maps change at a layer boundary (R381) (DEDUCED, log row 72). -/
def hmBoundary (m : Mach) : Mach :=
  let carry := (recWord m recHmapHeat 4).toNat
  let m1 := hmZero true (onHmap (fun h => { h with cur := !h.cur, copying := true }) m)
  eachM (hmListed m1 false) (fun n m' => hmSet true n ((2 * (hmNode m' false n % 32768) * carry + 65536) / 131072) m') m1

/-- START of GLB_CMD clears both maps and sets EXPOSED in the previous one (R382). -/
def hmStart (m : Mach) : Mach :=
  let m1 := hmZero true (hmZero false (onHmap (fun h => { h with runs := Vector.replicate 12 ⟨none, 0, false⟩ }) m))
  memPoke (hmBase m1 false) ((List.replicate (hmNx m1 * hmNy m1) [0#8, 128#8]).flatten) m1

/-! ### Look-ahead (R383) -/

/-- H of the current map at a bed point; a bad node and one outside the grid count as 0. -/
def hmHeat (m : Mach) (bad : Nat → Bool) (x y : Int) : Nat :=
  match hmAt m x y with
  | some n => if bad (hmBase m true + 2 * n) then 0 else hmNode m true n % 32768
  | none => 0

/-- The bed points a request reads: the k-th lies k × PITCH ahead along d. -/
def laPoints (m : Mach) (x y dx dy : Int) : List (Nat × Int × Int) :=
  tab ((recWord m recHmapLa 0).toNat + 1) (fun k =>
    (k, x + divR (k * hmPitch m * 65536 * dx) q60, y + divR (k * hmPitch m * 65536 * dy) q60))

/-- Hla × 256. -/
def laHeat (m : Mach) (bad : Nat → Bool) (x y dx dy : Int) : Nat :=
  (laPoints m x y dx dy).foldl (fun a (k, px, py) => max a ((256 - k * (recWord m recHmapLa 1).toNat) * hmHeat m bad px py)) 0

/-- The answer to a look-ahead request (DEDUCED, log row 82). -/
def laAnswer (m : Mach) (bad : Nat → Bool) (x y dx dy : Int) : Nat :=
  let down := match hmAt m x y with | some n => !bad (hmBase m false + 2 * n) && decide (hmNode m false n < 32768) | none => true
  let d := if down then (recWord m recHmapLa 4).toNat else 0
  let past : Int := laHeat m bad x y dx dy + 256 * (d : Int) - 256 * ((recWord m recHmapLa 2).toNat : Int)
  let fall := (recWord m recHmapLa 3).toNat * past.toNat
  (divR ((2560000000 - fall : Nat) * 65535 : Nat) 2560000000).toNat

/-- The addresses a request reads. -/
def laReads (m : Mach) (x y dx dy : Int) : List Nat :=
  ((laPoints m x y dx dy).filterMap (fun (_, px, py) => (hmAt m px py).map (fun n => hmBase m true + 2 * n))) ++
  ((hmAt m x y).map (fun n => hmBase m false + 2 * n)).toList

/-! ### The recording ring (R384 to R388) -/

/-- CAP. -/
def ringCap (m : Mach) : Nat := (region m 1).2 / 64

/-- The slug of a beam that is current at a device time: forme, index, source, parameter set. -/
def slugAtTime (m : Mach) (b : Fin 12) (t : Nat) : Option (Word × Nat × Nat × Nat) :=
  let x := m.beams[b]
  let ps := x.plan.toList ++ (x.stopping.map (fun d => d.plan)).toList ++ x.prev
  (ps.find? (fun p => decide (p.start ≤ t * 65536))).map (fun p => (p.forme, p.work.index, p.work.src, p.pset))

/-- An entry's 64 bytes. -/
def ringBytes (m : Mach) (b : Fin 12) (type flags time : Nat) (body : List Byte) : List Byte :=
  let (f, i, s, p) := match slugAtTime m b time with | some q => q | none => (0, 0, 0xFF, 0)
  let h : List Byte := [BitVec.ofNat 8 type, BitVec.ofNat 8 b.val] ++ leBytes 2 (flags + b2n (m.g.dev = .proof)) ++ leBytes 4 m.hmap.seq.toNat ++
    leBytes 8 time ++ leBytes 4 f.toNat ++ leBytes 4 i ++ [BitVec.ofNat 8 s, BitVec.ofNat 8 p] ++ leBytes 2 0 ++ (body ++ List.replicate 32 0).take 32
  h ++ leBytes 4 (crc32 h).toNat

/-- A retraining of layer memory runs (R664). -/
def retrains (m : Mach) : Bool := m.mem.ch0.st = .retraining || m.mem.ch1.st = .retraining

/-- An entry goes into the ring (R387, R388), if its beam records; HMAP_REC is taken for it. During a retraining an engine holds 128 KB, 2,048 entries, and entries
beyond are lost (R664) (DEDUCED, log row 80). -/
def ringWrite (b : Fin 12) (type flags time : Nat) (body : List Byte) (m0 : Mach) : Mach :=
  let m := takeRecord recHmapRec m0
  let cap := ringCap m
  if !bitOf (recWord m recHmapRec 0) b.val || cap = 0 then m
  else if retrains m && decide (2048 ≤ m.mpl[b].recHeld) then onHmap (fun h => { h with lost := h.lost + 1 }) m
  else
    let full := decide (cap ≤ m.hmap.count)
    let wr := m.hmap.wr.toNat % cap
    let step := fun (w : Word) => BitVec.ofNat 32 (if w.toNat + 1 < cap then w.toNat + 1 else 0)
    let m1 := memWrite ((region m 1).1 + 64 * wr) (ringBytes m b type flags time body) (if retrains m then onMpl b (fun x => { x with recHeld := x.recHeld + 1 }) m else m)
    let m2 := onHmap (fun h => { h with
      wr := step h.wr, seq := h.seq + 1, rd := if full then step h.rd else h.rd, lost := if full then h.lost + 1 else h.lost,
      count := if full then h.count else h.count + 1, overwriting := full }) m1
    let m3 := whenM (full && !m.hmap.overwriting) (raise .hmap 1) m2
    whenM (decide (cap ≤ 8 * (cap - m.hmap.count)) && decide (8 * (cap - m3.hmap.count) < cap)) (raise .hmap 0) m3

/-- An entry of a beam; a retired beam records nothing further (R389). -/
def ringPush (b : Fin 12) (type flags time : Nat) (body : List Byte) (m : Mach) : Mach :=
  if m.imp.beams[b].cause ≠ 0 then m else ringWrite b type flags time body m

/-- The counter of an MPLb_EVENT bit (R385); a bit without one shows 0 (DEDUCED, log row 80). -/
def mplCounter (x : Mpl) (bit : Nat) : Nat :=
  match bit with
  | 0 => x.pdMissing.toNat
  | 1 => x.pdSatWindows.toNat
  | 2 => x.framesDropped.toNat
  | 3 => x.framesImplausible.toNat
  | _ => 0

/-- A melt-pool event: its bit, and a STREAM entry (R386) (DEDUCED, log row 80). -/
def mplRaise (b : Fin 12) (bit : Nat) (m : Mach) : Mach :=
  ringPush b 3 0 (now m) ([BitVec.ofNat 8 bit, 0, 0, 0] ++ leBytes 4 (mplCounter m.mpl[b] bit)) (raise (.mpl b) bit m)

/-- A host write of HMAP_REC_RD (R400). -/
def ringRelease (p : Port) (v : Word) (m : Mach) : Mach :=
  let cap := ringCap m
  let h := m.hmap
  let d := if h.rd.toNat ≤ v.toNat then v.toNat - h.rd.toNat else v.toNat + cap - h.rd.toNat
  if v = h.wr then onHmap (fun h => { h with rd := v, count := 0, overwriting := false }) m
  else if v.toNat < cap && d ≤ h.count then
    onHmap (fun h => { h with rd := v, count := h.count - d, overwriting := if d = 0 then h.overwriting else false }) m
  else accErr p 0x5E010 m

/-- HMAP_REC_RD_WRITE: a write of HMAP_REC_RD, offset 0x05_E010. -/
def execHmapRecRdWrite (p : Port) (v : Word) (s : State) : Out := s.act (writeGate p 0x5E010 (ringRelease p v))

end Sys2Proof.Machine
end

