-- ==== Sys2Proof/Machine/JobFlow.lean ====
section
/-!
DEFINITION. The layer cycle (R24 to R44, R213 to R216, R252, R823): layer boundaries, make-ready steps, entry into EXPOSING and
the end of a layer, as the job commands and every event that ends a slug share them.
-/

namespace Sys2Proof.Machine

/-! ### Layer boundaries (R146) -/

/-- A layer boundary: layer commits, an armed reload (R168), camera settings, the heat map, the applied trim, and galleys withheld
until it (DEDUCED, log row 68). -/
def layerBoundary (maps : Bool) (m0 : Mach) : Mach :=
  let m1 := reloadSwitch (takeLayerRecords { m0 with boot := { m0.boot with layerOn := true } })
  let m2 := whenM maps hmBoundary m1
  eachM allBeams (fun b m =>
    configSend b (onMpl b (fun x => { x with tApp := 0 }) (onImp b (fun x =>
      if x.pendingBoundary then { x with galleyPending := false, pendingBoundary := false } else x) m))) m2

/-- The forme at the head of the queue becomes ACTIVE (R207) (DEDUCED, log row 59). -/
def activate (i : Fin 64) (m : Mach) : Mach :=
  let m1 := unqueue i (onSlot i (fun s => { s with st := .active }) m)
  let m2 := onJob (fun j => { j with active := some i, params := formeParams m1 m1.job.slots[i].addr }) m1
  sigPub 757 (jobLayer m2) m2

/-! ### Exposure (R252) -/

/-- R252. -/
def exposureDone (m : Mach) : Bool :=
  allBeams.all (fun b => (let x := m.imp.beams[b]
    x.cur.isNone && x.next.isNone && x.interrupted.isNone &&
    (!beamLive m b || (match activeAddr m with
      | some fa => decide (srcCount m fa (0x80 + b.val) ≤ x.galleyAt) || (galleyLeft m b).isEmpty
      | none => true)) &&
    (m.imp.rescue[b]).all (fun e => e.taken))) &&
  m.imp.scans.isEmpty && m.imp.toScan.isEmpty &&
  (match activeAddr m with
   | some fa => (List.range 64).all (fun z => (List.range (srcCount m fa z)).all (fun i => slugState m z i ≠ .untaken))
   | none => true)

/-- Work of the layer begins afresh: the working area, the loads of the beams and the pools (R240, R270, R279, R285) (DEDUCED, log row 59). -/
def impFresh (m : Mach) : Mach :=
  let slot : Slot := match m.job.active with | some i => m.job.slots[i] | none => {}
  let m1 := onImpAll (fun x => { x with
    slugs := [], remainders := [], rescue := Vector.replicate 12 [], u := slot.u, toScan := [], held := 0, endedCount := 0, incomplete := false, layerOpen := true }) m
  eachM allBeams (fun b => onImp b (fun x => { x with
    cur := none, next := none, interrupted := none, wait := none, curOn := none, curPred := 0, nextPred := 0, lastCut := none, busyUs := 0, waitUs := 0,
    g := slot.g.getD b.val 0, galleyAt := 0,
    galleyPending := x.galleyPending && x.pendingBoundary })) m1

/-- Every beam engine reads the forme's parameter sets, at the entry into EXPOSING (R336, R659). -/
def loadSets (m0 : Mach) : Mach :=
  match activeAddr m0 with
  | none => m0
  | some fa =>
    let bs := allBeams.filter (fun b => fitted m0 b.val)
    let m := eachM bs (fun b => memRead 4 (fa + 4096) 4096 (if bs.head? = some b then m0.env.ecc else {})) m0
    let sets := tab 64 (formeSet m fa)
    let bad := (List.range 64).filter (fun n => (blocksOf (fa + 4096 + 64 * n) 64).any (fun k => k ∈ m.mem.poison))
    { m with beams := m.beams.map (fun b => { b with psets := sets, poisoned := bad }) }

/-- SCAN_X, SCAN_Y and FOCUS of a beam are there and engaged (R253). -/
def scanEngaged (m : Mach) (b : Fin 12) : Bool :=
  [1, 2, 3].all (fun c => !(beamCtx m b [c]).isEmpty) && (beamCtx m b [1, 2, 3]).all (fun k => m.cells.ctx[k].st = .running && m.cells.ctx[k].engaged)

/-- A live beam cannot begin exposure (R253, NOT_READY). -/
def notReady (m : Mach) (b : Fin 12) : Bool :=
  !headUp m (beamHead b) || (!m.heads[beamHead b].released && !scanEngaged m b)

/-- The imposition engine reads the galley of a beam, and its scan disposes of it and of the pools (R257, R259, R269) (DEDUCED, log row 60). -/
def entryScan (b : Fin 12) (m : Mach) : Mach :=
  let src := 0x80 + b.val
  let e := m.env.ecc
  let fa := (activeAddr m).getD 0
  let n := srcCount m fa src
  let m1 := if n = 0 then m else memRead 3 (slugAddr m fa src 0) (32 * n) e m
  (scanPools b (scanGalley b (fun a => readBad m a 32 e) m1).2).2

/-- The scans of the entry into EXPOSING go on, beam by beam, while no entry of the reserve waits (R261, R275) (DEDUCED, log row 60). -/
def entryScans (m : Mach) : Mach :=
  eachM m.imp.toScan (fun b m' =>
    if m'.job.st ≠ .exposing || impBlocked m' then m'
    else entryScan b (onImpAll (fun x => { x with toScan := x.toScan.erase b }) m')) m

/-- The job leaves exposure: no choice is made. -/
def impHalt (m : Mach) : Mach := eachM allBeams (fun b => onImp b (ImpBeam.waitOver (now m))) (onImpAll (fun x => { x with running := false }) m)

/-- LAYER_END is written once a layer (R272, R273) (DEDUCED, log row 56). -/
def layerEndEntry (aborted : Bool) (m : Mach) : Mach :=
  if m.imp.layerOpen then
    impPut (formeEnt m { type := 3, end_ := now m, a := m.imp.endedCount, b := m.imp.held.toNat,
                         flags := flag 7 (m.imp.held ≠ 0) + flag 8 aborted, onOff := 0 }) (onImpAll (fun x => { x with layerOpen := false }) m)
  else m

/-! ### Make-ready steps (R213, R823) -/

/-- An axis number of the JOB record. -/
def jobAxis (m : Mach) (hi lo : Nat) : Fin 8 := Fin.ofNat 8 (recFld m recJob 0 hi lo)

/-- The moves of a step: axis, absolute target in nm, upper bound of the speed. -/
def stepMoves (m : Mach) (k : Nat) : List (Fin 8 × Int × Option Nat) :=
  let p := m.job.params
  let go := fun (a : Fin 8) (up : Bool) (d : Int) => (a, posCmd m a + (if up then d else -d), (none : Option Nat))
  let rec_ := jobAxis m 11 8
  match k with
  | 1 =>
    let dose : List (Fin 8 × Int × Option Nat) :=
      if recFld m recJob 0 7 4 = 15 || p.dose = 0 then []
      else [go (jobAxis m 7 4) (recFld m recJob 0 17 17 = 1) (divR ((p.thickness * p.dose : Nat) : Int) 256)]
    go (jobAxis m 3 0) (recFld m recJob 0 16 16 = 1) p.thickness :: dose
  | 2 => [(rec_, recS m recJob 1 31 0, some p.recoat)]
  | 3 => [(rec_, recS m recJob 2 31 0, some p.ret)]
  | _ => []

/-- Bound of a recoater stroke in a step. -/
def stepBound (m : Mach) (k : Nat) : Option Nat := match k with | 2 => some m.job.params.recoat | 3 => some m.job.params.ret | _ => none

/-- Every axis of the step is at its target. -/
def stepArrived (m : Mach) : Bool := m.job.mrTargets.all (fun (a, t) => m.stg[a].st = .idle && decide (m.stg[a].cmd = nmStep m a t))

/-- The auxiliary head of the layer image. -/
def imageHead (m : Mach) : Option (Fin 16) := let h := recFld m recJob 0 15 12; if h = 15 then none else some (Fin.ofNat 16 (12 + h % 4))

/-- IMAGE_MISSED and the entry 0x1030 (R216, R823). -/
def imageMissed (why : Nat) (m : Mach) : Mach :=
  let unit := match imageHead m with | some h => h.val - 12 | none => 0xFF
  raise .job 6 (log 0x1030 sevNotice unit (leBytes 4 (jobLayer m) ++ leBytes 1 why) m)

/-- The lighting returns to the scene before the IMAGE step (R213). -/
def sceneRestore (m : Mach) : Mach :=
  match m.job.imageScene with
  | some s => (fun m' => onJob (fun j => { j with imageScene := none }) m') (if m.job.params.scene = 0 && s = m.ilk.scene.toNat then m else applyScene (BitVec.ofNat 4 s) m)
  | none => m

/-- The IMAGE step begins: its scene and its request (R213, R506) (DEDUCED, log row 95). -/
def imageBegin (h : Fin 16) (m : Mach) : Mach :=
  let old := m.ilk.scene.toNat
  let sc := m.job.params.scene
  let m1 := if sc = 0 then m else applyScene (BitVec.ofNat 4 sc) m
  let tag : Word := BitVec.ofNat 32 (m1.heads[h].imgReqs + 1)
  let m2 := onJob (fun j => { j with dropFrame := false }) (onHead h (fun x => { x with imgTag := some tag, imgReqs := x.imgReqs + 1, img := none }) m1)
  let m3 := whenM (headUp m2 h) (bucketCredit h 9) m2
  sendBoth h 0x16 (shortNow m3) (leBytes 4 tag.toNat) (onJob (fun j => { j with imageScene := some old }) m3)

/-- Step k begins; a step 5 without IMAGE_HEAD is reported and ends at once (R823). -/
def stepBegin (k : Nat) (m : Mach) : Mach :=
  let mv := stepMoves m k
  let m1 := onJob (fun j => { j with mrStep := k, mrNext := k, mrTargets := mv.map (fun (a, t, _) => (a, t)), mrStopped := false }) m
  let m2 := eachM mv (fun (a, t, v) => jobMoveAxis t v a) m1
  if k = 5 then (match imageHead m2 with | some h => imageBegin h m2 | none => m2) else m2

/-- Steps of this make-ready: IMAGE only for a forme that sets it, never in a host-absent make-ready (R39, R213). -/
def lastStep (m : Mach) : Nat := if !m.job.hostMr && m.job.params.flags.testBit 1 then 5 else 4

/-! ### The end of exposure and what follows (R25, R27, R39, R228) -/

/-- The job is PAUSED in MAKE_READY before any step begins (R27). -/
def pausedBefore (c : BitVec 9) (m : Mach) : Mach :=
  jobMove .paused c (onJob (fun j => { j with pausing := none, toExposing := false, mrStep := 0 }) m)

/-- Make-ready enters EXPOSING or waits for the interlock or the host (R25). `fin` is what the entry into EXPOSING does. -/
def makeReadyDone (fin : Mach → Mach) (m0 : Mach) : Mach :=
  let m := onJob (fun j => { j with mrStep := 0, mrNext := 6, mrTargets := [], mrStopped := false,
                                    spread := if j.params.flags.testBit 2 then j.spread else j.params.thickness }) m0
  let inh := m.g.dev = .building && inhibitNow m
  if m.job.hostMr then
    layerOver (jobMove .paused (causeHostAbsent ||| (if inh then causeInhibit else 0)) (onJob (fun j => { j with hostMr := false, toExposing := true, pausing := none }) m))
  else if inh then jobMove .paused causeInhibit (onJob (fun j => { j with toExposing := true, pausing := none }) m)
  else fin m

/-- The exposure of a layer begins (R25, R43, R253, R261, R272). An error in layer memory may have taken the device into SAFE_HOLD first
(R666). -/
def exposeBegin (m0 : Mach) : Mach :=
  let m1 := loadSets (impFresh m0)
  if !inBuild m1 then m1 else
  let m2 := eachM ((liveBeams m1).filter (notReady m1)) (fun b => retire b retNotReady) m1
  let m3 := jobMove .exposing 0 m2
  let m4 := onTime (fun t => { t with layerAt := some m3.time.dt, layerNo := BitVec.ofNat 32 (jobLayer m3) }) m3
  let m5 := impPut (formeEnt m4 { type := 2, start := now m4, a := m4.job.spread, flags := flag 1 m4.job.afterAbsent, onOff := 0 }) m4
  let m6 := onImpAll (fun x => { x with running := true, toScan := allBeams.filter (fun b => fitted m5 b.val && m5.imp.beams[b].cause ≠ 0) })
    (onJob (fun j => { j with afterAbsent := false }) m5)
  let m7 := entryScans m6
  whenM (impFull m7 && m7.job.st = .exposing && m7.job.pausing.isNone) (pauseExposing causeRecordFull) m7

/-- The kept values of R39 after a complete layer of a forme still in the queue store. -/
def keepParams (m : Mach) : Mach := if m.job.active.isSome then onJob (fun j => { j with kept := some j.params }) m else m

/-- A forme at the head of the queue enters MAKE_READY: the layer boundary and step 1, or EXPOSING at once with REEXPOSE
(R25, R146, R214). -/
def enterMakeReady (fin : Mach → Mach) (m : Mach) : Mach :=
  match m.job.queue.head? with
  | none => m
  | some i =>
    let m1 := activate i m
    let re := m1.job.params.flags.testBit 2
    let m2 := layerBoundary (!re) m1
    let m3 := jobMove .makeReady 0 (onJob (fun j => { j with hostMr := false, mrStep := 0, mrNext := if re then 6 else 1, mrTargets := [] }) m2)
    match m3.job.pausing with
    | some c => pausedBefore c m3
    | none => if re then makeReadyDone fin m3 else stepBegin 1 m3

/-- The job enters IDLE; no layer is in progress (R146). -/
def enterIdle (m : Mach) : Mach := layerOver (jobMove .idle 0 (onJob (fun j => { j with pausing := none, mrStep := 0 }) m))

/-- The host-absent make-ready of R39, or IDLE where no values are kept. -/
def hostMakeReady (m : Mach) : Mach :=
  match m.job.kept with
  | none => enterIdle m
  | some k =>
    let m1 := jobMove .makeReady 0 (onJob (fun j => { j with params := { k with flags := 0 }, hostMr := true, mrStep := 0, mrNext := 1, mrTargets := [] }) m)
    match m1.job.pausing with
    | some c => pausedBefore c m1
    | none => stepBegin 1 m1

/-- The job leaves EXPOSING as for a complete layer (R25, R207, R228). -/
def layerLeave (fin : Mach → Mach) (m0 : Mach) : Mach :=
  let final := m0.job.params.flags.testBit 0
  let m1 := raise .job 4 (onJob (fun j => { j with layersDone := j.layersDone + 1 }) (impHalt m0))
  let m2 := keepParams m1
  let m3 := match m2.job.active with | some i => freeSlot i m2 | none => m2
  if final then layerOver (jobMove .finished 0 (onJob (fun j => { j with pausing := none }) m3))
  else if !m3.job.queue.isEmpty then enterMakeReady fin m3
  else if m3.g.hostAbsent then hostMakeReady m3
  else enterIdle m3

/-- Exposure is finished under R252: LAYER_END, then PAUSED for an incomplete layer, with the cause of a pause that was due, or the layer's end
(R25, R27) (DEDUCED, log row 54). -/
def layerFinish (fin : Mach → Mach) (m0 : Mach) : Mach :=
  let bad := m0.imp.incomplete || m0.job.active.isNone
  let m1 := layerEndEntry false (impHalt m0)
  if bad then jobMove .paused (causeIncomplete ||| m1.job.pausing.getD 0) (onJob (fun j => { j with toExposing := true, pausing := none }) m1)
  else layerLeave fin m1

/-- The entry into EXPOSING. A layer without work finishes at once, and with REEXPOSE the next forme follows in the same cycle
(R214): `n` bounds how many may. -/
def enterExposingN : Nat → Mach → Mach
  | 0, m => exposeBegin m
  | n + 1, m =>
    let m1 := exposeBegin m
    if m1.job.st = .exposing && exposureDone m1 then layerFinish (enterExposingN n) m1 else m1

/-- The entry into EXPOSING: no more formes than the queue's 64 can follow one another. -/
def enterExposing : Mach → Mach := enterExposingN 65

/-- The exposure is finished as soon as R252 holds. -/
def exposureCheck (m : Mach) : Mach := if m.job.st = .exposing && exposureDone m then layerFinish enterExposing m else m

/-- A slug has ended or work has gone: the end of exposure first, then the pause that waits for it (R25, R27). -/
def slugGone (m : Mach) : Mach := pauseSettle (exposureCheck m)

/-- The sequencer tests for a forme at the head of the queue (R25). -/
def jobTest (m : Mach) : Mach := if inBuild m && m.job.st = .idle && !m.job.aborting && !m.job.queue.isEmpty then enterMakeReady enterExposing m else m

/-- Make-ready goes on at step k, or is complete. -/
def makeReadyAt (k : Nat) (m : Mach) : Mach :=
  if lastStep m < k then makeReadyDone enterExposing m
  else
    let m1 := stepBegin k m
    if k = 5 && (imageHead m1).isNone then makeReadyDone enterExposing (imageMissed 1 m1) else m1

/-- A make-ready step has ended: a pause takes effect, or the next step begins (R25, R213, R225). -/
def stepEnd (m : Mach) : Mach :=
  let k := m.job.mrStep
  match m.job.pausing with
  | some c => jobMove .paused c (onJob (fun j => { j with pausing := none, toExposing := false, mrStep := 0, mrNext := k + 1, mrTargets := [] }) m)
  | none => makeReadyAt (k + 1) m

/-- The layer image has arrived: step 5 ends (R213). -/
def imageArrived (m : Mach) : Mach :=
  if m.job.dropFrame then onJob (fun j => { j with dropFrame := false }) m
  else if m.job.st = .makeReady && m.job.mrStep = 5 && m.job.imageScene.isSome then stepEnd (sceneRestore m)
  else m

/-- STOP of exposure, by command or by the interlock (R25, R219). -/
def stopExposing (c : BitVec 9) (m : Mach) : Mach :=
  let m1 := eachM allBeams (beamStop true) (impHalt m)
  jobMove .stopped c (onJob (fun j => { j with pausing := none, toExposing := true }) m1)

end Sys2Proof.Machine
end

