-- ==== Sys2Proof/Machine/FormeCheck.lean ====
section
/-!
DEFINITION. The commit check of a forme (R189 to R202, R819): each check as the list of its failures in the order in which the
fields are examined.
-/

namespace Sys2Proof.Machine

/-- First offset whose condition fails (DEDUCED, log row 51). -/
def firstFail (l : List (Bool × Nat)) : Option Nat := (l.find? (fun p => p.1)).map (fun p => p.2)

/-- A field of a forme, least significant byte first. -/
def fmLe (m : Mach) (f off n : Nat) : Nat := memLe m (f + off) n

/-- Outside a range. -/
def outOf (lo hi v : Int) : Bool := !within lo hi v

/-- Check 7: the header (R189) (DEDUCED, log row 52). -/
def headerFail (m : Mach) (f : Nat) : Option Nat :=
  firstFail [
    (fmLe m f 0 4 ≠ 0x4D524F46, 0), (fmLe m f 4 2 ≠ 1, 4), (decide (8 ≤ fmLe m f 6 2), 6), (outOf 5000 500000 (fmLe m f 16 4), 16),
    (fmLe m f 20 4 % 32 ≠ 0 || outOf 8192 0xFFFFFFE0 (fmLe m f 20 4), 20), (decide (1024 < fmLe m f 32 2), 32), (decide (15 < fmLe m f 34 2), 34),
    (outOf 1000 1000000 (fmLe m f 36 4), 36), (outOf 1000 1000000 (fmLe m f 40 4), 40), (decide (10000000 < fmLe m f 44 4), 44),
    ((memBytes m (f + 48) 208).any (fun b => b ≠ 0), 48)]

/-- The sources in checking order: galleys 0 to 11, then pools 0 to 63 (R819). -/
def sources : List Nat := tab 12 (fun b => 0x80 + b) ++ List.range 64

/-- OFFSET of a descriptor. -/
def srcOff (m : Mach) (f src : Nat) : Nat := fmLe m f (descOff src) 4

/-- The slug range of a source meets that of an earlier one. -/
def srcMeets (m : Mach) (f src : Nat) : Bool :=
  (sources.takeWhile (fun s => s ≠ src)).any (fun e =>
    decide (srcOff m f src < srcOff m f e + 32 * srcCount m f e) && decide (srcOff m f e < srcOff m f src + 32 * srcCount m f src))

/-- Check 9: the layout of the descriptors (R192) (DEDUCED, log row 51). -/
def layoutFail (m : Mach) (f : Nat) : Option Nat :=
  let total := fmLe m f 20 4
  firstFail ((decide (fmLe m f 24 4 ≠ (sources.map (srcCount m f)).sum), 24) ::
    sources.flatMap (fun src =>
      let d := descOff src
      let o := srcOff m f src
      let n := srcCount m f src
      if n = 0 then [(decide (o ≠ 0), d), (decide (src < 0x80) && fmLe m f (d + 8) 2 ≠ 0, d + 8)]
      else [(decide (o < 8192) || o % 32 ≠ 0 || decide (total < o + 32 * n), d), (srcMeets m f src, d)]))

/-- Check 10: beams and zones (R192). -/
def beamFail (m : Mach) (f : Nat) : Option Nat :=
  firstFail (sources.flatMap (fun src =>
    let d := descOff src
    let n := srcCount m f src
    if n = 0 then []
    else if 0x80 ≤ src then [(!fitted m (src - 0x80), d + 4)]
    else
      let mask := fmLe m f (d + 8) 2
      [(decide (zoneCount m ≤ src), d + 4), (decide (mask = 0) || decide (mask &&& zoneBeams m src ≠ mask) || decide (4096 ≤ mask), d + 8)]))

/-- Check 11: the parameter sets (R193, R194). -/
def psetFail (m : Mach) (f : Nat) : Option Nat :=
  firstFail ((List.range 64).flatMap (fun n =>
    let p := formeSet m f n
    let o := 4096 + 64 * n
    if psFlag p 0 then
      [(decide (16 ≤ rdLe p 2 2), o + 2), (outOf 1000 20000000 (psSpeed p), o + 4), (outOf 1000 30000000 (psJump p), o + 8),
       (outOf 10000 2000000000 (psAcc p), o + 12), (outOf (-20000000) 20000000 (psFocus p), o + 16), (decide (1000000 < psBackstep p), o + 20),
       (decide (3 < psWobShape p), o + 24), (decide (50000 < psWobFreq p), o + 26), (decide (2000000 < psWobAmp p), o + 28),
       (decide (1023 < psMpSet p), o + 32),
       (if psWobShape p = 0 then psWobFreq p ≠ 0 || psWobAmp p ≠ 0 else psWobFreq p = 0 || psWobAmp p = 0, o + 24)]
    else []))

/-- The failures of one slug (R198, without its last three rules); `bs` are its bytes, `o` its offset in the forme (DEDUCED, log row 52). -/
def slugFails (m : Mach) (f : Nat) (bs : List Byte) (o : Nat) : List (Bool × Nat) :=
  let s := slugOf bs
  let z := fun (a n : Nat) => (decide (rdLe bs a n ≠ 0), o + a)
  let reserved : List (Bool × Nat) :=
    if s.type = slugJump then [z 12 4, z 16 4, z 20 4, z 24 4]
    else if s.type = slugDwell then [z 18 2, z 20 4, z 24 4]
    else if s.type = slugLine || s.type = slugArc then [z 26 2] else []
  ([(!(1 ≤ s.type && s.type ≤ 4) || fld s.word 13 0 ≠ 0, o)] : List (Bool × Nat)) ++ reserved ++
  ([(!psFlag (formeSet m f s.pset) 0, o),
   (s.type = slugJump && (s.ovrSpeed || s.ovrPower), o), ((s.type = slugArc || s.type = slugDwell) && s.ovrSpeed, o), (s.type = slugDwell && s.ovrPower, o),
   (s.type = slugLine && s.x0 = s.x1 && s.y0 = s.y1, o + 12),
   (s.type = slugArc && decide ((s.x0 - s.x1) ^ 2 + (s.y0 - s.y1) ^ 2 < 1000000), o + 12),
   (s.type = slugArc && (s.sweep = 0 || decide (360000000 < s.sweep.natAbs)), o + 20),
   (s.type = slugLine && s.ovrSpeed && outOf 1000 20000000 s.speed, o + 20),
   (s.type = slugDwell && outOf 1 4000000000 s.dur, o + 12)] : List (Bool × Nat))

/-- Every slug in checking order: source, index, offset in the forme, bytes. -/
def allSlugs (m : Mach) (f : Nat) : List (Nat × Nat × Nat × List Byte) :=
  sources.flatMap (fun src => tab (srcCount m f src) (fun i => (src, i, srcOff m f src + 32 * i, memBytes m (slugAddr m f src i) 32)))

/-- Check 12. -/
def slugFail (m : Mach) (f : Nat) : Option Nat := firstFail ((allSlugs m f).flatMap (fun (_, _, o, bs) => slugFails m f bs o))

/-- Check 13: GROUP (R198) (DEDUCED, log row 51). -/
def groupFail (m : Mach) (f : Nat) : Option Nat :=
  firstFail ((allSlugs m f).map (fun (src, i, o, bs) =>
    let g := (slugOf bs).group
    (if 0x80 ≤ src then decide (g ≠ 0) else decide (0 < i) && decide (g < (slugAt m f src (i - 1)).group), o)))

/-- Check 14: geometry (R198). -/
def geometryFail (m : Mach) (f : Nat) : Option Nat :=
  firstFail ((allSlugs m f).map (fun (src, _, o, bs) =>
    let s := slugOf bs
    (!slugInPoly (if 0x80 ≤ src then fieldPoly m (src - 0x80) else zonePoly m src) s (formeSet m f s.pset) none, o + 4)))

/-- Check 15: the CRC (R201). -/
def crcFail (m : Mach) (f : Nat) : Option Nat :=
  let total := fmLe m f 20 4
  let bs := memBytes m f 28 ++ List.replicate 4 0 ++ memBytes m (f + 32) (total - 32)
  if (crc32 bs).toNat = fmLe m f 28 4 then none else some 28

/-- Checks 9 to 15 in order: the result code and the offset of the first failure. `bad` is the first block that met an
uncorrectable error (R659) (DEDUCED, log row 51). -/
def formeFail (m : Mach) (f : Nat) (bad : Option Nat) : Option (Nat × Nat) :=
  match bad with
  | some o => some (0x27, o)
  | none =>
    let tests : List (Nat × Option Nat) := [(0x21, layoutFail m f), (0x22, beamFail m f), (0x23, psetFail m f), (0x24, slugFail m f),
      (0x26, groupFail m f), (0x25, geometryFail m f), (0x27, crcFail m f)]
    tests.findSome? (fun t => t.2.map (fun o => (t.1, o)))

/-- The first uncorrectable block of a forme, as an offset in it. -/
def formeBad (m : Mach) (f : Nat) (e : Ecc) : Option Nat :=
  ((blocksOf f (fmLe m f 20 4)).find? (fun k => k ∈ m.mem.poison || k ∈ e.ue)).map (fun k => 64 * k - f)

/-- A range overlaps a forme in CHECKING, QUEUED or ACTIVE, other than the slot `me`. -/
def overlaps (m : Mach) (me : Option (Fin 64)) (a n : Nat) : Bool :=
  (List.finRange 64).any (fun i => some i ≠ me && m.job.slots[i].st ≠ .free && meets a n (m.job.slots[i].addr, m.job.slots[i].len))

/-- A commit that fails with an offset (R203, R210). -/
def commitWhere (o : Nat) (m : Mach) : Mach := onJob (fun j => { j with commitWhere := BitVec.ofNat 32 o }) m

/-- The address of the commit pair (R208). -/
def commitAddr (m : Mach) : Nat := m.job.commitHi.toNat % 2 * 2 ^ 32 + m.job.commitLo.toNat / 4096 * 4096

/-- A DIR 0 descriptor in progress writes into a range (R202). -/
def dmaBusy (m : Mach) (a n : Nat) : Bool :=
  m.env.dma.any (fun (c, x) => m.g.dma[c].busy && !bitOf x.ctl 0 && meets (fld x.layer 32 0) (fld x.len 28 0) (a, n))

/-- The first uncorrectable block of a header, as an offset in it (R659, R819). -/
def headerBad (m : Mach) (a : Nat) : Option Nat :=
  ((blocksOf a 256).find? (fun k => k ∈ m.mem.poison || k ∈ m.env.ecc.ue)).map (fun k => 64 * k - a)

/-- Checks 1 to 7, as the JOB_COMMIT write arrives (R202): the result of the first that fails, and its offset for JOB_COMMIT_WHERE. -/
def commitFirst (m : Mach) : Option (Nat × Option Nat) :=
  let a := m.job.commitHi.toNat % 2 * 2 ^ 32 + m.job.commitLo.toNat
  if !inWork m then some (0x15, none)
  else if (checkingSlot m).isSome then some (0x10, none)
  else if (List.finRange 64).all (fun i => m.job.slots[i].st ≠ .free) then some (0x11, none)
  else if a % 4096 ≠ 0 || !inRegion m 0 a 8192 then some (0x12, none)
  else if overlaps m none a 8192 then some (0x13, none)
  else if dmaBusy m a 8192 then some (0x14, none)
  else
    match headerBad m a with
    | some o => some (0x27, some o)
    | none => (headerFail m a).map (fun o => (0x20, some o))

/-- A JOB_COMMIT write (R202, R203, R209). -/
def jobCommit (w : Word) (m0 : Mach) : Mach :=
  if fld w 31 24 ≠ 0x6C then refuse .job 7 m0
  else
    let m := onJob (fun j => { j with commitSeq := j.commitSeq + 1 }) m0
    if fld w 23 9 ≠ 0 || fld w 7 0 ≠ 0 then refuse .job 7 m
    else
      let a := commitAddr m
      let free := (List.finRange 64).find? (fun i => m.job.slots[i].st = .free)
      let named := fun (m : Mach) => match free with | some i => onJob (fun j => { j with commitSlot := BitVec.ofNat 6 i.val }) m | none => m
      match commitFirst m, free with
      | some (c, o), _ =>
        let m1 := if c = 0x15 || c = 0x10 || c = 0x11 then m else named m
        let m2 := if o.isSome then memRead 2 a 256 m1.env.ecc m1 else m1
        commitResult c (match o with | some o => commitWhere o m2 | none => m2)
      | none, some i =>
        let s : Slot := { st := .checking, addr := a, len := fmLe m a 20 4, id := BitVec.ofNat 32 (fmLe m a 12 4) }
        commitResult 1 (onSlot i (fun _ => s) (onJob (fun j => { j with commitFront := bitOf w 8 }) (memRead 2 a 256 m.env.ecc (named m))))
      | none, none => m

/-- The commit check has read the forme (R203, R205). -/
def commitEnd (m0 : Mach) : Mach :=
  match checkingSlot m0 with
  | none => m0
  | some i =>
    let s := m0.job.slots[i]
    if !inRegion m0 0 s.addr s.len then commitDrop 0x12 m0
    else if overlaps m0 (some i) s.addr s.len then commitDrop 0x13 m0
    else if dmaBusy m0 s.addr s.len then commitDrop 0x14 m0
    else
      let e := m0.env.ecc
      let bad := formeBad m0 s.addr e
      let m := memRead 2 s.addr s.len e m0
      match formeFail m s.addr bad with
      | some (c, o) => commitDrop c (commitWhere o m)
      | none =>
        let (g, u) := formeWork m s.addr
        let m1 := onSlot i (fun s => { s with st := .queued, g := g, u := u }) m
        let m2 := onJob (fun j => { j with queue := if j.commitFront then i :: j.queue else j.queue ++ [i] }) m1
        jobTest (raise .job 1 (commitResult 2 (onJob (fun j => { j with passed := some (i, now m) }) m2)))

/-- JOB_COMMIT, offset 0x02_0028. -/
def execJobCommit (p : Port) (v : Word) (env : Env) (s : State) : Out := s.act (withEnv env (writeGate p 0x20028 (jobCommit v)))
/-- COMMIT_CHECK_END. -/
def execCommitCheckEnd (ecc : Ecc) (dma : List (Fin 4 × DmaIn)) (s : State) : Out := s.act (withEnv ⟨ecc, dma⟩ (clocked 13 commitEnd))

end Sys2Proof.Machine
end

