-- ==== Sys2Proof/Machine/JobOps.lean ====
section
/-!
DEFINITION. The job commands (R217 to R225) and the events of make-ready and ABORT (R207, R213 to R216, R776).
-/

namespace Sys2Proof.Machine

/-- A refused job command (R218). -/
def jobRefuse (m : Mach) : Mach := refuse .job 7 m

/-- The job is PAUSED or STOPPED. -/
def halted (m : Mach) : Bool := m.job.st = .paused || m.job.st = .stopped

/-- A cause stands in JOB_STATUS. -/
def hasCause (c : BitVec 9) (m : Mach) : Bool := m.job.causes &&& c ≠ 0

/-- No beam is in a slug or decelerating. -/
def beamsAtRest (m : Mach) : Bool := allBeams.all (fun b => !m.beams[b].st.runs && m.beams[b].st ≠ .stopping && m.imp.beams[b].cur.isNone)

/-- ABORT has settled (R207, R272, R335): LAYER_END with ABORTED, the ACTIVE slot FREE. -/
def abortSettled (m : Mach) : Mach :=
  if m.job.aborting && beamsAtRest m then
    let m1 := eachM allBeams (fun b m' => onBeam b (fun x => { x with st := if x.st = .hold then .idle else x.st, stopValid := false, src := 0xFF })
      (onImp b (fun x => { x with interrupted := none }) m')) m
    let m2 := layerEndEntry true (onJob (fun j => { j with aborting := false }) m1)
    jobTest (match m2.job.active with | some i => freeSlot i m2 | none => m2)
  else m

/-- PAUSE (R219). -/
def jobPause (m : Mach) : Mach :=
  match m.job.st with
  | .makeReady => onJob (fun j => { j with pausing := some causeHost }) m
  | .exposing => pauseExposing causeHost m
  | _ => jobRefuse m

/-- The lighting and the frame of an IMAGE step given up (R219, R225). -/
def imageDrop (m : Mach) : Mach :=
  if m.job.imageScene.isSome then onJob (fun j => { j with dropFrame := true }) (sceneRestore m) else m

/-- STOP (R219). -/
def jobStop (m : Mach) : Mach :=
  match m.job.st with
  | .makeReady =>
    let m1 := eachM (List.finRange 8) (jobStopAxis true) (imageDrop m)
    jobMove .stopped causeHost (onJob (fun j => { j with pausing := none, toExposing := false, mrStopped := true, mrPending := [] }) m1)
  | .exposing => stopExposing causeHost m
  | _ => jobRefuse m

/-- ABORT (R219, R225). -/
def jobAbort (m : Mach) : Mach :=
  match m.job.st with
  | .finished | .aborted | .none => jobRefuse m
  | _ =>
    let m1 := eachM allBeams (beamStop true) (impHalt m)
    let m2 := eachM (List.finRange 8) (fun a m' => onAxis a (fun x => { x with remain := none }) (jobStopAxis false a m')) (imageDrop m1)
    let m3 := onJob (fun j => { j with pausing := none, hostMr := false, mrStep := 0, mrTargets := [], mrPending := [], mrStopped := false, aborting := true, resumeWaits := false }) m2
    abortSettled (layerOver (jobMove .aborted 0 m3))

/-- START of JOB_CMD (R25, R218). -/
def jobStart (m : Mach) : Mach :=
  if (m.job.st = .finished || (m.job.st = .aborted && m.job.active.isNone)) && !m.job.queue.isEmpty then enterMakeReady enterExposing m
  else jobRefuse m

/-- FLUSH (R207, R219); a forme whose check passed in this cycle of CLK_SYS has been queued first (R225). -/
def jobFlush (m : Mach) : Mach :=
  let just := match m.job.passed with | some (i, t) => sameSys t (now m) && decide (i ∈ m.job.queue) | none => false
  commitDrop 3 (eachM m.job.queue freeSlot (if just then commitResult 3 m else m))

/-- Each axis named by POSITION_LOST takes its present reading as its position (R222). -/
def takePositions (m : Mach) : Mach :=
  onJob (fun j => { j with lostAxes := [] }) (eachM m.job.lostAxes (fun a m' => onAxis a (fun x => { x with cmd := nmStep m' a (posMeas m' a) }) m') m)

/-- RESUME into MAKE_READY: an interrupted step completes its moves, later steps follow (R219) (DEDUCED, log row 53). -/
def resumeMakeReady (m0 : Mach) : Mach :=
  let m := jobMove .makeReady 0 m0
  if m.job.mrStep ≠ 0 && m.job.mrStep < 4 then
    let m1 := onJob (fun j => { j with mrStopped := false, mrPending := (j.mrTargets.map (·.1)).filter (fun a => m.stg[a].st = .stopping) }) m
    eachM m1.job.mrTargets (fun (a, t) m' => if m'.stg[a].cmd = nmStep m' a t then m' else jobMoveAxis t (stepBound m' m'.job.mrStep) a m') m1
  else makeReadyAt m.job.mrNext m

/-- The beams whose interrupted slugs go on now: at rest and not waiting for a context or their registration (R219, R221, R447) [R332]. -/
def resumeBeam (b : Fin 12) (m : Mach) : Mach :=
  match m.imp.beams[b].interrupted with
  | some w => if beamLive m b && m.beams[b].st ≠ .stopping && !m.beams[b].awaiting && !m.beams[b].regFault then slugBegin { w with resumed := true } none b m else m
  | none => m

/-- RESUME into EXPOSING (R219, R223, R224). -/
def resumeExposing (m : Mach) : Mach :=
  if hasCause causeIncomplete m then layerLeave enterExposing (jobMove .exposing 0 m)
  else if m.job.active.isNone then layerFinish enterExposing (jobMove .exposing 0 m)
  else if !m.imp.layerOpen then enterExposing m
  else
    let m1 := onImpAll (fun x => { x with running := true }) (jobMove .exposing 0 m)
    let m2 := exposureCheck (eachM allBeams resumeBeam m1)
    whenM (m2.job.st = .exposing && impFull m2 && m2.job.pausing.isNone) (pauseExposing causeRecordFull) m2

/-- RESUME (R25, R26, R43, R220); into exposure it takes effect at the end of a retraining (R664) (DEDUCED, log row 53). -/
def jobResume (m0 : Mach) : Mach :=
  if !halted m0 then jobRefuse m0
  else if hasCause causeInhibit m0 && inhibitNow m0 then jobRefuse m0
  else if hasCause causeRecordFull m0 && decide (impFree m0 ≤ impReserve m0) then jobRefuse m0
  else if hasCause causeHostAbsent m0 && m0.job.queue.isEmpty then jobRefuse m0
  else if (m0.job.toExposing || hasCause causeHostAbsent m0) && retrains m0 then onJob (fun j => { j with resumeWaits := true }) m0
  else
    let m := onJob (fun j => { j with resumeWaits := false }) (if hasCause causePositionLost m0 then takePositions m0 else m0)
    if hasCause causeHostAbsent m then
      match m.job.queue.head? with
      | some i => enterExposing (onJob (fun j => { j with afterAbsent := true }) (layerBoundary true (activate i m)))
      | none => m
    else if m.job.toExposing then resumeExposing m
    else resumeMakeReady m

/-- A JOB_CMD write (R217, R218). -/
def jobCmd (w : Word) (m : Mach) : Mach :=
  if fld w 31 24 ≠ 0x4A || fld w 23 4 ≠ 0 then jobRefuse m
  else
    let op := fld w 3 0
    if op = 6 && m.g.dev = .configured then jobFlush m
    else if !inBuild m then jobRefuse m
    else
      match op with
      | 1 => jobPause m
      | 2 => jobStop m
      | 3 => jobResume m
      | 4 => jobAbort m
      | 5 => jobStart m
      | 6 => jobFlush m
      | _ => jobRefuse m

/-- A make-ready step ends: its axes are at their targets, or SETTLE_US has elapsed (R213). -/
def makeReadyStepEnd (m : Mach) : Mach :=
  if m.job.st = .makeReady && !m.job.mrStopped && 1 ≤ m.job.mrStep && m.job.mrStep ≤ 4 && stepArrived m then stepEnd m else m

/-- MR_TIMEOUT expires in a step (R215, R776). -/
def mrTimeout (m : Mach) : Mach :=
  if m.job.st = .makeReady && !m.job.mrStopped && m.job.mrStep ≠ 0 then
    let axis := match m.job.mrTargets.find? (fun (a, t) => m.stg[a].st ≠ .idle || decide (m.stg[a].cmd ≠ nmStep m a t)) with | some (a, _) => a.val | none => 0xFF
    let arg := leBytes 1 m.job.mrStep ++ leBytes 1 axis
    let m1 := eachM m.job.mrTargets (fun (a, _) => axStop false true a) (onJob (fun j => { j with mrStopped := true, mrPending := [] }) m)
    if recFld m recMgtFault 0 0 0 = 1 || m.g.hostAbsent then faultSafeHold 0x1002 0xFF arg m1 else log 0x1002 sevFault 0xFF arg m1
  else m

/-- IMAGE_TIMEOUT elapses without the frame (R216). -/
def imageTimeout (m : Mach) : Mach :=
  if m.job.st = .makeReady && m.job.mrStep = 5 && m.job.imageScene.isSome then stepEnd (imageMissed 0 (sceneRestore m)) else m

/-- JOB_CMD, offset 0x02_0010. -/
def offJobCmd : Nat := 0x20010

/-- JOB_PAUSE. -/
def execJobPause (p : Port) (hi : BitVec 28) (s : State) : Out := s.act (writeGate p offJobCmd (jobCmd (opWord hi 1)))
/-- JOB_STOP. -/
def execJobStop (p : Port) (hi : BitVec 28) (s : State) : Out := s.act (writeGate p offJobCmd (jobCmd (opWord hi 2)))
/-- JOB_RESUME. -/
def execJobResume (p : Port) (hi : BitVec 28) (s : State) (env : Env := {}) : Out := s.act (withEnv env (writeGate p offJobCmd (jobCmd (opWord hi 3))))
/-- JOB_ABORT. -/
def execJobAbort (p : Port) (hi : BitVec 28) (s : State) : Out := s.act (writeGate p offJobCmd (jobCmd (opWord hi 4)))
/-- JOB_START. -/
def execJobStart (p : Port) (hi : BitVec 28) (s : State) (env : Env := {}) : Out := s.act (withEnv env (writeGate p offJobCmd (jobCmd (opWord hi 5))))
/-- JOB_FLUSH. -/
def execJobFlush (p : Port) (hi : BitVec 28) (s : State) : Out := s.act (writeGate p offJobCmd (jobCmd (opWord hi 6)))
/-- ABORT_SETTLED. -/
def execAbortSettled (s : State) : Out := s.act (clocked 13 abortSettled)
/-- MAKE_READY_STEP_END. -/
def execMakeReadyStepEnd (s : State) (env : Env := {}) : Out := s.act (withEnv env (clocked 13 makeReadyStepEnd))
/-- MR_TIMEOUT. -/
def execMrTimeout (s : State) : Out := s.act (clocked 13 mrTimeout)
/-- IMAGE_TIMEOUT. -/
def execImageTimeout (s : State) (env : Env := {}) : Out := s.act (withEnv env (clocked 13 imageTimeout))

end Sys2Proof.Machine
end

