-- ==== Sys2Proof/Machine/ImpOps.lean ====
section
/-!
DEFINITION. The imposition commands and events (05 of spec/): keep-out (R235 to R238), the choice (R243 to R251), slug ends,
retirement scans, returns and the record.
-/

namespace Sys2Proof.Machine

/-! ### Keep-out (R235 to R238) -/

/-- The box of a piece of work. -/
def workBox (m : Mach) (w : Work) : Option Box :=
  let s := workSlug m w
  slugBox s (formeSet m ((activeAddr m).getD 0) s.pset) w.restart

/-- The galley candidate of a beam: its first untaken galley slug (R247, R267). -/
def galleyNext (m : Mach) (b : Fin 12) : Option Work :=
  if m.imp.beams[b].galleyPending then none
  else (galleyLeft m b).head?.map (fun i => { src := 0x80 + b.val, index := i })

/-- Beam k waits with priority. -/
def hasPrio (m : Mach) (k : Fin 12) : Bool := match m.imp.beams[k].wait with | some w => w.prio | none => false

/-- Beam k ranks above beam b: it waits with priority, and b does not, or began later (R249). -/
def ranksAbove (m : Mach) (k b : Fin 12) : Bool :=
  hasPrio m k && (!hasPrio m b ||
    match m.imp.beams[k].wait, m.imp.beams[b].wait with
    | some x, some y => decide (x.since < y.since) || (decide (x.since = y.since) && decide (k.val < b.val))
    | _, _ => true)

/-- The working boxes of beam k that count against beam b. -/
def workingBoxes (m : Mach) (k b : Fin 12) : List Box :=
  let x := m.imp.beams[k]
  let ws := x.cur.toList ++ x.interrupted.toList ++ x.next.toList ++ (if ranksAbove m k b then (galleyNext m k).toList else [])
  ws.filterMap (workBox m)

/-- A candidate passes keep-out for beam b (R238). -/
def passes (m : Mach) (b : Fin 12) (w : Work) : Bool :=
  match workBox m w with
  | none => true
  | some a =>
    let (gx, gy) := gasUnit m
    let pw := (recWord m recImp 1).toNat
    let pl := (recWord m recImp 2).toNat
    ((liveBeams m).filter (fun k => k ≠ b)).all (fun k => (workingBoxes m k b).all (fun x =>
      separated (recWord m recImp 0).toNat a x && !inPlume gx gy pw pl a x && !inPlume gx gy pw pl x a))

/-! ### The choice (R246 to R249) -/

/-- Every slug of the pool with a smaller GROUP has ended or is held (R246). -/
def groupReady (m : Mach) (fa z g : Nat) : Bool :=
  ((List.range (srcCount m fa z)).takeWhile (fun i => decide ((slugAt m fa z i).group < g))).all (fun i =>
    slugState m z i = .ended || slugState m z i = .held)

/-- Eligible work of shared pool z for beam b, within its window (R246). -/
def poolWork (m : Mach) (fa z : Nat) (b : Fin 12) : List Work :=
  if (poolBeams m z).testBit b.val then
    let win := ((List.range (srcCount m fa z)).filter (fun i => slugState m z i = .untaken)).take 64
    (win.filter (fun i => groupReady m fa z (slugAt m fa z i).group &&
      !((remainderOf m z i).isSome && m.imp.beams[b].lastCut = some (z, i)))).map (fun i =>
        { src := z, index := i, restart := remainderOf m z i, remainder := (remainderOf m z i).isSome })
  else []

/-- Eligible work of rescue pool r for beam b (R258). -/
def rescueChoices (m : Mach) (r b : Fin 12) : List Work :=
  let win := ((m.imp.rescue[r]).filter (fun e => !e.taken)).take 64
  (win.filter (fun e => bitOf e.mask b.val && !(e.restart.isSome && m.imp.beams[b].lastCut = some (e.src, e.index)))).map (fun e =>
    { src := e.src, index := e.index, rescue := some r.val, restart := e.restart, remainder := e.restart.isSome })

/-- Predicted move of a piece of work from a point. -/
def moveOf (m : Mach) (from_ : Int × Int) (w : Work) : Nat :=
  let s := workSlug m w
  moveTerm s (formeSet m ((activeAddr m).getD 0) s.pset) from_ w.restart

/-- An option of R248: tier, urgency, predicted move of its nearest slug, and its slugs in the order in which they are tried. -/
structure Choice where
  tier : Nat
  urgency : Nat
  near : Nat
  works : List Work
deriving DecidableEq, Repr

/-- A pool as an option. -/
def poolOption (m : Mach) (b : Fin 12) (from_ : Int × Int) (u : Nat) (e : List (Fin 12)) (ws : List Work) : List Choice :=
  if ws.isEmpty then []
  else
    let sorted := sortOn (moveOf m from_) ws
    let lam := level m (byKappa m u) e
    let l := loadOf m b
    [⟨if l < lam then 1 else 3, lam - l, (sorted.head?.map (moveOf m from_)).getD 0, sorted⟩]

/-- The options of beam b in the order of R248. -/
def choices (m : Mach) (b : Fin 12) (from_ : Int × Int) : List Choice :=
  match activeAddr m with
  | none => []
  | some fa =>
    let live := liveBeams m
    let shared := (List.range 64).flatMap (fun z =>
      poolOption m b from_ (m.imp.u.getD z 0) (live.filter (fun k => (poolBeams m z).testBit k.val)) (poolWork m fa z b))
    let rescues := allBeams.flatMap (fun r =>
      let mask := (m.imp.rescue[r]).foldl (fun w e => w ||| e.mask) (0 : BitVec 12)
      poolOption m b from_ (rescueWork m r) (live.filter (fun k => bitOf mask k.val)) (rescueChoices m r b))
    let pools := sortOn (fun c => c.near) (shared ++ rescues)
    let t1 := (sortOn (fun c => 2 ^ 96 - c.urgency) (pools.filter (fun c => c.tier = 1)))
    let gal := (galleyNext m b).toList.map (fun w => (⟨2, 0, moveOf m from_ w, [w]⟩ : Choice))
    t1 ++ gal ++ pools.filter (fun c => c.tier = 3)

/-- The point from which beam b chooses (R248). -/
def choicePoint (m : Mach) (b : Fin 12) : Int × Int :=
  match m.imp.beams[b].cur with
  | some w => slugEnd (workSlug m w)
  | none => let (x, y) := bedPoint m b (nowQ m); (divR x 65536, divR y 65536)

/-- A read of a slug, or its parameter set, fails (R251, R336). -/
def workBad (m : Mach) (b : Fin 12) (e : Ecc) (w : Work) : Bool :=
  readBad m (slugAddr m ((activeAddr m).getD 0) w.src w.index) 32 e || (workSlug m w).pset ∈ m.beams[b].poisoned

/-- The slug that beam b takes next, poisoned ones held on the way (R248, R251). -/
def chooseN (b : Fin 12) (e : Ecc) : Nat → Mach → Option Work × Mach
  | 0, m => (none, m)
  | n + 1, m =>
    match ((choices m b (choicePoint m b)).flatMap (fun c => c.works)).find? (passes m b) with
    | none => (none, m)
    | some w =>
      if workBad m b e w then
        let m1 := memRead 4 (slugAddr m ((activeAddr m).getD 0) w.src w.index) 32 e m
        chooseN b e n (holdRun w.src w.index 1 3 (takeWork b w m1))
      else (some w, m)

/-- Effective weights follow host and margin weights; each change is recorded (R241, R272). -/
def weightsFollow (m : Mach) : Mach :=
  eachM allBeams (fun b m' =>
    let w := weightOf m' b
    if m'.imp.beams[b].effective.toNat = w then m'
    else impPut { type := 7, beam := b.val, start := now m', a := w, onOff := 0 } (onImp b (fun x => { x with effective := BitVec.ofNat 16 w }) m')) m

/-- Slugs of the forme, a bound on the choices of one occasion. -/
def slugTotal (m : Mach) : Nat := match activeAddr m with | some fa => (sources.map (srcCount m fa)).sum + 1 | none => 0

/-- Beam b may be given work. -/
def mayChoose (m : Mach) (b : Fin 12) : Bool :=
  let x := m.imp.beams[b]
  m.job.st = .exposing && m.imp.running && m.imp.toScan = [] && beamLive m b && !impBlocked m && x.interrupted.isNone && x.next.isNone && !m.beams[b].awaiting &&
  (x.cur.isSome || m.beams[b].st = .idle || m.beams[b].st = .hold)

/-- The block of the working area with a slug's state (R270) (DESIGN CHOICE, log row 121). -/
def stateBlock (m : Mach) (src i : Nat) : Nat := (region m 2).1 / 64 + Config.stateBlock src i % 524288

/-- The engine reads the working area for its rescue pools: every untaken slug whose state lies in an uncorrectable block is held (R659). -/
def areaHold (e : Ecc) (m : Mach) : Mach :=
  let at_ := fun (r : Rescue) => stateBlock m r.src r.index
  let ks := ((allBeams.flatMap (fun q => (m.imp.rescue[q]).filter (fun r => !r.taken))).map at_).eraseDups
  let m1 := eachM ks (fun k => memRead 3 (64 * k) 64 e) m
  eachM allBeams (fun q m' =>
    let lost := (m'.imp.rescue[q]).filter (fun r => !r.taken && at_ r ∈ m1.mem.poison)
    holdAll (0x80 + q.val) 3 (lost.map (·.index))
      (onImpAll (fun x => { x with rescue := x.rescue.set q ((x.rescue[q]).filter (fun r => !(r ∈ lost))) }) m')) m1

/-- The working area and the weights are read before a choice for beam b (R241, R659). -/
def choiceRead (e : Ecc) (m : Mach) : Mach := areaHold e (weightsFollow (takeRecord recImpWeight m))

/-- The beam takes the work that its choice found: as its current slug where it has none, otherwise as its next. -/
def choiceTake (b : Fin 12) (w0 : Work) (m : Mach) : Mach :=
  let x := m.imp.beams[b]
  let w := { w0 with waited := match x.wait with | some w => w.kept | none => false }
  let d := predict m w (choicePoint m b)
  let m2 := takeWork b w m
  if x.cur.isNone then slugBegin w none b m2
  else joinNext b (onImp b (fun x => { x with next := some w, nextPred := d }) m2)

/-- The choice found nothing: a beam without a slug waits (R248, R249). -/
def choiceWait (b : Fin 12) (m : Mach) : Mach :=
  let blocked := match galleyNext m b with | some w => !passes m b w | none => false
  let kept := !(choices m b (choicePoint m b)).isEmpty
  slugGone (onImp b (fun x => { x with wait := match x.wait with
    | some w => some { w with blocked := blocked, prio := w.prio && blocked, kept := w.kept || kept }
    | none => some ⟨now m, false, blocked, kept⟩ }) m)

/-- One choice for beam b (R243 to R249). What it reads may itself end the engine's work: a held slug that leaves no free entry, or an
uncorrectable block with TRAIN_NONE (R275, R666). -/
def impChoice (b : Fin 12) (e : Ecc) (m0 : Mach) : Mach :=
  if !mayChoose m0 b then m0
  else
    let m := choiceRead e m0
    if !mayChoose m b then slugGone m
    else
      match chooseN b e (slugTotal m) m with
      | (some w, m1) => if mayChoose m1 b then choiceTake b w m1 else m1
      | (none, m1) => if m1.imp.beams[b].cur.isSome then m1 else if mayChoose m1 b then choiceWait b m1 else slugGone m1

/-- A beam has waited WAIT_PRIO on a galley candidate that fails keep-out (R249). -/
def waitPrio (b : Fin 12) (m : Mach) : Mach :=
  match m.imp.beams[b].wait with
  | some w =>
    if w.blocked && !w.prio && m.imp.running && decide (w.since + (recWord m recImp 3).toNat * 1000 ≤ now m) then
      raise .imp 5 (onImp b (fun x => { x with wait := some { w with prio := true } }) m)
    else m
  | none => m

/-- A slug ends (R245, R298, R335): its entry, then the reserved slug or rest. -/
def slugEndOp (b : Fin 12) (m : Mach) : Mach :=
  if inBuild m && slugOver m b then
    let plan := m.beams[b].plan
    let jump := match m.imp.beams[b].cur with | some w => decide ((workSlug m w).type = slugJump) | none => false
    let m1 := recordEnd b m
    match m1.imp.beams[b].next with
    | some w =>
      let m2 := onBeam b (fun z => { z with owed := jump }) (onImp b (fun x => { x with next := none, nextPred := 0 }) m1)
      slugGone (slugBegin w (plan.filter (fun p => p.runsOn)) b m2)
    | none =>
      let (x, y) := bedPoint m1 b (nowQ m1)
      slugGone (onBeam b (fun z => { z with st := .idle, prev := z.past (nowQ m1), plan := none, bedX := x, bedY := y, src := 0xFF, owed := jump })
        (restAt b (nowQ m1) m1))
  else m

/-! ### IMP_CMD (R280 to R282, R264 to R266) -/

/-- The status of the last IMP_CMD; results from 2 are refusals (R281). -/
def impStatus (b : Fin 12) (op result : Nat) (m : Mach) : Mach :=
  let m1 := onImpAll (fun x => { x with cmdResult := BitVec.ofNat 4 result, cmdBeam := BitVec.ofNat 4 b.val, cmdOp := BitVec.ofNat 4 op }) m
  if 2 ≤ result then refuse .imp 6 m1 else m1

/-- RETIRE (R281) (DEDUCED, log row 60). -/
def impRetire (b : Fin 12) (m : Mach) : Mach :=
  if !inWork m then impStatus b 1 2 m
  else if !fitted m b.val then impStatus b 1 3 m
  else if m.imp.beams[b].cause ≠ 0 then impStatus b 1 4 m
  else retire b retHost (impStatus b 1 1 m)

/-- RETURN (R264 to R266, R269) (DEDUCED, log row 76). -/
def impReturn (b : Fin 12) (m : Mach) : Mach :=
  let c := m.imp.beams[b].cause
  if !inWork m then impStatus b 2 2 m
  else if !fitted m b.val then impStatus b 2 3 m
  else if c = 0 then impStatus b 2 4 m
  else if c = 4 then impStatus b 2 5 m
  else if scanBusy m b then impStatus b 2 7 m
  else if !returnReady m b then impStatus b 2 6 m
  else if (c = 1 || c = 5) && !ctxEngaged m b then
    ctxRestartBeam b (onImp b (fun x => { x with returning := true }) (impStatus b 2 0 m))
  else beamReturn b (ctxRestartBeam b (impStatus b 2 1 m))

/-- An IMP_CMD write (R280). -/
def impCmd (w : Word) (m : Mach) : Mach :=
  let n := fld w 11 8
  if fld w 31 24 ≠ 0x71 || fld w 23 12 ≠ 0 || fld w 7 4 ≠ 0 || 12 ≤ n then refuse .imp 6 m
  else
    match fld w 3 0 with
    | 1 => impRetire (Fin.ofNat 12 n) m
    | 2 => impReturn (Fin.ofNat 12 n) m
    | _ => refuse .imp 6 m

/-- The contexts of a commanded return engage (R266). -/
def returnEngaged (b : Fin 12) (m : Mach) : Mach :=
  if m.imp.beams[b].returning && inWork m && ctxEngaged m b then beamReturn b (impStatus b 2 1 m) else m

/-- They are not engaged 100 ms after the command (R266) (DEDUCED, log row 76). -/
def returnTimeout (b : Fin 12) (m : Mach) : Mach :=
  if m.imp.beams[b].returning then
    impStatus b 2 6 (eachM (beamCtx m b [1, 2, 3, 4, 5, 6]) (ctxStop true) (onImp b (fun x => { x with returning := false }) m))
  else m

/-- An automatic return (R265). -/
def autoReturn (b : Fin 12) (m : Mach) : Mach :=
  let c := m.imp.beams[b].cause
  let may := c = 2 || ((c = 3 || c = 6 || c = 7) && recFld m recImp 6 0 0 = 1)
  if may && !scanBusy m b && returnReady m b then beamReturn b (ctxRestartBeam b m) else m

/-- The oldest entry that may be written now is written; scans that waited go on (R269, R275). -/
def impDeferred (m : Mach) : Mach := slugGone (entryScans (scanClose (impWaiter m)))

/-- The first retirement scan ends; `e` is what its reads of the galley met (R257, R269) (DEDUCED, log row 56). -/
def scanDone (e : Ecc) (m : Mach) : Mach :=
  match m.imp.scans.head?, activeAddr m with
  | some sc, some fa =>
    let src := 0x80 + sc.beam.val
    let m1 := memRead 3 (slugAddr m fa src 0) (32 * srcCount m fa src) e m
    slugGone (scanEnd (fun a => readBad m a 32 e) m1)
  | some _, none => scanEnd (fun _ => false) m
  | none, _ => m

/-- A host write of IMP_REC_RD (R275, R283). -/
def impRelease (p : Port) (v : Word) (m : Mach) : Mach :=
  let x := m.imp
  let d := if x.recRd.toNat ≤ v.toNat then v.toNat - x.recRd.toNat else v.toNat + impCap m - x.recRd.toNat
  let set := fun (n : Nat) => onImpAll (fun x => { x with recRd := v, recCount := n }) m
  if v = x.recWr then set 0
  else if v.toNat < impCap m && d ≤ x.recCount then set (x.recCount - d)
  else accErr p 0x30030 m

/-- IMP_CMD, offset 0x03_0010. -/
def offImpCmd : Nat := 0x30010

/-- IMP_CHOICE. -/
def execImpChoice (b : Fin 12) (ecc : Ecc) (s : State) : Out := s.act (withEnv ⟨ecc, []⟩ (clocked 13 (impChoice b ecc)))
/-- SLUG_END. -/
def execSlugEnd (b : Fin 12) (s : State) (env : Env := {}) : Out := s.act (withEnv env (clocked 13 (slugEndOp b)))
/-- WAIT_PRIO_ELAPSED. -/
def execWaitPrioElapsed (b : Fin 12) (s : State) : Out := s.act (clocked 13 (waitPrio b))
/-- RETIRE. -/
def execRetire (p : Port) (hi : BitVec 28) (s : State) : Out := s.act (writeGate p offImpCmd (impCmd (opWord hi 1)))
/-- RETIREMENT_SCAN_END. -/
def execRetirementScanEnd (ecc : Ecc) (s : State) : Out := s.act (withEnv ⟨ecc, []⟩ (clocked 13 (scanDone ecc)))
/-- RETURN. -/
def execReturn (p : Port) (hi : BitVec 28) (s : State) : Out := s.act (writeGate p offImpCmd (impCmd (opWord hi 2)))
/-- RETURN_ENGAGED. -/
def execReturnEngaged (b : Fin 12) (s : State) : Out := s.act (clocked 13 (returnEngaged b))
/-- RETURN_TIMEOUT. -/
def execReturnTimeout (b : Fin 12) (s : State) : Out := s.act (clocked 13 (returnTimeout b))
/-- BEAM_AUTO_RETURN. -/
def execBeamAutoReturn (b : Fin 12) (s : State) : Out := s.act (clocked 13 (autoReturn b))
/-- IMP_REC_RD_WRITE. -/
def execImpRecRdWrite (p : Port) (v : Word) (s : State) : Out := s.act (writeGate p 0x30030 (impRelease p v))
/-- RECORD_ENTRY_DEFERRED. -/
def execRecordEntryDeferred (s : State) (env : Env := {}) : Out := s.act (withEnv env (clocked 13 impDeferred))

end Sys2Proof.Machine
end

