-- ==== Sys2Proof/Machine/MeltBase.lean ====
section
/-!
DEFINITION. What a beam's spot and emission are at a time (R314, R323, R326), and the melt-pool values that the DAC instants and the
windows share (R357, R366 to R371).
-/

namespace Sys2Proof.Machine

/-! ### The spot -/

/-- The plan that the setpoint followed at a time: none once a stop has cut it. -/
def planAt (m : Mach) (b : Fin 12) (t : Nat) : Option Plan :=
  let x := m.beams[b]
  ((x.plan.toList ++ x.prev).find? (fun p => decide (p.start ≤ t))).filter (fun p => decide (t < x.cutT) || decide (x.cutT ≤ p.start))

/-- The bed point of the path at a time, without wobble, 2^-16 nm. -/
def spotPoint (m : Mach) (b : Fin 12) (t : Nat) : Int × Int :=
  let x := m.beams[b]
  let onPlan := match planAt m b t with | some p => (match p.point t with | some (false, q) => q | _ => (x.bedX, x.bedY)) | none => (x.bedX, x.bedY)
  match x.stopping with
  | some d => if d.t0 ≤ t then (match d.path with | .field .. => (x.bedX, x.bedY) | _ => pathAt d.path d.len (d.gone t).1) else onPlan
  | none => onPlan

/-- Speed along the path at a time, 2^-32 µm/s. -/
def spotSpeed (m : Mach) (b : Fin 12) (t : Nat) : Nat :=
  let onPlan := match planAt m b t with | some p => p.speed t | none => 0
  match m.beams[b].stopping with
  | some d => if d.t0 ≤ t then d.v - d.a * (t - d.t0) * 65536 / 1000000 else onPlan
  | none => onPlan

/-- The plan in whose emission a spot time lies. -/
def spotEmission (m : Mach) (b : Fin 12) (t : Nat) : Option Plan :=
  (planAt m b t).filter (fun p => decide (m.beams[b].cutT ≤ p.start) &&
    match p.emit with | some (t0, t1) => decide (t0 ≤ t) && decide (t ≤ t1) | none => false)

/-- A device time rounded down to a DAC instant, ns (R327). -/
def dacFloor (t : Nat) : Nat := t / 500 * 500

/-- The emission whose power a DAC instant carries (R323, R326): from the last instant not after gate-on − PWR_LEAD to the first not
before its gate-off; at a carried-on gate, which has no edges, its ideal gate-on counts (R321). -/
def dacEmission (m : Mach) (b : Fin 12) (t : Nat) : Option Plan :=
  let x := m.beams[b]
  ((x.plan.toList ++ x.prev).find? (fun p => decide (x.cutT ≤ p.start) && p.emit.isSome &&
    decide (dacFloor ((p.on.getD p.idealOn - p.tim 3) / 65536) ≤ t))).filter (fun p =>
      match p.off with | some o => decide (t * 65536 < o) | none => p.contInto)

/-- The gate-on of the emission that a plan belongs to: its own, or that of the slug from which the gate is carried on (R321). -/
def emissionOn (m : Mach) (b : Fin 12) (p : Plan) : Nat :=
  match ((m.beams[b].plan.toList ++ m.beams[b].prev).find? (fun q => decide (q.start ≤ p.start) && q.on.isSome)) with
  | some q => q.on.getD 0
  | none => p.idealOn

/-- Spot time of a DAC instant, clamped into an emission by the request itself (R323). -/
def dacTau (p : Plan) (t : Nat) : Nat := t * 65536 + p.tim 1 - p.tim 0

/-! ### Melt-pool values -/

/-- A signal of the melt-pool engine (R357). -/
def mplSig (b : Fin 12) (k : Nat) : Nat := 448 + 16 * b.val + k

/-- PD_SEL as FAST_SRC selects (R357). -/
def pdSel (m : Mach) (b : Fin 12) : Nat :=
  let x := m.mpl[b]
  match recFld m (recMplFront b.val) 0 5 4 with | 0 => x.a | 1 => x.b | _ => (x.a + x.b) / 2

/-- The parameter set of the emission in force at a device time in ns, or of the current slug. -/
def setInForce (m : Mach) (b : Fin 12) : List Byte :=
  match spotEmission m b (nowQ m - lagOf m b), m.beams[b].plan with
  | some p, _ => p.set
  | none, some p => p.set
  | none, none => []

/-- FAST_SP (R368). -/
def fastSp (m : Mach) (b : Fin 12) : Int := clampI 0 65472 ((psMpSet (setInForce m b) : Int) * 64 + m.mpl[b].tApp)

/-- STREAM (R357). -/
def streamWord (x : Mpl) : Nat := flag 0 x.pdValid + flag 1 x.tempValid + flag 2 x.frameValid + flag 3 x.noLight + flag 4 x.backrefl

/-- The context that wrote a signal last is running and has not taken its owner's safe action: after a substitution, once its owner is
released (R366, R447). -/
def writerRuns (m : Mach) (s : SigVal) : Bool :=
  match s.ctx with
  | some k => let c := m.cells.ctx[(Fin.ofNat 256 k.toNat)]; c.st = .running && c.settle.isNone
  | none => false

/-- The gate-on edge of the emission of a plan plus LON_DELAY and ARM_NS have passed at a device time in ns (R366, R373). -/
def armed (m : Mach) (b : Fin 12) (p : Plan) (t : Nat) : Bool :=
  decide (emissionOn m b p / 65536 + (p.timing.getD 1 0).toNat + (recWord m (recMplFront b.val) 4).toNat ≤ t)

/-- CORR as it stands at a device time in ns: a value written in that very cycle of CLK_FAB, 2.5 ns, is not there yet (R367, R389). -/
def corrAt (m : Mach) (b : Fin 12) (t : Nat) : Int :=
  match m.mpl[b].corrLog.find? (fun e => decide (2 * e.1 / 5 < 2 * t / 5)) with | some e => e.2 | none => 0

/-- FAST_EN at a DAC instant (R366); times in ns. -/
def fastEnNow (m : Mach) (b : Fin 12) (t : Nat) : Bool :=
  let x := m.mpl[b]
  let s := sigGet m (mplSig b 6)
  recFld m (recMplLoop b.val) 0 0 0 = 1 && m.g.dev = .building &&
  (match spotEmission m b (t * 65536 - lagOf m b) with
   | some p => psFlag p.set 1 && armed m b p t
   | none => false) &&
  x.pdValid && !x.noLight && s.valid && x.corrLog.any (fun e => decide (t ≤ e.1 + 2000)) && writerRuns m s

/-- The nine bytes that name a slug in a log entry: FORME_ID, INDEX, SRC (R271). -/
def slugId (m : Mach) (b : Fin 12) : List Byte :=
  let x := m.beams[b]
  leBytes 4 x.forme.toNat ++ leBytes 4 x.index.toNat ++ leBytes 1 x.src.toNat

/-- The deposit factor m × 2^48 (R378). -/
def depositMul (m : Mach) (b : Fin 12) : Nat :=
  let sp := fastSp m b
  if !m.mpl[b].pdValid || sp = 0 || m.g.dev = .proof then 281474976710656
  else (clampI 140737488355328 422212465065984
    (281474976710656 + divR (((recWord m recHmapHeat 1).toNat : Int) * ((pdSel m b : Int) - sp) * 281474976710656) (256 * sp))).toNat

/-- A PD entry is written with the samples held (R385, R386, R389). -/
def pdEntry (b : Fin 12) (m : Mach) : Mach :=
  let x := m.mpl[b]
  if x.held.isEmpty then m
  else
    let body := x.held.flatMap (fun h => leBytes 2 h.a ++ leBytes 2 h.b ++ leBytes 2 h.br ++ leBytes 2 (BitVec.ofInt 16 (Int.tdiv h.corr 2)).toNat)
    onMpl b (fun x => { x with held := [] }) (ringWrite b 2 (x.heldFlags + x.held.length * 32) x.heldAt body m)

/-- The end of an emission: the deposit run is added, and held samples and once-per-emission reports end (R374, R378, R386). -/
def emissionEnd (b : Fin 12) (m : Mach) : Mach :=
  let m1 := pdEntry b (depositEnd b m)
  onMpl b (fun x => { x with backrefl := false, brRun := 0, darkRun := 0 })
    (onBeam b (fun x => { x with emitting := none }) m1)

end Sys2Proof.Machine
end

