-- ==== Sys2Proof/Machine/MemOps.lean ====
section
/-!
DEFINITION. The layer memory commands and events: retraining, scrub, refresh, write queue, hot rows, mode register 4
(13 of spec/).
-/

namespace Sys2Proof.Machine

/-- A refused MEM_CMD (R675). -/
def memRefuse (m : Mach) : Mach := raise .mem 8 (cmdError m)

/-- A MEM_CMD write (R664, R669, R675). -/
def memCmd (w : Word) (m : Mach) : Mach :=
  if fld w 31 24 ≠ 0x9C || fld w 23 17 ≠ 0 || fld w 15 4 ≠ 0 then memRefuse m
  else
    match fld w 3 0 with
    | 1 =>
      let c : Fin 2 := Fin.ofNat 2 (fld w 16 16)
      let x := m.mem.ch c.val
      if x.retrainPend || x.st = .retraining then memRefuse m else onCh c (fun x => { x with retrainPend := true }) m
    | 2 => { m with mem := { m.mem with scrubbing := true } }
    | _ => memRefuse m

/-- A pending retraining runs at the first moment when the job is not EXPOSING, or the device not in BUILDING or PROOF
(R664). -/
def retrainRun (c : Fin 2) (m : Mach) : Mach :=
  if inBuild m && m.job.st = .exposing then m else retrainNow c m

/-- A retraining ends (R664, R665, R778). -/
def retrainEnd (c : Fin 2) (ok : Bool) (rd wr : Byte) (m : Mach) : Mach :=
  if (m.mem.ch c.val).st ≠ .retraining then m
  else if ok then
    repair 0xB001 c.val [rd, wr] (raise .mem 2
      (onCh c (fun x => { x with st := .ready, trainNone := false, trains := x.trains + 1, winRd := rd, winWr := wr }) m))
  else
    logClass 0xB c.val [] (raise .mem 3 (onCh c (fun x => { x with st := .ready, trainNone := true, trains := x.trains + 1 }) m))

/-- Reads that a channel has accepted from its requesters by now (R647). -/
def acceptReads (c : Fin 2) (rs : List RdReq) (m : Mach) : Mach :=
  onCh c (MemCh.accept (rs.filter (fun r => decide (chanOf r.block = c.val)))) m

/-- A bank's refresh falls due: it is issued when the bank's read queue and its entries in the write queue are empty, or after 8
postponements; a neighbour refresh of the bank goes first, and the refresh closes its row (R653, R669) (DESIGN CHOICE, log row 112). -/
def refreshDue (c : Fin 2) (bank : Fin 16) (reads : List RdReq) (m0 : Mach) : Mach :=
  if (m0.mem.ch c.val).st ≠ .ready then m0
  else
    let m := acceptReads c reads m0
    let x := m.mem.ch c.val
    let n := look (fun _ => 0) x.postponed bank.val
    let busy := (x.readQ ++ x.readWait).any (fun r => decide (bankOf r.block = bank.val)) || x.writeQ.any (fun k => decide (bankOf k = bank.val))
    if busy && n < 8 then onCh c (fun x => { x with postponed := put (fun _ => 0) x.postponed bank.val (n + 1) }) m
    else
      onCh c (fun x => { x with postponed := put (fun _ => 0) x.postponed bank.val 0, openRow := put (fun _ => 0) x.openRow bank.val 0 })
        (neighboursFirst c bank.val m)

/-- How many entries of a write queue of `n` drain: all while no read waits, else down to 16 from 48 or more (R652). -/
def drainCount (n : Nat) (readsWait : Bool) : Nat := if !readsWait then n else if 48 ≤ n then n - 16 else 0

/-- Drained writes grouped by bank, and within a bank by row (R652). -/
def byRow (ks : List Nat) : List Nat :=
  (List.range 16).flatMap (fun b =>
    let kb := ks.filter (fun k => decide (bankOf k = b))
    (kb.map rowOf).eraseDups.flatMap (fun r => kb.filter (fun k => decide (rowOf k = r))))

/-- A channel drains its write queue: to 16 entries from 48 or more, to none while no read waits (R652). -/
def drainQueue (c : Fin 2) (reads : List RdReq) (m0 : Mach) : Mach :=
  let m := acceptReads c reads m0
  let x := m.mem.ch c.val
  let n := drainCount x.writeQ.length (decide (x.readQ ≠ []) || decide (x.readWait ≠ []))
  eachM (byRow (x.writeQ.take n)) rowActivate (onCh c (fun x => { x with writeQ := x.writeQ.drop n }) m)

/-- A row that has reached HOT_THRESHOLD: its neighbours are refreshed, its count returns to 0 (R655). -/
def hotRefresh (c : Fin 2) (bank : Fin 16) (row : BitVec 16) (m : Mach) : Mach :=
  if (m.mem.ch c.val).st = .ready && decide ((bank.val, row.toNat) ∈ (m.mem.ch c.val).nbr) then neighbourRefresh c bank.val row.toNat m else m

/-- A refresh window starts: the tables are emptied, and a pending MEM_CFG commit applies (R655, R669, R670). -/
def hotWindow (m : Mach) : Mach :=
  takeRecord recMemCfg (onCh 0 (fun x => { x with hot := [] }) (onCh 1 (fun x => { x with hot := [] }) m))

/-- A patrol pass reads every block that has no write queued, the poisoned ones too (R660, R661). -/
def scrubStart (e : Ecc) (m : Mach) : Mach :=
  if !m.mem.trained then m
  else
    let skip := fun k => k ∈ (m.mem.ch (chanOf k)).writeQ
    let m1 := { m with mem := { m.mem with scrubbing := true } }
    let bad := (m.mem.poison ++ e.ue.filter (fun k => k ∉ m.mem.poison)).filter (fun k => !skip k)
    eachM bad (ueFound 9) (eachM (e.ce.filter (fun k => !skip k && k ∉ bad)) ceFound m1)

/-- A patrol pass completes (R661). -/
def scrubDone (m : Mach) : Mach :=
  if !m.mem.scrubbing then m
  else raise .mem 6 { m with mem := { m.mem with scrubbing := false, scrubPasses := m.mem.scrubPasses + 1 } }

/-- MEM_CMD, offset 0x0E_0080. -/
def offMemCmd : Nat := 0xE0080

/-- MEM_RETRAIN: a MEM_CMD write with OP 0x1. -/
def execMemRetrain (p : Port) (hi : BitVec 28) (s : State) : Out := s.act (writeGate p offMemCmd (memCmd (opWord hi 1)))
/-- SCRUB_NOW: a MEM_CMD write with OP 0x2. -/
def execScrubNow (p : Port) (hi : BitVec 28) (s : State) : Out := s.act (writeGate p offMemCmd (memCmd (opWord hi 2)))
/-- RETRAIN_RUN. -/
def execRetrainRun (c : Fin 2) (s : State) : Out := s.act (retrainRun c)
/-- REFRESH_DUE of a bank, with the reads that the channel has accepted. -/
def execRefreshDue (c : Fin 2) (bank : Fin 16) (reads : List RdReq) (s : State) : Out := s.act (refreshDue c bank reads)
/-- WRITE_QUEUE_DRAIN. -/
def execWriteQueueDrain (c : Fin 2) (reads : List RdReq) (s : State) : Out := s.act (drainQueue c reads)
/-- HOT_ROW_REFRESH. -/
def execHotRowRefresh (c : Fin 2) (bank : Fin 16) (row : BitVec 16) (s : State) : Out := s.act (hotRefresh c bank row)
/-- HOT_ROW_WINDOW. -/
def execHotRowWindow (s : State) : Out := s.act hotWindow
/-- SCRUB_PASS_START with what the pass finds. -/
def execScrubPassStart (ecc : Ecc) (s : State) : Out := s.act (scrubStart ecc)
/-- SCRUB_PASS_DONE. -/
def execScrubPassDone (s : State) : Out := s.act scrubDone

end Sys2Proof.Machine
end

