-- ==== Sys2Proof/Machine/MgtOps.lean ====
section
/-!
DEFINITION. The management subsystem: mailbox, log flushes, watchdog, the Ethernet update window (16 of spec/).
-/

namespace Sys2Proof.Machine

/-! ### The NVM log partition (R771 to R773) -/

/-- An entry appended to the partition; a full sector is followed by the next, the oldest being erased once all are in
use; `bad` says that the next sector fails and is skipped until the next boot (R773). -/
def nvmAppend (bad : Bool) (e : LogEnt) (m : Mach) : Mach :=
  let g := m.mgt
  let room := match g.nvm.getLast? with | some s => decide (s.entries.length < 2047) | none => false
  if room then
    { m with mgt := { g with nvm := g.nvm.dropLast ++ (g.nvm.getLast?.map (fun s => { s with entries := s.entries ++ [e] })).toList,
                             logFlushed := e.seq } }
  else
    let skipped := if bad then g.nvmSkipped + 1 else g.nvmSkipped
    let lost := g.nvm.length + 1 - (Config.logSectors - skipped)
    let kept := g.nvm.drop lost
    let erases := match (g.nvm.take lost).getLast? with | some s => s.erases + 1 | none => 1
    let seq := match g.nvm.getLast? with | some s => s.seq + 1 | none => 0
    let nvm := kept ++ [⟨seq, e.seq, erases, [e]⟩]
    let m1 := { m with mgt := { g with nvm := nvm, nvmSkipped := skipped, logFlushed := e.seq, nvmOldest := match nvm with | s :: _ => s.first | [] => 0 } }
    whenM bad (raise .mgt 3) m1

/-- Every waiting entry goes to the partition (R772). -/
def logFlush (bad : Bool) (m : Mach) : Mach :=
  eachM m.mgt.waiting (nvmAppend bad) { m with mgt := { m.mgt with waiting := [] } }

/-- Entries of the log staging region (R771, R786). -/
def stageCap (m : Mach) : Nat := (region m 5).2 / 32

/-- The oldest entry of the on-chip ring is copied to the staging region (R771). -/
def logStageCopy (m : Mach) : Mach :=
  match m.mgt.ring with
  | [] => m
  | e :: t =>
    if !m.mem.trained || hostHeld m || stageCap m = 0 then m
    else
      let a := (region m 5).1 + 32 * m.mgt.logWr.toNat
      memWrite a e.bytes { m with mgt := { m.mgt with ring := t, logWr := BitVec.ofNat 32 ((m.mgt.logWr.toNat + 1) % stageCap m) } }

/-- Entries held in the NVM partition, oldest first. -/
def nvmEntries (m : Mach) : List LogEnt := m.mgt.nvm.flatMap (fun s => s.entries)

/-- The entries from SEQ `first` onward, at most `n` (R766); SEQ is compared from the oldest entry held, modulo 2^32. -/
def entriesFrom (l : List LogEnt) (first : Word) (n : Nat) : List LogEnt :=
  match l with
  | [] => []
  | o :: _ =>
    let older := decide (wsub first o.seq ≥ 2 ^ 31)
    ((if older then l else l.filter (fun e => decide (wsub first o.seq ≤ wsub e.seq o.seq)))).take n

/-! ### The mailbox (R764 to R767) -/

/-- An MGT_MB_CMD write from the host port (R764, R785). -/
def mbCmd (p : Port) (w : Word) (m : Mach) : Mach :=
  match p with
  | .mgmt => m
  | .host =>
    if fld w 31 24 ≠ 0xD9 || fld w 15 4 ≠ 0 then cmdError m
    else if m.mgt.mbState = .busy then cmdError m
    else { m with mgt := { m.mgt with mbState := .busy, mbTag := BitVec.ofNat 8 (fld w 23 16), mbOp := BitVec.ofNat 4 (fld w 3 0) } }

/-- The request ends: RESULT, results, DONE, MB_REPLY (R764). -/
def mbDone (result : Nat) (res : List Word) (m : Mach) : Mach :=
  raise .mgt 0 { m with mgt := { m.mgt with mbState := .done, mbResult := BitVec.ofNat 4 result,
                                            mbRes := Vector.ofFn (fun i => res.getD i.val (m.mgt.mbRes[i])) } }

/-- The Ethernet update window closes; an open transfer that has not begun its update is abandoned (R780, R783). -/
def netClose (m : Mach) : Mach :=
  let m1 := { m with mgt := { m.mgt with netWindow := none } }
  if m.mgt.xfer.isSome && !(updBusy m && m.boot.updBy = .net) then raise .mgt 5 { m1 with mgt := { m1.mgt with xfer := none } } else m1

/-- LOG_FETCH (R765, R766). -/
def mbLogFetch (m : Mach) : Mach :=
  let a := m.mgt.mbArgs
  let n := (a[1]).toNat
  let dst := (a[2]).toNat + fld a[3] 0 0 * 2 ^ 32
  if n < 1 || 65536 < n || dst % 32 ≠ 0 || !inRegion m 6 dst (32 * n) || hostHeld m then mbDone 1 [] m
  else
    let es := entriesFrom (nvmEntries m) a[0] n
    let m1 := memWrite dst (es.flatMap LogEnt.bytes) m
    mbDone 0 [match es with | e :: _ => e.seq | [] => a[0], BitVec.ofNat 32 es.length] m1

/-- The management subsystem completes the request (R765 to R767). -/
def mbReply (m : Mach) : Mach :=
  if m.mgt.mbState ≠ .busy then m
  else
    let a := m.mgt.mbArgs
    match m.mgt.mbOp.toNat with
    | 1 => mbDone 0 a.toList m
    | 2 => mbDone 0 [m.boot.fwVer, BitVec.ofNat 32 ((nvmEntries m).filter (fun e => decide (e.code = 1))).length,
                     BitVec.ofNat 32 Config.logSectors, m.mgt.wdogCount] m
    | 3 => mbLogFetch m
    | 4 => let m1 := logFlush false m; mbDone 0 [m1.mgt.logFlushed] m1
    | 5 =>
      if a[0] = 0 then mbDone 0 [0] (netClose m)
      else if 3600 < (a[0]).toNat then mbDone 1 [] m
      else mbDone 0 [a[0]] { m with mgt := { m.mgt with netWindow := some a[0] } }
    | 6 =>
      if (m.time.servo = .locked) then mbDone 1 [] m
      else mbDone 0 [] { m with aon := { m.aon with rtc := BitVec.ofNat 48 ((a[0]).toNat + fld a[1] 15 0 * 2 ^ 32) } }
    | _ => mbDone 2 [] m

/-- MGT_MB_CMD, offset 0x11_0010. -/
def offMbCmd : Nat := 0x110010

/-- ECHO: an MGT_MB_CMD write with OP 0x1. -/
def execEcho (p : Port) (hi : BitVec 28) (s : State) : Out := s.act (writeGate p offMbCmd (mbCmd p (opWord hi 1)))
/-- INFO: OP 0x2. -/
def execInfo (p : Port) (hi : BitVec 28) (s : State) : Out := s.act (writeGate p offMbCmd (mbCmd p (opWord hi 2)))
/-- LOG_FETCH: OP 0x3. -/
def execLogFetch (p : Port) (hi : BitVec 28) (s : State) : Out := s.act (writeGate p offMbCmd (mbCmd p (opWord hi 3)))
/-- LOG_FLUSH: OP 0x4. -/
def execLogFlush (p : Port) (hi : BitVec 28) (s : State) : Out := s.act (writeGate p offMbCmd (mbCmd p (opWord hi 4)))
/-- NET_ARM: OP 0x5. -/
def execNetArm (p : Port) (hi : BitVec 28) (s : State) : Out := s.act (writeGate p offMbCmd (mbCmd p (opWord hi 5)))
/-- RTC_SET: OP 0x6. -/
def execRtcSet (p : Port) (hi : BitVec 28) (s : State) : Out := s.act (writeGate p offMbCmd (mbCmd p (opWord hi 6)))
/-- MB_REPLY. -/
def execMbReply (s : State) : Out := s.act mbReply
/-- LOG_STAGE_COPY. -/
def execLogStageCopy (s : State) : Out := s.act logStageCopy
/-- LOG_NVM_FLUSH; `bad` says that the next sector's erase or program fails. -/
def execLogNvmFlush (bad : Bool) (s : State) : Out := s.act (logFlush bad)

/-! ### Watchdog (R763, R783) -/

/-- The management watchdog expires. -/
def watchdog (digestOk : Bool) (m : Mach) : Mach :=
  if !powered m then m
  else
    let again := decide (m.mgt.wdogCount ≠ 0) && decide ((m.time.dt - m.mgt.wdogAt).toNat ≤ 3600000000000)
    let m1 := raise .mgt 4 { m with mgt := { m.mgt with wdogCount := m.mgt.wdogCount + 1, wdogAt := m.time.dt } }
    if again || !digestOk then faultSafeHold 0xE001 0xFF (leBytes 1 m1.mgt.wdogCount.toNat) m1
    else
      let m2 := repair 0xE002 0xFF [] m1
      if m2.mgt.mbState = .busy then mbDone 3 [] m2 else m2

/-- MGMT_WATCHDOG_EXPIRE, with whether the SRAM image matches the FIRMWARE digest. -/
def execMgmtWatchdogExpire (digestOk : Bool) (s : State) : Out := s.act (watchdog digestOk)

/-! ### Ethernet (R779, R780, R782) -/

/-- Mode of an Ethernet port in MGT_NET (R784). -/
def ethMode (m : Mach) (p : Fin 2) : Nat := if p = 0 then recFld m recMgtNet 3 1 0 else recFld m recMgtNet 3 3 2

/-- An Ethernet port. -/
def Mgt.eth (g : Mgt) (p : Fin 2) : EthPort := if p = 0 then g.eth0 else g.eth1

/-- An Ethernet port replaced. -/
def Mgt.setEth (g : Mgt) (p : Fin 2) (e : EthPort) : Mgt := if p = 0 then { g with eth0 := e } else { g with eth1 := e }

/-- An Ethernet port carries frames: it is configured, its loss-of-signal input is low, and the host domain runs. -/
def ethLive (m : Mach) (p : Fin 2) : Bool := ethMode m p ≠ 0 && !(m.mgt.eth p).los && domainOn m 10 && !hostHeld m

/-- Any Ethernet port is live. -/
def netLive (m : Mach) : Bool := ethLive m 0 || ethLive m 1

/-- The UDP port of transfers (R784). -/
def updPort (m : Mach) : Nat := recFld m recMgtNet 0 31 16

/-- A datagram of R779. -/
def netSend (ip : BitVec 32) (type id off len : Nat) (data : List Byte) (m : Mach) : Mach :=
  emit (.datagram ip (updPort m) (leBytes 2 type ++ leBytes 2 0 ++ leBytes 4 id ++ leBytes 4 off ++ leBytes 4 len ++ data)) m

/-- Ethernet update may run: UPDATE_EN and an open window (R779). -/
def netArmed (m : Mach) : Bool := netLive m && recFld m recMgtNet 0 0 0 = 1 && m.mgt.netWindow.isSome

/-- BEGIN (R780). -/
def netBegin (sender : BitVec 32) (id : Word) (len : Nat) (m : Mach) : Mach :=
  if !netArmed m then m
  else if len < 256 || 50331648 < len || (region m 6).2 < len || updBusy m || m.boot.rlState ≠ .idle || m.mgt.xfer.isSome then
    netSend sender 0x82 id.toNat 0 (9 * 2 ^ 28) [] m
  else { m with mgt := { m.mgt with xfer := some ⟨sender, id, len, []⟩ } }

/-- Bytes received without a gap from offset 0. -/
def gapless : Nat → List (Nat × Nat) → Nat → Nat
  | 0, _, at_ => at_
  | n + 1, got, at_ =>
    match got.find? (fun r => decide (r.1 ≤ at_) && decide (at_ < r.1 + r.2)) with
    | some r => gapless n got (r.1 + r.2)
    | none => at_

/-- DATA (R779, R780). -/
def netData (sender : BitVec 32) (id : Word) (off : Nat) (bs : List Byte) (m : Mach) : Mach :=
  match m.mgt.xfer with
  | none => m
  | some x =>
    if !netArmed m || x.sender ≠ sender || x.id ≠ id || bs.length < 1 || 1024 < bs.length || x.len < off + bs.length then m
    else
      let got := x.got ++ [(off, bs.length)]
      let m1 := memWrite ((region m 6).1 + off) bs { m with mgt := { m.mgt with xfer := some { x with got := got } } }
      netSend sender 0x81 id.toNat (gapless got.length got 0) 0 [] m1

/-- END: with every byte received, the update of R174 runs (R780). -/
def netEnd (sender : BitVec 32) (id : Word) (m : Mach) : Mach :=
  match m.mgt.xfer with
  | none => m
  | some x =>
    if !netArmed m || x.sender ≠ sender || x.id ≠ id || gapless x.got.length x.got 0 < x.len then m
    else if updBusy m || m.boot.rlState ≠ .idle then
      raise .mgt 5 (netSend sender 0x82 id.toNat 0 (0xC * 2 ^ 28) [] { m with mgt := { m.mgt with xfer := none } })
    else
      let a := (region m 6).1
      updStart false .net { m with boot := { m.boot with updSrcLo := BitVec.ofNat 32 a, updSrcHi := BitVec.ofNat 32 (a / 2 ^ 32),
                                                          updLen := BitVec.ofNat 32 x.len } }

/-- LOG_REQ: served when LOG_NET is set (R779). -/
def netLogReq (sender : BitVec 32) (id : Word) (first : Word) (n : Nat) (m : Mach) : Mach :=
  if !netLive m || recFld m recMgtNet 0 1 1 = 0 || n < 1 || 32 < n then m
  else
    let es := entriesFrom (nvmEntries m ++ m.mgt.waiting) first n
    netSend sender 0x84 id.toNat first.toNat (32 * es.length) (es.flatMap LogEnt.bytes) m

/-- A transfer with no datagram for 5 s is abandoned (R780). -/
def netIdle (m : Mach) : Mach :=
  if m.mgt.xfer.isSome && !(updBusy m && m.boot.updBy = .net) then raise .mgt 5 { m with mgt := { m.mgt with xfer := none } } else m

/-- ETH_LOSp changes: high holds the port's link down, unless the port is off (R782). -/
def ethLos (p : Fin 2) (los : Bool) (m : Mach) : Mach :=
  let e := m.mgt.eth p
  { m with mgt := m.mgt.setEth p { e with los := los, linkUp := !los && ethMode m p ≠ 0 && domainOn m 10 && !hostHeld m } }

/-- UPD_BEGIN. -/
def execUpdBegin (sender : BitVec 32) (id len : Word) (s : State) : Out := s.act (netBegin sender id len.toNat)
/-- UPD_DATA. -/
def execUpdData (sender : BitVec 32) (id off : Word) (bytes : List Byte) (s : State) : Out := s.act (netData sender id off.toNat bytes)
/-- UPD_END. -/
def execUpdEnd (sender : BitVec 32) (id : Word) (s : State) : Out := s.act (netEnd sender id)
/-- LOG_REQ. -/
def execLogReq (sender : BitVec 32) (id first count : Word) (s : State) : Out := s.act (netLogReq sender id first count.toNat)
/-- NET_TRANSFER_IDLE. -/
def execNetTransferIdle (s : State) : Out := s.act netIdle
/-- NET_WINDOW_CLOSE. -/
def execNetWindowClose (s : State) : Out := s.act netClose
/-- ETH_LOS: the level of ETH_LOSp. -/
def execEthLos (p : Fin 2) (los : Bool) (s : State) : Out := s.act (ethLos p los)

end Sys2Proof.Machine
end

