-- ==== Sys2Proof/Machine/LaneRx.lean ====
section
/-!
DEFINITION. Receiving a frame (R478 to R486, R504) and the frames of the auxiliary heads (R505, R506).
-/

namespace Sys2Proof.Machine

/-- A short stamp extended to the device time nearest now that has it (R12) (DEDUCED, log row 17). -/
def longStamp (m : Mach) (s : Word) : Nat :=
  let d := (s - shortNow m).toInt
  ((now m : Int) + d).toNat

/-! ### Rate limits (R480, R504) -/

/-- Four times the limit of a frame type in frames/s; 0 where the limit is the frames sent. -/
def rateLimit (m : Mach) (h : Fin 16) (type : Nat) : Nat :=
  let b : Fin 12 := Fin.ofNat 12 h.val
  let cam := m.mpl[b].camRate.toNat
  match type with
  | 1 => 5000000000 / samplePeriod m b
  | 2 => 50000000
  | 3 => 80000
  | 4 => 5 * cam
  | 5 => 640 * cam
  | 8 => 4000000
  | 10 => 16000000
  | _ => 0

/-- A bucket filled up to now (DEDUCED, log row 92). -/
def bucketFill (m : Mach) (h : Fin 16) (type : Nat) : Bucket :=
  let b := bucketOf m h type
  { b with tokens := min bucketDepth (b.tokens + rateLimit m h type * (now m - b.at_)), at_ := now m }

/-! ### Receiving -/

/-- NBLK of a type, and whether a payload length is right for it (R480). -/
def frameShape (type : Nat) : Nat × (List Byte → Bool) :=
  match type with
  | 1 => (2, fun p => p.length = 24)
  | 2 => (1, fun p => p.length = 16)
  | 3 => (2, fun p => p.length = 24)
  | 4 => (1, fun p => p.length = 16)
  | 5 => (11, fun p => p.length = 164)
  | 6 => (2, fun p => p.length = 24)
  | 8 => (2, fun p => p.length = 32)
  | 9 => (1, fun p => p.length = 16)
  | 10 => (15, fun p => decide (1 ≤ rdLe p 8 2) && decide (rdLe p 8 2 ≤ 224) && p.length = 16 + rdLe p 8 2)
  | _ => (0, fun _ => false)

/-- Types that a scan head sends, and those of an auxiliary head (R480). -/
def frameFits (h : Fin 16) (type : Nat) : Bool :=
  if h.val < 12 then type = 1 || type = 2 || type = 3 || type = 4 || type = 5 || type = 6
  else type = 3 || type = 6 || type = 8 || type = 9 || type = 10

/-- The head's lanes are one (R488, R505). -/
def singleLane (m : Mach) (h : Fin 16) : Bool := 12 ≤ h.val || (rdLe (headSec m h) 9 1) % 2 = 1

/-- A camera frame may come on this lane (R486) (DEDUCED, log row 92). -/
def routeTakes (m : Mach) (l : Fin 28) (fseq : BitVec 16) : Bool :=
  let h := laneHead l
  let x := m.heads[h]
  if singleLane m h then true
  else
    let want := match x.switch with
      | some s => (match s.fsw with | some f => if (fseq - f).toInt < 0 then !s.route else s.route | none => x.route)
      | none => x.route
    isPrimary m l = want

/-- A copy whose FSEQ lies within the last 4,096 used (DEDUCED, log row 92). -/
def isDuplicate (m : Mach) (h : Fin 16) (fseq : BitVec 16) : Bool := fseq ∈ m.heads[h].used

/-- A frame is used: its FSEQ is remembered. A switch of the camera route is over once it lies as far back as the duplicates reach. -/
def frameUsed (h : Fin 16) (fseq : BitVec 16) (m : Mach) : Mach :=
  onHead h (fun x => { x with
    rxFseq := fseq, used := (fseq :: x.used).take 4096,
    switch := match x.switch with
      | some s => (match s.fsw with | some f => if 4096 ≤ (fseq - f).toInt then none else some s | none => some s)
      | none => none }) m

/-- A frame arriving to an empty bucket (R504) (DEDUCED, log row 92). -/
def floodDrop (l : Fin 28) (type : Nat) (b : Bucket) (m : Mach) : Mach :=
  let h := laneHead l
  let m1 := setBucket h type { b with dropping := some (b.dropping.getD (now m)) } (onLane l (fun x => { x with floodDrop := x.floodDrop + 1 }) m)
  whenM b.dropping.isNone (raise (.lane l) 6) m1

/-- A frame of a type arrives on a lane; `use` is what its payload does. -/
def rxFrame (l : Fin 28) (type : Nat) (f : FrameIn) (use : Mach → Mach) (m : Mach) : Mach :=
  let h := laneHead l
  let cam := type = 4 || type = 5
  let (nblk, okLen) := frameShape type
  if !laneUp m l then m
  else
    match f.fault with
    | .crc =>
      raise (.lane l) 5 (onLane l (fun x => { x with
        crcErr := x.crcErr + 1, crcTimes := (now m :: x.crcTimes).take ((recWord m recLane 4).toNat + 1) }) m)
    | .abort => onLane l (fun x => { x with frameAbort := x.frameAbort + 1 }) m
    | .undefined => onLane l (fun x => { x with protocol := x.protocol + 1 }) m
    | .none =>
      if !frameFits h type || f.nblk ≠ nblk || !okLen f.bytes then onLane l (fun x => { x with protocol := x.protocol + 1 }) m
      else if cam && !routeTakes m l f.fseq then m
      else if isDuplicate m h f.fseq then onLane l (fun x => { x with duplicates := x.duplicates + 1 }) m
      else
        let b := bucketFill m h type
        if b.tokens < oneToken then frameUsed h f.fseq (floodDrop l type b m)
        else use (frameUsed h f.fseq (setBucket h type { b with tokens := b.tokens - oneToken, dropping := none } m))

/-! ### POS and AUX_VAL (R481, R482, R505) -/

/-- Values of 4 bytes written to consecutive signals with one stamp. -/
def sigBlock (base : Nat) (t : Nat) (bs : List Byte) (n : Nat) (m : Mach) : Mach :=
  eachM (List.range n) (fun k => sigWriteAt (base + k) (rdLeS bs (4 * k) 4) t) m

/-- POS_FRAME. -/
def execPosFrame (l : Fin 28) (f : FrameIn) (s : State) : Out :=
  s.act (rxFrame l 1 f (fun m => sigBlock (16 * (laneHead l).val) (longStamp m f.stamp) f.bytes 6 m))

/-- AUX_VAL_FRAME. -/
def execAuxValFrame (l : Fin 28) (f : FrameIn) (s : State) : Out :=
  s.act (rxFrame l 8 f (fun m => sigBlock (16 * (laneHead l).val) (longStamp m f.stamp) f.bytes 8 m))

/-! ### Images (R506, R507) -/

/-- Layer address and size of an auxiliary head's image buffer. -/
def imgBuf (m : Mach) (h : Fin 16) : Nat × Nat := (rdLe (headSec m h) 32 8, rdLe (headSec m h) 40 4)

/-- Bytes of an image's pixels. -/
def Image.size (i : Image) : Nat := i.width * i.height * i.bpp

/-- Every byte of every line has arrived. -/
def Image.whole (i : Image) : Bool := !i.void && decide (i.size ≤ gapless (i.got.length + 1) i.got 0)

/-- A whole image is received: IMG_DONE, and the make-ready step that waits for it ends. -/
def imgCheck (l : Fin 28) (m : Mach) : Mach :=
  let h := laneHead l
  match m.heads[h].img with
  | some i => if i.whole then imageArrived (raise (.lane l) 11 (onHead h (fun x => { x with img := none, imgTag := none }) m)) else m
  | none => m

/-- IMG_BEGIN: an image starts. -/
def imgBegin (l : Fin 28) (bs : List Byte) (m : Mach) : Mach :=
  let h := laneHead l
  let (a, z) := imgBuf m h
  let i : Image := { seq := BitVec.ofNat 16 (rdLe bs 0 2), width := rdLe bs 2 2, height := rdLe bs 4 2, bpp := rdLe bs 6 1,
                     tag := BitVec.ofNat 32 (rdLe bs 8 4), void := false, got := [] }
  let big := decide (z - 64 < i.size)
  let other := m.heads[h].imgTag ≠ some i.tag || (i.bpp ≠ 1 && i.bpp ≠ 2)
  let m1 := onHead h (fun x => { x with img := some { i with void := big || other } }) m
  if big then raise (.lane l) 12 m1 else if other then m1 else imgCheck l (memWrite a bs m1)

/-- IMG_SEG: pixel bytes are stored. -/
def imgSeg (l : Fin 28) (bs : List Byte) (m : Mach) : Mach :=
  let h := laneHead l
  let (a, _) := imgBuf m h
  let n := rdLe bs 8 2
  let line := rdLe bs 2 2
  let off := rdLe bs 4 4
  match m.heads[h].img with
  | some i =>
    if i.void || i.seq ≠ BitVec.ofNat 16 (rdLe bs 0 2) || i.height ≤ line || i.width * i.bpp < off + n then m
    else
      let at_ := line * (i.width * i.bpp) + off
      imgCheck l (memWrite (a + 64 + at_) ((bs.drop 16).take n) (onHead h (fun x => { x with img := some { i with got := i.got ++ [(at_, n)] } }) m))
  | none => m

/-- IMG_BEGIN_FRAME. -/
def execImgBeginFrame (l : Fin 28) (f : FrameIn) (s : State) : Out := s.act (rxFrame l 9 f (imgBegin l f.bytes))
/-- IMG_SEG_FRAME. -/
def execImgSegFrame (l : Fin 28) (f : FrameIn) (s : State) (env : Env := {}) : Out := s.act (withEnv env (rxFrame l 10 f (imgSeg l f.bytes)))

end Sys2Proof.Machine
end

