-- ==== Sys2Proof/Machine/MeltPd.lean ====
section
/-!
DEFINITION. Photodiode payloads and windows (R346 to R360, R369, R370, R373, R374, R386 of 07).
-/

namespace Sys2Proof.Machine

/-! ### Slots -/

/-- The twelve codes of a photodiode payload: A0, B0, BR0, A1, … (R346). -/
def pdCodes (bs : List Byte) : List Nat := let n := leNat bs; tab 12 (fun i => (n >>> (8 + 10 * i)) % 1024)

/-- The slot number of a payload that arrives at `t` ns (R349); none before the first such slot. -/
def pdSlotOf (t seq : Nat) : Option Nat :=
  let top := t / 100
  let back := (top + 256 - seq % 256) % 256
  if back ≤ top then some (top - back) else none

/-- Codes of one channel in a window's slots. -/
def chanCodes (ss : List PdSlot) (c : Nat) : List Nat := ss.flatMap (fun s => tab 4 (fun i => s.codes.getD (3 * i + c) 0))

/-! ### One window -/

/-- F(k) of a channel (R353). -/
def pdFilter (codes : List Nat) (dark : Nat) : Nat := (divR (64 * codes.foldl (· + ·) 0 : Nat) 40 - dark).toNat

/-- y(k) from y(k − 1) and F(k). -/
def pdSmooth (shift y f : Nat) : Nat := ((y : Int) + divR ((f : Int) - y) (2 ^ shift)).toNat

/-- The ratio of R358: the largest value over a zero denominator, and a free value where the numerator is 0 too (DEDUCED, log row 77). -/
def pdRatio (m : Mach) (b : Fin 12) (a bb : Nat) : Nat :=
  let ga := recFld m (recMplFront b.val) 1 15 0
  let gb := recFld m (recMplFront b.val) 1 31 16
  if bb * gb = 0 then (if a * ga = 0 then (Config.ratioOfZeros a ga bb gb).toNat else 4294967295) else min 4294967295 (divR (a * ga * 65536 : Nat) (bb * gb : Nat)).toNat

/-- TEMP of a ratio (R359), mK. -/
def ratioTemp (m : Mach) (b : Fin 12) (r : Nat) : Nat :=
  let lo := (recWord m (recMplFront b.val) 2).toNat
  let hi := (recWord m (recMplFront b.val) 3).toNat
  let den := hi - lo
  let num := min (255 * den) ((r - lo) * 255)
  let t := fun i => (recWord m (recMplRatio b.val) i).toNat
  if den = 0 then t 0
  else
    let i := min (num / den) 254
    (t i : Int).toNat + (divR ((num - i * den : Nat) * ((t (i + 1) : Int) - t i)) den).toNat

/-- EMIT_THR of a beam. -/
def emitThr (m : Mach) (b : Fin 12) : Nat := fld (regGet m (0x50044 + 0x1000 * b.val)) 31 16

/-- The emission in which the spot lies at a device time in ns, and whether ARM_NS has passed since its light came on. -/
def spotArmed (m : Mach) (b : Fin 12) (t : Nat) : Option (Plan × Bool) :=
  (spotEmission m b (t * 65536 - lagOf m b)).map (fun p => (p, armed m b p t))

/-- The emission that a window at a device time in ns counts to: the one that the spot lies in, or else the latest begun. -/
def emissionKey (m : Mach) (b : Fin 12) (t : Nat) : Nat :=
  match spotEmission m b (t * 65536 - lagOf m b), (m.beams[b].plan.toList ++ m.beams[b].prev).find? (fun p => p.emit.isSome) with
  | some p, _ => emissionOn m b p
  | none, some p => emissionOn m b p
  | none, none => 0

/-- TRIM_EN (R369) at a device time in ns. -/
def trimEnNow (m : Mach) (b : Fin 12) (t : Nat) : Bool :=
  let x := m.mpl[b]
  recFld m (recMplLoop b.val) 0 1 1 = 1 && m.g.dev = .building &&
  (match spotArmed m b t with | some (p, _) => psFlag p.set 1 | none => false) &&
  x.frameValid && x.lastInEmission && !x.implausible

/-- The filter and the flags of a window (R353, R354, R356, R358 to R360) (DEDUCED, log row 78). -/
def windowValues (b : Fin 12) (k : Nat) (ss : List PdSlot) (m : Mach) : Mach :=
  let x := m.mpl[b]
  let full := decide (ss.length = 10)
  let shift := recFld m (recMplFront b.val) 0 2 0
  let dark := regGet m (0x50040 + 0x1000 * b.val)
  let darkBr := regGet m (0x50044 + 0x1000 * b.val)
  let next := fun (c y d : Nat) => if full then pdSmooth shift y (pdFilter (chanCodes ss c) d) else y
  let sat := fun (c : Nat) => (chanCodes ss c).any (· = 1023)
  let a := next 0 x.a (fld dark 15 0)
  let bb := next 1 x.b (fld dark 31 16)
  let br := next 2 x.br (fld darkBr 15 0)
  let src := recFld m (recMplFront b.val) 0 5 4
  let selSat := (src ≠ 1 && sat 0) || (src ≠ 0 && sat 1)
  let comp := (full :: x.complete).take 4
  let valid := decide (comp = [true, true, true, true]) && !selSat
  let r := pdRatio m b a bb
  let inR := (recWord m (recMplFront b.val) 2).toNat ≤ r && r ≤ (recWord m (recMplFront b.val) 3).toNat
  let tv := valid && !sat 0 && !sat 1 && emitThr m b ≤ a && emitThr m b ≤ bb && inR
  let m1 := onMpl b (fun x => { x with
    a := a, b := bb, br := br, complete := comp, window := some k, pdValid := valid, ratio := r, tempValid := tv,
    temp := if tv then BitVec.ofNat 32 (ratioTemp m b r) else 0,
    slots := x.slots.filter (fun s => decide (10 * k + 10 ≤ s.n)),
    pdMissing := x.pdMissing + BitVec.ofNat 32 (10 - ss.length),
    pdSatWindows := if sat 0 || sat 1 then x.pdSatWindows + 1 else x.pdSatWindows,
    ratioClip := if !inR then x.ratioClip + 1 else x.ratioClip, gap := !full }) m
  let m2 := whenM (!full && !x.gap) (mplRaise b 0) m1
  let key := emissionKey m b ((k + 1) * 1000)
  whenM (selSat && x.satRaised ≠ some key) (fun m => mplRaise b 1 (onMpl b (fun x => { x with satRaised := some key }) m)) m2

/-- The conditions of NO_LIGHT and BACKREFL over windows (R373, R374). -/
def windowRuns (b : Fin 12) (t : Nat) (m : Mach) : Mach :=
  let x := m.mpl[b]
  let low := decide (pdSel m b < emitThr m b)
  let em := spotArmed m b t
  let dark := low && (match em with | some (_, armed) => armed | none => false) && decide (recFld m (recMplFront b.val) 6 15 0 ≤ m.beams[b].req.toNat)
  let high := em.isSome && decide (recFld m (recMplFront b.val) 7 15 0 ≤ x.br)
  onMpl b (fun x => { x with
    darkRun := if dark then x.darkRun + 1 else 0, noLight := x.noLight && low,
    brRun := if high then x.brRun + 1 else 0, backrefl := x.backrefl && (em.isNone || high) }) m

/-- The trim of a window (R369, R370, R389). -/
def windowTrim (b : Fin 12) (t : Nat) (m : Mach) : Mach :=
  let en := trimEnNow m b t
  let lim : Int := (recWord m (recMplLoop b.val) 2).toNat
  let trim := sigInt m (mplSig b 7)
  onMpl b (fun x => { x with trimEn := en, tApp := clampI (-lim) lim (if en then trim else x.tApp) }) m

/-- The signals of a window, stamped `t` ns (R355, R357). -/
def windowSignals (b : Fin 12) (t : Nat) (m : Mach) : Mach :=
  let x := m.mpl[b]
  let vals : List (Nat × Int) := [(0, x.a), (1, x.b), (2, x.br), (3, x.temp.toNat), (4, pdSel m b), (5, fastSp m b),
    (10, (recWord m (recMplLoop b.val) 1).toNat), (11, b2n x.trimEn), (14, streamWord x)]
  eachM vals (fun (k, v) => sigWriteRaw (mplSig b k) (BitVec.ofInt 32 v) t) m

/-- A window's sample for the recording ring (R386, R745). -/
def windowRecord (b : Fin 12) (t : Nat) (m : Mach) : Mach :=
  let x := m.mpl[b]
  let em := (spotEmission m b (t * 65536 - lagOf m b)).isSome
  let dec := (recWord m recHmapRec 1).toNat * (if throttled m then 2 else 1)
  if dec = 0 || m.imp.beams[b].cause ≠ 0 || !(em || bitOf (recWord m recHmapRec 0) 16) then m
  else
    let n := x.pdCount + 1
    if n < dec then onMpl b (fun x => { x with pdCount := n }) m
    else
      let first := x.held.isEmpty
      let m1 := onMpl b (fun x => { x with
        pdCount := 0, held := x.held ++ [⟨x.a, x.b, x.br, x.corr⟩], heldAt := if first then t else x.heldAt,
        heldFlags := if first then flag 1 em + flag 3 x.trimEn + flag 4 x.fastEn else x.heldFlags }) m
      whenM (decide (4 ≤ m1.mpl[b].held.length)) (pdEntry b) m1

/-- Window k is judged, with the slots of it that have arrived. -/
def windowJudge (b : Fin 12) (k : Nat) (m0 : Mach) : Mach :=
  let m := takeRecord (recMplFront b.val) m0
  let ss := m.mpl[b].slots.filter (fun s => decide (s.n / 10 = k))
  let t := (k + 1) * 1000
  windowRecord b t (windowSignals b t (windowTrim b t (windowRuns b t (windowValues b k ss m))))

/-- A window is to be judged by now: its ten slots have all arrived, or no timely payload can complete it any more (R349, R354): sample 3
of slot 10k + 9 lies at 1,000 k + 975 ns (DEDUCED, log row 78). -/
def windowDue (m : Mach) (b : Fin 12) (k : Nat) : Bool :=
  decide ((m.mpl[b].slots.filter (fun s => decide (s.n / 10 = k))).length = 10) || decide (1000 * k + 2975 < now m)

/-- Windows from `k` on are judged in order, up to `n` of them, as far as they are due. -/
def windowsUpTo (b : Fin 12) : Nat → Nat → Mach → Mach
  | 0, _, m => m
  | n + 1, k, m => if windowDue m b k then windowsUpTo b n (k + 1) (windowJudge b k m) else m

/-- Windows that are due are judged (DEDUCED, log row 78). -/
def pdJudge (b : Fin 12) (m : Mach) : Mach :=
  match m.mpl[b].window with
  | none => m
  | some w => windowsUpTo b (now m / 1000 - w) (w + 1) m

/-- A photodiode payload (R349). -/
def pdArrive (b : Fin 12) (bs : List Byte) (m : Mach) : Mach :=
  let x := m.mpl[b]
  match pdSlotOf (now m) (rdLe bs 0 1) with
  | none => m
  | some n =>
    if x.slots.any (fun s => s.n = n) then m
    else if 100 * n + 75 + 2000 < now m then onMpl b (fun x => { x with pdLate := x.pdLate + 1 }) m
    else
      let past := match x.window with | some w => decide (n / 10 ≤ w) | none => false
      if past then m
      else
        let start := match x.window with | some w => some w | none => if n / 10 = 0 then none else some (n / 10 - 1)
        pdJudge b (onMpl b (fun x => { x with slots := ⟨n, pdCodes bs⟩ :: x.slots, window := start }) m)

/-- PD_PAYLOAD: a PD frame on a lane. -/
def execPdPayload (l : Fin 28) (f : FrameIn) (s : State) : Out :=
  s.act (rxFrame l 2 f (pdArrive (Fin.ofNat 12 (laneHead l).val) f.bytes))

end Sys2Proof.Machine
end

