-- ==== Sys2Proof/Machine/BeamOps.lean ====
section
/-!
DEFINITION. The beam engine events (06 of spec/): sample instants, gate edges, DAC instants with the correction guard (R366, R367),
look-ahead answers, and the state changes of R335.
-/

namespace Sys2Proof.Machine

/-- The beam engines run: not frozen by SAFE_HOLD, and the device has left BOOT. -/
def beamsRun (m : Mach) : Bool := inWork m

/-! ### Sample instants (R287, R288, R303, R312, R313) -/

/-- A registration fault is handled: the section is reread from the bank whose section runs, and the beam goes on, or the device
enters SAFE_HOLD (R777). -/
def regReread (b : Fin 12) (m : Mach) : Mach :=
  let bank := if bitOf m.boot.reloaded b.val then !m.boot.bank else m.boot.bank
  let rd := bankReader (m.boot.getBank bank)
  match ((secTable rd).find? (fun e => e.type = 3 && e.inst = b.val)).bind (loadSection rd) with
  | some s =>
    let keep := m.boot.sections.filter (fun x => !(x.type = 3 && x.inst = b.val))
    repair 0x4002 b.val [] (onBeam b (fun x => { x with regFault := false }) { m with boot := { m.boot with sections := keep ++ [s] } })
  | none => faultSafeHold 0x4003 b.val [] m

/-- A stopped beam resumes the slug it stopped, without a job command (R447, R777). -/
def beamResume (b : Fin 12) (m : Mach) : Mach := if m.job.st = .exposing && m.imp.layerOpen then resumeBeam b m else m

/-- A grid read that met an uncorrectable error: the other copy serves, or the beam stops (R310). -/
def gridFault (b : Fin 12) (node : Word) (both : Bool) (m : Mach) : Mach :=
  if both then
    let m1 := beamStop false b (onBeam b (fun x => { x with regFault := true }) m)
    if m1.beams[b].st = .stopping then m1 else beamResume b (regReread b m1)
  else repair 0x4001 b.val (leBytes 4 node.toNat) (raise (.beam b) 7 (onBeam b (fun x => { x with gridAlt := true }) m))

/-- The setpoints and feed-forward of a sample instant at `t` ns are published. -/
def publish (b : Fin 12) (t : Nat) (m : Mach) : Mach :=
  let per := samplePeriod m b
  let lead := (recWord m (recBeamTiming b.val) 4).toNat
  let (x, y, f) := setpointsAhead m b (t * 65536) ((t + lead) * 65536)
  let (nx, ny, nf) := setpointsAhead m b ((t + per) * 65536) ((t + per + lead) * 65536)
  let o := m.beams[b]
  let v := fun (n p : Int) => divR ((n - p) * 1000000) (2 * per)
  let a := fun (n c p : Int) => divR ((n - 2 * c + p) * 1000000000000) (per * per)
  let sig := 256 + 16 * b.val
  let tau := t * 65536 - lagOf m b
  let gate := gateAt m b tau
  let m1 := onBeam b (fun z => { z with
    vff := ((t, v nx o.spX, v ny o.spY) :: z.vff).take 2048,
    spX := x, spY := y, spF := f,
    bedX := (bedPoint m b (t * 65536)).1, bedY := (bedPoint m b (t * 65536)).2 }) m
  let vals : List Int := [x, y, f, v nx o.spX, v ny o.spY, v nf o.spF, a nx x o.spX, a ny y o.spY, a nf f o.spF]
  let m2 := eachM (vals.zipIdx) (fun (z, k) => sigWriteAt (sig + k) z t) m1
  sigWriteAt (sig + 11) (divR (spotSpeed m b tau) spdQ) t (sigWriteAt (sig + 10) (b2n gate) t m2)

/-- A sample instant: the latest multiple of the sample period. `grid` names a node whose copy failed, and whether both did. -/
def sampleInstant (b : Fin 12) (grid : Option (Word × Bool)) (m : Mach) : Mach :=
  if !beamsRun m then m
  else
    let m1 := match grid with | some (n, both) => gridFault b n both m | none => m
    if !beamsRun m1 then m1 else publish b (now m1 / samplePeriod m1 b * samplePeriod m1 b) m1

/-! ### Gate edges (R316 to R318) -/

/-- Delay elements that the tap table of a beam's gate holds for the step of an edge at `t` (R316, R317, R344). -/
def tapOf (m : Mach) (b : Fin 12) (t : Nat) : Nat :=
  let k := t % tickQ / 2560
  fld (regGet m (0x40080 + 0x1000 * b.val + 4 * (k / 4))) (8 * (k % 4) + 5) (8 * (k % 4))

/-- The next issued edge fires once the tick of its time has come, whatever the core die's clocks do (R316 to R318, R342, R370). -/
def edgeFire (b : Fin 12) (m : Mach) : Mach :=
  match m.beams[b].edges with
  | [] => m
  | (t, on) :: rest =>
    if !inBuild m || nowQ m < t / tickQ * tickQ then m
    else
      let m1 := setGate b on t (tapOf m b t) (onBeam b (fun x => { x with edges := rest }) m)
      if on then
        let x := m.beams[b]
        let own := (x.plan.toList ++ x.prev).find? (fun p => p.on = some t)
        let set := match own with | some p => psMpSet p.set | none => 0
        let last := match x.plan with | some p => if p.contFrom then psMpSet p.set else set | none => set
        onMpl b (fun x => { x with tApp := if x.lastSet.any (fun s => decide (s ≠ set)) then 0 else x.tApp, lastSet := some last })
          (onBeam b (fun x => { x with onTime := BitVec.ofNat 64 (t / 65536), onSub := BitVec.ofNat 16 (t % 65536) }) m1)
      else m1

/-! ### DAC instants (R323 to R327, R366, R367, R378) -/

/-- σ of an instant: the answer, the previous one of the emission, or 1 (R324) (DEDUCED, log row 82). -/
def sigmaNow (m : Mach) (b : Fin 12) (p : Plan) (first : Bool) : Nat × Bool :=
  if !psFlag p.set 2 then (65535, false)
  else
    match m.beams[b].laAns with
    | some a => (max a.toNat (psLaFloor p.set), false)
    | none => (if first then 65535 else m.beams[b].sigma.toNat, true)

/-- The look-ahead part of an instant: σ in force, late answers counted (R324, R343) (DEDUCED, log row 75) (DEDUCED, log row 82). -/
def lookahead (b : Fin 12) (p : Plan) (m : Mach) : Mach :=
  let (s, late) := sigmaNow m b p (m.beams[b].emitting ≠ some (emissionOn m b p))
  let m1 := onBeam b (fun x => { x with sigma := BitVec.ofNat 16 s, laAns := none,
                                        laLate := if late then x.laLate + 1 else x.laLate }) m
  whenM late (raise (.beam b) 5) m1

/-- The output stage's code after compensation and clamp (R325, R727), as the laser monitor compares it (DEDUCED, log row 107). -/
def compCode (m : Mach) (b : Fin 12) (code : Nat) : Nat :=
  min (recFld m (recBeamLimits b.val) 0 15 0) ((2 * code * m.hlt.lasers[b].gain.toNat + 16384) / 32768)

/-- The word written to the DAC for a code: compensation and clamp, then the DAC's offset and gain (R325, R727, R758)
(DEDUCED, log row 119). -/
def dacWord (m : Mach) (b : Fin 12) (code : Nat) : Nat :=
  let w := regGet m (0x100140 + 4 * b.val)
  (clampI 0 65535 (divR (((compCode m b code : Nat) + sfld w 15 0) * fld w 31 16) 16384)).toNat

/-- A code goes to the output stage at a DAC instant (R325, R327). -/
def dacPut (b : Fin 12) (code : Nat) (m : Mach) : Mach :=
  onBeam b (fun x => { x with dac := BitVec.ofNat 16 code, lpwr := BitVec.ofNat 16 (dacWord m b code) }) m

/-- The LPWR output: the DAC's word while PERMIT is 1 and HOLD_b is clear, otherwise code 0 (R17, R580). -/
def lpwrNow (m : Mach) (b : Fin 12) : Nat := if permitNow m && !bitOf m.ilk.hold b.val then m.beams[b].lpwr.toNat else 0

/-- The code that the laser monitor compares, and since when it has stood within 1 % (R726). -/
def laserTrack (b : Fin 12) (t code : Nat) (m : Mach) : Mach :=
  let c := compCode m b code
  onHlt (fun h => { h with lasers := h.lasers.set b (
    let l := h.lasers[b]
    if 100 * (max c l.code - min c l.code) ≤ l.code then l else { l with code := c, since := t }) }) m

/-- The guard at an instant at `t` ns (R366, R367): FAST_EN, correction in force, PWR_OUT. -/
def guardStep (b : Fin 12) (t : Nat) (req : Nat) (m : Mach) : Mach :=
  let en := fastEnNow m b t
  let lc : Int := if en then psCorrLim (setInForce m b) else 0
  let c := corrAt m b (t - 30)
  let out := (clampI 0 65535 (req + clampI (-lc) lc c)).toNat
  let corr : Int := (out : Int) - req
  let m1 := onMpl b (fun x => { x with
    fastEn := en, corr := corr, pwrOut := out, corrHist := ((t, corr) :: x.corrHist).take 2100,
    satRun := if en && decide (lc < (c.natAbs : Int)) then x.satRun + 1 else 0 }) m
  sigWriteAt (mplSig b 13) out t (sigPub (mplSig b 8) (b2n en) (sigWriteAt (mplSig b 5) (fastSp m1 b) t m1))

/-- One DAC instant of beam b (DEDUCED, log row 67) (DEDUCED, log row 107). -/
def dacInstant (b : Fin 12) (m0 : Mach) : Mach :=
  if !beamsRun m0 then m0
  else
    let m := pdJudge b (takeRecord (recMplLoop b.val) m0)
    let t := dacFloor (now m)
    let lim := recWords m (recBeamLimits b.val)
    match dacEmission m b t with
    | some p =>
      let key := emissionOn m b p
      let first := m.beams[b].emitting ≠ some key
      let m1 := lookahead b p m
      let m2 := whenM first (onHlt (fun h => { h with lasers := h.lasers.set b { h.lasers[b] with gain := h.lasers[b].nextGain } })) m1
      let req := p.request (fld (lim.getD 1 0) 15 0) m2.beams[b].sigma.toNat (dacTau p t)
      let m3 := sigWriteAt (256 + 16 * b.val + 9) req t (onBeam b (fun x => { x with req := BitVec.ofNat 16 req, emitting := some key }) m2)
      let m4 := guardStep b t req m3
      let lpwr := recFld m4 (recBeamConfig b.val) 1 15 0
      let v : Int := if lpwr = 0xFFFF then req else sigInt m4 lpwr
      let code := (clampI 0 (fld (lim.getD 0 0) 15 0) v).toNat
      let (px, py) := spotPoint m4 b (match p.emit with | some (t0, t1) => max t0 (min t1 (dacTau p t)) | none => dacTau p t)
      laserTrack b t code (deposit b px py code (depositMul m4 b) (dacPut b code m4))
    | none =>
      let m1 := whenM m.beams[b].emitting.isSome (emissionEnd b) m
      let m2 := guardStep b t 0 (sigWriteAt (256 + 16 * b.val + 9) 0 t (onBeam b (fun x => { x with req := 0, laAns := none }) m1))
      let st := m2.beams[b].st
      let code := if !inBuild m2 || st = .stopping || st = .hold || st = .parked then 0 else fld (lim.getD 0 0) 31 16
      laserTrack b t code (if code = 0 && (st = .stopping || st = .hold || st = .parked) then onBeam b (fun x => { x with dac := 0, lpwr := 0 }) m2 else dacPut b code m2)

/-- A look-ahead answer for the beam's next DAC instant (R324, R383, R389). `late` says that it took more than 1.5 µs (DEDUCED, log row 75)
(DEDUCED, log row 82). -/
def laAnswered (b : Fin 12) (late : Bool) (e : Ecc) (m : Mach) : Mach :=
  let t := dacFloor (now m) + 500
  match dacEmission m b t with
  | some p =>
    if !psFlag p.set 2 || !beamsRun m then m
    else
      let m0 := takeRecord recHmapLa m
      let tau := match p.emit with | some (t0, t1) => max t0 (min t1 (dacTau p t)) | none => dacTau p t
      let (px, py) := spotPoint m0 b tau
      let (dx, dy) := p.tangent tau
      let bad := fun a => readBad m0 a 2 e
      let ans := laAnswer m0 bad px py dx dy
      let reads := (laReads m0 px py dx dy).eraseDups
      let hit := reads.filter bad
      let m1 := eachM hit (fun a => memPoke a [0, 0]) (eachM reads (fun a => memRead 6 a 2 e) m0)
      let m2 := whenM (!hit.isEmpty) (raise .hmap 3) m1
      let m3 := onBeam b (fun x => { x with laAns := some (BitVec.ofNat 16 ans) }) m2
      if late then raise .hmap 2 (onHmap (fun h => { h with late := h.late + 1 }) m3) else m3
  | none => m

/-! ### State changes (R335) -/

/-- The segment of the plan after the present state. -/
def segStates (p : Plan) : List BeamSt := p.segs.map (fun g => g.st)

/-- The setpoint is at rest at the target of a JUMP or an inserted move. -/
def moveAtTarget (b : Fin 12) (m : Mach) : Mach :=
  match m.beams[b].st, m.beams[b].plan with
  | .move, some p =>
    if !inBuild m then m
    else
      let (x, y) := match p.segs.find? (fun g => g.st ≠ .move) with
        | some g => pathAt g.path g.len 0
        | none => p.bedEnd m
      onBeam b (fun z => { z with st := if BeamSt.settle ∈ segStates p then .settle else .idle, bedX := x, bedY := y }) m
  | _, _ => m

/-- JUMP_SETTLE has elapsed (R292) (DEDUCED, log row 64). -/
def settleElapsed (b : Fin 12) (m : Mach) : Mach :=
  match m.beams[b].st, m.beams[b].plan with
  | .settle, some p =>
    if !inBuild m then m
    else
      let ss := segStates p
      onBeam b (fun z => { z with st := if BeamSt.runup ∈ ss then .runup else if BeamSt.dwell ∈ ss then .dwell else .mark }) m
  | _, _ => m

/-- The run-up reaches the mark start (R293). -/
def runupAtStart (b : Fin 12) (m : Mach) : Mach := if inBuild m && m.beams[b].st = .runup then onBeam b (fun z => { z with st := .mark }) m else m

/-- The setpoint reaches the mark end: run-out with SKYWRITE, otherwise the slug end follows (R335). -/
def markAtEnd (b : Fin 12) (m : Mach) : Mach :=
  match m.beams[b].st, m.beams[b].plan with
  | .mark, some p => if inBuild m && BeamSt.runout ∈ segStates p then onBeam b (fun z => { z with st := .runout }) m else m
  | _, _ => m

/-- A decelerating beam comes to rest (R328, R335): HOLD, or PARKED where it has been retired. -/
def stoppingAtRest (b : Fin 12) (m : Mach) : Mach :=
  if m.beams[b].st ≠ .stopping || m.g.dev = .safeHold then m
  else
    let x := m.beams[b]
    let (px, py, sx, sy, sw) := match x.stopping with
      | some d =>
        let t := d.t0 + rampTime d.a d.v 0
        let (px, py) := pathAt d.path d.len (d.gone t).1
        let (sx, sy, _) := setpoints m b t t
        (match d.path with | .field .. => (x.bedX, x.bedY, sx, sy, true) | _ => (px, py, sx, sy, x.switched))
      | none => (x.bedX, x.bedY, x.restX, x.restY, x.switched)
    let m1 := raise (.beam b) 1 (onBeam b (fun z => { z with
      st := .hold, stopping := none, bedX := px, bedY := py, restX := sx, restY := sy, switched := sw }) m)
    if m1.imp.beams[b].cause ≠ 0 then beamPark b m1
    else beamResume b (if m1.beams[b].regFault then regReread b m1 else m1)

/-- The head temperature is older than 1 s when a slug is planned (R309). -/
def driftStale (b : Fin 12) (m : Mach) : Mach :=
  if beamsRun m && (headTemp m b).isNone && !m.beams[b].driftStale then raise (.beam b) 6 (onBeam b (fun x => { x with driftStale := true }) m) else m

/-- BEAM_SAMPLE_INSTANT. -/
def execBeamSampleInstant (b : Fin 12) (grid : Option (Word × Bool)) (s : State) : Out := s.act (clocked b.val (sampleInstant b grid))
/-- GATE_EDGE_FIRE. -/
def execGateEdgeFire (b : Fin 12) (s : State) : Out := s.act (edgeFire b)
/-- DAC_INSTANT. -/
def execDacInstant (b : Fin 12) (s : State) : Out := s.act (clocked b.val (dacInstant b))
/-- LOOKAHEAD_ANSWER. -/
def execLookaheadAnswer (b : Fin 12) (late : Bool) (ecc : Ecc) (s : State) : Out := s.act (clocked b.val (laAnswered b late ecc))
/-- BEAM_MOVE_AT_TARGET. -/
def execBeamMoveAtTarget (b : Fin 12) (s : State) : Out := s.act (clocked b.val (moveAtTarget b))
/-- JUMP_SETTLE_ELAPSED. -/
def execJumpSettleElapsed (b : Fin 12) (s : State) : Out := s.act (clocked b.val (settleElapsed b))
/-- RUNUP_AT_START. -/
def execRunupAtStart (b : Fin 12) (s : State) : Out := s.act (clocked b.val (runupAtStart b))
/-- MARK_AT_END. -/
def execMarkAtEnd (b : Fin 12) (s : State) : Out := s.act (clocked b.val (markAtEnd b))
/-- STOPPING_AT_REST. -/
def execStoppingAtRest (b : Fin 12) (s : State) : Out := s.act (clocked b.val (stoppingAtRest b))
/-- DRIFT_STALE. -/
def execDriftStale (b : Fin 12) (s : State) : Out := s.act (clocked b.val (driftStale b))

end Sys2Proof.Machine
end

