-- ==== Sys2Proof/Machine/CellTrace.lean ====
section
/-!
DEFINITION. Trace channels, the global trigger lines and deep capture (R451 to R454, R462, R467, R469).
-/

namespace Sys2Proof.Machine

/-- TRCn_CTRL of channel `ch` of cell `c`. -/
def offTrc (c : Fin 128) (ch : Fin 2) : Nat := 0x80100 + 0x400 * c.val + 0x20 * ch.val

/-- A channel's state. -/
def trcOf (m : Mach) (c : Fin 128) (ch : Fin 2) : Trc := if ch = 0 then m.cells.cells[c].trc0 else m.cells.cells[c].trc1

/-- A channel changed. -/
def onTrc (c : Fin 128) (ch : Fin 2) (f : Trc → Trc) (m : Mach) : Mach :=
  onCell c (fun x => if ch = 0 then { x with trc0 := f x.trc0 } else { x with trc1 := f x.trc1 }) m

/-- TRCn_CTRL as written. -/
def trcCtrl (m : Mach) (c : Fin 128) (ch : Fin 2) : Word := regGet m (offTrc c ch)

/-- Every channel. -/
def allTrc : List (Fin 128 × Fin 2) := (List.finRange 128).flatMap (fun c => [(c, 0), (c, 1)])

/-- The channels with DEEP set. -/
def deepStreams (m : Mach) : List (Fin 128 × Fin 2) := allTrc.filter (fun (c, ch) => bitOf (trcCtrl m c ch) 14)

/-! ### Deep capture (R453, R454) -/

/-- Entries in the ring. -/
def deepCap (m : Mach) : Nat := (region m 4).2 / 32

/-- Capture takes entries: RUNNING, or POST with entries left. -/
def deepTakes (m : Mach) : Bool := m.cells.deepSt = 1 || (m.cells.deepSt = 2 && decide (0 < m.cells.deepPost))

/-- The 32 bytes of an entry (R453). -/
def deepBytes (at_ : Nat) (c : Fin 128) (ch : Fin 2) (flags : Nat) (ws : List Word) : List Byte :=
  let b := leBytes 8 at_ ++ [BitVec.ofNat 8 (c.val + 128 * ch.val), BitVec.ofNat 8 ws.length, BitVec.ofNat 8 flags, 0] ++
    ((ws ++ List.replicate 4 0).take 4).flatMap (fun (w : Word) => leBytes 4 w.toNat)
  b ++ leBytes 4 (crc32 b).toNat

/-- The samples that wait in a channel leave as an entry; `lost` says that the streams together exceeded what is served, so that
the entry is lost (R454) (DEDUCED, log row 89). -/
def deepFlush (lost : Bool) (c : Fin 128) (ch : Fin 2) (m : Mach) : Mach :=
  let t := trcOf m c ch
  if t.deep.isEmpty || !deepTakes m then onTrc c ch (fun x => { x with deep := [] }) m
  else if lost then
    raise .cellArr 1 (onCells (fun x => { x with deepLost := x.deepLost + 1 }) (onTrc c ch (fun x => { x with deep := [], deepFlags := 2 }) m))
  else
    let a := (region m 4).1 + 32 * m.cells.deepWr.toNat
    let next := m.cells.deepWr.toNat + 1
    let m1 := memWrite a (deepBytes t.deepAt c ch t.deepFlags t.deep) m
    onCells (fun x => { x with
      deepWr := BitVec.ofNat 32 (if next < deepCap m then next else 0), deepWrapped := x.deepWrapped || decide (deepCap m ≤ next),
      deepPost := if x.deepSt = 2 then x.deepPost - 1 else x.deepPost }) (onTrc c ch (fun x => { x with deep := [], deepFlags := 0 }) m1)

/-- A recorded sample enters the stream of its channel (DEDUCED, log row 75). -/
def deepPush (lost trig ovr : Bool) (c : Fin 128) (ch : Fin 2) (w : Word) (tn : Nat) (m : Mach) : Mach :=
  if !bitOf (trcCtrl m c ch) 14 || !deepTakes m then m
  else
    let m1 := onTrc c ch (fun x => { x with
      deep := x.deep ++ [w], deepAt := if x.deep.isEmpty then tn else x.deepAt, deepFlags := x.deepFlags ||| flag 0 trig ||| flag 2 ovr }) m
    if (trcOf m1 c ch).deep.length = 4 then deepFlush lost c ch m1 else m1

/-! ### Triggers (R451, R469) -/

/-- A trigger cause reaches a channel: armed and selecting it, the next sample it records is its trigger sample; others ignore it
(R451, R455). -/
def trcCause (sel : Word → Bool) (c : Fin 128) (ch : Fin 2) (m : Mach) : Mach :=
  let w := trcCtrl m c ch
  if fld w 1 0 = 1 && (trcOf m c ch).st = 1 && sel w then onTrc c ch (fun x => { x with trigNow := true }) m else m

/-- A global line fires: channels that listen to it, and deep capture where DEEP_LINE names it; `cmd` says that a command fires it,
so that channels with SRC 0 trigger too. -/
def lineFire (cmd : Bool) (g : Nat) (m : Mach) : Mach :=
  let sel := fun (w : Word) => (cmd && fld w 20 18 = 0) || (fld w 20 18 = 5 && fld w 17 16 = g)
  let m1 := eachM allTrc (fun (c, ch) => trcCause sel c ch) m
  let ctl := regGet m 0x70020
  if m1.cells.deepSt = 1 && fld ctl 3 2 = g then onCells (fun x => { x with deepSt := 2, deepPost := fld ctl 31 8 }) m1 else m1

/-- An overrun or fault of a context of cell c. -/
def trcCtxEvent (c : Fin 128) (m : Mach) : Mach :=
  eachM [(0 : Fin 2), 1] (fun ch => trcCause (fun w => fld w 20 18 = 4) c ch) m

/-- The traced value crosses LEVEL as SRC selects (DEDUCED, log row 88). -/
def crosses (src : Nat) (level : Int) (prev : Option Word) (w : Word) : Bool :=
  match prev with
  | none => false
  | some p =>
    let up := decide (p.toInt < level) && decide (level ≤ w.toInt)
    let down := decide (level < p.toInt) && decide (w.toInt ≤ level)
    match src with | 1 => up | 2 => down | 3 => up || down | _ => false

/-! ### Recording (R451, R452) -/

/-- A channel records one sample: its ring, its trigger and its stream (DEDUCED, log row 88). -/
def trcRecord (lost ovr : Bool) (c : Fin 128) (ch : Fin 2) (w : Word) (tn : Nat) (m : Mach) : Mach :=
  let ctl := trcCtrl m c ch
  let t := trcOf m c ch
  let trig := fld ctl 1 0 = 1 && t.st = 1 &&
    (t.trigNow || crosses (fld ctl 20 18) (regGet m (offTrc c ch + 8)).toInt t.prev w)
  let m1 := onTrc c ch (fun x => { x with
    ring := put (fun _ => 0) x.ring x.wptr w, wptr := (x.wptr + 1) % 2048, wrapped := x.wrapped || decide (x.wptr = 2047),
    ovrIn := x.ovrIn || ovr, prev := some w,
    st := if trig then 2 else x.st, trigIdx := if trig then x.wptr else x.trigIdx, time := if trig then BitVec.ofNat 64 tn else x.time,
    trigNow := x.trigNow && !trig,
    post := if trig then 2048 - fld ctl 31 21 else if x.st = 2 then x.post - 1 else x.post }) m
  let m2 := deepPush lost trig ovr c ch w tn m1
  whenM trig (fun m => whenM (bitOf ctl 15) (lineFire false (fld ctl 13 12)) (raise (.cell c) (6 + ch.val) m)) m2

/-- A TRACE sort's value at a sample instant: recorded at every DECIM-th sample of the context since the arming; a stopped or full
channel ignores it (DEDUCED, log row 88). -/
def trcSample (lost ovr : Bool) (c : Fin 128) (ch : Fin 2) (w : Word) (tn : Nat) (m : Mach) : Mach :=
  let t := trcOf m c ch
  let mode := fld (trcCtrl m c ch) 1 0
  let on := (mode = 2 && t.st = 1) || (mode = 1 && (t.st = 1 || (t.st = 2 && decide (0 < t.post))))
  if !on then m
  else if t.count + 1 < fld (regGet m (offTrc c ch + 12)) 15 0 then onTrc c ch (fun x => { x with count := x.count + 1 }) m
  else trcRecord lost ovr c ch w tn (onTrc c ch (fun x => { x with count := 0 }) m)

/-- An ARM channel has recorded its samples after the trigger (R451): it stops, and what waits for a deep entry is written. -/
def traceStop (c : Fin 128) (ch : Fin 2) (m : Mach) : Mach :=
  let t := trcOf m c ch
  if t.st = 2 && t.post = 0 then deepFlush false c ch (onTrc c ch (fun x => { x with st := 3 }) m) else m

/-- A write of TRCn_CTRL by the host discards the resonance measurement that runs on the channel (R748) (DEDUCED, log row 103). -/
def notchDrop (c : Fin 128) (ch : Fin 2) (m : Mach) : Mach :=
  { m with hlt := { m.hlt with notch := m.hlt.notch.filter (fun e => e.2 ≠ (c.val, ch.val)) } }

/-- A TRCn_CTRL write (R454, R462): ARM or RING re-arms the channel; a seventeenth DEEP is refused (DEDUCED, log row 88)
(DEDUCED, log row 89). -/
def trcCtrlWrite (p : Port) (c : Fin 128) (ch : Fin 2) (v : Word) (m0 : Mach) : Mach :=
  let m := whenM (p = .host) (notchDrop c ch) m0
  if bitOf v 14 && !bitOf (trcCtrl m c ch) 14 && decide (16 ≤ (deepStreams m).length) then accErr p (offTrc c ch) m
  else
    let m1 := regSet (offTrc c ch) (v &&& 0xFFFFF003#32) (deepFlush false c ch m)
    let mode := fld v 1 0
    if mode = 1 || mode = 2 then
      onTrc c ch (fun x => { x with st := 1, wptr := 0, wrapped := false, count := 0, post := 0, prev := none, trigNow := false }) m1
    else onTrc c ch (fun x => { x with st := 0 }) m1

/-- A CELL_DEEP_CTRL write (R467): RUN starts capture anew, OFF ends it. -/
def deepCtrlWrite (v : Word) (m : Mach) : Mach :=
  let m1 := regSet 0x70020 (v &&& 0xFFFFFF0F#32) m
  match fld v 1 0 with
  | 1 => onCells (fun x => { x with deepSt := 1, deepWr := 0, deepLost := 0, deepWrapped := false, deepPost := 0 }) m1
  | 0 => onCells (fun x => { x with deepSt := 0 }) m1
  | _ => m1

/-- DEEP_POST entries have followed DEEP_LINE (R454). -/
def deepDone (m : Mach) : Mach :=
  if m.cells.deepSt = 2 && m.cells.deepPost = 0 then raise .cellArr 0 (onCells (fun x => { x with deepSt := 3 }) m) else m

/-- A CELL_TRG write (R469) (DEDUCED, log row 90). -/
def trgWrite (w : Word) (m : Mach) : Mach :=
  if fld w 31 4 ≠ 0 then refuse .cellArr 4 m else eachM ((List.range 4).filter (fun g => bitOf w g)) (lineFire true) m

/-- A SIG_SEL write latches one signal (R470). -/
def sigSelWrite (w : Word) (m : Mach) : Mach :=
  let m1 := regSet 0x60000 (w &&& 0x7FF#32) m
  { m1 with sig := { m1.sig with latch := sigGet m (fld w 10 0) } }

/-- TRACE_STOP. -/
def execTraceStop (c : Fin 128) (ch : Fin 2) (s : State) : Out := s.act (traceStop c ch)
/-- TRC_CTRL_WRITE. -/
def execTrcCtrlWrite (p : Port) (c : Fin 128) (ch : Fin 2) (v : Word) (s : State) : Out :=
  s.act (writeGate p (offTrc c ch) (trcCtrlWrite p c ch v))
/-- DEEP_RUN: a CELL_DEEP_CTRL write with MODE RUN; `hi` are the word's upper 30 bits. -/
def execDeepRun (p : Port) (hi : BitVec 30) (s : State) : Out := s.act (writeGate p 0x70020 (deepCtrlWrite (hi ++ 1#2)))
/-- DEEP_DONE. -/
def execDeepDone (s : State) : Out := s.act deepDone
/-- CELL_TRG_WRITE. -/
def execCellTrgWrite (p : Port) (v : Word) (s : State) : Out := s.act (writeGate p 0x70010 (trgWrite v))
/-- SIG_SEL_WRITE. -/
def execSigSelWrite (p : Port) (v : Word) (s : State) : Out := s.act (writeGate p 0x60000 (sigSelWrite v))

end Sys2Proof.Machine
end

