-- ==== Sys2Proof/Machine/CellOps.lean ====
section
/-!
DEFINITION. The loop cell array: samples and overruns, faults, substitution, known-answer tests and CELL_CMD (R427 to R449, R455,
R464 to R466).
-/

namespace Sys2Proof.Machine

/-! ### Cells and their contexts -/

/-- Beam of a SCAN_X, SCAN_Y, FOCUS or LASER context. -/
def scanBeam (m : Mach) (k : Fin 256) : Option (Fin 12) :=
  match ctxOf m k with
  | some d => if d.owner ∈ scanClasses && decide (d.beam < 12) then some (Fin.ofNat 12 d.beam) else none
  | none => none

/-- What the owner does when its context has faulted for good (R439). -/
def ownerFault (k : Fin 256) (cell : Fin 128) (m : Mach) : Mach :=
  match scanBeam m k with
  | some b => retire b retContext m
  | none => if ownerOf m k = 7 then faultSafeHold 0x6004 cell.val [BitVec.ofNat 8 k.val] m else fastFalls k m

/-- A context enters FAULTED with its safe action (R437, R438), its owner acting under R439 (DEDUCED, log row 86). -/
def ctxFault (hard : Bool) (k : Fin 256) (m : Mach) : Mach :=
  match m.cells.ctx[k].cell with
  | none => m
  | some c =>
    let m1 := onCtx k (fun x => { x with st := .faulted, engaged := false, ovrRun := 0, settle := none, hard := hard }) m
    ownerFault k c (trcCtxEvent c (raise (.cell c) 2 (safeAct k m1)))

/-! ### Substitution (R444 to R448) -/

/-- A proactive substitution is wanted: it starts now, or waits for the one in progress. -/
def substWanted (c : Fin 128) (m : Mach) : Mach :=
  match m.cells.subst with
  | none => substStart c m
  | some x => if x.src = c then m else onCells (fun y => { y with waiting := addNew y.waiting c }) m

/-- The management subsystem finds corrected memory errors above the margin plan's limit (R444) (DEDUCED, log row 84). -/
def substAuto (c : Fin 128) (m : Mach) : Mach :=
  whenM (recFld m recCellSub 5 0 0 = 1 && m.cells.cells[c].st = .active && substitutable m c) (substWanted c) m

/-- A context restarts on cell d (R447): its owner waits until HARD_SETTLE samples have executed. -/
def ctxRehost (d : Fin 128) (k : Fin 256) (m : Mach) : Mach :=
  let run := m.cells.ctx[k].st = .running || (m.cells.ctx[k].hard && m.cells.ctx[k].st = .faulted)
  let m1 := onCtx k (fun x => { x with cell := some d, hard := false }) m
  if run then onCtx k (fun x => { x with settle := some (recFld m recCellSub 3 15 0) }) (ctxStart k m1) else m1

/-- The contexts of cell c restart on cell d (R447): safe actions, owners that wait, the repair 0x6002 (DEDUCED, log row 84). -/
def hardMove (c d : Fin 128) (ks : List (Fin 256)) (m : Mach) : Mach :=
  let live := ks.filter (fun k => m.cells.ctx[k].st = .running)
  let m1 := eachM live (fun k m => fastFalls k (safeAct k m)) m
  let m2 := eachM (live.filterMap (scanBeam m)).eraseDups (fun b m => onBeam b (fun x => { x with awaiting := beamLive m b }) (beamStop false b m)) m1
  let m3 := onCell c (fun x => { x with partner := BitVec.ofNat 8 d.val })
    (onCell d (fun x => { x with st := .active, partner := BitVec.ofNat 8 c.val }) (eachM ks (ctxRehost d) m2))
  let busy := match m.cells.subst with | some x => !(x.src = c) && !(x.stage = 3) | none => false
  let m4 := if busy then m3 else onCells (fun x => { x with subst := some ⟨c, d, 0, 3, []⟩ }) m3
  repair 0x6002 c.val [BitVec.ofNat 8 d.val] (raise (.cell d) 4 (raise (.cell c) 4 m4))

/-- The contexts of cell c after a hard fault: to a spare where substitution is made, else FAULTED (R437, R444, R447). -/
def hardPath (c : Fin 128) (ks : List (Fin 256)) (m : Mach) : Mach :=
  if ks = [] then m
  else
    let auto := recFld m recCellSub 5 0 0 = 1 && ks.all (fun k => match ctxOf m k with | some d => d.subst | none => false)
    match (if auto then spareFor m c else none) with
    | some d => hardMove c d ks m
    | none => eachM ks (fun k m => if m.cells.ctx[k].st = .running then ctxFault true k m else onCtx k (fun x => { x with hard := true }) m)
        (whenM auto (raise .cellArr 3) m)

/-- The old cell of a hard fault (R443): the first sends it to a test, the second makes it FAILED (DEDUCED, log row 83). -/
def faultedCell (c : Fin 128) (m : Mach) : Mach :=
  if m.cells.cells[c].hardFaults.toNat ≤ 1 then toQuarantine c m else onCell c (fun x => { x with st := .failed }) m

/-- A hard fault of a cell (R444, R447, R455) (DEDUCED, log row 83). -/
def hardFault (c : Fin 128) (m0 : Mach) : Mach :=
  let old := m0.cells.cells[c]
  if old.st = .off || old.st = .failed then m0
  else
    let m := raise (.cell c) 3 (onCell c (fun x => { x with hardFaults := if x.hardFaults.toNat < 2 then x.hardFaults + 1 else x.hardFaults }) m0)
    match old.st with
    | .active =>
      let ks := hosted m c
      match m.cells.subst with
      | some x => if x.src = c && !(x.stage = 3) then faultedCell c (hardMove c x.dst ks m) else faultedCell c (hardPath c ks m)
      | none => faultedCell c (hardPath c ks m)
    | .shadow =>
      match m.cells.subst with
      | some x =>
        let m1 := onCells (fun y => { y with subst := none }) m
        let m2 := toQuarantine c (hardPath c (hosted m c) m1)
        if (spareFor m2 x.src).isSome then substWanted x.src m2 else substOver (raise .cellArr 3 m2)
      | none => toQuarantine c m
    | _ => m

/-- The copy into the spare is made (R445): contexts that do not run have nothing to compare. -/
def substCopied (m : Mach) : Mach :=
  match m.cells.subst with
  | some x => if x.stage = 1 then onCells (fun y => { y with subst := some { x with stage := 2 } }) m else m
  | none => m

/-- Every context has been handed over (R445). -/
def handedOver (x : Subst) (m : Mach) : Mach :=
  let m1 := onCell x.dst (fun c => { c with st := .active }) (toQuarantine x.src m)
  substOver (repair 0x6001 x.src.val [BitVec.ofNat 8 x.dst.val, BitVec.ofNat 8 x.tries] (raise (.cell x.dst) 4 (raise (.cell x.src) 4 m1)))

/-- The hand-over of one context after SHADOW_N matching samples (R445); a context that does not run is handed over as it stands
(DEDUCED, log row 85). -/
def handover (k : Fin 256) (m : Mach) : Mach :=
  match m.cells.subst with
  | none => m
  | some x =>
    match x.ctxs.find? (fun c => c.ctx = k.val) with
    | none => m
    | some e =>
      let runs := m.cells.ctx[k].st = .running
      if !(x.stage = 2) || e.handed || (runs && decide (e.matched < recFld m recCellSub 0 15 0)) then m
      else
        let x1 := { x with ctxs := x.ctxs.map (fun c => if c.ctx = k.val then { c with handed := true } else c) }
        let m1 := onCtx k (fun c => { c with cell := some x.dst, data := if runs then e.data.getD c.data else c.data }) m
        let m2 := onCells (fun y => { y with subst := some x1 }) m1
        if x1.ctxs.all (fun c => c.handed || m2.cells.ctx[(Fin.ofNat 256 c.ctx)].st ≠ .running) then
          handedOver x1 (eachM x1.ctxs (fun c => onCtx (Fin.ofNat 256 c.ctx) (fun y => { y with cell := some x.dst })) m2)
        else m2

/-- HARD_SETTLE samples have executed (R447): the owner is released once every context of its beam has settled. -/
def settleDone (k : Fin 256) (m : Mach) : Mach :=
  let c := m.cells.ctx[k]
  if c.st ≠ .running || c.settle ≠ some 0 then m
  else
    let m1 := onCtx k (fun x => { x with settle := none }) m
    let m2 := match m1.cells.subst with
      | some x => if x.stage = 3 && (hosted m1 x.dst).all (fun j => m1.cells.ctx[j].settle.isNone) then substOver m1 else m1
      | none => m1
    match scanBeam m k with
    | some b =>
      if m2.beams[b].awaiting && (beamCtx m2 b scanClasses).all (fun j => m2.cells.ctx[j].settle.isNone) then
        beamResume b (onBeam b (fun x => { x with awaiting := false }) m2)
      else m2
    | none => m2

/-! ### Samples (R404, R427 to R431) -/

/-- The latest sample instant of a context (R404) (DEDUCED, log row 87). -/
def sampleAt (m : Mach) (d : CtxDesc) : Option Nat :=
  if d.arrival then (let s := sigGet m d.trigger; if s.valid then some s.t.toNat else none)
  else if d.period = 0 || decide (now m < d.phase) then none
  else some ((now m - d.phase) / d.period * d.period + d.phase)

/-- A FRESH input is fresh for the instant (R427); a signal never written is not (DEDUCED, log row 87). -/
def inputFresh (m : Mach) (d : CtxDesc) (tn : Nat) (s : Sort_) : Bool :=
  (d.arrival && s.sig = d.trigger) || (let v := sigGet m s.sig; v.valid && decide (v.t.toNat ≤ tn) && decide (tn < v.t.toNat + d.period))

/-- Every FRESH input is fresh (DEDUCED, log row 87). -/
def allFresh (m : Mach) (d : CtxDesc) (p : List Sort_) (tn : Nat) : Bool := (p.filter (fun s => s.op = 1 && s.f16)).all (inputFresh m d tn)

/-- The sample of a context that waits to run: its instant, not yet judged, with every FRESH input fresh (R428). -/
def sampleReady (m : Mach) (k : Fin 256) : Option Nat :=
  match ctxOf m k with
  | none => none
  | some d => (sampleAt m d).filter (fun tn => m.cells.ctx[k].st = .running && m.cells.ctx[k].last ≠ some tn && allFresh m d (progOf m d) tn)

/-- C0 + C1 of a cell, in cycles (R406). -/
def cellCost (m : Mach) (c : Fin 128) : Nat :=
  (hosted m c).foldl (fun a k => a + match ctxOf m k with | some d => progCost (progOf m d) | none => 0) 0

/-- One CLK_FAB cycle of 2.5 ns in 2^-16 ns. -/
def fabCycle : Nat := 163840

/-- The latest start L_n of a sample, in 2^-16 ns (R429). -/
def latestStart (m : Mach) (c : Fin 128) (d : CtxDesc) (tn : Nat) : Int := (tn + d.period : Nat) * 65536 - cellCost m c * fabCycle

/-- The other context of the cell is ready too and goes first: its latest start is earlier, or equal and it is in slot 0 (R428). -/
def yields (m : Mach) (c : Fin 128) (k : Fin 256) (d : CtxDesc) (tn : Nat) : Bool :=
  (hosted m c).any (fun j => decide (j ≠ k) && match ctxOf m j, sampleReady m j with
    | some e, some tj => decide (latestStart m c e tj < latestStart m c d tn) ||
        (decide (latestStart m c e tj = latestStart m c d tn) && !m.cells.ctx[j].slot)
    | _, _ => false)

/-- The execution unit of the cell runs a sample (R428, R432). -/
def unitBusy (m : Mach) (c : Fin 128) : Bool :=
  decide (nowQ m < m.cells.cells[c].busy) && decide (m.cells.cells[c].busy ≤ nowQ m + 2566 * fabCycle)

/-- A sample may start now: it ends no later than the next instant (R430), the unit is free and the other context does not go first
(R428) (DEDUCED, log row 87). -/
def sampleMay (m : Mach) (c : Fin 128) (k : Fin 256) (d : CtxDesc) (tn : Nat) : Bool :=
  decide (nowQ m + progCost (progOf m d) * fabCycle ≤ (tn + d.period) * 65536) && !unitBusy m c && !yields m c k d tn

/-- The bank exchange at a sample instant (R433, R434, R455): a copy in shadow exchanges with the original. -/
def bankExchange (k : Fin 256) (p : List Sort_) (tn : Nat) (m : Mach) : Mach :=
  if (pendingOf m (recCoef k.val)).any (fun r => decide (r.at_ + 4000 ≤ tn)) then
    let m1 := takeRecord (recCoef k.val) m
    let bank := bankOfCtx m1 k
    onCells (fun x => { x with subst := x.subst.map (fun y =>
      { y with ctxs := y.ctxs.map (fun c => if c.ctx = k.val then { c with data := c.data.map (reclamp p bank) } else c) }) }) m1
  else m

/-- The spare's part in a sample (R445, R446): a fresh copy of the state `before` where it has none, its own sample, and the
comparison. After SHADOW_TRIES mismatches the spare takes the contexts by the hard path (DEDUCED, log row 75) (DEDUCED, log row 85). -/
def shadowSample (k : Fin 256) (agree : Bool) (fresh : Bool) (before : CtxData) (run : CtxData → CtxData) (m : Mach) : Mach :=
  match m.cells.subst with
  | none => m
  | some x =>
    if !(x.stage = 2) || !x.ctxs.any (fun c => c.ctx = k.val && !c.handed) then m
    else
      let upd := fun (c : ShadowCtx) =>
        if c.ctx ≠ k.val then c
        else if agree then { c with data := some (run (if fresh then before else c.data.getD before)), matched := (if fresh then 0 else c.matched) + 1 }
        else { c with data := none, matched := 0 }
      let x1 := { x with ctxs := x.ctxs.map upd }
      if agree then onCells (fun y => { y with subst := some x1 }) m
      else if x.tries < recFld m recCellSub 2 3 0 then onCells (fun y => { y with subst := some { x1 with tries := x.tries + 1 } }) m
      else toQuarantine x.src (hardMove x.src x.dst (hosted m x.src) m)

/-- A ready sample runs (R414 to R432). `agree`: the spare's outputs match; `late`: a write of the former cell came after a hand-over
and is discarded (R448); `lost`: its deep entries are lost (R454); `corr`: memory errors corrected in the cell while it ran (R402)
(DEDUCED, log row 75). -/
def sampleStart (k : Fin 256) (agree late lost : Bool) (corr : Nat) (m0 : Mach) : Mach :=
  let c := m0.cells.ctx[k]
  match ctxOf m0 k, c.cell with
  | some d, some cell =>
    let p := progOf m0 d
    match sampleReady m0 k with
    | none => m0
    | some tn =>
      if !sampleMay m0 cell k d tn then m0
      else
        let m := bankExchange k p tn (onCell cell (fun x => { x with busy := nowQ m0 + progCost p * fabCycle }) m0)
        let before := m.cells.ctx[k].data
        let env : SampleEnv := ⟨sigGet m, bankOfCtx m k, m.g.dev = .safeHold, d⟩
        let r := runProg env p before
        let m1 := onCtx k (fun x => { x with
          data := r.data, samples := x.samples + 1, inClamped := x.inClamped + BitVec.ofNat 32 r.clamped,
          limited := x.limited + BitVec.ofNat 32 r.limited, lagMax := BitVec.ofNat 32 (max x.lagMax.toNat (now m - tn)),
          clampRun := decide (0 < r.clamped), engaged := true, ovrRun := 0, settle := x.settle.map (· - 1), last := some tn,
          traced := r.traces }) m
        let m2 := whenM (decide (0 < r.clamped) && !c.clampRun) (raise (.cell cell) 1) m1
        let m3 := cmdFlush (eachM r.outs (fun (n, v, sat) m => ctxWrite k n v tn (whenM sat (raise .sig 0) m)) m2)
        let m4 := eachM r.traces (fun (ch, w) => trcSample lost false cell (Fin.ofNat 2 ch) w tn) m3
        let m5 := whenM late (raise .sig 1) m4
        let m6 := whenM (decide (0 < corr)) (fun m => raise (.cell cell) 8 (onCell cell (fun x => { x with memCorr := x.memCorr + BitVec.ofNat 32 corr }) m)) m5
        shadowSample k agree (!c.engaged || (match m.cells.subst with | some x => x.ctxs.any (fun e => e.ctx = k.val && e.data.isNone) | none => false))
          before (fun x => (runProg env p x).data) m6
  | _, _ => m0

/-- A sample that is not ready at its latest start overruns (R429, R431, R455) (DEDUCED, log row 87). -/
def sampleOverrun (k : Fin 256) (m0 : Mach) : Mach :=
  let c := m0.cells.ctx[k]
  match ctxOf m0 k, c.cell with
  | some d, some cell =>
    let p := progOf m0 d
    match sampleAt m0 d with
    | none => m0
    | some tn =>
      if c.st ≠ .running || !c.engaged || c.last = some tn || allFresh m0 d p tn || decide ((nowQ m0 : Int) < latestStart m0 cell d tn) then m0
      else
        let m := bankExchange k p tn m0
        let m1 := onCtx k (fun x => { x with overruns := x.overruns + 1, ovrRun := x.ovrRun + 1, last := some tn }) m
        let m2 := trcCtxEvent cell (whenM (c.ovrRun = 0) (raise (.cell cell) 0) m1)
        let m3 := eachM c.traced (fun (ch, w) => trcSample false true cell (Fin.ofNat 2 ch) w tn) m2
        let m4 := onCells (fun x => { x with subst := x.subst.map (fun y => if y.stage = 2 then
          { y with ctxs := y.ctxs.map (fun e => if e.ctx = k.val && e.data.isSome then { e with matched := e.matched + 1 } else e) } else y) }) m3
        if d.limit ≤ c.ovrRun + 1 then ctxFault false k m4 else m4
  | _, _ => m0

/-- A context may be started in the present device state (R439, R465). -/
def mayStart (m : Mach) (k : Fin 256) : Bool := m.g.dev ≠ .safeHold || ownerOf m k = 7

/-- AUTO_RESTART after 64 consecutive fresh instants (R437). -/
def autoRestart (k : Fin 256) (m : Mach) : Mach :=
  match ctxOf m k with
  | some d => if m.cells.ctx[k].st = .faulted && d.autoRestart && !m.cells.ctx[k].hard && mayStart m k then ctxStart k m else m
  | none => m

/-! ### Known-answer tests (R443, R449) -/

/-- KAT_PERIOD has elapsed for a SPARE cell. -/
def katPeriod (c : Fin 128) (m : Mach) : Mach :=
  if m.cells.cells[c].st = .spare && recWord m recCellSub 4 ≠ 0 then onCell c (fun x => { x with st := .testing, quarantined := false }) m else m

/-- The contexts of the lowest failed cell that a hard fault left without a cell and that may be substituted (R437) (DEDUCED, log row 86). -/
def orphans (m : Mach) : Option (Fin 128 × List (Fin 256)) :=
  let hs := (ctxList m).filter (fun k => m.cells.ctx[k].hard && (match ctxOf m k with | some d => d.subst | none => false))
  let cell := hs.foldl (fun (a : Option Nat) k => match m.cells.ctx[k].cell with
    | some c => some (match a with | some x => min x c.val | none => c.val)
    | none => a) none
  cell.map (fun c => (Fin.ofNat 128 c, hs.filter (fun k => m.cells.ctx[k].cell = some (Fin.ofNat 128 c))))

/-- A known-answer test ends after boot (DEDUCED, log row 86). -/
def katDone (c : Fin 128) (pass : Bool) (m : Mach) : Mach :=
  let x := m.cells.cells[c]
  if x.st ≠ .testing || !m.g.configuredOnce then m
  else if pass then
    let m1 := onCell c (fun x => { x with st := .spare, kat := 1, quarantined := false }) m
    let m2 := whenM x.quarantined (repair 0x6003 c.val []) m1
    match orphans m2 with
    | some (o, ks) => hardMove o c ks m2
    | none => m2
  else
    let twice := x.kat = 2
    let m1 := raise (.cell c) 5 (onCell c (fun x => { x with kat := if twice then 3 else 2 }) m)
    if twice then onCell c (fun x => { x with st := .failed }) m1 else toQuarantine c m1

/-! ### CELL_CMD (R464 to R466) -/

/-- A CELL_CMD ends: its status, and the events of a refusal. -/
def cellStatus (op target code : Nat) (m : Mach) : Mach :=
  let m1 := onCells (fun x => { x with cmdOp := BitVec.ofNat 4 op, cmdTarget := BitVec.ofNat 8 target, cmdResult := BitVec.ofNat 4 code }) m
  whenM (decide (code ≠ 1)) (refuse .cellArr 4) m1

/-- STOP is refused for a beam's scan contexts while it is live and the job exposes (R465). -/
def stopRefused (m : Mach) (k : Fin 256) : Bool :=
  match scanBeam m k with | some b => m.job.st = .exposing && beamLive m b | none => false

/-- A context has a cell to run on: its own; after a hard fault, its own once that is SPARE again, or ACTIVE with contexts of the same
descriptor cell (R437) (DEDUCED, log row 86). -/
def hasCell (m : Mach) (k : Fin 256) : Bool :=
  match m.cells.ctx[k].cell with
  | none => false
  | some c => !m.cells.ctx[k].hard || m.cells.cells[c].st = .spare ||
      (m.cells.cells[c].st = .active && (hosted m c).all (fun j => (ctxOf m j).map (·.cell) = (ctxOf m k).map (·.cell)))

/-- A context takes its own cell again after a hard fault (DEDUCED, log row 86). -/
def ownCell (k : Fin 256) (m : Mach) : Mach :=
  match m.cells.ctx[k].cell with
  | some c => if m.cells.ctx[k].hard then onCell c (fun x => { x with st := .active }) (onCtx k (fun x => { x with hard := false }) m) else m
  | none => m

/-- A command: its result code and its effect. -/
def cellCmdOp (op t : Nat) (m : Mach) : Nat × Mach :=
  let k : Fin 256 := Fin.ofNat 256 t
  let c : Fin 128 := Fin.ofNat 128 t
  let st := m.cells.ctx[k].st
  match op with
  | 1 => if st = .stopped && mayStart m k && hasCell m k then (1, ctxStart k (ownCell k m)) else (2, m)
  | 2 => if st ≠ .running then (2, m) else if stopRefused m k then (3, m) else (1, ctxStop false k m)
  | 3 => if st = .faulted && mayStart m k && hasCell m k then (1, ctxStart k (ownCell k m)) else (2, m)
  | 4 =>
    if 128 ≤ t || m.cells.cells[c].st ≠ .active then (2, m)
    else if !substitutable m c then (5, m)
    else if (spares m).isEmpty then (4, m)
    else (1, substWanted c m)
  | 5 => if t < 128 && m.cells.cells[c].st = .spare then (1, onCell c (fun x => { x with st := .testing, quarantined := false }) m) else (2, m)
  | _ => if t < 4 then (1, lineFire true t m) else (2, m)

/-- A CELL_CMD write. -/
def cellCmd (w : Word) (m : Mach) : Mach :=
  let op := fld w 3 0
  if fld w 31 24 ≠ 0x8E || fld w 23 16 ≠ 0 || fld w 7 4 ≠ 0 || op = 0 || 6 < op then refuse .cellArr 4 m
  else
    let r := cellCmdOp op (fld w 15 8) m
    cellStatus op (fld w 15 8) r.1 (spareWatch (fun _ => r.2) m)

/-- CELL_CMD. -/
def offCellCmd : Nat := 0x70000

/-- A LAG_MAX write of slot `slot` of cell c (R461). -/
def lagClear (c : Fin 128) (slot : Bool) (m : Mach) : Mach :=
  eachM ((hosted m c).filter (fun k => m.cells.ctx[k].slot = slot)) (fun k => onCtx k (fun x => { x with lagMax := 0 })) m

/-- LAG_MAX of a slot. -/
def offLagMax (c : Fin 128) (slot : Bool) : Nat := 0x80030 + 0x400 * c.val + (if slot then 0x40 else 0)

/-! ### Commands -/

/-- CELL_SAMPLE_START. -/
def execCellSampleStart (k : Fin 256) (agree late lost : Bool) (corr : Nat) (s : State) : Out :=
  s.act (spareWatch (sampleStart k agree late lost corr))
/-- CELL_SAMPLE_OVERRUN. -/
def execCellSampleOverrun (k : Fin 256) (s : State) : Out := s.act (spareWatch (sampleOverrun k))
/-- CTX_AUTO_RESTART. -/
def execCtxAutoRestart (k : Fin 256) (s : State) : Out := s.act (autoRestart k)
/-- CELL_HARD_FAULT. -/
def execCellHardFault (c : Fin 128) (s : State) : Out := s.act (spareWatch (hardFault c))
/-- HARD_SETTLE_DONE. -/
def execHardSettleDone (k : Fin 256) (s : State) : Out := s.act (spareWatch (settleDone k))
/-- SUBST_COPY_DONE. -/
def execSubstCopyDone (s : State) : Out := s.act substCopied
/-- SHADOW_HANDOVER. -/
def execShadowHandover (k : Fin 256) (s : State) : Out := s.act (spareWatch (handover k))
/-- KAT_PERIOD_ELAPSED. -/
def execKatPeriodElapsed (c : Fin 128) (s : State) : Out := s.act (spareWatch (katPeriod c))
/-- KAT_DONE. -/
def execKatDone (c : Fin 128) (pass : Bool) (s : State) : Out := s.act (spareWatch (katDone c pass))
/-- CELL_START. -/
def execCellStart (p : Port) (hi : BitVec 28) (s : State) : Out := s.act (writeGate p offCellCmd (cellCmd (opWord hi 1)))
/-- CELL_STOP. -/
def execCellStop (p : Port) (hi : BitVec 28) (s : State) : Out := s.act (writeGate p offCellCmd (cellCmd (opWord hi 2)))
/-- RESTART. -/
def execRestart (p : Port) (hi : BitVec 28) (s : State) : Out := s.act (writeGate p offCellCmd (cellCmd (opWord hi 3)))
/-- SUBST. -/
def execSubst (p : Port) (hi : BitVec 28) (s : State) : Out := s.act (writeGate p offCellCmd (cellCmd (opWord hi 4)))
/-- TEST. -/
def execTest (p : Port) (hi : BitVec 28) (s : State) : Out := s.act (writeGate p offCellCmd (cellCmd (opWord hi 5)))
/-- TRIG. -/
def execTrig (p : Port) (hi : BitVec 28) (s : State) : Out := s.act (writeGate p offCellCmd (cellCmd (opWord hi 6)))
/-- LAG_MAX_CLEAR: a write of any value to CELLc_CTXx_LAG_MAX. -/
def execLagMaxClear (p : Port) (c : Fin 128) (slot : Bool) (_v : Word) (s : State) : Out :=
  s.act (writeGate p (offLagMax c slot) (lagClear c slot))

end Sys2Proof.Machine
end

