-- ==== Sys2Proof/Machine/HealthBase.lean ====
section
/-!
DEFINITION. Calibration runs, their assays and steps (R734 to R741), and the throttle (R742 to R745).
-/

namespace Sys2Proof.Machine

/-! ### Units (R734) -/

/-- Calibration domains. -/
def domTaps : Nat := 0
def domLane : Nat := 1
def domPd : Nat := 2
def domDac : Nat := 3
def domAdc : Nat := 4

/-- A die reading in 1/16 °C as m°C. -/
def dieTemp (t : BitVec 16) : Int := divR (t.toInt * 1000) 16

/-- The triggering temperature of a unit, m°C. -/
def unitTemp (m : Mach) (u : CalUnit) : Int :=
  if u.domain = domLane then dieTemp m.hlt.tempCore
  else if u.domain = domPd then sigInt m (16 * u.index + 6)
  else dieTemp m.hlt.tempIo

/-- The units of a domain: LGATE outputs, UP lanes, photodiode channels and LPWR outputs by beam, analogue inputs. -/
def domainUnits (m : Mach) (d : Nat) : List CalUnit :=
  if d = domLane then ((List.finRange 28).filter (laneUp m)).map (fun l => ⟨d, l.val⟩)
  else tab (if d = domAdc then 16 else 12) (fun i => ⟨d, i⟩)

/-- The registers of a unit (R344, R397, R513, R758). -/
def unitRegs (u : CalUnit) : List Nat :=
  if u.domain = domTaps then tab 8 (fun n => 0x40080 + 0x1000 * u.index + 4 * n)
  else if u.domain = domLane then [0xA000C + 0x400 * u.index]
  else if u.domain = domPd then [0x50040 + 0x1000 * u.index, 0x50044 + 0x1000 * u.index]
  else if u.domain = domDac then [0x100140 + 4 * u.index]
  else [0x100180 + 4 * u.index]

/-- The unit's reference temperature, if it has run. -/
def refOf (m : Mach) (u : CalUnit) : Option Int := (m.hlt.refTemp.find? (fun r => r.1 = u)).map (·.2)

/-- The present temperature becomes the unit's reference (R735, R741). -/
def setRef (u : CalUnit) (m : Mach) : Mach :=
  onHlt (fun h => { h with refTemp := h.refTemp.filter (fun r => r.1 ≠ u) ++ [(u, unitTemp m u)] }) m

/-- A run of the unit is in progress. -/
def calBusy (m : Mach) (u : CalUnit) : Bool := m.hlt.runs.any (fun r => r.unit = u)

/-- A run starts, unless one is in progress (R748). -/
def calStart (u : CalUnit) (m : Mach) : Mach :=
  if calBusy m u then m else onHlt (fun h => { h with runs := h.runs ++ [{ unit := u }] }) m

/-- The unit's temperature has moved by more than CAL_DT since its last run, and since a failed one (R735, R740). -/
def calMoved (m : Mach) (u : CalUnit) : Bool :=
  let dt : Int := (recWord m recHltCal 0).toNat
  let t := unitTemp m u
  let far := fun (r : Int) => decide (dt < (t - r).natAbs)
  (match refOf m u with | some r => far r | none => false) && (m.hlt.failed.filter (fun f => f.1 = u)).all (fun f => far f.2)

/-- Automatic runs of units whose temperature has moved (R735). -/
def calCheck (us : List CalUnit) (m : Mach) : Mach :=
  if !m.g.configuredOnce then m
  else eachM us (fun u m' => whenM (recFld m' recHltCal 1 u.domain u.domain = 1 && calMoved m' u) (calStart u) m') m

/-! ### Assays (R739) -/

/-- The 32 entries of a tap table. -/
def tapEntries (ws : List Word) : List Nat := ws.flatMap (fun w => [fld w 5 0, fld w 13 8, fld w 21 16, fld w 29 24])

/-- TAPS: the delay of an entry is the sum of the elements it passes; steps are counted from entry 0 (DEDUCED, log row 104). -/
def assayTaps (ws : List Word) (elems : List Nat) : Bool :=
  let es := tapEntries ws
  let delay := fun (e : Nat) => ((elems.take e).foldl (· + ·) 0 : Nat)
  let d0 : Int := delay (es.getD 0 0)
  decide (es.length = 32) && (es.zip (es.drop 1)).all (fun (a, b) => decide (a ≤ b)) && decide (es.getD 0 0 ≤ 4) &&
  elems.all (fun x => decide (15000 ≤ x) && decide (x ≤ 40000)) &&
  es.zipIdx.all (fun (e, k) => decide ((2 * ((delay e : Int) - d0) - 78125 * k).natAbs ≤ 20000))

/-- LANE. -/
def assayLane (w : Word) (before after : Nat) : Bool :=
  let small := fun (x : Int) => decide (x.natAbs ≤ 24)
  small (sfld w 5 0) && small (sfld w 13 8) && small (sfld w 21 16) && decide (before ≤ after + 4)

/-- PD; the selected dark offset follows FAST_SRC. -/
def assayPd (m : Mach) (b : Fin 12) (ab br : Word) (noise : Nat) : Bool :=
  let da := fld ab 15 0
  let db := fld ab 31 16
  let sel := match recFld m (recMplFront b.val) 0 5 4 with | 0 => da | 1 => db | _ => (da + db) / 2
  let old := fun off hi lo => fld (regGet m (off + 0x1000 * b.val)) hi lo
  let near := fun (a c : Nat) => decide (a ≤ c + 4096) && decide (c ≤ a + 4096)
  decide (da ≤ 8192) && decide (db ≤ 8192) && decide (fld br 15 0 ≤ 8192) &&
  decide (sel + 4 * noise ≤ fld br 31 16) && decide (fld br 31 16 ≤ 16384) &&
  near da (old 0x50040 15 0) && near db (old 0x50040 31 16) && near (fld br 15 0) (old 0x50044 15 0) && near (fld br 31 16) (old 0x50044 31 16)

/-- DAC; the gain is judged only where it was measured. -/
def assayDac (w : Word) (gain : Bool) : Bool :=
  decide ((sfld w 15 0).natAbs ≤ 328) && (!gain || (decide (98 * 16384 ≤ 100 * fld w 31 16) && decide (100 * fld w 31 16 ≤ 102 * 16384)))

/-- The DAC's gain can be measured: LEN_b is low (R738) (DEDUCED, log row 104). -/
def dacWhole (m : Mach) (i : Nat) : Bool := !bitOf m.ilk.len i

/-- A result's assay. -/
def assay (m : Mach) (u : CalUnit) (r : CalMeas) : Bool :=
  let w := fun i => r.words.getD i 0
  decide (r.words.length = (unitRegs u).length) &&
  (if u.domain = domTaps then assayTaps r.words r.elems
   else if u.domain = domLane then assayLane (w 0) r.before r.after
   else if u.domain = domPd then assayPd m (Fin.ofNat 12 u.index) (w 0) (w 1) r.noise
   else if u.domain = domDac then assayDac (w 0) (dacWhole m u.index)
   else decide ((sfld (w 0) 15 0).natAbs ≤ 32))

/-- The words a passing result leads to; a gain that was not measured stays. -/
def calTarget (m : Mach) (u : CalUnit) (r : CalMeas) : List (Nat × Word) :=
  (unitRegs u).zip (if u.domain = domDac && !dacWhole m u.index then
    r.words.map (fun w => BitVec.ofNat 32 (fld (regGet m (0x100140 + 4 * u.index)) 31 16 * 65536 + fld w 15 0)) else r.words)

/-- Words written to calibration registers. -/
def calWrite (ws : List (Nat × Word)) (m : Mach) : Mach := eachM ws (fun (o, w) => regSet o w) m

/-- A run ends (R739, R740): its result is assayed, then applied in steps (R736), or in one step in CONFIGURE (DEDUCED, log row 104). -/
def calEnd (u : CalUnit) (r : CalMeas) (atOnce : Bool) (m : Mach) : Mach :=
  let pass := assay m u r
  let again := u.domain = domDac && !dacWhole m u.index
  let others := m.hlt.runs.filter (fun x => x.unit ≠ u)
  let m1 := setRef u m
  if pass then
    let m2 := onHlt (fun h => { h with
      failed := h.failed.filter (fun f => f.1 ≠ u),
      runs := if atOnce then others else others ++ [⟨u, again, some (calTarget m u r)⟩] }) m1
    raise .hlt 13 (whenM atOnce (calWrite (calTarget m u r)) m2)
  else
    let m2 := onHlt (fun h => { h with runs := others, failed := h.failed.filter (fun f => f.1 ≠ u) ++ [(u, unitTemp m u)] }) m1
    let w := fun i => (r.words.getD i 0).toNat
    raise .hlt 13 (raise .hlt 14 (logClass 0xD u.index (leBytes 1 u.domain ++ [0, 0, 0] ++ leBytes 4 (w 0) ++ leBytes 4 (w 1)) m2))

/-- CAL_RUN_DONE's effect: a measurement in progress ends. -/
def calRunDone (u : CalUnit) (r : CalMeas) (m : Mach) : Mach :=
  if m.hlt.runs.any (fun x => x.unit = u && x.target.isNone) then calEnd u r false m else m

/-! ### Steps (R736) -/

/-- A field moved towards its target by at most `step`; none where it is there. -/
def fieldStep (step lo n : Nat) (sign : Bool) (now_ goal : Word) : Option Word :=
  let g := fun (w : Word) => if sign then sfld w (lo + n - 1) lo else (fld w (lo + n - 1) lo : Int)
  let d := g goal - g now_
  if d = 0 then none
  else
    let v := g now_ + clampI (-(step : Int)) step d
    let keep := now_ &&& ~~~ BitVec.ofNat 32 ((2 ^ n - 1) * 2 ^ lo)
    some (keep ||| BitVec.ofNat 32 ((BitVec.ofInt n v).toNat * 2 ^ lo))

/-- The fields of a domain's registers: least significant bit, width, signed. -/
def domFields (d : Nat) : List (Nat × Nat × Bool) :=
  if d = domTaps then [(0, 6, false), (8, 6, false), (16, 6, false), (24, 6, false)]
  else if d = domLane then [(24, 6, false), (16, 6, true), (8, 6, true), (0, 6, true)]
  else [(0, 16, false), (16, 16, false)]

/-- The first register and word that one step of a result changes (DEDUCED, log row 104). -/
def nextStep (m : Mach) (d : Nat) : List (Nat × Word) → Option (Nat × Word)
  | [] => none
  | (o, w) :: t =>
    let cur := regGet m o
    if d = domDac || d = domAdc then (if cur = w then nextStep m d t else some (o, w))
    else
      match (domFields d).findSome? (fun (lo, n, s) => fieldStep (if d = domPd then 64 else 1) lo n s cur w) with
      | some v => some (o, v)
      | none => nextStep m d t

/-- One step of a unit's result; a DAC step waits for a DAC instant outside emission. -/
def calStep (u : CalUnit) (m : Mach) : Mach :=
  match m.hlt.runs.find? (fun x => x.unit = u) with
  | none => m
  | some run =>
    match run.target with
    | none => m
    | some ws =>
      if u.domain = domDac && m.beams[(Fin.ofNat 12 u.index : Fin 12)].emitting.isSome then m
      else
        let m1 := match nextStep m u.domain ws with | some (o, w) => regSet o w m | none => m
        if (nextStep m1 u.domain ws).isSome then m1
        else onHlt (fun h => { h with runs := h.runs.filter (fun x => x.unit ≠ u) ++ (if run.again then [{ unit := u }] else []) }) m1

/-! ### The throttle (R742 to R744) -/

/-- Junction temperature in 1/16 °C. -/
def junction (m : Mach) : Int := max m.hlt.tempCore.toInt m.hlt.tempIo.toInt
/-- Hot. -/
def isHot (m : Mach) : Bool := decide ((recFld m recHltTherm 0 7 0 * 16 : Nat) ≤ junction m) || m.hlt.dramHot
/-- Cool. -/
def isCool (m : Mach) : Bool :=
  decide (junction m ≤ ((recFld m recHltTherm 0 7 0 : Int) - recFld m recHltTherm 0 15 8) * 16) && !m.hlt.dramHot

/-- The stage and κ_th change: THROTTLE_STAGE, the log entry with the temperatures, signal 755 (DEDUCED, log row 106). -/
def stageMove (st : Stage) (k : Nat) (m : Mach) : Mach :=
  let m1 := onHlt (fun h => { h with stage := st, kappaM := k, stageAt := nowQ m }) m
  let arg := leBytes 4 st.code ++ leBytes 2 m.hlt.tempIo.toNat ++ leBytes 2 m.hlt.tempCore.toNat ++ leBytes 4 (recFld m recHltTherm 0 7 0)
  sigPub 755 (kappaNow m1) (logClass 0xD 0xFF arg (raise .hlt 16 m1))

/-- A reading begins, goes on or ends an uninterrupted hot or cool time (R743). -/
def heatSpan (m : Mach) : Mach :=
  let span := fun (on : Bool) (o : Option Nat) => if on then some (o.getD (nowQ m)) else none
  onHlt (fun h => { h with hotSince := span (isHot m) h.hotSince, coolSince := span (isCool m) h.coolSince }) m

/-- The device has been hot, or cool, for `s` seconds without interruption since the stage or κ_th last changed (R743)
(DEDUCED, log row 106). -/
def heldFor (m : Mach) (since : Option Nat) (s : Nat) : Bool :=
  since.any (fun t => decide (max t m.hlt.stageAt + s * 1000000000 * 65536 ≤ nowQ m))

/-- Cool without interruption for RECOVER_S, counted in SLOW from the last step and in REDUCE from its entry (DEDUCED, log row 106). -/
def recovered (m : Mach) : Bool := heldFor m m.hlt.coolSince (recWord m recHltTherm 4).toNat

/-- What a temperature changes at once (R743). -/
def throttleNow (m0 : Mach) : Mach :=
  let m := heatSpan m0
  match m.hlt.stage with
  | .normal => if isHot m then raise .hlt 15 (stageMove .ask m.hlt.kappaM m) else m
  | .ask => if isCool m then stageMove .normal m.hlt.kappaM m else m
  | _ => m

/-- A grace, step or recovery time elapses (R743). -/
def throttleTimer (m : Mach) : Mach :=
  let k := m.hlt.kappaM
  let hot := fun i => heldFor m m.hlt.hotSince (recWord m recHltTherm i).toNat
  match m.hlt.stage with
  | .normal => m
  | .ask => if hot 1 then stageMove .reduce k m else m
  | .reduce => if hot 2 then stageMove .slow (k + 1) m else if recovered m then stageMove .normal k m else m
  | .slow =>
    if hot 3 then (if k < 10 then stageMove .slow (k + 1) m else m)
    else if recovered m then (if k ≤ 1 then stageMove .reduce 0 m else stageMove .slow (k - 1) m)
    else m

end Sys2Proof.Machine
end

