-- ==== Sys2Proof/Machine/LaneOps.lean ====
section
/-!
DEFINITION. Lane states, training, keying, seals and routes (R486 to R498), the frames sent on their own (R480, R483, R503), head
status (R504), tests and injection (R499 to R501, R512 to R514).
-/

namespace Sys2Proof.Machine

/-! ### Changes of state (R487, R490, R491) -/

/-- Words of LANE_POLICY (R510). -/
def laneSoakMs (m : Mach) (l : Fin 28) : Nat := (recWord m recLane (if m.lanes[l].wasUp then 0 else 1)).toNat
/-- TRAIN_TRIES. -/
def trainTries (m : Mach) : Nat := recFld m recLane 7 3 0

/-- A time has passed since the lane entered its present state, in ns. -/
def laneStays (m : Mach) (l : Fin 28) (ns : Nat) : Bool := decide (m.lanes[l].since + ns ≤ now m)

/-- The longest stay in a training state, ns (R491, R493). -/
def trainTime (m : Mach) (l : Fin 28) : Nat :=
  match m.lanes[l].st with
  | .equalise => 2000000
  | .soak => laneSoakMs m l * 1000000
  | _ => 1000000

/-- SWITCH ROUTE on every UP lane of the head (R486) (DEDUCED, log row 91). -/
def routeSend (h : Fin 16) (route : Bool) (back : Option (Fin 28)) (m : Mach) : Mach :=
  sendBlock h 0x55 [1, BitVec.ofNat 8 (b2n route)] (onHead h (fun x => { x with switch := some ⟨route, none, back⟩ }) m)

/-- A state entered. -/
def laneSet (l : Fin 28) (st : LaneState) (m : Mach) : Mach :=
  onLane l (fun x => { x with st := st, since := now m, crcTimes := [], trained := 0, wrongPort := false, voids := 0, soakHead := none, soakDev := none }) m

/-- What a lane's leaving UP brings beside its own state (R487, R504) (DEDUCED, log row 91). -/
def leftUp (l : Fin 28) (st : LaneState) (m : Mach) : Mach :=
  let h := laneHead l
  let m1 := raise (.lane l) 1 (onLane l (fun x => { x with scanning := false }) m)
  if 12 ≤ h.val || st = .hostile then m1
  else if headUp m1 h then
    let live := (headLanes h).find? (laneUp m1)
    let m2 := repair 0x7001 l.val [BitVec.ofNat 8 st.code] m1
    match live with | some o => routeSend h (isPrimary m2 o) none m2 | none => m2
  else onHead h (fun x => { x with switch := none }) m1

/-- Every lane of a head is out of UP: its alignment state is lost (R631, R638) (DEDUCED, log row 100). -/
def alignLost (h : Fin 16) (m : Mach) : Mach :=
  let was := bitOf m.time.aligned h.val
  let m1 := onTime (fun t => { t with
    aligned := setBit t.aligned h.val false, good := put (fun _ => 0) t.good h.val 0, bad := put (fun _ => 0) t.bad h.val 0 }) m
  whenM was (raise .time 5) m1

/-- Every lane of a head is out of UP: a scan head's beam is retired (R504). -/
def lanesGone (h : Fin 16) (m : Mach) : Mach :=
  if headUp m h then m
  else
    let m1 := alignLost h m
    if h.val < 12 then retire (Fin.ofNat 12 h.val) retLanes m1 else m1

/-- A lane enters a state, leaving UP where it was UP. -/
def laneTo (l : Fin 28) (st : LaneState) (m : Mach) : Mach :=
  let was := laneUp m l
  let m1 := laneSet l st m
  if was then lanesGone (laneHead l) (leftUp l st m1) else m1

/-- DETECT. -/
def laneDetect (l : Fin 28) (m : Mach) : Mach := onLane l (fun x => { x with noPartner := false, locked := false }) (laneTo l .detect m)

/-- An attempt begins in EQUALISE, with the equaliser values written (R491, R513). -/
def laneAttempt (l : Fin 28) (n : Nat) (m : Mach) : Mach :=
  onLane l (fun x => { x with attempt := BitVec.ofNat 4 n, locked := false, eq := regGet m (0xA000C + 0x400 * l.val) }) (laneTo l .equalise m)

/-- FAILED with a cause (R491, R775, R817); `more` is logged beside it. -/
def laneFail (l : Fin 28) (cause : Nat) (more : List Byte) (m : Mach) : Mach :=
  let m1 := onLane l (fun x => { x with failCause := BitVec.ofNat 4 cause, locked := false }) (laneTo l .failed m)
  log 0x7003 sevNotice l.val ([BitVec.ofNat 8 cause, 0, 0, 0] ++ more) (raise (.lane l) 2 m1)

/-- FAIL_CAUSE of a training state that does not end (R511). -/
def failOf : LaneState → Nat
  | .equalise => 2
  | .align => 3
  | .ident => 4
  | .keying => 6
  | .soak => 7
  | _ => 0

/-- A training state. -/
def LaneState.trains (s : LaneState) : Bool := s = .equalise || s = .align || s = .ident || s = .keying || s = .soak

/-- A training state ends without its result: another attempt, DETECT without a signal, or FAILED (R491). -/
def trainFails (l : Fin 28) (m : Mach) : Mach :=
  let x := m.lanes[l]
  if !x.st.trains then m
  else if x.attempt.toNat < trainTries m then
    if x.signal then laneAttempt l (x.attempt.toNat + 1) m else laneDetect l m
  else laneFail l (if x.signal then failOf x.st else 1) [] m

/-- An UP lane retrains (R491). -/
def laneRetrains (l : Fin 28) (m : Mach) : Mach :=
  if laneUp m l then laneAttempt l 1 (onLane l (fun x => { x with retrains := x.retrains + 1 }) m) else m

/-- The camera route a head should have: the secondary lane with both up, otherwise the lane that is up (R486). -/
def routeWanted (m : Mach) (h : Fin 16) : Bool :=
  match (headLanes h).filter (laneUp m) with
  | [l] => isPrimary m l
  | _ => false

/-- A lane enters UP: CONFIG (R480), the camera's return under R487, the contexts that wait for it (R437), the eye scan of R733
(DEDUCED, log row 91) (DEDUCED, log row 95) (DEDUCED, log row 96). -/
def laneEnterUp (l : Fin 28) (m : Mach) : Mach :=
  let h := laneHead l
  let again := m.lanes[l].wasUp
  let m0 := if headUp m h then m else onHead h (fun x => { x with statusAt := now m }) m
  let m1 := raise (.lane l) 0 (onLane l (fun x => { x with failCause := 0, wasUp := true, scanning := decide (l.val ∈ m.hlt.planScan) }) (laneSet l .up m0))
  if 12 ≤ h.val then (if again then repair 0x7002 l.val [] m1 else m1)
  else
    let b : Fin 12 := Fin.ofNat 12 h.val
    let m3 := configSend b m1
    let m4 :=
      if singleLane m3 h then (if again then repair 0x7002 l.val [] else id) (onHead h (fun x => { x with route := true }) m3)
      else if again then routeSend h (routeWanted m3 h) (some l) m3
      else if routeWanted m3 h ≠ m3.heads[h].route then routeSend h (routeWanted m3 h) none m3
      else m3
    whenM (retByHead m4.imp.beams[b].cause.toNat) (ctxRestartBeam b) m4

/-! ### Training -/

/-- A signal appears in DETECT (R491). -/
def signalSeen (l : Fin 28) (m : Mach) : Mach :=
  let m1 := onLane l (fun x => { x with signal := true }) m
  if m.lanes[l].st = .detect then laneAttempt l 1 m1 else m1

/-- 10 ms in DETECT without a signal (R491). -/
def detectTimeout (l : Fin 28) (m : Mach) : Mach :=
  let x := m.lanes[l]
  if x.st = .detect && !x.signal && !x.noPartner && laneStays m l 10000000 then raise (.lane l) 4 (onLane l (fun x => { x with noPartner := true }) m) else m

/-- Clock recovered and adaptation settled. -/
def equalised (l : Fin 28) (m : Mach) : Mach := if m.lanes[l].st = .equalise then laneTo l .align m else m

/-- Locked (R475). -/
def alignLocked (l : Fin 28) (m : Mach) : Mach :=
  if m.lanes[l].st = .align then onLane l (fun x => { x with locked := true }) (laneTo l .ident m) else m

/-- HEAD_ID of a lane's section (R509). -/
def headId (m : Mach) (l : Fin 28) : Nat := rdLe (headSec m (laneHead l)) 0 8

/-- The port a lane expects (R477, R492). -/
def portOf (m : Mach) (l : Fin 28) : Nat := if l.val < 24 then (if isPrimary m l then 0 else 1) else 0

/-- KEYING begins: the device's nonce is drawn and sent (R494). -/
def keyBegin (l : Fin 28) (m : Mach) : Mach :=
  let (r, m1) := drawRandom m
  let nd : BitVec 96 := r.setWidth 96
  let m2 := onLane l (fun x => { x with key := { nd := nd, nh := 0, step := 1, ks := 0 } }) (laneTo l .keying m1)
  emit (.block l.val 0x4B ([1, 0, 0] ++ leBytes 12 nd.toNat)) m2

/-- Both lanes of the head have read each other's port: the pair is swapped (R492). -/
def swapPair (l : Fin 28) (m : Mach) : Mach :=
  match partner l with
  | some o =>
    if m.lanes[l].wrongPort && m.lanes[o].wrongPort && m.lanes[o].st = .ident then
      eachM [l, o] (fun x => onLane x (fun y => { y with swapped := !y.swapped, wrongPort := false, trained := 0 })) m
    else m
  | none => m

/-- A TRAIN block: FLAGS, PORT, RATE, identity; `inverted` says that it came with a data header and byte 0 equal to 0xD2 (R491,
R492). -/
def trainBlock (l : Fin 28) (seen : Bool) (port rate : Nat) (ident : BitVec 64) (inverted : Bool) (m : Mach) : Mach :=
  let x := m.lanes[l]
  if inverted then (if x.st = .align then onLane l (fun x => { x with rxInvert := !x.rxInvert }) m else m)
  else if x.st ≠ .ident then m
  else if ident.toNat ≠ headId m l then
    laneFail l 5 (leBytes 4 ident.toNat ++ leBytes 4 (headId m l)) m
  else if port ≠ portOf m l then
    swapPair l (onLane l (fun x => { x with trained := 0, wrongPort := decide (port = 1 - portOf m l) && decide (l.val < 24) }) m)
  else if !seen || rate ≠ laneRate m l then onLane l (fun x => { x with trained := 0, wrongPort := false }) m
  else if x.trained + 1 < 16 then onLane l (fun x => { x with trained := x.trained + 1, wrongPort := false }) m
  else keyBegin l m

/-! ### Hostile heads (R498) -/

/-- A lane enters HOSTILE with a cause (DEDUCED, log row 94). -/
def laneHostile (cause : Nat) (l : Fin 28) (m : Mach) : Mach :=
  if m.lanes[l].st = .hostile then m
  else
    let was := laneUp m l
    let m1 := onLane l (fun x => { x with failCause := BitVec.ofNat 4 cause, locked := false, inject := .none }) (laneSet l .hostile m)
    raise (.lane l) 3 (whenM was (leftUp l .hostile) m1)

/-- The signals of a head marked not valid. -/
def headSilence (h : Fin 16) (m : Mach) : Mach := eachM (List.range 16) (fun k => sigInvalidate (16 * h.val + k)) m

/-- A FAIL verdict (R498): both lanes of the head HOSTILE, the beam latched off, its signals not valid, the beam retired
(DEDUCED, log row 94). -/
def sealFail (l : Fin 28) (sfn : BitVec 48) (m : Mach) : Mach :=
  let h := laneHead l
  let m1 := eachM (headLanes h) (laneHostile 8) m
  let m2 := log 0x7004 sevFault l.val (leBytes 4 sfn.toNat) m1
  let m3 := headSilence h (onHead h (fun x => { x with released := false, switch := none }) m2)
  if 12 ≤ h.val then m3
  else
    let b : Fin 12 := Fin.ofNat 12 h.val
    let m4 := ilkDrive (onIlk (fun i => { i with hold := setBit i.hold b.val true }) m3)
    let m5 := eachM (List.range 16) (fun k => sigInvalidate (448 + 16 * b.val + k)) m4
    retire b retHostile (gateForced b m5)

/-! ### Keying and seals (R494 to R496) -/

/-- The pairing key of a lane's section. -/
def pairKey (m : Mach) (l : Fin 28) : BitVec 128 := BitVec.ofNat 128 (beNat (((headSec m (laneHead l)).drop 16).take 16))

/-- M of R494: HEAD_ID ‖ PORT ‖ N_D ‖ N_H. -/
def keyMsg (m : Mach) (l : Fin 28) : List Byte :=
  let k := m.lanes[l].key
  leBytes 8 (headId m l) ++ leBytes 1 (portOf m l) ++ leBytes 12 k.nd.toNat ++ leBytes 12 k.nh.toNat

/-- CMAC under the pairing key of a label and M (DEDUCED, log row 5). -/
def keyMac (m : Mach) (l : Fin 28) (a b : Byte) : BitVec 128 := Config.aesCmac (pairKey m l) ([a, b] ++ keyMsg m l)

/-- First 8 bytes of a CMAC. -/
def mac8 (c : BitVec 128) : BitVec 64 := BitVec.ofNat 64 (fld c 127 64)

/-- The TAG of a superframe: the first 8 bytes of CMAC(K_S, DIR ‖ SFN ‖ B0 ‖ … ‖ B1022) (R495) (DEDUCED, log row 5). -/
def sealTag (ks : BitVec 128) (dir : Byte) (sfn : BitVec 48) (blocks : List Byte) : BitVec 64 :=
  mac8 (Config.aesCmac ks ([dir] ++ leBytes 6 sfn.toNat ++ blocks))

/-- A KEY block: STEP and the 12 bytes of DATA (R494) (DEDUCED, log row 94). -/
def keyBlock (l : Fin 28) (step : Nat) (data : List Byte) (m : Mach) : Mach :=
  let x := m.lanes[l]
  if x.st ≠ .keying || data.length ≠ 12 then m
  else if step = 2 && x.key.step = 1 then onLane l (fun x => { x with key := { x.key with nh := BitVec.ofNat 96 (leNat data), step := 2 } }) m
  else if step = 3 && x.key.step = 2 then
    if mac8 (keyMac m l 0x48 0x50) = BitVec.ofNat 64 (beNat (data.take 8)) && (data.drop 8).all (· = 0) then
      let proof := mac8 (keyMac m l 0x44 0x50)
      let ks := keyMac m l 0x53 0x4B
      let m1 := onLane l (fun x => { x with key := { x.key with step := 4, ks := ks }, sfn := 0, prbsErr := 0 }) (laneTo l .soak m)
      emit (.block l.val 0x4B ([4, 0, 0] ++ (leBytes 8 proof.toNat).reverse ++ [0, 0, 0, 0])) m1
    else
      log 0x7004 sevFault l.val (leBytes 4 0) (laneHostile 9 l m)
  else m

/-- Errors added to a saturating 32-bit counter. -/
def satAdd (w : Word) (n : Nat) : Word := BitVec.ofNat 32 (min 4294967295 (w.toNat + n))

/-- SOAK is judged once the time has elapsed and the head has reported (R491, R493). -/
def soakJudge (l : Fin 28) (m : Mach) : Mach :=
  match m.lanes[l].st, m.lanes[l].soakDev, m.lanes[l].soakHead with
  | .soak, some 0, some 0 => laneEnterUp l m
  | .soak, some _, some _ => trainFails l m
  | _, _, _ => m

/-- The SOAK time has elapsed with `errors` mismatched bits at the device. -/
def soakEnd (l : Fin 28) (errors : Nat) (m : Mach) : Mach :=
  if m.lanes[l].st = .soak && laneStays m l (trainTime m l) then
    soakJudge l (onLane l (fun x => { x with soakDev := some errors, prbsErr := satAdd x.prbsErr errors }) m)
  else m

/-- SWITCH SOAK_RESULT. -/
def soakResult (l : Fin 28) (errors : Word) (m : Mach) : Mach :=
  if m.lanes[l].st = .soak then soakJudge l (onLane l (fun x => { x with soakHead := some errors.toNat }) m) else m

/-- A superframe is judged (R496). -/
def sealBlock (l : Fin 28) (s : SealIn) (m : Mach) : Mach :=
  let x := m.lanes[l]
  if x.st ≠ .up && x.st ≠ .soak then m
  else
    let m1 := onLane l (fun x => { x with
      hdrInvalid := x.hdrInvalid + BitVec.ofNat 32 s.badHeaders, runErr := x.runErr + BitVec.ofNat 32 s.runErrors,
      protocol := x.protocol + BitVec.ofNat 32 s.undefined, sfn := x.sfn + 1 }) m
    if s.badHeaders ≠ 0 || s.runErrors ≠ 0 || s.badFrame || !s.sealed then
      raise (.lane l) 7 (onLane l (fun x => { x with sealVoid := x.sealVoid + 1, voids := x.voids + 1 }) m1)
    else
      let tag := sealTag x.key.ks 1 x.sfn s.blocks
      if s.dir = 1 && s.sfn = x.sfn && s.tag = tag then onLane l (fun x => { x with voids := 0 }) m1 else sealFail l x.sfn m1

/-! ### Losses -/

/-- The signal at the receiver is lost (R491). -/
def signalLoss (l : Fin 28) (m : Mach) : Mach :=
  let m1 := onLane l (fun x => { x with signal := false, lockLoss := if x.locked then x.lockLoss + 1 else x.lockLoss }) m
  if laneUp m l then laneRetrains l m1 else trainFails l m1

/-- Lock is lost (R475). -/
def lockLost (l : Fin 28) (m : Mach) : Mach :=
  if !m.lanes[l].locked then m
  else
    let m1 := onLane l (fun x => { x with locked := false, lockLoss := x.lockLoss + 1 }) m
    if laneUp m l then laneRetrains l m1 else trainFails l m1

/-- A training state has lasted its time (R491). -/
def trainTimeout (l : Fin 28) (m : Mach) : Mach := if laneStays m l (trainTime m l) then trainFails l m else m

/-- More than CRC_LIMIT CRC errors lie within one second (R491). -/
def crcLimit (l : Fin 28) (m : Mach) : Mach :=
  match (m.lanes[l].crcTimes[(recWord m recLane 4).toNat]?) with
  | some t => if now m ≤ t + 1000000000 then laneRetrains l m else m
  | none => m

/-- Four consecutive VOID superframes (R491). -/
def voidLimit (l : Fin 28) (m : Mach) : Mach := if 4 ≤ m.lanes[l].voids then laneRetrains l m else m

/-- RETRY_S has elapsed for a FAILED lane with AUTO_RETRY (R491). -/
def retryElapsed (l : Fin 28) (m : Mach) : Mach :=
  if m.lanes[l].st = .failed && recFld m recLane 3 0 0 = 1 && laneStays m l ((recWord m recLane 2).toNat * 1000000000) then laneDetect l m else m

/-! ### Routes (R486) -/

/-- SWITCH ROUTED with F_sw (DEDUCED, log row 91). -/
def routed (l : Fin 28) (fsw : BitVec 16) (m : Mach) : Mach :=
  let h := laneHead l
  let x := m.heads[h]
  match x.switch with
  | some s =>
    if !laneUp m l || s.fsw.isSome then m
    else
      let m1 := onHead h (fun x => { x with route := s.route, switch := some { s with fsw := some fsw, back := none } }) m
      let m2 := whenM (x.route ≠ s.route) (raise (.lane (match (headLanes h).find? (fun o => isPrimary m o = s.route) with | some o => o | none => l)) 9) m1
      match s.back with | some o => repair 0x7002 o.val (leBytes 4 fsw.toNat) m2 | none => m2
  | none => m

/-! ### Status (R504) -/

/-- A head fault of a scan head retires its beam, with its entry (R504, R816). -/
def headFault (h : Fin 16) (code reason : Nat) (m : Mach) : Mach :=
  let m1 := log 0x7005 sevNotice h.val (leBytes 2 code ++ leBytes 1 reason) m
  if h.val < 12 then retire (Fin.ofNat 12 h.val) retHead m1 else m1

/-- Whether a status of head h is reported now: its beam is live, or an auxiliary head's FAULT is new. -/
def faultNew (m : Mach) (h : Fin 16) : Bool :=
  if hb : h.val < 12 then beamLive m ⟨h.val, hb⟩ else !bitOf m.heads[h].bits 2

/-- A fresh head temperature clears DRIFT_STALE (R309, R341). -/
def driftFresh (h : Fin 16) (m : Mach) : Mach :=
  if h.val < 12 && (headTemp m (Fin.ofNat 12 h.val)).isSome then onBeam (Fin.ofNat 12 h.val) (fun x => { x with driftStale := false }) m else m

/-- A STATUS frame (R309, R481, R482, R504, R505). -/
def statusArrive (l : Fin 28) (f : FrameIn) (m : Mach) : Mach :=
  let h := laneHead l
  let bits := rdLe f.bytes 4 2
  let code := rdLe f.bytes 6 2
  let t := longStamp m f.stamp
  let w := fun (n : Nat) (v : Int) => sigWriteAt n v t
  let base := 16 * h.val
  let temp := rdLeS f.bytes 0 4
  let supply := rdLe f.bytes 8 4
  let m1 :=
    if h.val < 12 then
      sigBlock (base + 10) t (f.bytes.drop 12) 3
        (w (base + 9) (signed 32 supply) (w (base + 8) code (w (base + 7) bits (w (base + 6) temp m))))
    else w (base + 11) (signed 32 supply) (w (base + 10) code (w (base + 9) bits (w (base + 8) temp m)))
  let fresh := faultNew m h
  let m2 := onHead h (fun x => { x with bits := BitVec.ofNat 16 bits, faultCode := BitVec.ofNat 16 code, silent := false, statusAt := now m }) (driftFresh h m1)
  let m3 := if bits.testBit 2 then whenM fresh (headFault h code 1) m2
    else if bits.testBit 1 && m2.heads[h].released && h.val < 12 then whenM fresh (headFault h code 2) m2 else m2
  calCheck [⟨domPd, h.val⟩] m3

/-- No STATUS for STATUS_TIMEOUT_US on a head with a lane UP. -/
def statusTimeout (h : Fin 16) (m : Mach) : Mach :=
  if headUp m h && !m.heads[h].silent && decide (m.heads[h].statusAt + (recWord m recLane 5).toNat * 1000 ≤ now m) then headFault h 0 3 (onHead h (fun x => { x with silent := true }) m) else m

/-- A run of drops longer than FLOOD_MS. -/
def floodTimeout (h : Fin 16) (m : Mach) : Mach :=
  let limit := (recWord m recLane 6).toNat * 1000000
  if m.heads[h].buckets.any (fun (_, b) => match b.dropping with | some t => decide (t + limit < now m) | none => false) then
    whenM (faultNew m h) (headFault h 0 4) m
  else m

/-! ### Sending (R480, R483, R503) -/

/-- RELEASE to a head whose lane is UP, whose beam is live and whose contexts are engaged (R503, R508). -/
def releaseCheck (b : Fin 12) (m : Mach) : Mach :=
  let h := beamHead b
  if inWork m && headUp m h && !m.heads[h].released && beamLive m b && ctxEngaged m b then releaseSend h m else m

/-! ### LANEl_CMD and LANEl_INJECT (R501, R508, R512, R514) -/

/-- The beam of a lane's head is live while the job is EXPOSING. -/
def liveExposing (m : Mach) (l : Fin 28) : Bool :=
  if h : (laneHead l).val < 12 then beamLive m ⟨(laneHead l).val, h⟩ && m.job.st = .exposing else false

/-- A refused lane command. -/
def laneRefuse (l : Fin 28) (m : Mach) : Mach := refuse (.lane l) 10 m

/-- A LANEl_CMD write; `errors` is what the checker of a raw test has counted (DEDUCED, log row 95). -/
def laneCmd (l : Fin 28) (errors : Nat) (w : Word) (m : Mach) : Mach :=
  let st := m.lanes[l].st
  if fld w 31 24 ≠ 0x2B || fld w 23 4 ≠ 0 then laneRefuse l m
  else
    match fld w 3 0 with
    | 1 =>
      if st = .up then
        if liveExposing m l && ((headLanes (laneHead l)).filter (laneUp m)).length = 1 then laneRefuse l m else laneRetrains l m
      else if st = .failed then laneDetect l m
      else laneRefuse l m
    | 2 => if m.lanes[l].locked then onLane l (fun x => { x with scanning := true }) m else laneRefuse l m
    | 3 => if st = .hostile || st = .up then laneRefuse l m else onLane l (fun x => { x with locked := false }) (laneTo l .test m)
    | 4 => if st = .test then laneDetect l (onLane l (fun x => { x with prbsErr := satAdd x.prbsErr errors }) m) else laneRefuse l m
    | _ => laneRefuse l m

/-- A LANEl_INJECT write. -/
def laneInject (l : Fin 28) (w : Word) (m : Mach) : Mach :=
  let op := fld w 3 0
  if fld w 31 24 ≠ 0x3C || fld w 23 12 ≠ 0 || fld w 7 4 ≠ 0 || op = 0 || 6 < op then laneRefuse l m
  else if liveExposing m l || m.lanes[l].st = .soak || (op = 6 && m.g.dev = .building) then laneRefuse l m
  else if op = 2 then onLane l (fun x => { x with inject := .rate (fld w 11 8) }) (emit (.corrupt l.val 2 (fld w 11 8)) m)
  else if op = 3 then onLane l (fun x => { x with inject := .none }) m
  else emit (.corrupt l.val op 0) m

/-- LANEl_CMD and LANEl_INJECT offsets. -/
def offLaneCmd (l : Fin 28) : Nat := 0xA0004 + 0x400 * l.val
def offLaneInject (l : Fin 28) : Nat := 0xA0018 + 0x400 * l.val

/-! ### The commands -/

/-- LANE_SIGNAL_DETECT. -/
def execLaneSignalDetect (l : Fin 28) (s : State) : Out := s.act (signalSeen l)
/-- LANE_DETECT_TIMEOUT. -/
def execLaneDetectTimeout (l : Fin 28) (s : State) : Out := s.act (detectTimeout l)
/-- LANE_EQUALISE_DONE. -/
def execLaneEqualiseDone (l : Fin 28) (s : State) : Out := s.act (equalised l)
/-- LANE_ALIGN_LOCK. -/
def execLaneAlignLock (l : Fin 28) (s : State) : Out := s.act (alignLocked l)
/-- TRAIN_BLOCK. -/
def execTrainBlock (l : Fin 28) (seen : Bool) (port rate : Nat) (ident : BitVec 64) (inverted : Bool) (s : State) : Out :=
  s.act (trainBlock l seen port rate ident inverted)
/-- KEY_BLOCK. -/
def execKeyBlock (l : Fin 28) (step : Nat) (data : List Byte) (s : State) : Out := s.act (keyBlock l step data)
/-- LANE_SOAK_END. -/
def execLaneSoakEnd (l : Fin 28) (errors : Nat) (s : State) : Out := s.act (soakEnd l errors)
/-- LANE_TRAIN_TIMEOUT. -/
def execLaneTrainTimeout (l : Fin 28) (s : State) : Out := s.act (trainTimeout l)
/-- LANE_SIGNAL_LOSS. -/
def execLaneSignalLoss (l : Fin 28) (s : State) : Out := s.act (signalLoss l)
/-- LANE_LOCK_LOST. -/
def execLaneLockLost (l : Fin 28) (s : State) : Out := s.act (lockLost l)
/-- LANE_CRC_LIMIT: CRC_ERR has passed CRC_LIMIT within a second. -/
def execLaneCrcLimit (l : Fin 28) (s : State) : Out := s.act (crcLimit l)
/-- LANE_VOID_LIMIT. -/
def execLaneVoidLimit (l : Fin 28) (s : State) : Out := s.act (voidLimit l)
/-- LANE_RETRY_ELAPSED. -/
def execLaneRetryElapsed (l : Fin 28) (s : State) : Out := s.act (retryElapsed l)
/-- SEAL_BLOCK. -/
def execSealBlock (l : Fin 28) (f : SealIn) (s : State) : Out := s.act (sealBlock l f)
/-- SWITCH_ROUTED. -/
def execSwitchRouted (l : Fin 28) (fsw : BitVec 16) (s : State) : Out := s.act (routed l fsw)
/-- SWITCH_SOAK_RESULT. -/
def execSwitchSoakResult (l : Fin 28) (errors : Word) (s : State) : Out := s.act (soakResult l errors)
/-- STATUS_FRAME. -/
def execStatusFrame (l : Fin 28) (f : FrameIn) (s : State) : Out := s.act (rxFrame l 3 f (statusArrive l f))
/-- CMD_KEEPALIVE of a scan head. -/
def execCmdKeepalive (b : Fin 12) (s : State) : Out := s.act (cmdSend (beamHead b))
/-- AUX_CMD_KEEPALIVE of an auxiliary head. -/
def execAuxCmdKeepalive (a : Fin 4) (s : State) : Out := s.act (cmdSend ⟨12 + a.val, by omega⟩)
/-- RELEASE_SEND. -/
def execReleaseSend (b : Fin 12) (s : State) : Out := s.act (releaseCheck b)
/-- STATUS_TIMEOUT. -/
def execStatusTimeout (h : Fin 16) (s : State) : Out := s.act (statusTimeout h)
/-- FLOOD_TIMEOUT. -/
def execFloodTimeout (h : Fin 16) (s : State) : Out := s.act (floodTimeout h)
/-- LANE_RETRAIN: LANEl_CMD with OP 0x1. -/
def execLaneRetrain (p : Port) (l : Fin 28) (hi : BitVec 28) (s : State) : Out := s.act (writeGate p (offLaneCmd l) (laneCmd l 0 (opWord hi 1)))
/-- EYE_SCAN: OP 0x2. -/
def execEyeScan (p : Port) (l : Fin 28) (hi : BitVec 28) (s : State) : Out := s.act (writeGate p (offLaneCmd l) (laneCmd l 0 (opWord hi 2)))
/-- TEST_ENTER: OP 0x3. -/
def execTestEnter (p : Port) (l : Fin 28) (hi : BitVec 28) (s : State) : Out := s.act (writeGate p (offLaneCmd l) (laneCmd l 0 (opWord hi 3)))
/-- TEST_EXIT: OP 0x4, with what the checker counted in the test. -/
def execTestExit (p : Port) (l : Fin 28) (hi : BitVec 28) (errors : Nat) (s : State) : Out :=
  s.act (writeGate p (offLaneCmd l) (laneCmd l errors (opWord hi 4)))
/-- INJECT_BIT_ERROR: LANEl_INJECT with OP 0x1. -/
def execInjectBitError (p : Port) (l : Fin 28) (hi : BitVec 28) (s : State) : Out := s.act (writeGate p (offLaneInject l) (laneInject l (opWord hi 1)))
/-- INJECT_ERROR_RATE: OP 0x2. -/
def execInjectErrorRate (p : Port) (l : Fin 28) (hi : BitVec 28) (s : State) : Out := s.act (writeGate p (offLaneInject l) (laneInject l (opWord hi 2)))
/-- INJECT_STOP: OP 0x3. -/
def execInjectStop (p : Port) (l : Fin 28) (hi : BitVec 28) (s : State) : Out := s.act (writeGate p (offLaneInject l) (laneInject l (opWord hi 3)))
/-- INJECT_INVALID_HEADER: OP 0x4. -/
def execInjectInvalidHeader (p : Port) (l : Fin 28) (hi : BitVec 28) (s : State) : Out := s.act (writeGate p (offLaneInject l) (laneInject l (opWord hi 4)))
/-- INJECT_CRC_ERROR: OP 0x5. -/
def execInjectCrcError (p : Port) (l : Fin 28) (hi : BitVec 28) (s : State) : Out := s.act (writeGate p (offLaneInject l) (laneInject l (opWord hi 5)))
/-- INJECT_SEAL_ERROR: OP 0x6. -/
def execInjectSealError (p : Port) (l : Fin 28) (hi : BitVec 28) (s : State) : Out := s.act (writeGate p (offLaneInject l) (laneInject l (opWord hi 6)))

end Sys2Proof.Machine
end

