-- ==== Sys2Proof/Machine/HealthOps.lean ====
section
/-!
DEFINITION. Health: temperatures and throttle, core voltage, the margin plan, laser sources, mirror resonances, lane and DRAM
retraining requests, HLT_CMD (R654, R717 to R748, R757).
-/

namespace Sys2Proof.Machine

/-- A request of the margin plan also raises REPAIR (R725). -/
def planRequest (q unit : Nat) (value limit : Int) (m : Mach) : Mach := raise .glb 10 (healthLog q unit value limit m)

/-- The ARG of a class 0xD repair: quantity, and two further words (R769, R778). -/
def healthArg (q a b : Nat) : List Byte := leBytes 4 q ++ leBytes 4 a ++ leBytes 4 b

/-! ### Temperature (R717, R724, R735, R742, R743) -/

/-- A channel's temperature change since its last training, m°C, and the device time of that training (DEDUCED, log row 105). -/
def driftOf (m : Mach) (c : Fin 2) : Nat × Nat :=
  let (t, at_) := if c = 0 then (m.hlt.trainTemp0, m.hlt.trainAt0) else (m.hlt.trainTemp1, m.hlt.trainAt1)
  ((divR ((m.hlt.tempCore.toInt - t) * 1000) 16).natAbs, at_)

/-- DRAM drift: the retraining request of R664 (DEDUCED, log row 105). -/
def driftCheck (c : Fin 2) (m : Mach) : Mach :=
  let x := m.mem.ch c.val
  let (d, at_) := driftOf m c
  let dt := (recWord m recHltCal 0).toNat
  let old := decide (at_ + (recWord m recHltPlan 4).toNat * 3600000000000 ≤ now m)
  if m.g.configuredOnce && x.st = .ready && !x.retrainPend && (decide (dt < d) || old) then
    planRequest 4 c.val d dt (onCh c (fun x => { x with retrainPend := true }) m)
  else m

/-- Units with a die as their trigger. -/
def dieUnits (m : Mach) : List CalUnit := domainUnits m domTaps ++ domainUnits m domLane ++ domainUnits m domDac ++ domainUnits m domAdc

/-- A reading of the die temperatures and of VDD_CORE. -/
def tempRead (core io mv : BitVec 16) (m : Mach) : Mach :=
  if !logAlive m then m
  else
    let m1 := onHlt (fun h => { h with tempCore := core, tempIo := io, vcoreMv := mv }) (takeRecord recHltTherm m)
    let m2 := throttleNow m1
    driftCheck 1 (driftCheck 0 (calCheck (dieUnits m2) m2))

/-- Mode register 4 of both dies (R654): temperature code, refresh multiplier, high limit. -/
def mr4Poll (t0 t1 : Byte) (r0 r1 : BitVec 4) (h0 h1 : Bool) (m : Mach) : Mach :=
  if !m.mem.trained then m
  else
    let m1 := onCh 0 (fun x => { x with temp := t0, refMult := r0 }) (onCh 1 (fun x => { x with temp := t1, refMult := r1 }) m)
    let m2 := whenM (h0 || h1) (raise .mem 5) (onHlt (fun h => { h with dramHot := h0 || h1 }) m1)
    whenM (logAlive m2) throttleNow m2

/-- A throttle time elapses. -/
def throttleElapsed (m : Mach) : Mach := whenM (logAlive m) throttleTimer m

/-- The device latches shut down (R747): the internal inhibit, the cause in AON retention, steps 2 to 9 of R28, domains off. -/
def thermalShutdown (m : Mach) : Mach :=
  if !powered m || m.g.dev = .shutdownLatched then m
  else
    let m1 := ilkDrive (onIlk (fun i => { i with inhThermal := true }) m)
    let m2 := safeRest { m1 with aon := { m1.aon with shutdown := 1 } }
    let m3 := pinsFollow (devSignals (onHlt (fun h => { h with runs := [] }) { m2 with g := { m2.g with heldBefore := m2.g.dev, dev := .shutdownLatched } }))
    { m3 with clk := { m3.clk with domains := 0b000000000011#12, fallback := if m3.clk.fallback = .none then .none else .dead }, g := { m3.g with linkUp := false, pci := {} } }

/-! ### Core voltage (R721 to R723) and ageing -/

/-- The canary warnings of a domain reach CANARY_LIMIT in a second. -/
def canary (m : Mach) : Mach :=
  let h := m.hlt
  let top := recFld m recHltPlan 0 4 0
  let lim := recFld m recHltPlan 0 31 16
  if !logAlive m then m
  else if h.vcore.toNat < top then
    if h.raisedAt.any (fun t => decide (now m < t + 10000000000)) then m
    else
      let n := h.vcore.toNat + 1
      let m1 := onHlt (fun h => { h with vcore := BitVec.ofNat 5 n, raises := h.raises + 1, raisedAt := some (now m) }) m
      repair 0xD003 0xFF (healthArg 0 n 0) (raise .hlt 1 m1)
  else
    let m1 := raise .hlt 17 (onHlt (fun h => { h with exhaustedAt := some (now m) }) m)
    if h.exhaustedAt.any (fun t => decide (now m ≤ t + 10000000000)) then faultSafeHold 0xD001 0xFF (healthArg 0 h.vcore.toNat lim) m1 else m1

/-- A monitor reads VDD_CORE more than 15 mV from the requested value for 1 ms. -/
def vcoreOff (mv : BitVec 16) (m : Mach) : Mach :=
  let req : Int := 720 + 5 * m.hlt.vcore.toNat
  if logAlive m && decide (15 < ((mv.toNat : Int) - req).natAbs) then
    raise .hlt 18 (healthLog 0 0xFF mv.toNat req (onHlt (fun h => { h with vcoreMv := mv }) m))
  else m

/-- The hourly touchstone measurement, as D_max in ppm. -/
def touchstone (dMax : Word) (m : Mach) : Mach :=
  if !logAlive m then m
  else
    let m1 := onHlt (fun h => { h with dMax := dMax }) m
    let lim := (recWord m recHltPlan 1).toNat
    whenM (decide (lim < dMax.toNat)) (fun m => raise .hlt 2 (healthLog 1 0xFF dMax.toNat lim m)) m1

/-! ### Corrected errors (R724) -/

/-- MEM_CORR of a cell at the last hourly check. -/
def corrBaseOf (m : Mach) (c : Nat) : Word := look (fun _ => 0) m.hlt.corrBase c

/-- A cell's hourly count is compared. -/
def cellHourly (c : Fin 128) (m : Mach) : Mach :=
  let n := wsub m.cells.cells[c].memCorr (corrBaseOf m c.val)
  let lim := (recWord m recHltPlan 6).toNat
  let m1 := onHlt (fun h => { h with corrBase := put (fun _ => 0) h.corrBase c.val m.cells.cells[c].memCorr }) m
  if lim < n then substAuto c (planRequest 6 c.val n lim (raise .hlt 6 m1)) else m1

/-- The hourly counts of DRAM and cells are compared with their limits. -/
def hourly (m : Mach) : Mach :=
  if !logAlive m then m
  else
    let n := wsub m.mem.ce m.hlt.ceBase
    let lim := (recWord m recHltPlan 5).toNat
    let m1 := onHlt (fun h => { h with ceBase := m.mem.ce }) m
    let req := fun m => planRequest 5 0xFF n lim (onCh 0 (fun x => { x with retrainPend := true }) (onCh 1 (fun x => { x with retrainPend := true }) (raise .hlt 5 m)))
    eachM (List.finRange 128) cellHourly (whenM (decide (lim < n)) req m1)

/-! ### Lane eyes (R500, R724, R733) -/

/-- The margin plan scans the next UP lane. -/
def eyeSchedule (m : Mach) : Mach :=
  let order := (List.range 28).map (fun i => (m.hlt.eyeNext + i) % 28)
  match order.find? (fun i => laneUp m (Fin.ofNat 28 i)) with
  | some i =>
    if !logAlive m then m
    else onLane (Fin.ofNat 28 i) (fun x => { x with scanning := true })
      (onHlt (fun h => { h with eyeNext := (i + 1) % 28, planScan := addNew h.planScan i }) m)
  | none => m

/-- An eye scan ends with its width and height; a scan of the margin plan is compared with the limits (DEDUCED, log row 105). -/
def eyeDone (l : Fin 28) (w h : Byte) (m : Mach) : Mach :=
  if !m.lanes[l].scanning then m
  else
    let m1 := raise (.lane l) 8 (onLane l (fun x => { x with scanning := false, eyeW := w, eyeH := h, scans := x.scans + 1 }) m)
    let plan := decide (l.val ∈ m.hlt.planScan)
    let m2 := onHlt (fun x => { x with planScan := x.planScan.filter (fun i => i ≠ l.val) }) m1
    let wMin := recFld m recHltPlan 3 7 0
    let hMin := recFld m recHltPlan 3 15 8
    if plan && laneUp m l && (decide (w.toNat < wMin) || decide (h.toNat < hMin)) then
      let (v, lim) := if w.toNat < wMin then (w.toNat, wMin) else (h.toNat, hMin)
      planRequest 2 l.val v lim (raise .hlt 3 (onHlt (fun x => { x with laneWait := addNew x.laneWait l.val }) m2))
    else m2

/-- R733 lets a retraining request of lane l be made now. -/
def mayRetrain (m : Mach) (l : Fin 28) : Bool :=
  let h := laneHead l
  (headLanes h).any (fun o => o ≠ l && laneUp m o) ||
  ((singleLane m h || decide (24 ≤ l.val)) && (m.job.st ≠ .exposing || (if hb : h.val < 12 then !beamLive m ⟨h.val, hb⟩ else true)))

/-- A waiting request of the margin plan is made; the eye is scanned again when the lane returns to UP. -/
def laneRequest (l : Fin 28) (m : Mach) : Mach :=
  let last := (m.hlt.laneReqAt.find? (fun e => e.1 = l.val)).map (·.2)
  let soon := last.any (fun t => decide (now m < t + (recWord m recHltPlan 2).toNat * 1000000000))
  if l.val ∉ m.hlt.laneWait || !laneUp m l || soon || !mayRetrain m l then m
  else
    laneRetrains l (onHlt (fun h => { h with
      laneWait := h.laneWait.filter (fun i => i ≠ l.val), laneReqAt := h.laneReqAt.filter (fun e => e.1 ≠ l.val) ++ [(l.val, now m)],
      planScan := addNew h.planScan l.val }) m)

/-! ### Laser sources (R726 to R730) -/

/-- The monitor signal of a beam, none without monitoring. -/
def monSig (m : Mach) (b : Fin 12) : Option Nat := let s := recFld m (recHltLaser b.val) 0 15 0; if s = 0xFFFF then none else some s

/-- A laser source's monitoring changed. -/
def onLaser (b : Fin 12) (f : Laser → Laser) (m : Mach) : Mach := onHlt (fun h => { h with lasers := h.lasers.set b (f h.lasers[b]) }) m

/-- The ratio r of one sample, × 2^30. -/
def laserRatio (m : Mach) (b : Fin 12) (sig : Nat) : Int :=
  let r := fun i => recWord m (recHltLaser b.val) i
  divR ((sigInt m sig * (r 1).toNat + (r 2).toInt * 65536) * 65535 * 2 ^ 30) (65536 * m.hlt.lasers[b].code * pMax m b : Nat)

/-- A sample every 10 µs; a settled one counts. -/
def laserSample (b : Fin 12) (m : Mach) : Mach :=
  match monSig m b with
  | none => m
  | some sig =>
    let x := m.hlt.lasers[b]
    let settled := m.beams[b].gate && decide (0 < x.code * pMax m b) && decide (x.since + (recWord m (recHltLaser b.val) 3).toNat * 1000 ≤ now m)
    if logAlive m && settled then onLaser b (fun y => { y with n := y.n + 1, sum := y.sum + laserRatio m b sig }) m else m

/-- A second of settled samples ends: R follows its mean (DEDUCED, log row 102). -/
def laserUpdate (b : Fin 12) (m : Mach) : Mach :=
  let x := m.hlt.lasers[b]
  if (monSig m b).isNone || x.n = 0 || !logAlive m then m
  else
    let r := (x.ratio : Int) + divR (x.sum - x.n * x.ratio) (x.n * (recWord m (recHltLaser b.val) 4).toNat : Nat)
    onLaser b (fun y => { y with ratio := r.toNat, n := 0, sum := 0 }) m

/-- The compensation G for a ratio (R727), Q2.14 (DEDUCED, log row 102). -/
def laserGain (ratio compMax : Nat) : Nat :=
  if ratio = 0 then compMax else max 16384 (min compMax ((divR (2 ^ 44) (ratio : Nat)).toNat))

/-- The margin weight for a ratio (R728). -/
def laserWeight (ratio derate retire_ : Nat) : Nat :=
  if derate * 65536 ≤ ratio then 65535
  else max 256 (divR (65535 * ((ratio : Int) - retire_ * 65536)) (((derate : Int) - retire_) * 65536)).toNat

/-- The evaluation after 10 s of settled emission (R727 to R730, R748) (DEDUCED, log row 102). -/
def laserEval (b : Fin 12) (m : Mach) : Mach :=
  let x := m.hlt.lasers[b]
  let id := recHltLaser b.val
  let comp := recFld m id 6 15 0
  let derate := recFld m id 5 15 0
  let ret := recFld m id 5 31 16
  if (monSig m b).isNone || m.g.dev = .proof || !logAlive m then m
  else
    let w := laserWeight x.ratio derate ret
    let short := decide (x.ratio * comp < 2 ^ 44)
    let below := decide (x.ratio < ret * 65536)
    let m1 := onLaser b (fun y => { y with nextGain := BitVec.ofNat 16 (laserGain x.ratio comp), short := short, low := if below then y.low + 1 else 0 }) m
    let m2 := if w = m.imp.beams[b].margin.toNat then m1
      else
        let c := onImp b (fun y => { y with margin := BitVec.ofNat 16 w }) m1
        weightsFollow (repair 0xD004 b.val (healthArg 7 (x.ratio / 65536) w) (raise .imp 7 (raise .hlt 7 c)))
    let m3 := whenM (short && !x.short) (raise .hlt 8) m2
    if below && 1 ≤ x.low && beamLive m3 b then
      retire b retLaser (raise .hlt 9 (healthLog 7 b.val (x.ratio / 65536 : Nat) ret (onLaser b (fun y => { y with low := 0 }) m3)))
    else m3

/-! ### Mirror resonances (R731, R732) -/

/-- An enabled entry of HLT_NOTCH: its context, K, channel, RETUNE_HZ and DRIFT_MAX_HZ. -/
def notchEntry (m : Mach) (e : Nat) : Option (Fin 256 × Nat × Fin 2 × Nat × Nat) :=
  let w := recWord m recHltNotch (2 * e)
  let v := recWord m recHltNotch (2 * e + 1)
  if bitOf w 17 then some (Fin.ofNat 256 (fld w 7 0), fld w 15 8, Fin.ofNat 2 (fld w 16 16), fld v 15 0, fld v 31 16) else none

/-- A measurement: the first event puts the trace channel in RING mode with DECIM 1, the next brings the peak found, in mHz; `edge`: it
lies at the band's edge (DEDUCED, log row 103). -/
def notchMeasure (e : Fin 64) (peak : Word) (edge : Bool) (m : Mach) : Mach :=
  match notchEntry m e.val with
  | none => m
  | some (k, kk, ch, tune, drift) =>
    match m.cells.ctx[k].cell, ctxOf m k with
    | some c, some d =>
      let live := decide (d.beam < 12) && beamLive m (Fin.ofNat 12 d.beam)
      if !logAlive m || m.job.st ≠ .exposing || !live then m
      else
        let run := (e.val, c.val, ch.val)
        let armed := decide (run ∈ m.hlt.notch)
        let m1 := onHlt (fun h => { h with notch := h.notch.filter (fun x => x.1 ≠ e.val) ++ (if armed then [] else [run]) }) m
        let f := peak.toNat
        let away := fun (a b : Nat) => max a b - min a b
        let active := ((bankOfCtx m k).getD kk 0).toNat
        let ingot := ((ctxBank (cellSec m) d).getD kk 0).toNat
        if !armed then regSet (offTrc c ch + 12) 1 (trcCtrlWrite .mgmt c ch ((trcCtrl m c ch &&& 0xFFFFF000#32) ||| 2#32) m1)
        else if edge then raise .hlt 11 (healthLog 8 k.val f (drift * 1000 : Nat) m1)
        else if tune * 1000 < away f active && away f ingot ≤ drift * 1000 then
          onHlt (fun h => { h with retune := h.retune.filter (fun r => r.1 ≠ e.val) ++ [(e.val, f)] }) m1
        else m1
    | _, _ => m

/-- A commit that the management subsystem makes itself (R148, R161). -/
def mgmtCommit (id : Nat) (ws : List Word) (m : Mach) : Bool × Mach :=
  let i := BitVec.ofNat 16 id
  match recInfo id with
  | none => (false, m)
  | some info =>
    if quoined m id then (false, recRefuse .mgmt i 5 0 (lockErr .mgmt offRecCommit m))
    else
      match recFirstBad m id info ws with
      | some w => (false, recRefuse .mgmt i 3 w (accErr .mgmt offRecCommit m))
      | none => (true, recAccept .mgmt i info ws m)

/-- The new F0 is committed at an idle moment (R732, R748) (DEDUCED, log row 103). -/
def notchCommit (e : Fin 64) (m : Mach) : Mach :=
  match m.hlt.retune.find? (fun r => r.1 = e.val), notchEntry m e.val with
  | some (_, f), some (k, kk, _, _, _) =>
    let idle := m.g.dev = .configured || (inBuild m && (m.job.st = .idle || m.job.st = .makeReady))
    if !idle || (pendingOf m (recCoef k.val)).isSome then m
    else
      let ws := bankOfCtx m k
      let (ok, m1) := mgmtCommit (recCoef k.val) (ws.set kk (BitVec.ofNat 32 f)) (onHlt (fun h => { h with retune := h.retune.filter (fun r => r.1 ≠ e.val) }) m)
      if ok then repair 0xD005 k.val (healthArg 8 f ((ws.getD kk 0).toNat)) (raise .hlt 10 m1) else m1
  | _, _ => m

/-! ### Retraining of layer memory ends (R664, R665, R724) -/

/-- Windows of a training are compared with DRAM_WIN_MIN. -/
def winCheck (c : Fin 2) (rd wr : Byte) (m : Mach) : Mach :=
  let lim := recFld m recHltPlan 3 23 16
  let v := min rd.toNat wr.toNat
  whenM (decide (v < lim)) (fun m => raise .hlt 4 (healthLog 3 c.val v lim m)) m

/-- The die temperature and time of a training. -/
def trainedNow (c : Fin 2) (m : Mach) : Mach :=
  onHlt (fun h => if c = 0 then { h with trainTemp0 := h.tempCore.toInt, trainAt0 := now m } else { h with trainTemp1 := h.tempCore.toInt, trainAt1 := now m }) m

/-- No retraining runs any more: recording entries are held no longer, and a RESUME that waited takes effect (R664). -/
def resumeAfter (m : Mach) : Mach :=
  if retrains m then m
  else
    let m1 := eachM allBeams (fun b => onMpl b (fun x => { x with recHeld := 0 })) m
    whenM (m1.job.resumeWaits && inBuild m1) jobResume (onJob (fun j => { j with resumeWaits := false }) m1)

/-- A retraining ends. -/
def retrainOver (c : Fin 2) (ok : Bool) (rd wr : Byte) (m : Mach) : Mach :=
  if (m.mem.ch c.val).st ≠ .retraining then m
  else resumeAfter (whenM ok (winCheck c rd wr) (trainedNow c (retrainEnd c ok rd wr m)))

/-! ### HLT_CMD (R757) -/

/-- An HLT_CMD write. -/
def hltCmd (w : Word) (m : Mach) : Mach :=
  if fld w 31 24 ≠ 0xA3 || fld w 23 13 ≠ 0 || fld w 7 4 ≠ 0 || fld w 3 0 ≠ 1 || m.g.dev = .safeHold then refuse .hlt 19 m
  else eachM (((List.range 5).filter (fun d => bitOf w (8 + d))).flatMap (domainUnits m)) calStart m

/-- HLT_CMD. -/
def offHltCmd : Nat := 0x100040

/-! ### Commands -/

/-- TEMP_READ: core and I/O die in 1/16 °C, VDD_CORE in mV. -/
def execTempRead (core io mv : BitVec 16) (s : State) : Out := s.act (tempRead core io mv)
/-- THROTTLE_TIMER. -/
def execThrottleTimer (s : State) : Out := s.act throttleElapsed
/-- THERMAL_SHUTDOWN. -/
def execThermalShutdown (s : State) : Out := s.act thermalShutdown
/-- CANARY_LIMIT. -/
def execCanaryLimit (s : State) : Out := s.act canary
/-- VCORE_MISMATCH. -/
def execVcoreMismatch (mv : BitVec 16) (s : State) : Out := s.act (vcoreOff mv)
/-- TOUCHSTONE_MEASURE. -/
def execTouchstoneMeasure (dMax : Word) (s : State) : Out := s.act (touchstone dMax)
/-- MARGIN_HOURLY_CHECK. -/
def execMarginHourlyCheck (s : State) : Out := s.act (spareWatch hourly)
/-- EYE_SCAN_SCHEDULE. -/
def execEyeScanSchedule (s : State) : Out := s.act eyeSchedule
/-- EYE_SCAN_DONE. -/
def execEyeScanDone (l : Fin 28) (w h : Byte) (s : State) : Out := s.act (eyeDone l w h)
/-- LANE_RETRAIN_REQUEST. -/
def execLaneRetrainRequest (l : Fin 28) (s : State) : Out := s.act (laneRequest l)
/-- LASER_MON_SAMPLE. -/
def execLaserMonSample (b : Fin 12) (s : State) : Out := s.act (laserSample b)
/-- LASER_RATIO_UPDATE. -/
def execLaserRatioUpdate (b : Fin 12) (s : State) : Out := s.act (laserUpdate b)
/-- LASER_EVALUATION. -/
def execLaserEvaluation (b : Fin 12) (s : State) : Out := s.act (laserEval b)
/-- NOTCH_MEASURE. -/
def execNotchMeasure (e : Fin 64) (peak : Word) (edge : Bool) (s : State) : Out := s.act (notchMeasure e peak edge)
/-- NOTCH_RETUNE_COMMIT. -/
def execNotchRetuneCommit (e : Fin 64) (s : State) : Out := s.act (notchCommit e)
/-- CAL. -/
def execCal (p : Port) (hi : BitVec 28) (s : State) : Out := s.act (writeGate p offHltCmd (hltCmd (opWord hi 1)))
/-- CAL_RUN_DONE. -/
def execCalRunDone (u : CalUnit) (r : CalMeas) (s : State) : Out := s.act (calRunDone u r)
/-- CAL_STEP. -/
def execCalStep (u : CalUnit) (s : State) : Out := s.act (calStep u)
/-- MR4_POLL. -/
def execMr4Poll (t0 t1 : Byte) (r0 r1 : BitVec 4) (h0 h1 : Bool) (s : State) : Out := s.act (mr4Poll t0 t1 r0 r1 h0 h1)
/-- RETRAIN_END. -/
def execRetrainEnd (c : Fin 2) (ok : Bool) (rd wr : Byte) (s : State) (env : Env := {}) : Out := s.act (withEnv env (retrainOver c ok rd wr))

end Sys2Proof.Machine
end

