-- ==== Sys2Proof/Machine/TimeOps.lean ====
section
/-!
DEFINITION. Time: network time and its servo, PTP messages, the snapshot, and the exchanges with the heads (R609 to R638).
-/

namespace Sys2Proof.Machine

/-! ### The map (R619) -/

/-- RATE limited to 500 ppm. -/
def rateClamp (r : Int) : Int := clampI (-549755813) 549755813 r

/-- Network time of a device time, both in 2^-16 ns; network time from second 0 of TAI. -/
def networkQ (m : Mach) (q : Nat) : Nat :=
  let p := m.time.map
  let d : Int := (q : Int) - p.dt.toNat * 65536
  (((p.sec.toNat * 1000000000 + p.ns.toNat) * 65536 : Nat) + d + divF (d * p.rate.toInt) (2 ^ 40)).toNat

/-- A network time in 2^-16 ns as whole seconds, and ns within the second. -/
def secNs (q : Nat) : BitVec 48 × Word :=
  let ns := q / 65536
  (BitVec.ofNat 48 (ns / 1000000000), BitVec.ofNat 32 (ns % 1000000000))

/-- The terms of the map are replaced together. -/
def mapSet (t : TimeMap) (m : Mach) : Mach := onTime (fun x => { x with map := t }) m

/-- Network time steps by `o` ns at once (R622): NT_STEP and its entry with the size of the step. -/
def ntStep (o : Int) (m : Mach) : Mach :=
  let q := ((networkQ m (nowQ m) : Int) - o * 65536).toNat
  let (s, n) := secNs q
  let m1 := mapSet { m.time.map with dt := m.time.dt, sec := s, ns := n } m
  logClass 0xA 0xFF (leBytes 8 (BitVec.ofInt 64 (-o)).toNat) (raise .time 3 m1)

/-- A RATE that the servo may set: within 500 ppm, and no further from the last than SLEW_PPM (R619, R622) (DEDUCED, log row 99). -/
def slewRate (m : Mach) (r : Int) : Int :=
  let old := m.time.map.rate.toInt
  let step : Int := ((recWord m recTimeServo 2).toNat * 2 ^ 40 / 1000000 : Nat)
  rateClamp (clampI (old - step) (old + step) r)

/-- The firmware replaces the map at this instant, while a master governs it (R619, R620) (DEDUCED, log row 99). -/
def mapChange (dt : BitVec 64) (sec : BitVec 48) (ns rate : Word) (m : Mach) : Mach :=
  if (m.time.servo = .acquiring || m.time.servo = .locked) && decide (ns.toNat < 1000000000) && m.time.running then
    mapSet ⟨dt, sec, ns, BitVec.ofInt 32 (slewRate m rate.toInt)⟩ m
  else m

/-! ### The servo (R620 to R622) -/

/-- PTP runs on a port. -/
def ptpOn (m : Mach) (p : Fin 2) : Bool := bitOf (recWord m recTimePtp 0) (8 + p.val) && m.time.running && logAlive m

/-- While the servo is LOCKED the firmware sets the RTC from network time: whole CLK_AON periods of TAI (R714, R767) (DEDUCED, log row 122). -/
def rtcFollow (m : Mach) : Mach :=
  if m.time.servo = .locked then
    { m with aon := { m.aon with rtc := BitVec.ofNat 48 (networkQ m (nowQ m) / 65536 * 32768 / 1000000000) } }
  else m

/-- A Sync gives an offset to the master in ns (DEDUCED, log row 99). -/
def servoOffset (o : Word) (m0 : Mach) : Mach :=
  let m := takeRecord recTimeServo m0
  let within := decide (o.toInt.natAbs ≤ (recWord m recTimeServo 0).toNat)
  let big := decide ((recWord m recTimeServo 1).toNat < o.toInt.natAbs)
  let n := if within then m.time.within + 1 else 0
  let step := m.time.stepDue && big
  let m1 := onTime (fun t => { t with offset := o, within := n, stepDue := false }) m
  match m.time.servo with
  | .acquiring =>
    let m2 := whenM step (ntStep o.toInt) m1
    if 16 ≤ n then raise .time 1 (onTime (fun t => { t with servo := .locked }) m2) else m2
  | .locked => if within then m1 else onTime (fun t => { t with servo := .acquiring }) m1
  | _ => m1

/-- A received event message: its stamp at the medium (R615, R618), and what the firmware concludes from it (DEDUCED, log row 99). -/
def ptpRx (p : Fin 2) (type : BitVec 4) (i : ServoIn) (m : Mach) : Mach :=
  if !ptpOn m p then m
  else
    let lat := recFld m recTimePtp (2 + p.val) 31 16
    let q := nowQ m - lat * 65536
    let m1 := onTime (fun t => { t with
      ptpRx := ((p.val, type.toNat, q / 65536, q % 65536) :: t.ptpRx).take 16, utc := i.utc,
      port0 := if p = 0 then i.portState else t.port0, port1 := if p = 1 then i.portState else t.port1 }) m
    let begins := i.selected && (m.time.servo = .free || m.time.servo = .holdover)
    let m2 := if begins then onTime (fun t => { t with servo := .acquiring, within := 0, stepDue := true }) m1 else m1
    match i.offset with
    | some o => if type = 0 then rtcFollow (servoOffset o m2) else m2
    | none => m2

/-- The announce receipt timeout expires and no other master qualifies (R621). -/
def masterLost (m : Mach) : Mach :=
  if m.time.servo = .acquiring || m.time.servo = .locked then
    logClass 0xA 0xFF [] (raise .time 2 (onTime (fun t => { t with servo := .holdover, within := 0, stepDue := false }) m))
  else m

/-! ### Sending PTP messages (R615 to R617) -/

/-- Ones' complement sum of 16-bit words. -/
def onesSum (bs : List Byte) : Nat :=
  let rec go : List Byte → Nat
    | a :: b :: t => a.toNat * 256 + b.toNat + go t
    | [a] => a.toNat * 256
    | [] => 0
  (go bs) % 65535

/-- `n` bytes of a number, most significant first. -/
def beBytes (n v : Nat) : List Byte := (leBytes n v).reverse

/-- Bytes of a message replaced from an offset. -/
def putBytes (bs : List Byte) (off : Nat) (new : List Byte) : List Byte := bs.take off ++ new ++ bs.drop (off + new.length)

/-- The fields written into a one-step message at transmit stamp `q` (2^-16 ns): a Sync's originTimestamp and correctionField, a
Pdelay_Resp's correctionField; others stay (R616). -/
def ptpOneStep (m : Mach) (p : Fin 2) (q : Nat) (bs : List Byte) : List Byte :=
  let type := (bs.getD 0 0).toNat % 16
  let corr := beNat ((bs.drop 8).take 8)
  let withCorr := fun (d : Nat) (b : List Byte) => putBytes b 8 (beBytes 8 ((corr + d) % 2 ^ 64))
  if type = 0 then
    let nt := networkQ m q
    let (s, n) := secNs nt
    putBytes (withCorr (nt % 65536) bs) 34 (beBytes 6 s.toNat ++ beBytes 4 n.toNat)
  else if type = 3 then
    match m.time.ptpRx.find? (fun r => r.1 = p.val && r.2.1 = 2) with
    | some (_, _, ns, sub) => withCorr (q - (ns * 65536 + sub)) bs
    | none => bs
  else bs

/-- The two compensation bytes at the end of a UDP payload keep the checksum that has left (R617); a zero checksum is left. -/
def compensate (old new : List Byte) (udp : Option (BitVec 16)) : List Byte :=
  match udp with
  | none => new
  | some c =>
    if c = 0 || new.length < 2 then new
    else
      let body := new.take (new.length - 2)
      let odd := body.length % 2 = 1
      let want := onesSum old
      let have_ := onesSum body
      let d := (want + 65535 - have_) % 65535
      let w := if odd then (d % 256) * 256 + d / 256 else d
      body ++ beBytes 2 w

/-- A PTP message leaves the MII: a message whose twoStepFlag is clear is sent in one step where TIME_PTP selects it. -/
def ptpTx (p : Fin 2) (bs : List Byte) (udp : Option (BitVec 16)) (m : Mach) : Mach :=
  if !ptpOn m p then m
  else
    let q := nowQ m + recFld m recTimePtp (2 + p.val) 15 0 * 65536
    let one := recFld m recTimePtp 0 14 14 = 1 && !bitOf (bs.getD 6 0) 1 && decide (44 ≤ bs.length)
    emit (.ptp p.val (if one then compensate bs (ptpOneStep m p q bs) udp else bs)) m

/-! ### The snapshot (R636) -/

/-- A TIME_SNAP write. -/
def timeSnap (w : Word) (m : Mach) : Mach :=
  if fld w 31 24 ≠ 0x1D || fld w 23 0 ≠ 0 then cmdError m
  else
    let (s, n) := secNs (networkQ m (nowQ m))
    raise .time 0 (onTime (fun t => { t with snapDt := t.dt, snapSec := s, snapNs := n }) m)

/-! ### Exchanges with the heads (R627 to R630) -/

/-- One lane's exchanges changed. -/
def onLaneTime (l : Fin 28) (f : LaneTime → LaneTime) (m : Mach) : Mach :=
  onTime (fun t => { t with lanes := t.lanes.set l (f t.lanes[l]) }) m

/-- A TSYNC frame on one lane; its answer is awaited for 10 µs. -/
def tsyncOn (l : Fin 28) (m : Mach) : Mach :=
  let t1 := shortNow m
  let adj : Word := m.time.lanes[l].adj.getD 0x80000000#32
  let m1 := sendOn l 0x14 t1 (leBytes 4 t1.toNat ++ leBytes 4 adj.toNat) (bucketCredit (laneHead l) 6 m)
  onLaneTime l (fun x => { x with adj := none, sent := (x.sent.filter (fun e => decide (now m ≤ e.2 + 10000))) ++ [(t1, now m)] }) m1

/-- TSYNC on every UP lane. -/
def tsyncSend (m : Mach) : Mach := eachM ((List.finRange 28).filter (laneUp m)) tsyncOn m

/-- The lane that governs its head's alignment (R629, R630): the one carrying port 0 while it is UP, otherwise the other. -/
def governs (m : Mach) (l : Fin 28) : Bool :=
  isPrimary m l || !((headLanes (laneHead l)).any (fun o => o ≠ l && laneUp m o))

/-- An exchange on the governing lane is judged (R630): `off` in 1/16 ns (DEDUCED, log row 100). -/
def alignJudge (h : Fin 16) (off : Int) (m : Mach) : Mach :=
  let align := recFld m recTimeLink 28 15 0 * 16
  let loss := recFld m recTimeLink 28 31 16 * 16
  let a := off.natAbs
  let good := if a ≤ align then look (fun _ => 0) m.time.good h.val + 1 else 0
  let bad := if loss < a then look (fun _ => 0) m.time.bad h.val + 1 else 0
  let was := bitOf m.time.aligned h.val
  let m1 := onTime (fun t => { t with
    good := put (fun _ => 0) t.good h.val (min good 8), bad := put (fun _ => 0) t.bad h.val (min bad 4),
    aligned := setBit t.aligned h.val (decide (a ≤ align) && (was || decide (8 ≤ good))) }) m
  let m2 := whenM (was && decide (align < a)) (raise .time 5) m1
  if hb : h.val < 12 then
    if 4 ≤ bad && beamLive m2 ⟨h.val, hb⟩ then
      retire ⟨h.val, hb⟩ retHead (log 0x7005 sevNotice h.val (leBytes 2 0 ++ leBytes 1 5) m2)
    else m2
  else m2

/-- A TSYNC_R's payload: delay and offset of the lane, the next ADJ, and the head's alignment; an answer that is late or matches no
TSYNC is counted (R628). -/
def tsyncAnswer (l : Fin 28) (f : FrameIn) (m : Mach) : Mach :=
  let t1 : Word := BitVec.ofNat 32 (rdLe f.bytes 0 4)
  match m.time.lanes[l].sent.find? (fun e => e.1 = t1 && decide (now m ≤ e.2 + 10000)) with
  | none => onTime (fun t => { t with tsyncLost := t.tsyncLost + 1 }) m
  | some _ =>
    let m1 := takeRecord recTimeLink m
    let t2 : Word := BitVec.ofNat 32 (rdLe f.bytes 4 4)
    let t3 : Word := BitVec.ofNat 32 (rdLe f.bytes 12 4)
    let s2 : Int := rdLe f.bytes 8 2
    let s3 : Int := rdLe f.bytes 16 2
    let t4 := shortNow m1
    let s4 : Int := m1.time.sub.toNat
    let d := fun (a b : Word) => (a - b).toInt * 65536
    let delay := divR ((d t4 t1 + s4) - (d t3 t2 + s3 - s2)) (2 * 4096)
    let off := divR ((d t2 t1 + s2) + (d t3 t4 + s3 - s4)) (2 * 4096) - recS m1 recTimeLink l.val 15 0 * 16
    let m2 := onLaneTime l (fun x => { x with
      delay := BitVec.ofInt 32 delay, offset := BitVec.ofInt 32 off, adj := some (BitVec.ofInt 32 (-off)), sent := x.sent.filter (fun e => e.1 ≠ t1) }) m1
    if governs m2 l then alignJudge (laneHead l) off m2 else m2

/-! ### Commands -/

/-- PTP_EVENT_RX: port, messageType, and what the firmware concludes. -/
def execPtpEventRx (p : Fin 2) (type : BitVec 4) (i : ServoIn) (s : State) : Out := s.act (ptpRx p type i)
/-- PTP_TX: port, message with its compensation bytes, and its UDP checksum (none over Ethernet). -/
def execPtpTx (p : Fin 2) (bytes : List Byte) (udp : Option (BitVec 16)) (s : State) : Out := s.act (ptpTx p bytes udp)
/-- MASTER_LOST. -/
def execMasterLost (s : State) : Out := s.act masterLost
/-- TIME_MAP_CHANGE. -/
def execTimeMapChange (dt : BitVec 64) (sec : BitVec 48) (ns rate : Word) (s : State) : Out := s.act (mapChange dt sec ns rate)
/-- TIME_SNAP. -/
def execTimeSnap (p : Port) (v : Word) (s : State) : Out := s.act (writeGate p 0xD0040 (timeSnap v))
/-- TSYNC_SEND. -/
def execTsyncSend (s : State) : Out := s.act tsyncSend
/-- TSYNC_R_FRAME. -/
def execTsyncRFrame (l : Fin 28) (f : FrameIn) (s : State) : Out := s.act (rxFrame l 6 f (tsyncAnswer l f))

end Sys2Proof.Machine
end

