-- ==== Sys2Proof/Machine/IlkOps.lean ====
section
/-!
DEFINITION. The interlock inputs, the lamp bus and its modules, scenes and colour feedback (R580 to R608).
-/

namespace Sys2Proof.Machine

/-! ### The inhibit inputs (R582 to R587, R591) -/

/-- Slugs that end at this clock edge have ended; where that finishes the exposure, the job leaves EXPOSING (R27). -/
def endingSlugs (m : Mach) : Mach :=
  eachM allBeams (fun b m' =>
    if !slugEnding m' b then m'
    else if m'.imp.beams[b].next.isNone then slugEndOp b m'
    else releaseNext b (recordEnd b m')) m

/-- An inhibit of R587 as the job sees it (R25, R27): exposure stops, a paused or stopped job adds the cause (DEDUCED, log row 55). -/
def inhibitJob (m : Mach) : Mach :=
  if m.g.dev ≠ .building then m
  else
    match m.job.st with
    | .exposing =>
      let m1 := endingSlugs m
      if m1.job.st = .exposing then stopExposing causeInhibit m1 else m1
    | .paused => jobAddCause causeInhibit m
    | .stopped => jobAddCause causeInhibit m
    | _ => m

/-- An INHIBIT input goes low: false A, true B. -/
def inhibitFall (ch : Bool) (m : Mach) : Mach :=
  if !m.aon.mains then m
  else
    let first := !m.ilk.latch
    let m1 := onIlk (fun i => { i with
      a := i.a && ch, b := i.b && !ch, latch := true, inhCount := if first then i.inhCount + 1 else i.inhCount }) m
    inhibitJob (pinsFollow (whenM first (raise .ilk 0) m1))

/-- An INHIBIT input goes high. -/
def inhibitRise (ch : Bool) (m : Mach) : Mach :=
  if !m.aon.mains then m else onIlk (fun i => { i with a := i.a || !ch, b := i.b || ch }) m

/-- Both inputs have been high for REARM_MS (R584). -/
def latchRearm (m : Mach) : Mach :=
  if m.aon.mains && m.ilk.a && m.ilk.b && m.ilk.latch && !m.ilk.disc then
    pinsFollow (raise .ilk 1 (onIlk (fun i => { i with latch := false }) m))
  else m

/-- The inputs have disagreed for the whole count (R585). -/
def discrepancy (m : Mach) : Mach :=
  if !m.aon.mains || m.ilk.a = m.ilk.b || m.ilk.disc then m
  else
    let m1 := ilkDrive (raise .ilk 2 (onIlk (fun i => { i with disc := true }) m))
    faultSafeHold 0x9001 0xFF [BitVec.ofNat 8 (b2n m.ilk.a + 2 * b2n m.ilk.b)] m1

/-! ### Modules (R594 to R598) -/

/-- A module changed. -/
def onMod (a : Fin 32) (f : LampMod → LampMod) (m : Mach) : Mach := onIlk (fun i => { i with mods := i.mods.set a (f i.mods[a]) }) m

/-- Lamp modules of LAMP_BUS, and the sensor. -/
def isLamp (m : Mach) (a : Nat) : Bool := decide (1 ≤ a) && bitOf (recWord m recLampBus 0) a
def sensorAddr (m : Mach) : Nat := recFld m recLampBus 1 4 0

/-- The kind that LAMP_BUS gives an address: 0 none, 1 lamp, 2 sensor (R607). -/
def modKind (m : Mach) (a : Nat) : Nat := if isLamp m a then 1 else if a ≠ 0 && sensorAddr m = a then 2 else 0

/-- A lamp inhibit is asserted (R598). -/
def lampInhibit (m : Mach) : Mach :=
  if m.ilk.lampInh then m else inhibitJob (pinsFollow (raise .ilk 4 (onIlk (fun i => { i with lampInh := true }) m)))

/-- A module fails, with its reason (R597, R598, R816). -/
def modFail (a : Fin 32) (reason : Nat) (m : Mach) : Mach :=
  let x := m.ilk.mods[a]
  if x.failed then onMod a (fun x => { x with good := 0 }) m
  else
    let m1 := raise .ilk 3 (onMod a (fun x => { x with failed := true, good := 0 }) m)
    let m2 := log 0x9002 sevNotice a.val (BitVec.ofNat 8 reason :: leBytes 2 x.ch.toNat) m1
    whenM (decide (a.val ∈ lockedMods m)) lampInhibit m2

/-- A poll goes unanswered (R597). -/
def pollMissed (a : Fin 32) (m : Mach) : Mach :=
  let m1 := onMod a (fun x => { x with missed := if x.missed = 15 then 15 else x.missed + 1, good := 0, polled := x.polled.drop 1 }) m
  let m2 := raise .ilk 6 (onIlk (fun i => { i with noAnswer := i.noAnswer + 1 }) m1)
  if 3 ≤ m2.ilk.mods[a].missed.toNat then modFail a 3 m2 else m2

/-- Channel state c of a module. -/
def chState (w : BitVec 16) (c : Nat) : Nat := fld w (4 * c + 3) (4 * c)

/-- A STATUS reply (R594, R597, R598). -/
def statusReply (a : Fin 32) (ch : BitVec 16) (m : Mach) : Mach :=
  let cs := tab 4 (chState ch)
  let ok := cs.all (fun c => c = 0 || c = 1)
  let m1 := onMod a (fun x =>
    let good := if ok then min 3 (x.good + 1) else 0
    { x with ch := ch, good := good, notMeasured := cs.any (fun c => c = 2), failed := x.failed && good < 3, proved := x.proved || good = 3 }) m
  if cs.any (fun c => c = 3 || c = 4 || c = 5) then modFail a 1 m1 else m1

/-- Data bytes of a reply to a command. -/
def replyLen (cmd : Nat) : Nat := if cmd = 5 then 8 else 6

/-- A reply frame arrives from module a (R593, R594). -/
def lampReply (a : Fin 32) (bs : List Byte) (m : Mach) : Mach :=
  if m.ilk.mods[a].polled.isEmpty || !busOn m then m
  else
    let cmd := (bs.getD 1 0).toNat
    let n := (bs.getD 2 0).toNat
    let data := (bs.drop 3).take n
    let good := decide (bs.length = n + 5) && n = replyLen cmd && (bs.getD 0 0).toNat = 128 + a.val && decide (cmd ∈ m.ilk.mods[a].polled) &&
      (crc16 (bs.take (n + 3))).toNat = rdLe bs (n + 3) 2
    if !good then pollMissed a (raise .ilk 7 (onIlk (fun i => { i with busCrc := i.busCrc + 1 }) m))
    else
      let m1 := onMod a (fun x => { x with missed := 0, polled := x.polled.erase cmd }) m
      match cmd with
      | 2 => statusReply a (BitVec.ofNat 16 (rdLe data 0 2)) m1
      | 3 =>
        let m2 := onMod a (fun x => { x with known := true }) m1
        if rdLe data 0 1 ≠ modKind m a.val then modFail a 4 m2 else m2
      | 5 => onIlk (fun i => { i with colour := true, reading := Vector.ofFn (fun c => rdLe data (2 * c.val) 2) }) m1
      | _ => m1

/-- A poll is sent. -/
def pollSend (cmd a : Nat) (m : Mach) : Mach :=
  lampSend a cmd [] (onMod (Fin.ofNat 32 a) (fun x => { x with polled := x.polled ++ [cmd] }) m)

/-- The modules that the rotation visits: fitted ones outside interlocked groups, and any whose IDENT has not arrived (DEDUCED, log row 71). -/
def rotation (m : Mach) : List Nat :=
  (List.range 32).filter (fun a => modKind m a ≠ 0 && (a ∉ lockedMods m || !m.ilk.mods[(Fin.ofNat 32 a)].known))

/-- One poll of the rotation, at or after the next address (DEDUCED, log row 71). -/
def rotate (m : Mach) : Mach :=
  let r := rotation m
  match (r.filter (fun a => decide (m.ilk.next ≤ a)) ++ r).head? with
  | some a => pollSend (if m.ilk.mods[(Fin.ofNat 32 a)].known then 2 else 3) a (onIlk (fun i => { i with next := a + 1 }) m)
  | none => m

/-- A poll cycle (R596): STATUS to every interlocked module, then `n` polls of the rotation, as many as the rest of the cycle holds
(DEDUCED, log row 71). -/
def pollCycle (n : Nat) (m : Mach) : Mach :=
  if !busOn m then m else Nat.repeat rotate (min n (rotation m).length) (eachM (lockedMods m) (pollSend 2) m)

/-! ### ILK_CMD (R598, R601, R604, R607) -/

/-- Every interlocked module works, and has proved it since the last full reset. -/
def lampsProved (m : Mach) : Bool := (lockedMods m).all (fun a => let x := m.ilk.mods[(Fin.ofNat 32 a)]; !x.failed && x.proved)

/-- An ILK_CMD write. -/
def ilkCmd (w : Word) (m : Mach) : Mach :=
  let arg := fld w 23 16
  if fld w 31 24 ≠ 0xE3 || fld w 15 4 ≠ 0 then refuse .ilk 8 m
  else
    match fld w 3 0 with
    | 1 =>
      if arg ≠ 0 || !lampsProved m then refuse .ilk 8 m
      else if m.ilk.lampInh then pinsFollow (raise .ilk 5 (onIlk (fun i => { i with lampInh := false }) m))
      else m
    | 2 =>
      if arg = 0 || 15 < arg || m.g.dev = .safeHold then refuse .ilk 8 m
      else if m.job.st = .makeReady && m.job.mrStep = 5 && m.job.imageScene.isSome then onJob (fun j => { j with imageScene := some arg }) m
      else applyScene (BitVec.ofNat 4 arg) m
    | _ => refuse .ilk 8 m

/-- ILK_CMD. -/
def offIlkCmd : Nat := 0xC0010

/-! ### AL series, colour feedback, blinking (R599, R602, R603) -/

/-- Duties of an AL-series slot. -/
def alDuties (m : Mach) (s : Nat) : List Nat :=
  match (List.range 8).find? (fun g => bitOf (grpWord m (16 * g + 1)) s) with
  | some g => grpDuties m g
  | none => [0, 0, 0, 0]

/-- The AL-series broadcast frame. -/
def alFrame (m : Mach) : List Byte :=
  let b : List Byte := 0xA5#8 :: (List.range 16).flatMap (fun s => (alDuties m s).map (fun d => BitVec.ofNat 8 (d / 256)))
  b ++ [BitVec.ofNat 8 (256 - (b.map (·.toNat)).sum % 256)]

/-- An AL-series frame falls due. -/
def alSend (m : Mach) : Mach := if busOn m && recFld m recLampBus 1 8 8 = 1 then emit (.alFrame (alFrame m)) m else m

/-- A gain after one feedback step; with no target for the channel the spec states no result, and it is free within the clamp
(DEDUCED, log row 101). -/
def gainStep (kc t r g : Nat) (m : Mach) : Nat × Mach :=
  if t = 0 then
    let (w, m1) := drawWord m
    (3221225472 + w.toNat % 2147483649, m1)
  else ((clampI 3221225472 5368709120 ((g : Int) + divR ((kc * 65536 : Nat) * ((t : Int) - r)) t)).toNat, m)

/-- Four duties as one number. -/
def packDuties (l : List Nat) : Nat := l.foldl (fun a d => a * 65536 + d) 0

/-- A FEEDBACK group's duties are sent where they have changed. -/
def feedbackSend (g : Nat) (m : Mach) : Mach :=
  let d := packDuties (grpDuties m g)
  if look (fun _ => 0) m.ilk.sentDuty g = d then m
  else sendGroup g (onIlk (fun i => { i with sentDuty := put (fun _ => 0) i.sentDuty g d }) m)

/-- A feedback step: the sensor is read, and the gains follow its last readings (DEDUCED, log row 101). -/
def feedback (m0 : Mach) : Mach :=
  if sensorAddr m0 = 0 || !busOn m0 then m0
  else
    let m := pollSend 5 (sensorAddr m0) (takeRecord recLampColour m0)
    let s := m.ilk.scene.toNat
    let ts := duties (recWord m recLampColour (2 * (s - 1))) (recWord m recLampColour (2 * (s - 1) + 1))
    if s = 0 || ts.all (· = 0) || !m.ilk.colour then m
    else
      let kc := recFld m recLampBus 2 15 0
      let (gs, m1) := (List.range 4).foldl (fun (acc : List Nat × Mach) c =>
        let (g, m') := gainStep kc (ts.getD c 0) (m.ilk.reading.toList.getD c 0) (m.ilk.gains.toList.getD c 0) acc.2
        (acc.1 ++ [g], m')) ([], m)
      let lim := gs.any (fun g => g = 3221225472 || g = 5368709120)
      let m2 := onIlk (fun i => { i with gains := Vector.ofFn (fun c => gs.getD c.val 0), atLimit := lim }) m1
      let m3 := whenM (lim && !m.ilk.atLimit) (raise .ilk 9) m2
      eachM ((List.range 8).filter (fun g => bitOf (grpWord m (16 * g + 1)) 17 && !followsPattern m g)) feedbackSend m3

/-- A group's blinking pattern changes over. -/
def blink (g : Fin 8) (m : Mach) : Mach :=
  if busOn m && followsPattern m g.val && bitOf (grpWord m (16 * g.val + 12)) (displayNow m) then
    sendGroup g.val (onIlk (fun i => { i with dark := i.dark ^^^ BitVec.ofNat 8 (2 ^ g.val) }) m)
  else m

/-! ### Commands -/

/-- INHIBIT_FALL: false A, true B. -/
def execInhibitFall (ch : Bool) (s : State) : Out := s.act (inhibitFall ch)
/-- INHIBIT_RISE. -/
def execInhibitRise (ch : Bool) (s : State) : Out := s.act (inhibitRise ch)
/-- INPUT_LATCH_REARM. -/
def execInputLatchRearm (s : State) : Out := s.act latchRearm
/-- DISCREPANCY_FAULT. -/
def execDiscrepancyFault (s : State) : Out := s.act discrepancy
/-- LAMP_ACK. -/
def execLampAck (p : Port) (hi : BitVec 28) (s : State) : Out := s.act (writeGate p offIlkCmd (ilkCmd (opWord hi 1)))
/-- SCENE. -/
def execScene (p : Port) (hi : BitVec 28) (s : State) : Out := s.act (writeGate p offIlkCmd (ilkCmd (opWord hi 2)))
/-- LAMP_POLL_CYCLE: how many polls of the rotation the cycle holds. -/
def execLampPollCycle (n : BitVec 4) (s : State) : Out := s.act (pollCycle n.toNat)
/-- LAMP_REPLY of the module polled. -/
def execLampReply (a : Fin 32) (bytes : List Byte) (s : State) : Out := s.act (lampReply a bytes)
/-- LAMP_POLL_MISSED. -/
def execLampPollMissed (a : Fin 32) (s : State) : Out := s.act (fun m => if m.ilk.mods[a].polled.isEmpty then m else pollMissed a m)
/-- NOT_MEASURED_TIMEOUT. -/
def execNotMeasuredTimeout (a : Fin 32) (s : State) : Out := s.act (fun m => if m.ilk.mods[a].notMeasured then modFail a 2 m else m)
/-- AL_FRAME_SEND. -/
def execAlFrameSend (s : State) : Out := s.act alSend
/-- COLOUR_FEEDBACK. -/
def execColourFeedback (s : State) : Out := s.act feedback
/-- BLINK_TOGGLE of a group. -/
def execBlinkToggle (g : Fin 8) (s : State) : Out := s.act (blink g)

end Sys2Proof.Machine
end

