-- ==== Sys2Proof/Machine/ClockOps.lean ====
section
/-!
DEFINITION. Oscillators, PLLs, source switches, the clock monitor and the forced fallback, clock gates (R677 to R698, R705, R716).
-/

namespace Sys2Proof.Machine

/-- Clocks and power changed. -/
def onClk (f : Clk → Clk) (m : Mach) : Mach := { m with clk := f m.clk }
/-- The AON domain changed. -/
def onAon (f : Aon → Aon) (m : Mach) : Mach := { m with aon := f m.aon }

/-- LOCK bits: root, memory, lane north, lane south, host, spread. -/
def lockRoot : Nat := 0
def lockMem : Nat := 1
def lockNorth : Nat := 2
def lockSouth : Nat := 3
def lockHost : Nat := 4
def lockSpread : Nat := 5

/-- A PLL is locked. -/
def pllLocked (m : Mach) (i : Nat) : Bool := bitOf m.clk.lock i

/-- A LOCK bit written. -/
def setLock (i : Nat) (v : Bool) : Mach → Mach := onClk (fun c => { c with lock := setBit c.lock i v })

/-! ### XTAL32 (R680) -/

/-- XTAL32 shows no edge for 1 ms. -/
def xtalFail (m : Mach) : Mach :=
  if !m.aon.mains then m
  else raise .clk 4 (onAon (fun a => { a with rtcRun := false }) (onClk (fun c => { c with xtalQual := false }) m))

/-- XTAL32 qualifies: the RTC runs, in STANDBY only with RTC_KEEP (R680, R713). -/
def xtalQualified (m : Mach) : Mach :=
  onAon (fun a => { a with rtcRun := a.mains || bitOf a.stby 0 }) (onClk (fun c => { c with xtalQual := true }) m)

/-! ### Clock outputs (R685, R686, R709) -/

/-- CLKOUTc's multiplexer. -/
def Clk.out (k : Clk) (c : Fin 2) : ClkOut := if c = 0 then k.out0 else k.out1
/-- The multiplexer replaced. -/
def Clk.setOut (k : Clk) (c : Fin 2) (x : ClkOut) : Clk := if c = 0 then { k with out0 := x } else { k with out1 := x }

/-- A source of CLKOUT runs: off, REFCLK, the spread PLL, CLK_SYS. -/
def sourceRuns (m : Mach) (src : BitVec 2) : Bool :=
  match src with
  | 1 => m.clk.refQual
  | 2 => pllLocked m lockSpread
  | _ => true

/-- A CLK_OUTc write: refused while a switch is pending; a new SRC begins a switch (DEDUCED, log row 25). -/
def clkOutWrite (p : Port) (c : Fin 2) (v : Word) (m : Mach) : Mach :=
  let x := m.clk.out c
  if x.pend.isSome then accErr p (0xF0010 + 4 * c.val) m
  else
    let src := BitVec.ofNat 2 (fld v 1 0)
    let div := BitVec.ofNat 8 (fld v 15 8)
    onClk (fun k => k.setOut c { x with div := div, pend := if src = x.src then none else some src, stuck := false }) m

/-- A pending switch completes: the old clock and the new one run. -/
def switchDone (c : Fin 2) (m : Mach) : Mach :=
  let x := m.clk.out c
  match x.pend with
  | some s => if sourceRuns m x.src && sourceRuns m s then onClk (fun k => k.setOut c { x with src := s, pend := none, stuck := false }) m else m
  | none => m

/-- A switch has been pending for 1 ms: raised and logged once. -/
def switchStuck (c : Fin 2) (m : Mach) : Mach :=
  let x := m.clk.out c
  if x.pend.isNone || x.stuck then m
  else logClass 0xC c.val [] (raise .clk 2 (onClk (fun k => k.setOut c { x with stuck := true }) m))

/-! ### Clock gates (R695, R696, R710) -/

/-- A CLK_GATE write, by the management port only (R54): masked bits replace REQ; a cleared bit opens its gate. -/
def gateRequest (p : Port) (v : Word) (m : Mach) : Mach :=
  if p = .host then m
  else
    let mask := BitVec.ofNat 14 (fld v 29 16)
    let val := BitVec.ofNat 14 (fld v 13 0)
    onClk (fun k =>
      let req := (k.gateReq &&& ~~~ mask) ||| (val &&& mask)
      { k with gateReq := req, gateClosed := k.gateClosed &&& req }) m

/-- The block's bus port is idle: its gate closes (DEDUCED, log row 46). -/
def gateClose (i : Fin 14) (m : Mach) : Mach :=
  if bitOf m.clk.gateReq i.val then onClk (fun k => { k with gateClosed := setBit k.gateClosed i.val true }) m else m

/-- The port has not been idle for 1,024 cycles: the request lapses. -/
def gateTimeout (i : Fin 14) (m : Mach) : Mach :=
  if !bitOf m.clk.gateReq i.val || bitOf m.clk.gateClosed i.val then m
  else
    let m1 := onClk (fun k => { k with gateReq := setBit k.gateReq i.val false, gateErrs := k.gateErrs + 1 }) m
    logClass 0xC i.val [] (raise .clk 3 m1)

/-! ### Domain reset (R690 to R692) -/

/-- An axis through a domain reset: IDLE at HOLD_AMP at its kept positions, unless it was OFF (DEDUCED, log row 47). -/
def axisReset (m : Mach) (a : Fin 8) : Axis :=
  let x := m.stg[a]
  { st := if x.st = .off then .off else .idle, cmd := x.cmd, meas := x.meas, homeIn := x.homeIn, limP := x.limP, limN := x.limN, limPosP := x.limPosP, limPosN := x.limPosN,
    encA := x.encA, encB := x.encB, posUnknown := x.posUnknown || encType m a ≠ 2, holdAmp := true }

/-- A context through a domain reset: stopped where it stands. -/
def ctxReset (x : Ctx) : Ctx := { st := if x.st = .unused then .unused else .stopped, cell := x.cell, slot := x.slot, hard := x.hard }

/-- The logic of MGMT, CELL-A, CELL-B, BEAM, MEM, LANE-N, LANE-S, HOST and STAGE is reset; what R691 names is kept (DEDUCED, log row 47). -/
def domainReset (m : Mach) : Mach :=
  { m with
    regs := m.regs.filter (fun r => domainOf r.1 = 1 || domainOf r.1 = 3),
    g := { m.g with
      linkUp := false, d3hot := false, pci := {}, host := {}, mgmt := {}, dma := Vector.replicate 4 {}, msix := Vector.replicate 64 {},
      hostAbsent := false, preserve := false, heartbeat := 0, errAddr := 0, winLo := 0, winHi := 0 },
    boot := { m.boot with
      recPend := [], staged := [], rlState := .idle, rlAsked := 0, rlHead := 0, rlResult := 0, cmdOp := 0, cmdResult := 0, updStage := .idle, updResult := 0,
      layerOn := false, attempt := false },
    mem := { m.mem with
      ch0 := { st := if m.mem.trained then .selfRefresh else m.mem.ch0.st }, ch1 := { st := if m.mem.trained then .selfRefresh else m.mem.ch1.st },
      trained := false, sweeping := false, scrubbing := false },
    mgt := { m.mgt with mbState := .idle, netWindow := none, xfer := none, eth0 := { m.mgt.eth0 with linkUp := false }, eth1 := { m.mgt.eth1 with linkUp := false } },
    job := {}, imp := {}, beams := Vector.replicate 12 {}, mpl := Vector.replicate 12 {}, hmap := {}, sig := {},
    cells := { m.cells with
      cells := m.cells.cells.map (fun c => { c with st := if c.st = .shadow then .testing else c.st, trc0 := {}, trc1 := {} }),
      ctx := m.cells.ctx.map ctxReset, subst := none, waiting := [], deepSt := 0, cmdResult := 0, cmdTarget := 0, cmdOp := 0 },
    lanes := Vector.replicate 28 {}, heads := Vector.replicate 16 {},
    stg := Vector.ofFn (axisReset m),
    hlt := { m.hlt with runs := [], laneWait := [], planScan := [], retune := [], notch := [] } }

/-! ### The clock monitor and the fallback (R688 to R694) -/

/-- The monitor acts: CLOCKS has ended, no fallback runs, and the device is not in SHUTDOWN_LATCHED. -/
def monitorActs (m : Mach) : Bool := powered m && m.time.running && m.clk.fallback = .none && m.g.dev ≠ .shutdownLatched

/-- The boot attempt in progress ends with a trip, a full reset or a loss of supply: cause 0xB (R129) (DEDUCED, log row 35). -/
def attemptCut (m : Mach) : Mach :=
  if m.boot.attempt then { m with aon := { m.aon with lastFail := 0xB }, boot := { m.boot with attempt := false } } else m

/-- The clock monitor trips with a TRIP_CAUSE (DEDUCED, log row 47) (DEDUCED, log row 48). -/
def monitorTrip (cause : BitVec 2) (m : Mach) : Mach :=
  if !monitorActs m then m
  else
    let m1 := ilkDrive (onClk (fun k => { k with tripInhibit := true }) m)
    let m2 := onClk (fun k => { k with
      tripCause := cause, rcRun := true, refQual := false, lock := 0, gateReq := 0, gateClosed := 0, fallback := .rcWait }) m1
    let m3 := raise .clk 0 (domainReset (attemptCut m2))
    onTime (fun t => { t with running := false, servo := .free, stepDue := false, within := 0, lanes := Vector.replicate 28 {}, aligned := 0, good := [], bad := [], ptpRx := [] }) m3

/-- The backup RC has qualified: the root takes it. -/
def fallbackRc (m : Mach) : Mach :=
  if m.clk.fallback = .rcWait then onClk (fun k => { k with rcQual := true, rootRef := 3, fallback := .pllWait }) m else m

/-- CLK_EV runs again: an edge of PERMIT that fell without it is stamped late (R586) (DEDUCED, log row 28). -/
def lateStamp (m : Mach) : Mach :=
  if m.ilk.stampWait then onIlk (fun i => { i with inhTime := m.time.dt, inhSub := m.time.sub, stampLate := true, stampWait := false }) m else m

/-- Device time set to a value in 2^-16 ns, rounded up to a tick. -/
def timeSetUp (q : Nat) (m : Mach) : Mach :=
  let r := divUp q tickQ * tickQ
  onTime (fun t => { t with dt := BitVec.ofNat 64 (r / 65536), sub := BitVec.ofNat 16 (r % 65536), running := true }) m

/-- The root PLL locks on the backup RC; `gap` is the time CLK_EV stood, in ns (R694). -/
def fallbackPll (gap : Nat) (m : Mach) : Mach :=
  if m.clk.fallback ≠ .pllWait then m
  else
    let m1 := onTime (fun t => { t with degraded := true }) (timeSetUp (nowQ m + gap * 65536) m)
    lateStamp (onClk (fun k => { k with fallback := .firmwareWait, lock := setBit k.lock lockRoot true }) m1)

/-- CHAMBER contexts with AUTO_START start (R692). -/
def chamberStart (m : Mach) : Mach :=
  eachM ((ctxList m).filter (fun k => match ctxOf m k with | some d => d.owner = 7 && d.autoStart && m.cells.ctx[k].st = .stopped && !m.cells.ctx[k].hard | none => false)) ctxStart m

/-- The restarted firmware has checked its image (R690 to R693). -/
def fallbackFirmware (digestOk : Bool) (m : Mach) : Mach :=
  if m.clk.fallback ≠ .firmwareWait then m
  else if !digestOk then onClk (fun k => { k with fallback := .dead }) m
  else
    let m1 := faultInto chTrip 0xC001 0xFF [BitVec.ofNat 8 m.clk.tripCause.toNat] (onClk (fun k => { k with fallback := .onBackup }) m)
    chamberStart m1

/-- 10 ms have passed without the RC or the PLL: only AON and SAFE act. -/
def fallbackTimeout (m : Mach) : Mach :=
  if m.clk.fallback = .rcWait || m.clk.fallback = .pllWait then onClk (fun k => { k with fallback := .dead }) m else m

/-- The backup RC stops while it is the root reference (R693). -/
def backupStopped (m : Mach) : Mach :=
  if m.clk.rootRef = 3 && m.clk.fallback ≠ .none then
    onTime (fun t => { t with running := false }) (onClk (fun k => { k with fallback := .dead, rcRun := false, rcQual := false, lock := 0 }) (domainReset m))
  else m

/-! ### Loss of lock of the other PLLs (R689) -/

/-- Lanes of a half: false north. -/
def halfLanes (south : Bool) : List (Fin 28) := (List.finRange 28).filter (fun l => decide (14 ≤ l.val) = south)

/-- Every lane of a half leaves UP, and trains from DETECT once its PLL has locked again. -/
def halfDown (south : Bool) (m : Mach) : Mach :=
  eachM ((halfLanes south).filter (fun l => let st := m.lanes[l].st; st = .up || st.trains || st = .detect)) laneDetect m

/-- The rate multipliers stop and the PWM outputs are low. -/
def pwmStop (m : Mach) : Mach := eachM (List.finRange 8) (fun a => onAxis a (fun x => { x with v := 0, acc := 0, inc := 0, vA := 0, vB := 0 })) m

/-- A PLL other than the root loses lock while REFCLK is good: 1 memory, 2 lane north, 3 lane south, 4 host, 5 spread (DEDUCED, log row 49). -/
def pllUnlock (i : Nat) (lost : List (Fin 4 × DmaIn)) (m : Mach) : Mach :=
  if !monitorActs m || !pllLocked m i || i = lockRoot then m
  else
    let m1 := raise .clk 1 (setLock i false m)
    match i with
    | 1 => faultSafeHold 0xC002 0xFF [] m1
    | 2 => halfDown false m1
    | 3 => halfDown true m1
    | 4 => { linkLoss lost m1 with mgt := let g := (linkLoss lost m1).mgt; { g with eth0 := { g.eth0 with linkUp := false }, eth1 := { g.eth1 with linkUp := false } } }
    | _ => faultSafeHold 0xC003 0xFF [] (pwmStop m1)

/-- It locks again: after the spread PLL's, axes hold at HOLD_AMP, with POS_UNKNOWN where no SSI encoder is (DEDUCED, log row 49). -/
def pllRelock (i : Nat) (m : Mach) : Mach :=
  if !monitorActs m || pllLocked m i || i = lockRoot then m
  else
    let m1 := setLock i true m
    if i = lockSpread then
      eachM ((List.finRange 8).filter (fun a => m.stg[a].st ≠ .off))
        (fun a => onAxis a (fun x => { x with holdAmp := true, posUnknown := x.posUnknown || encType m a ≠ 2 })) m1
    else m1

/-! ### Supplies that are watched (R698, R716) -/

/-- VBAT is sampled below 1.8 V. -/
def vbatLow (low : Bool) (m : Mach) : Mach := whenM (low && m.aon.mains) (raise .pwr 1) m

/-- A domain loses power-good while on. -/
def powerGoodLost (d : Fin 12) (m : Mach) : Mach :=
  if !powered m || !domainOn m d.val then m else faultSafeHold 0xC004 d.val [] (raise .pwr 2 m)

/-! ### Commands -/

/-- XTAL32_FAIL. -/
def execXtal32Fail (s : State) : Out := s.act xtalFail
/-- XTAL32_QUALIFIED. -/
def execXtal32Qualified (s : State) : Out := s.act xtalQualified
/-- CLKOUT_SRC_WRITE: a CLK_OUTc write. -/
def execClkoutSrcWrite (p : Port) (c : Fin 2) (v : Word) (s : State) : Out := s.act (writeGate p (0xF0010 + 4 * c.val) (clkOutWrite p c v))
/-- CLKOUT_SWITCH_DONE. -/
def execClkoutSwitchDone (c : Fin 2) (s : State) : Out := s.act (switchDone c)
/-- SWITCH_STUCK. -/
def execSwitchStuck (c : Fin 2) (s : State) : Out := s.act (switchStuck c)
/-- CLK_GATE_REQUEST: a CLK_GATE write. -/
def execClkGateRequest (p : Port) (v : Word) (s : State) : Out := s.act (writeGate p 0xF0020 (gateRequest p v))
/-- GATE_CLOSE. -/
def execGateClose (i : Fin 14) (s : State) : Out := s.act (gateClose i)
/-- GATE_TIMEOUT. -/
def execGateTimeout (i : Fin 14) (s : State) : Out := s.act (gateTimeout i)
/-- CLOCK_MONITOR_TRIP with its TRIP_CAUSE. -/
def execClockMonitorTrip (cause : BitVec 2) (s : State) : Out := s.act (monitorTrip cause)
/-- FALLBACK_RC_QUALIFIED. -/
def execFallbackRcQualified (s : State) : Out := s.act fallbackRc
/-- FALLBACK_PLL_LOCKED with the gap in ns. -/
def execFallbackPllLocked (gap : BitVec 64) (s : State) : Out := s.act (fallbackPll gap.toNat)
/-- FALLBACK_FIRMWARE_READY with the check of the image. -/
def execFallbackFirmwareReady (digestOk : Bool) (s : State) : Out := s.act (fallbackFirmware digestOk)
/-- FALLBACK_TIMEOUT. -/
def execFallbackTimeout (s : State) : Out := s.act fallbackTimeout
/-- BACKUP_RC_STOPPED. -/
def execBackupRcStopped (s : State) : Out := s.act backupStopped
/-- PLL_UNLOCK by LOCK bit. -/
def execPllUnlock (i : Fin 6) (s : State) (lost : List (Fin 4 × DmaIn) := []) : Out := s.act (pllUnlock i.val lost)
/-- PLL_RELOCK by LOCK bit. -/
def execPllRelock (i : Fin 6) (s : State) : Out := s.act (pllRelock i.val)
/-- VBAT_LOW_SAMPLE. -/
def execVbatLowSample (low : Bool) (s : State) : Out := s.act (vbatLow low)
/-- POWER_GOOD_LOST of a domain, in PWR_STATUS order. -/
def execPowerGoodLost (d : Fin 12) (s : State) : Out := s.act (powerGoodLost d)

end Sys2Proof.Machine
end

