-- ==== Sys2Proof/Machine/ResetOps.lean ====
section
/-!
DEFINITION. Supplies, resets and the preserve block (R19, R31, R104 to R107, R667, R699 to R704, R774, R820).
-/

namespace Sys2Proof.Machine

/-! ### What a reset leaves -/

/-- The interlock and lamp controller after a full reset: SAFE keeps the inputs, the input latch, a lamp inhibit and its counters;
module standing and the lighting begin afresh (R581, R598, R704) (DEDUCED, log row 13). -/
def ilkReset (i : Ilk) : Ilk :=
  { a := i.a, b := i.b, latch := i.latch, lampInh := i.lampInh, inhReset := true, inhThermal := i.inhThermal, inhTime := i.inhTime,
    stampLate := i.stampLate, inhSub := i.inhSub, inhCount := i.inhCount, busCrc := i.busCrc, noAnswer := i.noAnswer,
    flooredCount := i.flooredCount, stampWait := i.stampWait }

/-- Entries that no store keeps through a reset are lost; a warm reset keeps the staging region (R771, R774) (DEDUCED, log row 32). -/
def mgtReset (warm : Bool) (g : Mgt) : Mgt :=
  let staged := g.waiting.filter (fun e => !(g.ring.any (fun r => r.seq = e.seq)))
  { nvm := g.nvm, nvmOldest := g.nvmOldest, logFlushed := g.logFlushed,
    waiting := if warm then staged else [],
    logSeq := if warm then g.logSeq - BitVec.ofNat 32 g.ring.length else g.logFlushed + 1,
    eth0 := { los := g.eth0.los }, eth1 := { los := g.eth1.los } }

/-- Pin levels at an axis (DESIGN CHOICE, log row 26). -/
def axisPins (x : Axis) : Axis := { homeIn := x.homeIn, limP := x.limP, limN := x.limN, encA := x.encA, encB := x.encB }

/-- The device after a reset of every domain except AON, and except SAFE unless `power`; flash, fuses and retention stay, layer memory
and the preserve block in a warm reset (DEDUCED, log row 13). -/
def resetMach (dev : DevState) (warm power : Bool) (cause : Nat) (m : Mach) : Mach :=
  { Mach.reset with
    g := { dev := dev, bootWarm := warm, resetCause := BitVec.ofNat 3 cause },
    aon := { m.aon with validAtBoot := m.aon.retValid },
    clk := { xtalQual := m.clk.xtalQual },
    boot := {
      bankA := { cells := m.boot.bankA.cells }, bankB := { cells := m.boot.bankB.cells }, rec0 := m.boot.rec0, rec1 := m.boot.rec1,
      recIn1 := m.boot.recIn1, revFuse := m.boot.revFuse, floorWords := m.boot.floorWords },
    mem := if warm then { cells := m.mem.cells, poison := m.mem.poison, ch0 := { st := .selfRefresh }, ch1 := { st := .selfRefresh } } else {},
    mgt := mgtReset warm m.mgt,
    stg := m.stg.map axisPins,
    ilk := if power then {} else ilkReset m.ilk,
    keep := if warm then m.keep else none,
    regs := if power then [] else m.regs.filter (fun r => domainOf r.1 = 1),
    outs := m.outs,
    free := m.free,
    env := m.env }

/-! ### The preserve block -/

/-- 2^-16 ns in one CLK_AON period (DESIGN CHOICE, log row 8). -/
def aonQ : Nat := 2000000000

/-- 2^-16 ns in one nominal period of the SAFE ring oscillator, 10 MHz (R677). -/
def ringQ : Nat := 6553600

/-- The gap since the reset, in 2^-16 ns: the AON count, or, while XTAL32 has failed, the whole ring oscillator periods rounded up to a
CLK_EV tick and increased by 6 % (R611, R680). -/
def gapQ (m : Mach) : Nat :=
  if m.clk.xtalQual then m.aon.count * aonQ else divUp (divUp (m.aon.gap / ringQ * ringQ) tickQ * tickQ * 106) 100

/-- Device time of a resume, in 2^-16 ns: the saved value plus the gap (R611). -/
def resumeQ (m : Mach) : Nat := m.aon.resetDt.toNat * 65536 + gapQ m

/-- Device time as a reset saves it. -/
def dtSaved (m : Mach) : BitVec 64 := if m.time.running then m.time.dt else BitVec.ofNat 64 (resumeQ m / 65536)

/-- Retention takes the device time of the reset, and the AON count restarts. -/
def retainTime (m : Mach) : Mach := onAon (fun a => { a with resetDt := dtSaved m, count := 0, gap := 0 }) m

/-- The device state that a warm boot returns to (R32). -/
def stateHeld (m : Mach) : DevState := if m.g.dev = .safeHold then m.g.heldBefore else m.g.dev

/-- What R667 saves (DESIGN CHOICE, log row 10) (DEDUCED, log row 44). -/
def preserveOf (m : Mach) (marker : BitVec 64) : Preserved :=
  { marker := marker, dev := stateHeld m, ver := m.boot.ver, job := m.job, imp := m.imp,
    stops := m.beams.toList.map (fun b => (b.stopValid, b.stopX, b.stopY)), axes := m.stg, layerOn := m.boot.layerOn,
    recs := m.boot.recChanged.map (fun id => (id, recWords m id)), map := m.time.map, startAt := m.time.startAt, layerAt := m.time.layerAt,
    layerNo := m.time.layerNo, hmap := m.hmap, logWr := m.mgt.logWr }

/-- A reset with PRESERVE set: whether it is warm, and the device after the steps of R31, R667 and R820 (DESIGN CHOICE, log row 10). -/
def preserveSave (m : Mach) : Bool × Mach :=
  if m.g.dev = .boot then
    if m.g.bootWarm && m.keep.isSome && m.boot.phase ≠ .halted then (true, retainTime m) else (false, m)
  else if m.clk.fallback ≠ .none || !m.mem.trained || m.mem.sweeping || !domainOn m 7 then (false, m)
  else
    let m1 := eachM allBeams (beamStop false) m
    let (r, m2) := drawRandom m1
    let marker := BitVec.ofNat 64 r.toNat
    let m3 := retainTime (onAon (fun a => { a with marker := marker, retValid := true }) m2)
    (true, { m3 with keep := some (preserveOf m3 marker) })

/-! ### Full reset (R103 to R107, R704) -/

/-- A full reset: emission off first, then what PRESERVE asks for, then the reset of every domain except AON and SAFE [R20]. -/
def fullReset (cause : Nat) (held : Bool) (m : Mach) : Mach :=
  if !powered m || m.g.dev = .shutdownLatched || m.g.resetHeld then m
  else
    let m1 := ilkDrive (onIlk (fun i => { i with inhReset := true }) m)
    let (warm, m2) := if m1.g.preserve then preserveSave m1 else (false, m1)
    let m3 := resetMach .boot warm false cause (attemptCut m2)
    { m3 with g := { m3.g with resetHeld := held } }

/-- A GLB_RESET write (R104). -/
def resetKey (p : Port) (v : Word) (m : Mach) : Mach :=
  let opened := (m.g.port p).keyOpen
  let set := fun b => onPort p (fun s => { s with keyOpen := b })
  if v = 0xC0DE then set true m
  else if v = 0xF00D && opened then fullReset 3 false m
  else raise .glb 6 (set false m)

/-- The key window ends (R104). -/
def keyWindowEnd (p : Port) (m : Mach) : Mach :=
  if (m.g.port p).keyOpen then raise .glb 6 (onPort p (fun s => { s with keyOpen := false }) m) else m

/-! ### The test port (R793) -/

/-- The next state of the test port at a rising edge of TCK with TMS; while TRST_N is low it stays in its reset state (R793, IEEE 1149.1).
No row of the spec's table drives TCK (DEDUCED, log row 111). -/
def tapNext (tms : Bool) (a : Aon) : TapState :=
  if !a.trstN then .testLogicReset
  else
    match a.tap with
    | .testLogicReset => if tms then .testLogicReset else .runTestIdle
    | .runTestIdle => if tms then .selectDr else .runTestIdle
    | .selectDr => if tms then .selectIr else .captureDr
    | .captureDr => if tms then .exit1Dr else .shiftDr
    | .shiftDr => if tms then .exit1Dr else .shiftDr
    | .exit1Dr => if tms then .updateDr else .pauseDr
    | .pauseDr => if tms then .exit2Dr else .pauseDr
    | .exit2Dr => if tms then .updateDr else .shiftDr
    | .updateDr => if tms then .selectDr else .runTestIdle
    | .selectIr => if tms then .testLogicReset else .captureIr
    | .captureIr => if tms then .exit1Ir else .shiftIr
    | .shiftIr => if tms then .exit1Ir else .shiftIr
    | .exit1Ir => if tms then .updateIr else .pauseIr
    | .pauseIr => if tms then .exit2Ir else .pauseIr
    | .exit2Ir => if tms then .updateIr else .shiftIr
    | .updateIr => if tms then .selectDr else .runTestIdle

/-! ### Supplies, RESET_N and wake (R19, R699 to R703) -/

/-- A cold boot after power-on: RESET_CAUSE 0 from OFF, 1 from STANDBY. -/
def powerBoot (cause : Nat) (m : Mach) : Mach :=
  let m1 := resetMach .boot false true cause m
  onAon (fun a => { a with rtcRun := m1.clk.xtalQual }) m1

/-- The boot begins if the supplies are there and RESET_N is high (DEDUCED, log row 39). -/
def powerTry (m : Mach) : Mach :=
  if m.aon.mains && m.aon.resetN && (m.g.dev = .off || m.g.dev = .standby) then powerBoot (if m.g.dev = .off then 0 else 1) m else m

/-- VBAT rises above its minimum: AON is reset. -/
def vbatRise (m : Mach) : Mach :=
  if m.aon.vbat then m
  else
    let m1 := { m with aon := { mains := m.aon.mains, resetN := m.aon.resetN, refSel := m.aon.refSel, trstN := m.aon.trstN, tap := m.aon.tap,
                                vbat := true, pwrReq := true, retValid := false } }
    if m1.g.dev = .off then { m1 with g := { m1.g with dev := .standby }, clk := { m1.clk with domains := 1 } } else m1

/-- VBAT falls below its minimum: retention is lost in STANDBY. -/
def vbatFall (m : Mach) : Mach :=
  let m1 := onAon (fun a => { a with vbat := false }) m
  if m1.g.dev = .standby then
    { m1 with g := { m1.g with dev := .off }, clk := { m1.clk with domains := 0 },
              aon := { vbat := false, mains := m1.aon.mains, resetN := m1.aon.resetN, refSel := m1.aon.refSel, trstN := m1.aon.trstN, tap := m1.aon.tap,
                       pwrReq := false } }
  else m1

/-- The main supplies reach operating conditions; REFSEL is sampled (R794) (DEDUCED, log row 111). -/
def mainUp (refSel : Bool) (m : Mach) : Mach := if m.aon.mains then m else powerTry (onAon (fun a => { a with mains := true, refSel := refSel }) m)

/-- The main supplies are lost: the cause is recorded while AON holds, except after a thermal shutdown or a STANDBY command
(DEDUCED, log row 33). -/
def mainLoss (m : Mach) : Mach :=
  if !m.aon.mains then m
  else
    let known := m.g.dev = .shutdownLatched || m.g.dev = .standby || m.g.dev = .off
    let m1 := attemptCut m
    let a := { m1.aon with mains := false, shutdown := if known then m1.aon.shutdown else 2, rtcRun := m1.aon.rtcRun && bitOf m1.aon.stby 0 }
    let m2 := { m1 with aon := if m1.aon.vbat then a else { vbat := false, mains := false, resetN := a.resetN, refSel := a.refSel, trstN := a.trstN,
                                                            tap := a.tap, pwrReq := false } }
    let m3 := resetMach (if m1.aon.vbat then .standby else .off) false true 0 m2
    { m3 with clk := { m3.clk with domains := if m1.aon.vbat then 1 else 0, rcRun := false, rcQual := false } }

/-- PWR_REQ rises; if the main supplies are still present a cold boot begins at once (R701). -/
def wake (m : Mach) : Mach := powerTry (onAon (fun a => { a with pwrReq := true }) m)

/-- A request to wake in STANDBY, or during the standby sequence (R705) (DEDUCED, log row 38). -/
def wakeRequest (m : Mach) : Mach :=
  if m.g.dev = .standby then wake m
  else if m.clk.standby = .waiting then onClk (fun k => { k with standby := .woken }) m
  else m

/-- An edge at WAKE: rising or falling (DEDUCED, log row 39). -/
def wakeEdge (rising : Bool) (m : Mach) : Mach :=
  let sel := fld m.aon.stby 3 2
  if bitOf m.aon.stby 1 && (sel = 2 || (sel = 0 && rising) || (sel = 1 && !rising)) then wakeRequest m else m

/-- The RTC reaches the alarm. -/
def rtcAlarm (m : Mach) : Mach := if bitOf m.aon.stby 4 && m.aon.rtcRun && m.g.dev = .standby then wake m else m

/-- RESET_N goes low for 1 µs or longer; while it is low the device stays in reset. -/
def resetNLow (m : Mach) : Mach := onAon (fun a => { a with resetN := false }) (fullReset 2 true m)

/-- The xSPI outputs are high-impedance (R113). -/
def xspiReleased (m : Mach) : Bool := !m.aon.resetN

/-- Bytes in the canonical form of a bank: an erased byte is not listed. -/
def bankCells (cs : List Host.Cell) : List Host.Cell := cs.foldl (fun l c => put (fun _ => 0xFF#8) l c.1 c.2) []

/-- While RESET_N is low, an external programmer may have driven the flash: its banks and boot record sectors hold what it wrote (R113). -/
def flashDriven (f : FlashIn) (m : Mach) : Mach :=
  if !xspiReleased m then m
  else
    { m with boot := { m.boot with
        bankA := { m.boot.bankA with cells := bankCells f.bankA }, bankB := { m.boot.bankB with cells := bankCells f.bankB },
        rec0 := f.rec0, rec1 := f.rec1, recIn1 := decide (1024 ≤ f.rec0.length) && decide (f.rec1.length < 1024) } }

/-- RESET_N rises: the boot begins, with the flash as an external programmer has left it. -/
def resetNRise (flash : Option FlashIn) (m0 : Mach) : Mach :=
  let m := match flash with | some f => flashDriven f m0 | none => m0
  powerTry { m with aon := { m.aon with resetN := true }, g := { m.g with resetHeld := false } }

/-! ### Device commands (R19, R71, R72, R699) -/

/-- Entry into BUILDING or PROOF: the inhibit of a reset clears on entry into BUILDING (R581), and host-absent mode begins with no host
present (R37). -/
def buildEnter (dev : DevState) (cause : Nat) (m : Mach) : Mach :=
  let m1 := whenM (dev = .building) (onIlk (fun i => { i with inhReset := false })) m
  devMove dev cause m1

/-- What of the job block outlives a START: the queue, the commit registers, and an ABORT whose beams still stop. -/
def jobFresh (j : Job) : Job :=
  { slots := j.slots, queue := j.queue, commitLo := j.commitLo, commitHi := j.commitHi, commitFront := j.commitFront,
    commitResult := j.commitResult, commitSlot := j.commitSlot, commitSeq := j.commitSeq, commitWhere := j.commitWhere, spread := j.spread,
    active := j.active, aborting := j.aborting }

/-- START: the job enters IDLE (R19, R39, R228, R382, R625) (DEDUCED, log row 38). -/
def glbStart (proof : Bool) (m : Mach) : Mach :=
  if m.g.dev ≠ .configured || m.clk.standby ≠ .none then cmdError m
  else
    let m1 := hmStart { m with job := jobFresh m.job }
    let m2 := buildEnter (if proof then .proof else .building) chStart (onTime (fun t => { t with startAt := some m.time.dt }) m1)
    let m3 := jobMove .idle 0 m2
    jobTest (whenM (!hostPresent m3) (hostAbsentBegin (if m3.g.linkUp && !m3.g.d3hot then 0 else 1)) m3)

/-- END: the job state machine stops; the forme of an ABORT that has not settled stays ACTIVE until the beams have stopped (R19, R23, R207,
R227) (DEDUCED, log row 44). -/
def glbEnd (m : Mach) : Mach :=
  if inBuild m && (m.job.st = .idle || m.job.st = .finished || m.job.st = .aborted) then
    layerOver (devMove .configured chEnd (onJob (fun j => { j with st := .none, causes := 0 }) m))
  else cmdError m

/-- STANDBY: heads parked, axes stopped at DEC_MAX; the sequence waits for them (R699) (DEDUCED, log row 38) (DEDUCED, log row 93). -/
def glbStandby (m : Mach) : Mach :=
  if m.g.dev ≠ .configured || m.clk.standby ≠ .none then cmdError m
  else onClk (fun k => { k with standby := .waiting, standbyAt := nowQ m }) (axesHalt (eachM (List.finRange 16) (parkSend 4) m))

/-- The wait of R699 is over: no axis moves, or 100 ms have passed. -/
def standbyReady (m : Mach) : Bool :=
  (List.finRange 8).all (fun a => !axMoving m.stg[a].st) || decide (m.clk.standbyAt + 100000000 * 65536 ≤ nowQ m)

/-- Steps 3 to 6 of R699, with the wake that R705 keeps for their end. -/
def standbyGo (m : Mach) : Mach :=
  if m.g.dev ≠ .configured || m.clk.standby = .none || !standbyReady m then m
  else
    let woken := m.clk.standby = .woken
    let m1 := logFlush false (log 0x0010 sevInfo 0xFF [3, 1, BitVec.ofNat 8 chStandby] m)
    let m2 := onAon (fun a => { a with shutdown := 3, pwrReq := false, rtcRun := a.rtcRun && bitOf a.stby 0 }) m1
    let m3 := onClk (fun k => { k with domains := 3 }) (resetMach .standby false false 0 m2)
    if woken then wake m3 else m3

/-- SAFE_HOLD by command. -/
def glbSafeHold (m : Mach) : Mach := if inWork m then enterSafe false chSafeHold m else cmdError m

/-- A GLB_CMD write (R71, R72). -/
def glbCmd (w : Word) (m : Mach) : Mach :=
  if fld w 31 24 ≠ 0xA6 || fld w 23 9 ≠ 0 || fld w 7 4 ≠ 0 then cmdError m
  else
    match fld w 3 0 with
    | 1 => glbStart (bitOf w 8) m
    | 2 => glbEnd m
    | 3 => glbStandby m
    | 4 => glbSafeHold m
    | _ => cmdError m

/-! ### Commands -/

/-- VBAT_RISE. -/
def execVbatRise (s : State) : Out := s.act vbatRise
/-- VBAT_FALL. -/
def execVbatFall (s : State) : Out := s.act vbatFall
/-- MAIN_SUPPLY_UP, with the level of REFSEL (R794). -/
def execMainSupplyUp (s : State) (refSel : Bool := false) : Out := s.act (mainUp refSel)
/-- MAIN_SUPPLY_LOSS. -/
def execMainSupplyLoss (s : State) : Out := s.act mainLoss
/-- WAKE_EDGE. -/
def execWakeEdge (rising : Bool) (s : State) : Out := s.act (wakeEdge rising)
/-- RTC_ALARM. -/
def execRtcAlarm (s : State) : Out := s.act rtcAlarm
/-- RESET_N_LOW. -/
def execResetNLow (s : State) : Out := s.act resetNLow
/-- RESET_N_RISE, with what an external programmer has left in the flash (R113). -/
def execResetNRise (s : State) (flash : Option FlashIn := none) : Out := s.act (resetNRise flash)
/-- RESET_KEY_OPEN: 0xC0DE to GLB_RESET. -/
def execResetKeyOpen (p : Port) (s : State) : Out := s.act (writeGate p 0x28 (resetKey p 0xC0DE))
/-- RESET_KEY_CONFIRM: 0xF00D to GLB_RESET. -/
def execResetKeyConfirm (p : Port) (s : State) : Out := s.act (writeGate p 0x28 (resetKey p 0xF00D))
/-- RESET_KEY_INVALID: any other value to GLB_RESET. -/
def execResetKeyInvalid (p : Port) (v : Word) (s : State) : Out := s.act (writeGate p 0x28 (resetKey p v))
/-- RESET_KEY_WINDOW_END. -/
def execResetKeyWindowEnd (p : Port) (s : State) : Out := s.act (keyWindowEnd p)
/-- GLB_START: GLB_CMD with OP 0x1. -/
def execGlbStart (p : Port) (hi : BitVec 28) (s : State) (env : Env := {}) : Out := s.act (withEnv env (writeGate p 0x20 (glbCmd (opWord hi 1))))
/-- GLB_END: OP 0x2. -/
def execGlbEnd (p : Port) (hi : BitVec 28) (s : State) : Out := s.act (writeGate p 0x20 (glbCmd (opWord hi 2)))
/-- GLB_STANDBY: OP 0x3. -/
def execGlbStandby (p : Port) (hi : BitVec 28) (s : State) : Out := s.act (writeGate p 0x20 (glbCmd (opWord hi 3)))
/-- STANDBY_SEQUENCE_RESUME. -/
def execStandbySequenceResume (s : State) : Out := s.act standbyGo
/-- GLB_SAFE_HOLD: OP 0x4. -/
def execGlbSafeHold (p : Port) (hi : BitVec 28) (s : State) : Out := s.act (writeGate p 0x20 (glbCmd (opWord hi 4)))

end Sys2Proof.Machine
end

