-- ==== Sys2Proof/Machine/StageOps.lean ====
section
/-!
DEFINITION. The stage commands and events (10 of spec/).
-/

namespace Sys2Proof.Machine

/-! ### STGa_CMD (R533, R574) -/

/-- STGa_CMD_STATUS after a command. -/
def stgStatus (a : Fin 8) (op result : Nat) : Mach → Mach :=
  onAxis a (fun x => { x with cmdResult := BitVec.ofNat 4 result, cmdOp := BitVec.ofNat 4 op })

/-- A refused axis command: its result, CMD_ERROR and CMD_REFUSED (R574). -/
def stgRefuse (a : Fin 8) (op result : Nat) (m : Mach) : Mach := refuse (.stg a) 10 (stgStatus a op result m)

/-- The axis is named in the JOB record, and the job is MAKE_READY or EXPOSING (R533). -/
def jobOwned (m : Mach) (a : Fin 8) : Bool :=
  let w := recWord m recJob 0
  inBuild m && (m.job.st = .makeReady || m.job.st = .exposing) &&
  (fld w 3 0 = a.val || fld w 7 4 = a.val || fld w 11 8 = a.val)

/-- A move command to a target in nm: its checks in turn, then the move (R521, R533, R550). -/
def stgMove (a : Fin 8) (op : Nat) (goal : Int) (m : Mach) : Mach :=
  let ax := m.stg[a]
  if ax.st = .off then stgRefuse a op 8 m
  else if !inWork m then stgRefuse a op 3 m
  else if ax.st ≠ .idle then stgRefuse a op 2 m
  else if jobOwned m a then stgRefuse a op 4 m
  else
    match moveCheck m a goal with
    | 1 => stgStatus a op 1 (moveBegin goal none a m)
    | r =>
      let m1 := stgRefuse a op r m
      if ax.limP && ax.limN then raise (.stg a) 9 m1 else m1

/-- STOP (R531, R533, R554). -/
def stgStop (a : Fin 8) (m : Mach) : Mach :=
  let ax := m.stg[a]
  if ax.st = .off then stgRefuse a 3 8 m
  else if !(inWork m || m.g.dev = .safeHold) then stgRefuse a 3 3 m
  else
    let m1 := if ax.st = .homing then homeAbort 4 a m else axStop false true a m
    stgStatus a 3 1 m1

/-- RESUME (R532, R533). -/
def stgResume (a : Fin 8) (m : Mach) : Mach :=
  let ax := m.stg[a]
  if ax.st ≠ .off && inWork m && ax.st = .idle && !jobOwned m a && ax.remain.isNone then stgRefuse a 4 7 m
  else stgMove a 4 ax.goal m

/-- HOME (R533, R552). -/
def stgHome (a : Fin 8) (m : Mach) : Mach :=
  let ax := m.stg[a]
  if ax.st = .off then stgRefuse a 5 8 m
  else if !inWork m then stgRefuse a 5 3 m
  else if ax.st ≠ .idle then stgRefuse a 5 2 m
  else if jobOwned m a then stgRefuse a 5 4 m
  else stgStatus a 5 1 (homeBegin a m)

/-- CLEAR: FAULT to IDLE; REMAIN is discarded after an encoder fault (R531, R562, R574). -/
def stgClear (a : Fin 8) (m : Mach) : Mach :=
  let ax := m.stg[a]
  if ax.st = .off then stgRefuse a 6 8 m
  else if !(inWork m || m.g.dev = .safeHold) || ax.st ≠ .fault then stgRefuse a 6 3 m
  else stgStatus a 6 1 (onAxis a (fun x => { x with st := .idle, faultCause := 0, ssiBad := 0,
                                                    remain := if x.faultCause = 1 then x.remain else none }) m)

/-- CMP_CLEAR empties the list (R558). -/
def stgCmpClear (a : Fin 8) (m : Mach) : Mach :=
  if m.stg[a].st = .off then stgRefuse a 7 8 m
  else if !inWork m then stgRefuse a 7 3 m
  else stgStatus a 7 1 (onAxis a (fun x => { x with cmp := { x.cmp with list := [], idx := 0, missed := false, missedIdx := 0, fired := 0 } }) m)

/-- STGa_TARGET as a signed number. -/
def stgTarget (m : Mach) (a : Fin 8) : Int := (regGet m (0xB0008 + 0x800 * a.val)).toInt

/-- A STGa_CMD write (DEDUCED, log row 97). -/
def stgCmd (a : Fin 8) (w : Word) (m : Mach) : Mach :=
  if fld w 31 24 ≠ 0x57 || fld w 23 4 ≠ 0 then refuse (.stg a) 10 m
  else
    match fld w 3 0 with
    | 1 => stgMove a 1 (stgTarget m a) m
    | 2 => stgMove a 2 (posCmd m a + stgTarget m a) m
    | 3 => stgStop a m
    | 4 => stgResume a m
    | 5 => stgHome a m
    | 6 => stgClear a m
    | 7 => stgCmpClear a m
    | _ => refuse (.stg a) 10 m

/-- A STGa_CMP_PUSH write appends an entry; a full list refuses it (R555, R558, R577). -/
def cmpPush (a : Fin 8) (w : Word) (m : Mach) : Mach :=
  let d := fld w 1 0
  if fld w 31 24 ≠ 0x6D || fld w 23 8 ≠ 0 || d = 0 || d = 3 then refuse (.stg a) 10 m
  else if 64 ≤ m.stg[a].cmp.list.length then raise (.stg a) 10 m
  else
    let e : CmpEnt := ⟨(regGet m (0xB0080 + 0x800 * a.val)).toInt, decide (d = 1), fld w 5 4⟩
    let empty := m.stg[a].cmp.list = []
    let m1 := onAxis a (fun x => { x with cmp := { x.cmp with list := x.cmp.list ++ [e] } }) m
    if empty then cmpArm a m1 else m1

/-- STGa_CMD, offset 0x0B_0004 + 0x800 a. -/
def offStgCmd (a : Fin 8) : Nat := 0xB0004 + 0x800 * a.val

/-- MOVE_ABS: a STGa_CMD write with OP 0x1. -/
def execMoveAbs (p : Port) (a : Fin 8) (hi : BitVec 28) (s : State) : Out := s.act (writeGate p (offStgCmd a) (stgCmd a (opWord hi 1)))
/-- MOVE_REL: OP 0x2. -/
def execMoveRel (p : Port) (a : Fin 8) (hi : BitVec 28) (s : State) : Out := s.act (writeGate p (offStgCmd a) (stgCmd a (opWord hi 2)))
/-- STOP: OP 0x3. -/
def execAxisStop (p : Port) (a : Fin 8) (hi : BitVec 28) (s : State) : Out := s.act (writeGate p (offStgCmd a) (stgCmd a (opWord hi 3)))
/-- RESUME: OP 0x4. -/
def execAxisResume (p : Port) (a : Fin 8) (hi : BitVec 28) (s : State) : Out := s.act (writeGate p (offStgCmd a) (stgCmd a (opWord hi 4)))
/-- HOME: OP 0x5. -/
def execHome (p : Port) (a : Fin 8) (hi : BitVec 28) (s : State) : Out := s.act (writeGate p (offStgCmd a) (stgCmd a (opWord hi 5)))
/-- CLEAR: OP 0x6. -/
def execClear (p : Port) (a : Fin 8) (hi : BitVec 28) (s : State) : Out := s.act (writeGate p (offStgCmd a) (stgCmd a (opWord hi 6)))
/-- CMP_CLEAR: OP 0x7. -/
def execCmpClear (p : Port) (a : Fin 8) (hi : BitVec 28) (s : State) : Out := s.act (writeGate p (offStgCmd a) (stgCmd a (opWord hi 7)))
/-- CMP_PUSH: a STGa_CMP_PUSH write. -/
def execCmpPush (p : Port) (a : Fin 8) (v : Word) (s : State) : Out := s.act (writeGate p (0xB0084 + 0x800 * a.val) (cmpPush a v))

/-! ### The profile generator (R522 to R530) -/

/-- INC of the rate multiplier at speed `v` (R524). -/
def incOf (m : Mach) (a : Fin 8) (v : Nat) : Nat :=
  let den := 10 ^ 6 * ustep m a * 2 * 10 ^ 8
  min ((2 * v * 65536 * 2 ^ 48 + den) / (2 * den)) ((2 * 2 ^ 48 + 100) / 200)

/-- V_MAX of the present motion, in 10^-6 nm/s: of STG_MOTION, or the lower stroke speed (R522, R823). -/
def motionMax (m : Mach) (a : Fin 8) : Nat :=
  let v := (recWord m (recStgMotion a) 0).toNat
  (match m.stg[a].bound with | some b => min b v | none => v) * 10 ^ 9

/-- A pending STG_MOTION commit is taken: a new DEC applies to the ramp or move in progress only if it can still stop in
time, otherwise DEC_KEPT (R527 to R530, R565). -/
def motionTake (a : Fin 8) (m0 : Mach) : Mach :=
  if (pendingOf m0 (recStgMotion a)).isNone then m0
  else
    let m := takeRecord (recStgMotion a) m0
    let ax := m.stg[a]
    let d := (recWord m (recStgMotion a) 2).toNat
    let j := (recWord m (recStgMotion a) 4).toNat
    let rem := match ax.st with
      | .moving => (ax.target - ax.cmd).natAbs * ustep m a
      | _ => (ax.rampEnd - ax.cmd).natAbs * ustep m a
    if !(ax.st = .moving || (ax.st = .stopping && !ax.stopMax)) || d = ax.dec then m
    else if brakeQ ax.v d j ≤ rem then onAxis a (fun x => { x with dec := d, hold := x.decel && decide (x.v ≤ motionMax m a), decel := false }) m
    else raise (.stg a) 5 (onAxis a (fun x => { x with decKept := true, decKeptN := x.decKeptN + 1 }) m)

/-- The acceleration asked for at this update, in nm/s² (R522, R523). -/
def wantAcc (vmax v acc dec j rem : Nat) (present : Int) : Int :=
  let up : Int := acc * 10 ^ 6
  let down : Int := -(dec * 10 ^ 6)
  let out := fun (v0 : Nat) => j ≠ 0 && decide (present < 0) && decide ((v : Int) ≤ v0 + present * present / (2 * j))
  if rem < v / 10 ^ 12 * 65536 + v % 10 ^ 12 * 65536 / 10 ^ 12 + brakeQ v dec j then (if out 0 then 0 else down)
  else if vmax < v then (if out vmax then 0 else down)
  else if j ≠ 0 && decide ((vmax : Int) ≤ v + present * present / (2 * j)) then 0
  else if v = vmax then 0
  else
    let v' := v + acc * 10 ^ 6
    if rem < v' / 10 ^ 12 * 65536 + v' % 10 ^ 12 * 65536 / 10 ^ 12 + brakeQ v' dec j then 0 else up

/-- The new acceleration and speed of one update: a change of acceleration is ramped at JERK (R522). -/
def nextSpeed (vmax v acc dec j rem : Nat) (present : Int) : Int × Nat :=
  let w := wantAcc vmax v acc dec j rem present
  let a' := if j = 0 then w else clampI (present - j) (present + j) w
  let v' := ((v : Int) + a').toNat
  let v1 := if 0 < a' then min v' (max v vmax) else if v ≤ vmax then max v' (min v (dec * 10 ^ 6)) else max v' vmax
  (a', v1)

/-- A ramp down to rest: at DEC_MAX a trapezoid without jerk limit (R526). -/
def rampSpeed (v dec : Nat) : Nat := v - dec * 10 ^ 6

/-- One update of a ramp to rest at DEC, every change of acceleration ramped at JERK: the new acceleration and speed (R522, R531). -/
def stopSpeed (v dec j : Nat) (present : Int) : Int × Nat :=
  if j = 0 then (-(dec * 10 ^ 6), rampSpeed v dec)
  else
    let w : Int := if present < 0 && decide ((v : Int) ≤ present * present / (2 * j)) then 0 else -(dec * 10 ^ 6)
    let a := clampI (present - j) (present + j) w
    (a, if present < 0 then ((v : Int) + min a (-j)).toNat else ((v : Int) + a).toNat)

/-- The update before a speed must fall: the distance of 1 µs and the braking distance fit in what remains (R523). -/
def mayHold (v dec j rem : Nat) : Bool := decide (v / 10 ^ 12 * 65536 + v % 10 ^ 12 * 65536 / 10 ^ 12 + brakeQ v dec j ≤ rem)

/-- One update of a homing step: decelerating to rest and on to the next step, or accelerating to the step's speed
(R552, R554) (DEDUCED, log row 97). -/
def homingUpdate (a : Fin 8) (h : Homing) (m : Mach) : Mach :=
  let ax := m.stg[a]
  let lim := (recWord m (recStgHome a) 4).toNat
  if decide (lim < (stepNm m a (ax.cmd - h.start)).natAbs) then homeAbort 3 a m
  else if ax.decel then
    let v := rampSpeed ax.v ax.decMax
    if v ≠ 0 then onAxis a (fun x => { x with v := v, inc := incOf m a v }) m
    else if h.step = .finish then homeEnd a m
    else onAxis a (fun x => { x with v := 0, inc := 0, decel := false, dirPos := homeDir m a h h.step }) m
  else
    let w := if h.step = .clear || h.step = .seek then recWord m (recStgHome a) 1 else recWord m (recStgHome a) 2
    let w' := if h.mode = 3 then recWord m (recStgHome a) 2 else w
    let vmax := w'.toNat * 10 ^ 9
    let v := min vmax (ax.v + (recWord m (recStgMotion a) 1).toNat * 10 ^ 6)
    onAxis a (fun x => { x with v := v, inc := incOf m a v }) m

/-- 1 µs of the rate multiplier is over: 200 cycles have entered its accumulator (R524). -/
def rateTick (a : Fin 8) (m : Mach) : Mach := onAxis a (fun x => { x with phase := (x.phase + 200 * x.inc) % 2 ^ 48, steps := 0 }) m

/-- The profile update of one axis, every 1 µs. -/
def profileUpdate (a : Fin 8) (m0 : Mach) : Mach :=
  let m := motionTake a (rateTick a m0)
  let ax := m.stg[a]
  match ax.st with
  | .moving =>
    let mot := recWords m (recStgMotion a)
    let rem := (ax.target - ax.cmd).natAbs * ustep m a
    let hold := ax.hold && decide (ax.v ≤ motionMax m a) && mayHold ax.v ax.dec (mot.getD 4 0).toNat rem
    let (acc, v) := if hold then (0, ax.v) else nextSpeed (motionMax m a) ax.v (mot.getD 1 0).toNat ax.dec (mot.getD 4 0).toNat rem ax.acc
    if rem = 0 then onAxis a (fun x => { x with v := 0, inc := 0, acc := 0 }) m
    else onAxis a (fun x => { x with v := v, acc := acc, inc := incOf m a v, decel := decide (acc < 0), hold := hold }) m
  | .stopping =>
    if ax.stopMax then
      let v := rampSpeed ax.v ax.decMax
      onAxis a (fun x => { x with v := v, inc := incOf m a v }) m
    else
      let rem := (ax.rampEnd - ax.cmd).natAbs * ustep m a
      let j := (recWord m (recStgMotion a) 4).toNat
      let hold := ax.hold && mayHold ax.v ax.dec j rem
      let (acc, v) := if hold then (0, ax.v) else stopSpeed ax.v ax.dec j ax.acc
      onAxis a (fun x => { x with v := v, acc := acc, inc := incOf m a v, decel := !hold, hold := hold }) m
  | .homing => match ax.homing with | some h => homingUpdate a h m | none => m
  | _ => m

/-- The rate multiplier's accumulator carries once more in the 200 cycles after the last update (R524). -/
def carries (ax : Axis) : Bool := decide (ax.steps < (ax.phase + 200 * ax.inc) / 2 ^ 48)

/-- A carry: one microstep, unless the axis is at rest or at its target; the microstep that reaches the target sets the
speed to 0 (R524, R525). -/
def microstep (a : Fin 8) (m : Mach) : Mach :=
  let ax := m.stg[a]
  let tgt : Option Int := match ax.st with
    | .moving => some ax.target
    | .stopping => if ax.remain.isSome then some ax.remainTarget else none
    | _ => none
  if !axMoving ax.st || !carries ax || tgt = some ax.cmd then m
  else
    let m1 := oneStep a (onAxis a (fun x => { x with steps := x.steps + 1 }) m)
    if tgt = some m1.stg[a].cmd then onAxis a (fun x => { x with v := 0, inc := 0, acc := 0 }) m1 else m1

/-- The move ends at its target (R525, R531, R562). -/
def targetReached (a : Fin 8) (m : Mach) : Mach :=
  let ax := m.stg[a]
  if ax.st = .moving && decide (ax.cmd = ax.target) then
    raise (.stg a) 0 (moveEnded a (onAxis a (fun x => { x with st := .idle, v := 0, inc := 0, acc := 0 }) m))
  else m

/-- A make-ready move that waited for its axis to stop goes on (R219). -/
def moveOn (a : Fin 8) (m : Mach) : Mach :=
  if a ∈ m.job.mrPending && m.stg[a].st = .idle then
    let m1 := onJob (fun j => { j with mrPending := j.mrPending.filter (fun x => x ≠ a) }) m
    match m.job.mrTargets.find? (fun t => t.1 = a) with
    | some (_, t) => if m.stg[a].cmd = nmStep m a t then m1 else jobMoveAxis t (match m.job.mrStep with | 2 => some m.job.params.recoat | 3 => some m.job.params.ret | _ => none) a m1
    | none => m1
  else m

/-- A stopping axis whose speed is 0 is at rest. -/
def atRest (a : Fin 8) (m : Mach) : Mach :=
  if m.stg[a].st = .stopping && m.stg[a].v = 0 then moveOn a (axAtRest a m) else m

/-- PROFILE_UPDATE. -/
def execProfileUpdate (a : Fin 8) (s : State) : Out := s.act (profileUpdate a)
/-- MICROSTEP. -/
def execMicrostep (a : Fin 8) (s : State) : Out := s.act (microstep a)
/-- AXIS_TARGET_REACHED. -/
def execAxisTargetReached (a : Fin 8) (s : State) : Out := s.act (targetReached a)
/-- AXIS_AT_REST. -/
def execAxisAtRest (a : Fin 8) (s : State) : Out := s.act (atRest a)

/-! ### Encoders (R538 to R544) -/

/-- The speed window in ns: SPD_WIN, for an SSI axis the whole SSI periods in it (R543, R544) (DEDUCED, log row 98). -/
def speedWin (m : Mach) (a : Fin 8) : Nat :=
  let w := (recWord m (recStgGuard a) 7).toNat * 1000
  let p := (recWord m (recStgAxis a) 4).toNat
  if encType m a = 2 then max 1 (w / max 1 p) * p else w

/-- Counts of the speed window back from now. -/
def winCounts (m : Mach) (a : Fin 8) : List (Nat × Int) := m.stg[a].hist.filter (fun e => decide (now m < e.1 + speedWin m a))

/-- WINDOW speed: net count over the window, in nm/s. -/
def winSpeed (m : Mach) (a : Fin 8) : Int :=
  let net := (winCounts m a).foldl (fun s e => s + e.2) (0 : Int)
  divR (sgnOf (recFld m (recStgAxis a) 0 4 4 = 1) * net * encNm m a * 10 ^ 9) (65536 * max 1 (speedWin m a))

/-- PERIOD speed for a period in ns (DEDUCED, log row 98). -/
def perSpeed (m : Mach) (a : Fin 8) (up : Bool) (ns : Nat) : Int :=
  if ns = 0 then 0 else divR (sgnOf (recFld m (recStgAxis a) 0 4 4 = 1) * (if up then 1 else -1) * encNm m a * 10 ^ 9) (65536 * ns)

/-- The speed mode changes at SW_UP and SW_DN counts/s (R543). -/
def speedMode (m : Mach) (a : Fin 8) : Bool :=
  let ax := m.stg[a]
  let cps := fun (x : Int) => (x.natAbs * 65536) / max 1 (encNm m a)
  if ax.window then decide ((recWord m (recStgGuard a) 6).toNat ≤ cps (winSpeed m a))
  else decide ((recWord m (recStgGuard a) 5).toNat < cps ax.speed)

/-- The measured speed at present: in PERIOD mode it falls once the time since the last count exceeds the last period
(R543, R544) (DEDUCED, log row 98). -/
def speedNow (m : Mach) (a : Fin 8) : Int :=
  let ax := m.stg[a]
  if ax.window || encType m a = 2 then winSpeed m a
  else
    match ax.lastAt with
    | some (t, up) => if ax.period < now m - t && ax.speed ≠ 0 then perSpeed m a up (now m - t) else ax.speed
    | none => ax.speed

/-- Net counts enter the measured position, with what follows a count: speed, compare, pulse dividers (DEDUCED, log row 98). -/
def encCounts (a : Fin 8) (n : Int) (m : Mach) : Mach :=
  let old := cmpPos m a
  let up := decide (0 < n)
  let per := match m.stg[a].lastAt with
    | some (t, u) => if u = up then (now m - t) / 5 * 5 else 0
    | none => 0
  let m1 := onAxis a (fun x => { x with meas := x.meas + n, hist := ((now m, n) :: winCounts m a), lastAt := some (now m, up), period := per,
                                        speed := if x.window then x.speed else perSpeed m a up per }) m
  let m2 := onAxis a (fun x => { x with window := speedMode m1 a || encType m1 a = 2 }) m1
  let m3 := onAxis a (fun x => { x with speed := speedNow m2 a }) m2
  let m4 := cmpCross a old m3
  if n.natAbs = 1 then encOutSource a false n m4
  else eachM (List.range (min n.natAbs 65536)) (fun _ => encOutSource a false (if up then 1 else -1)) m4

/-- An accepted sample of the quadrature inputs; A leading B counts up (R539, R540, log row 34). -/
def quadStep (a : Fin 8) (la lb : Bool) (m : Mach) : Mach :=
  let ax := m.stg[a]
  if encType m a ≠ 1 || ax.st = .off then m
  else
    let da := la != ax.encA
    let db := lb != ax.encB
    let m1 := onAxis a (fun x => { x with encA := la, encB := lb }) m
    if da && db then
      raise (.stg a) 6 (onAxis a (fun x => { x with quadErr := x.quadErr + 1,
                                                    qerrAt := now m :: x.qerrAt.filter (fun t => decide (now m < t + 1000000)) }) m1)
    else if da then encCounts a (if la != lb then 1 else -1) m1
    else if db then encCounts a (if la = lb then 1 else -1) m1
    else m

/-- More than QERR_MAX double transitions within 1 ms: a fault with cause QUAD (R540). -/
def quadLimit (a : Fin 8) (m : Mach) : Mach :=
  let n := (m.stg[a].qerrAt.filter (fun t => decide (now m < t + 1000000))).length
  if recFld m (recStgGuard a) 1 23 16 < n then encFault 2 a m else m

/-- An active Z edge (R541), which may end a homing seek (R552, R565). -/
def indexEdge (a : Fin 8) (m : Mach) : Mach :=
  if m.stg[a].st = .off then m
  else
    let m1 := raise (.stg a) 7 (onAxis a (fun x => { x with indexPos := posMeas m a }) m)
    match m1.stg[a].homing with
    | some h =>
      if h.step = .index && !m1.stg[a].decel then homeNext .finish a (homeLatch m1.stg[a].cmd m1.stg[a].meas a m1) else m1
    | none => m1

/-- Gray code of up to 32 bits to binary. -/
def grayBin (v : Nat) : Nat :=
  let a := v ^^^ (v >>> 1)
  let b := a ^^^ (a >>> 2)
  let c := b ^^^ (b >>> 4)
  let d := c ^^^ (c >>> 8)
  d ^^^ (d >>> 16)

/-- The axis of a warm boot stands elsewhere than its preserved position: cause POSITION_LOST (R33). -/
def positionLost (a : Fin 8) (m : Mach) : Mach :=
  jobAddCause causePositionLost (onJob (fun j => { j with lostAxes := addNew j.lostAxes a }) m)

/-- An SSI reading: `raw` the bits read, whether the data line was high before the first clock, and whether the parity
holds (R542) (DEDUCED, log row 42). -/
def ssiReading (a : Fin 8) (raw : BitVec 32) (high parityOk : Bool) (m : Mach) : Mach :=
  let ax := m.stg[a]
  if encType m a ≠ 2 || ax.st = .off then m
  else
    let w3 := recWord m (recStgAxis a) 3
    let bits := fld w3 5 0
    let v0 := raw.toNat % 2 ^ bits
    let v := if bitOf w3 6 then grayBin v0 else v0
    let base : Int := match ax.ssiLast, ax.ssiKept with | some l, _ => l | none, some l => l | none, none => ax.meas
    let diff := signed bits (Int.emod (v - base) (2 ^ bits)).toNat
    let far := ax.ssiLast.isSome &&
      decide (2 * (recWord m (recStgMotion a) 0).toNat * (recWord m (recStgAxis a) 4).toNat * 65536 < diff.natAbs * encNm m a * 10 ^ 6)
    if !high || (bitOf w3 7 && !parityOk) || far then
      let m1 := onAxis a (fun x => { x with ssiErr := x.ssiErr + 1, ssiBad := x.ssiBad + 1 }) m
      if 3 ≤ ax.ssiBad + 1 then encFault 3 a m1 else m1
    else
      let first := ax.ssiLast.isNone
      let off := (encToNm m a diff).natAbs
      let m1 := encCounts a diff (onAxis a (fun x => { x with ssiBad := 0, ssiLast := some v }) m)
      if first && m.g.bootWarm && decide ((recWord m (recStgGuard a) 0).toNat < off) && inBuild m then positionLost a m1 else m1

/-- No count for SPD_ZERO_MS: the speed is 0 (R544). -/
def speedZero (a : Fin 8) (m : Mach) : Mach :=
  match m.stg[a].lastAt with
  | some (t, _) => if now m < t + (recWord m (recStgGuard a) 8).toNat * 1000000 then m else onAxis a (fun x => { x with speed := 0 }) m
  | none => onAxis a (fun x => { x with speed := 0 }) m

/-- Status of the axis signal: moving, stalled, at a limit (R426). -/
def axStatus (ax : Axis) : Nat := flag 0 (axMoving ax.st) + flag 1 (ax.st = .fault && ax.faultCause = 1) + flag 2 (ax.limP || ax.limN)

/-- Every 10 µs the axis writes its signals (R520). -/
def axPublish (a : Fin 8) (m : Mach) : Mach :=
  if !domainOn m 11 then m
  else
    let m1 := onAxis a (fun x => { x with speed := speedNow m a }) m
    let n := 656 + 8 * a.val
    sigWrite (n + 3) (axStatus m1.stg[a]) (sigWrite (n + 2) (measSpeed m1 a) (sigWrite (n + 1) (posMeas m1 a) (sigWrite n (posCmd m1 a) m1)))

/-- Every 10 µs the deviation is checked (R545, R547). -/
def stallCheck (a : Fin 8) (m : Mach) : Mach :=
  if encType m a = 0 || m.stg[a].st = .off then m
  else
    let win := (recWord m (recStgGuard a) 0).toNat
    let d := (posMeas m a - posCmd m a).natAbs
    onAxis a (fun x => { x with stallRun := if 0 < win && win < d then x.stallRun + 1 else 0,
                                devMax := if axMoving x.st then max x.devMax d else x.devMax }) m

/-- A stall: the rate multiplier stops, the commanded count takes the measured position, REMAIN is kept (R546). -/
def axStall (a : Fin 8) (m : Mach) : Mach :=
  let ax := m.stg[a]
  let n := recFld m (recStgGuard a) 1 7 0
  if ax.st = .off || ax.st = .fault || ax.stallRun < n || n = 0 then m
  else
    let cmd := nmStep m a (posMeas m a)
    let tgt : Option Int := match ax.st with
      | .moving => some ax.target
      | .stopping => ax.remain.map (fun _ => ax.remainTarget)
      | _ => ax.remain.map (fun _ => ax.remainTarget)
    let m1 := onAxis a (fun x => { x with cmd := cmd, remain := tgt.map (fun t => t - cmd), remainTarget := tgt.getD x.remainTarget,
                                          stalls := x.stalls + 1 }) m
    let m2 := raise (.stg a) 2 (axFaulted 1 a m1)
    sigWrite (656 + 8 * a.val + 3) (axStatus m2.stg[a]) m2

/-- ENC_QUAD_STEP: accepted levels of A and B. -/
def execEncQuadStep (a : Fin 8) (la lb : Bool) (s : State) : Out := s.act (quadStep a la lb)
/-- QUAD_ERR_LIMIT. -/
def execQuadErrLimit (a : Fin 8) (s : State) : Out := s.act (quadLimit a)
/-- ENC_INDEX_EDGE. -/
def execEncIndexEdge (a : Fin 8) (s : State) : Out := s.act (indexEdge a)
/-- SPEED_ZERO_TIMEOUT. -/
def execSpeedZeroTimeout (a : Fin 8) (s : State) : Out := s.act (speedZero a)
/-- AXIS_SIGNAL_PUBLISH. -/
def execAxisSignalPublish (a : Fin 8) (s : State) : Out := s.act (axPublish a)
/-- STALL_CHECK. -/
def execStallCheck (a : Fin 8) (s : State) : Out := s.act (stallCheck a)
/-- AXIS_STALL. -/
def execAxisStall (a : Fin 8) (s : State) : Out := s.act (axStall a)

/-! ### Limits and home (R548 to R553) -/

/-- A limit becomes asserted: its position is latched; motion towards it stops (R548 to R551, R553). -/
def limitAssert (a : Fin 8) (pos : Bool) (m : Mach) : Mach :=
  let ax := m.stg[a]
  let m1 := onAxis a (fun x => if pos then { x with limP := true, limPosP := x.cmd } else { x with limN := true, limPosN := x.cmd }) m
  if ax.st = .off then m1
  else
    let both := m1.stg[a].limP && m1.stg[a].limN
    let m2 := whenM both (raise (.stg a) 9) m1
    match ax.homing with
    | some h =>
      if ax.st ≠ .homing then m2
      else if h.mode = 2 && pos = decide (recFld m (recStgHome a) 0 4 4 = 1) && !both then
        (if h.step = .seek then homeNext .slow a m2 else m2)
      else
        let hit := decide (ax.dirPos = pos) || both
        homeAbort 2 a (whenM hit (fun m => raise (.stg a) 3 (onAxis a (fun x => { x with limitStops := x.limitStops + 1 }) m)) m2)
    | none =>
      if axMoving ax.st && (ax.dirPos = pos || both) && !(ax.st = .moving && decide (ax.cmd = ax.target)) then
        raise (.stg a) 3 (axStop true true a (onAxis a (fun x => { x with limitStops := x.limitStops + 1 }) m2))
      else m2

/-- The home target has become inactive: the latch of step 3, or the start of the seek (R552). -/
def homeReleased (cmd meas : Int) (a : Fin 8) (m : Mach) : Mach :=
  match m.stg[a].homing with
  | some h =>
    (match h.step with
     | .clear => homeNext .seek a m
     | .slow =>
       let m1 := homeLatch cmd meas a m
       if recFld m (recStgHome a) 0 5 5 = 1 then onAxis a (fun x => { x with homing := x.homing.map (fun h => { h with step := .index }) }) m1
       else homeNext .finish a m1
     | _ => m)
  | none => m

/-- A limit has been inactive for LIM_DEB_US; `cmd` and `meas` are the counts at its first inactive sample (R548, R552). -/
def limitRelease (a : Fin 8) (pos : Bool) (cmd meas : Int) (m : Mach) : Mach :=
  let m1 := onAxis a (fun x => if pos then { x with limP := false } else { x with limN := false }) m
  match m.stg[a].homing with
  | some h => if h.mode = 2 && pos = decide (recFld m (recStgHome a) 0 4 4 = 1) then homeReleased cmd meas a m1 else m1
  | none => m1

/-- The HOME input changes to asserted or not (R552). -/
def homeEdge (a : Fin 8) (on : Bool) (m : Mach) : Mach :=
  let m1 := onAxis a (fun x => { x with homeIn := on }) m
  match m.stg[a].homing with
  | some h =>
    if h.mode ≠ 1 then m1
    else if on then (if h.step = .seek then homeNext .slow a m1 else m1)
    else homeReleased m1.stg[a].cmd m1.stg[a].meas a m1
  | none => m1

/-- LIMIT_ASSERT: the positive or the negative limit. -/
def execLimitAssert (a : Fin 8) (pos : Bool) (s : State) : Out := s.act (limitAssert a pos)
/-- LIMIT_RELEASE, with the counts at the first inactive sample. -/
def execLimitRelease (a : Fin 8) (pos : Bool) (cmd meas : Int) (s : State) : Out := s.act (limitRelease a pos cmd meas)
/-- HOME_INPUT_EDGE. -/
def execHomeInputEdge (a : Fin 8) (on : Bool) (s : State) : Out := s.act (homeEdge a on)

/-! ### Outputs (R535 to R537, R556, R560) -/

/-- Entry i of the microstep table (R571). -/
def stepTable (m : Mach) (i : Nat) : Int :=
  let r := if i % 1024 < 512 then recStgTable0 else recStgTable1
  let j := i % 512
  if j % 2 = 0 then recS m r (j / 2) 9 0 else recS m r (j / 2) 25 16

/-- The phase values of one axis at a valley (R536). -/
def phaseValues (m : Mach) (a : Fin 8) : Int × Int :=
  let ax := m.stg[a]
  let drv := recWords m (recStgDrive a)
  let base := if ax.holdAmp || ax.st = .fault then fld (drv.getD 0 0) 25 16 else fld (drv.getD 0 0) 9 0
  let den := 1000 * 10 ^ 6 * ustep m a * 256
  let sNum := ax.v * 65536
  let amp := min (1023 * den) (base * den + fld (drv.getD 2 0) 15 0 * sNum)
  let adv : Int := min 255 ((2 * fld (drv.getD 2 0) 31 16 * sNum + den) / (2 * max 1 den)) * (if ax.dirPos then 1 else -1)
  let i := Int.emod (Int.emod ax.cmd 1024 + adv) 1024
  let i2 := (i + 256) % 1024
  (divR (amp * stepTable m i.toNat) (max 1 den * 511), divR (amp * stepTable m i2.toNat) (max 1 den * 511))

/-- The two outputs of a phase at a value v as compare values: sign-magnitude, C = round(|v| × 1,250 ÷ 1,024) (R537). -/
def phaseOut (v : Int) : Nat × Nat :=
  let c := (2 * v.natAbs * 1250 + 1024) / 2048
  if 0 < v then (c, 0) else if v < 0 then (0, c) else (0, 0)

/-- The compare values of PA1, PA2, PB1 and PB2; all low in OFF (R535, R537). -/
def bridge (m : Mach) (a : Fin 8) : List Nat :=
  let ax := m.stg[a]
  if ax.st = .off then [0, 0, 0, 0] else [(phaseOut ax.vA).1, (phaseOut ax.vA).2, (phaseOut ax.vB).1, (phaseOut ax.vB).2]

/-- Each axis loads new compare values; in OFF all outputs are low (R535 to R537, R568) (DEDUCED, log row 50). -/
def valley (m0 : Mach) : Mach :=
  eachM (List.finRange 8) (fun a m' =>
    let m := takeRecord (recStgDrive a) m'
    if m.stg[a].st = .off then onAxis a (fun x => { x with vA := 0, vB := 0 }) m
    else let (va, vb) := phaseValues m a; onAxis a (fun x => { x with vA := va, vB := vb }) m) m0

/-- HOLD_DELAY after coming to rest (R536). -/
def holdDelay (a : Fin 8) (m : Mach) : Mach :=
  if m.stg[a].st = .idle then onAxis a (fun x => { x with holdAmp := true }) m else m

/-- A compare pulse ends (R556). -/
def cmpPulseEnd (a : Fin 8) (m : Mach) : Mach :=
  match m.stg[a].cmp.pulse with
  | some l => emit (.pin a.val l) (onAxis a (fun x => { x with cmp := { x.cmp with level := l, pulse := none } }) m)
  | none => m

/-- A waiting output count of a channel is emitted (R560). -/
def encOutEmit (c : Fin 2) (m : Mach) : Mach :=
  let a : Fin 8 := ⟨c.val, by omega⟩
  let w := recWord m recStgEncout (3 * c.val)
  match m.stg[a].enc.queue with
  | [] => m
  | f :: t =>
    let fwd := f != bitOf w 7
    let ph := if bitOf w 5 then b2n fwd else (m.stg[a].enc.phase + (if fwd then 1 else 3)) % 4
    emit (.pin (8 + c.val) fwd) (onAxis a (fun x => { x with enc := { x.enc with queue := t, phase := ph } }) m)

/-- PWM_VALLEY. -/
def execPwmValley (s : State) : Out := s.act valley
/-- HOLD_DELAY_ELAPSED. -/
def execHoldDelayElapsed (a : Fin 8) (s : State) : Out := s.act (holdDelay a)
/-- CMP_PULSE_END. -/
def execCmpPulseEnd (a : Fin 8) (s : State) : Out := s.act (cmpPulseEnd a)
/-- ENCOUT_EMIT. -/
def execEncoutEmit (c : Fin 2) (s : State) : Out := s.act (encOutEmit c)

end Sys2Proof.Machine
end

