-- ==== Sys2Proof/Machine/BootOps.lean ====
section
/-!
DEFINITION. The boot (R110 to R146, R159, R160, R644, R662, R663, R668, R679, R720, R736, R821) and the resumed build (R32 to R35).
-/

namespace Sys2Proof.Machine

/-- The boot block changed. -/
def onBoot (f : Boot → Boot) (m : Mach) : Mach := { m with boot := f m.boot }

/-- A power domain switched on. -/
def domainUp (d : Nat) : Mach → Mach := onClk (fun k => { k with domains := setBit k.domains d true })

/-! ### Attempts (R128 to R131, R141) -/

/-- MEM is switched on and both channels train (R137, R662). -/
def memTrain (m : Mach) : Mach :=
  onCh 0 (fun x => { x with st := .training }) (onCh 1 (fun x => { x with st := .training }) (setLock lockMem true (domainUp 7 m)))

/-- Boot halts with the HOST domain on; layer memory is trained if its domain is not yet on (R131, R141) (DEDUCED, log row 29). -/
def bootHalt (m : Mach) : Mach :=
  let m1 := onBoot (fun b => { b with phase := .halted, attempt := false, sections := [], recs := [] }) m
  let m2 := whenM (!domainOn m1 10) (fun x => setLock lockHost true (domainUp 10 x)) m1
  whenM (!domainOn m2 7) memTrain m2

/-- An attempt begins from a bank: it is counted first; training is kept unless it failed. -/
def attemptBegin (x : Bool) (m : Mach) : Mach :=
  let m1 := changeStanding x (fun s => { s with attempts := s.attempts + 1 }) m
  let m2 := onBoot (fun b => { b with bank := x, attempt := true, sections := [], recs := [], phase := if m.mem.trained then .load else .memory }) m1
  whenM (!m2.mem.trained) memTrain m2

/-- R128 is applied. -/
def bootTry (m : Mach) : Mach :=
  match chooseBank m with
  | some x => attemptBegin x m
  | none => bootHalt m

/-- The attempt fails with a cause of BOOT_STATUS.LAST_FAIL (R129, R131). -/
def attemptFail (cause : BitVec 4) (m : Mach) : Mach :=
  if !m.boot.attempt || m.g.dev ≠ .boot then m
  else
    let m1 := onAon (fun a => { a with lastFail := cause }) (onBoot (fun b => { b with attempt := false }) m)
    let x := m.boot.bank
    let m2 := if cause = 7 then onBoot (fun b => b.setBank x { b.getBank x with state := 6 }) m1 else m1
    bootTry (if cause = 9 then { m2 with mem := { m2.mem with trained := false } } else m2)

/-! ### ROM, CLOCKS and SELECT (R110, R111, R115, R116, R137, R610, R611, R620, R679) -/

/-- REFCLK has not qualified 10 ms after the backup RC. -/
def refWaits (m : Mach) : Mach :=
  if m.g.dev = .boot && m.boot.phase = .rom && !m.clk.refQual && !m.g.resetHeld then onClk (fun k => { k with refWait := true }) m else m

/-- NT_BASE from the RTC while it runs (R620) (DEDUCED, log row 45). -/
def mapAtBoot (m : Mach) : TimeMap :=
  let r := m.aon.rtc.toNat
  if m.aon.rtcRun then
    { dt := m.time.dt, sec := BitVec.ofNat 48 (r / 32768), ns := BitVec.ofNat 32 (r % 32768 * 1000000000 / 32768) }
  else {}

/-- The end of CLOCKS: device time starts or resumes. -/
def clocksEnd (m : Mach) : Mach :=
  let warm := m.g.bootWarm && m.aon.retValid
  let m1 := if warm then onTime (fun t => { t with resumed := true }) (timeSetUp (resumeQ m) m) else onTime (fun t => { t with running := true }) m
  let m2 := lateStamp (onTime (fun t => { t with map := mapAtBoot m1 }) m1)
  if warm then raise .time 4 (log 0xA001 sevInfo 0xFF (leBytes 8 m.aon.resetDt.toNat) m2) else m2

/-- SELECT: standing, headers and section tables, the choice. Without an 8D-8D-8D flash no bank is bootable (DEDUCED, log row 35). -/
def selectPhase (flashOk : Bool) (m : Mach) : Mach :=
  let m1 := standingAtBoot (setLock lockHost true (domainUp 10 m))
  let m2 := whenM (!m.aon.retValid) (raise .pwr 0) m1
  if flashOk then bootTry (readBank true (readBank false m2))
  else bootHalt (onAon (fun a => { a with lastFail := 1 }) m2)

/-- REFCLK qualifies. -/
def refQualified (flashOk : Bool) (m : Mach) : Mach :=
  if !powered m || m.g.resetHeld || m.clk.refQual || m.clk.fallback ≠ .none || m.g.dev = .shutdownLatched then m
  else
    let m1 := onClk (fun k => { k with refQual := true, refWait := false, rootRef := 2, lock := setBit k.lock lockRoot true }) m
    if m1.g.dev = .boot && m1.boot.phase = .rom then selectPhase flashOk (clocksEnd m1) else m1

/-! ### Training and the preserve block (R662, R663, R668) -/

/-- Layer memory is zero until the sweep reaches it (R663) (DEDUCED, log row 11). -/
def sweepBegin0 (m : Mach) : Mach := { m with keep := none, mem := { m.mem with cells := [], poison := [], sweeping := true, preserved := false } }

/-- Why the preserve block is not valid: 1 CRC, 2 marker; 0 valid (DESIGN CHOICE, log row 10). -/
def preserveBad (crcOk : Bool) (m : Mach) : Nat :=
  match m.keep with
  | none => 1
  | some k => if !crcOk then 1 else if !m.aon.retValid || k.marker ≠ m.aon.marker then 2 else 0

/-- The checks after training: a warm boot keeps layer memory or turns cold. -/
def preserveCheck (crcOk : Bool) (m : Mach) : Mach :=
  if !m.g.bootWarm then sweepBegin0 m
  else
    let bad := preserveBad crcOk m
    if bad = 0 then { m with mem := { m.mem with preserved := true } }
    else
      let m1 := raise .mem 7 (log 0xB005 sevNotice 0xFF (leBytes 1 bad) { m with g := { m.g with bootWarm := false } })
      sweepBegin0 m1

/-- Training ends: windows of both channels, and whether each found a working setting (DESIGN CHOICE, log row 10). -/
def trainingDone (ok0 ok1 : Bool) (rd0 wr0 rd1 wr1 : Byte) (crcOk : Bool) (m : Mach) : Mach :=
  if m.mem.ch0.st ≠ .training || !powered m || m.g.resetHeld || !mgmtRuns m then m
  else if !(ok0 && ok1) then
    let m1 := onCh 0 (fun x => { x with st := .off }) (onCh 1 (fun x => { x with st := .off }) m)
    attemptFail 9 m1
  else
    let m1 := onCh 0 (fun x => { x with st := .ready, winRd := rd0, winWr := wr0 }) (onCh 1 (fun x => { x with st := .ready, winRd := rd1, winWr := wr1 }) m)
    let m2 := onHlt (fun h => { h with trainTemp0 := h.tempCore.toInt, trainTemp1 := h.tempCore.toInt, trainAt0 := now m, trainAt1 := now m })
      { m1 with mem := { m1.mem with trained := true } }
    let m3 := preserveCheck crcOk m2
    if m3.boot.attempt then onBoot (fun b => { b with phase := .load }) m3 else m3

/-- The sweep completes. -/
def sweepEnd (m : Mach) : Mach := if m.mem.sweeping then { m with mem := { m.mem with sweeping := false } } else m

/-! ### LOAD (R127, R159, R643, R644) -/

/-- The running configuration from a bank's sections, where every digest matches; the sections other than FIRMWARE stand in the configuration
region (R123, step 7 of R127) (DESIGN CHOICE, log row 118). -/
def loadIngot (m : Mach) : Option Mach :=
  let rd := bankReader (m.boot.getBank m.boot.bank)
  (loadSections rd).map (fun ss =>
    let fw := (ss.filter (fun s => s.type = 1)).flatMap (fun s => s.bytes)
    let held := (secTable rd).filter (fun e => e.type ≠ 1)
    onBoot (fun b => { b with
      sections := ss.filter (fun s => s.type ≠ 1), ver := BitVec.ofNat 32 (hdr rd 12 4), pred := BitVec.ofNat 32 (hdr rd 16 4),
      stamp := BitVec.ofNat 64 (hdr rd 20 8), keySlot := BitVec.ofNat 2 (hdr rd 31 1), floorOk := decide (hdr rd 40 4 % 2 = 1),
      fwVer := Config.firmwareVersion fw }) (eachM held (fun e => holdSection e.off (rd e.off e.len)) m))

/-- The MEMORY_MAP section is valid, but for R377. -/
def mapOk (s : List Byte) : Bool :=
  let rs := tab 7 (fun r => (rdLe s (16 * r) 8, rdLe s (16 * r + 8) 8))
  let apart := fun (a b : Nat × Nat) => a.2 = 0 || b.2 = 0 || decide (a.1 + a.2 ≤ b.1) || decide (b.1 + b.2 ≤ a.1)
  decide (s.length = 128) && zeroBytes s 112 16 &&
  rs.all (fun (b, z) => b % 1048576 = 0 && z % 1048576 = 0 && decide (b + z ≤ 0x1BC000000)) && allPairs apart rs &&
  [0, 1, 4, 5].all (fun i => decide (16777216 ≤ (rs.getD i (0, 0)).2)) && decide (67108864 ≤ (rs.getD 2 (0, 0)).2)

/-- The entries of a RECORDS section: record ID and words (DEDUCED, log row 36). -/
def recEntries : Nat → List Byte → Option (List (Nat × List Word))
  | 0, bs => if bs = [] then some [] else none
  | n + 1, bs =>
    if bs = [] then some []
    else
      let k := rdLe bs 2 2
      if bs.length < 4 + 4 * k then none
      else (recEntries n (bs.drop (4 + 4 * k))).map (fun t => (rdLe bs 0 2, tab k (fun i => BitVec.ofNat 32 (rdLe bs (4 + 4 * i) 4))) :: t)

/-- A record written at boot, reserved bits zero. -/
def recBoot (id : Nat) (ws : List Word) (m : Mach) : Mach :=
  match recInfo id with
  | some r => onBoot (fun b => { b with recs := put recDefault b.recs id (recStrip id r ws) }) m
  | none => m

/-- An entry of the section is a record of its length within its ranges (DEDUCED, log row 36). -/
def recEntryOk (m : Mach) (e : Nat × List Word) : Bool :=
  match recInfo e.1 with
  | some r =>
    let n := if isCoef e.1 then (match ctxDesc? (cellSec m) (e.1 - 0x2000) with | some d => d.coefs | none => 0) else r.len
    decide (e.2.length = n) && (recFirstBad m e.1 r e.2).isNone
  | none => false

/-- The coefficient images of CELL_PROGRAMS, then the RECORDS section, become active (R159, R457). -/
def recordsApply (es : List (Nat × List Word)) (m : Mach) : Mach :=
  let sec := cellSec m
  let m1 := eachM (List.range (ctxCount sec)) (fun k => recBoot (recCoef k) (ctxBank sec (ctxDesc sec k))) m
  eachM es (fun e => recBoot e.1 e.2) m1

/-- Every section and record meets its chapter's checks; `failed` lists the cells whose test failed. A QUOINS section of odd length or of
more than 512 bytes, like a RECORDS section that breaks R159, ends the attempt with cause RECORD (DEDUCED, log row 36). -/
def configOk (failed : List Nat) (es : List (Nat × List Word)) (m : Mach) : Bool :=
  mapOk (secBytes m 9 0xFFFF) && machineOk m &&
  m.boot.sections.all (fun s =>
    match s.type with
    | 3 => regOk (fieldPoly m s.inst) s.bytes
    | 4 => headOk s.bytes
    | 7 => auxOk m s.bytes
    | 8 => s.bytes.length % 2 = 0 && decide (s.bytes.length ≤ 512)
    | _ => true) &&
  es.all (recEntryOk m) && decide (4 * hmNx m * hmNy m ≤ (region m 3).2) && cellsOk m failed

/-! ### CONFIGURE (R137, R160, R408, R443, R697, R720, R736) -/

/-- The second half of the array is powered. -/
def halfB (m : Mach) : Bool := (rdLe (cellSec m) 4 1).testBit 1

/-- The domains of CONFIGURE and their PLLs. -/
def configDomains (m : Mach) : Mach :=
  let half := fun (south : Bool) => (halfLanes south).any (fun l => headFitted m (laneHead l))
  let m1 := domainUp 11 (domainUp 6 (domainUp 4 m))
  let m2 := whenM (halfB m) (domainUp 5) m1
  let m3 := whenM (half false) (fun x => setLock lockNorth true (domainUp 8 x)) m2
  let m4 := whenM (half true) (fun x => setLock lockSouth true (domainUp 9 x)) m3
  setLock lockSpread true m4

/-- Cells and contexts take their places; a cell whose test failed goes to QUARANTINE and at once to TESTING. -/
def cellsPlace (failed : List Nat) (m : Mach) : Mach :=
  let top := if halfB m then 128 else 64
  let places := (placeCells m failed).getD []
  let hosts := fun (c : Nat) => places.any (fun p => p.2.1 = c)
  let cell := fun (c : Fin 128) => ({
    st := if top ≤ c.val then .off else if c.val ∈ failed then .testing else if hosts c.val then .active else .spare,
    kat := if top ≤ c.val then 0 else if c.val ∈ failed then 2 else 1, quarantined := decide (c.val ∈ failed) } : Cell)
  let m1 := onCells (fun x => { x with cells := Vector.ofFn cell, ctx := Vector.replicate 256 {} }) m
  let m2 := eachM places (fun p => onCtx (Fin.ofNat 256 p.1) (fun x => { x with st := .stopped, cell := some (Fin.ofNat 128 p.2.1), slot := decide (p.2.2 = 1) })) m1
  let m3 := eachM ((List.finRange 128).filter (fun c => c.val ∈ failed && decide (c.val < top))) (fun c => raise (.cell c) 5) m2
  let moved := (places.filter (fun p => (ctxDesc (cellSec m) p.1).cell ≠ p.2.1)).map (fun p => ((ctxDesc (cellSec m) p.1).cell, p.2.1))
  eachM moved.eraseDups (fun p => logClass 6 p.1 [BitVec.ofNat 8 p.2]) m3

/-- Quoins of the QUOINS section (R160). -/
def quoinsPlace (m : Mach) : Mach :=
  let bs := secBytes m 8 0xFFFF
  onBoot (fun b => { b with quoins := tab (bs.length / 2) (fun i => BitVec.ofNat 16 (rdLe bs (2 * i) 2)) }) m

/-- VDD_CORE takes n_B, at most VCORE_MAX (R720). -/
def vcoreBoot (dMax : Word) (nB : Nat) (m : Mach) : Mach :=
  let top := recFld m recHltPlan 0 4 0
  let n := min nB top
  whenM (decide (top < nB)) (raise .hlt 17) (onHlt (fun h => { h with dMax := dMax, vcore := BitVec.ofNat 5 n, vcoreBoot := BitVec.ofNat 5 n }) m)

/-- A warm boot with its preserve block valid. -/
def warmKept (m : Mach) : Option Preserved := if m.mem.preserved then m.keep else none

/-- The axes in use leave OFF (R562): at their preserved positions, or at 0 with POS_UNKNOWN (DEDUCED, log row 109) [R564]. -/
def axesUp (m : Mach) : Mach :=
  { m with stg := Vector.ofFn (fun a =>
      let x := m.stg[a]
      if recFld m (recStgAxis a) 0 0 0 = 0 then x
      else
        match warmKept m with
        | some k =>
          let y := k.axes[a]
          { x with st := .idle, cmd := y.cmd, meas := y.meas, remain := y.remain, remainTarget := y.remainTarget, goal := y.goal, posUnknown := y.posUnknown, homed := y.homed,
                   ssiKept := y.ssiLast.orElse (fun _ => y.ssiKept) }
        | none => { x with st := .idle }) }

/-- Lanes of fitted heads begin training; the secondary of a single-lane head stays OFF (R137, R490). -/
def lanesBegin (m : Mach) : Mach :=
  eachM ((List.finRange 28).filter (fun l => headFitted m (laneHead l) && (decide (24 ≤ l.val) || l.val % 2 = 0 || !singleLane m (laneHead l)))) laneDetect m

/-- Records whose values other parts of the state follow from here on. -/
def followRecords (m : Mach) : Mach :=
  let m1 := { m with mem := { m.mem with hotCfg := recWord m recMemCfg 0 }, clk := { m.clk with spread := recWord m recClkSs 0 } }
  let m2 := sigPub 755 (kappaNow m1) m1
  onClk (fun k => { k with rcRun := recFld m recClkCfg 0 0 0 = 1, rcQual := k.rcQual && recFld m recClkCfg 0 0 0 = 1 }) m2

/-- Ethernet ports take their modes (R782). -/
def ethUp (m : Mach) : Mach := ethLos 0 m.mgt.eth0.los (ethLos 1 m.mgt.eth1.los m)

/-- CONFIGURE up to the last phase. -/
def configure (failed : List Nat) (es : List (Nat × List Word)) (dMax : Word) (nB : Nat) (cal : List (CalUnit × CalMeas)) (m : Mach) : Mach :=
  let m1 := bootEntries (onBoot (fun b => { b with phase := .configure }) m)
  let m2 := recordsApply es m1
  let m3 := match warmKept m2 with
    | some k => if k.ver = m2.boot.ver then
        onBoot (fun b => { b with recChanged := k.recs.map (·.1) }) (eachM k.recs (fun e => recBoot e.1 e.2) m2) else m2
    | none => m2
  let m4 := cellsPlace failed (configDomains m3)
  let m5 := vcoreBoot dMax nB (quoinsPlace m4)
  let m6 := eachM cal (fun c => calEnd c.1 c.2 true) m5
  followRecords (ethUp m6)

/-! ### What a warm boot continues (R32 to R35, R140, R268, R623, R821) -/

/-- Retirement causes after a warm boot (R268) (DEDUCED, log row 109). -/
def causeKept (c : BitVec 4) : BitVec 4 := if c = 0 || c.toNat = retHost || c.toNat = retLaser then c else BitVec.ofNat 4 retNotReady

/-- The standing of imposition, heat map, record regions and network time (DEDUCED, log row 109). -/
def standingKept (k : Preserved) (m : Mach) : Mach :=
  let imp := { k.imp with
    beams := k.imp.beams.map (fun x => { x with cause := causeKept x.cause, cur := none, next := none, wait := none, returning := false }),
    running := false, cmdResult := 0, cmdBeam := 0, cmdOp := 0 }
  let m1 := { m with
    imp := imp, hmap := { k.hmap with copying := false, sweeping := false },
    mgt := { m.mgt with logWr := k.logWr },
    time := { m.time with servo := .holdover, map := k.map, startAt := k.startAt, layerAt := k.layerAt, layerNo := k.layerNo } }
  { m1 with beams := Vector.ofFn (fun b =>
      let (v, x, y) := k.stops.getD b.val (false, 0, 0)
      { m1.beams[b] with stopValid := v, stopX := x, stopY := y }) }

/-- Why a preserved forme is removed: 0 its CRC differs, 1 an uncorrectable error (R35). -/
def formeKeptBad (e : Ecc) (m : Mach) (i : Fin 64) : Option Nat :=
  let s := m.job.slots[i]
  if s.st ≠ .queued && s.st ≠ .active then none
  else if readBad m s.addr s.len e then some 1
  else if (crcFail m s.addr).isSome then some 0
  else none

/-- A preserved forme is read and checked; one that fails leaves the queue. -/
def formeCheckKept (e : Ecc) (i : Fin 64) (m0 : Mach) : Mach :=
  let s := m0.job.slots[i]
  if s.st ≠ .queued && s.st ≠ .active then m0
  else
    let m := memRead 2 s.addr s.len e m0
    match formeKeptBad e m0 i with
    | some why => freeSlot i (log 0x1041 sevNotice i.val (leBytes 4 s.id.toNat ++ leBytes 4 (memLe m (s.addr + 8) 4) ++ leBytes 1 why) m)
    | none => m

/-- The forme queue as saved; a commit in CHECKING is lost. -/
def queueKept (j : Job) : Job :=
  { slots := j.slots.map (fun s => if s.st = .checking then {} else s), queue := j.queue, active := j.active, spread := j.spread, aborting := j.aborting }

/-- The job was in a layer. -/
def JobState.busy (s : JobState) : Bool := s = .makeReady || s = .exposing || s = .paused || s = .stopped

/-- Every used SSI axis has had its first reading (DEDUCED, log row 42). -/
def ssiKnown (m : Mach) : Bool :=
  (List.finRange 8).all (fun a => m.stg[a].st = .off || encType m a ≠ 2 || m.stg[a].ssiLast.isSome)

/-- The RESUME of R34, once the SSI axes have been read (R33) (DEDUCED, log row 42). -/
def autoResumeTry (m : Mach) : Mach :=
  if m.job.autoResume && ssiKnown m then
    let m1 := onJob (fun j => { j with autoResume := false }) m
    if m1.job.st = .stopped && m1.job.causes = causeWarmReset then jobResume m1 else m1
  else m

/-- The job re-enters from the preserved job state (R32). -/
def jobKept (k : Preserved) (m : Mach) : Mach :=
  let j := k.job
  if j.st.busy then
    let lost := decide (((List.finRange 64).filter (fun i => (j.slots[i].st = .queued || j.slots[i].st = .active) && m.job.slots[i].st = .free)) ≠ [])
    let to_ := if j.st = .makeReady then false else if j.st = .exposing then true else j.toExposing
    let causes := j.causes ||| causeWarmReset ||| (if lost then causeFormeLost else 0) ||| (if k.ver ≠ m.boot.ver then causeConfigChanged else 0)
    let m1 := onJob (fun x => { x with
      toExposing := to_, mrStep := j.mrStep, mrNext := j.mrNext, mrTargets := j.mrTargets, mrStopped := !to_, hostMr := j.hostMr, params := j.params,
      kept := j.kept, layersDone := j.layersDone, afterAbsent := j.afterAbsent, lostAxes := j.lostAxes,
      autoResume := recFld m recJob 5 7 7 = 1 && !lost }) { m with boot := { m.boot with layerOn := k.layerOn } }
    let held := eachM allBeams (fun b => whenM m1.imp.beams[b].interrupted.isSome (onBeam b (fun x => if x.st = .idle then { x with st := .hold } else x))) m1
    autoResumeTry (jobMove .stopped causes (loadSets held))
  else
    jobTest (abortSettled (jobMove j.st 0 (onJob (fun x => { x with kept := j.kept, layersDone := j.layersDone }) m)))

/-- The end of a warm boot. -/
def warmResume (e : Ecc) (m : Mach) : Mach :=
  match warmKept m with
  | none => m
  | some k =>
    let m1 := eachM (List.finRange 64) (formeCheckKept e) { m with job := queueKept k.job, keep := none }
    if k.dev = .building || k.dev = .proof then
      let m2 := jobKept k (buildEnter k.dev chWarm m1)
      whenM (!hostPresent m2) (hostAbsentBegin (if m2.g.linkUp && !m2.g.d3hot then 0 else 1)) m2
    else m1

/-! ### DONE (R19, R32, R36, R132, R335, R437, R599) -/

/-- The other bank holds a valid, greater VERSION (R132). -/
def bankFallback (m : Mach) : Mach :=
  let x := !m.boot.bank
  let m1 := readBank x m
  let k := m1.boot.getBank x
  if k.valid && !(m1.aon.standing x).writing && decide (m1.boot.ver.toNat < k.ver.toNat) then
    raise .boot 5 (log 0x0050 sevNotice 0xFF (leBytes 4 m1.boot.ver.toNat ++ leBytes 4 k.ver.toNat ++ leBytes 1 (b2n m.boot.bank)) m1)
  else m1

/-- Contexts with AUTO_START start. -/
def autoStart (m : Mach) : Mach :=
  eachM ((ctxList m).filter (fun k => match ctxOf m k with | some d => d.autoStart | none => false)) ctxStart m

/-- The device reaches CONFIGURED (DEDUCED, log row 37). -/
def bootDone (e : Ecc) (m : Mach) : Mach :=
  let x := m.boot.bank
  let m1 := changeStanding x (fun s => { s with attempts := 0 }) { m with aon := { m.aon with last := x } }
  let m2 := onBoot (fun b => { b with attempt := false, phase := .done }) { m1 with g := { m1.g with configuredOnce := true, hbExpired := false } }
  let m3 := match warmKept m2 with | some k => standingKept k m2 | none => m2
  let m4 := eachM allBeams (fun b => whenM (beamLive m3 b) (onBeam b (fun x => { x with st := .idle }))) (axesUp m3)
  let m5 := devMove .configured chBoot m4
  let m6 := applyScene 1 (lanesBegin (autoStart m5))
  warmResume e (bankFallback (eachM allBeams (fun b m => onImp b (fun x => { x with effective := BitVec.ofNat 16 (weightOf m b) }) m) m6))

/-- The ingot is loaded and the blocks are configured. `failed` lists the cells whose known-answer test failed, `dMax` and `nB` the largest
ageing and the code n_B, `cal` what the calibration runs measured, `e` what the reads of preserved formes find (R35). -/
def bootComplete (failed : List (Fin 128)) (dMax : Word) (nB : Nat) (cal : List (CalUnit × CalMeas)) (e : Ecc) (m : Mach) : Mach :=
  if !m.boot.attempt || m.g.dev ≠ .boot || m.boot.phase ≠ .load || !m.mem.trained || m.g.resetHeld then m
  else
    match loadIngot m with
    | none => attemptFail 7 m
    | some m1 =>
      let fs := failed.map (·.val)
      let es := recEntries ((secBytes m1 6 0xFFFF).length + 1) (secBytes m1 6 0xFFFF)
      match es with
      | none => attemptFail 8 m1
      | some l =>
        if configOk fs l (recordsApply l m1) then bootDone e (configure fs l dMax nB cal m1) else attemptFail 8 m1

/-- Power-good of a domain does not come within 100 µs: boot halts, and the attempt is not counted (R698) (DEDUCED, log row 35). -/
def powerGoodTimeout (m : Mach) : Mach :=
  if m.g.dev ≠ .boot || m.g.resetHeld || m.boot.phase = .halted then m
  else
    let m1 := whenM m.boot.attempt (changeStanding m.boot.bank (fun s => { s with attempts := s.attempts - 1 })) m
    bootHalt m1

/-! ### Commands -/

/-- REFCLK_QUALIFIED, with whether the flash answers and reports an 8D-8D-8D mode. -/
def execRefclkQualified (flashOk : Bool) (s : State) : Out := s.act (refQualified flashOk)
/-- REFCLK_WAIT_TIMEOUT. -/
def execRefclkWaitTimeout (s : State) : Out := s.act refWaits
/-- MEM_TRAINING_DONE: settings found, read and write windows of both channels, and whether the preserve block's CRC checks. -/
def execMemTrainingDone (ok0 ok1 : Bool) (rd0 wr0 rd1 wr1 : Byte) (crcOk : Bool) (s : State) : Out :=
  s.act (trainingDone ok0 ok1 rd0 wr0 rd1 wr1 crcOk)
/-- SWEEP_DONE. -/
def execSweepDone (s : State) : Out := s.act sweepEnd
/-- BOOT_COMPLETE. -/
def execBootComplete (failed : List (Fin 128)) (dMax : Word) (nB : BitVec 5) (cal : List (CalUnit × CalMeas)) (s : State) (ecc : Ecc := {}) : Out :=
  s.act (withEnv ⟨ecc, []⟩ (bootComplete failed dMax nB.toNat cal ecc))
/-- BOOT_ATTEMPT_FAIL with its cause. -/
def execBootAttemptFail (cause : BitVec 4) (s : State) : Out := s.act (attemptFail cause)
/-- BOOT_WATCHDOG_EXPIRE. -/
def execBootWatchdogExpire (s : State) : Out := s.act (attemptFail 0xA)
/-- POWER_GOOD_TIMEOUT. -/
def execPowerGoodTimeout (s : State) : Out := s.act powerGoodTimeout
/-- SSI_READING: the bits read, the data line before the first clock, the parity; a warm boot may wait for it (R33, R34). -/
def execSsiReading (a : Fin 8) (raw : BitVec 32) (high parityOk : Bool) (s : State) (env : Env := {}) : Out :=
  s.act (withEnv env (seqM (ssiReading a raw high parityOk) autoResumeTry))

end Sys2Proof.Machine
end

