-- ==== Sys2Proof/Machine/MeltOps.lean ====
section
/-!
DEFINITION. Camera frames and their metrics (R350 to R352, R361 to R365), the melt-pool conditions (R371 to R375) and the heat map's
sweeps and copies (R380, R381).
-/

namespace Sys2Proof.Machine

/-! ### Frames -/

/-- Signed 16-bit difference of two frame numbers. -/
def seqDiff (a b : BitVec 16) : Int := (a - b).toInt

/-- A frame-begin payload (R350, R351): a complete frame before it waits for its metrics, an incomplete one is dropped; the reductions of R389
leave out odd frames. -/
def camBegin (b : Fin 12) (bs : List Byte) (m : Mach) : Mach :=
  let q : BitVec 16 := BitVec.ofNat 16 (rdLe bs 0 2)
  let new : CamFrame := { seq := q, start := longStamp m (BitVec.ofNat 32 (rdLe bs 4 4)), exposure := rdLe bs 8 4, lines := [] }
  let use := if throttled m && q.toNat % 2 = 1 then none else some new
  match m.mpl[b].frame with
  | some f =>
    if seqDiff q f.seq ≤ 0 then m
    else onMpl b (fun x => { x with
      frame := use, done := if f.lines.length < 128 then x.done else x.done ++ [f],
      framesDropped := if f.lines.length < 128 then x.framesDropped + 1 else x.framesDropped }) m
  | none => onMpl b (fun x => { x with frame := use }) m

/-- A line payload (R350). -/
def camLine (b : Fin 12) (bs : List Byte) (m : Mach) : Mach :=
  let y := rdLe bs 2 1
  let px := leNat ((bs.drop 4).take 160)
  match m.mpl[b].frame with
  | some f =>
    if f.seq ≠ BitVec.ofNat 16 (rdLe bs 0 2) || 128 ≤ y || f.lines.any (fun l => l.1 = y) then m
    else onMpl b (fun x => { x with frame := some { f with lines := (y, tab 128 (fun i => (px >>> (10 * i)) % 1024)) :: f.lines } }) m
  | none => m

/-! ### Metrics (R361 to R363) -/

/-- A pixel: column, line, raw code. -/
structure Pixel where
  x : Nat
  y : Nat
  raw : Nat
deriving DecidableEq, Repr

/-- The pixels of a frame. -/
def CamFrame.pixels (f : CamFrame) : List Pixel := f.lines.flatMap (fun (y, ps) => ps.zipIdx.map (fun (r, x) => ⟨x, y, r⟩))

/-- Two pixels are 8-neighbours, or the same. -/
def Pixel.near (p q : Pixel) : Bool := decide (p.x ≤ q.x + 1) && decide (q.x ≤ p.x + 1) && decide (p.y ≤ q.y + 1) && decide (q.y ≤ p.y + 1)

/-- A connected set grown from a front through the pixels that are left: the set, and what remains. -/
def growSet : Nat → List Pixel → List Pixel → List Pixel → List Pixel × List Pixel
  | 0, acc, _, rest => (acc, rest)
  | n + 1, acc, front, rest =>
    let hit := rest.filter (fun p => front.any p.near)
    if hit.isEmpty then (acc, rest) else growSet n (acc ++ hit) hit (rest.filter (fun p => !front.any p.near))

/-- The 8-connected sets of a list of pixels. -/
def connected : Nat → List Pixel → List (List Pixel)
  | 0, _ => []
  | _ + 1, [] => []
  | n + 1, p :: t => let (s, rest) := growSet (t.length + 1) [p] [p] t; s :: connected n rest

/-- p of a pixel (R361). -/
def pixP (dark : Nat) (p : Pixel) : Nat := p.raw - dark

/-- The seed: the largest p, ties to the smaller y and then the smaller x. -/
def seedOf (ps : List Pixel) : Option Pixel :=
  ps.foldl (fun a p => match a with
    | none => some p
    | some q => if q.raw < p.raw || (q.raw = p.raw && (p.y < q.y || (p.y = q.y && p.x < q.x))) then some p else some q) none

/-- The pool of a frame (R361). -/
def poolOf (dark thr : Nat) (ps : List Pixel) : List Pixel :=
  match seedOf (ps.filter (fun p => decide (dark < p.raw))) with
  | none => []
  | some s =>
    if pixP dark s < thr then []
    else
      let hot := (ps.filter (fun p => decide (thr ≤ pixP dark p))).filter (fun p => p ≠ s)
      (growSet (hot.length + 1) [s] [s] hot).1

/-- q of a pixel in 1/16 nm (R362). -/
def pixQ (m : Mach) (b : Fin 12) (p : Pixel) : Int × Int :=
  let r := recMplCamera b.val
  let pix : Int := (recWord m r 4).toNat
  let cu := (16 * (p.x : Int) - recFld m r 6 15 0) * pix
  let cv0 := (16 * (p.y : Int) - recFld m r 6 31 16) * pix
  let cv := if recFld m r 5 2 2 = 1 then -cv0 else cv0
  match recFld m r 5 1 0 with
  | 0 => (cu, cv)
  | 1 => (-cv, cu)
  | 2 => (-cu, -cv)
  | _ => (cv, -cu)

/-- The path direction at a time, with 60 fraction bits: that of the nearest sample, or (1, 0) below V_MIN (R362). -/
def pathDir (m : Mach) (b : Fin 12) (t : Nat) : Int × Int :=
  let gap := fun (s : Nat × Int × Int) => ((s.1 : Int) - t).natAbs
  let near := m.beams[b].vff.foldl (fun (a : Option (Nat × Int × Int)) s =>
    match a with | none => some s | some c => if gap s < gap c then some s else some c) none
  let vm : Int := (recWord m (recMplCamera b.val) 8).toNat
  match near with
  | none => (q60, 0)
  | some (_, vx, vy) => if vx * vx + vy * vy < vm * vm then (q60, 0) else unitQ vx vy

/-- Largest less smallest of a list. -/
def spanOf (l : List Int) : Int :=
  match l with
  | [] => 0
  | h :: t => t.foldl max h - t.foldl min h

/-- The metrics of a frame (R363), with whether the pool is empty. -/
def metricsOf (m : Mach) (b : Fin 12) (f : CamFrame) : Metrics × Bool :=
  let r := recMplCamera b.val
  let ps := f.pixels
  let dark := recFld m r 2 9 0
  let pix : Int := (recWord m r 4).toNat
  let pool := poolOf dark (recFld m r 2 25 16) ps
  let peak := ps.foldl (fun a p => max a p.raw) 0
  let spat := (connected (ps.length + 1) (ps.filter (fun p => decide (recFld m r 3 9 0 ≤ pixP dark p)))).filter (fun s =>
    decide (recFld m r 3 23 16 ≤ s.length) && !s.any (fun p => pool.any p.near))
  let base : Metrics := { spatter := BitVec.ofNat 8 (min 255 spat.length), peak := BitVec.ofNat 16 peak, seq := f.seq }
  if pool.isEmpty then (base, true)
  else
    let sum : Nat := pool.foldl (fun a p => a + pixP dark p) 0
    let (dx, dy) := pathDir m b (f.start + f.exposure / 2)
    let qs := pool.map (pixQ m b)
    let len := fun (ux uy : Int) => (divR (spanOf (qs.map (fun q => q.1 * ux + q.2 * uy)) + 16 * pix * q60) (16000 * q60)).toNat
    let mean := fun (g : Int × Int → Int) => divR ((pool.zip qs).foldl (fun a (p, q) => a + pixP dark p * g q) 0) (16 * sum)
    ({ base with
       intensity := BitVec.ofNat 32 sum, area := BitVec.ofInt 32 (divR (pool.length * pix * pix) 1000000),
       length := BitVec.ofNat 16 (len dx dy), width := BitVec.ofNat 16 (len (-dy) dx),
       cx := BitVec.ofInt 32 (mean (·.1)), cy := BitVec.ofInt 32 (mean (·.2)),
       sat := BitVec.ofNat 16 (pool.filter (fun p => p.raw = 1023)).length }, false)

/-- The metric that METRIC_SEL names (R369). -/
def slowOf (m : Mach) (b : Fin 12) (x : Metrics) : Word :=
  match recFld m (recMplLoop b.val) 0 5 4 with
  | 0 => x.intensity
  | 1 => x.area
  | 2 => x.length.setWidth 32
  | _ => x.width.setWidth 32

/-- Mean of the correction in force over an exposure, halved toward zero (R385) (DEDUCED, log row 81). -/
def meanCorr (x : Mpl) (s e : Nat) : Int :=
  let l := x.corrHist.filter (fun c => decide (s ≤ c.1) && decide (c.1 ≤ e))
  let l := if l.isEmpty then ((x.corrHist.find? (fun c => decide (c.1 ≤ e))).toList) else l
  if l.isEmpty then 0 else Int.tdiv (l.foldl (fun a c => a + c.2) 0) (2 * l.length)

/-- A FRAME entry (R385, R386). -/
def frameEntry (b : Fin 12) (f : CamFrame) (inEm bad : Bool) (m : Mach) : Mach :=
  let dec := (recWord m recHmapRec 2).toNat
  if dec = 0 || !(inEm || bitOf (recWord m recHmapRec 0) 16) then m
  else
    let x := m.mpl[b]
    let n := x.frameCount + 1
    if n < dec then onMpl b (fun x => { x with frameCount := n }) m
    else
      let k := x.met
      let i16 := fun (v : Int) => leBytes 2 (BitVec.ofInt 16 v).toNat
      let body := leBytes 4 k.intensity.toNat ++ leBytes 4 k.area.toNat ++ leBytes 2 k.length.toNat ++ leBytes 2 k.width.toNat ++
        leBytes 4 k.cx.toNat ++ leBytes 4 k.cy.toNat ++ [k.spatter, 0] ++ leBytes 2 k.seq.toNat ++
        i16 (meanCorr x f.start (f.start + f.exposure)) ++ i16 (Int.tdiv x.tApp 2) ++ leBytes 2 k.sat.toNat ++ leBytes 2 k.peak.toNat
      ringPush b 1 (flag 1 inEm + flag 2 bad + flag 3 x.trimEn) (f.start + f.exposure / 2) body (onMpl b (fun x => { x with frameCount := 0 }) m)

/-- The first complete frame whose metrics are not ready yet (R351). -/
def Mpl.complete1 (x : Mpl) : Option CamFrame := (x.done ++ x.frame.toList).find? (fun f => decide (128 ≤ f.lines.length))

/-- It leaves. -/
def Mpl.frameGone (x : Mpl) : Mpl := if x.done = [] then { x with frame := none } else { x with done := x.done.drop 1 }

/-- The metrics of a complete frame are ready (R363 to R365, R369, R375) (DEDUCED, log row 79). -/
def framesReady (b : Fin 12) (m : Mach) : Mach :=
  match m.mpl[b].complete1 with
  | none => m
  | some f =>
    let (k, empty) := metricsOf m b f
    let inEm := litFrom m b (f.start * 65536) ((f.start + f.exposure) * 65536)
    let bad := inEm && (empty || decide (recFld m (recMplCamera b.val) 7 15 0 < k.sat.toNat))
    let m1 := onMpl b (fun x => { x.frameGone with
      met := k, frameValid := true, frameAt := some (now m), implausible := bad, lastInEmission := inEm,
      framesOk := x.framesOk + 1, framesImplausible := if bad then x.framesImplausible + 1 else x.framesImplausible }) m
    let m2 := whenM (trimEnNow m1 b (now m1)) (onMpl b (fun x => { x with slowMetric := slowOf m1 b k })) m1
    let m3 := sigWriteRaw (mplSig b 12) (k.seq.setWidth 32) (now m2) (sigWriteRaw (mplSig b 9) m2.mpl[b].slowMetric (now m2) m2)
    whenM bad (mplRaise b 3) (frameEntry b f inEm bad m3)

/-- No frame has been processed within 3 frame periods, or 6 under R389 (R365). -/
def frameGap (b : Fin 12) (m : Mach) : Mach :=
  let x := m.mpl[b]
  let n := if throttled m then 6000000000 else 3000000000
  let old := match x.frameAt with | some t => decide (n ≤ (now m - t) * x.camRate.toNat) | none => true
  if x.frameValid && old then mplRaise b 2 (onMpl b (fun x => { x with frameValid := false }) m) else m

/-! ### Conditions (R371, R373, R374) -/

/-- NO_LIGHT is set (R373). -/
def noLight (b : Fin 12) (m : Mach) : Mach :=
  let x := m.mpl[b]
  if x.noLight || x.darkRun < (recWord m (recMplFront b.val) 5).toNat || x.darkRun = 0 then m
  else logClass 5 b.val (slugId m b ++ [4]) (mplRaise b 4 (onMpl b (fun x => { x with noLight := true }) m))

/-- BACKREFL is set: fault 0x5001, and the beam retired with BR_ACTION 1 (R374, R375, R775). -/
def backRefl (b : Fin 12) (m : Mach) : Mach :=
  let x := m.mpl[b]
  if x.backrefl || x.brRun < recFld m (recMplFront b.val) 7 31 16 || x.brRun = 0 then m
  else
    let m1 := log 0x5001 sevFault b.val (slugId m b) (mplRaise b 5 (onMpl b (fun x => { x with backrefl := true }) m))
    whenM (recFld m1 recMgtFault 0 1 1 = 1) (retire b retLaser) m1

/-- CORR has exceeded its limit at every DAC instant for SAT_TIME_US (R371). -/
def corrSat (b : Fin 12) (m : Mach) : Mach :=
  let x := m.mpl[b]
  let key := emissionKey m b (now m)
  if x.corrRaised = some key || x.satRun < 2 * (recWord m (recMplLoop b.val) 3).toNat || x.satRun = 0 then m
  else logClass 5 b.val (slugId m b ++ [6]) (mplRaise b 6 (onMpl b (fun x => { x with corrRaised := some key }) m))

/-! ### The heat map -/

/-- A decay sweep begins (R380) (DEDUCED, log row 72). -/
def sweepBegin (m : Mach) : Mach :=
  if !inWork m || m.hmap.sweeping then m else hmSweep (onHmap (fun h => { h with sweeping := true }) m)

/-- It completes (R380, R400) (DEDUCED, log row 72). -/
def sweepDone (m : Mach) : Mach :=
  if m.hmap.sweeping then onHmap (fun h => { h with sweeping := false, sweeps := h.sweeps + 1 }) m else m

/-- The layer copy ends (R381) (DEDUCED, log row 72). -/
def copyDone (m : Mach) : Mach := onHmap (fun h => { h with copying := false }) m

/-- The beam of a lane's head. -/
def laneBeam (l : Fin 28) : Fin 12 := Fin.ofNat 12 (laneHead l).val

/-- CAM_BEGIN: a frame-begin frame on a lane. -/
def execCamBegin (l : Fin 28) (f : FrameIn) (s : State) : Out := s.act (rxFrame l 4 f (camBegin (laneBeam l) f.bytes))
/-- CAM_LINE: a line frame on a lane. -/
def execCamLine (l : Fin 28) (f : FrameIn) (s : State) : Out := s.act (rxFrame l 5 f (camLine (laneBeam l) f.bytes))
/-- FRAME_METRICS_READY. -/
def execFrameMetricsReady (b : Fin 12) (s : State) : Out := s.act (clocked b.val (framesReady b))
/-- FRAME_VALID_TIMEOUT. -/
def execFrameValidTimeout (b : Fin 12) (s : State) : Out := s.act (clocked b.val (frameGap b))
/-- NO_LIGHT. -/
def execNoLight (b : Fin 12) (s : State) : Out := s.act (clocked b.val (noLight b))
/-- BACKREFL. -/
def execBackrefl (b : Fin 12) (s : State) : Out := s.act (clocked b.val (backRefl b))
/-- CORR_SAT. -/
def execCorrSat (b : Fin 12) (s : State) : Out := s.act (clocked b.val (corrSat b))
/-- HMAP_DECAY_SWEEP. -/
def execHmapDecaySweep (s : State) : Out := s.act (clocked 12 sweepBegin)
/-- HMAP_SWEEP_DONE. -/
def execHmapSweepDone (s : State) : Out := s.act (clocked 12 sweepDone)
/-- HMAP_COPY_DONE. -/
def execHmapCopyDone (s : State) : Out := s.act (clocked 12 copyDone)

end Sys2Proof.Machine
end

