-- ==== Sys2Proof/Machine/RegView.lean ====
section
/-!
DEFINITION. What every BAR0 register reads (R46, R53, R65 and the register tables of the chapters). An ROS field reads the present
value of its source: the lag of R51 is timing (log row 15).
-/

namespace Sys2Proof.Machine

/-- A register word of a number. -/
def w32 (n : Nat) : Word := BitVec.ofNat 32 n

/-- A register word of a signed number. -/
def i32 (n : Int) : Word := BitVec.ofInt 32 n

/-- Bits [31:0] and [63:32] of a number. -/
def half (hi : Bool) (n : Nat) : Word := w32 (if hi then n / 2 ^ 32 else n)

/-- A base address pair that shows bits [32:k] and reads zero below. -/
def baseHalf (hi : Bool) (k n : Nat) : Word := half hi (n % 2 ^ 33 / 2 ^ k * 2 ^ k)

/-! ### GLB (R67 to R82, R96, R100) -/

/-- SAFE_N (R17, R589, R693, R803) (DEDUCED, log row 111). -/
def safeN (m : Mach) : Bool := m.clk.fallback ≠ .dead && (inWork m)

/-- FAULT_N (R17, R131, R589, R679, R693) (DEDUCED, log row 111). -/
def faultN (m : Mach) : Bool :=
  m.clk.fallback ≠ .dead &&
  match m.g.dev with
  | .boot => m.boot.phase ≠ .halted && !m.clk.refWait
  | .safeHold => !m.g.safeByFault
  | .shutdownLatched => false
  | _ => inWork m

/-- GLB_STATUS (R69). -/
def glbStatus (m : Mach) : Word :=
  w32 (m.g.dev.code + flag 4 m.g.hostAbsent + flag 5 m.g.bootWarm + flag 6 (m.g.dev = .safeHold && m.g.safeByFault) +
    flag 7 (m.boot.phase = .halted) + flag 8 m.ilk.a + flag 9 m.ilk.b + flag 10 (safeN m) + flag 11 (faultN m) +
    m.g.resetCause.toNat * 2 ^ 16 + lastShutdown m * 2 ^ 20)

/-- The registers of a DMA channel (R96). -/
def dmaView (c : DmaCh) (o : Nat) : Word :=
  if o = 0 then c.ringLo
  else if o = 4 then c.ringHi
  else if o = 8 then w32 c.log2.toNat
  else if o = 12 then w32 c.tail.toNat
  else if o = 16 then w32 c.head.toNat
  else if o = 20 then w32 (b2n c.enable)
  else if o = 24 then w32 (c.lastTag.toNat * 2 ^ 16 + c.lastResult.toNat * 16 + c.st.code)
  else 0

/-- The MSI-X table and the pending-bit array (R100). -/
def msixView (m : Mach) (off : Nat) : Word :=
  if off < 0x2400 then
    let e := m.g.msix[(Fin.ofNat 64 ((off - 0x2000) / 16))]
    match off % 16 / 4 with
    | 0 => half false e.addr.toNat
    | 1 => half true e.addr.toNat
    | 2 => e.data
    | _ => w32 (b2n e.mask)
  else if 0x3000 ≤ off && off < 0x3008 then
    w32 ((List.range 32).foldl (fun a i => a + flag i (m.g.msix[(Fin.ofNat 64 (i + 8 * (off - 0x3000)))]).pend) 0)
  else 0

/-- The GLB block. -/
def glbView (m : Mach) (off : Nat) : Word :=
  if off = 0 then w32 (0x24120000 + Config.stepLetter.toNat * 4096 + Config.stepDigit.toNat * 256 + Config.screen.toNat * 16)
  else if off = 8 then half false Config.uid.toNat
  else if off = 12 then half true Config.uid.toNat
  else if off = 0x10 then glbStatus m
  else if off = 0x14 then w32 (b2n m.g.preserve)
  else if off = 0x24 then m.g.heartbeat
  else if off = 0x38 then m.g.errAddr
  else if off = 0x3C then w32 (recFld m recGlbHost 0 9 0)
  else if off = 0x48 then m.g.winLo
  else if off = 0x4C then m.g.winHi
  else if 0x1000 ≤ off && off < 0x1400 then dmaView m.g.dma[(Fin.ofNat 4 ((off - 0x1000) / 0x100))] (off % 0x100)
  else if 0x2000 ≤ off then msixView m off
  else 0

/-! ### BOOT (R136, R154 to R158, R164, R172, R179 to R187) -/

/-- A bank's standing register (R185). -/
def bankView (m : Mach) (x : Bool) : Word :=
  let s := m.aon.standing x
  w32 ((m.boot.getBank x).state.toNat + s.attempts.toNat * 16 + flag 6 s.withdrawn + flag 7 s.writing)

/-- BOOT_STATUS (R183). -/
def bootStatus (m : Mach) : Word :=
  w32 (b2n m.boot.bank + flag 2 m.aon.validAtBoot + flag 3 (updBusy m) + m.boot.reloaded.toNat * 16 + m.boot.phase.code * 2 ^ 20 +
    m.aon.lastFail.toNat * 2 ^ 24)

/-- BOOT_REC_STATUS of a port; until the port selects a record the fields of the record stay at their reset values (R156). -/
def recStatus (m : Mach) (p : Port) : Word :=
  let s := m.g.port p
  let id := fld s.recSel 15 0
  let cls := match recInfo id with | some r => r.cls.code | none => 3
  let sel := if s.recChosen then cls * 2 ^ 16 + flag 18 (pendingOf m id).isSome + flag 19 (quoined m id) else 0
  w32 (id + sel + s.recResult.toNat * 2 ^ 20 + s.recWord.toNat * 2 ^ 24)

/-- Words of the record that a port has selected: the length that its chapter gives, or COEFS of a context's bank; 0 for an unknown record
and before a port selects one (R157, R433). -/
def recLen (m : Mach) (s : PortSt) : Nat :=
  let id := fld s.recSel 15 0
  if !s.recChosen then 0
  else if isCoef id then (match ctxDesc? (cellSec m) (id - 0x2000) with | some d => d.coefs | none => 0)
  else match recInfo id with | some r => r.len | none => 0

/-- The BOOT block. -/
def bootView (m : Mach) (p : Port) (o : Nat) : Word :=
  let b := m.boot
  let s := m.g.port p
  let id := fld s.recSel 15 0
  if o = 0 then bootStatus m
  else if o = 4 then b.ver
  else if o = 8 then half false b.stamp.toNat
  else if o = 0xC then half true b.stamp.toNat
  else if o = 0x10 then b.pred
  else if o = 0x20 then bankView m false
  else if o = 0x24 then bankView m true
  else if o = 0x28 then b.bankA.ver
  else if o = 0x2C then b.bankB.ver
  else if o = 0x30 then
    w32 ((List.range 4).foldl (fun a k => a + flag k (Config.keyHash k).isSome) 0 + b.revoked.toNat * 256 + b.keySlot.toNat * 4096 +
      b.floors.length * 2 ^ 16)
  else if o = 0x34 then w32 (versionFloor m)
  else if o = 0x44 then w32 (b.cmdResult.toNat + b.cmdOp.toNat * 256)
  else if o = 0x100 then w32 s.recSel.toNat
  else if o = 0x108 then recStatus m p
  else if o = 0x10C then w32 (recLen m s)
  else if o = 0x114 then w32 (b.quoins.length + flag 9 b.quoinAll)
  else if o = 0x204 then w32 (b.rlState.code + b.rlAsked.toNat * 2 ^ 24 + b.rlResult.toNat * 2 ^ 28)
  else if o = 0x210 then b.updSrcLo
  else if o = 0x214 then b.updSrcHi
  else if o = 0x218 then b.updLen
  else if o = 0x220 then updStatus m
  else if 0x400 ≤ o && o < 0x800 then
    (if bitOf s.recSel 16 then recWords m id else s.recBuf).getD ((o - 0x400) / 4) 0
  else 0

/-! ### JOB (R208 to R211, R227, R228) -/

/-- A slot's position among QUEUED slots. -/
def slotPos (m : Mach) (i : Fin 64) : Nat := if i ∈ m.job.queue then m.job.queue.idxOf i else 0x7F

/-- JOB_QUEUE (R211). -/
def jobQueue (m : Mach) : Word :=
  let n := (m.job.slots.toList.filter (fun s => decide (s.st ≠ .free))).length
  let act := match m.job.active with | some i => i.val + flag 14 true | none => 0
  let head := match m.job.queue.head? with | some i => i.val * 256 + flag 15 true | none => 0
  w32 (act + head + n * 2 ^ 16)

/-- The JOB block. -/
def jobView (m : Mach) (o : Nat) : Word :=
  let j := m.job
  if o = 0 then jobStatus m
  else if o = 0x20 then j.commitLo
  else if o = 0x24 then j.commitHi
  else if o = 0x2C then w32 (j.commitSeq.toNat + j.commitSlot.toNat * 256 + j.commitResult.toNat * 2 ^ 24)
  else if o = 0x30 then j.commitWhere
  else if o = 0x34 then jobQueue m
  else if o = 0x38 then w32 (jobLayer m)
  else if o = 0x3C then j.layersDone
  else if 0x400 ≤ o && o < 0x500 then
    let i : Fin 64 := Fin.ofNat 64 ((o - 0x400) / 4)
    w32 (slotPos m i + j.slots[i].st.code * 2 ^ 16)
  else if 0x600 ≤ o && o < 0x700 then
    let s := j.slots[(Fin.ofNat 64 ((o - 0x600) / 4))]
    if s.st = .free then 0 else s.id
  else 0

/-! ### IMP (R278 to R285) -/

/-- The bits of a set of beams. -/
def beamMask (f : Fin 12 → Bool) : Nat := allBeams.foldl (fun a b => a + flag b.val (f b)) 0

/-- IMP_STATUS (R278). -/
def impStatusView (m : Mach) : Word :=
  w32 (beamMask (beamLive m) + flag 12 (impFull m) + flag 13 m.imp.running + flag 14 (!m.imp.scans.isEmpty) + flag 15 m.imp.incomplete +
    beamMask (fun b => decide (m.imp.beams[b].cause ≠ 0)) * 2 ^ 16)

/-- Every level of a pool that has work left (R242): shared pools, then rescue pools. -/
def poolLevels (m : Mach) : List Nat :=
  let live := liveBeams m
  let shared := (List.range 64).map (fun z => (m.imp.u.getD z 0, live.filter (fun k => (poolBeams m z).testBit k.val)))
  let rescues := allBeams.map (fun r =>
    let mask := (m.imp.rescue[r]).foldl (fun w e => w ||| e.mask) (0 : BitVec 12)
    (rescueWork m r, live.filter (fun k => bitOf mask k.val)))
  ((shared ++ rescues).filter (fun (u, _) => decide (0 < u))).map (fun (u, e) => level m (byKappa m u) e)

/-- IMP_PRED (R279), whole µs (DEDUCED, log row 108). -/
def impPred (m : Mach) : Word :=
  if m.job.st ≠ .exposing then 0
  else w32 (((liveBeams m).map (loadOf m) ++ poolLevels m).foldl max 0 / 65536000)

/-- IMP_BEAMb.STATE (R284). -/
def impBeamState (m : Mach) (b : Fin 12) : Nat :=
  let x := m.imp.beams[b]
  if !fitted m b.val then 0
  else if x.cause ≠ 0 then 4
  else if x.cur.isSome then 2
  else if x.wait.isSome then 3
  else 1

/-- The per-beam registers (R284, R285): block 0 BEAM, 1 WEIGHT, 2 BUSY, 3 WAIT. -/
def impBeamView (m : Mach) (k : Nat) (b : Fin 12) : Word :=
  let x := m.imp.beams[b]
  match k with
  | 0 => w32 (impBeamState m b + flag 4 x.next.isSome + flag 5 (hasPrio m b) + flag 6 (x.galleyPending || x.pendingBoundary) + x.cause.toNat * 2 ^ 28)
  | 1 => w32 (weightOf m b + x.margin.toNat * 2 ^ 16)
  | 2 => x.busyUs + (if x.cur.isSome then w32 ((now m - x.curStart) / 1000) else 0)
  | _ => x.waitUs + (match x.wait with | some v => w32 ((now m - v.since) / 1000) | none => 0)

/-- The IMP block. -/
def impView (m : Mach) (o : Nat) : Word :=
  let x := m.imp
  if o = 0 then impStatusView m
  else if o = 4 then x.held
  else if o = 8 then impPred m
  else if o = 0x14 then w32 (x.cmdOp.toNat + x.cmdBeam.toNat * 2 ^ 24 + x.cmdResult.toNat * 2 ^ 28)
  else if o = 0x20 then baseHalf false 20 (impRing m)
  else if o = 0x24 then baseHalf true 20 (impRing m)
  else if o = 0x28 then w32 (impCap m)
  else if o = 0x2C then x.recWr
  else if o = 0x30 then x.recRd
  else if o = 0x34 then x.recSeq
  else if 0x100 ≤ o && o < 0x200 && o % 0x40 < 0x30 then impBeamView m ((o - 0x100) / 0x40) (Fin.ofNat 12 (o % 0x40 / 4))
  else 0

/-! ### BEAM, MPL and HMAP (R341 to R344, R395 to R400) -/

/-- Beam engine b. -/
def beamView (m : Mach) (b : Fin 12) (o : Nat) : Word :=
  let x := m.beams[b]
  if o = 0 then
    w32 (x.st.code + flag 4 x.gate + flag 5 x.stopValid + flag 6 x.driftStale + flag 7 x.gridAlt + x.pset.toNat * 2 ^ 16 + x.src.toNat * 2 ^ 24)
  else if o = 4 then x.index
  else if o = 8 then x.forme
  else if o = 0x10 then i32 x.spX
  else if o = 0x14 then i32 x.spY
  else if o = 0x18 then i32 x.spF
  else if o = 0x20 then i32 (divR (spotPoint m b (nowQ m - lagOf m b)).1 65536)
  else if o = 0x24 then i32 (divR (spotPoint m b (nowQ m - lagOf m b)).2 65536)
  else if o = 0x28 then x.stopX
  else if o = 0x2C then x.stopY
  else if o = 0x30 then w32 (x.kappa.toNat + x.sigma.toNat * 2 ^ 16)
  else if o = 0x34 then w32 (x.dac.toNat + x.req.toNat * 2 ^ 16)
  else if o = 0x38 then i32 x.temp
  else if o = 0x40 then half false x.onTime.toNat
  else if o = 0x44 then half true x.onTime.toNat
  else if o = 0x48 then w32 x.onSub.toNat
  else if o = 0x50 then x.shortMarks
  else if o = 0x54 then x.gapMoved
  else if o = 0x58 then x.arcLimited
  else if o = 0x5C then x.wobLimited
  else if o = 0x60 then x.laLate
  else if o = 0x64 then x.edgesOn
  else 0

/-- Melt-pool engine b. -/
def mplView (m : Mach) (b : Fin 12) (o : Nat) : Word :=
  let x := m.mpl[b]
  if o = 0 then
    w32 (flag 0 x.pdValid + flag 1 x.tempValid + flag 2 x.frameValid + flag 3 x.implausible + flag 4 x.fastEn + flag 5 x.trimEn +
      flag 6 x.noLight + flag 7 x.backrefl)
  else if o = 4 then w32 (x.a % 65536 + x.b % 65536 * 2 ^ 16)
  else if o = 8 then w32 (x.br % 65536)
  else if o = 0xC then x.temp
  else if o = 0x10 then i32 x.corr
  else if o = 0x14 then i32 x.tApp
  else if o = 0x20 then x.met.intensity
  else if o = 0x24 then x.met.area
  else if o = 0x28 then w32 (x.met.length.toNat + x.met.width.toNat * 2 ^ 16)
  else if o = 0x2C then x.met.cx
  else if o = 0x30 then x.met.cy
  else if o = 0x34 then w32 (x.met.spatter.toNat + x.met.seq.toNat * 2 ^ 16)
  else if o = 0x38 then w32 (x.met.peak.toNat + x.met.sat.toNat * 2 ^ 16)
  else if o = 0x50 then x.pdMissing
  else if o = 0x54 then x.pdLate
  else if o = 0x58 then x.pdSatWindows
  else if o = 0x5C then x.ratioClip
  else if o = 0x60 then x.framesOk
  else if o = 0x64 then x.framesDropped
  else if o = 0x68 then x.framesImplausible
  else 0

/-- The HMAP block. -/
def hmapView (m : Mach) (o : Nat) : Word :=
  let h := m.hmap
  if o = 0 then w32 (b2n h.cur + flag 1 h.sweeping + flag 2 h.copying + flag 3 (throttled m))
  else if o = 4 then w32 (hmNx m + hmNy m * 2 ^ 16)
  else if o = 8 then baseHalf false 20 (region m 3).1
  else if o = 0xC then baseHalf true 20 (region m 3).1
  else if o = 0x10 then h.sweeps
  else if o = 0x14 then h.late
  else if o = 0x2000 then baseHalf false 6 (region m 1).1
  else if o = 0x2004 then baseHalf true 6 (region m 1).1
  else if o = 0x2008 then w32 (ringCap m)
  else if o = 0x200C then h.wr
  else if o = 0x2010 then h.rd
  else if o = 0x2014 then h.seq
  else if o = 0x2018 then h.lost
  else 0

/-! ### SIG and CELL (R459 to R470) -/

/-- The signal switch. -/
def sigView (m : Mach) (o : Nat) : Word :=
  let s := m.sig.latch
  if o = 4 then s.v
  else if o = 8 then half false s.t.toNat
  else if o = 0xC then half true s.t.toNat
  else if o = 0x10 then
    w32 (flag 31 s.valid + (match s.ctx with | some k => k.toNat + 256 | none => 0))
  else 0

/-- A cell has an enabled event bit set (R466). -/
def cellPends (m : Mach) (c : Fin 128) : Bool :=
  decide (fld (regGet m (EvReg.cell c).off &&& regGet m (EvReg.cell c).en) 23 0 ≠ 0)

/-- The array registers from 0x07_0000 (R466, R467). -/
def arrView (m : Mach) (o : Nat) : Word :=
  let x := m.cells
  if o = 4 then w32 (x.cmdOp.toNat + x.cmdTarget.toNat * 256 + x.cmdResult.toNat * 2 ^ 28)
  else if o = 8 then w32 (spares m).length
  else if o = 0xC then
    (match x.subst with
     | some u => w32 (u.stage.toNat + u.tries % 16 * 4096 + u.dst.val * 2 ^ 16 + u.src.val * 2 ^ 24)
     | none => 0xFFFF0000)
  else if o = 0x24 then w32 ((deepStreams m).length + flag 29 x.deepWrapped + x.deepSt.toNat * 2 ^ 30)
  else if o = 0x28 then baseHalf false 20 (region m 4).1
  else if o = 0x2C then baseHalf true 20 (region m 4).1
  else if o = 0x30 then w32 (deepCap m)
  else if o = 0x34 then x.deepWr
  else if o = 0x38 then x.deepLost
  else if 0x40 ≤ o && o < 0x50 then
    w32 ((List.range 32).foldl (fun a i => a + flag i (cellPends m (Fin.ofNat 128 (8 * (o - 0x40) + i)))) 0)
  else if 0x400 ≤ o && o < 0x800 then
    let k : Fin 256 := Fin.ofNat 256 ((o - 0x400) / 4)
    match ctxOf m k, m.cells.ctx[k].cell with
    | some _, some c => w32 (c.val + flag 8 m.cells.ctx[k].slot)
    | _, _ => 0xFF
  else 0

/-- The context in slot `slot` of cell c (R460, R461), at offsets from 0x010. -/
def ctxView (m : Mach) (c : Fin 128) (slot : Bool) (o : Nat) : Word :=
  match (hosted m c).find? (fun k => m.cells.ctx[k].slot = slot) with
  | none => if o = 0 then 0xF00 else 0
  | some k =>
    let x := m.cells.ctx[k]
    let d := (ctxOf m k).getD (ctxDesc [] 0)
    let shadowed := match m.cells.subst with | some u => u.ctxs.any (fun s => decide (s.ctx = k.val) && s.data.isSome && !s.handed) | none => false
    if o = 0 then
      w32 (x.st.code + flag 6 shadowed + flag 7 x.engaged + (if d.beam < 12 then d.beam else 15) * 256 + d.owner % 16 * 4096 +
        x.ovrRun % 256 * 2 ^ 16 + k.val * 2 ^ 24)
    else if o = 4 then w32 (progCost (progOf m d))
    else if o = 8 then w32 d.period
    else if o = 0x10 then x.samples
    else if o = 0x14 then x.overruns
    else if o = 0x18 then x.inClamped
    else if o = 0x1C then x.limited
    else if o = 0x20 then x.lagMax
    else 0

/-- A trace channel's registers (R462), at offsets from TRCn_CTRL. -/
def trcView (t : Trc) (o : Nat) : Word :=
  if o = 4 then w32 (t.wptr % 2048 + t.trigIdx % 2048 * 2 ^ 16 + flag 28 t.ovrIn + flag 29 t.wrapped + t.st.toNat * 2 ^ 30)
  else if o = 0x10 then half false t.time.toNat
  else if o = 0x14 then half true t.time.toNat
  else 0

/-- Cell c. -/
def cellView (m : Mach) (c : Fin 128) (o : Nat) : Word :=
  let x := m.cells.cells[c]
  if o = 0 then w32 (x.st.code + x.partner.toNat * 256 + x.kat.toNat * 2 ^ 16 + x.hardFaults.toNat * 2 ^ 20)
  else if 0x10 ≤ o && o < 0x50 then ctxView m c false (o - 0x10)
  else if 0x50 ≤ o && o < 0x90 then ctxView m c true (o - 0x50)
  else if o = 0x90 then x.memCorr
  else if 0x100 ≤ o && o < 0x120 then trcView x.trc0 (o - 0x100)
  else if 0x120 ≤ o && o < 0x140 then trcView x.trc1 (o - 0x120)
  else 0

/-- A cell trace window (R65, R66) (DEDUCED, log row 89). -/
def trcWindow (m : Mach) (off : Nat) : Word :=
  let c : Fin 128 := Fin.ofNat 128 ((off - 0x200000) / 0x4000)
  let t := if off % 0x4000 < 0x2000 then m.cells.cells[c].trc0 else m.cells.cells[c].trc1
  look (fun _ => 0) t.ring (off % 0x2000 / 4)

/-! ### LANE (R511 to R516) -/

/-- The camera frames that are used come over this lane (DEDUCED, log row 91). -/
def laneCam (m : Mach) (l : Fin 28) : Bool :=
  decide (l.val < 24) && laneUp m l && (m.heads[(laneHead l)].route == isPrimary m l)

/-- Lane l. -/
def laneView (m : Mach) (l : Fin 28) (o : Nat) : Word :=
  let x := m.lanes[l]
  let h := m.heads[(laneHead l)]
  if o = 0 then
    w32 (x.st.code + flag 10 x.locked + flag 11 (laneCam m l) + flag 16 x.rxInvert + flag 17 x.swapped + laneRate m l % 4 * 2 ^ 18 +
      x.attempt.toNat * 2 ^ 24 + x.failCause.toNat * 2 ^ 28)
  else if o = 8 then w32 (x.scans.toNat + x.eyeH.toNat * 2 ^ 16 + x.eyeW.toNat * 2 ^ 24)
  else if o = 0x14 then x.prbsErr
  else if o = 0x40 then x.crcErr
  else if o = 0x44 then x.hdrInvalid
  else if o = 0x48 then x.runErr
  else if o = 0x4C then x.lockLoss
  else if o = 0x50 then x.sealVoid
  else if o = 0x54 then x.floodDrop
  else if o = 0x58 then x.duplicates
  else if o = 0x5C then x.frameAbort
  else if o = 0x60 then x.protocol
  else if o = 0x64 then x.retrains
  else if o = 0x80 && (l.val % 2 = 0 || 24 ≤ l.val) then
    w32 (fld h.bits 3 0 + flag 8 h.route + flag 9 h.silent + flag 10 h.released + h.rxFseq.toNat * 2 ^ 16)
  else 0

/-! ### STG (R573 to R578) -/

/-- STGa_STATUS (R573) (DEDUCED, log row 97). -/
def stgStatusView (m : Mach) (a : Fin 8) : Word :=
  let x := m.stg[a]
  w32 (x.st.code + flag 7 x.dirPos + flag 8 (x.remain.isSome && !axMoving x.st) + flag 9 x.limP + flag 10 x.limN + flag 11 x.homeIn +
    flag 12 x.decKept + flag 13 x.window + flag 14 x.homed + flag 15 x.posUnknown + x.homeResult.toNat * 2 ^ 24 + x.faultCause.toNat * 2 ^ 28)

/-- Axis a. -/
def stgView (m : Mach) (a : Fin 8) (o : Nat) : Word :=
  let x := m.stg[a]
  if o = 0 then stgStatusView m a
  else if o = 0xC then w32 (x.cmdOp.toNat + x.cmdResult.toNat * 2 ^ 28)
  else if o = 0x10 then i32 (posCmd m a)
  else if o = 0x14 then i32 (posMeas m a)
  else if o = 0x18 then i32 (measSpeed m a)
  else if o = 0x1C then i32 (cmdSpeed m a)
  else if o = 0x20 then i32 (match x.remain with | some r => if axMoving x.st then 0 else stepNm m a r | none => 0)
  else if o = 0x24 then w32 x.devMax
  else if o = 0x28 then i32 x.margin
  else if o = 0x2C then i32 x.meas
  else if o = 0x30 then i32 x.indexPos
  else if o = 0x40 then x.quadErr
  else if o = 0x44 then x.stalls
  else if o = 0x48 then x.limitStops
  else if o = 0x4C then x.ssiErr
  else if o = 0x50 then x.decKeptN
  else if o = 0x8C then
    w32 (x.cmp.list.length + flag 7 x.cmp.level + x.cmp.fired.toNat * 256 + x.cmp.missedIdx.toNat * 2 ^ 16 + flag 31 x.cmp.missed)
  else if o = 0x90 then half false x.cmp.time.toNat
  else if o = 0x94 then half true x.cmp.time.toNat
  else if o = 0x600 && a.val < 2 then x.enc.dropped
  else 0

/-! ### ILK, TIME and MEM (R606, R607, R635 to R637, R671 to R674) -/

/-- The ILK block. -/
def ilkView (m : Mach) (o : Nat) : Word :=
  let i := m.ilk
  if o = 0 then
    w32 (i.len.toNat + flag 16 i.lampInh + flag 17 i.disc + flag 18 i.latch + flag 19 (permitNow m) + i.hold.toNat * 2 ^ 20)
  else if o = 8 then half false i.inhTime.toNat
  else if o = 0xC then w32 (i.inhTime.toNat / 2 ^ 32 % 2 ^ 31 + flag 31 i.stampLate)
  else if o = 0x18 then w32 i.inhSub.toNat
  else if o = 0x14 then w32 i.scene.toNat
  else if o = 0x20 then w32 ((List.range 32).foldl (fun s a => s + flag a (decide (1 ≤ a) && (i.mods[(Fin.ofNat 32 a)]).failed)) 0)
  else if o = 0x40 then i.inhCount
  else if o = 0x44 then i.busCrc
  else if o = 0x48 then i.noAnswer
  else if o = 0x4C then i.flooredCount
  else if 0x104 ≤ o && o < 0x180 then
    let a := (o - 0x100) / 4
    let x := i.mods[(Fin.ofNat 32 a)]
    w32 (x.ch.toNat + flag 16 x.floored + flag 17 x.failed + x.missed.toNat * 2 ^ 24 + modKind m a * 2 ^ 28)
  else 0

/-- Build time (R624) and build elapsed time (R625). -/
def sinceTime (m : Mach) (t : Option (BitVec 64)) : Nat := match t with | some x => (m.time.dt - x).toNat | none => 0

/-- The TIME block. -/
def timeView (m : Mach) (p : Port) (o : Nat) : Word :=
  let t := m.time
  if o = 0 then half false t.dt.toNat
  else if o = 4 then half true t.dt.toNat
  else if o = 8 then w32 (m.g.port p).dtSub.toNat
  else if o = 0x10 then w32 (t.servo.code + flag 4 t.resumed + flag 5 t.degraded)
  else if o = 0x14 then w32 (t.port0.toNat + t.port1.toNat * 16)
  else if o = 0x18 then w32 t.utc.toNat
  else if o = 0x1C then t.offset
  else if o = 0x20 then half false t.map.dt.toNat
  else if o = 0x24 then half true t.map.dt.toNat
  else if o = 0x28 then half false t.map.sec.toNat
  else if o = 0x2C then half true t.map.sec.toNat
  else if o = 0x30 then t.map.ns
  else if o = 0x34 then t.map.rate
  else if o = 0x48 then half false t.snapDt.toNat
  else if o = 0x4C then half true t.snapDt.toNat
  else if o = 0x50 then half false t.snapSec.toNat
  else if o = 0x54 then half true t.snapSec.toNat
  else if o = 0x58 then t.snapNs
  else if o = 0x60 then half false (sinceTime m t.layerAt)
  else if o = 0x64 then half true (sinceTime m t.layerAt)
  else if o = 0x68 then t.layerNo
  else if o = 0x70 then half false (sinceTime m t.startAt)
  else if o = 0x74 then half true (sinceTime m t.startAt)
  else if o = 0x78 then t.tsyncLost
  else if 0x100 ≤ o && o < 0x1E0 then
    let x := t.lanes[(Fin.ofNat 28 ((o - 0x100) / 8))]
    if o % 8 = 0 then x.offset else x.delay
  else if o = 0x200 then w32 t.aligned.toNat
  else 0

/-- The MEM block. -/
def memView (m : Mach) (o : Nat) : Word :=
  let x := m.mem
  if o = 0 then
    w32 (x.ch0.st.code + x.ch1.st.code * 16 + flag 8 x.preserved + flag 9 x.ch0.trainNone + flag 10 x.ch1.trainNone + flag 11 x.sweeping)
  else if 0x10 ≤ o && o < 0x30 then
    let c := x.ch (o / 0x20)
    if o % 16 = 0 then w32 (c.winWr.toNat + c.winRd.toNat * 256 + c.refMult.toNat * 2 ^ 16 + c.temp.toNat * 2 ^ 24)
    else if o % 16 = 4 then c.trains
    else 0
  else if o = 0x40 then x.ce
  else if o = 0x44 then x.ue
  else if o = 0x48 then x.hotRef
  else if o = 0x4C then x.scrubPasses
  else if o = 0x50 then x.fwd
  else if o = 0x60 then half false (x.ueAddr.toNat / 64 * 64)
  else if o = 0x64 then w32 (fld x.ueAddr 32 32 + x.ueReq.toNat * 2 ^ 16 + flag 31 x.ueOverrun)
  else if 0x100 ≤ o && o < 0x170 then
    let r := region m ((o - 0x100) / 16)
    match o % 16 with
    | 0 => baseHalf false 20 r.1
    | 4 => baseHalf true 20 r.1
    | 8 => baseHalf false 20 r.2
    | _ => baseHalf true 20 r.2
  else 0

/-! ### CLK and PWR (R708 to R715) -/

/-- CLK_OUTc (R709): SRC reads the value last written (DEDUCED, log row 25). -/
def clkOutView (x : ClkOut) : Word := w32 ((x.pend.getD x.src).toNat + x.div.toNat * 256 + flag 31 x.pend.isSome)

/-- The CLK block. -/
def clkView (m : Mach) (o : Nat) : Word :=
  let k := m.clk
  if o = 0 then
    w32 (k.rootRef.toNat + flag 4 k.rcRun + flag 5 k.rcQual + flag 6 k.refQual + flag 7 k.xtalQual + k.lock.toNat * 256 +
      flag 14 (bitOf k.spread 0 && bitOf k.lock 5) + k.tripCause.toNat * 2 ^ 16)
  else if o = 0x10 then clkOutView k.out0
  else if o = 0x14 then clkOutView k.out1
  else if o = 0x20 then w32 k.gateReq.toNat
  else if o = 0x24 then w32 k.gateClosed.toNat
  else if o = 0x28 then k.gateErrs
  else 0

/-- Bits [255:16] of retention, then its CRC (R702) (DEDUCED, log row 14). -/
def retBits (m : Mach) : Nat :=
  let a := m.aon
  a.a.attempts.toNat + a.b.attempts.toNat * 4 + flag 4 a.a.withdrawn + flag 5 a.b.withdrawn + flag 6 a.a.writing + flag 7 a.b.writing +
    flag 8 a.last + a.shutdown.toNat * 2 ^ 9 + a.marker.toNat * 2 ^ 16 + a.resetDt.toNat * 2 ^ 80 + a.lastFail.toNat * 2 ^ 144

/-- PWR_RETn (R702, R715); what invalid retention holds is a free value (DEDUCED, log row 14). -/
def retView (m : Mach) (n : Nat) : Word :=
  if m.aon.retValid then
    let b := retBits m
    w32 ((b * 65536 + (crc16 (leBytes 30 b)).toNat) / 2 ^ (32 * n))
  else Config.freeWord (m.free + n)

/-- The PWR block. -/
def pwrView (m : Mach) (o : Nat) : Word :=
  if o = 0 then w32 (m.clk.domains.toNat + flag 12 m.aon.pwrReq + flag 13 m.aon.retValid)
  else if o = 4 then w32 m.aon.stby.toNat
  else if o = 8 then half false m.aon.rtc.toNat
  else if o = 0xC then half true m.aon.rtc.toNat
  else if o = 0x10 then half false m.aon.alarm.toNat
  else if o = 0x14 then half true m.aon.alarm.toNat
  else if 0x20 ≤ o && o < 0x40 then retView m ((o - 0x20) / 4)
  else 0

/-! ### HLT and MGT (R755 to R758, R785, R786) -/

/-- HLT_TEMP and HLT_STAGE (R756). -/
def hltTemp (m : Mach) : Word := w32 (m.hlt.tempIo.toNat + m.hlt.tempCore.toNat * 2 ^ 16)
/-- HLT_STAGE. -/
def hltStage (m : Mach) : Word := w32 (m.hlt.stage.code + kappaNow m * 2 ^ 16)

/-- The HLT block. -/
def hltView (m : Mach) (o : Nat) : Word :=
  let h := m.hlt
  if o = 0 then w32 (h.vcoreBoot.toNat * 2 + h.vcore.toNat * 64 + kappaTh m * 2 ^ 16)
  else if o = 4 then hltTemp m
  else if o = 8 then hltStage m
  else if o = 0xC then h.dMax
  else if o = 0x10 then w32 h.vcoreMv.toNat
  else if o = 0x14 then h.raises
  else if o = 0x20 then w32 ((List.range 5).foldl (fun a d => a + flag d (h.failed.any (fun u => decide (u.1.domain = d)))) 0)
  else if o = 0x24 then w32 ((List.range 5).foldl (fun a d => a + flag d (h.runs.any (fun u => decide (u.unit.domain = d)))) 0)
  else if 0x100 ≤ o && o < 0x130 then
    let x := h.lasers[(Fin.ofNat 12 ((o - 0x100) / 4))]
    w32 (x.gain.toNat + x.ratio / 65536 % 65536 * 2 ^ 16)
  else 0

/-- The MGT block. -/
def mgtView (m : Mach) (o : Nat) : Word :=
  let g := m.mgt
  if o = 0 then m.boot.fwVer
  else if o = 8 then w32 g.safeCause.toNat
  else if o = 0xC then g.repairs
  else if o = 0x14 then w32 (g.mbState.code + g.mbResult.toNat * 16 + g.mbTag.toNat * 2 ^ 24)
  else if 0x20 ≤ o && o < 0x40 then g.mbArgs[(Fin.ofNat 8 ((o - 0x20) / 4))]
  else if 0x40 ≤ o && o < 0x60 then g.mbRes[(Fin.ofNat 8 ((o - 0x40) / 4))]
  else if o = 0x100 then baseHalf false 20 (region m 5).1
  else if o = 0x104 then baseHalf true 20 (region m 5).1
  else if o = 0x108 then w32 (stageCap m)
  else if o = 0x10C then g.logWr
  else if o = 0x110 then g.logSeq
  else if o = 0x114 then g.logFlushed
  else if o = 0x118 then g.logLost
  else if o = 0x11C then g.nvmOldest
  else 0

/-! ### The whole map (R65) -/

/-- The register at an offset, where its block answers; reserved offsets read zero (R53). -/
def regView (m : Mach) (p : Port) (off : Nat) : Word :=
  if (evFind off).isSome || (regRow off).isSome then regGet m off
  else if off < 0x10000 then glbView m off
  else if off < 0x20000 then bootView m p (off - 0x10000)
  else if off < 0x30000 then jobView m (off - 0x20000)
  else if off < 0x40000 then impView m (off - 0x30000)
  else if off < 0x4C000 then beamView m (Fin.ofNat 12 ((off - 0x40000) / 0x1000)) (off % 0x1000)
  else if off < 0x50000 then 0
  else if off < 0x5C000 then mplView m (Fin.ofNat 12 ((off - 0x50000) / 0x1000)) (off % 0x1000)
  else if off < 0x60000 then hmapView m (off - 0x5C000)
  else if off < 0x70000 then sigView m (off - 0x60000)
  else if off < 0x80000 then arrView m (off - 0x70000)
  else if off < 0xA0000 then cellView m (Fin.ofNat 128 ((off - 0x80000) / 0x400)) (off % 0x400)
  else if off < 0xA7000 then laneView m (Fin.ofNat 28 ((off - 0xA0000) / 0x400)) (off % 0x400)
  else if off < 0xB0000 then 0
  else if off < 0xB4000 then stgView m (Fin.ofNat 8 ((off - 0xB0000) / 0x800)) (off % 0x800)
  else if off < 0xC0000 then 0
  else if off < 0xD0000 then ilkView m (off - 0xC0000)
  else if off < 0xE0000 then timeView m p (off - 0xD0000)
  else if off < 0xF0000 then memView m (off - 0xE0000)
  else if off < 0xF8000 then clkView m (off - 0xF0000)
  else if off < 0x100000 then pwrView m (off - 0xF8000)
  else if off < 0x110000 then hltView m (off - 0x100000)
  else if off < 0x120000 then mgtView m (off - 0x110000)
  else if 0x200000 ≤ off && off < 0x400000 then trcWindow m off
  else 0

end Sys2Proof.Machine
end

