-- ==== Sys2Proof/Machine/RegWrite.lean ====
section
/-!
DEFINITION. Register accesses by their access codes (R46, R49, R54, R56 to R63), register pairs and their shadows (R57, R58), the
telemetry datagram (R781) and the chamber inputs (R426, R737).
-/

namespace Sys2Proof.Machine

/-! ### Access codes (R46) -/

/-- A write to an event register (R46, R78, R341, R672): OVERRUN and GRID_ALT go with the bits that they follow. -/
def sqcWrite (e : EvReg) (v : Word) (m : Mach) : Mach :=
  let m1 := regSet e.off (sqcClear (regGet m e.off) v) m
  match e with
  | .glb =>
    if raised m1 .glb 3 || raised m1 .glb 4 || raised m1 .glb 5 then m1
    else { m1 with g := { m1.g with errAddr := m1.g.errAddr &&& 0x7FFFFFFF#32 } }
  | .mem => if raised m1 .mem 1 then m1 else { m1 with mem := { m1.mem with ueOverrun := false } }
  | .beam b => if raised m1 (.beam b) 7 then m1 else onBeam b (fun x => { x with gridAlt := false }) m1
  | _ => m1

/-- GLB_CTRL, a masked write (R46, R70). -/
def ctrlWrite (v : Word) (m : Mach) : Mach :=
  if bitOf v 16 then { m with g := { m.g with preserve := bitOf v 0 } } else m

/-- GLB_MSIX_MOD (R82). -/
def msixMod (p : Port) (v : Word) (m : Mach) : Mach :=
  if 1000 < fld v 9 0 then accErr p 0x50 m else regSet 0x50 (v &&& 0x3FF#32) m

/-- A word of the MSI-X table (R100); the pending-bit array is RO (DEDUCED, log row 23). -/
def msixWrite (off : Nat) (v : Word) (m : Mach) : Mach :=
  if 0x2400 ≤ off then m
  else
    let i : Fin 64 := Fin.ofNat 64 ((off - 0x2000) / 16)
    let e := m.g.msix[i]
    let put_ := fun (x : MsixVec) => { m with g := { m.g with msix := m.g.msix.set i x } }
    match off % 16 / 4 with
    | 0 => put_ { e with addr := BitVec.ofNat 64 (e.addr.toNat / 2 ^ 32 * 2 ^ 32 + v.toNat / 4 * 4) }
    | 1 => put_ { e with addr := BitVec.ofNat 64 (v.toNat * 2 ^ 32 + e.addr.toNat % 2 ^ 32) }
    | 2 => put_ { e with data := v }
    | _ => msixMask i (bitOf v 0) m

/-- HLT_LASERb: RATIO sets R (R726, R758). -/
def ratioWrite (b : Fin 12) (v : Word) : Mach → Mach := onLaser b (fun x => { x with ratio := fld v 31 16 * 65536 })

/-- An argument of the mailbox, from the host port only (R764, R785). -/
def argWrite (p : Port) (i : Fin 8) (v : Word) (m : Mach) : Mach :=
  if p = .mgmt then m else { m with mgt := { m.mgt with mbArgs := m.mgt.mbArgs.set i v } }

/-- LANEl_PRBS: the error count restarts with RUN, which acts in TEST (R514). -/
def prbsWrite (l : Fin 28) (v : Word) (m : Mach) : Mach :=
  let off := 0xA0010 + 0x400 * l.val
  let starts := bitOf v 0 && !bitOf (regGet m off) 0 && decide (m.lanes[l].st = .test)
  regSet off (v &&& 0x31#32) (whenM starts (onLane l (fun x => { x with prbsErr := 0 })) m)

/-- The calibration unit whose result a register holds (R734, R741). -/
def regUnit (off : Nat) : Option CalUnit :=
  if 0x40000 ≤ off && off < 0x4C000 then some ⟨domTaps, (off - 0x40000) / 0x1000⟩
  else if 0x50000 ≤ off && off < 0x5C000 then some ⟨domPd, (off - 0x50000) / 0x1000⟩
  else if 0xA0000 ≤ off && off < 0xA7000 then some ⟨domLane, (off - 0xA0000) / 0x400⟩
  else if 0x100140 ≤ off && off < 0x100170 then some ⟨domDac, (off - 0x100140) / 4⟩
  else if 0x100180 ≤ off && off < 0x1001C0 then some ⟨domAdc, (off - 0x100180) / 4⟩
  else none

/-- A register held as written: its implemented bits are replaced; a calibration result's unit takes the present temperature as
its reference (R46, R53, R741). An RO or reserved offset ignores the write. -/
def heldWrite (off : Nat) (v : Word) (m : Mach) : Mach :=
  match regRow off with
  | none => m
  | some r =>
    let m1 := regSet off (v &&& r.mask) m
    match regUnit off with
    | some u => if off ∈ unitRegs u then setRef u m1 else m1
    | none => m1

/-- A write to a LOCK field: the first since the last full reset replaces it; an offset with no writable register ignores it (R46, R49,
R50, R53) (DESIGN CHOICE, log row 19). -/
def lockWrite (p : Port) (off : Nat) (v : Word) (m : Mach) : Mach :=
  if (regRow off).isNone then m
  else if m.g.locked.any (fun x => decide (x.1 = off)) then lockErr p off m
  else heldWrite off v { m with g := { m.g with locked := m.g.locked ++ [(off, v)] } }

/-! ### Commits and take points, with the weights that follow them (R241, R272) -/

/-- The weights that the imposition engine follows have changed between two states. -/
def weightsMoved (m n : Mach) : Bool := decide (recWords n recImpWeight ≠ recWords m recImpWeight)

/-- A BOOT_REC_COMMIT write, and the weights that change with it. -/
def commitWrite (p : Port) (w : Word) (m : Mach) : Mach :=
  let m1 := recCommit p w m
  whenM (weightsMoved m m1) weightsFollow m1

/-- A take point, and the weights that change at it. -/
def takeNow (id : Nat) (m : Mach) : Mach :=
  let m1 := recordTake id m
  whenM (weightsMoved m m1) weightsFollow m1

/-! ### The write map (R65) -/

/-- Writes to the GLB block. -/
def glbWrite (p : Port) (off : Nat) (v : Word) (m : Mach) : Mach :=
  if off = 0x14 then ctrlWrite v m
  else if off = 0x20 then glbCmd v m
  else if off = 0x24 then heartbeat p v m
  else if off = 0x28 then resetKey p v m
  else if off = 0x50 then msixMod p v m
  else if 0x1000 ≤ off && off < 0x1400 && off % 0x100 = 8 then dmaSize p (Fin.ofNat 4 ((off - 0x1000) / 0x100)) v m
  else if 0x1000 ≤ off && off < 0x1400 && off % 0x100 = 12 then dmaTail (Fin.ofNat 4 ((off - 0x1000) / 0x100)) v m
  else if 0x1000 ≤ off && off < 0x1400 && off % 0x100 = 20 then dmaCtrl (Fin.ofNat 4 ((off - 0x1000) / 0x100)) v m
  else if 0x2000 ≤ off && off < 0x4000 then msixWrite off v m
  else heldWrite off v m

/-- Writes to the BOOT block. -/
def bootWrite (p : Port) (off : Nat) (v : Word) (m : Mach) : Mach :=
  if off = offBootCmd then bootCmd v m
  else if off = 0x10100 then recSelect p v m
  else if off = offRecCommit then commitWrite p v m
  else if off = 0x10110 then quoinAdd p v m
  else if off = 0x10200 then reloadRequest v m
  else if off = 0x10218 then onBoot (fun b => { b with updLen := v &&& 0x3FFFFFF#32 }) m
  else if off = 0x1021C then updCmd v m
  else if 0x10400 ≤ off && off < 0x10800 then recDataWrite p ((off - 0x10400) / 4) v m
  else heldWrite off v m

/-- Writes to the CELL and SIG blocks. -/
def cellsWrite (p : Port) (off : Nat) (v : Word) (m : Mach) : Mach :=
  if off = 0x60000 then sigSelWrite v m
  else if off = offCellCmd then cellCmd v m
  else if off = 0x70010 then trgWrite v m
  else if off = 0x70020 then deepCtrlWrite v m
  else if 0x80000 ≤ off then
    let c : Fin 128 := Fin.ofNat 128 ((off - 0x80000) / 0x400)
    let o := off % 0x400
    if o = 0x30 then lagClear c false m
    else if o = 0x70 then lagClear c true m
    else if o = 0x100 then trcCtrlWrite p c 0 v m
    else if o = 0x120 then trcCtrlWrite p c 1 v m
    else if (o = 0x10C || o = 0x12C) && fld v 15 0 = 0 then accErr p off m
    else heldWrite off v m
  else heldWrite off v m

/-- Writes to the LANE block; the raw errors of a TEST that ends come with TEST_EXIT. -/
def laneWrite (off : Nat) (v : Word) (m : Mach) : Mach :=
  let l : Fin 28 := Fin.ofNat 28 ((off - 0xA0000) / 0x400)
  let o := off % 0x400
  if o = 4 then laneCmd l 0 v m
  else if o = 0x10 then prbsWrite l v m
  else if o = 0x18 then laneInject l v m
  else heldWrite off v m

/-- Writes to the STG block. -/
def stgWrite (off : Nat) (v : Word) (m : Mach) : Mach :=
  let a : Fin 8 := Fin.ofNat 8 ((off - 0xB0000) / 0x800)
  let o := off % 0x800
  if o = 4 then stgCmd a v m
  else if o = 0x84 then cmpPush a v m
  else heldWrite off v m

/-- Writes to the CLK and PWR blocks. -/
def clkWrite (p : Port) (off : Nat) (v : Word) (m : Mach) : Mach :=
  if off = 0xF0010 then clkOutWrite p 0 v m
  else if off = 0xF0014 then clkOutWrite p 1 v m
  else if off = 0xF0020 then gateRequest p v m
  else if off = 0xF8004 then onAon (fun a => { a with stby := BitVec.ofNat 5 v.toNat }) m
  else heldWrite off v m

/-- Writes to the HLT and MGT blocks. -/
def hltWrite (p : Port) (off : Nat) (v : Word) (m : Mach) : Mach :=
  if off = offHltCmd then hltCmd v m
  else if 0x100100 ≤ off && off < 0x100130 then ratioWrite (Fin.ofNat 12 ((off - 0x100100) / 4)) v m
  else if off = offMbCmd then mbCmd p v m
  else if 0x110020 ≤ off && off < 0x110040 then argWrite p (Fin.ofNat 8 ((off - 0x110020) / 4)) v m
  else heldWrite off v m

/-- A 32-bit write to a register that is no half of a pair (R46, R65) (DEDUCED, log row 22). -/
def regWrite (p : Port) (off : Nat) (v : Word) (m : Mach) : Mach :=
  match evFind off with
  | some e => sqcWrite e v m
  | none =>
    if m.g.locked.any (fun x => decide (x.1 = off)) then lockWrite p off v m
    else if off < 0x10000 then glbWrite p off v m
    else if off < 0x20000 then bootWrite p off v m
    else if off = offJobCmd then jobCmd v m
    else if off = 0x20028 then jobCommit v m
    else if off = offImpCmd then impCmd v m
    else if off = 0x30030 then impRelease p v m
    else if off = 0x5E010 then ringRelease p v m
    else if 0x60000 ≤ off && off < 0xA0000 then cellsWrite p off v m
    else if 0xA0000 ≤ off && off < 0xA7000 then laneWrite off v m
    else if 0xB0000 ≤ off && off < 0xB4000 then stgWrite off v m
    else if off = offIlkCmd then ilkCmd v m
    else if off = 0xD0040 then timeSnap v m
    else if off = offMemCmd then memCmd v m
    else if 0xF0000 ≤ off && off < 0x100000 then clkWrite p off v m
    else if 0x100000 ≤ off && off < 0x120000 then hltWrite p off v m
    else heldWrite off v m

/-! ### Register pairs (R57, R58) -/

/-- Low words of the register pairs: of one offset, then of the striped units (DEDUCED, log row 23). -/
def pairSingles : List Nat :=
  [0x8, 0x48, 0x10008, 0x10210, 0x20020, 0x30020, 0x5C008, 0x5E000, 0x60008, 0x70028, 0xC0008, 0xD0000, 0xD0020, 0xD0028, 0xD0048,
   0xD0050, 0xD0060, 0xD0070, 0xE0060, 0xF8008, 0xF8010, 0x110100]

/-- Whether an offset is the low word of a pair. -/
def isPair (off : Nat) : Bool :=
  off ∈ pairSingles ||
  (0x1000 ≤ off && off < 0x1400 && off % 0x100 = 0) ||
  (0x40000 ≤ off && off < 0x4C000 && off % 0x1000 = 0x40) ||
  (0x80000 ≤ off && off < 0xA0000 && (off % 0x400 = 0x110 || off % 0x400 = 0x130)) ||
  (0xB0000 ≤ off && off < 0xB4000 && off % 0x800 = 0x90) ||
  (0xE0100 ≤ off && off < 0xE0170 && off % 8 = 0)

/-- Whether an offset is the high word of a pair. -/
def isPairHigh (off : Nat) : Bool := decide (4 ≤ off) && isPair (off - 4)

/-- PWR_ALARM (R714). -/
def alarmWrite (lo hi : Word) : Mach → Mach :=
  onAon (fun a => { a with alarm := BitVec.ofNat 48 (lo.toNat + fld hi 15 0 * 2 ^ 32) })

/-- Both words of a pair written at one instant by an access at `off` (R57); an RO pair is unchanged. -/
def pairWrite (p : Port) (off low : Nat) (lo hi : Word) (m : Mach) : Mach :=
  if low = 0x48 then winWrite p off lo hi m
  else if 0x1000 ≤ low && low < 0x1400 then dmaRing p off (Fin.ofNat 4 ((low - 0x1000) / 0x100)) lo hi m
  else if low = 0x10210 then onBoot (fun b => { b with updSrcLo := lo &&& 0xFFFFFFC0#32, updSrcHi := hi &&& 1#32 }) m
  else if low = 0x20020 then onJob (fun j => { j with commitLo := lo &&& 0xFFFFF000#32, commitHi := hi &&& 1#32 }) m
  else if low = 0xF8010 then alarmWrite lo hi m
  else m

/-- A 32-bit write of a pair's low word: held in the port's write shadow; in a block that does not answer it is ignored with ACCERR, and no
shadow is filled (R58, R63) (DEDUCED, log row 21). -/
def pairLowWrite (p : Port) (off : Nat) (v : Word) (m : Mach) : Mach :=
  if !reaches m p then m
  else
    let other := match (m.g.port p).wr with | some (o, _) => decide (o ≠ off) | none => false
    let m1 := whenM other (dropShadow p off) m
    if answers m1 off then onPort p (fun s => { s with wr := some (off, v) }) m1 else accErr p off m1

/-- A 32-bit write of a pair's high word: both words together where the write shadow holds the pair, else the high word alone with
SHADOW_MISS. In a block that does not answer it is ignored with ACCERR alone, and a shadow that holds the pair is emptied (R58, R63)
(DEDUCED, log row 21). -/
def pairHighWrite (p : Port) (off : Nat) (v : Word) (m : Mach) : Mach :=
  if !reaches m p then m
  else
    let low := off - 4
    match (m.g.port p).wr with
    | some (o, lo) =>
      if o = low then
        let m1 := onPort p (fun s => { s with wr := none }) m
        if answers m1 off then pairWrite p off low lo v m1 else accErr p off m1
      else if answers m off then shadowMiss p off (pairWrite p off low (regView m p low) v m) else accErr p off m
    | none => if answers m off then shadowMiss p off (pairWrite p off low (regView m p low) v m) else accErr p off m

/-- The completion of a read of a register that answers, or zero with ACCERR (R63) (DEDUCED, log row 24). -/
def readGate (p : Port) (off : Nat) (f : Mach → Mach) (m : Mach) : Mach :=
  if !reaches m p then m
  else if answers m off then f m
  else accErr p off (emit (.readData p off 0) m)

/-- A 32-bit read of a pair's low word: the high word is latched, and DT_SUB with TIME_DT_LO (R58, R635). Any other register is
read as it is (R46) (DEDUCED, log row 24). -/
def pairLowRead (p : Port) (off : Nat) (m : Mach) : Mach :=
  let m1 := emit (.readData p off (regView m p off)) m
  let m2 := whenM (off = 0xD0000) (onPort p (fun s => { s with dtSub := m.time.sub })) m1
  if isPair off then onPort p (fun s => { s with rd := some (off, regView m p (off + 4)) }) m2 else m2

/-- A 32-bit read of a pair's high word: the shadow where it holds the pair, else the live word with SHADOW_MISS (R58)
(DEDUCED, log row 24). -/
def pairHighRead (p : Port) (off : Nat) (m : Mach) : Mach :=
  let live := emit (.readData p off (regView m p off)) m
  if !isPairHigh off then live
  else
    match (m.g.port p).rd with
    | some (o, w) =>
      if o = off - 4 then onPort p (fun s => { s with rd := none }) (emit (.readData p off w) m) else shadowMiss p off live
    | none => shadowMiss p off live

/-- A 32-bit register write with its byte enables: a partial one is discarded with ACCERR, at a reserved offset too, and no shadow changes
(R53, R58, R59) (DEDUCED, log row 22). -/
def anyWrite (p : Port) (off : Nat) (v : Word) (be : BitVec 4) (m : Mach) : Mach :=
  if be ≠ 15#4 then whenM (reaches m p) (accErr p off) m
  else if isPair off then pairLowWrite p off v m
  else if isPairHigh off then pairHighWrite p off v m
  else writeGate p off (regWrite p off v) m

/-- An aligned 64-bit write: both words of a pair at one instant, else word by word (R57, R58, R60). -/
def pairLongWrite (p : Port) (off : Nat) (v : BitVec 64) (m : Mach) : Mach :=
  let lo : Word := w32 v.toNat
  let hi : Word := w32 (v.toNat / 2 ^ 32)
  if isPair off then pairGate p off (pairWrite p off off lo hi) m
  else anyWrite p (off + 4) hi 15#4 (anyWrite p off lo 15#4 m)

/-- A write longer than 8 bytes: word by word in ascending address order (R60). -/
def wordsWrite (p : Port) : Nat → List Word → Mach → Mach
  | _, [], m => m
  | off, v :: t, m => wordsWrite p (off + 4) t (anyWrite p off v 15#4 m)

/-- A write of 8 bytes, and of further words (R57, R60). -/
def longWrite (p : Port) (off : Nat) (v : BitVec 64) (more : List Word) (m : Mach) : Mach :=
  if more = [] then pairLongWrite p off v m else wordsWrite p off (w32 v.toNat :: w32 (v.toNat / 2 ^ 32) :: more) m

/-- An aligned 64-bit read of a pair: both words of one instant; the shadows have no part in it (R57). -/
def pairBothRead (p : Port) (off : Nat) (m : Mach) : Mach :=
  whenM (off = 0xD0000) (onPort p (fun s => { s with dtSub := m.time.sub }))
    (emit (.readData p (off + 4) (regView m p (off + 4))) (emit (.readData p off (regView m p off)) m))

/-- A 32-bit read of any register. -/
def anyRead (p : Port) (off : Nat) : Mach → Mach :=
  readGate p off (if isPairHigh off then pairHighRead p off else pairLowRead p off)

/-- A read of one word and `long` further ones: an aligned 64-bit read of a pair is atomic, any other long one goes word by word in
ascending address order (R57, R60). -/
def longRead (p : Port) (off long : Nat) (m : Mach) : Mach :=
  if long = 1 && isPair off then readGate p off (pairBothRead p off) m
  else eachM (List.range (long + 1)) (fun i => anyRead p (off + 4 * i)) m

/-! ### Telemetry and chamber inputs -/

/-- The telemetry datagram (R781), least significant byte first (R5) (DEDUCED, log row 108). -/
def telemetryBytes (m : Mach) : List Byte :=
  let w := fun (x : Word) => leBytes 4 x.toNat
  leBytes 8 m.time.dt.toNat ++ leBytes 8 (networkQ m (nowQ m) / 65536) ++ w (glbStatus m) ++ w (jobStatus m) ++
    leBytes 4 (jobLayer m) ++ w (impStatusView m) ++ w (impPred m) ++ w (hltTemp m) ++ w (hltStage m) ++ w m.mgt.logSeq

/-- A telemetry interval ends (R781, R784): TELEM_MS 0 is off, TELEM_IP 0 is none (DEDUCED, log row 108). -/
def telemetry (m : Mach) : Mach :=
  if logAlive m && netLive m && recFld m recMgtNet 2 31 16 ≠ 0 && recWord m recMgtNet 1 ≠ 0 then
    emit (.datagram (recWord m recMgtNet 1) (recFld m recMgtNet 2 15 0) (telemetryBytes m)) m
  else m

/-- The chamber inputs and the signal switch are on (R16). -/
def chamberOn (m : Mach) : Bool := powered m && domainOn m 11 && domainOn m 4

/-- A conversion of analogue input i (R426, R758): the code less the input's offset; the reference conversion leaves value and stamp
(R737). -/
def ainConvert (i : Fin 16) (raw : BitVec 12) (ref : Bool) (m : Mach) : Mach :=
  if !chamberOn m || ref then m
  else sigWrite (640 + i.val) (clampI 0 4095 ((raw.toNat : Int) - sfld (regGet m (0x100180 + 4 * i.val)) 15 0)) m

/-- The GPIO levels are sampled (R426). -/
def gpioSample (levels : BitVec 32) (m : Mach) : Mach :=
  if !chamberOn m then m
  else eachM (List.range 32) (fun i => sigWrite (720 + i) (b2n (bitOf levels i))) m

/-- REC_COMMIT: a BOOT_REC_COMMIT write. -/
def execRecCommit (p : Port) (v : Word) (s : State) : Out := s.act (writeGate p offRecCommit (commitWrite p v))
/-- RECORD_TAKE: the take point of a record's consumer. -/
def execRecordTake (id : BitVec 16) (s : State) : Out := s.act (takeNow id.toNat)
/-- REGISTER_WRITE. -/
def execRegisterWrite (p : Port) (off : BitVec 24) (v : Word) (be : BitVec 4) (s : State) (env : Env := {}) : Out :=
  s.act (withEnv env (anyWrite p off.toNat v be))
/-- SQC_CLEAR_WRITE. -/
def execSqcClearWrite (p : Port) (e : EvReg) (v : Word) (s : State) : Out := s.act (writeGate p e.off (sqcWrite e v))
/-- LOCK_FIELD_WRITE (DESIGN CHOICE, log row 19). -/
def execLockFieldWrite (p : Port) (off : BitVec 24) (v : Word) (s : State) : Out := s.act (writeGate p off.toNat (lockWrite p off.toNat v))
/-- PAIR_LOW_READ: a read of one word and `long` further ones; 0 is a 32-bit read (R57, R58, R60). -/
def execPairLowRead (p : Port) (off : BitVec 24) (s : State) (long : BitVec 10 := 0) : Out := s.act (longRead p off.toNat long.toNat)
/-- PAIR_HIGH_READ. -/
def execPairHighRead (p : Port) (off : BitVec 24) (s : State) : Out := s.act (readGate p off.toNat (pairHighRead p off.toNat))
/-- PAIR_LOW_WRITE. -/
def execPairLowWrite (p : Port) (off : BitVec 24) (v : Word) (s : State) : Out := s.act (pairLowWrite p off.toNat v)
/-- PAIR_HIGH_WRITE. -/
def execPairHighWrite (p : Port) (off : BitVec 24) (v : Word) (s : State) : Out := s.act (pairHighWrite p off.toNat v)
/-- PAIR_64BIT_WRITE: a write of 8 bytes, and of further words (R57, R60). -/
def execPair64bitWrite (p : Port) (off : BitVec 24) (v : BitVec 64) (s : State) (more : List Word := []) (env : Env := {}) : Out :=
  s.act (withEnv env (longWrite p off.toNat v more))
/-- TELEMETRY_SEND. -/
def execTelemetrySend (s : State) : Out := s.act telemetry
/-- AIN_CONVERSION. -/
def execAinConversion (i : Fin 16) (raw : BitVec 12) (ref : Bool) (s : State) : Out := s.act (ainConvert i raw ref)
/-- GPIO_SAMPLE. -/
def execGpioSample (levels : BitVec 32) (s : State) : Out := s.act (gpioSample levels)

end Sys2Proof.Machine
end

