-- ==== Sys2Proof/Machine/Dispatch.lean ====
section
/-!
DEFINITION. One arm per command: each is one direct call of the command's own meaning.
-/

namespace Sys2Proof.Machine

/-- The effect of a command on everything but the queue. -/
def exec (i : Instr) (s : State) : Host.Outcome State Fault Refusal :=
  match i with
  | .vbatRise => Sys2Proof.Machine.execVbatRise s
  | .vbatFall => Sys2Proof.Machine.execVbatFall s
  | .mainSupplyUp refSel => Sys2Proof.Machine.execMainSupplyUp s refSel
  | .mainSupplyLoss => Sys2Proof.Machine.execMainSupplyLoss s
  | .wakeEdge rising => Sys2Proof.Machine.execWakeEdge rising s
  | .rtcAlarm => Sys2Proof.Machine.execRtcAlarm s
  | .resetNLow => Sys2Proof.Machine.execResetNLow s
  | .resetNRise flash => Sys2Proof.Machine.execResetNRise s flash
  | .resetKeyOpen p => Sys2Proof.Machine.execResetKeyOpen p s
  | .resetKeyConfirm p => Sys2Proof.Machine.execResetKeyConfirm p s
  | .resetKeyInvalid p v => Sys2Proof.Machine.execResetKeyInvalid p v s
  | .resetKeyWindowEnd p => Sys2Proof.Machine.execResetKeyWindowEnd p s
  | .refclkQualified flashOk => Sys2Proof.Machine.execRefclkQualified flashOk s
  | .refclkWaitTimeout => Sys2Proof.Machine.execRefclkWaitTimeout s
  | .memTrainingDone ok0 ok1 rd0 wr0 rd1 wr1 crcOk => Sys2Proof.Machine.execMemTrainingDone ok0 ok1 rd0 wr0 rd1 wr1 crcOk s
  | .sweepDone => Sys2Proof.Machine.execSweepDone s
  | .bootComplete failed dMax nB cal ecc => Sys2Proof.Machine.execBootComplete failed dMax nB cal s ecc
  | .bootAttemptFail cause => Sys2Proof.Machine.execBootAttemptFail cause s
  | .bootWatchdogExpire => Sys2Proof.Machine.execBootWatchdogExpire s
  | .powerGoodLost d => Sys2Proof.Machine.execPowerGoodLost d s
  | .glbStart p hi env => Sys2Proof.Machine.execGlbStart p hi s env
  | .glbEnd p hi => Sys2Proof.Machine.execGlbEnd p hi s
  | .glbStandby p hi => Sys2Proof.Machine.execGlbStandby p hi s
  | .standbySequenceResume => Sys2Proof.Machine.execStandbySequenceResume s
  | .glbSafeHold p hi => Sys2Proof.Machine.execGlbSafeHold p hi s
  | .hostTimeoutExpire => Sys2Proof.Machine.execHostTimeoutExpire s
  | .glbHeartbeat p v => Sys2Proof.Machine.execGlbHeartbeat p v s
  | .pcieLinkLoss lost => Sys2Proof.Machine.execPcieLinkLoss s lost
  | .pcieHotReset lost => Sys2Proof.Machine.execPcieHotReset s lost
  | .pcieLinkUp cfg => Sys2Proof.Machine.execPcieLinkUp cfg s
  | .d3hotEntry => Sys2Proof.Machine.execD3hotEntry s
  | .d0Return => Sys2Proof.Machine.execD0Return s
  | .perstNAssert lost => Sys2Proof.Machine.execPerstNAssert s lost
  | .registerWrite p off v be env => Sys2Proof.Machine.execRegisterWrite p off v be s env
  | .sqcClearWrite p e v => Sys2Proof.Machine.execSqcClearWrite p e v s
  | .lockFieldWrite p off v => Sys2Proof.Machine.execLockFieldWrite p off v s
  | .pairLowRead p off long => Sys2Proof.Machine.execPairLowRead p off s long
  | .pairHighRead p off => Sys2Proof.Machine.execPairHighRead p off s
  | .pairLowWrite p off v => Sys2Proof.Machine.execPairLowWrite p off v s
  | .pairHighWrite p off v => Sys2Proof.Machine.execPairHighWrite p off v s
  | .pair64bitWrite p off v more env => Sys2Proof.Machine.execPair64bitWrite p off v s more env
  | .bar2Read off len ecc => Sys2Proof.Machine.execBar2Read off len ecc s
  | .bar2Write off bytes => Sys2Proof.Machine.execBar2Write off bytes s
  | .windowBaseWrite p lo hi => Sys2Proof.Machine.execWindowBaseWrite p lo hi s
  | .dmaTailWrite p n v => Sys2Proof.Machine.execDmaTailWrite p n v s
  | .dmaEnable p n => Sys2Proof.Machine.execDmaEnable p n s
  | .dmaDisable p n => Sys2Proof.Machine.execDmaDisable p n s
  | .dmaSkip p n => Sys2Proof.Machine.execDmaSkip p n s
  | .dmaRetry p n => Sys2Proof.Machine.execDmaRetry p n s
  | .dmaRingWrite p n size lo hi => Sys2Proof.Machine.execDmaRingWrite p n size lo hi s
  | .dmaDescDone n host layer len ctl data hostErr stop ecc others => Sys2Proof.Machine.execDmaDescDone n host layer len ctl data hostErr stop ecc s others
  | .msixIntervalEnd v => Sys2Proof.Machine.execMsixIntervalEnd v s
  | .rollback p hi => Sys2Proof.Machine.execRollback p hi s
  | .reinstate p hi => Sys2Proof.Machine.execReinstate p hi s
  | .raiseFloor p hi => Sys2Proof.Machine.execRaiseFloor p hi s
  | .revokeSlot p hi => Sys2Proof.Machine.execRevokeSlot p hi s
  | .recSelect p v => Sys2Proof.Machine.execRecSelect p v s
  | .recDataWrite p ix v => Sys2Proof.Machine.execRecDataWrite p ix v s
  | .recCommit p v => Sys2Proof.Machine.execRecCommit p v s
  | .recordTake id => Sys2Proof.Machine.execRecordTake id s
  | .quoinAdd p v => Sys2Proof.Machine.execQuoinAdd p v s
  | .reloadRequest p v => Sys2Proof.Machine.execReloadRequest p v s
  | .reloadArmed => Sys2Proof.Machine.execReloadArmed s
  | .reloadSwitch => Sys2Proof.Machine.execReloadSwitch s
  | .updateWrite p hi => Sys2Proof.Machine.execUpdateWrite p hi s
  | .updateCancel p hi => Sys2Proof.Machine.execUpdateCancel p hi s
  | .updateStageEnd r => Sys2Proof.Machine.execUpdateStageEnd r s
  | .jobCommit p v env => Sys2Proof.Machine.execJobCommit p v env s
  | .commitCheckEnd ecc dma => Sys2Proof.Machine.execCommitCheckEnd ecc dma s
  | .jobPause p hi => Sys2Proof.Machine.execJobPause p hi s
  | .jobStop p hi => Sys2Proof.Machine.execJobStop p hi s
  | .jobResume p hi env => Sys2Proof.Machine.execJobResume p hi s env
  | .jobAbort p hi => Sys2Proof.Machine.execJobAbort p hi s
  | .jobStart p hi env => Sys2Proof.Machine.execJobStart p hi s env
  | .jobFlush p hi => Sys2Proof.Machine.execJobFlush p hi s
  | .abortSettled => Sys2Proof.Machine.execAbortSettled s
  | .makeReadyStepEnd env => Sys2Proof.Machine.execMakeReadyStepEnd s env
  | .mrTimeout => Sys2Proof.Machine.execMrTimeout s
  | .imageTimeout env => Sys2Proof.Machine.execImageTimeout s env
  | .impChoice b ecc => Sys2Proof.Machine.execImpChoice b ecc s
  | .slugEnd b env => Sys2Proof.Machine.execSlugEnd b s env
  | .waitPrioElapsed b => Sys2Proof.Machine.execWaitPrioElapsed b s
  | .retire p hi => Sys2Proof.Machine.execRetire p hi s
  | .retirementScanEnd ecc => Sys2Proof.Machine.execRetirementScanEnd ecc s
  | .returnBeam p hi => Sys2Proof.Machine.execReturn p hi s
  | .returnEngaged b => Sys2Proof.Machine.execReturnEngaged b s
  | .returnTimeout b => Sys2Proof.Machine.execReturnTimeout b s
  | .beamAutoReturn b => Sys2Proof.Machine.execBeamAutoReturn b s
  | .impRecRdWrite p v => Sys2Proof.Machine.execImpRecRdWrite p v s
  | .recordEntryDeferred env => Sys2Proof.Machine.execRecordEntryDeferred s env
  | .beamSampleInstant b grid => Sys2Proof.Machine.execBeamSampleInstant b grid s
  | .gateEdgeFire b => Sys2Proof.Machine.execGateEdgeFire b s
  | .dacInstant b => Sys2Proof.Machine.execDacInstant b s
  | .lookaheadAnswer b late ecc => Sys2Proof.Machine.execLookaheadAnswer b late ecc s
  | .beamMoveAtTarget b => Sys2Proof.Machine.execBeamMoveAtTarget b s
  | .jumpSettleElapsed b => Sys2Proof.Machine.execJumpSettleElapsed b s
  | .runupAtStart b => Sys2Proof.Machine.execRunupAtStart b s
  | .markAtEnd b => Sys2Proof.Machine.execMarkAtEnd b s
  | .stoppingAtRest b => Sys2Proof.Machine.execStoppingAtRest b s
  | .driftStale b => Sys2Proof.Machine.execDriftStale b s
  | .pdPayload l f => Sys2Proof.Machine.execPdPayload l f s
  | .camBegin l f => Sys2Proof.Machine.execCamBegin l f s
  | .camLine l f => Sys2Proof.Machine.execCamLine l f s
  | .frameMetricsReady b => Sys2Proof.Machine.execFrameMetricsReady b s
  | .frameValidTimeout b => Sys2Proof.Machine.execFrameValidTimeout b s
  | .noLight b => Sys2Proof.Machine.execNoLight b s
  | .backrefl b => Sys2Proof.Machine.execBackrefl b s
  | .corrSat b => Sys2Proof.Machine.execCorrSat b s
  | .hmapDecaySweep => Sys2Proof.Machine.execHmapDecaySweep s
  | .hmapRecRdWrite p v => Sys2Proof.Machine.execHmapRecRdWrite p v s
  | .cellSampleStart k agree late lost corr => Sys2Proof.Machine.execCellSampleStart k agree late lost corr s
  | .cellSampleOverrun k => Sys2Proof.Machine.execCellSampleOverrun k s
  | .ctxAutoRestart k => Sys2Proof.Machine.execCtxAutoRestart k s
  | .cellHardFault c => Sys2Proof.Machine.execCellHardFault c s
  | .hardSettleDone k => Sys2Proof.Machine.execHardSettleDone k s
  | .substCopyDone => Sys2Proof.Machine.execSubstCopyDone s
  | .shadowHandover k => Sys2Proof.Machine.execShadowHandover k s
  | .katPeriodElapsed c => Sys2Proof.Machine.execKatPeriodElapsed c s
  | .katDone c pass => Sys2Proof.Machine.execKatDone c pass s
  | .cellStart p hi => Sys2Proof.Machine.execCellStart p hi s
  | .cellStop p hi => Sys2Proof.Machine.execCellStop p hi s
  | .restart p hi => Sys2Proof.Machine.execRestart p hi s
  | .subst p hi => Sys2Proof.Machine.execSubst p hi s
  | .test p hi => Sys2Proof.Machine.execTest p hi s
  | .trig p hi => Sys2Proof.Machine.execTrig p hi s
  | .cellTrgWrite p v => Sys2Proof.Machine.execCellTrgWrite p v s
  | .traceStop c ch => Sys2Proof.Machine.execTraceStop c ch s
  | .trcCtrlWrite p c ch v => Sys2Proof.Machine.execTrcCtrlWrite p c ch v s
  | .deepRun p hi => Sys2Proof.Machine.execDeepRun p hi s
  | .deepDone => Sys2Proof.Machine.execDeepDone s
  | .lagMaxClear p c slot v => Sys2Proof.Machine.execLagMaxClear p c slot v s
  | .sigSelWrite p v => Sys2Proof.Machine.execSigSelWrite p v s
  | .laneSignalDetect l => Sys2Proof.Machine.execLaneSignalDetect l s
  | .laneDetectTimeout l => Sys2Proof.Machine.execLaneDetectTimeout l s
  | .laneEqualiseDone l => Sys2Proof.Machine.execLaneEqualiseDone l s
  | .laneAlignLock l => Sys2Proof.Machine.execLaneAlignLock l s
  | .trainBlock l seen port rate ident inverted => Sys2Proof.Machine.execTrainBlock l seen port rate ident inverted s
  | .keyBlock l step data => Sys2Proof.Machine.execKeyBlock l step data s
  | .laneSoakEnd l errors => Sys2Proof.Machine.execLaneSoakEnd l errors s
  | .laneTrainTimeout l => Sys2Proof.Machine.execLaneTrainTimeout l s
  | .laneSignalLoss l => Sys2Proof.Machine.execLaneSignalLoss l s
  | .laneLockLost l => Sys2Proof.Machine.execLaneLockLost l s
  | .laneCrcLimit l => Sys2Proof.Machine.execLaneCrcLimit l s
  | .laneVoidLimit l => Sys2Proof.Machine.execLaneVoidLimit l s
  | .laneRetryElapsed l => Sys2Proof.Machine.execLaneRetryElapsed l s
  | .sealBlock l f => Sys2Proof.Machine.execSealBlock l f s
  | .switchRouted l fsw => Sys2Proof.Machine.execSwitchRouted l fsw s
  | .switchSoakResult l errors => Sys2Proof.Machine.execSwitchSoakResult l errors s
  | .posFrame l f => Sys2Proof.Machine.execPosFrame l f s
  | .statusFrame l f => Sys2Proof.Machine.execStatusFrame l f s
  | .tsyncRFrame l f => Sys2Proof.Machine.execTsyncRFrame l f s
  | .auxValFrame l f => Sys2Proof.Machine.execAuxValFrame l f s
  | .imgBeginFrame l f => Sys2Proof.Machine.execImgBeginFrame l f s
  | .imgSegFrame l f env => Sys2Proof.Machine.execImgSegFrame l f s env
  | .cmdKeepalive b => Sys2Proof.Machine.execCmdKeepalive b s
  | .auxCmdKeepalive a => Sys2Proof.Machine.execAuxCmdKeepalive a s
  | .tsyncSend => Sys2Proof.Machine.execTsyncSend s
  | .releaseSend b => Sys2Proof.Machine.execReleaseSend b s
  | .statusTimeout h => Sys2Proof.Machine.execStatusTimeout h s
  | .floodTimeout h => Sys2Proof.Machine.execFloodTimeout h s
  | .laneRetrain p l hi => Sys2Proof.Machine.execLaneRetrain p l hi s
  | .eyeScan p l hi => Sys2Proof.Machine.execEyeScan p l hi s
  | .eyeScanDone l w h => Sys2Proof.Machine.execEyeScanDone l w h s
  | .testEnter p l hi => Sys2Proof.Machine.execTestEnter p l hi s
  | .testExit p l hi errors => Sys2Proof.Machine.execTestExit p l hi errors s
  | .injectBitError p l hi => Sys2Proof.Machine.execInjectBitError p l hi s
  | .injectErrorRate p l hi => Sys2Proof.Machine.execInjectErrorRate p l hi s
  | .injectStop p l hi => Sys2Proof.Machine.execInjectStop p l hi s
  | .injectInvalidHeader p l hi => Sys2Proof.Machine.execInjectInvalidHeader p l hi s
  | .injectCrcError p l hi => Sys2Proof.Machine.execInjectCrcError p l hi s
  | .injectSealError p l hi => Sys2Proof.Machine.execInjectSealError p l hi s
  | .moveAbs p a hi => Sys2Proof.Machine.execMoveAbs p a hi s
  | .moveRel p a hi => Sys2Proof.Machine.execMoveRel p a hi s
  | .axisStop p a hi => Sys2Proof.Machine.execAxisStop p a hi s
  | .axisResume p a hi => Sys2Proof.Machine.execAxisResume p a hi s
  | .home p a hi => Sys2Proof.Machine.execHome p a hi s
  | .clear p a hi => Sys2Proof.Machine.execClear p a hi s
  | .cmpClear p a hi => Sys2Proof.Machine.execCmpClear p a hi s
  | .cmpPush p a v => Sys2Proof.Machine.execCmpPush p a v s
  | .profileUpdate a => Sys2Proof.Machine.execProfileUpdate a s
  | .axisTargetReached a => Sys2Proof.Machine.execAxisTargetReached a s
  | .axisAtRest a => Sys2Proof.Machine.execAxisAtRest a s
  | .encQuadStep a la lb => Sys2Proof.Machine.execEncQuadStep a la lb s
  | .quadErrLimit a => Sys2Proof.Machine.execQuadErrLimit a s
  | .encIndexEdge a => Sys2Proof.Machine.execEncIndexEdge a s
  | .ssiReading a raw high parityOk env => Sys2Proof.Machine.execSsiReading a raw high parityOk s env
  | .axisSignalPublish a => Sys2Proof.Machine.execAxisSignalPublish a s
  | .stallCheck a => Sys2Proof.Machine.execStallCheck a s
  | .axisStall a => Sys2Proof.Machine.execAxisStall a s
  | .limitAssert a pos => Sys2Proof.Machine.execLimitAssert a pos s
  | .limitRelease a pos cmd meas => Sys2Proof.Machine.execLimitRelease a pos cmd meas s
  | .homeInputEdge a on => Sys2Proof.Machine.execHomeInputEdge a on s
  | .encoutEmit c => Sys2Proof.Machine.execEncoutEmit c s
  | .speedZeroTimeout a => Sys2Proof.Machine.execSpeedZeroTimeout a s
  | .holdDelayElapsed a => Sys2Proof.Machine.execHoldDelayElapsed a s
  | .inhibitFall ch => Sys2Proof.Machine.execInhibitFall ch s
  | .inhibitRise ch => Sys2Proof.Machine.execInhibitRise ch s
  | .inputLatchRearm => Sys2Proof.Machine.execInputLatchRearm s
  | .discrepancyFault => Sys2Proof.Machine.execDiscrepancyFault s
  | .lampAck p hi => Sys2Proof.Machine.execLampAck p hi s
  | .scene p hi => Sys2Proof.Machine.execScene p hi s
  | .lampPollCycle n => Sys2Proof.Machine.execLampPollCycle n s
  | .lampReply a bytes => Sys2Proof.Machine.execLampReply a bytes s
  | .lampPollMissed a => Sys2Proof.Machine.execLampPollMissed a s
  | .notMeasuredTimeout a => Sys2Proof.Machine.execNotMeasuredTimeout a s
  | .alFrameSend => Sys2Proof.Machine.execAlFrameSend s
  | .colourFeedback => Sys2Proof.Machine.execColourFeedback s
  | .blinkToggle g => Sys2Proof.Machine.execBlinkToggle g s
  | .ptpEventRx p type ix => Sys2Proof.Machine.execPtpEventRx p type ix s
  | .ptpTx p bytes udp => Sys2Proof.Machine.execPtpTx p bytes udp s
  | .masterLost => Sys2Proof.Machine.execMasterLost s
  | .timeMapChange dt sec ns rate => Sys2Proof.Machine.execTimeMapChange dt sec ns rate s
  | .timeSnap p v => Sys2Proof.Machine.execTimeSnap p v s
  | .xtal32Fail => Sys2Proof.Machine.execXtal32Fail s
  | .memRetrain p hi => Sys2Proof.Machine.execMemRetrain p hi s
  | .scrubNow p hi => Sys2Proof.Machine.execScrubNow p hi s
  | .retrainRun c => Sys2Proof.Machine.execRetrainRun c s
  | .retrainEnd c ok rd wr env => Sys2Proof.Machine.execRetrainEnd c ok rd wr s env
  | .refreshDue c bank reads => Sys2Proof.Machine.execRefreshDue c bank reads s
  | .writeQueueDrain c reads => Sys2Proof.Machine.execWriteQueueDrain c reads s
  | .hotRowRefresh c bank row => Sys2Proof.Machine.execHotRowRefresh c bank row s
  | .hotRowWindow => Sys2Proof.Machine.execHotRowWindow s
  | .mr4Poll t0 t1 r0 r1 h0 h1 => Sys2Proof.Machine.execMr4Poll t0 t1 r0 r1 h0 h1 s
  | .scrubPassStart ecc => Sys2Proof.Machine.execScrubPassStart ecc s
  | .scrubPassDone => Sys2Proof.Machine.execScrubPassDone s
  | .clockMonitorTrip cause => Sys2Proof.Machine.execClockMonitorTrip cause s
  | .fallbackRcQualified => Sys2Proof.Machine.execFallbackRcQualified s
  | .fallbackPllLocked gap => Sys2Proof.Machine.execFallbackPllLocked gap s
  | .fallbackFirmwareReady digestOk => Sys2Proof.Machine.execFallbackFirmwareReady digestOk s
  | .fallbackTimeout => Sys2Proof.Machine.execFallbackTimeout s
  | .pllUnlock ix lost => Sys2Proof.Machine.execPllUnlock ix s lost
  | .pllRelock ix => Sys2Proof.Machine.execPllRelock ix s
  | .clkoutSrcWrite p c v => Sys2Proof.Machine.execClkoutSrcWrite p c v s
  | .clkoutSwitchDone c => Sys2Proof.Machine.execClkoutSwitchDone c s
  | .switchStuck c => Sys2Proof.Machine.execSwitchStuck c s
  | .clkGateRequest p v => Sys2Proof.Machine.execClkGateRequest p v s
  | .gateClose ix => Sys2Proof.Machine.execGateClose ix s
  | .gateTimeout ix => Sys2Proof.Machine.execGateTimeout ix s
  | .vbatLowSample low => Sys2Proof.Machine.execVbatLowSample low s
  | .tempRead core io mv => Sys2Proof.Machine.execTempRead core io mv s
  | .throttleTimer => Sys2Proof.Machine.execThrottleTimer s
  | .thermalShutdown => Sys2Proof.Machine.execThermalShutdown s
  | .canaryLimit => Sys2Proof.Machine.execCanaryLimit s
  | .vcoreMismatch mv => Sys2Proof.Machine.execVcoreMismatch mv s
  | .touchstoneMeasure dMax => Sys2Proof.Machine.execTouchstoneMeasure dMax s
  | .marginHourlyCheck => Sys2Proof.Machine.execMarginHourlyCheck s
  | .eyeScanSchedule => Sys2Proof.Machine.execEyeScanSchedule s
  | .laneRetrainRequest l => Sys2Proof.Machine.execLaneRetrainRequest l s
  | .laserMonSample b => Sys2Proof.Machine.execLaserMonSample b s
  | .laserRatioUpdate b => Sys2Proof.Machine.execLaserRatioUpdate b s
  | .laserEvaluation b => Sys2Proof.Machine.execLaserEvaluation b s
  | .notchMeasure e peak edge => Sys2Proof.Machine.execNotchMeasure e peak edge s
  | .notchRetuneCommit e => Sys2Proof.Machine.execNotchRetuneCommit e s
  | .cal p hi => Sys2Proof.Machine.execCal p hi s
  | .calRunDone u r => Sys2Proof.Machine.execCalRunDone u r s
  | .calStep u => Sys2Proof.Machine.execCalStep u s
  | .echo p hi => Sys2Proof.Machine.execEcho p hi s
  | .info p hi => Sys2Proof.Machine.execInfo p hi s
  | .logFetch p hi => Sys2Proof.Machine.execLogFetch p hi s
  | .logFlush p hi => Sys2Proof.Machine.execLogFlush p hi s
  | .netArm p hi => Sys2Proof.Machine.execNetArm p hi s
  | .rtcSet p hi => Sys2Proof.Machine.execRtcSet p hi s
  | .mbReply => Sys2Proof.Machine.execMbReply s
  | .mgmtWatchdogExpire digestOk => Sys2Proof.Machine.execMgmtWatchdogExpire digestOk s
  | .logStageCopy => Sys2Proof.Machine.execLogStageCopy s
  | .logNvmFlush bad => Sys2Proof.Machine.execLogNvmFlush bad s
  | .updBegin sender id len => Sys2Proof.Machine.execUpdBegin sender id len s
  | .updData sender id off bytes => Sys2Proof.Machine.execUpdData sender id off bytes s
  | .updEnd sender id => Sys2Proof.Machine.execUpdEnd sender id s
  | .logReq sender id first count => Sys2Proof.Machine.execLogReq sender id first count s
  | .netTransferIdle => Sys2Proof.Machine.execNetTransferIdle s
  | .netWindowClose => Sys2Proof.Machine.execNetWindowClose s
  | .telemetrySend => Sys2Proof.Machine.execTelemetrySend s
  | .ethLos p los => Sys2Proof.Machine.execEthLos p los s
  | .xtal32Qualified => Sys2Proof.Machine.execXtal32Qualified s
  | .pwmValley => Sys2Proof.Machine.execPwmValley s
  | .microstep a => Sys2Proof.Machine.execMicrostep a s
  | .cmpPulseEnd a => Sys2Proof.Machine.execCmpPulseEnd a s
  | .ainConversion ix raw ref => Sys2Proof.Machine.execAinConversion ix raw ref s
  | .gpioSample levels => Sys2Proof.Machine.execGpioSample levels s
  | .powerGoodTimeout => Sys2Proof.Machine.execPowerGoodTimeout s
  | .backupRcStopped => Sys2Proof.Machine.execBackupRcStopped s
  | .hmapCopyDone => Sys2Proof.Machine.execHmapCopyDone s
  | .hmapSweepDone => Sys2Proof.Machine.execHmapSweepDone s
  | .msixUnmask v => Sys2Proof.Machine.execMsixUnmask v s

end Sys2Proof.Machine
end

