-- ==== Sys2Proof/Machine/Tick.lean ====
section
/-!
DEFINITION. What passes while no command waits: one CLK_EV period of 1.25 ns (R609), with the CLK_AON edge that may fall in it
(R611, R714). The spec's table has no row for it (log row 41).
-/

namespace Sys2Proof.Machine

/-- Device time advances by 1.25 ns at a CLK_EV edge (R609). -/
def TimeSt.advance (t : TimeSt) : TimeSt :=
  if t.running then
    let q := t.dt.toNat * 65536 + t.sub.toNat + tickQ
    { t with dt := BitVec.ofNat 64 (q / 65536), sub := BitVec.ofNat 16 (q % 65536) }
  else t

/-- The AON clock's phase and the ring oscillator's time since the reset advance by 1.25 ns; at the AON edge the count since the reset and the RTC advance (R611, R714)
(DESIGN CHOICE, log row 8). -/
def Aon.advance (a : Aon) : Aon :=
  if !a.vbat && !a.mains then a
  else
    let p := a.phase + tickQ
    let g := a.gap + tickQ
    if p < aonQ then { a with phase := p, gap := g }
    else { a with gap := g, phase := p - aonQ, count := a.count + 1, rtc := if a.rtcRun then a.rtc + 1 else a.rtc }

/-- One CLK_EV period passes. -/
def tick (m : Mach) : Mach := { m with time := m.time.advance, aon := m.aon.advance }

end Sys2Proof.Machine
end

