-- ==== Sys2Proof/Safety.lean ====
section
/-!
DEFINITION. What the claims are stated with: good states, answers, and the parts of the device that a command leaves alone.
-/

namespace Sys2Proof.Machine

/-- Layer memory in its canonical form: addresses strictly rising, no entry equal to what an unlisted byte reads as (R663). -/
abbrev Memory.wf (x : Mem) : Prop := mapWf memDefault x.cells = true

/-- The held registers in their canonical form. -/
abbrev Regs.wf (l : List (Nat × Word)) : Prop := mapWf regReset l = true

/-- The signal switch in its canonical form. -/
abbrev Sig.wf (x : Sig) : Prop := mapWf (fun _ => ({} : SigVal)) x.vals = true

/-- A flash bank in its canonical form: an unlisted byte is erased. -/
abbrev Bank.wf (x : Bank) : Prop := mapWf (fun _ => 0xFF#8) x.cells = true

/-- The good states of the device: every sparse store is in its canonical form. -/
structure Mach.Good (m : Mach) : Prop where
  mem : Memory.wf m.mem
  regs : Regs.wf m.regs
  sig : Sig.wf m.sig
  flashA : Bank.wf m.boot.bankA
  flashB : Bank.wf m.boot.bankB

/-- Command `c` completes in `s`: it answers a next state whose device is as `P` says, and the queue is untouched. -/
def Does (c : Instr) (s : State) (P : Mach → Prop) : Prop :=
  ∃ t, exec c s = .next t ∧ t.pending = s.pending ∧ P t.m

/-- A write by a port to the register at `off` reaches its block and is the only one in hand: the port reaches the registers, its write
shadow is empty and the block answers (R46, R58, R63). -/
abbrev WriteOpen (m : Mach) (p : Port) (off : Nat) : Prop :=
  reaches m p = true ∧ (m.g.port p).wr = none ∧ answers m off = true

/-- The blocks that have an event register. -/
inductive EvKind where
  | glb | dma | boot | job | imp | beam | mpl | hmap | sig | cell | cellArr | lane | stg | ilk | time | mem | clk | pwr | hlt | mgt
deriving DecidableEq, Repr

/-- The block of an event register. -/
def EvReg.kind : EvReg → EvKind
  | .glb => .glb
  | .dma _ => .dma
  | .boot => .boot
  | .job => .job
  | .imp => .imp
  | .beam _ => .beam
  | .mpl _ => .mpl
  | .hmap => .hmap
  | .sig => .sig
  | .cell _ => .cell
  | .cellArr => .cellArr
  | .lane _ => .lane
  | .stg _ => .stg
  | .ilk => .ilk
  | .time => .time
  | .mem => .mem
  | .clk => .clk
  | .pwr => .pwr
  | .hlt => .hlt
  | .mgt => .mgt

/-- The parts of the device: its blocks, with what most commands can touch apart from the rest of its block (the MSI-X table, layer
memory's bytes, the event log), the event registers by block, and the other registers that are held as written. -/
inductive Part where
  | g | msix | aon | clk | boot | bytes | mem | mgt | log | time | job | imp | beams | mpl | hmap | cells | sig | lanes | heads | stg
  | ilk | hlt | keep | ev (k : EvKind) | regs | outs | free | env
deriving DecidableEq, Repr

/-- The host interface without the MSI-X table. -/
def Glob.bare (x : Glob) : Glob := { x with msix := Vector.replicate 64 {} }

/-- The memory controller without layer memory's bytes. -/
def Mem.bare (x : Mem) : Mem := { x with cells := [] }

/-- The management subsystem without the log. -/
def Mgt.bare (x : Mgt) : Mgt :=
  { x with repairs := 0, logSeq := 0, ring := [], waiting := [], early := [], bootLogged := false, logWr := 0, logFlushed := 0, logLost := 0,
           nvm := [], nvmOldest := 0, nvmSkipped := 0 }

/-- The log alone. -/
def Mgt.logs (x : Mgt) : Mgt :=
  { repairs := x.repairs, logSeq := x.logSeq, ring := x.ring, waiting := x.waiting, early := x.early, bootLogged := x.bootLogged,
    logWr := x.logWr, logFlushed := x.logFlushed, logLost := x.logLost, nvm := x.nvm, nvmOldest := x.nvmOldest, nvmSkipped := x.nvmSkipped }

/-- A part is the same in two devices. -/
def Part.same (m n : Mach) : Part → Prop
  | .g => n.g.bare = m.g.bare
  | .msix => n.g.msix = m.g.msix
  | .aon => n.aon = m.aon
  | .clk => n.clk = m.clk
  | .boot => n.boot = m.boot
  | .bytes => n.mem.cells = m.mem.cells
  | .mem => n.mem.bare = m.mem.bare
  | .mgt => n.mgt.bare = m.mgt.bare
  | .log => n.mgt.logs = m.mgt.logs
  | .time => n.time = m.time
  | .job => n.job = m.job
  | .imp => n.imp = m.imp
  | .beams => n.beams = m.beams
  | .mpl => n.mpl = m.mpl
  | .hmap => n.hmap = m.hmap
  | .cells => n.cells = m.cells
  | .sig => n.sig = m.sig
  | .lanes => n.lanes = m.lanes
  | .heads => n.heads = m.heads
  | .stg => n.stg = m.stg
  | .ilk => n.ilk = m.ilk
  | .hlt => n.hlt = m.hlt
  | .keep => n.keep = m.keep
  | .ev k => ∀ e : EvReg, e.kind = k → regGet n e.off = regGet m e.off
  | .regs => ∀ off, (∀ e : EvReg, off ≠ e.off) → regGet n off = regGet m off
  | .outs => n.outs = m.outs
  | .free => n.free = m.free
  | .env => n.env = m.env

/-- The event registers of every block. -/
def allEvents : List Part :=
  [.ev .glb, .ev .dma, .ev .boot, .ev .job, .ev .imp, .ev .beam, .ev .mpl, .ev .hmap, .ev .sig, .ev .cell, .ev .cellArr, .ev .lane,
   .ev .stg, .ev .ilk, .ev .time, .ev .mem, .ev .clk, .ev .pwr, .ev .hlt, .ev .mgt]

/-- Every part but those of the list is the same. -/
def Frame (l : List Part) (m n : Mach) : Prop := ∀ p, p ∉ l → p.same m n

/-- Command `c` is turned away in `s`: CMD_ERROR in GLB_EVENT, and nothing else but its message (R72). -/
def Refuses (c : Instr) (s : State) : Prop :=
  Does c s fun t => raised t .glb 2 = true ∧ Frame [.ev .glb, .msix, .outs] s.m t

/-- Command `c` is refused by its block in `s`: the block's CMD_REFUSED and CMD_ERROR, and nothing else but their messages (R281). -/
def RefusesAs (e : EvReg) (bit : Nat) (c : Instr) (s : State) : Prop :=
  Does c s fun t => raised t e bit = true ∧ raised t .glb 2 = true ∧ Frame [.ev e.kind, .ev .glb, .msix, .outs] s.m t

/-- A frame of a type is used as it arrives on a lane: the lane is UP, the frame is whole and of its head's types, a camera frame comes on
its route, no copy has been used, and its bucket holds a token (R478 to R486, R504). -/
abbrev FrameOk (m : Mach) (l : Fin 28) (type : Nat) (f : FrameIn) : Prop :=
  laneUp m l = true ∧ f.fault = .none ∧ frameFits (laneHead l) type = true ∧ f.nblk = (frameShape type).1 ∧
  (frameShape type).2 f.bytes = true ∧ (type = 4 ∨ type = 5 → routeTakes m l f.fseq = true) ∧
  isDuplicate m (laneHead l) f.fseq = false ∧ oneToken ≤ (bucketFill m (laneHead l) type).tokens

/-- The device with a frame's token spent and its FSEQ remembered, before its payload does anything. -/
def frameTaken (l : Fin 28) (type : Nat) (f : FrameIn) (m : Mach) : Mach :=
  frameUsed (laneHead l) f.fseq
    (setBucket (laneHead l) type { bucketFill m (laneHead l) type with tokens := (bucketFill m (laneHead l) type).tokens - oneToken, dropping := none } m)

/-- The frame commands with the type of their frame (R480). -/
def frameRows (l : Fin 28) (f : FrameIn) (env : Env) : List (Nat × Instr) :=
  [(1, .posFrame l f), (2, .pdPayload l f), (3, .statusFrame l f), (4, .camBegin l f), (5, .camLine l f), (6, .tsyncRFrame l f),
   (8, .auxValFrame l f), (9, .imgBeginFrame l f), (10, .imgSegFrame l f env)]

/-- The parts that a command can change: every other part of the device is left as it was. -/
def commandParts (c : Instr) : List Part :=
  match c with
  | .vbatRise | .vbatFall =>
    [.g, .aon, .clk]
  | .mainSupplyUp .. | .mainSupplyLoss | .wakeEdge .. | .rtcAlarm | .resetNRise .. =>
    [.g, .msix, .aon, .clk, .boot, .bytes, .mem, .mgt, .log, .time, .job, .imp, .beams, .mpl, .hmap, .cells, .sig, .lanes, .heads, .stg, .ilk, .hlt, .keep, .regs] ++ allEvents
  | .resetNLow | .resetKeyOpen .. | .resetKeyConfirm .. | .resetKeyInvalid .. | .bootComplete .. | .registerWrite ..
  | .pair64bitWrite .. =>
    [.g, .msix, .aon, .clk, .boot, .bytes, .mem, .mgt, .log, .time, .job, .imp, .beams, .mpl, .hmap, .cells, .sig, .lanes, .heads, .stg, .ilk, .hlt, .keep, .regs, .outs, .free] ++ allEvents
  | .resetKeyWindowEnd .. =>
    [.g, .msix, .ev .glb, .outs]
  | .refclkQualified .. =>
    [.msix, .aon, .clk, .boot, .mem, .log, .time, .ilk, .ev .time, .ev .pwr, .ev .mgt, .outs, .free]
  | .refclkWaitTimeout | .fallbackRcQualified | .fallbackTimeout | .clkoutSwitchDone .. | .gateClose .. =>
    [.clk]
  | .memTrainingDone .. =>
    [.g, .msix, .aon, .clk, .boot, .bytes, .mem, .log, .hlt, .keep, .ev .mem, .ev .mgt, .outs, .free]
  | .sweepDone | .retrainRun .. =>
    [.mem]
  | .bootAttemptFail .. | .bootWatchdogExpire | .powerGoodTimeout =>
    [.msix, .aon, .clk, .boot, .mem, .log, .ev .mgt, .outs, .free]
  | .powerGoodLost .. =>
    [.g, .msix, .clk, .boot, .mem, .mgt, .log, .imp, .beams, .mpl, .cells, .sig, .heads, .stg, .ilk, .ev .glb, .ev .boot, .ev .imp, .ev .cellArr, .ev .stg, .ev .pwr, .ev .hlt, .ev .mgt, .outs, .free]
  | .glbStart .. | .glbEnd .. | .glbStandby .. | .glbSafeHold .. | .commitCheckEnd .. | .jobPause .. | .jobStop ..
  | .jobResume .. | .jobAbort .. | .jobStart .. | .jobFlush .. | .abortSettled | .makeReadyStepEnd .. | .imageTimeout ..
  | .impChoice .. | .slugEnd .. | .retirementScanEnd .. | .recordEntryDeferred .. | .ssiReading .. =>
    [.g, .msix, .clk, .boot, .bytes, .mem, .mgt, .log, .time, .job, .imp, .beams, .mpl, .hmap, .cells, .sig, .heads, .stg, .ilk, .ev .glb, .ev .boot, .ev .job, .ev .imp, .ev .beam, .ev .cellArr, .ev .stg, .ev .mem, .ev .hlt, .ev .mgt, .outs, .free]
  | .standbySequenceResume =>
    [.g, .msix, .aon, .clk, .boot, .bytes, .mem, .mgt, .log, .time, .job, .imp, .beams, .mpl, .hmap, .cells, .sig, .lanes, .heads, .stg, .ilk, .hlt, .keep, .regs, .outs] ++ allEvents
  | .hostTimeoutExpire | .d3hotEntry =>
    [.g, .msix, .log, .job, .ev .glb, .ev .job, .ev .mgt, .outs]
  | .glbHeartbeat .. | .pairLowRead .. | .pairHighRead .. | .pairLowWrite .. | .windowBaseWrite .. | .dmaTailWrite ..
  | .dmaRingWrite .. | .recSelect .. | .recDataWrite .. | .msixUnmask .. =>
    [.g, .msix, .log, .ev .glb, .ev .mgt, .outs]
  | .pcieLinkLoss .. | .pcieHotReset .. | .perstNAssert .. =>
    [.g, .msix, .clk, .boot, .bytes, .mem, .mgt, .log, .job, .imp, .beams, .mpl, .cells, .sig, .heads, .stg, .ilk, .ev .glb, .ev .dma, .ev .boot, .ev .job, .ev .imp, .ev .cellArr, .ev .stg, .ev .mem, .ev .hlt, .ev .mgt, .outs, .free]
  | .pcieLinkUp .. =>
    [.g]
  | .d0Return =>
    [.g, .msix, .outs]
  | .sqcClearWrite .. =>
    [.g, .msix, .mem, .log, .beams, .regs, .outs] ++ allEvents
  | .lockFieldWrite .. =>
    [.g, .msix, .log, .hlt, .regs, .outs] ++ allEvents
  | .pairHighWrite .. =>
    [.g, .msix, .aon, .boot, .log, .job, .ev .glb, .ev .mgt, .outs]
  | .bar2Read .. | .scrubPassStart .. =>
    [.g, .msix, .clk, .boot, .mem, .mgt, .log, .imp, .beams, .mpl, .cells, .sig, .heads, .stg, .ilk, .ev .glb, .ev .boot, .ev .imp, .ev .cellArr, .ev .stg, .ev .mem, .ev .hlt, .ev .mgt, .outs, .free]
  | .bar2Write .. =>
    [.msix, .bytes, .mem, .ev .glb, .outs]
  | .dmaEnable .. | .dmaDisable .. | .dmaSkip .. | .dmaRetry .. =>
    [.g, .msix, .log, .ev .glb, .ev .dma, .ev .mgt, .outs]
  | .dmaDescDone .. =>
    [.g, .msix, .clk, .boot, .bytes, .mem, .mgt, .log, .imp, .beams, .mpl, .cells, .sig, .heads, .stg, .ilk, .ev .glb, .ev .dma, .ev .boot, .ev .imp, .ev .cellArr, .ev .stg, .ev .mem, .ev .hlt, .ev .mgt, .outs, .free]
  | .msixIntervalEnd .. =>
    [.msix, .outs]
  | .rollback .. | .reinstate .. | .raiseFloor .. | .revokeSlot .. =>
    [.g, .msix, .aon, .boot, .log, .ev .glb, .ev .boot, .ev .mgt, .outs, .free]
  | .recCommit .. =>
    [.g, .msix, .clk, .boot, .bytes, .mem, .log, .job, .imp, .beams, .cells, .sig, .ev .glb, .ev .boot, .ev .job, .ev .imp, .ev .mgt, .outs]
  | .recordTake .. =>
    [.g, .msix, .clk, .boot, .bytes, .mem, .log, .job, .imp, .beams, .cells, .sig, .ev .job, .ev .imp, .ev .mgt, .outs]
  | .quoinAdd .. =>
    [.g, .msix, .boot, .log, .ev .glb, .ev .mgt, .outs]
  | .reloadRequest .. =>
    [.g, .msix, .boot, .log, .ev .glb, .ev .boot, .ev .mgt, .outs]
  | .reloadArmed | .reloadSwitch =>
    [.msix, .boot, .beams, .ev .boot, .outs]
  | .updateWrite .. | .updateCancel .. =>
    [.g, .msix, .boot, .mgt, .log, .ev .glb, .ev .boot, .ev .mgt, .outs]
  | .updateStageEnd .. =>
    [.msix, .aon, .boot, .mgt, .log, .ev .boot, .ev .mgt, .outs, .free]
  | .jobCommit .. =>
    [.g, .msix, .clk, .boot, .mem, .mgt, .log, .job, .imp, .beams, .mpl, .cells, .sig, .heads, .stg, .ilk, .ev .glb, .ev .boot, .ev .job, .ev .imp, .ev .cellArr, .ev .stg, .ev .mem, .ev .hlt, .ev .mgt, .outs, .free]
  | .mrTimeout =>
    [.g, .msix, .clk, .boot, .mem, .mgt, .log, .job, .imp, .beams, .mpl, .cells, .sig, .heads, .stg, .ilk, .ev .glb, .ev .boot, .ev .imp, .ev .cellArr, .ev .stg, .ev .hlt, .ev .mgt, .outs, .free]
  | .waitPrioElapsed .. =>
    [.msix, .imp, .ev .imp, .outs]
  | .retire .. | .returnBeam .. =>
    [.g, .msix, .bytes, .mem, .log, .job, .imp, .beams, .mpl, .cells, .sig, .heads, .ilk, .hlt, .ev .glb, .ev .job, .ev .imp, .ev .beam, .ev .mgt, .outs]
  | .returnEngaged .. =>
    [.msix, .bytes, .mem, .log, .job, .imp, .beams, .sig, .ilk, .hlt, .ev .glb, .ev .job, .ev .imp, .ev .mgt, .outs]
  | .returnTimeout .. =>
    [.msix, .imp, .mpl, .cells, .sig, .heads, .ev .glb, .ev .imp, .outs]
  | .beamAutoReturn .. =>
    [.msix, .bytes, .mem, .log, .job, .imp, .beams, .cells, .sig, .ilk, .hlt, .ev .glb, .ev .job, .ev .imp, .ev .mgt, .outs]
  | .impRecRdWrite .. =>
    [.g, .msix, .log, .imp, .ev .glb, .ev .mgt, .outs]
  | .beamSampleInstant .. =>
    [.g, .msix, .clk, .boot, .bytes, .mem, .mgt, .log, .job, .imp, .beams, .mpl, .cells, .sig, .heads, .stg, .ilk, .ev .glb, .ev .boot, .ev .job, .ev .imp, .ev .beam, .ev .cellArr, .ev .stg, .ev .hlt, .ev .mgt, .outs, .free]
  | .gateEdgeFire .. =>
    [.beams, .mpl, .outs]
  | .dacInstant .. =>
    [.g, .msix, .clk, .boot, .bytes, .mem, .log, .beams, .mpl, .hmap, .cells, .sig, .hlt, .ev .imp, .ev .beam, .ev .mpl, .ev .hmap, .ev .mgt, .outs]
  | .lookaheadAnswer .. =>
    [.g, .msix, .clk, .boot, .bytes, .mem, .mgt, .log, .imp, .beams, .mpl, .hmap, .cells, .sig, .heads, .stg, .ilk, .ev .glb, .ev .boot, .ev .imp, .ev .hmap, .ev .cellArr, .ev .stg, .ev .mem, .ev .hlt, .ev .mgt, .outs, .free]
  | .beamMoveAtTarget .. | .jumpSettleElapsed .. | .runupAtStart .. | .markAtEnd .. =>
    [.beams]
  | .stoppingAtRest .. =>
    [.g, .msix, .clk, .boot, .mem, .mgt, .log, .imp, .beams, .mpl, .cells, .sig, .heads, .stg, .ilk, .ev .glb, .ev .boot, .ev .imp, .ev .beam, .ev .cellArr, .ev .stg, .ev .hlt, .ev .mgt, .outs, .free]
  | .driftStale .. =>
    [.msix, .beams, .ev .beam, .outs]
  | .pdPayload .. =>
    [.g, .msix, .clk, .boot, .bytes, .mem, .log, .beams, .mpl, .hmap, .cells, .sig, .lanes, .heads, .ev .imp, .ev .mpl, .ev .hmap, .ev .lane, .ev .mgt, .outs]
  | .camBegin .. | .camLine .. =>
    [.msix, .mpl, .lanes, .heads, .ev .lane, .outs]
  | .frameMetricsReady .. | .frameValidTimeout .. =>
    [.g, .msix, .clk, .boot, .bytes, .mem, .log, .beams, .mpl, .hmap, .cells, .sig, .ev .imp, .ev .mpl, .ev .hmap, .ev .mgt, .outs]
  | .noLight .. | .corrSat .. =>
    [.g, .msix, .clk, .boot, .bytes, .mem, .log, .beams, .mpl, .hmap, .cells, .sig, .ev .imp, .ev .mpl, .ev .hmap, .ev .mgt, .outs, .free]
  | .backrefl .. =>
    [.g, .msix, .clk, .boot, .bytes, .mem, .log, .job, .imp, .beams, .mpl, .hmap, .cells, .sig, .heads, .ilk, .ev .job, .ev .imp, .ev .beam, .ev .mpl, .ev .hmap, .ev .mgt, .outs]
  | .hmapDecaySweep =>
    [.bytes, .hmap]
  | .hmapRecRdWrite .. =>
    [.g, .msix, .log, .hmap, .ev .glb, .ev .mgt, .outs]
  | .cellSampleStart .. =>
    [.g, .msix, .clk, .boot, .bytes, .mem, .log, .job, .imp, .beams, .mpl, .cells, .sig, .heads, .ev .glb, .ev .job, .ev .imp, .ev .sig, .ev .cell, .ev .cellArr, .ev .mgt, .outs]
  | .cellSampleOverrun .. | .cellHardFault .. =>
    [.g, .msix, .clk, .boot, .bytes, .mem, .mgt, .log, .job, .imp, .beams, .mpl, .cells, .sig, .heads, .stg, .ilk, .ev .glb, .ev .boot, .ev .job, .ev .imp, .ev .beam, .ev .cell, .ev .cellArr, .ev .stg, .ev .hlt, .ev .mgt, .outs, .free]
  | .ctxAutoRestart .. | .substCopyDone =>
    [.cells]
  | .hardSettleDone .. =>
    [.g, .msix, .clk, .boot, .mem, .log, .imp, .beams, .mpl, .cells, .sig, .ev .boot, .ev .imp, .ev .beam, .ev .cellArr, .ev .mgt, .outs]
  | .shadowHandover .. =>
    [.msix, .log, .cells, .ev .glb, .ev .cell, .ev .cellArr, .ev .mgt, .outs]
  | .katPeriodElapsed .. | .deepDone =>
    [.msix, .cells, .ev .cellArr, .outs]
  | .katDone .. =>
    [.msix, .bytes, .mem, .log, .job, .imp, .beams, .mpl, .cells, .sig, .heads, .ev .glb, .ev .job, .ev .imp, .ev .cell, .ev .cellArr, .ev .mgt, .outs]
  | .cellStart .. | .cellStop .. | .restart .. | .subst .. | .test .. | .trig .. =>
    [.g, .msix, .log, .mpl, .cells, .sig, .heads, .ev .glb, .ev .cellArr, .ev .mgt, .outs]
  | .cellTrgWrite .. =>
    [.g, .msix, .log, .cells, .ev .glb, .ev .cellArr, .ev .mgt, .outs]
  | .traceStop .. =>
    [.msix, .bytes, .mem, .cells, .ev .cellArr, .outs]
  | .trcCtrlWrite .. =>
    [.g, .msix, .bytes, .mem, .log, .cells, .hlt, .regs, .outs] ++ allEvents
  | .deepRun .. =>
    [.g, .msix, .log, .cells, .regs, .outs] ++ allEvents
  | .lagMaxClear .. =>
    [.g, .msix, .log, .cells, .ev .glb, .ev .mgt, .outs]
  | .sigSelWrite .. =>
    [.g, .msix, .log, .sig, .regs, .outs] ++ allEvents
  | .laneSignalDetect .. | .laneEqualiseDone .. | .laneAlignLock .. | .keyBlock .. | .laneSoakEnd .. | .laneTrainTimeout ..
  | .laneSignalLoss .. | .laneLockLost .. | .laneCrcLimit .. | .laneVoidLimit .. | .laneRetryElapsed ..
  | .switchSoakResult .. =>
    [.msix, .bytes, .mem, .log, .time, .job, .imp, .beams, .mpl, .cells, .sig, .lanes, .heads, .ilk, .ev .glb, .ev .job, .ev .imp, .ev .beam, .ev .lane, .ev .time, .ev .mgt, .outs]
  | .laneDetectTimeout .. =>
    [.msix, .lanes, .ev .lane, .outs]
  | .trainBlock .. =>
    [.msix, .bytes, .mem, .log, .time, .job, .imp, .beams, .mpl, .cells, .sig, .lanes, .heads, .ilk, .ev .glb, .ev .job, .ev .imp, .ev .beam, .ev .lane, .ev .time, .ev .mgt, .outs, .free]
  | .sealBlock .. =>
    [.msix, .bytes, .mem, .log, .job, .imp, .beams, .mpl, .cells, .sig, .lanes, .heads, .ilk, .ev .glb, .ev .job, .ev .imp, .ev .beam, .ev .lane, .ev .mgt, .outs]
  | .switchRouted .. =>
    [.msix, .log, .heads, .ev .glb, .ev .lane, .ev .mgt, .outs]
  | .posFrame .. | .auxValFrame .. =>
    [.msix, .sig, .lanes, .heads, .ev .lane, .outs]
  | .statusFrame .. =>
    [.msix, .bytes, .mem, .log, .job, .imp, .beams, .mpl, .cells, .sig, .lanes, .heads, .ilk, .hlt, .ev .job, .ev .imp, .ev .beam, .ev .lane, .ev .mgt, .outs]
  | .tsyncRFrame .. =>
    [.g, .msix, .clk, .boot, .bytes, .mem, .log, .time, .job, .imp, .beams, .mpl, .cells, .sig, .lanes, .heads, .ilk, .ev .job, .ev .imp, .ev .beam, .ev .lane, .ev .time, .ev .mgt, .outs]
  | .imgBeginFrame .. | .imgSegFrame .. =>
    [.g, .msix, .clk, .boot, .bytes, .mem, .mgt, .log, .time, .job, .imp, .beams, .mpl, .hmap, .cells, .sig, .lanes, .heads, .stg, .ilk, .ev .glb, .ev .boot, .ev .job, .ev .imp, .ev .beam, .ev .cellArr, .ev .lane, .ev .stg, .ev .mem, .ev .hlt, .ev .mgt, .outs, .free]
  | .cmdKeepalive .. | .auxCmdKeepalive .. | .releaseSend .. =>
    [.heads, .outs]
  | .tsyncSend =>
    [.time, .heads, .outs]
  | .statusTimeout .. | .floodTimeout .. =>
    [.msix, .bytes, .mem, .log, .job, .imp, .beams, .mpl, .cells, .sig, .heads, .ilk, .ev .job, .ev .imp, .ev .beam, .ev .mgt, .outs]
  | .laneRetrain .. | .eyeScan .. | .testEnter .. | .testExit .. =>
    [.g, .msix, .bytes, .mem, .log, .time, .job, .imp, .beams, .mpl, .cells, .sig, .lanes, .heads, .ilk, .ev .glb, .ev .job, .ev .imp, .ev .beam, .ev .lane, .ev .time, .ev .mgt, .outs]
  | .eyeScanDone .. =>
    [.msix, .log, .lanes, .hlt, .ev .glb, .ev .lane, .ev .hlt, .ev .mgt, .outs, .free]
  | .injectBitError .. | .injectErrorRate .. | .injectStop .. | .injectInvalidHeader .. | .injectCrcError ..
  | .injectSealError .. =>
    [.g, .msix, .log, .lanes, .ev .glb, .ev .lane, .ev .mgt, .outs]
  | .moveAbs .. | .moveRel .. | .axisStop .. | .axisResume .. | .home .. | .clear .. | .cmpClear .. =>
    [.g, .msix, .clk, .boot, .mem, .log, .beams, .cells, .sig, .stg, .ev .glb, .ev .imp, .ev .stg, .ev .hlt, .ev .mgt, .outs, .free]
  | .cmpPush .. =>
    [.g, .msix, .log, .stg, .ev .glb, .ev .stg, .ev .mgt, .outs]
  | .profileUpdate .. =>
    [.g, .msix, .clk, .boot, .mem, .log, .beams, .cells, .sig, .stg, .ev .imp, .ev .stg, .ev .hlt, .ev .mgt, .outs, .free]
  | .axisTargetReached .. | .limitAssert .. =>
    [.msix, .log, .stg, .ev .stg, .ev .hlt, .ev .mgt, .outs, .free]
  | .axisAtRest .. =>
    [.msix, .log, .job, .stg, .ev .stg, .ev .hlt, .ev .mgt, .outs, .free]
  | .encQuadStep .. | .microstep .. =>
    [.g, .msix, .clk, .boot, .mem, .log, .beams, .cells, .sig, .stg, .ev .imp, .ev .stg, .ev .mgt, .outs]
  | .quadErrLimit .. =>
    [.msix, .log, .stg, .ev .stg, .ev .mgt, .outs]
  | .encIndexEdge .. =>
    [.msix, .stg, .ev .stg, .outs]
  | .axisSignalPublish .. =>
    [.sig, .stg]
  | .stallCheck .. | .limitRelease .. | .homeInputEdge .. | .speedZeroTimeout .. | .holdDelayElapsed .. =>
    [.stg]
  | .axisStall .. =>
    [.msix, .log, .sig, .stg, .ev .stg, .ev .mgt, .outs]
  | .encoutEmit .. | .cmpPulseEnd .. =>
    [.stg, .outs]
  | .inhibitFall .. | .lampReply .. | .lampPollMissed .. | .notMeasuredTimeout .. =>
    [.g, .msix, .clk, .boot, .bytes, .mem, .mgt, .log, .time, .job, .imp, .beams, .mpl, .hmap, .cells, .sig, .heads, .stg, .ilk, .ev .glb, .ev .boot, .ev .job, .ev .imp, .ev .beam, .ev .cellArr, .ev .stg, .ev .ilk, .ev .mem, .ev .hlt, .ev .mgt, .outs, .free]
  | .inhibitRise .. =>
    [.ilk]
  | .inputLatchRearm =>
    [.msix, .beams, .ilk, .ev .ilk, .outs]
  | .discrepancyFault =>
    [.g, .msix, .clk, .boot, .mem, .mgt, .log, .imp, .beams, .mpl, .cells, .sig, .heads, .stg, .ilk, .ev .glb, .ev .boot, .ev .imp, .ev .cellArr, .ev .stg, .ev .ilk, .ev .hlt, .ev .mgt, .outs, .free]
  | .lampAck .. | .scene .. =>
    [.g, .msix, .clk, .boot, .mem, .log, .job, .beams, .cells, .sig, .ilk, .ev .glb, .ev .imp, .ev .ilk, .ev .mgt, .outs]
  | .lampPollCycle .. | .blinkToggle .. =>
    [.ilk, .outs]
  | .alFrameSend | .ptpTx .. | .logReq .. | .telemetrySend =>
    [.outs]
  | .colourFeedback =>
    [.g, .msix, .clk, .boot, .mem, .log, .beams, .cells, .sig, .ilk, .ev .imp, .ev .ilk, .ev .mgt, .outs, .free]
  | .ptpEventRx .. =>
    [.g, .msix, .aon, .clk, .boot, .mem, .log, .time, .beams, .cells, .sig, .ev .imp, .ev .time, .ev .mgt, .outs, .free]
  | .masterLost =>
    [.msix, .log, .time, .ev .time, .ev .mgt, .outs, .free]
  | .timeMapChange .. =>
    [.time]
  | .timeSnap .. =>
    [.g, .msix, .log, .time, .ev .glb, .ev .time, .ev .mgt, .outs]
  | .xtal32Fail =>
    [.msix, .aon, .clk, .ev .clk, .outs]
  | .memRetrain .. | .scrubNow .. =>
    [.g, .msix, .mem, .log, .ev .glb, .ev .mem, .ev .mgt, .outs]
  | .retrainEnd .. =>
    [.g, .msix, .clk, .boot, .bytes, .mem, .mgt, .log, .time, .job, .imp, .beams, .mpl, .hmap, .cells, .sig, .heads, .stg, .ilk, .hlt, .ev .glb, .ev .boot, .ev .job, .ev .imp, .ev .beam, .ev .cellArr, .ev .stg, .ev .mem, .ev .hlt, .ev .mgt, .outs, .free]
  | .refreshDue .. | .writeQueueDrain .. | .hotRowRefresh .. | .scrubPassDone =>
    [.msix, .mem, .ev .mem, .outs]
  | .hotRowWindow =>
    [.g, .msix, .clk, .boot, .mem, .log, .beams, .cells, .sig, .ev .imp, .ev .mgt, .outs]
  | .mr4Poll .. =>
    [.msix, .mem, .log, .sig, .hlt, .ev .mem, .ev .hlt, .ev .mgt, .outs, .free]
  | .clockMonitorTrip .. =>
    [.g, .msix, .aon, .clk, .boot, .mem, .mgt, .time, .job, .imp, .beams, .mpl, .hmap, .cells, .sig, .lanes, .heads, .stg, .ilk, .hlt, .regs, .outs] ++ allEvents
  | .fallbackPllLocked .. =>
    [.clk, .time, .ilk]
  | .fallbackFirmwareReady .. | .mgmtWatchdogExpire .. =>
    [.g, .msix, .clk, .boot, .mem, .mgt, .log, .imp, .beams, .mpl, .cells, .sig, .heads, .stg, .ilk, .ev .glb, .ev .boot, .ev .imp, .ev .cellArr, .ev .stg, .ev .hlt, .ev .mgt, .outs, .free]
  | .pllUnlock .. =>
    [.g, .msix, .clk, .boot, .bytes, .mem, .mgt, .log, .time, .job, .imp, .beams, .mpl, .cells, .sig, .lanes, .heads, .stg, .ilk, .ev .glb, .ev .dma, .ev .boot, .ev .job, .ev .imp, .ev .beam, .ev .cellArr, .ev .lane, .ev .stg, .ev .time, .ev .mem, .ev .clk, .ev .hlt, .ev .mgt, .outs, .free]
  | .pllRelock .. =>
    [.clk, .stg]
  | .clkoutSrcWrite .. | .clkGateRequest .. =>
    [.g, .msix, .clk, .log, .ev .glb, .ev .mgt, .outs]
  | .switchStuck .. | .gateTimeout .. =>
    [.msix, .clk, .log, .ev .clk, .ev .mgt, .outs, .free]
  | .vbatLowSample .. =>
    [.msix, .ev .pwr, .outs]
  | .tempRead .. =>
    [.g, .msix, .clk, .boot, .mem, .log, .beams, .cells, .sig, .hlt, .ev .glb, .ev .imp, .ev .hlt, .ev .mgt, .outs, .free]
  | .throttleTimer =>
    [.msix, .log, .sig, .hlt, .ev .hlt, .ev .mgt, .outs, .free]
  | .thermalShutdown =>
    [.g, .msix, .aon, .clk, .boot, .mem, .log, .imp, .beams, .mpl, .cells, .sig, .heads, .stg, .ilk, .hlt, .ev .boot, .ev .imp, .ev .cellArr, .ev .stg, .ev .hlt, .ev .mgt, .outs, .free]
  | .canaryLimit =>
    [.g, .msix, .clk, .boot, .mem, .mgt, .log, .imp, .beams, .mpl, .cells, .sig, .heads, .stg, .ilk, .hlt, .ev .glb, .ev .boot, .ev .imp, .ev .cellArr, .ev .stg, .ev .hlt, .ev .mgt, .outs, .free]
  | .vcoreMismatch .. | .touchstoneMeasure .. =>
    [.msix, .log, .hlt, .ev .hlt, .ev .mgt, .outs, .free]
  | .marginHourlyCheck =>
    [.msix, .mem, .log, .cells, .hlt, .ev .glb, .ev .cellArr, .ev .hlt, .ev .mgt, .outs, .free]
  | .eyeScanSchedule =>
    [.lanes, .hlt]
  | .laneRetrainRequest .. =>
    [.msix, .bytes, .mem, .log, .time, .job, .imp, .beams, .mpl, .cells, .sig, .lanes, .heads, .ilk, .hlt, .ev .glb, .ev .job, .ev .imp, .ev .beam, .ev .lane, .ev .time, .ev .mgt, .outs]
  | .laserMonSample .. | .laserRatioUpdate .. =>
    [.hlt]
  | .laserEvaluation .. =>
    [.msix, .bytes, .mem, .log, .job, .imp, .beams, .mpl, .cells, .sig, .heads, .ilk, .hlt, .ev .glb, .ev .job, .ev .imp, .ev .beam, .ev .hlt, .ev .mgt, .outs, .free]
  | .notchMeasure .. =>
    [.g, .msix, .bytes, .mem, .log, .cells, .hlt, .regs, .outs, .free] ++ allEvents
  | .notchRetuneCommit .. =>
    [.g, .msix, .clk, .boot, .mem, .log, .beams, .cells, .sig, .hlt, .ev .glb, .ev .boot, .ev .imp, .ev .hlt, .ev .mgt, .outs]
  | .cal .. =>
    [.g, .msix, .log, .hlt, .ev .glb, .ev .hlt, .ev .mgt, .outs]
  | .calRunDone .. =>
    [.msix, .log, .hlt, .regs, .outs, .free] ++ allEvents
  | .calStep .. =>
    [.hlt, .regs] ++ allEvents
  | .echo .. | .info .. | .logFetch .. | .logFlush .. | .netArm .. | .rtcSet .. =>
    [.g, .msix, .mgt, .log, .ev .glb, .ev .mgt, .outs]
  | .mbReply =>
    [.msix, .aon, .bytes, .mem, .mgt, .log, .ev .mgt, .outs]
  | .logStageCopy =>
    [.bytes, .mem, .log]
  | .logNvmFlush .. =>
    [.msix, .log, .ev .mgt, .outs]
  | .updBegin .. =>
    [.mgt, .outs]
  | .updData .. =>
    [.bytes, .mem, .mgt, .outs]
  | .updEnd .. =>
    [.msix, .boot, .mgt, .ev .glb, .ev .boot, .ev .mgt, .outs]
  | .netTransferIdle | .netWindowClose =>
    [.msix, .mgt, .ev .mgt, .outs]
  | .ethLos .. =>
    [.mgt, .log]
  | .xtal32Qualified =>
    [.aon, .clk]
  | .pwmValley =>
    [.g, .msix, .clk, .boot, .mem, .log, .beams, .cells, .sig, .stg, .ev .imp, .ev .mgt, .outs]
  | .ainConversion .. | .gpioSample .. =>
    [.sig]
  | .backupRcStopped =>
    [.g, .msix, .clk, .boot, .mem, .mgt, .time, .job, .imp, .beams, .mpl, .hmap, .cells, .sig, .lanes, .heads, .stg, .hlt, .regs] ++ allEvents
  | .hmapCopyDone | .hmapSweepDone =>
    [.hmap]

end Sys2Proof.Machine
end

