-- ==== Sys2Proof/Certificates/Slice0/Obligations.lean ====
section
/-!
DEFINITION. The statements about the model, for the provers: what each command does, and what every step keeps.
-/

open Sys2Proof Sys2Proof.Machine

/-- R19, R699, R701, R794: VBAT_RISE, VBAT_FALL, MAIN_SUPPLY_UP and MAIN_SUPPLY_LOSS move the device between OFF, STANDBY and BOOT; REFSEL is
sampled as the main supplies come up, and at no other time. -/
def Obligations.SuppliesMoveDevice : Prop :=
  ∀ s : State,
    (s.m.aon.vbat = false → s.m.g.dev = .off → Does .vbatRise s fun t =>
      t = { s.m with
        g := { s.m.g with dev := .standby }, clk := { s.m.clk with domains := 1 },
        aon := { mains := s.m.aon.mains, resetN := s.m.aon.resetN, refSel := s.m.aon.refSel, trstN := s.m.aon.trstN, tap := s.m.aon.tap,
                 vbat := true, pwrReq := true, retValid := false } }) ∧
    (s.m.g.dev = .standby → Does .vbatFall s fun t =>
      t.g.dev = .off ∧ t.aon.retValid = false ∧ t.aon.vbat = false ∧ t.aon.pwrReq = false ∧ Frame [.g, .aon, .clk] s.m t) ∧
    (s.m.g.dev ≠ .standby → Does .vbatFall s fun t => t = { s.m with aon := { s.m.aon with vbat := false } }) ∧
    (∀ r, s.m.aon.mains = false → s.m.aon.resetN = true → s.m.g.dev = .off ∨ s.m.g.dev = .standby → Does (.mainSupplyUp r) s fun t =>
      t.g.dev = .boot ∧ t.aon.refSel = r ∧ t.g.resetCause = (if s.m.g.dev = .off then 0 else 1) ∧ t.g.bootWarm = false ∧ t.aon.mains = true ∧
      t.aon.validAtBoot = s.m.aon.retValid ∧ t.boot.phase = .rom ∧ t.keep = none ∧ t.mem.cells = []) ∧
    (∀ r, s.m.aon.mains = false → s.m.aon.resetN = false → Does (.mainSupplyUp r) s fun t =>
      t = { s.m with aon := { s.m.aon with mains := true, refSel := r } }) ∧
    (∀ r, s.m.aon.mains = true → Does (.mainSupplyUp r) s (· = s.m)) ∧
    (s.m.aon.mains = true → s.m.g.dev = .boot ∨ inWork s.m = true ∨ s.m.g.dev = .safeHold → Does .mainSupplyLoss s fun t =>
      t.g.dev = (if s.m.aon.vbat then .standby else .off) ∧ t.aon.mains = false ∧ t.aon.shutdown = (if s.m.aon.vbat then 2 else 0) ∧
      t.clk.domains = (if s.m.aon.vbat then 1 else 0) ∧ t.mem.cells = [] ∧ t.keep = none)

/-- R19, R700, R701, R705: WAKE_EDGE and RTC_ALARM wake the device from STANDBY. With the main supplies present the boot begins at once;
without them PWR_REQ rises alone. -/
def Obligations.WakeFromStandby : Prop :=
  ∀ (s : State) (c : Instr),
    s.m.g.dev = .standby →
    ((∃ rising, c = .wakeEdge rising ∧ bitOf s.m.aon.stby 1 = true ∧
        (fld s.m.aon.stby 3 2 = 2 ∨ (fld s.m.aon.stby 3 2 = 0 ∧ rising = true) ∨ (fld s.m.aon.stby 3 2 = 1 ∧ rising = false))) ∨
      (c = .rtcAlarm ∧ bitOf s.m.aon.stby 4 = true ∧ s.m.aon.rtcRun = true)) →
    (s.m.aon.mains = false ∨ s.m.aon.resetN = false → Does c s fun t => t = { s.m with aon := { s.m.aon with pwrReq := true } }) ∧
    (s.m.aon.mains = true → s.m.aon.resetN = true → Does c s fun t =>
      t.g.dev = .boot ∧ t.g.resetCause = 1 ∧ t.aon.pwrReq = true ∧ t.aon.validAtBoot = s.m.aon.retValid ∧ t.boot.phase = .rom)

/-- R103 to R107, R113: RESET_N_LOW, RESET_N_RISE and the key sequence of GLB_RESET. A full reset leaves the device in BOOT with its cause; a
wrong key or a window that ends raises KEY_ABANDONED and resets nothing. While RESET_N is low an external programmer may write the flash. -/
def Obligations.ResetsAndKeys : Prop :=
  ∀ (s : State) (p : Port),
    (powered s.m = true → s.m.g.dev ≠ .shutdownLatched → s.m.g.resetHeld = false → Does .resetNLow s fun t =>
      t.g.dev = .boot ∧ t.g.resetCause = 2 ∧ t.g.resetHeld = true ∧ t.aon.resetN = false ∧ t.boot.phase = .rom ∧ t.ilk.inhReset = true) ∧
    (s.m.g.dev = .boot → Does (.resetNRise none) s fun t =>
      t = { s.m with aon := { s.m.aon with resetN := true }, g := { s.m.g with resetHeld := false } }) ∧
    (∀ f, s.m.g.dev = .boot → s.m.aon.resetN = false → Does (.resetNRise (some f)) s fun t =>
      t.boot.bankA.cells = bankCells f.bankA ∧ t.boot.bankB.cells = bankCells f.bankB ∧ t.boot.rec0 = f.rec0 ∧ t.boot.rec1 = f.rec1 ∧
      t.aon = { s.m.aon with resetN := true } ∧ t.g = { s.m.g with resetHeld := false } ∧ Frame [.g, .aon, .boot] s.m t) ∧
    (WriteOpen s.m p 0x28 → Does (.resetKeyOpen p) s fun t => t = onPort p (fun x => { x with keyOpen := true }) s.m) ∧
    (WriteOpen s.m p 0x28 → s.m.g.dev ≠ .shutdownLatched → s.m.g.resetHeld = false → (s.m.g.port p).keyOpen = true →
      Does (.resetKeyConfirm p) s fun t =>
        t.g.dev = .boot ∧ t.g.resetCause = 3 ∧ t.g.resetHeld = false ∧ t.boot.phase = .rom ∧ (t.g.port p).keyOpen = false ∧ t.ilk.inhReset = true) ∧
    (WriteOpen s.m p 0x28 → (s.m.g.port p).keyOpen = false → Does (.resetKeyConfirm p) s fun t =>
      raised t .glb 6 = true ∧ t.g.dev = s.m.g.dev ∧ Frame [.g, .msix, .ev .glb, .outs] s.m t) ∧
    (∀ v, WriteOpen s.m p 0x28 → v ≠ 0xC0DE#32 → v ≠ 0xF00D#32 → Does (.resetKeyInvalid p v) s fun t =>
      raised t .glb 6 = true ∧ (t.g.port p).keyOpen = false ∧ t.g.dev = s.m.g.dev ∧ Frame [.g, .msix, .ev .glb, .outs] s.m t) ∧
    ((s.m.g.port p).keyOpen = true → Does (.resetKeyWindowEnd p) s fun t =>
      raised t .glb 6 = true ∧ (t.g.port p).keyOpen = false ∧ t.g.dev = s.m.g.dev) ∧
    ((s.m.g.port p).keyOpen = false → Does (.resetKeyWindowEnd p) s fun t => t = s.m)

/-- R19, R71, R72, R699, R705: GLB_START, GLB_END, GLB_STANDBY with STANDBY_SEQUENCE_RESUME, and GLB_SAFE_HOLD. A write without the key 0xA6, or with a
reserved bit set, is a command error and does nothing else. -/
def Obligations.DeviceCommands : Prop :=
  ∀ (s : State) (p : Port), s.m.clk.fallback = .none →
    (∀ (proof : Bool) (e : Env), WriteOpen s.m p 0x20 → s.m.g.dev = .configured → s.m.clk.standby = .none → s.m.job.queue = [] →
      Does (.glbStart p (if proof then 0xA600010 else 0xA600000) e) s fun t =>
        t.g.dev = (if proof then .proof else .building) ∧ t.job.st = .idle ∧ t.job.queue = [] ∧ t.time.startAt = some s.m.time.dt ∧
        raised t .glb 0 = true) ∧
    (WriteOpen s.m p 0x20 → inBuild s.m = true → s.m.job.st = .idle ∨ s.m.job.st = .finished ∨ s.m.job.st = .aborted →
      Does (.glbEnd p 0xA600000) s fun t =>
        t.g.dev = .configured ∧ t.job.st = .none ∧ t.job.causes = 0 ∧ t.boot.layerOn = false ∧ raised t .glb 0 = true) ∧
    (WriteOpen s.m p 0x20 → inBuild s.m = true → s.m.job.st = .exposing → Refuses (.glbEnd p 0xA600000) s) ∧
    (WriteOpen s.m p 0x20 → s.m.g.dev = .configured → s.m.clk.standby = .none → Does (.glbStandby p 0xA600000) s fun t =>
      t.g.dev = .configured ∧ t.clk.standby = .waiting ∧ ∀ h : Fin 16, t.heads[h].released = false) ∧
    (s.m.g.dev = .configured → s.m.clk.standby = .waiting → standbyReady s.m = true → Does .standbySequenceResume s fun t =>
      t.g.dev = .standby ∧ t.aon.shutdown = 3 ∧ t.aon.pwrReq = false ∧ t.clk.domains = 3 ∧ t.clk.standby = .none) ∧
    (s.m.g.dev = .configured → s.m.clk.standby = .woken → standbyReady s.m = true → s.m.aon.mains = true → s.m.aon.resetN = true →
      Does .standbySequenceResume s fun t => t.g.dev = .boot ∧ t.g.resetCause = 1 ∧ t.aon.pwrReq = true ∧ t.aon.shutdown = 3) ∧
    (WriteOpen s.m p 0x20 → inWork s.m = true → Does (.glbSafeHold p 0xA600000) s fun t =>
      t.g.dev = .safeHold ∧ t.g.safeByFault = false ∧ t.g.heldBefore = s.m.g.dev ∧ t.ilk.inhSafe = true ∧ t.boot.layerOn = false ∧
      t.imp.running = false ∧ raised t .glb 0 = true) ∧
    (∀ (hi : BitVec 28) (e : Env) (c : Instr), c ∈ [.glbStart p hi e, .glbEnd p hi, .glbStandby p hi, .glbSafeHold p hi] → WriteOpen s.m p 0x20 →
      fld hi 27 20 ≠ 0xA6 ∨ fld hi 19 5 ≠ 0 ∨ fld hi 3 0 ≠ 0 → Refuses c s)

/-- R36, R37, R42, R73, R84, R103, R107, R108, R792: GLB_HEARTBEAT, HOST_TIMEOUT_EXPIRE and the PCIe link. PCIE_LINK_LOSS, PCIE_HOT_RESET and
PERST_N_ASSERT are one loss of the link: the channels with a descriptor in progress halt with LINK_LOST, and the configuration space returns
to its defaults (log row 113). -/
def Obligations.HostPresenceAndLink : Prop :=
  (∀ s : State,
     (∀ v, WriteOpen s.m .mgmt 0x24 → Does (.glbHeartbeat .mgmt v) s fun t => t = { s.m with g := { s.m.g with heartbeat := v } }) ∧
     (∀ v, WriteOpen s.m .host 0x24 → s.m.g.hostAbsent = false → Does (.glbHeartbeat .host v) s fun t =>
       t = { s.m with g := { s.m.g with heartbeat := v, hbExpired := false } }) ∧
     (∀ v, WriteOpen s.m .host 0x24 → s.m.g.hostAbsent = true → Does (.glbHeartbeat .host v) s fun t =>
       t.g.heartbeat = v ∧ t.g.hbExpired = false ∧ t.g.hostAbsent = false ∧ raised t .glb 8 = true ∧ t.job = s.m.job) ∧
     (powered s.m = true → s.m.g.dev ≠ .shutdownLatched → inBuild s.m = false → Does .hostTimeoutExpire s fun t =>
       t = { s.m with g := { s.m.g with hbExpired := true } }) ∧
     (powered s.m = true → inBuild s.m = true → s.m.g.hostAbsent = false → Does .hostTimeoutExpire s fun t =>
       t.g.hbExpired = true ∧ t.g.hostAbsent = true ∧ t.g.absentAt = s.m.time.dt ∧ t.g.dev = s.m.g.dev)) ∧
  (∀ s : State,
     (∀ lost, ∀ c ∈ [Instr.pcieLinkLoss lost, .pcieHotReset lost, .perstNAssert lost], s.m.g.linkUp = true → Does c s fun t =>
       t.g.linkUp = false ∧ t.g.pci = {} ∧ t.g.d3hot = false ∧ raised t .glb 9 = true ∧
       (∀ n : Fin 4, s.m.g.dma[n].busy = true → t.g.dma[n].st = .halted ∧ t.g.dma[n].lastResult = 6 ∧ t.g.dma[n].head = s.m.g.dma[n].head) ∧
       (lost = [] → t.g.dev = s.m.g.dev ∧
         (inBuild s.m = true → t.g.hostAbsent = true) ∧ (inBuild s.m = false → t.g.hostAbsent = s.m.g.hostAbsent))) ∧
     (∀ b, powered s.m = true → domainOn s.m 10 = true → s.m.clk.fallback = .none → s.m.g.resetHeld = false → s.m.g.dev ≠ .shutdownLatched →
       Does (.pcieLinkUp b) s fun t => t = { s.m with g := { s.m.g with linkUp := true, d3hot := false, pci := b } }) ∧
     (s.m.g.linkUp = true → s.m.g.d3hot = false → inBuild s.m = false → Does .d3hotEntry s fun t =>
       t.g.d3hot = true ∧ raised t .glb 9 = true ∧ t.g.dev = s.m.g.dev ∧ Frame [.g, .msix, .ev .glb, .outs] s.m t) ∧
     (s.m.g.d3hot = true → Does .d0Return s fun t => t.g.d3hot = false ∧ Frame [.g, .msix, .outs] s.m t))

/-- R84, R100, R102, R103: MSI-X moderation. When a vector's interval ends, or its mask is cleared, what it gathered is sent as one
message; a vector that gathered nothing sends nothing. -/
def Obligations.MsixModeration : Prop :=
  ∀ (s : State) (v : Fin 64) (c : Instr),
    (c = .msixIntervalEnd v ∧ s.m.g.msix[v].mask = false) ∨
      (c = .msixUnmask v ∧ s.m.g.msix[v].interval = false ∧ WriteOpen s.m .host (0x2000 + 16 * v.val + 12)) →
    msixLive s.m = true → s.m.g.d3hot = false →
    (s.m.g.msix[v].pend = true → Does c s fun t =>
      t.outs = .msix v.val s.m.g.msix[v].addr s.m.g.msix[v].data :: s.m.outs ∧ t.g.msix[v].pend = false ∧
      t.g.msix[v].mask = false ∧ Frame [.msix, .outs] s.m t) ∧
    (s.m.g.msix[v].pend = false → Does c s fun t =>
      t.outs = s.m.outs ∧ t.g.msix[v].interval = false ∧ t.g.msix[v].mask = false ∧ Frame [.msix] s.m t)

/-- R29, R81, R85 to R89, R204, R663: BAR2_WRITE stores its bytes and nothing else, or is dropped with WIN_REFUSED; BAR2_READ answers
the bytes, or poison, and stores nothing; WINDOW_BASE_WRITE moves the window inside layer memory. -/
def Obligations.WindowAccess : Prop :=
  ∀ (s : State) (off : BitVec 28),
    (∀ bs : List Byte, bar2Live s.m = true → s.m.mem.trained = true →
      (inRegion s.m 0 (winBase s.m + off.toNat) bs.length = true ∨ inRegion s.m 6 (winBase s.m + off.toNat) bs.length = true) →
      s.m.g.dev ≠ .safeHold → (guarded s.m).any (meets (winBase s.m + off.toNat) bs.length) = false → Memory.wf s.m.mem →
      Does (.bar2Write off bs) s fun t =>
        (∀ i < bs.length, memByte t (winBase s.m + off.toNat + i) = bs.getD i 0) ∧
        (∀ a, ¬(winBase s.m + off.toNat ≤ a ∧ a < winBase s.m + off.toNat + bs.length) → memByte t a = memByte s.m a) ∧
        Frame [.bytes, .mem] s.m t) ∧
    (∀ bs : List Byte, bar2Live s.m = true →
      s.m.mem.trained = false ∨ (inRegion s.m 0 (winBase s.m + off.toNat) bs.length || inRegion s.m 6 (winBase s.m + off.toNat) bs.length) = false ∨
      s.m.g.dev = .safeHold ∨ (guarded s.m).any (meets (winBase s.m + off.toNat) bs.length) = true →
      Does (.bar2Write off bs) s fun t => raised t .glb 11 = true ∧ Frame [.ev .glb, .msix, .outs] s.m t) ∧
    (∀ (n : Nat) (e : Ecc), bar2Live s.m = true → s.m.mem.trained = true → Does (.bar2Read off n e) s fun t =>
      t.outs.head? = some (if readBad s.m (winBase s.m + off.toNat) n e then .bar2Poison (winBase s.m + off.toNat)
        else .bar2Data (winBase s.m + off.toNat) (memBytes s.m (winBase s.m + off.toNat) n)) ∧
      t.mem.cells = s.m.mem.cells) ∧
    (∀ (p : Port) (lo hi : Word), WriteOpen s.m p 0x48 →
      (fld hi 0 0 * 2 ^ 32 + fld lo 31 20 * 2 ^ 20 ≤ 0x1B0000000 → Does (.windowBaseWrite p lo hi) s fun t =>
        t = { s.m with g := { s.m.g with winLo := lo &&& 0xFFF00000#32, winHi := hi &&& 1#32 } }) ∧
      (0x1B0000000 < fld hi 0 0 * 2 ^ 32 + fld lo 31 20 * 2 ^ 20 → Does (.windowBaseWrite p lo hi) s fun t =>
        raised t .glb 4 = true ∧ t.g.winLo = s.m.g.winLo ∧ t.g.winHi = s.m.g.winHi))

/-- R90 to R96, R99: the registers of a DMA channel (TAIL, ENABLE set and cleared, SKIP and RETRY from HALTED, ring base and size), and a
descriptor's completion: an OK one moves HEAD on; any other halts the channel with its result; both keep the TAG, and raise DESC_DONE where
the descriptor asks for it. That ENABLE 1 with HEAD = TAIL reads RUNNING, and what a RETRY or SKIP with ENABLE 0 leaves, is the model's
reading (log row 27). -/
def Obligations.DmaChannels : Prop :=
  (∀ (s : State) (p : Port) (n : Fin 4),
     (∀ v, WriteOpen s.m p (0x100C + 0x100 * n.val) → Does (.dmaTailWrite p n v) s fun t =>
       t = onDma n (fun c => { c with tail := BitVec.ofNat 12 (fld v 11 0 % 2 ^ c.log2.toNat) }) s.m) ∧
     (WriteOpen s.m p (0x1014 + 0x100 * n.val) →
       (s.m.g.dma[n].st ≠ .halted → Does (.dmaEnable p n) s fun t =>
         t = onDma n (fun c => { c with enable := true, st := .running }) s.m) ∧
       (s.m.g.dma[n].st = .running → Does (.dmaDisable p n) s fun t =>
         t = onDma n (fun c => { c with enable := false, st := if c.head = c.tail then .idle else .stopping }) s.m) ∧
       (s.m.g.dma[n].st = .halted → Does (.dmaDisable p n) s fun t =>
         t = onDma n (fun c => { c with enable := false, st := .idle }) s.m) ∧
       (s.m.g.dma[n].st = .halted → Does (.dmaSkip p n) s fun t =>
         t.g.dma[n] = { s.m.g.dma[n] with
           head := BitVec.ofNat 12 ((s.m.g.dma[n].head.toNat + 1) % 2 ^ s.m.g.dma[n].log2.toNat), moved := 0,
           st := if s.m.g.dma[n].enable then .running else .idle } ∧
         (∀ k, k ≠ n → t.g.dma[k] = s.m.g.dma[k]) ∧
         (s.m.g.dma[n].inc ≠ s.m.g.dma[n].head → s.m.g.dma[n].inc = s.m.g.dma[n].tail → raised t (.dma n) 2 = true) ∧
         Frame [.g, .msix, .ev .dma, .outs] s.m t) ∧
       (s.m.g.dma[n].st = .halted → s.m.g.dma[n].enable = true → Does (.dmaRetry p n) s fun t =>
         t = onDma n (fun c => { c with moved := 0, st := .running }) s.m) ∧
       (s.m.g.dma[n].st = .halted → s.m.g.dma[n].enable = false → s.m.g.dma[n].head ≠ s.m.g.dma[n].tail → Does (.dmaRetry p n) s fun t =>
         t = onDma n (fun c => { c with moved := 0, st := .stopping }) s.m) ∧
       (s.m.g.dma[n].st ≠ .halted → Does (.dmaSkip p n) s (· = s.m) ∧ Does (.dmaRetry p n) s (· = s.m))) ∧
     (∀ lo hi, WriteOpen s.m p (0x1000 + 0x100 * n.val) → s.m.g.dma[n].enable = false → Does (.dmaRingWrite p n false lo hi) s fun t =>
       t = onDma n (fun c => { c with ringLo := lo &&& 0xFFFFF000#32, ringHi := hi, head := 0, moved := 0 }) s.m) ∧
     (∀ lo hi, WriteOpen s.m p (0x1008 + 0x100 * n.val) → s.m.g.dma[n].enable = false → 4 ≤ fld lo 3 0 → fld lo 3 0 ≤ 12 →
       Does (.dmaRingWrite p n true lo hi) s fun t =>
         t = onDma n (fun c => { c with
           log2 := BitVec.ofNat 4 (fld lo 3 0), tail := BitVec.ofNat 12 (c.tail.toNat % 2 ^ fld lo 3 0), head := 0, moved := 0 }) s.m) ∧
     (∀ size lo hi, WriteOpen s.m p ((if size then 0x1008 else 0x1000) + 0x100 * n.val) → s.m.g.dma[n].enable = true →
       Does (.dmaRingWrite p n size lo hi) s fun t => raised t .glb 4 = true ∧ t.g.dma = s.m.g.dma)) ∧
  (∀ (s : State) (n : Fin 4) (x : DmaIn) (others : List (Fin 4 × DmaIn)), s.m.g.dma[n].busy = true → s.m.g.linkUp = true →
     Does (.dmaDescDone n x.host x.layer x.len x.ctl x.data x.hostErr x.stop x.ecc others) s fun t =>
       t.g.dma[n].lastResult = BitVec.ofNat 3 (dmaJudge s.m s.m.g.dma[n] x).result ∧
       t.g.dma[n].lastTag = BitVec.ofNat 16 (fld x.ctl 31 16) ∧ t.g.dma[n].moved = 0 ∧
       (bitOf x.ctl 1 = true → raised t (.dma n) 0 = true) ∧
       (bitOf x.ctl 0 = true → others = [] → t.mem.cells = s.m.mem.cells) ∧
       ((dmaJudge s.m s.m.g.dma[n] x).result = 0 →
         t.g.dma[n].st = (if s.m.g.dma[n].st = .stopping then .idle else .running) ∧ t.g.dma[n].head = s.m.g.dma[n].inc ∧
         (s.m.g.dma[n].inc = s.m.g.dma[n].tail → raised t (.dma n) 2 = true)) ∧
       ((dmaJudge s.m s.m.g.dma[n] x).result ≠ 0 →
         t.g.dma[n].st = .halted ∧ t.g.dma[n].head = s.m.g.dma[n].head ∧ raised t (.dma n) 1 = true))

/-- R47: each occurrence of an event sets its bit and advances the sequence number of its SQC register, whether or not the bit was set;
the other bits, and every other register held as written, stay. -/
def Obligations.SqcOccurrence : Prop :=
  ∀ (m : Mach) (e : EvReg) (bit : Nat), bit < 24 →
    fld (regGet (raise e bit m) e.off) 31 24 = (fld (regGet m e.off) 31 24 + 1) % 256 ∧
    raised (raise e bit m) e bit = true ∧
    (∀ k < 24, k ≠ bit → raised (raise e bit m) e k = raised m e k) ∧
    (∀ off, off ≠ e.off → regGet (raise e bit m) off = regGet m off)

/-- R46, R47: SQC_CLEAR_WRITE. A clear that carries the present sequence number clears the bits it sets and keeps the sequence number; a
clear that carries another one clears nothing, so no event that it has not seen is lost. -/
def Obligations.SqcClearLosesNothing : Prop :=
  ∀ (s : State) (p : Port) (e : EvReg) (v : Word), Regs.wf s.m.regs → WriteOpen s.m p e.off →
    Does (.sqcClearWrite p e v) s fun t =>
      fld (regGet t e.off) 31 24 = fld (regGet s.m e.off) 31 24 ∧
      (∀ k < 24, raised t e k = (raised s.m e k && !(decide (fld v 31 24 = fld (regGet s.m e.off) 31 24) && bitOf v k))) ∧
      (∀ off, off ≠ e.off → regGet t off = regGet s.m off)

/-- R46, R49, R50, R53, R59, R67, R101: REGISTER_WRITE of GLB_SCRATCH and of every event enable stores the implemented bits and nothing else;
a write that does not enable all four bytes is discarded with ACCERR; one to an offset with no register is discarded in silence.
LOCK_FIELD_WRITE takes the first write since the full reset; a later one is refused with LOCKERR. -/
def Obligations.RegisterWrites : Prop :=
  ∀ (s : State) (p : Port) (v : Word) (env : Env),
    (Regs.wf s.m.regs → s.m.g.locked.any (fun x => decide (x.1 = 0x2C)) = false → WriteOpen s.m p 0x2C →
      Does (.registerWrite p 0x2C v 15 env) s fun t =>
        regGet t 0x2C = v ∧ (∀ off, off ≠ 0x2C → regGet t off = regGet s.m off) ∧ t = { s.m with regs := t.regs }) ∧
    (∀ e : EvReg, Regs.wf s.m.regs → s.m.g.locked = [] → WriteOpen s.m p e.en →
      Does (.registerWrite p (BitVec.ofNat 24 e.en) v 15 env) s fun t =>
        (∀ r, regRow e.en = some r → regGet t e.en = v &&& r.mask) ∧ (∀ off, off ≠ e.en → regGet t off = regGet s.m off) ∧
        t = { s.m with regs := t.regs }) ∧
    (∀ (off : BitVec 24) (be : BitVec 4), be ≠ 15#4 → reaches s.m p = true → Does (.registerWrite p off v be env) s fun t =>
      raised t .glb 4 = true ∧ t.g.errAddr = errWord s.m p 2 off.toNat ∧ Frame [.g, .msix, .log, .ev .glb, .ev .mgt, .outs] s.m t) ∧
    (∀ off : BitVec 24, 0x120000 ≤ off.toNat → off.toNat < 0x200000 → reaches s.m p = true → (s.m.g.port p).wr = none → s.m.g.locked = [] →
      Does (.registerWrite p off v 15 env) s (· = s.m)) ∧
    (∀ (off : BitVec 24) (r : RegRow), Regs.wf s.m.regs → WriteOpen s.m p off.toNat → regRow off.toNat = some r →
      s.m.g.locked.any (fun x => decide (x.1 = off.toNat)) = false → Does (.lockFieldWrite p off v) s fun t =>
        t.g = { s.m.g with locked := s.m.g.locked ++ [(off.toNat, v)] } ∧ regGet t off.toNat = v &&& r.mask ∧
        (∀ o, o ≠ off.toNat → regGet t o = regGet s.m o) ∧ { t with g := s.m.g, regs := s.m.regs, hlt := s.m.hlt } = s.m) ∧
    (∀ (off : BitVec 24) (r : RegRow), WriteOpen s.m p off.toNat → regRow off.toNat = some r →
      s.m.g.locked.any (fun x => decide (x.1 = off.toNat)) = true → Does (.lockFieldWrite p off v) s fun t =>
        raised t .glb 3 = true ∧ t.g.locked = s.m.g.locked ∧ t.g.errAddr = errWord s.m p 1 off.toNat)

/-- R57, R58, R60, R635: reads and writes of a register pair. The two shadows of a port make two 32-bit accesses one access; a high-word access
whose shadow does not hold the pair is served from the register with SHADOW_MISS; a 64-bit read or write of a pair needs no shadow. -/
def Obligations.PairAccess : Prop :=
  ∀ (s : State) (p : Port) (off : BitVec 24), reaches s.m p = true → answers s.m off.toNat = true →
    (isPair off.toNat = true → Does (.pairLowRead p off 0) s fun t =>
      t.outs = .readData p off.toNat (regView s.m p off.toNat) :: s.m.outs ∧
      (t.g.port p).rd = some (off.toNat, regView s.m p (off.toNat + 4)) ∧ (t.g.port p).wr = (s.m.g.port p).wr ∧ Frame [.g, .outs] s.m t) ∧
    (isPair off.toNat = true → Does (.pairLowRead p off 1) s fun t =>
      t.outs = .readData p (off.toNat + 4) (regView s.m p (off.toNat + 4)) :: .readData p off.toNat (regView s.m p off.toNat) :: s.m.outs ∧
      (t.g.port p).rd = (s.m.g.port p).rd ∧ (t.g.port p).wr = (s.m.g.port p).wr ∧ Frame [.g, .outs] s.m t) ∧
    (isPairHigh off.toNat = true →
      (∀ w, (s.m.g.port p).rd = some (off.toNat - 4, w) → Does (.pairHighRead p off) s fun t =>
        t.outs = .readData p off.toNat w :: s.m.outs ∧ (t.g.port p).rd = none ∧ Frame [.g, .outs] s.m t) ∧
      ((s.m.g.port p).rd = none → Does (.pairHighRead p off) s fun t =>
        .readData p off.toNat (regView s.m p off.toNat) ∈ t.outs ∧ raised t .glb 5 = true ∧ (t.g.port p).rd = none)) ∧
    (∀ v, (s.m.g.port p).wr = none → Does (.pairLowWrite p off v) s fun t =>
      t = onPort p (fun x => { x with wr := some (off.toNat, v) }) s.m) ∧
    (∀ v w o, (s.m.g.port p).wr = some (o, w) → o ≠ off.toNat → Does (.pairLowWrite p off v) s fun t =>
      raised t .glb 5 = true ∧ (t.g.port p).wr = some (off.toNat, v)) ∧
    (∀ lo hi : Word, answers s.m 0x4C = true → (s.m.g.port p).wr = some (0x48, lo) → fld hi 0 0 * 2 ^ 32 + fld lo 31 20 * 2 ^ 20 ≤ 0x1B0000000 →
      Does (.pairHighWrite p 0x4C hi) s fun t =>
        t.g.winLo = lo &&& 0xFFF00000#32 ∧ t.g.winHi = hi &&& 1#32 ∧ (t.g.port p).wr = none ∧ Frame [.g] s.m t) ∧
    (∀ hi : Word, answers s.m 0x4C = true → (s.m.g.port p).wr = none → fld hi 0 0 * 2 ^ 32 + fld s.m.g.winLo 31 20 * 2 ^ 20 ≤ 0x1B0000000 →
      Does (.pairHighWrite p 0x4C hi) s fun t =>
        t.g.winHi = hi &&& 1#32 ∧ t.g.winLo = s.m.g.winLo &&& 0xFFF00000#32 ∧ raised t .glb 5 = true) ∧
    (∀ (v : BitVec 64) (env : Env), answers s.m 0x48 = true → (s.m.g.port p).wr = none → fld v 32 32 * 2 ^ 32 + fld v 31 20 * 2 ^ 20 ≤ 0x1B0000000 →
      Does (.pair64bitWrite p 0x48 v [] env) s fun t =>
        t.g.winLo = BitVec.ofNat 32 v.toNat &&& 0xFFF00000#32 ∧ t.g.winHi = BitVec.ofNat 32 (v.toNat / 2 ^ 32) &&& 1#32 ∧
        (t.g.port p).wr = none ∧ Frame [.g] s.m t)

/-- R16, R426, R737, R758, R781, R784: TELEMETRY_SEND, AIN_CONVERSION and GPIO_SAMPLE. -/
def Obligations.TelemetryAndInputs : Prop :=
  ∀ s : State,
    (logAlive s.m = true → netLive s.m = true → recFld s.m recMgtNet 2 31 16 ≠ 0 → recWord s.m recMgtNet 1 ≠ 0 → Does .telemetrySend s fun t =>
      t = { s.m with outs := .datagram (recWord s.m recMgtNet 1) (recFld s.m recMgtNet 2 15 0) (telemetryBytes s.m) :: s.m.outs }) ∧
    (∀ (i : Fin 16) (raw : BitVec 12), chamberOn s.m = true → Does (.ainConversion i raw false) s fun t =>
      sigGet t (640 + i.val) = { v := BitVec.ofInt 32 (clampI 0 4095 ((raw.toNat : Int) - sfld (regGet s.m (0x100180 + 4 * i.val)) 15 0)),
                                 t := s.m.time.dt, valid := true } ∧
      (∀ n, n ≠ 640 + i.val → sigGet t n = sigGet s.m n) ∧ Frame [.sig] s.m t) ∧
    (∀ (i : Fin 16) (raw : BitVec 12), Does (.ainConversion i raw true) s (· = s.m)) ∧
    (∀ levels : BitVec 32, chamberOn s.m = true → Does (.gpioSample levels) s fun t =>
      (∀ i < 32, (sigGet t (720 + i)).v = BitVec.ofNat 32 (b2n (bitOf levels i)) ∧ (sigGet t (720 + i)).t = s.m.time.dt ∧
        (sigGet t (720 + i)).valid = true) ∧
      (∀ n, n < 720 ∨ 752 ≤ n → sigGet t n = sigGet s.m n) ∧ Frame [.sig] s.m t)

/-- R147 to R152, R154, R155, R158, R161: BOOT_REC_SEL copies the record's active values into the port's staging buffer and BOOT_REC_DATA
changes one word of it, unless VIEW is 1. REC_COMMIT: an accepted commit is active at once, or pending until its consumer takes it
(RECORD_TAKE); a quoined or static record refuses it with LOCKERR, and a wrong key or record is a command error. -/
def Obligations.RecordsStagedAndCommitted : Prop :=
  (∀ (s : State) (p : Port) (v : Word),
     (WriteOpen s.m p 0x10100 → Does (.recSelect p v) s fun t =>
       t = onPort p (fun x => { x with recSel := BitVec.ofNat 17 v.toNat, recChosen := true, recBuf := recWords s.m (fld v 15 0) }) s.m) ∧
     (∀ i : BitVec 8, WriteOpen s.m p (0x10400 + 4 * i.toNat) → Does (.recDataWrite p i v) s fun t =>
       t = onPort p (fun x => { x with recBuf := if bitOf x.recSel 16 then x.recBuf else x.recBuf.set i.toNat v }) s.m)) ∧
  (∀ (s : State) (p : Port) (id : BitVec 16) (info : RecInfo), recInfo id.toNat = some info →
     (WriteOpen s.m p 0x10104 → s.m.g.dev ≠ .boot → fld (s.m.g.port p).recSel 15 0 = id.toNat → info.cls ≠ .static →
       quoined s.m id.toNat = false → recFirstBad s.m id.toNat info (s.m.g.port p).recBuf = none → pendingOf s.m id.toNat = none →
       (commitWaits s.m id.toNat info = true → Does (.recCommit p (0x5C000000#32 ||| id.setWidth 32)) s fun t =>
         t.boot.recs = s.m.boot.recs ∧ (t.g.port p).recResult = 1 ∧
         ⟨id, (s.m.g.port p).recBuf, p, now s.m, none⟩ ∈ t.boot.recPend) ∧
       (commitWaits s.m id.toNat info = false → Does (.recCommit p (0x5C000000#32 ||| id.setWidth 32)) s fun t =>
         t.boot.recs = put recDefault s.m.boot.recs id.toNat (recStrip id.toNat info (s.m.g.port p).recBuf) ∧
         (t.g.port p).recResult = 2 ∧ id.toNat ∈ t.boot.recChanged)) ∧
     (WriteOpen s.m p 0x10104 → fld (s.m.g.port p).recSel 15 0 = id.toNat → info.cls = .static ∨ s.m.g.dev ≠ .boot ∧ quoined s.m id.toNat = true →
       Does (.recCommit p (0x5C000000#32 ||| id.setWidth 32)) s fun t =>
         t.boot = s.m.boot ∧ raised t .glb 3 = true ∧ raised t .boot 4 = true ∧ (t.g.port p).recResult = (if info.cls = .static then 4 else 5)) ∧
     (∀ v, WriteOpen s.m p 0x10104 → fld v 31 24 ≠ 0x5C ∨ fld v 23 16 ≠ 0 ∨ fld v 15 0 ≠ fld (s.m.g.port p).recSel 15 0 →
       Refuses (.recCommit p v) s) ∧
     (∀ r, pendingOf s.m id.toNat = some r → r.id = id → info.cls ≠ .layer ∨ s.m.boot.layerOn = false → isCoef id.toNat = false →
       info.cls ≠ .live ∨ sameSys r.at_ (now s.m) = false →
       Does (.recordTake id) s fun t =>
         t.boot.recs = put recDefault s.m.boot.recs id.toNat (recStrip id.toNat info r.words) ∧ pendingOf t id.toNat = none))

/-- R114, R125, R126, R133 to R136, R160 to R163: ROLLBACK, REINSTATE, RAISE_FLOOR and REVOKE_SLOT, each with its result in BOOT_CMD_STATUS
and CMD_DONE; QUOIN_ADD puts one record, or every record, under quoin. -/
def Obligations.BootCommands : Prop :=
  (∀ (s : State) (p : Port), WriteOpen s.m p 0x10040 →
     (inWork s.m = true → (s.m.aon.standing (!s.m.boot.bank)).writing = false → otherOk s.m = true → Does (.rollback p 0xB700000) s fun t =>
       (t.aon.standing s.m.boot.bank).withdrawn = true ∧ t.aon.standing (!s.m.boot.bank) = s.m.aon.standing (!s.m.boot.bank) ∧
       t.boot.cmdOp = 1 ∧ t.boot.cmdResult = 1 ∧ raised t .boot 6 = true) ∧
     (∀ x : Bool, s.m.boot.attempt = false → (s.m.aon.standing x).writing = false →
       Does (.reinstate p (if x then 0xB701000 else 0xB700000)) s fun t =>
         (t.aon.standing x).attempts = 0 ∧ (t.aon.standing x).withdrawn = false ∧ t.aon.standing (!x) = s.m.aon.standing (!x) ∧
         t.boot.cmdOp = 2 ∧ t.boot.cmdResult = 1 ∧ raised t .boot 6 = true) ∧
     (s.m.g.dev = .configured → s.m.boot.floorOk = true → versionFloor s.m < s.m.boot.ver.toNat → s.m.boot.floorWords.length < 16 →
       Does (.raiseFloor p 0xB700000) s fun t =>
         t.boot.floorWords = s.m.boot.floorWords ++ [fuseOf s.m.boot.ver] ∧ versionFloor t = s.m.boot.ver.toNat ∧
         t.boot.cmdOp = 3 ∧ t.boot.cmdResult = 1 ∧ raised t .boot 6 = true) ∧
     (∀ k : Fin 4, s.m.g.dev = .configured → (∀ f, s.m.boot.revFuse = some f → f.good = true) → Does (.revokeSlot p (BitVec.ofNat 28 (0xB700000 + 0x1000 * k.val))) s fun t =>
       t.boot.revoked = (if (Config.keyHash k.val).isSome && decide (k.val ≠ s.m.boot.keySlot.toNat) then setBit s.m.boot.revoked k.val true
         else s.m.boot.revoked) ∧
       t.boot.cmdOp = 4 ∧
       t.boot.cmdResult = (if (Config.keyHash k.val).isSome && decide (k.val ≠ s.m.boot.keySlot.toNat) then 1 else 7) ∧ raised t .boot 6 = true) ∧
     (∀ (hi : BitVec 28) (c : Instr), c ∈ [.rollback p hi, .reinstate p hi, .raiseFloor p hi, .revokeSlot p hi] →
       fld hi 27 20 ≠ 0xB7 ∨ fld hi 11 0 ≠ 0 → Refuses c s)) ∧
  (∀ (s : State) (p : Port), WriteOpen s.m p 0x10110 →
     (∀ id : BitVec 16, id ≠ 0xFFFF → (recInfo id.toNat).isSome = true → s.m.boot.quoins.any (fun q => decide (q.toNat = id.toNat)) = false →
       s.m.boot.quoins.length < 256 →
       Does (.quoinAdd p (0x9A000000#32 ||| id.setWidth 32)) s fun t =>
         t = { s.m with boot := { s.m.boot with quoins := s.m.boot.quoins ++ [id] } } ∧ quoined t id.toNat = true) ∧
     (Does (.quoinAdd p 0x9A00FFFF) s fun t => t = { s.m with boot := { s.m.boot with quoinAll := true } }) ∧
     (∀ v, fld v 31 24 ≠ 0x9A ∨ fld v 23 16 ≠ 0 → Refuses (.quoinAdd p v) s))

/-- R165 to R172, R305: RELOAD_REQUEST begins to load, RELOAD_ARMED ends the load, RELOAD_SWITCH changes the beam at its boundary. -/
def Obligations.SectionReload : Prop :=
  ∀ s : State,
    (∀ (p : Port) (h : Fin 12) (mode : Bool), WriteOpen s.m p 0x10200 → inWork s.m = true → updBusy s.m = false → s.m.boot.rlState = .idle →
      (s.m.boot.getBank (!s.m.boot.bank)).state = 0 → hdr (inactiveReader s.m) 16 4 = s.m.boot.ver.toNat →
      (inactiveEntry s.m 3 h.val).isSome = true → reloadNeedsReset s.m h.val = false →
      Does (.reloadRequest p (BitVec.ofNat 32 (0x3E010000 + (if mode then 0x1000 else 0) + h.val))) s fun t =>
        t = { s.m with boot := { s.m.boot with rlState := .loading, rlResult := 0, rlMode := mode, rlWhat := 1, rlHead := BitVec.ofNat 4 h.val, rlAsked := BitVec.ofNat 4 h.val } }) ∧
    (∀ (p : Port) (h : Fin 12), WriteOpen s.m p 0x10200 → inWork s.m = true → updBusy s.m = true ∨ s.m.boot.rlState ≠ .idle →
      Does (.reloadRequest p (BitVec.ofNat 32 (0x3E010000 + h.val))) s fun t =>
        t.boot = { s.m.boot with rlAsked := BitVec.ofNat 4 h.val, rlResult := 7 } ∧ raised t .boot 3 = true) ∧
    (∀ (p : Port) (v : Word), WriteOpen s.m p 0x10200 → fld v 31 24 ≠ 0x3E ∨ fld v 23 18 ≠ 0 ∨ fld v 15 13 ≠ 0 ∨ fld v 11 4 ≠ 0 ∨ fld v 17 16 = 0 ∨ 12 ≤ fld v 3 0 →
      Refuses (.reloadRequest p v) s) ∧
    (∀ ss, s.m.boot.rlState = .loading → reloadNow s.m = false →
      ((reloadTypes s.m.boot.rlWhat.toNat).filterMap (fun ty => inactiveEntry s.m ty s.m.boot.rlHead.toNat)).mapM (loadSection (inactiveReader s.m)) = some ss →
      Does .reloadArmed s fun t =>
        (ss.all (stagedOk s.m) = true → t = { s.m with boot := { s.m.boot with staged := ss, rlState := .armed } }) ∧
        (ss.all (stagedOk s.m) = false → t.boot.rlState = .idle ∧ t.boot.rlResult = 5 ∧ raised t .boot 3 = true)) ∧
    (s.m.boot.rlState = .armed → s.m.boot.rlMode = true → s.m.imp.beams[reloadBeam s.m].cur = none → Does .reloadSwitch s fun t =>
      t.boot.rlState = .idle ∧ t.boot.rlResult = 1 ∧ t.boot.staged = [] ∧ raised t .boot 2 = true ∧
      (∀ x ∈ s.m.boot.staged, x ∈ t.boot.sections))

/-- R173 to R182: UPDATE_WRITE, UPDATE_CANCEL and the stages that UPDATE_STAGE_END ends. -/
def Obligations.BankUpdate : Prop :=
  ∀ s : State,
    (∀ p : Port, WriteOpen s.m p 0x1021C → updAllowed s.m = true → updBusy s.m = false → s.m.boot.rlState = .idle →
      256 ≤ fld s.m.boot.updLen 25 0 → fld s.m.boot.updLen 25 0 ≤ 50331648 →
      (inRegion s.m 0 (updSrc s.m) (fld s.m.boot.updLen 25 0) || inRegion s.m 6 (updSrc s.m) (fld s.m.boot.updLen 25 0)) = true →
      s.m.boot.phase ≠ .halted → Does (.updateWrite p 0x35000000) s fun t =>
        t = { s.m with boot := { s.m.boot with updStage := .checking, updResult := 0, updSectors := 0, updBy := .host, updTarget := !s.m.boot.bank } }) ∧
    (∀ p : Port, WriteOpen s.m p 0x1021C → updBusy s.m = true → Does (.updateCancel p 0x35000000) s fun t =>
      t.boot.updStage = .idle ∧ t.boot.updResult = 0xB ∧ t.boot.bankA = s.m.boot.bankA ∧ t.boot.bankB = s.m.boot.bankB ∧ raised t .boot 1 = true) ∧
    (∀ (p : Port) (hi : BitVec 30) (c : Instr), c ∈ [.updateWrite p hi, .updateCancel p hi] → WriteOpen s.m p 0x1021C →
      fld hi 29 22 ≠ 0xD4 ∨ fld hi 21 7 ≠ 0 ∨ fld hi 5 0 ≠ 0 → Refuses c s) ∧
    (∀ ok, s.m.boot.updStage = .checking → Does (.updateStageEnd (some ok)) s fun t =>
      (updCheckResult s.m = 0 → t.boot.updStage = .erasing ∧ (t.aon.standing s.m.boot.updTarget).writing = true) ∧
      (updCheckResult s.m ≠ 0 → t.boot.updStage = .idle ∧ t.boot.updResult = BitVec.ofNat 4 (updCheckResult s.m) ∧ t.aon = s.m.aon)) ∧
    (s.m.boot.updStage = .erasing → Does (.updateStageEnd (some true)) s fun t =>
      t.boot.updStage = .programming ∧
      (t.boot.getBank s.m.boot.updTarget).cells = dropRange (s.m.boot.getBank s.m.boot.updTarget).cells 0 (updSectorCount s.m * 65536) ∧
      (t.boot.getBank (!s.m.boot.updTarget)) = s.m.boot.getBank (!s.m.boot.updTarget)) ∧
    (s.m.boot.updStage = .programming → Does (.updateStageEnd (some true)) s fun t =>
      t.boot.updStage = .verifying ∧
      (t.boot.getBank s.m.boot.updTarget).cells =
        putAll (fun _ => 0xFF#8) (s.m.boot.getBank s.m.boot.updTarget).cells 0 (memBytes s.m (updSrc s.m) (fld s.m.boot.updLen 25 0)) ∧
      (t.boot.getBank (!s.m.boot.updTarget)) = s.m.boot.getBank (!s.m.boot.updTarget)) ∧
    (s.m.boot.updStage = .erasing ∨ s.m.boot.updStage = .programming ∨ s.m.boot.updStage = .verifying → Does (.updateStageEnd (some false)) s fun t =>
      t.boot.updStage = .idle ∧ t.boot.updResult = 0xA ∧ t.aon = s.m.aon) ∧
    (s.m.boot.updStage = .verifying →
      (bankReader (s.m.boot.getBank s.m.boot.updTarget)) 0 (fld s.m.boot.updLen 25 0) = memBytes s.m (updSrc s.m) (fld s.m.boot.updLen 25 0) →
      Does (.updateStageEnd (some true)) s fun t =>
        t.boot.updStage = .done ∧ t.boot.updResult = 1 ∧ t.aon.standing s.m.boot.updTarget = {}) ∧
    (s.m.boot.updStage = .erasing ∨ s.m.boot.updStage = .verifying → s.m.boot.updSectors.toNat < updSectorCount s.m → Does (.updateStageEnd none) s fun t =>
      t.boot.updSectors = s.m.boot.updSectors + 1 ∧ t.boot.updStage = s.m.boot.updStage ∧
      (t.boot.getBank s.m.boot.updTarget).cells = (if s.m.boot.updStage = .erasing
        then dropRange (s.m.boot.getBank s.m.boot.updTarget).cells (s.m.boot.updSectors.toNat * 65536) 65536
        else (s.m.boot.getBank s.m.boot.updTarget).cells))

/-- R110, R111, R131, R137, R611, R620, R662, R663, R668, R679: the phases of the boot up to LOAD. -/
def Obligations.BootPhases : Prop :=
  ∀ s : State,
    (∀ ok, powered s.m = true → s.m.g.resetHeld = false → s.m.clk.refQual = false → s.m.clk.fallback = .none → s.m.g.dev = .boot →
      s.m.boot.phase = .rom → s.m.g.bootWarm = false → Does (.refclkQualified ok) s fun t =>
        t.clk.refQual = true ∧ t.clk.rootRef = 2 ∧ t.time.running = true ∧ domainOn t 10 = true ∧ t.boot.phase ≠ .rom ∧
        (ok = false → t.boot.phase = .halted ∧ t.aon.lastFail = 1)) ∧
    (s.m.g.dev = .boot → s.m.boot.phase = .rom → s.m.clk.refQual = false → s.m.g.resetHeld = false → Does .refclkWaitTimeout s fun t =>
      t = { s.m with clk := { s.m.clk with refWait := true } }) ∧
    (∀ rd0 wr0 rd1 wr1 crcOk, s.m.mem.ch0.st = .training → powered s.m = true → s.m.g.resetHeld = false → mgmtRuns s.m = true →
      s.m.g.bootWarm = false → Does (.memTrainingDone true true rd0 wr0 rd1 wr1 crcOk) s fun t =>
        t.mem.trained = true ∧ t.mem.ch0.st = .ready ∧ t.mem.ch1.st = .ready ∧ t.mem.ch0.winRd = rd0 ∧ t.mem.ch0.winWr = wr0 ∧
        t.mem.ch1.winRd = rd1 ∧ t.mem.ch1.winWr = wr1 ∧ t.mem.cells = [] ∧ t.mem.sweeping = true ∧ t.keep = none ∧
        t.boot.phase = (if s.m.boot.attempt then .load else s.m.boot.phase)) ∧
    (∀ rd0 wr0 rd1 wr1 k, s.m.mem.ch0.st = .training → powered s.m = true → s.m.g.resetHeld = false → mgmtRuns s.m = true →
      s.m.g.bootWarm = true → s.m.keep = some k → s.m.aon.retValid = true → k.marker = s.m.aon.marker →
      Does (.memTrainingDone true true rd0 wr0 rd1 wr1 true) s fun t =>
        t.mem.trained = true ∧ t.mem.preserved = true ∧ t.mem.cells = s.m.mem.cells ∧ t.mem.poison = s.m.mem.poison ∧ t.keep = some k) ∧
    (∀ ok0 ok1 rd0 wr0 rd1 wr1 crcOk, (ok0 && ok1) = false → s.m.mem.ch0.st = .training → powered s.m = true → s.m.g.resetHeld = false →
      mgmtRuns s.m = true → s.m.boot.attempt = true → s.m.g.dev = .boot → Does (.memTrainingDone ok0 ok1 rd0 wr0 rd1 wr1 crcOk) s fun t =>
        t.aon.lastFail = 9 ∧ t.mem.trained = false) ∧
    (s.m.mem.sweeping = true → Does .sweepDone s fun t => t = { s.m with mem := { s.m.mem with sweeping := false } }) ∧
    (∀ c : Instr, ∀ cause : BitVec 4, (c = .bootAttemptFail cause ∧ cause ≠ 9) ∨ (c = .bootWatchdogExpire ∧ cause = 0xA) →
      s.m.boot.attempt = true → s.m.g.dev = .boot → s.m.mem.trained = true → domainOn s.m 7 = true → Does c s fun t =>
        t.aon.lastFail = cause ∧ (t.boot.phase = .load ∧ t.boot.attempt = true ∨ t.boot.phase = .halted ∧ t.boot.attempt = false)) ∧
    (s.m.g.dev = .boot → s.m.g.resetHeld = false → s.m.boot.phase ≠ .halted → Does .powerGoodTimeout s fun t =>
      t.boot.phase = .halted ∧ t.boot.attempt = false ∧ domainOn t 10 = true ∧ domainOn t 7 = true)

/-- R19, R127, R129, R131, R137, R159, R160: BOOT_COMPLETE. An ingot whose sections match their digests and whose values pass every check
takes a cold boot to CONFIGURED, with the bank's attempts back at 0; a digest that does not match, or a value that does not pass, fails the
attempt with its cause. -/
def Obligations.BootCompletes : Prop :=
  ∀ (s : State) (failed : List (Fin 128)) (dMax : Word) (nB : BitVec 5) (cal : List (CalUnit × CalMeas)) (ecc : Ecc),
    s.m.boot.attempt = true → s.m.g.dev = .boot → s.m.boot.phase = .load → s.m.mem.trained = true → s.m.g.resetHeld = false →
    s.m.mem.preserved = false →
    (∀ m1 l, loadIngot s.m = some m1 → recEntries ((secBytes m1 6 0xFFFF).length + 1) (secBytes m1 6 0xFFFF) = some l →
      configOk (failed.map (·.val)) l (recordsApply l m1) = true → Does (.bootComplete failed dMax nB cal ecc) s fun t =>
        t.g.dev = .configured ∧ t.boot.phase = .done ∧ t.boot.attempt = false ∧ t.boot.ver = m1.boot.ver ∧ t.aon.last = s.m.boot.bank ∧
        (t.aon.standing s.m.boot.bank).attempts = 0 ∧ t.g.configuredOnce = true) ∧
    (loadIngot s.m = none → Does (.bootComplete failed dMax nB cal ecc) s fun t => t.aon.lastFail = 7) ∧
    (∀ m1, loadIngot s.m = some m1 → recEntries ((secBytes m1 6 0xFFFF).length + 1) (secBytes m1 6 0xFFFF) = none →
      Does (.bootComplete failed dMax nB cal ecc) s fun t => t.aon.lastFail = 8) ∧
    (∀ m1 l, loadIngot s.m = some m1 → recEntries ((secBytes m1 6 0xFFFF).length + 1) (secBytes m1 6 0xFFFF) = some l →
      configOk (failed.map (·.val)) l (recordsApply l m1) = false →
      Does (.bootComplete failed dMax nB cal ecc) s fun t => t.aon.lastFail = 8)

/-- R202, R203, R205 to R211: JOB_COMMIT and COMMIT_CHECK_END. A commit that passes checks 1 to 7 puts its forme in CHECKING in the lowest free
slot; the first check that fails gives its result and leaves the slots alone; a wrong key is refused. At the end of the checks the forme is
QUEUED at the end or the front of the queue, or its slot is FREE again with the first check it failed. -/
def Obligations.FormeCommit : Prop :=
  (∀ (s : State) (p : Port) (env : Env), WriteOpen s.m p 0x20028 →
     (∀ (front : Bool) (i : Fin 64), commitFirst { s.m with env := env } = none →
       (List.finRange 64).find? (fun i => s.m.job.slots[i].st = .free) = some i →
       Does (.jobCommit p (if front then 0x6C000100 else 0x6C000000) env) s fun t =>
         t.job.slots[i].st = .checking ∧ t.job.slots[i].addr = commitAddr s.m ∧ t.job.commitSlot = BitVec.ofNat 6 i.val ∧
         t.job.commitResult = 1 ∧ t.job.commitSeq = s.m.job.commitSeq + 1 ∧ t.job.commitFront = front ∧ t.job.queue = s.m.job.queue ∧
         (∀ k, k ≠ i → t.job.slots[k] = s.m.job.slots[k]) ∧ Frame [.job, .mem, .ev .mem, .msix, .outs] s.m t) ∧
     (∀ c o, commitFirst { s.m with env := env } = some (c, o) → Does (.jobCommit p 0x6C000000 env) s fun t =>
       t.job.commitResult = BitVec.ofNat 8 c ∧ t.job.commitSeq = s.m.job.commitSeq + 1 ∧ t.job.slots = s.m.job.slots ∧
       (∀ w, o = some w → t.job.commitWhere = BitVec.ofNat 32 w) ∧ raised t .job 2 = true) ∧
     (∀ v, fld v 31 24 ≠ 0x6C → RefusesAs .job 7 (.jobCommit p v env) s)) ∧
  (∀ (s : State) (i : Fin 64) (env : Env), bitOf s.m.clk.gateClosed 13 = false → checkingSlot s.m = some i → s.m.job.st ≠ .idle →
     inRegion s.m 0 s.m.job.slots[i].addr s.m.job.slots[i].len = true →
     overlaps s.m (some i) s.m.job.slots[i].addr s.m.job.slots[i].len = false →
     dmaBusy { s.m with env := env } s.m.job.slots[i].addr s.m.job.slots[i].len = false →
     (formeFail (memRead 2 s.m.job.slots[i].addr s.m.job.slots[i].len env.ecc { s.m with env := env }) s.m.job.slots[i].addr
         (formeBad s.m s.m.job.slots[i].addr env.ecc) = none → Does (.commitCheckEnd env.ecc env.dma) s fun t =>
       t.job.slots[i].st = .queued ∧ t.job.commitResult = 2 ∧ raised t .job 1 = true ∧
       t.job.queue = (if s.m.job.commitFront then i :: s.m.job.queue else s.m.job.queue ++ [i])) ∧
     (∀ x, formeFail (memRead 2 s.m.job.slots[i].addr s.m.job.slots[i].len env.ecc { s.m with env := env }) s.m.job.slots[i].addr
         (formeBad s.m s.m.job.slots[i].addr env.ecc) = some x → Does (.commitCheckEnd env.ecc env.dma) s fun t =>
       t.job.slots[i] = {} ∧ t.job.commitResult = BitVec.ofNat 8 x.1 ∧ t.job.commitWhere = BitVec.ofNat 32 x.2 ∧ t.job.queue = s.m.job.queue))

/-- R25, R217 to R219, R225: JOB_PAUSE, JOB_STOP and JOB_ABORT in BUILDING and PROOF. -/
def Obligations.JobHalts : Prop :=
  ∀ (s : State) (p : Port), WriteOpen s.m p 0x20010 → inBuild s.m = true →
    (s.m.job.st = .makeReady → Does (.jobPause p 0x4A00000) s fun t => t = { s.m with job := { s.m.job with pausing := some causeHost } }) ∧
    (s.m.job.st = .exposing → anyCurrent s.m = true → Does (.jobPause p 0x4A00000) s fun t =>
      t.job.st = .exposing ∧ t.imp.running = false ∧ t.job.pausing = some (causeHost ||| s.m.job.pausing.getD 0) ∧
      ∀ b : Fin 12, t.imp.beams[b].next = none ∧ t.imp.beams[b].wait = none ∧ t.imp.beams[b].cur = s.m.imp.beams[b].cur) ∧
    (s.m.job.st = .exposing → anyCurrent s.m = false → Does (.jobPause p 0x4A00000) s fun t =>
      t.job.st = .paused ∧ t.job.causes = causeHost ||| s.m.job.pausing.getD 0 ∧ t.job.toExposing = true ∧ t.imp.running = false) ∧
    (s.m.job.st = .makeReady → s.m.job.imageScene = none → Does (.jobStop p 0x4A00000) s fun t =>
      t.job.st = .stopped ∧ t.job.causes = causeHost ∧ t.job.toExposing = false ∧ t.job.mrStopped = true) ∧
    (s.m.job.st = .exposing → Does (.jobStop p 0x4A00000) s fun t =>
      t.job.st = .stopped ∧ t.job.causes = causeHost ∧ t.job.toExposing = true ∧ t.imp.running = false) ∧
    (s.m.job.st = .makeReady ∨ s.m.job.st = .exposing ∨ s.m.job.st = .paused ∨ s.m.job.st = .stopped ∨ s.m.job.st = .idle →
      s.m.job.imageScene = none → Does (.jobAbort p 0x4A00000) s fun t =>
        t.job.st = .aborted ∧ t.job.causes = 0 ∧ t.job.mrStep = 0 ∧ t.boot.layerOn = false ∧ t.imp.running = false) ∧
    (s.m.job.st = .finished → RefusesAs .job 7 (.jobPause p 0x4A00000) s ∧ RefusesAs .job 7 (.jobStop p 0x4A00000) s ∧
      RefusesAs .job 7 (.jobAbort p 0x4A00000) s ∧ ∀ e, RefusesAs .job 7 (.jobResume p 0x4A00000 e) s) ∧
    (∀ (hi : BitVec 28) (e : Env) (c : Instr), c ∈ [.jobPause p hi, .jobStop p hi, .jobResume p hi e, .jobAbort p hi, .jobStart p hi e, .jobFlush p hi] →
      fld hi 27 20 ≠ 0x4A ∨ fld hi 19 0 ≠ 0 → RefusesAs .job 7 c s)

/-- R25, R26, R207, R213, R217 to R220: JOB_RESUME, JOB_START and JOB_FLUSH. -/
def Obligations.JobGoesOn : Prop :=
  ∀ (s : State) (p : Port) (env : Env), WriteOpen s.m p 0x20010 → inBuild s.m = true →
    (s.m.job.st = .paused ∨ s.m.job.st = .stopped → s.m.job.causes = causeHost → s.m.job.toExposing = true → s.m.job.active.isSome = true →
      s.m.imp.layerOpen = true → impFull s.m = false → retrains s.m = false → (∀ b : Fin 12, s.m.imp.beams[b].interrupted = none) → anyCurrent s.m = true →
      Does (.jobResume p 0x4A00000 env) s fun t => t.job.st = .exposing ∧ t.job.causes = 0 ∧ t.imp.running = true) ∧
    (s.m.job.st = .paused ∨ s.m.job.st = .stopped → s.m.job.causes = causeHost → s.m.job.toExposing = false → 1 ≤ s.m.job.mrStep →
      s.m.job.mrStep < 4 → Does (.jobResume p 0x4A00000 env) s fun t =>
        t.job.st = .makeReady ∧ t.job.causes = 0 ∧ t.job.mrStep = s.m.job.mrStep ∧ t.job.mrStopped = false) ∧
    (s.m.job.st = .paused ∨ s.m.job.st = .stopped → s.m.job.causes = causeInhibit → inhibitNow s.m = true →
      RefusesAs .job 7 (.jobResume p 0x4A00000 env) s) ∧
    (∀ i q, s.m.job.st = .finished → s.m.job.queue = i :: q → i ∉ q → s.m.job.slots[i].st = .queued → s.m.job.pausing = none →
      (formeParams s.m s.m.job.slots[i].addr).flags.testBit 2 = false → Does (.jobStart p 0x4A00000 env) s fun t =>
        t.job.st = .makeReady ∧ t.job.mrStep = 1 ∧ t.job.active = some i ∧ t.job.slots[i].st = .active ∧ t.job.queue = q ∧
        t.job.params = formeParams s.m s.m.job.slots[i].addr ∧ t.boot.layerOn = true) ∧
    ((∀ i ∈ s.m.job.queue, s.m.job.slots[i].st = .queued) → Does (.jobFlush p 0x4A00000) s fun t =>
      t.job.queue = [] ∧ t.job.st = s.m.job.st ∧ (∀ i ∈ s.m.job.queue, t.job.slots[i].st = .free) ∧
      ∀ i, checkingSlot s.m = some i → t.job.slots[i].st = .free)

/-- R207, R213, R215, R216, R776, R823: the events of make-ready and of ABORT. -/
def Obligations.MakeReadyEvents : Prop :=
  ∀ (s : State) (env : Env), bitOf s.m.clk.gateClosed 13 = false →
    (s.m.job.st = .aborted → s.m.job.aborting = true → beamsAtRest s.m = true → Does .abortSettled s fun t =>
      t.job.st = .aborted ∧ t.job.aborting = false ∧ t.job.active = none ∧ t.imp.layerOpen = false) ∧
    (s.m.job.st = .makeReady → s.m.job.mrStopped = false → 1 ≤ s.m.job.mrStep → s.m.job.mrStep ≤ 3 → stepArrived s.m = true →
      (s.m.job.pausing = none → Does (.makeReadyStepEnd env) s fun t => t.job.st = .makeReady ∧ t.job.mrStep = s.m.job.mrStep + 1) ∧
      (∀ c, s.m.job.pausing = some c → Does (.makeReadyStepEnd env) s fun t =>
        t.job.st = .paused ∧ t.job.causes = c ∧ t.job.toExposing = false ∧ t.job.mrNext = s.m.job.mrStep + 1)) ∧
    (s.m.job.st = .makeReady → s.m.job.mrStopped = false → s.m.job.mrStep ≠ 0 → inBuild s.m = true →
      (recFld s.m recMgtFault 0 0 0 = 1 → Does .mrTimeout s fun t => t.g.dev = .safeHold ∧ t.g.safeByFault = true ∧ t.mgt.safeCause = 0x1002) ∧
      (recFld s.m recMgtFault 0 0 0 = 0 → s.m.g.hostAbsent = false → Does .mrTimeout s fun t =>
        t.g.dev = s.m.g.dev ∧ t.job.st = .makeReady ∧ t.job.mrStopped = true ∧ t.job.mrStep = s.m.job.mrStep)) ∧
    (∀ c k, s.m.job.st = .makeReady → s.m.job.mrStep = 5 → s.m.job.imageScene = some k → s.m.job.pausing = some c → Does (.imageTimeout env) s fun t =>
      t.job.st = .paused ∧ t.job.causes = c ∧ t.job.imageScene = none ∧ t.job.mrNext = 6)

/-- R243 to R249, R298: IMP_CHOICE gives a beam at rest the work that the choice finds, and leaves a beam alone that may not choose;
SLUG_END ends the current slug, and the beam comes to rest where nothing is reserved; WAIT_PRIO_ELAPSED gives its wait priority. -/
def Obligations.ImpositionChoice : Prop :=
  ∀ (s : State) (b : Fin 12), bitOf s.m.clk.gateClosed 13 = false →
    (∀ e w m m1, mayChoose s.m b = true → m = choiceRead e { s.m with env := ⟨e, []⟩ } → mayChoose m b = true →
      chooseN b e (slugTotal m) m = (some w, m1) → mayChoose m1 b = true →
      (m1.imp.beams[b].cur = none → Does (.impChoice b e) s fun t =>
        ∃ w', t.imp.beams[b].cur = some w' ∧ w'.src = w.src ∧ w'.index = w.index ∧ w'.rescue = w.rescue ∧ t.imp.beams[b].wait = none) ∧
      (m1.imp.beams[b].cur.isSome = true → Does (.impChoice b e) s fun t =>
        t.imp.beams[b].cur = m1.imp.beams[b].cur ∧
        ∃ w', t.imp.beams[b].next = some w' ∧ w'.src = w.src ∧ w'.index = w.index ∧ w'.rescue = w.rescue)) ∧
    (∀ e, mayChoose s.m b = false → Does (.impChoice b e) s (· = s.m)) ∧
    (∀ (k : Fin 12) (env : Env), inBuild s.m = true → slugOver s.m b = true → s.m.imp.beams[b].next = none → k ≠ b → s.m.imp.beams[k].cur.isSome = true →
      Does (.slugEnd b env) s fun t =>
        t.imp.beams[b].cur = none ∧ t.beams[b].st = .idle ∧ t.beams[b].plan = none ∧ t.imp.endedCount = s.m.imp.endedCount + 1) ∧
    (∀ (w : Work) (env : Env), inBuild s.m = true → slugOver s.m b = true → s.m.imp.beams[b].next = some w →
      impReserve s.m + s.m.imp.deferred.length + 1 < impFree s.m → Does (.slugEnd b env) s fun t =>
        (∃ w', t.imp.beams[b].cur = some w' ∧ w'.src = w.src ∧ w'.index = w.index ∧ w'.rescue = w.rescue) ∧ t.imp.beams[b].next = none ∧
        t.imp.endedCount = s.m.imp.endedCount + 1) ∧
    (∀ w, s.m.imp.beams[b].wait = some w → w.blocked = true → w.prio = false → s.m.imp.running = true →
      w.since + (recWord s.m recImp 3).toNat * 1000 ≤ now s.m → Does (.waitPrioElapsed b) s fun t =>
        t.imp.beams[b].wait = some { w with prio := true } ∧ raised t .imp 5 = true ∧ (∀ k, k ≠ b → t.imp.beams[k] = s.m.imp.beams[k]) ∧
        Frame [.imp, .ev .imp, .msix, .outs] s.m t)

/-- R253, R254, R264 to R267, R280, R281: RETIRE and RETURN by command. -/
def Obligations.RetireAndReturn : Prop :=
  ∀ (s : State) (p : Port) (b : Fin 12), WriteOpen s.m p 0x30010 →
    (inWork s.m = true → fitted s.m b.val = true → s.m.imp.beams[b].cause = 0 → Does (.retire p (BitVec.ofNat 28 (0x7100000 + 16 * b.val))) s fun t =>
      t.imp.beams[b].cause = 1 ∧ t.imp.cmdResult = 1 ∧ t.imp.cmdBeam = BitVec.ofNat 4 b.val ∧ raised t .imp 0 = true ∧
      t.imp.scans.getLast? = some ⟨b, 1, now s.m, inExposure s.m, none⟩ ∧ ∀ k, k ≠ b → t.imp.beams[k].cause = s.m.imp.beams[k].cause) ∧
    (inWork s.m = true → fitted s.m b.val = true → s.m.imp.beams[b].cause ≠ 0 → Does (.retire p (BitVec.ofNat 28 (0x7100000 + 16 * b.val))) s fun t =>
      t.imp.cmdResult = 4 ∧ raised t .imp 6 = true ∧ raised t .glb 2 = true ∧ t.imp.beams = s.m.imp.beams) ∧
    (inWork s.m = true → fitted s.m b.val = true → s.m.imp.beams[b].cause ≠ 0 → s.m.imp.beams[b].cause ≠ 4 → scanBusy s.m b = false →
      returnReady s.m b = true → (s.m.imp.beams[b].cause = 1 → ctxEngaged s.m b = true) → (s.m.imp.beams[b].cause = 5 → ctxEngaged s.m b = true) →
      Does (.returnBeam p (BitVec.ofNat 28 (0x7100000 + 16 * b.val))) s fun t =>
        t.imp.beams[b].cause = 0 ∧ t.imp.beams[b].galleyPending = true ∧ t.imp.cmdResult = 1 ∧ raised t .imp 1 = true) ∧
    (inWork s.m = true → fitted s.m b.val = true → s.m.imp.beams[b].cause = 1 → scanBusy s.m b = false → returnReady s.m b = true →
      ctxEngaged s.m b = false → Does (.returnBeam p (BitVec.ofNat 28 (0x7100000 + 16 * b.val))) s fun t =>
        t.imp.beams[b].cause = 1 ∧ t.imp.beams[b].returning = true ∧ t.imp.cmdResult = 0) ∧
    (∀ (hi : BitVec 28) (c : Instr), c ∈ [.retire p hi, .returnBeam p hi] →
      fld hi 27 20 ≠ 0x71 ∨ fld hi 19 8 ≠ 0 ∨ fld hi 3 0 ≠ 0 ∨ 12 ≤ fld hi 7 4 → RefusesAs .imp 6 c s)

/-- R257, R265 to R267, R269: the retirement scan, and the returns that end by themselves. -/
def Obligations.ReturnsAndScans : Prop :=
  ∀ (s : State) (b : Fin 12), bitOf s.m.clk.gateClosed 13 = false →
    (s.m.imp.beams[b].returning = true → inWork s.m = true → ctxEngaged s.m b = true → Does (.returnEngaged b) s fun t =>
      t.imp.beams[b].cause = 0 ∧ t.imp.beams[b].returning = false ∧ t.imp.cmdResult = 1 ∧ raised t .imp 1 = true) ∧
    (s.m.imp.beams[b].returning = true → Does (.returnTimeout b) s fun t =>
      t.imp.beams[b].returning = false ∧ t.imp.beams[b].cause = s.m.imp.beams[b].cause ∧ t.imp.cmdResult = 6 ∧ raised t .imp 6 = true) ∧
    (s.m.imp.beams[b].cause = 2 ∨ ((s.m.imp.beams[b].cause = 3 ∨ s.m.imp.beams[b].cause = 6 ∨ s.m.imp.beams[b].cause = 7) ∧ recFld s.m recImp 6 0 0 = 1) →
      scanBusy s.m b = false → returnReady s.m b = true → Does (.beamAutoReturn b) s fun t =>
        t.imp.beams[b].cause = 0 ∧ t.imp.beams[b].galleyPending = true ∧ raised t .imp 1 = true) ∧
    (∀ sc rest e, s.m.imp.scans = sc :: rest → activeAddr s.m = none → s.m.imp.deferred = [] → sc.counts = none →
      (sc.exposing && inExposure s.m) = false →
      Does (.retirementScanEnd e) s fun t => t.imp.scans = rest ∧ raised t .imp 8 = true ∧ t.imp.held = s.m.imp.held)

/-- R271, R274, R275, R283: IMP_REC_RD_WRITE frees the entries read, and a value outside the unread entries is refused with ACCERR;
RECORD_ENTRY_DEFERRED writes the first entry that waits and now fits. -/
def Obligations.ImpositionRecord : Prop :=
  ∀ s : State,
    (∀ p : Port, WriteOpen s.m p 0x30030 → Does (.impRecRdWrite p s.m.imp.recWr) s fun t =>
      t.imp.recRd = s.m.imp.recWr ∧ t.imp.recCount = 0 ∧ t.imp.recSeq = s.m.imp.recSeq ∧ Frame [.imp] s.m t) ∧
    (∀ (p : Port) (v : Word), WriteOpen s.m p 0x30030 → v ≠ s.m.imp.recWr → s.m.imp.recRd.toNat ≤ v.toNat → v.toNat < impCap s.m →
      v.toNat - s.m.imp.recRd.toNat ≤ s.m.imp.recCount → Does (.impRecRdWrite p v) s fun t =>
        t.imp.recRd = v ∧ t.imp.recCount = s.m.imp.recCount - (v.toNat - s.m.imp.recRd.toNat) ∧ t.imp.recWr = s.m.imp.recWr ∧
        Frame [.imp] s.m t) ∧
    (∀ (p : Port) (v : Word), WriteOpen s.m p 0x30030 → v ≠ s.m.imp.recWr → impCap s.m ≤ v.toNat → Does (.impRecRdWrite p v) s fun t =>
      raised t .glb 4 = true ∧ t.imp = s.m.imp) ∧
    (∀ e env, bitOf s.m.clk.gateClosed 13 = false → s.m.imp.deferred.find? (impMay s.m) = some e →
      s.m.imp.scans = [] → s.m.job.st ≠ .exposing → Does (.recordEntryDeferred env) s fun t =>
      t.imp.recSeq = s.m.imp.recSeq + 1 ∧ t.imp.recCount = s.m.imp.recCount + 1 ∧ t.imp.deferred = s.m.imp.deferred.erase e) ∧
    (∀ env, bitOf s.m.clk.gateClosed 13 = false → s.m.imp.deferred = [] → s.m.imp.scans = [] → s.m.job.st ≠ .exposing →
      Does (.recordEntryDeferred env) s (· = s.m))

/-- R287, R292, R293, R309, R328, R335: the events of a beam engine's motion move its state and nothing else. A beam that comes to rest
is in HOLD, a retired one in PARKED. While CLK_GATE keeps the beam's clock off, no event of its engine on the core die does anything. -/
def Obligations.BeamMotion : Prop :=
  ∀ (s : State) (b : Fin 12),
    (bitOf s.m.clk.gateClosed b.val = true → ∀ c ∈ [Instr.beamSampleInstant b none, .dacInstant b, .beamMoveAtTarget b, .jumpSettleElapsed b,
      .runupAtStart b, .markAtEnd b, .stoppingAtRest b, .driftStale b], Does c s (· = s.m)) ∧
    (bitOf s.m.clk.gateClosed b.val = false → inBuild s.m = true → ∀ p, s.m.beams[b].plan = some p →
      (s.m.beams[b].st = .move → Does (.beamMoveAtTarget b) s fun t =>
        t.beams[b].st = (if BeamSt.settle ∈ segStates p then .settle else .idle) ∧ t.beams[b].plan = some p ∧
        (∀ k, k ≠ b → t.beams[k] = s.m.beams[k]) ∧ Frame [.beams] s.m t) ∧
      (s.m.beams[b].st = .settle → Does (.jumpSettleElapsed b) s fun t =>
        t = onBeam b (fun x => { x with st := if BeamSt.runup ∈ segStates p then .runup else if BeamSt.dwell ∈ segStates p then .dwell else .mark }) s.m) ∧
      (s.m.beams[b].st = .runup → Does (.runupAtStart b) s fun t => t = onBeam b (fun x => { x with st := .mark }) s.m) ∧
      (s.m.beams[b].st = .mark → BeamSt.runout ∈ segStates p → Does (.markAtEnd b) s fun t =>
        t = onBeam b (fun x => { x with st := .runout }) s.m) ∧
      (s.m.beams[b].st = .mark → BeamSt.runout ∉ segStates p → Does (.markAtEnd b) s (· = s.m))) ∧
    (bitOf s.m.clk.gateClosed b.val = false → s.m.beams[b].st = .stopping → s.m.g.dev ≠ .safeHold →
      (s.m.imp.beams[b].cause = 0 → s.m.beams[b].regFault = false → s.m.job.st ≠ .exposing → Does (.stoppingAtRest b) s fun t =>
        t.beams[b].st = .hold ∧ t.beams[b].stopping = none ∧ raised t (.beam b) 1 = true ∧ (∀ k, k ≠ b → t.beams[k] = s.m.beams[k]) ∧
        Frame [.beams, .ev .beam, .msix, .outs] s.m t) ∧
      (s.m.imp.beams[b].cause ≠ 0 → Does (.stoppingAtRest b) s fun t =>
        t.beams[b].st = .parked ∧ t.beams[b].plan = none ∧ raised t (.beam b) 0 = true ∧ raised t (.beam b) 1 = true ∧
        Frame [.beams, .ev .beam, .msix, .outs] s.m t)) ∧
    (bitOf s.m.clk.gateClosed b.val = false → inWork s.m = true → headTemp s.m b = none → s.m.beams[b].driftStale = false →
      Does (.driftStale b) s fun t =>
        t.beams[b] = { s.m.beams[b] with driftStale := true } ∧ raised t (.beam b) 6 = true ∧ Frame [.beams, .ev .beam, .msix, .outs] s.m t)

/-- R287, R288, R303, R310, R313, R316 to R318, R342, R370: a sample instant publishes the setpoints of the latest multiple of the sample period,
stamped with it; a gate edge whose tick has come takes the commanded gate to its level, and LGATE follows in that tick where LEN lets it through. -/
def Obligations.BeamSamplesAndGate : Prop :=
  ∀ (s : State) (b : Fin 12),
    (bitOf s.m.clk.gateClosed b.val = false → inWork s.m = true → Does (.beamSampleInstant b none) s fun t =>
      (t.beams[b].spX, t.beams[b].spY, t.beams[b].spF) =
        setpointsAhead s.m b (now s.m / samplePeriod s.m b * samplePeriod s.m b * 65536)
          ((now s.m / samplePeriod s.m b * samplePeriod s.m b + (recWord s.m (recBeamTiming b.val) 4).toNat) * 65536) ∧
      (∀ k < 3, sigGet t (256 + 16 * b.val + k) =
        { v := BitVec.ofInt 32 (satS 32 ([t.beams[b].spX, t.beams[b].spY, t.beams[b].spF].getD k 0)),
          t := BitVec.ofNat 64 (now s.m / samplePeriod s.m b * samplePeriod s.m b), valid := true }) ∧
      (∀ k, k ≠ b → t.beams[k] = s.m.beams[k]) ∧ Frame [.beams, .sig] s.m t) ∧
    (∀ g, bitOf s.m.clk.gateClosed b.val = false → inWork s.m = false → Does (.beamSampleInstant b g) s (· = s.m)) ∧
    (∀ node, bitOf s.m.clk.gateClosed b.val = false → inWork s.m = true → Does (.beamSampleInstant b (some (node, false))) s fun t =>
      t.beams[b].gridAlt = true ∧ raised t (.beam b) 7 = true ∧ t.mgt.repairs = s.m.mgt.repairs + 1) ∧
    (∀ t0 on rest, s.m.beams[b].edges = (t0, on) :: rest → inBuild s.m = true → t0 / tickQ * tickQ ≤ nowQ s.m → Does (.gateEdgeFire b) s fun t =>
      t.beams[b].edges = rest ∧ t.beams[b].gate = on ∧
      t.outs = (if lgate s.m b = (on && lenNow s.m b) then s.m.outs else .gate b.val (on && lenNow s.m b) (t0 / tickQ * tickQ) (tapOf s.m b t0) :: s.m.outs) ∧
      (on = true → t.beams[b].onTime = BitVec.ofNat 64 (t0 / 65536) ∧ t.beams[b].onSub = BitVec.ofNat 16 (t0 % 65536)) ∧
      (on = false → t.mpl = s.m.mpl) ∧ (∀ k, k ≠ b → t.beams[k] = s.m.beams[k]) ∧ Frame [.beams, .mpl, .outs] s.m t) ∧
    (s.m.beams[b].edges = [] ∨ (∀ e ∈ s.m.beams[b].edges.head?, nowQ s.m < e.1 / tickQ * tickQ) → Does (.gateEdgeFire b) s (· = s.m))

/-- R323, R324, R327, R366, R367, R383, R389: a DAC instant requests the power of its emission and guards the correction; outside an
emission the request is 0, and a beam that may not run has code 0. A look-ahead answer waits for the next instant; a late one is counted. -/
def Obligations.BeamPower : Prop :=
  ∀ (s : State) (b : Fin 12) (m : Mach), bitOf s.m.clk.gateClosed b.val = false → inWork s.m = true →
    m = pdJudge b (takeRecord (recMplLoop b.val) s.m) →
    (∀ p, dacEmission m b (dacFloor (now m)) = some p → Does (.dacInstant b) s fun t =>
      t.beams[b].emitting = some (emissionOn m b p) ∧
      t.beams[b].req =
        BitVec.ofNat 16 (p.request (fld (recWord m (recBeamLimits b.val) 1) 15 0) t.beams[b].sigma.toNat (dacTau p (dacFloor (now m)))) ∧
      (psFlag p.set 2 = false → t.beams[b].sigma = 0xFFFF#16) ∧ t.beams[b].laAns = none ∧
      t.beams[b].dac.toNat ≤ fld (recWord m (recBeamLimits b.val) 0) 15 0 ∧
      t.mpl[b].pwrOut ≤ 65535 ∧ (t.mpl[b].fastEn = false → t.mpl[b].corr = 0)) ∧
    (dacEmission m b (dacFloor (now m)) = none → Does (.dacInstant b) s fun t =>
      t.beams[b].emitting = none ∧ t.beams[b].req = 0 ∧ t.mpl[b].pwrOut ≤ 65535 ∧
      t.beams[b].dac = (if !inBuild t || t.beams[b].st = .stopping || t.beams[b].st = .hold || t.beams[b].st = .parked then 0
        else BitVec.ofNat 16 (fld (recWord m (recBeamLimits b.val) 0) 31 16))) ∧
    (∀ p late e, dacEmission s.m b (dacFloor (now s.m) + 500) = some p → psFlag p.set 2 = true → Does (.lookaheadAnswer b late e) s fun t =>
      t.beams[b].laAns.isSome = true ∧ t.hmap.late = s.m.hmap.late + (if late then 1 else 0) ∧ (late = true → raised t .hmap 2 = true)) ∧
    (∀ late e, dacEmission s.m b (dacFloor (now s.m) + 500) = none → Does (.lookaheadAnswer b late e) s (· = s.m))

/-- R346, R349, R353 to R357: PD_PAYLOAD keeps the codes of a slot that arrives in time, once, and counts one that arrives late; a window
that is judged with its ten slots gives the filtered values and its signals the end of the window as stamp; one with fewer slots holds them. -/
def Obligations.MeltPoolWindows : Prop :=
  (∀ (s : State) (l : Fin 28) (f : FrameIn) (n : Nat), FrameOk s.m l 2 f → pdSlotOf (now s.m) (rdLe f.bytes 0 1) = some n →
    s.m.mpl[laneBeam l].slots.any (fun x => x.n = n) = false →
    (100 * n + 75 + 2000 < now s.m → Does (.pdPayload l f) s fun t =>
      t = onMpl (laneBeam l) (fun x => { x with pdLate := x.pdLate + 1 }) (frameTaken l 2 f s.m)) ∧
    (∀ w, now s.m ≤ 100 * n + 75 + 2000 → s.m.mpl[laneBeam l].window = some w → w < n / 10 → Does (.pdPayload l f) s fun t =>
      t = pdJudge (laneBeam l) (onMpl (laneBeam l) (fun x => { x with slots := ⟨n, pdCodes f.bytes⟩ :: x.slots }) (frameTaken l 2 f s.m)))) ∧
  (∀ (s : State) (l : Fin 28) (f : FrameIn) (n : Nat), FrameOk s.m l 2 f → pdSlotOf (now s.m) (rdLe f.bytes 0 1) = some n →
    s.m.mpl[laneBeam l].slots.any (fun x => x.n = n) = true → Does (.pdPayload l f) s (· = frameTaken l 2 f s.m)) ∧
  (∀ (b : Fin 12) (k : Nat) (m m1 : Mach), m1 = takeRecord (recMplFront b.val) m →
    (windowJudge b k m).mpl[b].window = some k ∧
    ((m1.mpl[b].slots.filter (fun x => decide (x.n / 10 = k))).length ≠ 10 →
      (windowJudge b k m).mpl[b].a = m1.mpl[b].a ∧ (windowJudge b k m).mpl[b].b = m1.mpl[b].b ∧ (windowJudge b k m).mpl[b].br = m1.mpl[b].br ∧
      (windowJudge b k m).mpl[b].pdValid = false) ∧
    ((m1.mpl[b].slots.filter (fun x => decide (x.n / 10 = k))).length = 10 →
      (windowJudge b k m).mpl[b].a = pdSmooth (recFld m1 (recMplFront b.val) 0 2 0) m1.mpl[b].a
        (pdFilter (chanCodes (m1.mpl[b].slots.filter (fun x => decide (x.n / 10 = k))) 0) (fld (regGet m1 (0x50040 + 0x1000 * b.val)) 15 0))))

/-- R350, R351, R354, R361 to R365, R369, R375: CAM_BEGIN opens a frame, CAM_LINE adds one of its lines, FRAME_METRICS_READY gives a whole
frame's metrics, and FRAME_VALID_TIMEOUT clears FRAME_VALID when no frame has come for three periods (six while throttled). -/
def Obligations.CameraFrames : Prop :=
  (∀ (s : State) (l : Fin 28) (f : FrameIn), FrameOk s.m l 4 f → throttled s.m = false →
    (∀ old, s.m.mpl[laneBeam l].frame = some old → 0 < seqDiff (BitVec.ofNat 16 (rdLe f.bytes 0 2)) old.seq) → Does (.camBegin l f) s fun t =>
      t.mpl[laneBeam l].frame = some { seq := BitVec.ofNat 16 (rdLe f.bytes 0 2), start := longStamp s.m (BitVec.ofNat 32 (rdLe f.bytes 4 4)),
                                       exposure := rdLe f.bytes 8 4, lines := [] } ∧
      t.mpl[laneBeam l].done = s.m.mpl[laneBeam l].done ++ (s.m.mpl[laneBeam l].frame.toList.filter (fun x => decide (128 ≤ x.lines.length))) ∧
      Frame [.mpl, .heads] s.m t) ∧
  (∀ (s : State) (l : Fin 28) (f : FrameIn) (g : CamFrame), FrameOk s.m l 5 f → s.m.mpl[laneBeam l].frame = some g →
    (g.seq = BitVec.ofNat 16 (rdLe f.bytes 0 2) → rdLe f.bytes 2 1 < 128 → g.lines.any (fun x => x.1 = rdLe f.bytes 2 1) = false →
      Does (.camLine l f) s fun t =>
        t = onMpl (laneBeam l) (fun x => { x with frame := some { g with
          lines := (rdLe f.bytes 2 1, tab 128 (fun i => (leNat ((f.bytes.drop 4).take 160) >>> (10 * i)) % 1024)) :: g.lines } }) (frameTaken l 5 f s.m)) ∧
    (g.seq ≠ BitVec.ofNat 16 (rdLe f.bytes 0 2) → Does (.camLine l f) s (· = frameTaken l 5 f s.m))) ∧
  (∀ (s : State) (b : Fin 12), bitOf s.m.clk.gateClosed b.val = false →
    (∀ f, s.m.mpl[b].complete1 = some f → Does (.frameMetricsReady b) s fun t =>
      t.mpl[b].frame = s.m.mpl[b].frameGone.frame ∧ t.mpl[b].done = s.m.mpl[b].frameGone.done ∧ t.mpl[b].met = (metricsOf s.m b f).1 ∧ t.mpl[b].frameValid = true ∧ t.mpl[b].frameAt = some (now s.m) ∧
      t.mpl[b].framesOk = s.m.mpl[b].framesOk + 1 ∧
      t.mpl[b].implausible = (litFrom s.m b (f.start * 65536) ((f.start + f.exposure) * 65536) &&
        ((metricsOf s.m b f).2 || decide (recFld s.m (recMplCamera b.val) 7 15 0 < (metricsOf s.m b f).1.sat.toNat))) ∧
      (t.mpl[b].implausible = true → raised t (.mpl b) 3 = true ∧ t.mpl[b].framesImplausible = s.m.mpl[b].framesImplausible + 1) ∧
      (s.m.boot.recPend = [] → sigGet t (mplSig b 9) = { v := t.mpl[b].slowMetric, t := BitVec.ofNat 64 (now s.m), valid := true })) ∧
    (s.m.mpl[b].complete1 = none → Does (.frameMetricsReady b) s (· = s.m)) ∧
    (∀ t0, s.m.mpl[b].frameValid = true → s.m.mpl[b].frameAt = some t0 →
      (if throttled s.m then 6000000000 else 3000000000) ≤ (now s.m - t0) * s.m.mpl[b].camRate.toNat → Does (.frameValidTimeout b) s fun t =>
        t.mpl[b].frameValid = false ∧ raised t (.mpl b) 2 = true ∧ (∀ k, k ≠ b → t.mpl[k] = s.m.mpl[k])) ∧
    (∀ t0, s.m.mpl[b].frameAt = some t0 →
      (now s.m - t0) * s.m.mpl[b].camRate.toNat < (if throttled s.m then 6000000000 else 3000000000) →
      Does (.frameValidTimeout b) s (· = s.m)))

/-- R371, R373, R374, R775: NO_LIGHT, BACKREFL and CORR_SAT report a condition once it has lasted, and BACKREFL with BR_ACTION 1 retires
the beam for a laser fault; a condition that is already reported does nothing. -/
def Obligations.MeltPoolConditions : Prop :=
  ∀ (s : State) (b : Fin 12), bitOf s.m.clk.gateClosed b.val = false →
    (s.m.mpl[b].noLight = false → s.m.mpl[b].darkRun ≠ 0 → (recWord s.m (recMplFront b.val) 5).toNat ≤ s.m.mpl[b].darkRun →
      Does (.noLight b) s fun t =>
        t.mpl[b] = { s.m.mpl[b] with noLight := true, recHeld := t.mpl[b].recHeld } ∧ raised t (.mpl b) 4 = true ∧ t.imp = s.m.imp) ∧
    (s.m.mpl[b].noLight = true → Does (.noLight b) s (· = s.m)) ∧
    (s.m.mpl[b].backrefl = false → s.m.mpl[b].brRun ≠ 0 → recFld s.m (recMplFront b.val) 7 31 16 ≤ s.m.mpl[b].brRun →
      Does (.backrefl b) s fun t =>
        t.mpl[b].backrefl = true ∧ raised t (.mpl b) 5 = true ∧
        (recFld s.m recMgtFault 0 1 1 = 0 → t.imp = s.m.imp) ∧
        (recFld s.m recMgtFault 0 1 1 = 1 → beamLive s.m b = true → t.imp.beams[b].cause = 5 ∧ raised t .imp 0 = true)) ∧
    (s.m.mpl[b].backrefl = true → Does (.backrefl b) s (· = s.m)) ∧
    (s.m.mpl[b].corrRaised ≠ some (emissionKey s.m b (now s.m)) → s.m.mpl[b].satRun ≠ 0 → 2 * (recWord s.m (recMplLoop b.val) 3).toNat ≤ s.m.mpl[b].satRun →
      Does (.corrSat b) s fun t =>
        t.mpl[b] = { s.m.mpl[b] with corrRaised := some (emissionKey s.m b (now s.m)), recHeld := t.mpl[b].recHeld } ∧ raised t (.mpl b) 6 = true ∧ t.imp = s.m.imp) ∧
    (s.m.mpl[b].corrRaised = some (emissionKey s.m b (now s.m)) → Does (.corrSat b) s (· = s.m))

/-- R380, R381, R387, R400: a decay sweep scales the heat of every node of the current map by the factor in force and keeps its EXPOSED
bit; HMAP_SWEEP_DONE and HMAP_COPY_DONE end a sweep and a copy; a write of HMAP_REC_RD frees entries, or is refused with ACCERR. -/
def Obligations.HeatMap : Prop :=
  ∀ s : State,
    (bitOf s.m.clk.gateClosed 12 = false → Memory.wf s.m.mem → inWork s.m = true → s.m.hmap.sweeping = false → Does .hmapDecaySweep s fun t =>
      t.hmap = { s.m.hmap with sweeping := true } ∧ Frame [.bytes, .hmap] s.m t ∧
      ∀ n < hmNx s.m * hmNy s.m, hmNode t true n =
        (hmNode s.m true n / 32768 * 32768 + (2 * (hmNode s.m true n % 32768) * hmDecay s.m + 65536) / 131072) % 65536) ∧
    (bitOf s.m.clk.gateClosed 12 = false → s.m.hmap.sweeping = true →
      Does .hmapDecaySweep s (· = s.m) ∧
      Does .hmapSweepDone s fun t => t = { s.m with hmap := { s.m.hmap with sweeping := false, sweeps := s.m.hmap.sweeps + 1 } }) ∧
    (bitOf s.m.clk.gateClosed 12 = false → Does .hmapCopyDone s fun t => t = { s.m with hmap := { s.m.hmap with copying := false } }) ∧
    (bitOf s.m.clk.gateClosed 12 = true → ∀ c ∈ [Instr.hmapDecaySweep, .hmapSweepDone, .hmapCopyDone], Does c s (· = s.m)) ∧
    (∀ p : Port, WriteOpen s.m p 0x5E010 → Does (.hmapRecRdWrite p s.m.hmap.wr) s fun t =>
      t = { s.m with hmap := { s.m.hmap with rd := s.m.hmap.wr, count := 0, overwriting := false } }) ∧
    (∀ (p : Port) (v : Word), WriteOpen s.m p 0x5E010 → v ≠ s.m.hmap.wr → s.m.hmap.rd.toNat < v.toNat → v.toNat < ringCap s.m →
      v.toNat - s.m.hmap.rd.toNat ≤ s.m.hmap.count → Does (.hmapRecRdWrite p v) s fun t =>
        t.hmap.rd = v ∧ t.hmap.count = s.m.hmap.count - (v.toNat - s.m.hmap.rd.toNat) ∧ Frame [.hmap] s.m t) ∧
    (∀ (p : Port) (v : Word), WriteOpen s.m p 0x5E010 → v ≠ s.m.hmap.wr → ringCap s.m ≤ v.toNat → Does (.hmapRecRdWrite p v) s fun t =>
      raised t .glb 4 = true ∧ t.hmap = s.m.hmap)

/-- R404, R414 to R416, R427 to R431, R437: a ready sample runs its context's program over the context's data and writes its outputs with
the sample instant as stamp; a sample that is not ready is counted as an overrun and writes nothing, and the overrun that reaches the
limit faults the context; AUTO_RESTART starts a faulted context again. -/
def Obligations.CellSamples : Prop :=
  ∀ (s : State) (k : Fin 256) (d : CtxDesc) (cell : Fin 128), ctxOf s.m k = some d → s.m.cells.ctx[k].cell = some cell →
    (∀ tn agree late lost corr, sampleAt s.m d = some tn → s.m.cells.ctx[k].st = .running → s.m.cells.ctx[k].last ≠ some tn →
      pendingOf s.m (recCoef k.val) = none → s.m.cells.subst = none →
      (allFresh s.m d (progOf s.m d) tn = true → sampleMay s.m cell k d tn = true → Does (.cellSampleStart k agree late lost corr) s fun t =>
        t.cells.ctx[k].data = (runProg ⟨sigGet s.m, bankOfCtx s.m k, s.m.g.dev = .safeHold, d⟩ (progOf s.m d) s.m.cells.ctx[k].data).data ∧
        t.cells.ctx[k].samples = s.m.cells.ctx[k].samples + 1 ∧ t.cells.ctx[k].engaged = true ∧ t.cells.ctx[k].ovrRun = 0 ∧
        t.cells.ctx[k].last = some tn ∧ (∀ j, j ≠ k → t.cells.ctx[j] = s.m.cells.ctx[j]) ∧
        (∀ n v sat, (runProg ⟨sigGet s.m, bankOfCtx s.m k, s.m.g.dev = .safeHold, d⟩ (progOf s.m d) s.m.cells.ctx[k].data).outs = [(n, v, sat)] →
          sigGet t n = { v := BitVec.ofInt 32 v, t := BitVec.ofNat 64 tn, valid := true, ctx := some (BitVec.ofNat 8 k.val) } ∧
          (sat = true → raised t .sig 0 = true)) ∧
        (0 < corr → t.cells.cells[cell].memCorr = s.m.cells.cells[cell].memCorr + BitVec.ofNat 32 corr ∧ raised t (.cell cell) 8 = true)) ∧
      (allFresh s.m d (progOf s.m d) tn = true → sampleMay s.m cell k d tn = false → Does (.cellSampleStart k agree late lost corr) s (· = s.m)) ∧
      (allFresh s.m d (progOf s.m d) tn = false → latestStart s.m cell d tn ≤ nowQ s.m →
        Does (.cellSampleStart k agree late lost corr) s (· = s.m) ∧
        (s.m.cells.ctx[k].engaged = true → s.m.cells.ctx[k].ovrRun + 1 < d.limit → Does (.cellSampleOverrun k) s fun t =>
          t.cells.ctx[k].overruns = s.m.cells.ctx[k].overruns + 1 ∧ t.cells.ctx[k].ovrRun = s.m.cells.ctx[k].ovrRun + 1 ∧
          t.cells.ctx[k].last = some tn ∧ t.cells.ctx[k].data = s.m.cells.ctx[k].data ∧ t.cells.ctx[k].st = .running ∧ t.sig = s.m.sig ∧
          (s.m.cells.ctx[k].ovrRun = 0 → raised t (.cell cell) 0 = true)) ∧
        (s.m.cells.ctx[k].engaged = true → d.limit ≤ s.m.cells.ctx[k].ovrRun + 1 → Does (.cellSampleOverrun k) s fun t =>
          t.cells.ctx[k].st = .faulted ∧ t.cells.ctx[k].engaged = false ∧ raised t (.cell cell) 2 = true))) ∧
    (s.m.cells.ctx[k].st = .faulted → d.autoRestart = true → s.m.cells.ctx[k].hard = false → mayStart s.m k = true →
      Does (.ctxAutoRestart k) s (· = ctxStart k s.m)) ∧
    (d.autoRestart = false → Does (.ctxAutoRestart k) s (· = s.m))

/-- R437, R439, R464 to R466, R469: CELL_CMD by OP. START and RESTART run a context, STOP stops it unless its live beam exposes, SUBST
takes a spare into shadow, TEST tests a spare and TRIG fires a global line; a wrong key or a reserved bit is refused. -/
def Obligations.CellCommands : Prop :=
  ∀ (s : State) (p : Port) (k : Fin 256) (c : Fin 128), WriteOpen s.m p 0x70000 →
    (s.m.cells.ctx[k].st = .stopped → mayStart s.m k = true → hasCell s.m k = true → Does (.cellStart p (BitVec.ofNat 28 (0x8E00000 + 16 * k.val))) s fun t =>
      t.cells.ctx = (ctxStart k (ownCell k s.m)).cells.ctx ∧ t.cells.ctx[k].st = .running ∧ t.cells.cmdResult = 1 ∧ t.cells.cmdOp = 1 ∧
      t.cells.cmdTarget = BitVec.ofNat 8 k.val ∧ (s.m.cells.ctx[k].hard = false → Frame [.cells] s.m t)) ∧
    (s.m.cells.ctx[k].st = .running → Does (.cellStart p (BitVec.ofNat 28 (0x8E00000 + 16 * k.val))) s fun t =>
      t.cells.ctx = s.m.cells.ctx ∧ t.cells.cmdResult = 2 ∧ raised t .cellArr 4 = true ∧ raised t .glb 2 = true) ∧
    (s.m.cells.ctx[k].st = .running → stopRefused s.m k = false → Does (.cellStop p (BitVec.ofNat 28 (0x8E00000 + 16 * k.val))) s fun t =>
      t.cells.ctx[k].st = .stopped ∧ t.cells.ctx[k].byRetire = false ∧ t.cells.cmdResult = 1 ∧ ∀ j, j ≠ k → t.cells.ctx[j] = s.m.cells.ctx[j]) ∧
    (s.m.cells.ctx[k].st = .running → stopRefused s.m k = true → Does (.cellStop p (BitVec.ofNat 28 (0x8E00000 + 16 * k.val))) s fun t =>
      t.cells.ctx = s.m.cells.ctx ∧ t.cells.cmdResult = 3 ∧ raised t .cellArr 4 = true ∧ raised t .glb 2 = true) ∧
    (s.m.cells.ctx[k].st = .faulted → mayStart s.m k = true → hasCell s.m k = true →
      Does (.restart p (BitVec.ofNat 28 (0x8E00000 + 16 * k.val))) s fun t =>
        t.cells.ctx = (ctxStart k (ownCell k s.m)).cells.ctx ∧ t.cells.ctx[k].st = .running ∧ t.cells.cmdResult = 1 ∧
        (s.m.cells.ctx[k].hard = false → Frame [.cells] s.m t)) ∧
    (s.m.cells.cells[c].st = .active → substitutable s.m c = true → s.m.cells.subst = none → spares s.m ≠ [] →
      Does (.subst p (BitVec.ofNat 28 (0x8E00000 + 16 * c.val))) s fun t =>
        ∃ d, spareFor s.m c = some d ∧ t.cells.cells[d].st = .shadow ∧ t.cells.cells[c].st = .active ∧ t.cells.cmdResult = 1 ∧
          t.cells.subst.any (fun x => x.src = c && x.dst = d && x.stage = 1) = true) ∧
    (s.m.cells.cells[c].st = .spare → Does (.test p (BitVec.ofNat 28 (0x8E00000 + 16 * c.val))) s fun t =>
      t.cells.cells[c].st = .testing ∧ t.cells.cmdResult = 1 ∧ ∀ j, j ≠ c → t.cells.cells[j] = s.m.cells.cells[j]) ∧
    (∀ g : Fin 4, Does (.trig p (BitVec.ofNat 28 (0x8E00000 + 16 * g.val))) s fun t =>
      t.cells.cmdResult = 1 ∧ t.cells.cmdOp = 6 ∧ t.cells.ctx = s.m.cells.ctx ∧
      (s.m.cells.deepSt = 1 → fld (regGet s.m 0x70020) 3 2 = g.val →
        t.cells.deepSt = 2 ∧ t.cells.deepPost = fld (regGet s.m 0x70020) 31 8)) ∧
    (∀ (hi : BitVec 28) (i : Instr), i ∈ [.cellStart p hi, .cellStop p hi, .restart p hi, .subst p hi, .test p hi, .trig p hi] →
      fld hi 27 20 ≠ 0x8E ∨ fld hi 19 12 ≠ 0 ∨ fld hi 3 0 ≠ 0 → RefusesAs .cellArr 4 i s)

/-- R443 to R449, R455: hard faults, substitution and known-answer tests of cells. -/
def Obligations.CellArrayEvents : Prop :=
  ∀ (s : State) (c : Fin 128) (k : Fin 256),
    (s.m.cells.cells[c].st = .off ∨ s.m.cells.cells[c].st = .failed → Does (.cellHardFault c) s (· = s.m)) ∧
    (s.m.cells.cells[c].st = .active → s.m.cells.subst = none → recFld s.m recCellSub 5 0 0 = 0 → Does (.cellHardFault c) s fun t =>
      t.cells.cells[c].st = (if s.m.cells.cells[c].hardFaults = 0 then .testing else .failed) ∧ raised t (.cell c) 3 = true ∧
      (∀ j ∈ hosted s.m c, t.cells.ctx[j].st ≠ .running) ∧
      ((∀ j ∈ hosted s.m c, ownerOf s.m j ≠ 7) → ∀ j ∈ hosted s.m c, s.m.cells.ctx[j].st = .running → t.cells.ctx[j].st = .faulted)) ∧
    (s.m.cells.ctx[k].st = .running → s.m.cells.ctx[k].settle = some 0 → s.m.cells.subst = none → scanBeam s.m k = none →
      Does (.hardSettleDone k) s fun t => t = onCtx k (fun x => { x with settle := none }) s.m) ∧
    (∀ b, s.m.cells.ctx[k].st = .running → s.m.cells.ctx[k].settle = some 0 → s.m.cells.subst = none → scanBeam s.m k = some b →
      s.m.job.st ≠ .exposing → (∀ j ∈ beamCtx s.m b scanClasses, j ≠ k → s.m.cells.ctx[j].settle = none) → Does (.hardSettleDone k) s fun t =>
        t.beams[b].awaiting = false ∧ t.cells.ctx[k].settle = none ∧ Frame [.beams, .cells] s.m t) ∧
    (∀ x, s.m.cells.subst = some x → x.stage = 1 → Does .substCopyDone s fun t =>
      t = { s.m with cells := { s.m.cells with subst := some { x with stage := 2 } } }) ∧
    (∀ x e, s.m.cells.subst = some x → x.stage = 2 → x.ctxs.find? (fun y => y.ctx = k.val) = some e → e.handed = false →
      s.m.cells.ctx[k].st = .running → recFld s.m recCellSub 0 15 0 ≤ e.matched →
      (∃ y ∈ x.ctxs, y.ctx ≠ k.val ∧ y.handed = false ∧ s.m.cells.ctx[Fin.ofNat 256 y.ctx].st = .running) → Does (.shadowHandover k) s fun t =>
        t.cells.ctx[k].cell = some x.dst ∧ t.cells.ctx[k].data = e.data.getD s.m.cells.ctx[k].data ∧ t.cells.cells = s.m.cells.cells) ∧
    (∀ x e, s.m.cells.subst = some x → x.stage = 2 → x.ctxs = [e] → e.ctx = k.val → e.handed = false →
      s.m.cells.ctx[k].st = .running → recFld s.m recCellSub 0 15 0 ≤ e.matched → Does (.shadowHandover k) s fun t =>
        t.cells.ctx[k].cell = some x.dst ∧ t.cells.cells[x.dst].st = .active ∧ raised t (.cell x.src) 4 = true ∧
        raised t (.cell x.dst) 4 = true ∧ t.mgt.repairs = s.m.mgt.repairs + 1) ∧
    (s.m.cells.cells[c].st = .spare → recWord s.m recCellSub 4 ≠ 0 → Does (.katPeriodElapsed c) s fun t =>
      t.cells.cells[c].st = .testing ∧ Frame [.cells, .ev .cellArr, .msix, .outs] s.m t) ∧
    (s.m.cells.cells[c].st ≠ .spare → Does (.katPeriodElapsed c) s (· = s.m)) ∧
    (s.m.cells.cells[c].st = .testing → s.m.g.configuredOnce = true →
      (orphans s.m = none → Does (.katDone c true) s fun t =>
        t.cells.cells[c].st = .spare ∧ t.cells.cells[c].kat = 1 ∧ ∀ j, j ≠ c → t.cells.cells[j] = s.m.cells.cells[j]) ∧
      (s.m.cells.cells[c].kat ≠ 2 → Does (.katDone c false) s fun t =>
        t.cells.cells[c].st = .testing ∧ t.cells.cells[c].kat = 2 ∧ raised t (.cell c) 5 = true) ∧
      (s.m.cells.cells[c].kat = 2 → Does (.katDone c false) s fun t =>
        t.cells.cells[c].st = .failed ∧ t.cells.cells[c].kat = 3 ∧ raised t (.cell c) 5 = true))

/-- R451 to R454, R461, R462, R467, R469, R470: the trace channels, the global lines, deep capture, LAG_MAX and SIG_SEL. -/
def Obligations.CellTraces : Prop :=
  ∀ (s : State) (p : Port) (c : Fin 128),
    (∀ ch, (trcOf s.m c ch).st = 2 → (trcOf s.m c ch).post = 0 → Does (.traceStop c ch) s fun t =>
      (trcOf t c ch).st = 3 ∧ (trcOf t c ch).ring = (trcOf s.m c ch).ring ∧ Frame [.bytes, .mem, .cells, .ev .cellArr, .msix, .outs] s.m t) ∧
    (∀ ch, (trcOf s.m c ch).post ≠ 0 → Does (.traceStop c ch) s (· = s.m)) ∧
    (∀ (ch : Fin 2) (v : Word), Regs.wf s.m.regs → WriteOpen s.m p (offTrc c ch) → bitOf v 14 = false ∨ (deepStreams s.m).length < 16 →
      Does (.trcCtrlWrite p c ch v) s fun t =>
        regGet t (offTrc c ch) = v &&& 0xFFFFF003#32 ∧
        (fld v 1 0 = 1 ∨ fld v 1 0 = 2 → (trcOf t c ch).st = 1 ∧ (trcOf t c ch).wptr = 0 ∧ (trcOf t c ch).wrapped = false) ∧
        (fld v 1 0 = 0 ∨ fld v 1 0 = 3 → (trcOf t c ch).st = 0)) ∧
    (∀ (ch : Fin 2) (v : Word), WriteOpen s.m p (offTrc c ch) → bitOf v 14 = true → bitOf (trcCtrl s.m c ch) 14 = false →
      16 ≤ (deepStreams s.m).length → Does (.trcCtrlWrite p c ch v) s fun t => raised t .glb 4 = true ∧ t.cells = s.m.cells) ∧
    (∀ hi : BitVec 30, Regs.wf s.m.regs → WriteOpen s.m p 0x70020 → Does (.deepRun p hi) s fun t =>
      regGet t 0x70020 = (hi ++ 1#2) &&& 0xFFFFFF0F#32 ∧
      t.cells = { s.m.cells with deepSt := 1, deepWr := 0, deepLost := 0, deepWrapped := false, deepPost := 0 } ∧ Frame [.cells, .regs] s.m t) ∧
    (s.m.cells.deepSt = 2 → s.m.cells.deepPost = 0 → Does .deepDone s fun t =>
      t.cells = { s.m.cells with deepSt := 3 } ∧ raised t .cellArr 0 = true ∧ Frame [.cells, .ev .cellArr, .msix, .outs] s.m t) ∧
    (s.m.cells.deepPost ≠ 0 → Does .deepDone s (· = s.m)) ∧
    (∀ v : Word, WriteOpen s.m p 0x70010 →
      (fld v 31 4 ≠ 0 → RefusesAs .cellArr 4 (.cellTrgWrite p v) s) ∧
      (∀ g < 4, fld v 31 4 = 0 → bitOf v g = true → s.m.cells.deepSt = 1 → fld (regGet s.m 0x70020) 3 2 = g → Does (.cellTrgWrite p v) s fun t =>
        t.cells.deepSt = 2 ∧ t.cells.deepPost = fld (regGet s.m 0x70020) 31 8 ∧ t.cells.ctx = s.m.cells.ctx ∧ Frame [.cells] s.m t)) ∧
    (∀ (slot : Bool) (v : Word), WriteOpen s.m p (offLagMax c slot) → Does (.lagMaxClear p c slot v) s fun t =>
      (∀ k ∈ hosted s.m c, s.m.cells.ctx[k].slot = slot → t.cells.ctx[k].lagMax = 0) ∧
      (∀ k, k ∉ hosted s.m c ∨ s.m.cells.ctx[k].slot ≠ slot → t.cells.ctx[k] = s.m.cells.ctx[k]) ∧ Frame [.cells] s.m t) ∧
    (∀ v : Word, Regs.wf s.m.regs → WriteOpen s.m p 0x60000 → Does (.sigSelWrite p v) s fun t =>
      regGet t 0x60000 = v &&& 0x7FF#32 ∧ t.sig.latch = sigGet s.m (fld v 10 0) ∧ t.sig.vals = s.m.sig.vals ∧ Frame [.sig, .regs] s.m t)

/-- R475, R477, R490 to R494, R511: the training of a lane goes through its states as each result arrives; an attempt that does not end
begins another one up to TRAIN_TRIES, and then the lane is FAILED with the state's cause. -/
def Obligations.LaneTraining : Prop :=
  ∀ (s : State) (l : Fin 28),
    (s.m.lanes[l].st = .detect → Does (.laneSignalDetect l) s fun t =>
      t.lanes[l].st = .equalise ∧ t.lanes[l].attempt = 1 ∧ t.lanes[l].signal = true ∧ (∀ k, k ≠ l → t.lanes[k] = s.m.lanes[k]) ∧
      Frame [.lanes] s.m t) ∧
    (s.m.lanes[l].st = .detect → s.m.lanes[l].signal = false → s.m.lanes[l].noPartner = false → laneStays s.m l 10000000 = true →
      Does (.laneDetectTimeout l) s fun t =>
      t.lanes[l] = { s.m.lanes[l] with noPartner := true } ∧ raised t (.lane l) 4 = true ∧ Frame [.lanes, .ev .lane, .msix, .outs] s.m t) ∧
    (s.m.lanes[l].st = .equalise → Does (.laneEqualiseDone l) s fun t =>
      t.lanes[l].st = .align ∧ t.lanes[l].since = now s.m ∧ Frame [.lanes] s.m t) ∧
    (s.m.lanes[l].st = .align → Does (.laneAlignLock l) s fun t =>
      t.lanes[l].st = .ident ∧ t.lanes[l].locked = true ∧ t.lanes[l].trained = 0 ∧ Frame [.lanes] s.m t) ∧
    (s.m.lanes[l].st = .align → ∀ seen port rate ident, Does (.trainBlock l seen port rate ident true) s fun t =>
      t = onLane l (fun x => { x with rxInvert := !x.rxInvert }) s.m) ∧
    (s.m.lanes[l].st = .ident → ∀ ident : BitVec 64, ident.toNat = headId s.m l →
      (s.m.lanes[l].trained + 1 < 16 → Does (.trainBlock l true (portOf s.m l) (laneRate s.m l) ident false) s fun t =>
        t.lanes[l].st = .ident ∧ t.lanes[l].trained = s.m.lanes[l].trained + 1 ∧ Frame [.lanes] s.m t) ∧
      (16 ≤ s.m.lanes[l].trained + 1 → Does (.trainBlock l true (portOf s.m l) (laneRate s.m l) ident false) s fun t =>
        t.lanes[l].st = .keying ∧ t.lanes[l].key.step = 1 ∧
        t.outs = .block l.val 0x4B ([1, 0, 0] ++ leBytes 12 t.lanes[l].key.nd.toNat) :: s.m.outs ∧ Frame [.lanes, .outs, .free] s.m t)) ∧
    (s.m.lanes[l].st = .ident → ∀ seen port rate, ∀ ident : BitVec 64, ident.toNat ≠ headId s.m l →
      Does (.trainBlock l seen port rate ident false) s fun t =>
        t.lanes[l].st = .failed ∧ t.lanes[l].failCause = 5 ∧ raised t (.lane l) 2 = true) ∧
    (s.m.lanes[l].st.trains = true → laneStays s.m l (trainTime s.m l) = true →
      (s.m.lanes[l].attempt.toNat < trainTries s.m → s.m.lanes[l].signal = true → Does (.laneTrainTimeout l) s fun t =>
        t.lanes[l].st = .equalise ∧ t.lanes[l].attempt = s.m.lanes[l].attempt + 1 ∧ Frame [.lanes] s.m t) ∧
      (trainTries s.m ≤ s.m.lanes[l].attempt.toNat → s.m.lanes[l].signal = true → Does (.laneTrainTimeout l) s fun t =>
        t.lanes[l].st = .failed ∧ t.lanes[l].failCause = BitVec.ofNat 4 (failOf s.m.lanes[l].st) ∧ raised t (.lane l) 2 = true)) ∧
    (s.m.lanes[l].st.trains = false ∨ laneStays s.m l (trainTime s.m l) = false → Does (.laneTrainTimeout l) s (· = s.m)) ∧
    (s.m.lanes[l].st = .failed → recFld s.m recLane 3 0 0 = 1 → laneStays s.m l ((recWord s.m recLane 2).toNat * 1000000000) = true →
      Does (.laneRetryElapsed l) s fun t => t.lanes[l].st = .detect ∧ t.lanes[l].noPartner = false ∧ Frame [.lanes] s.m t)

/-- R475, R491, R493 to R498: keying, SOAK, seals and losses. A head whose proof or seal is wrong makes its lane HOSTILE; a lane that has
soaked without error at both ends is UP; an UP lane that loses signal, lock, CRCs or seals retrains. -/
def Obligations.LaneSecurity : Prop :=
  ∀ (s : State) (l : Fin 28),
    (∀ data : List Byte, data.length = 12 → s.m.lanes[l].st = .keying →
      (s.m.lanes[l].key.step = 1 → Does (.keyBlock l 2 data) s fun t =>
        t = onLane l (fun x => { x with key := { x.key with nh := BitVec.ofNat 96 (leNat data), step := 2 } }) s.m) ∧
      (s.m.lanes[l].key.step = 2 → Does (.keyBlock l 3 data) s fun t =>
        if mac8 (keyMac s.m l 0x48 0x50) = BitVec.ofNat 64 (beNat (data.take 8)) ∧ (data.drop 8).all (· = 0) = true then
          t.lanes[l].st = .soak ∧ t.lanes[l].key.ks = keyMac s.m l 0x53 0x4B ∧ t.lanes[l].sfn = 0 ∧
          t.outs = .block l.val 0x4B ([4, 0, 0] ++ (leBytes 8 (mac8 (keyMac s.m l 0x44 0x50)).toNat).reverse ++ [0, 0, 0, 0]) :: s.m.outs
        else t.lanes[l].st = .hostile ∧ t.lanes[l].failCause = 9 ∧ raised t (.lane l) 3 = true)) ∧
    (s.m.lanes[l].st = .soak →
      (s.m.lanes[l].soakHead = some 0 → laneStays s.m l (trainTime s.m l) = true → Does (.laneSoakEnd l 0) s fun t =>
        t.lanes[l].st = .up ∧ t.lanes[l].wasUp = true ∧ t.lanes[l].failCause = 0 ∧ raised t (.lane l) 0 = true) ∧
      (s.m.lanes[l].soakHead = none → laneStays s.m l (trainTime s.m l) = true → ∀ n, Does (.laneSoakEnd l n) s fun t =>
        t.lanes[l].st = .soak ∧ t.lanes[l].soakDev = some n ∧ t.lanes[l].prbsErr = satAdd s.m.lanes[l].prbsErr n ∧ Frame [.lanes] s.m t) ∧
      (s.m.lanes[l].soakDev = some 0 → Does (.switchSoakResult l 0) s fun t =>
        t.lanes[l].st = .up ∧ t.lanes[l].wasUp = true ∧ raised t (.lane l) 0 = true) ∧
      (∀ w : Word, s.m.lanes[l].soakDev = none → Does (.switchSoakResult l w) s fun t =>
        t = onLane l (fun x => { x with soakHead := some w.toNat }) s.m)) ∧
    (∀ f : SealIn, s.m.lanes[l].st = .up ∨ s.m.lanes[l].st = .soak →
      (f.badHeaders ≠ 0 ∨ f.runErrors ≠ 0 ∨ f.badFrame = true ∨ f.sealed = false → Does (.sealBlock l f) s fun t =>
        t.lanes[l].sealVoid = s.m.lanes[l].sealVoid + 1 ∧ t.lanes[l].voids = s.m.lanes[l].voids + 1 ∧
        t.lanes[l].sfn = s.m.lanes[l].sfn + 1 ∧ t.lanes[l].st = s.m.lanes[l].st ∧ raised t (.lane l) 7 = true ∧
        Frame [.lanes, .ev .lane, .msix, .outs] s.m t) ∧
      (f.badHeaders = 0 → f.runErrors = 0 → f.badFrame = false → f.sealed = true → Does (.sealBlock l f) s fun t =>
        if f.dir = 1 ∧ f.sfn = s.m.lanes[l].sfn ∧
            f.tag = mac8 (Config.aesCmac s.m.lanes[l].key.ks ([1] ++ leBytes 6 s.m.lanes[l].sfn.toNat ++ f.blocks)) then
          t.lanes[l].st = s.m.lanes[l].st ∧ t.lanes[l].voids = 0 ∧ t.lanes[l].sfn = s.m.lanes[l].sfn + 1 ∧ Frame [.lanes] s.m t
        else (∀ o ∈ headLanes (laneHead l), t.lanes[o].st = .hostile) ∧ raised t (.lane l) 3 = true ∧
          ∀ b : Fin 12, laneHead l = beamHead b → bitOf t.ilk.hold b.val = true)) ∧
    (s.m.lanes[l].st = .up → (∀ c : Instr, c = .laneSignalLoss l ∨
          (c = .laneCrcLimit l ∧ ∃ t0, s.m.lanes[l].crcTimes[(recWord s.m recLane 4).toNat]? = some t0 ∧ now s.m ≤ t0 + 1000000000) → Does c s fun t =>
        t.lanes[l].st = .equalise ∧ t.lanes[l].attempt = 1 ∧ t.lanes[l].retrains = s.m.lanes[l].retrains + 1 ∧ raised t (.lane l) 1 = true) ∧
      (4 ≤ s.m.lanes[l].voids → Does (.laneVoidLimit l) s fun t =>
        t.lanes[l].st = .equalise ∧ t.lanes[l].retrains = s.m.lanes[l].retrains + 1 ∧ raised t (.lane l) 1 = true) ∧
      (s.m.lanes[l].locked = true → Does (.laneLockLost l) s fun t =>
        t.lanes[l].st = .equalise ∧ t.lanes[l].locked = false ∧ t.lanes[l].lockLoss = s.m.lanes[l].lockLoss + 1 ∧ raised t (.lane l) 1 = true)) ∧
    (s.m.lanes[l].crcTimes.length ≤ (recWord s.m recLane 4).toNat → Does (.laneCrcLimit l) s (· = s.m)) ∧
    (s.m.lanes[l].voids < 4 → Does (.laneVoidLimit l) s (· = s.m)) ∧
    (s.m.lanes[l].locked = false → Does (.laneLockLost l) s (· = s.m)) ∧
    (∀ (c : CamSwitch) (fsw : BitVec 16), s.m.lanes[l].st = .up → s.m.heads[laneHead l].switch = some c → c.fsw = none →
      Does (.switchRouted l fsw) s fun t =>
        t.heads[laneHead l].route = c.route ∧ t.heads[laneHead l].switch = some { c with fsw := some fsw, back := none } ∧ t.lanes = s.m.lanes)

/-- R478 to R486, R504 to R506: a frame that its lane's checks turn away is counted and does nothing else; POS, AUX_VAL and STATUS
deliver their values to the signal switch with the head's stamp; IMG_BEGIN and IMG_SEG assemble an image in layer memory. -/
def Obligations.LaneFrames : Prop :=
  ∀ (s : State) (l : Fin 28) (f : FrameIn) (env : Env),
    (∀ e ∈ frameRows l f env, s.m.lanes[l].st = .up →
      (f.fault = .crc → Does e.2 s fun t =>
        t.lanes[l] = { s.m.lanes[l] with
          crcErr := s.m.lanes[l].crcErr + 1, crcTimes := (now s.m :: s.m.lanes[l].crcTimes).take ((recWord s.m recLane 4).toNat + 1) } ∧ raised t (.lane l) 5 = true ∧
        Frame [.lanes, .ev .lane, .msix, .outs] s.m t) ∧
      (f.fault = .abort → Does e.2 s fun t => t = onLane l (fun x => { x with frameAbort := x.frameAbort + 1 }) s.m) ∧
      (f.fault = .undefined → Does e.2 s fun t => t = onLane l (fun x => { x with protocol := x.protocol + 1 }) s.m) ∧
      (f.fault = .none → frameFits (laneHead l) e.1 = false ∨ f.nblk ≠ (frameShape e.1).1 → Does e.2 s fun t =>
        t = onLane l (fun x => { x with protocol := x.protocol + 1 }) s.m)) ∧
    (∀ e ∈ frameRows l f env, s.m.lanes[l].st ≠ .up → Does e.2 s (· = s.m)) ∧
    (FrameOk s.m l 1 f → Does (.posFrame l f) s fun t =>
      (∀ k < 6, sigGet t (16 * (laneHead l).val + k) =
        { v := BitVec.ofInt 32 (satS 32 (rdLeS f.bytes (4 * k) 4)), t := BitVec.ofNat 64 (longStamp s.m f.stamp), valid := true }) ∧
      t.heads[laneHead l].rxFseq = f.fseq ∧ Frame [.heads, .sig] s.m t) ∧
    (FrameOk s.m l 8 f → Does (.auxValFrame l f) s fun t =>
      (∀ k < 8, sigGet t (16 * (laneHead l).val + k) =
        { v := BitVec.ofInt 32 (satS 32 (rdLeS f.bytes (4 * k) 4)), t := BitVec.ofNat 64 (longStamp s.m f.stamp), valid := true }) ∧
      t.heads[laneHead l].rxFseq = f.fseq ∧ Frame [.heads, .sig] s.m t) ∧
    (∀ b : Fin 12, FrameOk s.m l 3 f → laneHead l = beamHead b →
      ((rdLe f.bytes 4 2).testBit 2 = false → (rdLe f.bytes 4 2).testBit 1 = false → Does (.statusFrame l f) s fun t =>
        sigGet t (16 * b.val + 6) =
          { v := BitVec.ofInt 32 (satS 32 (rdLeS f.bytes 0 4)), t := BitVec.ofNat 64 (longStamp s.m f.stamp), valid := true } ∧
        t.heads[beamHead b].bits = BitVec.ofNat 16 (rdLe f.bytes 4 2) ∧ t.heads[beamHead b].silent = false ∧ t.imp = s.m.imp) ∧
      ((rdLe f.bytes 4 2).testBit 2 = true → beamLive s.m b = true → Does (.statusFrame l f) s fun t =>
        t.imp.beams[b].cause = 7 ∧ raised t .imp 0 = true ∧ t.heads[beamHead b].faultCode = BitVec.ofNat 16 (rdLe f.bytes 6 2))) ∧
    (FrameOk s.m l 9 f →
      0 < rdLe f.bytes 2 2 * rdLe f.bytes 4 2 * rdLe f.bytes 6 1 →
      (rdLe f.bytes 2 2 * rdLe f.bytes 4 2 * rdLe f.bytes 6 1 ≤ (imgBuf s.m (laneHead l)).2 - 64 →
        s.m.heads[laneHead l].imgTag = some (BitVec.ofNat 32 (rdLe f.bytes 8 4)) → rdLe f.bytes 6 1 = 1 ∨ rdLe f.bytes 6 1 = 2 →
        Does (.imgBeginFrame l f) s fun t =>
          t.heads[laneHead l].img = some ⟨BitVec.ofNat 16 (rdLe f.bytes 0 2), rdLe f.bytes 2 2, rdLe f.bytes 4 2, rdLe f.bytes 6 1,
            BitVec.ofNat 32 (rdLe f.bytes 8 4), false, []⟩) ∧
      ((imgBuf s.m (laneHead l)).2 - 64 < rdLe f.bytes 2 2 * rdLe f.bytes 4 2 * rdLe f.bytes 6 1 → Does (.imgBeginFrame l f) s fun t =>
        t.heads[laneHead l].img.any (fun i => i.void) = true ∧ raised t (.lane l) 12 = true ∧ t.mem = s.m.mem)) ∧
    (∀ i : Image, FrameOk s.m l 10 f → Memory.wf s.m.mem → s.m.heads[laneHead l].img = some i → i.void = false → i.seq = BitVec.ofNat 16 (rdLe f.bytes 0 2) →
      rdLe f.bytes 2 2 < i.height → rdLe f.bytes 4 4 + rdLe f.bytes 8 2 ≤ i.width * i.bpp →
      ({ i with got := i.got ++ [(rdLe f.bytes 2 2 * (i.width * i.bpp) + rdLe f.bytes 4 4, rdLe f.bytes 8 2)] } : Image).whole = false →
      Does (.imgSegFrame l f env) s fun t =>
        t.heads[laneHead l].img = some { i with got := i.got ++ [(rdLe f.bytes 2 2 * (i.width * i.bpp) + rdLe f.bytes 4 4, rdLe f.bytes 8 2)] } ∧
        ∀ j < rdLe f.bytes 8 2,
          memByte t ((imgBuf s.m (laneHead l)).1 + 64 + (rdLe f.bytes 2 2 * (i.width * i.bpp) + rdLe f.bytes 4 4) + j) = f.bytes.getD (16 + j) 0)

/-- R480, R483, R503, R504, R627: what the device sends to the heads on its own, and the heads that fall silent or flood. -/
def Obligations.LaneSending : Prop :=
  ∀ s : State,
    (∀ (h : Fin 16) (c : Instr), (∃ b : Fin 12, h = beamHead b ∧ c = .cmdKeepalive b) ∨ (∃ a : Fin 4, h.val = 12 + a.val ∧ c = .auxCmdKeepalive a) →
      (headUp s.m h = true → Does c s fun t =>
        (∀ l, laneUp s.m l = true → laneHead l = h →
          .frame l.val (if h.val < 12 then 0x11 else 0x15) s.m.heads[h].txFseq
            (BitVec.ofNat 32 (((cmdSignals h).map (sigGet s.m)).foldl (fun a x => max a x.t.toNat) 0))
            (((cmdSignals h).map (sigGet s.m)).flatMap (fun x => leBytes 4 x.v.toNat)) ∈ t.outs) ∧
        t.heads[h].txFseq = s.m.heads[h].txFseq + 1 ∧ t.heads[h].cmdDue = false ∧ Frame [.heads, .outs] s.m t) ∧
      (headUp s.m h = false → Does c s fun t => t.outs = s.m.outs ∧ Frame [.heads] s.m t)) ∧
    (Does .tsyncSend s fun t =>
      ∀ l, laneUp s.m l = true → t.time.lanes[l].sent.getLast? = some (shortNow s.m, now s.m) ∧ t.time.lanes[l].adj = none ∧
        ∃ q, .frame l.val 0x14 q (shortNow s.m)
          (leBytes 4 (shortNow s.m).toNat ++ leBytes 4 (s.m.time.lanes[l].adj.getD 0x80000000#32).toNat) ∈ t.outs) ∧
    (∀ b : Fin 12,
      (inWork s.m = true → headUp s.m (beamHead b) = true → s.m.heads[beamHead b].released = false → beamLive s.m b = true →
        ctxEngaged s.m b = true → Does (.releaseSend b) s fun t =>
          t.heads[beamHead b].released = true ∧ t.heads[beamHead b].txFseq = s.m.heads[beamHead b].txFseq + 1 ∧ Frame [.heads, .outs] s.m t) ∧
      (beamLive s.m b = false ∨ ctxEngaged s.m b = false → Does (.releaseSend b) s (· = s.m)) ∧
      (beamLive s.m b = true → headUp s.m (beamHead b) = true → s.m.heads[beamHead b].silent = false →
        s.m.heads[beamHead b].statusAt + (recWord s.m recLane 5).toNat * 1000 ≤ now s.m → Does (.statusTimeout (beamHead b)) s fun t =>
        t.heads[beamHead b].silent = true ∧ t.imp.beams[b].cause = 7 ∧ raised t .imp 0 = true) ∧
      (beamLive s.m b = true →
        s.m.heads[beamHead b].buckets.any (fun x => match x.2.dropping with
          | some t => decide (t + (recWord s.m recLane 6).toNat * 1000000 < now s.m) | none => false) = true →
        Does (.floodTimeout (beamHead b)) s fun t => t.imp.beams[b].cause = 7 ∧ raised t .imp 0 = true)) ∧
    (∀ h : Fin 16, s.m.heads[h].silent = true → Does (.statusTimeout h) s (· = s.m)) ∧
    (∀ h : Fin 16, s.m.heads[h].buckets.all (fun x => x.2.dropping.isNone) = true → Does (.floodTimeout h) s (· = s.m))

/-- R499 to R501, R508, R512, R514: LANEl_CMD and LANEl_INJECT by OP, and the end of an eye scan. A command in a state that does not take
it, a wrong key or a reserved bit is refused. -/
def Obligations.LaneCommands : Prop :=
  ∀ (s : State) (p : Port) (l : Fin 28),
    (WriteOpen s.m p (offLaneCmd l) →
      (s.m.lanes[l].st = .up → liveExposing s.m l = false ∨ ((headLanes (laneHead l)).filter (laneUp s.m)).length ≠ 1 → Does (.laneRetrain p l 0x2B00000) s fun t =>
        t.lanes[l].st = .equalise ∧ t.lanes[l].retrains = s.m.lanes[l].retrains + 1 ∧ raised t (.lane l) 1 = true) ∧
      (s.m.lanes[l].st = .failed → Does (.laneRetrain p l 0x2B00000) s fun t => t.lanes[l].st = .detect ∧ Frame [.lanes] s.m t) ∧
      (s.m.lanes[l].st = .up → liveExposing s.m l = true → ((headLanes (laneHead l)).filter (laneUp s.m)).length = 1 →
        RefusesAs (.lane l) 10 (.laneRetrain p l 0x2B00000) s) ∧
      (s.m.lanes[l].st ≠ .up → s.m.lanes[l].st ≠ .failed → RefusesAs (.lane l) 10 (.laneRetrain p l 0x2B00000) s) ∧
      (s.m.lanes[l].locked = true → Does (.eyeScan p l 0x2B00000) s fun t => t = onLane l (fun x => { x with scanning := true }) s.m) ∧
      (s.m.lanes[l].locked = false → RefusesAs (.lane l) 10 (.eyeScan p l 0x2B00000) s) ∧
      (s.m.lanes[l].st ≠ .hostile → s.m.lanes[l].st ≠ .up → Does (.testEnter p l 0x2B00000) s fun t =>
        t.lanes[l].st = .test ∧ t.lanes[l].locked = false ∧ Frame [.lanes] s.m t) ∧
      (s.m.lanes[l].st = .hostile ∨ s.m.lanes[l].st = .up → RefusesAs (.lane l) 10 (.testEnter p l 0x2B00000) s) ∧
      (∀ n, s.m.lanes[l].st = .test → Does (.testExit p l 0x2B00000 n) s fun t =>
        t.lanes[l].st = .detect ∧ t.lanes[l].prbsErr = satAdd s.m.lanes[l].prbsErr n ∧ Frame [.lanes] s.m t) ∧
      (∀ n, s.m.lanes[l].st ≠ .test → RefusesAs (.lane l) 10 (.testExit p l 0x2B00000 n) s) ∧
      (∀ (hi : BitVec 28) (n : Nat) (c : Instr), c ∈ [.laneRetrain p l hi, .eyeScan p l hi, .testEnter p l hi, .testExit p l hi n] →
        hi ≠ 0x2B00000 → RefusesAs (.lane l) 10 c s)) ∧
    (WriteOpen s.m p (offLaneInject l) →
      (liveExposing s.m l = false → s.m.lanes[l].st ≠ .soak →
        (∀ e ∈ [(1, Instr.injectBitError p l 0x3C00000), (4, .injectInvalidHeader p l 0x3C00000), (5, .injectCrcError p l 0x3C00000)],
          Does e.2 s fun t => t.outs = .corrupt l.val e.1 0 :: s.m.outs ∧ Frame [.outs] s.m t) ∧
        (∀ n : Fin 16, Does (.injectErrorRate p l (BitVec.ofNat 28 (0x3C00000 + 16 * n.val))) s fun t =>
          t.lanes[l].inject = .rate n.val ∧ t.outs = .corrupt l.val 2 n.val :: s.m.outs ∧ Frame [.lanes, .outs] s.m t) ∧
        (Does (.injectStop p l 0x3C00000) s fun t => t = onLane l (fun x => { x with inject := .none }) s.m) ∧
        (s.m.g.dev ≠ .building → Does (.injectSealError p l 0x3C00000) s fun t =>
          t.outs = .corrupt l.val 6 0 :: s.m.outs ∧ Frame [.outs] s.m t)) ∧
      (s.m.g.dev = .building → RefusesAs (.lane l) 10 (.injectSealError p l 0x3C00000) s) ∧
      (∀ (hi : BitVec 28) (c : Instr),
        c ∈ [.injectBitError p l hi, .injectErrorRate p l hi, .injectStop p l hi, .injectInvalidHeader p l hi, .injectCrcError p l hi,
          .injectSealError p l hi] →
        fld hi 27 20 ≠ 0x3C ∨ fld hi 19 8 ≠ 0 ∨ fld hi 3 0 ≠ 0 ∨ liveExposing s.m l = true ∨ s.m.lanes[l].st = .soak → RefusesAs (.lane l) 10 c s)) ∧
    (∀ w h : Byte, s.m.lanes[l].scanning = true → Does (.eyeScanDone l w h) s fun t =>
      t.lanes[l] = { s.m.lanes[l] with scanning := false, eyeW := w, eyeH := h, scans := s.m.lanes[l].scans + 1 } ∧ raised t (.lane l) 8 = true) ∧
    (∀ w h : Byte, s.m.lanes[l].scanning = false → Does (.eyeScanDone l w h) s (· = s.m))

/-- R521, R531 to R533, R550, R552, R555, R558, R562, R574, R577: STGa_CMD by OP, and CMP_PUSH. A move is refused with the code of the
first check that fails; an accepted one moves the axis and no other. -/
def Obligations.StageCommands : Prop :=
  ∀ (s : State) (p : Port) (a : Fin 8),
    (WriteOpen s.m p (offStgCmd a) →
      (s.m.stg[a].st = .idle → inWork s.m = true → jobOwned s.m a = false →
        (∀ (op : Nat) (c : Instr) (tgt : Int),
          (op = 1 ∧ c = .moveAbs p a 0x5700000 ∧ tgt = stgTarget s.m a) ∨
          (op = 2 ∧ c = .moveRel p a 0x5700000 ∧ tgt = posCmd s.m a + stgTarget s.m a) ∨
          (op = 4 ∧ c = .axisResume p a 0x5700000 ∧ tgt = s.m.stg[a].goal ∧ s.m.stg[a].remain.isSome = true) →
          (moveCheck s.m a tgt = 1 → Does c s fun t =>
            t.stg[a].st = .moving ∧ t.stg[a].target = nmStep s.m a tgt ∧ t.stg[a].goal = tgt ∧ t.stg[a].cmd = s.m.stg[a].cmd ∧ t.stg[a].remain = none ∧
            t.stg[a].cmdResult = 1 ∧ t.stg[a].cmdOp = BitVec.ofNat 4 op ∧ (∀ k, k ≠ a → t.stg[k] = s.m.stg[k]) ∧ Frame [.stg] s.m t) ∧
          (moveCheck s.m a tgt ≠ 1 → Does c s fun t =>
            t.stg[a] = { s.m.stg[a] with cmdResult := BitVec.ofNat 4 (moveCheck s.m a tgt), cmdOp := BitVec.ofNat 4 op } ∧
            raised t (.stg a) 10 = true ∧ raised t .glb 2 = true ∧ (s.m.stg[a].limP = true ∧ s.m.stg[a].limN = true → raised t (.stg a) 9 = true))) ∧
        (s.m.stg[a].remain = none → Does (.axisResume p a 0x5700000) s fun t =>
          t.stg[a].st = .idle ∧ t.stg[a].cmdResult = 7 ∧ raised t (.stg a) 10 = true ∧ raised t .glb 2 = true) ∧
        (pendingOf s.m (recStgHome a) = none →
          (recFld s.m (recStgHome a) 0 2 0 ≠ 4 → recFld s.m (recStgHome a) 0 2 0 ≠ 5 → Does (.home p a 0x5700000) s fun t =>
            t.stg[a].st = .homing ∧ t.stg[a].homed = false ∧ t.stg[a].homing.isSome = true ∧ t.stg[a].remain = none ∧
            t.stg[a].cmdResult = 1 ∧ Frame [.stg] s.m t) ∧
          (recFld s.m (recStgHome a) 0 2 0 = 4 → Does (.home p a 0x5700000) s fun t =>
            t.stg[a].st = .idle ∧ t.stg[a].homed = true ∧ t.stg[a].cmd = nmStep s.m a (recS s.m (recStgHome a) 3 31 0) ∧
            t.stg[a].homeResult = 1 ∧ raised t (.stg a) 4 = true))) ∧
      (∀ c ∈ [Instr.moveAbs p a 0x5700000, .moveRel p a 0x5700000, .axisResume p a 0x5700000, .home p a 0x5700000],
        (s.m.stg[a].st = .off → Does c s fun t => t.stg[a].cmdResult = 8 ∧ t.stg[a].st = .off ∧ raised t (.stg a) 10 = true) ∧
        (s.m.stg[a].st ≠ .off → inWork s.m = false → Does c s fun t => t.stg[a].cmdResult = 3 ∧ t.stg[a].st = s.m.stg[a].st ∧ raised t (.stg a) 10 = true) ∧
        (s.m.stg[a].st = .moving → inWork s.m = true → Does c s fun t => t.stg[a].cmdResult = 2 ∧ t.stg[a].st = .moving ∧ raised t (.stg a) 10 = true) ∧
        (s.m.stg[a].st = .idle → inWork s.m = true → jobOwned s.m a = true → Does c s fun t =>
          t.stg[a].cmdResult = 4 ∧ t.stg[a].st = .idle ∧ raised t (.stg a) 10 = true)) ∧
      (inWork s.m = true → s.m.stg[a].st = .moving → s.m.stg[a].v ≠ 0 → Does (.axisStop p a 0x5700000) s fun t =>
        t.stg[a].st = .stopping ∧ t.stg[a].stopMax = false ∧ t.stg[a].remain = some (s.m.stg[a].target - s.m.stg[a].cmd) ∧
        t.stg[a].remainTarget = s.m.stg[a].target ∧ t.stg[a].cmdResult = 1 ∧ Frame [.stg] s.m t) ∧
      (inWork s.m = true → s.m.stg[a].st = .fault → Does (.clear p a 0x5700000) s fun t =>
        t.stg[a].st = .idle ∧ t.stg[a].faultCause = 0 ∧ t.stg[a].remain = (if s.m.stg[a].faultCause = 1 then s.m.stg[a].remain else none) ∧
        t.stg[a].cmdResult = 1 ∧ Frame [.stg] s.m t) ∧
      (s.m.stg[a].st = .idle → Does (.clear p a 0x5700000) s fun t =>
        t.stg[a].st = .idle ∧ t.stg[a].cmdResult = 3 ∧ raised t (.stg a) 10 = true) ∧
      (inWork s.m = true → s.m.stg[a].st ≠ .off → Does (.cmpClear p a 0x5700000) s fun t =>
        t.stg[a].cmp.list = [] ∧ t.stg[a].cmp.idx = 0 ∧ t.stg[a].cmp.fired = 0 ∧ t.stg[a].cmp.missed = false ∧ t.stg[a].cmdResult = 1 ∧
        Frame [.stg] s.m t) ∧
      (∀ (hi : BitVec 28) (c : Instr), hi ≠ 0x5700000 →
        c ∈ [.moveAbs p a hi, .moveRel p a hi, .axisStop p a hi, .axisResume p a hi, .home p a hi, .clear p a hi, .cmpClear p a hi] →
        RefusesAs (.stg a) 10 c s)) ∧
    (∀ w : Word, WriteOpen s.m p (0xB0084 + 0x800 * a.val) →
      (fld w 31 24 = 0x6D → fld w 23 8 = 0 → fld w 1 0 = 1 ∨ fld w 1 0 = 2 →
        (s.m.stg[a].cmp.list ≠ [] → s.m.stg[a].cmp.list.length < 64 → Does (.cmpPush p a w) s fun t =>
          t.stg[a].cmp.list = s.m.stg[a].cmp.list ++ [⟨(regGet s.m (0xB0080 + 0x800 * a.val)).toInt, decide (fld w 1 0 = 1), fld w 5 4⟩] ∧
          Frame [.stg] s.m t) ∧
        (64 ≤ s.m.stg[a].cmp.list.length → Does (.cmpPush p a w) s fun t =>
          raised t (.stg a) 10 = true ∧ Frame [.ev .stg, .msix, .outs] s.m t)) ∧
      (fld w 31 24 ≠ 0x6D ∨ fld w 23 8 ≠ 0 ∨ fld w 1 0 = 0 ∨ fld w 1 0 = 3 → RefusesAs (.stg a) 10 (.cmpPush p a w) s))

/-- R522 to R525, R531, R535 to R537, R545 to R551, R556, R560, R562: the profile generator, the microsteps, the ends of moves, limits,
stalls and the outputs of an axis. A profile update never takes the speed above both its limit and what it was. -/
def Obligations.StageMotion : Prop :=
  ∀ (s : State) (a : Fin 8),
    (s.m.stg[a].st = .moving → pendingOf s.m (recStgMotion a) = none → Does (.profileUpdate a) s fun t =>
      t.stg[a].v ≤ max s.m.stg[a].v (motionMax s.m a) ∧ t.stg[a].inc = (if s.m.stg[a].target = s.m.stg[a].cmd ∨ ustep s.m a = 0 then 0 else incOf s.m a t.stg[a].v) ∧
      t.stg[a].cmd = s.m.stg[a].cmd ∧ t.stg[a].target = s.m.stg[a].target ∧ t.stg[a].st = .moving ∧ Frame [.stg] s.m t) ∧
    (s.m.stg[a].st = .stopping → s.m.stg[a].stopMax = true → pendingOf s.m (recStgMotion a) = none → Does (.profileUpdate a) s fun t =>
      t.stg[a].v = s.m.stg[a].v - s.m.stg[a].decMax * 10 ^ 6 ∧ t.stg[a].st = .stopping ∧ Frame [.stg] s.m t) ∧
    (s.m.stg[a].st = .moving → carries s.m.stg[a] = true → s.m.stg[a].cmd ≠ s.m.stg[a].target → Does (.microstep a) s fun t =>
      t.stg[a].cmd = s.m.stg[a].cmd + (if s.m.stg[a].dirPos then 1 else -1) * sgnOf (dirInv s.m a) ∧ t.stg[a].st = .moving ∧
      (t.stg[a].cmd = s.m.stg[a].target → t.stg[a].v = 0 ∧ t.stg[a].inc = 0)) ∧
    (axMoving s.m.stg[a].st = false ∨ carries s.m.stg[a] = false → Does (.microstep a) s (· = s.m)) ∧
    (s.m.stg[a].st = .moving → s.m.stg[a].cmd = s.m.stg[a].target → Does (.axisTargetReached a) s fun t =>
      t.stg[a].st = .idle ∧ t.stg[a].v = 0 ∧ t.stg[a].cmd = s.m.stg[a].cmd ∧ raised t (.stg a) 0 = true) ∧
    (s.m.stg[a].cmd ≠ s.m.stg[a].target → Does (.axisTargetReached a) s (· = s.m)) ∧
    (s.m.stg[a].st = .stopping → s.m.stg[a].v = 0 → a ∉ s.m.job.mrPending →
      (∀ r, s.m.stg[a].stopFault = none → s.m.stg[a].remain = some r → s.m.stg[a].cmd ≠ s.m.stg[a].remainTarget → Does (.axisAtRest a) s fun t =>
        t.stg[a].st = .idle ∧ t.stg[a].remain = some (s.m.stg[a].remainTarget - s.m.stg[a].cmd) ∧ Frame [.stg] s.m t) ∧
      (∀ c, s.m.stg[a].stopFault = some c → Does (.axisAtRest a) s fun t =>
        t.stg[a].st = .fault ∧ t.stg[a].faultCause = c ∧ t.stg[a].stopFault = none ∧ raised t (.stg a) 1 = true)) ∧
    (s.m.stg[a].v ≠ 0 → Does (.axisAtRest a) s (· = s.m)) ∧
    (∀ pos, s.m.stg[a].st = .moving → s.m.stg[a].homing = none → s.m.stg[a].dirPos = pos → s.m.stg[a].v ≠ 0 → s.m.stg[a].cmd ≠ s.m.stg[a].target →
      Does (.limitAssert a pos) s fun t =>
        t.stg[a].st = .stopping ∧ t.stg[a].stopMax = true ∧ (if pos then t.stg[a].limP else t.stg[a].limN) = true ∧
        t.stg[a].limitStops = s.m.stg[a].limitStops + 1 ∧ raised t (.stg a) 3 = true) ∧
    (∀ pos, s.m.stg[a].st = .off → Does (.limitAssert a pos) s fun t =>
      t = onAxis a (fun x => if pos then { x with limP := true, limPosP := x.cmd } else { x with limN := true, limPosN := x.cmd }) s.m) ∧
    (∀ pos cmd meas, s.m.stg[a].homing = none → Does (.limitRelease a pos cmd meas) s fun t =>
      t = onAxis a (fun x => if pos then { x with limP := false } else { x with limN := false }) s.m) ∧
    (∀ on, s.m.stg[a].homing = none → Does (.homeInputEdge a on) s fun t => t = onAxis a (fun x => { x with homeIn := on }) s.m) ∧
    (s.m.stg[a].st = .moving → recFld s.m (recStgGuard a) 1 7 0 ≠ 0 → recFld s.m (recStgGuard a) 1 7 0 ≤ s.m.stg[a].stallRun →
      Does (.axisStall a) s fun t =>
        t.stg[a].st = .fault ∧ t.stg[a].faultCause = 1 ∧ t.stg[a].cmd = nmStep s.m a (posMeas s.m a) ∧
        t.stg[a].remain = some (s.m.stg[a].target - nmStep s.m a (posMeas s.m a)) ∧ t.stg[a].stalls = s.m.stg[a].stalls + 1 ∧ (sigGet t (656 + 8 * a.val + 3)).v = BitVec.ofNat 32 (axStatus t.stg[a]) ∧
        raised t (.stg a) 1 = true ∧ raised t (.stg a) 2 = true) ∧
    (s.m.stg[a].stallRun < recFld s.m (recStgGuard a) 1 7 0 → Does (.axisStall a) s (· = s.m)) ∧
    (s.m.boot.recPend = [] → Does .pwmValley s fun t =>
      (t.stg[a].vA, t.stg[a].vB) = (if s.m.stg[a].st = .off then (0, 0) else phaseValues s.m a) ∧ Frame [.stg] s.m t) ∧
    (s.m.stg[a].st = .idle → Does (.holdDelayElapsed a) s fun t => t = onAxis a (fun x => { x with holdAmp := true }) s.m) ∧
    (∀ l, s.m.stg[a].cmp.pulse = some l → Does (.cmpPulseEnd a) s fun t =>
      t.stg[a].cmp.level = l ∧ t.stg[a].cmp.pulse = none ∧ t.outs = .pin a.val l :: s.m.outs ∧ Frame [.stg, .outs] s.m t) ∧
    (∀ (c : Fin 2) f q, a.val = c.val → s.m.stg[a].enc.queue = f :: q → Does (.encoutEmit c) s fun t =>
      t.stg[a].enc.queue = q ∧ t.outs = .pin (8 + c.val) (f != bitOf (recWord s.m recStgEncout (3 * c.val)) 7) :: s.m.outs ∧
      Frame [.stg, .outs] s.m t)

/-- R519, R520, R538 to R547, R562: the encoders and the signals of an axis. -/
def Obligations.StageSensing : Prop :=
  ∀ (s : State) (a : Fin 8), s.m.stg[a].st ≠ .off →
    (∀ la lb, encType s.m a = 1 →
      (la ≠ s.m.stg[a].encA → lb = s.m.stg[a].encB → Does (.encQuadStep a la lb) s fun t =>
        t.stg[a].meas = s.m.stg[a].meas + (if la = lb then -1 else 1) ∧ t.stg[a].encA = la ∧ t.stg[a].cmd = s.m.stg[a].cmd) ∧
      (la = s.m.stg[a].encA → lb ≠ s.m.stg[a].encB → Does (.encQuadStep a la lb) s fun t =>
        t.stg[a].meas = s.m.stg[a].meas + (if la = lb then 1 else -1) ∧ t.stg[a].encB = lb ∧ t.stg[a].cmd = s.m.stg[a].cmd) ∧
      (la ≠ s.m.stg[a].encA → lb ≠ s.m.stg[a].encB → Does (.encQuadStep a la lb) s fun t =>
        t.stg[a].meas = s.m.stg[a].meas ∧ t.stg[a].quadErr = s.m.stg[a].quadErr + 1 ∧ raised t (.stg a) 6 = true ∧
        Frame [.stg, .ev .stg, .msix, .outs] s.m t)) ∧
    (s.m.stg[a].st = .idle → recFld s.m (recStgGuard a) 1 23 16 < (s.m.stg[a].qerrAt.filter (fun t => decide (now s.m < t + 1000000))).length →
      Does (.quadErrLimit a) s fun t =>
        t.stg[a].st = .fault ∧ t.stg[a].faultCause = 2 ∧ t.stg[a].posUnknown = true ∧ t.stg[a].remain = none ∧ raised t (.stg a) 1 = true) ∧
    (s.m.stg[a].qerrAt = [] → Does (.quadErrLimit a) s (· = s.m)) ∧
    (s.m.stg[a].homing = none → Does (.encIndexEdge a) s fun t =>
      t.stg[a] = { s.m.stg[a] with indexPos := posMeas s.m a } ∧ raised t (.stg a) 7 = true ∧ Frame [.stg, .ev .stg, .msix, .outs] s.m t) ∧
    (∀ raw parity (e : Env), encType s.m a = 2 → s.m.job.autoResume = false →
      (s.m.stg[a].ssiBad + 1 < 3 → Does (.ssiReading a raw false parity e) s fun t =>
        t.stg[a] = { s.m.stg[a] with ssiErr := s.m.stg[a].ssiErr + 1, ssiBad := s.m.stg[a].ssiBad + 1 } ∧ Frame [.stg] s.m t) ∧
      (3 ≤ s.m.stg[a].ssiBad + 1 → s.m.stg[a].st = .idle → Does (.ssiReading a raw false parity e) s fun t =>
        t.stg[a].st = .fault ∧ t.stg[a].faultCause = 3 ∧ t.stg[a].posUnknown = true ∧ raised t (.stg a) 1 = true) ∧
      (s.m.stg[a].ssiLast = none → s.m.g.bootWarm = false → Does (.ssiReading a raw true true e) s fun t =>
        t.stg[a].ssiBad = 0 ∧
        t.stg[a].ssiLast = some (if bitOf (recWord s.m (recStgAxis a) 3) 6 then grayBin (raw.toNat % 2 ^ fld (recWord s.m (recStgAxis a) 3) 5 0)
          else raw.toNat % 2 ^ fld (recWord s.m (recStgAxis a) 3) 5 0))) ∧
    (domainOn s.m 11 = true → Does (.axisSignalPublish a) s fun t =>
      sigGet t (656 + 8 * a.val) = { v := BitVec.ofInt 32 (satS 32 (posCmd s.m a)), t := s.m.time.dt, valid := true } ∧
      sigGet t (656 + 8 * a.val + 1) = { v := BitVec.ofInt 32 (satS 32 (posMeas s.m a)), t := s.m.time.dt, valid := true } ∧
      (∀ n, n < 656 + 8 * a.val ∨ 656 + 8 * a.val + 4 ≤ n → sigGet t n = sigGet s.m n) ∧ Frame [.stg, .sig] s.m t) ∧
    (encType s.m a ≠ 0 → Does (.stallCheck a) s fun t =>
      t.stg[a].stallRun = (if 0 < (recWord s.m (recStgGuard a) 0).toNat ∧
        (recWord s.m (recStgGuard a) 0).toNat < (posMeas s.m a - posCmd s.m a).natAbs then s.m.stg[a].stallRun + 1 else 0) ∧
      t.stg[a].st = s.m.stg[a].st ∧ Frame [.stg] s.m t) ∧
    ((∀ c, s.m.stg[a].lastAt = some c → c.1 + (recWord s.m (recStgGuard a) 8).toNat * 1000000 ≤ now s.m) →
      Does (.speedZeroTimeout a) s fun t => t = onAxis a (fun x => { x with speed := 0 }) s.m) ∧
    (∀ c, s.m.stg[a].lastAt = some c → now s.m < c.1 + (recWord s.m (recStgGuard a) 8).toNat * 1000000 →
      Does (.speedZeroTimeout a) s (· = s.m))

/-- R580 to R588, R598, R601, R604, R605, R607: the INHIBIT inputs, the latch and the discrepancy fault; LAMP_ACK and SCENE. PERMIT and
every LEN fall with an input. -/
def Obligations.InterlockInputs : Prop :=
  ∀ s : State,
    (∀ ch, s.m.aon.mains = true → Does (.inhibitFall ch) s fun t =>
      t.ilk.latch = true ∧ (if ch then t.ilk.b else t.ilk.a) = false ∧ t.ilk.permit = false ∧ t.ilk.len = 0 ∧
      (s.m.ilk.latch = false → raised t .ilk 0 = true ∧ t.ilk.inhCount = s.m.ilk.inhCount + 1) ∧
      (s.m.ilk.latch = true → t.ilk.inhCount = s.m.ilk.inhCount)) ∧
    (∀ ch, s.m.aon.mains = false → Does (.inhibitFall ch) s (· = s.m) ∧ Does (.inhibitRise ch) s (· = s.m)) ∧
    (∀ ch, s.m.aon.mains = true → Does (.inhibitRise ch) s fun t =>
      t = { s.m with ilk := { s.m.ilk with a := s.m.ilk.a || !ch, b := s.m.ilk.b || ch } }) ∧
    (s.m.aon.mains = true → s.m.ilk.a = true → s.m.ilk.b = true → s.m.ilk.latch = true → s.m.ilk.disc = false → Does .inputLatchRearm s fun t =>
      t.ilk.latch = false ∧ raised t .ilk 1 = true ∧ t.ilk.permit = permitNow t ∧
      Frame [.ilk, .beams, .ev .ilk, .msix, .outs] s.m t ∧ ∀ b : Fin 12, t.beams[b] = { s.m.beams[b] with forcedAt := t.beams[b].forcedAt }) ∧
    (s.m.ilk.a = false ∨ s.m.ilk.b = false ∨ s.m.ilk.latch = false → Does .inputLatchRearm s (· = s.m)) ∧
    (s.m.aon.mains = true → s.m.ilk.a ≠ s.m.ilk.b → s.m.ilk.disc = false → inWork s.m = true → Does .discrepancyFault s fun t =>
      t.ilk.disc = true ∧ raised t .ilk 2 = true ∧ t.g.dev = .safeHold ∧ t.g.safeByFault = true ∧ t.mgt.safeCause = 0x9001 ∧ t.ilk.permit = false) ∧
    (s.m.ilk.a = s.m.ilk.b → Does .discrepancyFault s (· = s.m)) ∧
    (∀ p : Port, WriteOpen s.m p 0xC0010 →
      (lampsProved s.m = true → s.m.ilk.lampInh = true → Does (.lampAck p 0xE300000) s fun t =>
        t.ilk.lampInh = false ∧ raised t .ilk 5 = true ∧ t.ilk.permit = permitNow t) ∧
      (lampsProved s.m = false → RefusesAs .ilk 8 (.lampAck p 0xE300000) s) ∧
      (∀ n : Fin 16, n.val ≠ 0 → inWork s.m = true → s.m.job.st ≠ .makeReady → Does (.scene p (BitVec.ofNat 28 (0xE300000 + 4096 * n.val))) s fun t =>
        t.ilk.scene = BitVec.ofNat 4 n.val ∧ t.outs.head? = some (.lampFrame (lampFrame 0 4 []))) ∧
      (∀ n : Fin 256, n.val = 0 ∨ 15 < n.val ∨ s.m.g.dev = .safeHold → RefusesAs .ilk 8 (.scene p (BitVec.ofNat 28 (0xE300000 + 4096 * n.val))) s) ∧
      (∀ (hi : BitVec 28) (c : Instr), c ∈ [.lampAck p hi, .scene p hi] → fld hi 27 20 ≠ 0xE3 ∨ fld hi 11 0 ≠ 0 → RefusesAs .ilk 8 c s))

/-- R593 to R603, R606, R608: the polls of the lamp bus and their replies, modules that fail, the AL-series frame, blinking, and colour
feedback, whose gains stay within their clamp. -/
def Obligations.LampBus : Prop :=
  ∀ s : State,
    (∀ n, busOn s.m = true → Does (.lampPollCycle n) s fun t => ∀ a ∈ lockedMods s.m, .lampFrame (lampFrame a 2 []) ∈ t.outs) ∧
    (∀ n, busOn s.m = false → Does (.lampPollCycle n) s (· = s.m)) ∧
    (∀ (a : Fin 32) (data : List Byte), busOn s.m = true → data.length = 6 → 2 ∈ s.m.ilk.mods[a].polled →
      (∀ c < 4, chState (BitVec.ofNat 16 (rdLe data 0 2)) c ≤ 1) → Does (.lampReply a (lampFrame (128 + a.val) 2 data)) s fun t =>
        t.ilk.mods[a].ch = BitVec.ofNat 16 (rdLe data 0 2) ∧ t.ilk.mods[a].missed = 0 ∧ t.ilk.mods[a].good = min 3 (s.m.ilk.mods[a].good + 1) ∧
        t.ilk.mods[a].failed = (s.m.ilk.mods[a].failed && decide (t.ilk.mods[a].good < 3)) ∧ t.ilk.mods[a].polled = s.m.ilk.mods[a].polled.erase 2 ∧
        Frame [.ilk] s.m t) ∧
    (∀ (a : Fin 32) (data : List Byte) (c : Nat), busOn s.m = true → data.length = 6 → 2 ∈ s.m.ilk.mods[a].polled → c < 4 →
      chState (BitVec.ofNat 16 (rdLe data 0 2)) c = 3 → Does (.lampReply a (lampFrame (128 + a.val) 2 data)) s fun t =>
        t.ilk.mods[a].failed = true ∧ t.ilk.mods[a].good = 0 ∧ (s.m.ilk.mods[a].failed = false → raised t .ilk 3 = true) ∧
        (s.m.ilk.mods[a].failed = false → a.val ∈ lockedMods s.m → t.ilk.lampInh = true)) ∧
    (∀ a : Fin 32, s.m.ilk.mods[a].polled ≠ [] →
      (busOn s.m = true → Does (.lampReply a []) s fun t => t.ilk.busCrc = s.m.ilk.busCrc + 1 ∧ raised t .ilk 7 = true ∧ raised t .ilk 6 = true) ∧
      (Does (.lampPollMissed a) s fun t =>
        t.ilk.noAnswer = s.m.ilk.noAnswer + 1 ∧ raised t .ilk 6 = true ∧ t.ilk.mods[a].good = 0 ∧
        t.ilk.mods[a].missed = (if s.m.ilk.mods[a].missed = 15 then 15 else s.m.ilk.mods[a].missed + 1) ∧
        (2 ≤ s.m.ilk.mods[a].missed.toNat → t.ilk.mods[a].failed = true))) ∧
    (∀ a : Fin 32, s.m.ilk.mods[a].polled = [] → Does (.lampPollMissed a) s (· = s.m)) ∧
    (∀ a : Fin 32,
      (s.m.ilk.mods[a].notMeasured = true → Does (.notMeasuredTimeout a) s fun t =>
        t.ilk.mods[a].failed = true ∧ (s.m.ilk.mods[a].failed = false → raised t .ilk 3 = true)) ∧
      (s.m.ilk.mods[a].notMeasured = false → Does (.notMeasuredTimeout a) s (· = s.m))) ∧
    (busOn s.m = true → recFld s.m recLampBus 1 8 8 = 1 → Does .alFrameSend s fun t =>
      t = { s.m with outs := .alFrame (alFrame s.m) :: s.m.outs }) ∧
    (recFld s.m recLampBus 1 8 8 = 0 → Does .alFrameSend s (· = s.m)) ∧
    (busOn s.m = true → sensorAddr s.m ≠ 0 → Does .colourFeedback s fun t =>
      .lampFrame (lampFrame (sensorAddr s.m) 5 []) ∈ t.outs ∧
      (t.ilk.gains = s.m.ilk.gains ∨ ∀ c : Fin 4, 3221225472 ≤ t.ilk.gains[c] ∧ t.ilk.gains[c] ≤ 5368709120)) ∧
    (sensorAddr s.m = 0 → Does .colourFeedback s (· = s.m)) ∧
    (∀ g : Fin 8, busOn s.m = true → followsPattern s.m g.val = true → bitOf (grpWord s.m (16 * g.val + 12)) (displayNow s.m) = true →
      Does (.blinkToggle g) s fun t => t.ilk.dark = s.m.ilk.dark ^^^ BitVec.ofNat 8 (2 ^ g.val) ∧ Frame [.ilk, .outs] s.m t)

/-- R614 to R622, R628, R636: network time. The servo takes the offsets of Sync messages, a lost master leaves it in HOLDOVER, the map is
replaced whole, a snapshot reads device time and network time together, and a head's answer gives its lane's delay and offset. -/
def Obligations.NetworkTime : Prop :=
  ∀ s : State,
    (∀ (p : Fin 2) (type : BitVec 4) (i : ServoIn), ptpOn s.m p = true →
      (i.offset = none → Does (.ptpEventRx p type i) s fun t =>
        t.time.ptpRx.head? = some (p.val, type.toNat, (nowQ s.m - recFld s.m recTimePtp (2 + p.val) 31 16 * 65536) / 65536,
          (nowQ s.m - recFld s.m recTimePtp (2 + p.val) 31 16 * 65536) % 65536) ∧
        t.time.utc = i.utc ∧ (if p = 0 then t.time.port0 else t.time.port1) = i.portState ∧
        (i.selected = true → s.m.time.servo = .free ∨ s.m.time.servo = .holdover → t.time.servo = .acquiring ∧ t.time.stepDue = true) ∧
        Frame [.time] s.m t) ∧
      (∀ o, i.offset = some o → type = 0 → s.m.time.servo = .locked → pendingOf s.m recTimeServo = none → Does (.ptpEventRx p type i) s fun t =>
        t.time.offset = o ∧ t.time.map = s.m.time.map ∧
        t.time.servo = (if o.toInt.natAbs ≤ (recWord s.m recTimeServo 0).toNat then .locked else .acquiring) ∧
        t.aon = (if o.toInt.natAbs ≤ (recWord s.m recTimeServo 0).toNat then
          { s.m.aon with rtc := BitVec.ofNat 48 (networkQ s.m (nowQ s.m) / 65536 * 32768 / 1000000000) } else s.m.aon) ∧ Frame [.time, .aon] s.m t) ∧
      (∀ o, i.offset = some o → type = 0 → s.m.time.servo = .acquiring → s.m.time.stepDue = false → pendingOf s.m recTimeServo = none →
        o.toInt.natAbs ≤ (recWord s.m recTimeServo 0).toNat → Does (.ptpEventRx p type i) s fun t =>
          t.time.offset = o ∧ t.time.within = s.m.time.within + 1 ∧
          (16 ≤ s.m.time.within + 1 → t.time.servo = .locked ∧ raised t .time 1 = true) ∧
          (s.m.time.within + 1 < 16 → t.time.servo = .acquiring))) ∧
    (∀ p type i, ptpOn s.m p = false → Does (.ptpEventRx p type i) s (· = s.m)) ∧
    (∀ (p : Fin 2) (bytes : List Byte) (udp : Option (BitVec 16)), ptpOn s.m p = true → Does (.ptpTx p bytes udp) s fun t =>
      t.outs = .ptp p.val
        (if recFld s.m recTimePtp 0 14 14 = 1 && !bitOf (bytes.getD 6 0) 1 && decide (44 ≤ bytes.length) then
          compensate bytes (ptpOneStep s.m p (nowQ s.m + recFld s.m recTimePtp (2 + p.val) 15 0 * 65536) bytes) udp else bytes) :: s.m.outs ∧ Frame [.outs] s.m t) ∧
    (s.m.time.servo = .acquiring ∨ s.m.time.servo = .locked → Does .masterLost s fun t =>
      t.time.servo = .holdover ∧ t.time.map = s.m.time.map ∧ raised t .time 2 = true) ∧
    (s.m.time.servo = .free ∨ s.m.time.servo = .holdover → Does .masterLost s (· = s.m)) ∧
    (∀ dt sec, ∀ ns rate : Word, s.m.time.servo = .acquiring ∨ s.m.time.servo = .locked → s.m.time.running = true →
      (ns.toNat < 1000000000 → Does (.timeMapChange dt sec ns rate) s fun t =>
        t.time.map = ⟨dt, sec, ns, BitVec.ofInt 32 (slewRate s.m rate.toInt)⟩ ∧ (slewRate s.m rate.toInt).natAbs ≤ 549755813 ∧ Frame [.time] s.m t) ∧
      (1000000000 ≤ ns.toNat → Does (.timeMapChange dt sec ns rate) s (· = s.m))) ∧
    (∀ p : Port, WriteOpen s.m p 0xD0040 →
      (Does (.timeSnap p 0x1D000000) s fun t =>
        t.time.snapDt = s.m.time.dt ∧ (t.time.snapSec, t.time.snapNs) = secNs (networkQ s.m (nowQ s.m)) ∧ raised t .time 0 = true ∧
        Frame [.time, .ev .time, .msix, .outs] s.m t) ∧
      (∀ v : Word, v ≠ 0x1D000000 → Refuses (.timeSnap p v) s)) ∧
    (∀ (l : Fin 28) (f : FrameIn), FrameOk s.m l 6 f →
      (s.m.time.lanes[l].sent.any (fun e => decide (e.1 = BitVec.ofNat 32 (rdLe f.bytes 0 4))) = false → Does (.tsyncRFrame l f) s fun t =>
        t.time.tsyncLost = s.m.time.tsyncLost + 1 ∧ t.time.lanes = s.m.time.lanes ∧ Frame [.time, .heads] s.m t) ∧
      (s.m.time.lanes[l].sent.any (fun e => decide (e.1 = BitVec.ofNat 32 (rdLe f.bytes 0 4)) && decide (now s.m ≤ e.2 + 10000)) = true →
        pendingOf s.m recTimeLink = none → Does (.tsyncRFrame l f) s fun t =>
          t.time.tsyncLost = s.m.time.tsyncLost ∧ t.time.lanes[l].adj = some (BitVec.ofInt 32 (-
            (divR (((BitVec.ofNat 32 (rdLe f.bytes 4 4) : Word) - BitVec.ofNat 32 (rdLe f.bytes 0 4)).toInt * 65536 + (rdLe f.bytes 8 2 : Int) +
              (((BitVec.ofNat 32 (rdLe f.bytes 12 4) : Word) - shortNow s.m).toInt * 65536 + (rdLe f.bytes 16 2 : Int) - (s.m.time.sub.toNat : Int))) (2 * 4096) -
             recS s.m recTimeLink l.val 15 0 * 16))) ∧
          (∀ k, k ≠ l → t.time.lanes[k] = s.m.time.lanes[k])))

/-- R643 to R675: the layer memory controller: MEM_CMD, retraining, refreshes, the write queues, hot rows, mode register 4 and the
patrol scrub. -/
def Obligations.LayerMemory : Prop :=
  ∀ (s : State) (c : Fin 2),
    (∀ p : Port, WriteOpen s.m p 0xE0080 →
      ((s.m.mem.ch c.val).retrainPend = false → (s.m.mem.ch c.val).st ≠ .retraining →
        Does (.memRetrain p (BitVec.ofNat 28 (0x9C00000 + 4096 * c.val))) s fun t => t = onCh c (fun x => { x with retrainPend := true }) s.m) ∧
      ((s.m.mem.ch c.val).retrainPend = true ∨ (s.m.mem.ch c.val).st = .retraining →
        RefusesAs .mem 8 (.memRetrain p (BitVec.ofNat 28 (0x9C00000 + 4096 * c.val))) s) ∧
      (Does (.scrubNow p 0x9C00000) s fun t => t = { s.m with mem := { s.m.mem with scrubbing := true } }) ∧
      (∀ (hi : BitVec 28) (i : Instr), i ∈ [.memRetrain p hi, .scrubNow p hi] → fld hi 27 20 ≠ 0x9C ∨ fld hi 19 13 ≠ 0 ∨ fld hi 11 0 ≠ 0 →
        RefusesAs .mem 8 i s)) ∧
    ((s.m.mem.ch c.val).retrainPend = true → (s.m.mem.ch c.val).st = .ready →
      (inBuild s.m = false ∨ s.m.job.st ≠ .exposing → Does (.retrainRun c) s fun t =>
        t = onCh c (fun x => { x with st := .retraining, retrainPend := false }) s.m) ∧
      (inBuild s.m = true → s.m.job.st = .exposing → Does (.retrainRun c) s (· = s.m))) ∧
    (∀ rd wr (e : Env), (s.m.mem.ch c.val).st = .retraining → s.m.job.resumeWaits = false →
      (Does (.retrainEnd c true rd wr e) s fun t =>
        (t.mem.ch c.val).st = .ready ∧ (t.mem.ch c.val).winRd = rd ∧ (t.mem.ch c.val).winWr = wr ∧ (t.mem.ch c.val).trainNone = false ∧
        (t.mem.ch c.val).trains = (s.m.mem.ch c.val).trains + 1 ∧ raised t .mem 2 = true ∧ t.mgt.repairs = s.m.mgt.repairs + 1) ∧
      (Does (.retrainEnd c false rd wr e) s fun t =>
        (t.mem.ch c.val).st = .ready ∧ (t.mem.ch c.val).trainNone = true ∧ (t.mem.ch c.val).winRd = (s.m.mem.ch c.val).winRd ∧
        raised t .mem 3 = true)) ∧
    (∀ ok rd wr e, (s.m.mem.ch c.val).st ≠ .retraining → Does (.retrainEnd c ok rd wr e) s (· = s.m)) ∧
    (∀ (bank : Fin 16) (reads : List RdReq),
      ((s.m.mem.ch c.val).st ≠ .ready → Does (.refreshDue c bank reads) s (· = s.m)) ∧
      ((s.m.mem.ch c.val).st = .ready → look (fun _ => 0) (s.m.mem.ch c.val).postponed bank.val < 8 →
        (∃ k ∈ (s.m.mem.ch c.val).writeQ, bankOf k = bank.val) ∨
        (∃ r ∈ (s.m.mem.ch c.val).readQ ++ (s.m.mem.ch c.val).readWait, bankOf r.block = bank.val) → Does (.refreshDue c bank reads) s fun t =>
          t = onCh c (fun x => { x with postponed := put (fun _ => 0) x.postponed bank.val (look (fun _ => 0) x.postponed bank.val + 1) })
            (acceptReads c reads s.m)) ∧
      ((s.m.mem.ch c.val).st = .ready →
        look (fun _ => 0) (s.m.mem.ch c.val).postponed bank.val = 8 ∨
        ((∀ k ∈ (s.m.mem.ch c.val).writeQ, bankOf k ≠ bank.val) ∧ reads = [] ∧ (s.m.mem.ch c.val).readQ = [] ∧ (s.m.mem.ch c.val).readWait = []) →
        Does (.refreshDue c bank reads) s fun t =>
          (t.mem.ch c.val).postponed = put (fun _ => 0) (s.m.mem.ch c.val).postponed bank.val 0 ∧
          (t.mem.ch c.val).openRow = put (fun _ => 0) (s.m.mem.ch c.val).openRow bank.val 0 ∧
          (∀ e ∈ (t.mem.ch c.val).nbr, e.1 ≠ bank.val) ∧ (∀ e ∈ (s.m.mem.ch c.val).nbr, e.1 = bank.val → raised t .mem 4 = true) ∧
          Frame [.mem, .ev .mem, .msix, .outs] s.m t)) ∧
    ((s.m.mem.ch c.val).readQ = [] → (s.m.mem.ch c.val).readWait = [] → Does (.writeQueueDrain c []) s fun t =>
      (t.mem.ch c.val).writeQ = [] ∧ Frame [.mem, .ev .mem, .msix, .outs] s.m t) ∧
    (∀ reads : List RdReq, (∃ r ∈ reads, chanOf r.block = c.val) ∨ (s.m.mem.ch c.val).readQ ≠ [] ∨ (s.m.mem.ch c.val).readWait ≠ [] →
      Does (.writeQueueDrain c reads) s fun t =>
        (t.mem.ch c.val).writeQ = (if 48 ≤ (s.m.mem.ch c.val).writeQ.length then
          (s.m.mem.ch c.val).writeQ.drop ((s.m.mem.ch c.val).writeQ.length - 16) else (s.m.mem.ch c.val).writeQ) ∧
        Frame [.mem, .ev .mem, .msix, .outs] s.m t) ∧
    (∀ (bank : Fin 16) (row : BitVec 16),
      ((s.m.mem.ch c.val).st = .ready → (bank.val, row.toNat) ∈ (s.m.mem.ch c.val).nbr → Does (.hotRowRefresh c bank row) s fun t =>
        t.mem.hotRef = s.m.mem.hotRef + 1 ∧ (bank.val, row.toNat, 0) ∈ (t.mem.ch c.val).hot ∧ (bank.val, row.toNat) ∉ (t.mem.ch c.val).nbr ∧
        raised t .mem 4 = true ∧ Frame [.mem, .ev .mem, .msix, .outs] s.m t) ∧
      ((bank.val, row.toNat) ∉ (s.m.mem.ch c.val).nbr → Does (.hotRowRefresh c bank row) s (· = s.m))) ∧
    (s.m.boot.recPend = [] → Does .hotRowWindow s fun t => (t.mem.ch c.val).hot = [] ∧ Frame [.mem] s.m t) ∧
    (∀ t0 t1 r0 r1 h0 h1, s.m.mem.trained = true → Does (.mr4Poll t0 t1 r0 r1 h0 h1) s fun t =>
      t.mem.ch0.temp = t0 ∧ t.mem.ch1.temp = t1 ∧ t.mem.ch0.refMult = r0 ∧ t.mem.ch1.refMult = r1 ∧ t.hlt.dramHot = (h0 || h1) ∧
      ((h0 || h1) = true → raised t .mem 5 = true)) ∧
    (s.m.mem.trained = true → s.m.mem.poison = [] → Does (.scrubPassStart {}) s fun t => t = { s.m with mem := { s.m.mem with scrubbing := true } }) ∧
    (∀ e, s.m.mem.trained = true → Does (.scrubPassStart e) s fun t => t.mem.scrubbing = true ∧
      ∀ k ∈ s.m.mem.poison ++ e.ue, k ∉ (s.m.mem.ch (chanOf k)).writeQ → k ∈ t.mem.poison ∧ raised t .mem 1 = true) ∧
    (∀ e, s.m.mem.trained = false → Does (.scrubPassStart e) s (· = s.m)) ∧
    (s.m.mem.scrubbing = true → Does .scrubPassDone s fun t =>
      t.mem = { s.m.mem with scrubbing := false, scrubPasses := s.m.mem.scrubPasses + 1 } ∧ raised t .mem 6 = true ∧
      Frame [.mem, .ev .mem, .msix, .outs] s.m t) ∧
    (s.m.mem.scrubbing = false → Does .scrubPassDone s (· = s.m))

/-- R680, R685, R686, R688 to R696, R698, R709, R710, R716: the clock monitor and the forced fallback, the other PLLs, XTAL32, the clock
outputs and gates, and the supplies that are watched. A trip stops device time and PERMIT until the root has locked on the backup RC. -/
def Obligations.ClocksAndSupplies : Prop :=
  ∀ s : State,
    (∀ cause, monitorActs s.m = true → Does (.clockMonitorTrip cause) s fun t =>
      t.clk.fallback = .rcWait ∧ t.clk.tripCause = cause ∧ t.clk.tripInhibit = true ∧ t.clk.lock = 0 ∧ t.clk.gateClosed = 0 ∧
      t.time.running = false ∧ t.time.dt = s.m.time.dt ∧ t.ilk.permit = false ∧ raised t .clk 0 = true) ∧
    (∀ cause, monitorActs s.m = false → Does (.clockMonitorTrip cause) s (· = s.m)) ∧
    (s.m.clk.fallback = .rcWait → Does .fallbackRcQualified s fun t =>
      t = { s.m with clk := { s.m.clk with rcQual := true, rootRef := 3, fallback := .pllWait } }) ∧
    (∀ gap, s.m.clk.fallback = .pllWait → Does (.fallbackPllLocked gap) s fun t =>
      t.clk.fallback = .firmwareWait ∧ bitOf t.clk.lock 0 = true ∧ t.time.running = true ∧ t.time.degraded = true ∧
      t.time.map = s.m.time.map) ∧
    (s.m.clk.fallback = .firmwareWait →
      (inWork s.m = true → Does (.fallbackFirmwareReady true) s fun t =>
        t.clk.fallback = .onBackup ∧ t.g.dev = .safeHold ∧ t.g.safeByFault = true ∧ t.mgt.safeCause = 0xC001) ∧
      (Does (.fallbackFirmwareReady false) s fun t => t = { s.m with clk := { s.m.clk with fallback := .dead } })) ∧
    (s.m.clk.fallback = .rcWait ∨ s.m.clk.fallback = .pllWait → Does .fallbackTimeout s fun t =>
      t = { s.m with clk := { s.m.clk with fallback := .dead } }) ∧
    (s.m.clk.fallback = .none → ∀ c ∈ [Instr.fallbackRcQualified, .fallbackPllLocked 0, .fallbackFirmwareReady true, .fallbackTimeout, .backupRcStopped],
      Does c s (· = s.m)) ∧
    (s.m.clk.rootRef = 3 → s.m.clk.fallback ≠ .none → Does .backupRcStopped s fun t =>
      t.clk.fallback = .dead ∧ t.clk.rcQual = false ∧ t.time.running = false ∧ t.clk.lock = 0) ∧
    (∀ i : Fin 6, i.val ≠ 0 → monitorActs s.m = true →
      (∀ lost, pllLocked s.m i.val = true → Does (.pllUnlock i lost) s fun t =>
        bitOf t.clk.lock i.val = false ∧ raised t .clk 1 = true ∧
        (i.val = 1 ∨ i.val = 5 → inWork s.m = true → t.g.dev = .safeHold) ∧
        (i.val = 2 → ∀ l : Fin 28, l.val < 14 → t.lanes[l].st ≠ .up) ∧ (i.val = 3 → ∀ l : Fin 28, 14 ≤ l.val → t.lanes[l].st ≠ .up) ∧
        (i.val = 4 → t.g.linkUp = false)) ∧
      (pllLocked s.m i.val = false → Does (.pllRelock i) s fun t =>
        bitOf t.clk.lock i.val = true ∧ (i.val ≠ 5 → Frame [.clk] s.m t))) ∧
    (s.m.aon.mains = true → Does .xtal32Fail s fun t =>
      t.aon = { s.m.aon with rtcRun := false } ∧ t.clk = { s.m.clk with xtalQual := false } ∧ raised t .clk 4 = true ∧
      Frame [.aon, .clk, .ev .clk, .msix, .outs] s.m t) ∧
    (Does .xtal32Qualified s fun t => t = { s.m with
      aon := { s.m.aon with rtcRun := s.m.aon.mains || bitOf s.m.aon.stby 0 }, clk := { s.m.clk with xtalQual := true } }) ∧
    (∀ (p : Port) (c : Fin 2) (v : Word), WriteOpen s.m p (0xF0010 + 4 * c.val) →
      ((s.m.clk.out c).pend = none → Does (.clkoutSrcWrite p c v) s fun t =>
        (t.clk.out c).div = BitVec.ofNat 8 (fld v 15 8) ∧ (t.clk.out c).src = (s.m.clk.out c).src ∧
        (t.clk.out c).pend = (if BitVec.ofNat 2 (fld v 1 0) = (s.m.clk.out c).src then none else some (BitVec.ofNat 2 (fld v 1 0))) ∧
        Frame [.clk] s.m t) ∧
      ((s.m.clk.out c).pend ≠ none → Does (.clkoutSrcWrite p c v) s fun t => raised t .glb 4 = true ∧ t.clk = s.m.clk)) ∧
    (∀ (c : Fin 2) (src : BitVec 2), (s.m.clk.out c).pend = some src →
      (sourceRuns s.m (s.m.clk.out c).src = true → sourceRuns s.m src = true → Does (.clkoutSwitchDone c) s fun t =>
        (t.clk.out c).src = src ∧ (t.clk.out c).pend = none ∧ (t.clk.out c).div = (s.m.clk.out c).div ∧ Frame [.clk] s.m t) ∧
      (sourceRuns s.m (s.m.clk.out c).src = false ∨ sourceRuns s.m src = false → Does (.clkoutSwitchDone c) s (· = s.m)) ∧
      ((s.m.clk.out c).stuck = false → Does (.switchStuck c) s fun t =>
        (t.clk.out c).stuck = true ∧ (t.clk.out c).pend = some src ∧ raised t .clk 2 = true)) ∧
    (∀ c : Fin 2, (s.m.clk.out c).pend = none → Does (.switchStuck c) s (· = s.m)) ∧
    (∀ v : Word, WriteOpen s.m .mgmt 0xF0020 → Does (.clkGateRequest .mgmt v) s fun t =>
      (∀ i < 14, bitOf t.clk.gateReq i = if bitOf v (16 + i) then bitOf v i else bitOf s.m.clk.gateReq i) ∧
      (∀ i < 14, bitOf t.clk.gateClosed i = (bitOf s.m.clk.gateClosed i && bitOf t.clk.gateReq i)) ∧ Frame [.clk] s.m t) ∧
    (∀ v : Word, WriteOpen s.m .host 0xF0020 → Does (.clkGateRequest .host v) s (· = s.m)) ∧
    (∀ i : Fin 14,
      (bitOf s.m.clk.gateReq i.val = true → Does (.gateClose i) s fun t =>
        bitOf t.clk.gateClosed i.val = true ∧ t.clk.gateReq = s.m.clk.gateReq ∧ Frame [.clk] s.m t) ∧
      (bitOf s.m.clk.gateReq i.val = false → Does (.gateClose i) s (· = s.m) ∧ Does (.gateTimeout i) s (· = s.m)) ∧
      (bitOf s.m.clk.gateReq i.val = true → bitOf s.m.clk.gateClosed i.val = false → Does (.gateTimeout i) s fun t =>
        bitOf t.clk.gateReq i.val = false ∧ t.clk.gateErrs = s.m.clk.gateErrs + 1 ∧ raised t .clk 3 = true)) ∧
    (s.m.aon.mains = true → Does (.vbatLowSample true) s fun t => raised t .pwr 1 = true ∧ Frame [.ev .pwr, .msix, .outs] s.m t) ∧
    (Does (.vbatLowSample false) s (· = s.m)) ∧
    (∀ d : Fin 12, powered s.m = true → domainOn s.m d.val = true → inWork s.m = true → Does (.powerGoodLost d) s fun t =>
      t.g.dev = .safeHold ∧ t.g.safeByFault = true ∧ t.mgt.safeCause = 0xC004 ∧ raised t .pwr 2 = true) ∧
    (∀ d : Fin 12, domainOn s.m d.val = false → Does (.powerGoodLost d) s (· = s.m))

/-- R717 to R725, R733, R742 to R747: temperatures and the throttle, thermal shutdown, core voltage, ageing, the hourly counts and the
margin plan's lane scans. -/
def Obligations.HealthWatch : Prop :=
  ∀ s : State, logAlive s.m = true →
    (∀ core io mv : BitVec 16, pendingOf s.m recHltTherm = none → Does (.tempRead core io mv) s fun t =>
      t.hlt.tempCore = core ∧ t.hlt.tempIo = io ∧ t.hlt.vcoreMv = mv ∧
      (s.m.hlt.stage = .normal → ((recFld s.m recHltTherm 0 7 0 * 16 : Nat) : Int) ≤ max core.toInt io.toInt →
        t.hlt.stage = .ask ∧ raised t .hlt 15 = true ∧ raised t .hlt 16 = true)) ∧
    (s.m.hlt.stage = .ask → heldFor s.m s.m.hlt.hotSince (recWord s.m recHltTherm 1).toNat = true → Does .throttleTimer s fun t =>
      t.hlt.stage = .reduce ∧ t.hlt.kappaM = s.m.hlt.kappaM ∧ raised t .hlt 16 = true) ∧
    (s.m.hlt.stage = .reduce → heldFor s.m s.m.hlt.hotSince (recWord s.m recHltTherm 2).toNat = true → Does .throttleTimer s fun t =>
      t.hlt.stage = .slow ∧ t.hlt.kappaM = s.m.hlt.kappaM + 1 ∧ raised t .hlt 16 = true) ∧
    (s.m.hlt.stage = .slow → heldFor s.m s.m.hlt.hotSince (recWord s.m recHltTherm 3).toNat = true → s.m.hlt.kappaM < 10 → Does .throttleTimer s fun t =>
      t.hlt.stage = .slow ∧ t.hlt.kappaM = s.m.hlt.kappaM + 1 ∧ raised t .hlt 16 = true) ∧
    (s.m.hlt.stage = .slow → heldFor s.m s.m.hlt.hotSince (recWord s.m recHltTherm 3).toNat = false → recovered s.m = true → Does .throttleTimer s fun t =>
      t.hlt.stage = (if s.m.hlt.kappaM ≤ 1 then .reduce else .slow) ∧ t.hlt.kappaM = s.m.hlt.kappaM - 1 ∧ raised t .hlt 16 = true) ∧
    (s.m.hlt.stage = .reduce → heldFor s.m s.m.hlt.hotSince (recWord s.m recHltTherm 2).toNat = false → recovered s.m = true → Does .throttleTimer s fun t =>
      t.hlt.stage = .normal ∧ t.hlt.kappaM = s.m.hlt.kappaM ∧ raised t .hlt 16 = true) ∧
    (s.m.hlt.stage = .normal ∨ heldFor s.m s.m.hlt.hotSince 0 = false ∧ heldFor s.m s.m.hlt.coolSince 0 = false → Does .throttleTimer s (· = s.m)) ∧
    (powered s.m = true → Does .thermalShutdown s fun t =>
      t.g.dev = .shutdownLatched ∧ t.aon.shutdown = 1 ∧ t.ilk.inhThermal = true ∧ t.clk.domains = 3 ∧ t.g.linkUp = false ∧ t.hlt.runs = []) ∧
    (s.m.hlt.vcore.toNat < recFld s.m recHltPlan 0 4 0 → (∀ at_, s.m.hlt.raisedAt = some at_ → at_ + 10000000000 ≤ now s.m) →
      Does .canaryLimit s fun t =>
        t.hlt.vcore = BitVec.ofNat 5 (s.m.hlt.vcore.toNat + 1) ∧ t.hlt.raises = s.m.hlt.raises + 1 ∧ t.hlt.raisedAt = some (now s.m) ∧
        raised t .hlt 1 = true ∧ t.mgt.repairs = s.m.mgt.repairs + 1) ∧
    (recFld s.m recHltPlan 0 4 0 ≤ s.m.hlt.vcore.toNat → Does .canaryLimit s fun t =>
      raised t .hlt 17 = true ∧ t.hlt.vcore = s.m.hlt.vcore ∧ t.hlt.exhaustedAt = some (now s.m)) ∧
    (∀ mv : BitVec 16,
      (15 < ((mv.toNat : Int) - (720 + 5 * s.m.hlt.vcore.toNat)).natAbs → Does (.vcoreMismatch mv) s fun t =>
        t.hlt.vcoreMv = mv ∧ raised t .hlt 18 = true) ∧
      (((mv.toNat : Int) - (720 + 5 * s.m.hlt.vcore.toNat)).natAbs ≤ 15 → Does (.vcoreMismatch mv) s (· = s.m))) ∧
    (∀ d : Word, Does (.touchstoneMeasure d) s fun t =>
      t.hlt.dMax = d ∧ ((recWord s.m recHltPlan 1).toNat < d.toNat → raised t .hlt 2 = true)) ∧
    (Does .marginHourlyCheck s fun t =>
      t.hlt.ceBase = s.m.mem.ce ∧
      ((recWord s.m recHltPlan 5).toNat < wsub s.m.mem.ce s.m.hlt.ceBase →
        t.mem.ch0.retrainPend = true ∧ t.mem.ch1.retrainPend = true ∧ raised t .hlt 5 = true)) ∧
    (∀ l : Fin 28, s.m.hlt.eyeNext = l.val → laneUp s.m l = true → Does .eyeScanSchedule s fun t =>
      t.lanes[l].scanning = true ∧ t.hlt.eyeNext = (l.val + 1) % 28 ∧ l.val ∈ t.hlt.planScan ∧ Frame [.lanes, .hlt] s.m t) ∧
    ((∀ l, laneUp s.m l = false) → Does .eyeScanSchedule s (· = s.m)) ∧
    (∀ l : Fin 28,
      (l.val ∈ s.m.hlt.laneWait → laneUp s.m l = true → mayRetrain s.m l = true → (∀ e ∈ s.m.hlt.laneReqAt, e.1 ≠ l.val) →
        Does (.laneRetrainRequest l) s fun t =>
          t.lanes[l].st = .equalise ∧ t.lanes[l].retrains = s.m.lanes[l].retrains + 1 ∧ l.val ∉ t.hlt.laneWait ∧ l.val ∈ t.hlt.planScan ∧
          (l.val, now s.m) ∈ t.hlt.laneReqAt) ∧
      (l.val ∉ s.m.hlt.laneWait ∨ laneUp s.m l = false ∨ mayRetrain s.m l = false → Does (.laneRetrainRequest l) s (· = s.m)))

/-- R726 to R741, R748, R757: laser sources, mirror resonances and calibration. A run's result is applied in steps after its assay
passes; a failed one changes no register. -/
def Obligations.LasersAndCalibration : Prop :=
  ∀ s : State,
    (∀ (b : Fin 12) (sig : Nat), monSig s.m b = some sig → logAlive s.m = true →
      (s.m.beams[b].gate = true → 0 < s.m.hlt.lasers[b].code * pMax s.m b →
        s.m.hlt.lasers[b].since + (recWord s.m (recHltLaser b.val) 3).toNat * 1000 ≤ now s.m → Does (.laserMonSample b) s fun t =>
          t.hlt.lasers[b] = { s.m.hlt.lasers[b] with n := s.m.hlt.lasers[b].n + 1, sum := s.m.hlt.lasers[b].sum + laserRatio s.m b sig } ∧
          (∀ k, k ≠ b → t.hlt.lasers[k] = s.m.hlt.lasers[k]) ∧ Frame [.hlt] s.m t) ∧
      (s.m.beams[b].gate = false → Does (.laserMonSample b) s (· = s.m)) ∧
      (s.m.hlt.lasers[b].n ≠ 0 → Does (.laserRatioUpdate b) s fun t =>
        t.hlt.lasers[b].ratio = ((s.m.hlt.lasers[b].ratio : Int) +
          divR (s.m.hlt.lasers[b].sum - s.m.hlt.lasers[b].n * s.m.hlt.lasers[b].ratio)
            (s.m.hlt.lasers[b].n * (recWord s.m (recHltLaser b.val) 4).toNat : Nat)).toNat ∧
        t.hlt.lasers[b].n = 0 ∧ t.hlt.lasers[b].sum = 0 ∧ Frame [.hlt] s.m t) ∧
      (s.m.hlt.lasers[b].n = 0 → Does (.laserRatioUpdate b) s (· = s.m)) ∧
      (s.m.g.dev ≠ .proof → Does (.laserEvaluation b) s fun t =>
        t.hlt.lasers[b].nextGain = BitVec.ofNat 16 (laserGain s.m.hlt.lasers[b].ratio (recFld s.m (recHltLaser b.val) 6 15 0)) ∧
        t.imp.beams[b].margin = BitVec.ofNat 16
          (laserWeight s.m.hlt.lasers[b].ratio (recFld s.m (recHltLaser b.val) 5 15 0) (recFld s.m (recHltLaser b.val) 5 31 16)) ∧
        (s.m.hlt.lasers[b].ratio < recFld s.m (recHltLaser b.val) 5 31 16 * 65536 → 1 ≤ s.m.hlt.lasers[b].low → beamLive s.m b = true →
          t.imp.beams[b].cause = 5 ∧ raised t .hlt 9 = true)) ∧
      (s.m.g.dev = .proof → Does (.laserEvaluation b) s (· = s.m))) ∧
    (∀ b, monSig s.m b = none → ∀ c ∈ [Instr.laserMonSample b, .laserRatioUpdate b, .laserEvaluation b], Does c s (· = s.m)) ∧
    (∀ (e : Fin 64) (k : Fin 256) (kk : Nat) (ch : Fin 2) (tune drift : Nat) (c : Fin 128) (d : CtxDesc) (peak : Word),
      notchEntry s.m e.val = some (k, kk, ch, tune, drift) → s.m.cells.ctx[k].cell = some c → ctxOf s.m k = some d → logAlive s.m = true →
      s.m.job.st = .exposing → d.beam < 12 → beamLive s.m (Fin.ofNat 12 d.beam) = true →
      (∀ edge, Regs.wf s.m.regs → (e.val, c.val, ch.val) ∉ s.m.hlt.notch → Does (.notchMeasure e peak edge) s fun t =>
        (e.val, c.val, ch.val) ∈ t.hlt.notch ∧ t.hlt.retune = s.m.hlt.retune ∧ regGet t (offTrc c ch + 12) = 1) ∧
      ((e.val, c.val, ch.val) ∈ s.m.hlt.notch →
        (Does (.notchMeasure e peak true) s fun t => raised t .hlt 11 = true ∧ t.hlt.retune = s.m.hlt.retune) ∧
        (tune * 1000 + ((bankOfCtx s.m k).getD kk 0).toNat < peak.toNat →
          peak.toNat ≤ ((ctxBank (cellSec s.m) d).getD kk 0).toNat + drift * 1000 →
          ((ctxBank (cellSec s.m) d).getD kk 0).toNat ≤ peak.toNat + drift * 1000 → Does (.notchMeasure e peak false) s fun t =>
            t.hlt.retune = s.m.hlt.retune.filter (fun r => r.1 ≠ e.val) ++ [(e.val, peak.toNat)] ∧ Frame [.hlt] s.m t))) ∧
    (∀ (e : Fin 64) (peak : Word) (edge : Bool), notchEntry s.m e.val = none → Does (.notchMeasure e peak edge) s (· = s.m)) ∧
    (∀ (e : Fin 64) (k : Fin 256) (kk : Nat) (ch : Fin 2) (tune drift i f : Nat), notchEntry s.m e.val = some (k, kk, ch, tune, drift) →
      s.m.hlt.retune.find? (fun r => r.1 = e.val) = some (i, f) → s.m.g.dev = .configured → pendingOf s.m (recCoef k.val) = none →
      Does (.notchRetuneCommit e) s fun t =>
        t.hlt.retune = s.m.hlt.retune.filter (fun r => r.1 ≠ e.val) ∧
        ((mgmtCommit (recCoef k.val) ((bankOfCtx s.m k).set kk (BitVec.ofNat 32 f))
            (onHlt (fun h => { h with retune := h.retune.filter (fun r => r.1 ≠ e.val) }) s.m)).1 = true →
          raised t .hlt 10 = true ∧ t.mgt.repairs = s.m.mgt.repairs + 1)) ∧
    (∀ e : Fin 64, s.m.hlt.retune = [] → Does (.notchRetuneCommit e) s (· = s.m)) ∧
    (∀ (p : Port) (hi : BitVec 28), WriteOpen s.m p 0x100040 →
      (fld hi 27 20 = 0xA3 → fld hi 19 9 = 0 → fld hi 3 0 = 0 → s.m.g.dev ≠ .safeHold → Does (.cal p hi) s fun t =>
        (∀ d < 5, bitOf hi (4 + d) = true → ∀ u ∈ domainUnits s.m d, calBusy t u = true) ∧ Frame [.hlt] s.m t) ∧
      (fld hi 27 20 ≠ 0xA3 ∨ fld hi 19 9 ≠ 0 ∨ fld hi 3 0 ≠ 0 ∨ s.m.g.dev = .safeHold → RefusesAs .hlt 19 (.cal p hi) s)) ∧
    (∀ (u : CalUnit) (r : CalMeas), s.m.hlt.runs.any (fun x => x.unit = u && x.target.isNone) = true →
      (assay s.m u r = true → Does (.calRunDone u r) s fun t =>
        raised t .hlt 13 = true ∧ t.regs = (raise .hlt 13 s.m).regs ∧ t.hlt.failed = s.m.hlt.failed.filter (fun f => f.1 ≠ u) ∧
        t.hlt.runs = s.m.hlt.runs.filter (fun x => x.unit ≠ u) ++
          [⟨u, decide (u.domain = domDac) && !dacWhole s.m u.index, some (calTarget s.m u r)⟩]) ∧
      (assay s.m u r = false → Does (.calRunDone u r) s fun t =>
        raised t .hlt 13 = true ∧ raised t .hlt 14 = true ∧ (u, unitTemp s.m u) ∈ t.hlt.failed ∧ calBusy t u = false)) ∧
    (∀ (u : CalUnit) (r : CalMeas), calBusy s.m u = false → Does (.calRunDone u r) s (· = s.m) ∧ Does (.calStep u) s (· = s.m)) ∧
    (∀ (u : CalUnit) (run : CalRun) (ws : List (Nat × Word)), Regs.wf s.m.regs → s.m.hlt.runs.find? (fun x => x.unit = u) = some run → run.target = some ws →
      u.domain ≠ domDac → Does (.calStep u) s fun t =>
        (∀ o w, nextStep s.m u.domain ws = some (o, w) → regGet t o = w ∧ ∀ q, q ≠ o → regGet t q = regGet s.m q) ∧
        (nextStep s.m u.domain ws = none → t.regs = s.m.regs ∧ calBusy t u = run.again))

/-- R763 to R767, R771 to R773, R783 to R785: the mailbox, the log's way to staging and to the NVM partition, and the watchdog. -/
def Obligations.Mailbox : Prop :=
  ∀ s : State,
    (∀ e ∈ [(1, Instr.echo), (2, .info), (3, .logFetch), (4, .logFlush), (5, .netArm), (6, .rtcSet)],
      (∀ tag : Fin 256, WriteOpen s.m .host 0x110010 → s.m.mgt.mbState ≠ .busy → Does (e.2 .host (BitVec.ofNat 28 (0xD900000 + 4096 * tag.val))) s fun t =>
        t = { s.m with mgt := { s.m.mgt with mbState := .busy, mbTag := BitVec.ofNat 8 tag.val, mbOp := BitVec.ofNat 4 e.1 } }) ∧
      (∀ hi, WriteOpen s.m .host 0x110010 → s.m.mgt.mbState = .busy ∨ fld hi 27 20 ≠ 0xD9 ∨ fld hi 11 0 ≠ 0 → Refuses (e.2 .host hi) s) ∧
      (∀ hi, WriteOpen s.m .mgmt 0x110010 → Does (e.2 .mgmt hi) s (· = s.m))) ∧
    (s.m.mgt.mbState ≠ .busy → Does .mbReply s (· = s.m)) ∧
    (s.m.mgt.mbState = .busy → Does .mbReply s fun t =>
      t.mgt.mbState = .done ∧ raised t .mgt 0 = true ∧ t.mgt.mbTag = s.m.mgt.mbTag ∧
      (s.m.mgt.mbOp = 1 → t.mgt.mbResult = 0 ∧ t.mgt.mbRes = s.m.mgt.mbArgs) ∧
      (s.m.mgt.mbOp = 2 → t.mgt.mbResult = 0 ∧ t.mgt.mbRes[0] = s.m.boot.fwVer ∧ t.mgt.mbRes[3] = s.m.mgt.wdogCount) ∧
      (s.m.mgt.mbOp = 3 → s.m.mgt.mbArgs[1] = 0 → t.mgt.mbResult = 1 ∧ t.mem = s.m.mem) ∧
      (s.m.mgt.mbOp = 4 → t.mgt.mbResult = 0 ∧ t.mgt.waiting = [] ∧ t.mgt.mbRes[0] = t.mgt.logFlushed) ∧
      (s.m.mgt.mbOp = 5 → s.m.mgt.mbArgs[0] ≠ 0 → (s.m.mgt.mbArgs[0]).toNat ≤ 3600 →
        t.mgt.mbResult = 0 ∧ t.mgt.netWindow = some s.m.mgt.mbArgs[0]) ∧
      (s.m.mgt.mbOp = 5 → s.m.mgt.mbArgs[0] = 0 → t.mgt.mbResult = 0 ∧ t.mgt.netWindow = none) ∧
      (s.m.mgt.mbOp = 6 → s.m.time.servo = .locked → t.mgt.mbResult = 1 ∧ t.aon = s.m.aon) ∧
      (s.m.mgt.mbOp = 6 → s.m.time.servo ≠ .locked →
        t.mgt.mbResult = 0 ∧ t.aon.rtc = BitVec.ofNat 48 ((s.m.mgt.mbArgs[0]).toNat + fld s.m.mgt.mbArgs[1] 15 0 * 2 ^ 32)) ∧
      (6 < s.m.mgt.mbOp.toNat → t.mgt.mbResult = 2)) ∧
    (powered s.m = true →
      (s.m.mgt.wdogCount = 0 → Does (.mgmtWatchdogExpire true) s fun t =>
        t.mgt.wdogCount = 1 ∧ t.mgt.wdogAt = s.m.time.dt ∧ raised t .mgt 4 = true ∧ t.mgt.repairs = s.m.mgt.repairs + 1 ∧ t.g.dev = s.m.g.dev ∧
        (s.m.mgt.mbState = .busy → t.mgt.mbState = .done ∧ t.mgt.mbResult = 3)) ∧
      (inWork s.m = true → Does (.mgmtWatchdogExpire false) s fun t =>
        t.mgt.wdogCount = s.m.mgt.wdogCount + 1 ∧ t.g.dev = .safeHold ∧ t.mgt.safeCause = 0xE001 ∧ raised t .mgt 4 = true)) ∧
    (∀ e q, s.m.mgt.ring = e :: q → Memory.wf s.m.mem → s.m.mem.trained = true → hostHeld s.m = false → stageCap s.m ≠ 0 →
      Does .logStageCopy s fun t =>
        t.mgt.ring = q ∧ t.mgt.logWr.toNat = (s.m.mgt.logWr.toNat + 1) % stageCap s.m % 2 ^ 32 ∧
        ∀ i < 32, memByte t ((region s.m 5).1 + 32 * s.m.mgt.logWr.toNat + i) = (LogEnt.bytes e).getD i 0) ∧
    (s.m.mgt.ring = [] → Does .logStageCopy s (· = s.m)) ∧
    (∀ bad, Does (.logNvmFlush bad) s fun t =>
      t.mgt.waiting = [] ∧ t.mgt.ring = s.m.mgt.ring ∧ (∀ e, s.m.mgt.waiting.getLast? = some e → t.mgt.logFlushed = e.seq) ∧
      (∀ e, s.m.mgt.waiting.getLast? = some e → (nvmEntries t).getLast? = some e))

/-- R779, R780, R782, R783: updates and log requests over Ethernet, and ETH_LOS. -/
def Obligations.NetTransfers : Prop :=
  ∀ s : State,
    (∀ (sender : BitVec 32) (id len : Word),
      (netArmed s.m = false → Does (.updBegin sender id len) s (· = s.m)) ∧
      (netArmed s.m = true → 256 ≤ len.toNat → len.toNat ≤ 50331648 → len.toNat ≤ (region s.m 6).2 → updBusy s.m = false → s.m.boot.rlState = .idle →
        s.m.mgt.xfer = none → Does (.updBegin sender id len) s fun t =>
          t = { s.m with mgt := { s.m.mgt with xfer := some ⟨sender, id, len.toNat, []⟩ } }) ∧
      (netArmed s.m = true → len.toNat < 256 ∨ 50331648 < len.toNat ∨ s.m.mgt.xfer.isSome = true → Does (.updBegin sender id len) s fun t =>
        t.outs = .datagram sender (updPort s.m) (leBytes 2 0x82 ++ leBytes 2 0 ++ leBytes 4 id.toNat ++ leBytes 4 0 ++ leBytes 4 (9 * 2 ^ 28)) :: s.m.outs ∧
        Frame [.outs] s.m t)) ∧
    (∀ (x : NetXfer) (off : Word) (bs : List Byte), s.m.mgt.xfer = some x →
      (Memory.wf s.m.mem → netArmed s.m = true → 1 ≤ bs.length → bs.length ≤ 1024 → off.toNat + bs.length ≤ x.len →
        Does (.updData x.sender x.id off bs) s fun t =>
          t.mgt.xfer = some { x with got := x.got ++ [(off.toNat, bs.length)] } ∧
          ∀ i < bs.length, memByte t ((region s.m 6).1 + off.toNat + i) = bs.getD i 0) ∧
      (∀ sender id, sender ≠ x.sender ∨ id ≠ x.id → Does (.updData sender id off bs) s (· = s.m) ∧ Does (.updEnd sender id) s (· = s.m)) ∧
      (netArmed s.m = true → x.len ≤ gapless x.got.length x.got 0 → updBusy s.m = true ∨ s.m.boot.rlState ≠ .idle →
        Does (.updEnd x.sender x.id) s fun t => t.mgt.xfer = none ∧ raised t .mgt 5 = true ∧ t.boot = s.m.boot) ∧
      (netArmed s.m = true → x.len ≤ gapless x.got.length x.got 0 → updBusy s.m = false → s.m.boot.rlState = .idle → updAllowed s.m = true →
        256 ≤ x.len → x.len ≤ 50331648 → x.len ≤ (region s.m 6).2 → (region s.m 6).1 % 64 = 0 → (region s.m 6).1 < 2 ^ 33 →
        Does (.updEnd x.sender x.id) s fun t =>
          t.boot.updStage = .checking ∧ t.boot.updBy = .net ∧ t.boot.updResult = 0 ∧ updSrc t = (region s.m 6).1)) ∧
    (∀ (sender : BitVec 32) (id first count : Word),
      (netLive s.m = true → recFld s.m recMgtNet 0 1 1 = 1 → 1 ≤ count.toNat → count.toNat ≤ 32 → Does (.logReq sender id first count) s fun t =>
        (∃ body, t.outs = .datagram sender (updPort s.m) body :: s.m.outs ∧
          body.drop 16 = (entriesFrom (nvmEntries s.m ++ s.m.mgt.waiting) first count.toNat).flatMap LogEnt.bytes) ∧ Frame [.outs] s.m t) ∧
      (recFld s.m recMgtNet 0 1 1 = 0 → Does (.logReq sender id first count) s (· = s.m))) ∧
    (s.m.mgt.xfer.isSome = true → updBusy s.m = false →
      (Does .netTransferIdle s fun t => t.mgt.xfer = none ∧ raised t .mgt 5 = true ∧ t.mgt.netWindow = s.m.mgt.netWindow) ∧
      (Does .netWindowClose s fun t => t.mgt.xfer = none ∧ raised t .mgt 5 = true ∧ t.mgt.netWindow = none)) ∧
    (s.m.mgt.xfer = none →
      Does .netTransferIdle s (· = s.m) ∧ Does .netWindowClose s fun t => t = { s.m with mgt := { s.m.mgt with netWindow := none } }) ∧
    (∀ (p : Fin 2) (los : Bool), Does (.ethLos p los) s fun t =>
      (t.mgt.eth p).los = los ∧ (los = true → (t.mgt.eth p).linkUp = false) ∧
      (los = false → ethMode s.m p ≠ 0 → domainOn s.m 10 = true → hostHeld s.m = false → (t.mgt.eth p).linkUp = true))

/-- A step runs the command at the front of the queue, with the queue's rest; on an empty queue the block lets one CLK_EV period pass and
nothing waits (the model's choice, log row 41). -/
def Obligations.StepRunsFront : Prop :=
  (∀ (s : State) (c : Instr) (rest : List Instr), step { s with pending := c :: rest } = exec c { s with pending := rest }) ∧
  (∀ s : State, s.pending = [] → step s = .next { s with m := tick s.m })

/-- Every command completes in every state: it answers a next state, leaves the queue as it was, and every part of the device that its
rules do not name (`commandParts`) is unchanged. -/
def Obligations.CommandsComplete : Prop :=
  ∀ (c : Instr) (s : State), Does c s (Frame (commandParts c) s.m)

/-- Every step keeps the good states: layer memory, both flash banks, the held registers and the signal switch stay in their one canonical
form, whatever command or tick the step runs. -/
def Obligations.GoodKept : Prop :=
  ∀ s t : State, Mach.Good s.m → step s = .next t → Mach.Good t.m

/-- R46, R47, R125: the state after reset is good, and holds the reset values the spec gives: BOOT, no
interrupt event in any SQC register, every register held as written at its reset value, no job, no lane up, PERMIT low. -/
def Obligations.ResetGood : Prop :=
  Mach.Good State.reset.m ∧ State.reset.pending = [] ∧ State.reset.m.g.dev = .boot ∧
  (∀ e : EvReg, regGet State.reset.m e.off = 0) ∧ (∀ off, regGet State.reset.m off = regReset off) ∧
  State.reset.m.job.st = .none ∧ State.reset.m.job.queue = [] ∧ (∀ i : Fin 64, State.reset.m.job.slots[i].st = .free) ∧
  (∀ l : Fin 28, State.reset.m.lanes[l].st = .off) ∧ (∀ a : Fin 8, State.reset.m.stg[a].st = .off) ∧
  (∀ b : Fin 12, State.reset.m.imp.beams[b].margin = 0xFFFF ∧ State.reset.m.imp.beams[b].effective = 0xFFFF ∧
    State.reset.m.beams[b].sigma = 0xFFFF ∧ State.reset.m.beams[b].kappa = 0xFFFF) ∧
  State.reset.m.ilk.permit = false ∧ State.reset.m.ilk.latch = true ∧ State.reset.m.ilk.len = 0 ∧
  State.reset.m.time.running = false ∧ State.reset.m.time.dt = 0 ∧ State.reset.m.time.servo = .free ∧
  State.reset.m.mgt.logFlushed = 0xFFFFFFFF ∧ State.reset.m.clk.standby = .none ∧ State.reset.m.clk.fallback = .none

/-- R125, R126: the fuses. No step clears a revocation bit or a floor word, or takes back what has been sent (a word that fails its
check reads as unprogrammed, log row 115); so the version floor, the largest programmed floor word or 0, never falls, and a slot that is
not usable for its revocation never becomes usable. The outputs and the free counter are the model's own (log rows 6 and 7). -/
def Obligations.FusesWriteOnce : Prop :=
  (∀ m : Mach, (m.boot.floors = [] → versionFloor m = 0) ∧
    (∀ w ∈ m.boot.floors, w.v.toNat ≤ versionFloor m) ∧
    (m.boot.floors ≠ [] → ∃ w ∈ m.boot.floors, versionFloor m = w.v.toNat) ∧
    (∀ k < 4, slotUsable m k = true ↔ (Config.keyHash k).isSome = true ∧ bitOf m.boot.revoked k = false)) ∧
  (∀ s t : State, step s = .next t →
    s.m.boot.floorWords <+: t.m.boot.floorWords ∧ versionFloor s.m ≤ versionFloor t.m ∧
    (∀ k, bitOf s.m.boot.revoked k = true → bitOf t.m.boot.revoked k = true ∧ slotUsable t.m k = false) ∧
    s.m.outs <:+ t.m.outs ∧ s.m.free ≤ t.m.free)
end

