-- ==== Sys2Proof/Laws/Sparse.lean ====
section
/-!
SUPPORT. The canonical sparse maps: every operation keeps the form, and a read after a write gives the value written there and the old
value elsewhere.
-/

namespace Sys2Proof.Machine

variable {α : Type} [DecidableEq α] {d : Nat → α}

theorem wfFrom_mono {l : List (Nat × α)} {a b : Nat} (hab : b ≤ a) (h : wfFrom d a l = true) : wfFrom d b l = true := by
  cases l with
  | nil => rfl
  | cons e t =>
    obtain ⟨k, v⟩ := e
    simp only [wfFrom, Bool.and_eq_true, decide_eq_true_eq] at h ⊢
    exact ⟨⟨Nat.le_trans hab h.1.1, h.1.2⟩, h.2⟩

theorem put_wfFrom {l : List (Nat × α)} {a k : Nat} {v : α} (hk : a ≤ k) (h : wfFrom d a l = true) :
    wfFrom d a (put d l k v) = true := by
  induction l generalizing a with
  | nil =>
    simp only [put]
    split
    · rfl
    · simp_all [wfFrom]
  | cons e t ih =>
    obtain ⟨k', v'⟩ := e
    have h' := h
    simp only [wfFrom, Bool.and_eq_true, decide_eq_true_eq] at h
    obtain ⟨⟨h1, h2⟩, h3⟩ := h
    simp only [put]
    split
    · split
      · exact h'
      · simp only [wfFrom, Bool.and_eq_true, decide_eq_true_eq]
        exact ⟨⟨hk, by assumption⟩, ⟨by omega, h2⟩, h3⟩
    · split
      · split
        · exact wfFrom_mono (by omega) h3
        · subst k'
          simp only [wfFrom, Bool.and_eq_true, decide_eq_true_eq]
          exact ⟨⟨hk, by assumption⟩, h3⟩
      · simp only [wfFrom, Bool.and_eq_true, decide_eq_true_eq]
        exact ⟨⟨h1, h2⟩, ih (by omega) h3⟩

/-- A write keeps the canonical form. -/
theorem put_mapWf {l : List (Nat × α)} {k : Nat} {v : α} (h : mapWf d l = true) : mapWf d (put d l k v) = true :=
  put_wfFrom (Nat.zero_le _) h

/-- So do writes at consecutive keys. -/
theorem putAll_mapWf {vs : List α} {l : List (Nat × α)} {k : Nat} (h : mapWf d l = true) : mapWf d (putAll d l k vs) = true := by
  induction vs generalizing l k with
  | nil => exact h
  | cons v t ih => exact ih (put_mapWf h)

theorem filter_wfFrom {p : Nat × α → Bool} {l : List (Nat × α)} {a : Nat} (h : wfFrom d a l = true) :
    wfFrom d a (l.filter p) = true := by
  induction l generalizing a with
  | nil => rfl
  | cons e t ih =>
    obtain ⟨k, v⟩ := e
    simp only [wfFrom, Bool.and_eq_true, decide_eq_true_eq] at h
    obtain ⟨⟨h1, h2⟩, h3⟩ := h
    simp only [List.filter_cons]
    split
    · simp only [wfFrom, Bool.and_eq_true, decide_eq_true_eq]
      exact ⟨⟨h1, h2⟩, ih h3⟩
    · exact wfFrom_mono (by omega) (ih h3)

/-- Entries dropped leave the canonical form. -/
theorem filter_mapWf {p : Nat × α → Bool} {l : List (Nat × α)} (h : mapWf d l = true) : mapWf d (l.filter p) = true :=
  filter_wfFrom h

/-- So does a range put back at its default. -/
theorem dropRange_mapWf {l : List (Nat × α)} {a n : Nat} (h : mapWf d l = true) : mapWf d (dropRange l a n) = true :=
  filter_wfFrom h

theorem look_of_lt {l : List (Nat × α)} {a k : Nat} (hk : k < a) (h : wfFrom d a l = true) : look d l k = d k := by
  induction l generalizing a with
  | nil => rfl
  | cons e t ih =>
    obtain ⟨k', v'⟩ := e
    simp only [wfFrom, Bool.and_eq_true, decide_eq_true_eq] at h
    simp only [look]
    rw [if_neg (by omega)]
    exact ih (by omega) h.2

theorem look_put_from {l : List (Nat × α)} {a k j : Nat} {v : α} (h : wfFrom d a l = true) :
    look d (put d l k v) j = if j = k then v else look d l j := by
  induction l generalizing a with
  | nil =>
    simp only [put]
    split
    · simp only [look]
      split
      · subst j
        exact Eq.symm (by assumption)
      · rfl
    · simp only [look]
  | cons e t ih =>
    obtain ⟨k', v'⟩ := e
    simp only [wfFrom, Bool.and_eq_true, decide_eq_true_eq] at h
    obtain ⟨⟨h1, h2⟩, h3⟩ := h
    simp only [put]
    split
    · rename_i hlt
      split
      · rename_i hv
        split
        · subst j
          simp only [look]
          rw [if_neg (by omega), look_of_lt (by omega) h3, hv]
        · rfl
      · simp only [look]
    · rename_i hnlt
      split
      · rename_i he
        subst k'
        split
        · rename_i hv
          split
          · subst j
            rw [look_of_lt (by omega) h3, hv]
          · rename_i hj
            simp only [look, if_neg hj]
        · simp only [look]
          split
          · rfl
          · rfl
      · rename_i hne
        simp only [look]
        rw [ih h3]
        split
        · subst j
          rw [if_neg (fun h => hne h.symm)]
        · rfl

/-- A read after a write. -/
theorem look_put {l : List (Nat × α)} {k j : Nat} {v : α} (h : mapWf d l = true) :
    look d (put d l k v) j = if j = k then v else look d l j :=
  look_put_from h

/-- A read of another key after a write, whatever the form. -/
theorem look_put_ne {l : List (Nat × α)} {k j : Nat} {v : α} (h : j ≠ k) : look d (put d l k v) j = look d l j := by
  induction l with
  | nil =>
    simp only [put]
    split
    · rfl
    · simp only [look, if_neg h]
  | cons e t ih =>
    obtain ⟨k', v'⟩ := e
    simp only [put]
    split
    · split
      · rfl
      · simp only [look, if_neg h]
    · split
      · subst k'
        split
        · simp only [look, if_neg h]
        · simp only [look, if_neg h]
      · simp only [look, ih]

/-- A read after writes at consecutive keys. -/
theorem look_putAll {vs : List α} {l : List (Nat × α)} {k j : Nat} (h : mapWf d l = true) :
    look d (putAll d l k vs) j = if k ≤ j ∧ j < k + vs.length then vs.getD (j - k) (d j) else look d l j := by
  induction vs generalizing l k with
  | nil =>
    rw [if_neg (by simp only [List.length_nil]; omega)]
    rfl
  | cons v t ih =>
    simp only [putAll]
    rw [ih (put_mapWf h), look_put h]
    by_cases hj : j = k
    · subst j
      rw [if_neg (by omega), if_pos rfl, if_pos (by simp only [List.length_cons]; omega)]
      simp
    · by_cases hc : k + 1 ≤ j ∧ j < k + 1 + t.length
      · rw [if_pos hc, if_pos (by simp only [List.length_cons]; omega)]
        obtain ⟨n, rfl⟩ : ∃ n, j = k + 1 + n := ⟨j - (k + 1), by omega⟩
        have e : k + 1 + n - k = (k + 1 + n - (k + 1)) + 1 := by omega
        rw [e, List.getD_cons_succ]
      · rw [if_neg hc, if_neg hj, if_neg (by simp only [List.length_cons]; omega)]

/-- A read of a range put back at its default. -/
theorem look_dropRange {l : List (Nat × α)} {a n j : Nat} (h : mapWf d l = true) :
    look d (dropRange l a n) j = if a ≤ j ∧ j < a + n then d j else look d l j := by
  unfold mapWf at h
  generalize 0 = z at h
  induction l generalizing z with
  | nil => simp [dropRange, look]
  | cons e t ih =>
    obtain ⟨k, v⟩ := e
    simp only [wfFrom, Bool.and_eq_true, decide_eq_true_eq] at h
    have ih' := ih _ h.2
    unfold dropRange at ih' ⊢
    simp only [List.filter_cons]
    by_cases hk : a ≤ k ∧ k < a + n
    · rw [if_neg (by simp; omega), ih']
      by_cases hj : a ≤ j ∧ j < a + n
      · rw [if_pos hj, if_pos hj]
      · rw [if_neg hj, if_neg hj]
        simp only [look]
        rw [if_neg (by omega)]
    · rw [if_pos (by simp; omega)]
      simp only [look]
      by_cases hj : j = k
      · rw [if_pos hj, if_pos hj, if_neg (by omega)]
      · rw [if_neg hj, if_neg hj, ih']

end Sys2Proof.Machine
end

