-- ==== Sys2Proof/Laws/Memory.lean ====
section
/-!
SUPPORT. Layer memory: a write keeps the canonical form, a read after a write gives the bytes written there and the old byte elsewhere,
and the write queues hold no bytes of their own.
-/

namespace Sys2Proof.Machine

/-- The bytes of layer memory after the write queue has taken blocks. -/
theorem queueWrite_cells (x : Mem) (k : Nat) : (queueWrite x k).cells = x.cells := by
  unfold queueWrite
  simp only []
  split
  · rfl
  · unfold Mem.setCh
    split <;> rfl

theorem queueAll_cells (l : List Nat) (x : Mem) : (l.foldl queueWrite x).cells = x.cells := by
  induction l generalizing x with
  | nil => rfl
  | cons k t ih => exact (ih _).trans (queueWrite_cells x k)

/-- A write keeps the canonical form. -/
theorem memWrite_wf {m : Mach} {a : Nat} {bs : List Byte} (h : Memory.wf m.mem) : Memory.wf (memWrite a bs m).mem := by
  show mapWf memDefault (putAll memDefault _ a bs) = true
  rw [queueAll_cells]
  exact putAll_mapWf h

/-- A byte read after a write. -/
theorem memByte_memWrite {m : Mach} {a j : Nat} {bs : List Byte} (h : Memory.wf m.mem) :
    memByte (memWrite a bs m) j = if a ≤ j ∧ j < a + bs.length then bs.getD (j - a) 0 else memByte m j := by
  show look memDefault (putAll memDefault _ a bs) j = _
  rw [queueAll_cells]
  exact look_putAll h

/-- Bytes that a write does not touch. -/
theorem memByte_memWrite_out {m : Mach} {a j : Nat} {bs : List Byte} (h : Memory.wf m.mem) (hj : j < a ∨ a + bs.length ≤ j) :
    memByte (memWrite a bs m) j = memByte m j := by
  rw [memByte_memWrite h, if_neg (by omega)]

/-- Layer memory after reset lists nothing. -/
theorem reset_wf : Memory.wf Mach.reset.mem := rfl

end Sys2Proof.Machine
end

