-- ==== Sys2Proof/Laws/Frame/Base.lean ====
section
/-!
SUPPORT. Which parts of the device an operation can touch: the rules by which a frame passes through the operations every meaning is
written with. One lemma per operation, in the files of this folder, carries it up to every command.
-/

namespace Sys2Proof.Machine

theorem Frame.refl (l : List Part) (m : Mach) : Frame l m m := by
  intro p _
  cases p <;> first | rfl | exact fun _ _ => rfl

theorem Frame.trans {l : List Part} {a b c : Mach} (h : Frame l a b) (k : Frame l b c) : Frame l a c := by
  intro p hp
  have h1 := h p hp
  have h2 := k p hp
  cases p
  case ev => exact fun e he => (h2 e he).trans (h1 e he)
  case regs => exact fun o ho => (h2 o ho).trans (h1 o ho)
  all_goals exact Eq.trans h2 h1

/-- One list of parts inside another. -/
def partsIn (a b : List Part) : Bool := a.all (fun p => decide (p ∈ b))

theorem partsIn_sub {a b l : List Part} (h : partsIn a b = true) (hl : b ⊆ l) : a ⊆ l := by
  intro p hp
  have := List.all_eq_true.mp h p hp
  exact hl (of_decide_eq_true this)

/-- An event register is found at its offset. -/
theorem evFind_off (e : EvReg) : evFind e.off = some e := by
  cases e <;> first | rfl | (rename_i i; revert i; decide)

theorem EvReg.off_inj {a b : EvReg} (h : a.off = b.off) : a = b := by
  have := evFind_off a
  rw [h, evFind_off b] at this
  exact (Option.some.inj this).symm

/-- A change of some parts. -/
theorem Frame.upd {l : List Part} {b m : Mach} {g aon clk boot mem mgt time job imp beams mpl hmap cells sig lanes heads stg ilk hlt keep
    regs outs free env} (h : Frame l b m)
    (e_outs : .outs ∈ l ∨ outs = m.outs) (e_free : .free ∈ l ∨ free = m.free) (e_keep : .keep ∈ l ∨ keep = m.keep)
    (e_g : .g ∈ l ∨ g.bare = m.g.bare) (e_msix : .msix ∈ l ∨ g.msix = m.g.msix) (e_aon : .aon ∈ l ∨ aon = m.aon)
    (e_clk : .clk ∈ l ∨ clk = m.clk) (e_boot : .boot ∈ l ∨ boot = m.boot) (e_bytes : .bytes ∈ l ∨ mem.cells = m.mem.cells)
    (e_mem : .mem ∈ l ∨ mem.bare = m.mem.bare) (e_mgt : .mgt ∈ l ∨ mgt.bare = m.mgt.bare) (e_log : .log ∈ l ∨ mgt.logs = m.mgt.logs)
    (e_time : .time ∈ l ∨ time = m.time) (e_job : .job ∈ l ∨ job = m.job) (e_imp : .imp ∈ l ∨ imp = m.imp)
    (e_beams : .beams ∈ l ∨ beams = m.beams) (e_mpl : .mpl ∈ l ∨ mpl = m.mpl) (e_hmap : .hmap ∈ l ∨ hmap = m.hmap)
    (e_cells : .cells ∈ l ∨ cells = m.cells) (e_sig : .sig ∈ l ∨ sig = m.sig) (e_lanes : .lanes ∈ l ∨ lanes = m.lanes)
    (e_heads : .heads ∈ l ∨ heads = m.heads) (e_stg : .stg ∈ l ∨ stg = m.stg) (e_ilk : .ilk ∈ l ∨ ilk = m.ilk)
    (e_hlt : .hlt ∈ l ∨ hlt = m.hlt)
    (e_regs : ((∀ k, .ev k ∈ l) ∧ .regs ∈ l) ∨ regs = m.regs) (e_env : env = m.env) :
    Frame l b ⟨g, aon, clk, boot, mem, mgt, time, job, imp, beams, mpl, hmap, cells, sig, lanes, heads, stg, ilk, hlt, keep, regs, outs,
      free, env⟩ := by
  refine h.trans (fun p hp => ?_)
  cases p
  case outs => exact e_outs.resolve_left hp
  case free => exact e_free.resolve_left hp
  case keep => exact e_keep.resolve_left hp
  case g => exact e_g.resolve_left hp
  case msix => exact e_msix.resolve_left hp
  case aon => exact e_aon.resolve_left hp
  case clk => exact e_clk.resolve_left hp
  case boot => exact e_boot.resolve_left hp
  case bytes => exact e_bytes.resolve_left hp
  case mem => exact e_mem.resolve_left hp
  case mgt => exact e_mgt.resolve_left hp
  case log => exact e_log.resolve_left hp
  case time => exact e_time.resolve_left hp
  case job => exact e_job.resolve_left hp
  case imp => exact e_imp.resolve_left hp
  case beams => exact e_beams.resolve_left hp
  case mpl => exact e_mpl.resolve_left hp
  case hmap => exact e_hmap.resolve_left hp
  case cells => exact e_cells.resolve_left hp
  case sig => exact e_sig.resolve_left hp
  case lanes => exact e_lanes.resolve_left hp
  case heads => exact e_heads.resolve_left hp
  case stg => exact e_stg.resolve_left hp
  case ilk => exact e_ilk.resolve_left hp
  case hlt => exact e_hlt.resolve_left hp
  case env => exact e_env
  case ev =>
    have e := e_regs.resolve_left (fun x => hp (x.1 _))
    subst e
    exact fun _ _ => rfl
  case regs =>
    have e := e_regs.resolve_left (fun x => hp x.2)
    subst e
    exact fun _ _ => rfl

theorem Frame.ite {l : List Part} {b m n : Mach} {c : Prop} [Decidable c] (h : Frame l b m) (k : Frame l b n) :
    Frame l b (if c then m else n) := by
  split <;> assumption

theorem Frame.ite2 {l : List Part} {α : Type} {b : Mach} {m n : α × Mach} {c : Prop} [Decidable c] (h : Frame l b m.2) (k : Frame l b n.2) :
    Frame l b (if c then m else n).2 := by
  split <;> assumption

theorem Frame.dite {l : List Part} {b : Mach} {c : Prop} [Decidable c] {f : c → Mach} {g : ¬c → Mach} (h : ∀ x, Frame l b (f x))
    (k : ∀ x, Frame l b (g x)) : Frame l b (if x : c then f x else g x) := by
  split
  · exact h _
  · exact k _

theorem Frame.mk2 {l : List Part} {α : Type} {a : α} {b m : Mach} (h : Frame l b m) : Frame l b (a, m).2 := h

theorem Frame.let2 {l : List Part} {α : Type} {a : α} {b m : Mach} {p : α × Mach} {P : Prop} (e : p = (a, m)) (h : Frame l b p.2)
    (k : Frame l b m → P) : P := by
  subst e
  exact k h

/-- A command's answer touches only the parts of `l`. -/
def OutFrame (l : List Part) (b : Mach) (o : Out) : Prop := ∀ t, o = .next t → Frame l b t.m

theorem act_fr {l : List Part} {b : Mach} {s : State} {f : Mach → Mach} (h : ∀ m, Frame l b m → Frame l b (f m)) (hs : Frame l b s.m) :
    OutFrame l b (s.act f) := by
  intro t e
  cases e
  exact h _ hs

theorem seqM_fr {l : List Part} {b m : Mach} {f g : Mach → Mach} (hf : ∀ m, Frame l b m → Frame l b (f m))
    (hg : ∀ m, Frame l b m → Frame l b (g m)) (h : Frame l b m) : Frame l b (seqM f g m) := hg _ (hf _ h)

theorem whenM_fr {l : List Part} {b m : Mach} {c : Bool} {f : Mach → Mach} (hf : ∀ m, Frame l b m → Frame l b (f m)) (h : Frame l b m) :
    Frame l b (whenM c f m) := Frame.ite (hf _ h) h

theorem clocked_fr {l : List Part} {b m : Mach} {i : Nat} {f : Mach → Mach} (hf : ∀ m, Frame l b m → Frame l b (f m)) (h : Frame l b m) :
    Frame l b (clocked i f m) := Frame.ite h (hf _ h)

theorem foldl_fr {l : List Part} {α : Type} {b : Mach} {xs : List α} {f : Mach → α → Mach} {m : Mach}
    (hf : ∀ a m, Frame l b m → Frame l b (f m a)) (h : Frame l b m) : Frame l b (xs.foldl f m) := by
  induction xs generalizing m with
  | nil => exact h
  | cons x t ih => exact ih (hf _ _ h)

theorem foldl2_fr {l : List Part} {α β : Type} {b : Mach} {xs : List α} {f : β × Mach → α → β × Mach} {p : β × Mach}
    (hf : ∀ a p, Frame l b p.2 → Frame l b (f p a).2) (h : Frame l b p.2) : Frame l b (xs.foldl f p).2 := by
  induction xs generalizing p with
  | nil => exact h
  | cons x t ih => exact ih (hf _ _ h)

theorem eachM_fr {l : List Part} {α : Type} {b : Mach} {xs : List α} {f : α → Mach → Mach} {m : Mach}
    (hf : ∀ a m, Frame l b m → Frame l b (f a m)) (h : Frame l b m) : Frame l b (eachM xs f m) :=
  foldl_fr hf h

theorem repeat_fr {l : List Part} {b m : Mach} {f : Mach → Mach} {n : Nat} (hf : ∀ m, Frame l b m → Frame l b (f m)) (h : Frame l b m) :
    Frame l b (Nat.repeat f n m) := by
  induction n with
  | zero => exact h
  | succ n ih => exact hf _ ih

/-- An event register takes a new word. -/
theorem evSet_fr {l : List Part} {b m : Mach} {e : EvReg} {w : Word} (hl : .ev e.kind ∈ l) (h : Frame l b m) :
    Frame l b (regSet e.off w m) := by
  refine h.trans (fun p hp => ?_)
  cases p
  case ev k =>
    intro e' he
    refine look_put_ne (fun x => ?_)
    have := EvReg.off_inj x
    subst this
    subst he
    exact hp hl
  case regs => exact fun off ho => look_put_ne (ho e)
  all_goals rfl

theorem msixSend_fr {l : List Part} {b m : Mach} {v : Fin 64} (hL : [.msix, .outs] ⊆ l) (h : Frame l b m) :
    Frame l b (msixSend v m) := by
  refine h.trans (fun p hp => ?_)
  cases p
  case msix => exact absurd (hL (by simp)) hp
  case outs => exact absurd (hL (by simp)) hp
  all_goals first | rfl | exact fun _ _ => rfl

theorem msixOccur_fr {l : List Part} {b m : Mach} {v : Fin 64} (hL : [.msix, .outs] ⊆ l) (h : Frame l b m) :
    Frame l b (msixOccur v m) := by
  delta msixOccur
  refine Frame.ite h (Frame.ite ?_ (msixSend_fr hL h))
  refine h.trans (fun p hp => ?_)
  cases p
  case msix => exact absurd (hL (by simp)) hp
  all_goals first | rfl | exact fun _ _ => rfl

theorem raise_fr {l : List Part} {b m : Mach} {e : EvReg} {bit : Nat} (hL : [.ev e.kind, .msix, .outs] ⊆ l) (h : Frame l b m) :
    Frame l b (raise e bit m) := by
  have hk : .ev e.kind ∈ l := hL (List.mem_cons_self ..)
  have hm : [.msix, .outs] ⊆ l := fun _ hp => hL (List.mem_cons_of_mem _ hp)
  delta raise
  exact Frame.ite (msixOccur_fr hm (evSet_fr hk h)) (evSet_fr hk h)

theorem refuse_fr {l : List Part} {b m : Mach} {e : EvReg} {bit : Nat} (hL : [.ev e.kind, .ev .glb, .msix, .outs] ⊆ l)
    (h : Frame l b m) : Frame l b (refuse e bit m) := by
  delta refuse cmdError
  refine raise_fr (fun p hp => hL ?_) (raise_fr (fun p hp => hL ?_) h)
  · simp only [List.mem_cons, List.not_mem_nil, or_false] at hp ⊢
    rcases hp with h | h | h <;> simp [h]
  · simp only [List.mem_cons, List.not_mem_nil, or_false, EvReg.kind] at hp ⊢
    rcases hp with h | h | h <;> simp [h]

theorem env_sub {a l : List Part} (h : a ⊆ l) : a ⊆ .env :: l := fun _ hp => List.mem_cons_of_mem _ (h hp)

/-- What a command meets is the same before and after it, whatever it does with it. -/
theorem withEnv_fr {l : List Part} {b m : Mach} {e : Env} {f : Mach → Mach}
    (hf : ∀ m, Frame (.env :: l) b m → Frame (.env :: l) b (f m)) (h : Frame l b m) : Frame l b (withEnv e f m) := by
  have hm : Frame (.env :: l) b { m with env := e } := by
    intro p hp
    have hq := h p (fun x => hp (List.mem_cons_of_mem _ x))
    cases p
    case env => exact absurd (List.mem_cons_self ..) hp
    all_goals exact hq
  intro p hp
  by_cases hpe : p = .env
  · subst hpe
    exact h _ hp
  · have hq := hf _ hm p (fun x => (List.mem_cons.mp x).elim hpe hp)
    cases p
    case env => exact absurd rfl hpe
    all_goals exact hq

/-- The bytes of layer memory stay through a change of the controller. -/
theorem Frame.memc {l : List Part} {b m : Mach} {x : Mem} (hl : .mem ∈ l) (h : Frame l b m) (hx : x.cells = m.mem.cells) :
    Frame l b { m with mem := x } := by
  refine h.trans (fun p hp => ?_)
  cases p
  case bytes => exact hx
  case mem => exact absurd hl hp
  all_goals first | rfl | exact fun _ _ => rfl

/-- A controller that differs in nothing but bytes. -/
theorem Frame.memb {l : List Part} {b m : Mach} {c : List Host.Cell} (hl : .bytes ∈ l) (h : Frame l b m) :
    Frame l b { m with mem := { m.mem with cells := c } } := by
  refine h.trans (fun p hp => ?_)
  cases p
  case bytes => exact absurd hl hp
  all_goals first | rfl | exact fun _ _ => rfl

theorem memWrite_fr {l : List Part} {b m : Mach} {a : Nat} {bs : List Byte} (hL : [.mem, .bytes] ⊆ l) (h : Frame l b m) :
    Frame l b (memWrite a bs m) := by
  refine h.trans (fun p hp => ?_)
  cases p
  case bytes => exact absurd (hL (by simp)) hp
  case mem => exact absurd (hL (by simp)) hp
  all_goals first | rfl | exact fun _ _ => rfl

end Sys2Proof.Machine
end

