-- ==== Sys2Proof/Laws/Event.lean ====
section
/-!
SUPPORT. The event registers: what raising an event leaves in every event register (R46, R47).
-/

namespace Sys2Proof.Machine

/-- A value other than the default is read back from where it is put. -/
theorem look_put_self {α : Type} [DecidableEq α] {d : Nat → α} {l : List (Nat × α)} {k : Nat} {v : α} (h : v ≠ d k) :
    look d (put d l k v) k = v := by
  induction l with
  | nil => simp [put, look, h]
  | cons e t ih =>
    obtain ⟨k', v'⟩ := e
    simp only [put]
    split
    · simp [look]
    · split
      · simp [look]
      · rename_i h2
        simp only [look]
        rw [if_neg h2]
        exact ih

/-- Event registers reset to 0. -/
theorem regReset_event (e : EvReg) : regReset e.off = 0 := by
  cases e <;> first | rfl | (rename_i i; revert i; decide)

/-- The bits of an event register after one more occurrence. -/
theorem bitOf_sqcRaise {w : Word} {b k : Nat} (hk : k < 24) :
    bitOf (sqcRaise w b) k = (decide (b = k) || bitOf w k) := by
  have h1 : ((fld w 31 24 + 1) % 256) * 2 ^ 24 + (fld w 23 0 ||| 2 ^ b) % 2 ^ 24 < 2 ^ 32 := by omega
  simp only [bitOf, sqcRaise, BitVec.toNat_ofNat]
  rw [Nat.mod_eq_of_lt h1, Nat.mul_comm, Nat.testBit_two_pow_mul_add _ (Nat.mod_lt _ (by decide)), if_pos hk]
  simp only [Nat.testBit_mod_two_pow, Nat.testBit_or, Nat.testBit_two_pow, fld, Nat.shiftRight_zero, hk, decide_true, Bool.true_and]
  rw [Bool.or_comm]

theorem sqcRaise_ne {w : Word} {b : Nat} (hb : b < 24) : sqcRaise w b ≠ 0 := by
  intro h
  have := bitOf_sqcRaise (w := w) (b := b) hb
  rw [h] at this
  simp [bitOf] at this

theorem regGet_msixOccur {m : Mach} {v : Fin 64} {off : Nat} : regGet (msixOccur v m) off = regGet m off := by
  simp only [msixOccur]
  split
  · rfl
  · split <;> rfl

/-- An event register after an event of its own. -/
theorem regGet_raise_self {e : EvReg} {b : Nat} {m : Mach} (hb : b < 24) : regGet (raise e b m) e.off = sqcRaise (regGet m e.off) b := by
  have h : regGet (regSet e.off (sqcRaise (regGet m e.off) b) m) e.off = sqcRaise (regGet m e.off) b :=
    look_put_self (by rw [regReset_event]; exact sqcRaise_ne hb)
  simp only [raise]
  split
  · rw [regGet_msixOccur, h]
  · exact h

/-- Every other register held as written keeps its value. -/
theorem regGet_raise_ne {e : EvReg} {b : Nat} {m : Mach} {off : Nat} (h : off ≠ e.off) : regGet (raise e b m) off = regGet m off := by
  have h : regGet (regSet e.off (sqcRaise (regGet m e.off) b) m) off = regGet m off := look_put_ne h
  simp only [raise]
  split
  · rw [regGet_msixOccur, h]
  · exact h

/-- Which events stand after one more. -/
theorem raised_raise {e e' : EvReg} {b b' : Nat} {m : Mach} (hb : b < 24) (hb' : b' < 24) :
    raised (raise e b m) e' b' = (decide (e = e' ∧ b = b') || raised m e' b') := by
  by_cases h : e = e'
  · subst h
    simp only [raised, regGet_raise_self hb, bitOf_sqcRaise hb', true_and]
  · have : e'.off ≠ e.off := fun x => h (EvReg.off_inj x).symm
    simp only [raised, regGet_raise_ne this, h, false_and, decide_false, Bool.false_or]

end Sys2Proof.Machine
end

