-- ==== Sys2Proof/Laws/Evolve/Base.lean ====
section
/-!
SUPPORT. What no command can undo: the relation from a device to a later one that every operation keeps. Sparse stores keep their
canonical form, write-once fuses stay programmed (R125), what has been sent stays sent, and the count of drawn free values only grows.
One lemma per operation, in the files of this folder, carries it up to every command and every step.
-/

namespace Sys2Proof.Machine

/-- From one device to a later one. -/
structure Evolves (m m' : Mach) : Prop where
  mem : Memory.wf m.mem → Memory.wf m'.mem
  regs : Regs.wf m.regs → Regs.wf m'.regs
  sig : Sig.wf m.sig → Sig.wf m'.sig
  flashA : Bank.wf m.boot.bankA → Bank.wf m'.boot.bankA
  flashB : Bank.wf m.boot.bankB → Bank.wf m'.boot.bankB
  floors : m.boot.floorWords <+: m'.boot.floorWords
  revoked : ∀ k, bitOf m.boot.revoked k = true → bitOf m'.boot.revoked k = true
  outs : m.outs <:+ m'.outs
  free : m.free ≤ m'.free

theorem Evolves.refl (m : Mach) : Evolves m m :=
  ⟨id, id, id, id, id, List.prefix_rfl, fun _ h => h, List.suffix_rfl, Nat.le_refl _⟩

theorem Evolves.trans {a m n : Mach} (h : Evolves a m) (k : Evolves m n) : Evolves a n :=
  ⟨k.mem ∘ h.mem, k.regs ∘ h.regs, k.sig ∘ h.sig, k.flashA ∘ h.flashA, k.flashB ∘ h.flashB, h.floors.trans k.floors,
    fun i hi => k.revoked i (h.revoked i hi), h.outs.trans k.outs, Nat.le_trans h.free k.free⟩

/-- A change of anything else. -/
theorem Evolves.upd {b m : Mach} {g aon clk boot mem mgt time job imp beams mpl hmap cells sig lanes heads stg ilk hlt keep regs outs free env}
    (h : Evolves b m) (e1 : outs = m.outs) (e2 : free = m.free) (e3 : regs = m.regs) (e4 : sig.vals = m.sig.vals)
    (e5 : mem.cells = m.mem.cells) (e6 : boot.bankA.cells = m.boot.bankA.cells) (e7 : boot.bankB.cells = m.boot.bankB.cells)
    (e8 : boot.floorWords = m.boot.floorWords) (e9 : boot.revoked = m.boot.revoked) :
    Evolves b ⟨g, aon, clk, boot, mem, mgt, time, job, imp, beams, mpl, hmap, cells, sig, lanes, heads, stg, ilk, hlt, keep, regs, outs,
      free, env⟩ := by
  subst e1 e2 e3
  refine h.trans ⟨fun w => ?_, id, fun w => ?_, fun w => ?_, fun w => ?_, ?_, fun k w => ?_, List.suffix_rfl, Nat.le_refl _⟩
  · show mapWf memDefault mem.cells = true
    rw [e5]; exact w
  · show mapWf _ sig.vals = true
    rw [e4]; exact w
  · show mapWf _ boot.bankA.cells = true
    rw [e6]; exact w
  · show mapWf _ boot.bankB.cells = true
    rw [e7]; exact w
  · show _ <+: boot.floorWords
    exact ⟨[], (List.append_nil _).trans e8.symm⟩
  · show bitOf boot.revoked k = true
    rw [e9]; exact w

theorem Evolves.ite {b m n : Mach} {c : Prop} [Decidable c] (h : Evolves b m) (k : Evolves b n) : Evolves b (if c then m else n) := by
  split <;> assumption

theorem Evolves.ite2 {α : Type} {b : Mach} {m n : α × Mach} {c : Prop} [Decidable c] (h : Evolves b m.2) (k : Evolves b n.2) :
    Evolves b (if c then m else n).2 := by
  split <;> assumption

theorem Evolves.dite {b : Mach} {c : Prop} [Decidable c] {f : c → Mach} {g : ¬c → Mach} (h : ∀ x, Evolves b (f x))
    (k : ∀ x, Evolves b (g x)) : Evolves b (if x : c then f x else g x) := by
  split
  · exact h _
  · exact k _

theorem Evolves.mk2 {α : Type} {a : α} {b m : Mach} (h : Evolves b m) : Evolves b (a, m).2 := h

theorem Evolves.let2 {α : Type} {a : α} {b m : Mach} {p : α × Mach} {P : Prop} (e : p = (a, m)) (h : Evolves b p.2)
    (k : Evolves b m → P) : P := by
  subst e
  exact k h

/-- A command's answer carries the relation. -/
def OutEv (b : Mach) (o : Out) : Prop := ∀ t, o = .next t → Evolves b t.m

theorem act_ev {b : Mach} {s : State} {f : Mach → Mach} (h : ∀ m, Evolves b m → Evolves b (f m)) (hs : Evolves b s.m) :
    OutEv b (s.act f) := by
  intro t e
  cases e
  exact h _ hs

theorem seqM_ev {b m : Mach} {f g : Mach → Mach} (hf : ∀ m, Evolves b m → Evolves b (f m)) (hg : ∀ m, Evolves b m → Evolves b (g m))
    (h : Evolves b m) : Evolves b (seqM f g m) := hg _ (hf _ h)

theorem whenM_ev {b m : Mach} {c : Bool} {f : Mach → Mach} (hf : ∀ m, Evolves b m → Evolves b (f m)) (h : Evolves b m) :
    Evolves b (whenM c f m) := Evolves.ite (hf _ h) h

theorem foldl_ev {α : Type} {b : Mach} {l : List α} {f : Mach → α → Mach} {m : Mach}
    (hf : ∀ a m, Evolves b m → Evolves b (f m a)) (h : Evolves b m) : Evolves b (l.foldl f m) := by
  induction l generalizing m with
  | nil => exact h
  | cons x t ih => exact ih (hf _ _ h)

theorem foldl2_ev {α β : Type} {b : Mach} {l : List α} {f : β × Mach → α → β × Mach} {p : β × Mach}
    (hf : ∀ a p, Evolves b p.2 → Evolves b (f p a).2) (h : Evolves b p.2) : Evolves b (l.foldl f p).2 := by
  induction l generalizing p with
  | nil => exact h
  | cons x t ih => exact ih (hf _ _ h)

theorem eachM_ev {α : Type} {b : Mach} {l : List α} {f : α → Mach → Mach} {m : Mach}
    (hf : ∀ a m, Evolves b m → Evolves b (f a m)) (h : Evolves b m) : Evolves b (eachM l f m) :=
  foldl_ev hf h

theorem repeat_ev {b m : Mach} {f : Mach → Mach} {n : Nat} (hf : ∀ m, Evolves b m → Evolves b (f m)) (h : Evolves b m) :
    Evolves b (Nat.repeat f n m) := by
  induction n with
  | zero => exact h
  | succ n ih => exact hf _ ih

theorem emit_ev {b m : Mach} {o : Output} (h : Evolves b m) : Evolves b (emit o m) :=
  h.trans ⟨id, id, id, id, id, List.prefix_rfl, fun _ w => w, List.suffix_cons _ _, Nat.le_refl _⟩

theorem regSet_ev {b m : Mach} {off : Nat} {w : Word} (h : Evolves b m) : Evolves b (regSet off w m) :=
  h.trans ⟨id, put_mapWf, id, id, id, List.prefix_rfl, fun _ w => w, List.suffix_rfl, Nat.le_refl _⟩

theorem sigPut_ev {b m : Mach} {n : Nat} {v : SigVal} (h : Evolves b m) : Evolves b (sigPut n v m) :=
  h.trans ⟨id, id, put_mapWf, id, id, List.prefix_rfl, fun _ w => w, List.suffix_rfl, Nat.le_refl _⟩

theorem drawn_ev {b m : Mach} (h : Evolves b m) : Evolves b { m with free := m.free + 1 } :=
  h.trans ⟨id, id, id, id, id, List.prefix_rfl, fun _ w => w, List.suffix_rfl, Nat.le_succ _⟩

theorem drawWord_ev {b m : Mach} (h : Evolves b m) : Evolves b (drawWord m).2 := drawn_ev h
theorem drawRandom_ev {b m : Mach} (h : Evolves b m) : Evolves b (drawRandom m).2 := drawn_ev h

/-- Anything done to layer memory that keeps the canonical form. -/
theorem Evolves.mems {b m : Mach} {x : Mem} (h : Evolves b m) (hx : Memory.wf m.mem → Memory.wf x) : Evolves b { m with mem := x } :=
  h.trans ⟨hx, id, id, id, id, List.prefix_rfl, fun _ w => w, List.suffix_rfl, Nat.le_refl _⟩

/-- The held registers replaced by some of them. -/
theorem Evolves.regsSome {b m : Mach} {l : List (Nat × Word)} (h : Evolves b m) (hl : Regs.wf m.regs → Regs.wf l) :
    Evolves b { m with regs := l } :=
  h.trans ⟨id, hl, id, id, id, List.prefix_rfl, fun _ w => w, List.suffix_rfl, Nat.le_refl _⟩

/-- Anything done to the boot block that keeps the flash in canonical form and the fuses programmed. -/
theorem Evolves.boots {b m : Mach} {x : Boot} (h : Evolves b m)
    (ha : mapWf (fun _ => 0xFF#8) m.boot.bankA.cells = true → mapWf (fun _ => 0xFF#8) x.bankA.cells = true)
    (hb : mapWf (fun _ => 0xFF#8) m.boot.bankB.cells = true → mapWf (fun _ => 0xFF#8) x.bankB.cells = true)
    (hf : m.boot.floorWords <+: x.floorWords) (hr : ∀ k, bitOf m.boot.revoked k = true → bitOf x.revoked k = true) :
    Evolves b { m with boot := x } :=
  h.trans ⟨id, id, id, ha, hb, hf, hr, List.suffix_rfl, Nat.le_refl _⟩

/-- A bit once set in a word stays while others are set. -/
theorem bitOf_setBit_true {n : Nat} {w : BitVec n} {i k : Nat} (h : bitOf w k = true) : bitOf (setBit w i true) k = true := by
  simp only [bitOf, setBit, if_true, BitVec.toNat_or, Nat.testBit_or, Bool.or_eq_true] at h ⊢
  exact Or.inl h

theorem memWrite_ev {b m : Mach} {a : Nat} {bs : List Byte} (h : Evolves b m) : Evolves b (memWrite a bs m) := by
  refine h.mems (fun w => ?_)
  show mapWf memDefault (putAll memDefault _ a bs) = true
  rw [queueAll_cells]
  exact putAll_mapWf w

end Sys2Proof.Machine
end

