-- ==== Sys2Proof/Laws/Evolve/Ops.lean ====
section
/-!
SUPPORT. What Machine/Ops.lean does never undoes what Laws/Evolve/Base.lean names: one lemma per operation.
-/

namespace Sys2Proof.Machine

theorem clocked_ev {org : Mach} {i f m} (hf_f : ∀ m, Evolves org m → Evolves org (f m)) (h_m : Evolves org m) :
    Evolves org (clocked i f m) := by
  delta clocked
  refine Evolves.ite ?_ ?_
  · assumption
  · apply hf_f
    assumption

theorem msixSend_ev {org : Mach} {v m} (h_m : Evolves org m) :
    Evolves org (msixSend v m) := by
  delta msixSend
  extract_lets x1 x2 x3
  refine emit_ev ?_
  refine Evolves.upd ?_ rfl rfl rfl rfl rfl rfl rfl rfl rfl
  assumption

theorem msixOccur_ev {org : Mach} {v m} (h_m : Evolves org m) :
    Evolves org (msixOccur v m) := by
  delta msixOccur
  extract_lets x1 x2
  refine Evolves.ite ?_ ?_
  · assumption
  · refine Evolves.ite ?_ ?_
    · refine Evolves.upd ?_ rfl rfl rfl rfl rfl rfl rfl rfl rfl
      assumption
    · refine msixSend_ev ?_
      assumption

theorem raise_ev {org : Mach} {e bit m} (h_m : Evolves org m) :
    Evolves org (raise e bit m) := by
  delta raise
  extract_lets x1
  have hx1 : Evolves org x1 := by
    unfold x1
    refine regSet_ev ?_
    assumption
  clear_value x1
  refine Evolves.ite ?_ ?_
  · refine msixOccur_ev ?_
    assumption
  · assumption

theorem logAt_ev {org : Mach} {t code sev unit arg m} (h_m : Evolves org m) :
    Evolves org (logAt t code sev unit arg m) := by
  delta logAt
  refine Evolves.ite ?_ ?_
  · assumption
  · refine Evolves.ite ?_ ?_
    · refine Evolves.upd ?_ rfl rfl rfl rfl rfl rfl rfl rfl rfl
      assumption
    · extract_lets x1 x2 x3 x4 x5 x6
      have hx5 : Evolves org x5 := by
        unfold x5
        refine Evolves.upd ?_ rfl rfl rfl rfl rfl rfl rfl rfl rfl
        assumption
      clear_value x5
      have hx6 : Evolves org x6 := by
        unfold x6
        refine Evolves.ite ?_ ?_
        · refine raise_ev ?_
          assumption
        · assumption
      clear_value x6
      refine Evolves.ite ?_ ?_
      · refine raise_ev ?_
        assumption
      · assumption

theorem log_ev {org : Mach} {code sev unit arg m} (h_m : Evolves org m) :
    Evolves org (log code sev unit arg m) := by
  delta log
  refine logAt_ev ?_
  assumption

theorem bootEntries_ev {org : Mach} {m0} (h_m0 : Evolves org m0) :
    Evolves org (bootEntries m0) := by
  delta bootEntries
  refine Evolves.ite ?_ ?_
  · assumption
  · extract_lets x1 x2 x3 x4 x5 x6 x7 x8
    have hx3 : Evolves org x3 := by
      unfold x3
      refine Evolves.upd ?_ rfl rfl rfl rfl rfl rfl rfl rfl rfl
      assumption
    clear_value x3
    have hx5 : Evolves org x5 := by
      unfold x5
      refine log_ev ?_
      assumption
    clear_value x5
    have hx7 : Evolves org x7 := by
      unfold x7
      refine whenM_ev (fun _ _ => ?_) ?_
      · refine log_ev ?_
        assumption
      · assumption
    clear_value x7
    have hx8 : Evolves org x8 := by
      unfold x8
      refine whenM_ev (fun _ _ => ?_) ?_
      · refine log_ev ?_
        assumption
      · assumption
    clear_value x8
    refine eachM_ev (fun _ _ _ => ?_) ?_
    · refine logAt_ev ?_
      assumption
    · assumption

theorem repairAt_ev {org : Mach} {t code unit arg m} (h_m : Evolves org m) :
    Evolves org (repairAt t code unit arg m) := by
  delta repairAt
  extract_lets x1 x2
  have hx1 : Evolves org x1 := by
    unfold x1
    refine logAt_ev ?_
    assumption
  clear_value x1
  refine raise_ev ?_
  refine Evolves.upd ?_ rfl rfl rfl rfl rfl rfl rfl rfl rfl
  assumption

theorem repair_ev {org : Mach} {code unit arg m} (h_m : Evolves org m) :
    Evolves org (repair code unit arg m) := by
  delta repair
  refine repairAt_ev ?_
  assumption

theorem onPort_ev {org : Mach} {p f m} (h_m : Evolves org m) :
    Evolves org (onPort p f m) := by
  delta onPort
  refine Evolves.upd ?_ rfl rfl rfl rfl rfl rfl rfl rfl rfl
  assumption

theorem accessError_ev {org : Mach} {cause bit code p off m} (h_m : Evolves org m) :
    Evolves org (accessError cause bit code p off m) := by
  delta accessError
  extract_lets x1 x2
  have hx2 : Evolves org x2 := by
    unfold x2
    refine Evolves.upd ?_ rfl rfl rfl rfl rfl rfl rfl rfl rfl
    assumption
  clear_value x2
  refine log_ev ?_
  refine raise_ev ?_
  assumption

theorem lockErr_ev {org : Mach} {z0 z1 z2} (h_z2 : Evolves org z2) :
    Evolves org (lockErr z0 z1 z2) := by
  delta lockErr
  refine accessError_ev ?_
  assumption

theorem accErr_ev {org : Mach} {z0 z1 z2} (h_z2 : Evolves org z2) :
    Evolves org (accErr z0 z1 z2) := by
  delta accErr
  refine accessError_ev ?_
  assumption

theorem shadowMiss_ev {org : Mach} {z0 z1 z2} (h_z2 : Evolves org z2) :
    Evolves org (shadowMiss z0 z1 z2) := by
  delta shadowMiss
  refine accessError_ev ?_
  assumption

theorem cmdError_ev {org : Mach} {m} (h_m : Evolves org m) :
    Evolves org (cmdError m) := by
  delta cmdError
  refine raise_ev ?_
  assumption

theorem dropShadow_ev {org : Mach} {p off m} (h_m : Evolves org m) :
    Evolves org (dropShadow p off m) := by
  delta dropShadow
  split
  · assumption
  · refine shadowMiss_ev ?_
    refine onPort_ev ?_
    assumption

theorem writeGate_ev {org : Mach} {p off f m} (hf_f : ∀ m, Evolves org m → Evolves org (f m)) (h_m : Evolves org m) :
    Evolves org (writeGate p off f m) := by
  delta writeGate
  refine Evolves.ite ?_ ?_
  · assumption
  · extract_lets x1
    have hx1 : Evolves org x1 := by
      unfold x1
      refine dropShadow_ev ?_
      assumption
    clear_value x1
    refine Evolves.ite ?_ ?_
    · apply hf_f
      assumption
    · refine accErr_ev ?_
      assumption

theorem pairGate_ev {org : Mach} {p low f m} (hf_f : ∀ m, Evolves org m → Evolves org (f m)) (h_m : Evolves org m) :
    Evolves org (pairGate p low f m) := by
  delta pairGate
  split
  · refine Evolves.ite ?_ ?_
    · refine writeGate_ev (fun _ _ => ?_) ?_
      · apply hf_f
        assumption
      · refine onPort_ev ?_
        assumption
    · refine writeGate_ev (fun _ _ => ?_) ?_
      · apply hf_f
        assumption
      · assumption
  · refine writeGate_ev (fun _ _ => ?_) ?_
    · apply hf_f
      assumption
    · assumption

theorem logClass_ev {org : Mach} {cls unit arg m} (h_m : Evolves org m) :
    Evolves org (logClass cls unit arg m) := by
  delta logClass
  refine Evolves.ite ?_ ?_
  · assumption
  · split
    · rename_i heq
      refine Evolves.let2 (b := org) heq ?_ (fun _ => ?_)
      · refine drawWord_ev ?_
        assumption
      refine log_ev ?_
      assumption

theorem healthLog_ev {org : Mach} {q unit value limit m} (h_m : Evolves org m) :
    Evolves org (healthLog q unit value limit m) := by
  delta healthLog
  refine logClass_ev ?_
  assumption

theorem onImp_ev {org : Mach} {b f m} (h_m : Evolves org m) :
    Evolves org (onImp b f m) := by
  delta onImp
  refine Evolves.upd ?_ rfl rfl rfl rfl rfl rfl rfl rfl rfl
  assumption

theorem onBeam_ev {org : Mach} {b f m} (h_m : Evolves org m) :
    Evolves org (onBeam b f m) := by
  delta onBeam
  refine Evolves.upd ?_ rfl rfl rfl rfl rfl rfl rfl rfl rfl
  assumption

theorem onMpl_ev {org : Mach} {b f m} (h_m : Evolves org m) :
    Evolves org (onMpl b f m) := by
  delta onMpl
  refine Evolves.upd ?_ rfl rfl rfl rfl rfl rfl rfl rfl rfl
  assumption

theorem onLane_ev {org : Mach} {l f m} (h_m : Evolves org m) :
    Evolves org (onLane l f m) := by
  delta onLane
  refine Evolves.upd ?_ rfl rfl rfl rfl rfl rfl rfl rfl rfl
  assumption

theorem onHead_ev {org : Mach} {h f m} (h_m : Evolves org m) :
    Evolves org (onHead h f m) := by
  delta onHead
  refine Evolves.upd ?_ rfl rfl rfl rfl rfl rfl rfl rfl rfl
  assumption

theorem onAxis_ev {org : Mach} {a f m} (h_m : Evolves org m) :
    Evolves org (onAxis a f m) := by
  delta onAxis
  refine Evolves.upd ?_ rfl rfl rfl rfl rfl rfl rfl rfl rfl
  assumption

theorem onCell_ev {org : Mach} {c f m} (h_m : Evolves org m) :
    Evolves org (onCell c f m) := by
  delta onCell
  refine Evolves.upd ?_ rfl rfl rfl rfl rfl rfl rfl rfl rfl
  assumption

theorem onCtx_ev {org : Mach} {k f m} (h_m : Evolves org m) :
    Evolves org (onCtx k f m) := by
  delta onCtx
  refine Evolves.upd ?_ rfl rfl rfl rfl rfl rfl rfl rfl rfl
  assumption

theorem onIlk_ev {org : Mach} {f m} (h_m : Evolves org m) :
    Evolves org (onIlk f m) := by
  delta onIlk
  refine Evolves.upd ?_ rfl rfl rfl rfl rfl rfl rfl rfl rfl
  assumption

theorem onJob_ev {org : Mach} {f m} (h_m : Evolves org m) :
    Evolves org (onJob f m) := by
  delta onJob
  refine Evolves.upd ?_ rfl rfl rfl rfl rfl rfl rfl rfl rfl
  assumption

theorem onTime_ev {org : Mach} {f m} (h_m : Evolves org m) :
    Evolves org (onTime f m) := by
  delta onTime
  refine Evolves.upd ?_ rfl rfl rfl rfl rfl rfl rfl rfl rfl
  assumption

theorem onHlt_ev {org : Mach} {f m} (h_m : Evolves org m) :
    Evolves org (onHlt f m) := by
  delta onHlt
  refine Evolves.upd ?_ rfl rfl rfl rfl rfl rfl rfl rfl rfl
  assumption

theorem onHmap_ev {org : Mach} {f m} (h_m : Evolves org m) :
    Evolves org (onHmap f m) := by
  delta onHmap
  refine Evolves.upd ?_ rfl rfl rfl rfl rfl rfl rfl rfl rfl
  assumption

theorem onImpAll_ev {org : Mach} {f m} (h_m : Evolves org m) :
    Evolves org (onImpAll f m) := by
  delta onImpAll
  refine Evolves.upd ?_ rfl rfl rfl rfl rfl rfl rfl rfl rfl
  assumption

theorem refuse_ev {org : Mach} {e bit m} (h_m : Evolves org m) :
    Evolves org (refuse e bit m) := by
  delta refuse
  refine raise_ev ?_
  refine cmdError_ev ?_
  assumption

theorem withEnv_ev {org : Mach} {e f m} (hf_f : ∀ m, Evolves org m → Evolves org (f m)) (h_m : Evolves org m) :
    Evolves org (withEnv e f m) := by
  delta withEnv
  extract_lets x1
  have hx1 : Evolves org x1 := by
    unfold x1
    apply hf_f
    refine Evolves.upd ?_ rfl rfl rfl rfl rfl rfl rfl rfl rfl
    assumption
  clear_value x1
  refine Evolves.upd ?_ rfl rfl rfl rfl rfl rfl rfl rfl rfl
  assumption

theorem sigWriteAt_ev {org : Mach} {n v t m} (h_m : Evolves org m) :
    Evolves org (sigWriteAt n v t m) := by
  delta sigWriteAt
  refine sigPut_ev ?_
  assumption

theorem sigWrite_ev {org : Mach} {n v m} (h_m : Evolves org m) :
    Evolves org (sigWrite n v m) := by
  delta sigWrite
  refine sigWriteAt_ev ?_
  assumption

theorem sigWriteRaw_ev {org : Mach} {n v t m} (h_m : Evolves org m) :
    Evolves org (sigWriteRaw n v t m) := by
  delta sigWriteRaw
  refine sigPut_ev ?_
  assumption

theorem sigInvalidate_ev {org : Mach} {n m} (h_m : Evolves org m) :
    Evolves org (sigInvalidate n m) := by
  delta sigInvalidate
  extract_lets x1
  refine Evolves.ite ?_ ?_
  · refine sigPut_ev ?_
    assumption
  · assumption

theorem sigPub_ev {org : Mach} {n v m} (h_m : Evolves org m) :
    Evolves org (sigPub n v m) := by
  delta sigPub
  extract_lets x1
  refine Evolves.ite ?_ ?_
  · assumption
  · refine sigWriteRaw_ev ?_
    assumption

theorem devSignals_ev {org : Mach} {m0} (h_m0 : Evolves org m0) :
    Evolves org (devSignals m0) := by
  delta devSignals
  extract_lets x1
  have hx1 : Evolves org x1 := by
    unfold x1
    refine sigPub_ev ?_
    assumption
  clear_value x1
  refine sigPub_ev ?_
  refine sigPub_ev ?_
  refine sigPub_ev ?_
  assumption

end Sys2Proof.Machine
end

