-- ==== Sys2Proof/Laws/Evolve/Ingot.lean ====
section
/-!
SUPPORT. What Machine/Ingot.lean does never undoes what Laws/Evolve/Base.lean names: one lemma per operation.
-/

namespace Sys2Proof.Machine

theorem bootRecAppend_ev {org m0 : Mach} (h_m0 : Evolves org m0) : Evolves org (bootRecAppend m0) := by
  delta bootRecAppend
  extract_lets m
  have hm : Evolves org m := drawn_ev h_m0
  clear_value m
  refine Evolves.ite (logClass_ev hm) ?_
  refine hm.boots ?_ ?_ ?_ ?_ <;> (split <;> split)
  all_goals first | exact id | exact List.prefix_rfl | exact fun _ w => w

theorem changeStanding_ev {org : Mach} {x f m} (h_m : Evolves org m) :
    Evolves org (changeStanding x f m) := by
  delta changeStanding
  refine bootRecAppend_ev ?_
  refine Evolves.upd ?_ rfl rfl rfl rfl rfl rfl rfl rfl rfl
  assumption

theorem standingAtBoot_ev {org : Mach} {m} (h_m : Evolves org m) :
    Evolves org (standingAtBoot m) := by
  delta standingAtBoot
  refine Evolves.ite ?_ ?_
  · assumption
  · split
    · refine Evolves.upd ?_ rfl rfl rfl rfl rfl rfl rfl rfl rfl
      assumption
    · refine Evolves.upd ?_ rfl rfl rfl rfl rfl rfl rfl rfl rfl
      assumption

theorem readBank_ev {org : Mach} {x m} (h_m : Evolves org m) : Evolves org (readBank x m) := by
  refine h_m.boots ?_ ?_ ?_ ?_ <;> cases x
  all_goals first | exact id | exact List.prefix_rfl | exact fun _ w => w

theorem bootCmdEnd_ev {org : Mach} {op result m} (h_m : Evolves org m) :
    Evolves org (bootCmdEnd op result m) := by
  delta bootCmdEnd
  refine raise_ev ?_
  refine Evolves.upd ?_ rfl rfl rfl rfl rfl rfl rfl rfl rfl
  assumption

theorem bootRollback_ev {org : Mach} {m} (h_m : Evolves org m) :
    Evolves org (bootRollback m) := by
  delta bootRollback
  refine Evolves.ite ?_ ?_
  · refine bootCmdEnd_ev ?_
    assumption
  · refine Evolves.ite ?_ ?_
    · refine bootCmdEnd_ev ?_
      assumption
    · refine Evolves.ite ?_ ?_
      · refine bootCmdEnd_ev ?_
        assumption
      · refine bootCmdEnd_ev ?_
        refine changeStanding_ev ?_
        assumption

theorem bootReinstate_ev {org : Mach} {x m} (h_m : Evolves org m) :
    Evolves org (bootReinstate x m) := by
  delta bootReinstate
  refine Evolves.ite ?_ ?_
  · refine bootCmdEnd_ev ?_
    assumption
  · refine Evolves.ite ?_ ?_
    · refine bootCmdEnd_ev ?_
      assumption
    · refine bootCmdEnd_ev ?_
      refine changeStanding_ev ?_
      assumption

theorem bootRaiseFloor_ev {org m : Mach} (h_m : Evolves org m) : Evolves org (bootRaiseFloor m) := by
  delta bootRaiseFloor
  refine Evolves.ite (bootCmdEnd_ev h_m) (Evolves.ite (bootCmdEnd_ev h_m) (Evolves.ite (bootCmdEnd_ev h_m)
    (Evolves.ite (bootCmdEnd_ev h_m) (bootCmdEnd_ev (readBank_ev ?_)))))
  exact h_m.boots id id (List.prefix_append _ _) (fun _ w => w)

theorem bootRevoke_ev {org : Mach} {k m} (h_m : Evolves org m) : Evolves org (bootRevoke k m) := by
  delta bootRevoke
  refine Evolves.ite (bootCmdEnd_ev h_m) (Evolves.ite (bootCmdEnd_ev h_m) (bootCmdEnd_ev (readBank_ev ?_)))
  refine h_m.boots id id List.prefix_rfl (fun i w => ?_)
  have hg : ∀ v : Word, (fuseOf v).good = true := fun v => by simp [fuseOf, Fuse.good]
  have hn : ∀ v : Word, (BitVec.ofNat 4 v.toNat).toNat.testBit i = (decide (i < 4) && v.toNat.testBit i) := fun v => by
    rw [BitVec.toNat_ofNat, Nat.testBit_mod_two_pow]
  have hr : ∀ (b : Boot) (v : Word), b.revFuse = some (fuseOf v) → b.revoked = BitVec.ofNat 4 v.toNat := fun b v e => by
    simp only [Boot.revoked, e, hg, if_true]
    rfl
  rw [hr _ _ rfl]
  cases hf : m.boot.revFuse with
  | none => simp [Boot.revoked, hf, bitOf] at w
  | some f =>
    simp only [Boot.revoked, hf] at w
    by_cases g : f.good = true
    · simp only [g, if_true, bitOf, hn, Bool.and_eq_true] at w ⊢
      exact ⟨w.1, bitOf_setBit_true (w := f.v) w.2⟩
    · simp only [g] at w
      simp [bitOf] at w

theorem bootCmd_ev {org : Mach} {w m} (h_m : Evolves org m) :
    Evolves org (bootCmd w m) := by
  delta bootCmd
  extract_lets x1
  refine Evolves.ite ?_ ?_
  · refine cmdError_ev ?_
    assumption
  · split
    · refine Evolves.ite ?_ ?_
      · refine bootRollback_ev ?_
        assumption
      · refine cmdError_ev ?_
        assumption
    · refine Evolves.ite ?_ ?_
      · refine bootReinstate_ev ?_
        assumption
      · refine cmdError_ev ?_
        assumption
    · refine Evolves.ite ?_ ?_
      · refine bootRaiseFloor_ev ?_
        assumption
      · refine cmdError_ev ?_
        assumption
    · refine Evolves.ite ?_ ?_
      · refine bootRevoke_ev ?_
        assumption
      · refine cmdError_ev ?_
        assumption
    · refine cmdError_ev ?_
      assumption

theorem execRollback_ev {org : Mach} {p hi s} (h_s : Evolves org s.m) :
    OutEv org (execRollback p hi s) := by
  delta execRollback
  refine act_ev (fun _ _ => ?_) h_s
  refine writeGate_ev (fun _ _ => ?_) ?_
  · refine bootCmd_ev ?_
    assumption
  · assumption

theorem execReinstate_ev {org : Mach} {p hi s} (h_s : Evolves org s.m) :
    OutEv org (execReinstate p hi s) := by
  delta execReinstate
  refine act_ev (fun _ _ => ?_) h_s
  refine writeGate_ev (fun _ _ => ?_) ?_
  · refine bootCmd_ev ?_
    assumption
  · assumption

theorem execRaiseFloor_ev {org : Mach} {p hi s} (h_s : Evolves org s.m) :
    OutEv org (execRaiseFloor p hi s) := by
  delta execRaiseFloor
  refine act_ev (fun _ _ => ?_) h_s
  refine writeGate_ev (fun _ _ => ?_) ?_
  · refine bootCmd_ev ?_
    assumption
  · assumption

theorem execRevokeSlot_ev {org : Mach} {p hi s} (h_s : Evolves org s.m) :
    OutEv org (execRevokeSlot p hi s) := by
  delta execRevokeSlot
  refine act_ev (fun _ _ => ?_) h_s
  refine writeGate_ev (fun _ _ => ?_) ?_
  · refine bootCmd_ev ?_
    assumption
  · assumption

end Sys2Proof.Machine
end

