-- ==== Sys2Proof/Laws/Evolve/RecHooks.lean ====
section
/-!
SUPPORT. What Machine/RecHooks.lean does never undoes what Laws/Evolve/Base.lean names: one lemma per operation.
-/

namespace Sys2Proof.Machine

theorem impLevels_ev {org : Mach} {free r m} (h_m : Evolves org m) :
    Evolves org (impLevels free r m) := by
  delta impLevels
  extract_lets x1 x2
  refine whenM_ev (fun _ _ => ?_) ?_
  · refine raise_ev ?_
    assumption
  · refine whenM_ev (fun _ _ => ?_) ?_
    · refine raise_ev ?_
      assumption
    · assumption

theorem recApplied_ev {org : Mach} {id m} (h_m : Evolves org m) :
    Evolves org (recApplied id m) := by
  delta recApplied
  refine Evolves.ite ?_ ?_
  · refine Evolves.upd ?_ rfl rfl rfl rfl rfl rfl rfl rfl rfl
    assumption
  · refine Evolves.ite ?_ ?_
    · refine sigPub_ev ?_
      assumption
    · refine Evolves.ite ?_ ?_
      · refine Evolves.upd ?_ rfl rfl rfl rfl rfl rfl rfl rfl rfl
        assumption
      · refine Evolves.ite ?_ ?_
        · refine onBeam_ev ?_
          assumption
        · refine Evolves.ite ?_ ?_
          · extract_lets x1
            split
            · refine onCtx_ev ?_
              assumption
            · assumption
          · assumption

end Sys2Proof.Machine
end

