-- ==== Sys2Proof/Laws/Evolve/RecordOps.lean ====
section
/-!
SUPPORT. What Machine/RecordOps.lean does never undoes what Laws/Evolve/Base.lean names: one lemma per operation.
-/

namespace Sys2Proof.Machine

theorem recApply_ev {org : Mach} {r m} (h_m : Evolves org m) :
    Evolves org (recApply r m) := by
  delta recApply
  split
  · assumption
  · extract_lets x1 x2 x3 x4 x5
    have hx4 : Evolves org x4 := by
      unfold x4
      refine onPort_ev ?_
      refine onPort_ev ?_
      refine Evolves.upd ?_ rfl rfl rfl rfl rfl rfl rfl rfl rfl
      assumption
    clear_value x4
    have hx5 : Evolves org x5 := by
      unfold x5
      refine recApplied_ev ?_
      refine log_ev ?_
      assumption
    clear_value x5
    refine whenM_ev (fun _ _ => ?_) ?_
    · refine impLevels_ev ?_
      assumption
    · assumption

theorem recApplyPrev_ev {org : Mach} {r ws p m} (h_m : Evolves org m) :
    Evolves org (recApplyPrev r ws p m) := by
  delta recApplyPrev
  extract_lets x1 x2
  have hx1 : Evolves org x1 := by
    unfold x1
    refine recApply_ev ?_
    refine onPort_ev ?_
    assumption
  clear_value x1
  refine onPort_ev ?_
  refine Evolves.upd ?_ rfl rfl rfl rfl rfl rfl rfl rfl rfl
  assumption

theorem takeRecord_ev {org : Mach} {id m} (h_m : Evolves org m) :
    Evolves org (takeRecord id m) := by
  delta takeRecord
  split
  · assumption
  · refine Evolves.ite ?_ ?_
    · split
      · refine recApplyPrev_ev ?_
        assumption
      · assumption
    · refine recApply_ev ?_
      assumption

theorem takeLayerRecords_ev {org : Mach} {m} (h_m : Evolves org m) :
    Evolves org (takeLayerRecords m) := by
  delta takeLayerRecords
  refine eachM_ev (fun _ _ _ => ?_) ?_
  · refine recApply_ev ?_
    assumption
  · assumption

theorem layerOver_ev {org : Mach} {m} (h_m : Evolves org m) :
    Evolves org (layerOver m) := by
  delta layerOver
  refine takeLayerRecords_ev ?_
  refine Evolves.upd ?_ rfl rfl rfl rfl rfl rfl rfl rfl rfl
  assumption

theorem recRefuse_ev {org : Mach} {p id code word m} (h_m : Evolves org m) :
    Evolves org (recRefuse p id code word m) := by
  delta recRefuse
  refine raise_ev ?_
  refine onPort_ev ?_
  assumption

theorem recAccept_ev {org : Mach} {p id info words m} (h_m : Evolves org m) :
    Evolves org (recAccept p id info words m) := by
  delta recAccept
  extract_lets x1 x2 x3 x4 x5 x6 x7
  have hx2 : Evolves org x2 := by
    unfold x2
    refine onPort_ev ?_
    refine onPort_ev ?_
    assumption
  clear_value x2
  have hx3 : Evolves org x3 := by
    unfold x3
    refine whenM_ev (fun _ _ => ?_) ?_
    · refine raise_ev ?_
      assumption
    · assumption
  clear_value x3
  have hx6 : Evolves org x6 := by
    unfold x6
    refine Evolves.upd ?_ rfl rfl rfl rfl rfl rfl rfl rfl rfl
    assumption
  clear_value x6
  have hx7 : Evolves org x7 := by
    unfold x7
    refine onPort_ev ?_
    assumption
  clear_value x7
  refine Evolves.ite ?_ ?_
  · assumption
  · refine recApply_ev ?_
    assumption

theorem recCommit_ev {org : Mach} {p w m} (h_m : Evolves org m) :
    Evolves org (recCommit p w m) := by
  delta recCommit
  extract_lets x1 x2
  refine Evolves.ite ?_ ?_
  · refine cmdError_ev ?_
    assumption
  · split
    · refine recRefuse_ev ?_
      assumption
    · refine Evolves.ite ?_ ?_
      · refine recRefuse_ev ?_
        refine lockErr_ev ?_
        assumption
      · refine Evolves.ite ?_ ?_
        · refine recRefuse_ev ?_
          assumption
        · refine Evolves.ite ?_ ?_
          · refine recRefuse_ev ?_
            refine lockErr_ev ?_
            assumption
          · split
            · refine recRefuse_ev ?_
              refine accErr_ev ?_
              assumption
            · refine recAccept_ev ?_
              assumption

theorem recSelect_ev {org : Mach} {p w m} (h_m : Evolves org m) :
    Evolves org (recSelect p w m) := by
  delta recSelect
  refine onPort_ev ?_
  assumption

theorem recDataWrite_ev {org : Mach} {p i v m} (h_m : Evolves org m) :
    Evolves org (recDataWrite p i v m) := by
  delta recDataWrite
  refine onPort_ev ?_
  assumption

theorem quoinOne_ev {org : Mach} {p id m} (h_m : Evolves org m) :
    Evolves org (quoinOne p id m) := by
  delta quoinOne
  refine Evolves.ite ?_ ?_
  · refine accErr_ev ?_
    assumption
  · refine Evolves.ite ?_ ?_
    · assumption
    · refine Evolves.ite ?_ ?_
      · refine accErr_ev ?_
        assumption
      · refine Evolves.upd ?_ rfl rfl rfl rfl rfl rfl rfl rfl rfl
        assumption

theorem quoinAdd_ev {org : Mach} {p w m} (h_m : Evolves org m) :
    Evolves org (quoinAdd p w m) := by
  delta quoinAdd
  refine Evolves.ite ?_ ?_
  · refine cmdError_ev ?_
    assumption
  · refine Evolves.ite ?_ ?_
    · refine Evolves.upd ?_ rfl rfl rfl rfl rfl rfl rfl rfl rfl
      assumption
    · refine quoinOne_ev ?_
      assumption

theorem recordTake_ev {org : Mach} {id m} (h_m : Evolves org m) :
    Evolves org (recordTake id m) := by
  delta recordTake
  split
  · assumption
  · refine Evolves.ite ?_ ?_
    · assumption
    · refine Evolves.ite ?_ ?_
      · assumption
      · refine takeRecord_ev ?_
        assumption

theorem holdSection_ev {org : Mach} {off bs m} (h_m : Evolves org m) :
    Evolves org (holdSection off bs m) := by
  delta holdSection
  refine memWrite_ev ?_
  assumption

theorem reloadSwitch_ev {org : Mach} {m} (h_m : Evolves org m) :
    Evolves org (reloadSwitch m) := by
  delta reloadSwitch
  refine Evolves.ite ?_ ?_
  · assumption
  · extract_lets x1 x2 x3
    refine raise_ev ?_
    refine whenM_ev (fun _ _ => ?_) ?_
    · refine onBeam_ev ?_
      assumption
    · refine Evolves.upd ?_ rfl rfl rfl rfl rfl rfl rfl rfl rfl
      assumption

theorem slugSwitch_ev {org : Mach} {b m} (h_m : Evolves org m) :
    Evolves org (slugSwitch b m) := by
  delta slugSwitch
  refine Evolves.ite ?_ ?_
  · refine reloadSwitch_ev ?_
    assumption
  · assumption

theorem execRecSelect_ev {org : Mach} {p v s} (h_s : Evolves org s.m) :
    OutEv org (execRecSelect p v s) := by
  delta execRecSelect
  refine act_ev (fun _ _ => ?_) h_s
  refine writeGate_ev (fun _ _ => ?_) ?_
  · refine recSelect_ev ?_
    assumption
  · assumption

theorem execRecDataWrite_ev {org : Mach} {p i v s} (h_s : Evolves org s.m) :
    OutEv org (execRecDataWrite p i v s) := by
  delta execRecDataWrite
  refine act_ev (fun _ _ => ?_) h_s
  refine writeGate_ev (fun _ _ => ?_) ?_
  · refine recDataWrite_ev ?_
    assumption
  · assumption

theorem execQuoinAdd_ev {org : Mach} {p v s} (h_s : Evolves org s.m) :
    OutEv org (execQuoinAdd p v s) := by
  delta execQuoinAdd
  refine act_ev (fun _ _ => ?_) h_s
  refine writeGate_ev (fun _ _ => ?_) ?_
  · refine quoinAdd_ev ?_
    assumption
  · assumption

end Sys2Proof.Machine
end

