-- ==== Sys2Proof/Laws/Evolve/JobBase.lean ====
section
/-!
SUPPORT. What Machine/JobBase.lean does never undoes what Laws/Evolve/Base.lean names: one lemma per operation.
-/

namespace Sys2Proof.Machine

theorem jobMove_ev {org : Mach} {st causes m} (h_m : Evolves org m) :
    Evolves org (jobMove st causes m) := by
  delta jobMove
  refine Evolves.ite ?_ ?_
  · assumption
  · extract_lets x1 x2 x3
    have hx3 : Evolves org x3 := by
      unfold x3
      refine sigPub_ev ?_
      refine raise_ev ?_
      refine Evolves.upd ?_ rfl rfl rfl rfl rfl rfl rfl rfl rfl
      assumption
    clear_value x3
    refine Evolves.ite ?_ ?_
    · assumption
    · refine log_ev ?_
      assumption

theorem jobAddCause_ev {org : Mach} {c m} (h_m : Evolves org m) :
    Evolves org (jobAddCause c m) := by
  delta jobAddCause
  refine jobMove_ev ?_
  assumption

theorem onSlot_ev {org : Mach} {i f m} (h_m : Evolves org m) :
    Evolves org (onSlot i f m) := by
  delta onSlot
  refine Evolves.upd ?_ rfl rfl rfl rfl rfl rfl rfl rfl rfl
  assumption

theorem queueFell_ev {org : Mach} {before m} (h_m : Evolves org m) :
    Evolves org (queueFell before m) := by
  delta queueFell
  extract_lets x1
  refine whenM_ev (fun _ _ => ?_) ?_
  · refine raise_ev ?_
    assumption
  · assumption

theorem unqueue_ev {org : Mach} {i m} (h_m : Evolves org m) :
    Evolves org (unqueue i m) := by
  delta unqueue
  refine queueFell_ev ?_
  refine Evolves.upd ?_ rfl rfl rfl rfl rfl rfl rfl rfl rfl
  assumption

theorem freeSlot_ev {org : Mach} {i m} (h_m : Evolves org m) :
    Evolves org (freeSlot i m) := by
  delta freeSlot
  extract_lets x1 x2 x3 x4 x5
  have hx2 : Evolves org x2 := by
    unfold x2
    refine onSlot_ev ?_
    assumption
  clear_value x2
  have hx3 : Evolves org x3 := by
    unfold x3
    refine Evolves.ite ?_ ?_
    · refine unqueue_ev ?_
      assumption
    · assumption
  clear_value x3
  have hx5 : Evolves org x5 := by
    unfold x5
    refine Evolves.ite ?_ ?_
    · refine sigPub_ev ?_
      refine Evolves.upd ?_ rfl rfl rfl rfl rfl rfl rfl rfl rfl
      assumption
    · assumption
  clear_value x5
  refine whenM_ev (fun _ _ => ?_) ?_
  · refine raise_ev ?_
    assumption
  · assumption

theorem commitResult_ev {org : Mach} {code m} (h_m : Evolves org m) :
    Evolves org (commitResult code m) := by
  delta commitResult
  refine whenM_ev (fun _ _ => ?_) ?_
  · refine raise_ev ?_
    assumption
  · refine Evolves.upd ?_ rfl rfl rfl rfl rfl rfl rfl rfl rfl
    assumption

theorem commitDrop_ev {org : Mach} {code m} (h_m : Evolves org m) :
    Evolves org (commitDrop code m) := by
  delta commitDrop
  split
  · refine commitResult_ev ?_
    refine onSlot_ev ?_
    assumption
  · assumption

end Sys2Proof.Machine
end

