-- ==== Sys2Proof/Laws/Evolve/AxisBase.lean ====
section
/-!
SUPPORT. What Machine/AxisBase.lean does never undoes what Laws/Evolve/Base.lean names: one lemma per operation.
-/

namespace Sys2Proof.Machine

theorem cmpArm_ev {org : Mach} {a m} (h_m : Evolves org m) :
    Evolves org (cmpArm a m) := by
  delta cmpArm
  extract_lets x1 x2
  refine whenM_ev (fun _ _ => ?_) ?_
  · refine raise_ev ?_
    assumption
  · refine onAxis_ev ?_
    assumption

theorem cmpCross_ev {org : Mach} {a old m} (h_m : Evolves org m) :
    Evolves org (cmpCross a old m) := by
  delta cmpCross
  extract_lets x1 x2 x3
  refine Evolves.ite ?_ ?_
  · assumption
  · split
    · assumption
    · refine Evolves.ite ?_ ?_
      · extract_lets x4
        refine cmpArm_ev ?_
        refine emit_ev ?_
        refine onAxis_ev ?_
        assumption
      · assumption

theorem encOutCount_ev {org : Mach} {c dir m} (h_m : Evolves org m) :
    Evolves org (encOutCount c dir m) := by
  delta encOutCount
  extract_lets x1 x2 x3 x4 x5 x6 x7 x8 x9
  refine Evolves.ite ?_ ?_
  · assumption
  · refine Evolves.ite ?_ ?_
    · refine onAxis_ev ?_
      assumption
    · refine Evolves.ite ?_ ?_
      · refine onAxis_ev ?_
        assumption
      · refine raise_ev ?_
        refine onAxis_ev ?_
        assumption

theorem encOutSource_ev {org : Mach} {a commanded dir m} (h_m : Evolves org m) :
    Evolves org (encOutSource a commanded dir m) := by
  delta encOutSource
  extract_lets x1
  have hx1 : Evolves org x1 := by
    unfold x1
    refine takeRecord_ev ?_
    assumption
  clear_value x1
  refine Evolves.ite ?_ ?_
  · assumption
  · refine eachM_ev (fun _ _ _ => ?_) ?_
    · extract_lets x2
      refine Evolves.ite ?_ ?_
      · refine encOutCount_ev ?_
        assumption
      · assumption
    · assumption

theorem axRamp_ev {org : Mach} {atMax a m} (h_m : Evolves org m) :
    Evolves org (axRamp atMax a m) := by
  delta axRamp
  extract_lets x1 x2 x3 x4 x5
  refine onAxis_ev ?_
  assumption

theorem moveEnded_ev {org : Mach} {a m} (h_m : Evolves org m) :
    Evolves org (moveEnded a m) := by
  delta moveEnded
  extract_lets x1 x2 x3 x4
  have hx4 : Evolves org x4 := by
    unfold x4
    refine onAxis_ev ?_
    assumption
  clear_value x4
  refine Evolves.ite ?_ ?_
  · refine raise_ev ?_
    refine healthLog_ev ?_
    assumption
  · assumption

theorem axFaulted_ev {org : Mach} {cause a m} (h_m : Evolves org m) :
    Evolves org (axFaulted cause a m) := by
  delta axFaulted
  extract_lets x1 x2 x3
  have hx2 : Evolves org x2 := by
    unfold x2
    refine onAxis_ev ?_
    assumption
  clear_value x2
  have hx3 : Evolves org x3 := by
    unfold x3
    refine whenM_ev (fun _ _ => ?_) ?_
    · refine raise_ev ?_
      assumption
    · assumption
  clear_value x3
  refine raise_ev ?_
  refine log_ev ?_
  assumption

theorem encFault_ev {org : Mach} {cause a m} (h_m : Evolves org m) :
    Evolves org (encFault cause a m) := by
  delta encFault
  extract_lets x1 x2 x3 x4
  have hx2 : Evolves org x2 := by
    unfold x2
    refine onAxis_ev ?_
    assumption
  clear_value x2
  have hx4 : Evolves org x4 := by
    unfold x4
    refine onAxis_ev ?_
    refine axRamp_ev ?_
    assumption
  clear_value x4
  refine Evolves.ite ?_ ?_
  · assumption
  · refine Evolves.ite ?_ ?_
    · refine axFaulted_ev ?_
      assumption
    · refine whenM_ev (fun _ _ => ?_) ?_
      · refine raise_ev ?_
        assumption
      · assumption

theorem axAtRest_ev {org : Mach} {a m} (h_m : Evolves org m) :
    Evolves org (axAtRest a m) := by
  delta axAtRest
  extract_lets x1 x2 x3 x4
  have hx4 : Evolves org x4 := by
    unfold x4
    refine onAxis_ev ?_
    assumption
  clear_value x4
  split
  · refine axFaulted_ev ?_
    assumption
  · refine whenM_ev (fun _ _ => ?_) ?_
    · refine raise_ev ?_
      refine moveEnded_ev ?_
      assumption
    · assumption

theorem homeAbort_ev {org : Mach} {code a m} (h_m : Evolves org m) :
    Evolves org (homeAbort code a m) := by
  delta homeAbort
  extract_lets x1 x2 x3
  have hx2 : Evolves org x2 := by
    unfold x2
    refine onAxis_ev ?_
    assumption
  clear_value x2
  have hx3 : Evolves org x3 := by
    unfold x3
    refine raise_ev ?_
    assumption
  clear_value x3
  refine Evolves.ite ?_ ?_
  · refine axAtRest_ev ?_
    refine onAxis_ev ?_
    assumption
  · refine axRamp_ev ?_
    assumption

theorem axStop_ev {org : Mach} {atMax keep a m} (h_m : Evolves org m) :
    Evolves org (axStop atMax keep a m) := by
  delta axStop
  extract_lets x1 x2 x3
  have hx2 : Evolves org x2 := by
    unfold x2
    refine onAxis_ev ?_
    assumption
  clear_value x2
  have hx3 : Evolves org x3 := by
    unfold x3
    refine Evolves.ite ?_ ?_
    · assumption
    · refine onAxis_ev ?_
      assumption
  clear_value x3
  split
  · refine Evolves.ite ?_ ?_
    · refine axAtRest_ev ?_
      refine onAxis_ev ?_
      assumption
    · refine axRamp_ev ?_
      assumption
  · refine Evolves.ite ?_ ?_
    · refine axRamp_ev ?_
      assumption
    · assumption
  · refine Evolves.ite ?_ ?_
    · assumption
    · refine onAxis_ev ?_
      assumption

theorem axesHalt_ev {org : Mach} {m} (h_m : Evolves org m) :
    Evolves org (axesHalt m) := by
  delta axesHalt
  refine eachM_ev (fun _ _ _ => ?_) ?_
  · refine Evolves.ite ?_ ?_
    · refine homeAbort_ev ?_
      assumption
    · refine axStop_ev ?_
      assumption
  · assumption

theorem jobStopAxis_ev {org : Mach} {keep a m} (h_m : Evolves org m) :
    Evolves org (jobStopAxis keep a m) := by
  delta jobStopAxis
  refine Evolves.ite ?_ ?_
  · refine homeAbort_ev ?_
    assumption
  · refine axStop_ev ?_
    assumption

theorem moveBegin_ev {org : Mach} {goal bound a m} (h_m : Evolves org m) :
    Evolves org (moveBegin goal bound a m) := by
  delta moveBegin
  extract_lets x1 x2 x3
  refine onAxis_ev ?_
  assumption

theorem jobMoveAxis_ev {org : Mach} {goal bound a m} (h_m : Evolves org m) :
    Evolves org (jobMoveAxis goal bound a m) := by
  delta jobMoveAxis
  refine Evolves.ite ?_ ?_
  · refine moveBegin_ev ?_
    assumption
  · assumption

theorem oneStep_ev {org : Mach} {a m} (h_m : Evolves org m) :
    Evolves org (oneStep a m) := by
  delta oneStep
  extract_lets x1 x2 x3 x4 x5 x6
  have hx4 : Evolves org x4 := by
    unfold x4
    refine onAxis_ev ?_
    assumption
  clear_value x4
  have hx5 : Evolves org x5 := by
    unfold x5
    refine cmpCross_ev ?_
    assumption
  clear_value x5
  have hx6 : Evolves org x6 := by
    unfold x6
    refine encOutSource_ev ?_
    assumption
  clear_value x6
  refine Evolves.ite ?_ ?_
  · refine encOutSource_ev ?_
    assumption
  · assumption

theorem homeNext_ev {org : Mach} {s a m} (h_m : Evolves org m) :
    Evolves org (homeNext s a m) := by
  delta homeNext
  refine onAxis_ev ?_
  assumption

theorem homeLatch_ev {org : Mach} {cmd meas a m} (h_m : Evolves org m) :
    Evolves org (homeLatch cmd meas a m) := by
  delta homeLatch
  refine onAxis_ev ?_
  assumption

theorem homeEnd_ev {org : Mach} {a m} (h_m : Evolves org m) :
    Evolves org (homeEnd a m) := by
  delta homeEnd
  split
  · assumption
  · extract_lets x1
    split
    · extract_lets x2 x3 x4 x5
      refine raise_ev ?_
      refine onAxis_ev ?_
      assumption

theorem homeBegin_ev {org : Mach} {a m0} (h_m0 : Evolves org m0) :
    Evolves org (homeBegin a m0) := by
  delta homeBegin
  extract_lets x1 x2 x3 x4 x5 x6 x7 x8 x9
  have hx1 : Evolves org x1 := by
    unfold x1
    refine takeRecord_ev ?_
    assumption
  clear_value x1
  have hf_x5 : ∀ a0 m, Evolves org m → Evolves org (x5 a0 m) := by
    intro a0 m hm
    unfold x5
    refine onAxis_ev ?_
    assumption
  clear_value x5
  clear_value x2
  split
  · apply hf_x5
    assumption
  · refine raise_ev ?_
    refine onAxis_ev ?_
    assumption
  · refine raise_ev ?_
    refine onAxis_ev ?_
    assumption
  · refine Evolves.ite ?_ ?_
    · apply hf_x5
      assumption
    · apply hf_x5
      assumption

end Sys2Proof.Machine
end

