-- ==== Sys2Proof/Laws/Evolve/IlkBase.lean ====
section
/-!
SUPPORT. What Machine/IlkBase.lean does never undoes what Laws/Evolve/Base.lean names: one lemma per operation.
-/

namespace Sys2Proof.Machine

theorem ilkStamp_ev {org : Mach} {m} (h_m : Evolves org m) :
    Evolves org (ilkStamp m) := by
  delta ilkStamp
  refine Evolves.ite ?_ ?_
  · refine onIlk_ev ?_
    assumption
  · refine onIlk_ev ?_
    assumption

theorem gatesFollow_ev {org : Mach} {old new m} (h_m : Evolves org m) :
    Evolves org (gatesFollow old new m) := by
  delta gatesFollow
  refine eachM_ev (fun _ _ _ => ?_) ?_
  · refine emit_ev ?_
    refine onBeam_ev ?_
    assumption
  · assumption

theorem ilkDrive_ev {org : Mach} {m} (h_m : Evolves org m) :
    Evolves org (ilkDrive m) := by
  delta ilkDrive
  extract_lets x1 x2 x3
  have hx2 : Evolves org x2 := by
    unfold x2
    refine whenM_ev (fun _ _ => ?_) ?_
    · refine ilkStamp_ev ?_
      assumption
    · assumption
  clear_value x2
  refine gatesFollow_ev ?_
  refine onIlk_ev ?_
  assumption

theorem lampSend_ev {org : Mach} {addr cmd data m} (h_m : Evolves org m) :
    Evolves org (lampSend addr cmd data m) := by
  delta lampSend
  refine whenM_ev (fun _ _ => ?_) ?_
  · refine emit_ev ?_
    assumption
  · assumption

theorem sendSet_ev {org : Mach} {a g fade waitGo m} (h_m : Evolves org m) :
    Evolves org (sendSet a g fade waitGo m) := by
  delta sendSet
  extract_lets x1 x2 x3 x4
  have hx4 : Evolves org x4 := by
    unfold x4
    refine onIlk_ev ?_
    assumption
  clear_value x4
  refine lampSend_ev ?_
  assumption

theorem sendGroup_ev {org : Mach} {g m} (h_m : Evolves org m) :
    Evolves org (sendGroup g m) := by
  delta sendGroup
  refine eachM_ev (fun _ _ _ => ?_) ?_
  · refine sendSet_ev ?_
    assumption
  · assumption

theorem lampsFollow_ev {org : Mach} {m} (h_m : Evolves org m) :
    Evolves org (lampsFollow m) := by
  delta lampsFollow
  extract_lets x1
  refine Evolves.ite ?_ ?_
  · assumption
  · refine eachM_ev (fun _ _ _ => ?_) ?_
    · refine sendGroup_ev ?_
      assumption
    · refine onIlk_ev ?_
      assumption

theorem applyScene_ev {org : Mach} {s m0} (h_m0 : Evolves org m0) :
    Evolves org (applyScene s m0) := by
  delta applyScene
  extract_lets x1 x2 x3
  have hx1 : Evolves org x1 := by
    unfold x1
    refine takeRecord_ev ?_
    refine onIlk_ev ?_
    assumption
  clear_value x1
  have hx3 : Evolves org x3 := by
    unfold x3
    refine eachM_ev (fun _ _ _ => ?_) ?_
    · refine eachM_ev (fun _ _ _ => ?_) ?_
      · refine sendSet_ev ?_
        assumption
      · assumption
    · assumption
  clear_value x3
  refine lampSend_ev ?_
  assumption

theorem pinsFollow_ev {org : Mach} {m} (h_m : Evolves org m) :
    Evolves org (pinsFollow m) := by
  delta pinsFollow
  refine lampsFollow_ev ?_
  refine ilkDrive_ev ?_
  assumption

end Sys2Proof.Machine
end

