-- ==== Sys2Proof/Laws/Evolve/LaneBase.lean ====
section
/-!
SUPPORT. What Machine/LaneBase.lean does never undoes what Laws/Evolve/Base.lean names: one lemma per operation.
-/

namespace Sys2Proof.Machine

theorem sendOn_ev {org : Mach} {l type stamp payload m} (h_m : Evolves org m) :
    Evolves org (sendOn l type stamp payload m) := by
  delta sendOn
  extract_lets x1
  refine Evolves.ite ?_ ?_
  · refine emit_ev ?_
    refine onHead_ev ?_
    assumption
  · assumption

theorem sendBoth_ev {org : Mach} {h type stamp payload m} (h_m : Evolves org m) :
    Evolves org (sendBoth h type stamp payload m) := by
  delta sendBoth
  extract_lets x1
  refine Evolves.ite ?_ ?_
  · refine eachM_ev (fun _ _ _ => ?_) ?_
    · refine emit_ev ?_
      assumption
    · refine onHead_ev ?_
      assumption
  · assumption

theorem sendBlock_ev {org : Mach} {h kind payload m} (h_m : Evolves org m) :
    Evolves org (sendBlock h kind payload m) := by
  delta sendBlock
  refine eachM_ev (fun _ _ _ => ?_) ?_
  · refine emit_ev ?_
    assumption
  · assumption

theorem setBucket_ev {org : Mach} {h type b m} (h_m : Evolves org m) :
    Evolves org (setBucket h type b m) := by
  delta setBucket
  refine onHead_ev ?_
  assumption

theorem bucketCredit_ev {org : Mach} {h type m} (h_m : Evolves org m) :
    Evolves org (bucketCredit h type m) := by
  delta bucketCredit
  extract_lets x1
  refine setBucket_ev ?_
  assumption

theorem parkSend_ev {org : Mach} {reason h m} (h_m : Evolves org m) :
    Evolves org (parkSend reason h m) := by
  delta parkSend
  refine onHead_ev ?_
  refine sendBoth_ev ?_
  assumption

theorem releaseSend_ev {org : Mach} {h m} (h_m : Evolves org m) :
    Evolves org (releaseSend h m) := by
  delta releaseSend
  refine Evolves.ite ?_ ?_
  · refine onHead_ev ?_
    refine sendBoth_ev ?_
    assumption
  · assumption

theorem cmdSend_ev {org : Mach} {h m} (h_m : Evolves org m) :
    Evolves org (cmdSend h m) := by
  delta cmdSend
  extract_lets x1 x2
  refine onHead_ev ?_
  refine sendBoth_ev ?_
  assumption

theorem cmdFlush_ev {org : Mach} {m} (h_m : Evolves org m) :
    Evolves org (cmdFlush m) := by
  delta cmdFlush
  refine eachM_ev (fun _ _ _ => ?_) ?_
  · refine cmdSend_ev ?_
    assumption
  · assumption

theorem configSend_ev {org : Mach} {b m} (h_m : Evolves org m) :
    Evolves org (configSend b m) := by
  delta configSend
  extract_lets x1 x2 x3
  refine Evolves.ite ?_ ?_
  · refine sendBoth_ev ?_
    refine onMpl_ev ?_
    assumption
  · assumption

end Sys2Proof.Machine
end

