-- ==== Sys2Proof/Laws/Evolve/ImpBase.lean ====
section
/-!
SUPPORT. What Machine/ImpBase.lean does never undoes what Laws/Evolve/Base.lean names: one lemma per operation.
-/

namespace Sys2Proof.Machine

theorem setSlug_ev {org : Mach} {src i st m} (h_m : Evolves org m) :
    Evolves org (setSlug src i st m) := by
  delta setSlug
  refine onImpAll_ev ?_
  assumption

theorem takeWork_ev {org : Mach} {b w m} (h_m : Evolves org m) :
    Evolves org (takeWork b w m) := by
  delta takeWork
  extract_lets x1 x2
  have hx2 : Evolves org x2 := by
    unfold x2
    refine setSlug_ev ?_
    assumption
  clear_value x2
  split
  · refine onImpAll_ev ?_
    refine setSlug_ev ?_
    assumption
  · refine Evolves.ite ?_ ?_
    · refine onImp_ev ?_
      assumption
    · refine onImpAll_ev ?_
      assumption

theorem returnWork_ev {org : Mach} {b w m} (h_m : Evolves org m) :
    Evolves org (returnWork b w m) := by
  delta returnWork
  extract_lets x1 x2
  have hx2 : Evolves org x2 := by
    unfold x2
    refine setSlug_ev ?_
    assumption
  clear_value x2
  split
  · refine onImpAll_ev ?_
    refine setSlug_ev ?_
    assumption
  · refine Evolves.ite ?_ ?_
    · refine onImp_ev ?_
      assumption
    · refine onImpAll_ev ?_
      assumption

theorem joinCurrent_ev {org : Mach} {into motion b m} (h_m : Evolves org m) :
    Evolves org (joinCurrent into motion b m) := by
  delta joinCurrent
  split
  · assumption
  · extract_lets x1 x2 x3 x4 x5
    refine onBeam_ev ?_
    assumption

theorem releaseNext_ev {org : Mach} {b m} (h_m : Evolves org m) :
    Evolves org (releaseNext b m) := by
  delta releaseNext
  split
  · assumption
  · extract_lets x1
    have hx1 : Evolves org x1 := by
      unfold x1
      refine returnWork_ev ?_
      refine onImp_ev ?_
      assumption
    clear_value x1
    split
    · refine Evolves.ite ?_ ?_
      · refine joinCurrent_ev ?_
        assumption
      · assumption
    · assumption

theorem pauseSettle_ev {org : Mach} {m} (h_m : Evolves org m) :
    Evolves org (pauseSettle m) := by
  delta pauseSettle
  split
  · assumption
  · refine Evolves.ite ?_ ?_
    · refine jobMove_ev ?_
      refine onJob_ev ?_
      assumption
    · assumption

theorem pauseExposing_ev {org : Mach} {c m} (h_m : Evolves org m) :
    Evolves org (pauseExposing c m) := by
  delta pauseExposing
  extract_lets x1
  have hx1 : Evolves org x1 := by
    unfold x1
    refine eachM_ev (fun _ _ _ => ?_) ?_
    · refine releaseNext_ev ?_
      assumption
    · refine onImpAll_ev ?_
      assumption
  clear_value x1
  refine pauseSettle_ev ?_
  refine eachM_ev (fun _ _ _ => ?_) ?_
  · refine onImp_ev ?_
    assumption
  · refine onJob_ev ?_
    assumption

theorem pauseRecord_ev {org : Mach} {m} (h_m : Evolves org m) :
    Evolves org (pauseRecord m) := by
  delta pauseRecord
  refine Evolves.ite ?_ ?_
  · refine pauseExposing_ev ?_
    assumption
  · refine onJob_ev ?_
    assumption

theorem impCross_ev {org : Mach} {before m} (h_m : Evolves org m) :
    Evolves org (impCross before m) := by
  delta impCross
  extract_lets x1
  have hx1 : Evolves org x1 := by
    unfold x1
    refine impLevels_ev ?_
    assumption
  clear_value x1
  refine whenM_ev (fun _ _ => ?_) ?_
  · refine pauseRecord_ev ?_
    assumption
  · assumption

theorem impStore_ev {org : Mach} {e m} (h_m : Evolves org m) :
    Evolves org (impStore e m) := by
  delta impStore
  extract_lets x1 x2 x3 x4
  have hx3 : Evolves org x3 := by
    unfold x3
    refine memWrite_ev ?_
    assumption
  clear_value x3
  refine impCross_ev ?_
  refine onImpAll_ev ?_
  assumption

theorem impWaiter_ev {org : Mach} {m} (h_m : Evolves org m) :
    Evolves org (impWaiter m) := by
  delta impWaiter
  split
  · refine impStore_ev ?_
    refine onImpAll_ev ?_
    assumption
  · assumption

theorem impWaiters_ev {org : Mach} {m} (h_m : Evolves org m) :
    Evolves org (impWaiters m) := by
  delta impWaiters
  refine eachM_ev (fun _ _ _ => ?_) ?_
  · refine impWaiter_ev ?_
    assumption
  · assumption

theorem impPut_ev {org : Mach} {e0 m0} (h_m0 : Evolves org m0) :
    Evolves org (impPut e0 m0) := by
  delta impPut
  extract_lets x1 x2
  have hx1 : Evolves org x1 := by
    unfold x1
    refine impWaiters_ev ?_
    assumption
  clear_value x1
  refine Evolves.ite ?_ ?_
  · refine impStore_ev ?_
    assumption
  · refine onImpAll_ev ?_
    assumption

theorem holdRun_ev {org : Mach} {src i n cause m} (h_m : Evolves org m) :
    Evolves org (holdRun src i n cause m) := by
  delta holdRun
  refine Evolves.ite ?_ ?_
  · assumption
  · extract_lets x1 x2 x3
    have hx1 : Evolves org x1 := by
      unfold x1
      refine eachM_ev (fun _ _ _ => ?_) ?_
      · refine setSlug_ev ?_
        assumption
      · assumption
    clear_value x1
    have hx3 : Evolves org x3 := by
      unfold x3
      refine onImpAll_ev ?_
      assumption
    clear_value x3
    refine impPut_ev ?_
    refine whenM_ev (fun _ _ => ?_) ?_
    · refine raise_ev ?_
      assumption
    · assumption

theorem holdAll_ev {org : Mach} {src cause is m} (h_m : Evolves org m) :
    Evolves org (holdAll src cause is m) := by
  delta holdAll
  refine eachM_ev (fun _ _ _ => ?_) ?_
  · split
    · refine holdRun_ev ?_
      assumption
  · assumption

end Sys2Proof.Machine
end

