-- ==== Sys2Proof/Laws/Evolve/BeamBase.lean ====
section
/-!
SUPPORT. What Machine/BeamBase.lean does never undoes what Laws/Evolve/Base.lean names: one lemma per operation.
-/

namespace Sys2Proof.Machine

theorem restAt_ev {org : Mach} {b t m} (h_m : Evolves org m) :
    Evolves org (restAt b t m) := by
  delta restAt
  split
  · refine onBeam_ev ?_
    assumption

theorem setGate_ev {org : Mach} {b v t tap m} (h_m : Evolves org m) :
    Evolves org (setGate b v t tap m) := by
  delta setGate
  extract_lets x1 x2 x3
  have hx2 : Evolves org x2 := by
    unfold x2
    refine onBeam_ev ?_
    assumption
  clear_value x2
  refine whenM_ev (fun _ _ => ?_) ?_
  · refine emit_ev ?_
    assumption
  · assumption

theorem gateForced_ev {org : Mach} {b m} (h_m : Evolves org m) :
    Evolves org (gateForced b m) := by
  delta gateForced
  extract_lets x1
  refine onBeam_ev ?_
  refine setGate_ev ?_
  assumption

theorem decelerate_ev {org : Mach} {b m0} (h_m0 : Evolves org m0) :
    Evolves org (decelerate b m0) := by
  delta decelerate
  extract_lets x1 x2
  have hx2 : Evolves org x2 := by
    unfold x2
    refine restAt_ev ?_
    assumption
  clear_value x2
  split
  · assumption
  · split
    · refine onBeam_ev ?_
      assumption
    · extract_lets x3
      refine onBeam_ev ?_
      assumption

theorem recordEnd_ev {org : Mach} {b m} (h_m : Evolves org m) :
    Evolves org (recordEnd b m) := by
  delta recordEnd
  split
  · assumption
  · extract_lets x1 x2 x3 x4
    have hx2 : Evolves org x2 := by
      unfold x2
      refine impPut_ev ?_
      assumption
    clear_value x2
    have hx3 : Evolves org x3 := by
      unfold x3
      refine setSlug_ev ?_
      assumption
    clear_value x3
    have hx4 : Evolves org x4 := by
      unfold x4
      refine onImpAll_ev ?_
      assumption
    clear_value x4
    refine onImp_ev ?_
    assumption

theorem beamStop_ev {org : Mach} {ends b m0} (h_m0 : Evolves org m0) :
    Evolves org (beamStop ends b m0) := by
  delta beamStop
  extract_lets x1 x2
  have hx1 : Evolves org x1 := by
    unfold x1
    refine releaseNext_ev ?_
    assumption
  clear_value x1
  refine Evolves.ite ?_ ?_
  · refine gateForced_ev ?_
    assumption
  · split
    · refine Evolves.ite ?_ ?_
      · assumption
      · refine decelerate_ev ?_
        refine gateForced_ev ?_
        refine recordEnd_ev ?_
        assumption
    · split
      · extract_lets x3 x4
        have hx3 : Evolves org x3 := by
          unfold x3
          refine impPut_ev ?_
          assumption
        clear_value x3
        have hx4 : Evolves org x4 := by
          unfold x4
          refine onImp_ev ?_
          assumption
        clear_value x4
        refine decelerate_ev ?_
        refine gateForced_ev ?_
        refine onBeam_ev ?_
        assumption
    · extract_lets x5
      have hx5 : Evolves org x5 := by
        unfold x5
        refine onImp_ev ?_
        assumption
      clear_value x5
      refine decelerate_ev ?_
      refine gateForced_ev ?_
      assumption
    · extract_lets x6
      have hx6 : Evolves org x6 := by
        unfold x6
        refine onImp_ev ?_
        assumption
      clear_value x6
      refine decelerate_ev ?_
      refine gateForced_ev ?_
      assumption
    · refine decelerate_ev ?_
      refine gateForced_ev ?_
      assumption

theorem beamPark_ev {org : Mach} {b m} (h_m : Evolves org m) :
    Evolves org (beamPark b m) := by
  delta beamPark
  refine Evolves.ite ?_ ?_
  · assumption
  · refine raise_ev ?_
    refine onBeam_ev ?_
    assumption

theorem beamFreeze_ev {org : Mach} {b m} (h_m : Evolves org m) :
    Evolves org (beamFreeze b m) := by
  delta beamFreeze
  refine gateForced_ev ?_
  assumption

theorem sampleTemp_ev {org : Mach} {b m} (h_m : Evolves org m) :
    Evolves org (sampleTemp b m) := by
  delta sampleTemp
  split
  · refine onBeam_ev ?_
    assumption
  · refine Evolves.ite ?_ ?_
    · assumption
    · refine raise_ev ?_
      refine onBeam_ev ?_
      assumption

theorem slugRecords_ev {org : Mach} {b m} (h_m : Evolves org m) :
    Evolves org (slugRecords b m) := by
  delta slugRecords
  refine sampleTemp_ev ?_
  refine takeRecord_ev ?_
  refine takeRecord_ev ?_
  refine takeRecord_ev ?_
  assumption

theorem slugBegin_ev {org : Mach} {w cont b m0} (h_m0 : Evolves org m0) :
    Evolves org (slugBegin w cont b m0) := by
  delta slugBegin
  split
  · extract_lets x1 x2 x3 x4 x5
    have hx1 : Evolves org x1 := by
      unfold x1
      refine slugRecords_ev ?_
      refine Evolves.ite ?_ ?_
      · refine slugSwitch_ev ?_
        assumption
      · assumption
    clear_value x1
    split
    · extract_lets x6
      split
      · extract_lets x7
        split
        · split
          · extract_lets x8 x9 x10 x11 x12
            have hx10 : Evolves org x10 := by
              unfold x10
              refine onBeam_ev ?_
              assumption
            clear_value x10
            have hx11 : Evolves org x11 := by
              unfold x11
              refine whenM_ev (fun _ _ => ?_) ?_
              · refine onMpl_ev ?_
                assumption
              · assumption
            clear_value x11
            have hx12 : Evolves org x12 := by
              unfold x12
              refine whenM_ev (fun _ _ => ?_) ?_
              · refine raise_ev ?_
                assumption
              · refine whenM_ev (fun _ _ => ?_) ?_
                · refine raise_ev ?_
                  assumption
                · refine whenM_ev (fun _ _ => ?_) ?_
                  · refine raise_ev ?_
                    assumption
                  · assumption
            clear_value x12
            refine onImp_ev ?_
            assumption

theorem joinNext_ev {org : Mach} {b m} (h_m : Evolves org m) :
    Evolves org (joinNext b m) := by
  delta joinNext
  split
  · refine Evolves.ite ?_ ?_
    · assumption
    · refine Evolves.ite ?_ ?_
      · refine joinCurrent_ev ?_
        assumption
      · split
        · split
          · split
            · refine Evolves.ite ?_ ?_
              · refine raise_ev ?_
                refine joinCurrent_ev ?_
                assumption
              · assumption
        · assumption
  · assumption

end Sys2Proof.Machine
end

