-- ==== Sys2Proof/Laws/Evolve/CellBase.lean ====
section
/-!
SUPPORT. What Machine/CellBase.lean does never undoes what Laws/Evolve/Base.lean names: one lemma per operation.
-/

namespace Sys2Proof.Machine

theorem corrNote_ev {org : Mach} {n v m} (h_m : Evolves org m) :
    Evolves org (corrNote n v m) := by
  delta corrNote
  refine Evolves.ite ?_ ?_
  · refine onMpl_ev ?_
    assumption
  · assumption

theorem ctxWrite_ev {org : Mach} {k n v t m} (h_m : Evolves org m) :
    Evolves org (ctxWrite k n v t m) := by
  delta ctxWrite
  extract_lets x1
  have hx1 : Evolves org x1 := by
    unfold x1
    refine corrNote_ev ?_
    refine sigPut_ev ?_
    assumption
  clear_value x1
  refine Evolves.ite ?_ ?_
  · refine onHead_ev ?_
    assumption
  · assumption

theorem safeAct_ev {org : Mach} {k m} (h_m : Evolves org m) :
    Evolves org (safeAct k m) := by
  delta safeAct
  split
  · assumption
  · refine Evolves.ite ?_ ?_
    · extract_lets x1
      refine cmdFlush_ev ?_
      refine eachM_ev (fun _ _ _ => ?_) ?_
      · refine ctxWrite_ev ?_
        assumption
      · assumption
    · assumption

theorem ctxStart_ev {org : Mach} {k m} (h_m : Evolves org m) :
    Evolves org (ctxStart k m) := by
  delta ctxStart
  refine onCtx_ev ?_
  assumption

theorem fastFalls_ev {org : Mach} {k m} (h_m : Evolves org m) :
    Evolves org (fastFalls k m) := by
  delta fastFalls
  split
  · refine Evolves.ite ?_ ?_
    · refine onMpl_ev ?_
      assumption
    · assumption
  · assumption

theorem ctxStop_ev {org : Mach} {byRetire k m} (h_m : Evolves org m) :
    Evolves org (ctxStop byRetire k m) := by
  delta ctxStop
  refine Evolves.ite ?_ ?_
  · refine fastFalls_ev ?_
    refine safeAct_ev ?_
    refine onCtx_ev ?_
    assumption
  · assumption

theorem ctxSafeHold_ev {org : Mach} {m} (h_m : Evolves org m) :
    Evolves org (ctxSafeHold m) := by
  delta ctxSafeHold
  refine eachM_ev (fun _ _ _ => ?_) ?_
  · refine ctxStop_ev ?_
    assumption
  · assumption

theorem ctxRestartBeam_ev {org : Mach} {b m} (h_m : Evolves org m) :
    Evolves org (ctxRestartBeam b m) := by
  delta ctxRestartBeam
  refine eachM_ev (fun _ _ _ => ?_) ?_
  · refine ctxStart_ev ?_
    assumption
  · assumption

theorem onCells_ev {org : Mach} {f m} (h_m : Evolves org m) :
    Evolves org (onCells f m) := by
  delta onCells
  refine Evolves.upd ?_ rfl rfl rfl rfl rfl rfl rfl rfl rfl
  assumption

theorem spareWatch_ev {org : Mach} {f m} (hf_f : ∀ m, Evolves org m → Evolves org (f m)) (h_m : Evolves org m) :
    Evolves org (spareWatch f m) := by
  delta spareWatch
  extract_lets x1
  have hx1 : Evolves org x1 := by
    unfold x1
    apply hf_f
    assumption
  clear_value x1
  refine whenM_ev (fun _ _ => ?_) ?_
  · refine raise_ev ?_
    assumption
  · assumption

theorem toQuarantine_ev {org : Mach} {c m} (h_m : Evolves org m) :
    Evolves org (toQuarantine c m) := by
  delta toQuarantine
  refine onCell_ev ?_
  assumption

theorem substStart_ev {org : Mach} {c m} (h_m : Evolves org m) :
    Evolves org (substStart c m) := by
  delta substStart
  split
  · refine raise_ev ?_
    assumption
  · extract_lets x1
    have hx1 : Evolves org x1 := by
      unfold x1
      refine onCell_ev ?_
      refine onCell_ev ?_
      assumption
    clear_value x1
    refine onCells_ev ?_
    assumption

theorem substOver_ev {org : Mach} {m} (h_m : Evolves org m) :
    Evolves org (substOver m) := by
  delta substOver
  extract_lets x1
  have hx1 : Evolves org x1 := by
    unfold x1
    refine onCells_ev ?_
    assumption
  clear_value x1
  split
  · refine onCells_ev ?_
    assumption
  · refine substStart_ev ?_
    refine onCells_ev ?_
    assumption

end Sys2Proof.Machine
end

