-- ==== Sys2Proof/Laws/Evolve/Retire.lean ====
section
/-!
SUPPORT. What Machine/Retire.lean does never undoes what Laws/Evolve/Base.lean names: one lemma per operation.
-/

namespace Sys2Proof.Machine

theorem disposeCut_ev {org : Mach} {b m} (h_m : Evolves org m) :
    Evolves org (disposeCut b m) := by
  delta disposeCut
  split
  · assumption
  · extract_lets x1 x2
    have hf_x2 : ∀ m, Evolves org m → Evolves org (x2 m) := by
      intro m hm
      unfold x2
      refine onImp_ev ?_
      assumption
    clear_value x2
    refine Evolves.ite ?_ ?_
    · refine onImp_ev ?_
      refine onImpAll_ev ?_
      refine Evolves.ite ?_ ?_
      · refine setSlug_ev ?_
        assumption
      · assumption
    · refine Evolves.ite ?_ ?_
      · apply hf_x2
        refine onImp_ev ?_
        refine returnWork_ev ?_
        assumption
      · apply hf_x2
        assumption

theorem retireStop_ev {org : Mach} {b m} (h_m : Evolves org m) :
    Evolves org (retireStop b m) := by
  delta retireStop
  refine Evolves.ite ?_ ?_
  · assumption
  · refine disposeCut_ev ?_
    refine beamStop_ev ?_
    refine Evolves.ite ?_ ?_
    · refine recordEnd_ev ?_
      refine releaseNext_ev ?_
      assumption
    · assumption

theorem retire_ev {org : Mach} {b cause m} (h_m : Evolves org m) :
    Evolves org (retire b cause m) := by
  delta retire
  refine Evolves.ite ?_ ?_
  · assumption
  · extract_lets x1 x2 x3 x4 x5 x6 x7 x8 x9
    have hx2 : Evolves org x2 := by
      unfold x2
      refine retireStop_ev ?_
      assumption
    clear_value x2
    have hx3 : Evolves org x3 := by
      unfold x3
      refine onImp_ev ?_
      assumption
    clear_value x3
    have hx4 : Evolves org x4 := by
      unfold x4
      refine onImpAll_ev ?_
      assumption
    clear_value x4
    have hx5 : Evolves org x5 := by
      unfold x5
      refine raise_ev ?_
      assumption
    clear_value x5
    have hx6 : Evolves org x6 := by
      unfold x6
      refine Evolves.ite ?_ ?_
      · assumption
      · refine eachM_ev (fun _ _ _ => ?_) ?_
        · refine ctxStop_ev ?_
          assumption
        · assumption
    clear_value x6
    have hx7 : Evolves org x7 := by
      unfold x7
      refine whenM_ev (fun _ _ => ?_) ?_
      · refine ctxRestartBeam_ev ?_
        assumption
      · assumption
    clear_value x7
    have hx8 : Evolves org x8 := by
      unfold x8
      refine Evolves.ite ?_ ?_
      · assumption
      · refine beamPark_ev ?_
        assumption
    clear_value x8
    have hx9 : Evolves org x9 := by
      unfold x9
      refine Evolves.ite ?_ ?_
      · assumption
      · refine parkSend_ev ?_
        assumption
    clear_value x9
    refine ilkDrive_ev ?_
    refine onBeam_ev ?_
    assumption

theorem scanGalley_ev {org : Mach} {r bad m} (h_m : Evolves org m) :
    Evolves org (scanGalley r bad m).2 := by
  delta scanGalley
  extract_lets x1 x2 x3 x4 x5 x6 x7 x8 x9 x10 x11
  have hx8 : Evolves org x8 := by
    unfold x8
    refine eachM_ev (fun _ _ _ => ?_) ?_
    · refine setSlug_ev ?_
      assumption
    · refine onImpAll_ev ?_
      assumption
  clear_value x8
  have hx9 : Evolves org x9 := by
    unfold x9
    refine eachM_ev (fun _ _ _ => ?_) ?_
    · refine setSlug_ev ?_
      assumption
    · assumption
  clear_value x9
  have hx10 : Evolves org x10 := by
    unfold x10
    refine onImpAll_ev ?_
    assumption
  clear_value x10
  have hx11 : Evolves org x11 := by
    unfold x11
    refine onImp_ev ?_
    assumption
  clear_value x11
  refine Evolves.mk2 ?_
  refine eachM_ev (fun _ _ _ => ?_) ?_
  · split
    · refine holdRun_ev ?_
      assumption
  · assumption

theorem scanPools_ev {org : Mach} {r m} (h_m : Evolves org m) :
    Evolves org (scanPools r m).2 := by
  delta scanPools
  split
  · refine Evolves.mk2 ?_
    assumption
  · split
    · rename_i heq
      refine Evolves.let2 (b := org) heq ?_ (fun _ => ?_)
      · refine foldl2_ev (fun _ _ _ => ?_) ?_
        · split
          · extract_lets x1 x2
            refine Evolves.mk2 ?_
            refine holdAll_ev ?_
            assumption
        · refine Evolves.mk2 ?_
          assumption
      refine foldl2_ev (fun _ _ _ => ?_) ?_
      · split
        · refine Evolves.ite2 ?_ ?_
          · refine Evolves.mk2 ?_
            assumption
          · extract_lets x3 x4
            have hx4 : Evolves org x4 := by
              unfold x4
              refine onImpAll_ev ?_
              assumption
            clear_value x4
            refine Evolves.mk2 ?_
            refine holdAll_ev ?_
            assumption
      · refine Evolves.mk2 ?_
        assumption

theorem scanClose_ev {org : Mach} {m} (h_m : Evolves org m) :
    Evolves org (scanClose m) := by
  delta scanClose
  split
  · assumption
  · split
    · assumption
    · refine Evolves.ite ?_ ?_
      · assumption
      · extract_lets x1 x2
        have hx2 : Evolves org x2 := by
          unfold x2
          refine raise_ev ?_
          refine impPut_ev ?_
          refine onImpAll_ev ?_
          assumption
        clear_value x2
        refine repairAt_ev ?_
        assumption

theorem scanEnd_ev {org : Mach} {bad m} (h_m : Evolves org m) :
    Evolves org (scanEnd bad m) := by
  delta scanEnd
  split
  · assumption
  · refine Evolves.ite ?_ ?_
    · assumption
    · refine Evolves.ite ?_ ?_
      · refine scanClose_ev ?_
        assumption
      · extract_lets x1
        split
        · rename_i heq
          refine Evolves.let2 (b := org) heq ?_ (fun _ => ?_)
          · refine Evolves.ite2 ?_ ?_
            · refine scanGalley_ev ?_
              assumption
            · refine Evolves.mk2 ?_
              assumption
          split
          · rename_i heq
            refine Evolves.let2 (b := org) heq ?_ (fun _ => ?_)
            · refine Evolves.ite2 ?_ ?_
              · refine scanPools_ev ?_
                assumption
              · refine Evolves.mk2 ?_
                assumption
            refine scanClose_ev ?_
            refine onImpAll_ev ?_
            assumption

theorem beamReturn_ev {org : Mach} {b m} (h_m : Evolves org m) :
    Evolves org (beamReturn b m) := by
  delta beamReturn
  extract_lets x1 x2 x3 x4 x5
  have hx2 : Evolves org x2 := by
    unfold x2
    refine whenM_ev (fun _ _ => ?_) ?_
    · refine onHlt_ev ?_
      assumption
    · assumption
  clear_value x2
  have hx3 : Evolves org x3 := by
    unfold x3
    refine onImp_ev ?_
    assumption
  clear_value x3
  have hx4 : Evolves org x4 := by
    unfold x4
    refine onBeam_ev ?_
    assumption
  clear_value x4
  have hx5 : Evolves org x5 := by
    unfold x5
    refine raise_ev ?_
    refine impPut_ev ?_
    assumption
  clear_value x5
  refine ilkDrive_ev ?_
  refine repair_ev ?_
  assumption

end Sys2Proof.Machine
end

