-- ==== Sys2Proof/Laws/Evolve/UpdateOps.lean ====
section
/-!
SUPPORT. What Machine/UpdateOps.lean does never undoes what Laws/Evolve/Base.lean names: one lemma per operation.
-/

namespace Sys2Proof.Machine

theorem reloadFail_ev {org : Mach} {code m} (h_m : Evolves org m) :
    Evolves org (reloadFail code m) := by
  delta reloadFail
  refine raise_ev ?_
  refine Evolves.upd ?_ rfl rfl rfl rfl rfl rfl rfl rfl rfl
  assumption

theorem reloadRequest_ev {org : Mach} {w m} (h_m : Evolves org m) :
    Evolves org (reloadRequest w m) := by
  delta reloadRequest
  extract_lets x1 x2 x3 x4 x5
  have hx4 : Evolves org x4 := by
    unfold x4
    refine Evolves.upd ?_ rfl rfl rfl rfl rfl rfl rfl rfl rfl
    assumption
  clear_value x4
  refine Evolves.ite ?_ ?_
  · refine cmdError_ev ?_
    assumption
  · refine Evolves.ite ?_ ?_
    · refine reloadFail_ev ?_
      assumption
    · refine Evolves.ite ?_ ?_
      · refine reloadFail_ev ?_
        assumption
      · refine Evolves.ite ?_ ?_
        · refine reloadFail_ev ?_
          assumption
        · refine Evolves.ite ?_ ?_
          · refine reloadFail_ev ?_
            assumption
          · refine Evolves.ite ?_ ?_
            · refine reloadFail_ev ?_
              assumption
            · refine Evolves.ite ?_ ?_
              · refine reloadFail_ev ?_
                assumption
              · refine Evolves.upd ?_ rfl rfl rfl rfl rfl rfl rfl rfl rfl
                assumption

theorem reloadArmed_ev {org : Mach} {m} (h_m : Evolves org m) :
    Evolves org (reloadArmed m) := by
  delta reloadArmed
  refine Evolves.ite ?_ ?_
  · assumption
  · extract_lets x1 x2 x3
    split
    · refine reloadFail_ev ?_
      refine Evolves.upd ?_ rfl rfl rfl rfl rfl rfl rfl rfl rfl
      assumption
    · refine Evolves.ite ?_ ?_
      · extract_lets x4
        have hx4 : Evolves org x4 := by
          unfold x4
          refine Evolves.upd ?_ rfl rfl rfl rfl rfl rfl rfl rfl rfl
          assumption
        clear_value x4
        refine Evolves.ite ?_ ?_
        · refine reloadSwitch_ev ?_
          assumption
        · assumption
      · refine reloadFail_ev ?_
        refine Evolves.upd ?_ rfl rfl rfl rfl rfl rfl rfl rfl rfl
        assumption

theorem reloadBoundary_ev {org : Mach} {m} (h_m : Evolves org m) :
    Evolves org (reloadBoundary m) := by
  delta reloadBoundary
  refine Evolves.ite ?_ ?_
  · refine reloadSwitch_ev ?_
    assumption
  · assumption

theorem execReloadRequest_ev {org : Mach} {p v s} (h_s : Evolves org s.m) :
    OutEv org (execReloadRequest p v s) := by
  delta execReloadRequest
  refine act_ev (fun _ _ => ?_) h_s
  refine writeGate_ev (fun _ _ => ?_) ?_
  · refine reloadRequest_ev ?_
    assumption
  · assumption

theorem execReloadArmed_ev {org : Mach} {s} (h_s : Evolves org s.m) :
    OutEv org (execReloadArmed s) := by
  delta execReloadArmed
  refine act_ev (fun _ _ => ?_) h_s
  refine reloadArmed_ev ?_
  assumption

theorem execReloadSwitch_ev {org : Mach} {s} (h_s : Evolves org s.m) :
    OutEv org (execReloadSwitch s) := by
  delta execReloadSwitch
  refine act_ev (fun _ _ => ?_) h_s
  refine reloadBoundary_ev ?_
  assumption

theorem updAnswer_ev {org : Mach} {m} (h_m : Evolves org m) :
    Evolves org (updAnswer m) := by
  delta updAnswer
  split
  · refine raise_ev ?_
    refine emit_ev ?_
    refine Evolves.upd ?_ rfl rfl rfl rfl rfl rfl rfl rfl rfl
    assumption
  · assumption

theorem updFail_ev {org : Mach} {code m} (h_m : Evolves org m) :
    Evolves org (updFail code m) := by
  delta updFail
  refine updAnswer_ev ?_
  refine raise_ev ?_
  refine Evolves.upd ?_ rfl rfl rfl rfl rfl rfl rfl rfl rfl
  assumption

theorem updStart_ev {org : Mach} {bank by_ m} (h_m : Evolves org m) :
    Evolves org (updStart bank by_ m) := by
  delta updStart
  extract_lets x1 x2 x3 x4
  have hx3 : Evolves org x3 := by
    unfold x3
    refine Evolves.upd ?_ rfl rfl rfl rfl rfl rfl rfl rfl rfl
    assumption
  clear_value x3
  refine Evolves.ite ?_ ?_
  · refine cmdError_ev ?_
    assumption
  · refine Evolves.ite ?_ ?_
    · refine Evolves.upd ?_ rfl rfl rfl rfl rfl rfl rfl rfl rfl
      assumption
    · refine Evolves.ite ?_ ?_
      · refine updFail_ev ?_
        assumption
      · refine Evolves.ite ?_ ?_
        · refine updFail_ev ?_
          assumption
        · refine Evolves.upd ?_ rfl rfl rfl rfl rfl rfl rfl rfl rfl
          assumption

theorem updCmd_ev {org : Mach} {w m} (h_m : Evolves org m) :
    Evolves org (updCmd w m) := by
  delta updCmd
  refine Evolves.ite ?_ ?_
  · refine cmdError_ev ?_
    assumption
  · split
    · refine updStart_ev ?_
      assumption
    · refine Evolves.ite ?_ ?_
      · refine updFail_ev ?_
        assumption
      · assumption
    · refine cmdError_ev ?_
      assumption

theorem setTarget_ev {org : Mach} {cells m} (h_m : Evolves org m)
    (hc : mapWf (fun _ => 0xFF#8) (m.boot.getBank m.boot.updTarget).cells = true → mapWf (fun _ => 0xFF#8) cells = true) :
    Evolves org (setTarget cells m) := by
  delta setTarget
  cases hx : m.boot.updTarget with
  | false => exact h_m.boots (by rw [hx] at hc; exact hc) id List.prefix_rfl (fun _ w => w)
  | true => exact h_m.boots id (by rw [hx] at hc; exact hc) List.prefix_rfl (fun _ w => w)

theorem updSectorDone_ev {org m : Mach} (h_m : Evolves org m) : Evolves org (updSectorDone m) := by
  delta updSectorDone
  extract_lets i k lo hi m1
  refine Evolves.ite h_m ?_
  have h1 : Evolves org m1 := by
    unfold m1
    split
    · exact setTarget_ev h_m (fun w => dropRange_mapWf w)
    · exact setTarget_ev h_m (fun w => putAll_mapWf w)
    · exact h_m
  exact Evolves.upd h1 rfl rfl rfl rfl rfl rfl rfl rfl rfl

theorem updStageOver_ev {org : Mach} {ok m} (h_m : Evolves org m) : Evolves org (updStageOver ok m) := by
  have he : Evolves org (setTarget (dropRange (m.boot.getBank m.boot.updTarget).cells 0 (updSectorCount m * 65536)) m) :=
    setTarget_ev h_m (fun w => dropRange_mapWf w)
  have hp : Evolves org (setTarget (putAll (fun _ => 0xFF#8) (m.boot.getBank m.boot.updTarget).cells 0
      (memBytes m (updSrc m) (fld m.boot.updLen 25 0))) m) :=
    setTarget_ev h_m (fun w => putAll_mapWf w)
  delta updStageOver
  dsimp only
  split
  · split
    · exact Evolves.upd (changeStanding_ev h_m) rfl rfl rfl rfl rfl rfl rfl rfl rfl
    · exact updFail_ev h_m
  · exact Evolves.ite (readBank_ev (Evolves.upd he rfl rfl rfl rfl rfl rfl rfl rfl rfl)) (updFail_ev h_m)
  · exact Evolves.ite (Evolves.upd hp rfl rfl rfl rfl rfl rfl rfl rfl rfl) (updFail_ev h_m)
  · refine Evolves.ite (updAnswer_ev (raise_ev ?_)) (updFail_ev h_m)
    exact Evolves.upd (readBank_ev (changeStanding_ev h_m)) rfl rfl rfl rfl rfl rfl rfl rfl rfl
  · exact h_m

theorem updStageEnd_ev {org : Mach} {r m} (h_m : Evolves org m) :
    Evolves org (updStageEnd r m) := by
  delta updStageEnd
  split
  · refine whenM_ev (fun _ _ => ?_) ?_
    · refine updSectorDone_ev ?_
      assumption
    · assumption
  · refine updStageOver_ev ?_
    assumption

theorem execUpdateWrite_ev {org : Mach} {p hi s} (h_s : Evolves org s.m) :
    OutEv org (execUpdateWrite p hi s) := by
  delta execUpdateWrite
  refine act_ev (fun _ _ => ?_) h_s
  refine writeGate_ev (fun _ _ => ?_) ?_
  · refine updCmd_ev ?_
    assumption
  · assumption

theorem execUpdateCancel_ev {org : Mach} {p hi s} (h_s : Evolves org s.m) :
    OutEv org (execUpdateCancel p hi s) := by
  delta execUpdateCancel
  refine act_ev (fun _ _ => ?_) h_s
  refine writeGate_ev (fun _ _ => ?_) ?_
  · refine updCmd_ev ?_
    assumption
  · assumption

theorem execUpdateStageEnd_ev {org : Mach} {r s} (h_s : Evolves org s.m) :
    OutEv org (execUpdateStageEnd r s) := by
  delta execUpdateStageEnd
  refine act_ev (fun _ _ => ?_) h_s
  refine updStageEnd_ev ?_
  assumption

end Sys2Proof.Machine
end

