-- ==== Sys2Proof/Laws/Evolve/SafeHold.lean ====
section
/-!
SUPPORT. What Machine/SafeHold.lean does never undoes what Laws/Evolve/Base.lean names: one lemma per operation.
-/

namespace Sys2Proof.Machine

theorem stateEntry_ev {org : Mach} {old cause m} (h_m : Evolves org m) :
    Evolves org (stateEntry old cause m) := by
  delta stateEntry
  extract_lets x1
  have hx1 : Evolves org x1 := by
    unfold x1
    refine log_ev ?_
    assumption
  clear_value x1
  refine whenM_ev (fun _ _ => ?_) ?_
  · refine raise_ev ?_
    assumption
  · assumption

theorem devMove_ev {org : Mach} {new cause m} (h_m : Evolves org m) :
    Evolves org (devMove new cause m) := by
  delta devMove
  extract_lets x1 x2
  refine pinsFollow_ev ?_
  refine devSignals_ev ?_
  refine stateEntry_ev ?_
  refine Evolves.upd ?_ rfl rfl rfl rfl rfl rfl rfl rfl rfl
  assumption

theorem shadowDrop_ev {org : Mach} {m} (h_m : Evolves org m) :
    Evolves org (shadowDrop m) := by
  delta shadowDrop
  split
  · assumption
  · extract_lets x1 x2
    have hx2 : Evolves org x2 := by
      unfold x2
      refine onCells_ev ?_
      assumption
    clear_value x2
    refine Evolves.ite ?_ ?_
    · assumption
    · refine Evolves.ite ?_ ?_
      · refine onCells_ev ?_
        assumption
      · refine substOver_ev ?_
        refine toQuarantine_ev ?_
        refine eachM_ev (fun _ _ _ => ?_) ?_
        · refine onCtx_ev ?_
          assumption
        · assumption

theorem onCh_ev {org : Mach} {c f m} (h_m : Evolves org m) : Evolves org (onCh c f m) := by
  refine h_m.mems (fun w => ?_)
  delta Mem.setCh
  split <;> exact w

theorem retrainNow_ev {org : Mach} {c m} (h_m : Evolves org m) :
    Evolves org (retrainNow c m) := by
  delta retrainNow
  refine whenM_ev (fun _ _ => ?_) ?_
  · refine onCh_ev ?_
    assumption
  · assumption

theorem safeRest_ev {org : Mach} {m1} (h_m1 : Evolves org m1) :
    Evolves org (safeRest m1) := by
  delta safeRest
  extract_lets x1 x2 x3 x4 x5 x6 x7
  have hx1 : Evolves org x1 := by
    unfold x1
    refine eachM_ev (fun _ _ _ => ?_) ?_
    · refine beamFreeze_ev ?_
      assumption
    · assumption
  clear_value x1
  have hx3 : Evolves org x3 := by
    unfold x3
    refine Evolves.ite ?_ ?_
    · refine Evolves.upd ?_ rfl rfl rfl rfl rfl rfl rfl rfl rfl
      assumption
    · assumption
  clear_value x3
  have hx4 : Evolves org x4 := by
    unfold x4
    refine eachM_ev (fun _ _ _ => ?_) ?_
    · refine parkSend_ev ?_
      assumption
    · assumption
  clear_value x4
  have hx5 : Evolves org x5 := by
    unfold x5
    refine onImpAll_ev ?_
    assumption
  clear_value x5
  have hx6 : Evolves org x6 := by
    unfold x6
    refine ctxSafeHold_ev ?_
    refine spareWatch_ev (fun _ _ => ?_) ?_
    · refine shadowDrop_ev ?_
      assumption
    · assumption
  clear_value x6
  have hx7 : Evolves org x7 := by
    unfold x7
    refine layerOver_ev ?_
    refine axesHalt_ev ?_
    assumption
  clear_value x7
  refine eachM_ev (fun _ _ _ => ?_) ?_
  · refine retrainNow_ev ?_
    assumption
  · refine reloadSwitch_ev ?_
    assumption

theorem safeSteps_ev {org : Mach} {m} (h_m : Evolves org m) :
    Evolves org (safeSteps m) := by
  delta safeSteps
  refine safeRest_ev ?_
  refine ilkDrive_ev ?_
  refine onIlk_ev ?_
  assumption

theorem enterSafe_ev {org : Mach} {byFault cause m} (h_m : Evolves org m) :
    Evolves org (enterSafe byFault cause m) := by
  delta enterSafe
  extract_lets x1 x2 x3
  have hx3 : Evolves org x3 := by
    unfold x3
    refine Evolves.upd ?_ rfl rfl rfl rfl rfl rfl rfl rfl rfl
    assumption
  clear_value x3
  refine devMove_ev ?_
  refine safeSteps_ev ?_
  assumption

theorem faultInto_ev {org : Mach} {cause code unit arg m} (h_m : Evolves org m) :
    Evolves org (faultInto cause code unit arg m) := by
  delta faultInto
  extract_lets x1 x2 x3 x4 x5
  have hx1 : Evolves org x1 := by
    unfold x1
    refine log_ev ?_
    refine whenM_ev (fun _ _ => ?_) ?_
    · refine bootEntries_ev ?_
      assumption
    · assumption
  clear_value x1
  have hf_x2 : ∀ m, Evolves org m → Evolves org (x2 m) := by
    intro m hm
    unfold x2
    refine raise_ev ?_
    refine Evolves.upd ?_ rfl rfl rfl rfl rfl rfl rfl rfl rfl
    assumption
  clear_value x2
  refine Evolves.ite ?_ ?_
  · refine enterSafe_ev ?_
    apply hf_x2
    refine Evolves.upd ?_ rfl rfl rfl rfl rfl rfl rfl rfl rfl
    assumption
  · refine Evolves.ite ?_ ?_
    · refine pinsFollow_ev ?_
      refine stateEntry_ev ?_
      apply hf_x2
      refine Evolves.upd ?_ rfl rfl rfl rfl rfl rfl rfl rfl rfl
      assumption
    · refine Evolves.ite ?_ ?_
      · refine Evolves.upd ?_ rfl rfl rfl rfl rfl rfl rfl rfl rfl
        assumption
      · assumption

theorem faultSafeHold_ev {org : Mach} {z0 z1 z2 z3} (h_z3 : Evolves org z3) :
    Evolves org (faultSafeHold z0 z1 z2 z3) := by
  delta faultSafeHold
  refine faultInto_ev ?_
  assumption

end Sys2Proof.Machine
end

