-- ==== Sys2Proof/Laws/Evolve/MemRead.lean ====
section
/-!
SUPPORT. What Machine/MemRead.lean does never undoes what Laws/Evolve/Base.lean names: one lemma per operation.
-/

namespace Sys2Proof.Machine

theorem neighbourRefresh_ev {org : Mach} {c bank row m} (h_m : Evolves org m) :
    Evolves org (neighbourRefresh c bank row m) := by
  delta neighbourRefresh
  extract_lets x1 x2
  have hx1 : Evolves org x1 := by
    unfold x1
    refine onCh_ev ?_
    assumption
  clear_value x1
  refine raise_ev ?_
  refine Evolves.upd ?_ rfl rfl rfl rfl rfl rfl rfl rfl rfl
  assumption

theorem neighboursFirst_ev {org : Mach} {c bank m} (h_m : Evolves org m) :
    Evolves org (neighboursFirst c bank m) := by
  delta neighboursFirst
  refine eachM_ev (fun _ _ _ => ?_) ?_
  · refine neighbourRefresh_ev ?_
    assumption
  · assumption

theorem rowActivate_ev {org : Mach} {k m} (h_m : Evolves org m) :
    Evolves org (rowActivate k m) := by
  delta rowActivate
  extract_lets x1 x2 x3 x4
  have hx4 : Evolves org x4 := by
    unfold x4
    refine neighboursFirst_ev ?_
    assumption
  clear_value x4
  refine Evolves.ite ?_ ?_
  · assumption
  · refine onCh_ev ?_
    assumption

theorem ueFound_ev {org : Mach} {req k m} (h_m : Evolves org m) :
    Evolves org (ueFound req k m) := by
  delta ueFound
  extract_lets x1 x2 x3 x4 x5
  have hx3 : Evolves org x3 := by
    unfold x3
    refine Evolves.upd ?_ rfl rfl rfl rfl rfl rfl rfl rfl rfl
    assumption
  clear_value x3
  have hx5 : Evolves org x5 := by
    unfold x5
    refine log_ev ?_
    refine raise_ev ?_
    assumption
  clear_value x5
  refine Evolves.ite ?_ ?_
  · refine faultSafeHold_ev ?_
    assumption
  · assumption

theorem ceFound_ev {org : Mach} {k m} (h_m : Evolves org m) : Evolves org (ceFound k m) := by
  delta ceFound
  refine raise_ev (h_m.mems (fun w => ?_))
  show mapWf memDefault (queueWrite m.mem k).cells = true
  rw [queueWrite_cells]
  exact w

theorem readServed_ev {org : Mach} {r m} (h_m : Evolves org m) :
    Evolves org (readServed r m) := by
  delta readServed
  refine Evolves.ite ?_ ?_
  · refine Evolves.upd ?_ rfl rfl rfl rfl rfl rfl rfl rfl rfl
    assumption
  · refine rowActivate_ev ?_
    assumption

theorem serveReads_ev {org : Mach} {c n m} (h_m : Evolves org m) :
    Evolves org (serveReads c n m) := by
  delta serveReads
  split
  · refine eachM_ev (fun _ _ _ => ?_) ?_
    · refine readServed_ev ?_
      assumption
    · refine onCh_ev ?_
      assumption

theorem readBlocks_ev {org : Mach} {c req ks m} (h_m : Evolves org m) :
    Evolves org (readBlocks c req ks m) := by
  delta readBlocks
  extract_lets x1 x2
  have hx1 : Evolves org x1 := by
    unfold x1
    refine onCh_ev ?_
    assumption
  clear_value x1
  refine serveReads_ev ?_
  assumption

theorem memRead_ev {org : Mach} {req a n e m} (h_m : Evolves org m) :
    Evolves org (memRead req a n e m) := by
  delta memRead
  extract_lets x1 x2 x3
  have hx2 : Evolves org x2 := by
    unfold x2
    refine readBlocks_ev ?_
    refine readBlocks_ev ?_
    assumption
  clear_value x2
  refine eachM_ev (fun _ _ _ => ?_) ?_
  · refine ueFound_ev ?_
    assumption
  · refine eachM_ev (fun _ _ _ => ?_) ?_
    · refine ceFound_ev ?_
      assumption
    · assumption

end Sys2Proof.Machine
end

