-- ==== Sys2Proof/Laws/Evolve/HostOps.lean ====
section
/-!
SUPPORT. What Machine/HostOps.lean does never undoes what Laws/Evolve/Base.lean names: one lemma per operation.
-/

namespace Sys2Proof.Machine

theorem onDma_ev {org : Mach} {n f m} (h_m : Evolves org m) :
    Evolves org (onDma n f m) := by
  delta onDma
  refine Evolves.upd ?_ rfl rfl rfl rfl rfl rfl rfl rfl rfl
  assumption

theorem dmaTail_ev {org : Mach} {n v z2} (h_z2 : Evolves org z2) :
    Evolves org (dmaTail n v z2) := by
  delta dmaTail
  refine onDma_ev ?_
  assumption

theorem dmaCtrl_ev {org : Mach} {n w m} (h_m : Evolves org m) :
    Evolves org (dmaCtrl n w m) := by
  delta dmaCtrl
  extract_lets x1 x2 x3
  refine whenM_ev (fun _ _ => ?_) ?_
  · refine raise_ev ?_
    assumption
  · refine onDma_ev ?_
    assumption

theorem dmaRing_ev {org : Mach} {p off n lo hi m} (h_m : Evolves org m) :
    Evolves org (dmaRing p off n lo hi m) := by
  delta dmaRing
  refine Evolves.ite ?_ ?_
  · refine accErr_ev ?_
    assumption
  · refine onDma_ev ?_
    assumption

theorem dmaSize_ev {org : Mach} {p n v m} (h_m : Evolves org m) :
    Evolves org (dmaSize p n v m) := by
  delta dmaSize
  extract_lets x1
  refine Evolves.ite ?_ ?_
  · refine accErr_ev ?_
    assumption
  · refine onDma_ev ?_
    assumption

theorem dmaStore_ev {org : Mach} {a bs e m} (h_m : Evolves org m) :
    Evolves org (dmaStore a bs e m) := by
  delta dmaStore
  extract_lets x1 x2 x3
  have hx3 : Evolves org x3 := by
    unfold x3
    refine eachM_ev (fun _ _ _ => ?_) ?_
    · refine ueFound_ev ?_
      assumption
    · assumption
  clear_value x3
  refine Evolves.ite ?_ ?_
  · refine memWrite_ev ?_
    assumption
  · refine eachM_ev (fun _ _ _ => ?_) ?_
    · extract_lets x4 x5
      refine memWrite_ev ?_
      assumption
    · assumption

theorem dmaSend_ev {org : Mach} {ch host a n e m} (h_m : Evolves org m) :
    Evolves org (dmaSend ch host a n e m) := by
  delta dmaSend
  refine eachM_ev (fun _ _ _ => ?_) ?_
  · extract_lets x1 x2
    refine emit_ev ?_
    assumption
  · refine memRead_ev ?_
    assumption

theorem dmaRequest_ev {org : Mach} {n x k m} (h_m : Evolves org m) :
    Evolves org (dmaRequest n x k m) := by
  delta dmaRequest
  extract_lets x1 x2 x3 x4
  have hx4 : Evolves org x4 := by
    unfold x4
    refine Evolves.ite ?_ ?_
    · refine dmaSend_ev ?_
      assumption
    · refine dmaStore_ev ?_
      assumption
  clear_value x4
  refine Evolves.ite ?_ ?_
  · assumption
  · refine onDma_ev ?_
    assumption

theorem dmaTurn_ev {org : Mach} {n k js m} (h_m : Evolves org m) :
    Evolves org (dmaTurn n k js m) := by
  delta dmaTurn
  refine Evolves.ite ?_ ?_
  · assumption
  · extract_lets x1 x2 x3
    have hx2 : Evolves org x2 := by
      unfold x2
      split
      · refine Evolves.ite ?_ ?_
        · refine dmaRequest_ev ?_
          assumption
        · assumption
      · assumption
    clear_value x2
    refine Evolves.upd ?_ rfl rfl rfl rfl rfl rfl rfl rfl rfl
    assumption

theorem dmaServe_ev {org : Mach} {n js k m} (h_m : Evolves org m) :
    Evolves org (dmaServe n js k m) := by
  delta dmaServe
  refine eachM_ev (fun _ _ _ => ?_) ?_
  · refine dmaTurn_ev ?_
    assumption
  · assumption

theorem dmaClose_ev {org : Mach} {n tag result irq m} (h_m : Evolves org m) :
    Evolves org (dmaClose n tag result irq m) := by
  delta dmaClose
  extract_lets x1 x2 x3 x4 x5 x6 x7
  have hx5 : Evolves org x5 := by
    unfold x5
    refine onDma_ev ?_
    assumption
  clear_value x5
  have hx6 : Evolves org x6 := by
    unfold x6
    refine whenM_ev (fun _ _ => ?_) ?_
    · refine raise_ev ?_
      assumption
    · assumption
  clear_value x6
  have hx7 : Evolves org x7 := by
    unfold x7
    refine whenM_ev (fun _ _ => ?_) ?_
    · refine raise_ev ?_
      assumption
    · assumption
  clear_value x7
  refine whenM_ev (fun _ _ => ?_) ?_
  · refine raise_ev ?_
    assumption
  · assumption

theorem dmaDescDone_ev {org : Mach} {n x others m} (h_m : Evolves org m) :
    Evolves org (dmaDescDone n x others m) := by
  delta dmaDescDone
  extract_lets x1 x2 x3 x4 x5
  have hx4 : Evolves org x4 := by
    unfold x4
    refine dmaServe_ev ?_
    assumption
  clear_value x4
  have hx5 : Evolves org x5 := by
    unfold x5
    refine emit_ev ?_
    assumption
  clear_value x5
  refine Evolves.ite ?_ ?_
  · assumption
  · refine dmaClose_ev ?_
    assumption

theorem hostAbsentBegin_ev {org : Mach} {reason m} (h_m : Evolves org m) :
    Evolves org (hostAbsentBegin reason m) := by
  delta hostAbsentBegin
  refine Evolves.ite ?_ ?_
  · assumption
  · extract_lets x1 x2 x3
    have hx2 : Evolves org x2 := by
      unfold x2
      refine raise_ev ?_
      refine Evolves.upd ?_ rfl rfl rfl rfl rfl rfl rfl rfl rfl
      assumption
    clear_value x2
    have hx3 : Evolves org x3 := by
      unfold x3
      refine log_ev ?_
      assumption
    clear_value x3
    split
    · refine commitDrop_ev ?_
      refine log_ev ?_
      assumption
    · assumption

theorem heartbeat_ev {org : Mach} {p v m} (h_m : Evolves org m) :
    Evolves org (heartbeat p v m) := by
  delta heartbeat
  extract_lets x1 x2 x3 x4 x5
  have hx2 : Evolves org x2 := by
    unfold x2
    refine Evolves.upd ?_ rfl rfl rfl rfl rfl rfl rfl rfl rfl
    assumption
  clear_value x2
  have hx4 : Evolves org x4 := by
    unfold x4
    refine Evolves.upd ?_ rfl rfl rfl rfl rfl rfl rfl rfl rfl
    assumption
  clear_value x4
  split
  · assumption
  · refine Evolves.ite ?_ ?_
    · refine raise_ev ?_
      refine log_ev ?_
      refine Evolves.upd ?_ rfl rfl rfl rfl rfl rfl rfl rfl rfl
      assumption
    · assumption

theorem hostTimeout_ev {org : Mach} {m} (h_m : Evolves org m) :
    Evolves org (hostTimeout m) := by
  delta hostTimeout
  refine Evolves.ite ?_ ?_
  · assumption
  · refine hostAbsentBegin_ev ?_
    refine Evolves.upd ?_ rfl rfl rfl rfl rfl rfl rfl rfl rfl
    assumption

theorem uploadLost_ev {org : Mach} {x m} (h_m : Evolves org m) :
    Evolves org (uploadLost x m) := by
  delta uploadLost
  extract_lets x1
  refine whenM_ev (fun _ _ => ?_) ?_
  · refine log_ev ?_
    assumption
  · assumption

theorem dmaLinkLost_ev {org : Mach} {lost n m} (h_m : Evolves org m) :
    Evolves org (dmaLinkLost lost n m) := by
  delta dmaLinkLost
  extract_lets x1
  refine Evolves.ite ?_ ?_
  · assumption
  · split
    · extract_lets x2 x3
      have hx3 : Evolves org x3 := by
        unfold x3
        refine dmaServe_ev ?_
        assumption
      clear_value x3
      refine dmaClose_ev ?_
      assumption
    · split
      · rename_i heq
        refine Evolves.let2 (b := org) heq ?_ (fun _ => ?_)
        · refine drawWord_ev ?_
          assumption
        refine dmaClose_ev ?_
        assumption

theorem linkLoss_ev {org : Mach} {lost m} (h_m : Evolves org m) :
    Evolves org (linkLoss lost m) := by
  delta linkLoss
  refine Evolves.ite ?_ ?_
  · assumption
  · extract_lets x1 x2 x3 x4
    have hx3 : Evolves org x3 := by
      unfold x3
      refine Evolves.upd ?_ rfl rfl rfl rfl rfl rfl rfl rfl rfl
      assumption
    clear_value x3
    have hx4 : Evolves org x4 := by
      unfold x4
      refine hostAbsentBegin_ev ?_
      refine eachM_ev (fun _ _ _ => ?_) ?_
      · refine dmaLinkLost_ev ?_
        assumption
      · refine raise_ev ?_
        assumption
    clear_value x4
    refine eachM_ev (fun _ _ _ => ?_) ?_
    · refine uploadLost_ev ?_
      assumption
    · assumption

theorem linkUp_ev {org : Mach} {cfg m} (h_m : Evolves org m) :
    Evolves org (linkUp cfg m) := by
  delta linkUp
  refine Evolves.ite ?_ ?_
  · refine Evolves.upd ?_ rfl rfl rfl rfl rfl rfl rfl rfl rfl
    assumption
  · assumption

theorem d3hotEntry_ev {org : Mach} {m} (h_m : Evolves org m) :
    Evolves org (d3hotEntry m) := by
  delta d3hotEntry
  refine Evolves.ite ?_ ?_
  · assumption
  · refine hostAbsentBegin_ev ?_
    refine raise_ev ?_
    refine Evolves.upd ?_ rfl rfl rfl rfl rfl rfl rfl rfl rfl
    assumption

theorem msixFlush_ev {org : Mach} {v m} (h_m : Evolves org m) :
    Evolves org (msixFlush v m) := by
  delta msixFlush
  extract_lets x1
  refine Evolves.ite ?_ ?_
  · refine msixSend_ev ?_
    assumption
  · assumption

theorem d0Return_ev {org : Mach} {m} (h_m : Evolves org m) :
    Evolves org (d0Return m) := by
  delta d0Return
  refine Evolves.ite ?_ ?_
  · assumption
  · refine eachM_ev (fun _ _ _ => ?_) ?_
    · refine msixFlush_ev ?_
      assumption
    · refine Evolves.upd ?_ rfl rfl rfl rfl rfl rfl rfl rfl rfl
      assumption

theorem msixIntervalEnd_ev {org : Mach} {v m} (h_m : Evolves org m) :
    Evolves org (msixIntervalEnd v m) := by
  delta msixIntervalEnd
  refine msixFlush_ev ?_
  refine Evolves.upd ?_ rfl rfl rfl rfl rfl rfl rfl rfl rfl
  assumption

theorem msixMask_ev {org : Mach} {v b m} (h_m : Evolves org m) :
    Evolves org (msixMask v b m) := by
  delta msixMask
  refine msixFlush_ev ?_
  refine Evolves.upd ?_ rfl rfl rfl rfl rfl rfl rfl rfl rfl
  assumption

theorem execGlbHeartbeat_ev {org : Mach} {p v s} (h_s : Evolves org s.m) :
    OutEv org (execGlbHeartbeat p v s) := by
  delta execGlbHeartbeat
  refine act_ev (fun _ _ => ?_) h_s
  refine writeGate_ev (fun _ _ => ?_) ?_
  · refine heartbeat_ev ?_
    assumption
  · assumption

theorem execHostTimeoutExpire_ev {org : Mach} {s} (h_s : Evolves org s.m) :
    OutEv org (execHostTimeoutExpire s) := by
  delta execHostTimeoutExpire
  refine act_ev (fun _ _ => ?_) h_s
  refine hostTimeout_ev ?_
  assumption

theorem execPcieLinkLoss_ev {org : Mach} {lost s} (h_s : Evolves org s.m) :
    OutEv org (execPcieLinkLoss s lost) := by
  delta execPcieLinkLoss
  refine act_ev (fun _ _ => ?_) h_s
  refine linkLoss_ev ?_
  assumption

theorem execPcieHotReset_ev {org : Mach} {lost s} (h_s : Evolves org s.m) :
    OutEv org (execPcieHotReset s lost) := by
  delta execPcieHotReset
  refine act_ev (fun _ _ => ?_) h_s
  refine linkLoss_ev ?_
  assumption

theorem execPerstNAssert_ev {org : Mach} {lost s} (h_s : Evolves org s.m) :
    OutEv org (execPerstNAssert s lost) := by
  delta execPerstNAssert
  refine act_ev (fun _ _ => ?_) h_s
  refine linkLoss_ev ?_
  assumption

theorem execPcieLinkUp_ev {org : Mach} {cfg s} (h_s : Evolves org s.m) :
    OutEv org (execPcieLinkUp cfg s) := by
  delta execPcieLinkUp
  refine act_ev (fun _ _ => ?_) h_s
  refine linkUp_ev ?_
  assumption

theorem execD3hotEntry_ev {org : Mach} {s} (h_s : Evolves org s.m) :
    OutEv org (execD3hotEntry s) := by
  delta execD3hotEntry
  refine act_ev (fun _ _ => ?_) h_s
  refine d3hotEntry_ev ?_
  assumption

theorem execD0Return_ev {org : Mach} {s} (h_s : Evolves org s.m) :
    OutEv org (execD0Return s) := by
  delta execD0Return
  refine act_ev (fun _ _ => ?_) h_s
  refine d0Return_ev ?_
  assumption

theorem execMsixIntervalEnd_ev {org : Mach} {v s} (h_s : Evolves org s.m) :
    OutEv org (execMsixIntervalEnd v s) := by
  delta execMsixIntervalEnd
  refine act_ev (fun _ _ => ?_) h_s
  refine msixIntervalEnd_ev ?_
  assumption

theorem execMsixUnmask_ev {org : Mach} {v s} (h_s : Evolves org s.m) :
    OutEv org (execMsixUnmask v s) := by
  delta execMsixUnmask
  refine act_ev (fun _ _ => ?_) h_s
  refine writeGate_ev (fun _ _ => ?_) ?_
  · refine msixMask_ev ?_
    assumption
  · assumption

theorem winWrite_ev {org : Mach} {p off lo hi m} (h_m : Evolves org m) :
    Evolves org (winWrite p off lo hi m) := by
  delta winWrite
  refine Evolves.ite ?_ ?_
  · refine Evolves.upd ?_ rfl rfl rfl rfl rfl rfl rfl rfl rfl
    assumption
  · refine accErr_ev ?_
    assumption

theorem bar2Read_ev {org : Mach} {off n e m} (h_m : Evolves org m) :
    Evolves org (bar2Read off n e m) := by
  delta bar2Read
  refine Evolves.ite ?_ ?_
  · assumption
  · extract_lets x1 x2
    have hx2 : Evolves org x2 := by
      unfold x2
      refine memRead_ev ?_
      assumption
    clear_value x2
    refine Evolves.ite ?_ ?_
    · refine emit_ev ?_
      assumption
    · refine emit_ev ?_
      assumption

theorem bar2Write_ev {org : Mach} {off bs m} (h_m : Evolves org m) :
    Evolves org (bar2Write off bs m) := by
  delta bar2Write
  refine Evolves.ite ?_ ?_
  · assumption
  · extract_lets x1 x2
    refine Evolves.ite ?_ ?_
    · refine memWrite_ev ?_
      assumption
    · refine raise_ev ?_
      assumption

theorem execBar2Read_ev {org : Mach} {off len ecc s} (h_s : Evolves org s.m) :
    OutEv org (execBar2Read off len ecc s) := by
  delta execBar2Read
  refine act_ev (fun _ _ => ?_) h_s
  refine bar2Read_ev ?_
  assumption

theorem execBar2Write_ev {org : Mach} {off bytes s} (h_s : Evolves org s.m) :
    OutEv org (execBar2Write off bytes s) := by
  delta execBar2Write
  refine act_ev (fun _ _ => ?_) h_s
  refine bar2Write_ev ?_
  assumption

theorem execWindowBaseWrite_ev {org : Mach} {p lo hi s} (h_s : Evolves org s.m) :
    OutEv org (execWindowBaseWrite p lo hi s) := by
  delta execWindowBaseWrite
  refine act_ev (fun _ _ => ?_) h_s
  refine pairGate_ev (fun _ _ => ?_) ?_
  · refine winWrite_ev ?_
    assumption
  · assumption

theorem execDmaTailWrite_ev {org : Mach} {p n v s} (h_s : Evolves org s.m) :
    OutEv org (execDmaTailWrite p n v s) := by
  delta execDmaTailWrite
  refine act_ev (fun _ _ => ?_) h_s
  refine writeGate_ev (fun _ _ => ?_) ?_
  · refine dmaTail_ev ?_
    assumption
  · assumption

theorem execDmaEnable_ev {org : Mach} {p n s} (h_s : Evolves org s.m) :
    OutEv org (execDmaEnable p n s) := by
  delta execDmaEnable
  refine act_ev (fun _ _ => ?_) h_s
  refine writeGate_ev (fun _ _ => ?_) ?_
  · refine dmaCtrl_ev ?_
    assumption
  · assumption

theorem execDmaDisable_ev {org : Mach} {p n s} (h_s : Evolves org s.m) :
    OutEv org (execDmaDisable p n s) := by
  delta execDmaDisable
  refine act_ev (fun _ _ => ?_) h_s
  refine writeGate_ev (fun _ _ => ?_) ?_
  · refine dmaCtrl_ev ?_
    assumption
  · assumption

theorem execDmaSkip_ev {org : Mach} {p n s} (h_s : Evolves org s.m) :
    OutEv org (execDmaSkip p n s) := by
  delta execDmaSkip
  refine act_ev (fun _ _ => ?_) h_s
  refine writeGate_ev (fun _ _ => ?_) ?_
  · refine dmaCtrl_ev ?_
    assumption
  · assumption

theorem execDmaRetry_ev {org : Mach} {p n s} (h_s : Evolves org s.m) :
    OutEv org (execDmaRetry p n s) := by
  delta execDmaRetry
  refine act_ev (fun _ _ => ?_) h_s
  refine writeGate_ev (fun _ _ => ?_) ?_
  · refine dmaCtrl_ev ?_
    assumption
  · assumption

theorem execDmaRingWrite_ev {org : Mach} {p n size lo hi s} (h_s : Evolves org s.m) :
    OutEv org (execDmaRingWrite p n size lo hi s) := by
  delta execDmaRingWrite
  refine act_ev (fun _ _ => ?_) h_s
  split
  · refine writeGate_ev (fun _ _ => ?_) ?_
    · refine dmaSize_ev ?_
      assumption
    · assumption
  · refine pairGate_ev (fun _ _ => ?_) ?_
    · refine dmaRing_ev ?_
      assumption
    · assumption

theorem execDmaDescDone_ev {org : Mach} {n host layer len ctl data hostErr stop ecc others s} (h_s : Evolves org s.m) :
    OutEv org (execDmaDescDone n host layer len ctl data hostErr stop ecc s others) := by
  delta execDmaDescDone
  refine act_ev (fun _ _ => ?_) h_s
  refine dmaDescDone_ev ?_
  assumption

end Sys2Proof.Machine
end

