-- ==== Sys2Proof/Laws/Evolve/HeatBase.lean ====
section
/-!
SUPPORT. What Machine/HeatBase.lean does never undoes what Laws/Evolve/Base.lean names: one lemma per operation.
-/

namespace Sys2Proof.Machine

theorem memPoke_ev {org : Mach} {a bs m} (h_m : Evolves org m) : Evolves org (memPoke a bs m) :=
  h_m.mems (fun w => putAll_mapWf w)

theorem hmSet_ev {org : Mach} {current n v m} (h_m : Evolves org m) :
    Evolves org (hmSet current n v m) := by
  delta hmSet
  refine memPoke_ev ?_
  assumption

theorem hmZero_ev {org : Mach} {current m} (h_m : Evolves org m) : Evolves org (hmZero current m) :=
  h_m.mems (fun w => dropRange_mapWf w)

theorem depositEnd_ev {org : Mach} {b m} (h_m : Evolves org m) :
    Evolves org (depositEnd b m) := by
  delta depositEnd
  extract_lets x1 x2
  have hx2 : Evolves org x2 := by
    unfold x2
    refine onHmap_ev ?_
    assumption
  clear_value x2
  split
  · assumption
  · refine hmSet_ev ?_
    assumption

theorem deposit_ev {org : Mach} {b x y code mul m} (h_m : Evolves org m) :
    Evolves org (deposit b x y code mul m) := by
  delta deposit
  extract_lets x1 x2 x3 x4
  have hx3 : Evolves org x3 := by
    unfold x3
    refine Evolves.ite ?_ ?_
    · refine depositEnd_ev ?_
      assumption
    · assumption
  clear_value x3
  refine Evolves.ite ?_ ?_
  · refine onHmap_ev ?_
    assumption
  · refine onHmap_ev ?_
    assumption

theorem hmSweep_ev {org : Mach} {m} (h_m : Evolves org m) :
    Evolves org (hmSweep m) := by
  delta hmSweep
  extract_lets x1
  refine eachM_ev (fun _ _ _ => ?_) ?_
  · extract_lets x2
    refine hmSet_ev ?_
    assumption
  · assumption

theorem hmBoundary_ev {org : Mach} {m} (h_m : Evolves org m) :
    Evolves org (hmBoundary m) := by
  delta hmBoundary
  extract_lets x1 x2
  have hx2 : Evolves org x2 := by
    unfold x2
    refine hmZero_ev ?_
    refine onHmap_ev ?_
    assumption
  clear_value x2
  refine eachM_ev (fun _ _ _ => ?_) ?_
  · refine hmSet_ev ?_
    assumption
  · assumption

theorem hmStart_ev {org : Mach} {m} (h_m : Evolves org m) :
    Evolves org (hmStart m) := by
  delta hmStart
  extract_lets x1
  have hx1 : Evolves org x1 := by
    unfold x1
    refine hmZero_ev ?_
    refine hmZero_ev ?_
    refine onHmap_ev ?_
    assumption
  clear_value x1
  refine memPoke_ev ?_
  assumption

theorem ringWrite_ev {org : Mach} {b type flags time body m0} (h_m0 : Evolves org m0) :
    Evolves org (ringWrite b type flags time body m0) := by
  delta ringWrite
  extract_lets x1 x2 x3 x4 x5 x6 x7 x8
  have hx1 : Evolves org x1 := by
    unfold x1
    refine takeRecord_ev ?_
    assumption
  clear_value x1
  have hx6 : Evolves org x6 := by
    unfold x6
    refine memWrite_ev ?_
    refine Evolves.ite ?_ ?_
    · refine onMpl_ev ?_
      assumption
    · assumption
  clear_value x6
  have hx7 : Evolves org x7 := by
    unfold x7
    refine onHmap_ev ?_
    assumption
  clear_value x7
  have hx8 : Evolves org x8 := by
    unfold x8
    refine whenM_ev (fun _ _ => ?_) ?_
    · refine raise_ev ?_
      assumption
    · assumption
  clear_value x8
  refine Evolves.ite ?_ ?_
  · assumption
  · refine Evolves.ite ?_ ?_
    · refine onHmap_ev ?_
      assumption
    · refine whenM_ev (fun _ _ => ?_) ?_
      · refine raise_ev ?_
        assumption
      · assumption

theorem ringPush_ev {org : Mach} {b type flags time body m} (h_m : Evolves org m) :
    Evolves org (ringPush b type flags time body m) := by
  delta ringPush
  refine Evolves.ite ?_ ?_
  · assumption
  · refine ringWrite_ev ?_
    assumption

theorem mplRaise_ev {org : Mach} {b bit m} (h_m : Evolves org m) :
    Evolves org (mplRaise b bit m) := by
  delta mplRaise
  refine ringPush_ev ?_
  refine raise_ev ?_
  assumption

theorem ringRelease_ev {org : Mach} {p v m} (h_m : Evolves org m) :
    Evolves org (ringRelease p v m) := by
  delta ringRelease
  extract_lets x1 x2 x3
  refine Evolves.ite ?_ ?_
  · refine onHmap_ev ?_
    assumption
  · refine Evolves.ite ?_ ?_
    · refine onHmap_ev ?_
      assumption
    · refine accErr_ev ?_
      assumption

theorem execHmapRecRdWrite_ev {org : Mach} {p v s} (h_s : Evolves org s.m) :
    OutEv org (execHmapRecRdWrite p v s) := by
  delta execHmapRecRdWrite
  refine act_ev (fun _ _ => ?_) h_s
  refine writeGate_ev (fun _ _ => ?_) ?_
  · refine ringRelease_ev ?_
    assumption
  · assumption

end Sys2Proof.Machine
end

