-- ==== Sys2Proof/Laws/Evolve/JobFlow.lean ====
section
/-!
SUPPORT. What Machine/JobFlow.lean does never undoes what Laws/Evolve/Base.lean names: one lemma per operation.
-/

namespace Sys2Proof.Machine

theorem layerBoundary_ev {org : Mach} {maps m0} (h_m0 : Evolves org m0) :
    Evolves org (layerBoundary maps m0) := by
  delta layerBoundary
  extract_lets x1 x2 x3
  have hx2 : Evolves org x2 := by
    unfold x2
    refine reloadSwitch_ev ?_
    refine takeLayerRecords_ev ?_
    refine Evolves.upd ?_ rfl rfl rfl rfl rfl rfl rfl rfl rfl
    assumption
  clear_value x2
  have hx3 : Evolves org x3 := by
    unfold x3
    refine whenM_ev (fun _ _ => ?_) ?_
    · refine hmBoundary_ev ?_
      assumption
    · assumption
  clear_value x3
  refine eachM_ev (fun _ _ _ => ?_) ?_
  · refine configSend_ev ?_
    refine onMpl_ev ?_
    refine onImp_ev ?_
    assumption
  · assumption

theorem activate_ev {org : Mach} {i m} (h_m : Evolves org m) :
    Evolves org (activate i m) := by
  delta activate
  extract_lets x1 x2
  have hx1 : Evolves org x1 := by
    unfold x1
    refine unqueue_ev ?_
    refine onSlot_ev ?_
    assumption
  clear_value x1
  have hx2 : Evolves org x2 := by
    unfold x2
    refine onJob_ev ?_
    assumption
  clear_value x2
  refine sigPub_ev ?_
  assumption

theorem impFresh_ev {org : Mach} {m} (h_m : Evolves org m) :
    Evolves org (impFresh m) := by
  delta impFresh
  extract_lets x1 x2
  have hx2 : Evolves org x2 := by
    unfold x2
    refine onImpAll_ev ?_
    assumption
  clear_value x2
  refine eachM_ev (fun _ _ _ => ?_) ?_
  · refine onImp_ev ?_
    assumption
  · assumption

theorem loadSets_ev {org : Mach} {m0} (h_m0 : Evolves org m0) :
    Evolves org (loadSets m0) := by
  delta loadSets
  split
  · assumption
  · extract_lets x1 x2 x3 x4
    have hx2 : Evolves org x2 := by
      unfold x2
      refine eachM_ev (fun _ _ _ => ?_) ?_
      · refine memRead_ev ?_
        assumption
      · assumption
    clear_value x2
    refine Evolves.upd ?_ rfl rfl rfl rfl rfl rfl rfl rfl rfl
    assumption

theorem entryScan_ev {org : Mach} {b m} (h_m : Evolves org m) :
    Evolves org (entryScan b m) := by
  delta entryScan
  extract_lets x1 x2 x3 x4 x5
  have hx5 : Evolves org x5 := by
    unfold x5
    refine Evolves.ite ?_ ?_
    · assumption
    · refine memRead_ev ?_
      assumption
  clear_value x5
  refine scanPools_ev ?_
  refine scanGalley_ev ?_
  assumption

theorem entryScans_ev {org : Mach} {m} (h_m : Evolves org m) :
    Evolves org (entryScans m) := by
  delta entryScans
  refine eachM_ev (fun _ _ _ => ?_) ?_
  · refine Evolves.ite ?_ ?_
    · assumption
    · refine entryScan_ev ?_
      refine onImpAll_ev ?_
      assumption
  · assumption

theorem impHalt_ev {org : Mach} {m} (h_m : Evolves org m) :
    Evolves org (impHalt m) := by
  delta impHalt
  refine eachM_ev (fun _ _ _ => ?_) ?_
  · refine onImp_ev ?_
    assumption
  · refine onImpAll_ev ?_
    assumption

theorem layerEndEntry_ev {org : Mach} {aborted m} (h_m : Evolves org m) :
    Evolves org (layerEndEntry aborted m) := by
  delta layerEndEntry
  refine Evolves.ite ?_ ?_
  · refine impPut_ev ?_
    refine onImpAll_ev ?_
    assumption
  · assumption

theorem imageMissed_ev {org : Mach} {why m} (h_m : Evolves org m) :
    Evolves org (imageMissed why m) := by
  delta imageMissed
  extract_lets x1
  refine raise_ev ?_
  refine log_ev ?_
  assumption

theorem sceneRestore_ev {org : Mach} {m} (h_m : Evolves org m) :
    Evolves org (sceneRestore m) := by
  delta sceneRestore
  split
  · refine onJob_ev ?_
    refine Evolves.ite ?_ ?_
    · assumption
    · refine applyScene_ev ?_
      assumption
  · assumption

theorem imageBegin_ev {org : Mach} {h m} (h_m : Evolves org m) :
    Evolves org (imageBegin h m) := by
  delta imageBegin
  extract_lets x1 x2 x3 x4 x5 x6
  have hx3 : Evolves org x3 := by
    unfold x3
    refine Evolves.ite ?_ ?_
    · assumption
    · refine applyScene_ev ?_
      assumption
  clear_value x3
  have hx5 : Evolves org x5 := by
    unfold x5
    refine onJob_ev ?_
    refine onHead_ev ?_
    assumption
  clear_value x5
  have hx6 : Evolves org x6 := by
    unfold x6
    refine whenM_ev (fun _ _ => ?_) ?_
    · refine bucketCredit_ev ?_
      assumption
    · assumption
  clear_value x6
  refine sendBoth_ev ?_
  refine onJob_ev ?_
  assumption

theorem stepBegin_ev {org : Mach} {k m} (h_m : Evolves org m) :
    Evolves org (stepBegin k m) := by
  delta stepBegin
  extract_lets x1 x2 x3
  have hx2 : Evolves org x2 := by
    unfold x2
    refine onJob_ev ?_
    assumption
  clear_value x2
  have hx3 : Evolves org x3 := by
    unfold x3
    refine eachM_ev (fun _ _ _ => ?_) ?_
    · split
      · refine jobMoveAxis_ev ?_
        assumption
    · assumption
  clear_value x3
  refine Evolves.ite ?_ ?_
  · split
    · refine imageBegin_ev ?_
      assumption
    · assumption
  · assumption

theorem pausedBefore_ev {org : Mach} {c m} (h_m : Evolves org m) :
    Evolves org (pausedBefore c m) := by
  delta pausedBefore
  refine jobMove_ev ?_
  refine onJob_ev ?_
  assumption

theorem makeReadyDone_ev {org : Mach} {fin m0} (hf_fin : ∀ m, Evolves org m → Evolves org (fin m)) (h_m0 : Evolves org m0) :
    Evolves org (makeReadyDone fin m0) := by
  delta makeReadyDone
  extract_lets x1 x2
  have hx1 : Evolves org x1 := by
    unfold x1
    refine onJob_ev ?_
    assumption
  clear_value x1
  refine Evolves.ite ?_ ?_
  · refine layerOver_ev ?_
    refine jobMove_ev ?_
    refine onJob_ev ?_
    assumption
  · refine Evolves.ite ?_ ?_
    · refine jobMove_ev ?_
      refine onJob_ev ?_
      assumption
    · apply hf_fin
      assumption

theorem exposeBegin_ev {org : Mach} {m0} (h_m0 : Evolves org m0) :
    Evolves org (exposeBegin m0) := by
  delta exposeBegin
  extract_lets x1 x2 x3 x4 x5 x6 x7
  have hx1 : Evolves org x1 := by
    unfold x1
    refine loadSets_ev ?_
    refine impFresh_ev ?_
    assumption
  clear_value x1
  have hx2 : Evolves org x2 := by
    unfold x2
    refine eachM_ev (fun _ _ _ => ?_) ?_
    · refine retire_ev ?_
      assumption
    · assumption
  clear_value x2
  have hx3 : Evolves org x3 := by
    unfold x3
    refine jobMove_ev ?_
    assumption
  clear_value x3
  have hx4 : Evolves org x4 := by
    unfold x4
    refine onTime_ev ?_
    assumption
  clear_value x4
  have hx5 : Evolves org x5 := by
    unfold x5
    refine impPut_ev ?_
    assumption
  clear_value x5
  have hx6 : Evolves org x6 := by
    unfold x6
    refine onImpAll_ev ?_
    refine onJob_ev ?_
    assumption
  clear_value x6
  have hx7 : Evolves org x7 := by
    unfold x7
    refine entryScans_ev ?_
    assumption
  clear_value x7
  refine Evolves.ite ?_ ?_
  · assumption
  · refine whenM_ev (fun _ _ => ?_) ?_
    · refine pauseExposing_ev ?_
      assumption
    · assumption

theorem keepParams_ev {org : Mach} {m} (h_m : Evolves org m) :
    Evolves org (keepParams m) := by
  delta keepParams
  refine Evolves.ite ?_ ?_
  · refine onJob_ev ?_
    assumption
  · assumption

theorem enterMakeReady_ev {org : Mach} {fin m} (hf_fin : ∀ m, Evolves org m → Evolves org (fin m)) (h_m : Evolves org m) :
    Evolves org (enterMakeReady fin m) := by
  delta enterMakeReady
  split
  · assumption
  · extract_lets x1 x2 x3 x4
    have hx1 : Evolves org x1 := by
      unfold x1
      refine activate_ev ?_
      assumption
    clear_value x1
    have hx3 : Evolves org x3 := by
      unfold x3
      refine layerBoundary_ev ?_
      assumption
    clear_value x3
    have hx4 : Evolves org x4 := by
      unfold x4
      refine jobMove_ev ?_
      refine onJob_ev ?_
      assumption
    clear_value x4
    split
    · refine pausedBefore_ev ?_
      assumption
    · refine Evolves.ite ?_ ?_
      · refine makeReadyDone_ev (fun _ _ => ?_) ?_
        · apply hf_fin
          assumption
        · assumption
      · refine stepBegin_ev ?_
        assumption

theorem enterIdle_ev {org : Mach} {m} (h_m : Evolves org m) :
    Evolves org (enterIdle m) := by
  delta enterIdle
  refine layerOver_ev ?_
  refine jobMove_ev ?_
  refine onJob_ev ?_
  assumption

theorem hostMakeReady_ev {org : Mach} {m} (h_m : Evolves org m) :
    Evolves org (hostMakeReady m) := by
  delta hostMakeReady
  split
  · refine enterIdle_ev ?_
    assumption
  · extract_lets x1
    have hx1 : Evolves org x1 := by
      unfold x1
      refine jobMove_ev ?_
      refine onJob_ev ?_
      assumption
    clear_value x1
    split
    · refine pausedBefore_ev ?_
      assumption
    · refine stepBegin_ev ?_
      assumption

theorem layerLeave_ev {org : Mach} {fin m0} (hf_fin : ∀ m, Evolves org m → Evolves org (fin m)) (h_m0 : Evolves org m0) :
    Evolves org (layerLeave fin m0) := by
  delta layerLeave
  extract_lets x1 x2 x3 x4
  have hx2 : Evolves org x2 := by
    unfold x2
    refine raise_ev ?_
    refine onJob_ev ?_
    refine impHalt_ev ?_
    assumption
  clear_value x2
  have hx3 : Evolves org x3 := by
    unfold x3
    refine keepParams_ev ?_
    assumption
  clear_value x3
  have hx4 : Evolves org x4 := by
    unfold x4
    split
    · refine freeSlot_ev ?_
      assumption
    · assumption
  clear_value x4
  refine Evolves.ite ?_ ?_
  · refine layerOver_ev ?_
    refine jobMove_ev ?_
    refine onJob_ev ?_
    assumption
  · refine Evolves.ite ?_ ?_
    · refine enterMakeReady_ev (fun _ _ => ?_) ?_
      · apply hf_fin
        assumption
      · assumption
    · refine Evolves.ite ?_ ?_
      · refine hostMakeReady_ev ?_
        assumption
      · refine enterIdle_ev ?_
        assumption

theorem layerFinish_ev {org : Mach} {fin m0} (hf_fin : ∀ m, Evolves org m → Evolves org (fin m)) (h_m0 : Evolves org m0) :
    Evolves org (layerFinish fin m0) := by
  delta layerFinish
  extract_lets x1 x2
  have hx2 : Evolves org x2 := by
    unfold x2
    refine layerEndEntry_ev ?_
    refine impHalt_ev ?_
    assumption
  clear_value x2
  refine Evolves.ite ?_ ?_
  · refine jobMove_ev ?_
    refine onJob_ev ?_
    assumption
  · refine layerLeave_ev (fun _ _ => ?_) ?_
    · apply hf_fin
      assumption
    · assumption

theorem enterExposingN_ev {org : Mach} {n m} (h_m : Evolves org m) : Evolves org (enterExposingN n m) := by
  induction n generalizing m with
  | zero => exact exposeBegin_ev h_m
  | succ n ih =>
    unfold enterExposingN
    exact Evolves.ite (layerFinish_ev (fun _ h => ih h) (exposeBegin_ev h_m)) (exposeBegin_ev h_m)

theorem enterExposing_ev {org : Mach} {z0} (h_z0 : Evolves org z0) :
    Evolves org (enterExposing z0) := by
  delta enterExposing
  refine enterExposingN_ev ?_
  assumption

theorem exposureCheck_ev {org : Mach} {m} (h_m : Evolves org m) :
    Evolves org (exposureCheck m) := by
  delta exposureCheck
  refine Evolves.ite ?_ ?_
  · refine layerFinish_ev (fun _ _ => ?_) ?_
    · refine enterExposing_ev ?_
      assumption
    · assumption
  · assumption

theorem slugGone_ev {org : Mach} {m} (h_m : Evolves org m) :
    Evolves org (slugGone m) := by
  delta slugGone
  refine pauseSettle_ev ?_
  refine exposureCheck_ev ?_
  assumption

theorem jobTest_ev {org : Mach} {m} (h_m : Evolves org m) :
    Evolves org (jobTest m) := by
  delta jobTest
  refine Evolves.ite ?_ ?_
  · refine enterMakeReady_ev (fun _ _ => ?_) ?_
    · refine enterExposing_ev ?_
      assumption
    · assumption
  · assumption

theorem makeReadyAt_ev {org : Mach} {k m} (h_m : Evolves org m) :
    Evolves org (makeReadyAt k m) := by
  delta makeReadyAt
  refine Evolves.ite ?_ ?_
  · refine makeReadyDone_ev (fun _ _ => ?_) ?_
    · refine enterExposing_ev ?_
      assumption
    · assumption
  · extract_lets x1
    have hx1 : Evolves org x1 := by
      unfold x1
      refine stepBegin_ev ?_
      assumption
    clear_value x1
    refine Evolves.ite ?_ ?_
    · refine makeReadyDone_ev (fun _ _ => ?_) ?_
      · refine enterExposing_ev ?_
        assumption
      · refine imageMissed_ev ?_
        assumption
    · assumption

theorem stepEnd_ev {org : Mach} {m} (h_m : Evolves org m) :
    Evolves org (stepEnd m) := by
  delta stepEnd
  extract_lets x1
  split
  · refine jobMove_ev ?_
    refine onJob_ev ?_
    assumption
  · refine makeReadyAt_ev ?_
    assumption

theorem imageArrived_ev {org : Mach} {m} (h_m : Evolves org m) :
    Evolves org (imageArrived m) := by
  delta imageArrived
  refine Evolves.ite ?_ ?_
  · refine onJob_ev ?_
    assumption
  · refine Evolves.ite ?_ ?_
    · refine stepEnd_ev ?_
      refine sceneRestore_ev ?_
      assumption
    · assumption

theorem stopExposing_ev {org : Mach} {c m} (h_m : Evolves org m) :
    Evolves org (stopExposing c m) := by
  delta stopExposing
  extract_lets x1
  have hx1 : Evolves org x1 := by
    unfold x1
    refine eachM_ev (fun _ _ _ => ?_) ?_
    · refine beamStop_ev ?_
      assumption
    · refine impHalt_ev ?_
      assumption
  clear_value x1
  refine jobMove_ev ?_
  refine onJob_ev ?_
  assumption

end Sys2Proof.Machine
end

