-- ==== Sys2Proof/Laws/Evolve/FormeCheck.lean ====
section
/-!
SUPPORT. What Machine/FormeCheck.lean does never undoes what Laws/Evolve/Base.lean names: one lemma per operation.
-/

namespace Sys2Proof.Machine

theorem commitWhere_ev {org : Mach} {o m} (h_m : Evolves org m) :
    Evolves org (commitWhere o m) := by
  delta commitWhere
  refine onJob_ev ?_
  assumption

theorem jobCommit_ev {org : Mach} {w m0} (h_m0 : Evolves org m0) :
    Evolves org (jobCommit w m0) := by
  delta jobCommit
  refine Evolves.ite ?_ ?_
  · refine refuse_ev ?_
    assumption
  · extract_lets x1 x2 x3 x4 x5
    have hx1 : Evolves org x1 := by
      unfold x1
      refine onJob_ev ?_
      assumption
    clear_value x1
    have hf_x4 : ∀ m, Evolves org m → Evolves org (x4 m) := by
      intro m hm
      unfold x4
      clear_value x3
      split
      · refine onJob_ev ?_
        assumption
      · assumption
    clear_value x4
    refine Evolves.ite ?_ ?_
    · refine refuse_ev ?_
      assumption
    · split
      · extract_lets x6 x7
        have hx6 : Evolves org x6 := by
          unfold x6
          refine Evolves.ite ?_ ?_
          · assumption
          · apply hf_x4
            assumption
        clear_value x6
        have hx7 : Evolves org x7 := by
          unfold x7
          refine Evolves.ite ?_ ?_
          · refine memRead_ev ?_
            assumption
          · assumption
        clear_value x7
        refine commitResult_ev ?_
        split
        · refine commitWhere_ev ?_
          assumption
        · assumption
      · refine commitResult_ev ?_
        refine onSlot_ev ?_
        refine onJob_ev ?_
        refine memRead_ev ?_
        apply hf_x4
        assumption
      · assumption

theorem commitEnd_ev {org : Mach} {m0} (h_m0 : Evolves org m0) :
    Evolves org (commitEnd m0) := by
  delta commitEnd
  split
  · assumption
  · extract_lets x1 x2 x3 x4
    have hx4 : Evolves org x4 := by
      unfold x4
      refine memRead_ev ?_
      assumption
    clear_value x4
    refine Evolves.ite ?_ ?_
    · refine commitDrop_ev ?_
      assumption
    · refine Evolves.ite ?_ ?_
      · refine commitDrop_ev ?_
        assumption
      · refine Evolves.ite ?_ ?_
        · refine commitDrop_ev ?_
          assumption
        · split
          · refine commitDrop_ev ?_
            refine commitWhere_ev ?_
            assumption
          · split
            · extract_lets x5 x6
              have hx5 : Evolves org x5 := by
                unfold x5
                refine onSlot_ev ?_
                assumption
              clear_value x5
              have hx6 : Evolves org x6 := by
                unfold x6
                refine onJob_ev ?_
                assumption
              clear_value x6
              refine jobTest_ev ?_
              refine raise_ev ?_
              refine commitResult_ev ?_
              refine onJob_ev ?_
              assumption

theorem execJobCommit_ev {org : Mach} {p v env s} (h_s : Evolves org s.m) :
    OutEv org (execJobCommit p v env s) := by
  delta execJobCommit
  refine act_ev (fun _ _ => ?_) h_s
  refine withEnv_ev (fun _ _ => ?_) ?_
  · refine writeGate_ev (fun _ _ => ?_) ?_
    · refine jobCommit_ev ?_
      assumption
    · assumption
  · assumption

theorem execCommitCheckEnd_ev {org : Mach} {ecc dma s} (h_s : Evolves org s.m) :
    OutEv org (execCommitCheckEnd ecc dma s) := by
  delta execCommitCheckEnd
  refine act_ev (fun _ _ => ?_) h_s
  refine withEnv_ev (fun _ _ => ?_) ?_
  · refine clocked_ev (fun _ _ => ?_) ?_
    · refine commitEnd_ev ?_
      assumption
    · assumption
  · assumption

end Sys2Proof.Machine
end

