-- ==== Sys2Proof/Laws/Evolve/JobOps.lean ====
section
/-!
SUPPORT. What Machine/JobOps.lean does never undoes what Laws/Evolve/Base.lean names: one lemma per operation.
-/

namespace Sys2Proof.Machine

theorem jobRefuse_ev {org : Mach} {m} (h_m : Evolves org m) :
    Evolves org (jobRefuse m) := by
  delta jobRefuse
  refine refuse_ev ?_
  assumption

theorem abortSettled_ev {org : Mach} {m} (h_m : Evolves org m) :
    Evolves org (abortSettled m) := by
  delta abortSettled
  refine Evolves.ite ?_ ?_
  · extract_lets x1 x2
    have hx1 : Evolves org x1 := by
      unfold x1
      refine eachM_ev (fun _ _ _ => ?_) ?_
      · refine onBeam_ev ?_
        refine onImp_ev ?_
        assumption
      · assumption
    clear_value x1
    have hx2 : Evolves org x2 := by
      unfold x2
      refine layerEndEntry_ev ?_
      refine onJob_ev ?_
      assumption
    clear_value x2
    refine jobTest_ev ?_
    split
    · refine freeSlot_ev ?_
      assumption
    · assumption
  · assumption

theorem jobPause_ev {org : Mach} {m} (h_m : Evolves org m) :
    Evolves org (jobPause m) := by
  delta jobPause
  split
  · refine onJob_ev ?_
    assumption
  · refine pauseExposing_ev ?_
    assumption
  · refine jobRefuse_ev ?_
    assumption

theorem imageDrop_ev {org : Mach} {m} (h_m : Evolves org m) :
    Evolves org (imageDrop m) := by
  delta imageDrop
  refine Evolves.ite ?_ ?_
  · refine onJob_ev ?_
    refine sceneRestore_ev ?_
    assumption
  · assumption

theorem jobStop_ev {org : Mach} {m} (h_m : Evolves org m) :
    Evolves org (jobStop m) := by
  delta jobStop
  split
  · extract_lets x1
    have hx1 : Evolves org x1 := by
      unfold x1
      refine eachM_ev (fun _ _ _ => ?_) ?_
      · refine jobStopAxis_ev ?_
        assumption
      · refine imageDrop_ev ?_
        assumption
    clear_value x1
    refine jobMove_ev ?_
    refine onJob_ev ?_
    assumption
  · refine stopExposing_ev ?_
    assumption
  · refine jobRefuse_ev ?_
    assumption

theorem jobAbort_ev {org : Mach} {m} (h_m : Evolves org m) :
    Evolves org (jobAbort m) := by
  delta jobAbort
  split
  · refine jobRefuse_ev ?_
    assumption
  · refine jobRefuse_ev ?_
    assumption
  · refine jobRefuse_ev ?_
    assumption
  · extract_lets x1 x2 x3
    have hx1 : Evolves org x1 := by
      unfold x1
      refine eachM_ev (fun _ _ _ => ?_) ?_
      · refine beamStop_ev ?_
        assumption
      · refine impHalt_ev ?_
        assumption
    clear_value x1
    have hx2 : Evolves org x2 := by
      unfold x2
      refine eachM_ev (fun _ _ _ => ?_) ?_
      · refine onAxis_ev ?_
        refine jobStopAxis_ev ?_
        assumption
      · refine imageDrop_ev ?_
        assumption
    clear_value x2
    have hx3 : Evolves org x3 := by
      unfold x3
      refine onJob_ev ?_
      assumption
    clear_value x3
    refine abortSettled_ev ?_
    refine layerOver_ev ?_
    refine jobMove_ev ?_
    assumption

theorem jobStart_ev {org : Mach} {m} (h_m : Evolves org m) :
    Evolves org (jobStart m) := by
  delta jobStart
  refine Evolves.ite ?_ ?_
  · refine enterMakeReady_ev (fun _ _ => ?_) ?_
    · refine enterExposing_ev ?_
      assumption
    · assumption
  · refine jobRefuse_ev ?_
    assumption

theorem jobFlush_ev {org : Mach} {m} (h_m : Evolves org m) :
    Evolves org (jobFlush m) := by
  delta jobFlush
  extract_lets x1
  refine commitDrop_ev ?_
  refine eachM_ev (fun _ _ _ => ?_) ?_
  · refine freeSlot_ev ?_
    assumption
  · refine Evolves.ite ?_ ?_
    · refine commitResult_ev ?_
      assumption
    · assumption

theorem takePositions_ev {org : Mach} {m} (h_m : Evolves org m) :
    Evolves org (takePositions m) := by
  delta takePositions
  refine onJob_ev ?_
  refine eachM_ev (fun _ _ _ => ?_) ?_
  · refine onAxis_ev ?_
    assumption
  · assumption

theorem resumeMakeReady_ev {org : Mach} {m0} (h_m0 : Evolves org m0) :
    Evolves org (resumeMakeReady m0) := by
  delta resumeMakeReady
  extract_lets x1 x2
  have hx1 : Evolves org x1 := by
    unfold x1
    refine jobMove_ev ?_
    assumption
  clear_value x1
  have hx2 : Evolves org x2 := by
    unfold x2
    refine onJob_ev ?_
    assumption
  clear_value x2
  refine Evolves.ite ?_ ?_
  · refine eachM_ev (fun _ _ _ => ?_) ?_
    · split
      · refine Evolves.ite ?_ ?_
        · assumption
        · refine jobMoveAxis_ev ?_
          assumption
    · assumption
  · refine makeReadyAt_ev ?_
    assumption

theorem resumeBeam_ev {org : Mach} {b m} (h_m : Evolves org m) :
    Evolves org (resumeBeam b m) := by
  delta resumeBeam
  split
  · refine Evolves.ite ?_ ?_
    · refine slugBegin_ev ?_
      assumption
    · assumption
  · assumption

theorem resumeExposing_ev {org : Mach} {m} (h_m : Evolves org m) :
    Evolves org (resumeExposing m) := by
  delta resumeExposing
  refine Evolves.ite ?_ ?_
  · refine layerLeave_ev (fun _ _ => ?_) ?_
    · refine enterExposing_ev ?_
      assumption
    · refine jobMove_ev ?_
      assumption
  · refine Evolves.ite ?_ ?_
    · refine layerFinish_ev (fun _ _ => ?_) ?_
      · refine enterExposing_ev ?_
        assumption
      · refine jobMove_ev ?_
        assumption
    · refine Evolves.ite ?_ ?_
      · refine enterExposing_ev ?_
        assumption
      · extract_lets x1 x2
        have hx1 : Evolves org x1 := by
          unfold x1
          refine onImpAll_ev ?_
          refine jobMove_ev ?_
          assumption
        clear_value x1
        have hx2 : Evolves org x2 := by
          unfold x2
          refine exposureCheck_ev ?_
          refine eachM_ev (fun _ _ _ => ?_) ?_
          · refine resumeBeam_ev ?_
            assumption
          · assumption
        clear_value x2
        refine whenM_ev (fun _ _ => ?_) ?_
        · refine pauseExposing_ev ?_
          assumption
        · assumption

theorem jobResume_ev {org : Mach} {m0} (h_m0 : Evolves org m0) :
    Evolves org (jobResume m0) := by
  delta jobResume
  refine Evolves.ite ?_ ?_
  · refine jobRefuse_ev ?_
    assumption
  · refine Evolves.ite ?_ ?_
    · refine jobRefuse_ev ?_
      assumption
    · refine Evolves.ite ?_ ?_
      · refine jobRefuse_ev ?_
        assumption
      · refine Evolves.ite ?_ ?_
        · refine jobRefuse_ev ?_
          assumption
        · refine Evolves.ite ?_ ?_
          · refine onJob_ev ?_
            assumption
          · extract_lets x1
            have hx1 : Evolves org x1 := by
              unfold x1
              refine onJob_ev ?_
              refine Evolves.ite ?_ ?_
              · refine takePositions_ev ?_
                assumption
              · assumption
            clear_value x1
            refine Evolves.ite ?_ ?_
            · split
              · refine enterExposing_ev ?_
                refine onJob_ev ?_
                refine layerBoundary_ev ?_
                refine activate_ev ?_
                assumption
              · assumption
            · refine Evolves.ite ?_ ?_
              · refine resumeExposing_ev ?_
                assumption
              · refine resumeMakeReady_ev ?_
                assumption

theorem jobCmd_ev {org : Mach} {w m} (h_m : Evolves org m) :
    Evolves org (jobCmd w m) := by
  delta jobCmd
  refine Evolves.ite ?_ ?_
  · refine jobRefuse_ev ?_
    assumption
  · extract_lets x1
    refine Evolves.ite ?_ ?_
    · refine jobFlush_ev ?_
      assumption
    · refine Evolves.ite ?_ ?_
      · refine jobRefuse_ev ?_
        assumption
      · clear_value x1
        split
        · refine jobPause_ev ?_
          assumption
        · refine jobStop_ev ?_
          assumption
        · refine jobResume_ev ?_
          assumption
        · refine jobAbort_ev ?_
          assumption
        · refine jobStart_ev ?_
          assumption
        · refine jobFlush_ev ?_
          assumption
        · refine jobRefuse_ev ?_
          assumption

theorem makeReadyStepEnd_ev {org : Mach} {m} (h_m : Evolves org m) :
    Evolves org (makeReadyStepEnd m) := by
  delta makeReadyStepEnd
  refine Evolves.ite ?_ ?_
  · refine stepEnd_ev ?_
    assumption
  · assumption

theorem mrTimeout_ev {org : Mach} {m} (h_m : Evolves org m) :
    Evolves org (mrTimeout m) := by
  delta mrTimeout
  refine Evolves.ite ?_ ?_
  · extract_lets x1 x2 x3
    have hx3 : Evolves org x3 := by
      unfold x3
      refine eachM_ev (fun _ _ _ => ?_) ?_
      · split
        · refine axStop_ev ?_
          assumption
      · refine onJob_ev ?_
        assumption
    clear_value x3
    refine Evolves.ite ?_ ?_
    · refine faultSafeHold_ev ?_
      assumption
    · refine log_ev ?_
      assumption
  · assumption

theorem imageTimeout_ev {org : Mach} {m} (h_m : Evolves org m) :
    Evolves org (imageTimeout m) := by
  delta imageTimeout
  refine Evolves.ite ?_ ?_
  · refine stepEnd_ev ?_
    refine imageMissed_ev ?_
    refine sceneRestore_ev ?_
    assumption
  · assumption

theorem execJobPause_ev {org : Mach} {p hi s} (h_s : Evolves org s.m) :
    OutEv org (execJobPause p hi s) := by
  delta execJobPause
  refine act_ev (fun _ _ => ?_) h_s
  refine writeGate_ev (fun _ _ => ?_) ?_
  · refine jobCmd_ev ?_
    assumption
  · assumption

theorem execJobStop_ev {org : Mach} {p hi s} (h_s : Evolves org s.m) :
    OutEv org (execJobStop p hi s) := by
  delta execJobStop
  refine act_ev (fun _ _ => ?_) h_s
  refine writeGate_ev (fun _ _ => ?_) ?_
  · refine jobCmd_ev ?_
    assumption
  · assumption

theorem execJobResume_ev {org : Mach} {p hi env s} (h_s : Evolves org s.m) :
    OutEv org (execJobResume p hi s env) := by
  delta execJobResume
  refine act_ev (fun _ _ => ?_) h_s
  refine withEnv_ev (fun _ _ => ?_) ?_
  · refine writeGate_ev (fun _ _ => ?_) ?_
    · refine jobCmd_ev ?_
      assumption
    · assumption
  · assumption

theorem execJobAbort_ev {org : Mach} {p hi s} (h_s : Evolves org s.m) :
    OutEv org (execJobAbort p hi s) := by
  delta execJobAbort
  refine act_ev (fun _ _ => ?_) h_s
  refine writeGate_ev (fun _ _ => ?_) ?_
  · refine jobCmd_ev ?_
    assumption
  · assumption

theorem execJobStart_ev {org : Mach} {p hi env s} (h_s : Evolves org s.m) :
    OutEv org (execJobStart p hi s env) := by
  delta execJobStart
  refine act_ev (fun _ _ => ?_) h_s
  refine withEnv_ev (fun _ _ => ?_) ?_
  · refine writeGate_ev (fun _ _ => ?_) ?_
    · refine jobCmd_ev ?_
      assumption
    · assumption
  · assumption

theorem execJobFlush_ev {org : Mach} {p hi s} (h_s : Evolves org s.m) :
    OutEv org (execJobFlush p hi s) := by
  delta execJobFlush
  refine act_ev (fun _ _ => ?_) h_s
  refine writeGate_ev (fun _ _ => ?_) ?_
  · refine jobCmd_ev ?_
    assumption
  · assumption

theorem execAbortSettled_ev {org : Mach} {s} (h_s : Evolves org s.m) :
    OutEv org (execAbortSettled s) := by
  delta execAbortSettled
  refine act_ev (fun _ _ => ?_) h_s
  refine clocked_ev (fun _ _ => ?_) ?_
  · refine abortSettled_ev ?_
    assumption
  · assumption

theorem execMakeReadyStepEnd_ev {org : Mach} {env s} (h_s : Evolves org s.m) :
    OutEv org (execMakeReadyStepEnd s env) := by
  delta execMakeReadyStepEnd
  refine act_ev (fun _ _ => ?_) h_s
  refine withEnv_ev (fun _ _ => ?_) ?_
  · refine clocked_ev (fun _ _ => ?_) ?_
    · refine makeReadyStepEnd_ev ?_
      assumption
    · assumption
  · assumption

theorem execMrTimeout_ev {org : Mach} {s} (h_s : Evolves org s.m) :
    OutEv org (execMrTimeout s) := by
  delta execMrTimeout
  refine act_ev (fun _ _ => ?_) h_s
  refine clocked_ev (fun _ _ => ?_) ?_
  · refine mrTimeout_ev ?_
    assumption
  · assumption

theorem execImageTimeout_ev {org : Mach} {env s} (h_s : Evolves org s.m) :
    OutEv org (execImageTimeout s env) := by
  delta execImageTimeout
  refine act_ev (fun _ _ => ?_) h_s
  refine withEnv_ev (fun _ _ => ?_) ?_
  · refine clocked_ev (fun _ _ => ?_) ?_
    · refine imageTimeout_ev ?_
      assumption
    · assumption
  · assumption

end Sys2Proof.Machine
end

