-- ==== Sys2Proof/Laws/Evolve/ImpOps.lean ====
section
/-!
SUPPORT. What Machine/ImpOps.lean does never undoes what Laws/Evolve/Base.lean names: one lemma per operation.
-/

namespace Sys2Proof.Machine

theorem chooseN_ev {org : Mach} {b e n m} (h_m : Evolves org m) : Evolves org (chooseN b e n m).2 := by
  induction n generalizing m with
  | zero => exact h_m
  | succ n ih =>
    unfold chooseN
    split
    · exact h_m
    · split
      · exact ih (holdRun_ev (takeWork_ev (memRead_ev h_m)))
      · exact h_m

theorem weightsFollow_ev {org : Mach} {m} (h_m : Evolves org m) :
    Evolves org (weightsFollow m) := by
  delta weightsFollow
  refine eachM_ev (fun _ _ _ => ?_) ?_
  · extract_lets x1
    refine Evolves.ite ?_ ?_
    · assumption
    · refine impPut_ev ?_
      refine onImp_ev ?_
      assumption
  · assumption

theorem areaHold_ev {org : Mach} {e m} (h_m : Evolves org m) :
    Evolves org (areaHold e m) := by
  delta areaHold
  extract_lets x1 x2 x3
  have hx3 : Evolves org x3 := by
    unfold x3
    refine eachM_ev (fun _ _ _ => ?_) ?_
    · refine memRead_ev ?_
      assumption
    · assumption
  clear_value x3
  refine eachM_ev (fun _ _ _ => ?_) ?_
  · extract_lets x4
    refine holdAll_ev ?_
    refine onImpAll_ev ?_
    assumption
  · assumption

theorem choiceRead_ev {org : Mach} {e m} (h_m : Evolves org m) :
    Evolves org (choiceRead e m) := by
  delta choiceRead
  refine areaHold_ev ?_
  refine weightsFollow_ev ?_
  refine takeRecord_ev ?_
  assumption

theorem choiceTake_ev {org : Mach} {b w0 m} (h_m : Evolves org m) :
    Evolves org (choiceTake b w0 m) := by
  delta choiceTake
  extract_lets x1 x2 x3 x4
  have hx4 : Evolves org x4 := by
    unfold x4
    refine takeWork_ev ?_
    assumption
  clear_value x4
  refine Evolves.ite ?_ ?_
  · refine slugBegin_ev ?_
    assumption
  · refine joinNext_ev ?_
    refine onImp_ev ?_
    assumption

theorem choiceWait_ev {org : Mach} {b m} (h_m : Evolves org m) :
    Evolves org (choiceWait b m) := by
  delta choiceWait
  extract_lets x1 x2
  refine slugGone_ev ?_
  refine onImp_ev ?_
  assumption

theorem impChoice_ev {org : Mach} {b e m0} (h_m0 : Evolves org m0) :
    Evolves org (impChoice b e m0) := by
  delta impChoice
  refine Evolves.ite ?_ ?_
  · assumption
  · extract_lets x1
    have hx1 : Evolves org x1 := by
      unfold x1
      refine choiceRead_ev ?_
      assumption
    clear_value x1
    refine Evolves.ite ?_ ?_
    · refine slugGone_ev ?_
      assumption
    · split
      · rename_i heq
        refine Evolves.let2 (b := org) heq ?_ (fun _ => ?_)
        · refine chooseN_ev ?_
          assumption
        refine Evolves.ite ?_ ?_
        · refine choiceTake_ev ?_
          assumption
        · assumption
      · rename_i heq
        refine Evolves.let2 (b := org) heq ?_ (fun _ => ?_)
        · refine chooseN_ev ?_
          assumption
        refine Evolves.ite ?_ ?_
        · assumption
        · refine Evolves.ite ?_ ?_
          · refine choiceWait_ev ?_
            assumption
          · refine slugGone_ev ?_
            assumption

theorem waitPrio_ev {org : Mach} {b m} (h_m : Evolves org m) :
    Evolves org (waitPrio b m) := by
  delta waitPrio
  split
  · refine Evolves.ite ?_ ?_
    · refine raise_ev ?_
      refine onImp_ev ?_
      assumption
    · assumption
  · assumption

theorem slugEndOp_ev {org : Mach} {b m} (h_m : Evolves org m) :
    Evolves org (slugEndOp b m) := by
  delta slugEndOp
  refine Evolves.ite ?_ ?_
  · extract_lets x1 x2 x3 x4
    have hx3 : Evolves org x3 := by
      unfold x3
      refine recordEnd_ev ?_
      assumption
    clear_value x3
    have hx4 : Evolves org x4 := by
      unfold x4
      refine onBeam_ev ?_
      refine onImp_ev ?_
      assumption
    clear_value x4
    split
    · refine slugGone_ev ?_
      refine slugBegin_ev ?_
      assumption
    · split
      · refine slugGone_ev ?_
        refine onBeam_ev ?_
        refine restAt_ev ?_
        assumption
  · assumption

theorem impStatus_ev {org : Mach} {b op result m} (h_m : Evolves org m) :
    Evolves org (impStatus b op result m) := by
  delta impStatus
  extract_lets x1
  have hx1 : Evolves org x1 := by
    unfold x1
    refine onImpAll_ev ?_
    assumption
  clear_value x1
  refine Evolves.ite ?_ ?_
  · refine refuse_ev ?_
    assumption
  · assumption

theorem impRetire_ev {org : Mach} {b m} (h_m : Evolves org m) :
    Evolves org (impRetire b m) := by
  delta impRetire
  refine Evolves.ite ?_ ?_
  · refine impStatus_ev ?_
    assumption
  · refine Evolves.ite ?_ ?_
    · refine impStatus_ev ?_
      assumption
    · refine Evolves.ite ?_ ?_
      · refine impStatus_ev ?_
        assumption
      · refine retire_ev ?_
        refine impStatus_ev ?_
        assumption

theorem impReturn_ev {org : Mach} {b m} (h_m : Evolves org m) :
    Evolves org (impReturn b m) := by
  delta impReturn
  extract_lets x1
  refine Evolves.ite ?_ ?_
  · refine impStatus_ev ?_
    assumption
  · refine Evolves.ite ?_ ?_
    · refine impStatus_ev ?_
      assumption
    · refine Evolves.ite ?_ ?_
      · refine impStatus_ev ?_
        assumption
      · refine Evolves.ite ?_ ?_
        · refine impStatus_ev ?_
          assumption
        · refine Evolves.ite ?_ ?_
          · refine impStatus_ev ?_
            assumption
          · refine Evolves.ite ?_ ?_
            · refine impStatus_ev ?_
              assumption
            · refine Evolves.ite ?_ ?_
              · refine ctxRestartBeam_ev ?_
                refine onImp_ev ?_
                refine impStatus_ev ?_
                assumption
              · refine beamReturn_ev ?_
                refine ctxRestartBeam_ev ?_
                refine impStatus_ev ?_
                assumption

theorem impCmd_ev {org : Mach} {w m} (h_m : Evolves org m) :
    Evolves org (impCmd w m) := by
  delta impCmd
  extract_lets x1
  refine Evolves.ite ?_ ?_
  · refine refuse_ev ?_
    assumption
  · split
    · refine impRetire_ev ?_
      assumption
    · refine impReturn_ev ?_
      assumption
    · refine refuse_ev ?_
      assumption

theorem returnEngaged_ev {org : Mach} {b m} (h_m : Evolves org m) :
    Evolves org (returnEngaged b m) := by
  delta returnEngaged
  refine Evolves.ite ?_ ?_
  · refine beamReturn_ev ?_
    refine impStatus_ev ?_
    assumption
  · assumption

theorem returnTimeout_ev {org : Mach} {b m} (h_m : Evolves org m) :
    Evolves org (returnTimeout b m) := by
  delta returnTimeout
  refine Evolves.ite ?_ ?_
  · refine impStatus_ev ?_
    refine eachM_ev (fun _ _ _ => ?_) ?_
    · refine ctxStop_ev ?_
      assumption
    · refine onImp_ev ?_
      assumption
  · assumption

theorem autoReturn_ev {org : Mach} {b m} (h_m : Evolves org m) :
    Evolves org (autoReturn b m) := by
  delta autoReturn
  extract_lets x1 x2
  refine Evolves.ite ?_ ?_
  · refine beamReturn_ev ?_
    refine ctxRestartBeam_ev ?_
    assumption
  · assumption

theorem impDeferred_ev {org : Mach} {m} (h_m : Evolves org m) :
    Evolves org (impDeferred m) := by
  delta impDeferred
  refine slugGone_ev ?_
  refine entryScans_ev ?_
  refine scanClose_ev ?_
  refine impWaiter_ev ?_
  assumption

theorem scanDone_ev {org : Mach} {e m} (h_m : Evolves org m) :
    Evolves org (scanDone e m) := by
  delta scanDone
  split
  · extract_lets x1 x2
    have hx2 : Evolves org x2 := by
      unfold x2
      refine memRead_ev ?_
      assumption
    clear_value x2
    refine slugGone_ev ?_
    refine scanEnd_ev ?_
    assumption
  · refine scanEnd_ev ?_
    assumption
  · assumption

theorem impRelease_ev {org : Mach} {p v m} (h_m : Evolves org m) :
    Evolves org (impRelease p v m) := by
  delta impRelease
  extract_lets x1 x2 x3
  have hf_x3 : ∀ a0, Evolves org (x3 a0) := by
    intro a0
    unfold x3
    refine onImpAll_ev ?_
    assumption
  clear_value x3
  refine Evolves.ite ?_ ?_
  · apply hf_x3
  · refine Evolves.ite ?_ ?_
    · apply hf_x3
    · refine accErr_ev ?_
      assumption

theorem execImpChoice_ev {org : Mach} {b ecc s} (h_s : Evolves org s.m) :
    OutEv org (execImpChoice b ecc s) := by
  delta execImpChoice
  refine act_ev (fun _ _ => ?_) h_s
  refine withEnv_ev (fun _ _ => ?_) ?_
  · refine clocked_ev (fun _ _ => ?_) ?_
    · refine impChoice_ev ?_
      assumption
    · assumption
  · assumption

theorem execSlugEnd_ev {org : Mach} {b env s} (h_s : Evolves org s.m) :
    OutEv org (execSlugEnd b s env) := by
  delta execSlugEnd
  refine act_ev (fun _ _ => ?_) h_s
  refine withEnv_ev (fun _ _ => ?_) ?_
  · refine clocked_ev (fun _ _ => ?_) ?_
    · refine slugEndOp_ev ?_
      assumption
    · assumption
  · assumption

theorem execWaitPrioElapsed_ev {org : Mach} {b s} (h_s : Evolves org s.m) :
    OutEv org (execWaitPrioElapsed b s) := by
  delta execWaitPrioElapsed
  refine act_ev (fun _ _ => ?_) h_s
  refine clocked_ev (fun _ _ => ?_) ?_
  · refine waitPrio_ev ?_
    assumption
  · assumption

theorem execRetire_ev {org : Mach} {p hi s} (h_s : Evolves org s.m) :
    OutEv org (execRetire p hi s) := by
  delta execRetire
  refine act_ev (fun _ _ => ?_) h_s
  refine writeGate_ev (fun _ _ => ?_) ?_
  · refine impCmd_ev ?_
    assumption
  · assumption

theorem execRetirementScanEnd_ev {org : Mach} {ecc s} (h_s : Evolves org s.m) :
    OutEv org (execRetirementScanEnd ecc s) := by
  delta execRetirementScanEnd
  refine act_ev (fun _ _ => ?_) h_s
  refine withEnv_ev (fun _ _ => ?_) ?_
  · refine clocked_ev (fun _ _ => ?_) ?_
    · refine scanDone_ev ?_
      assumption
    · assumption
  · assumption

theorem execReturn_ev {org : Mach} {p hi s} (h_s : Evolves org s.m) :
    OutEv org (execReturn p hi s) := by
  delta execReturn
  refine act_ev (fun _ _ => ?_) h_s
  refine writeGate_ev (fun _ _ => ?_) ?_
  · refine impCmd_ev ?_
    assumption
  · assumption

theorem execReturnEngaged_ev {org : Mach} {b s} (h_s : Evolves org s.m) :
    OutEv org (execReturnEngaged b s) := by
  delta execReturnEngaged
  refine act_ev (fun _ _ => ?_) h_s
  refine clocked_ev (fun _ _ => ?_) ?_
  · refine returnEngaged_ev ?_
    assumption
  · assumption

theorem execReturnTimeout_ev {org : Mach} {b s} (h_s : Evolves org s.m) :
    OutEv org (execReturnTimeout b s) := by
  delta execReturnTimeout
  refine act_ev (fun _ _ => ?_) h_s
  refine clocked_ev (fun _ _ => ?_) ?_
  · refine returnTimeout_ev ?_
    assumption
  · assumption

theorem execBeamAutoReturn_ev {org : Mach} {b s} (h_s : Evolves org s.m) :
    OutEv org (execBeamAutoReturn b s) := by
  delta execBeamAutoReturn
  refine act_ev (fun _ _ => ?_) h_s
  refine clocked_ev (fun _ _ => ?_) ?_
  · refine autoReturn_ev ?_
    assumption
  · assumption

theorem execImpRecRdWrite_ev {org : Mach} {p v s} (h_s : Evolves org s.m) :
    OutEv org (execImpRecRdWrite p v s) := by
  delta execImpRecRdWrite
  refine act_ev (fun _ _ => ?_) h_s
  refine writeGate_ev (fun _ _ => ?_) ?_
  · refine impRelease_ev ?_
    assumption
  · assumption

theorem execRecordEntryDeferred_ev {org : Mach} {env s} (h_s : Evolves org s.m) :
    OutEv org (execRecordEntryDeferred s env) := by
  delta execRecordEntryDeferred
  refine act_ev (fun _ _ => ?_) h_s
  refine withEnv_ev (fun _ _ => ?_) ?_
  · refine clocked_ev (fun _ _ => ?_) ?_
    · refine impDeferred_ev ?_
      assumption
    · assumption
  · assumption

end Sys2Proof.Machine
end

