-- ==== Sys2Proof/Laws/Evolve/MeltBase.lean ====
section
/-!
SUPPORT. What Machine/MeltBase.lean does never undoes what Laws/Evolve/Base.lean names: one lemma per operation.
-/

namespace Sys2Proof.Machine

theorem pdEntry_ev {org : Mach} {b m} (h_m : Evolves org m) :
    Evolves org (pdEntry b m) := by
  delta pdEntry
  extract_lets x1 x2
  refine Evolves.ite ?_ ?_
  · assumption
  · refine onMpl_ev ?_
    refine ringWrite_ev ?_
    assumption

theorem emissionEnd_ev {org : Mach} {b m} (h_m : Evolves org m) :
    Evolves org (emissionEnd b m) := by
  delta emissionEnd
  extract_lets x1
  have hx1 : Evolves org x1 := by
    unfold x1
    refine pdEntry_ev ?_
    refine depositEnd_ev ?_
    assumption
  clear_value x1
  refine onMpl_ev ?_
  refine onBeam_ev ?_
  assumption

end Sys2Proof.Machine
end

