-- ==== Sys2Proof/Laws/Evolve/MemOps.lean ====
section
/-!
SUPPORT. What Machine/MemOps.lean does never undoes what Laws/Evolve/Base.lean names: one lemma per operation.
-/

namespace Sys2Proof.Machine

theorem memRefuse_ev {org : Mach} {m} (h_m : Evolves org m) :
    Evolves org (memRefuse m) := by
  delta memRefuse
  refine raise_ev ?_
  refine cmdError_ev ?_
  assumption

theorem memCmd_ev {org : Mach} {w m} (h_m : Evolves org m) :
    Evolves org (memCmd w m) := by
  delta memCmd
  refine Evolves.ite ?_ ?_
  · refine memRefuse_ev ?_
    assumption
  · split
    · extract_lets x1 x2
      refine Evolves.ite ?_ ?_
      · refine memRefuse_ev ?_
        assumption
      · refine onCh_ev ?_
        assumption
    · refine Evolves.upd ?_ rfl rfl rfl rfl rfl rfl rfl rfl rfl
      assumption
    · refine memRefuse_ev ?_
      assumption

theorem retrainRun_ev {org : Mach} {c m} (h_m : Evolves org m) :
    Evolves org (retrainRun c m) := by
  delta retrainRun
  refine Evolves.ite ?_ ?_
  · assumption
  · refine retrainNow_ev ?_
    assumption

theorem retrainEnd_ev {org : Mach} {c ok rd wr m} (h_m : Evolves org m) :
    Evolves org (retrainEnd c ok rd wr m) := by
  delta retrainEnd
  refine Evolves.ite ?_ ?_
  · assumption
  · refine Evolves.ite ?_ ?_
    · refine repair_ev ?_
      refine raise_ev ?_
      refine onCh_ev ?_
      assumption
    · refine logClass_ev ?_
      refine raise_ev ?_
      refine onCh_ev ?_
      assumption

theorem acceptReads_ev {org : Mach} {c rs m} (h_m : Evolves org m) :
    Evolves org (acceptReads c rs m) := by
  delta acceptReads
  refine onCh_ev ?_
  assumption

theorem refreshDue_ev {org : Mach} {c bank reads m0} (h_m0 : Evolves org m0) :
    Evolves org (refreshDue c bank reads m0) := by
  delta refreshDue
  refine Evolves.ite ?_ ?_
  · assumption
  · extract_lets x1 x2 x3 x4
    have hx1 : Evolves org x1 := by
      unfold x1
      refine acceptReads_ev ?_
      assumption
    clear_value x1
    refine Evolves.ite ?_ ?_
    · refine onCh_ev ?_
      assumption
    · refine onCh_ev ?_
      refine neighboursFirst_ev ?_
      assumption

theorem drainQueue_ev {org : Mach} {c reads m0} (h_m0 : Evolves org m0) :
    Evolves org (drainQueue c reads m0) := by
  delta drainQueue
  extract_lets x1 x2 x3
  have hx1 : Evolves org x1 := by
    unfold x1
    refine acceptReads_ev ?_
    assumption
  clear_value x1
  refine eachM_ev (fun _ _ _ => ?_) ?_
  · refine rowActivate_ev ?_
    assumption
  · refine onCh_ev ?_
    assumption

theorem hotRefresh_ev {org : Mach} {c bank row m} (h_m : Evolves org m) :
    Evolves org (hotRefresh c bank row m) := by
  delta hotRefresh
  refine Evolves.ite ?_ ?_
  · refine neighbourRefresh_ev ?_
    assumption
  · assumption

theorem hotWindow_ev {org : Mach} {m} (h_m : Evolves org m) :
    Evolves org (hotWindow m) := by
  delta hotWindow
  refine takeRecord_ev ?_
  refine onCh_ev ?_
  refine onCh_ev ?_
  assumption

theorem scrubStart_ev {org : Mach} {e m} (h_m : Evolves org m) :
    Evolves org (scrubStart e m) := by
  delta scrubStart
  refine Evolves.ite ?_ ?_
  · assumption
  · extract_lets x1 x2 x3 x4
    have hx3 : Evolves org x3 := by
      unfold x3
      refine Evolves.upd ?_ rfl rfl rfl rfl rfl rfl rfl rfl rfl
      assumption
    clear_value x3
    refine eachM_ev (fun _ _ _ => ?_) ?_
    · refine ueFound_ev ?_
      assumption
    · refine eachM_ev (fun _ _ _ => ?_) ?_
      · refine ceFound_ev ?_
        assumption
      · assumption

theorem scrubDone_ev {org : Mach} {m} (h_m : Evolves org m) :
    Evolves org (scrubDone m) := by
  delta scrubDone
  refine Evolves.ite ?_ ?_
  · assumption
  · refine raise_ev ?_
    refine Evolves.upd ?_ rfl rfl rfl rfl rfl rfl rfl rfl rfl
    assumption

theorem execMemRetrain_ev {org : Mach} {p hi s} (h_s : Evolves org s.m) :
    OutEv org (execMemRetrain p hi s) := by
  delta execMemRetrain
  refine act_ev (fun _ _ => ?_) h_s
  refine writeGate_ev (fun _ _ => ?_) ?_
  · refine memCmd_ev ?_
    assumption
  · assumption

theorem execScrubNow_ev {org : Mach} {p hi s} (h_s : Evolves org s.m) :
    OutEv org (execScrubNow p hi s) := by
  delta execScrubNow
  refine act_ev (fun _ _ => ?_) h_s
  refine writeGate_ev (fun _ _ => ?_) ?_
  · refine memCmd_ev ?_
    assumption
  · assumption

theorem execRetrainRun_ev {org : Mach} {c s} (h_s : Evolves org s.m) :
    OutEv org (execRetrainRun c s) := by
  delta execRetrainRun
  refine act_ev (fun _ _ => ?_) h_s
  refine retrainRun_ev ?_
  assumption

theorem execRefreshDue_ev {org : Mach} {c bank reads s} (h_s : Evolves org s.m) :
    OutEv org (execRefreshDue c bank reads s) := by
  delta execRefreshDue
  refine act_ev (fun _ _ => ?_) h_s
  refine refreshDue_ev ?_
  assumption

theorem execWriteQueueDrain_ev {org : Mach} {c reads s} (h_s : Evolves org s.m) :
    OutEv org (execWriteQueueDrain c reads s) := by
  delta execWriteQueueDrain
  refine act_ev (fun _ _ => ?_) h_s
  refine drainQueue_ev ?_
  assumption

theorem execHotRowRefresh_ev {org : Mach} {c bank row s} (h_s : Evolves org s.m) :
    OutEv org (execHotRowRefresh c bank row s) := by
  delta execHotRowRefresh
  refine act_ev (fun _ _ => ?_) h_s
  refine hotRefresh_ev ?_
  assumption

theorem execHotRowWindow_ev {org : Mach} {s} (h_s : Evolves org s.m) :
    OutEv org (execHotRowWindow s) := by
  delta execHotRowWindow
  refine act_ev (fun _ _ => ?_) h_s
  refine hotWindow_ev ?_
  assumption

theorem execScrubPassStart_ev {org : Mach} {ecc s} (h_s : Evolves org s.m) :
    OutEv org (execScrubPassStart ecc s) := by
  delta execScrubPassStart
  refine act_ev (fun _ _ => ?_) h_s
  refine scrubStart_ev ?_
  assumption

theorem execScrubPassDone_ev {org : Mach} {s} (h_s : Evolves org s.m) :
    OutEv org (execScrubPassDone s) := by
  delta execScrubPassDone
  refine act_ev (fun _ _ => ?_) h_s
  refine scrubDone_ev ?_
  assumption

end Sys2Proof.Machine
end

