-- ==== Sys2Proof/Laws/Evolve/MgtOps.lean ====
section
/-!
SUPPORT. What Machine/MgtOps.lean does never undoes what Laws/Evolve/Base.lean names: one lemma per operation.
-/

namespace Sys2Proof.Machine

theorem nvmAppend_ev {org : Mach} {bad e m} (h_m : Evolves org m) :
    Evolves org (nvmAppend bad e m) := by
  delta nvmAppend
  extract_lets x1 x2 x3 x4 x5 x6 x7 x8 x9
  have hx9 : Evolves org x9 := by
    unfold x9
    refine Evolves.upd ?_ rfl rfl rfl rfl rfl rfl rfl rfl rfl
    assumption
  clear_value x9
  refine Evolves.ite ?_ ?_
  · refine Evolves.upd ?_ rfl rfl rfl rfl rfl rfl rfl rfl rfl
    assumption
  · refine whenM_ev (fun _ _ => ?_) ?_
    · refine raise_ev ?_
      assumption
    · assumption

theorem logFlush_ev {org : Mach} {bad m} (h_m : Evolves org m) :
    Evolves org (logFlush bad m) := by
  delta logFlush
  refine eachM_ev (fun _ _ _ => ?_) ?_
  · refine nvmAppend_ev ?_
    assumption
  · refine Evolves.upd ?_ rfl rfl rfl rfl rfl rfl rfl rfl rfl
    assumption

theorem logStageCopy_ev {org : Mach} {m} (h_m : Evolves org m) :
    Evolves org (logStageCopy m) := by
  delta logStageCopy
  split
  · assumption
  · refine Evolves.ite ?_ ?_
    · assumption
    · extract_lets x1 x2
      refine memWrite_ev ?_
      refine Evolves.upd ?_ rfl rfl rfl rfl rfl rfl rfl rfl rfl
      assumption

theorem mbCmd_ev {org : Mach} {p w m} (h_m : Evolves org m) :
    Evolves org (mbCmd p w m) := by
  delta mbCmd
  split
  · assumption
  · refine Evolves.ite ?_ ?_
    · refine cmdError_ev ?_
      assumption
    · refine Evolves.ite ?_ ?_
      · refine cmdError_ev ?_
        assumption
      · refine Evolves.upd ?_ rfl rfl rfl rfl rfl rfl rfl rfl rfl
        assumption

theorem mbDone_ev {org : Mach} {result res m} (h_m : Evolves org m) :
    Evolves org (mbDone result res m) := by
  delta mbDone
  refine raise_ev ?_
  refine Evolves.upd ?_ rfl rfl rfl rfl rfl rfl rfl rfl rfl
  assumption

theorem netClose_ev {org : Mach} {m} (h_m : Evolves org m) :
    Evolves org (netClose m) := by
  delta netClose
  extract_lets x1 x2 x3
  have hx2 : Evolves org x2 := by
    unfold x2
    refine Evolves.upd ?_ rfl rfl rfl rfl rfl rfl rfl rfl rfl
    assumption
  clear_value x2
  refine Evolves.ite ?_ ?_
  · refine raise_ev ?_
    refine Evolves.upd ?_ rfl rfl rfl rfl rfl rfl rfl rfl rfl
    assumption
  · assumption

theorem mbLogFetch_ev {org : Mach} {m} (h_m : Evolves org m) :
    Evolves org (mbLogFetch m) := by
  delta mbLogFetch
  extract_lets x1 x2 x3 x4 x5
  have hx5 : Evolves org x5 := by
    unfold x5
    refine memWrite_ev ?_
    assumption
  clear_value x5
  refine Evolves.ite ?_ ?_
  · refine mbDone_ev ?_
    assumption
  · refine mbDone_ev ?_
    assumption

theorem mbReply_ev {org : Mach} {m} (h_m : Evolves org m) :
    Evolves org (mbReply m) := by
  delta mbReply
  refine Evolves.ite ?_ ?_
  · assumption
  · extract_lets x1 x2 x3 x4
    have hx2 : Evolves org x2 := by
      unfold x2
      refine logFlush_ev ?_
      assumption
    clear_value x2
    split
    · refine mbDone_ev ?_
      assumption
    · refine mbDone_ev ?_
      assumption
    · refine mbLogFetch_ev ?_
      assumption
    · refine mbDone_ev ?_
      assumption
    · refine Evolves.ite ?_ ?_
      · refine mbDone_ev ?_
        refine netClose_ev ?_
        assumption
      · refine Evolves.ite ?_ ?_
        · refine mbDone_ev ?_
          assumption
        · refine mbDone_ev ?_
          refine Evolves.upd ?_ rfl rfl rfl rfl rfl rfl rfl rfl rfl
          assumption
    · refine Evolves.ite ?_ ?_
      · refine mbDone_ev ?_
        assumption
      · refine mbDone_ev ?_
        refine Evolves.upd ?_ rfl rfl rfl rfl rfl rfl rfl rfl rfl
        assumption
    · refine mbDone_ev ?_
      assumption

theorem execEcho_ev {org : Mach} {p hi s} (h_s : Evolves org s.m) :
    OutEv org (execEcho p hi s) := by
  delta execEcho
  refine act_ev (fun _ _ => ?_) h_s
  refine writeGate_ev (fun _ _ => ?_) ?_
  · refine mbCmd_ev ?_
    assumption
  · assumption

theorem execInfo_ev {org : Mach} {p hi s} (h_s : Evolves org s.m) :
    OutEv org (execInfo p hi s) := by
  delta execInfo
  refine act_ev (fun _ _ => ?_) h_s
  refine writeGate_ev (fun _ _ => ?_) ?_
  · refine mbCmd_ev ?_
    assumption
  · assumption

theorem execLogFetch_ev {org : Mach} {p hi s} (h_s : Evolves org s.m) :
    OutEv org (execLogFetch p hi s) := by
  delta execLogFetch
  refine act_ev (fun _ _ => ?_) h_s
  refine writeGate_ev (fun _ _ => ?_) ?_
  · refine mbCmd_ev ?_
    assumption
  · assumption

theorem execLogFlush_ev {org : Mach} {p hi s} (h_s : Evolves org s.m) :
    OutEv org (execLogFlush p hi s) := by
  delta execLogFlush
  refine act_ev (fun _ _ => ?_) h_s
  refine writeGate_ev (fun _ _ => ?_) ?_
  · refine mbCmd_ev ?_
    assumption
  · assumption

theorem execNetArm_ev {org : Mach} {p hi s} (h_s : Evolves org s.m) :
    OutEv org (execNetArm p hi s) := by
  delta execNetArm
  refine act_ev (fun _ _ => ?_) h_s
  refine writeGate_ev (fun _ _ => ?_) ?_
  · refine mbCmd_ev ?_
    assumption
  · assumption

theorem execRtcSet_ev {org : Mach} {p hi s} (h_s : Evolves org s.m) :
    OutEv org (execRtcSet p hi s) := by
  delta execRtcSet
  refine act_ev (fun _ _ => ?_) h_s
  refine writeGate_ev (fun _ _ => ?_) ?_
  · refine mbCmd_ev ?_
    assumption
  · assumption

theorem execMbReply_ev {org : Mach} {s} (h_s : Evolves org s.m) :
    OutEv org (execMbReply s) := by
  delta execMbReply
  refine act_ev (fun _ _ => ?_) h_s
  refine mbReply_ev ?_
  assumption

theorem execLogStageCopy_ev {org : Mach} {s} (h_s : Evolves org s.m) :
    OutEv org (execLogStageCopy s) := by
  delta execLogStageCopy
  refine act_ev (fun _ _ => ?_) h_s
  refine logStageCopy_ev ?_
  assumption

theorem execLogNvmFlush_ev {org : Mach} {bad s} (h_s : Evolves org s.m) :
    OutEv org (execLogNvmFlush bad s) := by
  delta execLogNvmFlush
  refine act_ev (fun _ _ => ?_) h_s
  refine logFlush_ev ?_
  assumption

theorem watchdog_ev {org : Mach} {digestOk m} (h_m : Evolves org m) :
    Evolves org (watchdog digestOk m) := by
  delta watchdog
  refine Evolves.ite ?_ ?_
  · assumption
  · extract_lets x1 x2 x3 x4
    have hx3 : Evolves org x3 := by
      unfold x3
      refine raise_ev ?_
      refine Evolves.upd ?_ rfl rfl rfl rfl rfl rfl rfl rfl rfl
      assumption
    clear_value x3
    have hx4 : Evolves org x4 := by
      unfold x4
      refine repair_ev ?_
      assumption
    clear_value x4
    refine Evolves.ite ?_ ?_
    · refine faultSafeHold_ev ?_
      assumption
    · refine Evolves.ite ?_ ?_
      · refine mbDone_ev ?_
        assumption
      · assumption

theorem execMgmtWatchdogExpire_ev {org : Mach} {digestOk s} (h_s : Evolves org s.m) :
    OutEv org (execMgmtWatchdogExpire digestOk s) := by
  delta execMgmtWatchdogExpire
  refine act_ev (fun _ _ => ?_) h_s
  refine watchdog_ev ?_
  assumption

theorem netSend_ev {org : Mach} {ip type id off len data m} (h_m : Evolves org m) :
    Evolves org (netSend ip type id off len data m) := by
  delta netSend
  refine emit_ev ?_
  assumption

theorem netBegin_ev {org : Mach} {sender id len m} (h_m : Evolves org m) :
    Evolves org (netBegin sender id len m) := by
  delta netBegin
  refine Evolves.ite ?_ ?_
  · assumption
  · refine Evolves.ite ?_ ?_
    · refine netSend_ev ?_
      assumption
    · refine Evolves.upd ?_ rfl rfl rfl rfl rfl rfl rfl rfl rfl
      assumption

theorem netData_ev {org : Mach} {sender id off bs m} (h_m : Evolves org m) :
    Evolves org (netData sender id off bs m) := by
  delta netData
  split
  · assumption
  · refine Evolves.ite ?_ ?_
    · assumption
    · extract_lets x1 x2 x3
      have hx3 : Evolves org x3 := by
        unfold x3
        refine memWrite_ev ?_
        refine Evolves.upd ?_ rfl rfl rfl rfl rfl rfl rfl rfl rfl
        assumption
      clear_value x3
      refine netSend_ev ?_
      assumption

theorem netEnd_ev {org : Mach} {sender id m} (h_m : Evolves org m) :
    Evolves org (netEnd sender id m) := by
  delta netEnd
  split
  · assumption
  · refine Evolves.ite ?_ ?_
    · assumption
    · refine Evolves.ite ?_ ?_
      · refine raise_ev ?_
        refine netSend_ev ?_
        refine Evolves.upd ?_ rfl rfl rfl rfl rfl rfl rfl rfl rfl
        assumption
      · extract_lets x1 x2
        refine updStart_ev ?_
        refine Evolves.upd ?_ rfl rfl rfl rfl rfl rfl rfl rfl rfl
        assumption

theorem netLogReq_ev {org : Mach} {sender id first n m} (h_m : Evolves org m) :
    Evolves org (netLogReq sender id first n m) := by
  delta netLogReq
  refine Evolves.ite ?_ ?_
  · assumption
  · extract_lets x1
    refine netSend_ev ?_
    assumption

theorem netIdle_ev {org : Mach} {m} (h_m : Evolves org m) :
    Evolves org (netIdle m) := by
  delta netIdle
  refine Evolves.ite ?_ ?_
  · refine raise_ev ?_
    refine Evolves.upd ?_ rfl rfl rfl rfl rfl rfl rfl rfl rfl
    assumption
  · assumption

theorem ethLos_ev {org : Mach} {p los m} (h_m : Evolves org m) :
    Evolves org (ethLos p los m) := by
  delta ethLos
  extract_lets x1
  refine Evolves.upd ?_ rfl rfl rfl rfl rfl rfl rfl rfl rfl
  assumption

theorem execUpdBegin_ev {org : Mach} {sender id len s} (h_s : Evolves org s.m) :
    OutEv org (execUpdBegin sender id len s) := by
  delta execUpdBegin
  refine act_ev (fun _ _ => ?_) h_s
  refine netBegin_ev ?_
  assumption

theorem execUpdData_ev {org : Mach} {sender id off bytes s} (h_s : Evolves org s.m) :
    OutEv org (execUpdData sender id off bytes s) := by
  delta execUpdData
  refine act_ev (fun _ _ => ?_) h_s
  refine netData_ev ?_
  assumption

theorem execUpdEnd_ev {org : Mach} {sender id s} (h_s : Evolves org s.m) :
    OutEv org (execUpdEnd sender id s) := by
  delta execUpdEnd
  refine act_ev (fun _ _ => ?_) h_s
  refine netEnd_ev ?_
  assumption

theorem execLogReq_ev {org : Mach} {sender id first count s} (h_s : Evolves org s.m) :
    OutEv org (execLogReq sender id first count s) := by
  delta execLogReq
  refine act_ev (fun _ _ => ?_) h_s
  refine netLogReq_ev ?_
  assumption

theorem execNetTransferIdle_ev {org : Mach} {s} (h_s : Evolves org s.m) :
    OutEv org (execNetTransferIdle s) := by
  delta execNetTransferIdle
  refine act_ev (fun _ _ => ?_) h_s
  refine netIdle_ev ?_
  assumption

theorem execNetWindowClose_ev {org : Mach} {s} (h_s : Evolves org s.m) :
    OutEv org (execNetWindowClose s) := by
  delta execNetWindowClose
  refine act_ev (fun _ _ => ?_) h_s
  refine netClose_ev ?_
  assumption

theorem execEthLos_ev {org : Mach} {p los s} (h_s : Evolves org s.m) :
    OutEv org (execEthLos p los s) := by
  delta execEthLos
  refine act_ev (fun _ _ => ?_) h_s
  refine ethLos_ev ?_
  assumption

end Sys2Proof.Machine
end

