-- ==== Sys2Proof/Laws/Evolve/LaneRx.lean ====
section
/-!
SUPPORT. What Machine/LaneRx.lean does never undoes what Laws/Evolve/Base.lean names: one lemma per operation.
-/

namespace Sys2Proof.Machine

theorem frameUsed_ev {org : Mach} {h fseq m} (h_m : Evolves org m) :
    Evolves org (frameUsed h fseq m) := by
  delta frameUsed
  refine onHead_ev ?_
  assumption

theorem floodDrop_ev {org : Mach} {l type b m} (h_m : Evolves org m) :
    Evolves org (floodDrop l type b m) := by
  delta floodDrop
  extract_lets x1 x2
  have hx2 : Evolves org x2 := by
    unfold x2
    refine setBucket_ev ?_
    refine onLane_ev ?_
    assumption
  clear_value x2
  refine whenM_ev (fun _ _ => ?_) ?_
  · refine raise_ev ?_
    assumption
  · assumption

theorem rxFrame_ev {org : Mach} {l type f use m} (hf_use : ∀ m, Evolves org m → Evolves org (use m)) (h_m : Evolves org m) :
    Evolves org (rxFrame l type f use m) := by
  delta rxFrame
  extract_lets x1 x2 x3
  split
  · refine Evolves.ite ?_ ?_
    · assumption
    · split
      · refine raise_ev ?_
        refine onLane_ev ?_
        assumption
      · refine onLane_ev ?_
        assumption
      · refine onLane_ev ?_
        assumption
      · refine Evolves.ite ?_ ?_
        · refine onLane_ev ?_
          assumption
        · refine Evolves.ite ?_ ?_
          · assumption
          · refine Evolves.ite ?_ ?_
            · refine onLane_ev ?_
              assumption
            · refine Evolves.ite ?_ ?_
              · refine frameUsed_ev ?_
                refine floodDrop_ev ?_
                assumption
              · apply hf_use
                refine frameUsed_ev ?_
                refine setBucket_ev ?_
                assumption

theorem sigBlock_ev {org : Mach} {base t bs n m} (h_m : Evolves org m) :
    Evolves org (sigBlock base t bs n m) := by
  delta sigBlock
  refine eachM_ev (fun _ _ _ => ?_) ?_
  · refine sigWriteAt_ev ?_
    assumption
  · assumption

theorem execPosFrame_ev {org : Mach} {l f s} (h_s : Evolves org s.m) :
    OutEv org (execPosFrame l f s) := by
  delta execPosFrame
  refine act_ev (fun _ _ => ?_) h_s
  refine rxFrame_ev (fun _ _ => ?_) ?_
  · refine sigBlock_ev ?_
    assumption
  · assumption

theorem execAuxValFrame_ev {org : Mach} {l f s} (h_s : Evolves org s.m) :
    OutEv org (execAuxValFrame l f s) := by
  delta execAuxValFrame
  refine act_ev (fun _ _ => ?_) h_s
  refine rxFrame_ev (fun _ _ => ?_) ?_
  · refine sigBlock_ev ?_
    assumption
  · assumption

theorem imgCheck_ev {org : Mach} {l m} (h_m : Evolves org m) :
    Evolves org (imgCheck l m) := by
  delta imgCheck
  extract_lets x1
  split
  · refine Evolves.ite ?_ ?_
    · refine imageArrived_ev ?_
      refine raise_ev ?_
      refine onHead_ev ?_
      assumption
    · assumption
  · assumption

theorem imgBegin_ev {org : Mach} {l bs m} (h_m : Evolves org m) :
    Evolves org (imgBegin l bs m) := by
  delta imgBegin
  extract_lets x1 x2 x3
  split
  · extract_lets x4 x5
    have hx5 : Evolves org x5 := by
      unfold x5
      refine onHead_ev ?_
      assumption
    clear_value x5
    refine Evolves.ite ?_ ?_
    · refine raise_ev ?_
      assumption
    · refine Evolves.ite ?_ ?_
      · assumption
      · refine imgCheck_ev ?_
        refine memWrite_ev ?_
        assumption

theorem imgSeg_ev {org : Mach} {l bs m} (h_m : Evolves org m) :
    Evolves org (imgSeg l bs m) := by
  delta imgSeg
  extract_lets x1 x2 x3 x4
  split
  · split
    · refine Evolves.ite ?_ ?_
      · assumption
      · extract_lets x5
        refine imgCheck_ev ?_
        refine memWrite_ev ?_
        refine onHead_ev ?_
        assumption
    · assumption

theorem execImgBeginFrame_ev {org : Mach} {l f s} (h_s : Evolves org s.m) :
    OutEv org (execImgBeginFrame l f s) := by
  delta execImgBeginFrame
  refine act_ev (fun _ _ => ?_) h_s
  refine rxFrame_ev (fun _ _ => ?_) ?_
  · refine imgBegin_ev ?_
    assumption
  · assumption

theorem execImgSegFrame_ev {org : Mach} {l f env s} (h_s : Evolves org s.m) :
    OutEv org (execImgSegFrame l f s env) := by
  delta execImgSegFrame
  refine act_ev (fun _ _ => ?_) h_s
  refine withEnv_ev (fun _ _ => ?_) ?_
  · refine rxFrame_ev (fun _ _ => ?_) ?_
    · refine imgSeg_ev ?_
      assumption
    · assumption
  · assumption

end Sys2Proof.Machine
end

