-- ==== Sys2Proof/Laws/Evolve/MeltPd.lean ====
section
/-!
SUPPORT. What Machine/MeltPd.lean does never undoes what Laws/Evolve/Base.lean names: one lemma per operation.
-/

namespace Sys2Proof.Machine

theorem windowValues_ev {org : Mach} {b k ss m} (h_m : Evolves org m) :
    Evolves org (windowValues b k ss m) := by
  delta windowValues
  extract_lets x1 x2 x3 x4 x5 x6 x7 x8 x9 x10 x11 x12 x13 x14 x15 x16 x17 x18 x19 x20
  have hx18 : Evolves org x18 := by
    unfold x18
    refine onMpl_ev ?_
    assumption
  clear_value x18
  have hx19 : Evolves org x19 := by
    unfold x19
    refine whenM_ev (fun _ _ => ?_) ?_
    · refine mplRaise_ev ?_
      assumption
    · assumption
  clear_value x19
  refine whenM_ev (fun _ _ => ?_) ?_
  · refine mplRaise_ev ?_
    refine onMpl_ev ?_
    assumption
  · assumption

theorem windowRuns_ev {org : Mach} {b t m} (h_m : Evolves org m) :
    Evolves org (windowRuns b t m) := by
  delta windowRuns
  extract_lets x1 x2 x3 x4 x5
  refine onMpl_ev ?_
  assumption

theorem windowTrim_ev {org : Mach} {b t m} (h_m : Evolves org m) :
    Evolves org (windowTrim b t m) := by
  delta windowTrim
  extract_lets x1 x2 x3
  refine onMpl_ev ?_
  assumption

theorem windowSignals_ev {org : Mach} {b t m} (h_m : Evolves org m) :
    Evolves org (windowSignals b t m) := by
  delta windowSignals
  extract_lets x1 x2
  refine eachM_ev (fun _ _ _ => ?_) ?_
  · split
    · refine sigWriteRaw_ev ?_
      assumption
  · assumption

theorem windowRecord_ev {org : Mach} {b t m} (h_m : Evolves org m) :
    Evolves org (windowRecord b t m) := by
  delta windowRecord
  extract_lets x1 x2 x3 x4 x5 x6
  have hx6 : Evolves org x6 := by
    unfold x6
    refine onMpl_ev ?_
    assumption
  clear_value x6
  refine Evolves.ite ?_ ?_
  · assumption
  · refine Evolves.ite ?_ ?_
    · refine onMpl_ev ?_
      assumption
    · refine whenM_ev (fun _ _ => ?_) ?_
      · refine pdEntry_ev ?_
        assumption
      · assumption

theorem windowJudge_ev {org : Mach} {b k m0} (h_m0 : Evolves org m0) :
    Evolves org (windowJudge b k m0) := by
  delta windowJudge
  extract_lets x1 x2 x3
  have hx1 : Evolves org x1 := by
    unfold x1
    refine takeRecord_ev ?_
    assumption
  clear_value x1
  refine windowRecord_ev ?_
  refine windowSignals_ev ?_
  refine windowTrim_ev ?_
  refine windowRuns_ev ?_
  refine windowValues_ev ?_
  assumption

theorem windowsUpTo_ev {org : Mach} {b n k m} (h_m : Evolves org m) : Evolves org (windowsUpTo b n k m) := by
  induction n generalizing k m with
  | zero => exact h_m
  | succ n ih => exact Evolves.ite (ih (windowJudge_ev h_m)) h_m

theorem pdJudge_ev {org : Mach} {b m} (h_m : Evolves org m) :
    Evolves org (pdJudge b m) := by
  delta pdJudge
  split
  · assumption
  · refine windowsUpTo_ev ?_
    assumption

theorem pdArrive_ev {org : Mach} {b bs m} (h_m : Evolves org m) :
    Evolves org (pdArrive b bs m) := by
  delta pdArrive
  extract_lets x1
  split
  · assumption
  · refine Evolves.ite ?_ ?_
    · assumption
    · refine Evolves.ite ?_ ?_
      · refine onMpl_ev ?_
        assumption
      · extract_lets x2 x3
        refine Evolves.ite ?_ ?_
        · assumption
        · refine pdJudge_ev ?_
          refine onMpl_ev ?_
          assumption

theorem execPdPayload_ev {org : Mach} {l f s} (h_s : Evolves org s.m) :
    OutEv org (execPdPayload l f s) := by
  delta execPdPayload
  refine act_ev (fun _ _ => ?_) h_s
  refine rxFrame_ev (fun _ _ => ?_) ?_
  · refine pdArrive_ev ?_
    assumption
  · assumption

end Sys2Proof.Machine
end

