-- ==== Sys2Proof/Laws/Evolve/BeamOps.lean ====
section
/-!
SUPPORT. What Machine/BeamOps.lean does never undoes what Laws/Evolve/Base.lean names: one lemma per operation.
-/

namespace Sys2Proof.Machine

theorem regReread_ev {org : Mach} {b m} (h_m : Evolves org m) :
    Evolves org (regReread b m) := by
  delta regReread
  extract_lets x1 x2 x3 x4
  split
  · refine repair_ev ?_
    refine onBeam_ev ?_
    refine Evolves.upd ?_ rfl rfl rfl rfl rfl rfl rfl rfl rfl
    assumption
  · refine faultSafeHold_ev ?_
    assumption

theorem beamResume_ev {org : Mach} {b m} (h_m : Evolves org m) :
    Evolves org (beamResume b m) := by
  delta beamResume
  refine Evolves.ite ?_ ?_
  · refine resumeBeam_ev ?_
    assumption
  · assumption

theorem gridFault_ev {org : Mach} {b node both m} (h_m : Evolves org m) :
    Evolves org (gridFault b node both m) := by
  delta gridFault
  refine Evolves.ite ?_ ?_
  · extract_lets x1
    have hx1 : Evolves org x1 := by
      unfold x1
      refine beamStop_ev ?_
      refine onBeam_ev ?_
      assumption
    clear_value x1
    refine Evolves.ite ?_ ?_
    · assumption
    · refine beamResume_ev ?_
      refine regReread_ev ?_
      assumption
  · refine repair_ev ?_
    refine raise_ev ?_
    refine onBeam_ev ?_
    assumption

theorem publish_ev {org : Mach} {b t m} (h_m : Evolves org m) :
    Evolves org (publish b t m) := by
  delta publish
  extract_lets x1 x2 x3 x4 x5 x6 x7 x8
  split
  · split
    · extract_lets x9 x10 x11
      have hx9 : Evolves org x9 := by
        unfold x9
        refine onBeam_ev ?_
        assumption
      clear_value x9
      have hx11 : Evolves org x11 := by
        unfold x11
        refine eachM_ev (fun _ _ _ => ?_) ?_
        · split
          · refine sigWriteAt_ev ?_
            assumption
        · assumption
      clear_value x11
      refine sigWriteAt_ev ?_
      refine sigWriteAt_ev ?_
      assumption

theorem sampleInstant_ev {org : Mach} {b grid m} (h_m : Evolves org m) :
    Evolves org (sampleInstant b grid m) := by
  delta sampleInstant
  refine Evolves.ite ?_ ?_
  · assumption
  · extract_lets x1
    have hx1 : Evolves org x1 := by
      unfold x1
      split
      · refine gridFault_ev ?_
        assumption
      · assumption
    clear_value x1
    refine Evolves.ite ?_ ?_
    · assumption
    · refine publish_ev ?_
      assumption

theorem edgeFire_ev {org : Mach} {b m} (h_m : Evolves org m) :
    Evolves org (edgeFire b m) := by
  delta edgeFire
  split
  · assumption
  · refine Evolves.ite ?_ ?_
    · assumption
    · extract_lets x1 x2 x3 x4 x5
      have hx1 : Evolves org x1 := by
        unfold x1
        refine setGate_ev ?_
        refine onBeam_ev ?_
        assumption
      clear_value x1
      refine Evolves.ite ?_ ?_
      · refine onMpl_ev ?_
        refine onBeam_ev ?_
        assumption
      · assumption

theorem lookahead_ev {org : Mach} {b p m} (h_m : Evolves org m) :
    Evolves org (lookahead b p m) := by
  delta lookahead
  split
  · extract_lets x1
    have hx1 : Evolves org x1 := by
      unfold x1
      refine onBeam_ev ?_
      assumption
    clear_value x1
    refine whenM_ev (fun _ _ => ?_) ?_
    · refine raise_ev ?_
      assumption
    · assumption

theorem dacPut_ev {org : Mach} {b code m} (h_m : Evolves org m) :
    Evolves org (dacPut b code m) := by
  delta dacPut
  refine onBeam_ev ?_
  assumption

theorem laserTrack_ev {org : Mach} {b t code m} (h_m : Evolves org m) :
    Evolves org (laserTrack b t code m) := by
  delta laserTrack
  extract_lets x1
  refine onHlt_ev ?_
  assumption

theorem guardStep_ev {org : Mach} {b t req m} (h_m : Evolves org m) :
    Evolves org (guardStep b t req m) := by
  delta guardStep
  extract_lets x1 x2 x3 x4 x5 x6
  have hx6 : Evolves org x6 := by
    unfold x6
    refine onMpl_ev ?_
    assumption
  clear_value x6
  refine sigWriteAt_ev ?_
  refine sigPub_ev ?_
  refine sigWriteAt_ev ?_
  assumption

theorem dacInstant_ev {org : Mach} {b m0} (h_m0 : Evolves org m0) :
    Evolves org (dacInstant b m0) := by
  delta dacInstant
  refine Evolves.ite ?_ ?_
  · assumption
  · extract_lets x1 x2 x3 x4 x5 x6 x7
    have hx1 : Evolves org x1 := by
      unfold x1
      refine pdJudge_ev ?_
      refine takeRecord_ev ?_
      assumption
    clear_value x1
    have hx4 : Evolves org x4 := by
      unfold x4
      refine whenM_ev (fun _ _ => ?_) ?_
      · refine emissionEnd_ev ?_
        assumption
      · assumption
    clear_value x4
    have hx5 : Evolves org x5 := by
      unfold x5
      refine guardStep_ev ?_
      refine sigWriteAt_ev ?_
      refine onBeam_ev ?_
      assumption
    clear_value x5
    split
    · extract_lets x8 x9 x10 x11 x12 x13 x14 x15 x16 x17
      have hx10 : Evolves org x10 := by
        unfold x10
        refine lookahead_ev ?_
        assumption
      clear_value x10
      have hx11 : Evolves org x11 := by
        unfold x11
        refine whenM_ev (fun _ _ => ?_) ?_
        · refine onHlt_ev ?_
          assumption
        · assumption
      clear_value x11
      have hx13 : Evolves org x13 := by
        unfold x13
        refine sigWriteAt_ev ?_
        refine onBeam_ev ?_
        assumption
      clear_value x13
      have hx14 : Evolves org x14 := by
        unfold x14
        refine guardStep_ev ?_
        assumption
      clear_value x14
      split
      · refine laserTrack_ev ?_
        refine deposit_ev ?_
        refine dacPut_ev ?_
        assumption
    · refine laserTrack_ev ?_
      refine Evolves.ite ?_ ?_
      · refine onBeam_ev ?_
        assumption
      · refine dacPut_ev ?_
        assumption

theorem laAnswered_ev {org : Mach} {b late e m} (h_m : Evolves org m) :
    Evolves org (laAnswered b late e m) := by
  delta laAnswered
  extract_lets x1 x2 x3
  have hx2 : Evolves org x2 := by
    unfold x2
    refine takeRecord_ev ?_
    assumption
  clear_value x2
  split
  · refine Evolves.ite ?_ ?_
    · assumption
    · extract_lets x4
      split
      · split
        · extract_lets x5 x6 x7 x8 x9 x10
          have hx8 : Evolves org x8 := by
            unfold x8
            refine eachM_ev (fun _ _ _ => ?_) ?_
            · refine memPoke_ev ?_
              assumption
            · refine eachM_ev (fun _ _ _ => ?_) ?_
              · refine memRead_ev ?_
                assumption
              · assumption
          clear_value x8
          have hx9 : Evolves org x9 := by
            unfold x9
            refine whenM_ev (fun _ _ => ?_) ?_
            · refine raise_ev ?_
              assumption
            · assumption
          clear_value x9
          have hx10 : Evolves org x10 := by
            unfold x10
            refine onBeam_ev ?_
            assumption
          clear_value x10
          refine Evolves.ite ?_ ?_
          · refine raise_ev ?_
            refine onHmap_ev ?_
            assumption
          · assumption
  · assumption

theorem moveAtTarget_ev {org : Mach} {b m} (h_m : Evolves org m) :
    Evolves org (moveAtTarget b m) := by
  delta moveAtTarget
  split
  · refine Evolves.ite ?_ ?_
    · assumption
    · split
      · refine onBeam_ev ?_
        assumption
  · assumption

theorem settleElapsed_ev {org : Mach} {b m} (h_m : Evolves org m) :
    Evolves org (settleElapsed b m) := by
  delta settleElapsed
  split
  · refine Evolves.ite ?_ ?_
    · assumption
    · extract_lets x1
      refine onBeam_ev ?_
      assumption
  · assumption

theorem runupAtStart_ev {org : Mach} {b m} (h_m : Evolves org m) :
    Evolves org (runupAtStart b m) := by
  delta runupAtStart
  refine Evolves.ite ?_ ?_
  · refine onBeam_ev ?_
    assumption
  · assumption

theorem markAtEnd_ev {org : Mach} {b m} (h_m : Evolves org m) :
    Evolves org (markAtEnd b m) := by
  delta markAtEnd
  split
  · refine Evolves.ite ?_ ?_
    · refine onBeam_ev ?_
      assumption
    · assumption
  · assumption

theorem stoppingAtRest_ev {org : Mach} {b m} (h_m : Evolves org m) :
    Evolves org (stoppingAtRest b m) := by
  delta stoppingAtRest
  refine Evolves.ite ?_ ?_
  · assumption
  · extract_lets x1
    split
    · extract_lets x2
      have hx2 : Evolves org x2 := by
        unfold x2
        refine raise_ev ?_
        refine onBeam_ev ?_
        assumption
      clear_value x2
      refine Evolves.ite ?_ ?_
      · refine beamPark_ev ?_
        assumption
      · refine beamResume_ev ?_
        refine Evolves.ite ?_ ?_
        · refine regReread_ev ?_
          assumption
        · assumption

theorem driftStale_ev {org : Mach} {b m} (h_m : Evolves org m) :
    Evolves org (driftStale b m) := by
  delta driftStale
  refine Evolves.ite ?_ ?_
  · refine raise_ev ?_
    refine onBeam_ev ?_
    assumption
  · assumption

theorem execBeamSampleInstant_ev {org : Mach} {b grid s} (h_s : Evolves org s.m) :
    OutEv org (execBeamSampleInstant b grid s) := by
  delta execBeamSampleInstant
  refine act_ev (fun _ _ => ?_) h_s
  refine clocked_ev (fun _ _ => ?_) ?_
  · refine sampleInstant_ev ?_
    assumption
  · assumption

theorem execGateEdgeFire_ev {org : Mach} {b s} (h_s : Evolves org s.m) :
    OutEv org (execGateEdgeFire b s) := by
  delta execGateEdgeFire
  refine act_ev (fun _ _ => ?_) h_s
  refine edgeFire_ev ?_
  assumption

theorem execDacInstant_ev {org : Mach} {b s} (h_s : Evolves org s.m) :
    OutEv org (execDacInstant b s) := by
  delta execDacInstant
  refine act_ev (fun _ _ => ?_) h_s
  refine clocked_ev (fun _ _ => ?_) ?_
  · refine dacInstant_ev ?_
    assumption
  · assumption

theorem execLookaheadAnswer_ev {org : Mach} {b late ecc s} (h_s : Evolves org s.m) :
    OutEv org (execLookaheadAnswer b late ecc s) := by
  delta execLookaheadAnswer
  refine act_ev (fun _ _ => ?_) h_s
  refine clocked_ev (fun _ _ => ?_) ?_
  · refine laAnswered_ev ?_
    assumption
  · assumption

theorem execBeamMoveAtTarget_ev {org : Mach} {b s} (h_s : Evolves org s.m) :
    OutEv org (execBeamMoveAtTarget b s) := by
  delta execBeamMoveAtTarget
  refine act_ev (fun _ _ => ?_) h_s
  refine clocked_ev (fun _ _ => ?_) ?_
  · refine moveAtTarget_ev ?_
    assumption
  · assumption

theorem execJumpSettleElapsed_ev {org : Mach} {b s} (h_s : Evolves org s.m) :
    OutEv org (execJumpSettleElapsed b s) := by
  delta execJumpSettleElapsed
  refine act_ev (fun _ _ => ?_) h_s
  refine clocked_ev (fun _ _ => ?_) ?_
  · refine settleElapsed_ev ?_
    assumption
  · assumption

theorem execRunupAtStart_ev {org : Mach} {b s} (h_s : Evolves org s.m) :
    OutEv org (execRunupAtStart b s) := by
  delta execRunupAtStart
  refine act_ev (fun _ _ => ?_) h_s
  refine clocked_ev (fun _ _ => ?_) ?_
  · refine runupAtStart_ev ?_
    assumption
  · assumption

theorem execMarkAtEnd_ev {org : Mach} {b s} (h_s : Evolves org s.m) :
    OutEv org (execMarkAtEnd b s) := by
  delta execMarkAtEnd
  refine act_ev (fun _ _ => ?_) h_s
  refine clocked_ev (fun _ _ => ?_) ?_
  · refine markAtEnd_ev ?_
    assumption
  · assumption

theorem execStoppingAtRest_ev {org : Mach} {b s} (h_s : Evolves org s.m) :
    OutEv org (execStoppingAtRest b s) := by
  delta execStoppingAtRest
  refine act_ev (fun _ _ => ?_) h_s
  refine clocked_ev (fun _ _ => ?_) ?_
  · refine stoppingAtRest_ev ?_
    assumption
  · assumption

theorem execDriftStale_ev {org : Mach} {b s} (h_s : Evolves org s.m) :
    OutEv org (execDriftStale b s) := by
  delta execDriftStale
  refine act_ev (fun _ _ => ?_) h_s
  refine clocked_ev (fun _ _ => ?_) ?_
  · refine driftStale_ev ?_
    assumption
  · assumption

end Sys2Proof.Machine
end

