-- ==== Sys2Proof/Laws/Evolve/CellTrace.lean ====
section
/-!
SUPPORT. What Machine/CellTrace.lean does never undoes what Laws/Evolve/Base.lean names: one lemma per operation.
-/

namespace Sys2Proof.Machine

theorem onTrc_ev {org : Mach} {c ch f m} (h_m : Evolves org m) :
    Evolves org (onTrc c ch f m) := by
  delta onTrc
  refine onCell_ev ?_
  assumption

theorem deepFlush_ev {org : Mach} {lost c ch m} (h_m : Evolves org m) :
    Evolves org (deepFlush lost c ch m) := by
  delta deepFlush
  extract_lets x1 x2 x3 x4
  have hx4 : Evolves org x4 := by
    unfold x4
    refine memWrite_ev ?_
    assumption
  clear_value x4
  refine Evolves.ite ?_ ?_
  · refine onTrc_ev ?_
    assumption
  · refine Evolves.ite ?_ ?_
    · refine raise_ev ?_
      refine onCells_ev ?_
      refine onTrc_ev ?_
      assumption
    · refine onCells_ev ?_
      refine onTrc_ev ?_
      assumption

theorem deepPush_ev {org : Mach} {lost trig ovr c ch w tn m} (h_m : Evolves org m) :
    Evolves org (deepPush lost trig ovr c ch w tn m) := by
  delta deepPush
  refine Evolves.ite ?_ ?_
  · assumption
  · extract_lets x1
    have hx1 : Evolves org x1 := by
      unfold x1
      refine onTrc_ev ?_
      assumption
    clear_value x1
    refine Evolves.ite ?_ ?_
    · refine deepFlush_ev ?_
      assumption
    · assumption

theorem trcCause_ev {org : Mach} {sel c ch m} (h_m : Evolves org m) :
    Evolves org (trcCause sel c ch m) := by
  delta trcCause
  extract_lets x1
  refine Evolves.ite ?_ ?_
  · refine onTrc_ev ?_
    assumption
  · assumption

theorem lineFire_ev {org : Mach} {cmd g m} (h_m : Evolves org m) :
    Evolves org (lineFire cmd g m) := by
  delta lineFire
  extract_lets x1 x2 x3
  have hx2 : Evolves org x2 := by
    unfold x2
    refine eachM_ev (fun _ _ _ => ?_) ?_
    · split
      · refine trcCause_ev ?_
        assumption
    · assumption
  clear_value x2
  refine Evolves.ite ?_ ?_
  · refine onCells_ev ?_
    assumption
  · assumption

theorem trcCtxEvent_ev {org : Mach} {c m} (h_m : Evolves org m) :
    Evolves org (trcCtxEvent c m) := by
  delta trcCtxEvent
  refine eachM_ev (fun _ _ _ => ?_) ?_
  · refine trcCause_ev ?_
    assumption
  · assumption

theorem trcRecord_ev {org : Mach} {lost ovr c ch w tn m} (h_m : Evolves org m) :
    Evolves org (trcRecord lost ovr c ch w tn m) := by
  delta trcRecord
  extract_lets x1 x2 x3 x4 x5
  have hx4 : Evolves org x4 := by
    unfold x4
    refine onTrc_ev ?_
    assumption
  clear_value x4
  have hx5 : Evolves org x5 := by
    unfold x5
    refine deepPush_ev ?_
    assumption
  clear_value x5
  refine whenM_ev (fun _ _ => ?_) ?_
  · refine whenM_ev (fun _ _ => ?_) ?_
    · refine lineFire_ev ?_
      assumption
    · refine raise_ev ?_
      assumption
  · assumption

theorem trcSample_ev {org : Mach} {lost ovr c ch w tn m} (h_m : Evolves org m) :
    Evolves org (trcSample lost ovr c ch w tn m) := by
  delta trcSample
  extract_lets x1 x2 x3
  refine Evolves.ite ?_ ?_
  · assumption
  · refine Evolves.ite ?_ ?_
    · refine onTrc_ev ?_
      assumption
    · refine trcRecord_ev ?_
      refine onTrc_ev ?_
      assumption

theorem traceStop_ev {org : Mach} {c ch m} (h_m : Evolves org m) :
    Evolves org (traceStop c ch m) := by
  delta traceStop
  extract_lets x1
  refine Evolves.ite ?_ ?_
  · refine deepFlush_ev ?_
    refine onTrc_ev ?_
    assumption
  · assumption

theorem notchDrop_ev {org : Mach} {c ch m} (h_m : Evolves org m) :
    Evolves org (notchDrop c ch m) := by
  delta notchDrop
  refine Evolves.upd ?_ rfl rfl rfl rfl rfl rfl rfl rfl rfl
  assumption

theorem trcCtrlWrite_ev {org : Mach} {p c ch v m0} (h_m0 : Evolves org m0) :
    Evolves org (trcCtrlWrite p c ch v m0) := by
  delta trcCtrlWrite
  extract_lets x1 x2 x3
  have hx1 : Evolves org x1 := by
    unfold x1
    refine whenM_ev (fun _ _ => ?_) ?_
    · refine notchDrop_ev ?_
      assumption
    · assumption
  clear_value x1
  have hx2 : Evolves org x2 := by
    unfold x2
    refine regSet_ev ?_
    refine deepFlush_ev ?_
    assumption
  clear_value x2
  refine Evolves.ite ?_ ?_
  · refine accErr_ev ?_
    assumption
  · refine Evolves.ite ?_ ?_
    · refine onTrc_ev ?_
      assumption
    · refine onTrc_ev ?_
      assumption

theorem deepCtrlWrite_ev {org : Mach} {v m} (h_m : Evolves org m) :
    Evolves org (deepCtrlWrite v m) := by
  delta deepCtrlWrite
  extract_lets x1
  have hx1 : Evolves org x1 := by
    unfold x1
    refine regSet_ev ?_
    assumption
  clear_value x1
  split
  · refine onCells_ev ?_
    assumption
  · refine onCells_ev ?_
    assumption
  · assumption

theorem deepDone_ev {org : Mach} {m} (h_m : Evolves org m) :
    Evolves org (deepDone m) := by
  delta deepDone
  refine Evolves.ite ?_ ?_
  · refine raise_ev ?_
    refine onCells_ev ?_
    assumption
  · assumption

theorem trgWrite_ev {org : Mach} {w m} (h_m : Evolves org m) :
    Evolves org (trgWrite w m) := by
  delta trgWrite
  refine Evolves.ite ?_ ?_
  · refine refuse_ev ?_
    assumption
  · refine eachM_ev (fun _ _ _ => ?_) ?_
    · refine lineFire_ev ?_
      assumption
    · assumption

theorem sigSelWrite_ev {org : Mach} {w m} (h_m : Evolves org m) :
    Evolves org (sigSelWrite w m) := by
  delta sigSelWrite
  extract_lets x1 x2
  have hx1 : Evolves org x1 := by
    unfold x1
    refine regSet_ev ?_
    assumption
  clear_value x1
  refine Evolves.upd ?_ rfl rfl rfl rfl rfl rfl rfl rfl rfl
  assumption

theorem execTraceStop_ev {org : Mach} {c ch s} (h_s : Evolves org s.m) :
    OutEv org (execTraceStop c ch s) := by
  delta execTraceStop
  refine act_ev (fun _ _ => ?_) h_s
  refine traceStop_ev ?_
  assumption

theorem execTrcCtrlWrite_ev {org : Mach} {p c ch v s} (h_s : Evolves org s.m) :
    OutEv org (execTrcCtrlWrite p c ch v s) := by
  delta execTrcCtrlWrite
  refine act_ev (fun _ _ => ?_) h_s
  refine writeGate_ev (fun _ _ => ?_) ?_
  · refine trcCtrlWrite_ev ?_
    assumption
  · assumption

theorem execDeepRun_ev {org : Mach} {p hi s} (h_s : Evolves org s.m) :
    OutEv org (execDeepRun p hi s) := by
  delta execDeepRun
  refine act_ev (fun _ _ => ?_) h_s
  refine writeGate_ev (fun _ _ => ?_) ?_
  · refine deepCtrlWrite_ev ?_
    assumption
  · assumption

theorem execDeepDone_ev {org : Mach} {s} (h_s : Evolves org s.m) :
    OutEv org (execDeepDone s) := by
  delta execDeepDone
  refine act_ev (fun _ _ => ?_) h_s
  refine deepDone_ev ?_
  assumption

theorem execCellTrgWrite_ev {org : Mach} {p v s} (h_s : Evolves org s.m) :
    OutEv org (execCellTrgWrite p v s) := by
  delta execCellTrgWrite
  refine act_ev (fun _ _ => ?_) h_s
  refine writeGate_ev (fun _ _ => ?_) ?_
  · refine trgWrite_ev ?_
    assumption
  · assumption

theorem execSigSelWrite_ev {org : Mach} {p v s} (h_s : Evolves org s.m) :
    OutEv org (execSigSelWrite p v s) := by
  delta execSigSelWrite
  refine act_ev (fun _ _ => ?_) h_s
  refine writeGate_ev (fun _ _ => ?_) ?_
  · refine sigSelWrite_ev ?_
    assumption
  · assumption

end Sys2Proof.Machine
end

