-- ==== Sys2Proof/Laws/Evolve/CellOps.lean ====
section
/-!
SUPPORT. What Machine/CellOps.lean does never undoes what Laws/Evolve/Base.lean names: one lemma per operation.
-/

namespace Sys2Proof.Machine

theorem ownerFault_ev {org : Mach} {k cell m} (h_m : Evolves org m) :
    Evolves org (ownerFault k cell m) := by
  delta ownerFault
  split
  · refine retire_ev ?_
    assumption
  · refine Evolves.ite ?_ ?_
    · refine faultSafeHold_ev ?_
      assumption
    · refine fastFalls_ev ?_
      assumption

theorem ctxFault_ev {org : Mach} {hard k m} (h_m : Evolves org m) :
    Evolves org (ctxFault hard k m) := by
  delta ctxFault
  split
  · assumption
  · extract_lets x1
    have hx1 : Evolves org x1 := by
      unfold x1
      refine onCtx_ev ?_
      assumption
    clear_value x1
    refine ownerFault_ev ?_
    refine trcCtxEvent_ev ?_
    refine raise_ev ?_
    refine safeAct_ev ?_
    assumption

theorem substWanted_ev {org : Mach} {c m} (h_m : Evolves org m) :
    Evolves org (substWanted c m) := by
  delta substWanted
  split
  · refine substStart_ev ?_
    assumption
  · refine Evolves.ite ?_ ?_
    · assumption
    · refine onCells_ev ?_
      assumption

theorem substAuto_ev {org : Mach} {c m} (h_m : Evolves org m) :
    Evolves org (substAuto c m) := by
  delta substAuto
  refine whenM_ev (fun _ _ => ?_) ?_
  · refine substWanted_ev ?_
    assumption
  · assumption

theorem ctxRehost_ev {org : Mach} {d k m} (h_m : Evolves org m) :
    Evolves org (ctxRehost d k m) := by
  delta ctxRehost
  extract_lets x1 x2
  have hx2 : Evolves org x2 := by
    unfold x2
    refine onCtx_ev ?_
    assumption
  clear_value x2
  refine Evolves.ite ?_ ?_
  · refine onCtx_ev ?_
    refine ctxStart_ev ?_
    assumption
  · assumption

theorem hardMove_ev {org : Mach} {c d ks m} (h_m : Evolves org m) :
    Evolves org (hardMove c d ks m) := by
  delta hardMove
  extract_lets x1 x2 x3 x4 x5 x6
  have hx2 : Evolves org x2 := by
    unfold x2
    refine eachM_ev (fun _ _ _ => ?_) ?_
    · refine fastFalls_ev ?_
      refine safeAct_ev ?_
      assumption
    · assumption
  clear_value x2
  have hx3 : Evolves org x3 := by
    unfold x3
    refine eachM_ev (fun _ _ _ => ?_) ?_
    · refine onBeam_ev ?_
      refine beamStop_ev ?_
      assumption
    · assumption
  clear_value x3
  have hx4 : Evolves org x4 := by
    unfold x4
    refine onCell_ev ?_
    refine onCell_ev ?_
    refine eachM_ev (fun _ _ _ => ?_) ?_
    · refine ctxRehost_ev ?_
      assumption
    · assumption
  clear_value x4
  have hx6 : Evolves org x6 := by
    unfold x6
    refine Evolves.ite ?_ ?_
    · assumption
    · refine onCells_ev ?_
      assumption
  clear_value x6
  refine repair_ev ?_
  refine raise_ev ?_
  refine raise_ev ?_
  assumption

theorem hardPath_ev {org : Mach} {c ks m} (h_m : Evolves org m) :
    Evolves org (hardPath c ks m) := by
  delta hardPath
  refine Evolves.ite ?_ ?_
  · assumption
  · extract_lets x1
    split
    · refine hardMove_ev ?_
      assumption
    · refine eachM_ev (fun _ _ _ => ?_) ?_
      · refine Evolves.ite ?_ ?_
        · refine ctxFault_ev ?_
          assumption
        · refine onCtx_ev ?_
          assumption
      · refine whenM_ev (fun _ _ => ?_) ?_
        · refine raise_ev ?_
          assumption
        · assumption

theorem faultedCell_ev {org : Mach} {c m} (h_m : Evolves org m) :
    Evolves org (faultedCell c m) := by
  delta faultedCell
  refine Evolves.ite ?_ ?_
  · refine toQuarantine_ev ?_
    assumption
  · refine onCell_ev ?_
    assumption

theorem hardFault_ev {org : Mach} {c m0} (h_m0 : Evolves org m0) :
    Evolves org (hardFault c m0) := by
  delta hardFault
  extract_lets x1 x2 x3 x4 x5
  have hx2 : Evolves org x2 := by
    unfold x2
    refine raise_ev ?_
    refine onCell_ev ?_
    assumption
  clear_value x2
  have hx4 : Evolves org x4 := by
    unfold x4
    refine onCells_ev ?_
    assumption
  clear_value x4
  have hx5 : Evolves org x5 := by
    unfold x5
    refine toQuarantine_ev ?_
    refine hardPath_ev ?_
    assumption
  clear_value x5
  refine Evolves.ite ?_ ?_
  · assumption
  · split
    · split
      · refine Evolves.ite ?_ ?_
        · refine faultedCell_ev ?_
          refine hardMove_ev ?_
          assumption
        · refine faultedCell_ev ?_
          refine hardPath_ev ?_
          assumption
      · refine faultedCell_ev ?_
        refine hardPath_ev ?_
        assumption
    · split
      · refine Evolves.ite ?_ ?_
        · refine substWanted_ev ?_
          assumption
        · refine substOver_ev ?_
          refine raise_ev ?_
          assumption
      · refine toQuarantine_ev ?_
        assumption
    · assumption

theorem substCopied_ev {org : Mach} {m} (h_m : Evolves org m) :
    Evolves org (substCopied m) := by
  delta substCopied
  split
  · refine Evolves.ite ?_ ?_
    · refine onCells_ev ?_
      assumption
    · assumption
  · assumption

theorem handedOver_ev {org : Mach} {x m} (h_m : Evolves org m) :
    Evolves org (handedOver x m) := by
  delta handedOver
  extract_lets x1
  have hx1 : Evolves org x1 := by
    unfold x1
    refine onCell_ev ?_
    refine toQuarantine_ev ?_
    assumption
  clear_value x1
  refine substOver_ev ?_
  refine repair_ev ?_
  refine raise_ev ?_
  refine raise_ev ?_
  assumption

theorem handover_ev {org : Mach} {k m} (h_m : Evolves org m) :
    Evolves org (handover k m) := by
  delta handover
  split
  · assumption
  · split
    · assumption
    · extract_lets x1 x2 x3 x4
      have hx3 : Evolves org x3 := by
        unfold x3
        refine onCtx_ev ?_
        assumption
      clear_value x3
      have hx4 : Evolves org x4 := by
        unfold x4
        refine onCells_ev ?_
        assumption
      clear_value x4
      refine Evolves.ite ?_ ?_
      · assumption
      · refine Evolves.ite ?_ ?_
        · refine handedOver_ev ?_
          refine eachM_ev (fun _ _ _ => ?_) ?_
          · refine onCtx_ev ?_
            assumption
          · assumption
        · assumption

theorem settleDone_ev {org : Mach} {k m} (h_m : Evolves org m) :
    Evolves org (settleDone k m) := by
  delta settleDone
  extract_lets x1 x2 x3
  have hx2 : Evolves org x2 := by
    unfold x2
    refine onCtx_ev ?_
    assumption
  clear_value x2
  have hx3 : Evolves org x3 := by
    unfold x3
    split
    · refine Evolves.ite ?_ ?_
      · refine substOver_ev ?_
        assumption
      · assumption
    · assumption
  clear_value x3
  refine Evolves.ite ?_ ?_
  · assumption
  · split
    · refine Evolves.ite ?_ ?_
      · refine beamResume_ev ?_
        refine onBeam_ev ?_
        assumption
      · assumption
    · assumption

theorem bankExchange_ev {org : Mach} {k p tn m} (h_m : Evolves org m) :
    Evolves org (bankExchange k p tn m) := by
  delta bankExchange
  refine Evolves.ite ?_ ?_
  · extract_lets x1 x2
    have hx1 : Evolves org x1 := by
      unfold x1
      refine takeRecord_ev ?_
      assumption
    clear_value x1
    refine onCells_ev ?_
    assumption
  · assumption

theorem shadowSample_ev {org : Mach} {k agree fresh before run m} (h_m : Evolves org m) :
    Evolves org (shadowSample k agree fresh before run m) := by
  delta shadowSample
  split
  · assumption
  · refine Evolves.ite ?_ ?_
    · assumption
    · extract_lets x1 x2
      refine Evolves.ite ?_ ?_
      · refine onCells_ev ?_
        assumption
      · refine Evolves.ite ?_ ?_
        · refine onCells_ev ?_
          assumption
        · refine toQuarantine_ev ?_
          refine hardMove_ev ?_
          assumption

theorem sampleStart_ev {org : Mach} {k agree late lost corr m0} (h_m0 : Evolves org m0) :
    Evolves org (sampleStart k agree late lost corr m0) := by
  delta sampleStart
  extract_lets x1
  split
  · extract_lets x2
    split
    · assumption
    · refine Evolves.ite ?_ ?_
      · assumption
      · extract_lets x3 x4 x5 x6 x7 x8 x9 x10 x11 x12
        have hx3 : Evolves org x3 := by
          unfold x3
          refine bankExchange_ev ?_
          refine onCell_ev ?_
          assumption
        clear_value x3
        have hx7 : Evolves org x7 := by
          unfold x7
          refine onCtx_ev ?_
          assumption
        clear_value x7
        have hx8 : Evolves org x8 := by
          unfold x8
          refine whenM_ev (fun _ _ => ?_) ?_
          · refine raise_ev ?_
            assumption
          · assumption
        clear_value x8
        have hx9 : Evolves org x9 := by
          unfold x9
          refine cmdFlush_ev ?_
          refine eachM_ev (fun _ _ _ => ?_) ?_
          · split
            · refine ctxWrite_ev ?_
              refine whenM_ev (fun _ _ => ?_) ?_
              · refine raise_ev ?_
                assumption
              · assumption
          · assumption
        clear_value x9
        have hx10 : Evolves org x10 := by
          unfold x10
          refine eachM_ev (fun _ _ _ => ?_) ?_
          · split
            · refine trcSample_ev ?_
              assumption
          · assumption
        clear_value x10
        have hx11 : Evolves org x11 := by
          unfold x11
          refine whenM_ev (fun _ _ => ?_) ?_
          · refine raise_ev ?_
            assumption
          · assumption
        clear_value x11
        have hx12 : Evolves org x12 := by
          unfold x12
          refine whenM_ev (fun _ _ => ?_) ?_
          · refine raise_ev ?_
            refine onCell_ev ?_
            assumption
          · assumption
        clear_value x12
        refine shadowSample_ev ?_
        assumption
  · assumption

theorem sampleOverrun_ev {org : Mach} {k m0} (h_m0 : Evolves org m0) :
    Evolves org (sampleOverrun k m0) := by
  delta sampleOverrun
  extract_lets x1
  split
  · extract_lets x2
    split
    · assumption
    · refine Evolves.ite ?_ ?_
      · assumption
      · extract_lets x3 x4 x5 x6 x7
        have hx3 : Evolves org x3 := by
          unfold x3
          refine bankExchange_ev ?_
          assumption
        clear_value x3
        have hx4 : Evolves org x4 := by
          unfold x4
          refine onCtx_ev ?_
          assumption
        clear_value x4
        have hx5 : Evolves org x5 := by
          unfold x5
          refine trcCtxEvent_ev ?_
          refine whenM_ev (fun _ _ => ?_) ?_
          · refine raise_ev ?_
            assumption
          · assumption
        clear_value x5
        have hx6 : Evolves org x6 := by
          unfold x6
          refine eachM_ev (fun _ _ _ => ?_) ?_
          · split
            · refine trcSample_ev ?_
              assumption
          · assumption
        clear_value x6
        have hx7 : Evolves org x7 := by
          unfold x7
          refine onCells_ev ?_
          assumption
        clear_value x7
        refine Evolves.ite ?_ ?_
        · refine ctxFault_ev ?_
          assumption
        · assumption
  · assumption

theorem autoRestart_ev {org : Mach} {k m} (h_m : Evolves org m) :
    Evolves org (autoRestart k m) := by
  delta autoRestart
  split
  · refine Evolves.ite ?_ ?_
    · refine ctxStart_ev ?_
      assumption
    · assumption
  · assumption

theorem katPeriod_ev {org : Mach} {c m} (h_m : Evolves org m) :
    Evolves org (katPeriod c m) := by
  delta katPeriod
  refine Evolves.ite ?_ ?_
  · refine onCell_ev ?_
    assumption
  · assumption

theorem katDone_ev {org : Mach} {c pass m} (h_m : Evolves org m) :
    Evolves org (katDone c pass m) := by
  delta katDone
  extract_lets x1 x2 x3 x4 x5
  have hx2 : Evolves org x2 := by
    unfold x2
    refine onCell_ev ?_
    assumption
  clear_value x2
  have hx3 : Evolves org x3 := by
    unfold x3
    refine whenM_ev (fun _ _ => ?_) ?_
    · refine repair_ev ?_
      assumption
    · assumption
  clear_value x3
  have hx5 : Evolves org x5 := by
    unfold x5
    refine raise_ev ?_
    refine onCell_ev ?_
    assumption
  clear_value x5
  refine Evolves.ite ?_ ?_
  · assumption
  · refine Evolves.ite ?_ ?_
    · split
      · refine hardMove_ev ?_
        assumption
      · assumption
    · refine Evolves.ite ?_ ?_
      · refine onCell_ev ?_
        assumption
      · refine toQuarantine_ev ?_
        assumption

theorem cellStatus_ev {org : Mach} {op target code m} (h_m : Evolves org m) :
    Evolves org (cellStatus op target code m) := by
  delta cellStatus
  extract_lets x1
  have hx1 : Evolves org x1 := by
    unfold x1
    refine onCells_ev ?_
    assumption
  clear_value x1
  refine whenM_ev (fun _ _ => ?_) ?_
  · refine refuse_ev ?_
    assumption
  · assumption

theorem ownCell_ev {org : Mach} {k m} (h_m : Evolves org m) :
    Evolves org (ownCell k m) := by
  delta ownCell
  split
  · refine Evolves.ite ?_ ?_
    · refine onCell_ev ?_
      refine onCtx_ev ?_
      assumption
    · assumption
  · assumption

theorem cellCmdOp_ev {org : Mach} {op t m} (h_m : Evolves org m) :
    Evolves org (cellCmdOp op t m).2 := by
  delta cellCmdOp
  extract_lets x1 x2 x3
  split
  · refine Evolves.ite2 ?_ ?_
    · refine Evolves.mk2 ?_
      refine ctxStart_ev ?_
      refine ownCell_ev ?_
      assumption
    · refine Evolves.mk2 ?_
      assumption
  · refine Evolves.ite2 ?_ ?_
    · refine Evolves.mk2 ?_
      assumption
    · refine Evolves.ite2 ?_ ?_
      · refine Evolves.mk2 ?_
        assumption
      · refine Evolves.mk2 ?_
        refine ctxStop_ev ?_
        assumption
  · refine Evolves.ite2 ?_ ?_
    · refine Evolves.mk2 ?_
      refine ctxStart_ev ?_
      refine ownCell_ev ?_
      assumption
    · refine Evolves.mk2 ?_
      assumption
  · refine Evolves.ite2 ?_ ?_
    · refine Evolves.mk2 ?_
      assumption
    · refine Evolves.ite2 ?_ ?_
      · refine Evolves.mk2 ?_
        assumption
      · refine Evolves.ite2 ?_ ?_
        · refine Evolves.mk2 ?_
          assumption
        · refine Evolves.mk2 ?_
          refine substWanted_ev ?_
          assumption
  · refine Evolves.ite2 ?_ ?_
    · refine Evolves.mk2 ?_
      refine onCell_ev ?_
      assumption
    · refine Evolves.mk2 ?_
      assumption
  · refine Evolves.ite2 ?_ ?_
    · refine Evolves.mk2 ?_
      refine lineFire_ev ?_
      assumption
    · refine Evolves.mk2 ?_
      assumption

theorem cellCmd_ev {org : Mach} {w m} (h_m : Evolves org m) :
    Evolves org (cellCmd w m) := by
  delta cellCmd
  extract_lets x1 x2
  refine Evolves.ite ?_ ?_
  · refine refuse_ev ?_
    assumption
  · refine cellStatus_ev ?_
    refine spareWatch_ev (fun _ _ => ?_) ?_
    · unfold x2
      refine cellCmdOp_ev ?_
      assumption
    · assumption

theorem lagClear_ev {org : Mach} {c slot m} (h_m : Evolves org m) :
    Evolves org (lagClear c slot m) := by
  delta lagClear
  refine eachM_ev (fun _ _ _ => ?_) ?_
  · refine onCtx_ev ?_
    assumption
  · assumption

theorem execCellSampleStart_ev {org : Mach} {k agree late lost corr s} (h_s : Evolves org s.m) :
    OutEv org (execCellSampleStart k agree late lost corr s) := by
  delta execCellSampleStart
  refine act_ev (fun _ _ => ?_) h_s
  refine spareWatch_ev (fun _ _ => ?_) ?_
  · refine sampleStart_ev ?_
    assumption
  · assumption

theorem execCellSampleOverrun_ev {org : Mach} {k s} (h_s : Evolves org s.m) :
    OutEv org (execCellSampleOverrun k s) := by
  delta execCellSampleOverrun
  refine act_ev (fun _ _ => ?_) h_s
  refine spareWatch_ev (fun _ _ => ?_) ?_
  · refine sampleOverrun_ev ?_
    assumption
  · assumption

theorem execCtxAutoRestart_ev {org : Mach} {k s} (h_s : Evolves org s.m) :
    OutEv org (execCtxAutoRestart k s) := by
  delta execCtxAutoRestart
  refine act_ev (fun _ _ => ?_) h_s
  refine autoRestart_ev ?_
  assumption

theorem execCellHardFault_ev {org : Mach} {c s} (h_s : Evolves org s.m) :
    OutEv org (execCellHardFault c s) := by
  delta execCellHardFault
  refine act_ev (fun _ _ => ?_) h_s
  refine spareWatch_ev (fun _ _ => ?_) ?_
  · refine hardFault_ev ?_
    assumption
  · assumption

theorem execHardSettleDone_ev {org : Mach} {k s} (h_s : Evolves org s.m) :
    OutEv org (execHardSettleDone k s) := by
  delta execHardSettleDone
  refine act_ev (fun _ _ => ?_) h_s
  refine spareWatch_ev (fun _ _ => ?_) ?_
  · refine settleDone_ev ?_
    assumption
  · assumption

theorem execSubstCopyDone_ev {org : Mach} {s} (h_s : Evolves org s.m) :
    OutEv org (execSubstCopyDone s) := by
  delta execSubstCopyDone
  refine act_ev (fun _ _ => ?_) h_s
  refine substCopied_ev ?_
  assumption

theorem execShadowHandover_ev {org : Mach} {k s} (h_s : Evolves org s.m) :
    OutEv org (execShadowHandover k s) := by
  delta execShadowHandover
  refine act_ev (fun _ _ => ?_) h_s
  refine spareWatch_ev (fun _ _ => ?_) ?_
  · refine handover_ev ?_
    assumption
  · assumption

theorem execKatPeriodElapsed_ev {org : Mach} {c s} (h_s : Evolves org s.m) :
    OutEv org (execKatPeriodElapsed c s) := by
  delta execKatPeriodElapsed
  refine act_ev (fun _ _ => ?_) h_s
  refine spareWatch_ev (fun _ _ => ?_) ?_
  · refine katPeriod_ev ?_
    assumption
  · assumption

theorem execKatDone_ev {org : Mach} {c pass s} (h_s : Evolves org s.m) :
    OutEv org (execKatDone c pass s) := by
  delta execKatDone
  refine act_ev (fun _ _ => ?_) h_s
  refine spareWatch_ev (fun _ _ => ?_) ?_
  · refine katDone_ev ?_
    assumption
  · assumption

theorem execCellStart_ev {org : Mach} {p hi s} (h_s : Evolves org s.m) :
    OutEv org (execCellStart p hi s) := by
  delta execCellStart
  refine act_ev (fun _ _ => ?_) h_s
  refine writeGate_ev (fun _ _ => ?_) ?_
  · refine cellCmd_ev ?_
    assumption
  · assumption

theorem execCellStop_ev {org : Mach} {p hi s} (h_s : Evolves org s.m) :
    OutEv org (execCellStop p hi s) := by
  delta execCellStop
  refine act_ev (fun _ _ => ?_) h_s
  refine writeGate_ev (fun _ _ => ?_) ?_
  · refine cellCmd_ev ?_
    assumption
  · assumption

theorem execRestart_ev {org : Mach} {p hi s} (h_s : Evolves org s.m) :
    OutEv org (execRestart p hi s) := by
  delta execRestart
  refine act_ev (fun _ _ => ?_) h_s
  refine writeGate_ev (fun _ _ => ?_) ?_
  · refine cellCmd_ev ?_
    assumption
  · assumption

theorem execSubst_ev {org : Mach} {p hi s} (h_s : Evolves org s.m) :
    OutEv org (execSubst p hi s) := by
  delta execSubst
  refine act_ev (fun _ _ => ?_) h_s
  refine writeGate_ev (fun _ _ => ?_) ?_
  · refine cellCmd_ev ?_
    assumption
  · assumption

theorem execTest_ev {org : Mach} {p hi s} (h_s : Evolves org s.m) :
    OutEv org (execTest p hi s) := by
  delta execTest
  refine act_ev (fun _ _ => ?_) h_s
  refine writeGate_ev (fun _ _ => ?_) ?_
  · refine cellCmd_ev ?_
    assumption
  · assumption

theorem execTrig_ev {org : Mach} {p hi s} (h_s : Evolves org s.m) :
    OutEv org (execTrig p hi s) := by
  delta execTrig
  refine act_ev (fun _ _ => ?_) h_s
  refine writeGate_ev (fun _ _ => ?_) ?_
  · refine cellCmd_ev ?_
    assumption
  · assumption

theorem execLagMaxClear_ev {org : Mach} {p c slot _v s} (h_s : Evolves org s.m) :
    OutEv org (execLagMaxClear p c slot _v s) := by
  delta execLagMaxClear
  refine act_ev (fun _ _ => ?_) h_s
  refine writeGate_ev (fun _ _ => ?_) ?_
  · refine lagClear_ev ?_
    assumption
  · assumption

end Sys2Proof.Machine
end

