-- ==== Sys2Proof/Laws/Evolve/HealthBase.lean ====
section
/-!
SUPPORT. What Machine/HealthBase.lean does never undoes what Laws/Evolve/Base.lean names: one lemma per operation.
-/

namespace Sys2Proof.Machine

theorem setRef_ev {org : Mach} {u m} (h_m : Evolves org m) :
    Evolves org (setRef u m) := by
  delta setRef
  refine onHlt_ev ?_
  assumption

theorem calStart_ev {org : Mach} {u m} (h_m : Evolves org m) :
    Evolves org (calStart u m) := by
  delta calStart
  refine Evolves.ite ?_ ?_
  · assumption
  · refine onHlt_ev ?_
    assumption

theorem calCheck_ev {org : Mach} {us m} (h_m : Evolves org m) :
    Evolves org (calCheck us m) := by
  delta calCheck
  refine Evolves.ite ?_ ?_
  · assumption
  · refine eachM_ev (fun _ _ _ => ?_) ?_
    · refine whenM_ev (fun _ _ => ?_) ?_
      · refine calStart_ev ?_
        assumption
      · assumption
    · assumption

theorem calWrite_ev {org : Mach} {ws m} (h_m : Evolves org m) :
    Evolves org (calWrite ws m) := by
  delta calWrite
  refine eachM_ev (fun _ _ _ => ?_) ?_
  · split
    · refine regSet_ev ?_
      assumption
  · assumption

theorem calEnd_ev {org : Mach} {u r atOnce m} (h_m : Evolves org m) :
    Evolves org (calEnd u r atOnce m) := by
  delta calEnd
  extract_lets x1 x2 x3 x4 x5 x6 x7
  have hx4 : Evolves org x4 := by
    unfold x4
    refine setRef_ev ?_
    assumption
  clear_value x4
  have hx5 : Evolves org x5 := by
    unfold x5
    refine onHlt_ev ?_
    assumption
  clear_value x5
  have hx6 : Evolves org x6 := by
    unfold x6
    refine onHlt_ev ?_
    assumption
  clear_value x6
  refine Evolves.ite ?_ ?_
  · refine raise_ev ?_
    refine whenM_ev (fun _ _ => ?_) ?_
    · refine calWrite_ev ?_
      assumption
    · assumption
  · refine raise_ev ?_
    refine raise_ev ?_
    refine logClass_ev ?_
    assumption

theorem calRunDone_ev {org : Mach} {u r m} (h_m : Evolves org m) :
    Evolves org (calRunDone u r m) := by
  delta calRunDone
  refine Evolves.ite ?_ ?_
  · refine calEnd_ev ?_
    assumption
  · assumption

theorem calStep_ev {org : Mach} {u m} (h_m : Evolves org m) :
    Evolves org (calStep u m) := by
  delta calStep
  split
  · assumption
  · split
    · assumption
    · refine Evolves.ite ?_ ?_
      · assumption
      · extract_lets x1
        have hx1 : Evolves org x1 := by
          unfold x1
          split
          · refine regSet_ev ?_
            assumption
          · assumption
        clear_value x1
        refine Evolves.ite ?_ ?_
        · assumption
        · refine onHlt_ev ?_
          assumption

theorem stageMove_ev {org : Mach} {st k m} (h_m : Evolves org m) :
    Evolves org (stageMove st k m) := by
  delta stageMove
  extract_lets x1 x2
  have hx1 : Evolves org x1 := by
    unfold x1
    refine onHlt_ev ?_
    assumption
  clear_value x1
  refine sigPub_ev ?_
  refine logClass_ev ?_
  refine raise_ev ?_
  assumption

theorem heatSpan_ev {org : Mach} {m} (h_m : Evolves org m) :
    Evolves org (heatSpan m) := by
  delta heatSpan
  extract_lets x1
  refine onHlt_ev ?_
  assumption

theorem throttleNow_ev {org : Mach} {m0} (h_m0 : Evolves org m0) :
    Evolves org (throttleNow m0) := by
  delta throttleNow
  extract_lets x1
  have hx1 : Evolves org x1 := by
    unfold x1
    refine heatSpan_ev ?_
    assumption
  clear_value x1
  split
  · refine Evolves.ite ?_ ?_
    · refine raise_ev ?_
      refine stageMove_ev ?_
      assumption
    · assumption
  · refine Evolves.ite ?_ ?_
    · refine stageMove_ev ?_
      assumption
    · assumption
  · assumption

theorem throttleTimer_ev {org : Mach} {m} (h_m : Evolves org m) :
    Evolves org (throttleTimer m) := by
  delta throttleTimer
  extract_lets x1 x2
  split
  · assumption
  · refine Evolves.ite ?_ ?_
    · refine stageMove_ev ?_
      assumption
    · assumption
  · refine Evolves.ite ?_ ?_
    · refine stageMove_ev ?_
      assumption
    · refine Evolves.ite ?_ ?_
      · refine stageMove_ev ?_
        assumption
      · assumption
  · refine Evolves.ite ?_ ?_
    · refine Evolves.ite ?_ ?_
      · refine stageMove_ev ?_
        assumption
      · assumption
    · refine Evolves.ite ?_ ?_
      · refine Evolves.ite ?_ ?_
        · refine stageMove_ev ?_
          assumption
        · refine stageMove_ev ?_
          assumption
      · assumption

end Sys2Proof.Machine
end

