-- ==== Sys2Proof/Laws/Evolve/LaneOps.lean ====
section
/-!
SUPPORT. What Machine/LaneOps.lean does never undoes what Laws/Evolve/Base.lean names: one lemma per operation.
-/

namespace Sys2Proof.Machine

theorem routeSend_ev {org : Mach} {h route back m} (h_m : Evolves org m) :
    Evolves org (routeSend h route back m) := by
  delta routeSend
  refine sendBlock_ev ?_
  refine onHead_ev ?_
  assumption

theorem laneSet_ev {org : Mach} {l st m} (h_m : Evolves org m) :
    Evolves org (laneSet l st m) := by
  delta laneSet
  refine onLane_ev ?_
  assumption

theorem leftUp_ev {org : Mach} {l st m} (h_m : Evolves org m) :
    Evolves org (leftUp l st m) := by
  delta leftUp
  extract_lets x1 x2 x3 x4
  have hx2 : Evolves org x2 := by
    unfold x2
    refine raise_ev ?_
    refine onLane_ev ?_
    assumption
  clear_value x2
  have hx4 : Evolves org x4 := by
    unfold x4
    refine repair_ev ?_
    assumption
  clear_value x4
  refine Evolves.ite ?_ ?_
  · assumption
  · refine Evolves.ite ?_ ?_
    · clear_value x3
      split
      · refine routeSend_ev ?_
        assumption
      · assumption
    · refine onHead_ev ?_
      assumption

theorem alignLost_ev {org : Mach} {h m} (h_m : Evolves org m) :
    Evolves org (alignLost h m) := by
  delta alignLost
  extract_lets x1 x2
  have hx2 : Evolves org x2 := by
    unfold x2
    refine onTime_ev ?_
    assumption
  clear_value x2
  refine whenM_ev (fun _ _ => ?_) ?_
  · refine raise_ev ?_
    assumption
  · assumption

theorem lanesGone_ev {org : Mach} {h m} (h_m : Evolves org m) :
    Evolves org (lanesGone h m) := by
  delta lanesGone
  refine Evolves.ite ?_ ?_
  · assumption
  · extract_lets x1
    have hx1 : Evolves org x1 := by
      unfold x1
      refine alignLost_ev ?_
      assumption
    clear_value x1
    refine Evolves.ite ?_ ?_
    · refine retire_ev ?_
      assumption
    · assumption

theorem laneTo_ev {org : Mach} {l st m} (h_m : Evolves org m) :
    Evolves org (laneTo l st m) := by
  delta laneTo
  extract_lets x1 x2
  have hx2 : Evolves org x2 := by
    unfold x2
    refine laneSet_ev ?_
    assumption
  clear_value x2
  refine Evolves.ite ?_ ?_
  · refine lanesGone_ev ?_
    refine leftUp_ev ?_
    assumption
  · assumption

theorem laneDetect_ev {org : Mach} {l m} (h_m : Evolves org m) :
    Evolves org (laneDetect l m) := by
  delta laneDetect
  refine onLane_ev ?_
  refine laneTo_ev ?_
  assumption

theorem laneAttempt_ev {org : Mach} {l n m} (h_m : Evolves org m) :
    Evolves org (laneAttempt l n m) := by
  delta laneAttempt
  refine onLane_ev ?_
  refine laneTo_ev ?_
  assumption

theorem laneFail_ev {org : Mach} {l cause more m} (h_m : Evolves org m) :
    Evolves org (laneFail l cause more m) := by
  delta laneFail
  extract_lets x1
  have hx1 : Evolves org x1 := by
    unfold x1
    refine onLane_ev ?_
    refine laneTo_ev ?_
    assumption
  clear_value x1
  refine log_ev ?_
  refine raise_ev ?_
  assumption

theorem trainFails_ev {org : Mach} {l m} (h_m : Evolves org m) :
    Evolves org (trainFails l m) := by
  delta trainFails
  extract_lets x1
  refine Evolves.ite ?_ ?_
  · assumption
  · refine Evolves.ite ?_ ?_
    · refine Evolves.ite ?_ ?_
      · refine laneAttempt_ev ?_
        assumption
      · refine laneDetect_ev ?_
        assumption
    · refine laneFail_ev ?_
      assumption

theorem laneRetrains_ev {org : Mach} {l m} (h_m : Evolves org m) :
    Evolves org (laneRetrains l m) := by
  delta laneRetrains
  refine Evolves.ite ?_ ?_
  · refine laneAttempt_ev ?_
    refine onLane_ev ?_
    assumption
  · assumption

theorem laneEnterUp_ev {org : Mach} {l m} (h_m : Evolves org m) :
    Evolves org (laneEnterUp l m) := by
  delta laneEnterUp
  extract_lets x1 x2 x3 x4 x5 x6 x7
  have hx3 : Evolves org x3 := by
    unfold x3
    refine Evolves.ite ?_ ?_
    · assumption
    · refine onHead_ev ?_
      assumption
  clear_value x3
  have hx4 : Evolves org x4 := by
    unfold x4
    refine raise_ev ?_
    refine onLane_ev ?_
    refine laneSet_ev ?_
    assumption
  clear_value x4
  have hx6 : Evolves org x6 := by
    unfold x6
    refine configSend_ev ?_
    assumption
  clear_value x6
  have hx7 : Evolves org x7 := by
    unfold x7
    refine Evolves.ite ?_ ?_
    · split
      · refine repair_ev ?_
        refine onHead_ev ?_
        assumption
      · unfold id
        refine onHead_ev ?_
        assumption
    · refine Evolves.ite ?_ ?_
      · refine routeSend_ev ?_
        assumption
      · refine Evolves.ite ?_ ?_
        · refine routeSend_ev ?_
          assumption
        · assumption
  clear_value x7
  refine Evolves.ite ?_ ?_
  · refine Evolves.ite ?_ ?_
    · refine repair_ev ?_
      assumption
    · assumption
  · refine whenM_ev (fun _ _ => ?_) ?_
    · refine ctxRestartBeam_ev ?_
      assumption
    · assumption

theorem signalSeen_ev {org : Mach} {l m} (h_m : Evolves org m) :
    Evolves org (signalSeen l m) := by
  delta signalSeen
  extract_lets x1
  have hx1 : Evolves org x1 := by
    unfold x1
    refine onLane_ev ?_
    assumption
  clear_value x1
  refine Evolves.ite ?_ ?_
  · refine laneAttempt_ev ?_
    assumption
  · assumption

theorem detectTimeout_ev {org : Mach} {l m} (h_m : Evolves org m) :
    Evolves org (detectTimeout l m) := by
  delta detectTimeout
  extract_lets x1
  refine Evolves.ite ?_ ?_
  · refine raise_ev ?_
    refine onLane_ev ?_
    assumption
  · assumption

theorem equalised_ev {org : Mach} {l m} (h_m : Evolves org m) :
    Evolves org (equalised l m) := by
  delta equalised
  refine Evolves.ite ?_ ?_
  · refine laneTo_ev ?_
    assumption
  · assumption

theorem alignLocked_ev {org : Mach} {l m} (h_m : Evolves org m) :
    Evolves org (alignLocked l m) := by
  delta alignLocked
  refine Evolves.ite ?_ ?_
  · refine onLane_ev ?_
    refine laneTo_ev ?_
    assumption
  · assumption

theorem keyBegin_ev {org : Mach} {l m} (h_m : Evolves org m) :
    Evolves org (keyBegin l m) := by
  delta keyBegin
  split
  · rename_i heq
    refine Evolves.let2 (b := org) heq ?_ (fun _ => ?_)
    · refine drawRandom_ev ?_
      assumption
    extract_lets x1 x2
    have hx2 : Evolves org x2 := by
      unfold x2
      refine onLane_ev ?_
      refine laneTo_ev ?_
      assumption
    clear_value x2
    refine emit_ev ?_
    assumption

theorem swapPair_ev {org : Mach} {l m} (h_m : Evolves org m) :
    Evolves org (swapPair l m) := by
  delta swapPair
  split
  · refine Evolves.ite ?_ ?_
    · refine eachM_ev (fun _ _ _ => ?_) ?_
      · refine onLane_ev ?_
        assumption
      · assumption
    · assumption
  · assumption

theorem trainBlock_ev {org : Mach} {l seen port rate ident inverted m} (h_m : Evolves org m) :
    Evolves org (trainBlock l seen port rate ident inverted m) := by
  delta trainBlock
  extract_lets x1
  refine Evolves.ite ?_ ?_
  · refine Evolves.ite ?_ ?_
    · refine onLane_ev ?_
      assumption
    · assumption
  · refine Evolves.ite ?_ ?_
    · assumption
    · refine Evolves.ite ?_ ?_
      · refine laneFail_ev ?_
        assumption
      · refine Evolves.ite ?_ ?_
        · refine swapPair_ev ?_
          refine onLane_ev ?_
          assumption
        · refine Evolves.ite ?_ ?_
          · refine onLane_ev ?_
            assumption
          · refine Evolves.ite ?_ ?_
            · refine onLane_ev ?_
              assumption
            · refine keyBegin_ev ?_
              assumption

theorem laneHostile_ev {org : Mach} {cause l m} (h_m : Evolves org m) :
    Evolves org (laneHostile cause l m) := by
  delta laneHostile
  refine Evolves.ite ?_ ?_
  · assumption
  · extract_lets x1 x2
    have hx2 : Evolves org x2 := by
      unfold x2
      refine onLane_ev ?_
      refine laneSet_ev ?_
      assumption
    clear_value x2
    refine raise_ev ?_
    refine whenM_ev (fun _ _ => ?_) ?_
    · refine leftUp_ev ?_
      assumption
    · assumption

theorem headSilence_ev {org : Mach} {h m} (h_m : Evolves org m) :
    Evolves org (headSilence h m) := by
  delta headSilence
  refine eachM_ev (fun _ _ _ => ?_) ?_
  · refine sigInvalidate_ev ?_
    assumption
  · assumption

theorem sealFail_ev {org : Mach} {l sfn m} (h_m : Evolves org m) :
    Evolves org (sealFail l sfn m) := by
  delta sealFail
  extract_lets x1 x2 x3 x4 x5 x6 x7
  have hx2 : Evolves org x2 := by
    unfold x2
    refine eachM_ev (fun _ _ _ => ?_) ?_
    · refine laneHostile_ev ?_
      assumption
    · assumption
  clear_value x2
  have hx3 : Evolves org x3 := by
    unfold x3
    refine log_ev ?_
    assumption
  clear_value x3
  have hx4 : Evolves org x4 := by
    unfold x4
    refine headSilence_ev ?_
    refine onHead_ev ?_
    assumption
  clear_value x4
  have hx6 : Evolves org x6 := by
    unfold x6
    refine ilkDrive_ev ?_
    refine onIlk_ev ?_
    assumption
  clear_value x6
  have hx7 : Evolves org x7 := by
    unfold x7
    refine eachM_ev (fun _ _ _ => ?_) ?_
    · refine sigInvalidate_ev ?_
      assumption
    · assumption
  clear_value x7
  refine Evolves.ite ?_ ?_
  · assumption
  · refine retire_ev ?_
    refine gateForced_ev ?_
    assumption

theorem keyBlock_ev {org : Mach} {l step data m} (h_m : Evolves org m) :
    Evolves org (keyBlock l step data m) := by
  delta keyBlock
  extract_lets x1 x2 x3 x4
  have hx4 : Evolves org x4 := by
    unfold x4
    refine onLane_ev ?_
    refine laneTo_ev ?_
    assumption
  clear_value x4
  refine Evolves.ite ?_ ?_
  · assumption
  · refine Evolves.ite ?_ ?_
    · refine onLane_ev ?_
      assumption
    · refine Evolves.ite ?_ ?_
      · refine Evolves.ite ?_ ?_
        · refine emit_ev ?_
          assumption
        · refine log_ev ?_
          refine laneHostile_ev ?_
          assumption
      · assumption

theorem soakJudge_ev {org : Mach} {l m} (h_m : Evolves org m) :
    Evolves org (soakJudge l m) := by
  delta soakJudge
  split
  · refine laneEnterUp_ev ?_
    assumption
  · refine trainFails_ev ?_
    assumption
  · assumption

theorem soakEnd_ev {org : Mach} {l errors m} (h_m : Evolves org m) :
    Evolves org (soakEnd l errors m) := by
  delta soakEnd
  refine Evolves.ite ?_ ?_
  · refine soakJudge_ev ?_
    refine onLane_ev ?_
    assumption
  · assumption

theorem soakResult_ev {org : Mach} {l errors m} (h_m : Evolves org m) :
    Evolves org (soakResult l errors m) := by
  delta soakResult
  refine Evolves.ite ?_ ?_
  · refine soakJudge_ev ?_
    refine onLane_ev ?_
    assumption
  · assumption

theorem sealBlock_ev {org : Mach} {l s m} (h_m : Evolves org m) :
    Evolves org (sealBlock l s m) := by
  delta sealBlock
  extract_lets x1 x2 x3
  have hx2 : Evolves org x2 := by
    unfold x2
    refine onLane_ev ?_
    assumption
  clear_value x2
  refine Evolves.ite ?_ ?_
  · assumption
  · refine Evolves.ite ?_ ?_
    · refine raise_ev ?_
      refine onLane_ev ?_
      assumption
    · refine Evolves.ite ?_ ?_
      · refine onLane_ev ?_
        assumption
      · refine sealFail_ev ?_
        assumption

theorem signalLoss_ev {org : Mach} {l m} (h_m : Evolves org m) :
    Evolves org (signalLoss l m) := by
  delta signalLoss
  extract_lets x1
  have hx1 : Evolves org x1 := by
    unfold x1
    refine onLane_ev ?_
    assumption
  clear_value x1
  refine Evolves.ite ?_ ?_
  · refine laneRetrains_ev ?_
    assumption
  · refine trainFails_ev ?_
    assumption

theorem lockLost_ev {org : Mach} {l m} (h_m : Evolves org m) :
    Evolves org (lockLost l m) := by
  delta lockLost
  refine Evolves.ite ?_ ?_
  · assumption
  · extract_lets x1
    have hx1 : Evolves org x1 := by
      unfold x1
      refine onLane_ev ?_
      assumption
    clear_value x1
    refine Evolves.ite ?_ ?_
    · refine laneRetrains_ev ?_
      assumption
    · refine trainFails_ev ?_
      assumption

theorem trainTimeout_ev {org : Mach} {l m} (h_m : Evolves org m) :
    Evolves org (trainTimeout l m) := by
  delta trainTimeout
  refine Evolves.ite ?_ ?_
  · refine trainFails_ev ?_
    assumption
  · assumption

theorem crcLimit_ev {org : Mach} {l m} (h_m : Evolves org m) :
    Evolves org (crcLimit l m) := by
  delta crcLimit
  split
  · refine Evolves.ite ?_ ?_
    · refine laneRetrains_ev ?_
      assumption
    · assumption
  · assumption

theorem voidLimit_ev {org : Mach} {l m} (h_m : Evolves org m) :
    Evolves org (voidLimit l m) := by
  delta voidLimit
  refine Evolves.ite ?_ ?_
  · refine laneRetrains_ev ?_
    assumption
  · assumption

theorem retryElapsed_ev {org : Mach} {l m} (h_m : Evolves org m) :
    Evolves org (retryElapsed l m) := by
  delta retryElapsed
  refine Evolves.ite ?_ ?_
  · refine laneDetect_ev ?_
    assumption
  · assumption

theorem routed_ev {org : Mach} {l fsw m} (h_m : Evolves org m) :
    Evolves org (routed l fsw m) := by
  delta routed
  extract_lets x1 x2
  split
  · refine Evolves.ite ?_ ?_
    · assumption
    · extract_lets x3 x4
      have hx3 : Evolves org x3 := by
        unfold x3
        refine onHead_ev ?_
        assumption
      clear_value x3
      have hx4 : Evolves org x4 := by
        unfold x4
        refine whenM_ev (fun _ _ => ?_) ?_
        · refine raise_ev ?_
          assumption
        · assumption
      clear_value x4
      split
      · refine repair_ev ?_
        assumption
      · assumption
  · assumption

theorem headFault_ev {org : Mach} {h code reason m} (h_m : Evolves org m) :
    Evolves org (headFault h code reason m) := by
  delta headFault
  extract_lets x1
  have hx1 : Evolves org x1 := by
    unfold x1
    refine log_ev ?_
    assumption
  clear_value x1
  refine Evolves.ite ?_ ?_
  · refine retire_ev ?_
    assumption
  · assumption

theorem driftFresh_ev {org : Mach} {h m} (h_m : Evolves org m) :
    Evolves org (driftFresh h m) := by
  delta driftFresh
  refine Evolves.ite ?_ ?_
  · refine onBeam_ev ?_
    assumption
  · assumption

theorem statusArrive_ev {org : Mach} {l f m} (h_m : Evolves org m) :
    Evolves org (statusArrive l f m) := by
  delta statusArrive
  extract_lets x1 x2 x3 x4 x5 x6 x7 x8 x9 x10 x11 x12
  have hf_x5 : ∀ a0 a1 m, Evolves org m → Evolves org (x5 a0 a1 m) := by
    intro a0 a1 m hm
    unfold x5
    refine sigWriteAt_ev ?_
    assumption
  clear_value x5
  have hx9 : Evolves org x9 := by
    unfold x9
    refine Evolves.ite ?_ ?_
    · refine sigBlock_ev ?_
      apply hf_x5
      apply hf_x5
      apply hf_x5
      apply hf_x5
      assumption
    · apply hf_x5
      apply hf_x5
      apply hf_x5
      apply hf_x5
      assumption
  clear_value x9
  have hx11 : Evolves org x11 := by
    unfold x11
    refine onHead_ev ?_
    refine driftFresh_ev ?_
    assumption
  clear_value x11
  have hx12 : Evolves org x12 := by
    unfold x12
    refine Evolves.ite ?_ ?_
    · refine whenM_ev (fun _ _ => ?_) ?_
      · refine headFault_ev ?_
        assumption
      · assumption
    · refine Evolves.ite ?_ ?_
      · refine whenM_ev (fun _ _ => ?_) ?_
        · refine headFault_ev ?_
          assumption
        · assumption
      · assumption
  clear_value x12
  refine calCheck_ev ?_
  assumption

theorem statusTimeout_ev {org : Mach} {h m} (h_m : Evolves org m) :
    Evolves org (statusTimeout h m) := by
  delta statusTimeout
  refine Evolves.ite ?_ ?_
  · refine headFault_ev ?_
    refine onHead_ev ?_
    assumption
  · assumption

theorem floodTimeout_ev {org : Mach} {h m} (h_m : Evolves org m) :
    Evolves org (floodTimeout h m) := by
  delta floodTimeout
  extract_lets x1
  refine Evolves.ite ?_ ?_
  · refine whenM_ev (fun _ _ => ?_) ?_
    · refine headFault_ev ?_
      assumption
    · assumption
  · assumption

theorem releaseCheck_ev {org : Mach} {b m} (h_m : Evolves org m) :
    Evolves org (releaseCheck b m) := by
  delta releaseCheck
  extract_lets x1
  refine Evolves.ite ?_ ?_
  · refine releaseSend_ev ?_
    assumption
  · assumption

theorem laneRefuse_ev {org : Mach} {l m} (h_m : Evolves org m) :
    Evolves org (laneRefuse l m) := by
  delta laneRefuse
  refine refuse_ev ?_
  assumption

theorem laneCmd_ev {org : Mach} {l errors w m} (h_m : Evolves org m) :
    Evolves org (laneCmd l errors w m) := by
  delta laneCmd
  extract_lets x1
  refine Evolves.ite ?_ ?_
  · refine laneRefuse_ev ?_
    assumption
  · split
    · refine Evolves.ite ?_ ?_
      · refine Evolves.ite ?_ ?_
        · refine laneRefuse_ev ?_
          assumption
        · refine laneRetrains_ev ?_
          assumption
      · refine Evolves.ite ?_ ?_
        · refine laneDetect_ev ?_
          assumption
        · refine laneRefuse_ev ?_
          assumption
    · refine Evolves.ite ?_ ?_
      · refine onLane_ev ?_
        assumption
      · refine laneRefuse_ev ?_
        assumption
    · refine Evolves.ite ?_ ?_
      · refine laneRefuse_ev ?_
        assumption
      · refine onLane_ev ?_
        refine laneTo_ev ?_
        assumption
    · refine Evolves.ite ?_ ?_
      · refine laneDetect_ev ?_
        refine onLane_ev ?_
        assumption
      · refine laneRefuse_ev ?_
        assumption
    · refine laneRefuse_ev ?_
      assumption

theorem laneInject_ev {org : Mach} {l w m} (h_m : Evolves org m) :
    Evolves org (laneInject l w m) := by
  delta laneInject
  extract_lets x1
  refine Evolves.ite ?_ ?_
  · refine laneRefuse_ev ?_
    assumption
  · refine Evolves.ite ?_ ?_
    · refine laneRefuse_ev ?_
      assumption
    · refine Evolves.ite ?_ ?_
      · refine onLane_ev ?_
        refine emit_ev ?_
        assumption
      · refine Evolves.ite ?_ ?_
        · refine onLane_ev ?_
          assumption
        · refine emit_ev ?_
          assumption

theorem execLaneSignalDetect_ev {org : Mach} {l s} (h_s : Evolves org s.m) :
    OutEv org (execLaneSignalDetect l s) := by
  delta execLaneSignalDetect
  refine act_ev (fun _ _ => ?_) h_s
  refine signalSeen_ev ?_
  assumption

theorem execLaneDetectTimeout_ev {org : Mach} {l s} (h_s : Evolves org s.m) :
    OutEv org (execLaneDetectTimeout l s) := by
  delta execLaneDetectTimeout
  refine act_ev (fun _ _ => ?_) h_s
  refine detectTimeout_ev ?_
  assumption

theorem execLaneEqualiseDone_ev {org : Mach} {l s} (h_s : Evolves org s.m) :
    OutEv org (execLaneEqualiseDone l s) := by
  delta execLaneEqualiseDone
  refine act_ev (fun _ _ => ?_) h_s
  refine equalised_ev ?_
  assumption

theorem execLaneAlignLock_ev {org : Mach} {l s} (h_s : Evolves org s.m) :
    OutEv org (execLaneAlignLock l s) := by
  delta execLaneAlignLock
  refine act_ev (fun _ _ => ?_) h_s
  refine alignLocked_ev ?_
  assumption

theorem execTrainBlock_ev {org : Mach} {l seen port rate ident inverted s} (h_s : Evolves org s.m) :
    OutEv org (execTrainBlock l seen port rate ident inverted s) := by
  delta execTrainBlock
  refine act_ev (fun _ _ => ?_) h_s
  refine trainBlock_ev ?_
  assumption

theorem execKeyBlock_ev {org : Mach} {l step data s} (h_s : Evolves org s.m) :
    OutEv org (execKeyBlock l step data s) := by
  delta execKeyBlock
  refine act_ev (fun _ _ => ?_) h_s
  refine keyBlock_ev ?_
  assumption

theorem execLaneSoakEnd_ev {org : Mach} {l errors s} (h_s : Evolves org s.m) :
    OutEv org (execLaneSoakEnd l errors s) := by
  delta execLaneSoakEnd
  refine act_ev (fun _ _ => ?_) h_s
  refine soakEnd_ev ?_
  assumption

theorem execLaneTrainTimeout_ev {org : Mach} {l s} (h_s : Evolves org s.m) :
    OutEv org (execLaneTrainTimeout l s) := by
  delta execLaneTrainTimeout
  refine act_ev (fun _ _ => ?_) h_s
  refine trainTimeout_ev ?_
  assumption

theorem execLaneSignalLoss_ev {org : Mach} {l s} (h_s : Evolves org s.m) :
    OutEv org (execLaneSignalLoss l s) := by
  delta execLaneSignalLoss
  refine act_ev (fun _ _ => ?_) h_s
  refine signalLoss_ev ?_
  assumption

theorem execLaneLockLost_ev {org : Mach} {l s} (h_s : Evolves org s.m) :
    OutEv org (execLaneLockLost l s) := by
  delta execLaneLockLost
  refine act_ev (fun _ _ => ?_) h_s
  refine lockLost_ev ?_
  assumption

theorem execLaneCrcLimit_ev {org : Mach} {l s} (h_s : Evolves org s.m) :
    OutEv org (execLaneCrcLimit l s) := by
  delta execLaneCrcLimit
  refine act_ev (fun _ _ => ?_) h_s
  refine crcLimit_ev ?_
  assumption

theorem execLaneVoidLimit_ev {org : Mach} {l s} (h_s : Evolves org s.m) :
    OutEv org (execLaneVoidLimit l s) := by
  delta execLaneVoidLimit
  refine act_ev (fun _ _ => ?_) h_s
  refine voidLimit_ev ?_
  assumption

theorem execLaneRetryElapsed_ev {org : Mach} {l s} (h_s : Evolves org s.m) :
    OutEv org (execLaneRetryElapsed l s) := by
  delta execLaneRetryElapsed
  refine act_ev (fun _ _ => ?_) h_s
  refine retryElapsed_ev ?_
  assumption

theorem execSealBlock_ev {org : Mach} {l f s} (h_s : Evolves org s.m) :
    OutEv org (execSealBlock l f s) := by
  delta execSealBlock
  refine act_ev (fun _ _ => ?_) h_s
  refine sealBlock_ev ?_
  assumption

theorem execSwitchRouted_ev {org : Mach} {l fsw s} (h_s : Evolves org s.m) :
    OutEv org (execSwitchRouted l fsw s) := by
  delta execSwitchRouted
  refine act_ev (fun _ _ => ?_) h_s
  refine routed_ev ?_
  assumption

theorem execSwitchSoakResult_ev {org : Mach} {l errors s} (h_s : Evolves org s.m) :
    OutEv org (execSwitchSoakResult l errors s) := by
  delta execSwitchSoakResult
  refine act_ev (fun _ _ => ?_) h_s
  refine soakResult_ev ?_
  assumption

theorem execStatusFrame_ev {org : Mach} {l f s} (h_s : Evolves org s.m) :
    OutEv org (execStatusFrame l f s) := by
  delta execStatusFrame
  refine act_ev (fun _ _ => ?_) h_s
  refine rxFrame_ev (fun _ _ => ?_) ?_
  · refine statusArrive_ev ?_
    assumption
  · assumption

theorem execCmdKeepalive_ev {org : Mach} {b s} (h_s : Evolves org s.m) :
    OutEv org (execCmdKeepalive b s) := by
  delta execCmdKeepalive
  refine act_ev (fun _ _ => ?_) h_s
  refine cmdSend_ev ?_
  assumption

theorem execAuxCmdKeepalive_ev {org : Mach} {a s} (h_s : Evolves org s.m) :
    OutEv org (execAuxCmdKeepalive a s) := by
  delta execAuxCmdKeepalive
  refine act_ev (fun _ _ => ?_) h_s
  refine cmdSend_ev ?_
  assumption

theorem execReleaseSend_ev {org : Mach} {b s} (h_s : Evolves org s.m) :
    OutEv org (execReleaseSend b s) := by
  delta execReleaseSend
  refine act_ev (fun _ _ => ?_) h_s
  refine releaseCheck_ev ?_
  assumption

theorem execStatusTimeout_ev {org : Mach} {h s} (h_s : Evolves org s.m) :
    OutEv org (execStatusTimeout h s) := by
  delta execStatusTimeout
  refine act_ev (fun _ _ => ?_) h_s
  refine statusTimeout_ev ?_
  assumption

theorem execFloodTimeout_ev {org : Mach} {h s} (h_s : Evolves org s.m) :
    OutEv org (execFloodTimeout h s) := by
  delta execFloodTimeout
  refine act_ev (fun _ _ => ?_) h_s
  refine floodTimeout_ev ?_
  assumption

theorem execLaneRetrain_ev {org : Mach} {p l hi s} (h_s : Evolves org s.m) :
    OutEv org (execLaneRetrain p l hi s) := by
  delta execLaneRetrain
  refine act_ev (fun _ _ => ?_) h_s
  refine writeGate_ev (fun _ _ => ?_) ?_
  · refine laneCmd_ev ?_
    assumption
  · assumption

theorem execEyeScan_ev {org : Mach} {p l hi s} (h_s : Evolves org s.m) :
    OutEv org (execEyeScan p l hi s) := by
  delta execEyeScan
  refine act_ev (fun _ _ => ?_) h_s
  refine writeGate_ev (fun _ _ => ?_) ?_
  · refine laneCmd_ev ?_
    assumption
  · assumption

theorem execTestEnter_ev {org : Mach} {p l hi s} (h_s : Evolves org s.m) :
    OutEv org (execTestEnter p l hi s) := by
  delta execTestEnter
  refine act_ev (fun _ _ => ?_) h_s
  refine writeGate_ev (fun _ _ => ?_) ?_
  · refine laneCmd_ev ?_
    assumption
  · assumption

theorem execTestExit_ev {org : Mach} {p l hi errors s} (h_s : Evolves org s.m) :
    OutEv org (execTestExit p l hi errors s) := by
  delta execTestExit
  refine act_ev (fun _ _ => ?_) h_s
  refine writeGate_ev (fun _ _ => ?_) ?_
  · refine laneCmd_ev ?_
    assumption
  · assumption

theorem execInjectBitError_ev {org : Mach} {p l hi s} (h_s : Evolves org s.m) :
    OutEv org (execInjectBitError p l hi s) := by
  delta execInjectBitError
  refine act_ev (fun _ _ => ?_) h_s
  refine writeGate_ev (fun _ _ => ?_) ?_
  · refine laneInject_ev ?_
    assumption
  · assumption

theorem execInjectErrorRate_ev {org : Mach} {p l hi s} (h_s : Evolves org s.m) :
    OutEv org (execInjectErrorRate p l hi s) := by
  delta execInjectErrorRate
  refine act_ev (fun _ _ => ?_) h_s
  refine writeGate_ev (fun _ _ => ?_) ?_
  · refine laneInject_ev ?_
    assumption
  · assumption

theorem execInjectStop_ev {org : Mach} {p l hi s} (h_s : Evolves org s.m) :
    OutEv org (execInjectStop p l hi s) := by
  delta execInjectStop
  refine act_ev (fun _ _ => ?_) h_s
  refine writeGate_ev (fun _ _ => ?_) ?_
  · refine laneInject_ev ?_
    assumption
  · assumption

theorem execInjectInvalidHeader_ev {org : Mach} {p l hi s} (h_s : Evolves org s.m) :
    OutEv org (execInjectInvalidHeader p l hi s) := by
  delta execInjectInvalidHeader
  refine act_ev (fun _ _ => ?_) h_s
  refine writeGate_ev (fun _ _ => ?_) ?_
  · refine laneInject_ev ?_
    assumption
  · assumption

theorem execInjectCrcError_ev {org : Mach} {p l hi s} (h_s : Evolves org s.m) :
    OutEv org (execInjectCrcError p l hi s) := by
  delta execInjectCrcError
  refine act_ev (fun _ _ => ?_) h_s
  refine writeGate_ev (fun _ _ => ?_) ?_
  · refine laneInject_ev ?_
    assumption
  · assumption

theorem execInjectSealError_ev {org : Mach} {p l hi s} (h_s : Evolves org s.m) :
    OutEv org (execInjectSealError p l hi s) := by
  delta execInjectSealError
  refine act_ev (fun _ _ => ?_) h_s
  refine writeGate_ev (fun _ _ => ?_) ?_
  · refine laneInject_ev ?_
    assumption
  · assumption

end Sys2Proof.Machine
end

