-- ==== Sys2Proof/Laws/Evolve/HealthOps.lean ====
section
/-!
SUPPORT. What Machine/HealthOps.lean does never undoes what Laws/Evolve/Base.lean names: one lemma per operation.
-/

namespace Sys2Proof.Machine

theorem planRequest_ev {org : Mach} {q unit value limit m} (h_m : Evolves org m) :
    Evolves org (planRequest q unit value limit m) := by
  delta planRequest
  refine raise_ev ?_
  refine healthLog_ev ?_
  assumption

theorem driftCheck_ev {org : Mach} {c m} (h_m : Evolves org m) :
    Evolves org (driftCheck c m) := by
  delta driftCheck
  extract_lets x1 x2
  split
  · extract_lets x3
    refine Evolves.ite ?_ ?_
    · refine planRequest_ev ?_
      refine onCh_ev ?_
      assumption
    · assumption

theorem tempRead_ev {org : Mach} {core io mv m} (h_m : Evolves org m) :
    Evolves org (tempRead core io mv m) := by
  delta tempRead
  refine Evolves.ite ?_ ?_
  · assumption
  · extract_lets x1 x2
    have hx1 : Evolves org x1 := by
      unfold x1
      refine onHlt_ev ?_
      refine takeRecord_ev ?_
      assumption
    clear_value x1
    have hx2 : Evolves org x2 := by
      unfold x2
      refine throttleNow_ev ?_
      assumption
    clear_value x2
    refine driftCheck_ev ?_
    refine driftCheck_ev ?_
    refine calCheck_ev ?_
    assumption

theorem mr4Poll_ev {org : Mach} {t0 t1 r0 r1 h0 h1 m} (h_m : Evolves org m) :
    Evolves org (mr4Poll t0 t1 r0 r1 h0 h1 m) := by
  delta mr4Poll
  refine Evolves.ite ?_ ?_
  · assumption
  · extract_lets x1 x2
    have hx1 : Evolves org x1 := by
      unfold x1
      refine onCh_ev ?_
      refine onCh_ev ?_
      assumption
    clear_value x1
    have hx2 : Evolves org x2 := by
      unfold x2
      refine whenM_ev (fun _ _ => ?_) ?_
      · refine raise_ev ?_
        assumption
      · refine onHlt_ev ?_
        assumption
    clear_value x2
    refine whenM_ev (fun _ _ => ?_) ?_
    · refine throttleNow_ev ?_
      assumption
    · assumption

theorem throttleElapsed_ev {org : Mach} {m} (h_m : Evolves org m) :
    Evolves org (throttleElapsed m) := by
  delta throttleElapsed
  refine whenM_ev (fun _ _ => ?_) ?_
  · refine throttleTimer_ev ?_
    assumption
  · assumption

theorem thermalShutdown_ev {org : Mach} {m} (h_m : Evolves org m) :
    Evolves org (thermalShutdown m) := by
  delta thermalShutdown
  refine Evolves.ite ?_ ?_
  · assumption
  · extract_lets x1 x2 x3 x4 x5 x6 x7
    have hx1 : Evolves org x1 := by
      unfold x1
      refine ilkDrive_ev ?_
      refine onIlk_ev ?_
      assumption
    clear_value x1
    have hx3 : Evolves org x3 := by
      unfold x3
      refine safeRest_ev ?_
      refine Evolves.upd ?_ rfl rfl rfl rfl rfl rfl rfl rfl rfl
      assumption
    clear_value x3
    have hx5 : Evolves org x5 := by
      unfold x5
      refine pinsFollow_ev ?_
      refine devSignals_ev ?_
      refine onHlt_ev ?_
      refine Evolves.upd ?_ rfl rfl rfl rfl rfl rfl rfl rfl rfl
      assumption
    clear_value x5
    refine Evolves.upd ?_ rfl rfl rfl rfl rfl rfl rfl rfl rfl
    assumption

theorem canary_ev {org : Mach} {m} (h_m : Evolves org m) :
    Evolves org (canary m) := by
  delta canary
  extract_lets x1 x2 x3 x4 x5 x6
  have hx5 : Evolves org x5 := by
    unfold x5
    refine onHlt_ev ?_
    assumption
  clear_value x5
  have hx6 : Evolves org x6 := by
    unfold x6
    refine raise_ev ?_
    refine onHlt_ev ?_
    assumption
  clear_value x6
  refine Evolves.ite ?_ ?_
  · assumption
  · refine Evolves.ite ?_ ?_
    · refine Evolves.ite ?_ ?_
      · assumption
      · refine repair_ev ?_
        refine raise_ev ?_
        assumption
    · refine Evolves.ite ?_ ?_
      · refine faultSafeHold_ev ?_
        assumption
      · assumption

theorem vcoreOff_ev {org : Mach} {mv m} (h_m : Evolves org m) :
    Evolves org (vcoreOff mv m) := by
  delta vcoreOff
  extract_lets x1
  refine Evolves.ite ?_ ?_
  · refine raise_ev ?_
    refine healthLog_ev ?_
    refine onHlt_ev ?_
    assumption
  · assumption

theorem touchstone_ev {org : Mach} {dMax m} (h_m : Evolves org m) :
    Evolves org (touchstone dMax m) := by
  delta touchstone
  refine Evolves.ite ?_ ?_
  · assumption
  · extract_lets x1 x2
    have hx1 : Evolves org x1 := by
      unfold x1
      refine onHlt_ev ?_
      assumption
    clear_value x1
    refine whenM_ev (fun _ _ => ?_) ?_
    · refine raise_ev ?_
      refine healthLog_ev ?_
      assumption
    · assumption

theorem cellHourly_ev {org : Mach} {c m} (h_m : Evolves org m) :
    Evolves org (cellHourly c m) := by
  delta cellHourly
  extract_lets x1 x2 x3
  have hx3 : Evolves org x3 := by
    unfold x3
    refine onHlt_ev ?_
    assumption
  clear_value x3
  refine Evolves.ite ?_ ?_
  · refine substAuto_ev ?_
    refine planRequest_ev ?_
    refine raise_ev ?_
    assumption
  · assumption

theorem hourly_ev {org : Mach} {m} (h_m : Evolves org m) :
    Evolves org (hourly m) := by
  delta hourly
  refine Evolves.ite ?_ ?_
  · assumption
  · extract_lets x1 x2 x3 x4
    have hx3 : Evolves org x3 := by
      unfold x3
      refine onHlt_ev ?_
      assumption
    clear_value x3
    have hf_x4 : ∀ m, Evolves org m → Evolves org (x4 m) := by
      intro m hm
      unfold x4
      refine planRequest_ev ?_
      refine onCh_ev ?_
      refine onCh_ev ?_
      refine raise_ev ?_
      assumption
    clear_value x4
    refine eachM_ev (fun _ _ _ => ?_) ?_
    · refine cellHourly_ev ?_
      assumption
    · refine whenM_ev (fun _ _ => ?_) ?_
      · apply hf_x4
        assumption
      · assumption

theorem eyeSchedule_ev {org : Mach} {m} (h_m : Evolves org m) :
    Evolves org (eyeSchedule m) := by
  delta eyeSchedule
  extract_lets x1
  split
  · refine Evolves.ite ?_ ?_
    · assumption
    · refine onLane_ev ?_
      refine onHlt_ev ?_
      assumption
  · assumption

theorem eyeDone_ev {org : Mach} {l w h m} (h_m : Evolves org m) :
    Evolves org (eyeDone l w h m) := by
  delta eyeDone
  refine Evolves.ite ?_ ?_
  · assumption
  · extract_lets x1 x2 x3 x4 x5
    have hx1 : Evolves org x1 := by
      unfold x1
      refine raise_ev ?_
      refine onLane_ev ?_
      assumption
    clear_value x1
    have hx3 : Evolves org x3 := by
      unfold x3
      refine onHlt_ev ?_
      assumption
    clear_value x3
    refine Evolves.ite ?_ ?_
    · split
      · refine planRequest_ev ?_
        refine raise_ev ?_
        refine onHlt_ev ?_
        assumption
    · assumption

theorem laneRequest_ev {org : Mach} {l m} (h_m : Evolves org m) :
    Evolves org (laneRequest l m) := by
  delta laneRequest
  extract_lets x1 x2
  refine Evolves.ite ?_ ?_
  · assumption
  · refine laneRetrains_ev ?_
    refine onHlt_ev ?_
    assumption

theorem onLaser_ev {org : Mach} {b f m} (h_m : Evolves org m) :
    Evolves org (onLaser b f m) := by
  delta onLaser
  refine onHlt_ev ?_
  assumption

theorem laserSample_ev {org : Mach} {b m} (h_m : Evolves org m) :
    Evolves org (laserSample b m) := by
  delta laserSample
  split
  · assumption
  · extract_lets x1 x2
    refine Evolves.ite ?_ ?_
    · refine onLaser_ev ?_
      assumption
    · assumption

theorem laserUpdate_ev {org : Mach} {b m} (h_m : Evolves org m) :
    Evolves org (laserUpdate b m) := by
  delta laserUpdate
  extract_lets x1 x2
  refine Evolves.ite ?_ ?_
  · assumption
  · refine onLaser_ev ?_
    assumption

theorem laserEval_ev {org : Mach} {b m} (h_m : Evolves org m) :
    Evolves org (laserEval b m) := by
  delta laserEval
  extract_lets x1 x2 x3 x4 x5 x6 x7 x8 x9 x10 x11 x12
  have hx9 : Evolves org x9 := by
    unfold x9
    refine onLaser_ev ?_
    assumption
  clear_value x9
  have hx10 : Evolves org x10 := by
    unfold x10
    refine onImp_ev ?_
    assumption
  clear_value x10
  have hx11 : Evolves org x11 := by
    unfold x11
    refine Evolves.ite ?_ ?_
    · assumption
    · refine weightsFollow_ev ?_
      refine repair_ev ?_
      refine raise_ev ?_
      refine raise_ev ?_
      assumption
  clear_value x11
  have hx12 : Evolves org x12 := by
    unfold x12
    refine whenM_ev (fun _ _ => ?_) ?_
    · refine raise_ev ?_
      assumption
    · assumption
  clear_value x12
  refine Evolves.ite ?_ ?_
  · assumption
  · refine Evolves.ite ?_ ?_
    · refine retire_ev ?_
      refine raise_ev ?_
      refine healthLog_ev ?_
      refine onLaser_ev ?_
      assumption
    · assumption

theorem notchMeasure_ev {org : Mach} {e peak edge m} (h_m : Evolves org m) :
    Evolves org (notchMeasure e peak edge m) := by
  delta notchMeasure
  split
  · assumption
  · split
    · extract_lets x1 x2 x3 x4 x5 x6 x7 x8
      have hx4 : Evolves org x4 := by
        unfold x4
        refine onHlt_ev ?_
        assumption
      clear_value x4
      refine Evolves.ite ?_ ?_
      · assumption
      · refine Evolves.ite ?_ ?_
        · refine regSet_ev ?_
          refine trcCtrlWrite_ev ?_
          assumption
        · refine Evolves.ite ?_ ?_
          · refine raise_ev ?_
            refine healthLog_ev ?_
            assumption
          · refine Evolves.ite ?_ ?_
            · refine onHlt_ev ?_
              assumption
            · assumption
    · assumption

theorem mgmtCommit_ev {org : Mach} {id ws m} (h_m : Evolves org m) :
    Evolves org (mgmtCommit id ws m).2 := by
  delta mgmtCommit
  extract_lets x1
  split
  · refine Evolves.mk2 ?_
    assumption
  · refine Evolves.ite2 ?_ ?_
    · refine Evolves.mk2 ?_
      refine recRefuse_ev ?_
      refine lockErr_ev ?_
      assumption
    · split
      · refine Evolves.mk2 ?_
        refine recRefuse_ev ?_
        refine accErr_ev ?_
        assumption
      · refine Evolves.mk2 ?_
        refine recAccept_ev ?_
        assumption

theorem notchCommit_ev {org : Mach} {e m} (h_m : Evolves org m) :
    Evolves org (notchCommit e m) := by
  delta notchCommit
  split
  · extract_lets x1 x2
    refine Evolves.ite ?_ ?_
    · assumption
    · split
      · rename_i heq
        refine Evolves.let2 (b := org) heq ?_ (fun _ => ?_)
        · refine mgmtCommit_ev ?_
          refine onHlt_ev ?_
          assumption
        refine Evolves.ite ?_ ?_
        · refine repair_ev ?_
          refine raise_ev ?_
          assumption
        · assumption
  · assumption

theorem winCheck_ev {org : Mach} {c rd wr m} (h_m : Evolves org m) :
    Evolves org (winCheck c rd wr m) := by
  delta winCheck
  extract_lets x1 x2
  refine whenM_ev (fun _ _ => ?_) ?_
  · refine raise_ev ?_
    refine healthLog_ev ?_
    assumption
  · assumption

theorem trainedNow_ev {org : Mach} {c m} (h_m : Evolves org m) :
    Evolves org (trainedNow c m) := by
  delta trainedNow
  refine onHlt_ev ?_
  assumption

theorem resumeAfter_ev {org : Mach} {m} (h_m : Evolves org m) :
    Evolves org (resumeAfter m) := by
  delta resumeAfter
  refine Evolves.ite ?_ ?_
  · assumption
  · extract_lets x1
    have hx1 : Evolves org x1 := by
      unfold x1
      refine eachM_ev (fun _ _ _ => ?_) ?_
      · refine onMpl_ev ?_
        assumption
      · assumption
    clear_value x1
    refine whenM_ev (fun _ _ => ?_) ?_
    · refine jobResume_ev ?_
      assumption
    · refine onJob_ev ?_
      assumption

theorem retrainOver_ev {org : Mach} {c ok rd wr m} (h_m : Evolves org m) :
    Evolves org (retrainOver c ok rd wr m) := by
  delta retrainOver
  refine Evolves.ite ?_ ?_
  · assumption
  · refine resumeAfter_ev ?_
    refine whenM_ev (fun _ _ => ?_) ?_
    · refine winCheck_ev ?_
      assumption
    · refine trainedNow_ev ?_
      refine retrainEnd_ev ?_
      assumption

theorem hltCmd_ev {org : Mach} {w m} (h_m : Evolves org m) :
    Evolves org (hltCmd w m) := by
  delta hltCmd
  refine Evolves.ite ?_ ?_
  · refine refuse_ev ?_
    assumption
  · refine eachM_ev (fun _ _ _ => ?_) ?_
    · refine calStart_ev ?_
      assumption
    · assumption

theorem execTempRead_ev {org : Mach} {core io mv s} (h_s : Evolves org s.m) :
    OutEv org (execTempRead core io mv s) := by
  delta execTempRead
  refine act_ev (fun _ _ => ?_) h_s
  refine tempRead_ev ?_
  assumption

theorem execThrottleTimer_ev {org : Mach} {s} (h_s : Evolves org s.m) :
    OutEv org (execThrottleTimer s) := by
  delta execThrottleTimer
  refine act_ev (fun _ _ => ?_) h_s
  refine throttleElapsed_ev ?_
  assumption

theorem execThermalShutdown_ev {org : Mach} {s} (h_s : Evolves org s.m) :
    OutEv org (execThermalShutdown s) := by
  delta execThermalShutdown
  refine act_ev (fun _ _ => ?_) h_s
  refine thermalShutdown_ev ?_
  assumption

theorem execCanaryLimit_ev {org : Mach} {s} (h_s : Evolves org s.m) :
    OutEv org (execCanaryLimit s) := by
  delta execCanaryLimit
  refine act_ev (fun _ _ => ?_) h_s
  refine canary_ev ?_
  assumption

theorem execVcoreMismatch_ev {org : Mach} {mv s} (h_s : Evolves org s.m) :
    OutEv org (execVcoreMismatch mv s) := by
  delta execVcoreMismatch
  refine act_ev (fun _ _ => ?_) h_s
  refine vcoreOff_ev ?_
  assumption

theorem execTouchstoneMeasure_ev {org : Mach} {dMax s} (h_s : Evolves org s.m) :
    OutEv org (execTouchstoneMeasure dMax s) := by
  delta execTouchstoneMeasure
  refine act_ev (fun _ _ => ?_) h_s
  refine touchstone_ev ?_
  assumption

theorem execMarginHourlyCheck_ev {org : Mach} {s} (h_s : Evolves org s.m) :
    OutEv org (execMarginHourlyCheck s) := by
  delta execMarginHourlyCheck
  refine act_ev (fun _ _ => ?_) h_s
  refine spareWatch_ev (fun _ _ => ?_) ?_
  · refine hourly_ev ?_
    assumption
  · assumption

theorem execEyeScanSchedule_ev {org : Mach} {s} (h_s : Evolves org s.m) :
    OutEv org (execEyeScanSchedule s) := by
  delta execEyeScanSchedule
  refine act_ev (fun _ _ => ?_) h_s
  refine eyeSchedule_ev ?_
  assumption

theorem execEyeScanDone_ev {org : Mach} {l w h s} (h_s : Evolves org s.m) :
    OutEv org (execEyeScanDone l w h s) := by
  delta execEyeScanDone
  refine act_ev (fun _ _ => ?_) h_s
  refine eyeDone_ev ?_
  assumption

theorem execLaneRetrainRequest_ev {org : Mach} {l s} (h_s : Evolves org s.m) :
    OutEv org (execLaneRetrainRequest l s) := by
  delta execLaneRetrainRequest
  refine act_ev (fun _ _ => ?_) h_s
  refine laneRequest_ev ?_
  assumption

theorem execLaserMonSample_ev {org : Mach} {b s} (h_s : Evolves org s.m) :
    OutEv org (execLaserMonSample b s) := by
  delta execLaserMonSample
  refine act_ev (fun _ _ => ?_) h_s
  refine laserSample_ev ?_
  assumption

theorem execLaserRatioUpdate_ev {org : Mach} {b s} (h_s : Evolves org s.m) :
    OutEv org (execLaserRatioUpdate b s) := by
  delta execLaserRatioUpdate
  refine act_ev (fun _ _ => ?_) h_s
  refine laserUpdate_ev ?_
  assumption

theorem execLaserEvaluation_ev {org : Mach} {b s} (h_s : Evolves org s.m) :
    OutEv org (execLaserEvaluation b s) := by
  delta execLaserEvaluation
  refine act_ev (fun _ _ => ?_) h_s
  refine laserEval_ev ?_
  assumption

theorem execNotchMeasure_ev {org : Mach} {e peak edge s} (h_s : Evolves org s.m) :
    OutEv org (execNotchMeasure e peak edge s) := by
  delta execNotchMeasure
  refine act_ev (fun _ _ => ?_) h_s
  refine notchMeasure_ev ?_
  assumption

theorem execNotchRetuneCommit_ev {org : Mach} {e s} (h_s : Evolves org s.m) :
    OutEv org (execNotchRetuneCommit e s) := by
  delta execNotchRetuneCommit
  refine act_ev (fun _ _ => ?_) h_s
  refine notchCommit_ev ?_
  assumption

theorem execCal_ev {org : Mach} {p hi s} (h_s : Evolves org s.m) :
    OutEv org (execCal p hi s) := by
  delta execCal
  refine act_ev (fun _ _ => ?_) h_s
  refine writeGate_ev (fun _ _ => ?_) ?_
  · refine hltCmd_ev ?_
    assumption
  · assumption

theorem execCalRunDone_ev {org : Mach} {u r s} (h_s : Evolves org s.m) :
    OutEv org (execCalRunDone u r s) := by
  delta execCalRunDone
  refine act_ev (fun _ _ => ?_) h_s
  refine calRunDone_ev ?_
  assumption

theorem execCalStep_ev {org : Mach} {u s} (h_s : Evolves org s.m) :
    OutEv org (execCalStep u s) := by
  delta execCalStep
  refine act_ev (fun _ _ => ?_) h_s
  refine calStep_ev ?_
  assumption

theorem execMr4Poll_ev {org : Mach} {t0 t1 r0 r1 h0 h1 s} (h_s : Evolves org s.m) :
    OutEv org (execMr4Poll t0 t1 r0 r1 h0 h1 s) := by
  delta execMr4Poll
  refine act_ev (fun _ _ => ?_) h_s
  refine mr4Poll_ev ?_
  assumption

theorem execRetrainEnd_ev {org : Mach} {c ok rd wr env s} (h_s : Evolves org s.m) :
    OutEv org (execRetrainEnd c ok rd wr s env) := by
  delta execRetrainEnd
  refine act_ev (fun _ _ => ?_) h_s
  refine withEnv_ev (fun _ _ => ?_) ?_
  · refine retrainOver_ev ?_
    assumption
  · assumption

end Sys2Proof.Machine
end

