-- ==== Sys2Proof/Laws/Evolve/TimeOps.lean ====
section
/-!
SUPPORT. What Machine/TimeOps.lean does never undoes what Laws/Evolve/Base.lean names: one lemma per operation.
-/

namespace Sys2Proof.Machine

theorem mapSet_ev {org : Mach} {t m} (h_m : Evolves org m) :
    Evolves org (mapSet t m) := by
  delta mapSet
  refine onTime_ev ?_
  assumption

theorem ntStep_ev {org : Mach} {o m} (h_m : Evolves org m) :
    Evolves org (ntStep o m) := by
  delta ntStep
  extract_lets x1 x2
  split
  · extract_lets x3
    have hx3 : Evolves org x3 := by
      unfold x3
      refine mapSet_ev ?_
      assumption
    clear_value x3
    refine logClass_ev ?_
    refine raise_ev ?_
    assumption

theorem mapChange_ev {org : Mach} {dt sec ns rate m} (h_m : Evolves org m) :
    Evolves org (mapChange dt sec ns rate m) := by
  delta mapChange
  refine Evolves.ite ?_ ?_
  · refine mapSet_ev ?_
    assumption
  · assumption

theorem rtcFollow_ev {org : Mach} {m} (h_m : Evolves org m) :
    Evolves org (rtcFollow m) := by
  delta rtcFollow
  refine Evolves.ite ?_ ?_
  · refine Evolves.upd ?_ rfl rfl rfl rfl rfl rfl rfl rfl rfl
    assumption
  · assumption

theorem servoOffset_ev {org : Mach} {o m0} (h_m0 : Evolves org m0) :
    Evolves org (servoOffset o m0) := by
  delta servoOffset
  extract_lets x1 x2 x3 x4 x5 x6 x7
  have hx1 : Evolves org x1 := by
    unfold x1
    refine takeRecord_ev ?_
    assumption
  clear_value x1
  have hx6 : Evolves org x6 := by
    unfold x6
    refine onTime_ev ?_
    assumption
  clear_value x6
  have hx7 : Evolves org x7 := by
    unfold x7
    refine whenM_ev (fun _ _ => ?_) ?_
    · refine ntStep_ev ?_
      assumption
    · assumption
  clear_value x7
  split
  · refine Evolves.ite ?_ ?_
    · refine raise_ev ?_
      refine onTime_ev ?_
      assumption
    · assumption
  · refine Evolves.ite ?_ ?_
    · assumption
    · refine onTime_ev ?_
      assumption
  · assumption

theorem ptpRx_ev {org : Mach} {p type i m} (h_m : Evolves org m) :
    Evolves org (ptpRx p type i m) := by
  delta ptpRx
  refine Evolves.ite ?_ ?_
  · assumption
  · extract_lets x1 x2 x3 x4 x5
    have hx3 : Evolves org x3 := by
      unfold x3
      refine onTime_ev ?_
      assumption
    clear_value x3
    have hx5 : Evolves org x5 := by
      unfold x5
      refine Evolves.ite ?_ ?_
      · refine onTime_ev ?_
        assumption
      · assumption
    clear_value x5
    split
    · refine Evolves.ite ?_ ?_
      · refine rtcFollow_ev ?_
        refine servoOffset_ev ?_
        assumption
      · assumption
    · assumption

theorem masterLost_ev {org : Mach} {m} (h_m : Evolves org m) :
    Evolves org (masterLost m) := by
  delta masterLost
  refine Evolves.ite ?_ ?_
  · refine logClass_ev ?_
    refine raise_ev ?_
    refine onTime_ev ?_
    assumption
  · assumption

theorem ptpTx_ev {org : Mach} {p bs udp m} (h_m : Evolves org m) :
    Evolves org (ptpTx p bs udp m) := by
  delta ptpTx
  refine Evolves.ite ?_ ?_
  · assumption
  · extract_lets x1 x2
    refine emit_ev ?_
    assumption

theorem timeSnap_ev {org : Mach} {w m} (h_m : Evolves org m) :
    Evolves org (timeSnap w m) := by
  delta timeSnap
  refine Evolves.ite ?_ ?_
  · refine cmdError_ev ?_
    assumption
  · split
    · refine raise_ev ?_
      refine onTime_ev ?_
      assumption

theorem onLaneTime_ev {org : Mach} {l f m} (h_m : Evolves org m) :
    Evolves org (onLaneTime l f m) := by
  delta onLaneTime
  refine onTime_ev ?_
  assumption

theorem tsyncOn_ev {org : Mach} {l m} (h_m : Evolves org m) :
    Evolves org (tsyncOn l m) := by
  delta tsyncOn
  extract_lets x1 x2 x3
  have hx3 : Evolves org x3 := by
    unfold x3
    refine sendOn_ev ?_
    refine bucketCredit_ev ?_
    assumption
  clear_value x3
  refine onLaneTime_ev ?_
  assumption

theorem tsyncSend_ev {org : Mach} {m} (h_m : Evolves org m) :
    Evolves org (tsyncSend m) := by
  delta tsyncSend
  refine eachM_ev (fun _ _ _ => ?_) ?_
  · refine tsyncOn_ev ?_
    assumption
  · assumption

theorem alignJudge_ev {org : Mach} {h off m} (h_m : Evolves org m) :
    Evolves org (alignJudge h off m) := by
  delta alignJudge
  extract_lets x1 x2 x3 x4 x5 x6 x7 x8
  have hx7 : Evolves org x7 := by
    unfold x7
    refine onTime_ev ?_
    assumption
  clear_value x7
  have hx8 : Evolves org x8 := by
    unfold x8
    refine whenM_ev (fun _ _ => ?_) ?_
    · refine raise_ev ?_
      assumption
    · assumption
  clear_value x8
  refine Evolves.dite (fun _ => ?_) (fun _ => ?_)
  · refine Evolves.ite ?_ ?_
    · refine retire_ev ?_
      refine log_ev ?_
      assumption
    · assumption
  · assumption

theorem tsyncAnswer_ev {org : Mach} {l f m} (h_m : Evolves org m) :
    Evolves org (tsyncAnswer l f m) := by
  delta tsyncAnswer
  extract_lets x1 x2 x3 x4 x5 x6 x7 x8 x9 x10 x11 x12
  have hx2 : Evolves org x2 := by
    unfold x2
    refine takeRecord_ev ?_
    assumption
  clear_value x2
  have hx12 : Evolves org x12 := by
    unfold x12
    refine onLaneTime_ev ?_
    assumption
  clear_value x12
  split
  · refine onTime_ev ?_
    assumption
  · refine Evolves.ite ?_ ?_
    · refine alignJudge_ev ?_
      assumption
    · assumption

theorem execPtpEventRx_ev {org : Mach} {p type i s} (h_s : Evolves org s.m) :
    OutEv org (execPtpEventRx p type i s) := by
  delta execPtpEventRx
  refine act_ev (fun _ _ => ?_) h_s
  refine ptpRx_ev ?_
  assumption

theorem execPtpTx_ev {org : Mach} {p bytes udp s} (h_s : Evolves org s.m) :
    OutEv org (execPtpTx p bytes udp s) := by
  delta execPtpTx
  refine act_ev (fun _ _ => ?_) h_s
  refine ptpTx_ev ?_
  assumption

theorem execMasterLost_ev {org : Mach} {s} (h_s : Evolves org s.m) :
    OutEv org (execMasterLost s) := by
  delta execMasterLost
  refine act_ev (fun _ _ => ?_) h_s
  refine masterLost_ev ?_
  assumption

theorem execTimeMapChange_ev {org : Mach} {dt sec ns rate s} (h_s : Evolves org s.m) :
    OutEv org (execTimeMapChange dt sec ns rate s) := by
  delta execTimeMapChange
  refine act_ev (fun _ _ => ?_) h_s
  refine mapChange_ev ?_
  assumption

theorem execTimeSnap_ev {org : Mach} {p v s} (h_s : Evolves org s.m) :
    OutEv org (execTimeSnap p v s) := by
  delta execTimeSnap
  refine act_ev (fun _ _ => ?_) h_s
  refine writeGate_ev (fun _ _ => ?_) ?_
  · refine timeSnap_ev ?_
    assumption
  · assumption

theorem execTsyncSend_ev {org : Mach} {s} (h_s : Evolves org s.m) :
    OutEv org (execTsyncSend s) := by
  delta execTsyncSend
  refine act_ev (fun _ _ => ?_) h_s
  refine tsyncSend_ev ?_
  assumption

theorem execTsyncRFrame_ev {org : Mach} {l f s} (h_s : Evolves org s.m) :
    OutEv org (execTsyncRFrame l f s) := by
  delta execTsyncRFrame
  refine act_ev (fun _ _ => ?_) h_s
  refine rxFrame_ev (fun _ _ => ?_) ?_
  · refine tsyncAnswer_ev ?_
    assumption
  · assumption

end Sys2Proof.Machine
end

