-- ==== Sys2Proof/Laws/Evolve/IlkOps.lean ====
section
/-!
SUPPORT. What Machine/IlkOps.lean does never undoes what Laws/Evolve/Base.lean names: one lemma per operation.
-/

namespace Sys2Proof.Machine

theorem endingSlugs_ev {org : Mach} {m} (h_m : Evolves org m) :
    Evolves org (endingSlugs m) := by
  delta endingSlugs
  refine eachM_ev (fun _ _ _ => ?_) ?_
  · refine Evolves.ite ?_ ?_
    · assumption
    · refine Evolves.ite ?_ ?_
      · refine slugEndOp_ev ?_
        assumption
      · refine releaseNext_ev ?_
        refine recordEnd_ev ?_
        assumption
  · assumption

theorem inhibitJob_ev {org : Mach} {m} (h_m : Evolves org m) :
    Evolves org (inhibitJob m) := by
  delta inhibitJob
  refine Evolves.ite ?_ ?_
  · assumption
  · split
    · extract_lets x1
      have hx1 : Evolves org x1 := by
        unfold x1
        refine endingSlugs_ev ?_
        assumption
      clear_value x1
      refine Evolves.ite ?_ ?_
      · refine stopExposing_ev ?_
        assumption
      · assumption
    · refine jobAddCause_ev ?_
      assumption
    · refine jobAddCause_ev ?_
      assumption
    · assumption

theorem inhibitFall_ev {org : Mach} {ch m} (h_m : Evolves org m) :
    Evolves org (inhibitFall ch m) := by
  delta inhibitFall
  refine Evolves.ite ?_ ?_
  · assumption
  · extract_lets x1 x2
    have hx2 : Evolves org x2 := by
      unfold x2
      refine onIlk_ev ?_
      assumption
    clear_value x2
    refine inhibitJob_ev ?_
    refine pinsFollow_ev ?_
    refine whenM_ev (fun _ _ => ?_) ?_
    · refine raise_ev ?_
      assumption
    · assumption

theorem inhibitRise_ev {org : Mach} {ch m} (h_m : Evolves org m) :
    Evolves org (inhibitRise ch m) := by
  delta inhibitRise
  refine Evolves.ite ?_ ?_
  · assumption
  · refine onIlk_ev ?_
    assumption

theorem latchRearm_ev {org : Mach} {m} (h_m : Evolves org m) :
    Evolves org (latchRearm m) := by
  delta latchRearm
  refine Evolves.ite ?_ ?_
  · refine pinsFollow_ev ?_
    refine raise_ev ?_
    refine onIlk_ev ?_
    assumption
  · assumption

theorem discrepancy_ev {org : Mach} {m} (h_m : Evolves org m) :
    Evolves org (discrepancy m) := by
  delta discrepancy
  refine Evolves.ite ?_ ?_
  · assumption
  · extract_lets x1
    have hx1 : Evolves org x1 := by
      unfold x1
      refine ilkDrive_ev ?_
      refine raise_ev ?_
      refine onIlk_ev ?_
      assumption
    clear_value x1
    refine faultSafeHold_ev ?_
    assumption

theorem onMod_ev {org : Mach} {a f m} (h_m : Evolves org m) :
    Evolves org (onMod a f m) := by
  delta onMod
  refine onIlk_ev ?_
  assumption

theorem lampInhibit_ev {org : Mach} {m} (h_m : Evolves org m) :
    Evolves org (lampInhibit m) := by
  delta lampInhibit
  refine Evolves.ite ?_ ?_
  · assumption
  · refine inhibitJob_ev ?_
    refine pinsFollow_ev ?_
    refine raise_ev ?_
    refine onIlk_ev ?_
    assumption

theorem modFail_ev {org : Mach} {a reason m} (h_m : Evolves org m) :
    Evolves org (modFail a reason m) := by
  delta modFail
  extract_lets x1 x2 x3
  have hx2 : Evolves org x2 := by
    unfold x2
    refine raise_ev ?_
    refine onMod_ev ?_
    assumption
  clear_value x2
  have hx3 : Evolves org x3 := by
    unfold x3
    refine log_ev ?_
    assumption
  clear_value x3
  refine Evolves.ite ?_ ?_
  · refine onMod_ev ?_
    assumption
  · refine whenM_ev (fun _ _ => ?_) ?_
    · refine lampInhibit_ev ?_
      assumption
    · assumption

theorem pollMissed_ev {org : Mach} {a m} (h_m : Evolves org m) :
    Evolves org (pollMissed a m) := by
  delta pollMissed
  extract_lets x1 x2
  have hx1 : Evolves org x1 := by
    unfold x1
    refine onMod_ev ?_
    assumption
  clear_value x1
  have hx2 : Evolves org x2 := by
    unfold x2
    refine raise_ev ?_
    refine onIlk_ev ?_
    assumption
  clear_value x2
  refine Evolves.ite ?_ ?_
  · refine modFail_ev ?_
    assumption
  · assumption

theorem statusReply_ev {org : Mach} {a ch m} (h_m : Evolves org m) :
    Evolves org (statusReply a ch m) := by
  delta statusReply
  extract_lets x1 x2 x3
  have hx3 : Evolves org x3 := by
    unfold x3
    refine onMod_ev ?_
    assumption
  clear_value x3
  refine Evolves.ite ?_ ?_
  · refine modFail_ev ?_
    assumption
  · assumption

theorem lampReply_ev {org : Mach} {a bs m} (h_m : Evolves org m) :
    Evolves org (lampReply a bs m) := by
  delta lampReply
  refine Evolves.ite ?_ ?_
  · assumption
  · extract_lets x1 x2 x3 x4 x5 x6
    have hx5 : Evolves org x5 := by
      unfold x5
      refine onMod_ev ?_
      assumption
    clear_value x5
    have hx6 : Evolves org x6 := by
      unfold x6
      refine onMod_ev ?_
      assumption
    clear_value x6
    refine Evolves.ite ?_ ?_
    · refine pollMissed_ev ?_
      refine raise_ev ?_
      refine onIlk_ev ?_
      assumption
    · clear_value x1
      split
      · refine statusReply_ev ?_
        assumption
      · refine Evolves.ite ?_ ?_
        · refine modFail_ev ?_
          assumption
        · assumption
      · refine onIlk_ev ?_
        assumption
      · assumption

theorem pollSend_ev {org : Mach} {cmd a m} (h_m : Evolves org m) :
    Evolves org (pollSend cmd a m) := by
  delta pollSend
  refine lampSend_ev ?_
  refine onMod_ev ?_
  assumption

theorem rotate_ev {org : Mach} {m} (h_m : Evolves org m) :
    Evolves org (rotate m) := by
  delta rotate
  extract_lets x1
  split
  · refine pollSend_ev ?_
    refine onIlk_ev ?_
    assumption
  · assumption

theorem pollCycle_ev {org : Mach} {n m} (h_m : Evolves org m) :
    Evolves org (pollCycle n m) := by
  delta pollCycle
  refine Evolves.ite ?_ ?_
  · assumption
  · refine repeat_ev (fun _ _ => ?_) ?_
    · refine rotate_ev ?_
      assumption
    · refine eachM_ev (fun _ _ _ => ?_) ?_
      · refine pollSend_ev ?_
        assumption
      · assumption

theorem ilkCmd_ev {org : Mach} {w m} (h_m : Evolves org m) :
    Evolves org (ilkCmd w m) := by
  delta ilkCmd
  extract_lets x1
  refine Evolves.ite ?_ ?_
  · refine refuse_ev ?_
    assumption
  · split
    · refine Evolves.ite ?_ ?_
      · refine refuse_ev ?_
        assumption
      · refine Evolves.ite ?_ ?_
        · refine pinsFollow_ev ?_
          refine raise_ev ?_
          refine onIlk_ev ?_
          assumption
        · assumption
    · refine Evolves.ite ?_ ?_
      · refine refuse_ev ?_
        assumption
      · refine Evolves.ite ?_ ?_
        · refine onJob_ev ?_
          assumption
        · refine applyScene_ev ?_
          assumption
    · refine refuse_ev ?_
      assumption

theorem alSend_ev {org : Mach} {m} (h_m : Evolves org m) :
    Evolves org (alSend m) := by
  delta alSend
  refine Evolves.ite ?_ ?_
  · refine emit_ev ?_
    assumption
  · assumption

theorem gainStep_ev {org : Mach} {kc t r g m} (h_m : Evolves org m) :
    Evolves org (gainStep kc t r g m).2 := by
  delta gainStep
  refine Evolves.ite2 ?_ ?_
  · split
    · rename_i heq
      refine Evolves.let2 (b := org) heq ?_ (fun _ => ?_)
      · refine drawWord_ev ?_
        assumption
      refine Evolves.mk2 ?_
      assumption
  · refine Evolves.mk2 ?_
    assumption

theorem feedbackSend_ev {org : Mach} {g m} (h_m : Evolves org m) :
    Evolves org (feedbackSend g m) := by
  delta feedbackSend
  extract_lets x1
  refine Evolves.ite ?_ ?_
  · assumption
  · refine sendGroup_ev ?_
    refine onIlk_ev ?_
    assumption

theorem feedback_ev {org : Mach} {m0} (h_m0 : Evolves org m0) :
    Evolves org (feedback m0) := by
  delta feedback
  refine Evolves.ite ?_ ?_
  · assumption
  · extract_lets x1 x2 x3 x4
    have hx1 : Evolves org x1 := by
      unfold x1
      refine pollSend_ev ?_
      refine takeRecord_ev ?_
      assumption
    clear_value x1
    refine Evolves.ite ?_ ?_
    · assumption
    · split
      · rename_i heq
        refine Evolves.let2 (b := org) heq ?_ (fun _ => ?_)
        · refine foldl2_ev (fun _ _ _ => ?_) ?_
          · split
            · rename_i heq
              refine Evolves.let2 (b := org) heq ?_ (fun _ => ?_)
              · refine gainStep_ev ?_
                assumption
              refine Evolves.mk2 ?_
              assumption
          · refine Evolves.mk2 ?_
            assumption
        extract_lets x5 x6 x7
        have hx6 : Evolves org x6 := by
          unfold x6
          refine onIlk_ev ?_
          assumption
        clear_value x6
        have hx7 : Evolves org x7 := by
          unfold x7
          refine whenM_ev (fun _ _ => ?_) ?_
          · refine raise_ev ?_
            assumption
          · assumption
        clear_value x7
        refine eachM_ev (fun _ _ _ => ?_) ?_
        · refine feedbackSend_ev ?_
          assumption
        · assumption

theorem blink_ev {org : Mach} {g m} (h_m : Evolves org m) :
    Evolves org (blink g m) := by
  delta blink
  refine Evolves.ite ?_ ?_
  · refine sendGroup_ev ?_
    refine onIlk_ev ?_
    assumption
  · assumption

theorem execInhibitFall_ev {org : Mach} {ch s} (h_s : Evolves org s.m) :
    OutEv org (execInhibitFall ch s) := by
  delta execInhibitFall
  refine act_ev (fun _ _ => ?_) h_s
  refine inhibitFall_ev ?_
  assumption

theorem execInhibitRise_ev {org : Mach} {ch s} (h_s : Evolves org s.m) :
    OutEv org (execInhibitRise ch s) := by
  delta execInhibitRise
  refine act_ev (fun _ _ => ?_) h_s
  refine inhibitRise_ev ?_
  assumption

theorem execInputLatchRearm_ev {org : Mach} {s} (h_s : Evolves org s.m) :
    OutEv org (execInputLatchRearm s) := by
  delta execInputLatchRearm
  refine act_ev (fun _ _ => ?_) h_s
  refine latchRearm_ev ?_
  assumption

theorem execDiscrepancyFault_ev {org : Mach} {s} (h_s : Evolves org s.m) :
    OutEv org (execDiscrepancyFault s) := by
  delta execDiscrepancyFault
  refine act_ev (fun _ _ => ?_) h_s
  refine discrepancy_ev ?_
  assumption

theorem execLampAck_ev {org : Mach} {p hi s} (h_s : Evolves org s.m) :
    OutEv org (execLampAck p hi s) := by
  delta execLampAck
  refine act_ev (fun _ _ => ?_) h_s
  refine writeGate_ev (fun _ _ => ?_) ?_
  · refine ilkCmd_ev ?_
    assumption
  · assumption

theorem execScene_ev {org : Mach} {p hi s} (h_s : Evolves org s.m) :
    OutEv org (execScene p hi s) := by
  delta execScene
  refine act_ev (fun _ _ => ?_) h_s
  refine writeGate_ev (fun _ _ => ?_) ?_
  · refine ilkCmd_ev ?_
    assumption
  · assumption

theorem execLampPollCycle_ev {org : Mach} {n s} (h_s : Evolves org s.m) :
    OutEv org (execLampPollCycle n s) := by
  delta execLampPollCycle
  refine act_ev (fun _ _ => ?_) h_s
  refine pollCycle_ev ?_
  assumption

theorem execLampReply_ev {org : Mach} {a bytes s} (h_s : Evolves org s.m) :
    OutEv org (execLampReply a bytes s) := by
  delta execLampReply
  refine act_ev (fun _ _ => ?_) h_s
  refine lampReply_ev ?_
  assumption

theorem execLampPollMissed_ev {org : Mach} {a s} (h_s : Evolves org s.m) :
    OutEv org (execLampPollMissed a s) := by
  delta execLampPollMissed
  refine act_ev (fun _ _ => ?_) h_s
  refine Evolves.ite ?_ ?_
  · assumption
  · refine pollMissed_ev ?_
    assumption

theorem execNotMeasuredTimeout_ev {org : Mach} {a s} (h_s : Evolves org s.m) :
    OutEv org (execNotMeasuredTimeout a s) := by
  delta execNotMeasuredTimeout
  refine act_ev (fun _ _ => ?_) h_s
  refine Evolves.ite ?_ ?_
  · refine modFail_ev ?_
    assumption
  · assumption

theorem execAlFrameSend_ev {org : Mach} {s} (h_s : Evolves org s.m) :
    OutEv org (execAlFrameSend s) := by
  delta execAlFrameSend
  refine act_ev (fun _ _ => ?_) h_s
  refine alSend_ev ?_
  assumption

theorem execColourFeedback_ev {org : Mach} {s} (h_s : Evolves org s.m) :
    OutEv org (execColourFeedback s) := by
  delta execColourFeedback
  refine act_ev (fun _ _ => ?_) h_s
  refine feedback_ev ?_
  assumption

theorem execBlinkToggle_ev {org : Mach} {g s} (h_s : Evolves org s.m) :
    OutEv org (execBlinkToggle g s) := by
  delta execBlinkToggle
  refine act_ev (fun _ _ => ?_) h_s
  refine blink_ev ?_
  assumption

end Sys2Proof.Machine
end

