-- ==== Sys2Proof/Laws/Evolve/ClockOps.lean ====
section
/-!
SUPPORT. What Machine/ClockOps.lean does never undoes what Laws/Evolve/Base.lean names: one lemma per operation.
-/

namespace Sys2Proof.Machine

theorem onClk_ev {org : Mach} {f m} (h_m : Evolves org m) :
    Evolves org (onClk f m) := by
  delta onClk
  refine Evolves.upd ?_ rfl rfl rfl rfl rfl rfl rfl rfl rfl
  assumption

theorem onAon_ev {org : Mach} {f m} (h_m : Evolves org m) :
    Evolves org (onAon f m) := by
  delta onAon
  refine Evolves.upd ?_ rfl rfl rfl rfl rfl rfl rfl rfl rfl
  assumption

theorem setLock_ev {org : Mach} {i v z2} (h_z2 : Evolves org z2) :
    Evolves org (setLock i v z2) := by
  delta setLock
  refine onClk_ev ?_
  assumption

theorem xtalFail_ev {org : Mach} {m} (h_m : Evolves org m) :
    Evolves org (xtalFail m) := by
  delta xtalFail
  refine Evolves.ite ?_ ?_
  · assumption
  · refine raise_ev ?_
    refine onAon_ev ?_
    refine onClk_ev ?_
    assumption

theorem xtalQualified_ev {org : Mach} {m} (h_m : Evolves org m) :
    Evolves org (xtalQualified m) := by
  delta xtalQualified
  refine onAon_ev ?_
  refine onClk_ev ?_
  assumption

theorem clkOutWrite_ev {org : Mach} {p c v m} (h_m : Evolves org m) :
    Evolves org (clkOutWrite p c v m) := by
  delta clkOutWrite
  extract_lets x1 x2 x3
  refine Evolves.ite ?_ ?_
  · refine accErr_ev ?_
    assumption
  · refine onClk_ev ?_
    assumption

theorem switchDone_ev {org : Mach} {c m} (h_m : Evolves org m) :
    Evolves org (switchDone c m) := by
  delta switchDone
  extract_lets x1
  split
  · refine Evolves.ite ?_ ?_
    · refine onClk_ev ?_
      assumption
    · assumption
  · assumption

theorem switchStuck_ev {org : Mach} {c m} (h_m : Evolves org m) :
    Evolves org (switchStuck c m) := by
  delta switchStuck
  extract_lets x1
  refine Evolves.ite ?_ ?_
  · assumption
  · refine logClass_ev ?_
    refine raise_ev ?_
    refine onClk_ev ?_
    assumption

theorem gateRequest_ev {org : Mach} {p v m} (h_m : Evolves org m) :
    Evolves org (gateRequest p v m) := by
  delta gateRequest
  refine Evolves.ite ?_ ?_
  · assumption
  · extract_lets x1 x2
    refine onClk_ev ?_
    assumption

theorem gateClose_ev {org : Mach} {i m} (h_m : Evolves org m) :
    Evolves org (gateClose i m) := by
  delta gateClose
  refine Evolves.ite ?_ ?_
  · refine onClk_ev ?_
    assumption
  · assumption

theorem gateTimeout_ev {org : Mach} {i m} (h_m : Evolves org m) :
    Evolves org (gateTimeout i m) := by
  delta gateTimeout
  refine Evolves.ite ?_ ?_
  · assumption
  · extract_lets x1
    have hx1 : Evolves org x1 := by
      unfold x1
      refine onClk_ev ?_
      assumption
    clear_value x1
    refine logClass_ev ?_
    refine raise_ev ?_
    assumption

theorem domainReset_ev {org m : Mach} (h_m : Evolves org m) : Evolves org (domainReset m) := by
  delta domainReset
  exact h_m.trans ⟨id, fun w => filter_mapWf w, fun _ => rfl, id, id, List.prefix_rfl, fun _ w => w, List.suffix_rfl, Nat.le_refl _⟩

theorem attemptCut_ev {org : Mach} {m} (h_m : Evolves org m) :
    Evolves org (attemptCut m) := by
  delta attemptCut
  refine Evolves.ite ?_ ?_
  · refine Evolves.upd ?_ rfl rfl rfl rfl rfl rfl rfl rfl rfl
    assumption
  · assumption

theorem monitorTrip_ev {org : Mach} {cause m} (h_m : Evolves org m) :
    Evolves org (monitorTrip cause m) := by
  delta monitorTrip
  refine Evolves.ite ?_ ?_
  · assumption
  · extract_lets x1 x2 x3
    have hx1 : Evolves org x1 := by
      unfold x1
      refine ilkDrive_ev ?_
      refine onClk_ev ?_
      assumption
    clear_value x1
    have hx2 : Evolves org x2 := by
      unfold x2
      refine onClk_ev ?_
      assumption
    clear_value x2
    have hx3 : Evolves org x3 := by
      unfold x3
      refine raise_ev ?_
      refine domainReset_ev ?_
      refine attemptCut_ev ?_
      assumption
    clear_value x3
    refine onTime_ev ?_
    assumption

theorem fallbackRc_ev {org : Mach} {m} (h_m : Evolves org m) :
    Evolves org (fallbackRc m) := by
  delta fallbackRc
  refine Evolves.ite ?_ ?_
  · refine onClk_ev ?_
    assumption
  · assumption

theorem lateStamp_ev {org : Mach} {m} (h_m : Evolves org m) :
    Evolves org (lateStamp m) := by
  delta lateStamp
  refine Evolves.ite ?_ ?_
  · refine onIlk_ev ?_
    assumption
  · assumption

theorem timeSetUp_ev {org : Mach} {q m} (h_m : Evolves org m) :
    Evolves org (timeSetUp q m) := by
  delta timeSetUp
  extract_lets x1
  refine onTime_ev ?_
  assumption

theorem fallbackPll_ev {org : Mach} {gap m} (h_m : Evolves org m) :
    Evolves org (fallbackPll gap m) := by
  delta fallbackPll
  refine Evolves.ite ?_ ?_
  · assumption
  · extract_lets x1
    have hx1 : Evolves org x1 := by
      unfold x1
      refine onTime_ev ?_
      refine timeSetUp_ev ?_
      assumption
    clear_value x1
    refine lateStamp_ev ?_
    refine onClk_ev ?_
    assumption

theorem chamberStart_ev {org : Mach} {m} (h_m : Evolves org m) :
    Evolves org (chamberStart m) := by
  delta chamberStart
  refine eachM_ev (fun _ _ _ => ?_) ?_
  · refine ctxStart_ev ?_
    assumption
  · assumption

theorem fallbackFirmware_ev {org : Mach} {digestOk m} (h_m : Evolves org m) :
    Evolves org (fallbackFirmware digestOk m) := by
  delta fallbackFirmware
  refine Evolves.ite ?_ ?_
  · assumption
  · refine Evolves.ite ?_ ?_
    · refine onClk_ev ?_
      assumption
    · extract_lets x1
      have hx1 : Evolves org x1 := by
        unfold x1
        refine faultInto_ev ?_
        refine onClk_ev ?_
        assumption
      clear_value x1
      refine chamberStart_ev ?_
      assumption

theorem fallbackTimeout_ev {org : Mach} {m} (h_m : Evolves org m) :
    Evolves org (fallbackTimeout m) := by
  delta fallbackTimeout
  refine Evolves.ite ?_ ?_
  · refine onClk_ev ?_
    assumption
  · assumption

theorem backupStopped_ev {org : Mach} {m} (h_m : Evolves org m) :
    Evolves org (backupStopped m) := by
  delta backupStopped
  refine Evolves.ite ?_ ?_
  · refine onTime_ev ?_
    refine onClk_ev ?_
    refine domainReset_ev ?_
    assumption
  · assumption

theorem halfDown_ev {org : Mach} {south m} (h_m : Evolves org m) :
    Evolves org (halfDown south m) := by
  delta halfDown
  refine eachM_ev (fun _ _ _ => ?_) ?_
  · refine laneDetect_ev ?_
    assumption
  · assumption

theorem pwmStop_ev {org : Mach} {m} (h_m : Evolves org m) :
    Evolves org (pwmStop m) := by
  delta pwmStop
  refine eachM_ev (fun _ _ _ => ?_) ?_
  · refine onAxis_ev ?_
    assumption
  · assumption

theorem pllUnlock_ev {org : Mach} {i lost m} (h_m : Evolves org m) :
    Evolves org (pllUnlock i lost m) := by
  delta pllUnlock
  refine Evolves.ite ?_ ?_
  · assumption
  · extract_lets x1 x2 x3 x4 x5
    have hx1 : Evolves org x1 := by
      unfold x1
      refine raise_ev ?_
      refine setLock_ev ?_
      assumption
    clear_value x1
    have hx2 : Evolves org x2 := by
      unfold x2
      refine linkLoss_ev ?_
      assumption
    clear_value x2
    split
    · refine faultSafeHold_ev ?_
      assumption
    · refine halfDown_ev ?_
      assumption
    · refine halfDown_ev ?_
      assumption
    · refine Evolves.upd ?_ rfl rfl rfl rfl rfl rfl rfl rfl rfl
      assumption
    · refine faultSafeHold_ev ?_
      refine pwmStop_ev ?_
      assumption

theorem pllRelock_ev {org : Mach} {i m} (h_m : Evolves org m) :
    Evolves org (pllRelock i m) := by
  delta pllRelock
  refine Evolves.ite ?_ ?_
  · assumption
  · extract_lets x1
    have hx1 : Evolves org x1 := by
      unfold x1
      refine setLock_ev ?_
      assumption
    clear_value x1
    refine Evolves.ite ?_ ?_
    · refine eachM_ev (fun _ _ _ => ?_) ?_
      · refine onAxis_ev ?_
        assumption
      · assumption
    · assumption

theorem vbatLow_ev {org : Mach} {low m} (h_m : Evolves org m) :
    Evolves org (vbatLow low m) := by
  delta vbatLow
  refine whenM_ev (fun _ _ => ?_) ?_
  · refine raise_ev ?_
    assumption
  · assumption

theorem powerGoodLost_ev {org : Mach} {d m} (h_m : Evolves org m) :
    Evolves org (powerGoodLost d m) := by
  delta powerGoodLost
  refine Evolves.ite ?_ ?_
  · assumption
  · refine faultSafeHold_ev ?_
    refine raise_ev ?_
    assumption

theorem execXtal32Fail_ev {org : Mach} {s} (h_s : Evolves org s.m) :
    OutEv org (execXtal32Fail s) := by
  delta execXtal32Fail
  refine act_ev (fun _ _ => ?_) h_s
  refine xtalFail_ev ?_
  assumption

theorem execXtal32Qualified_ev {org : Mach} {s} (h_s : Evolves org s.m) :
    OutEv org (execXtal32Qualified s) := by
  delta execXtal32Qualified
  refine act_ev (fun _ _ => ?_) h_s
  refine xtalQualified_ev ?_
  assumption

theorem execClkoutSrcWrite_ev {org : Mach} {p c v s} (h_s : Evolves org s.m) :
    OutEv org (execClkoutSrcWrite p c v s) := by
  delta execClkoutSrcWrite
  refine act_ev (fun _ _ => ?_) h_s
  refine writeGate_ev (fun _ _ => ?_) ?_
  · refine clkOutWrite_ev ?_
    assumption
  · assumption

theorem execClkoutSwitchDone_ev {org : Mach} {c s} (h_s : Evolves org s.m) :
    OutEv org (execClkoutSwitchDone c s) := by
  delta execClkoutSwitchDone
  refine act_ev (fun _ _ => ?_) h_s
  refine switchDone_ev ?_
  assumption

theorem execSwitchStuck_ev {org : Mach} {c s} (h_s : Evolves org s.m) :
    OutEv org (execSwitchStuck c s) := by
  delta execSwitchStuck
  refine act_ev (fun _ _ => ?_) h_s
  refine switchStuck_ev ?_
  assumption

theorem execClkGateRequest_ev {org : Mach} {p v s} (h_s : Evolves org s.m) :
    OutEv org (execClkGateRequest p v s) := by
  delta execClkGateRequest
  refine act_ev (fun _ _ => ?_) h_s
  refine writeGate_ev (fun _ _ => ?_) ?_
  · refine gateRequest_ev ?_
    assumption
  · assumption

theorem execGateClose_ev {org : Mach} {i s} (h_s : Evolves org s.m) :
    OutEv org (execGateClose i s) := by
  delta execGateClose
  refine act_ev (fun _ _ => ?_) h_s
  refine gateClose_ev ?_
  assumption

theorem execGateTimeout_ev {org : Mach} {i s} (h_s : Evolves org s.m) :
    OutEv org (execGateTimeout i s) := by
  delta execGateTimeout
  refine act_ev (fun _ _ => ?_) h_s
  refine gateTimeout_ev ?_
  assumption

theorem execClockMonitorTrip_ev {org : Mach} {cause s} (h_s : Evolves org s.m) :
    OutEv org (execClockMonitorTrip cause s) := by
  delta execClockMonitorTrip
  refine act_ev (fun _ _ => ?_) h_s
  refine monitorTrip_ev ?_
  assumption

theorem execFallbackRcQualified_ev {org : Mach} {s} (h_s : Evolves org s.m) :
    OutEv org (execFallbackRcQualified s) := by
  delta execFallbackRcQualified
  refine act_ev (fun _ _ => ?_) h_s
  refine fallbackRc_ev ?_
  assumption

theorem execFallbackPllLocked_ev {org : Mach} {gap s} (h_s : Evolves org s.m) :
    OutEv org (execFallbackPllLocked gap s) := by
  delta execFallbackPllLocked
  refine act_ev (fun _ _ => ?_) h_s
  refine fallbackPll_ev ?_
  assumption

theorem execFallbackFirmwareReady_ev {org : Mach} {digestOk s} (h_s : Evolves org s.m) :
    OutEv org (execFallbackFirmwareReady digestOk s) := by
  delta execFallbackFirmwareReady
  refine act_ev (fun _ _ => ?_) h_s
  refine fallbackFirmware_ev ?_
  assumption

theorem execFallbackTimeout_ev {org : Mach} {s} (h_s : Evolves org s.m) :
    OutEv org (execFallbackTimeout s) := by
  delta execFallbackTimeout
  refine act_ev (fun _ _ => ?_) h_s
  refine fallbackTimeout_ev ?_
  assumption

theorem execBackupRcStopped_ev {org : Mach} {s} (h_s : Evolves org s.m) :
    OutEv org (execBackupRcStopped s) := by
  delta execBackupRcStopped
  refine act_ev (fun _ _ => ?_) h_s
  refine backupStopped_ev ?_
  assumption

theorem execPllUnlock_ev {org : Mach} {i lost s} (h_s : Evolves org s.m) :
    OutEv org (execPllUnlock i s lost) := by
  delta execPllUnlock
  refine act_ev (fun _ _ => ?_) h_s
  refine pllUnlock_ev ?_
  assumption

theorem execPllRelock_ev {org : Mach} {i s} (h_s : Evolves org s.m) :
    OutEv org (execPllRelock i s) := by
  delta execPllRelock
  refine act_ev (fun _ _ => ?_) h_s
  refine pllRelock_ev ?_
  assumption

theorem execVbatLowSample_ev {org : Mach} {low s} (h_s : Evolves org s.m) :
    OutEv org (execVbatLowSample low s) := by
  delta execVbatLowSample
  refine act_ev (fun _ _ => ?_) h_s
  refine vbatLow_ev ?_
  assumption

theorem execPowerGoodLost_ev {org : Mach} {d s} (h_s : Evolves org s.m) :
    OutEv org (execPowerGoodLost d s) := by
  delta execPowerGoodLost
  refine act_ev (fun _ _ => ?_) h_s
  refine powerGoodLost_ev ?_
  assumption

end Sys2Proof.Machine
end

