-- ==== Sys2Proof/Laws/Evolve/ResetOps.lean ====
section
/-!
SUPPORT. What Machine/ResetOps.lean does never undoes what Laws/Evolve/Base.lean names: one lemma per operation.
-/

namespace Sys2Proof.Machine

theorem resetMach_ev {org : Mach} {dev warm power cause m} (h_m : Evolves org m) :
    Evolves org (resetMach dev warm power cause m) := by
  refine h_m.trans ⟨fun w => ?_, fun w => ?_, fun _ => rfl, id, id, List.prefix_rfl, fun _ w => w, List.suffix_rfl, Nat.le_refl _⟩
  · cases warm
    · rfl
    · exact w
  · cases power
    · exact filter_mapWf w
    · rfl

theorem retainTime_ev {org : Mach} {m} (h_m : Evolves org m) :
    Evolves org (retainTime m) := by
  delta retainTime
  refine onAon_ev ?_
  assumption

theorem preserveSave_ev {org : Mach} {m} (h_m : Evolves org m) :
    Evolves org (preserveSave m).2 := by
  delta preserveSave
  refine Evolves.ite2 ?_ ?_
  · refine Evolves.ite2 ?_ ?_
    · refine Evolves.mk2 ?_
      refine retainTime_ev ?_
      assumption
    · refine Evolves.mk2 ?_
      assumption
  · refine Evolves.ite2 ?_ ?_
    · refine Evolves.mk2 ?_
      assumption
    · extract_lets x1
      have hx1 : Evolves org x1 := by
        unfold x1
        refine eachM_ev (fun _ _ _ => ?_) ?_
        · refine beamStop_ev ?_
          assumption
        · assumption
      clear_value x1
      split
      · rename_i heq
        refine Evolves.let2 (b := org) heq ?_ (fun _ => ?_)
        · refine drawRandom_ev ?_
          assumption
        extract_lets x2 x3
        have hx3 : Evolves org x3 := by
          unfold x3
          refine retainTime_ev ?_
          refine onAon_ev ?_
          assumption
        clear_value x3
        refine Evolves.mk2 ?_
        refine Evolves.upd ?_ rfl rfl rfl rfl rfl rfl rfl rfl rfl
        assumption

theorem fullReset_ev {org : Mach} {cause held m} (h_m : Evolves org m) :
    Evolves org (fullReset cause held m) := by
  delta fullReset
  refine Evolves.ite ?_ ?_
  · assumption
  · extract_lets x1
    have hx1 : Evolves org x1 := by
      unfold x1
      refine ilkDrive_ev ?_
      refine onIlk_ev ?_
      assumption
    clear_value x1
    split
    · rename_i heq
      refine Evolves.let2 (b := org) heq ?_ (fun _ => ?_)
      · refine Evolves.ite2 ?_ ?_
        · refine preserveSave_ev ?_
          assumption
        · refine Evolves.mk2 ?_
          assumption
      extract_lets x2 x3
      have hx2 : Evolves org x2 := by
        unfold x2
        refine resetMach_ev ?_
        refine attemptCut_ev ?_
        assumption
      clear_value x2
      refine Evolves.upd ?_ rfl rfl rfl rfl rfl rfl rfl rfl rfl
      assumption

theorem resetKey_ev {org : Mach} {p v m} (h_m : Evolves org m) :
    Evolves org (resetKey p v m) := by
  delta resetKey
  extract_lets x1 x2
  have hf_x2 : ∀ a0 m, Evolves org m → Evolves org (x2 a0 m) := by
    intro a0 m hm
    unfold x2
    refine onPort_ev ?_
    assumption
  clear_value x2
  refine Evolves.ite ?_ ?_
  · apply hf_x2
    assumption
  · refine Evolves.ite ?_ ?_
    · refine fullReset_ev ?_
      assumption
    · refine raise_ev ?_
      apply hf_x2
      assumption

theorem keyWindowEnd_ev {org : Mach} {p m} (h_m : Evolves org m) :
    Evolves org (keyWindowEnd p m) := by
  delta keyWindowEnd
  refine Evolves.ite ?_ ?_
  · refine raise_ev ?_
    refine onPort_ev ?_
    assumption
  · assumption

theorem powerBoot_ev {org : Mach} {cause m} (h_m : Evolves org m) :
    Evolves org (powerBoot cause m) := by
  delta powerBoot
  extract_lets x1
  have hx1 : Evolves org x1 := by
    unfold x1
    refine resetMach_ev ?_
    assumption
  clear_value x1
  refine onAon_ev ?_
  assumption

theorem powerTry_ev {org : Mach} {m} (h_m : Evolves org m) :
    Evolves org (powerTry m) := by
  delta powerTry
  refine Evolves.ite ?_ ?_
  · refine powerBoot_ev ?_
    assumption
  · assumption

theorem vbatRise_ev {org : Mach} {m} (h_m : Evolves org m) :
    Evolves org (vbatRise m) := by
  delta vbatRise
  refine Evolves.ite ?_ ?_
  · assumption
  · extract_lets x1 x2 x3
    have hx1 : Evolves org x1 := by
      unfold x1
      refine Evolves.upd ?_ rfl rfl rfl rfl rfl rfl rfl rfl rfl
      assumption
    refine Evolves.ite ?_ ?_
    · refine Evolves.upd ?_ rfl rfl rfl rfl rfl rfl rfl rfl rfl
      assumption
    · assumption

theorem vbatFall_ev {org : Mach} {m} (h_m : Evolves org m) :
    Evolves org (vbatFall m) := by
  delta vbatFall
  extract_lets x1 x2 x3
  have hx1 : Evolves org x1 := by
    unfold x1
    refine onAon_ev ?_
    assumption
  clear_value x1
  refine Evolves.ite ?_ ?_
  · refine Evolves.upd ?_ rfl rfl rfl rfl rfl rfl rfl rfl rfl
    assumption
  · assumption

theorem mainUp_ev {org : Mach} {refSel m} (h_m : Evolves org m) :
    Evolves org (mainUp refSel m) := by
  delta mainUp
  refine Evolves.ite ?_ ?_
  · assumption
  · refine powerTry_ev ?_
    refine onAon_ev ?_
    assumption

theorem mainLoss_ev {org : Mach} {m} (h_m : Evolves org m) :
    Evolves org (mainLoss m) := by
  delta mainLoss
  refine Evolves.ite ?_ ?_
  · assumption
  · extract_lets x1 x2 x3 x4 x5 x6 x7
    have hx2 : Evolves org x2 := by
      unfold x2
      refine attemptCut_ev ?_
      assumption
    clear_value x2
    have hx5 : Evolves org x5 := by
      unfold x5
      refine Evolves.upd ?_ rfl rfl rfl rfl rfl rfl rfl rfl rfl
      assumption
    clear_value x5
    have hx6 : Evolves org x6 := by
      unfold x6
      refine resetMach_ev ?_
      assumption
    clear_value x6
    refine Evolves.upd ?_ rfl rfl rfl rfl rfl rfl rfl rfl rfl
    assumption

theorem wake_ev {org : Mach} {m} (h_m : Evolves org m) :
    Evolves org (wake m) := by
  delta wake
  refine powerTry_ev ?_
  refine onAon_ev ?_
  assumption

theorem wakeRequest_ev {org : Mach} {m} (h_m : Evolves org m) :
    Evolves org (wakeRequest m) := by
  delta wakeRequest
  refine Evolves.ite ?_ ?_
  · refine wake_ev ?_
    assumption
  · refine Evolves.ite ?_ ?_
    · refine onClk_ev ?_
      assumption
    · assumption

theorem wakeEdge_ev {org : Mach} {rising m} (h_m : Evolves org m) :
    Evolves org (wakeEdge rising m) := by
  delta wakeEdge
  extract_lets x1
  refine Evolves.ite ?_ ?_
  · refine wakeRequest_ev ?_
    assumption
  · assumption

theorem rtcAlarm_ev {org : Mach} {m} (h_m : Evolves org m) :
    Evolves org (rtcAlarm m) := by
  delta rtcAlarm
  refine Evolves.ite ?_ ?_
  · refine wake_ev ?_
    assumption
  · assumption

theorem resetNLow_ev {org : Mach} {m} (h_m : Evolves org m) :
    Evolves org (resetNLow m) := by
  delta resetNLow
  refine onAon_ev ?_
  refine fullReset_ev ?_
  assumption

theorem flashDriven_ev {org : Mach} {f m} (h_m : Evolves org m) : Evolves org (flashDriven f m) := by
  have hc : ∀ (cs l : List Host.Cell), mapWf (fun _ => 0xFF#8) l = true →
      mapWf (fun _ => 0xFF#8) (cs.foldl (fun l c => put (fun _ => 0xFF#8) l c.1 c.2) l) = true := by
    intro cs
    induction cs with
    | nil => exact fun _ w => w
    | cons c t ih => exact fun l w => ih _ (put_mapWf w)
  exact Evolves.ite h_m (h_m.boots (fun _ => hc _ [] rfl) (fun _ => hc _ [] rfl) List.prefix_rfl (fun _ w => w))

theorem resetNRise_ev {org : Mach} {flash m0} (h_m0 : Evolves org m0) :
    Evolves org (resetNRise flash m0) := by
  delta resetNRise
  extract_lets x1 x2 x3
  have hx1 : Evolves org x1 := by
    unfold x1
    split
    · refine flashDriven_ev ?_
      assumption
    · assumption
  clear_value x1
  refine powerTry_ev ?_
  refine Evolves.upd ?_ rfl rfl rfl rfl rfl rfl rfl rfl rfl
  assumption

theorem buildEnter_ev {org : Mach} {dev cause m} (h_m : Evolves org m) :
    Evolves org (buildEnter dev cause m) := by
  delta buildEnter
  extract_lets x1
  have hx1 : Evolves org x1 := by
    unfold x1
    refine whenM_ev (fun _ _ => ?_) ?_
    · refine onIlk_ev ?_
      assumption
    · assumption
  clear_value x1
  refine devMove_ev ?_
  assumption

theorem glbStart_ev {org : Mach} {proof m} (h_m : Evolves org m) :
    Evolves org (glbStart proof m) := by
  delta glbStart
  refine Evolves.ite ?_ ?_
  · refine cmdError_ev ?_
    assumption
  · extract_lets x1 x2 x3
    have hx1 : Evolves org x1 := by
      unfold x1
      refine hmStart_ev ?_
      refine Evolves.upd ?_ rfl rfl rfl rfl rfl rfl rfl rfl rfl
      assumption
    clear_value x1
    have hx2 : Evolves org x2 := by
      unfold x2
      refine buildEnter_ev ?_
      refine onTime_ev ?_
      assumption
    clear_value x2
    have hx3 : Evolves org x3 := by
      unfold x3
      refine jobMove_ev ?_
      assumption
    clear_value x3
    refine jobTest_ev ?_
    refine whenM_ev (fun _ _ => ?_) ?_
    · refine hostAbsentBegin_ev ?_
      assumption
    · assumption

theorem glbEnd_ev {org : Mach} {m} (h_m : Evolves org m) :
    Evolves org (glbEnd m) := by
  delta glbEnd
  refine Evolves.ite ?_ ?_
  · refine layerOver_ev ?_
    refine devMove_ev ?_
    refine onJob_ev ?_
    assumption
  · refine cmdError_ev ?_
    assumption

theorem glbStandby_ev {org : Mach} {m} (h_m : Evolves org m) :
    Evolves org (glbStandby m) := by
  delta glbStandby
  refine Evolves.ite ?_ ?_
  · refine cmdError_ev ?_
    assumption
  · refine onClk_ev ?_
    refine axesHalt_ev ?_
    refine eachM_ev (fun _ _ _ => ?_) ?_
    · refine parkSend_ev ?_
      assumption
    · assumption

theorem standbyGo_ev {org : Mach} {m} (h_m : Evolves org m) :
    Evolves org (standbyGo m) := by
  delta standbyGo
  refine Evolves.ite ?_ ?_
  · assumption
  · extract_lets x1 x2 x3 x4
    have hx2 : Evolves org x2 := by
      unfold x2
      refine logFlush_ev ?_
      refine log_ev ?_
      assumption
    clear_value x2
    have hx3 : Evolves org x3 := by
      unfold x3
      refine onAon_ev ?_
      assumption
    clear_value x3
    have hx4 : Evolves org x4 := by
      unfold x4
      refine onClk_ev ?_
      refine resetMach_ev ?_
      assumption
    clear_value x4
    refine Evolves.ite ?_ ?_
    · refine wake_ev ?_
      assumption
    · assumption

theorem glbSafeHold_ev {org : Mach} {m} (h_m : Evolves org m) :
    Evolves org (glbSafeHold m) := by
  delta glbSafeHold
  refine Evolves.ite ?_ ?_
  · refine enterSafe_ev ?_
    assumption
  · refine cmdError_ev ?_
    assumption

theorem glbCmd_ev {org : Mach} {w m} (h_m : Evolves org m) :
    Evolves org (glbCmd w m) := by
  delta glbCmd
  refine Evolves.ite ?_ ?_
  · refine cmdError_ev ?_
    assumption
  · split
    · refine glbStart_ev ?_
      assumption
    · refine glbEnd_ev ?_
      assumption
    · refine glbStandby_ev ?_
      assumption
    · refine glbSafeHold_ev ?_
      assumption
    · refine cmdError_ev ?_
      assumption

theorem execVbatRise_ev {org : Mach} {s} (h_s : Evolves org s.m) :
    OutEv org (execVbatRise s) := by
  delta execVbatRise
  refine act_ev (fun _ _ => ?_) h_s
  refine vbatRise_ev ?_
  assumption

theorem execVbatFall_ev {org : Mach} {s} (h_s : Evolves org s.m) :
    OutEv org (execVbatFall s) := by
  delta execVbatFall
  refine act_ev (fun _ _ => ?_) h_s
  refine vbatFall_ev ?_
  assumption

theorem execMainSupplyUp_ev {org : Mach} {refSel s} (h_s : Evolves org s.m) :
    OutEv org (execMainSupplyUp s refSel) := by
  delta execMainSupplyUp
  refine act_ev (fun _ _ => ?_) h_s
  refine mainUp_ev ?_
  assumption

theorem execMainSupplyLoss_ev {org : Mach} {s} (h_s : Evolves org s.m) :
    OutEv org (execMainSupplyLoss s) := by
  delta execMainSupplyLoss
  refine act_ev (fun _ _ => ?_) h_s
  refine mainLoss_ev ?_
  assumption

theorem execWakeEdge_ev {org : Mach} {rising s} (h_s : Evolves org s.m) :
    OutEv org (execWakeEdge rising s) := by
  delta execWakeEdge
  refine act_ev (fun _ _ => ?_) h_s
  refine wakeEdge_ev ?_
  assumption

theorem execRtcAlarm_ev {org : Mach} {s} (h_s : Evolves org s.m) :
    OutEv org (execRtcAlarm s) := by
  delta execRtcAlarm
  refine act_ev (fun _ _ => ?_) h_s
  refine rtcAlarm_ev ?_
  assumption

theorem execResetNLow_ev {org : Mach} {s} (h_s : Evolves org s.m) :
    OutEv org (execResetNLow s) := by
  delta execResetNLow
  refine act_ev (fun _ _ => ?_) h_s
  refine resetNLow_ev ?_
  assumption

theorem execResetNRise_ev {org : Mach} {flash s} (h_s : Evolves org s.m) :
    OutEv org (execResetNRise s flash) := by
  delta execResetNRise
  refine act_ev (fun _ _ => ?_) h_s
  refine resetNRise_ev ?_
  assumption

theorem execResetKeyOpen_ev {org : Mach} {p s} (h_s : Evolves org s.m) :
    OutEv org (execResetKeyOpen p s) := by
  delta execResetKeyOpen
  refine act_ev (fun _ _ => ?_) h_s
  refine writeGate_ev (fun _ _ => ?_) ?_
  · refine resetKey_ev ?_
    assumption
  · assumption

theorem execResetKeyConfirm_ev {org : Mach} {p s} (h_s : Evolves org s.m) :
    OutEv org (execResetKeyConfirm p s) := by
  delta execResetKeyConfirm
  refine act_ev (fun _ _ => ?_) h_s
  refine writeGate_ev (fun _ _ => ?_) ?_
  · refine resetKey_ev ?_
    assumption
  · assumption

theorem execResetKeyInvalid_ev {org : Mach} {p v s} (h_s : Evolves org s.m) :
    OutEv org (execResetKeyInvalid p v s) := by
  delta execResetKeyInvalid
  refine act_ev (fun _ _ => ?_) h_s
  refine writeGate_ev (fun _ _ => ?_) ?_
  · refine resetKey_ev ?_
    assumption
  · assumption

theorem execResetKeyWindowEnd_ev {org : Mach} {p s} (h_s : Evolves org s.m) :
    OutEv org (execResetKeyWindowEnd p s) := by
  delta execResetKeyWindowEnd
  refine act_ev (fun _ _ => ?_) h_s
  refine keyWindowEnd_ev ?_
  assumption

theorem execGlbStart_ev {org : Mach} {p hi env s} (h_s : Evolves org s.m) :
    OutEv org (execGlbStart p hi s env) := by
  delta execGlbStart
  refine act_ev (fun _ _ => ?_) h_s
  refine withEnv_ev (fun _ _ => ?_) ?_
  · refine writeGate_ev (fun _ _ => ?_) ?_
    · refine glbCmd_ev ?_
      assumption
    · assumption
  · assumption

theorem execGlbEnd_ev {org : Mach} {p hi s} (h_s : Evolves org s.m) :
    OutEv org (execGlbEnd p hi s) := by
  delta execGlbEnd
  refine act_ev (fun _ _ => ?_) h_s
  refine writeGate_ev (fun _ _ => ?_) ?_
  · refine glbCmd_ev ?_
    assumption
  · assumption

theorem execGlbStandby_ev {org : Mach} {p hi s} (h_s : Evolves org s.m) :
    OutEv org (execGlbStandby p hi s) := by
  delta execGlbStandby
  refine act_ev (fun _ _ => ?_) h_s
  refine writeGate_ev (fun _ _ => ?_) ?_
  · refine glbCmd_ev ?_
    assumption
  · assumption

theorem execStandbySequenceResume_ev {org : Mach} {s} (h_s : Evolves org s.m) :
    OutEv org (execStandbySequenceResume s) := by
  delta execStandbySequenceResume
  refine act_ev (fun _ _ => ?_) h_s
  refine standbyGo_ev ?_
  assumption

theorem execGlbSafeHold_ev {org : Mach} {p hi s} (h_s : Evolves org s.m) :
    OutEv org (execGlbSafeHold p hi s) := by
  delta execGlbSafeHold
  refine act_ev (fun _ _ => ?_) h_s
  refine writeGate_ev (fun _ _ => ?_) ?_
  · refine glbCmd_ev ?_
    assumption
  · assumption

end Sys2Proof.Machine
end

