-- ==== Sys2Proof/Laws/Evolve/StageOps.lean ====
section
/-!
SUPPORT. What Machine/StageOps.lean does never undoes what Laws/Evolve/Base.lean names: one lemma per operation.
-/

namespace Sys2Proof.Machine

theorem stgStatus_ev {org : Mach} {a op result z3} (h_z3 : Evolves org z3) :
    Evolves org (stgStatus a op result z3) := by
  delta stgStatus
  refine onAxis_ev ?_
  assumption

theorem stgRefuse_ev {org : Mach} {a op result m} (h_m : Evolves org m) :
    Evolves org (stgRefuse a op result m) := by
  delta stgRefuse
  refine refuse_ev ?_
  refine stgStatus_ev ?_
  assumption

theorem stgMove_ev {org : Mach} {a op goal m} (h_m : Evolves org m) :
    Evolves org (stgMove a op goal m) := by
  delta stgMove
  extract_lets x1
  refine Evolves.ite ?_ ?_
  · refine stgRefuse_ev ?_
    assumption
  · refine Evolves.ite ?_ ?_
    · refine stgRefuse_ev ?_
      assumption
    · refine Evolves.ite ?_ ?_
      · refine stgRefuse_ev ?_
        assumption
      · refine Evolves.ite ?_ ?_
        · refine stgRefuse_ev ?_
          assumption
        · split
          · refine stgStatus_ev ?_
            refine moveBegin_ev ?_
            assumption
          · extract_lets x2
            have hx2 : Evolves org x2 := by
              unfold x2
              refine stgRefuse_ev ?_
              assumption
            clear_value x2
            refine Evolves.ite ?_ ?_
            · refine raise_ev ?_
              assumption
            · assumption

theorem stgStop_ev {org : Mach} {a m} (h_m : Evolves org m) :
    Evolves org (stgStop a m) := by
  delta stgStop
  extract_lets x1 x2
  have hx2 : Evolves org x2 := by
    unfold x2
    refine Evolves.ite ?_ ?_
    · refine homeAbort_ev ?_
      assumption
    · refine axStop_ev ?_
      assumption
  clear_value x2
  refine Evolves.ite ?_ ?_
  · refine stgRefuse_ev ?_
    assumption
  · refine Evolves.ite ?_ ?_
    · refine stgRefuse_ev ?_
      assumption
    · refine stgStatus_ev ?_
      assumption

theorem stgResume_ev {org : Mach} {a m} (h_m : Evolves org m) :
    Evolves org (stgResume a m) := by
  delta stgResume
  extract_lets x1
  refine Evolves.ite ?_ ?_
  · refine stgRefuse_ev ?_
    assumption
  · refine stgMove_ev ?_
    assumption

theorem stgHome_ev {org : Mach} {a m} (h_m : Evolves org m) :
    Evolves org (stgHome a m) := by
  delta stgHome
  extract_lets x1
  refine Evolves.ite ?_ ?_
  · refine stgRefuse_ev ?_
    assumption
  · refine Evolves.ite ?_ ?_
    · refine stgRefuse_ev ?_
      assumption
    · refine Evolves.ite ?_ ?_
      · refine stgRefuse_ev ?_
        assumption
      · refine Evolves.ite ?_ ?_
        · refine stgRefuse_ev ?_
          assumption
        · refine stgStatus_ev ?_
          refine homeBegin_ev ?_
          assumption

theorem stgClear_ev {org : Mach} {a m} (h_m : Evolves org m) :
    Evolves org (stgClear a m) := by
  delta stgClear
  extract_lets x1
  refine Evolves.ite ?_ ?_
  · refine stgRefuse_ev ?_
    assumption
  · refine Evolves.ite ?_ ?_
    · refine stgRefuse_ev ?_
      assumption
    · refine stgStatus_ev ?_
      refine onAxis_ev ?_
      assumption

theorem stgCmpClear_ev {org : Mach} {a m} (h_m : Evolves org m) :
    Evolves org (stgCmpClear a m) := by
  delta stgCmpClear
  refine Evolves.ite ?_ ?_
  · refine stgRefuse_ev ?_
    assumption
  · refine Evolves.ite ?_ ?_
    · refine stgRefuse_ev ?_
      assumption
    · refine stgStatus_ev ?_
      refine onAxis_ev ?_
      assumption

theorem stgCmd_ev {org : Mach} {a w m} (h_m : Evolves org m) :
    Evolves org (stgCmd a w m) := by
  delta stgCmd
  refine Evolves.ite ?_ ?_
  · refine refuse_ev ?_
    assumption
  · split
    · refine stgMove_ev ?_
      assumption
    · refine stgMove_ev ?_
      assumption
    · refine stgStop_ev ?_
      assumption
    · refine stgResume_ev ?_
      assumption
    · refine stgHome_ev ?_
      assumption
    · refine stgClear_ev ?_
      assumption
    · refine stgCmpClear_ev ?_
      assumption
    · refine refuse_ev ?_
      assumption

theorem cmpPush_ev {org : Mach} {a w m} (h_m : Evolves org m) :
    Evolves org (cmpPush a w m) := by
  delta cmpPush
  extract_lets x1 x2 x3 x4
  have hx4 : Evolves org x4 := by
    unfold x4
    refine onAxis_ev ?_
    assumption
  clear_value x4
  refine Evolves.ite ?_ ?_
  · refine refuse_ev ?_
    assumption
  · refine Evolves.ite ?_ ?_
    · refine raise_ev ?_
      assumption
    · refine Evolves.ite ?_ ?_
      · refine cmpArm_ev ?_
        assumption
      · assumption

theorem execMoveAbs_ev {org : Mach} {p a hi s} (h_s : Evolves org s.m) :
    OutEv org (execMoveAbs p a hi s) := by
  delta execMoveAbs
  refine act_ev (fun _ _ => ?_) h_s
  refine writeGate_ev (fun _ _ => ?_) ?_
  · refine stgCmd_ev ?_
    assumption
  · assumption

theorem execMoveRel_ev {org : Mach} {p a hi s} (h_s : Evolves org s.m) :
    OutEv org (execMoveRel p a hi s) := by
  delta execMoveRel
  refine act_ev (fun _ _ => ?_) h_s
  refine writeGate_ev (fun _ _ => ?_) ?_
  · refine stgCmd_ev ?_
    assumption
  · assumption

theorem execAxisStop_ev {org : Mach} {p a hi s} (h_s : Evolves org s.m) :
    OutEv org (execAxisStop p a hi s) := by
  delta execAxisStop
  refine act_ev (fun _ _ => ?_) h_s
  refine writeGate_ev (fun _ _ => ?_) ?_
  · refine stgCmd_ev ?_
    assumption
  · assumption

theorem execAxisResume_ev {org : Mach} {p a hi s} (h_s : Evolves org s.m) :
    OutEv org (execAxisResume p a hi s) := by
  delta execAxisResume
  refine act_ev (fun _ _ => ?_) h_s
  refine writeGate_ev (fun _ _ => ?_) ?_
  · refine stgCmd_ev ?_
    assumption
  · assumption

theorem execHome_ev {org : Mach} {p a hi s} (h_s : Evolves org s.m) :
    OutEv org (execHome p a hi s) := by
  delta execHome
  refine act_ev (fun _ _ => ?_) h_s
  refine writeGate_ev (fun _ _ => ?_) ?_
  · refine stgCmd_ev ?_
    assumption
  · assumption

theorem execClear_ev {org : Mach} {p a hi s} (h_s : Evolves org s.m) :
    OutEv org (execClear p a hi s) := by
  delta execClear
  refine act_ev (fun _ _ => ?_) h_s
  refine writeGate_ev (fun _ _ => ?_) ?_
  · refine stgCmd_ev ?_
    assumption
  · assumption

theorem execCmpClear_ev {org : Mach} {p a hi s} (h_s : Evolves org s.m) :
    OutEv org (execCmpClear p a hi s) := by
  delta execCmpClear
  refine act_ev (fun _ _ => ?_) h_s
  refine writeGate_ev (fun _ _ => ?_) ?_
  · refine stgCmd_ev ?_
    assumption
  · assumption

theorem execCmpPush_ev {org : Mach} {p a v s} (h_s : Evolves org s.m) :
    OutEv org (execCmpPush p a v s) := by
  delta execCmpPush
  refine act_ev (fun _ _ => ?_) h_s
  refine writeGate_ev (fun _ _ => ?_) ?_
  · refine cmpPush_ev ?_
    assumption
  · assumption

theorem motionTake_ev {org : Mach} {a m0} (h_m0 : Evolves org m0) :
    Evolves org (motionTake a m0) := by
  delta motionTake
  refine Evolves.ite ?_ ?_
  · assumption
  · extract_lets x1 x2 x3 x4 x5
    have hx1 : Evolves org x1 := by
      unfold x1
      refine takeRecord_ev ?_
      assumption
    clear_value x1
    refine Evolves.ite ?_ ?_
    · assumption
    · refine Evolves.ite ?_ ?_
      · refine onAxis_ev ?_
        assumption
      · refine raise_ev ?_
        refine onAxis_ev ?_
        assumption

theorem homingUpdate_ev {org : Mach} {a h m} (h_m : Evolves org m) :
    Evolves org (homingUpdate a h m) := by
  delta homingUpdate
  extract_lets x1 x2 x3 x4 x5 x6 x7
  refine Evolves.ite ?_ ?_
  · refine homeAbort_ev ?_
    assumption
  · refine Evolves.ite ?_ ?_
    · refine Evolves.ite ?_ ?_
      · refine onAxis_ev ?_
        assumption
      · refine Evolves.ite ?_ ?_
        · refine homeEnd_ev ?_
          assumption
        · refine onAxis_ev ?_
          assumption
    · refine onAxis_ev ?_
      assumption

theorem rateTick_ev {org : Mach} {a m} (h_m : Evolves org m) :
    Evolves org (rateTick a m) := by
  delta rateTick
  refine onAxis_ev ?_
  assumption

theorem profileUpdate_ev {org : Mach} {a m0} (h_m0 : Evolves org m0) :
    Evolves org (profileUpdate a m0) := by
  delta profileUpdate
  extract_lets x1 x2 x3 x4 x5 x6 x7 x8 x9
  have hx1 : Evolves org x1 := by
    unfold x1
    refine motionTake_ev ?_
    refine rateTick_ev ?_
    assumption
  clear_value x1
  split
  · split
    · refine Evolves.ite ?_ ?_
      · refine onAxis_ev ?_
        assumption
      · refine onAxis_ev ?_
        assumption
  · refine Evolves.ite ?_ ?_
    · refine onAxis_ev ?_
      assumption
    · split
      · refine onAxis_ev ?_
        assumption
  · split
    · refine homingUpdate_ev ?_
      assumption
    · assumption
  · assumption

theorem microstep_ev {org : Mach} {a m} (h_m : Evolves org m) :
    Evolves org (microstep a m) := by
  delta microstep
  extract_lets x1 x2 x3
  have hx3 : Evolves org x3 := by
    unfold x3
    refine oneStep_ev ?_
    refine onAxis_ev ?_
    assumption
  clear_value x3
  refine Evolves.ite ?_ ?_
  · assumption
  · refine Evolves.ite ?_ ?_
    · refine onAxis_ev ?_
      assumption
    · assumption

theorem targetReached_ev {org : Mach} {a m} (h_m : Evolves org m) :
    Evolves org (targetReached a m) := by
  delta targetReached
  extract_lets x1
  refine Evolves.ite ?_ ?_
  · refine raise_ev ?_
    refine moveEnded_ev ?_
    refine onAxis_ev ?_
    assumption
  · assumption

theorem moveOn_ev {org : Mach} {a m} (h_m : Evolves org m) :
    Evolves org (moveOn a m) := by
  delta moveOn
  refine Evolves.ite ?_ ?_
  · extract_lets x1
    have hx1 : Evolves org x1 := by
      unfold x1
      refine onJob_ev ?_
      assumption
    clear_value x1
    split
    · refine Evolves.ite ?_ ?_
      · assumption
      · refine jobMoveAxis_ev ?_
        assumption
    · assumption
  · assumption

theorem atRest_ev {org : Mach} {a m} (h_m : Evolves org m) :
    Evolves org (atRest a m) := by
  delta atRest
  refine Evolves.ite ?_ ?_
  · refine moveOn_ev ?_
    refine axAtRest_ev ?_
    assumption
  · assumption

theorem execProfileUpdate_ev {org : Mach} {a s} (h_s : Evolves org s.m) :
    OutEv org (execProfileUpdate a s) := by
  delta execProfileUpdate
  refine act_ev (fun _ _ => ?_) h_s
  refine profileUpdate_ev ?_
  assumption

theorem execMicrostep_ev {org : Mach} {a s} (h_s : Evolves org s.m) :
    OutEv org (execMicrostep a s) := by
  delta execMicrostep
  refine act_ev (fun _ _ => ?_) h_s
  refine microstep_ev ?_
  assumption

theorem execAxisTargetReached_ev {org : Mach} {a s} (h_s : Evolves org s.m) :
    OutEv org (execAxisTargetReached a s) := by
  delta execAxisTargetReached
  refine act_ev (fun _ _ => ?_) h_s
  refine targetReached_ev ?_
  assumption

theorem execAxisAtRest_ev {org : Mach} {a s} (h_s : Evolves org s.m) :
    OutEv org (execAxisAtRest a s) := by
  delta execAxisAtRest
  refine act_ev (fun _ _ => ?_) h_s
  refine atRest_ev ?_
  assumption

theorem encCounts_ev {org : Mach} {a n m} (h_m : Evolves org m) :
    Evolves org (encCounts a n m) := by
  delta encCounts
  extract_lets x1 x2 x3 x4 x5 x6 x7
  have hx4 : Evolves org x4 := by
    unfold x4
    refine onAxis_ev ?_
    assumption
  clear_value x4
  have hx5 : Evolves org x5 := by
    unfold x5
    refine onAxis_ev ?_
    assumption
  clear_value x5
  have hx6 : Evolves org x6 := by
    unfold x6
    refine onAxis_ev ?_
    assumption
  clear_value x6
  have hx7 : Evolves org x7 := by
    unfold x7
    refine cmpCross_ev ?_
    assumption
  clear_value x7
  refine Evolves.ite ?_ ?_
  · refine encOutSource_ev ?_
    assumption
  · refine eachM_ev (fun _ _ _ => ?_) ?_
    · refine encOutSource_ev ?_
      assumption
    · assumption

theorem quadStep_ev {org : Mach} {a la lb m} (h_m : Evolves org m) :
    Evolves org (quadStep a la lb m) := by
  delta quadStep
  extract_lets x1 x2 x3 x4
  have hx4 : Evolves org x4 := by
    unfold x4
    refine onAxis_ev ?_
    assumption
  clear_value x4
  refine Evolves.ite ?_ ?_
  · assumption
  · refine Evolves.ite ?_ ?_
    · refine raise_ev ?_
      refine onAxis_ev ?_
      assumption
    · refine Evolves.ite ?_ ?_
      · refine encCounts_ev ?_
        assumption
      · refine Evolves.ite ?_ ?_
        · refine encCounts_ev ?_
          assumption
        · assumption

theorem quadLimit_ev {org : Mach} {a m} (h_m : Evolves org m) :
    Evolves org (quadLimit a m) := by
  delta quadLimit
  extract_lets x1
  refine Evolves.ite ?_ ?_
  · refine encFault_ev ?_
    assumption
  · assumption

theorem indexEdge_ev {org : Mach} {a m} (h_m : Evolves org m) :
    Evolves org (indexEdge a m) := by
  delta indexEdge
  refine Evolves.ite ?_ ?_
  · assumption
  · extract_lets x1
    have hx1 : Evolves org x1 := by
      unfold x1
      refine raise_ev ?_
      refine onAxis_ev ?_
      assumption
    clear_value x1
    split
    · refine Evolves.ite ?_ ?_
      · refine homeNext_ev ?_
        refine homeLatch_ev ?_
        assumption
      · assumption
    · assumption

theorem positionLost_ev {org : Mach} {a m} (h_m : Evolves org m) :
    Evolves org (positionLost a m) := by
  delta positionLost
  refine jobAddCause_ev ?_
  refine onJob_ev ?_
  assumption

theorem ssiReading_ev {org : Mach} {a raw high parityOk m} (h_m : Evolves org m) :
    Evolves org (ssiReading a raw high parityOk m) := by
  delta ssiReading
  extract_lets x1 x2 x3 x4 x5 x6 x7 x8 x9 x10 x11 x12
  have hx9 : Evolves org x9 := by
    unfold x9
    refine onAxis_ev ?_
    assumption
  clear_value x9
  have hx12 : Evolves org x12 := by
    unfold x12
    refine encCounts_ev ?_
    refine onAxis_ev ?_
    assumption
  clear_value x12
  refine Evolves.ite ?_ ?_
  · assumption
  · refine Evolves.ite ?_ ?_
    · refine Evolves.ite ?_ ?_
      · refine encFault_ev ?_
        assumption
      · assumption
    · refine Evolves.ite ?_ ?_
      · refine positionLost_ev ?_
        assumption
      · assumption

theorem speedZero_ev {org : Mach} {a m} (h_m : Evolves org m) :
    Evolves org (speedZero a m) := by
  delta speedZero
  split
  · refine Evolves.ite ?_ ?_
    · assumption
    · refine onAxis_ev ?_
      assumption
  · refine onAxis_ev ?_
    assumption

theorem axPublish_ev {org : Mach} {a m} (h_m : Evolves org m) :
    Evolves org (axPublish a m) := by
  delta axPublish
  refine Evolves.ite ?_ ?_
  · assumption
  · extract_lets x1 x2
    have hx1 : Evolves org x1 := by
      unfold x1
      refine onAxis_ev ?_
      assumption
    clear_value x1
    refine sigWrite_ev ?_
    refine sigWrite_ev ?_
    refine sigWrite_ev ?_
    refine sigWrite_ev ?_
    assumption

theorem stallCheck_ev {org : Mach} {a m} (h_m : Evolves org m) :
    Evolves org (stallCheck a m) := by
  delta stallCheck
  refine Evolves.ite ?_ ?_
  · assumption
  · extract_lets x1 x2
    refine onAxis_ev ?_
    assumption

theorem axStall_ev {org : Mach} {a m} (h_m : Evolves org m) :
    Evolves org (axStall a m) := by
  delta axStall
  extract_lets x1 x2 x3 x4 x5 x6
  have hx5 : Evolves org x5 := by
    unfold x5
    refine onAxis_ev ?_
    assumption
  clear_value x5
  have hx6 : Evolves org x6 := by
    unfold x6
    refine raise_ev ?_
    refine axFaulted_ev ?_
    assumption
  clear_value x6
  refine Evolves.ite ?_ ?_
  · assumption
  · refine sigWrite_ev ?_
    assumption

theorem execEncQuadStep_ev {org : Mach} {a la lb s} (h_s : Evolves org s.m) :
    OutEv org (execEncQuadStep a la lb s) := by
  delta execEncQuadStep
  refine act_ev (fun _ _ => ?_) h_s
  refine quadStep_ev ?_
  assumption

theorem execQuadErrLimit_ev {org : Mach} {a s} (h_s : Evolves org s.m) :
    OutEv org (execQuadErrLimit a s) := by
  delta execQuadErrLimit
  refine act_ev (fun _ _ => ?_) h_s
  refine quadLimit_ev ?_
  assumption

theorem execEncIndexEdge_ev {org : Mach} {a s} (h_s : Evolves org s.m) :
    OutEv org (execEncIndexEdge a s) := by
  delta execEncIndexEdge
  refine act_ev (fun _ _ => ?_) h_s
  refine indexEdge_ev ?_
  assumption

theorem execSpeedZeroTimeout_ev {org : Mach} {a s} (h_s : Evolves org s.m) :
    OutEv org (execSpeedZeroTimeout a s) := by
  delta execSpeedZeroTimeout
  refine act_ev (fun _ _ => ?_) h_s
  refine speedZero_ev ?_
  assumption

theorem execAxisSignalPublish_ev {org : Mach} {a s} (h_s : Evolves org s.m) :
    OutEv org (execAxisSignalPublish a s) := by
  delta execAxisSignalPublish
  refine act_ev (fun _ _ => ?_) h_s
  refine axPublish_ev ?_
  assumption

theorem execStallCheck_ev {org : Mach} {a s} (h_s : Evolves org s.m) :
    OutEv org (execStallCheck a s) := by
  delta execStallCheck
  refine act_ev (fun _ _ => ?_) h_s
  refine stallCheck_ev ?_
  assumption

theorem execAxisStall_ev {org : Mach} {a s} (h_s : Evolves org s.m) :
    OutEv org (execAxisStall a s) := by
  delta execAxisStall
  refine act_ev (fun _ _ => ?_) h_s
  refine axStall_ev ?_
  assumption

theorem limitAssert_ev {org : Mach} {a pos m} (h_m : Evolves org m) :
    Evolves org (limitAssert a pos m) := by
  delta limitAssert
  extract_lets x1 x2 x3 x4 x5
  have hx2 : Evolves org x2 := by
    unfold x2
    refine onAxis_ev ?_
    assumption
  clear_value x2
  have hx4 : Evolves org x4 := by
    unfold x4
    refine whenM_ev (fun _ _ => ?_) ?_
    · refine raise_ev ?_
      assumption
    · assumption
  clear_value x4
  refine Evolves.ite ?_ ?_
  · assumption
  · split
    · refine Evolves.ite ?_ ?_
      · assumption
      · refine Evolves.ite ?_ ?_
        · refine Evolves.ite ?_ ?_
          · refine homeNext_ev ?_
            assumption
          · assumption
        · refine homeAbort_ev ?_
          refine whenM_ev (fun _ _ => ?_) ?_
          · refine raise_ev ?_
            refine onAxis_ev ?_
            assumption
          · assumption
    · refine Evolves.ite ?_ ?_
      · refine raise_ev ?_
        refine axStop_ev ?_
        refine onAxis_ev ?_
        assumption
      · assumption

theorem homeReleased_ev {org : Mach} {cmd meas a m} (h_m : Evolves org m) :
    Evolves org (homeReleased cmd meas a m) := by
  delta homeReleased
  split
  · split
    · refine homeNext_ev ?_
      assumption
    · extract_lets x1
      have hx1 : Evolves org x1 := by
        unfold x1
        refine homeLatch_ev ?_
        assumption
      clear_value x1
      refine Evolves.ite ?_ ?_
      · refine onAxis_ev ?_
        assumption
      · refine homeNext_ev ?_
        assumption
    · assumption
  · assumption

theorem limitRelease_ev {org : Mach} {a pos cmd meas m} (h_m : Evolves org m) :
    Evolves org (limitRelease a pos cmd meas m) := by
  delta limitRelease
  extract_lets x1
  have hx1 : Evolves org x1 := by
    unfold x1
    refine onAxis_ev ?_
    assumption
  clear_value x1
  split
  · refine Evolves.ite ?_ ?_
    · refine homeReleased_ev ?_
      assumption
    · assumption
  · assumption

theorem homeEdge_ev {org : Mach} {a on m} (h_m : Evolves org m) :
    Evolves org (homeEdge a on m) := by
  delta homeEdge
  extract_lets x1
  have hx1 : Evolves org x1 := by
    unfold x1
    refine onAxis_ev ?_
    assumption
  clear_value x1
  split
  · refine Evolves.ite ?_ ?_
    · assumption
    · refine Evolves.ite ?_ ?_
      · refine Evolves.ite ?_ ?_
        · refine homeNext_ev ?_
          assumption
        · assumption
      · refine homeReleased_ev ?_
        assumption
  · assumption

theorem execLimitAssert_ev {org : Mach} {a pos s} (h_s : Evolves org s.m) :
    OutEv org (execLimitAssert a pos s) := by
  delta execLimitAssert
  refine act_ev (fun _ _ => ?_) h_s
  refine limitAssert_ev ?_
  assumption

theorem execLimitRelease_ev {org : Mach} {a pos cmd meas s} (h_s : Evolves org s.m) :
    OutEv org (execLimitRelease a pos cmd meas s) := by
  delta execLimitRelease
  refine act_ev (fun _ _ => ?_) h_s
  refine limitRelease_ev ?_
  assumption

theorem execHomeInputEdge_ev {org : Mach} {a on s} (h_s : Evolves org s.m) :
    OutEv org (execHomeInputEdge a on s) := by
  delta execHomeInputEdge
  refine act_ev (fun _ _ => ?_) h_s
  refine homeEdge_ev ?_
  assumption

theorem valley_ev {org : Mach} {m0} (h_m0 : Evolves org m0) :
    Evolves org (valley m0) := by
  delta valley
  refine eachM_ev (fun _ _ _ => ?_) ?_
  · extract_lets x1
    have hx1 : Evolves org x1 := by
      unfold x1
      refine takeRecord_ev ?_
      assumption
    clear_value x1
    refine Evolves.ite ?_ ?_
    · refine onAxis_ev ?_
      assumption
    · split
      · refine onAxis_ev ?_
        assumption
  · assumption

theorem holdDelay_ev {org : Mach} {a m} (h_m : Evolves org m) :
    Evolves org (holdDelay a m) := by
  delta holdDelay
  refine Evolves.ite ?_ ?_
  · refine onAxis_ev ?_
    assumption
  · assumption

theorem cmpPulseEnd_ev {org : Mach} {a m} (h_m : Evolves org m) :
    Evolves org (cmpPulseEnd a m) := by
  delta cmpPulseEnd
  split
  · refine emit_ev ?_
    refine onAxis_ev ?_
    assumption
  · assumption

theorem encOutEmit_ev {org : Mach} {c m} (h_m : Evolves org m) :
    Evolves org (encOutEmit c m) := by
  delta encOutEmit
  extract_lets x1 x2
  split
  · assumption
  · extract_lets x3 x4
    refine emit_ev ?_
    refine onAxis_ev ?_
    assumption

theorem execPwmValley_ev {org : Mach} {s} (h_s : Evolves org s.m) :
    OutEv org (execPwmValley s) := by
  delta execPwmValley
  refine act_ev (fun _ _ => ?_) h_s
  refine valley_ev ?_
  assumption

theorem execHoldDelayElapsed_ev {org : Mach} {a s} (h_s : Evolves org s.m) :
    OutEv org (execHoldDelayElapsed a s) := by
  delta execHoldDelayElapsed
  refine act_ev (fun _ _ => ?_) h_s
  refine holdDelay_ev ?_
  assumption

theorem execCmpPulseEnd_ev {org : Mach} {a s} (h_s : Evolves org s.m) :
    OutEv org (execCmpPulseEnd a s) := by
  delta execCmpPulseEnd
  refine act_ev (fun _ _ => ?_) h_s
  refine cmpPulseEnd_ev ?_
  assumption

theorem execEncoutEmit_ev {org : Mach} {c s} (h_s : Evolves org s.m) :
    OutEv org (execEncoutEmit c s) := by
  delta execEncoutEmit
  refine act_ev (fun _ _ => ?_) h_s
  refine encOutEmit_ev ?_
  assumption

end Sys2Proof.Machine
end

