-- ==== Sys2Proof/Laws/Evolve/BootOps.lean ====
section
/-!
SUPPORT. What Machine/BootOps.lean does never undoes what Laws/Evolve/Base.lean names: one lemma per operation.
-/

namespace Sys2Proof.Machine

theorem domainUp_ev {org : Mach} {d z1} (h_z1 : Evolves org z1) :
    Evolves org (domainUp d z1) := by
  delta domainUp
  refine onClk_ev ?_
  assumption

theorem memTrain_ev {org : Mach} {m} (h_m : Evolves org m) :
    Evolves org (memTrain m) := by
  delta memTrain
  refine onCh_ev ?_
  refine onCh_ev ?_
  refine setLock_ev ?_
  refine domainUp_ev ?_
  assumption

theorem bootHalt_ev {org : Mach} {m} (h_m : Evolves org m) :
    Evolves org (bootHalt m) := by
  delta bootHalt
  extract_lets x1 x2
  have hx1 : Evolves org x1 := by
    unfold x1
    unfold onBoot
    refine Evolves.upd ?_ rfl rfl rfl rfl rfl rfl rfl rfl rfl
    assumption
  clear_value x1
  have hx2 : Evolves org x2 := by
    unfold x2
    refine whenM_ev (fun _ _ => ?_) ?_
    · refine setLock_ev ?_
      refine domainUp_ev ?_
      assumption
    · assumption
  clear_value x2
  refine whenM_ev (fun _ _ => ?_) ?_
  · refine memTrain_ev ?_
    assumption
  · assumption

theorem attemptBegin_ev {org : Mach} {x m} (h_m : Evolves org m) :
    Evolves org (attemptBegin x m) := by
  delta attemptBegin
  extract_lets x1 x2
  have hx1 : Evolves org x1 := by
    unfold x1
    refine changeStanding_ev ?_
    assumption
  clear_value x1
  have hx2 : Evolves org x2 := by
    unfold x2
    unfold onBoot
    refine Evolves.upd ?_ rfl rfl rfl rfl rfl rfl rfl rfl rfl
    assumption
  clear_value x2
  refine whenM_ev (fun _ _ => ?_) ?_
  · refine memTrain_ev ?_
    assumption
  · assumption

theorem bootTry_ev {org : Mach} {m} (h_m : Evolves org m) :
    Evolves org (bootTry m) := by
  delta bootTry
  split
  · refine attemptBegin_ev ?_
    assumption
  · refine bootHalt_ev ?_
    assumption

theorem attemptFail_ev {org : Mach} {cause m} (h_m : Evolves org m) : Evolves org (attemptFail cause m) := by
  delta attemptFail
  refine Evolves.ite h_m ?_
  extract_lets m1 x m2
  have h1 : Evolves org m1 := by
    unfold m1 onBoot
    refine onAon_ev ?_
    exact h_m.boots id id List.prefix_rfl (fun _ w => w)
  have h2 : Evolves org m2 := by
    unfold m2 onBoot
    refine Evolves.ite ?_ h1
    cases x
    · exact h1.boots id id List.prefix_rfl (fun _ w => w)
    · exact h1.boots id id List.prefix_rfl (fun _ w => w)
  refine bootTry_ev (Evolves.ite ?_ h2)
  exact h2.mems (fun w => w)

theorem refWaits_ev {org : Mach} {m} (h_m : Evolves org m) :
    Evolves org (refWaits m) := by
  delta refWaits
  refine Evolves.ite ?_ ?_
  · refine onClk_ev ?_
    assumption
  · assumption

theorem clocksEnd_ev {org : Mach} {m} (h_m : Evolves org m) :
    Evolves org (clocksEnd m) := by
  delta clocksEnd
  extract_lets x1 x2 x3
  have hx2 : Evolves org x2 := by
    unfold x2
    refine Evolves.ite ?_ ?_
    · refine onTime_ev ?_
      refine timeSetUp_ev ?_
      assumption
    · refine onTime_ev ?_
      assumption
  clear_value x2
  have hx3 : Evolves org x3 := by
    unfold x3
    refine lateStamp_ev ?_
    refine onTime_ev ?_
    assumption
  clear_value x3
  refine Evolves.ite ?_ ?_
  · refine raise_ev ?_
    refine log_ev ?_
    assumption
  · assumption

theorem selectPhase_ev {org : Mach} {flashOk m} (h_m : Evolves org m) :
    Evolves org (selectPhase flashOk m) := by
  delta selectPhase
  extract_lets x1 x2
  have hx1 : Evolves org x1 := by
    unfold x1
    refine standingAtBoot_ev ?_
    refine setLock_ev ?_
    refine domainUp_ev ?_
    assumption
  clear_value x1
  have hx2 : Evolves org x2 := by
    unfold x2
    refine whenM_ev (fun _ _ => ?_) ?_
    · refine raise_ev ?_
      assumption
    · assumption
  clear_value x2
  refine Evolves.ite ?_ ?_
  · refine bootTry_ev ?_
    refine readBank_ev ?_
    refine readBank_ev ?_
    assumption
  · refine bootHalt_ev ?_
    refine onAon_ev ?_
    assumption

theorem refQualified_ev {org : Mach} {flashOk m} (h_m : Evolves org m) :
    Evolves org (refQualified flashOk m) := by
  delta refQualified
  refine Evolves.ite ?_ ?_
  · assumption
  · extract_lets x1
    have hx1 : Evolves org x1 := by
      unfold x1
      refine onClk_ev ?_
      assumption
    clear_value x1
    refine Evolves.ite ?_ ?_
    · refine selectPhase_ev ?_
      refine clocksEnd_ev ?_
      assumption
    · assumption

theorem sweepBegin0_ev {org m : Mach} (h_m : Evolves org m) : Evolves org (sweepBegin0 m) := by
  delta sweepBegin0
  refine Evolves.upd (m := { m with mem := { m.mem with cells := [] } }) ?_ rfl rfl rfl rfl rfl rfl rfl rfl rfl
  exact h_m.mems (fun _ => rfl)

theorem preserveCheck_ev {org : Mach} {crcOk m} (h_m : Evolves org m) :
    Evolves org (preserveCheck crcOk m) := by
  delta preserveCheck
  refine Evolves.ite ?_ ?_
  · refine sweepBegin0_ev ?_
    assumption
  · extract_lets x1 x2 x3 x4
    have hx4 : Evolves org x4 := by
      unfold x4
      refine raise_ev ?_
      refine log_ev ?_
      refine Evolves.upd ?_ rfl rfl rfl rfl rfl rfl rfl rfl rfl
      assumption
    clear_value x4
    refine Evolves.ite ?_ ?_
    · refine Evolves.upd ?_ rfl rfl rfl rfl rfl rfl rfl rfl rfl
      assumption
    · refine sweepBegin0_ev ?_
      assumption

theorem trainingDone_ev {org : Mach} {ok0 ok1 rd0 wr0 rd1 wr1 crcOk m} (h_m : Evolves org m) :
    Evolves org (trainingDone ok0 ok1 rd0 wr0 rd1 wr1 crcOk m) := by
  delta trainingDone
  refine Evolves.ite ?_ ?_
  · assumption
  · refine Evolves.ite ?_ ?_
    · extract_lets x1
      have hx1 : Evolves org x1 := by
        unfold x1
        refine onCh_ev ?_
        refine onCh_ev ?_
        assumption
      clear_value x1
      refine attemptFail_ev ?_
      assumption
    · extract_lets x2 x3 x4 x5
      have hx2 : Evolves org x2 := by
        unfold x2
        refine onCh_ev ?_
        refine onCh_ev ?_
        assumption
      clear_value x2
      have hx4 : Evolves org x4 := by
        unfold x4
        refine onHlt_ev ?_
        refine Evolves.upd ?_ rfl rfl rfl rfl rfl rfl rfl rfl rfl
        assumption
      clear_value x4
      have hx5 : Evolves org x5 := by
        unfold x5
        refine preserveCheck_ev ?_
        assumption
      clear_value x5
      refine Evolves.ite ?_ ?_
      · unfold onBoot
        refine Evolves.upd ?_ rfl rfl rfl rfl rfl rfl rfl rfl rfl
        assumption
      · assumption

theorem sweepEnd_ev {org : Mach} {m} (h_m : Evolves org m) :
    Evolves org (sweepEnd m) := by
  delta sweepEnd
  refine Evolves.ite ?_ ?_
  · refine Evolves.upd ?_ rfl rfl rfl rfl rfl rfl rfl rfl rfl
    assumption
  · assumption

theorem recBoot_ev {org : Mach} {id ws m} (h_m : Evolves org m) :
    Evolves org (recBoot id ws m) := by
  delta recBoot
  split
  · unfold onBoot
    refine Evolves.upd ?_ rfl rfl rfl rfl rfl rfl rfl rfl rfl
    assumption
  · assumption

theorem recordsApply_ev {org : Mach} {es m} (h_m : Evolves org m) :
    Evolves org (recordsApply es m) := by
  delta recordsApply
  extract_lets x1 x2
  have hx2 : Evolves org x2 := by
    unfold x2
    refine eachM_ev (fun _ _ _ => ?_) ?_
    · refine recBoot_ev ?_
      assumption
    · assumption
  clear_value x2
  refine eachM_ev (fun _ _ _ => ?_) ?_
  · refine recBoot_ev ?_
    assumption
  · assumption

theorem configDomains_ev {org : Mach} {m} (h_m : Evolves org m) :
    Evolves org (configDomains m) := by
  delta configDomains
  extract_lets x1 x2 x3 x4 x5
  have hx2 : Evolves org x2 := by
    unfold x2
    refine domainUp_ev ?_
    refine domainUp_ev ?_
    refine domainUp_ev ?_
    assumption
  clear_value x2
  have hx3 : Evolves org x3 := by
    unfold x3
    refine whenM_ev (fun _ _ => ?_) ?_
    · refine domainUp_ev ?_
      assumption
    · assumption
  clear_value x3
  have hx4 : Evolves org x4 := by
    unfold x4
    refine whenM_ev (fun _ _ => ?_) ?_
    · refine setLock_ev ?_
      refine domainUp_ev ?_
      assumption
    · assumption
  clear_value x4
  have hx5 : Evolves org x5 := by
    unfold x5
    refine whenM_ev (fun _ _ => ?_) ?_
    · refine setLock_ev ?_
      refine domainUp_ev ?_
      assumption
    · assumption
  clear_value x5
  refine setLock_ev ?_
  assumption

theorem cellsPlace_ev {org : Mach} {failed m} (h_m : Evolves org m) :
    Evolves org (cellsPlace failed m) := by
  delta cellsPlace
  extract_lets x1 x2 x3 x4 x5 x6 x7 x8
  have hx5 : Evolves org x5 := by
    unfold x5
    refine onCells_ev ?_
    assumption
  clear_value x5
  have hx6 : Evolves org x6 := by
    unfold x6
    refine eachM_ev (fun _ _ _ => ?_) ?_
    · refine onCtx_ev ?_
      assumption
    · assumption
  clear_value x6
  have hx7 : Evolves org x7 := by
    unfold x7
    refine eachM_ev (fun _ _ _ => ?_) ?_
    · refine raise_ev ?_
      assumption
    · assumption
  clear_value x7
  refine eachM_ev (fun _ _ _ => ?_) ?_
  · refine logClass_ev ?_
    assumption
  · assumption

theorem quoinsPlace_ev {org : Mach} {m} (h_m : Evolves org m) :
    Evolves org (quoinsPlace m) := by
  delta quoinsPlace
  extract_lets x1
  unfold onBoot
  refine Evolves.upd ?_ rfl rfl rfl rfl rfl rfl rfl rfl rfl
  assumption

theorem vcoreBoot_ev {org : Mach} {dMax nB m} (h_m : Evolves org m) :
    Evolves org (vcoreBoot dMax nB m) := by
  delta vcoreBoot
  extract_lets x1 x2
  refine whenM_ev (fun _ _ => ?_) ?_
  · refine raise_ev ?_
    assumption
  · refine onHlt_ev ?_
    assumption

theorem axesUp_ev {org : Mach} {m} (h_m : Evolves org m) :
    Evolves org (axesUp m) := by
  delta axesUp
  refine Evolves.upd ?_ rfl rfl rfl rfl rfl rfl rfl rfl rfl
  assumption

theorem lanesBegin_ev {org : Mach} {m} (h_m : Evolves org m) :
    Evolves org (lanesBegin m) := by
  delta lanesBegin
  refine eachM_ev (fun _ _ _ => ?_) ?_
  · refine laneDetect_ev ?_
    assumption
  · assumption

theorem followRecords_ev {org : Mach} {m} (h_m : Evolves org m) :
    Evolves org (followRecords m) := by
  delta followRecords
  extract_lets x1 x2 x3 x4
  have hx3 : Evolves org x3 := by
    unfold x3
    refine Evolves.upd ?_ rfl rfl rfl rfl rfl rfl rfl rfl rfl
    assumption
  clear_value x3
  have hx4 : Evolves org x4 := by
    unfold x4
    refine sigPub_ev ?_
    assumption
  clear_value x4
  refine onClk_ev ?_
  assumption

theorem ethUp_ev {org : Mach} {m} (h_m : Evolves org m) :
    Evolves org (ethUp m) := by
  delta ethUp
  refine ethLos_ev ?_
  refine ethLos_ev ?_
  assumption

theorem configure_ev {org : Mach} {failed es dMax nB cal m} (h_m : Evolves org m) :
    Evolves org (configure failed es dMax nB cal m) := by
  delta configure
  extract_lets x1 x2 x3 x4 x5 x6
  have hx1 : Evolves org x1 := by
    unfold x1
    refine bootEntries_ev ?_
    unfold onBoot
    refine Evolves.upd ?_ rfl rfl rfl rfl rfl rfl rfl rfl rfl
    assumption
  clear_value x1
  have hx2 : Evolves org x2 := by
    unfold x2
    refine recordsApply_ev ?_
    assumption
  clear_value x2
  have hx3 : Evolves org x3 := by
    unfold x3
    split
    · refine Evolves.ite ?_ ?_
      · unfold onBoot
        refine Evolves.upd ?_ rfl rfl rfl rfl rfl rfl rfl rfl rfl
        refine eachM_ev (fun _ _ _ => ?_) ?_
        · refine recBoot_ev ?_
          assumption
        · assumption
      · assumption
    · assumption
  clear_value x3
  have hx4 : Evolves org x4 := by
    unfold x4
    refine cellsPlace_ev ?_
    refine configDomains_ev ?_
    assumption
  clear_value x4
  have hx5 : Evolves org x5 := by
    unfold x5
    refine vcoreBoot_ev ?_
    refine quoinsPlace_ev ?_
    assumption
  clear_value x5
  have hx6 : Evolves org x6 := by
    unfold x6
    refine eachM_ev (fun _ _ _ => ?_) ?_
    · refine calEnd_ev ?_
      assumption
    · assumption
  clear_value x6
  refine followRecords_ev ?_
  refine ethUp_ev ?_
  assumption

theorem standingKept_ev {org : Mach} {k m} (h_m : Evolves org m) :
    Evolves org (standingKept k m) := by
  delta standingKept
  extract_lets x1 x2 x3 x4 x5 x6
  have hx6 : Evolves org x6 := by
    unfold x6
    refine Evolves.upd ?_ rfl rfl rfl rfl rfl rfl rfl rfl rfl
    assumption
  clear_value x6
  refine Evolves.upd ?_ rfl rfl rfl rfl rfl rfl rfl rfl rfl
  assumption

theorem formeCheckKept_ev {org : Mach} {e i m0} (h_m0 : Evolves org m0) :
    Evolves org (formeCheckKept e i m0) := by
  delta formeCheckKept
  extract_lets x1 x2
  have hx2 : Evolves org x2 := by
    unfold x2
    refine memRead_ev ?_
    assumption
  clear_value x2
  refine Evolves.ite ?_ ?_
  · assumption
  · split
    · refine freeSlot_ev ?_
      refine log_ev ?_
      assumption
    · assumption

theorem autoResumeTry_ev {org : Mach} {m} (h_m : Evolves org m) :
    Evolves org (autoResumeTry m) := by
  delta autoResumeTry
  refine Evolves.ite ?_ ?_
  · extract_lets x1
    have hx1 : Evolves org x1 := by
      unfold x1
      refine onJob_ev ?_
      assumption
    clear_value x1
    refine Evolves.ite ?_ ?_
    · refine jobResume_ev ?_
      assumption
    · assumption
  · assumption

theorem jobKept_ev {org : Mach} {k m} (h_m : Evolves org m) :
    Evolves org (jobKept k m) := by
  delta jobKept
  extract_lets x1 x2 x3 x4 x5 x6 x7
  have hx6 : Evolves org x6 := by
    unfold x6
    refine onJob_ev ?_
    refine Evolves.upd ?_ rfl rfl rfl rfl rfl rfl rfl rfl rfl
    assumption
  clear_value x6
  have hx7 : Evolves org x7 := by
    unfold x7
    refine eachM_ev (fun _ _ _ => ?_) ?_
    · refine whenM_ev (fun _ _ => ?_) ?_
      · refine onBeam_ev ?_
        assumption
      · assumption
    · assumption
  clear_value x7
  refine Evolves.ite ?_ ?_
  · refine autoResumeTry_ev ?_
    refine jobMove_ev ?_
    refine loadSets_ev ?_
    assumption
  · refine jobTest_ev ?_
    refine abortSettled_ev ?_
    refine jobMove_ev ?_
    refine onJob_ev ?_
    assumption

theorem warmResume_ev {org : Mach} {e m} (h_m : Evolves org m) :
    Evolves org (warmResume e m) := by
  delta warmResume
  split
  · assumption
  · extract_lets x1 x2
    have hx1 : Evolves org x1 := by
      unfold x1
      refine eachM_ev (fun _ _ _ => ?_) ?_
      · refine formeCheckKept_ev ?_
        assumption
      · refine Evolves.upd ?_ rfl rfl rfl rfl rfl rfl rfl rfl rfl
        assumption
    clear_value x1
    have hx2 : Evolves org x2 := by
      unfold x2
      refine jobKept_ev ?_
      refine buildEnter_ev ?_
      assumption
    clear_value x2
    refine Evolves.ite ?_ ?_
    · refine whenM_ev (fun _ _ => ?_) ?_
      · refine hostAbsentBegin_ev ?_
        assumption
      · assumption
    · assumption

theorem bankFallback_ev {org : Mach} {m} (h_m : Evolves org m) :
    Evolves org (bankFallback m) := by
  delta bankFallback
  extract_lets x1 x2 x3
  have hx2 : Evolves org x2 := by
    unfold x2
    refine readBank_ev ?_
    assumption
  clear_value x2
  refine Evolves.ite ?_ ?_
  · refine raise_ev ?_
    refine log_ev ?_
    assumption
  · assumption

theorem autoStart_ev {org : Mach} {m} (h_m : Evolves org m) :
    Evolves org (autoStart m) := by
  delta autoStart
  refine eachM_ev (fun _ _ _ => ?_) ?_
  · refine ctxStart_ev ?_
    assumption
  · assumption

theorem bootDone_ev {org : Mach} {e m} (h_m : Evolves org m) :
    Evolves org (bootDone e m) := by
  delta bootDone
  extract_lets x1 x2 x3 x4 x5 x6 x7 x8 x9
  have hx3 : Evolves org x3 := by
    unfold x3
    refine changeStanding_ev ?_
    refine Evolves.upd ?_ rfl rfl rfl rfl rfl rfl rfl rfl rfl
    assumption
  clear_value x3
  have hx5 : Evolves org x5 := by
    unfold x5
    unfold onBoot
    refine Evolves.upd ?_ rfl rfl rfl rfl rfl rfl rfl rfl rfl
    refine Evolves.upd ?_ rfl rfl rfl rfl rfl rfl rfl rfl rfl
    assumption
  clear_value x5
  have hx6 : Evolves org x6 := by
    unfold x6
    split
    · refine standingKept_ev ?_
      assumption
    · assumption
  clear_value x6
  have hx7 : Evolves org x7 := by
    unfold x7
    refine eachM_ev (fun _ _ _ => ?_) ?_
    · refine whenM_ev (fun _ _ => ?_) ?_
      · refine onBeam_ev ?_
        assumption
      · assumption
    · refine axesUp_ev ?_
      assumption
  clear_value x7
  have hx8 : Evolves org x8 := by
    unfold x8
    refine devMove_ev ?_
    assumption
  clear_value x8
  have hx9 : Evolves org x9 := by
    unfold x9
    refine applyScene_ev ?_
    refine lanesBegin_ev ?_
    refine autoStart_ev ?_
    assumption
  clear_value x9
  refine warmResume_ev ?_
  refine bankFallback_ev ?_
  refine eachM_ev (fun _ _ _ => ?_) ?_
  · refine onImp_ev ?_
    assumption
  · assumption

theorem bootComplete_ev {org : Mach} {failed dMax nB cal e m} (h_m : Evolves org m) :
    Evolves org (bootComplete failed dMax nB cal e m) := by
  have hl : ∀ m1, loadIngot m = some m1 → Evolves org m1 := by
    intro m1 h
    simp only [loadIngot, Option.map_eq_some_iff] at h
    obtain ⟨ss, _, rfl⟩ := h
    have hh : ∀ l : List SecEntry, Evolves org (eachM l (fun e => holdSection e.off (bankReader (m.boot.getBank m.boot.bank) e.off e.len)) m) :=
      fun l => eachM_ev (fun _ _ k => holdSection_ev k) h_m
    exact Evolves.boots (hh _) id id List.prefix_rfl (fun _ w => w)
  delta bootComplete
  refine Evolves.ite h_m ?_
  split
  · exact attemptFail_ev h_m
  · rename_i m1 heq
    have h1 := hl m1 heq
    dsimp only
    split
    · exact attemptFail_ev h1
    · exact Evolves.ite (bootDone_ev (configure_ev h1)) (attemptFail_ev h1)

theorem powerGoodTimeout_ev {org : Mach} {m} (h_m : Evolves org m) :
    Evolves org (powerGoodTimeout m) := by
  delta powerGoodTimeout
  refine Evolves.ite ?_ ?_
  · assumption
  · extract_lets x1
    have hx1 : Evolves org x1 := by
      unfold x1
      refine whenM_ev (fun _ _ => ?_) ?_
      · refine changeStanding_ev ?_
        assumption
      · assumption
    clear_value x1
    refine bootHalt_ev ?_
    assumption

theorem execRefclkQualified_ev {org : Mach} {flashOk s} (h_s : Evolves org s.m) :
    OutEv org (execRefclkQualified flashOk s) := by
  delta execRefclkQualified
  refine act_ev (fun _ _ => ?_) h_s
  refine refQualified_ev ?_
  assumption

theorem execRefclkWaitTimeout_ev {org : Mach} {s} (h_s : Evolves org s.m) :
    OutEv org (execRefclkWaitTimeout s) := by
  delta execRefclkWaitTimeout
  refine act_ev (fun _ _ => ?_) h_s
  refine refWaits_ev ?_
  assumption

theorem execMemTrainingDone_ev {org : Mach} {ok0 ok1 rd0 wr0 rd1 wr1 crcOk s} (h_s : Evolves org s.m) :
    OutEv org (execMemTrainingDone ok0 ok1 rd0 wr0 rd1 wr1 crcOk s) := by
  delta execMemTrainingDone
  refine act_ev (fun _ _ => ?_) h_s
  refine trainingDone_ev ?_
  assumption

theorem execSweepDone_ev {org : Mach} {s} (h_s : Evolves org s.m) :
    OutEv org (execSweepDone s) := by
  delta execSweepDone
  refine act_ev (fun _ _ => ?_) h_s
  refine sweepEnd_ev ?_
  assumption

theorem execBootComplete_ev {org : Mach} {failed dMax nB cal ecc s} (h_s : Evolves org s.m) :
    OutEv org (execBootComplete failed dMax nB cal s ecc) := by
  delta execBootComplete
  refine act_ev (fun _ _ => ?_) h_s
  refine withEnv_ev (fun _ _ => ?_) ?_
  · refine bootComplete_ev ?_
    assumption
  · assumption

theorem execBootAttemptFail_ev {org : Mach} {cause s} (h_s : Evolves org s.m) :
    OutEv org (execBootAttemptFail cause s) := by
  delta execBootAttemptFail
  refine act_ev (fun _ _ => ?_) h_s
  refine attemptFail_ev ?_
  assumption

theorem execBootWatchdogExpire_ev {org : Mach} {s} (h_s : Evolves org s.m) :
    OutEv org (execBootWatchdogExpire s) := by
  delta execBootWatchdogExpire
  refine act_ev (fun _ _ => ?_) h_s
  refine attemptFail_ev ?_
  assumption

theorem execPowerGoodTimeout_ev {org : Mach} {s} (h_s : Evolves org s.m) :
    OutEv org (execPowerGoodTimeout s) := by
  delta execPowerGoodTimeout
  refine act_ev (fun _ _ => ?_) h_s
  refine powerGoodTimeout_ev ?_
  assumption

theorem execSsiReading_ev {org : Mach} {a raw high parityOk env s} (h_s : Evolves org s.m) :
    OutEv org (execSsiReading a raw high parityOk s env) := by
  delta execSsiReading
  refine act_ev (fun _ _ => ?_) h_s
  refine withEnv_ev (fun _ _ => ?_) ?_
  · refine seqM_ev (fun _ _ => ?_) (fun _ _ => ?_) ?_
    · refine ssiReading_ev ?_
      assumption
    · refine autoResumeTry_ev ?_
      assumption
    · assumption
  · assumption

end Sys2Proof.Machine
end

