-- ==== Sys2Proof/Laws/Evolve/MeltOps.lean ====
section
/-!
SUPPORT. What Machine/MeltOps.lean does never undoes what Laws/Evolve/Base.lean names: one lemma per operation.
-/

namespace Sys2Proof.Machine

theorem camBegin_ev {org : Mach} {b bs m} (h_m : Evolves org m) :
    Evolves org (camBegin b bs m) := by
  delta camBegin
  extract_lets x1 x2 x3
  split
  · refine Evolves.ite ?_ ?_
    · assumption
    · refine onMpl_ev ?_
      assumption
  · refine onMpl_ev ?_
    assumption

theorem camLine_ev {org : Mach} {b bs m} (h_m : Evolves org m) :
    Evolves org (camLine b bs m) := by
  delta camLine
  extract_lets x1 x2
  split
  · refine Evolves.ite ?_ ?_
    · assumption
    · refine onMpl_ev ?_
      assumption
  · assumption

theorem frameEntry_ev {org : Mach} {b f inEm bad m} (h_m : Evolves org m) :
    Evolves org (frameEntry b f inEm bad m) := by
  delta frameEntry
  extract_lets x1 x2 x3 x4 x5 x6
  refine Evolves.ite ?_ ?_
  · assumption
  · refine Evolves.ite ?_ ?_
    · refine onMpl_ev ?_
      assumption
    · refine ringPush_ev ?_
      refine onMpl_ev ?_
      assumption

theorem framesReady_ev {org : Mach} {b m} (h_m : Evolves org m) :
    Evolves org (framesReady b m) := by
  delta framesReady
  split
  · assumption
  · split
    · extract_lets x1 x2 x3 x4 x5
      have hx3 : Evolves org x3 := by
        unfold x3
        refine onMpl_ev ?_
        assumption
      clear_value x3
      have hx4 : Evolves org x4 := by
        unfold x4
        refine whenM_ev (fun _ _ => ?_) ?_
        · refine onMpl_ev ?_
          assumption
        · assumption
      clear_value x4
      have hx5 : Evolves org x5 := by
        unfold x5
        refine sigWriteRaw_ev ?_
        refine sigWriteRaw_ev ?_
        assumption
      clear_value x5
      refine whenM_ev (fun _ _ => ?_) ?_
      · refine mplRaise_ev ?_
        assumption
      · refine frameEntry_ev ?_
        assumption

theorem frameGap_ev {org : Mach} {b m} (h_m : Evolves org m) :
    Evolves org (frameGap b m) := by
  delta frameGap
  extract_lets x1 x2 x3
  refine Evolves.ite ?_ ?_
  · refine mplRaise_ev ?_
    refine onMpl_ev ?_
    assumption
  · assumption

theorem noLight_ev {org : Mach} {b m} (h_m : Evolves org m) :
    Evolves org (noLight b m) := by
  delta noLight
  extract_lets x1
  refine Evolves.ite ?_ ?_
  · assumption
  · refine logClass_ev ?_
    refine mplRaise_ev ?_
    refine onMpl_ev ?_
    assumption

theorem backRefl_ev {org : Mach} {b m} (h_m : Evolves org m) :
    Evolves org (backRefl b m) := by
  delta backRefl
  extract_lets x1 x2
  have hx2 : Evolves org x2 := by
    unfold x2
    refine log_ev ?_
    refine mplRaise_ev ?_
    refine onMpl_ev ?_
    assumption
  clear_value x2
  refine Evolves.ite ?_ ?_
  · assumption
  · refine whenM_ev (fun _ _ => ?_) ?_
    · refine retire_ev ?_
      assumption
    · assumption

theorem corrSat_ev {org : Mach} {b m} (h_m : Evolves org m) :
    Evolves org (corrSat b m) := by
  delta corrSat
  extract_lets x1 x2
  refine Evolves.ite ?_ ?_
  · assumption
  · refine logClass_ev ?_
    refine mplRaise_ev ?_
    refine onMpl_ev ?_
    assumption

theorem sweepBegin_ev {org : Mach} {m} (h_m : Evolves org m) :
    Evolves org (sweepBegin m) := by
  delta sweepBegin
  refine Evolves.ite ?_ ?_
  · assumption
  · refine hmSweep_ev ?_
    refine onHmap_ev ?_
    assumption

theorem sweepDone_ev {org : Mach} {m} (h_m : Evolves org m) :
    Evolves org (sweepDone m) := by
  delta sweepDone
  refine Evolves.ite ?_ ?_
  · refine onHmap_ev ?_
    assumption
  · assumption

theorem copyDone_ev {org : Mach} {m} (h_m : Evolves org m) :
    Evolves org (copyDone m) := by
  delta copyDone
  refine onHmap_ev ?_
  assumption

theorem execCamBegin_ev {org : Mach} {l f s} (h_s : Evolves org s.m) :
    OutEv org (execCamBegin l f s) := by
  delta execCamBegin
  refine act_ev (fun _ _ => ?_) h_s
  refine rxFrame_ev (fun _ _ => ?_) ?_
  · refine camBegin_ev ?_
    assumption
  · assumption

theorem execCamLine_ev {org : Mach} {l f s} (h_s : Evolves org s.m) :
    OutEv org (execCamLine l f s) := by
  delta execCamLine
  refine act_ev (fun _ _ => ?_) h_s
  refine rxFrame_ev (fun _ _ => ?_) ?_
  · refine camLine_ev ?_
    assumption
  · assumption

theorem execFrameMetricsReady_ev {org : Mach} {b s} (h_s : Evolves org s.m) :
    OutEv org (execFrameMetricsReady b s) := by
  delta execFrameMetricsReady
  refine act_ev (fun _ _ => ?_) h_s
  refine clocked_ev (fun _ _ => ?_) ?_
  · refine framesReady_ev ?_
    assumption
  · assumption

theorem execFrameValidTimeout_ev {org : Mach} {b s} (h_s : Evolves org s.m) :
    OutEv org (execFrameValidTimeout b s) := by
  delta execFrameValidTimeout
  refine act_ev (fun _ _ => ?_) h_s
  refine clocked_ev (fun _ _ => ?_) ?_
  · refine frameGap_ev ?_
    assumption
  · assumption

theorem execNoLight_ev {org : Mach} {b s} (h_s : Evolves org s.m) :
    OutEv org (execNoLight b s) := by
  delta execNoLight
  refine act_ev (fun _ _ => ?_) h_s
  refine clocked_ev (fun _ _ => ?_) ?_
  · refine noLight_ev ?_
    assumption
  · assumption

theorem execBackrefl_ev {org : Mach} {b s} (h_s : Evolves org s.m) :
    OutEv org (execBackrefl b s) := by
  delta execBackrefl
  refine act_ev (fun _ _ => ?_) h_s
  refine clocked_ev (fun _ _ => ?_) ?_
  · refine backRefl_ev ?_
    assumption
  · assumption

theorem execCorrSat_ev {org : Mach} {b s} (h_s : Evolves org s.m) :
    OutEv org (execCorrSat b s) := by
  delta execCorrSat
  refine act_ev (fun _ _ => ?_) h_s
  refine clocked_ev (fun _ _ => ?_) ?_
  · refine corrSat_ev ?_
    assumption
  · assumption

theorem execHmapDecaySweep_ev {org : Mach} {s} (h_s : Evolves org s.m) :
    OutEv org (execHmapDecaySweep s) := by
  delta execHmapDecaySweep
  refine act_ev (fun _ _ => ?_) h_s
  refine clocked_ev (fun _ _ => ?_) ?_
  · refine sweepBegin_ev ?_
    assumption
  · assumption

theorem execHmapSweepDone_ev {org : Mach} {s} (h_s : Evolves org s.m) :
    OutEv org (execHmapSweepDone s) := by
  delta execHmapSweepDone
  refine act_ev (fun _ _ => ?_) h_s
  refine clocked_ev (fun _ _ => ?_) ?_
  · refine sweepDone_ev ?_
    assumption
  · assumption

theorem execHmapCopyDone_ev {org : Mach} {s} (h_s : Evolves org s.m) :
    OutEv org (execHmapCopyDone s) := by
  delta execHmapCopyDone
  refine act_ev (fun _ _ => ?_) h_s
  refine clocked_ev (fun _ _ => ?_) ?_
  · refine copyDone_ev ?_
    assumption
  · assumption

end Sys2Proof.Machine
end

