-- ==== Sys2Proof/Laws/Evolve/RegWrite.lean ====
section
/-!
SUPPORT. What Machine/RegWrite.lean does never undoes what Laws/Evolve/Base.lean names: one lemma per operation.
-/

namespace Sys2Proof.Machine

theorem sqcWrite_ev {org : Mach} {e v m} (h_m : Evolves org m) :
    Evolves org (sqcWrite e v m) := by
  delta sqcWrite
  extract_lets x1 x2 x3
  have hx1 : Evolves org x1 := by
    unfold x1
    refine regSet_ev ?_
    assumption
  clear_value x1
  split
  · refine Evolves.ite ?_ ?_
    · assumption
    · refine Evolves.upd ?_ rfl rfl rfl rfl rfl rfl rfl rfl rfl
      assumption
  · refine Evolves.ite ?_ ?_
    · assumption
    · refine Evolves.upd ?_ rfl rfl rfl rfl rfl rfl rfl rfl rfl
      assumption
  · refine Evolves.ite ?_ ?_
    · assumption
    · refine onBeam_ev ?_
      assumption
  · assumption

theorem ctrlWrite_ev {org : Mach} {v m} (h_m : Evolves org m) :
    Evolves org (ctrlWrite v m) := by
  delta ctrlWrite
  refine Evolves.ite ?_ ?_
  · refine Evolves.upd ?_ rfl rfl rfl rfl rfl rfl rfl rfl rfl
    assumption
  · assumption

theorem msixMod_ev {org : Mach} {p v m} (h_m : Evolves org m) :
    Evolves org (msixMod p v m) := by
  delta msixMod
  refine Evolves.ite ?_ ?_
  · refine accErr_ev ?_
    assumption
  · refine regSet_ev ?_
    assumption

theorem msixWrite_ev {org : Mach} {off v m} (h_m : Evolves org m) :
    Evolves org (msixWrite off v m) := by
  delta msixWrite
  refine Evolves.ite ?_ ?_
  · assumption
  · extract_lets x1 x2 x3 x4
    have hf_x4 : ∀ a0, Evolves org (x4 a0) := by
      intro a0
      unfold x4
      refine Evolves.upd ?_ rfl rfl rfl rfl rfl rfl rfl rfl rfl
      assumption
    clear_value x4
    split
    · apply hf_x4
    · apply hf_x4
    · apply hf_x4
    · refine msixMask_ev ?_
      assumption

theorem ratioWrite_ev {org : Mach} {b v z2} (h_z2 : Evolves org z2) :
    Evolves org (ratioWrite b v z2) := by
  delta ratioWrite
  refine onLaser_ev ?_
  assumption

theorem argWrite_ev {org : Mach} {p i v m} (h_m : Evolves org m) :
    Evolves org (argWrite p i v m) := by
  delta argWrite
  refine Evolves.ite ?_ ?_
  · assumption
  · refine Evolves.upd ?_ rfl rfl rfl rfl rfl rfl rfl rfl rfl
    assumption

theorem prbsWrite_ev {org : Mach} {l v m} (h_m : Evolves org m) :
    Evolves org (prbsWrite l v m) := by
  delta prbsWrite
  extract_lets x1 x2
  refine regSet_ev ?_
  refine whenM_ev (fun _ _ => ?_) ?_
  · refine onLane_ev ?_
    assumption
  · assumption

theorem heldWrite_ev {org : Mach} {off v m} (h_m : Evolves org m) :
    Evolves org (heldWrite off v m) := by
  delta heldWrite
  split
  · assumption
  · extract_lets x1
    have hx1 : Evolves org x1 := by
      unfold x1
      refine regSet_ev ?_
      assumption
    clear_value x1
    split
    · refine Evolves.ite ?_ ?_
      · refine setRef_ev ?_
        assumption
      · assumption
    · assumption

theorem lockWrite_ev {org : Mach} {p off v m} (h_m : Evolves org m) :
    Evolves org (lockWrite p off v m) := by
  delta lockWrite
  refine Evolves.ite ?_ ?_
  · assumption
  · refine Evolves.ite ?_ ?_
    · refine lockErr_ev ?_
      assumption
    · refine heldWrite_ev ?_
      refine Evolves.upd ?_ rfl rfl rfl rfl rfl rfl rfl rfl rfl
      assumption

theorem commitWrite_ev {org : Mach} {p w m} (h_m : Evolves org m) :
    Evolves org (commitWrite p w m) := by
  delta commitWrite
  extract_lets x1
  have hx1 : Evolves org x1 := by
    unfold x1
    refine recCommit_ev ?_
    assumption
  clear_value x1
  refine whenM_ev (fun _ _ => ?_) ?_
  · refine weightsFollow_ev ?_
    assumption
  · assumption

theorem takeNow_ev {org : Mach} {id m} (h_m : Evolves org m) :
    Evolves org (takeNow id m) := by
  delta takeNow
  extract_lets x1
  have hx1 : Evolves org x1 := by
    unfold x1
    refine recordTake_ev ?_
    assumption
  clear_value x1
  refine whenM_ev (fun _ _ => ?_) ?_
  · refine weightsFollow_ev ?_
    assumption
  · assumption

theorem glbWrite_ev {org : Mach} {p off v m} (h_m : Evolves org m) :
    Evolves org (glbWrite p off v m) := by
  delta glbWrite
  refine Evolves.ite ?_ ?_
  · refine ctrlWrite_ev ?_
    assumption
  · refine Evolves.ite ?_ ?_
    · refine glbCmd_ev ?_
      assumption
    · refine Evolves.ite ?_ ?_
      · refine heartbeat_ev ?_
        assumption
      · refine Evolves.ite ?_ ?_
        · refine resetKey_ev ?_
          assumption
        · refine Evolves.ite ?_ ?_
          · refine msixMod_ev ?_
            assumption
          · refine Evolves.ite ?_ ?_
            · refine dmaSize_ev ?_
              assumption
            · refine Evolves.ite ?_ ?_
              · refine dmaTail_ev ?_
                assumption
              · refine Evolves.ite ?_ ?_
                · refine dmaCtrl_ev ?_
                  assumption
                · refine Evolves.ite ?_ ?_
                  · refine msixWrite_ev ?_
                    assumption
                  · refine heldWrite_ev ?_
                    assumption

theorem bootWrite_ev {org : Mach} {p off v m} (h_m : Evolves org m) :
    Evolves org (bootWrite p off v m) := by
  delta bootWrite
  refine Evolves.ite ?_ ?_
  · refine bootCmd_ev ?_
    assumption
  · refine Evolves.ite ?_ ?_
    · refine recSelect_ev ?_
      assumption
    · refine Evolves.ite ?_ ?_
      · refine commitWrite_ev ?_
        assumption
      · refine Evolves.ite ?_ ?_
        · refine quoinAdd_ev ?_
          assumption
        · refine Evolves.ite ?_ ?_
          · refine reloadRequest_ev ?_
            assumption
          · refine Evolves.ite ?_ ?_
            · unfold onBoot
              refine Evolves.upd ?_ rfl rfl rfl rfl rfl rfl rfl rfl rfl
              assumption
            · refine Evolves.ite ?_ ?_
              · refine updCmd_ev ?_
                assumption
              · refine Evolves.ite ?_ ?_
                · refine recDataWrite_ev ?_
                  assumption
                · refine heldWrite_ev ?_
                  assumption

theorem cellsWrite_ev {org : Mach} {p off v m} (h_m : Evolves org m) :
    Evolves org (cellsWrite p off v m) := by
  delta cellsWrite
  refine Evolves.ite ?_ ?_
  · refine sigSelWrite_ev ?_
    assumption
  · refine Evolves.ite ?_ ?_
    · refine cellCmd_ev ?_
      assumption
    · refine Evolves.ite ?_ ?_
      · refine trgWrite_ev ?_
        assumption
      · refine Evolves.ite ?_ ?_
        · refine deepCtrlWrite_ev ?_
          assumption
        · refine Evolves.ite ?_ ?_
          · extract_lets x1 x2
            refine Evolves.ite ?_ ?_
            · refine lagClear_ev ?_
              assumption
            · refine Evolves.ite ?_ ?_
              · refine lagClear_ev ?_
                assumption
              · refine Evolves.ite ?_ ?_
                · refine trcCtrlWrite_ev ?_
                  assumption
                · refine Evolves.ite ?_ ?_
                  · refine trcCtrlWrite_ev ?_
                    assumption
                  · refine Evolves.ite ?_ ?_
                    · refine accErr_ev ?_
                      assumption
                    · refine heldWrite_ev ?_
                      assumption
          · refine heldWrite_ev ?_
            assumption

theorem laneWrite_ev {org : Mach} {off v m} (h_m : Evolves org m) :
    Evolves org (laneWrite off v m) := by
  delta laneWrite
  extract_lets x1 x2
  refine Evolves.ite ?_ ?_
  · refine laneCmd_ev ?_
    assumption
  · refine Evolves.ite ?_ ?_
    · refine prbsWrite_ev ?_
      assumption
    · refine Evolves.ite ?_ ?_
      · refine laneInject_ev ?_
        assumption
      · refine heldWrite_ev ?_
        assumption

theorem stgWrite_ev {org : Mach} {off v m} (h_m : Evolves org m) :
    Evolves org (stgWrite off v m) := by
  delta stgWrite
  extract_lets x1 x2
  refine Evolves.ite ?_ ?_
  · refine stgCmd_ev ?_
    assumption
  · refine Evolves.ite ?_ ?_
    · refine cmpPush_ev ?_
      assumption
    · refine heldWrite_ev ?_
      assumption

theorem clkWrite_ev {org : Mach} {p off v m} (h_m : Evolves org m) :
    Evolves org (clkWrite p off v m) := by
  delta clkWrite
  refine Evolves.ite ?_ ?_
  · refine clkOutWrite_ev ?_
    assumption
  · refine Evolves.ite ?_ ?_
    · refine clkOutWrite_ev ?_
      assumption
    · refine Evolves.ite ?_ ?_
      · refine gateRequest_ev ?_
        assumption
      · refine Evolves.ite ?_ ?_
        · refine onAon_ev ?_
          assumption
        · refine heldWrite_ev ?_
          assumption

theorem hltWrite_ev {org : Mach} {p off v m} (h_m : Evolves org m) :
    Evolves org (hltWrite p off v m) := by
  delta hltWrite
  refine Evolves.ite ?_ ?_
  · refine hltCmd_ev ?_
    assumption
  · refine Evolves.ite ?_ ?_
    · refine ratioWrite_ev ?_
      assumption
    · refine Evolves.ite ?_ ?_
      · refine mbCmd_ev ?_
        assumption
      · refine Evolves.ite ?_ ?_
        · refine argWrite_ev ?_
          assumption
        · refine heldWrite_ev ?_
          assumption

theorem regWrite_ev {org : Mach} {p off v m} (h_m : Evolves org m) :
    Evolves org (regWrite p off v m) := by
  delta regWrite
  split
  · refine sqcWrite_ev ?_
    assumption
  · refine Evolves.ite ?_ ?_
    · refine lockWrite_ev ?_
      assumption
    · refine Evolves.ite ?_ ?_
      · refine glbWrite_ev ?_
        assumption
      · refine Evolves.ite ?_ ?_
        · refine bootWrite_ev ?_
          assumption
        · refine Evolves.ite ?_ ?_
          · refine jobCmd_ev ?_
            assumption
          · refine Evolves.ite ?_ ?_
            · refine jobCommit_ev ?_
              assumption
            · refine Evolves.ite ?_ ?_
              · refine impCmd_ev ?_
                assumption
              · refine Evolves.ite ?_ ?_
                · refine impRelease_ev ?_
                  assumption
                · refine Evolves.ite ?_ ?_
                  · refine ringRelease_ev ?_
                    assumption
                  · refine Evolves.ite ?_ ?_
                    · refine cellsWrite_ev ?_
                      assumption
                    · refine Evolves.ite ?_ ?_
                      · refine laneWrite_ev ?_
                        assumption
                      · refine Evolves.ite ?_ ?_
                        · refine stgWrite_ev ?_
                          assumption
                        · refine Evolves.ite ?_ ?_
                          · refine ilkCmd_ev ?_
                            assumption
                          · refine Evolves.ite ?_ ?_
                            · refine timeSnap_ev ?_
                              assumption
                            · refine Evolves.ite ?_ ?_
                              · refine memCmd_ev ?_
                                assumption
                              · refine Evolves.ite ?_ ?_
                                · refine clkWrite_ev ?_
                                  assumption
                                · refine Evolves.ite ?_ ?_
                                  · refine hltWrite_ev ?_
                                    assumption
                                  · refine heldWrite_ev ?_
                                    assumption

theorem alarmWrite_ev {org : Mach} {lo hi z2} (h_z2 : Evolves org z2) :
    Evolves org (alarmWrite lo hi z2) := by
  delta alarmWrite
  refine onAon_ev ?_
  assumption

theorem pairWrite_ev {org : Mach} {p off low lo hi m} (h_m : Evolves org m) :
    Evolves org (pairWrite p off low lo hi m) := by
  delta pairWrite
  refine Evolves.ite ?_ ?_
  · refine winWrite_ev ?_
    assumption
  · refine Evolves.ite ?_ ?_
    · refine dmaRing_ev ?_
      assumption
    · refine Evolves.ite ?_ ?_
      · unfold onBoot
        refine Evolves.upd ?_ rfl rfl rfl rfl rfl rfl rfl rfl rfl
        assumption
      · refine Evolves.ite ?_ ?_
        · refine onJob_ev ?_
          assumption
        · refine Evolves.ite ?_ ?_
          · refine alarmWrite_ev ?_
            assumption
          · assumption

theorem pairLowWrite_ev {org : Mach} {p off v m} (h_m : Evolves org m) :
    Evolves org (pairLowWrite p off v m) := by
  delta pairLowWrite
  refine Evolves.ite ?_ ?_
  · assumption
  · extract_lets x1 x2
    have hx2 : Evolves org x2 := by
      unfold x2
      refine whenM_ev (fun _ _ => ?_) ?_
      · refine dropShadow_ev ?_
        assumption
      · assumption
    clear_value x2
    refine Evolves.ite ?_ ?_
    · refine onPort_ev ?_
      assumption
    · refine accErr_ev ?_
      assumption

theorem pairHighWrite_ev {org : Mach} {p off v m} (h_m : Evolves org m) :
    Evolves org (pairHighWrite p off v m) := by
  delta pairHighWrite
  refine Evolves.ite ?_ ?_
  · assumption
  · extract_lets x1 x2
    have hx2 : Evolves org x2 := by
      unfold x2
      refine onPort_ev ?_
      assumption
    clear_value x2
    split
    · refine Evolves.ite ?_ ?_
      · refine Evolves.ite ?_ ?_
        · refine pairWrite_ev ?_
          assumption
        · refine accErr_ev ?_
          assumption
      · refine Evolves.ite ?_ ?_
        · refine shadowMiss_ev ?_
          refine pairWrite_ev ?_
          assumption
        · refine accErr_ev ?_
          assumption
    · refine Evolves.ite ?_ ?_
      · refine shadowMiss_ev ?_
        refine pairWrite_ev ?_
        assumption
      · refine accErr_ev ?_
        assumption

theorem readGate_ev {org : Mach} {p off f m} (hf_f : ∀ m, Evolves org m → Evolves org (f m)) (h_m : Evolves org m) :
    Evolves org (readGate p off f m) := by
  delta readGate
  refine Evolves.ite ?_ ?_
  · assumption
  · refine Evolves.ite ?_ ?_
    · apply hf_f
      assumption
    · refine accErr_ev ?_
      refine emit_ev ?_
      assumption

theorem pairLowRead_ev {org : Mach} {p off m} (h_m : Evolves org m) :
    Evolves org (pairLowRead p off m) := by
  delta pairLowRead
  extract_lets x1 x2
  have hx1 : Evolves org x1 := by
    unfold x1
    refine emit_ev ?_
    assumption
  clear_value x1
  have hx2 : Evolves org x2 := by
    unfold x2
    refine whenM_ev (fun _ _ => ?_) ?_
    · refine onPort_ev ?_
      assumption
    · assumption
  clear_value x2
  refine Evolves.ite ?_ ?_
  · refine onPort_ev ?_
    assumption
  · assumption

theorem pairHighRead_ev {org : Mach} {p off m} (h_m : Evolves org m) :
    Evolves org (pairHighRead p off m) := by
  delta pairHighRead
  extract_lets x1
  have hx1 : Evolves org x1 := by
    unfold x1
    refine emit_ev ?_
    assumption
  clear_value x1
  refine Evolves.ite ?_ ?_
  · assumption
  · split
    · refine Evolves.ite ?_ ?_
      · refine onPort_ev ?_
        refine emit_ev ?_
        assumption
      · refine shadowMiss_ev ?_
        assumption
    · refine shadowMiss_ev ?_
      assumption

theorem anyWrite_ev {org : Mach} {p off v be m} (h_m : Evolves org m) :
    Evolves org (anyWrite p off v be m) := by
  delta anyWrite
  refine Evolves.ite ?_ ?_
  · refine whenM_ev (fun _ _ => ?_) ?_
    · refine accErr_ev ?_
      assumption
    · assumption
  · refine Evolves.ite ?_ ?_
    · refine pairLowWrite_ev ?_
      assumption
    · refine Evolves.ite ?_ ?_
      · refine pairHighWrite_ev ?_
        assumption
      · refine writeGate_ev (fun _ _ => ?_) ?_
        · refine regWrite_ev ?_
          assumption
        · assumption

theorem pairLongWrite_ev {org : Mach} {p off v m} (h_m : Evolves org m) :
    Evolves org (pairLongWrite p off v m) := by
  delta pairLongWrite
  extract_lets x1 x2
  refine Evolves.ite ?_ ?_
  · refine pairGate_ev (fun _ _ => ?_) ?_
    · refine pairWrite_ev ?_
      assumption
    · assumption
  · refine anyWrite_ev ?_
    refine anyWrite_ev ?_
    assumption

theorem wordsWrite_ev {org : Mach} {p off ws m} (h_m : Evolves org m) : Evolves org (wordsWrite p off ws m) := by
  induction ws generalizing off m with
  | nil => exact h_m
  | cons v t ih => exact ih (anyWrite_ev h_m)

theorem longWrite_ev {org : Mach} {p off v more m} (h_m : Evolves org m) :
    Evolves org (longWrite p off v more m) := by
  delta longWrite
  refine Evolves.ite ?_ ?_
  · refine pairLongWrite_ev ?_
    assumption
  · refine wordsWrite_ev ?_
    assumption

theorem pairBothRead_ev {org : Mach} {p off m} (h_m : Evolves org m) :
    Evolves org (pairBothRead p off m) := by
  delta pairBothRead
  refine whenM_ev (fun _ _ => ?_) ?_
  · refine onPort_ev ?_
    assumption
  · refine emit_ev ?_
    refine emit_ev ?_
    assumption

theorem anyRead_ev {org : Mach} {p off z2} (h_z2 : Evolves org z2) :
    Evolves org (anyRead p off z2) := by
  delta anyRead
  refine readGate_ev (fun _ _ => ?_) ?_
  · split
    · refine pairHighRead_ev ?_
      assumption
    · refine pairLowRead_ev ?_
      assumption
  · assumption

theorem longRead_ev {org : Mach} {p off long m} (h_m : Evolves org m) :
    Evolves org (longRead p off long m) := by
  delta longRead
  refine Evolves.ite ?_ ?_
  · refine readGate_ev (fun _ _ => ?_) ?_
    · refine pairBothRead_ev ?_
      assumption
    · assumption
  · refine eachM_ev (fun _ _ _ => ?_) ?_
    · refine anyRead_ev ?_
      assumption
    · assumption

theorem telemetry_ev {org : Mach} {m} (h_m : Evolves org m) :
    Evolves org (telemetry m) := by
  delta telemetry
  refine Evolves.ite ?_ ?_
  · refine emit_ev ?_
    assumption
  · assumption

theorem ainConvert_ev {org : Mach} {i raw ref m} (h_m : Evolves org m) :
    Evolves org (ainConvert i raw ref m) := by
  delta ainConvert
  refine Evolves.ite ?_ ?_
  · assumption
  · refine sigWrite_ev ?_
    assumption

theorem gpioSample_ev {org : Mach} {levels m} (h_m : Evolves org m) :
    Evolves org (gpioSample levels m) := by
  delta gpioSample
  refine Evolves.ite ?_ ?_
  · assumption
  · refine eachM_ev (fun _ _ _ => ?_) ?_
    · refine sigWrite_ev ?_
      assumption
    · assumption

theorem execRecCommit_ev {org : Mach} {p v s} (h_s : Evolves org s.m) :
    OutEv org (execRecCommit p v s) := by
  delta execRecCommit
  refine act_ev (fun _ _ => ?_) h_s
  refine writeGate_ev (fun _ _ => ?_) ?_
  · refine commitWrite_ev ?_
    assumption
  · assumption

theorem execRecordTake_ev {org : Mach} {id s} (h_s : Evolves org s.m) :
    OutEv org (execRecordTake id s) := by
  delta execRecordTake
  refine act_ev (fun _ _ => ?_) h_s
  refine takeNow_ev ?_
  assumption

theorem execRegisterWrite_ev {org : Mach} {p off v be env s} (h_s : Evolves org s.m) :
    OutEv org (execRegisterWrite p off v be s env) := by
  delta execRegisterWrite
  refine act_ev (fun _ _ => ?_) h_s
  refine withEnv_ev (fun _ _ => ?_) ?_
  · refine anyWrite_ev ?_
    assumption
  · assumption

theorem execSqcClearWrite_ev {org : Mach} {p e v s} (h_s : Evolves org s.m) :
    OutEv org (execSqcClearWrite p e v s) := by
  delta execSqcClearWrite
  refine act_ev (fun _ _ => ?_) h_s
  refine writeGate_ev (fun _ _ => ?_) ?_
  · refine sqcWrite_ev ?_
    assumption
  · assumption

theorem execLockFieldWrite_ev {org : Mach} {p off v s} (h_s : Evolves org s.m) :
    OutEv org (execLockFieldWrite p off v s) := by
  delta execLockFieldWrite
  refine act_ev (fun _ _ => ?_) h_s
  refine writeGate_ev (fun _ _ => ?_) ?_
  · refine lockWrite_ev ?_
    assumption
  · assumption

theorem execPairLowRead_ev {org : Mach} {p off long s} (h_s : Evolves org s.m) :
    OutEv org (execPairLowRead p off s long) := by
  delta execPairLowRead
  refine act_ev (fun _ _ => ?_) h_s
  refine longRead_ev ?_
  assumption

theorem execPairHighRead_ev {org : Mach} {p off s} (h_s : Evolves org s.m) :
    OutEv org (execPairHighRead p off s) := by
  delta execPairHighRead
  refine act_ev (fun _ _ => ?_) h_s
  refine readGate_ev (fun _ _ => ?_) ?_
  · refine pairHighRead_ev ?_
    assumption
  · assumption

theorem execPairLowWrite_ev {org : Mach} {p off v s} (h_s : Evolves org s.m) :
    OutEv org (execPairLowWrite p off v s) := by
  delta execPairLowWrite
  refine act_ev (fun _ _ => ?_) h_s
  refine pairLowWrite_ev ?_
  assumption

theorem execPairHighWrite_ev {org : Mach} {p off v s} (h_s : Evolves org s.m) :
    OutEv org (execPairHighWrite p off v s) := by
  delta execPairHighWrite
  refine act_ev (fun _ _ => ?_) h_s
  refine pairHighWrite_ev ?_
  assumption

theorem execPair64bitWrite_ev {org : Mach} {p off v more env s} (h_s : Evolves org s.m) :
    OutEv org (execPair64bitWrite p off v s more env) := by
  delta execPair64bitWrite
  refine act_ev (fun _ _ => ?_) h_s
  refine withEnv_ev (fun _ _ => ?_) ?_
  · refine longWrite_ev ?_
    assumption
  · assumption

theorem execTelemetrySend_ev {org : Mach} {s} (h_s : Evolves org s.m) :
    OutEv org (execTelemetrySend s) := by
  delta execTelemetrySend
  refine act_ev (fun _ _ => ?_) h_s
  refine telemetry_ev ?_
  assumption

theorem execAinConversion_ev {org : Mach} {i raw ref s} (h_s : Evolves org s.m) :
    OutEv org (execAinConversion i raw ref s) := by
  delta execAinConversion
  refine act_ev (fun _ _ => ?_) h_s
  refine ainConvert_ev ?_
  assumption

theorem execGpioSample_ev {org : Mach} {levels s} (h_s : Evolves org s.m) :
    OutEv org (execGpioSample levels s) := by
  delta execGpioSample
  refine act_ev (fun _ _ => ?_) h_s
  refine gpioSample_ev ?_
  assumption

end Sys2Proof.Machine
end

