-- ==== Sys2Proof/Laws/Evolve/Tick.lean ====
section
/-!
SUPPORT. What Machine/Tick.lean does never undoes what Laws/Evolve/Base.lean names: one lemma per operation.
-/

namespace Sys2Proof.Machine

theorem tick_ev {org : Mach} {m} (h_m : Evolves org m) :
    Evolves org (tick m) := by
  delta tick
  refine Evolves.upd ?_ rfl rfl rfl rfl rfl rfl rfl rfl rfl
  assumption

end Sys2Proof.Machine
end

