-- ==== Sys2Proof/Laws/Evolve/All.lean ====
section
/-!
SUPPORT. Every command evolves the device: canonical forms are kept, and what is written once stays.
-/

namespace Sys2Proof.Machine

theorem exec_ev (c : Instr) (s : State) : OutEv s.m (exec c s) := by
  have h : Evolves s.m s.m := Evolves.refl _
  cases c with
  | vbatRise => exact execVbatRise_ev h
  | vbatFall => exact execVbatFall_ev h
  | mainSupplyUp _ => exact execMainSupplyUp_ev h
  | mainSupplyLoss => exact execMainSupplyLoss_ev h
  | wakeEdge _ => exact execWakeEdge_ev h
  | rtcAlarm => exact execRtcAlarm_ev h
  | resetNLow => exact execResetNLow_ev h
  | resetNRise _ => exact execResetNRise_ev h
  | resetKeyOpen _ => exact execResetKeyOpen_ev h
  | resetKeyConfirm _ => exact execResetKeyConfirm_ev h
  | resetKeyInvalid _ _ => exact execResetKeyInvalid_ev h
  | resetKeyWindowEnd _ => exact execResetKeyWindowEnd_ev h
  | refclkQualified _ => exact execRefclkQualified_ev h
  | refclkWaitTimeout => exact execRefclkWaitTimeout_ev h
  | memTrainingDone _ _ _ _ _ _ _ => exact execMemTrainingDone_ev h
  | sweepDone => exact execSweepDone_ev h
  | bootComplete _ _ _ _ _ => exact execBootComplete_ev h
  | bootAttemptFail _ => exact execBootAttemptFail_ev h
  | bootWatchdogExpire => exact execBootWatchdogExpire_ev h
  | powerGoodLost _ => exact execPowerGoodLost_ev h
  | glbStart _ _ _ => exact execGlbStart_ev h
  | glbEnd _ _ => exact execGlbEnd_ev h
  | glbStandby _ _ => exact execGlbStandby_ev h
  | standbySequenceResume => exact execStandbySequenceResume_ev h
  | glbSafeHold _ _ => exact execGlbSafeHold_ev h
  | hostTimeoutExpire => exact execHostTimeoutExpire_ev h
  | glbHeartbeat _ _ => exact execGlbHeartbeat_ev h
  | pcieLinkLoss _ => exact execPcieLinkLoss_ev h
  | pcieHotReset _ => exact execPcieHotReset_ev h
  | pcieLinkUp _ => exact execPcieLinkUp_ev h
  | d3hotEntry => exact execD3hotEntry_ev h
  | d0Return => exact execD0Return_ev h
  | perstNAssert _ => exact execPerstNAssert_ev h
  | registerWrite _ _ _ _ _ => exact execRegisterWrite_ev h
  | sqcClearWrite _ _ _ => exact execSqcClearWrite_ev h
  | lockFieldWrite _ _ _ => exact execLockFieldWrite_ev h
  | pairLowRead _ _ _ => exact execPairLowRead_ev h
  | pairHighRead _ _ => exact execPairHighRead_ev h
  | pairLowWrite _ _ _ => exact execPairLowWrite_ev h
  | pairHighWrite _ _ _ => exact execPairHighWrite_ev h
  | pair64bitWrite _ _ _ _ _ => exact execPair64bitWrite_ev h
  | bar2Read _ _ _ => exact execBar2Read_ev h
  | bar2Write _ _ => exact execBar2Write_ev h
  | windowBaseWrite _ _ _ => exact execWindowBaseWrite_ev h
  | dmaTailWrite _ _ _ => exact execDmaTailWrite_ev h
  | dmaEnable _ _ => exact execDmaEnable_ev h
  | dmaDisable _ _ => exact execDmaDisable_ev h
  | dmaSkip _ _ => exact execDmaSkip_ev h
  | dmaRetry _ _ => exact execDmaRetry_ev h
  | dmaRingWrite _ _ _ _ _ => exact execDmaRingWrite_ev h
  | dmaDescDone _ _ _ => exact execDmaDescDone_ev h
  | msixIntervalEnd _ => exact execMsixIntervalEnd_ev h
  | rollback _ _ => exact execRollback_ev h
  | reinstate _ _ => exact execReinstate_ev h
  | raiseFloor _ _ => exact execRaiseFloor_ev h
  | revokeSlot _ _ => exact execRevokeSlot_ev h
  | recSelect _ _ => exact execRecSelect_ev h
  | recDataWrite _ _ _ => exact execRecDataWrite_ev h
  | recCommit _ _ => exact execRecCommit_ev h
  | recordTake _ => exact execRecordTake_ev h
  | quoinAdd _ _ => exact execQuoinAdd_ev h
  | reloadRequest _ _ => exact execReloadRequest_ev h
  | reloadArmed => exact execReloadArmed_ev h
  | reloadSwitch => exact execReloadSwitch_ev h
  | updateWrite _ _ => exact execUpdateWrite_ev h
  | updateCancel _ _ => exact execUpdateCancel_ev h
  | updateStageEnd _ => exact execUpdateStageEnd_ev h
  | jobCommit _ _ _ => exact execJobCommit_ev h
  | commitCheckEnd _ => exact execCommitCheckEnd_ev h
  | jobPause _ _ => exact execJobPause_ev h
  | jobStop _ _ => exact execJobStop_ev h
  | jobResume _ _ _ => exact execJobResume_ev h
  | jobAbort _ _ => exact execJobAbort_ev h
  | jobStart _ _ _ => exact execJobStart_ev h
  | jobFlush _ _ => exact execJobFlush_ev h
  | abortSettled => exact execAbortSettled_ev h
  | makeReadyStepEnd _ => exact execMakeReadyStepEnd_ev h
  | mrTimeout => exact execMrTimeout_ev h
  | imageTimeout _ => exact execImageTimeout_ev h
  | impChoice _ _ => exact execImpChoice_ev h
  | slugEnd _ _ => exact execSlugEnd_ev h
  | waitPrioElapsed _ => exact execWaitPrioElapsed_ev h
  | retire _ _ => exact execRetire_ev h
  | retirementScanEnd _ => exact execRetirementScanEnd_ev h
  | returnBeam _ _ => exact execReturn_ev h
  | returnEngaged _ => exact execReturnEngaged_ev h
  | returnTimeout _ => exact execReturnTimeout_ev h
  | beamAutoReturn _ => exact execBeamAutoReturn_ev h
  | impRecRdWrite _ _ => exact execImpRecRdWrite_ev h
  | recordEntryDeferred _ => exact execRecordEntryDeferred_ev h
  | beamSampleInstant _ _ => exact execBeamSampleInstant_ev h
  | gateEdgeFire _ => exact execGateEdgeFire_ev h
  | dacInstant _ => exact execDacInstant_ev h
  | lookaheadAnswer _ _ _ => exact execLookaheadAnswer_ev h
  | beamMoveAtTarget _ => exact execBeamMoveAtTarget_ev h
  | jumpSettleElapsed _ => exact execJumpSettleElapsed_ev h
  | runupAtStart _ => exact execRunupAtStart_ev h
  | markAtEnd _ => exact execMarkAtEnd_ev h
  | stoppingAtRest _ => exact execStoppingAtRest_ev h
  | driftStale _ => exact execDriftStale_ev h
  | pdPayload _ _ => exact execPdPayload_ev h
  | camBegin _ _ => exact execCamBegin_ev h
  | camLine _ _ => exact execCamLine_ev h
  | frameMetricsReady _ => exact execFrameMetricsReady_ev h
  | frameValidTimeout _ => exact execFrameValidTimeout_ev h
  | noLight _ => exact execNoLight_ev h
  | backrefl _ => exact execBackrefl_ev h
  | corrSat _ => exact execCorrSat_ev h
  | hmapDecaySweep => exact execHmapDecaySweep_ev h
  | hmapRecRdWrite _ _ => exact execHmapRecRdWrite_ev h
  | cellSampleStart _ _ _ _ _ => exact execCellSampleStart_ev h
  | cellSampleOverrun _ => exact execCellSampleOverrun_ev h
  | ctxAutoRestart _ => exact execCtxAutoRestart_ev h
  | cellHardFault _ => exact execCellHardFault_ev h
  | hardSettleDone _ => exact execHardSettleDone_ev h
  | substCopyDone => exact execSubstCopyDone_ev h
  | shadowHandover _ => exact execShadowHandover_ev h
  | katPeriodElapsed _ => exact execKatPeriodElapsed_ev h
  | katDone _ _ => exact execKatDone_ev h
  | cellStart _ _ => exact execCellStart_ev h
  | cellStop _ _ => exact execCellStop_ev h
  | restart _ _ => exact execRestart_ev h
  | subst _ _ => exact execSubst_ev h
  | test _ _ => exact execTest_ev h
  | trig _ _ => exact execTrig_ev h
  | cellTrgWrite _ _ => exact execCellTrgWrite_ev h
  | traceStop _ _ => exact execTraceStop_ev h
  | trcCtrlWrite _ _ _ _ => exact execTrcCtrlWrite_ev h
  | deepRun _ _ => exact execDeepRun_ev h
  | deepDone => exact execDeepDone_ev h
  | lagMaxClear _ _ _ v => exact execLagMaxClear_ev (_v := v) h
  | sigSelWrite _ _ => exact execSigSelWrite_ev h
  | laneSignalDetect _ => exact execLaneSignalDetect_ev h
  | laneDetectTimeout _ => exact execLaneDetectTimeout_ev h
  | laneEqualiseDone _ => exact execLaneEqualiseDone_ev h
  | laneAlignLock _ => exact execLaneAlignLock_ev h
  | trainBlock _ _ _ _ _ _ => exact execTrainBlock_ev h
  | keyBlock _ _ _ => exact execKeyBlock_ev h
  | laneSoakEnd _ _ => exact execLaneSoakEnd_ev h
  | laneTrainTimeout _ => exact execLaneTrainTimeout_ev h
  | laneSignalLoss _ => exact execLaneSignalLoss_ev h
  | laneLockLost _ => exact execLaneLockLost_ev h
  | laneCrcLimit _ => exact execLaneCrcLimit_ev h
  | laneVoidLimit _ => exact execLaneVoidLimit_ev h
  | laneRetryElapsed _ => exact execLaneRetryElapsed_ev h
  | sealBlock _ _ => exact execSealBlock_ev h
  | switchRouted _ _ => exact execSwitchRouted_ev h
  | switchSoakResult _ _ => exact execSwitchSoakResult_ev h
  | posFrame _ _ => exact execPosFrame_ev h
  | statusFrame _ _ => exact execStatusFrame_ev h
  | tsyncRFrame _ _ => exact execTsyncRFrame_ev h
  | auxValFrame _ _ => exact execAuxValFrame_ev h
  | imgBeginFrame _ _ => exact execImgBeginFrame_ev h
  | imgSegFrame _ _ _ => exact execImgSegFrame_ev h
  | cmdKeepalive _ => exact execCmdKeepalive_ev h
  | auxCmdKeepalive _ => exact execAuxCmdKeepalive_ev h
  | tsyncSend => exact execTsyncSend_ev h
  | releaseSend _ => exact execReleaseSend_ev h
  | statusTimeout _ => exact execStatusTimeout_ev h
  | floodTimeout _ => exact execFloodTimeout_ev h
  | laneRetrain _ _ _ => exact execLaneRetrain_ev h
  | eyeScan _ _ _ => exact execEyeScan_ev h
  | eyeScanDone _ _ _ => exact execEyeScanDone_ev h
  | testEnter _ _ _ => exact execTestEnter_ev h
  | testExit _ _ _ _ => exact execTestExit_ev h
  | injectBitError _ _ _ => exact execInjectBitError_ev h
  | injectErrorRate _ _ _ => exact execInjectErrorRate_ev h
  | injectStop _ _ _ => exact execInjectStop_ev h
  | injectInvalidHeader _ _ _ => exact execInjectInvalidHeader_ev h
  | injectCrcError _ _ _ => exact execInjectCrcError_ev h
  | injectSealError _ _ _ => exact execInjectSealError_ev h
  | moveAbs _ _ _ => exact execMoveAbs_ev h
  | moveRel _ _ _ => exact execMoveRel_ev h
  | axisStop _ _ _ => exact execAxisStop_ev h
  | axisResume _ _ _ => exact execAxisResume_ev h
  | home _ _ _ => exact execHome_ev h
  | clear _ _ _ => exact execClear_ev h
  | cmpClear _ _ _ => exact execCmpClear_ev h
  | cmpPush _ _ _ => exact execCmpPush_ev h
  | profileUpdate _ => exact execProfileUpdate_ev h
  | axisTargetReached _ => exact execAxisTargetReached_ev h
  | axisAtRest _ => exact execAxisAtRest_ev h
  | encQuadStep _ _ _ => exact execEncQuadStep_ev h
  | quadErrLimit _ => exact execQuadErrLimit_ev h
  | encIndexEdge _ => exact execEncIndexEdge_ev h
  | ssiReading _ _ _ _ _ => exact execSsiReading_ev h
  | axisSignalPublish _ => exact execAxisSignalPublish_ev h
  | stallCheck _ => exact execStallCheck_ev h
  | axisStall _ => exact execAxisStall_ev h
  | limitAssert _ _ => exact execLimitAssert_ev h
  | limitRelease _ _ _ _ => exact execLimitRelease_ev h
  | homeInputEdge _ _ => exact execHomeInputEdge_ev h
  | encoutEmit _ => exact execEncoutEmit_ev h
  | speedZeroTimeout _ => exact execSpeedZeroTimeout_ev h
  | holdDelayElapsed _ => exact execHoldDelayElapsed_ev h
  | inhibitFall _ => exact execInhibitFall_ev h
  | inhibitRise _ => exact execInhibitRise_ev h
  | inputLatchRearm => exact execInputLatchRearm_ev h
  | discrepancyFault => exact execDiscrepancyFault_ev h
  | lampAck _ _ => exact execLampAck_ev h
  | scene _ _ => exact execScene_ev h
  | lampPollCycle _ => exact execLampPollCycle_ev h
  | lampReply _ _ => exact execLampReply_ev h
  | lampPollMissed _ => exact execLampPollMissed_ev h
  | notMeasuredTimeout _ => exact execNotMeasuredTimeout_ev h
  | alFrameSend => exact execAlFrameSend_ev h
  | colourFeedback => exact execColourFeedback_ev h
  | blinkToggle _ => exact execBlinkToggle_ev h
  | ptpEventRx _ _ _ => exact execPtpEventRx_ev h
  | ptpTx _ _ _ => exact execPtpTx_ev h
  | masterLost => exact execMasterLost_ev h
  | timeMapChange _ _ _ _ => exact execTimeMapChange_ev h
  | timeSnap _ _ => exact execTimeSnap_ev h
  | xtal32Fail => exact execXtal32Fail_ev h
  | memRetrain _ _ => exact execMemRetrain_ev h
  | scrubNow _ _ => exact execScrubNow_ev h
  | retrainRun _ => exact execRetrainRun_ev h
  | retrainEnd _ _ _ _ _ => exact execRetrainEnd_ev h
  | refreshDue _ _ _ => exact execRefreshDue_ev h
  | writeQueueDrain _ _ => exact execWriteQueueDrain_ev h
  | hotRowRefresh _ _ _ => exact execHotRowRefresh_ev h
  | hotRowWindow => exact execHotRowWindow_ev h
  | mr4Poll _ _ _ _ _ _ => exact execMr4Poll_ev h
  | scrubPassStart _ => exact execScrubPassStart_ev h
  | scrubPassDone => exact execScrubPassDone_ev h
  | clockMonitorTrip _ => exact execClockMonitorTrip_ev h
  | fallbackRcQualified => exact execFallbackRcQualified_ev h
  | fallbackPllLocked _ => exact execFallbackPllLocked_ev h
  | fallbackFirmwareReady _ => exact execFallbackFirmwareReady_ev h
  | fallbackTimeout => exact execFallbackTimeout_ev h
  | pllUnlock _ _ => exact execPllUnlock_ev h
  | pllRelock _ => exact execPllRelock_ev h
  | clkoutSrcWrite _ _ _ => exact execClkoutSrcWrite_ev h
  | clkoutSwitchDone _ => exact execClkoutSwitchDone_ev h
  | switchStuck _ => exact execSwitchStuck_ev h
  | clkGateRequest _ _ => exact execClkGateRequest_ev h
  | gateClose _ => exact execGateClose_ev h
  | gateTimeout _ => exact execGateTimeout_ev h
  | vbatLowSample _ => exact execVbatLowSample_ev h
  | tempRead _ _ _ => exact execTempRead_ev h
  | throttleTimer => exact execThrottleTimer_ev h
  | thermalShutdown => exact execThermalShutdown_ev h
  | canaryLimit => exact execCanaryLimit_ev h
  | vcoreMismatch _ => exact execVcoreMismatch_ev h
  | touchstoneMeasure _ => exact execTouchstoneMeasure_ev h
  | marginHourlyCheck => exact execMarginHourlyCheck_ev h
  | eyeScanSchedule => exact execEyeScanSchedule_ev h
  | laneRetrainRequest _ => exact execLaneRetrainRequest_ev h
  | laserMonSample _ => exact execLaserMonSample_ev h
  | laserRatioUpdate _ => exact execLaserRatioUpdate_ev h
  | laserEvaluation _ => exact execLaserEvaluation_ev h
  | notchMeasure _ _ _ => exact execNotchMeasure_ev h
  | notchRetuneCommit _ => exact execNotchRetuneCommit_ev h
  | cal _ _ => exact execCal_ev h
  | calRunDone _ _ => exact execCalRunDone_ev h
  | calStep _ => exact execCalStep_ev h
  | echo _ _ => exact execEcho_ev h
  | info _ _ => exact execInfo_ev h
  | logFetch _ _ => exact execLogFetch_ev h
  | logFlush _ _ => exact execLogFlush_ev h
  | netArm _ _ => exact execNetArm_ev h
  | rtcSet _ _ => exact execRtcSet_ev h
  | mbReply => exact execMbReply_ev h
  | mgmtWatchdogExpire _ => exact execMgmtWatchdogExpire_ev h
  | logStageCopy => exact execLogStageCopy_ev h
  | logNvmFlush _ => exact execLogNvmFlush_ev h
  | updBegin _ _ _ => exact execUpdBegin_ev h
  | updData _ _ _ _ => exact execUpdData_ev h
  | updEnd _ _ => exact execUpdEnd_ev h
  | logReq _ _ _ _ => exact execLogReq_ev h
  | netTransferIdle => exact execNetTransferIdle_ev h
  | netWindowClose => exact execNetWindowClose_ev h
  | telemetrySend => exact execTelemetrySend_ev h
  | ethLos _ _ => exact execEthLos_ev h
  | xtal32Qualified => exact execXtal32Qualified_ev h
  | pwmValley => exact execPwmValley_ev h
  | microstep _ => exact execMicrostep_ev h
  | cmpPulseEnd _ => exact execCmpPulseEnd_ev h
  | ainConversion _ _ _ => exact execAinConversion_ev h
  | gpioSample _ => exact execGpioSample_ev h
  | powerGoodTimeout => exact execPowerGoodTimeout_ev h
  | backupRcStopped => exact execBackupRcStopped_ev h
  | hmapCopyDone => exact execHmapCopyDone_ev h
  | hmapSweepDone => exact execHmapSweepDone_ev h
  | msixUnmask _ => exact execMsixUnmask_ev h

end Sys2Proof.Machine
end

