-- ==== Sys2Proof/Laws/Frame/Ops.lean ====
section
/-!
SUPPORT. The parts of the device that the operations of Machine/Ops.lean can touch: one lemma per operation.
-/

namespace Sys2Proof.Machine

theorem drawWord_fr {L : List Part} {org : Mach} {m} (hL : [.free] ⊆ L) (h_m : Frame L org m) :
    Frame L org (drawWord m).2 := by
  delta drawWord
  refine Frame.mk2 ?_
  refine Frame.upd ?_ (.inr rfl) (.inl (hL (by decide))) (.inr rfl) (.inr rfl) (.inr rfl) (.inr rfl) (.inr rfl) (.inr rfl) (.inr rfl) (.inr rfl) (.inr rfl) (.inr rfl) (.inr rfl) (.inr rfl) (.inr rfl) (.inr rfl) (.inr rfl) (.inr rfl) (.inr rfl) (.inr rfl) (.inr rfl) (.inr rfl) (.inr rfl) (.inr rfl) (.inr rfl) (.inr rfl) rfl
  assumption

theorem drawRandom_fr {L : List Part} {org : Mach} {m} (hL : [.free] ⊆ L) (h_m : Frame L org m) :
    Frame L org (drawRandom m).2 := by
  delta drawRandom
  refine Frame.mk2 ?_
  refine Frame.upd ?_ (.inr rfl) (.inl (hL (by decide))) (.inr rfl) (.inr rfl) (.inr rfl) (.inr rfl) (.inr rfl) (.inr rfl) (.inr rfl) (.inr rfl) (.inr rfl) (.inr rfl) (.inr rfl) (.inr rfl) (.inr rfl) (.inr rfl) (.inr rfl) (.inr rfl) (.inr rfl) (.inr rfl) (.inr rfl) (.inr rfl) (.inr rfl) (.inr rfl) (.inr rfl) (.inr rfl) rfl
  assumption

theorem emit_fr {L : List Part} {org : Mach} {o m} (hL : [.outs] ⊆ L) (h_m : Frame L org m) :
    Frame L org (emit o m) := by
  delta emit
  refine Frame.upd ?_ (.inl (hL (by decide))) (.inr rfl) (.inr rfl) (.inr rfl) (.inr rfl) (.inr rfl) (.inr rfl) (.inr rfl) (.inr rfl) (.inr rfl) (.inr rfl) (.inr rfl) (.inr rfl) (.inr rfl) (.inr rfl) (.inr rfl) (.inr rfl) (.inr rfl) (.inr rfl) (.inr rfl) (.inr rfl) (.inr rfl) (.inr rfl) (.inr rfl) (.inr rfl) (.inr rfl) rfl
  assumption

theorem regSet_fr {L : List Part} {org : Mach} {off w m} (hL : [.ev .glb, .ev .dma, .ev .boot, .ev .job, .ev .imp, .ev .beam, .ev .mpl, .ev .hmap, .ev .sig, .ev .cell, .ev .cellArr, .ev .lane, .ev .stg, .ev .ilk, .ev .time, .ev .mem, .ev .clk, .ev .pwr, .ev .hlt, .ev .mgt, .regs] ⊆ L) (h_m : Frame L org m) :
    Frame L org (regSet off w m) := by
  delta regSet
  refine Frame.upd ?_ (.inr rfl) (.inr rfl) (.inr rfl) (.inr rfl) (.inr rfl) (.inr rfl) (.inr rfl) (.inr rfl) (.inr rfl) (.inr rfl) (.inr rfl) (.inr rfl) (.inr rfl) (.inr rfl) (.inr rfl) (.inr rfl) (.inr rfl) (.inr rfl) (.inr rfl) (.inr rfl) (.inr rfl) (.inr rfl) (.inr rfl) (.inr rfl) (.inr rfl) (.inl ⟨fun k => by cases k <;> exact hL (by decide), hL (by decide)⟩) rfl
  assumption

theorem logAt_fr {L : List Part} {org : Mach} {t code sev unit arg m} (hL : [.msix, .log, .ev .mgt, .outs] ⊆ L) (h_m : Frame L org m) :
    Frame L org (logAt t code sev unit arg m) := by
  delta logAt
  refine Frame.ite ?_ ?_
  · assumption
  · refine Frame.ite ?_ ?_
    · refine Frame.upd ?_ (.inr rfl) (.inr rfl) (.inr rfl) (.inr rfl) (.inr rfl) (.inr rfl) (.inr rfl) (.inr rfl) (.inr rfl) (.inr rfl) (.inr rfl) (.inl (hL (by decide))) (.inr rfl) (.inr rfl) (.inr rfl) (.inr rfl) (.inr rfl) (.inr rfl) (.inr rfl) (.inr rfl) (.inr rfl) (.inr rfl) (.inr rfl) (.inr rfl) (.inr rfl) (.inr rfl) rfl
      assumption
    · extract_lets x1 x2 x3 x4 x5 x6
      have hx5 : Frame L org x5 := by
        unfold x5
        refine Frame.upd ?_ (.inr rfl) (.inr rfl) (.inr rfl) (.inr rfl) (.inr rfl) (.inr rfl) (.inr rfl) (.inr rfl) (.inr rfl) (.inr rfl) (.inr rfl) (.inl (hL (by decide))) (.inr rfl) (.inr rfl) (.inr rfl) (.inr rfl) (.inr rfl) (.inr rfl) (.inr rfl) (.inr rfl) (.inr rfl) (.inr rfl) (.inr rfl) (.inr rfl) (.inr rfl) (.inr rfl) rfl
        assumption
      clear_value x5
      have hx6 : Frame L org x6 := by
        unfold x6
        refine Frame.ite ?_ ?_
        · refine raise_fr (partsIn_sub (by simp only [EvReg.kind]; decide) hL) ?_
          assumption
        · assumption
      clear_value x6
      refine Frame.ite ?_ ?_
      · refine raise_fr (partsIn_sub (by simp only [EvReg.kind]; decide) hL) ?_
        assumption
      · assumption

theorem log_fr {L : List Part} {org : Mach} {code sev unit arg m} (hL : [.msix, .log, .ev .mgt, .outs] ⊆ L) (h_m : Frame L org m) :
    Frame L org (log code sev unit arg m) := by
  delta log
  refine logAt_fr (partsIn_sub (by decide) hL) ?_
  assumption

theorem bootEntries_fr {L : List Part} {org : Mach} {m0} (hL : [.msix, .log, .ev .mgt, .outs] ⊆ L) (h_m0 : Frame L org m0) :
    Frame L org (bootEntries m0) := by
  delta bootEntries
  refine Frame.ite ?_ ?_
  · assumption
  · extract_lets x1 x2 x3 x4 x5 x6 x7 x8
    have hx3 : Frame L org x3 := by
      unfold x3
      refine Frame.upd ?_ (.inr rfl) (.inr rfl) (.inr rfl) (.inr rfl) (.inr rfl) (.inr rfl) (.inr rfl) (.inr rfl) (.inr rfl) (.inr rfl) (.inr rfl) (.inl (hL (by decide))) (.inr rfl) (.inr rfl) (.inr rfl) (.inr rfl) (.inr rfl) (.inr rfl) (.inr rfl) (.inr rfl) (.inr rfl) (.inr rfl) (.inr rfl) (.inr rfl) (.inr rfl) (.inr rfl) rfl
      assumption
    clear_value x3
    have hx5 : Frame L org x5 := by
      unfold x5
      refine log_fr (partsIn_sub (by decide) hL) ?_
      assumption
    clear_value x5
    have hx7 : Frame L org x7 := by
      unfold x7
      refine whenM_fr (fun _ _ => ?_) ?_
      · refine log_fr (partsIn_sub (by decide) hL) ?_
        assumption
      · assumption
    clear_value x7
    have hx8 : Frame L org x8 := by
      unfold x8
      refine whenM_fr (fun _ _ => ?_) ?_
      · refine log_fr (partsIn_sub (by decide) hL) ?_
        assumption
      · assumption
    clear_value x8
    refine eachM_fr (fun _ _ _ => ?_) ?_
    · refine logAt_fr (partsIn_sub (by decide) hL) ?_
      assumption
    · assumption

theorem repairAt_fr {L : List Part} {org : Mach} {t code unit arg m} (hL : [.msix, .log, .ev .glb, .ev .mgt, .outs] ⊆ L) (h_m : Frame L org m) :
    Frame L org (repairAt t code unit arg m) := by
  delta repairAt
  extract_lets x1 x2
  have hx1 : Frame L org x1 := by
    unfold x1
    refine logAt_fr (partsIn_sub (by decide) hL) ?_
    assumption
  clear_value x1
  refine raise_fr (partsIn_sub (by simp only [EvReg.kind]; decide) hL) ?_
  refine Frame.upd ?_ (.inr rfl) (.inr rfl) (.inr rfl) (.inr rfl) (.inr rfl) (.inr rfl) (.inr rfl) (.inr rfl) (.inr rfl) (.inr rfl) (.inr rfl) (.inl (hL (by decide))) (.inr rfl) (.inr rfl) (.inr rfl) (.inr rfl) (.inr rfl) (.inr rfl) (.inr rfl) (.inr rfl) (.inr rfl) (.inr rfl) (.inr rfl) (.inr rfl) (.inr rfl) (.inr rfl) rfl
  assumption

theorem repair_fr {L : List Part} {org : Mach} {code unit arg m} (hL : [.msix, .log, .ev .glb, .ev .mgt, .outs] ⊆ L) (h_m : Frame L org m) :
    Frame L org (repair code unit arg m) := by
  delta repair
  refine repairAt_fr (partsIn_sub (by decide) hL) ?_
  assumption

theorem onPort_fr {L : List Part} {org : Mach} {p f m} (hL : [.g, .msix] ⊆ L) (h_m : Frame L org m) :
    Frame L org (onPort p f m) := by
  delta onPort
  refine Frame.upd ?_ (.inr rfl) (.inr rfl) (.inr rfl) (.inl (hL (by decide))) (.inl (hL (by decide))) (.inr rfl) (.inr rfl) (.inr rfl) (.inr rfl) (.inr rfl) (.inr rfl) (.inr rfl) (.inr rfl) (.inr rfl) (.inr rfl) (.inr rfl) (.inr rfl) (.inr rfl) (.inr rfl) (.inr rfl) (.inr rfl) (.inr rfl) (.inr rfl) (.inr rfl) (.inr rfl) (.inr rfl) rfl
  assumption

theorem accessError_fr {L : List Part} {org : Mach} {cause bit code p off m} (hL : [.g, .msix, .log, .ev .glb, .ev .mgt, .outs] ⊆ L) (h_m : Frame L org m) :
    Frame L org (accessError cause bit code p off m) := by
  delta accessError
  extract_lets x1 x2
  have hx2 : Frame L org x2 := by
    unfold x2
    refine Frame.upd ?_ (.inr rfl) (.inr rfl) (.inr rfl) (.inl (hL (by decide))) (.inr rfl) (.inr rfl) (.inr rfl) (.inr rfl) (.inr rfl) (.inr rfl) (.inr rfl) (.inr rfl) (.inr rfl) (.inr rfl) (.inr rfl) (.inr rfl) (.inr rfl) (.inr rfl) (.inr rfl) (.inr rfl) (.inr rfl) (.inr rfl) (.inr rfl) (.inr rfl) (.inr rfl) (.inr rfl) rfl
    assumption
  clear_value x2
  refine log_fr (partsIn_sub (by decide) hL) ?_
  refine raise_fr (partsIn_sub (by simp only [EvReg.kind]; decide) hL) ?_
  assumption

theorem lockErr_fr {L : List Part} {org : Mach} {z0 z1 z2} (hL : [.g, .msix, .log, .ev .glb, .ev .mgt, .outs] ⊆ L) (h_z2 : Frame L org z2) :
    Frame L org (lockErr z0 z1 z2) := by
  delta lockErr
  refine accessError_fr (partsIn_sub (by decide) hL) ?_
  assumption

theorem accErr_fr {L : List Part} {org : Mach} {z0 z1 z2} (hL : [.g, .msix, .log, .ev .glb, .ev .mgt, .outs] ⊆ L) (h_z2 : Frame L org z2) :
    Frame L org (accErr z0 z1 z2) := by
  delta accErr
  refine accessError_fr (partsIn_sub (by decide) hL) ?_
  assumption

theorem shadowMiss_fr {L : List Part} {org : Mach} {z0 z1 z2} (hL : [.g, .msix, .log, .ev .glb, .ev .mgt, .outs] ⊆ L) (h_z2 : Frame L org z2) :
    Frame L org (shadowMiss z0 z1 z2) := by
  delta shadowMiss
  refine accessError_fr (partsIn_sub (by decide) hL) ?_
  assumption

theorem cmdError_fr {L : List Part} {org : Mach} {m} (hL : [.msix, .ev .glb, .outs] ⊆ L) (h_m : Frame L org m) :
    Frame L org (cmdError m) := by
  delta cmdError
  refine raise_fr (partsIn_sub (by simp only [EvReg.kind]; decide) hL) ?_
  assumption

theorem dropShadow_fr {L : List Part} {org : Mach} {p off m} (hL : [.g, .msix, .log, .ev .glb, .ev .mgt, .outs] ⊆ L) (h_m : Frame L org m) :
    Frame L org (dropShadow p off m) := by
  delta dropShadow
  split
  · assumption
  · refine shadowMiss_fr (partsIn_sub (by decide) hL) ?_
    refine onPort_fr (partsIn_sub (by decide) hL) ?_
    assumption

theorem writeGate_fr {L : List Part} {org : Mach} {p off f m} (hL : [.g, .msix, .log, .ev .glb, .ev .mgt, .outs] ⊆ L) (hf_f : ∀ m, Frame L org m → Frame L org (f m)) (h_m : Frame L org m) :
    Frame L org (writeGate p off f m) := by
  delta writeGate
  refine Frame.ite ?_ ?_
  · assumption
  · extract_lets x1
    have hx1 : Frame L org x1 := by
      unfold x1
      refine dropShadow_fr (partsIn_sub (by decide) hL) ?_
      assumption
    clear_value x1
    refine Frame.ite ?_ ?_
    · apply hf_f
      assumption
    · refine accErr_fr (partsIn_sub (by decide) hL) ?_
      assumption

theorem pairGate_fr {L : List Part} {org : Mach} {p low f m} (hL : [.g, .msix, .log, .ev .glb, .ev .mgt, .outs] ⊆ L) (hf_f : ∀ m, Frame L org m → Frame L org (f m)) (h_m : Frame L org m) :
    Frame L org (pairGate p low f m) := by
  delta pairGate
  split
  · refine Frame.ite ?_ ?_
    · refine writeGate_fr (partsIn_sub (by decide) hL) (fun _ _ => ?_) ?_
      · apply hf_f
        assumption
      · refine onPort_fr (partsIn_sub (by decide) hL) ?_
        assumption
    · refine writeGate_fr (partsIn_sub (by decide) hL) (fun _ _ => ?_) ?_
      · apply hf_f
        assumption
      · assumption
  · refine writeGate_fr (partsIn_sub (by decide) hL) (fun _ _ => ?_) ?_
    · apply hf_f
      assumption
    · assumption

theorem logClass_fr {L : List Part} {org : Mach} {cls unit arg m} (hL : [.msix, .log, .ev .mgt, .outs, .free] ⊆ L) (h_m : Frame L org m) :
    Frame L org (logClass cls unit arg m) := by
  delta logClass
  refine Frame.ite ?_ ?_
  · assumption
  · split
    · rename_i heq
      refine Frame.let2 (l := L) (b := org) heq ?_ (fun _ => ?_)
      · refine drawWord_fr (partsIn_sub (by decide) hL) ?_
        assumption
      refine log_fr (partsIn_sub (by decide) hL) ?_
      assumption

theorem healthLog_fr {L : List Part} {org : Mach} {q unit value limit m} (hL : [.msix, .log, .ev .mgt, .outs, .free] ⊆ L) (h_m : Frame L org m) :
    Frame L org (healthLog q unit value limit m) := by
  delta healthLog
  refine logClass_fr (partsIn_sub (by decide) hL) ?_
  assumption

theorem onImp_fr {L : List Part} {org : Mach} {b f m} (hL : [.imp] ⊆ L) (h_m : Frame L org m) :
    Frame L org (onImp b f m) := by
  delta onImp
  refine Frame.upd ?_ (.inr rfl) (.inr rfl) (.inr rfl) (.inr rfl) (.inr rfl) (.inr rfl) (.inr rfl) (.inr rfl) (.inr rfl) (.inr rfl) (.inr rfl) (.inr rfl) (.inr rfl) (.inr rfl) (.inl (hL (by decide))) (.inr rfl) (.inr rfl) (.inr rfl) (.inr rfl) (.inr rfl) (.inr rfl) (.inr rfl) (.inr rfl) (.inr rfl) (.inr rfl) (.inr rfl) rfl
  assumption

theorem onBeam_fr {L : List Part} {org : Mach} {b f m} (hL : [.beams] ⊆ L) (h_m : Frame L org m) :
    Frame L org (onBeam b f m) := by
  delta onBeam
  refine Frame.upd ?_ (.inr rfl) (.inr rfl) (.inr rfl) (.inr rfl) (.inr rfl) (.inr rfl) (.inr rfl) (.inr rfl) (.inr rfl) (.inr rfl) (.inr rfl) (.inr rfl) (.inr rfl) (.inr rfl) (.inr rfl) (.inl (hL (by decide))) (.inr rfl) (.inr rfl) (.inr rfl) (.inr rfl) (.inr rfl) (.inr rfl) (.inr rfl) (.inr rfl) (.inr rfl) (.inr rfl) rfl
  assumption

theorem onMpl_fr {L : List Part} {org : Mach} {b f m} (hL : [.mpl] ⊆ L) (h_m : Frame L org m) :
    Frame L org (onMpl b f m) := by
  delta onMpl
  refine Frame.upd ?_ (.inr rfl) (.inr rfl) (.inr rfl) (.inr rfl) (.inr rfl) (.inr rfl) (.inr rfl) (.inr rfl) (.inr rfl) (.inr rfl) (.inr rfl) (.inr rfl) (.inr rfl) (.inr rfl) (.inr rfl) (.inr rfl) (.inl (hL (by decide))) (.inr rfl) (.inr rfl) (.inr rfl) (.inr rfl) (.inr rfl) (.inr rfl) (.inr rfl) (.inr rfl) (.inr rfl) rfl
  assumption

theorem onLane_fr {L : List Part} {org : Mach} {l f m} (hL : [.lanes] ⊆ L) (h_m : Frame L org m) :
    Frame L org (onLane l f m) := by
  delta onLane
  refine Frame.upd ?_ (.inr rfl) (.inr rfl) (.inr rfl) (.inr rfl) (.inr rfl) (.inr rfl) (.inr rfl) (.inr rfl) (.inr rfl) (.inr rfl) (.inr rfl) (.inr rfl) (.inr rfl) (.inr rfl) (.inr rfl) (.inr rfl) (.inr rfl) (.inr rfl) (.inr rfl) (.inr rfl) (.inl (hL (by decide))) (.inr rfl) (.inr rfl) (.inr rfl) (.inr rfl) (.inr rfl) rfl
  assumption

theorem onHead_fr {L : List Part} {org : Mach} {h f m} (hL : [.heads] ⊆ L) (h_m : Frame L org m) :
    Frame L org (onHead h f m) := by
  delta onHead
  refine Frame.upd ?_ (.inr rfl) (.inr rfl) (.inr rfl) (.inr rfl) (.inr rfl) (.inr rfl) (.inr rfl) (.inr rfl) (.inr rfl) (.inr rfl) (.inr rfl) (.inr rfl) (.inr rfl) (.inr rfl) (.inr rfl) (.inr rfl) (.inr rfl) (.inr rfl) (.inr rfl) (.inr rfl) (.inr rfl) (.inl (hL (by decide))) (.inr rfl) (.inr rfl) (.inr rfl) (.inr rfl) rfl
  assumption

theorem onAxis_fr {L : List Part} {org : Mach} {a f m} (hL : [.stg] ⊆ L) (h_m : Frame L org m) :
    Frame L org (onAxis a f m) := by
  delta onAxis
  refine Frame.upd ?_ (.inr rfl) (.inr rfl) (.inr rfl) (.inr rfl) (.inr rfl) (.inr rfl) (.inr rfl) (.inr rfl) (.inr rfl) (.inr rfl) (.inr rfl) (.inr rfl) (.inr rfl) (.inr rfl) (.inr rfl) (.inr rfl) (.inr rfl) (.inr rfl) (.inr rfl) (.inr rfl) (.inr rfl) (.inr rfl) (.inl (hL (by decide))) (.inr rfl) (.inr rfl) (.inr rfl) rfl
  assumption

theorem onCell_fr {L : List Part} {org : Mach} {c f m} (hL : [.cells] ⊆ L) (h_m : Frame L org m) :
    Frame L org (onCell c f m) := by
  delta onCell
  refine Frame.upd ?_ (.inr rfl) (.inr rfl) (.inr rfl) (.inr rfl) (.inr rfl) (.inr rfl) (.inr rfl) (.inr rfl) (.inr rfl) (.inr rfl) (.inr rfl) (.inr rfl) (.inr rfl) (.inr rfl) (.inr rfl) (.inr rfl) (.inr rfl) (.inr rfl) (.inl (hL (by decide))) (.inr rfl) (.inr rfl) (.inr rfl) (.inr rfl) (.inr rfl) (.inr rfl) (.inr rfl) rfl
  assumption

theorem onCtx_fr {L : List Part} {org : Mach} {k f m} (hL : [.cells] ⊆ L) (h_m : Frame L org m) :
    Frame L org (onCtx k f m) := by
  delta onCtx
  refine Frame.upd ?_ (.inr rfl) (.inr rfl) (.inr rfl) (.inr rfl) (.inr rfl) (.inr rfl) (.inr rfl) (.inr rfl) (.inr rfl) (.inr rfl) (.inr rfl) (.inr rfl) (.inr rfl) (.inr rfl) (.inr rfl) (.inr rfl) (.inr rfl) (.inr rfl) (.inl (hL (by decide))) (.inr rfl) (.inr rfl) (.inr rfl) (.inr rfl) (.inr rfl) (.inr rfl) (.inr rfl) rfl
  assumption

theorem onIlk_fr {L : List Part} {org : Mach} {f m} (hL : [.ilk] ⊆ L) (h_m : Frame L org m) :
    Frame L org (onIlk f m) := by
  delta onIlk
  refine Frame.upd ?_ (.inr rfl) (.inr rfl) (.inr rfl) (.inr rfl) (.inr rfl) (.inr rfl) (.inr rfl) (.inr rfl) (.inr rfl) (.inr rfl) (.inr rfl) (.inr rfl) (.inr rfl) (.inr rfl) (.inr rfl) (.inr rfl) (.inr rfl) (.inr rfl) (.inr rfl) (.inr rfl) (.inr rfl) (.inr rfl) (.inr rfl) (.inl (hL (by decide))) (.inr rfl) (.inr rfl) rfl
  assumption

theorem onJob_fr {L : List Part} {org : Mach} {f m} (hL : [.job] ⊆ L) (h_m : Frame L org m) :
    Frame L org (onJob f m) := by
  delta onJob
  refine Frame.upd ?_ (.inr rfl) (.inr rfl) (.inr rfl) (.inr rfl) (.inr rfl) (.inr rfl) (.inr rfl) (.inr rfl) (.inr rfl) (.inr rfl) (.inr rfl) (.inr rfl) (.inr rfl) (.inl (hL (by decide))) (.inr rfl) (.inr rfl) (.inr rfl) (.inr rfl) (.inr rfl) (.inr rfl) (.inr rfl) (.inr rfl) (.inr rfl) (.inr rfl) (.inr rfl) (.inr rfl) rfl
  assumption

theorem onTime_fr {L : List Part} {org : Mach} {f m} (hL : [.time] ⊆ L) (h_m : Frame L org m) :
    Frame L org (onTime f m) := by
  delta onTime
  refine Frame.upd ?_ (.inr rfl) (.inr rfl) (.inr rfl) (.inr rfl) (.inr rfl) (.inr rfl) (.inr rfl) (.inr rfl) (.inr rfl) (.inr rfl) (.inr rfl) (.inr rfl) (.inl (hL (by decide))) (.inr rfl) (.inr rfl) (.inr rfl) (.inr rfl) (.inr rfl) (.inr rfl) (.inr rfl) (.inr rfl) (.inr rfl) (.inr rfl) (.inr rfl) (.inr rfl) (.inr rfl) rfl
  assumption

theorem onHlt_fr {L : List Part} {org : Mach} {f m} (hL : [.hlt] ⊆ L) (h_m : Frame L org m) :
    Frame L org (onHlt f m) := by
  delta onHlt
  refine Frame.upd ?_ (.inr rfl) (.inr rfl) (.inr rfl) (.inr rfl) (.inr rfl) (.inr rfl) (.inr rfl) (.inr rfl) (.inr rfl) (.inr rfl) (.inr rfl) (.inr rfl) (.inr rfl) (.inr rfl) (.inr rfl) (.inr rfl) (.inr rfl) (.inr rfl) (.inr rfl) (.inr rfl) (.inr rfl) (.inr rfl) (.inr rfl) (.inr rfl) (.inl (hL (by decide))) (.inr rfl) rfl
  assumption

theorem onHmap_fr {L : List Part} {org : Mach} {f m} (hL : [.hmap] ⊆ L) (h_m : Frame L org m) :
    Frame L org (onHmap f m) := by
  delta onHmap
  refine Frame.upd ?_ (.inr rfl) (.inr rfl) (.inr rfl) (.inr rfl) (.inr rfl) (.inr rfl) (.inr rfl) (.inr rfl) (.inr rfl) (.inr rfl) (.inr rfl) (.inr rfl) (.inr rfl) (.inr rfl) (.inr rfl) (.inr rfl) (.inr rfl) (.inl (hL (by decide))) (.inr rfl) (.inr rfl) (.inr rfl) (.inr rfl) (.inr rfl) (.inr rfl) (.inr rfl) (.inr rfl) rfl
  assumption

theorem onImpAll_fr {L : List Part} {org : Mach} {f m} (hL : [.imp] ⊆ L) (h_m : Frame L org m) :
    Frame L org (onImpAll f m) := by
  delta onImpAll
  refine Frame.upd ?_ (.inr rfl) (.inr rfl) (.inr rfl) (.inr rfl) (.inr rfl) (.inr rfl) (.inr rfl) (.inr rfl) (.inr rfl) (.inr rfl) (.inr rfl) (.inr rfl) (.inr rfl) (.inr rfl) (.inl (hL (by decide))) (.inr rfl) (.inr rfl) (.inr rfl) (.inr rfl) (.inr rfl) (.inr rfl) (.inr rfl) (.inr rfl) (.inr rfl) (.inr rfl) (.inr rfl) rfl
  assumption

theorem sigPut_fr {L : List Part} {org : Mach} {n s m} (hL : [.sig] ⊆ L) (h_m : Frame L org m) :
    Frame L org (sigPut n s m) := by
  delta sigPut
  refine Frame.upd ?_ (.inr rfl) (.inr rfl) (.inr rfl) (.inr rfl) (.inr rfl) (.inr rfl) (.inr rfl) (.inr rfl) (.inr rfl) (.inr rfl) (.inr rfl) (.inr rfl) (.inr rfl) (.inr rfl) (.inr rfl) (.inr rfl) (.inr rfl) (.inr rfl) (.inr rfl) (.inl (hL (by decide))) (.inr rfl) (.inr rfl) (.inr rfl) (.inr rfl) (.inr rfl) (.inr rfl) rfl
  assumption

theorem sigWriteAt_fr {L : List Part} {org : Mach} {n v t m} (hL : [.sig] ⊆ L) (h_m : Frame L org m) :
    Frame L org (sigWriteAt n v t m) := by
  delta sigWriteAt
  refine sigPut_fr (partsIn_sub (by decide) hL) ?_
  assumption

theorem sigWrite_fr {L : List Part} {org : Mach} {n v m} (hL : [.sig] ⊆ L) (h_m : Frame L org m) :
    Frame L org (sigWrite n v m) := by
  delta sigWrite
  refine sigWriteAt_fr (partsIn_sub (by decide) hL) ?_
  assumption

theorem sigWriteRaw_fr {L : List Part} {org : Mach} {n v t m} (hL : [.sig] ⊆ L) (h_m : Frame L org m) :
    Frame L org (sigWriteRaw n v t m) := by
  delta sigWriteRaw
  refine sigPut_fr (partsIn_sub (by decide) hL) ?_
  assumption

theorem sigInvalidate_fr {L : List Part} {org : Mach} {n m} (hL : [.sig] ⊆ L) (h_m : Frame L org m) :
    Frame L org (sigInvalidate n m) := by
  delta sigInvalidate
  extract_lets x1
  refine Frame.ite ?_ ?_
  · refine sigPut_fr (partsIn_sub (by decide) hL) ?_
    assumption
  · assumption

theorem sigPub_fr {L : List Part} {org : Mach} {n v m} (hL : [.sig] ⊆ L) (h_m : Frame L org m) :
    Frame L org (sigPub n v m) := by
  delta sigPub
  extract_lets x1
  refine Frame.ite ?_ ?_
  · assumption
  · refine sigWriteRaw_fr (partsIn_sub (by decide) hL) ?_
    assumption

theorem devSignals_fr {L : List Part} {org : Mach} {m0} (hL : [.sig] ⊆ L) (h_m0 : Frame L org m0) :
    Frame L org (devSignals m0) := by
  delta devSignals
  extract_lets x1
  have hx1 : Frame L org x1 := by
    unfold x1
    refine sigPub_fr (partsIn_sub (by decide) hL) ?_
    assumption
  clear_value x1
  refine sigPub_fr (partsIn_sub (by decide) hL) ?_
  refine sigPub_fr (partsIn_sub (by decide) hL) ?_
  refine sigPub_fr (partsIn_sub (by decide) hL) ?_
  assumption

end Sys2Proof.Machine
end

