-- ==== Sys2Proof/Laws/Frame/Ingot.lean ====
section
/-!
SUPPORT. The parts of the device that the operations of Machine/Ingot.lean can touch: one lemma per operation.
-/

namespace Sys2Proof.Machine

theorem bootRecAppend_fr {L : List Part} {org : Mach} {m0} (hL : [.msix, .boot, .log, .ev .mgt, .outs, .free] ⊆ L) (h_m0 : Frame L org m0) :
    Frame L org (bootRecAppend m0) := by
  delta bootRecAppend
  extract_lets x1 x2 x3 x4 x5
  have hx1 : Frame L org x1 := by
    unfold x1
    refine Frame.upd ?_ (.inr rfl) (.inl (hL (by decide))) (.inr rfl) (.inr rfl) (.inr rfl) (.inr rfl) (.inr rfl) (.inr rfl) (.inr rfl) (.inr rfl) (.inr rfl) (.inr rfl) (.inr rfl) (.inr rfl) (.inr rfl) (.inr rfl) (.inr rfl) (.inr rfl) (.inr rfl) (.inr rfl) (.inr rfl) (.inr rfl) (.inr rfl) (.inr rfl) (.inr rfl) (.inr rfl) rfl
    assumption
  clear_value x1
  refine Frame.ite ?_ ?_
  · refine logClass_fr (partsIn_sub (by decide) hL) ?_
    assumption
  · refine Frame.upd ?_ (.inr rfl) (.inr rfl) (.inr rfl) (.inr rfl) (.inr rfl) (.inr rfl) (.inr rfl) (.inl (hL (by decide))) (.inr rfl) (.inr rfl) (.inr rfl) (.inr rfl) (.inr rfl) (.inr rfl) (.inr rfl) (.inr rfl) (.inr rfl) (.inr rfl) (.inr rfl) (.inr rfl) (.inr rfl) (.inr rfl) (.inr rfl) (.inr rfl) (.inr rfl) (.inr rfl) rfl
    assumption

theorem changeStanding_fr {L : List Part} {org : Mach} {x f m} (hL : [.msix, .aon, .boot, .log, .ev .mgt, .outs, .free] ⊆ L) (h_m : Frame L org m) :
    Frame L org (changeStanding x f m) := by
  delta changeStanding
  refine bootRecAppend_fr (partsIn_sub (by decide) hL) ?_
  refine Frame.upd ?_ (.inr rfl) (.inr rfl) (.inr rfl) (.inr rfl) (.inr rfl) (.inl (hL (by decide))) (.inr rfl) (.inr rfl) (.inr rfl) (.inr rfl) (.inr rfl) (.inr rfl) (.inr rfl) (.inr rfl) (.inr rfl) (.inr rfl) (.inr rfl) (.inr rfl) (.inr rfl) (.inr rfl) (.inr rfl) (.inr rfl) (.inr rfl) (.inr rfl) (.inr rfl) (.inr rfl) rfl
  assumption

theorem standingAtBoot_fr {L : List Part} {org : Mach} {m} (hL : [.aon] ⊆ L) (h_m : Frame L org m) :
    Frame L org (standingAtBoot m) := by
  delta standingAtBoot
  refine Frame.ite ?_ ?_
  · assumption
  · split
    · refine Frame.upd ?_ (.inr rfl) (.inr rfl) (.inr rfl) (.inr rfl) (.inr rfl) (.inl (hL (by decide))) (.inr rfl) (.inr rfl) (.inr rfl) (.inr rfl) (.inr rfl) (.inr rfl) (.inr rfl) (.inr rfl) (.inr rfl) (.inr rfl) (.inr rfl) (.inr rfl) (.inr rfl) (.inr rfl) (.inr rfl) (.inr rfl) (.inr rfl) (.inr rfl) (.inr rfl) (.inr rfl) rfl
      assumption
    · refine Frame.upd ?_ (.inr rfl) (.inr rfl) (.inr rfl) (.inr rfl) (.inr rfl) (.inl (hL (by decide))) (.inr rfl) (.inr rfl) (.inr rfl) (.inr rfl) (.inr rfl) (.inr rfl) (.inr rfl) (.inr rfl) (.inr rfl) (.inr rfl) (.inr rfl) (.inr rfl) (.inr rfl) (.inr rfl) (.inr rfl) (.inr rfl) (.inr rfl) (.inr rfl) (.inr rfl) (.inr rfl) rfl
      assumption

theorem readBank_fr {L : List Part} {org : Mach} {x m} (hL : [.boot] ⊆ L) (h_m : Frame L org m) :
    Frame L org (readBank x m) := by
  delta readBank
  extract_lets x1 x2 x3
  refine Frame.upd ?_ (.inr rfl) (.inr rfl) (.inr rfl) (.inr rfl) (.inr rfl) (.inr rfl) (.inr rfl) (.inl (hL (by decide))) (.inr rfl) (.inr rfl) (.inr rfl) (.inr rfl) (.inr rfl) (.inr rfl) (.inr rfl) (.inr rfl) (.inr rfl) (.inr rfl) (.inr rfl) (.inr rfl) (.inr rfl) (.inr rfl) (.inr rfl) (.inr rfl) (.inr rfl) (.inr rfl) rfl
  assumption

theorem bootCmdEnd_fr {L : List Part} {org : Mach} {op result m} (hL : [.msix, .boot, .ev .boot, .outs] ⊆ L) (h_m : Frame L org m) :
    Frame L org (bootCmdEnd op result m) := by
  delta bootCmdEnd
  refine raise_fr (partsIn_sub (by simp only [EvReg.kind]; decide) hL) ?_
  refine Frame.upd ?_ (.inr rfl) (.inr rfl) (.inr rfl) (.inr rfl) (.inr rfl) (.inr rfl) (.inr rfl) (.inl (hL (by decide))) (.inr rfl) (.inr rfl) (.inr rfl) (.inr rfl) (.inr rfl) (.inr rfl) (.inr rfl) (.inr rfl) (.inr rfl) (.inr rfl) (.inr rfl) (.inr rfl) (.inr rfl) (.inr rfl) (.inr rfl) (.inr rfl) (.inr rfl) (.inr rfl) rfl
  assumption

theorem bootRollback_fr {L : List Part} {org : Mach} {m} (hL : [.msix, .aon, .boot, .log, .ev .boot, .ev .mgt, .outs, .free] ⊆ L) (h_m : Frame L org m) :
    Frame L org (bootRollback m) := by
  delta bootRollback
  refine Frame.ite ?_ ?_
  · refine bootCmdEnd_fr (partsIn_sub (by decide) hL) ?_
    assumption
  · refine Frame.ite ?_ ?_
    · refine bootCmdEnd_fr (partsIn_sub (by decide) hL) ?_
      assumption
    · refine Frame.ite ?_ ?_
      · refine bootCmdEnd_fr (partsIn_sub (by decide) hL) ?_
        assumption
      · refine bootCmdEnd_fr (partsIn_sub (by decide) hL) ?_
        refine changeStanding_fr (partsIn_sub (by decide) hL) ?_
        assumption

theorem bootReinstate_fr {L : List Part} {org : Mach} {x m} (hL : [.msix, .aon, .boot, .log, .ev .boot, .ev .mgt, .outs, .free] ⊆ L) (h_m : Frame L org m) :
    Frame L org (bootReinstate x m) := by
  delta bootReinstate
  refine Frame.ite ?_ ?_
  · refine bootCmdEnd_fr (partsIn_sub (by decide) hL) ?_
    assumption
  · refine Frame.ite ?_ ?_
    · refine bootCmdEnd_fr (partsIn_sub (by decide) hL) ?_
      assumption
    · refine bootCmdEnd_fr (partsIn_sub (by decide) hL) ?_
      refine changeStanding_fr (partsIn_sub (by decide) hL) ?_
      assumption

theorem bootRaiseFloor_fr {L : List Part} {org : Mach} {m} (hL : [.msix, .boot, .ev .boot, .outs] ⊆ L) (h_m : Frame L org m) :
    Frame L org (bootRaiseFloor m) := by
  delta bootRaiseFloor
  refine Frame.ite ?_ ?_
  · refine bootCmdEnd_fr (partsIn_sub (by decide) hL) ?_
    assumption
  · refine Frame.ite ?_ ?_
    · refine bootCmdEnd_fr (partsIn_sub (by decide) hL) ?_
      assumption
    · refine Frame.ite ?_ ?_
      · refine bootCmdEnd_fr (partsIn_sub (by decide) hL) ?_
        assumption
      · refine Frame.ite ?_ ?_
        · refine bootCmdEnd_fr (partsIn_sub (by decide) hL) ?_
          assumption
        · extract_lets x1 x2
          have hx2 : Frame L org x2 := by
            unfold x2
            refine Frame.upd ?_ (.inr rfl) (.inr rfl) (.inr rfl) (.inr rfl) (.inr rfl) (.inr rfl) (.inr rfl) (.inl (hL (by decide))) (.inr rfl) (.inr rfl) (.inr rfl) (.inr rfl) (.inr rfl) (.inr rfl) (.inr rfl) (.inr rfl) (.inr rfl) (.inr rfl) (.inr rfl) (.inr rfl) (.inr rfl) (.inr rfl) (.inr rfl) (.inr rfl) (.inr rfl) (.inr rfl) rfl
            assumption
          clear_value x2
          refine bootCmdEnd_fr (partsIn_sub (by decide) hL) ?_
          refine readBank_fr (partsIn_sub (by decide) hL) ?_
          assumption

theorem bootRevoke_fr {L : List Part} {org : Mach} {k m} (hL : [.msix, .boot, .ev .boot, .outs] ⊆ L) (h_m : Frame L org m) :
    Frame L org (bootRevoke k m) := by
  delta bootRevoke
  refine Frame.ite ?_ ?_
  · refine bootCmdEnd_fr (partsIn_sub (by decide) hL) ?_
    assumption
  · refine Frame.ite ?_ ?_
    · refine bootCmdEnd_fr (partsIn_sub (by decide) hL) ?_
      assumption
    · extract_lets x1 x2 x3
      have hx3 : Frame L org x3 := by
        unfold x3
        refine Frame.upd ?_ (.inr rfl) (.inr rfl) (.inr rfl) (.inr rfl) (.inr rfl) (.inr rfl) (.inr rfl) (.inl (hL (by decide))) (.inr rfl) (.inr rfl) (.inr rfl) (.inr rfl) (.inr rfl) (.inr rfl) (.inr rfl) (.inr rfl) (.inr rfl) (.inr rfl) (.inr rfl) (.inr rfl) (.inr rfl) (.inr rfl) (.inr rfl) (.inr rfl) (.inr rfl) (.inr rfl) rfl
        assumption
      clear_value x3
      refine bootCmdEnd_fr (partsIn_sub (by decide) hL) ?_
      refine readBank_fr (partsIn_sub (by decide) hL) ?_
      assumption

theorem bootCmd_fr {L : List Part} {org : Mach} {w m} (hL : [.msix, .aon, .boot, .log, .ev .glb, .ev .boot, .ev .mgt, .outs, .free] ⊆ L) (h_m : Frame L org m) :
    Frame L org (bootCmd w m) := by
  delta bootCmd
  extract_lets x1
  refine Frame.ite ?_ ?_
  · refine cmdError_fr (partsIn_sub (by decide) hL) ?_
    assumption
  · split
    · refine Frame.ite ?_ ?_
      · refine bootRollback_fr (partsIn_sub (by decide) hL) ?_
        assumption
      · refine cmdError_fr (partsIn_sub (by decide) hL) ?_
        assumption
    · refine Frame.ite ?_ ?_
      · refine bootReinstate_fr (partsIn_sub (by decide) hL) ?_
        assumption
      · refine cmdError_fr (partsIn_sub (by decide) hL) ?_
        assumption
    · refine Frame.ite ?_ ?_
      · refine bootRaiseFloor_fr (partsIn_sub (by decide) hL) ?_
        assumption
      · refine cmdError_fr (partsIn_sub (by decide) hL) ?_
        assumption
    · refine Frame.ite ?_ ?_
      · refine bootRevoke_fr (partsIn_sub (by decide) hL) ?_
        assumption
      · refine cmdError_fr (partsIn_sub (by decide) hL) ?_
        assumption
    · refine cmdError_fr (partsIn_sub (by decide) hL) ?_
      assumption

theorem execRollback_fr {L : List Part} {org : Mach} {p hi s} (hL : [.g, .msix, .aon, .boot, .log, .ev .glb, .ev .boot, .ev .mgt, .outs, .free] ⊆ L) (h_s : Frame L org s.m) :
    OutFrame L org (execRollback p hi s) := by
  delta execRollback
  refine act_fr (fun _ _ => ?_) h_s
  refine writeGate_fr (partsIn_sub (by decide) hL) (fun _ _ => ?_) ?_
  · refine bootCmd_fr (partsIn_sub (by decide) hL) ?_
    assumption
  · assumption

theorem execReinstate_fr {L : List Part} {org : Mach} {p hi s} (hL : [.g, .msix, .aon, .boot, .log, .ev .glb, .ev .boot, .ev .mgt, .outs, .free] ⊆ L) (h_s : Frame L org s.m) :
    OutFrame L org (execReinstate p hi s) := by
  delta execReinstate
  refine act_fr (fun _ _ => ?_) h_s
  refine writeGate_fr (partsIn_sub (by decide) hL) (fun _ _ => ?_) ?_
  · refine bootCmd_fr (partsIn_sub (by decide) hL) ?_
    assumption
  · assumption

theorem execRaiseFloor_fr {L : List Part} {org : Mach} {p hi s} (hL : [.g, .msix, .aon, .boot, .log, .ev .glb, .ev .boot, .ev .mgt, .outs, .free] ⊆ L) (h_s : Frame L org s.m) :
    OutFrame L org (execRaiseFloor p hi s) := by
  delta execRaiseFloor
  refine act_fr (fun _ _ => ?_) h_s
  refine writeGate_fr (partsIn_sub (by decide) hL) (fun _ _ => ?_) ?_
  · refine bootCmd_fr (partsIn_sub (by decide) hL) ?_
    assumption
  · assumption

theorem execRevokeSlot_fr {L : List Part} {org : Mach} {p hi s} (hL : [.g, .msix, .aon, .boot, .log, .ev .glb, .ev .boot, .ev .mgt, .outs, .free] ⊆ L) (h_s : Frame L org s.m) :
    OutFrame L org (execRevokeSlot p hi s) := by
  delta execRevokeSlot
  refine act_fr (fun _ _ => ?_) h_s
  refine writeGate_fr (partsIn_sub (by decide) hL) (fun _ _ => ?_) ?_
  · refine bootCmd_fr (partsIn_sub (by decide) hL) ?_
    assumption
  · assumption

end Sys2Proof.Machine
end

