-- ==== Sys2Proof/Laws/Frame/RecHooks.lean ====
section
/-!
SUPPORT. The parts of the device that the operations of Machine/RecHooks.lean can touch: one lemma per operation.
-/

namespace Sys2Proof.Machine

theorem impLevels_fr {L : List Part} {org : Mach} {free r m} (hL : [.msix, .ev .imp, .outs] ⊆ L) (h_m : Frame L org m) :
    Frame L org (impLevels free r m) := by
  delta impLevels
  extract_lets x1 x2
  refine whenM_fr (fun _ _ => ?_) ?_
  · refine raise_fr (partsIn_sub (by simp only [EvReg.kind]; decide) hL) ?_
    assumption
  · refine whenM_fr (fun _ _ => ?_) ?_
    · refine raise_fr (partsIn_sub (by simp only [EvReg.kind]; decide) hL) ?_
      assumption
    · assumption

theorem recApplied_fr {L : List Part} {org : Mach} {id m} (hL : [.clk, .mem, .beams, .cells, .sig] ⊆ L) (h_m : Frame L org m) :
    Frame L org (recApplied id m) := by
  delta recApplied
  refine Frame.ite ?_ ?_
  · refine Frame.upd ?_ (.inr rfl) (.inr rfl) (.inr rfl) (.inr rfl) (.inr rfl) (.inr rfl) (.inr rfl) (.inr rfl) (.inr rfl) (.inl (hL (by decide))) (.inr rfl) (.inr rfl) (.inr rfl) (.inr rfl) (.inr rfl) (.inr rfl) (.inr rfl) (.inr rfl) (.inr rfl) (.inr rfl) (.inr rfl) (.inr rfl) (.inr rfl) (.inr rfl) (.inr rfl) (.inr rfl) rfl
    assumption
  · refine Frame.ite ?_ ?_
    · refine sigPub_fr (partsIn_sub (by decide) hL) ?_
      assumption
    · refine Frame.ite ?_ ?_
      · refine Frame.upd ?_ (.inr rfl) (.inr rfl) (.inr rfl) (.inr rfl) (.inr rfl) (.inr rfl) (.inl (hL (by decide))) (.inr rfl) (.inr rfl) (.inr rfl) (.inr rfl) (.inr rfl) (.inr rfl) (.inr rfl) (.inr rfl) (.inr rfl) (.inr rfl) (.inr rfl) (.inr rfl) (.inr rfl) (.inr rfl) (.inr rfl) (.inr rfl) (.inr rfl) (.inr rfl) (.inr rfl) rfl
        assumption
      · refine Frame.ite ?_ ?_
        · refine onBeam_fr (partsIn_sub (by decide) hL) ?_
          assumption
        · refine Frame.ite ?_ ?_
          · extract_lets x1
            split
            · refine onCtx_fr (partsIn_sub (by decide) hL) ?_
              assumption
            · assumption
          · assumption

end Sys2Proof.Machine
end

