-- ==== Sys2Proof/Laws/Frame/RecordOps.lean ====
section
/-!
SUPPORT. The parts of the device that the operations of Machine/RecordOps.lean can touch: one lemma per operation.
-/

namespace Sys2Proof.Machine

theorem recApply_fr {L : List Part} {org : Mach} {r m} (hL : [.g, .msix, .clk, .boot, .mem, .log, .beams, .cells, .sig, .ev .imp, .ev .mgt, .outs] ⊆ L) (h_m : Frame L org m) :
    Frame L org (recApply r m) := by
  delta recApply
  split
  · assumption
  · extract_lets x1 x2 x3 x4 x5
    have hx4 : Frame L org x4 := by
      unfold x4
      refine onPort_fr (partsIn_sub (by decide) hL) ?_
      refine onPort_fr (partsIn_sub (by decide) hL) ?_
      refine Frame.upd ?_ (.inr rfl) (.inr rfl) (.inr rfl) (.inr rfl) (.inr rfl) (.inr rfl) (.inr rfl) (.inl (hL (by decide))) (.inr rfl) (.inr rfl) (.inr rfl) (.inr rfl) (.inr rfl) (.inr rfl) (.inr rfl) (.inr rfl) (.inr rfl) (.inr rfl) (.inr rfl) (.inr rfl) (.inr rfl) (.inr rfl) (.inr rfl) (.inr rfl) (.inr rfl) (.inr rfl) rfl
      assumption
    clear_value x4
    have hx5 : Frame L org x5 := by
      unfold x5
      refine recApplied_fr (partsIn_sub (by decide) hL) ?_
      refine log_fr (partsIn_sub (by decide) hL) ?_
      assumption
    clear_value x5
    refine whenM_fr (fun _ _ => ?_) ?_
    · refine impLevels_fr (partsIn_sub (by decide) hL) ?_
      assumption
    · assumption

theorem recApplyPrev_fr {L : List Part} {org : Mach} {r ws p m} (hL : [.g, .msix, .clk, .boot, .mem, .log, .beams, .cells, .sig, .ev .imp, .ev .mgt, .outs] ⊆ L) (h_m : Frame L org m) :
    Frame L org (recApplyPrev r ws p m) := by
  delta recApplyPrev
  extract_lets x1 x2
  have hx1 : Frame L org x1 := by
    unfold x1
    refine recApply_fr (partsIn_sub (by decide) hL) ?_
    refine onPort_fr (partsIn_sub (by decide) hL) ?_
    assumption
  clear_value x1
  refine onPort_fr (partsIn_sub (by decide) hL) ?_
  refine Frame.upd ?_ (.inr rfl) (.inr rfl) (.inr rfl) (.inr rfl) (.inr rfl) (.inr rfl) (.inr rfl) (.inl (hL (by decide))) (.inr rfl) (.inr rfl) (.inr rfl) (.inr rfl) (.inr rfl) (.inr rfl) (.inr rfl) (.inr rfl) (.inr rfl) (.inr rfl) (.inr rfl) (.inr rfl) (.inr rfl) (.inr rfl) (.inr rfl) (.inr rfl) (.inr rfl) (.inr rfl) rfl
  assumption

theorem takeRecord_fr {L : List Part} {org : Mach} {id m} (hL : [.g, .msix, .clk, .boot, .mem, .log, .beams, .cells, .sig, .ev .imp, .ev .mgt, .outs] ⊆ L) (h_m : Frame L org m) :
    Frame L org (takeRecord id m) := by
  delta takeRecord
  split
  · assumption
  · refine Frame.ite ?_ ?_
    · split
      · refine recApplyPrev_fr (partsIn_sub (by decide) hL) ?_
        assumption
      · assumption
    · refine recApply_fr (partsIn_sub (by decide) hL) ?_
      assumption

theorem takeLayerRecords_fr {L : List Part} {org : Mach} {m} (hL : [.g, .msix, .clk, .boot, .mem, .log, .beams, .cells, .sig, .ev .imp, .ev .mgt, .outs] ⊆ L) (h_m : Frame L org m) :
    Frame L org (takeLayerRecords m) := by
  delta takeLayerRecords
  refine eachM_fr (fun _ _ _ => ?_) ?_
  · refine recApply_fr (partsIn_sub (by decide) hL) ?_
    assumption
  · assumption

theorem layerOver_fr {L : List Part} {org : Mach} {m} (hL : [.g, .msix, .clk, .boot, .mem, .log, .beams, .cells, .sig, .ev .imp, .ev .mgt, .outs] ⊆ L) (h_m : Frame L org m) :
    Frame L org (layerOver m) := by
  delta layerOver
  refine takeLayerRecords_fr (partsIn_sub (by decide) hL) ?_
  refine Frame.upd ?_ (.inr rfl) (.inr rfl) (.inr rfl) (.inr rfl) (.inr rfl) (.inr rfl) (.inr rfl) (.inl (hL (by decide))) (.inr rfl) (.inr rfl) (.inr rfl) (.inr rfl) (.inr rfl) (.inr rfl) (.inr rfl) (.inr rfl) (.inr rfl) (.inr rfl) (.inr rfl) (.inr rfl) (.inr rfl) (.inr rfl) (.inr rfl) (.inr rfl) (.inr rfl) (.inr rfl) rfl
  assumption

theorem recRefuse_fr {L : List Part} {org : Mach} {p id code word m} (hL : [.g, .msix, .ev .boot, .outs] ⊆ L) (h_m : Frame L org m) :
    Frame L org (recRefuse p id code word m) := by
  delta recRefuse
  refine raise_fr (partsIn_sub (by simp only [EvReg.kind]; decide) hL) ?_
  refine onPort_fr (partsIn_sub (by decide) hL) ?_
  assumption

theorem recAccept_fr {L : List Part} {org : Mach} {p id info words m} (hL : [.g, .msix, .clk, .boot, .mem, .log, .beams, .cells, .sig, .ev .boot, .ev .imp, .ev .mgt, .outs] ⊆ L) (h_m : Frame L org m) :
    Frame L org (recAccept p id info words m) := by
  delta recAccept
  extract_lets x1 x2 x3 x4 x5 x6 x7
  have hx2 : Frame L org x2 := by
    unfold x2
    refine onPort_fr (partsIn_sub (by decide) hL) ?_
    refine onPort_fr (partsIn_sub (by decide) hL) ?_
    assumption
  clear_value x2
  have hx3 : Frame L org x3 := by
    unfold x3
    refine whenM_fr (fun _ _ => ?_) ?_
    · refine raise_fr (partsIn_sub (by simp only [EvReg.kind]; decide) hL) ?_
      assumption
    · assumption
  clear_value x3
  have hx6 : Frame L org x6 := by
    unfold x6
    refine Frame.upd ?_ (.inr rfl) (.inr rfl) (.inr rfl) (.inr rfl) (.inr rfl) (.inr rfl) (.inr rfl) (.inl (hL (by decide))) (.inr rfl) (.inr rfl) (.inr rfl) (.inr rfl) (.inr rfl) (.inr rfl) (.inr rfl) (.inr rfl) (.inr rfl) (.inr rfl) (.inr rfl) (.inr rfl) (.inr rfl) (.inr rfl) (.inr rfl) (.inr rfl) (.inr rfl) (.inr rfl) rfl
    assumption
  clear_value x6
  have hx7 : Frame L org x7 := by
    unfold x7
    refine onPort_fr (partsIn_sub (by decide) hL) ?_
    assumption
  clear_value x7
  refine Frame.ite ?_ ?_
  · assumption
  · refine recApply_fr (partsIn_sub (by decide) hL) ?_
    assumption

theorem recCommit_fr {L : List Part} {org : Mach} {p w m} (hL : [.g, .msix, .clk, .boot, .mem, .log, .beams, .cells, .sig, .ev .glb, .ev .boot, .ev .imp, .ev .mgt, .outs] ⊆ L) (h_m : Frame L org m) :
    Frame L org (recCommit p w m) := by
  delta recCommit
  extract_lets x1 x2
  refine Frame.ite ?_ ?_
  · refine cmdError_fr (partsIn_sub (by decide) hL) ?_
    assumption
  · split
    · refine recRefuse_fr (partsIn_sub (by decide) hL) ?_
      assumption
    · refine Frame.ite ?_ ?_
      · refine recRefuse_fr (partsIn_sub (by decide) hL) ?_
        refine lockErr_fr (partsIn_sub (by decide) hL) ?_
        assumption
      · refine Frame.ite ?_ ?_
        · refine recRefuse_fr (partsIn_sub (by decide) hL) ?_
          assumption
        · refine Frame.ite ?_ ?_
          · refine recRefuse_fr (partsIn_sub (by decide) hL) ?_
            refine lockErr_fr (partsIn_sub (by decide) hL) ?_
            assumption
          · split
            · refine recRefuse_fr (partsIn_sub (by decide) hL) ?_
              refine accErr_fr (partsIn_sub (by decide) hL) ?_
              assumption
            · refine recAccept_fr (partsIn_sub (by decide) hL) ?_
              assumption

theorem recSelect_fr {L : List Part} {org : Mach} {p w m} (hL : [.g, .msix] ⊆ L) (h_m : Frame L org m) :
    Frame L org (recSelect p w m) := by
  delta recSelect
  refine onPort_fr (partsIn_sub (by decide) hL) ?_
  assumption

theorem recDataWrite_fr {L : List Part} {org : Mach} {p i v m} (hL : [.g, .msix] ⊆ L) (h_m : Frame L org m) :
    Frame L org (recDataWrite p i v m) := by
  delta recDataWrite
  refine onPort_fr (partsIn_sub (by decide) hL) ?_
  assumption

theorem quoinOne_fr {L : List Part} {org : Mach} {p id m} (hL : [.g, .msix, .boot, .log, .ev .glb, .ev .mgt, .outs] ⊆ L) (h_m : Frame L org m) :
    Frame L org (quoinOne p id m) := by
  delta quoinOne
  refine Frame.ite ?_ ?_
  · refine accErr_fr (partsIn_sub (by decide) hL) ?_
    assumption
  · refine Frame.ite ?_ ?_
    · assumption
    · refine Frame.ite ?_ ?_
      · refine accErr_fr (partsIn_sub (by decide) hL) ?_
        assumption
      · refine Frame.upd ?_ (.inr rfl) (.inr rfl) (.inr rfl) (.inr rfl) (.inr rfl) (.inr rfl) (.inr rfl) (.inl (hL (by decide))) (.inr rfl) (.inr rfl) (.inr rfl) (.inr rfl) (.inr rfl) (.inr rfl) (.inr rfl) (.inr rfl) (.inr rfl) (.inr rfl) (.inr rfl) (.inr rfl) (.inr rfl) (.inr rfl) (.inr rfl) (.inr rfl) (.inr rfl) (.inr rfl) rfl
        assumption

theorem quoinAdd_fr {L : List Part} {org : Mach} {p w m} (hL : [.g, .msix, .boot, .log, .ev .glb, .ev .mgt, .outs] ⊆ L) (h_m : Frame L org m) :
    Frame L org (quoinAdd p w m) := by
  delta quoinAdd
  refine Frame.ite ?_ ?_
  · refine cmdError_fr (partsIn_sub (by decide) hL) ?_
    assumption
  · refine Frame.ite ?_ ?_
    · refine Frame.upd ?_ (.inr rfl) (.inr rfl) (.inr rfl) (.inr rfl) (.inr rfl) (.inr rfl) (.inr rfl) (.inl (hL (by decide))) (.inr rfl) (.inr rfl) (.inr rfl) (.inr rfl) (.inr rfl) (.inr rfl) (.inr rfl) (.inr rfl) (.inr rfl) (.inr rfl) (.inr rfl) (.inr rfl) (.inr rfl) (.inr rfl) (.inr rfl) (.inr rfl) (.inr rfl) (.inr rfl) rfl
      assumption
    · refine quoinOne_fr (partsIn_sub (by decide) hL) ?_
      assumption

theorem recordTake_fr {L : List Part} {org : Mach} {id m} (hL : [.g, .msix, .clk, .boot, .mem, .log, .beams, .cells, .sig, .ev .imp, .ev .mgt, .outs] ⊆ L) (h_m : Frame L org m) :
    Frame L org (recordTake id m) := by
  delta recordTake
  split
  · assumption
  · refine Frame.ite ?_ ?_
    · assumption
    · refine Frame.ite ?_ ?_
      · assumption
      · refine takeRecord_fr (partsIn_sub (by decide) hL) ?_
        assumption

theorem holdSection_fr {L : List Part} {org : Mach} {off bs m} (hL : [.bytes, .mem] ⊆ L) (h_m : Frame L org m) :
    Frame L org (holdSection off bs m) := by
  delta holdSection
  refine memWrite_fr (partsIn_sub (by decide) hL) ?_
  assumption

theorem reloadSwitch_fr {L : List Part} {org : Mach} {m} (hL : [.msix, .boot, .beams, .ev .boot, .outs] ⊆ L) (h_m : Frame L org m) :
    Frame L org (reloadSwitch m) := by
  delta reloadSwitch
  refine Frame.ite ?_ ?_
  · assumption
  · extract_lets x1 x2 x3
    refine raise_fr (partsIn_sub (by simp only [EvReg.kind]; decide) hL) ?_
    refine whenM_fr (fun _ _ => ?_) ?_
    · refine onBeam_fr (partsIn_sub (by decide) hL) ?_
      assumption
    · refine Frame.upd ?_ (.inr rfl) (.inr rfl) (.inr rfl) (.inr rfl) (.inr rfl) (.inr rfl) (.inr rfl) (.inl (hL (by decide))) (.inr rfl) (.inr rfl) (.inr rfl) (.inr rfl) (.inr rfl) (.inr rfl) (.inr rfl) (.inr rfl) (.inr rfl) (.inr rfl) (.inr rfl) (.inr rfl) (.inr rfl) (.inr rfl) (.inr rfl) (.inr rfl) (.inr rfl) (.inr rfl) rfl
      assumption

theorem slugSwitch_fr {L : List Part} {org : Mach} {b m} (hL : [.msix, .boot, .beams, .ev .boot, .outs] ⊆ L) (h_m : Frame L org m) :
    Frame L org (slugSwitch b m) := by
  delta slugSwitch
  refine Frame.ite ?_ ?_
  · refine reloadSwitch_fr (partsIn_sub (by decide) hL) ?_
    assumption
  · assumption

theorem execRecSelect_fr {L : List Part} {org : Mach} {p v s} (hL : [.g, .msix, .log, .ev .glb, .ev .mgt, .outs] ⊆ L) (h_s : Frame L org s.m) :
    OutFrame L org (execRecSelect p v s) := by
  delta execRecSelect
  refine act_fr (fun _ _ => ?_) h_s
  refine writeGate_fr (partsIn_sub (by decide) hL) (fun _ _ => ?_) ?_
  · refine recSelect_fr (partsIn_sub (by decide) hL) ?_
    assumption
  · assumption

theorem execRecDataWrite_fr {L : List Part} {org : Mach} {p i v s} (hL : [.g, .msix, .log, .ev .glb, .ev .mgt, .outs] ⊆ L) (h_s : Frame L org s.m) :
    OutFrame L org (execRecDataWrite p i v s) := by
  delta execRecDataWrite
  refine act_fr (fun _ _ => ?_) h_s
  refine writeGate_fr (partsIn_sub (by decide) hL) (fun _ _ => ?_) ?_
  · refine recDataWrite_fr (partsIn_sub (by decide) hL) ?_
    assumption
  · assumption

theorem execQuoinAdd_fr {L : List Part} {org : Mach} {p v s} (hL : [.g, .msix, .boot, .log, .ev .glb, .ev .mgt, .outs] ⊆ L) (h_s : Frame L org s.m) :
    OutFrame L org (execQuoinAdd p v s) := by
  delta execQuoinAdd
  refine act_fr (fun _ _ => ?_) h_s
  refine writeGate_fr (partsIn_sub (by decide) hL) (fun _ _ => ?_) ?_
  · refine quoinAdd_fr (partsIn_sub (by decide) hL) ?_
    assumption
  · assumption

end Sys2Proof.Machine
end

