-- ==== Sys2Proof/Laws/Frame/JobBase.lean ====
section
/-!
SUPPORT. The parts of the device that the operations of Machine/JobBase.lean can touch: one lemma per operation.
-/

namespace Sys2Proof.Machine

theorem jobMove_fr {L : List Part} {org : Mach} {st causes m} (hL : [.msix, .log, .job, .sig, .ev .job, .ev .mgt, .outs] ⊆ L) (h_m : Frame L org m) :
    Frame L org (jobMove st causes m) := by
  delta jobMove
  refine Frame.ite ?_ ?_
  · assumption
  · extract_lets x1 x2 x3
    have hx3 : Frame L org x3 := by
      unfold x3
      refine sigPub_fr (partsIn_sub (by decide) hL) ?_
      refine raise_fr (partsIn_sub (by simp only [EvReg.kind]; decide) hL) ?_
      refine Frame.upd ?_ (.inr rfl) (.inr rfl) (.inr rfl) (.inr rfl) (.inr rfl) (.inr rfl) (.inr rfl) (.inr rfl) (.inr rfl) (.inr rfl) (.inr rfl) (.inr rfl) (.inr rfl) (.inl (hL (by decide))) (.inr rfl) (.inr rfl) (.inr rfl) (.inr rfl) (.inr rfl) (.inr rfl) (.inr rfl) (.inr rfl) (.inr rfl) (.inr rfl) (.inr rfl) (.inr rfl) rfl
      assumption
    clear_value x3
    refine Frame.ite ?_ ?_
    · assumption
    · refine log_fr (partsIn_sub (by decide) hL) ?_
      assumption

theorem jobAddCause_fr {L : List Part} {org : Mach} {c m} (hL : [.msix, .log, .job, .sig, .ev .job, .ev .mgt, .outs] ⊆ L) (h_m : Frame L org m) :
    Frame L org (jobAddCause c m) := by
  delta jobAddCause
  refine jobMove_fr (partsIn_sub (by decide) hL) ?_
  assumption

theorem onSlot_fr {L : List Part} {org : Mach} {i f m} (hL : [.job] ⊆ L) (h_m : Frame L org m) :
    Frame L org (onSlot i f m) := by
  delta onSlot
  refine Frame.upd ?_ (.inr rfl) (.inr rfl) (.inr rfl) (.inr rfl) (.inr rfl) (.inr rfl) (.inr rfl) (.inr rfl) (.inr rfl) (.inr rfl) (.inr rfl) (.inr rfl) (.inr rfl) (.inl (hL (by decide))) (.inr rfl) (.inr rfl) (.inr rfl) (.inr rfl) (.inr rfl) (.inr rfl) (.inr rfl) (.inr rfl) (.inr rfl) (.inr rfl) (.inr rfl) (.inr rfl) rfl
  assumption

theorem queueFell_fr {L : List Part} {org : Mach} {before m} (hL : [.msix, .ev .job, .outs] ⊆ L) (h_m : Frame L org m) :
    Frame L org (queueFell before m) := by
  delta queueFell
  extract_lets x1
  refine whenM_fr (fun _ _ => ?_) ?_
  · refine raise_fr (partsIn_sub (by simp only [EvReg.kind]; decide) hL) ?_
    assumption
  · assumption

theorem unqueue_fr {L : List Part} {org : Mach} {i m} (hL : [.msix, .job, .ev .job, .outs] ⊆ L) (h_m : Frame L org m) :
    Frame L org (unqueue i m) := by
  delta unqueue
  refine queueFell_fr (partsIn_sub (by decide) hL) ?_
  refine Frame.upd ?_ (.inr rfl) (.inr rfl) (.inr rfl) (.inr rfl) (.inr rfl) (.inr rfl) (.inr rfl) (.inr rfl) (.inr rfl) (.inr rfl) (.inr rfl) (.inr rfl) (.inr rfl) (.inl (hL (by decide))) (.inr rfl) (.inr rfl) (.inr rfl) (.inr rfl) (.inr rfl) (.inr rfl) (.inr rfl) (.inr rfl) (.inr rfl) (.inr rfl) (.inr rfl) (.inr rfl) rfl
  assumption

theorem freeSlot_fr {L : List Part} {org : Mach} {i m} (hL : [.msix, .job, .sig, .ev .job, .outs] ⊆ L) (h_m : Frame L org m) :
    Frame L org (freeSlot i m) := by
  delta freeSlot
  extract_lets x1 x2 x3 x4 x5
  have hx2 : Frame L org x2 := by
    unfold x2
    refine onSlot_fr (partsIn_sub (by decide) hL) ?_
    assumption
  clear_value x2
  have hx3 : Frame L org x3 := by
    unfold x3
    refine Frame.ite ?_ ?_
    · refine unqueue_fr (partsIn_sub (by decide) hL) ?_
      assumption
    · assumption
  clear_value x3
  have hx5 : Frame L org x5 := by
    unfold x5
    refine Frame.ite ?_ ?_
    · refine sigPub_fr (partsIn_sub (by decide) hL) ?_
      refine Frame.upd ?_ (.inr rfl) (.inr rfl) (.inr rfl) (.inr rfl) (.inr rfl) (.inr rfl) (.inr rfl) (.inr rfl) (.inr rfl) (.inr rfl) (.inr rfl) (.inr rfl) (.inr rfl) (.inl (hL (by decide))) (.inr rfl) (.inr rfl) (.inr rfl) (.inr rfl) (.inr rfl) (.inr rfl) (.inr rfl) (.inr rfl) (.inr rfl) (.inr rfl) (.inr rfl) (.inr rfl) rfl
      assumption
    · assumption
  clear_value x5
  refine whenM_fr (fun _ _ => ?_) ?_
  · refine raise_fr (partsIn_sub (by simp only [EvReg.kind]; decide) hL) ?_
    assumption
  · assumption

theorem commitResult_fr {L : List Part} {org : Mach} {code m} (hL : [.msix, .job, .ev .job, .outs] ⊆ L) (h_m : Frame L org m) :
    Frame L org (commitResult code m) := by
  delta commitResult
  refine whenM_fr (fun _ _ => ?_) ?_
  · refine raise_fr (partsIn_sub (by simp only [EvReg.kind]; decide) hL) ?_
    assumption
  · refine Frame.upd ?_ (.inr rfl) (.inr rfl) (.inr rfl) (.inr rfl) (.inr rfl) (.inr rfl) (.inr rfl) (.inr rfl) (.inr rfl) (.inr rfl) (.inr rfl) (.inr rfl) (.inr rfl) (.inl (hL (by decide))) (.inr rfl) (.inr rfl) (.inr rfl) (.inr rfl) (.inr rfl) (.inr rfl) (.inr rfl) (.inr rfl) (.inr rfl) (.inr rfl) (.inr rfl) (.inr rfl) rfl
    assumption

theorem commitDrop_fr {L : List Part} {org : Mach} {code m} (hL : [.msix, .job, .ev .job, .outs] ⊆ L) (h_m : Frame L org m) :
    Frame L org (commitDrop code m) := by
  delta commitDrop
  split
  · refine commitResult_fr (partsIn_sub (by decide) hL) ?_
    refine onSlot_fr (partsIn_sub (by decide) hL) ?_
    assumption
  · assumption

end Sys2Proof.Machine
end

