-- ==== Sys2Proof/Laws/Frame/AxisBase.lean ====
section
/-!
SUPPORT. The parts of the device that the operations of Machine/AxisBase.lean can touch: one lemma per operation.
-/

namespace Sys2Proof.Machine

theorem cmpArm_fr {L : List Part} {org : Mach} {a m} (hL : [.msix, .stg, .ev .stg, .outs] ⊆ L) (h_m : Frame L org m) :
    Frame L org (cmpArm a m) := by
  delta cmpArm
  extract_lets x1 x2
  refine whenM_fr (fun _ _ => ?_) ?_
  · refine raise_fr (partsIn_sub (by simp only [EvReg.kind]; decide) hL) ?_
    assumption
  · refine onAxis_fr (partsIn_sub (by decide) hL) ?_
    assumption

theorem cmpCross_fr {L : List Part} {org : Mach} {a old m} (hL : [.msix, .stg, .ev .stg, .outs] ⊆ L) (h_m : Frame L org m) :
    Frame L org (cmpCross a old m) := by
  delta cmpCross
  extract_lets x1 x2 x3
  refine Frame.ite ?_ ?_
  · assumption
  · split
    · assumption
    · refine Frame.ite ?_ ?_
      · extract_lets x4
        refine cmpArm_fr (partsIn_sub (by decide) hL) ?_
        refine emit_fr (partsIn_sub (by decide) hL) ?_
        refine onAxis_fr (partsIn_sub (by decide) hL) ?_
        assumption
      · assumption

theorem encOutCount_fr {L : List Part} {org : Mach} {c dir m} (hL : [.msix, .stg, .ev .stg, .outs] ⊆ L) (h_m : Frame L org m) :
    Frame L org (encOutCount c dir m) := by
  delta encOutCount
  extract_lets x1 x2 x3 x4 x5 x6 x7 x8 x9
  refine Frame.ite ?_ ?_
  · assumption
  · refine Frame.ite ?_ ?_
    · refine onAxis_fr (partsIn_sub (by decide) hL) ?_
      assumption
    · refine Frame.ite ?_ ?_
      · refine onAxis_fr (partsIn_sub (by decide) hL) ?_
        assumption
      · refine raise_fr (partsIn_sub (by simp only [EvReg.kind]; decide) hL) ?_
        refine onAxis_fr (partsIn_sub (by decide) hL) ?_
        assumption

theorem encOutSource_fr {L : List Part} {org : Mach} {a commanded dir m} (hL : [.g, .msix, .clk, .boot, .mem, .log, .beams, .cells, .sig, .stg, .ev .imp, .ev .stg, .ev .mgt, .outs] ⊆ L) (h_m : Frame L org m) :
    Frame L org (encOutSource a commanded dir m) := by
  delta encOutSource
  extract_lets x1
  have hx1 : Frame L org x1 := by
    unfold x1
    refine takeRecord_fr (partsIn_sub (by decide) hL) ?_
    assumption
  clear_value x1
  refine Frame.ite ?_ ?_
  · assumption
  · refine eachM_fr (fun _ _ _ => ?_) ?_
    · extract_lets x2
      refine Frame.ite ?_ ?_
      · refine encOutCount_fr (partsIn_sub (by decide) hL) ?_
        assumption
      · assumption
    · assumption

theorem axRamp_fr {L : List Part} {org : Mach} {atMax a m} (hL : [.stg] ⊆ L) (h_m : Frame L org m) :
    Frame L org (axRamp atMax a m) := by
  delta axRamp
  extract_lets x1 x2 x3 x4 x5
  refine onAxis_fr (partsIn_sub (by decide) hL) ?_
  assumption

theorem moveEnded_fr {L : List Part} {org : Mach} {a m} (hL : [.msix, .log, .stg, .ev .hlt, .ev .mgt, .outs, .free] ⊆ L) (h_m : Frame L org m) :
    Frame L org (moveEnded a m) := by
  delta moveEnded
  extract_lets x1 x2 x3 x4
  have hx4 : Frame L org x4 := by
    unfold x4
    refine onAxis_fr (partsIn_sub (by decide) hL) ?_
    assumption
  clear_value x4
  refine Frame.ite ?_ ?_
  · refine raise_fr (partsIn_sub (by simp only [EvReg.kind]; decide) hL) ?_
    refine healthLog_fr (partsIn_sub (by decide) hL) ?_
    assumption
  · assumption

theorem axFaulted_fr {L : List Part} {org : Mach} {cause a m} (hL : [.msix, .log, .stg, .ev .stg, .ev .mgt, .outs] ⊆ L) (h_m : Frame L org m) :
    Frame L org (axFaulted cause a m) := by
  delta axFaulted
  extract_lets x1 x2 x3
  have hx2 : Frame L org x2 := by
    unfold x2
    refine onAxis_fr (partsIn_sub (by decide) hL) ?_
    assumption
  clear_value x2
  have hx3 : Frame L org x3 := by
    unfold x3
    refine whenM_fr (fun _ _ => ?_) ?_
    · refine raise_fr (partsIn_sub (by simp only [EvReg.kind]; decide) hL) ?_
      assumption
    · assumption
  clear_value x3
  refine raise_fr (partsIn_sub (by simp only [EvReg.kind]; decide) hL) ?_
  refine log_fr (partsIn_sub (by decide) hL) ?_
  assumption

theorem encFault_fr {L : List Part} {org : Mach} {cause a m} (hL : [.msix, .log, .stg, .ev .stg, .ev .mgt, .outs] ⊆ L) (h_m : Frame L org m) :
    Frame L org (encFault cause a m) := by
  delta encFault
  extract_lets x1 x2 x3 x4
  have hx2 : Frame L org x2 := by
    unfold x2
    refine onAxis_fr (partsIn_sub (by decide) hL) ?_
    assumption
  clear_value x2
  have hx4 : Frame L org x4 := by
    unfold x4
    refine onAxis_fr (partsIn_sub (by decide) hL) ?_
    refine axRamp_fr (partsIn_sub (by decide) hL) ?_
    assumption
  clear_value x4
  refine Frame.ite ?_ ?_
  · assumption
  · refine Frame.ite ?_ ?_
    · refine axFaulted_fr (partsIn_sub (by decide) hL) ?_
      assumption
    · refine whenM_fr (fun _ _ => ?_) ?_
      · refine raise_fr (partsIn_sub (by simp only [EvReg.kind]; decide) hL) ?_
        assumption
      · assumption

theorem axAtRest_fr {L : List Part} {org : Mach} {a m} (hL : [.msix, .log, .stg, .ev .stg, .ev .hlt, .ev .mgt, .outs, .free] ⊆ L) (h_m : Frame L org m) :
    Frame L org (axAtRest a m) := by
  delta axAtRest
  extract_lets x1 x2 x3 x4
  have hx4 : Frame L org x4 := by
    unfold x4
    refine onAxis_fr (partsIn_sub (by decide) hL) ?_
    assumption
  clear_value x4
  split
  · refine axFaulted_fr (partsIn_sub (by decide) hL) ?_
    assumption
  · refine whenM_fr (fun _ _ => ?_) ?_
    · refine raise_fr (partsIn_sub (by simp only [EvReg.kind]; decide) hL) ?_
      refine moveEnded_fr (partsIn_sub (by decide) hL) ?_
      assumption
    · assumption

theorem homeAbort_fr {L : List Part} {org : Mach} {code a m} (hL : [.msix, .log, .stg, .ev .stg, .ev .hlt, .ev .mgt, .outs, .free] ⊆ L) (h_m : Frame L org m) :
    Frame L org (homeAbort code a m) := by
  delta homeAbort
  extract_lets x1 x2 x3
  have hx2 : Frame L org x2 := by
    unfold x2
    refine onAxis_fr (partsIn_sub (by decide) hL) ?_
    assumption
  clear_value x2
  have hx3 : Frame L org x3 := by
    unfold x3
    refine raise_fr (partsIn_sub (by simp only [EvReg.kind]; decide) hL) ?_
    assumption
  clear_value x3
  refine Frame.ite ?_ ?_
  · refine axAtRest_fr (partsIn_sub (by decide) hL) ?_
    refine onAxis_fr (partsIn_sub (by decide) hL) ?_
    assumption
  · refine axRamp_fr (partsIn_sub (by decide) hL) ?_
    assumption

theorem axStop_fr {L : List Part} {org : Mach} {atMax keep a m} (hL : [.msix, .log, .stg, .ev .stg, .ev .hlt, .ev .mgt, .outs, .free] ⊆ L) (h_m : Frame L org m) :
    Frame L org (axStop atMax keep a m) := by
  delta axStop
  extract_lets x1 x2 x3
  have hx2 : Frame L org x2 := by
    unfold x2
    refine onAxis_fr (partsIn_sub (by decide) hL) ?_
    assumption
  clear_value x2
  have hx3 : Frame L org x3 := by
    unfold x3
    refine Frame.ite ?_ ?_
    · assumption
    · refine onAxis_fr (partsIn_sub (by decide) hL) ?_
      assumption
  clear_value x3
  split
  · refine Frame.ite ?_ ?_
    · refine axAtRest_fr (partsIn_sub (by decide) hL) ?_
      refine onAxis_fr (partsIn_sub (by decide) hL) ?_
      assumption
    · refine axRamp_fr (partsIn_sub (by decide) hL) ?_
      assumption
  · refine Frame.ite ?_ ?_
    · refine axRamp_fr (partsIn_sub (by decide) hL) ?_
      assumption
    · assumption
  · refine Frame.ite ?_ ?_
    · assumption
    · refine onAxis_fr (partsIn_sub (by decide) hL) ?_
      assumption

theorem axesHalt_fr {L : List Part} {org : Mach} {m} (hL : [.msix, .log, .stg, .ev .stg, .ev .hlt, .ev .mgt, .outs, .free] ⊆ L) (h_m : Frame L org m) :
    Frame L org (axesHalt m) := by
  delta axesHalt
  refine eachM_fr (fun _ _ _ => ?_) ?_
  · refine Frame.ite ?_ ?_
    · refine homeAbort_fr (partsIn_sub (by decide) hL) ?_
      assumption
    · refine axStop_fr (partsIn_sub (by decide) hL) ?_
      assumption
  · assumption

theorem jobStopAxis_fr {L : List Part} {org : Mach} {keep a m} (hL : [.msix, .log, .stg, .ev .stg, .ev .hlt, .ev .mgt, .outs, .free] ⊆ L) (h_m : Frame L org m) :
    Frame L org (jobStopAxis keep a m) := by
  delta jobStopAxis
  refine Frame.ite ?_ ?_
  · refine homeAbort_fr (partsIn_sub (by decide) hL) ?_
    assumption
  · refine axStop_fr (partsIn_sub (by decide) hL) ?_
    assumption

theorem moveBegin_fr {L : List Part} {org : Mach} {goal bound a m} (hL : [.stg] ⊆ L) (h_m : Frame L org m) :
    Frame L org (moveBegin goal bound a m) := by
  delta moveBegin
  extract_lets x1 x2 x3
  refine onAxis_fr (partsIn_sub (by decide) hL) ?_
  assumption

theorem jobMoveAxis_fr {L : List Part} {org : Mach} {goal bound a m} (hL : [.stg] ⊆ L) (h_m : Frame L org m) :
    Frame L org (jobMoveAxis goal bound a m) := by
  delta jobMoveAxis
  refine Frame.ite ?_ ?_
  · refine moveBegin_fr (partsIn_sub (by decide) hL) ?_
    assumption
  · assumption

theorem oneStep_fr {L : List Part} {org : Mach} {a m} (hL : [.g, .msix, .clk, .boot, .mem, .log, .beams, .cells, .sig, .stg, .ev .imp, .ev .stg, .ev .mgt, .outs] ⊆ L) (h_m : Frame L org m) :
    Frame L org (oneStep a m) := by
  delta oneStep
  extract_lets x1 x2 x3 x4 x5 x6
  have hx4 : Frame L org x4 := by
    unfold x4
    refine onAxis_fr (partsIn_sub (by decide) hL) ?_
    assumption
  clear_value x4
  have hx5 : Frame L org x5 := by
    unfold x5
    refine cmpCross_fr (partsIn_sub (by decide) hL) ?_
    assumption
  clear_value x5
  have hx6 : Frame L org x6 := by
    unfold x6
    refine encOutSource_fr (partsIn_sub (by decide) hL) ?_
    assumption
  clear_value x6
  refine Frame.ite ?_ ?_
  · refine encOutSource_fr (partsIn_sub (by decide) hL) ?_
    assumption
  · assumption

theorem homeNext_fr {L : List Part} {org : Mach} {s a m} (hL : [.stg] ⊆ L) (h_m : Frame L org m) :
    Frame L org (homeNext s a m) := by
  delta homeNext
  refine onAxis_fr (partsIn_sub (by decide) hL) ?_
  assumption

theorem homeLatch_fr {L : List Part} {org : Mach} {cmd meas a m} (hL : [.stg] ⊆ L) (h_m : Frame L org m) :
    Frame L org (homeLatch cmd meas a m) := by
  delta homeLatch
  refine onAxis_fr (partsIn_sub (by decide) hL) ?_
  assumption

theorem homeEnd_fr {L : List Part} {org : Mach} {a m} (hL : [.msix, .stg, .ev .stg, .outs] ⊆ L) (h_m : Frame L org m) :
    Frame L org (homeEnd a m) := by
  delta homeEnd
  split
  · assumption
  · extract_lets x1
    split
    · extract_lets x2 x3 x4 x5
      refine raise_fr (partsIn_sub (by simp only [EvReg.kind]; decide) hL) ?_
      refine onAxis_fr (partsIn_sub (by decide) hL) ?_
      assumption

theorem homeBegin_fr {L : List Part} {org : Mach} {a m0} (hL : [.g, .msix, .clk, .boot, .mem, .log, .beams, .cells, .sig, .stg, .ev .imp, .ev .stg, .ev .mgt, .outs] ⊆ L) (h_m0 : Frame L org m0) :
    Frame L org (homeBegin a m0) := by
  delta homeBegin
  extract_lets x1 x2 x3 x4 x5 x6 x7 x8 x9
  have hx1 : Frame L org x1 := by
    unfold x1
    refine takeRecord_fr (partsIn_sub (by decide) hL) ?_
    assumption
  clear_value x1
  have hf_x5 : ∀ a0 m, Frame L org m → Frame L org (x5 a0 m) := by
    intro a0 m hm
    unfold x5
    refine onAxis_fr (partsIn_sub (by decide) hL) ?_
    assumption
  clear_value x5
  clear_value x2
  split
  · apply hf_x5
    assumption
  · refine raise_fr (partsIn_sub (by simp only [EvReg.kind]; decide) hL) ?_
    refine onAxis_fr (partsIn_sub (by decide) hL) ?_
    assumption
  · refine raise_fr (partsIn_sub (by simp only [EvReg.kind]; decide) hL) ?_
    refine onAxis_fr (partsIn_sub (by decide) hL) ?_
    assumption
  · refine Frame.ite ?_ ?_
    · apply hf_x5
      assumption
    · apply hf_x5
      assumption

end Sys2Proof.Machine
end

