-- ==== Sys2Proof/Laws/Frame/IlkBase.lean ====
section
/-!
SUPPORT. The parts of the device that the operations of Machine/IlkBase.lean can touch: one lemma per operation.
-/

namespace Sys2Proof.Machine

theorem ilkStamp_fr {L : List Part} {org : Mach} {m} (hL : [.ilk] ⊆ L) (h_m : Frame L org m) :
    Frame L org (ilkStamp m) := by
  delta ilkStamp
  refine Frame.ite ?_ ?_
  · refine onIlk_fr (partsIn_sub (by decide) hL) ?_
    assumption
  · refine onIlk_fr (partsIn_sub (by decide) hL) ?_
    assumption

theorem gatesFollow_fr {L : List Part} {org : Mach} {old new m} (hL : [.beams, .outs] ⊆ L) (h_m : Frame L org m) :
    Frame L org (gatesFollow old new m) := by
  delta gatesFollow
  refine eachM_fr (fun _ _ _ => ?_) ?_
  · refine emit_fr (partsIn_sub (by decide) hL) ?_
    refine onBeam_fr (partsIn_sub (by decide) hL) ?_
    assumption
  · assumption

theorem ilkDrive_fr {L : List Part} {org : Mach} {m} (hL : [.beams, .ilk, .outs] ⊆ L) (h_m : Frame L org m) :
    Frame L org (ilkDrive m) := by
  delta ilkDrive
  extract_lets x1 x2 x3
  have hx2 : Frame L org x2 := by
    unfold x2
    refine whenM_fr (fun _ _ => ?_) ?_
    · refine ilkStamp_fr (partsIn_sub (by decide) hL) ?_
      assumption
    · assumption
  clear_value x2
  refine gatesFollow_fr (partsIn_sub (by decide) hL) ?_
  refine onIlk_fr (partsIn_sub (by decide) hL) ?_
  assumption

theorem lampSend_fr {L : List Part} {org : Mach} {addr cmd data m} (hL : [.outs] ⊆ L) (h_m : Frame L org m) :
    Frame L org (lampSend addr cmd data m) := by
  delta lampSend
  refine whenM_fr (fun _ _ => ?_) ?_
  · refine emit_fr (partsIn_sub (by decide) hL) ?_
    assumption
  · assumption

theorem sendSet_fr {L : List Part} {org : Mach} {a g fade waitGo m} (hL : [.ilk, .outs] ⊆ L) (h_m : Frame L org m) :
    Frame L org (sendSet a g fade waitGo m) := by
  delta sendSet
  extract_lets x1 x2 x3 x4
  have hx4 : Frame L org x4 := by
    unfold x4
    refine onIlk_fr (partsIn_sub (by decide) hL) ?_
    assumption
  clear_value x4
  refine lampSend_fr (partsIn_sub (by decide) hL) ?_
  assumption

theorem sendGroup_fr {L : List Part} {org : Mach} {g m} (hL : [.ilk, .outs] ⊆ L) (h_m : Frame L org m) :
    Frame L org (sendGroup g m) := by
  delta sendGroup
  refine eachM_fr (fun _ _ _ => ?_) ?_
  · refine sendSet_fr (partsIn_sub (by decide) hL) ?_
    assumption
  · assumption

theorem lampsFollow_fr {L : List Part} {org : Mach} {m} (hL : [.ilk, .outs] ⊆ L) (h_m : Frame L org m) :
    Frame L org (lampsFollow m) := by
  delta lampsFollow
  extract_lets x1
  refine Frame.ite ?_ ?_
  · assumption
  · refine eachM_fr (fun _ _ _ => ?_) ?_
    · refine sendGroup_fr (partsIn_sub (by decide) hL) ?_
      assumption
    · refine onIlk_fr (partsIn_sub (by decide) hL) ?_
      assumption

theorem applyScene_fr {L : List Part} {org : Mach} {s m0} (hL : [.g, .msix, .clk, .boot, .mem, .log, .beams, .cells, .sig, .ilk, .ev .imp, .ev .mgt, .outs] ⊆ L) (h_m0 : Frame L org m0) :
    Frame L org (applyScene s m0) := by
  delta applyScene
  extract_lets x1 x2 x3
  have hx1 : Frame L org x1 := by
    unfold x1
    refine takeRecord_fr (partsIn_sub (by decide) hL) ?_
    refine onIlk_fr (partsIn_sub (by decide) hL) ?_
    assumption
  clear_value x1
  have hx3 : Frame L org x3 := by
    unfold x3
    refine eachM_fr (fun _ _ _ => ?_) ?_
    · refine eachM_fr (fun _ _ _ => ?_) ?_
      · refine sendSet_fr (partsIn_sub (by decide) hL) ?_
        assumption
      · assumption
    · assumption
  clear_value x3
  refine lampSend_fr (partsIn_sub (by decide) hL) ?_
  assumption

theorem pinsFollow_fr {L : List Part} {org : Mach} {m} (hL : [.beams, .ilk, .outs] ⊆ L) (h_m : Frame L org m) :
    Frame L org (pinsFollow m) := by
  delta pinsFollow
  refine lampsFollow_fr (partsIn_sub (by decide) hL) ?_
  refine ilkDrive_fr (partsIn_sub (by decide) hL) ?_
  assumption

end Sys2Proof.Machine
end

