-- ==== Sys2Proof/Laws/Frame/LaneBase.lean ====
section
/-!
SUPPORT. The parts of the device that the operations of Machine/LaneBase.lean can touch: one lemma per operation.
-/

namespace Sys2Proof.Machine

theorem sendOn_fr {L : List Part} {org : Mach} {l type stamp payload m} (hL : [.heads, .outs] ⊆ L) (h_m : Frame L org m) :
    Frame L org (sendOn l type stamp payload m) := by
  delta sendOn
  extract_lets x1
  refine Frame.ite ?_ ?_
  · refine emit_fr (partsIn_sub (by decide) hL) ?_
    refine onHead_fr (partsIn_sub (by decide) hL) ?_
    assumption
  · assumption

theorem sendBoth_fr {L : List Part} {org : Mach} {h type stamp payload m} (hL : [.heads, .outs] ⊆ L) (h_m : Frame L org m) :
    Frame L org (sendBoth h type stamp payload m) := by
  delta sendBoth
  extract_lets x1
  refine Frame.ite ?_ ?_
  · refine eachM_fr (fun _ _ _ => ?_) ?_
    · refine emit_fr (partsIn_sub (by decide) hL) ?_
      assumption
    · refine onHead_fr (partsIn_sub (by decide) hL) ?_
      assumption
  · assumption

theorem sendBlock_fr {L : List Part} {org : Mach} {h kind payload m} (hL : [.outs] ⊆ L) (h_m : Frame L org m) :
    Frame L org (sendBlock h kind payload m) := by
  delta sendBlock
  refine eachM_fr (fun _ _ _ => ?_) ?_
  · refine emit_fr (partsIn_sub (by decide) hL) ?_
    assumption
  · assumption

theorem setBucket_fr {L : List Part} {org : Mach} {h type b m} (hL : [.heads] ⊆ L) (h_m : Frame L org m) :
    Frame L org (setBucket h type b m) := by
  delta setBucket
  refine onHead_fr (partsIn_sub (by decide) hL) ?_
  assumption

theorem bucketCredit_fr {L : List Part} {org : Mach} {h type m} (hL : [.heads] ⊆ L) (h_m : Frame L org m) :
    Frame L org (bucketCredit h type m) := by
  delta bucketCredit
  extract_lets x1
  refine setBucket_fr (partsIn_sub (by decide) hL) ?_
  assumption

theorem parkSend_fr {L : List Part} {org : Mach} {reason h m} (hL : [.heads, .outs] ⊆ L) (h_m : Frame L org m) :
    Frame L org (parkSend reason h m) := by
  delta parkSend
  refine onHead_fr (partsIn_sub (by decide) hL) ?_
  refine sendBoth_fr (partsIn_sub (by decide) hL) ?_
  assumption

theorem releaseSend_fr {L : List Part} {org : Mach} {h m} (hL : [.heads, .outs] ⊆ L) (h_m : Frame L org m) :
    Frame L org (releaseSend h m) := by
  delta releaseSend
  refine Frame.ite ?_ ?_
  · refine onHead_fr (partsIn_sub (by decide) hL) ?_
    refine sendBoth_fr (partsIn_sub (by decide) hL) ?_
    assumption
  · assumption

theorem cmdSend_fr {L : List Part} {org : Mach} {h m} (hL : [.heads, .outs] ⊆ L) (h_m : Frame L org m) :
    Frame L org (cmdSend h m) := by
  delta cmdSend
  extract_lets x1 x2
  refine onHead_fr (partsIn_sub (by decide) hL) ?_
  refine sendBoth_fr (partsIn_sub (by decide) hL) ?_
  assumption

theorem cmdFlush_fr {L : List Part} {org : Mach} {m} (hL : [.heads, .outs] ⊆ L) (h_m : Frame L org m) :
    Frame L org (cmdFlush m) := by
  delta cmdFlush
  refine eachM_fr (fun _ _ _ => ?_) ?_
  · refine cmdSend_fr (partsIn_sub (by decide) hL) ?_
    assumption
  · assumption

theorem configSend_fr {L : List Part} {org : Mach} {b m} (hL : [.mpl, .heads, .outs] ⊆ L) (h_m : Frame L org m) :
    Frame L org (configSend b m) := by
  delta configSend
  extract_lets x1 x2 x3
  refine Frame.ite ?_ ?_
  · refine sendBoth_fr (partsIn_sub (by decide) hL) ?_
    refine onMpl_fr (partsIn_sub (by decide) hL) ?_
    assumption
  · assumption

end Sys2Proof.Machine
end

