-- ==== Sys2Proof/Laws/Frame/ImpBase.lean ====
section
/-!
SUPPORT. The parts of the device that the operations of Machine/ImpBase.lean can touch: one lemma per operation.
-/

namespace Sys2Proof.Machine

theorem setSlug_fr {L : List Part} {org : Mach} {src i st m} (hL : [.imp] ⊆ L) (h_m : Frame L org m) :
    Frame L org (setSlug src i st m) := by
  delta setSlug
  refine onImpAll_fr (partsIn_sub (by decide) hL) ?_
  assumption

theorem takeWork_fr {L : List Part} {org : Mach} {b w m} (hL : [.imp] ⊆ L) (h_m : Frame L org m) :
    Frame L org (takeWork b w m) := by
  delta takeWork
  extract_lets x1 x2
  have hx2 : Frame L org x2 := by
    unfold x2
    refine setSlug_fr (partsIn_sub (by decide) hL) ?_
    assumption
  clear_value x2
  split
  · refine onImpAll_fr (partsIn_sub (by decide) hL) ?_
    refine setSlug_fr (partsIn_sub (by decide) hL) ?_
    assumption
  · refine Frame.ite ?_ ?_
    · refine onImp_fr (partsIn_sub (by decide) hL) ?_
      assumption
    · refine onImpAll_fr (partsIn_sub (by decide) hL) ?_
      assumption

theorem returnWork_fr {L : List Part} {org : Mach} {b w m} (hL : [.imp] ⊆ L) (h_m : Frame L org m) :
    Frame L org (returnWork b w m) := by
  delta returnWork
  extract_lets x1 x2
  have hx2 : Frame L org x2 := by
    unfold x2
    refine setSlug_fr (partsIn_sub (by decide) hL) ?_
    assumption
  clear_value x2
  split
  · refine onImpAll_fr (partsIn_sub (by decide) hL) ?_
    refine setSlug_fr (partsIn_sub (by decide) hL) ?_
    assumption
  · refine Frame.ite ?_ ?_
    · refine onImp_fr (partsIn_sub (by decide) hL) ?_
      assumption
    · refine onImpAll_fr (partsIn_sub (by decide) hL) ?_
      assumption

theorem joinCurrent_fr {L : List Part} {org : Mach} {into motion b m} (hL : [.beams] ⊆ L) (h_m : Frame L org m) :
    Frame L org (joinCurrent into motion b m) := by
  delta joinCurrent
  split
  · assumption
  · extract_lets x1 x2 x3 x4 x5
    refine onBeam_fr (partsIn_sub (by decide) hL) ?_
    assumption

theorem releaseNext_fr {L : List Part} {org : Mach} {b m} (hL : [.imp, .beams] ⊆ L) (h_m : Frame L org m) :
    Frame L org (releaseNext b m) := by
  delta releaseNext
  split
  · assumption
  · extract_lets x1
    have hx1 : Frame L org x1 := by
      unfold x1
      refine returnWork_fr (partsIn_sub (by decide) hL) ?_
      refine onImp_fr (partsIn_sub (by decide) hL) ?_
      assumption
    clear_value x1
    split
    · refine Frame.ite ?_ ?_
      · refine joinCurrent_fr (partsIn_sub (by decide) hL) ?_
        assumption
      · assumption
    · assumption

theorem pauseSettle_fr {L : List Part} {org : Mach} {m} (hL : [.msix, .log, .job, .sig, .ev .job, .ev .mgt, .outs] ⊆ L) (h_m : Frame L org m) :
    Frame L org (pauseSettle m) := by
  delta pauseSettle
  split
  · assumption
  · refine Frame.ite ?_ ?_
    · refine jobMove_fr (partsIn_sub (by decide) hL) ?_
      refine onJob_fr (partsIn_sub (by decide) hL) ?_
      assumption
    · assumption

theorem pauseExposing_fr {L : List Part} {org : Mach} {c m} (hL : [.msix, .log, .job, .imp, .beams, .sig, .ev .job, .ev .mgt, .outs] ⊆ L) (h_m : Frame L org m) :
    Frame L org (pauseExposing c m) := by
  delta pauseExposing
  extract_lets x1
  have hx1 : Frame L org x1 := by
    unfold x1
    refine eachM_fr (fun _ _ _ => ?_) ?_
    · refine releaseNext_fr (partsIn_sub (by decide) hL) ?_
      assumption
    · refine onImpAll_fr (partsIn_sub (by decide) hL) ?_
      assumption
  clear_value x1
  refine pauseSettle_fr (partsIn_sub (by decide) hL) ?_
  refine eachM_fr (fun _ _ _ => ?_) ?_
  · refine onImp_fr (partsIn_sub (by decide) hL) ?_
    assumption
  · refine onJob_fr (partsIn_sub (by decide) hL) ?_
    assumption

theorem pauseRecord_fr {L : List Part} {org : Mach} {m} (hL : [.msix, .log, .job, .imp, .beams, .sig, .ev .job, .ev .mgt, .outs] ⊆ L) (h_m : Frame L org m) :
    Frame L org (pauseRecord m) := by
  delta pauseRecord
  refine Frame.ite ?_ ?_
  · refine pauseExposing_fr (partsIn_sub (by decide) hL) ?_
    assumption
  · refine onJob_fr (partsIn_sub (by decide) hL) ?_
    assumption

theorem impCross_fr {L : List Part} {org : Mach} {before m} (hL : [.msix, .log, .job, .imp, .beams, .sig, .ev .job, .ev .imp, .ev .mgt, .outs] ⊆ L) (h_m : Frame L org m) :
    Frame L org (impCross before m) := by
  delta impCross
  extract_lets x1
  have hx1 : Frame L org x1 := by
    unfold x1
    refine impLevels_fr (partsIn_sub (by decide) hL) ?_
    assumption
  clear_value x1
  refine whenM_fr (fun _ _ => ?_) ?_
  · refine pauseRecord_fr (partsIn_sub (by decide) hL) ?_
    assumption
  · assumption

theorem impStore_fr {L : List Part} {org : Mach} {e m} (hL : [.msix, .bytes, .mem, .log, .job, .imp, .beams, .sig, .ev .job, .ev .imp, .ev .mgt, .outs] ⊆ L) (h_m : Frame L org m) :
    Frame L org (impStore e m) := by
  delta impStore
  extract_lets x1 x2 x3 x4
  have hx3 : Frame L org x3 := by
    unfold x3
    refine memWrite_fr (partsIn_sub (by decide) hL) ?_
    assumption
  clear_value x3
  refine impCross_fr (partsIn_sub (by decide) hL) ?_
  refine onImpAll_fr (partsIn_sub (by decide) hL) ?_
  assumption

theorem impWaiter_fr {L : List Part} {org : Mach} {m} (hL : [.msix, .bytes, .mem, .log, .job, .imp, .beams, .sig, .ev .job, .ev .imp, .ev .mgt, .outs] ⊆ L) (h_m : Frame L org m) :
    Frame L org (impWaiter m) := by
  delta impWaiter
  split
  · refine impStore_fr (partsIn_sub (by decide) hL) ?_
    refine onImpAll_fr (partsIn_sub (by decide) hL) ?_
    assumption
  · assumption

theorem impWaiters_fr {L : List Part} {org : Mach} {m} (hL : [.msix, .bytes, .mem, .log, .job, .imp, .beams, .sig, .ev .job, .ev .imp, .ev .mgt, .outs] ⊆ L) (h_m : Frame L org m) :
    Frame L org (impWaiters m) := by
  delta impWaiters
  refine eachM_fr (fun _ _ _ => ?_) ?_
  · refine impWaiter_fr (partsIn_sub (by decide) hL) ?_
    assumption
  · assumption

theorem impPut_fr {L : List Part} {org : Mach} {e0 m0} (hL : [.msix, .bytes, .mem, .log, .job, .imp, .beams, .sig, .ev .job, .ev .imp, .ev .mgt, .outs] ⊆ L) (h_m0 : Frame L org m0) :
    Frame L org (impPut e0 m0) := by
  delta impPut
  extract_lets x1 x2
  have hx1 : Frame L org x1 := by
    unfold x1
    refine impWaiters_fr (partsIn_sub (by decide) hL) ?_
    assumption
  clear_value x1
  refine Frame.ite ?_ ?_
  · refine impStore_fr (partsIn_sub (by decide) hL) ?_
    assumption
  · refine onImpAll_fr (partsIn_sub (by decide) hL) ?_
    assumption

theorem holdRun_fr {L : List Part} {org : Mach} {src i n cause m} (hL : [.msix, .bytes, .mem, .log, .job, .imp, .beams, .sig, .ev .job, .ev .imp, .ev .mgt, .outs] ⊆ L) (h_m : Frame L org m) :
    Frame L org (holdRun src i n cause m) := by
  delta holdRun
  refine Frame.ite ?_ ?_
  · assumption
  · extract_lets x1 x2 x3
    have hx1 : Frame L org x1 := by
      unfold x1
      refine eachM_fr (fun _ _ _ => ?_) ?_
      · refine setSlug_fr (partsIn_sub (by decide) hL) ?_
        assumption
      · assumption
    clear_value x1
    have hx3 : Frame L org x3 := by
      unfold x3
      refine onImpAll_fr (partsIn_sub (by decide) hL) ?_
      assumption
    clear_value x3
    refine impPut_fr (partsIn_sub (by decide) hL) ?_
    refine whenM_fr (fun _ _ => ?_) ?_
    · refine raise_fr (partsIn_sub (by simp only [EvReg.kind]; decide) hL) ?_
      assumption
    · assumption

theorem holdAll_fr {L : List Part} {org : Mach} {src cause is m} (hL : [.msix, .bytes, .mem, .log, .job, .imp, .beams, .sig, .ev .job, .ev .imp, .ev .mgt, .outs] ⊆ L) (h_m : Frame L org m) :
    Frame L org (holdAll src cause is m) := by
  delta holdAll
  refine eachM_fr (fun _ _ _ => ?_) ?_
  · split
    · refine holdRun_fr (partsIn_sub (by decide) hL) ?_
      assumption
  · assumption

end Sys2Proof.Machine
end

