-- ==== Sys2Proof/Laws/Frame/BeamBase.lean ====
section
/-!
SUPPORT. The parts of the device that the operations of Machine/BeamBase.lean can touch: one lemma per operation.
-/

namespace Sys2Proof.Machine

theorem restAt_fr {L : List Part} {org : Mach} {b t m} (hL : [.beams] ⊆ L) (h_m : Frame L org m) :
    Frame L org (restAt b t m) := by
  delta restAt
  split
  · refine onBeam_fr (partsIn_sub (by decide) hL) ?_
    assumption

theorem setGate_fr {L : List Part} {org : Mach} {b v t tap m} (hL : [.beams, .outs] ⊆ L) (h_m : Frame L org m) :
    Frame L org (setGate b v t tap m) := by
  delta setGate
  extract_lets x1 x2 x3
  have hx2 : Frame L org x2 := by
    unfold x2
    refine onBeam_fr (partsIn_sub (by decide) hL) ?_
    assumption
  clear_value x2
  refine whenM_fr (fun _ _ => ?_) ?_
  · refine emit_fr (partsIn_sub (by decide) hL) ?_
    assumption
  · assumption

theorem gateForced_fr {L : List Part} {org : Mach} {b m} (hL : [.beams, .outs] ⊆ L) (h_m : Frame L org m) :
    Frame L org (gateForced b m) := by
  delta gateForced
  extract_lets x1
  refine onBeam_fr (partsIn_sub (by decide) hL) ?_
  refine setGate_fr (partsIn_sub (by decide) hL) ?_
  assumption

theorem decelerate_fr {L : List Part} {org : Mach} {b m0} (hL : [.beams] ⊆ L) (h_m0 : Frame L org m0) :
    Frame L org (decelerate b m0) := by
  delta decelerate
  extract_lets x1 x2
  have hx2 : Frame L org x2 := by
    unfold x2
    refine restAt_fr (partsIn_sub (by decide) hL) ?_
    assumption
  clear_value x2
  split
  · assumption
  · split
    · refine onBeam_fr (partsIn_sub (by decide) hL) ?_
      assumption
    · extract_lets x3
      refine onBeam_fr (partsIn_sub (by decide) hL) ?_
      assumption

theorem recordEnd_fr {L : List Part} {org : Mach} {b m} (hL : [.msix, .bytes, .mem, .log, .job, .imp, .beams, .sig, .ev .job, .ev .imp, .ev .mgt, .outs] ⊆ L) (h_m : Frame L org m) :
    Frame L org (recordEnd b m) := by
  delta recordEnd
  split
  · assumption
  · extract_lets x1 x2 x3 x4
    have hx2 : Frame L org x2 := by
      unfold x2
      refine impPut_fr (partsIn_sub (by decide) hL) ?_
      assumption
    clear_value x2
    have hx3 : Frame L org x3 := by
      unfold x3
      refine setSlug_fr (partsIn_sub (by decide) hL) ?_
      assumption
    clear_value x3
    have hx4 : Frame L org x4 := by
      unfold x4
      refine onImpAll_fr (partsIn_sub (by decide) hL) ?_
      assumption
    clear_value x4
    refine onImp_fr (partsIn_sub (by decide) hL) ?_
    assumption

theorem beamStop_fr {L : List Part} {org : Mach} {ends b m0} (hL : [.msix, .bytes, .mem, .log, .job, .imp, .beams, .sig, .ev .job, .ev .imp, .ev .mgt, .outs] ⊆ L) (h_m0 : Frame L org m0) :
    Frame L org (beamStop ends b m0) := by
  delta beamStop
  extract_lets x1 x2
  have hx1 : Frame L org x1 := by
    unfold x1
    refine releaseNext_fr (partsIn_sub (by decide) hL) ?_
    assumption
  clear_value x1
  refine Frame.ite ?_ ?_
  · refine gateForced_fr (partsIn_sub (by decide) hL) ?_
    assumption
  · split
    · refine Frame.ite ?_ ?_
      · assumption
      · refine decelerate_fr (partsIn_sub (by decide) hL) ?_
        refine gateForced_fr (partsIn_sub (by decide) hL) ?_
        refine recordEnd_fr (partsIn_sub (by decide) hL) ?_
        assumption
    · split
      · extract_lets x3 x4
        have hx3 : Frame L org x3 := by
          unfold x3
          refine impPut_fr (partsIn_sub (by decide) hL) ?_
          assumption
        clear_value x3
        have hx4 : Frame L org x4 := by
          unfold x4
          refine onImp_fr (partsIn_sub (by decide) hL) ?_
          assumption
        clear_value x4
        refine decelerate_fr (partsIn_sub (by decide) hL) ?_
        refine gateForced_fr (partsIn_sub (by decide) hL) ?_
        refine onBeam_fr (partsIn_sub (by decide) hL) ?_
        assumption
    · extract_lets x5
      have hx5 : Frame L org x5 := by
        unfold x5
        refine onImp_fr (partsIn_sub (by decide) hL) ?_
        assumption
      clear_value x5
      refine decelerate_fr (partsIn_sub (by decide) hL) ?_
      refine gateForced_fr (partsIn_sub (by decide) hL) ?_
      assumption
    · extract_lets x6
      have hx6 : Frame L org x6 := by
        unfold x6
        refine onImp_fr (partsIn_sub (by decide) hL) ?_
        assumption
      clear_value x6
      refine decelerate_fr (partsIn_sub (by decide) hL) ?_
      refine gateForced_fr (partsIn_sub (by decide) hL) ?_
      assumption
    · refine decelerate_fr (partsIn_sub (by decide) hL) ?_
      refine gateForced_fr (partsIn_sub (by decide) hL) ?_
      assumption

theorem beamPark_fr {L : List Part} {org : Mach} {b m} (hL : [.msix, .beams, .ev .beam, .outs] ⊆ L) (h_m : Frame L org m) :
    Frame L org (beamPark b m) := by
  delta beamPark
  refine Frame.ite ?_ ?_
  · assumption
  · refine raise_fr (partsIn_sub (by simp only [EvReg.kind]; decide) hL) ?_
    refine onBeam_fr (partsIn_sub (by decide) hL) ?_
    assumption

theorem beamFreeze_fr {L : List Part} {org : Mach} {b m} (hL : [.beams, .outs] ⊆ L) (h_m : Frame L org m) :
    Frame L org (beamFreeze b m) := by
  delta beamFreeze
  refine gateForced_fr (partsIn_sub (by decide) hL) ?_
  assumption

theorem sampleTemp_fr {L : List Part} {org : Mach} {b m} (hL : [.msix, .beams, .ev .beam, .outs] ⊆ L) (h_m : Frame L org m) :
    Frame L org (sampleTemp b m) := by
  delta sampleTemp
  split
  · refine onBeam_fr (partsIn_sub (by decide) hL) ?_
    assumption
  · refine Frame.ite ?_ ?_
    · assumption
    · refine raise_fr (partsIn_sub (by simp only [EvReg.kind]; decide) hL) ?_
      refine onBeam_fr (partsIn_sub (by decide) hL) ?_
      assumption

theorem slugRecords_fr {L : List Part} {org : Mach} {b m} (hL : [.g, .msix, .clk, .boot, .mem, .log, .beams, .cells, .sig, .ev .imp, .ev .beam, .ev .mgt, .outs] ⊆ L) (h_m : Frame L org m) :
    Frame L org (slugRecords b m) := by
  delta slugRecords
  refine sampleTemp_fr (partsIn_sub (by decide) hL) ?_
  refine takeRecord_fr (partsIn_sub (by decide) hL) ?_
  refine takeRecord_fr (partsIn_sub (by decide) hL) ?_
  refine takeRecord_fr (partsIn_sub (by decide) hL) ?_
  assumption

theorem slugBegin_fr {L : List Part} {org : Mach} {w cont b m0} (hL : [.g, .msix, .clk, .boot, .mem, .log, .imp, .beams, .mpl, .cells, .sig, .ev .boot, .ev .imp, .ev .beam, .ev .mgt, .outs] ⊆ L) (h_m0 : Frame L org m0) :
    Frame L org (slugBegin w cont b m0) := by
  delta slugBegin
  split
  · extract_lets x1 x2 x3 x4 x5
    have hx1 : Frame L org x1 := by
      unfold x1
      refine slugRecords_fr (partsIn_sub (by decide) hL) ?_
      refine Frame.ite ?_ ?_
      · refine slugSwitch_fr (partsIn_sub (by decide) hL) ?_
        assumption
      · assumption
    clear_value x1
    split
    · extract_lets x6
      split
      · extract_lets x7
        split
        · split
          · extract_lets x8 x9 x10 x11 x12
            have hx10 : Frame L org x10 := by
              unfold x10
              refine onBeam_fr (partsIn_sub (by decide) hL) ?_
              assumption
            clear_value x10
            have hx11 : Frame L org x11 := by
              unfold x11
              refine whenM_fr (fun _ _ => ?_) ?_
              · refine onMpl_fr (partsIn_sub (by decide) hL) ?_
                assumption
              · assumption
            clear_value x11
            have hx12 : Frame L org x12 := by
              unfold x12
              refine whenM_fr (fun _ _ => ?_) ?_
              · refine raise_fr (partsIn_sub (by simp only [EvReg.kind]; decide) hL) ?_
                assumption
              · refine whenM_fr (fun _ _ => ?_) ?_
                · refine raise_fr (partsIn_sub (by simp only [EvReg.kind]; decide) hL) ?_
                  assumption
                · refine whenM_fr (fun _ _ => ?_) ?_
                  · refine raise_fr (partsIn_sub (by simp only [EvReg.kind]; decide) hL) ?_
                    assumption
                  · assumption
            clear_value x12
            refine onImp_fr (partsIn_sub (by decide) hL) ?_
            assumption

theorem joinNext_fr {L : List Part} {org : Mach} {b m} (hL : [.msix, .beams, .ev .beam, .outs] ⊆ L) (h_m : Frame L org m) :
    Frame L org (joinNext b m) := by
  delta joinNext
  split
  · refine Frame.ite ?_ ?_
    · assumption
    · refine Frame.ite ?_ ?_
      · refine joinCurrent_fr (partsIn_sub (by decide) hL) ?_
        assumption
      · split
        · split
          · split
            · refine Frame.ite ?_ ?_
              · refine raise_fr (partsIn_sub (by simp only [EvReg.kind]; decide) hL) ?_
                refine joinCurrent_fr (partsIn_sub (by decide) hL) ?_
                assumption
              · assumption
        · assumption
  · assumption

end Sys2Proof.Machine
end

