-- ==== Sys2Proof/Laws/Frame/CellBase.lean ====
section
/-!
SUPPORT. The parts of the device that the operations of Machine/CellBase.lean can touch: one lemma per operation.
-/

namespace Sys2Proof.Machine

theorem corrNote_fr {L : List Part} {org : Mach} {n v m} (hL : [.mpl] ⊆ L) (h_m : Frame L org m) :
    Frame L org (corrNote n v m) := by
  delta corrNote
  refine Frame.ite ?_ ?_
  · refine onMpl_fr (partsIn_sub (by decide) hL) ?_
    assumption
  · assumption

theorem ctxWrite_fr {L : List Part} {org : Mach} {k n v t m} (hL : [.mpl, .sig, .heads] ⊆ L) (h_m : Frame L org m) :
    Frame L org (ctxWrite k n v t m) := by
  delta ctxWrite
  extract_lets x1
  have hx1 : Frame L org x1 := by
    unfold x1
    refine corrNote_fr (partsIn_sub (by decide) hL) ?_
    refine sigPut_fr (partsIn_sub (by decide) hL) ?_
    assumption
  clear_value x1
  refine Frame.ite ?_ ?_
  · refine onHead_fr (partsIn_sub (by decide) hL) ?_
    assumption
  · assumption

theorem safeAct_fr {L : List Part} {org : Mach} {k m} (hL : [.mpl, .sig, .heads, .outs] ⊆ L) (h_m : Frame L org m) :
    Frame L org (safeAct k m) := by
  delta safeAct
  split
  · assumption
  · refine Frame.ite ?_ ?_
    · extract_lets x1
      refine cmdFlush_fr (partsIn_sub (by decide) hL) ?_
      refine eachM_fr (fun _ _ _ => ?_) ?_
      · refine ctxWrite_fr (partsIn_sub (by decide) hL) ?_
        assumption
      · assumption
    · assumption

theorem ctxStart_fr {L : List Part} {org : Mach} {k m} (hL : [.cells] ⊆ L) (h_m : Frame L org m) :
    Frame L org (ctxStart k m) := by
  delta ctxStart
  refine onCtx_fr (partsIn_sub (by decide) hL) ?_
  assumption

theorem fastFalls_fr {L : List Part} {org : Mach} {k m} (hL : [.mpl] ⊆ L) (h_m : Frame L org m) :
    Frame L org (fastFalls k m) := by
  delta fastFalls
  split
  · refine Frame.ite ?_ ?_
    · refine onMpl_fr (partsIn_sub (by decide) hL) ?_
      assumption
    · assumption
  · assumption

theorem ctxStop_fr {L : List Part} {org : Mach} {byRetire k m} (hL : [.mpl, .cells, .sig, .heads, .outs] ⊆ L) (h_m : Frame L org m) :
    Frame L org (ctxStop byRetire k m) := by
  delta ctxStop
  refine Frame.ite ?_ ?_
  · refine fastFalls_fr (partsIn_sub (by decide) hL) ?_
    refine safeAct_fr (partsIn_sub (by decide) hL) ?_
    refine onCtx_fr (partsIn_sub (by decide) hL) ?_
    assumption
  · assumption

theorem ctxSafeHold_fr {L : List Part} {org : Mach} {m} (hL : [.mpl, .cells, .sig, .heads, .outs] ⊆ L) (h_m : Frame L org m) :
    Frame L org (ctxSafeHold m) := by
  delta ctxSafeHold
  refine eachM_fr (fun _ _ _ => ?_) ?_
  · refine ctxStop_fr (partsIn_sub (by decide) hL) ?_
    assumption
  · assumption

theorem ctxRestartBeam_fr {L : List Part} {org : Mach} {b m} (hL : [.cells] ⊆ L) (h_m : Frame L org m) :
    Frame L org (ctxRestartBeam b m) := by
  delta ctxRestartBeam
  refine eachM_fr (fun _ _ _ => ?_) ?_
  · refine ctxStart_fr (partsIn_sub (by decide) hL) ?_
    assumption
  · assumption

theorem onCells_fr {L : List Part} {org : Mach} {f m} (hL : [.cells] ⊆ L) (h_m : Frame L org m) :
    Frame L org (onCells f m) := by
  delta onCells
  refine Frame.upd ?_ (.inr rfl) (.inr rfl) (.inr rfl) (.inr rfl) (.inr rfl) (.inr rfl) (.inr rfl) (.inr rfl) (.inr rfl) (.inr rfl) (.inr rfl) (.inr rfl) (.inr rfl) (.inr rfl) (.inr rfl) (.inr rfl) (.inr rfl) (.inr rfl) (.inl (hL (by decide))) (.inr rfl) (.inr rfl) (.inr rfl) (.inr rfl) (.inr rfl) (.inr rfl) (.inr rfl) rfl
  assumption

theorem spareWatch_fr {L : List Part} {org : Mach} {f m} (hL : [.msix, .ev .cellArr, .outs] ⊆ L) (hf_f : ∀ m, Frame L org m → Frame L org (f m)) (h_m : Frame L org m) :
    Frame L org (spareWatch f m) := by
  delta spareWatch
  extract_lets x1
  have hx1 : Frame L org x1 := by
    unfold x1
    apply hf_f
    assumption
  clear_value x1
  refine whenM_fr (fun _ _ => ?_) ?_
  · refine raise_fr (partsIn_sub (by simp only [EvReg.kind]; decide) hL) ?_
    assumption
  · assumption

theorem toQuarantine_fr {L : List Part} {org : Mach} {c m} (hL : [.cells] ⊆ L) (h_m : Frame L org m) :
    Frame L org (toQuarantine c m) := by
  delta toQuarantine
  refine onCell_fr (partsIn_sub (by decide) hL) ?_
  assumption

theorem substStart_fr {L : List Part} {org : Mach} {c m} (hL : [.msix, .cells, .ev .cellArr, .outs] ⊆ L) (h_m : Frame L org m) :
    Frame L org (substStart c m) := by
  delta substStart
  split
  · refine raise_fr (partsIn_sub (by simp only [EvReg.kind]; decide) hL) ?_
    assumption
  · extract_lets x1
    have hx1 : Frame L org x1 := by
      unfold x1
      refine onCell_fr (partsIn_sub (by decide) hL) ?_
      refine onCell_fr (partsIn_sub (by decide) hL) ?_
      assumption
    clear_value x1
    refine onCells_fr (partsIn_sub (by decide) hL) ?_
    assumption

theorem substOver_fr {L : List Part} {org : Mach} {m} (hL : [.msix, .cells, .ev .cellArr, .outs] ⊆ L) (h_m : Frame L org m) :
    Frame L org (substOver m) := by
  delta substOver
  extract_lets x1
  have hx1 : Frame L org x1 := by
    unfold x1
    refine onCells_fr (partsIn_sub (by decide) hL) ?_
    assumption
  clear_value x1
  split
  · refine onCells_fr (partsIn_sub (by decide) hL) ?_
    assumption
  · refine substStart_fr (partsIn_sub (by decide) hL) ?_
    refine onCells_fr (partsIn_sub (by decide) hL) ?_
    assumption

end Sys2Proof.Machine
end

