-- ==== Sys2Proof/Laws/Frame/Retire.lean ====
section
/-!
SUPPORT. The parts of the device that the operations of Machine/Retire.lean can touch: one lemma per operation.
-/

namespace Sys2Proof.Machine

theorem disposeCut_fr {L : List Part} {org : Mach} {b m} (hL : [.imp] ⊆ L) (h_m : Frame L org m) :
    Frame L org (disposeCut b m) := by
  delta disposeCut
  split
  · assumption
  · extract_lets x1 x2
    have hf_x2 : ∀ m, Frame L org m → Frame L org (x2 m) := by
      intro m hm
      unfold x2
      refine onImp_fr (partsIn_sub (by decide) hL) ?_
      assumption
    clear_value x2
    refine Frame.ite ?_ ?_
    · refine onImp_fr (partsIn_sub (by decide) hL) ?_
      refine onImpAll_fr (partsIn_sub (by decide) hL) ?_
      refine Frame.ite ?_ ?_
      · refine setSlug_fr (partsIn_sub (by decide) hL) ?_
        assumption
      · assumption
    · refine Frame.ite ?_ ?_
      · apply hf_x2
        refine onImp_fr (partsIn_sub (by decide) hL) ?_
        refine returnWork_fr (partsIn_sub (by decide) hL) ?_
        assumption
      · apply hf_x2
        assumption

theorem retireStop_fr {L : List Part} {org : Mach} {b m} (hL : [.msix, .bytes, .mem, .log, .job, .imp, .beams, .sig, .ev .job, .ev .imp, .ev .mgt, .outs] ⊆ L) (h_m : Frame L org m) :
    Frame L org (retireStop b m) := by
  delta retireStop
  refine Frame.ite ?_ ?_
  · assumption
  · refine disposeCut_fr (partsIn_sub (by decide) hL) ?_
    refine beamStop_fr (partsIn_sub (by decide) hL) ?_
    refine Frame.ite ?_ ?_
    · refine recordEnd_fr (partsIn_sub (by decide) hL) ?_
      refine releaseNext_fr (partsIn_sub (by decide) hL) ?_
      assumption
    · assumption

theorem retire_fr {L : List Part} {org : Mach} {b cause m} (hL : [.msix, .bytes, .mem, .log, .job, .imp, .beams, .mpl, .cells, .sig, .heads, .ilk, .ev .job, .ev .imp, .ev .beam, .ev .mgt, .outs] ⊆ L) (h_m : Frame L org m) :
    Frame L org (retire b cause m) := by
  delta retire
  refine Frame.ite ?_ ?_
  · assumption
  · extract_lets x1 x2 x3 x4 x5 x6 x7 x8 x9
    have hx2 : Frame L org x2 := by
      unfold x2
      refine retireStop_fr (partsIn_sub (by decide) hL) ?_
      assumption
    clear_value x2
    have hx3 : Frame L org x3 := by
      unfold x3
      refine onImp_fr (partsIn_sub (by decide) hL) ?_
      assumption
    clear_value x3
    have hx4 : Frame L org x4 := by
      unfold x4
      refine onImpAll_fr (partsIn_sub (by decide) hL) ?_
      assumption
    clear_value x4
    have hx5 : Frame L org x5 := by
      unfold x5
      refine raise_fr (partsIn_sub (by simp only [EvReg.kind]; decide) hL) ?_
      assumption
    clear_value x5
    have hx6 : Frame L org x6 := by
      unfold x6
      refine Frame.ite ?_ ?_
      · assumption
      · refine eachM_fr (fun _ _ _ => ?_) ?_
        · refine ctxStop_fr (partsIn_sub (by decide) hL) ?_
          assumption
        · assumption
    clear_value x6
    have hx7 : Frame L org x7 := by
      unfold x7
      refine whenM_fr (fun _ _ => ?_) ?_
      · refine ctxRestartBeam_fr (partsIn_sub (by decide) hL) ?_
        assumption
      · assumption
    clear_value x7
    have hx8 : Frame L org x8 := by
      unfold x8
      refine Frame.ite ?_ ?_
      · assumption
      · refine beamPark_fr (partsIn_sub (by decide) hL) ?_
        assumption
    clear_value x8
    have hx9 : Frame L org x9 := by
      unfold x9
      refine Frame.ite ?_ ?_
      · assumption
      · refine parkSend_fr (partsIn_sub (by decide) hL) ?_
        assumption
    clear_value x9
    refine ilkDrive_fr (partsIn_sub (by decide) hL) ?_
    refine onBeam_fr (partsIn_sub (by decide) hL) ?_
    assumption

theorem scanGalley_fr {L : List Part} {org : Mach} {r bad m} (hL : [.msix, .bytes, .mem, .log, .job, .imp, .beams, .sig, .ev .job, .ev .imp, .ev .mgt, .outs] ⊆ L) (h_m : Frame L org m) :
    Frame L org (scanGalley r bad m).2 := by
  delta scanGalley
  extract_lets x1 x2 x3 x4 x5 x6 x7 x8 x9 x10 x11
  have hx8 : Frame L org x8 := by
    unfold x8
    refine eachM_fr (fun _ _ _ => ?_) ?_
    · refine setSlug_fr (partsIn_sub (by decide) hL) ?_
      assumption
    · refine onImpAll_fr (partsIn_sub (by decide) hL) ?_
      assumption
  clear_value x8
  have hx9 : Frame L org x9 := by
    unfold x9
    refine eachM_fr (fun _ _ _ => ?_) ?_
    · refine setSlug_fr (partsIn_sub (by decide) hL) ?_
      assumption
    · assumption
  clear_value x9
  have hx10 : Frame L org x10 := by
    unfold x10
    refine onImpAll_fr (partsIn_sub (by decide) hL) ?_
    assumption
  clear_value x10
  have hx11 : Frame L org x11 := by
    unfold x11
    refine onImp_fr (partsIn_sub (by decide) hL) ?_
    assumption
  clear_value x11
  refine Frame.mk2 ?_
  refine eachM_fr (fun _ _ _ => ?_) ?_
  · split
    · refine holdRun_fr (partsIn_sub (by decide) hL) ?_
      assumption
  · assumption

theorem scanPools_fr {L : List Part} {org : Mach} {r m} (hL : [.msix, .bytes, .mem, .log, .job, .imp, .beams, .sig, .ev .job, .ev .imp, .ev .mgt, .outs] ⊆ L) (h_m : Frame L org m) :
    Frame L org (scanPools r m).2 := by
  delta scanPools
  split
  · refine Frame.mk2 ?_
    assumption
  · split
    · rename_i heq
      refine Frame.let2 (l := L) (b := org) heq ?_ (fun _ => ?_)
      · refine foldl2_fr (fun _ _ _ => ?_) ?_
        · split
          · extract_lets x1 x2
            refine Frame.mk2 ?_
            refine holdAll_fr (partsIn_sub (by decide) hL) ?_
            assumption
        · refine Frame.mk2 ?_
          assumption
      refine foldl2_fr (fun _ _ _ => ?_) ?_
      · split
        · refine Frame.ite2 ?_ ?_
          · refine Frame.mk2 ?_
            assumption
          · extract_lets x3 x4
            have hx4 : Frame L org x4 := by
              unfold x4
              refine onImpAll_fr (partsIn_sub (by decide) hL) ?_
              assumption
            clear_value x4
            refine Frame.mk2 ?_
            refine holdAll_fr (partsIn_sub (by decide) hL) ?_
            assumption
      · refine Frame.mk2 ?_
        assumption

theorem scanClose_fr {L : List Part} {org : Mach} {m} (hL : [.msix, .bytes, .mem, .log, .job, .imp, .beams, .sig, .ev .glb, .ev .job, .ev .imp, .ev .mgt, .outs] ⊆ L) (h_m : Frame L org m) :
    Frame L org (scanClose m) := by
  delta scanClose
  split
  · assumption
  · split
    · assumption
    · refine Frame.ite ?_ ?_
      · assumption
      · extract_lets x1 x2
        have hx2 : Frame L org x2 := by
          unfold x2
          refine raise_fr (partsIn_sub (by simp only [EvReg.kind]; decide) hL) ?_
          refine impPut_fr (partsIn_sub (by decide) hL) ?_
          refine onImpAll_fr (partsIn_sub (by decide) hL) ?_
          assumption
        clear_value x2
        refine repairAt_fr (partsIn_sub (by decide) hL) ?_
        assumption

theorem scanEnd_fr {L : List Part} {org : Mach} {bad m} (hL : [.msix, .bytes, .mem, .log, .job, .imp, .beams, .sig, .ev .glb, .ev .job, .ev .imp, .ev .mgt, .outs] ⊆ L) (h_m : Frame L org m) :
    Frame L org (scanEnd bad m) := by
  delta scanEnd
  split
  · assumption
  · refine Frame.ite ?_ ?_
    · assumption
    · refine Frame.ite ?_ ?_
      · refine scanClose_fr (partsIn_sub (by decide) hL) ?_
        assumption
      · extract_lets x1
        split
        · rename_i heq
          refine Frame.let2 (l := L) (b := org) heq ?_ (fun _ => ?_)
          · refine Frame.ite2 ?_ ?_
            · refine scanGalley_fr (partsIn_sub (by decide) hL) ?_
              assumption
            · refine Frame.mk2 ?_
              assumption
          split
          · rename_i heq
            refine Frame.let2 (l := L) (b := org) heq ?_ (fun _ => ?_)
            · refine Frame.ite2 ?_ ?_
              · refine scanPools_fr (partsIn_sub (by decide) hL) ?_
                assumption
              · refine Frame.mk2 ?_
                assumption
            refine scanClose_fr (partsIn_sub (by decide) hL) ?_
            refine onImpAll_fr (partsIn_sub (by decide) hL) ?_
            assumption

theorem beamReturn_fr {L : List Part} {org : Mach} {b m} (hL : [.msix, .bytes, .mem, .log, .job, .imp, .beams, .sig, .ilk, .hlt, .ev .glb, .ev .job, .ev .imp, .ev .mgt, .outs] ⊆ L) (h_m : Frame L org m) :
    Frame L org (beamReturn b m) := by
  delta beamReturn
  extract_lets x1 x2 x3 x4 x5
  have hx2 : Frame L org x2 := by
    unfold x2
    refine whenM_fr (fun _ _ => ?_) ?_
    · refine onHlt_fr (partsIn_sub (by decide) hL) ?_
      assumption
    · assumption
  clear_value x2
  have hx3 : Frame L org x3 := by
    unfold x3
    refine onImp_fr (partsIn_sub (by decide) hL) ?_
    assumption
  clear_value x3
  have hx4 : Frame L org x4 := by
    unfold x4
    refine onBeam_fr (partsIn_sub (by decide) hL) ?_
    assumption
  clear_value x4
  have hx5 : Frame L org x5 := by
    unfold x5
    refine raise_fr (partsIn_sub (by simp only [EvReg.kind]; decide) hL) ?_
    refine impPut_fr (partsIn_sub (by decide) hL) ?_
    assumption
  clear_value x5
  refine ilkDrive_fr (partsIn_sub (by decide) hL) ?_
  refine repair_fr (partsIn_sub (by decide) hL) ?_
  assumption

end Sys2Proof.Machine
end

