-- ==== Sys2Proof/Laws/Frame/UpdateOps.lean ====
section
/-!
SUPPORT. The parts of the device that the operations of Machine/UpdateOps.lean can touch: one lemma per operation.
-/

namespace Sys2Proof.Machine

theorem reloadFail_fr {L : List Part} {org : Mach} {code m} (hL : [.msix, .boot, .ev .boot, .outs] ⊆ L) (h_m : Frame L org m) :
    Frame L org (reloadFail code m) := by
  delta reloadFail
  refine raise_fr (partsIn_sub (by simp only [EvReg.kind]; decide) hL) ?_
  refine Frame.upd ?_ (.inr rfl) (.inr rfl) (.inr rfl) (.inr rfl) (.inr rfl) (.inr rfl) (.inr rfl) (.inl (hL (by decide))) (.inr rfl) (.inr rfl) (.inr rfl) (.inr rfl) (.inr rfl) (.inr rfl) (.inr rfl) (.inr rfl) (.inr rfl) (.inr rfl) (.inr rfl) (.inr rfl) (.inr rfl) (.inr rfl) (.inr rfl) (.inr rfl) (.inr rfl) (.inr rfl) rfl
  assumption

theorem reloadRequest_fr {L : List Part} {org : Mach} {w m} (hL : [.msix, .boot, .ev .glb, .ev .boot, .outs] ⊆ L) (h_m : Frame L org m) :
    Frame L org (reloadRequest w m) := by
  delta reloadRequest
  extract_lets x1 x2 x3 x4 x5
  have hx4 : Frame L org x4 := by
    unfold x4
    refine Frame.upd ?_ (.inr rfl) (.inr rfl) (.inr rfl) (.inr rfl) (.inr rfl) (.inr rfl) (.inr rfl) (.inl (hL (by decide))) (.inr rfl) (.inr rfl) (.inr rfl) (.inr rfl) (.inr rfl) (.inr rfl) (.inr rfl) (.inr rfl) (.inr rfl) (.inr rfl) (.inr rfl) (.inr rfl) (.inr rfl) (.inr rfl) (.inr rfl) (.inr rfl) (.inr rfl) (.inr rfl) rfl
    assumption
  clear_value x4
  refine Frame.ite ?_ ?_
  · refine cmdError_fr (partsIn_sub (by decide) hL) ?_
    assumption
  · refine Frame.ite ?_ ?_
    · refine reloadFail_fr (partsIn_sub (by decide) hL) ?_
      assumption
    · refine Frame.ite ?_ ?_
      · refine reloadFail_fr (partsIn_sub (by decide) hL) ?_
        assumption
      · refine Frame.ite ?_ ?_
        · refine reloadFail_fr (partsIn_sub (by decide) hL) ?_
          assumption
        · refine Frame.ite ?_ ?_
          · refine reloadFail_fr (partsIn_sub (by decide) hL) ?_
            assumption
          · refine Frame.ite ?_ ?_
            · refine reloadFail_fr (partsIn_sub (by decide) hL) ?_
              assumption
            · refine Frame.ite ?_ ?_
              · refine reloadFail_fr (partsIn_sub (by decide) hL) ?_
                assumption
              · refine Frame.upd ?_ (.inr rfl) (.inr rfl) (.inr rfl) (.inr rfl) (.inr rfl) (.inr rfl) (.inr rfl) (.inl (hL (by decide))) (.inr rfl) (.inr rfl) (.inr rfl) (.inr rfl) (.inr rfl) (.inr rfl) (.inr rfl) (.inr rfl) (.inr rfl) (.inr rfl) (.inr rfl) (.inr rfl) (.inr rfl) (.inr rfl) (.inr rfl) (.inr rfl) (.inr rfl) (.inr rfl) rfl
                assumption

theorem reloadArmed_fr {L : List Part} {org : Mach} {m} (hL : [.msix, .boot, .beams, .ev .boot, .outs] ⊆ L) (h_m : Frame L org m) :
    Frame L org (reloadArmed m) := by
  delta reloadArmed
  refine Frame.ite ?_ ?_
  · assumption
  · extract_lets x1 x2 x3
    split
    · refine reloadFail_fr (partsIn_sub (by decide) hL) ?_
      refine Frame.upd ?_ (.inr rfl) (.inr rfl) (.inr rfl) (.inr rfl) (.inr rfl) (.inr rfl) (.inr rfl) (.inl (hL (by decide))) (.inr rfl) (.inr rfl) (.inr rfl) (.inr rfl) (.inr rfl) (.inr rfl) (.inr rfl) (.inr rfl) (.inr rfl) (.inr rfl) (.inr rfl) (.inr rfl) (.inr rfl) (.inr rfl) (.inr rfl) (.inr rfl) (.inr rfl) (.inr rfl) rfl
      assumption
    · refine Frame.ite ?_ ?_
      · extract_lets x4
        have hx4 : Frame L org x4 := by
          unfold x4
          refine Frame.upd ?_ (.inr rfl) (.inr rfl) (.inr rfl) (.inr rfl) (.inr rfl) (.inr rfl) (.inr rfl) (.inl (hL (by decide))) (.inr rfl) (.inr rfl) (.inr rfl) (.inr rfl) (.inr rfl) (.inr rfl) (.inr rfl) (.inr rfl) (.inr rfl) (.inr rfl) (.inr rfl) (.inr rfl) (.inr rfl) (.inr rfl) (.inr rfl) (.inr rfl) (.inr rfl) (.inr rfl) rfl
          assumption
        clear_value x4
        refine Frame.ite ?_ ?_
        · refine reloadSwitch_fr (partsIn_sub (by decide) hL) ?_
          assumption
        · assumption
      · refine reloadFail_fr (partsIn_sub (by decide) hL) ?_
        refine Frame.upd ?_ (.inr rfl) (.inr rfl) (.inr rfl) (.inr rfl) (.inr rfl) (.inr rfl) (.inr rfl) (.inl (hL (by decide))) (.inr rfl) (.inr rfl) (.inr rfl) (.inr rfl) (.inr rfl) (.inr rfl) (.inr rfl) (.inr rfl) (.inr rfl) (.inr rfl) (.inr rfl) (.inr rfl) (.inr rfl) (.inr rfl) (.inr rfl) (.inr rfl) (.inr rfl) (.inr rfl) rfl
        assumption

theorem reloadBoundary_fr {L : List Part} {org : Mach} {m} (hL : [.msix, .boot, .beams, .ev .boot, .outs] ⊆ L) (h_m : Frame L org m) :
    Frame L org (reloadBoundary m) := by
  delta reloadBoundary
  refine Frame.ite ?_ ?_
  · refine reloadSwitch_fr (partsIn_sub (by decide) hL) ?_
    assumption
  · assumption

theorem execReloadRequest_fr {L : List Part} {org : Mach} {p v s} (hL : [.g, .msix, .boot, .log, .ev .glb, .ev .boot, .ev .mgt, .outs] ⊆ L) (h_s : Frame L org s.m) :
    OutFrame L org (execReloadRequest p v s) := by
  delta execReloadRequest
  refine act_fr (fun _ _ => ?_) h_s
  refine writeGate_fr (partsIn_sub (by decide) hL) (fun _ _ => ?_) ?_
  · refine reloadRequest_fr (partsIn_sub (by decide) hL) ?_
    assumption
  · assumption

theorem execReloadArmed_fr {L : List Part} {org : Mach} {s} (hL : [.msix, .boot, .beams, .ev .boot, .outs] ⊆ L) (h_s : Frame L org s.m) :
    OutFrame L org (execReloadArmed s) := by
  delta execReloadArmed
  refine act_fr (fun _ _ => ?_) h_s
  refine reloadArmed_fr (partsIn_sub (by decide) hL) ?_
  assumption

theorem execReloadSwitch_fr {L : List Part} {org : Mach} {s} (hL : [.msix, .boot, .beams, .ev .boot, .outs] ⊆ L) (h_s : Frame L org s.m) :
    OutFrame L org (execReloadSwitch s) := by
  delta execReloadSwitch
  refine act_fr (fun _ _ => ?_) h_s
  refine reloadBoundary_fr (partsIn_sub (by decide) hL) ?_
  assumption

theorem updAnswer_fr {L : List Part} {org : Mach} {m} (hL : [.msix, .mgt, .ev .mgt, .outs] ⊆ L) (h_m : Frame L org m) :
    Frame L org (updAnswer m) := by
  delta updAnswer
  split
  · refine raise_fr (partsIn_sub (by simp only [EvReg.kind]; decide) hL) ?_
    refine emit_fr (partsIn_sub (by decide) hL) ?_
    refine Frame.upd ?_ (.inr rfl) (.inr rfl) (.inr rfl) (.inr rfl) (.inr rfl) (.inr rfl) (.inr rfl) (.inr rfl) (.inr rfl) (.inr rfl) (.inl (hL (by decide))) (.inr rfl) (.inr rfl) (.inr rfl) (.inr rfl) (.inr rfl) (.inr rfl) (.inr rfl) (.inr rfl) (.inr rfl) (.inr rfl) (.inr rfl) (.inr rfl) (.inr rfl) (.inr rfl) (.inr rfl) rfl
    assumption
  · assumption

theorem updFail_fr {L : List Part} {org : Mach} {code m} (hL : [.msix, .boot, .mgt, .ev .boot, .ev .mgt, .outs] ⊆ L) (h_m : Frame L org m) :
    Frame L org (updFail code m) := by
  delta updFail
  refine updAnswer_fr (partsIn_sub (by decide) hL) ?_
  refine raise_fr (partsIn_sub (by simp only [EvReg.kind]; decide) hL) ?_
  refine Frame.upd ?_ (.inr rfl) (.inr rfl) (.inr rfl) (.inr rfl) (.inr rfl) (.inr rfl) (.inr rfl) (.inl (hL (by decide))) (.inr rfl) (.inr rfl) (.inr rfl) (.inr rfl) (.inr rfl) (.inr rfl) (.inr rfl) (.inr rfl) (.inr rfl) (.inr rfl) (.inr rfl) (.inr rfl) (.inr rfl) (.inr rfl) (.inr rfl) (.inr rfl) (.inr rfl) (.inr rfl) rfl
  assumption

theorem updStart_fr {L : List Part} {org : Mach} {bank by_ m} (hL : [.msix, .boot, .mgt, .ev .glb, .ev .boot, .ev .mgt, .outs] ⊆ L) (h_m : Frame L org m) :
    Frame L org (updStart bank by_ m) := by
  delta updStart
  extract_lets x1 x2 x3 x4
  have hx3 : Frame L org x3 := by
    unfold x3
    refine Frame.upd ?_ (.inr rfl) (.inr rfl) (.inr rfl) (.inr rfl) (.inr rfl) (.inr rfl) (.inr rfl) (.inl (hL (by decide))) (.inr rfl) (.inr rfl) (.inr rfl) (.inr rfl) (.inr rfl) (.inr rfl) (.inr rfl) (.inr rfl) (.inr rfl) (.inr rfl) (.inr rfl) (.inr rfl) (.inr rfl) (.inr rfl) (.inr rfl) (.inr rfl) (.inr rfl) (.inr rfl) rfl
    assumption
  clear_value x3
  refine Frame.ite ?_ ?_
  · refine cmdError_fr (partsIn_sub (by decide) hL) ?_
    assumption
  · refine Frame.ite ?_ ?_
    · refine Frame.upd ?_ (.inr rfl) (.inr rfl) (.inr rfl) (.inr rfl) (.inr rfl) (.inr rfl) (.inr rfl) (.inl (hL (by decide))) (.inr rfl) (.inr rfl) (.inr rfl) (.inr rfl) (.inr rfl) (.inr rfl) (.inr rfl) (.inr rfl) (.inr rfl) (.inr rfl) (.inr rfl) (.inr rfl) (.inr rfl) (.inr rfl) (.inr rfl) (.inr rfl) (.inr rfl) (.inr rfl) rfl
      assumption
    · refine Frame.ite ?_ ?_
      · refine updFail_fr (partsIn_sub (by decide) hL) ?_
        assumption
      · refine Frame.ite ?_ ?_
        · refine updFail_fr (partsIn_sub (by decide) hL) ?_
          assumption
        · refine Frame.upd ?_ (.inr rfl) (.inr rfl) (.inr rfl) (.inr rfl) (.inr rfl) (.inr rfl) (.inr rfl) (.inl (hL (by decide))) (.inr rfl) (.inr rfl) (.inr rfl) (.inr rfl) (.inr rfl) (.inr rfl) (.inr rfl) (.inr rfl) (.inr rfl) (.inr rfl) (.inr rfl) (.inr rfl) (.inr rfl) (.inr rfl) (.inr rfl) (.inr rfl) (.inr rfl) (.inr rfl) rfl
          assumption

theorem updCmd_fr {L : List Part} {org : Mach} {w m} (hL : [.msix, .boot, .mgt, .ev .glb, .ev .boot, .ev .mgt, .outs] ⊆ L) (h_m : Frame L org m) :
    Frame L org (updCmd w m) := by
  delta updCmd
  refine Frame.ite ?_ ?_
  · refine cmdError_fr (partsIn_sub (by decide) hL) ?_
    assumption
  · split
    · refine updStart_fr (partsIn_sub (by decide) hL) ?_
      assumption
    · refine Frame.ite ?_ ?_
      · refine updFail_fr (partsIn_sub (by decide) hL) ?_
        assumption
      · assumption
    · refine cmdError_fr (partsIn_sub (by decide) hL) ?_
      assumption

theorem setTarget_fr {L : List Part} {org : Mach} {cells m} (hL : [.boot] ⊆ L) (h_m : Frame L org m) :
    Frame L org (setTarget cells m) := by
  delta setTarget
  extract_lets x1 x2
  refine Frame.upd ?_ (.inr rfl) (.inr rfl) (.inr rfl) (.inr rfl) (.inr rfl) (.inr rfl) (.inr rfl) (.inl (hL (by decide))) (.inr rfl) (.inr rfl) (.inr rfl) (.inr rfl) (.inr rfl) (.inr rfl) (.inr rfl) (.inr rfl) (.inr rfl) (.inr rfl) (.inr rfl) (.inr rfl) (.inr rfl) (.inr rfl) (.inr rfl) (.inr rfl) (.inr rfl) (.inr rfl) rfl
  assumption

theorem updSectorDone_fr {L : List Part} {org : Mach} {m} (hL : [.boot] ⊆ L) (h_m : Frame L org m) :
    Frame L org (updSectorDone m) := by
  delta updSectorDone
  extract_lets x1 x2 x3 x4 x5 x6
  have hx5 : Frame L org x5 := by
    unfold x5
    split
    · refine setTarget_fr (partsIn_sub (by decide) hL) ?_
      assumption
    · refine setTarget_fr (partsIn_sub (by decide) hL) ?_
      assumption
    · assumption
  clear_value x5
  refine Frame.ite ?_ ?_
  · assumption
  · refine Frame.upd ?_ (.inr rfl) (.inr rfl) (.inr rfl) (.inr rfl) (.inr rfl) (.inr rfl) (.inr rfl) (.inl (hL (by decide))) (.inr rfl) (.inr rfl) (.inr rfl) (.inr rfl) (.inr rfl) (.inr rfl) (.inr rfl) (.inr rfl) (.inr rfl) (.inr rfl) (.inr rfl) (.inr rfl) (.inr rfl) (.inr rfl) (.inr rfl) (.inr rfl) (.inr rfl) (.inr rfl) rfl
    assumption

theorem updStageOver_fr {L : List Part} {org : Mach} {ok m} (hL : [.msix, .aon, .boot, .mgt, .log, .ev .boot, .ev .mgt, .outs, .free] ⊆ L) (h_m : Frame L org m) :
    Frame L org (updStageOver ok m) := by
  delta updStageOver
  extract_lets x1 x2 x3 x4 x5 x6 x7 x8 x9 x10 x11 x12
  have hx5 : Frame L org x5 := by
    unfold x5
    refine changeStanding_fr (partsIn_sub (by decide) hL) ?_
    assumption
  clear_value x5
  have hx7 : Frame L org x7 := by
    unfold x7
    refine setTarget_fr (partsIn_sub (by decide) hL) ?_
    assumption
  clear_value x7
  have hx9 : Frame L org x9 := by
    unfold x9
    refine setTarget_fr (partsIn_sub (by decide) hL) ?_
    assumption
  clear_value x9
  have hx11 : Frame L org x11 := by
    unfold x11
    refine readBank_fr (partsIn_sub (by decide) hL) ?_
    refine changeStanding_fr (partsIn_sub (by decide) hL) ?_
    assumption
  clear_value x11
  split
  · split
    · refine Frame.upd ?_ (.inr rfl) (.inr rfl) (.inr rfl) (.inr rfl) (.inr rfl) (.inr rfl) (.inr rfl) (.inl (hL (by decide))) (.inr rfl) (.inr rfl) (.inr rfl) (.inr rfl) (.inr rfl) (.inr rfl) (.inr rfl) (.inr rfl) (.inr rfl) (.inr rfl) (.inr rfl) (.inr rfl) (.inr rfl) (.inr rfl) (.inr rfl) (.inr rfl) (.inr rfl) (.inr rfl) rfl
      assumption
    · refine updFail_fr (partsIn_sub (by decide) hL) ?_
      assumption
  · refine Frame.ite ?_ ?_
    · refine readBank_fr (partsIn_sub (by decide) hL) ?_
      refine Frame.upd ?_ (.inr rfl) (.inr rfl) (.inr rfl) (.inr rfl) (.inr rfl) (.inr rfl) (.inr rfl) (.inl (hL (by decide))) (.inr rfl) (.inr rfl) (.inr rfl) (.inr rfl) (.inr rfl) (.inr rfl) (.inr rfl) (.inr rfl) (.inr rfl) (.inr rfl) (.inr rfl) (.inr rfl) (.inr rfl) (.inr rfl) (.inr rfl) (.inr rfl) (.inr rfl) (.inr rfl) rfl
      assumption
    · refine updFail_fr (partsIn_sub (by decide) hL) ?_
      assumption
  · refine Frame.ite ?_ ?_
    · refine Frame.upd ?_ (.inr rfl) (.inr rfl) (.inr rfl) (.inr rfl) (.inr rfl) (.inr rfl) (.inr rfl) (.inl (hL (by decide))) (.inr rfl) (.inr rfl) (.inr rfl) (.inr rfl) (.inr rfl) (.inr rfl) (.inr rfl) (.inr rfl) (.inr rfl) (.inr rfl) (.inr rfl) (.inr rfl) (.inr rfl) (.inr rfl) (.inr rfl) (.inr rfl) (.inr rfl) (.inr rfl) rfl
      assumption
    · refine updFail_fr (partsIn_sub (by decide) hL) ?_
      assumption
  · refine Frame.ite ?_ ?_
    · refine updAnswer_fr (partsIn_sub (by decide) hL) ?_
      refine raise_fr (partsIn_sub (by simp only [EvReg.kind]; decide) hL) ?_
      refine Frame.upd ?_ (.inr rfl) (.inr rfl) (.inr rfl) (.inr rfl) (.inr rfl) (.inr rfl) (.inr rfl) (.inl (hL (by decide))) (.inr rfl) (.inr rfl) (.inr rfl) (.inr rfl) (.inr rfl) (.inr rfl) (.inr rfl) (.inr rfl) (.inr rfl) (.inr rfl) (.inr rfl) (.inr rfl) (.inr rfl) (.inr rfl) (.inr rfl) (.inr rfl) (.inr rfl) (.inr rfl) rfl
      assumption
    · refine updFail_fr (partsIn_sub (by decide) hL) ?_
      assumption
  · assumption

theorem updStageEnd_fr {L : List Part} {org : Mach} {r m} (hL : [.msix, .aon, .boot, .mgt, .log, .ev .boot, .ev .mgt, .outs, .free] ⊆ L) (h_m : Frame L org m) :
    Frame L org (updStageEnd r m) := by
  delta updStageEnd
  split
  · refine whenM_fr (fun _ _ => ?_) ?_
    · refine updSectorDone_fr (partsIn_sub (by decide) hL) ?_
      assumption
    · assumption
  · refine updStageOver_fr (partsIn_sub (by decide) hL) ?_
    assumption

theorem execUpdateWrite_fr {L : List Part} {org : Mach} {p hi s} (hL : [.g, .msix, .boot, .mgt, .log, .ev .glb, .ev .boot, .ev .mgt, .outs] ⊆ L) (h_s : Frame L org s.m) :
    OutFrame L org (execUpdateWrite p hi s) := by
  delta execUpdateWrite
  refine act_fr (fun _ _ => ?_) h_s
  refine writeGate_fr (partsIn_sub (by decide) hL) (fun _ _ => ?_) ?_
  · refine updCmd_fr (partsIn_sub (by decide) hL) ?_
    assumption
  · assumption

theorem execUpdateCancel_fr {L : List Part} {org : Mach} {p hi s} (hL : [.g, .msix, .boot, .mgt, .log, .ev .glb, .ev .boot, .ev .mgt, .outs] ⊆ L) (h_s : Frame L org s.m) :
    OutFrame L org (execUpdateCancel p hi s) := by
  delta execUpdateCancel
  refine act_fr (fun _ _ => ?_) h_s
  refine writeGate_fr (partsIn_sub (by decide) hL) (fun _ _ => ?_) ?_
  · refine updCmd_fr (partsIn_sub (by decide) hL) ?_
    assumption
  · assumption

theorem execUpdateStageEnd_fr {L : List Part} {org : Mach} {r s} (hL : [.msix, .aon, .boot, .mgt, .log, .ev .boot, .ev .mgt, .outs, .free] ⊆ L) (h_s : Frame L org s.m) :
    OutFrame L org (execUpdateStageEnd r s) := by
  delta execUpdateStageEnd
  refine act_fr (fun _ _ => ?_) h_s
  refine updStageEnd_fr (partsIn_sub (by decide) hL) ?_
  assumption

end Sys2Proof.Machine
end

