-- ==== Sys2Proof/Laws/Frame/SafeHold.lean ====
section
/-!
SUPPORT. The parts of the device that the operations of Machine/SafeHold.lean can touch: one lemma per operation.
-/

namespace Sys2Proof.Machine

theorem stateEntry_fr {L : List Part} {org : Mach} {old cause m} (hL : [.msix, .log, .ev .glb, .ev .mgt, .outs] ⊆ L) (h_m : Frame L org m) :
    Frame L org (stateEntry old cause m) := by
  delta stateEntry
  extract_lets x1
  have hx1 : Frame L org x1 := by
    unfold x1
    refine log_fr (partsIn_sub (by decide) hL) ?_
    assumption
  clear_value x1
  refine whenM_fr (fun _ _ => ?_) ?_
  · refine raise_fr (partsIn_sub (by simp only [EvReg.kind]; decide) hL) ?_
    assumption
  · assumption

theorem devMove_fr {L : List Part} {org : Mach} {new cause m} (hL : [.g, .msix, .log, .beams, .sig, .ilk, .ev .glb, .ev .mgt, .outs] ⊆ L) (h_m : Frame L org m) :
    Frame L org (devMove new cause m) := by
  delta devMove
  extract_lets x1 x2
  refine pinsFollow_fr (partsIn_sub (by decide) hL) ?_
  refine devSignals_fr (partsIn_sub (by decide) hL) ?_
  refine stateEntry_fr (partsIn_sub (by decide) hL) ?_
  refine Frame.upd ?_ (.inr rfl) (.inr rfl) (.inr rfl) (.inl (hL (by decide))) (.inr rfl) (.inr rfl) (.inr rfl) (.inr rfl) (.inr rfl) (.inr rfl) (.inr rfl) (.inr rfl) (.inr rfl) (.inr rfl) (.inr rfl) (.inr rfl) (.inr rfl) (.inr rfl) (.inr rfl) (.inr rfl) (.inr rfl) (.inr rfl) (.inr rfl) (.inr rfl) (.inr rfl) (.inr rfl) rfl
  assumption

theorem shadowDrop_fr {L : List Part} {org : Mach} {m} (hL : [.msix, .cells, .ev .cellArr, .outs] ⊆ L) (h_m : Frame L org m) :
    Frame L org (shadowDrop m) := by
  delta shadowDrop
  split
  · assumption
  · extract_lets x1 x2
    have hx2 : Frame L org x2 := by
      unfold x2
      refine onCells_fr (partsIn_sub (by decide) hL) ?_
      assumption
    clear_value x2
    refine Frame.ite ?_ ?_
    · assumption
    · refine Frame.ite ?_ ?_
      · refine onCells_fr (partsIn_sub (by decide) hL) ?_
        assumption
      · refine substOver_fr (partsIn_sub (by decide) hL) ?_
        refine toQuarantine_fr (partsIn_sub (by decide) hL) ?_
        refine eachM_fr (fun _ _ _ => ?_) ?_
        · refine onCtx_fr (partsIn_sub (by decide) hL) ?_
          assumption
        · assumption

theorem onCh_fr {L : List Part} {org : Mach} {c f m} (hL : [.mem] ⊆ L) (h_m : Frame L org m) : Frame L org (onCh c f m) := by
  refine h_m.memc (hL (by decide)) ?_
  delta Mem.setCh
  split <;> rfl

theorem retrainNow_fr {L : List Part} {org : Mach} {c m} (hL : [.mem] ⊆ L) (h_m : Frame L org m) :
    Frame L org (retrainNow c m) := by
  delta retrainNow
  refine whenM_fr (fun _ _ => ?_) ?_
  · refine onCh_fr (partsIn_sub (by decide) hL) ?_
    assumption
  · assumption

theorem safeRest_fr {L : List Part} {org : Mach} {m1} (hL : [.g, .msix, .clk, .boot, .mem, .log, .imp, .beams, .mpl, .cells, .sig, .heads, .stg, .ev .boot, .ev .imp, .ev .cellArr, .ev .stg, .ev .hlt, .ev .mgt, .outs, .free] ⊆ L) (h_m1 : Frame L org m1) :
    Frame L org (safeRest m1) := by
  delta safeRest
  extract_lets x1 x2 x3 x4 x5 x6 x7
  have hx1 : Frame L org x1 := by
    unfold x1
    refine eachM_fr (fun _ _ _ => ?_) ?_
    · refine beamFreeze_fr (partsIn_sub (by decide) hL) ?_
      assumption
    · assumption
  clear_value x1
  have hx3 : Frame L org x3 := by
    unfold x3
    refine Frame.ite ?_ ?_
    · refine Frame.upd ?_ (.inr rfl) (.inr rfl) (.inr rfl) (.inr rfl) (.inr rfl) (.inr rfl) (.inl (hL (by decide))) (.inr rfl) (.inr rfl) (.inr rfl) (.inr rfl) (.inr rfl) (.inr rfl) (.inr rfl) (.inr rfl) (.inr rfl) (.inr rfl) (.inr rfl) (.inr rfl) (.inr rfl) (.inr rfl) (.inr rfl) (.inr rfl) (.inr rfl) (.inr rfl) (.inr rfl) rfl
      assumption
    · assumption
  clear_value x3
  have hx4 : Frame L org x4 := by
    unfold x4
    refine eachM_fr (fun _ _ _ => ?_) ?_
    · refine parkSend_fr (partsIn_sub (by decide) hL) ?_
      assumption
    · assumption
  clear_value x4
  have hx5 : Frame L org x5 := by
    unfold x5
    refine onImpAll_fr (partsIn_sub (by decide) hL) ?_
    assumption
  clear_value x5
  have hx6 : Frame L org x6 := by
    unfold x6
    refine ctxSafeHold_fr (partsIn_sub (by decide) hL) ?_
    refine spareWatch_fr (partsIn_sub (by decide) hL) (fun _ _ => ?_) ?_
    · refine shadowDrop_fr (partsIn_sub (by decide) hL) ?_
      assumption
    · assumption
  clear_value x6
  have hx7 : Frame L org x7 := by
    unfold x7
    refine layerOver_fr (partsIn_sub (by decide) hL) ?_
    refine axesHalt_fr (partsIn_sub (by decide) hL) ?_
    assumption
  clear_value x7
  refine eachM_fr (fun _ _ _ => ?_) ?_
  · refine retrainNow_fr (partsIn_sub (by decide) hL) ?_
    assumption
  · refine reloadSwitch_fr (partsIn_sub (by decide) hL) ?_
    assumption

theorem safeSteps_fr {L : List Part} {org : Mach} {m} (hL : [.g, .msix, .clk, .boot, .mem, .log, .imp, .beams, .mpl, .cells, .sig, .heads, .stg, .ilk, .ev .boot, .ev .imp, .ev .cellArr, .ev .stg, .ev .hlt, .ev .mgt, .outs, .free] ⊆ L) (h_m : Frame L org m) :
    Frame L org (safeSteps m) := by
  delta safeSteps
  refine safeRest_fr (partsIn_sub (by decide) hL) ?_
  refine ilkDrive_fr (partsIn_sub (by decide) hL) ?_
  refine onIlk_fr (partsIn_sub (by decide) hL) ?_
  assumption

theorem enterSafe_fr {L : List Part} {org : Mach} {byFault cause m} (hL : [.g, .msix, .clk, .boot, .mem, .log, .imp, .beams, .mpl, .cells, .sig, .heads, .stg, .ilk, .ev .glb, .ev .boot, .ev .imp, .ev .cellArr, .ev .stg, .ev .hlt, .ev .mgt, .outs, .free] ⊆ L) (h_m : Frame L org m) :
    Frame L org (enterSafe byFault cause m) := by
  delta enterSafe
  extract_lets x1 x2 x3
  have hx3 : Frame L org x3 := by
    unfold x3
    refine Frame.upd ?_ (.inr rfl) (.inr rfl) (.inr rfl) (.inl (hL (by decide))) (.inr rfl) (.inr rfl) (.inr rfl) (.inr rfl) (.inr rfl) (.inr rfl) (.inr rfl) (.inr rfl) (.inr rfl) (.inr rfl) (.inr rfl) (.inr rfl) (.inr rfl) (.inr rfl) (.inr rfl) (.inr rfl) (.inr rfl) (.inr rfl) (.inr rfl) (.inr rfl) (.inr rfl) (.inr rfl) rfl
    assumption
  clear_value x3
  refine devMove_fr (partsIn_sub (by decide) hL) ?_
  refine safeSteps_fr (partsIn_sub (by decide) hL) ?_
  assumption

theorem faultInto_fr {L : List Part} {org : Mach} {cause code unit arg m} (hL : [.g, .msix, .clk, .boot, .mem, .mgt, .log, .imp, .beams, .mpl, .cells, .sig, .heads, .stg, .ilk, .ev .glb, .ev .boot, .ev .imp, .ev .cellArr, .ev .stg, .ev .hlt, .ev .mgt, .outs, .free] ⊆ L) (h_m : Frame L org m) :
    Frame L org (faultInto cause code unit arg m) := by
  delta faultInto
  extract_lets x1 x2 x3 x4 x5
  have hx1 : Frame L org x1 := by
    unfold x1
    refine log_fr (partsIn_sub (by decide) hL) ?_
    refine whenM_fr (fun _ _ => ?_) ?_
    · refine bootEntries_fr (partsIn_sub (by decide) hL) ?_
      assumption
    · assumption
  clear_value x1
  have hf_x2 : ∀ m, Frame L org m → Frame L org (x2 m) := by
    intro m hm
    unfold x2
    refine raise_fr (partsIn_sub (by simp only [EvReg.kind]; decide) hL) ?_
    refine Frame.upd ?_ (.inr rfl) (.inr rfl) (.inr rfl) (.inr rfl) (.inr rfl) (.inr rfl) (.inr rfl) (.inr rfl) (.inr rfl) (.inr rfl) (.inl (hL (by decide))) (.inr rfl) (.inr rfl) (.inr rfl) (.inr rfl) (.inr rfl) (.inr rfl) (.inr rfl) (.inr rfl) (.inr rfl) (.inr rfl) (.inr rfl) (.inr rfl) (.inr rfl) (.inr rfl) (.inr rfl) rfl
    assumption
  clear_value x2
  refine Frame.ite ?_ ?_
  · refine enterSafe_fr (partsIn_sub (by decide) hL) ?_
    apply hf_x2
    refine Frame.upd ?_ (.inr rfl) (.inr rfl) (.inr rfl) (.inr rfl) (.inr rfl) (.inr rfl) (.inr rfl) (.inl (hL (by decide))) (.inr rfl) (.inr rfl) (.inr rfl) (.inr rfl) (.inr rfl) (.inr rfl) (.inr rfl) (.inr rfl) (.inr rfl) (.inr rfl) (.inr rfl) (.inr rfl) (.inr rfl) (.inr rfl) (.inr rfl) (.inr rfl) (.inr rfl) (.inr rfl) rfl
    assumption
  · refine Frame.ite ?_ ?_
    · refine pinsFollow_fr (partsIn_sub (by decide) hL) ?_
      refine stateEntry_fr (partsIn_sub (by decide) hL) ?_
      apply hf_x2
      refine Frame.upd ?_ (.inr rfl) (.inr rfl) (.inr rfl) (.inl (hL (by decide))) (.inr rfl) (.inr rfl) (.inr rfl) (.inr rfl) (.inr rfl) (.inr rfl) (.inr rfl) (.inr rfl) (.inr rfl) (.inr rfl) (.inr rfl) (.inr rfl) (.inr rfl) (.inr rfl) (.inr rfl) (.inr rfl) (.inr rfl) (.inr rfl) (.inr rfl) (.inr rfl) (.inr rfl) (.inr rfl) rfl
      assumption
    · refine Frame.ite ?_ ?_
      · refine Frame.upd ?_ (.inr rfl) (.inr rfl) (.inr rfl) (.inr rfl) (.inr rfl) (.inr rfl) (.inr rfl) (.inr rfl) (.inr rfl) (.inr rfl) (.inl (hL (by decide))) (.inr rfl) (.inr rfl) (.inr rfl) (.inr rfl) (.inr rfl) (.inr rfl) (.inr rfl) (.inr rfl) (.inr rfl) (.inr rfl) (.inr rfl) (.inr rfl) (.inr rfl) (.inr rfl) (.inr rfl) rfl
        assumption
      · assumption

theorem faultSafeHold_fr {L : List Part} {org : Mach} {z0 z1 z2 z3} (hL : [.g, .msix, .clk, .boot, .mem, .mgt, .log, .imp, .beams, .mpl, .cells, .sig, .heads, .stg, .ilk, .ev .glb, .ev .boot, .ev .imp, .ev .cellArr, .ev .stg, .ev .hlt, .ev .mgt, .outs, .free] ⊆ L) (h_z3 : Frame L org z3) :
    Frame L org (faultSafeHold z0 z1 z2 z3) := by
  delta faultSafeHold
  refine faultInto_fr (partsIn_sub (by decide) hL) ?_
  assumption

end Sys2Proof.Machine
end

