-- ==== Sys2Proof/Laws/Frame/MemRead.lean ====
section
/-!
SUPPORT. The parts of the device that the operations of Machine/MemRead.lean can touch: one lemma per operation.
-/

namespace Sys2Proof.Machine

theorem neighbourRefresh_fr {L : List Part} {org : Mach} {c bank row m} (hL : [.msix, .mem, .ev .mem, .outs] ⊆ L) (h_m : Frame L org m) :
    Frame L org (neighbourRefresh c bank row m) := by
  delta neighbourRefresh
  extract_lets x1 x2
  have hx1 : Frame L org x1 := by
    unfold x1
    refine onCh_fr (partsIn_sub (by decide) hL) ?_
    assumption
  clear_value x1
  refine raise_fr (partsIn_sub (by simp only [EvReg.kind]; decide) hL) ?_
  refine Frame.upd ?_ (.inr rfl) (.inr rfl) (.inr rfl) (.inr rfl) (.inr rfl) (.inr rfl) (.inr rfl) (.inr rfl) (.inr rfl) (.inl (hL (by decide))) (.inr rfl) (.inr rfl) (.inr rfl) (.inr rfl) (.inr rfl) (.inr rfl) (.inr rfl) (.inr rfl) (.inr rfl) (.inr rfl) (.inr rfl) (.inr rfl) (.inr rfl) (.inr rfl) (.inr rfl) (.inr rfl) rfl
  assumption

theorem neighboursFirst_fr {L : List Part} {org : Mach} {c bank m} (hL : [.msix, .mem, .ev .mem, .outs] ⊆ L) (h_m : Frame L org m) :
    Frame L org (neighboursFirst c bank m) := by
  delta neighboursFirst
  refine eachM_fr (fun _ _ _ => ?_) ?_
  · refine neighbourRefresh_fr (partsIn_sub (by decide) hL) ?_
    assumption
  · assumption

theorem rowActivate_fr {L : List Part} {org : Mach} {k m} (hL : [.msix, .mem, .ev .mem, .outs] ⊆ L) (h_m : Frame L org m) :
    Frame L org (rowActivate k m) := by
  delta rowActivate
  extract_lets x1 x2 x3 x4
  have hx4 : Frame L org x4 := by
    unfold x4
    refine neighboursFirst_fr (partsIn_sub (by decide) hL) ?_
    assumption
  clear_value x4
  refine Frame.ite ?_ ?_
  · assumption
  · refine onCh_fr (partsIn_sub (by decide) hL) ?_
    assumption

theorem ueFound_fr {L : List Part} {org : Mach} {req k m} (hL : [.g, .msix, .clk, .boot, .mem, .mgt, .log, .imp, .beams, .mpl, .cells, .sig, .heads, .stg, .ilk, .ev .glb, .ev .boot, .ev .imp, .ev .cellArr, .ev .stg, .ev .mem, .ev .hlt, .ev .mgt, .outs, .free] ⊆ L) (h_m : Frame L org m) :
    Frame L org (ueFound req k m) := by
  delta ueFound
  extract_lets x1 x2 x3 x4 x5
  have hx3 : Frame L org x3 := by
    unfold x3
    refine Frame.upd ?_ (.inr rfl) (.inr rfl) (.inr rfl) (.inr rfl) (.inr rfl) (.inr rfl) (.inr rfl) (.inr rfl) (.inr rfl) (.inl (hL (by decide))) (.inr rfl) (.inr rfl) (.inr rfl) (.inr rfl) (.inr rfl) (.inr rfl) (.inr rfl) (.inr rfl) (.inr rfl) (.inr rfl) (.inr rfl) (.inr rfl) (.inr rfl) (.inr rfl) (.inr rfl) (.inr rfl) rfl
    assumption
  clear_value x3
  have hx5 : Frame L org x5 := by
    unfold x5
    refine log_fr (partsIn_sub (by decide) hL) ?_
    refine raise_fr (partsIn_sub (by simp only [EvReg.kind]; decide) hL) ?_
    assumption
  clear_value x5
  refine Frame.ite ?_ ?_
  · refine faultSafeHold_fr (partsIn_sub (by decide) hL) ?_
    assumption
  · assumption

theorem ceFound_fr {L : List Part} {org : Mach} {k m} (hL : [.mem, .ev .mem, .msix, .outs] ⊆ L) (h_m : Frame L org m) :
    Frame L org (ceFound k m) := by
  delta ceFound
  refine raise_fr (partsIn_sub (by decide) hL) (h_m.memc (hL (by decide)) ?_)
  exact queueWrite_cells m.mem k

theorem readServed_fr {L : List Part} {org : Mach} {r m} (hL : [.msix, .mem, .ev .mem, .outs] ⊆ L) (h_m : Frame L org m) :
    Frame L org (readServed r m) := by
  delta readServed
  refine Frame.ite ?_ ?_
  · refine Frame.upd ?_ (.inr rfl) (.inr rfl) (.inr rfl) (.inr rfl) (.inr rfl) (.inr rfl) (.inr rfl) (.inr rfl) (.inr rfl) (.inl (hL (by decide))) (.inr rfl) (.inr rfl) (.inr rfl) (.inr rfl) (.inr rfl) (.inr rfl) (.inr rfl) (.inr rfl) (.inr rfl) (.inr rfl) (.inr rfl) (.inr rfl) (.inr rfl) (.inr rfl) (.inr rfl) (.inr rfl) rfl
    assumption
  · refine rowActivate_fr (partsIn_sub (by decide) hL) ?_
    assumption

theorem serveReads_fr {L : List Part} {org : Mach} {c n m} (hL : [.msix, .mem, .ev .mem, .outs] ⊆ L) (h_m : Frame L org m) :
    Frame L org (serveReads c n m) := by
  delta serveReads
  split
  · refine eachM_fr (fun _ _ _ => ?_) ?_
    · refine readServed_fr (partsIn_sub (by decide) hL) ?_
      assumption
    · refine onCh_fr (partsIn_sub (by decide) hL) ?_
      assumption

theorem readBlocks_fr {L : List Part} {org : Mach} {c req ks m} (hL : [.msix, .mem, .ev .mem, .outs] ⊆ L) (h_m : Frame L org m) :
    Frame L org (readBlocks c req ks m) := by
  delta readBlocks
  extract_lets x1 x2
  have hx1 : Frame L org x1 := by
    unfold x1
    refine onCh_fr (partsIn_sub (by decide) hL) ?_
    assumption
  clear_value x1
  refine serveReads_fr (partsIn_sub (by decide) hL) ?_
  assumption

theorem memRead_fr {L : List Part} {org : Mach} {req a n e m} (hL : [.g, .msix, .clk, .boot, .mem, .mgt, .log, .imp, .beams, .mpl, .cells, .sig, .heads, .stg, .ilk, .ev .glb, .ev .boot, .ev .imp, .ev .cellArr, .ev .stg, .ev .mem, .ev .hlt, .ev .mgt, .outs, .free] ⊆ L) (h_m : Frame L org m) :
    Frame L org (memRead req a n e m) := by
  delta memRead
  extract_lets x1 x2 x3
  have hx2 : Frame L org x2 := by
    unfold x2
    refine readBlocks_fr (partsIn_sub (by decide) hL) ?_
    refine readBlocks_fr (partsIn_sub (by decide) hL) ?_
    assumption
  clear_value x2
  refine eachM_fr (fun _ _ _ => ?_) ?_
  · refine ueFound_fr (partsIn_sub (by decide) hL) ?_
    assumption
  · refine eachM_fr (fun _ _ _ => ?_) ?_
    · refine ceFound_fr (partsIn_sub (by decide) hL) ?_
      assumption
    · assumption

end Sys2Proof.Machine
end

