-- ==== Sys2Proof/Laws/Frame/HostOps.lean ====
section
/-!
SUPPORT. The parts of the device that the operations of Machine/HostOps.lean can touch: one lemma per operation.
-/

namespace Sys2Proof.Machine

theorem onDma_fr {L : List Part} {org : Mach} {n f m} (hL : [.g] ⊆ L) (h_m : Frame L org m) :
    Frame L org (onDma n f m) := by
  delta onDma
  refine Frame.upd ?_ (.inr rfl) (.inr rfl) (.inr rfl) (.inl (hL (by decide))) (.inr rfl) (.inr rfl) (.inr rfl) (.inr rfl) (.inr rfl) (.inr rfl) (.inr rfl) (.inr rfl) (.inr rfl) (.inr rfl) (.inr rfl) (.inr rfl) (.inr rfl) (.inr rfl) (.inr rfl) (.inr rfl) (.inr rfl) (.inr rfl) (.inr rfl) (.inr rfl) (.inr rfl) (.inr rfl) rfl
  assumption

theorem dmaTail_fr {L : List Part} {org : Mach} {n v z2} (hL : [.g] ⊆ L) (h_z2 : Frame L org z2) :
    Frame L org (dmaTail n v z2) := by
  delta dmaTail
  refine onDma_fr (partsIn_sub (by decide) hL) ?_
  assumption

theorem dmaCtrl_fr {L : List Part} {org : Mach} {n w m} (hL : [.g, .msix, .ev .dma, .outs] ⊆ L) (h_m : Frame L org m) :
    Frame L org (dmaCtrl n w m) := by
  delta dmaCtrl
  extract_lets x1 x2 x3
  refine whenM_fr (fun _ _ => ?_) ?_
  · refine raise_fr (partsIn_sub (by simp only [EvReg.kind]; decide) hL) ?_
    assumption
  · refine onDma_fr (partsIn_sub (by decide) hL) ?_
    assumption

theorem dmaRing_fr {L : List Part} {org : Mach} {p off n lo hi m} (hL : [.g, .msix, .log, .ev .glb, .ev .mgt, .outs] ⊆ L) (h_m : Frame L org m) :
    Frame L org (dmaRing p off n lo hi m) := by
  delta dmaRing
  refine Frame.ite ?_ ?_
  · refine accErr_fr (partsIn_sub (by decide) hL) ?_
    assumption
  · refine onDma_fr (partsIn_sub (by decide) hL) ?_
    assumption

theorem dmaSize_fr {L : List Part} {org : Mach} {p n v m} (hL : [.g, .msix, .log, .ev .glb, .ev .mgt, .outs] ⊆ L) (h_m : Frame L org m) :
    Frame L org (dmaSize p n v m) := by
  delta dmaSize
  extract_lets x1
  refine Frame.ite ?_ ?_
  · refine accErr_fr (partsIn_sub (by decide) hL) ?_
    assumption
  · refine onDma_fr (partsIn_sub (by decide) hL) ?_
    assumption

theorem dmaStore_fr {L : List Part} {org : Mach} {a bs e m} (hL : [.g, .msix, .clk, .boot, .bytes, .mem, .mgt, .log, .imp, .beams, .mpl, .cells, .sig, .heads, .stg, .ilk, .ev .glb, .ev .boot, .ev .imp, .ev .cellArr, .ev .stg, .ev .mem, .ev .hlt, .ev .mgt, .outs, .free] ⊆ L) (h_m : Frame L org m) :
    Frame L org (dmaStore a bs e m) := by
  delta dmaStore
  extract_lets x1 x2 x3
  have hx3 : Frame L org x3 := by
    unfold x3
    refine eachM_fr (fun _ _ _ => ?_) ?_
    · refine ueFound_fr (partsIn_sub (by decide) hL) ?_
      assumption
    · assumption
  clear_value x3
  refine Frame.ite ?_ ?_
  · refine memWrite_fr (partsIn_sub (by decide) hL) ?_
    assumption
  · refine eachM_fr (fun _ _ _ => ?_) ?_
    · extract_lets x4 x5
      refine memWrite_fr (partsIn_sub (by decide) hL) ?_
      assumption
    · assumption

theorem dmaSend_fr {L : List Part} {org : Mach} {ch host a n e m} (hL : [.g, .msix, .clk, .boot, .mem, .mgt, .log, .imp, .beams, .mpl, .cells, .sig, .heads, .stg, .ilk, .ev .glb, .ev .boot, .ev .imp, .ev .cellArr, .ev .stg, .ev .mem, .ev .hlt, .ev .mgt, .outs, .free] ⊆ L) (h_m : Frame L org m) :
    Frame L org (dmaSend ch host a n e m) := by
  delta dmaSend
  refine eachM_fr (fun _ _ _ => ?_) ?_
  · extract_lets x1 x2
    refine emit_fr (partsIn_sub (by decide) hL) ?_
    assumption
  · refine memRead_fr (partsIn_sub (by decide) hL) ?_
    assumption

theorem dmaRequest_fr {L : List Part} {org : Mach} {n x k m} (hL : [.g, .msix, .clk, .boot, .bytes, .mem, .mgt, .log, .imp, .beams, .mpl, .cells, .sig, .heads, .stg, .ilk, .ev .glb, .ev .boot, .ev .imp, .ev .cellArr, .ev .stg, .ev .mem, .ev .hlt, .ev .mgt, .outs, .free] ⊆ L) (h_m : Frame L org m) :
    Frame L org (dmaRequest n x k m) := by
  delta dmaRequest
  extract_lets x1 x2 x3 x4
  have hx4 : Frame L org x4 := by
    unfold x4
    refine Frame.ite ?_ ?_
    · refine dmaSend_fr (partsIn_sub (by decide) hL) ?_
      assumption
    · refine dmaStore_fr (partsIn_sub (by decide) hL) ?_
      assumption
  clear_value x4
  refine Frame.ite ?_ ?_
  · assumption
  · refine onDma_fr (partsIn_sub (by decide) hL) ?_
    assumption

theorem dmaTurn_fr {L : List Part} {org : Mach} {n k js m} (hL : [.g, .msix, .clk, .boot, .bytes, .mem, .mgt, .log, .imp, .beams, .mpl, .cells, .sig, .heads, .stg, .ilk, .ev .glb, .ev .boot, .ev .imp, .ev .cellArr, .ev .stg, .ev .mem, .ev .hlt, .ev .mgt, .outs, .free] ⊆ L) (h_m : Frame L org m) :
    Frame L org (dmaTurn n k js m) := by
  delta dmaTurn
  refine Frame.ite ?_ ?_
  · assumption
  · extract_lets x1 x2 x3
    have hx2 : Frame L org x2 := by
      unfold x2
      split
      · refine Frame.ite ?_ ?_
        · refine dmaRequest_fr (partsIn_sub (by decide) hL) ?_
          assumption
        · assumption
      · assumption
    clear_value x2
    refine Frame.upd ?_ (.inr rfl) (.inr rfl) (.inr rfl) (.inl (hL (by decide))) (.inr rfl) (.inr rfl) (.inr rfl) (.inr rfl) (.inr rfl) (.inr rfl) (.inr rfl) (.inr rfl) (.inr rfl) (.inr rfl) (.inr rfl) (.inr rfl) (.inr rfl) (.inr rfl) (.inr rfl) (.inr rfl) (.inr rfl) (.inr rfl) (.inr rfl) (.inr rfl) (.inr rfl) (.inr rfl) rfl
    assumption

theorem dmaServe_fr {L : List Part} {org : Mach} {n js k m} (hL : [.g, .msix, .clk, .boot, .bytes, .mem, .mgt, .log, .imp, .beams, .mpl, .cells, .sig, .heads, .stg, .ilk, .ev .glb, .ev .boot, .ev .imp, .ev .cellArr, .ev .stg, .ev .mem, .ev .hlt, .ev .mgt, .outs, .free] ⊆ L) (h_m : Frame L org m) :
    Frame L org (dmaServe n js k m) := by
  delta dmaServe
  refine eachM_fr (fun _ _ _ => ?_) ?_
  · refine dmaTurn_fr (partsIn_sub (by decide) hL) ?_
    assumption
  · assumption

theorem dmaClose_fr {L : List Part} {org : Mach} {n tag result irq m} (hL : [.g, .msix, .ev .dma, .outs] ⊆ L) (h_m : Frame L org m) :
    Frame L org (dmaClose n tag result irq m) := by
  delta dmaClose
  extract_lets x1 x2 x3 x4 x5 x6 x7
  have hx5 : Frame L org x5 := by
    unfold x5
    refine onDma_fr (partsIn_sub (by decide) hL) ?_
    assumption
  clear_value x5
  have hx6 : Frame L org x6 := by
    unfold x6
    refine whenM_fr (fun _ _ => ?_) ?_
    · refine raise_fr (partsIn_sub (by simp only [EvReg.kind]; decide) hL) ?_
      assumption
    · assumption
  clear_value x6
  have hx7 : Frame L org x7 := by
    unfold x7
    refine whenM_fr (fun _ _ => ?_) ?_
    · refine raise_fr (partsIn_sub (by simp only [EvReg.kind]; decide) hL) ?_
      assumption
    · assumption
  clear_value x7
  refine whenM_fr (fun _ _ => ?_) ?_
  · refine raise_fr (partsIn_sub (by simp only [EvReg.kind]; decide) hL) ?_
    assumption
  · assumption

theorem dmaDescDone_fr {L : List Part} {org : Mach} {n x others m} (hL : [.g, .msix, .clk, .boot, .bytes, .mem, .mgt, .log, .imp, .beams, .mpl, .cells, .sig, .heads, .stg, .ilk, .ev .glb, .ev .dma, .ev .boot, .ev .imp, .ev .cellArr, .ev .stg, .ev .mem, .ev .hlt, .ev .mgt, .outs, .free] ⊆ L) (h_m : Frame L org m) :
    Frame L org (dmaDescDone n x others m) := by
  delta dmaDescDone
  extract_lets x1 x2 x3 x4 x5
  have hx4 : Frame L org x4 := by
    unfold x4
    refine dmaServe_fr (partsIn_sub (by decide) hL) ?_
    assumption
  clear_value x4
  have hx5 : Frame L org x5 := by
    unfold x5
    refine emit_fr (partsIn_sub (by decide) hL) ?_
    assumption
  clear_value x5
  refine Frame.ite ?_ ?_
  · assumption
  · refine dmaClose_fr (partsIn_sub (by decide) hL) ?_
    assumption

theorem hostAbsentBegin_fr {L : List Part} {org : Mach} {reason m} (hL : [.g, .msix, .log, .job, .ev .glb, .ev .job, .ev .mgt, .outs] ⊆ L) (h_m : Frame L org m) :
    Frame L org (hostAbsentBegin reason m) := by
  delta hostAbsentBegin
  refine Frame.ite ?_ ?_
  · assumption
  · extract_lets x1 x2 x3
    have hx2 : Frame L org x2 := by
      unfold x2
      refine raise_fr (partsIn_sub (by simp only [EvReg.kind]; decide) hL) ?_
      refine Frame.upd ?_ (.inr rfl) (.inr rfl) (.inr rfl) (.inl (hL (by decide))) (.inr rfl) (.inr rfl) (.inr rfl) (.inr rfl) (.inr rfl) (.inr rfl) (.inr rfl) (.inr rfl) (.inr rfl) (.inr rfl) (.inr rfl) (.inr rfl) (.inr rfl) (.inr rfl) (.inr rfl) (.inr rfl) (.inr rfl) (.inr rfl) (.inr rfl) (.inr rfl) (.inr rfl) (.inr rfl) rfl
      assumption
    clear_value x2
    have hx3 : Frame L org x3 := by
      unfold x3
      refine log_fr (partsIn_sub (by decide) hL) ?_
      assumption
    clear_value x3
    split
    · refine commitDrop_fr (partsIn_sub (by decide) hL) ?_
      refine log_fr (partsIn_sub (by decide) hL) ?_
      assumption
    · assumption

theorem heartbeat_fr {L : List Part} {org : Mach} {p v m} (hL : [.g, .msix, .log, .ev .glb, .ev .mgt, .outs] ⊆ L) (h_m : Frame L org m) :
    Frame L org (heartbeat p v m) := by
  delta heartbeat
  extract_lets x1 x2 x3 x4 x5
  have hx2 : Frame L org x2 := by
    unfold x2
    refine Frame.upd ?_ (.inr rfl) (.inr rfl) (.inr rfl) (.inl (hL (by decide))) (.inr rfl) (.inr rfl) (.inr rfl) (.inr rfl) (.inr rfl) (.inr rfl) (.inr rfl) (.inr rfl) (.inr rfl) (.inr rfl) (.inr rfl) (.inr rfl) (.inr rfl) (.inr rfl) (.inr rfl) (.inr rfl) (.inr rfl) (.inr rfl) (.inr rfl) (.inr rfl) (.inr rfl) (.inr rfl) rfl
    assumption
  clear_value x2
  have hx4 : Frame L org x4 := by
    unfold x4
    refine Frame.upd ?_ (.inr rfl) (.inr rfl) (.inr rfl) (.inl (hL (by decide))) (.inr rfl) (.inr rfl) (.inr rfl) (.inr rfl) (.inr rfl) (.inr rfl) (.inr rfl) (.inr rfl) (.inr rfl) (.inr rfl) (.inr rfl) (.inr rfl) (.inr rfl) (.inr rfl) (.inr rfl) (.inr rfl) (.inr rfl) (.inr rfl) (.inr rfl) (.inr rfl) (.inr rfl) (.inr rfl) rfl
    assumption
  clear_value x4
  split
  · assumption
  · refine Frame.ite ?_ ?_
    · refine raise_fr (partsIn_sub (by simp only [EvReg.kind]; decide) hL) ?_
      refine log_fr (partsIn_sub (by decide) hL) ?_
      refine Frame.upd ?_ (.inr rfl) (.inr rfl) (.inr rfl) (.inl (hL (by decide))) (.inr rfl) (.inr rfl) (.inr rfl) (.inr rfl) (.inr rfl) (.inr rfl) (.inr rfl) (.inr rfl) (.inr rfl) (.inr rfl) (.inr rfl) (.inr rfl) (.inr rfl) (.inr rfl) (.inr rfl) (.inr rfl) (.inr rfl) (.inr rfl) (.inr rfl) (.inr rfl) (.inr rfl) (.inr rfl) rfl
      assumption
    · assumption

theorem hostTimeout_fr {L : List Part} {org : Mach} {m} (hL : [.g, .msix, .log, .job, .ev .glb, .ev .job, .ev .mgt, .outs] ⊆ L) (h_m : Frame L org m) :
    Frame L org (hostTimeout m) := by
  delta hostTimeout
  refine Frame.ite ?_ ?_
  · assumption
  · refine hostAbsentBegin_fr (partsIn_sub (by decide) hL) ?_
    refine Frame.upd ?_ (.inr rfl) (.inr rfl) (.inr rfl) (.inl (hL (by decide))) (.inr rfl) (.inr rfl) (.inr rfl) (.inr rfl) (.inr rfl) (.inr rfl) (.inr rfl) (.inr rfl) (.inr rfl) (.inr rfl) (.inr rfl) (.inr rfl) (.inr rfl) (.inr rfl) (.inr rfl) (.inr rfl) (.inr rfl) (.inr rfl) (.inr rfl) (.inr rfl) (.inr rfl) (.inr rfl) rfl
    assumption

theorem uploadLost_fr {L : List Part} {org : Mach} {x m} (hL : [.msix, .log, .ev .mgt, .outs] ⊆ L) (h_m : Frame L org m) :
    Frame L org (uploadLost x m) := by
  delta uploadLost
  extract_lets x1
  refine whenM_fr (fun _ _ => ?_) ?_
  · refine log_fr (partsIn_sub (by decide) hL) ?_
    assumption
  · assumption

theorem dmaLinkLost_fr {L : List Part} {org : Mach} {lost n m} (hL : [.g, .msix, .clk, .boot, .bytes, .mem, .mgt, .log, .imp, .beams, .mpl, .cells, .sig, .heads, .stg, .ilk, .ev .glb, .ev .dma, .ev .boot, .ev .imp, .ev .cellArr, .ev .stg, .ev .mem, .ev .hlt, .ev .mgt, .outs, .free] ⊆ L) (h_m : Frame L org m) :
    Frame L org (dmaLinkLost lost n m) := by
  delta dmaLinkLost
  extract_lets x1
  refine Frame.ite ?_ ?_
  · assumption
  · split
    · extract_lets x2 x3
      have hx3 : Frame L org x3 := by
        unfold x3
        refine dmaServe_fr (partsIn_sub (by decide) hL) ?_
        assumption
      clear_value x3
      refine dmaClose_fr (partsIn_sub (by decide) hL) ?_
      assumption
    · split
      · rename_i heq
        refine Frame.let2 (l := L) (b := org) heq ?_ (fun _ => ?_)
        · refine drawWord_fr (partsIn_sub (by decide) hL) ?_
          assumption
        refine dmaClose_fr (partsIn_sub (by decide) hL) ?_
        assumption

theorem linkLoss_fr {L : List Part} {org : Mach} {lost m} (hL : [.g, .msix, .clk, .boot, .bytes, .mem, .mgt, .log, .job, .imp, .beams, .mpl, .cells, .sig, .heads, .stg, .ilk, .ev .glb, .ev .dma, .ev .boot, .ev .job, .ev .imp, .ev .cellArr, .ev .stg, .ev .mem, .ev .hlt, .ev .mgt, .outs, .free] ⊆ L) (h_m : Frame L org m) :
    Frame L org (linkLoss lost m) := by
  delta linkLoss
  refine Frame.ite ?_ ?_
  · assumption
  · extract_lets x1 x2 x3 x4
    have hx3 : Frame L org x3 := by
      unfold x3
      refine Frame.upd ?_ (.inr rfl) (.inr rfl) (.inr rfl) (.inl (hL (by decide))) (.inl (hL (by decide))) (.inr rfl) (.inr rfl) (.inr rfl) (.inr rfl) (.inr rfl) (.inr rfl) (.inr rfl) (.inr rfl) (.inr rfl) (.inr rfl) (.inr rfl) (.inr rfl) (.inr rfl) (.inr rfl) (.inr rfl) (.inr rfl) (.inr rfl) (.inr rfl) (.inr rfl) (.inr rfl) (.inr rfl) rfl
      assumption
    clear_value x3
    have hx4 : Frame L org x4 := by
      unfold x4
      refine hostAbsentBegin_fr (partsIn_sub (by decide) hL) ?_
      refine eachM_fr (fun _ _ _ => ?_) ?_
      · refine dmaLinkLost_fr (partsIn_sub (by decide) hL) ?_
        assumption
      · refine raise_fr (partsIn_sub (by simp only [EvReg.kind]; decide) hL) ?_
        assumption
    clear_value x4
    refine eachM_fr (fun _ _ _ => ?_) ?_
    · refine uploadLost_fr (partsIn_sub (by decide) hL) ?_
      assumption
    · assumption

theorem linkUp_fr {L : List Part} {org : Mach} {cfg m} (hL : [.g] ⊆ L) (h_m : Frame L org m) :
    Frame L org (linkUp cfg m) := by
  delta linkUp
  refine Frame.ite ?_ ?_
  · refine Frame.upd ?_ (.inr rfl) (.inr rfl) (.inr rfl) (.inl (hL (by decide))) (.inr rfl) (.inr rfl) (.inr rfl) (.inr rfl) (.inr rfl) (.inr rfl) (.inr rfl) (.inr rfl) (.inr rfl) (.inr rfl) (.inr rfl) (.inr rfl) (.inr rfl) (.inr rfl) (.inr rfl) (.inr rfl) (.inr rfl) (.inr rfl) (.inr rfl) (.inr rfl) (.inr rfl) (.inr rfl) rfl
    assumption
  · assumption

theorem d3hotEntry_fr {L : List Part} {org : Mach} {m} (hL : [.g, .msix, .log, .job, .ev .glb, .ev .job, .ev .mgt, .outs] ⊆ L) (h_m : Frame L org m) :
    Frame L org (d3hotEntry m) := by
  delta d3hotEntry
  refine Frame.ite ?_ ?_
  · assumption
  · refine hostAbsentBegin_fr (partsIn_sub (by decide) hL) ?_
    refine raise_fr (partsIn_sub (by simp only [EvReg.kind]; decide) hL) ?_
    refine Frame.upd ?_ (.inr rfl) (.inr rfl) (.inr rfl) (.inl (hL (by decide))) (.inr rfl) (.inr rfl) (.inr rfl) (.inr rfl) (.inr rfl) (.inr rfl) (.inr rfl) (.inr rfl) (.inr rfl) (.inr rfl) (.inr rfl) (.inr rfl) (.inr rfl) (.inr rfl) (.inr rfl) (.inr rfl) (.inr rfl) (.inr rfl) (.inr rfl) (.inr rfl) (.inr rfl) (.inr rfl) rfl
    assumption

theorem msixFlush_fr {L : List Part} {org : Mach} {v m} (hL : [.msix, .outs] ⊆ L) (h_m : Frame L org m) :
    Frame L org (msixFlush v m) := by
  delta msixFlush
  extract_lets x1
  refine Frame.ite ?_ ?_
  · refine msixSend_fr (partsIn_sub (by decide) hL) ?_
    assumption
  · assumption

theorem d0Return_fr {L : List Part} {org : Mach} {m} (hL : [.g, .msix, .outs] ⊆ L) (h_m : Frame L org m) :
    Frame L org (d0Return m) := by
  delta d0Return
  refine Frame.ite ?_ ?_
  · assumption
  · refine eachM_fr (fun _ _ _ => ?_) ?_
    · refine msixFlush_fr (partsIn_sub (by decide) hL) ?_
      assumption
    · refine Frame.upd ?_ (.inr rfl) (.inr rfl) (.inr rfl) (.inl (hL (by decide))) (.inr rfl) (.inr rfl) (.inr rfl) (.inr rfl) (.inr rfl) (.inr rfl) (.inr rfl) (.inr rfl) (.inr rfl) (.inr rfl) (.inr rfl) (.inr rfl) (.inr rfl) (.inr rfl) (.inr rfl) (.inr rfl) (.inr rfl) (.inr rfl) (.inr rfl) (.inr rfl) (.inr rfl) (.inr rfl) rfl
      assumption

theorem msixIntervalEnd_fr {L : List Part} {org : Mach} {v m} (hL : [.msix, .outs] ⊆ L) (h_m : Frame L org m) :
    Frame L org (msixIntervalEnd v m) := by
  delta msixIntervalEnd
  refine msixFlush_fr (partsIn_sub (by decide) hL) ?_
  refine Frame.upd ?_ (.inr rfl) (.inr rfl) (.inr rfl) (.inr rfl) (.inl (hL (by decide))) (.inr rfl) (.inr rfl) (.inr rfl) (.inr rfl) (.inr rfl) (.inr rfl) (.inr rfl) (.inr rfl) (.inr rfl) (.inr rfl) (.inr rfl) (.inr rfl) (.inr rfl) (.inr rfl) (.inr rfl) (.inr rfl) (.inr rfl) (.inr rfl) (.inr rfl) (.inr rfl) (.inr rfl) rfl
  assumption

theorem msixMask_fr {L : List Part} {org : Mach} {v b m} (hL : [.msix, .outs] ⊆ L) (h_m : Frame L org m) :
    Frame L org (msixMask v b m) := by
  delta msixMask
  refine msixFlush_fr (partsIn_sub (by decide) hL) ?_
  refine Frame.upd ?_ (.inr rfl) (.inr rfl) (.inr rfl) (.inr rfl) (.inl (hL (by decide))) (.inr rfl) (.inr rfl) (.inr rfl) (.inr rfl) (.inr rfl) (.inr rfl) (.inr rfl) (.inr rfl) (.inr rfl) (.inr rfl) (.inr rfl) (.inr rfl) (.inr rfl) (.inr rfl) (.inr rfl) (.inr rfl) (.inr rfl) (.inr rfl) (.inr rfl) (.inr rfl) (.inr rfl) rfl
  assumption

theorem execGlbHeartbeat_fr {L : List Part} {org : Mach} {p v s} (hL : [.g, .msix, .log, .ev .glb, .ev .mgt, .outs] ⊆ L) (h_s : Frame L org s.m) :
    OutFrame L org (execGlbHeartbeat p v s) := by
  delta execGlbHeartbeat
  refine act_fr (fun _ _ => ?_) h_s
  refine writeGate_fr (partsIn_sub (by decide) hL) (fun _ _ => ?_) ?_
  · refine heartbeat_fr (partsIn_sub (by decide) hL) ?_
    assumption
  · assumption

theorem execHostTimeoutExpire_fr {L : List Part} {org : Mach} {s} (hL : [.g, .msix, .log, .job, .ev .glb, .ev .job, .ev .mgt, .outs] ⊆ L) (h_s : Frame L org s.m) :
    OutFrame L org (execHostTimeoutExpire s) := by
  delta execHostTimeoutExpire
  refine act_fr (fun _ _ => ?_) h_s
  refine hostTimeout_fr (partsIn_sub (by decide) hL) ?_
  assumption

theorem execPcieLinkLoss_fr {L : List Part} {org : Mach} {lost s} (hL : [.g, .msix, .clk, .boot, .bytes, .mem, .mgt, .log, .job, .imp, .beams, .mpl, .cells, .sig, .heads, .stg, .ilk, .ev .glb, .ev .dma, .ev .boot, .ev .job, .ev .imp, .ev .cellArr, .ev .stg, .ev .mem, .ev .hlt, .ev .mgt, .outs, .free] ⊆ L) (h_s : Frame L org s.m) :
    OutFrame L org (execPcieLinkLoss s lost) := by
  delta execPcieLinkLoss
  refine act_fr (fun _ _ => ?_) h_s
  refine linkLoss_fr (partsIn_sub (by decide) hL) ?_
  assumption

theorem execPcieHotReset_fr {L : List Part} {org : Mach} {lost s} (hL : [.g, .msix, .clk, .boot, .bytes, .mem, .mgt, .log, .job, .imp, .beams, .mpl, .cells, .sig, .heads, .stg, .ilk, .ev .glb, .ev .dma, .ev .boot, .ev .job, .ev .imp, .ev .cellArr, .ev .stg, .ev .mem, .ev .hlt, .ev .mgt, .outs, .free] ⊆ L) (h_s : Frame L org s.m) :
    OutFrame L org (execPcieHotReset s lost) := by
  delta execPcieHotReset
  refine act_fr (fun _ _ => ?_) h_s
  refine linkLoss_fr (partsIn_sub (by decide) hL) ?_
  assumption

theorem execPerstNAssert_fr {L : List Part} {org : Mach} {lost s} (hL : [.g, .msix, .clk, .boot, .bytes, .mem, .mgt, .log, .job, .imp, .beams, .mpl, .cells, .sig, .heads, .stg, .ilk, .ev .glb, .ev .dma, .ev .boot, .ev .job, .ev .imp, .ev .cellArr, .ev .stg, .ev .mem, .ev .hlt, .ev .mgt, .outs, .free] ⊆ L) (h_s : Frame L org s.m) :
    OutFrame L org (execPerstNAssert s lost) := by
  delta execPerstNAssert
  refine act_fr (fun _ _ => ?_) h_s
  refine linkLoss_fr (partsIn_sub (by decide) hL) ?_
  assumption

theorem execPcieLinkUp_fr {L : List Part} {org : Mach} {cfg s} (hL : [.g] ⊆ L) (h_s : Frame L org s.m) :
    OutFrame L org (execPcieLinkUp cfg s) := by
  delta execPcieLinkUp
  refine act_fr (fun _ _ => ?_) h_s
  refine linkUp_fr (partsIn_sub (by decide) hL) ?_
  assumption

theorem execD3hotEntry_fr {L : List Part} {org : Mach} {s} (hL : [.g, .msix, .log, .job, .ev .glb, .ev .job, .ev .mgt, .outs] ⊆ L) (h_s : Frame L org s.m) :
    OutFrame L org (execD3hotEntry s) := by
  delta execD3hotEntry
  refine act_fr (fun _ _ => ?_) h_s
  refine d3hotEntry_fr (partsIn_sub (by decide) hL) ?_
  assumption

theorem execD0Return_fr {L : List Part} {org : Mach} {s} (hL : [.g, .msix, .outs] ⊆ L) (h_s : Frame L org s.m) :
    OutFrame L org (execD0Return s) := by
  delta execD0Return
  refine act_fr (fun _ _ => ?_) h_s
  refine d0Return_fr (partsIn_sub (by decide) hL) ?_
  assumption

theorem execMsixIntervalEnd_fr {L : List Part} {org : Mach} {v s} (hL : [.msix, .outs] ⊆ L) (h_s : Frame L org s.m) :
    OutFrame L org (execMsixIntervalEnd v s) := by
  delta execMsixIntervalEnd
  refine act_fr (fun _ _ => ?_) h_s
  refine msixIntervalEnd_fr (partsIn_sub (by decide) hL) ?_
  assumption

theorem execMsixUnmask_fr {L : List Part} {org : Mach} {v s} (hL : [.g, .msix, .log, .ev .glb, .ev .mgt, .outs] ⊆ L) (h_s : Frame L org s.m) :
    OutFrame L org (execMsixUnmask v s) := by
  delta execMsixUnmask
  refine act_fr (fun _ _ => ?_) h_s
  refine writeGate_fr (partsIn_sub (by decide) hL) (fun _ _ => ?_) ?_
  · refine msixMask_fr (partsIn_sub (by decide) hL) ?_
    assumption
  · assumption

theorem winWrite_fr {L : List Part} {org : Mach} {p off lo hi m} (hL : [.g, .msix, .log, .ev .glb, .ev .mgt, .outs] ⊆ L) (h_m : Frame L org m) :
    Frame L org (winWrite p off lo hi m) := by
  delta winWrite
  refine Frame.ite ?_ ?_
  · refine Frame.upd ?_ (.inr rfl) (.inr rfl) (.inr rfl) (.inl (hL (by decide))) (.inr rfl) (.inr rfl) (.inr rfl) (.inr rfl) (.inr rfl) (.inr rfl) (.inr rfl) (.inr rfl) (.inr rfl) (.inr rfl) (.inr rfl) (.inr rfl) (.inr rfl) (.inr rfl) (.inr rfl) (.inr rfl) (.inr rfl) (.inr rfl) (.inr rfl) (.inr rfl) (.inr rfl) (.inr rfl) rfl
    assumption
  · refine accErr_fr (partsIn_sub (by decide) hL) ?_
    assumption

theorem bar2Read_fr {L : List Part} {org : Mach} {off n e m} (hL : [.g, .msix, .clk, .boot, .mem, .mgt, .log, .imp, .beams, .mpl, .cells, .sig, .heads, .stg, .ilk, .ev .glb, .ev .boot, .ev .imp, .ev .cellArr, .ev .stg, .ev .mem, .ev .hlt, .ev .mgt, .outs, .free] ⊆ L) (h_m : Frame L org m) :
    Frame L org (bar2Read off n e m) := by
  delta bar2Read
  refine Frame.ite ?_ ?_
  · assumption
  · extract_lets x1 x2
    have hx2 : Frame L org x2 := by
      unfold x2
      refine memRead_fr (partsIn_sub (by decide) hL) ?_
      assumption
    clear_value x2
    refine Frame.ite ?_ ?_
    · refine emit_fr (partsIn_sub (by decide) hL) ?_
      assumption
    · refine emit_fr (partsIn_sub (by decide) hL) ?_
      assumption

theorem bar2Write_fr {L : List Part} {org : Mach} {off bs m} (hL : [.msix, .bytes, .mem, .ev .glb, .outs] ⊆ L) (h_m : Frame L org m) :
    Frame L org (bar2Write off bs m) := by
  delta bar2Write
  refine Frame.ite ?_ ?_
  · assumption
  · extract_lets x1 x2
    refine Frame.ite ?_ ?_
    · refine memWrite_fr (partsIn_sub (by decide) hL) ?_
      assumption
    · refine raise_fr (partsIn_sub (by simp only [EvReg.kind]; decide) hL) ?_
      assumption

theorem execBar2Read_fr {L : List Part} {org : Mach} {off len ecc s} (hL : [.g, .msix, .clk, .boot, .mem, .mgt, .log, .imp, .beams, .mpl, .cells, .sig, .heads, .stg, .ilk, .ev .glb, .ev .boot, .ev .imp, .ev .cellArr, .ev .stg, .ev .mem, .ev .hlt, .ev .mgt, .outs, .free] ⊆ L) (h_s : Frame L org s.m) :
    OutFrame L org (execBar2Read off len ecc s) := by
  delta execBar2Read
  refine act_fr (fun _ _ => ?_) h_s
  refine bar2Read_fr (partsIn_sub (by decide) hL) ?_
  assumption

theorem execBar2Write_fr {L : List Part} {org : Mach} {off bytes s} (hL : [.msix, .bytes, .mem, .ev .glb, .outs] ⊆ L) (h_s : Frame L org s.m) :
    OutFrame L org (execBar2Write off bytes s) := by
  delta execBar2Write
  refine act_fr (fun _ _ => ?_) h_s
  refine bar2Write_fr (partsIn_sub (by decide) hL) ?_
  assumption

theorem execWindowBaseWrite_fr {L : List Part} {org : Mach} {p lo hi s} (hL : [.g, .msix, .log, .ev .glb, .ev .mgt, .outs] ⊆ L) (h_s : Frame L org s.m) :
    OutFrame L org (execWindowBaseWrite p lo hi s) := by
  delta execWindowBaseWrite
  refine act_fr (fun _ _ => ?_) h_s
  refine pairGate_fr (partsIn_sub (by decide) hL) (fun _ _ => ?_) ?_
  · refine winWrite_fr (partsIn_sub (by decide) hL) ?_
    assumption
  · assumption

theorem execDmaTailWrite_fr {L : List Part} {org : Mach} {p n v s} (hL : [.g, .msix, .log, .ev .glb, .ev .mgt, .outs] ⊆ L) (h_s : Frame L org s.m) :
    OutFrame L org (execDmaTailWrite p n v s) := by
  delta execDmaTailWrite
  refine act_fr (fun _ _ => ?_) h_s
  refine writeGate_fr (partsIn_sub (by decide) hL) (fun _ _ => ?_) ?_
  · refine dmaTail_fr (partsIn_sub (by decide) hL) ?_
    assumption
  · assumption

theorem execDmaEnable_fr {L : List Part} {org : Mach} {p n s} (hL : [.g, .msix, .log, .ev .glb, .ev .dma, .ev .mgt, .outs] ⊆ L) (h_s : Frame L org s.m) :
    OutFrame L org (execDmaEnable p n s) := by
  delta execDmaEnable
  refine act_fr (fun _ _ => ?_) h_s
  refine writeGate_fr (partsIn_sub (by decide) hL) (fun _ _ => ?_) ?_
  · refine dmaCtrl_fr (partsIn_sub (by decide) hL) ?_
    assumption
  · assumption

theorem execDmaDisable_fr {L : List Part} {org : Mach} {p n s} (hL : [.g, .msix, .log, .ev .glb, .ev .dma, .ev .mgt, .outs] ⊆ L) (h_s : Frame L org s.m) :
    OutFrame L org (execDmaDisable p n s) := by
  delta execDmaDisable
  refine act_fr (fun _ _ => ?_) h_s
  refine writeGate_fr (partsIn_sub (by decide) hL) (fun _ _ => ?_) ?_
  · refine dmaCtrl_fr (partsIn_sub (by decide) hL) ?_
    assumption
  · assumption

theorem execDmaSkip_fr {L : List Part} {org : Mach} {p n s} (hL : [.g, .msix, .log, .ev .glb, .ev .dma, .ev .mgt, .outs] ⊆ L) (h_s : Frame L org s.m) :
    OutFrame L org (execDmaSkip p n s) := by
  delta execDmaSkip
  refine act_fr (fun _ _ => ?_) h_s
  refine writeGate_fr (partsIn_sub (by decide) hL) (fun _ _ => ?_) ?_
  · refine dmaCtrl_fr (partsIn_sub (by decide) hL) ?_
    assumption
  · assumption

theorem execDmaRetry_fr {L : List Part} {org : Mach} {p n s} (hL : [.g, .msix, .log, .ev .glb, .ev .dma, .ev .mgt, .outs] ⊆ L) (h_s : Frame L org s.m) :
    OutFrame L org (execDmaRetry p n s) := by
  delta execDmaRetry
  refine act_fr (fun _ _ => ?_) h_s
  refine writeGate_fr (partsIn_sub (by decide) hL) (fun _ _ => ?_) ?_
  · refine dmaCtrl_fr (partsIn_sub (by decide) hL) ?_
    assumption
  · assumption

theorem execDmaRingWrite_fr {L : List Part} {org : Mach} {p n size lo hi s} (hL : [.g, .msix, .log, .ev .glb, .ev .mgt, .outs] ⊆ L) (h_s : Frame L org s.m) :
    OutFrame L org (execDmaRingWrite p n size lo hi s) := by
  delta execDmaRingWrite
  refine act_fr (fun _ _ => ?_) h_s
  split
  · refine writeGate_fr (partsIn_sub (by decide) hL) (fun _ _ => ?_) ?_
    · refine dmaSize_fr (partsIn_sub (by decide) hL) ?_
      assumption
    · assumption
  · refine pairGate_fr (partsIn_sub (by decide) hL) (fun _ _ => ?_) ?_
    · refine dmaRing_fr (partsIn_sub (by decide) hL) ?_
      assumption
    · assumption

theorem execDmaDescDone_fr {L : List Part} {org : Mach} {n host layer len ctl data hostErr stop ecc others s} (hL : [.g, .msix, .clk, .boot, .bytes, .mem, .mgt, .log, .imp, .beams, .mpl, .cells, .sig, .heads, .stg, .ilk, .ev .glb, .ev .dma, .ev .boot, .ev .imp, .ev .cellArr, .ev .stg, .ev .mem, .ev .hlt, .ev .mgt, .outs, .free] ⊆ L) (h_s : Frame L org s.m) :
    OutFrame L org (execDmaDescDone n host layer len ctl data hostErr stop ecc s others) := by
  delta execDmaDescDone
  refine act_fr (fun _ _ => ?_) h_s
  refine dmaDescDone_fr (partsIn_sub (by decide) hL) ?_
  assumption

end Sys2Proof.Machine
end

