-- ==== Sys2Proof/Laws/Frame/HeatBase.lean ====
section
/-!
SUPPORT. The parts of the device that the operations of Machine/HeatBase.lean can touch: one lemma per operation.
-/

namespace Sys2Proof.Machine

theorem memPoke_fr {L : List Part} {org : Mach} {a bs m} (hL : [.bytes] ⊆ L) (h_m : Frame L org m) : Frame L org (memPoke a bs m) :=
  h_m.memb (hL (by decide))

theorem hmSet_fr {L : List Part} {org : Mach} {current n v m} (hL : [.bytes] ⊆ L) (h_m : Frame L org m) :
    Frame L org (hmSet current n v m) := by
  delta hmSet
  refine memPoke_fr (partsIn_sub (by decide) hL) ?_
  assumption

theorem hmZero_fr {L : List Part} {org : Mach} {current m} (hL : [.bytes] ⊆ L) (h_m : Frame L org m) : Frame L org (hmZero current m) :=
  h_m.memb (hL (by decide))

theorem depositEnd_fr {L : List Part} {org : Mach} {b m} (hL : [.bytes, .hmap] ⊆ L) (h_m : Frame L org m) :
    Frame L org (depositEnd b m) := by
  delta depositEnd
  extract_lets x1 x2
  have hx2 : Frame L org x2 := by
    unfold x2
    refine onHmap_fr (partsIn_sub (by decide) hL) ?_
    assumption
  clear_value x2
  split
  · assumption
  · refine hmSet_fr (partsIn_sub (by decide) hL) ?_
    assumption

theorem deposit_fr {L : List Part} {org : Mach} {b x y code mul m} (hL : [.bytes, .hmap] ⊆ L) (h_m : Frame L org m) :
    Frame L org (deposit b x y code mul m) := by
  delta deposit
  extract_lets x1 x2 x3 x4
  have hx3 : Frame L org x3 := by
    unfold x3
    refine Frame.ite ?_ ?_
    · refine depositEnd_fr (partsIn_sub (by decide) hL) ?_
      assumption
    · assumption
  clear_value x3
  refine Frame.ite ?_ ?_
  · refine onHmap_fr (partsIn_sub (by decide) hL) ?_
    assumption
  · refine onHmap_fr (partsIn_sub (by decide) hL) ?_
    assumption

theorem hmSweep_fr {L : List Part} {org : Mach} {m} (hL : [.bytes] ⊆ L) (h_m : Frame L org m) :
    Frame L org (hmSweep m) := by
  delta hmSweep
  extract_lets x1
  refine eachM_fr (fun _ _ _ => ?_) ?_
  · extract_lets x2
    refine hmSet_fr (partsIn_sub (by decide) hL) ?_
    assumption
  · assumption

theorem hmBoundary_fr {L : List Part} {org : Mach} {m} (hL : [.bytes, .hmap] ⊆ L) (h_m : Frame L org m) :
    Frame L org (hmBoundary m) := by
  delta hmBoundary
  extract_lets x1 x2
  have hx2 : Frame L org x2 := by
    unfold x2
    refine hmZero_fr (partsIn_sub (by decide) hL) ?_
    refine onHmap_fr (partsIn_sub (by decide) hL) ?_
    assumption
  clear_value x2
  refine eachM_fr (fun _ _ _ => ?_) ?_
  · refine hmSet_fr (partsIn_sub (by decide) hL) ?_
    assumption
  · assumption

theorem hmStart_fr {L : List Part} {org : Mach} {m} (hL : [.bytes, .hmap] ⊆ L) (h_m : Frame L org m) :
    Frame L org (hmStart m) := by
  delta hmStart
  extract_lets x1
  have hx1 : Frame L org x1 := by
    unfold x1
    refine hmZero_fr (partsIn_sub (by decide) hL) ?_
    refine hmZero_fr (partsIn_sub (by decide) hL) ?_
    refine onHmap_fr (partsIn_sub (by decide) hL) ?_
    assumption
  clear_value x1
  refine memPoke_fr (partsIn_sub (by decide) hL) ?_
  assumption

theorem ringWrite_fr {L : List Part} {org : Mach} {b type flags time body m0} (hL : [.g, .msix, .clk, .boot, .bytes, .mem, .log, .beams, .mpl, .hmap, .cells, .sig, .ev .imp, .ev .hmap, .ev .mgt, .outs] ⊆ L) (h_m0 : Frame L org m0) :
    Frame L org (ringWrite b type flags time body m0) := by
  delta ringWrite
  extract_lets x1 x2 x3 x4 x5 x6 x7 x8
  have hx1 : Frame L org x1 := by
    unfold x1
    refine takeRecord_fr (partsIn_sub (by decide) hL) ?_
    assumption
  clear_value x1
  have hx6 : Frame L org x6 := by
    unfold x6
    refine memWrite_fr (partsIn_sub (by decide) hL) ?_
    refine Frame.ite ?_ ?_
    · refine onMpl_fr (partsIn_sub (by decide) hL) ?_
      assumption
    · assumption
  clear_value x6
  have hx7 : Frame L org x7 := by
    unfold x7
    refine onHmap_fr (partsIn_sub (by decide) hL) ?_
    assumption
  clear_value x7
  have hx8 : Frame L org x8 := by
    unfold x8
    refine whenM_fr (fun _ _ => ?_) ?_
    · refine raise_fr (partsIn_sub (by simp only [EvReg.kind]; decide) hL) ?_
      assumption
    · assumption
  clear_value x8
  refine Frame.ite ?_ ?_
  · assumption
  · refine Frame.ite ?_ ?_
    · refine onHmap_fr (partsIn_sub (by decide) hL) ?_
      assumption
    · refine whenM_fr (fun _ _ => ?_) ?_
      · refine raise_fr (partsIn_sub (by simp only [EvReg.kind]; decide) hL) ?_
        assumption
      · assumption

theorem ringPush_fr {L : List Part} {org : Mach} {b type flags time body m} (hL : [.g, .msix, .clk, .boot, .bytes, .mem, .log, .beams, .mpl, .hmap, .cells, .sig, .ev .imp, .ev .hmap, .ev .mgt, .outs] ⊆ L) (h_m : Frame L org m) :
    Frame L org (ringPush b type flags time body m) := by
  delta ringPush
  refine Frame.ite ?_ ?_
  · assumption
  · refine ringWrite_fr (partsIn_sub (by decide) hL) ?_
    assumption

theorem mplRaise_fr {L : List Part} {org : Mach} {b bit m} (hL : [.g, .msix, .clk, .boot, .bytes, .mem, .log, .beams, .mpl, .hmap, .cells, .sig, .ev .imp, .ev .mpl, .ev .hmap, .ev .mgt, .outs] ⊆ L) (h_m : Frame L org m) :
    Frame L org (mplRaise b bit m) := by
  delta mplRaise
  refine ringPush_fr (partsIn_sub (by decide) hL) ?_
  refine raise_fr (partsIn_sub (by simp only [EvReg.kind]; decide) hL) ?_
  assumption

theorem ringRelease_fr {L : List Part} {org : Mach} {p v m} (hL : [.g, .msix, .log, .hmap, .ev .glb, .ev .mgt, .outs] ⊆ L) (h_m : Frame L org m) :
    Frame L org (ringRelease p v m) := by
  delta ringRelease
  extract_lets x1 x2 x3
  refine Frame.ite ?_ ?_
  · refine onHmap_fr (partsIn_sub (by decide) hL) ?_
    assumption
  · refine Frame.ite ?_ ?_
    · refine onHmap_fr (partsIn_sub (by decide) hL) ?_
      assumption
    · refine accErr_fr (partsIn_sub (by decide) hL) ?_
      assumption

theorem execHmapRecRdWrite_fr {L : List Part} {org : Mach} {p v s} (hL : [.g, .msix, .log, .hmap, .ev .glb, .ev .mgt, .outs] ⊆ L) (h_s : Frame L org s.m) :
    OutFrame L org (execHmapRecRdWrite p v s) := by
  delta execHmapRecRdWrite
  refine act_fr (fun _ _ => ?_) h_s
  refine writeGate_fr (partsIn_sub (by decide) hL) (fun _ _ => ?_) ?_
  · refine ringRelease_fr (partsIn_sub (by decide) hL) ?_
    assumption
  · assumption

end Sys2Proof.Machine
end

