-- ==== Sys2Proof/Laws/Frame/JobFlow.lean ====
section
/-!
SUPPORT. The parts of the device that the operations of Machine/JobFlow.lean can touch: one lemma per operation.
-/

namespace Sys2Proof.Machine

theorem layerBoundary_fr {L : List Part} {org : Mach} {maps m0} (hL : [.g, .msix, .clk, .boot, .bytes, .mem, .log, .imp, .beams, .mpl, .hmap, .cells, .sig, .heads, .ev .boot, .ev .imp, .ev .mgt, .outs] ⊆ L) (h_m0 : Frame L org m0) :
    Frame L org (layerBoundary maps m0) := by
  delta layerBoundary
  extract_lets x1 x2 x3
  have hx2 : Frame L org x2 := by
    unfold x2
    refine reloadSwitch_fr (partsIn_sub (by decide) hL) ?_
    refine takeLayerRecords_fr (partsIn_sub (by decide) hL) ?_
    refine Frame.upd ?_ (.inr rfl) (.inr rfl) (.inr rfl) (.inr rfl) (.inr rfl) (.inr rfl) (.inr rfl) (.inl (hL (by decide))) (.inr rfl) (.inr rfl) (.inr rfl) (.inr rfl) (.inr rfl) (.inr rfl) (.inr rfl) (.inr rfl) (.inr rfl) (.inr rfl) (.inr rfl) (.inr rfl) (.inr rfl) (.inr rfl) (.inr rfl) (.inr rfl) (.inr rfl) (.inr rfl) rfl
    assumption
  clear_value x2
  have hx3 : Frame L org x3 := by
    unfold x3
    refine whenM_fr (fun _ _ => ?_) ?_
    · refine hmBoundary_fr (partsIn_sub (by decide) hL) ?_
      assumption
    · assumption
  clear_value x3
  refine eachM_fr (fun _ _ _ => ?_) ?_
  · refine configSend_fr (partsIn_sub (by decide) hL) ?_
    refine onMpl_fr (partsIn_sub (by decide) hL) ?_
    refine onImp_fr (partsIn_sub (by decide) hL) ?_
    assumption
  · assumption

theorem activate_fr {L : List Part} {org : Mach} {i m} (hL : [.msix, .job, .sig, .ev .job, .outs] ⊆ L) (h_m : Frame L org m) :
    Frame L org (activate i m) := by
  delta activate
  extract_lets x1 x2
  have hx1 : Frame L org x1 := by
    unfold x1
    refine unqueue_fr (partsIn_sub (by decide) hL) ?_
    refine onSlot_fr (partsIn_sub (by decide) hL) ?_
    assumption
  clear_value x1
  have hx2 : Frame L org x2 := by
    unfold x2
    refine onJob_fr (partsIn_sub (by decide) hL) ?_
    assumption
  clear_value x2
  refine sigPub_fr (partsIn_sub (by decide) hL) ?_
  assumption

theorem impFresh_fr {L : List Part} {org : Mach} {m} (hL : [.imp] ⊆ L) (h_m : Frame L org m) :
    Frame L org (impFresh m) := by
  delta impFresh
  extract_lets x1 x2
  have hx2 : Frame L org x2 := by
    unfold x2
    refine onImpAll_fr (partsIn_sub (by decide) hL) ?_
    assumption
  clear_value x2
  refine eachM_fr (fun _ _ _ => ?_) ?_
  · refine onImp_fr (partsIn_sub (by decide) hL) ?_
    assumption
  · assumption

theorem loadSets_fr {L : List Part} {org : Mach} {m0} (hL : [.g, .msix, .clk, .boot, .mem, .mgt, .log, .imp, .beams, .mpl, .cells, .sig, .heads, .stg, .ilk, .ev .glb, .ev .boot, .ev .imp, .ev .cellArr, .ev .stg, .ev .mem, .ev .hlt, .ev .mgt, .outs, .free] ⊆ L) (h_m0 : Frame L org m0) :
    Frame L org (loadSets m0) := by
  delta loadSets
  split
  · assumption
  · extract_lets x1 x2 x3 x4
    have hx2 : Frame L org x2 := by
      unfold x2
      refine eachM_fr (fun _ _ _ => ?_) ?_
      · refine memRead_fr (partsIn_sub (by decide) hL) ?_
        assumption
      · assumption
    clear_value x2
    refine Frame.upd ?_ (.inr rfl) (.inr rfl) (.inr rfl) (.inr rfl) (.inr rfl) (.inr rfl) (.inr rfl) (.inr rfl) (.inr rfl) (.inr rfl) (.inr rfl) (.inr rfl) (.inr rfl) (.inr rfl) (.inr rfl) (.inl (hL (by decide))) (.inr rfl) (.inr rfl) (.inr rfl) (.inr rfl) (.inr rfl) (.inr rfl) (.inr rfl) (.inr rfl) (.inr rfl) (.inr rfl) rfl
    assumption

theorem entryScan_fr {L : List Part} {org : Mach} {b m} (hL : [.g, .msix, .clk, .boot, .bytes, .mem, .mgt, .log, .job, .imp, .beams, .mpl, .cells, .sig, .heads, .stg, .ilk, .ev .glb, .ev .boot, .ev .job, .ev .imp, .ev .cellArr, .ev .stg, .ev .mem, .ev .hlt, .ev .mgt, .outs, .free] ⊆ L) (h_m : Frame L org m) :
    Frame L org (entryScan b m) := by
  delta entryScan
  extract_lets x1 x2 x3 x4 x5
  have hx5 : Frame L org x5 := by
    unfold x5
    refine Frame.ite ?_ ?_
    · assumption
    · refine memRead_fr (partsIn_sub (by decide) hL) ?_
      assumption
  clear_value x5
  refine scanPools_fr (partsIn_sub (by decide) hL) ?_
  refine scanGalley_fr (partsIn_sub (by decide) hL) ?_
  assumption

theorem entryScans_fr {L : List Part} {org : Mach} {m} (hL : [.g, .msix, .clk, .boot, .bytes, .mem, .mgt, .log, .job, .imp, .beams, .mpl, .cells, .sig, .heads, .stg, .ilk, .ev .glb, .ev .boot, .ev .job, .ev .imp, .ev .cellArr, .ev .stg, .ev .mem, .ev .hlt, .ev .mgt, .outs, .free] ⊆ L) (h_m : Frame L org m) :
    Frame L org (entryScans m) := by
  delta entryScans
  refine eachM_fr (fun _ _ _ => ?_) ?_
  · refine Frame.ite ?_ ?_
    · assumption
    · refine entryScan_fr (partsIn_sub (by decide) hL) ?_
      refine onImpAll_fr (partsIn_sub (by decide) hL) ?_
      assumption
  · assumption

theorem impHalt_fr {L : List Part} {org : Mach} {m} (hL : [.imp] ⊆ L) (h_m : Frame L org m) :
    Frame L org (impHalt m) := by
  delta impHalt
  refine eachM_fr (fun _ _ _ => ?_) ?_
  · refine onImp_fr (partsIn_sub (by decide) hL) ?_
    assumption
  · refine onImpAll_fr (partsIn_sub (by decide) hL) ?_
    assumption

theorem layerEndEntry_fr {L : List Part} {org : Mach} {aborted m} (hL : [.msix, .bytes, .mem, .log, .job, .imp, .beams, .sig, .ev .job, .ev .imp, .ev .mgt, .outs] ⊆ L) (h_m : Frame L org m) :
    Frame L org (layerEndEntry aborted m) := by
  delta layerEndEntry
  refine Frame.ite ?_ ?_
  · refine impPut_fr (partsIn_sub (by decide) hL) ?_
    refine onImpAll_fr (partsIn_sub (by decide) hL) ?_
    assumption
  · assumption

theorem imageMissed_fr {L : List Part} {org : Mach} {why m} (hL : [.msix, .log, .ev .job, .ev .mgt, .outs] ⊆ L) (h_m : Frame L org m) :
    Frame L org (imageMissed why m) := by
  delta imageMissed
  extract_lets x1
  refine raise_fr (partsIn_sub (by simp only [EvReg.kind]; decide) hL) ?_
  refine log_fr (partsIn_sub (by decide) hL) ?_
  assumption

theorem sceneRestore_fr {L : List Part} {org : Mach} {m} (hL : [.g, .msix, .clk, .boot, .mem, .log, .job, .beams, .cells, .sig, .ilk, .ev .imp, .ev .mgt, .outs] ⊆ L) (h_m : Frame L org m) :
    Frame L org (sceneRestore m) := by
  delta sceneRestore
  split
  · refine onJob_fr (partsIn_sub (by decide) hL) ?_
    refine Frame.ite ?_ ?_
    · assumption
    · refine applyScene_fr (partsIn_sub (by decide) hL) ?_
      assumption
  · assumption

theorem imageBegin_fr {L : List Part} {org : Mach} {h m} (hL : [.g, .msix, .clk, .boot, .mem, .log, .job, .beams, .cells, .sig, .heads, .ilk, .ev .imp, .ev .mgt, .outs] ⊆ L) (h_m : Frame L org m) :
    Frame L org (imageBegin h m) := by
  delta imageBegin
  extract_lets x1 x2 x3 x4 x5 x6
  have hx3 : Frame L org x3 := by
    unfold x3
    refine Frame.ite ?_ ?_
    · assumption
    · refine applyScene_fr (partsIn_sub (by decide) hL) ?_
      assumption
  clear_value x3
  have hx5 : Frame L org x5 := by
    unfold x5
    refine onJob_fr (partsIn_sub (by decide) hL) ?_
    refine onHead_fr (partsIn_sub (by decide) hL) ?_
    assumption
  clear_value x5
  have hx6 : Frame L org x6 := by
    unfold x6
    refine whenM_fr (fun _ _ => ?_) ?_
    · refine bucketCredit_fr (partsIn_sub (by decide) hL) ?_
      assumption
    · assumption
  clear_value x6
  refine sendBoth_fr (partsIn_sub (by decide) hL) ?_
  refine onJob_fr (partsIn_sub (by decide) hL) ?_
  assumption

theorem stepBegin_fr {L : List Part} {org : Mach} {k m} (hL : [.g, .msix, .clk, .boot, .mem, .log, .job, .beams, .cells, .sig, .heads, .stg, .ilk, .ev .imp, .ev .mgt, .outs] ⊆ L) (h_m : Frame L org m) :
    Frame L org (stepBegin k m) := by
  delta stepBegin
  extract_lets x1 x2 x3
  have hx2 : Frame L org x2 := by
    unfold x2
    refine onJob_fr (partsIn_sub (by decide) hL) ?_
    assumption
  clear_value x2
  have hx3 : Frame L org x3 := by
    unfold x3
    refine eachM_fr (fun _ _ _ => ?_) ?_
    · split
      · refine jobMoveAxis_fr (partsIn_sub (by decide) hL) ?_
        assumption
    · assumption
  clear_value x3
  refine Frame.ite ?_ ?_
  · split
    · refine imageBegin_fr (partsIn_sub (by decide) hL) ?_
      assumption
    · assumption
  · assumption

theorem pausedBefore_fr {L : List Part} {org : Mach} {c m} (hL : [.msix, .log, .job, .sig, .ev .job, .ev .mgt, .outs] ⊆ L) (h_m : Frame L org m) :
    Frame L org (pausedBefore c m) := by
  delta pausedBefore
  refine jobMove_fr (partsIn_sub (by decide) hL) ?_
  refine onJob_fr (partsIn_sub (by decide) hL) ?_
  assumption

theorem makeReadyDone_fr {L : List Part} {org : Mach} {fin m0} (hL : [.g, .msix, .clk, .boot, .mem, .log, .job, .beams, .cells, .sig, .ev .job, .ev .imp, .ev .mgt, .outs] ⊆ L) (hf_fin : ∀ m, Frame L org m → Frame L org (fin m)) (h_m0 : Frame L org m0) :
    Frame L org (makeReadyDone fin m0) := by
  delta makeReadyDone
  extract_lets x1 x2
  have hx1 : Frame L org x1 := by
    unfold x1
    refine onJob_fr (partsIn_sub (by decide) hL) ?_
    assumption
  clear_value x1
  refine Frame.ite ?_ ?_
  · refine layerOver_fr (partsIn_sub (by decide) hL) ?_
    refine jobMove_fr (partsIn_sub (by decide) hL) ?_
    refine onJob_fr (partsIn_sub (by decide) hL) ?_
    assumption
  · refine Frame.ite ?_ ?_
    · refine jobMove_fr (partsIn_sub (by decide) hL) ?_
      refine onJob_fr (partsIn_sub (by decide) hL) ?_
      assumption
    · apply hf_fin
      assumption

theorem exposeBegin_fr {L : List Part} {org : Mach} {m0} (hL : [.g, .msix, .clk, .boot, .bytes, .mem, .mgt, .log, .time, .job, .imp, .beams, .mpl, .cells, .sig, .heads, .stg, .ilk, .ev .glb, .ev .boot, .ev .job, .ev .imp, .ev .beam, .ev .cellArr, .ev .stg, .ev .mem, .ev .hlt, .ev .mgt, .outs, .free] ⊆ L) (h_m0 : Frame L org m0) :
    Frame L org (exposeBegin m0) := by
  delta exposeBegin
  extract_lets x1 x2 x3 x4 x5 x6 x7
  have hx1 : Frame L org x1 := by
    unfold x1
    refine loadSets_fr (partsIn_sub (by decide) hL) ?_
    refine impFresh_fr (partsIn_sub (by decide) hL) ?_
    assumption
  clear_value x1
  have hx2 : Frame L org x2 := by
    unfold x2
    refine eachM_fr (fun _ _ _ => ?_) ?_
    · refine retire_fr (partsIn_sub (by decide) hL) ?_
      assumption
    · assumption
  clear_value x2
  have hx3 : Frame L org x3 := by
    unfold x3
    refine jobMove_fr (partsIn_sub (by decide) hL) ?_
    assumption
  clear_value x3
  have hx4 : Frame L org x4 := by
    unfold x4
    refine onTime_fr (partsIn_sub (by decide) hL) ?_
    assumption
  clear_value x4
  have hx5 : Frame L org x5 := by
    unfold x5
    refine impPut_fr (partsIn_sub (by decide) hL) ?_
    assumption
  clear_value x5
  have hx6 : Frame L org x6 := by
    unfold x6
    refine onImpAll_fr (partsIn_sub (by decide) hL) ?_
    refine onJob_fr (partsIn_sub (by decide) hL) ?_
    assumption
  clear_value x6
  have hx7 : Frame L org x7 := by
    unfold x7
    refine entryScans_fr (partsIn_sub (by decide) hL) ?_
    assumption
  clear_value x7
  refine Frame.ite ?_ ?_
  · assumption
  · refine whenM_fr (fun _ _ => ?_) ?_
    · refine pauseExposing_fr (partsIn_sub (by decide) hL) ?_
      assumption
    · assumption

theorem keepParams_fr {L : List Part} {org : Mach} {m} (hL : [.job] ⊆ L) (h_m : Frame L org m) :
    Frame L org (keepParams m) := by
  delta keepParams
  refine Frame.ite ?_ ?_
  · refine onJob_fr (partsIn_sub (by decide) hL) ?_
    assumption
  · assumption

theorem enterMakeReady_fr {L : List Part} {org : Mach} {fin m} (hL : [.g, .msix, .clk, .boot, .bytes, .mem, .log, .job, .imp, .beams, .mpl, .hmap, .cells, .sig, .heads, .stg, .ilk, .ev .boot, .ev .job, .ev .imp, .ev .mgt, .outs] ⊆ L) (hf_fin : ∀ m, Frame L org m → Frame L org (fin m)) (h_m : Frame L org m) :
    Frame L org (enterMakeReady fin m) := by
  delta enterMakeReady
  split
  · assumption
  · extract_lets x1 x2 x3 x4
    have hx1 : Frame L org x1 := by
      unfold x1
      refine activate_fr (partsIn_sub (by decide) hL) ?_
      assumption
    clear_value x1
    have hx3 : Frame L org x3 := by
      unfold x3
      refine layerBoundary_fr (partsIn_sub (by decide) hL) ?_
      assumption
    clear_value x3
    have hx4 : Frame L org x4 := by
      unfold x4
      refine jobMove_fr (partsIn_sub (by decide) hL) ?_
      refine onJob_fr (partsIn_sub (by decide) hL) ?_
      assumption
    clear_value x4
    split
    · refine pausedBefore_fr (partsIn_sub (by decide) hL) ?_
      assumption
    · refine Frame.ite ?_ ?_
      · refine makeReadyDone_fr (partsIn_sub (by decide) hL) (fun _ _ => ?_) ?_
        · apply hf_fin
          assumption
        · assumption
      · refine stepBegin_fr (partsIn_sub (by decide) hL) ?_
        assumption

theorem enterIdle_fr {L : List Part} {org : Mach} {m} (hL : [.g, .msix, .clk, .boot, .mem, .log, .job, .beams, .cells, .sig, .ev .job, .ev .imp, .ev .mgt, .outs] ⊆ L) (h_m : Frame L org m) :
    Frame L org (enterIdle m) := by
  delta enterIdle
  refine layerOver_fr (partsIn_sub (by decide) hL) ?_
  refine jobMove_fr (partsIn_sub (by decide) hL) ?_
  refine onJob_fr (partsIn_sub (by decide) hL) ?_
  assumption

theorem hostMakeReady_fr {L : List Part} {org : Mach} {m} (hL : [.g, .msix, .clk, .boot, .mem, .log, .job, .beams, .cells, .sig, .heads, .stg, .ilk, .ev .job, .ev .imp, .ev .mgt, .outs] ⊆ L) (h_m : Frame L org m) :
    Frame L org (hostMakeReady m) := by
  delta hostMakeReady
  split
  · refine enterIdle_fr (partsIn_sub (by decide) hL) ?_
    assumption
  · extract_lets x1
    have hx1 : Frame L org x1 := by
      unfold x1
      refine jobMove_fr (partsIn_sub (by decide) hL) ?_
      refine onJob_fr (partsIn_sub (by decide) hL) ?_
      assumption
    clear_value x1
    split
    · refine pausedBefore_fr (partsIn_sub (by decide) hL) ?_
      assumption
    · refine stepBegin_fr (partsIn_sub (by decide) hL) ?_
      assumption

theorem layerLeave_fr {L : List Part} {org : Mach} {fin m0} (hL : [.g, .msix, .clk, .boot, .bytes, .mem, .log, .job, .imp, .beams, .mpl, .hmap, .cells, .sig, .heads, .stg, .ilk, .ev .boot, .ev .job, .ev .imp, .ev .mgt, .outs] ⊆ L) (hf_fin : ∀ m, Frame L org m → Frame L org (fin m)) (h_m0 : Frame L org m0) :
    Frame L org (layerLeave fin m0) := by
  delta layerLeave
  extract_lets x1 x2 x3 x4
  have hx2 : Frame L org x2 := by
    unfold x2
    refine raise_fr (partsIn_sub (by simp only [EvReg.kind]; decide) hL) ?_
    refine onJob_fr (partsIn_sub (by decide) hL) ?_
    refine impHalt_fr (partsIn_sub (by decide) hL) ?_
    assumption
  clear_value x2
  have hx3 : Frame L org x3 := by
    unfold x3
    refine keepParams_fr (partsIn_sub (by decide) hL) ?_
    assumption
  clear_value x3
  have hx4 : Frame L org x4 := by
    unfold x4
    split
    · refine freeSlot_fr (partsIn_sub (by decide) hL) ?_
      assumption
    · assumption
  clear_value x4
  refine Frame.ite ?_ ?_
  · refine layerOver_fr (partsIn_sub (by decide) hL) ?_
    refine jobMove_fr (partsIn_sub (by decide) hL) ?_
    refine onJob_fr (partsIn_sub (by decide) hL) ?_
    assumption
  · refine Frame.ite ?_ ?_
    · refine enterMakeReady_fr (partsIn_sub (by decide) hL) (fun _ _ => ?_) ?_
      · apply hf_fin
        assumption
      · assumption
    · refine Frame.ite ?_ ?_
      · refine hostMakeReady_fr (partsIn_sub (by decide) hL) ?_
        assumption
      · refine enterIdle_fr (partsIn_sub (by decide) hL) ?_
        assumption

theorem layerFinish_fr {L : List Part} {org : Mach} {fin m0} (hL : [.g, .msix, .clk, .boot, .bytes, .mem, .log, .job, .imp, .beams, .mpl, .hmap, .cells, .sig, .heads, .stg, .ilk, .ev .boot, .ev .job, .ev .imp, .ev .mgt, .outs] ⊆ L) (hf_fin : ∀ m, Frame L org m → Frame L org (fin m)) (h_m0 : Frame L org m0) :
    Frame L org (layerFinish fin m0) := by
  delta layerFinish
  extract_lets x1 x2
  have hx2 : Frame L org x2 := by
    unfold x2
    refine layerEndEntry_fr (partsIn_sub (by decide) hL) ?_
    refine impHalt_fr (partsIn_sub (by decide) hL) ?_
    assumption
  clear_value x2
  refine Frame.ite ?_ ?_
  · refine jobMove_fr (partsIn_sub (by decide) hL) ?_
    refine onJob_fr (partsIn_sub (by decide) hL) ?_
    assumption
  · refine layerLeave_fr (partsIn_sub (by decide) hL) (fun _ _ => ?_) ?_
    · apply hf_fin
      assumption
    · assumption

theorem enterExposingN_fr {L : List Part} {org : Mach} {n m} (hL : [.g, .msix, .clk, .boot, .bytes, .mem, .mgt, .log, .time, .job, .imp, .beams, .mpl, .hmap, .cells, .sig, .heads, .stg, .ilk, .ev .glb, .ev .boot, .ev .job, .ev .imp, .ev .beam, .ev .cellArr, .ev .stg, .ev .mem, .ev .hlt, .ev .mgt, .outs, .free] ⊆ L) (h_m : Frame L org m) :
    Frame L org (enterExposingN n m) := by
  induction n generalizing m with
  | zero => exact exposeBegin_fr (partsIn_sub (by decide) hL) h_m
  | succ n ih =>
    unfold enterExposingN
    exact Frame.ite (layerFinish_fr (partsIn_sub (by decide) hL) (fun _ h => ih h) (exposeBegin_fr (partsIn_sub (by decide) hL) h_m))
      (exposeBegin_fr (partsIn_sub (by decide) hL) h_m)

theorem enterExposing_fr {L : List Part} {org : Mach} {z0} (hL : [.g, .msix, .clk, .boot, .bytes, .mem, .mgt, .log, .time, .job, .imp, .beams, .mpl, .hmap, .cells, .sig, .heads, .stg, .ilk, .ev .glb, .ev .boot, .ev .job, .ev .imp, .ev .beam, .ev .cellArr, .ev .stg, .ev .mem, .ev .hlt, .ev .mgt, .outs, .free] ⊆ L) (h_z0 : Frame L org z0) :
    Frame L org (enterExposing z0) := by
  delta enterExposing
  refine enterExposingN_fr (partsIn_sub (by decide) hL) ?_
  assumption

theorem exposureCheck_fr {L : List Part} {org : Mach} {m} (hL : [.g, .msix, .clk, .boot, .bytes, .mem, .mgt, .log, .time, .job, .imp, .beams, .mpl, .hmap, .cells, .sig, .heads, .stg, .ilk, .ev .glb, .ev .boot, .ev .job, .ev .imp, .ev .beam, .ev .cellArr, .ev .stg, .ev .mem, .ev .hlt, .ev .mgt, .outs, .free] ⊆ L) (h_m : Frame L org m) :
    Frame L org (exposureCheck m) := by
  delta exposureCheck
  refine Frame.ite ?_ ?_
  · refine layerFinish_fr (partsIn_sub (by decide) hL) (fun _ _ => ?_) ?_
    · refine enterExposing_fr (partsIn_sub (by decide) hL) ?_
      assumption
    · assumption
  · assumption

theorem slugGone_fr {L : List Part} {org : Mach} {m} (hL : [.g, .msix, .clk, .boot, .bytes, .mem, .mgt, .log, .time, .job, .imp, .beams, .mpl, .hmap, .cells, .sig, .heads, .stg, .ilk, .ev .glb, .ev .boot, .ev .job, .ev .imp, .ev .beam, .ev .cellArr, .ev .stg, .ev .mem, .ev .hlt, .ev .mgt, .outs, .free] ⊆ L) (h_m : Frame L org m) :
    Frame L org (slugGone m) := by
  delta slugGone
  refine pauseSettle_fr (partsIn_sub (by decide) hL) ?_
  refine exposureCheck_fr (partsIn_sub (by decide) hL) ?_
  assumption

theorem jobTest_fr {L : List Part} {org : Mach} {m} (hL : [.g, .msix, .clk, .boot, .bytes, .mem, .mgt, .log, .time, .job, .imp, .beams, .mpl, .hmap, .cells, .sig, .heads, .stg, .ilk, .ev .glb, .ev .boot, .ev .job, .ev .imp, .ev .beam, .ev .cellArr, .ev .stg, .ev .mem, .ev .hlt, .ev .mgt, .outs, .free] ⊆ L) (h_m : Frame L org m) :
    Frame L org (jobTest m) := by
  delta jobTest
  refine Frame.ite ?_ ?_
  · refine enterMakeReady_fr (partsIn_sub (by decide) hL) (fun _ _ => ?_) ?_
    · refine enterExposing_fr (partsIn_sub (by decide) hL) ?_
      assumption
    · assumption
  · assumption

theorem makeReadyAt_fr {L : List Part} {org : Mach} {k m} (hL : [.g, .msix, .clk, .boot, .bytes, .mem, .mgt, .log, .time, .job, .imp, .beams, .mpl, .hmap, .cells, .sig, .heads, .stg, .ilk, .ev .glb, .ev .boot, .ev .job, .ev .imp, .ev .beam, .ev .cellArr, .ev .stg, .ev .mem, .ev .hlt, .ev .mgt, .outs, .free] ⊆ L) (h_m : Frame L org m) :
    Frame L org (makeReadyAt k m) := by
  delta makeReadyAt
  refine Frame.ite ?_ ?_
  · refine makeReadyDone_fr (partsIn_sub (by decide) hL) (fun _ _ => ?_) ?_
    · refine enterExposing_fr (partsIn_sub (by decide) hL) ?_
      assumption
    · assumption
  · extract_lets x1
    have hx1 : Frame L org x1 := by
      unfold x1
      refine stepBegin_fr (partsIn_sub (by decide) hL) ?_
      assumption
    clear_value x1
    refine Frame.ite ?_ ?_
    · refine makeReadyDone_fr (partsIn_sub (by decide) hL) (fun _ _ => ?_) ?_
      · refine enterExposing_fr (partsIn_sub (by decide) hL) ?_
        assumption
      · refine imageMissed_fr (partsIn_sub (by decide) hL) ?_
        assumption
    · assumption

theorem stepEnd_fr {L : List Part} {org : Mach} {m} (hL : [.g, .msix, .clk, .boot, .bytes, .mem, .mgt, .log, .time, .job, .imp, .beams, .mpl, .hmap, .cells, .sig, .heads, .stg, .ilk, .ev .glb, .ev .boot, .ev .job, .ev .imp, .ev .beam, .ev .cellArr, .ev .stg, .ev .mem, .ev .hlt, .ev .mgt, .outs, .free] ⊆ L) (h_m : Frame L org m) :
    Frame L org (stepEnd m) := by
  delta stepEnd
  extract_lets x1
  split
  · refine jobMove_fr (partsIn_sub (by decide) hL) ?_
    refine onJob_fr (partsIn_sub (by decide) hL) ?_
    assumption
  · refine makeReadyAt_fr (partsIn_sub (by decide) hL) ?_
    assumption

theorem imageArrived_fr {L : List Part} {org : Mach} {m} (hL : [.g, .msix, .clk, .boot, .bytes, .mem, .mgt, .log, .time, .job, .imp, .beams, .mpl, .hmap, .cells, .sig, .heads, .stg, .ilk, .ev .glb, .ev .boot, .ev .job, .ev .imp, .ev .beam, .ev .cellArr, .ev .stg, .ev .mem, .ev .hlt, .ev .mgt, .outs, .free] ⊆ L) (h_m : Frame L org m) :
    Frame L org (imageArrived m) := by
  delta imageArrived
  refine Frame.ite ?_ ?_
  · refine onJob_fr (partsIn_sub (by decide) hL) ?_
    assumption
  · refine Frame.ite ?_ ?_
    · refine stepEnd_fr (partsIn_sub (by decide) hL) ?_
      refine sceneRestore_fr (partsIn_sub (by decide) hL) ?_
      assumption
    · assumption

theorem stopExposing_fr {L : List Part} {org : Mach} {c m} (hL : [.msix, .bytes, .mem, .log, .job, .imp, .beams, .sig, .ev .job, .ev .imp, .ev .mgt, .outs] ⊆ L) (h_m : Frame L org m) :
    Frame L org (stopExposing c m) := by
  delta stopExposing
  extract_lets x1
  have hx1 : Frame L org x1 := by
    unfold x1
    refine eachM_fr (fun _ _ _ => ?_) ?_
    · refine beamStop_fr (partsIn_sub (by decide) hL) ?_
      assumption
    · refine impHalt_fr (partsIn_sub (by decide) hL) ?_
      assumption
  clear_value x1
  refine jobMove_fr (partsIn_sub (by decide) hL) ?_
  refine onJob_fr (partsIn_sub (by decide) hL) ?_
  assumption

end Sys2Proof.Machine
end

