-- ==== Sys2Proof/Laws/Frame/FormeCheck.lean ====
section
/-!
SUPPORT. The parts of the device that the operations of Machine/FormeCheck.lean can touch: one lemma per operation.
-/

namespace Sys2Proof.Machine

theorem commitWhere_fr {L : List Part} {org : Mach} {o m} (hL : [.job] ⊆ L) (h_m : Frame L org m) :
    Frame L org (commitWhere o m) := by
  delta commitWhere
  refine onJob_fr (partsIn_sub (by decide) hL) ?_
  assumption

theorem jobCommit_fr {L : List Part} {org : Mach} {w m0} (hL : [.g, .msix, .clk, .boot, .mem, .mgt, .log, .job, .imp, .beams, .mpl, .cells, .sig, .heads, .stg, .ilk, .ev .glb, .ev .boot, .ev .job, .ev .imp, .ev .cellArr, .ev .stg, .ev .mem, .ev .hlt, .ev .mgt, .outs, .free] ⊆ L) (h_m0 : Frame L org m0) :
    Frame L org (jobCommit w m0) := by
  delta jobCommit
  refine Frame.ite ?_ ?_
  · refine refuse_fr (partsIn_sub (by simp only [EvReg.kind]; decide) hL) ?_
    assumption
  · extract_lets x1 x2 x3 x4 x5
    have hx1 : Frame L org x1 := by
      unfold x1
      refine onJob_fr (partsIn_sub (by decide) hL) ?_
      assumption
    clear_value x1
    have hf_x4 : ∀ m, Frame L org m → Frame L org (x4 m) := by
      intro m hm
      unfold x4
      clear_value x3
      split
      · refine onJob_fr (partsIn_sub (by decide) hL) ?_
        assumption
      · assumption
    clear_value x4
    refine Frame.ite ?_ ?_
    · refine refuse_fr (partsIn_sub (by simp only [EvReg.kind]; decide) hL) ?_
      assumption
    · split
      · extract_lets x6 x7
        have hx6 : Frame L org x6 := by
          unfold x6
          refine Frame.ite ?_ ?_
          · assumption
          · apply hf_x4
            assumption
        clear_value x6
        have hx7 : Frame L org x7 := by
          unfold x7
          refine Frame.ite ?_ ?_
          · refine memRead_fr (partsIn_sub (by decide) hL) ?_
            assumption
          · assumption
        clear_value x7
        refine commitResult_fr (partsIn_sub (by decide) hL) ?_
        split
        · refine commitWhere_fr (partsIn_sub (by decide) hL) ?_
          assumption
        · assumption
      · refine commitResult_fr (partsIn_sub (by decide) hL) ?_
        refine onSlot_fr (partsIn_sub (by decide) hL) ?_
        refine onJob_fr (partsIn_sub (by decide) hL) ?_
        refine memRead_fr (partsIn_sub (by decide) hL) ?_
        apply hf_x4
        assumption
      · assumption

theorem commitEnd_fr {L : List Part} {org : Mach} {m0} (hL : [.g, .msix, .clk, .boot, .bytes, .mem, .mgt, .log, .time, .job, .imp, .beams, .mpl, .hmap, .cells, .sig, .heads, .stg, .ilk, .ev .glb, .ev .boot, .ev .job, .ev .imp, .ev .beam, .ev .cellArr, .ev .stg, .ev .mem, .ev .hlt, .ev .mgt, .outs, .free] ⊆ L) (h_m0 : Frame L org m0) :
    Frame L org (commitEnd m0) := by
  delta commitEnd
  split
  · assumption
  · extract_lets x1 x2 x3 x4
    have hx4 : Frame L org x4 := by
      unfold x4
      refine memRead_fr (partsIn_sub (by decide) hL) ?_
      assumption
    clear_value x4
    refine Frame.ite ?_ ?_
    · refine commitDrop_fr (partsIn_sub (by decide) hL) ?_
      assumption
    · refine Frame.ite ?_ ?_
      · refine commitDrop_fr (partsIn_sub (by decide) hL) ?_
        assumption
      · refine Frame.ite ?_ ?_
        · refine commitDrop_fr (partsIn_sub (by decide) hL) ?_
          assumption
        · split
          · refine commitDrop_fr (partsIn_sub (by decide) hL) ?_
            refine commitWhere_fr (partsIn_sub (by decide) hL) ?_
            assumption
          · split
            · extract_lets x5 x6
              have hx5 : Frame L org x5 := by
                unfold x5
                refine onSlot_fr (partsIn_sub (by decide) hL) ?_
                assumption
              clear_value x5
              have hx6 : Frame L org x6 := by
                unfold x6
                refine onJob_fr (partsIn_sub (by decide) hL) ?_
                assumption
              clear_value x6
              refine jobTest_fr (partsIn_sub (by decide) hL) ?_
              refine raise_fr (partsIn_sub (by simp only [EvReg.kind]; decide) hL) ?_
              refine commitResult_fr (partsIn_sub (by decide) hL) ?_
              refine onJob_fr (partsIn_sub (by decide) hL) ?_
              assumption

theorem execJobCommit_fr {L : List Part} {org : Mach} {p v env s} (hL : [.g, .msix, .clk, .boot, .mem, .mgt, .log, .job, .imp, .beams, .mpl, .cells, .sig, .heads, .stg, .ilk, .ev .glb, .ev .boot, .ev .job, .ev .imp, .ev .cellArr, .ev .stg, .ev .mem, .ev .hlt, .ev .mgt, .outs, .free] ⊆ L) (h_s : Frame L org s.m) :
    OutFrame L org (execJobCommit p v env s) := by
  delta execJobCommit
  refine act_fr (fun _ _ => ?_) h_s
  refine withEnv_fr (fun _ _ => ?_) ?_
  · replace hL := env_sub hL
    refine writeGate_fr (partsIn_sub (by decide) hL) (fun _ _ => ?_) ?_
    · refine jobCommit_fr (partsIn_sub (by decide) hL) ?_
      assumption
    · assumption
  · assumption

theorem execCommitCheckEnd_fr {L : List Part} {org : Mach} {ecc dma s} (hL : [.g, .msix, .clk, .boot, .bytes, .mem, .mgt, .log, .time, .job, .imp, .beams, .mpl, .hmap, .cells, .sig, .heads, .stg, .ilk, .ev .glb, .ev .boot, .ev .job, .ev .imp, .ev .beam, .ev .cellArr, .ev .stg, .ev .mem, .ev .hlt, .ev .mgt, .outs, .free] ⊆ L) (h_s : Frame L org s.m) :
    OutFrame L org (execCommitCheckEnd ecc dma s) := by
  delta execCommitCheckEnd
  refine act_fr (fun _ _ => ?_) h_s
  refine withEnv_fr (fun _ _ => ?_) ?_
  · replace hL := env_sub hL
    refine clocked_fr (fun _ _ => ?_) ?_
    · refine commitEnd_fr (partsIn_sub (by decide) hL) ?_
      assumption
    · assumption
  · assumption

end Sys2Proof.Machine
end

