-- ==== Sys2Proof/Laws/Frame/JobOps.lean ====
section
/-!
SUPPORT. The parts of the device that the operations of Machine/JobOps.lean can touch: one lemma per operation.
-/

namespace Sys2Proof.Machine

theorem jobRefuse_fr {L : List Part} {org : Mach} {m} (hL : [.msix, .ev .glb, .ev .job, .outs] ⊆ L) (h_m : Frame L org m) :
    Frame L org (jobRefuse m) := by
  delta jobRefuse
  refine refuse_fr (partsIn_sub (by simp only [EvReg.kind]; decide) hL) ?_
  assumption

theorem abortSettled_fr {L : List Part} {org : Mach} {m} (hL : [.g, .msix, .clk, .boot, .bytes, .mem, .mgt, .log, .time, .job, .imp, .beams, .mpl, .hmap, .cells, .sig, .heads, .stg, .ilk, .ev .glb, .ev .boot, .ev .job, .ev .imp, .ev .beam, .ev .cellArr, .ev .stg, .ev .mem, .ev .hlt, .ev .mgt, .outs, .free] ⊆ L) (h_m : Frame L org m) :
    Frame L org (abortSettled m) := by
  delta abortSettled
  refine Frame.ite ?_ ?_
  · extract_lets x1 x2
    have hx1 : Frame L org x1 := by
      unfold x1
      refine eachM_fr (fun _ _ _ => ?_) ?_
      · refine onBeam_fr (partsIn_sub (by decide) hL) ?_
        refine onImp_fr (partsIn_sub (by decide) hL) ?_
        assumption
      · assumption
    clear_value x1
    have hx2 : Frame L org x2 := by
      unfold x2
      refine layerEndEntry_fr (partsIn_sub (by decide) hL) ?_
      refine onJob_fr (partsIn_sub (by decide) hL) ?_
      assumption
    clear_value x2
    refine jobTest_fr (partsIn_sub (by decide) hL) ?_
    split
    · refine freeSlot_fr (partsIn_sub (by decide) hL) ?_
      assumption
    · assumption
  · assumption

theorem jobPause_fr {L : List Part} {org : Mach} {m} (hL : [.msix, .log, .job, .imp, .beams, .sig, .ev .glb, .ev .job, .ev .mgt, .outs] ⊆ L) (h_m : Frame L org m) :
    Frame L org (jobPause m) := by
  delta jobPause
  split
  · refine onJob_fr (partsIn_sub (by decide) hL) ?_
    assumption
  · refine pauseExposing_fr (partsIn_sub (by decide) hL) ?_
    assumption
  · refine jobRefuse_fr (partsIn_sub (by decide) hL) ?_
    assumption

theorem imageDrop_fr {L : List Part} {org : Mach} {m} (hL : [.g, .msix, .clk, .boot, .mem, .log, .job, .beams, .cells, .sig, .ilk, .ev .imp, .ev .mgt, .outs] ⊆ L) (h_m : Frame L org m) :
    Frame L org (imageDrop m) := by
  delta imageDrop
  refine Frame.ite ?_ ?_
  · refine onJob_fr (partsIn_sub (by decide) hL) ?_
    refine sceneRestore_fr (partsIn_sub (by decide) hL) ?_
    assumption
  · assumption

theorem jobStop_fr {L : List Part} {org : Mach} {m} (hL : [.g, .msix, .clk, .boot, .bytes, .mem, .log, .job, .imp, .beams, .cells, .sig, .stg, .ilk, .ev .glb, .ev .job, .ev .imp, .ev .stg, .ev .hlt, .ev .mgt, .outs, .free] ⊆ L) (h_m : Frame L org m) :
    Frame L org (jobStop m) := by
  delta jobStop
  split
  · extract_lets x1
    have hx1 : Frame L org x1 := by
      unfold x1
      refine eachM_fr (fun _ _ _ => ?_) ?_
      · refine jobStopAxis_fr (partsIn_sub (by decide) hL) ?_
        assumption
      · refine imageDrop_fr (partsIn_sub (by decide) hL) ?_
        assumption
    clear_value x1
    refine jobMove_fr (partsIn_sub (by decide) hL) ?_
    refine onJob_fr (partsIn_sub (by decide) hL) ?_
    assumption
  · refine stopExposing_fr (partsIn_sub (by decide) hL) ?_
    assumption
  · refine jobRefuse_fr (partsIn_sub (by decide) hL) ?_
    assumption

theorem jobAbort_fr {L : List Part} {org : Mach} {m} (hL : [.g, .msix, .clk, .boot, .bytes, .mem, .mgt, .log, .time, .job, .imp, .beams, .mpl, .hmap, .cells, .sig, .heads, .stg, .ilk, .ev .glb, .ev .boot, .ev .job, .ev .imp, .ev .beam, .ev .cellArr, .ev .stg, .ev .mem, .ev .hlt, .ev .mgt, .outs, .free] ⊆ L) (h_m : Frame L org m) :
    Frame L org (jobAbort m) := by
  delta jobAbort
  split
  · refine jobRefuse_fr (partsIn_sub (by decide) hL) ?_
    assumption
  · refine jobRefuse_fr (partsIn_sub (by decide) hL) ?_
    assumption
  · refine jobRefuse_fr (partsIn_sub (by decide) hL) ?_
    assumption
  · extract_lets x1 x2 x3
    have hx1 : Frame L org x1 := by
      unfold x1
      refine eachM_fr (fun _ _ _ => ?_) ?_
      · refine beamStop_fr (partsIn_sub (by decide) hL) ?_
        assumption
      · refine impHalt_fr (partsIn_sub (by decide) hL) ?_
        assumption
    clear_value x1
    have hx2 : Frame L org x2 := by
      unfold x2
      refine eachM_fr (fun _ _ _ => ?_) ?_
      · refine onAxis_fr (partsIn_sub (by decide) hL) ?_
        refine jobStopAxis_fr (partsIn_sub (by decide) hL) ?_
        assumption
      · refine imageDrop_fr (partsIn_sub (by decide) hL) ?_
        assumption
    clear_value x2
    have hx3 : Frame L org x3 := by
      unfold x3
      refine onJob_fr (partsIn_sub (by decide) hL) ?_
      assumption
    clear_value x3
    refine abortSettled_fr (partsIn_sub (by decide) hL) ?_
    refine layerOver_fr (partsIn_sub (by decide) hL) ?_
    refine jobMove_fr (partsIn_sub (by decide) hL) ?_
    assumption

theorem jobStart_fr {L : List Part} {org : Mach} {m} (hL : [.g, .msix, .clk, .boot, .bytes, .mem, .mgt, .log, .time, .job, .imp, .beams, .mpl, .hmap, .cells, .sig, .heads, .stg, .ilk, .ev .glb, .ev .boot, .ev .job, .ev .imp, .ev .beam, .ev .cellArr, .ev .stg, .ev .mem, .ev .hlt, .ev .mgt, .outs, .free] ⊆ L) (h_m : Frame L org m) :
    Frame L org (jobStart m) := by
  delta jobStart
  refine Frame.ite ?_ ?_
  · refine enterMakeReady_fr (partsIn_sub (by decide) hL) (fun _ _ => ?_) ?_
    · refine enterExposing_fr (partsIn_sub (by decide) hL) ?_
      assumption
    · assumption
  · refine jobRefuse_fr (partsIn_sub (by decide) hL) ?_
    assumption

theorem jobFlush_fr {L : List Part} {org : Mach} {m} (hL : [.msix, .job, .sig, .ev .job, .outs] ⊆ L) (h_m : Frame L org m) :
    Frame L org (jobFlush m) := by
  delta jobFlush
  extract_lets x1
  refine commitDrop_fr (partsIn_sub (by decide) hL) ?_
  refine eachM_fr (fun _ _ _ => ?_) ?_
  · refine freeSlot_fr (partsIn_sub (by decide) hL) ?_
    assumption
  · refine Frame.ite ?_ ?_
    · refine commitResult_fr (partsIn_sub (by decide) hL) ?_
      assumption
    · assumption

theorem takePositions_fr {L : List Part} {org : Mach} {m} (hL : [.job, .stg] ⊆ L) (h_m : Frame L org m) :
    Frame L org (takePositions m) := by
  delta takePositions
  refine onJob_fr (partsIn_sub (by decide) hL) ?_
  refine eachM_fr (fun _ _ _ => ?_) ?_
  · refine onAxis_fr (partsIn_sub (by decide) hL) ?_
    assumption
  · assumption

theorem resumeMakeReady_fr {L : List Part} {org : Mach} {m0} (hL : [.g, .msix, .clk, .boot, .bytes, .mem, .mgt, .log, .time, .job, .imp, .beams, .mpl, .hmap, .cells, .sig, .heads, .stg, .ilk, .ev .glb, .ev .boot, .ev .job, .ev .imp, .ev .beam, .ev .cellArr, .ev .stg, .ev .mem, .ev .hlt, .ev .mgt, .outs, .free] ⊆ L) (h_m0 : Frame L org m0) :
    Frame L org (resumeMakeReady m0) := by
  delta resumeMakeReady
  extract_lets x1 x2
  have hx1 : Frame L org x1 := by
    unfold x1
    refine jobMove_fr (partsIn_sub (by decide) hL) ?_
    assumption
  clear_value x1
  have hx2 : Frame L org x2 := by
    unfold x2
    refine onJob_fr (partsIn_sub (by decide) hL) ?_
    assumption
  clear_value x2
  refine Frame.ite ?_ ?_
  · refine eachM_fr (fun _ _ _ => ?_) ?_
    · split
      · refine Frame.ite ?_ ?_
        · assumption
        · refine jobMoveAxis_fr (partsIn_sub (by decide) hL) ?_
          assumption
    · assumption
  · refine makeReadyAt_fr (partsIn_sub (by decide) hL) ?_
    assumption

theorem resumeBeam_fr {L : List Part} {org : Mach} {b m} (hL : [.g, .msix, .clk, .boot, .mem, .log, .imp, .beams, .mpl, .cells, .sig, .ev .boot, .ev .imp, .ev .beam, .ev .mgt, .outs] ⊆ L) (h_m : Frame L org m) :
    Frame L org (resumeBeam b m) := by
  delta resumeBeam
  split
  · refine Frame.ite ?_ ?_
    · refine slugBegin_fr (partsIn_sub (by decide) hL) ?_
      assumption
    · assumption
  · assumption

theorem resumeExposing_fr {L : List Part} {org : Mach} {m} (hL : [.g, .msix, .clk, .boot, .bytes, .mem, .mgt, .log, .time, .job, .imp, .beams, .mpl, .hmap, .cells, .sig, .heads, .stg, .ilk, .ev .glb, .ev .boot, .ev .job, .ev .imp, .ev .beam, .ev .cellArr, .ev .stg, .ev .mem, .ev .hlt, .ev .mgt, .outs, .free] ⊆ L) (h_m : Frame L org m) :
    Frame L org (resumeExposing m) := by
  delta resumeExposing
  refine Frame.ite ?_ ?_
  · refine layerLeave_fr (partsIn_sub (by decide) hL) (fun _ _ => ?_) ?_
    · refine enterExposing_fr (partsIn_sub (by decide) hL) ?_
      assumption
    · refine jobMove_fr (partsIn_sub (by decide) hL) ?_
      assumption
  · refine Frame.ite ?_ ?_
    · refine layerFinish_fr (partsIn_sub (by decide) hL) (fun _ _ => ?_) ?_
      · refine enterExposing_fr (partsIn_sub (by decide) hL) ?_
        assumption
      · refine jobMove_fr (partsIn_sub (by decide) hL) ?_
        assumption
    · refine Frame.ite ?_ ?_
      · refine enterExposing_fr (partsIn_sub (by decide) hL) ?_
        assumption
      · extract_lets x1 x2
        have hx1 : Frame L org x1 := by
          unfold x1
          refine onImpAll_fr (partsIn_sub (by decide) hL) ?_
          refine jobMove_fr (partsIn_sub (by decide) hL) ?_
          assumption
        clear_value x1
        have hx2 : Frame L org x2 := by
          unfold x2
          refine exposureCheck_fr (partsIn_sub (by decide) hL) ?_
          refine eachM_fr (fun _ _ _ => ?_) ?_
          · refine resumeBeam_fr (partsIn_sub (by decide) hL) ?_
            assumption
          · assumption
        clear_value x2
        refine whenM_fr (fun _ _ => ?_) ?_
        · refine pauseExposing_fr (partsIn_sub (by decide) hL) ?_
          assumption
        · assumption

theorem jobResume_fr {L : List Part} {org : Mach} {m0} (hL : [.g, .msix, .clk, .boot, .bytes, .mem, .mgt, .log, .time, .job, .imp, .beams, .mpl, .hmap, .cells, .sig, .heads, .stg, .ilk, .ev .glb, .ev .boot, .ev .job, .ev .imp, .ev .beam, .ev .cellArr, .ev .stg, .ev .mem, .ev .hlt, .ev .mgt, .outs, .free] ⊆ L) (h_m0 : Frame L org m0) :
    Frame L org (jobResume m0) := by
  delta jobResume
  refine Frame.ite ?_ ?_
  · refine jobRefuse_fr (partsIn_sub (by decide) hL) ?_
    assumption
  · refine Frame.ite ?_ ?_
    · refine jobRefuse_fr (partsIn_sub (by decide) hL) ?_
      assumption
    · refine Frame.ite ?_ ?_
      · refine jobRefuse_fr (partsIn_sub (by decide) hL) ?_
        assumption
      · refine Frame.ite ?_ ?_
        · refine jobRefuse_fr (partsIn_sub (by decide) hL) ?_
          assumption
        · refine Frame.ite ?_ ?_
          · refine onJob_fr (partsIn_sub (by decide) hL) ?_
            assumption
          · extract_lets x1
            have hx1 : Frame L org x1 := by
              unfold x1
              refine onJob_fr (partsIn_sub (by decide) hL) ?_
              refine Frame.ite ?_ ?_
              · refine takePositions_fr (partsIn_sub (by decide) hL) ?_
                assumption
              · assumption
            clear_value x1
            refine Frame.ite ?_ ?_
            · split
              · refine enterExposing_fr (partsIn_sub (by decide) hL) ?_
                refine onJob_fr (partsIn_sub (by decide) hL) ?_
                refine layerBoundary_fr (partsIn_sub (by decide) hL) ?_
                refine activate_fr (partsIn_sub (by decide) hL) ?_
                assumption
              · assumption
            · refine Frame.ite ?_ ?_
              · refine resumeExposing_fr (partsIn_sub (by decide) hL) ?_
                assumption
              · refine resumeMakeReady_fr (partsIn_sub (by decide) hL) ?_
                assumption

theorem jobCmd_fr {L : List Part} {org : Mach} {w m} (hL : [.g, .msix, .clk, .boot, .bytes, .mem, .mgt, .log, .time, .job, .imp, .beams, .mpl, .hmap, .cells, .sig, .heads, .stg, .ilk, .ev .glb, .ev .boot, .ev .job, .ev .imp, .ev .beam, .ev .cellArr, .ev .stg, .ev .mem, .ev .hlt, .ev .mgt, .outs, .free] ⊆ L) (h_m : Frame L org m) :
    Frame L org (jobCmd w m) := by
  delta jobCmd
  refine Frame.ite ?_ ?_
  · refine jobRefuse_fr (partsIn_sub (by decide) hL) ?_
    assumption
  · extract_lets x1
    refine Frame.ite ?_ ?_
    · refine jobFlush_fr (partsIn_sub (by decide) hL) ?_
      assumption
    · refine Frame.ite ?_ ?_
      · refine jobRefuse_fr (partsIn_sub (by decide) hL) ?_
        assumption
      · clear_value x1
        split
        · refine jobPause_fr (partsIn_sub (by decide) hL) ?_
          assumption
        · refine jobStop_fr (partsIn_sub (by decide) hL) ?_
          assumption
        · refine jobResume_fr (partsIn_sub (by decide) hL) ?_
          assumption
        · refine jobAbort_fr (partsIn_sub (by decide) hL) ?_
          assumption
        · refine jobStart_fr (partsIn_sub (by decide) hL) ?_
          assumption
        · refine jobFlush_fr (partsIn_sub (by decide) hL) ?_
          assumption
        · refine jobRefuse_fr (partsIn_sub (by decide) hL) ?_
          assumption

theorem makeReadyStepEnd_fr {L : List Part} {org : Mach} {m} (hL : [.g, .msix, .clk, .boot, .bytes, .mem, .mgt, .log, .time, .job, .imp, .beams, .mpl, .hmap, .cells, .sig, .heads, .stg, .ilk, .ev .glb, .ev .boot, .ev .job, .ev .imp, .ev .beam, .ev .cellArr, .ev .stg, .ev .mem, .ev .hlt, .ev .mgt, .outs, .free] ⊆ L) (h_m : Frame L org m) :
    Frame L org (makeReadyStepEnd m) := by
  delta makeReadyStepEnd
  refine Frame.ite ?_ ?_
  · refine stepEnd_fr (partsIn_sub (by decide) hL) ?_
    assumption
  · assumption

theorem mrTimeout_fr {L : List Part} {org : Mach} {m} (hL : [.g, .msix, .clk, .boot, .mem, .mgt, .log, .job, .imp, .beams, .mpl, .cells, .sig, .heads, .stg, .ilk, .ev .glb, .ev .boot, .ev .imp, .ev .cellArr, .ev .stg, .ev .hlt, .ev .mgt, .outs, .free] ⊆ L) (h_m : Frame L org m) :
    Frame L org (mrTimeout m) := by
  delta mrTimeout
  refine Frame.ite ?_ ?_
  · extract_lets x1 x2 x3
    have hx3 : Frame L org x3 := by
      unfold x3
      refine eachM_fr (fun _ _ _ => ?_) ?_
      · split
        · refine axStop_fr (partsIn_sub (by decide) hL) ?_
          assumption
      · refine onJob_fr (partsIn_sub (by decide) hL) ?_
        assumption
    clear_value x3
    refine Frame.ite ?_ ?_
    · refine faultSafeHold_fr (partsIn_sub (by decide) hL) ?_
      assumption
    · refine log_fr (partsIn_sub (by decide) hL) ?_
      assumption
  · assumption

theorem imageTimeout_fr {L : List Part} {org : Mach} {m} (hL : [.g, .msix, .clk, .boot, .bytes, .mem, .mgt, .log, .time, .job, .imp, .beams, .mpl, .hmap, .cells, .sig, .heads, .stg, .ilk, .ev .glb, .ev .boot, .ev .job, .ev .imp, .ev .beam, .ev .cellArr, .ev .stg, .ev .mem, .ev .hlt, .ev .mgt, .outs, .free] ⊆ L) (h_m : Frame L org m) :
    Frame L org (imageTimeout m) := by
  delta imageTimeout
  refine Frame.ite ?_ ?_
  · refine stepEnd_fr (partsIn_sub (by decide) hL) ?_
    refine imageMissed_fr (partsIn_sub (by decide) hL) ?_
    refine sceneRestore_fr (partsIn_sub (by decide) hL) ?_
    assumption
  · assumption

theorem execJobPause_fr {L : List Part} {org : Mach} {p hi s} (hL : [.g, .msix, .clk, .boot, .bytes, .mem, .mgt, .log, .time, .job, .imp, .beams, .mpl, .hmap, .cells, .sig, .heads, .stg, .ilk, .ev .glb, .ev .boot, .ev .job, .ev .imp, .ev .beam, .ev .cellArr, .ev .stg, .ev .mem, .ev .hlt, .ev .mgt, .outs, .free] ⊆ L) (h_s : Frame L org s.m) :
    OutFrame L org (execJobPause p hi s) := by
  delta execJobPause
  refine act_fr (fun _ _ => ?_) h_s
  refine writeGate_fr (partsIn_sub (by decide) hL) (fun _ _ => ?_) ?_
  · refine jobCmd_fr (partsIn_sub (by decide) hL) ?_
    assumption
  · assumption

theorem execJobStop_fr {L : List Part} {org : Mach} {p hi s} (hL : [.g, .msix, .clk, .boot, .bytes, .mem, .mgt, .log, .time, .job, .imp, .beams, .mpl, .hmap, .cells, .sig, .heads, .stg, .ilk, .ev .glb, .ev .boot, .ev .job, .ev .imp, .ev .beam, .ev .cellArr, .ev .stg, .ev .mem, .ev .hlt, .ev .mgt, .outs, .free] ⊆ L) (h_s : Frame L org s.m) :
    OutFrame L org (execJobStop p hi s) := by
  delta execJobStop
  refine act_fr (fun _ _ => ?_) h_s
  refine writeGate_fr (partsIn_sub (by decide) hL) (fun _ _ => ?_) ?_
  · refine jobCmd_fr (partsIn_sub (by decide) hL) ?_
    assumption
  · assumption

theorem execJobResume_fr {L : List Part} {org : Mach} {p hi env s} (hL : [.g, .msix, .clk, .boot, .bytes, .mem, .mgt, .log, .time, .job, .imp, .beams, .mpl, .hmap, .cells, .sig, .heads, .stg, .ilk, .ev .glb, .ev .boot, .ev .job, .ev .imp, .ev .beam, .ev .cellArr, .ev .stg, .ev .mem, .ev .hlt, .ev .mgt, .outs, .free] ⊆ L) (h_s : Frame L org s.m) :
    OutFrame L org (execJobResume p hi s env) := by
  delta execJobResume
  refine act_fr (fun _ _ => ?_) h_s
  refine withEnv_fr (fun _ _ => ?_) ?_
  · replace hL := env_sub hL
    refine writeGate_fr (partsIn_sub (by decide) hL) (fun _ _ => ?_) ?_
    · refine jobCmd_fr (partsIn_sub (by decide) hL) ?_
      assumption
    · assumption
  · assumption

theorem execJobAbort_fr {L : List Part} {org : Mach} {p hi s} (hL : [.g, .msix, .clk, .boot, .bytes, .mem, .mgt, .log, .time, .job, .imp, .beams, .mpl, .hmap, .cells, .sig, .heads, .stg, .ilk, .ev .glb, .ev .boot, .ev .job, .ev .imp, .ev .beam, .ev .cellArr, .ev .stg, .ev .mem, .ev .hlt, .ev .mgt, .outs, .free] ⊆ L) (h_s : Frame L org s.m) :
    OutFrame L org (execJobAbort p hi s) := by
  delta execJobAbort
  refine act_fr (fun _ _ => ?_) h_s
  refine writeGate_fr (partsIn_sub (by decide) hL) (fun _ _ => ?_) ?_
  · refine jobCmd_fr (partsIn_sub (by decide) hL) ?_
    assumption
  · assumption

theorem execJobStart_fr {L : List Part} {org : Mach} {p hi env s} (hL : [.g, .msix, .clk, .boot, .bytes, .mem, .mgt, .log, .time, .job, .imp, .beams, .mpl, .hmap, .cells, .sig, .heads, .stg, .ilk, .ev .glb, .ev .boot, .ev .job, .ev .imp, .ev .beam, .ev .cellArr, .ev .stg, .ev .mem, .ev .hlt, .ev .mgt, .outs, .free] ⊆ L) (h_s : Frame L org s.m) :
    OutFrame L org (execJobStart p hi s env) := by
  delta execJobStart
  refine act_fr (fun _ _ => ?_) h_s
  refine withEnv_fr (fun _ _ => ?_) ?_
  · replace hL := env_sub hL
    refine writeGate_fr (partsIn_sub (by decide) hL) (fun _ _ => ?_) ?_
    · refine jobCmd_fr (partsIn_sub (by decide) hL) ?_
      assumption
    · assumption
  · assumption

theorem execJobFlush_fr {L : List Part} {org : Mach} {p hi s} (hL : [.g, .msix, .clk, .boot, .bytes, .mem, .mgt, .log, .time, .job, .imp, .beams, .mpl, .hmap, .cells, .sig, .heads, .stg, .ilk, .ev .glb, .ev .boot, .ev .job, .ev .imp, .ev .beam, .ev .cellArr, .ev .stg, .ev .mem, .ev .hlt, .ev .mgt, .outs, .free] ⊆ L) (h_s : Frame L org s.m) :
    OutFrame L org (execJobFlush p hi s) := by
  delta execJobFlush
  refine act_fr (fun _ _ => ?_) h_s
  refine writeGate_fr (partsIn_sub (by decide) hL) (fun _ _ => ?_) ?_
  · refine jobCmd_fr (partsIn_sub (by decide) hL) ?_
    assumption
  · assumption

theorem execAbortSettled_fr {L : List Part} {org : Mach} {s} (hL : [.g, .msix, .clk, .boot, .bytes, .mem, .mgt, .log, .time, .job, .imp, .beams, .mpl, .hmap, .cells, .sig, .heads, .stg, .ilk, .ev .glb, .ev .boot, .ev .job, .ev .imp, .ev .beam, .ev .cellArr, .ev .stg, .ev .mem, .ev .hlt, .ev .mgt, .outs, .free] ⊆ L) (h_s : Frame L org s.m) :
    OutFrame L org (execAbortSettled s) := by
  delta execAbortSettled
  refine act_fr (fun _ _ => ?_) h_s
  refine clocked_fr (fun _ _ => ?_) ?_
  · refine abortSettled_fr (partsIn_sub (by decide) hL) ?_
    assumption
  · assumption

theorem execMakeReadyStepEnd_fr {L : List Part} {org : Mach} {env s} (hL : [.g, .msix, .clk, .boot, .bytes, .mem, .mgt, .log, .time, .job, .imp, .beams, .mpl, .hmap, .cells, .sig, .heads, .stg, .ilk, .ev .glb, .ev .boot, .ev .job, .ev .imp, .ev .beam, .ev .cellArr, .ev .stg, .ev .mem, .ev .hlt, .ev .mgt, .outs, .free] ⊆ L) (h_s : Frame L org s.m) :
    OutFrame L org (execMakeReadyStepEnd s env) := by
  delta execMakeReadyStepEnd
  refine act_fr (fun _ _ => ?_) h_s
  refine withEnv_fr (fun _ _ => ?_) ?_
  · replace hL := env_sub hL
    refine clocked_fr (fun _ _ => ?_) ?_
    · refine makeReadyStepEnd_fr (partsIn_sub (by decide) hL) ?_
      assumption
    · assumption
  · assumption

theorem execMrTimeout_fr {L : List Part} {org : Mach} {s} (hL : [.g, .msix, .clk, .boot, .mem, .mgt, .log, .job, .imp, .beams, .mpl, .cells, .sig, .heads, .stg, .ilk, .ev .glb, .ev .boot, .ev .imp, .ev .cellArr, .ev .stg, .ev .hlt, .ev .mgt, .outs, .free] ⊆ L) (h_s : Frame L org s.m) :
    OutFrame L org (execMrTimeout s) := by
  delta execMrTimeout
  refine act_fr (fun _ _ => ?_) h_s
  refine clocked_fr (fun _ _ => ?_) ?_
  · refine mrTimeout_fr (partsIn_sub (by decide) hL) ?_
    assumption
  · assumption

theorem execImageTimeout_fr {L : List Part} {org : Mach} {env s} (hL : [.g, .msix, .clk, .boot, .bytes, .mem, .mgt, .log, .time, .job, .imp, .beams, .mpl, .hmap, .cells, .sig, .heads, .stg, .ilk, .ev .glb, .ev .boot, .ev .job, .ev .imp, .ev .beam, .ev .cellArr, .ev .stg, .ev .mem, .ev .hlt, .ev .mgt, .outs, .free] ⊆ L) (h_s : Frame L org s.m) :
    OutFrame L org (execImageTimeout s env) := by
  delta execImageTimeout
  refine act_fr (fun _ _ => ?_) h_s
  refine withEnv_fr (fun _ _ => ?_) ?_
  · replace hL := env_sub hL
    refine clocked_fr (fun _ _ => ?_) ?_
    · refine imageTimeout_fr (partsIn_sub (by decide) hL) ?_
      assumption
    · assumption
  · assumption

end Sys2Proof.Machine
end

