-- ==== Sys2Proof/Laws/Frame/ImpOps.lean ====
section
/-!
SUPPORT. The parts of the device that the operations of Machine/ImpOps.lean can touch: one lemma per operation.
-/

namespace Sys2Proof.Machine

theorem chooseN_fr {L : List Part} {org : Mach} {b e n m} (hL : [.g, .msix, .clk, .boot, .bytes, .mem, .mgt, .log, .job, .imp, .beams, .mpl, .cells, .sig, .heads, .stg, .ilk, .ev .glb, .ev .boot, .ev .job, .ev .imp, .ev .cellArr, .ev .stg, .ev .mem, .ev .hlt, .ev .mgt, .outs, .free] ⊆ L) (h_m : Frame L org m) :
    Frame L org (chooseN b e n m).2 := by
  induction n generalizing m with
  | zero => exact h_m
  | succ n ih =>
    unfold chooseN
    split
    · exact h_m
    · split
      · exact ih (holdRun_fr (partsIn_sub (by decide) hL) (takeWork_fr (partsIn_sub (by decide) hL) (memRead_fr (partsIn_sub (by decide) hL) h_m)))
      · exact h_m

theorem weightsFollow_fr {L : List Part} {org : Mach} {m} (hL : [.msix, .bytes, .mem, .log, .job, .imp, .beams, .sig, .ev .job, .ev .imp, .ev .mgt, .outs] ⊆ L) (h_m : Frame L org m) :
    Frame L org (weightsFollow m) := by
  delta weightsFollow
  refine eachM_fr (fun _ _ _ => ?_) ?_
  · extract_lets x1
    refine Frame.ite ?_ ?_
    · assumption
    · refine impPut_fr (partsIn_sub (by decide) hL) ?_
      refine onImp_fr (partsIn_sub (by decide) hL) ?_
      assumption
  · assumption

theorem areaHold_fr {L : List Part} {org : Mach} {e m} (hL : [.g, .msix, .clk, .boot, .bytes, .mem, .mgt, .log, .job, .imp, .beams, .mpl, .cells, .sig, .heads, .stg, .ilk, .ev .glb, .ev .boot, .ev .job, .ev .imp, .ev .cellArr, .ev .stg, .ev .mem, .ev .hlt, .ev .mgt, .outs, .free] ⊆ L) (h_m : Frame L org m) :
    Frame L org (areaHold e m) := by
  delta areaHold
  extract_lets x1 x2 x3
  have hx3 : Frame L org x3 := by
    unfold x3
    refine eachM_fr (fun _ _ _ => ?_) ?_
    · refine memRead_fr (partsIn_sub (by decide) hL) ?_
      assumption
    · assumption
  clear_value x3
  refine eachM_fr (fun _ _ _ => ?_) ?_
  · extract_lets x4
    refine holdAll_fr (partsIn_sub (by decide) hL) ?_
    refine onImpAll_fr (partsIn_sub (by decide) hL) ?_
    assumption
  · assumption

theorem choiceRead_fr {L : List Part} {org : Mach} {e m} (hL : [.g, .msix, .clk, .boot, .bytes, .mem, .mgt, .log, .job, .imp, .beams, .mpl, .cells, .sig, .heads, .stg, .ilk, .ev .glb, .ev .boot, .ev .job, .ev .imp, .ev .cellArr, .ev .stg, .ev .mem, .ev .hlt, .ev .mgt, .outs, .free] ⊆ L) (h_m : Frame L org m) :
    Frame L org (choiceRead e m) := by
  delta choiceRead
  refine areaHold_fr (partsIn_sub (by decide) hL) ?_
  refine weightsFollow_fr (partsIn_sub (by decide) hL) ?_
  refine takeRecord_fr (partsIn_sub (by decide) hL) ?_
  assumption

theorem choiceTake_fr {L : List Part} {org : Mach} {b w0 m} (hL : [.g, .msix, .clk, .boot, .mem, .log, .imp, .beams, .mpl, .cells, .sig, .ev .boot, .ev .imp, .ev .beam, .ev .mgt, .outs] ⊆ L) (h_m : Frame L org m) :
    Frame L org (choiceTake b w0 m) := by
  delta choiceTake
  extract_lets x1 x2 x3 x4
  have hx4 : Frame L org x4 := by
    unfold x4
    refine takeWork_fr (partsIn_sub (by decide) hL) ?_
    assumption
  clear_value x4
  refine Frame.ite ?_ ?_
  · refine slugBegin_fr (partsIn_sub (by decide) hL) ?_
    assumption
  · refine joinNext_fr (partsIn_sub (by decide) hL) ?_
    refine onImp_fr (partsIn_sub (by decide) hL) ?_
    assumption

theorem choiceWait_fr {L : List Part} {org : Mach} {b m} (hL : [.g, .msix, .clk, .boot, .bytes, .mem, .mgt, .log, .time, .job, .imp, .beams, .mpl, .hmap, .cells, .sig, .heads, .stg, .ilk, .ev .glb, .ev .boot, .ev .job, .ev .imp, .ev .beam, .ev .cellArr, .ev .stg, .ev .mem, .ev .hlt, .ev .mgt, .outs, .free] ⊆ L) (h_m : Frame L org m) :
    Frame L org (choiceWait b m) := by
  delta choiceWait
  extract_lets x1 x2
  refine slugGone_fr (partsIn_sub (by decide) hL) ?_
  refine onImp_fr (partsIn_sub (by decide) hL) ?_
  assumption

theorem impChoice_fr {L : List Part} {org : Mach} {b e m0} (hL : [.g, .msix, .clk, .boot, .bytes, .mem, .mgt, .log, .time, .job, .imp, .beams, .mpl, .hmap, .cells, .sig, .heads, .stg, .ilk, .ev .glb, .ev .boot, .ev .job, .ev .imp, .ev .beam, .ev .cellArr, .ev .stg, .ev .mem, .ev .hlt, .ev .mgt, .outs, .free] ⊆ L) (h_m0 : Frame L org m0) :
    Frame L org (impChoice b e m0) := by
  delta impChoice
  refine Frame.ite ?_ ?_
  · assumption
  · extract_lets x1
    have hx1 : Frame L org x1 := by
      unfold x1
      refine choiceRead_fr (partsIn_sub (by decide) hL) ?_
      assumption
    clear_value x1
    refine Frame.ite ?_ ?_
    · refine slugGone_fr (partsIn_sub (by decide) hL) ?_
      assumption
    · split
      · rename_i heq
        refine Frame.let2 (l := L) (b := org) heq ?_ (fun _ => ?_)
        · refine chooseN_fr (partsIn_sub (by decide) hL) ?_
          assumption
        refine Frame.ite ?_ ?_
        · refine choiceTake_fr (partsIn_sub (by decide) hL) ?_
          assumption
        · assumption
      · rename_i heq
        refine Frame.let2 (l := L) (b := org) heq ?_ (fun _ => ?_)
        · refine chooseN_fr (partsIn_sub (by decide) hL) ?_
          assumption
        refine Frame.ite ?_ ?_
        · assumption
        · refine Frame.ite ?_ ?_
          · refine choiceWait_fr (partsIn_sub (by decide) hL) ?_
            assumption
          · refine slugGone_fr (partsIn_sub (by decide) hL) ?_
            assumption

theorem waitPrio_fr {L : List Part} {org : Mach} {b m} (hL : [.msix, .imp, .ev .imp, .outs] ⊆ L) (h_m : Frame L org m) :
    Frame L org (waitPrio b m) := by
  delta waitPrio
  split
  · refine Frame.ite ?_ ?_
    · refine raise_fr (partsIn_sub (by simp only [EvReg.kind]; decide) hL) ?_
      refine onImp_fr (partsIn_sub (by decide) hL) ?_
      assumption
    · assumption
  · assumption

theorem slugEndOp_fr {L : List Part} {org : Mach} {b m} (hL : [.g, .msix, .clk, .boot, .bytes, .mem, .mgt, .log, .time, .job, .imp, .beams, .mpl, .hmap, .cells, .sig, .heads, .stg, .ilk, .ev .glb, .ev .boot, .ev .job, .ev .imp, .ev .beam, .ev .cellArr, .ev .stg, .ev .mem, .ev .hlt, .ev .mgt, .outs, .free] ⊆ L) (h_m : Frame L org m) :
    Frame L org (slugEndOp b m) := by
  delta slugEndOp
  refine Frame.ite ?_ ?_
  · extract_lets x1 x2 x3 x4
    have hx3 : Frame L org x3 := by
      unfold x3
      refine recordEnd_fr (partsIn_sub (by decide) hL) ?_
      assumption
    clear_value x3
    have hx4 : Frame L org x4 := by
      unfold x4
      refine onBeam_fr (partsIn_sub (by decide) hL) ?_
      refine onImp_fr (partsIn_sub (by decide) hL) ?_
      assumption
    clear_value x4
    split
    · refine slugGone_fr (partsIn_sub (by decide) hL) ?_
      refine slugBegin_fr (partsIn_sub (by decide) hL) ?_
      assumption
    · split
      · refine slugGone_fr (partsIn_sub (by decide) hL) ?_
        refine onBeam_fr (partsIn_sub (by decide) hL) ?_
        refine restAt_fr (partsIn_sub (by decide) hL) ?_
        assumption
  · assumption

theorem impStatus_fr {L : List Part} {org : Mach} {b op result m} (hL : [.msix, .imp, .ev .glb, .ev .imp, .outs] ⊆ L) (h_m : Frame L org m) :
    Frame L org (impStatus b op result m) := by
  delta impStatus
  extract_lets x1
  have hx1 : Frame L org x1 := by
    unfold x1
    refine onImpAll_fr (partsIn_sub (by decide) hL) ?_
    assumption
  clear_value x1
  refine Frame.ite ?_ ?_
  · refine refuse_fr (partsIn_sub (by simp only [EvReg.kind]; decide) hL) ?_
    assumption
  · assumption

theorem impRetire_fr {L : List Part} {org : Mach} {b m} (hL : [.msix, .bytes, .mem, .log, .job, .imp, .beams, .mpl, .cells, .sig, .heads, .ilk, .ev .glb, .ev .job, .ev .imp, .ev .beam, .ev .mgt, .outs] ⊆ L) (h_m : Frame L org m) :
    Frame L org (impRetire b m) := by
  delta impRetire
  refine Frame.ite ?_ ?_
  · refine impStatus_fr (partsIn_sub (by decide) hL) ?_
    assumption
  · refine Frame.ite ?_ ?_
    · refine impStatus_fr (partsIn_sub (by decide) hL) ?_
      assumption
    · refine Frame.ite ?_ ?_
      · refine impStatus_fr (partsIn_sub (by decide) hL) ?_
        assumption
      · refine retire_fr (partsIn_sub (by decide) hL) ?_
        refine impStatus_fr (partsIn_sub (by decide) hL) ?_
        assumption

theorem impReturn_fr {L : List Part} {org : Mach} {b m} (hL : [.msix, .bytes, .mem, .log, .job, .imp, .beams, .cells, .sig, .ilk, .hlt, .ev .glb, .ev .job, .ev .imp, .ev .mgt, .outs] ⊆ L) (h_m : Frame L org m) :
    Frame L org (impReturn b m) := by
  delta impReturn
  extract_lets x1
  refine Frame.ite ?_ ?_
  · refine impStatus_fr (partsIn_sub (by decide) hL) ?_
    assumption
  · refine Frame.ite ?_ ?_
    · refine impStatus_fr (partsIn_sub (by decide) hL) ?_
      assumption
    · refine Frame.ite ?_ ?_
      · refine impStatus_fr (partsIn_sub (by decide) hL) ?_
        assumption
      · refine Frame.ite ?_ ?_
        · refine impStatus_fr (partsIn_sub (by decide) hL) ?_
          assumption
        · refine Frame.ite ?_ ?_
          · refine impStatus_fr (partsIn_sub (by decide) hL) ?_
            assumption
          · refine Frame.ite ?_ ?_
            · refine impStatus_fr (partsIn_sub (by decide) hL) ?_
              assumption
            · refine Frame.ite ?_ ?_
              · refine ctxRestartBeam_fr (partsIn_sub (by decide) hL) ?_
                refine onImp_fr (partsIn_sub (by decide) hL) ?_
                refine impStatus_fr (partsIn_sub (by decide) hL) ?_
                assumption
              · refine beamReturn_fr (partsIn_sub (by decide) hL) ?_
                refine ctxRestartBeam_fr (partsIn_sub (by decide) hL) ?_
                refine impStatus_fr (partsIn_sub (by decide) hL) ?_
                assumption

theorem impCmd_fr {L : List Part} {org : Mach} {w m} (hL : [.msix, .bytes, .mem, .log, .job, .imp, .beams, .mpl, .cells, .sig, .heads, .ilk, .hlt, .ev .glb, .ev .job, .ev .imp, .ev .beam, .ev .mgt, .outs] ⊆ L) (h_m : Frame L org m) :
    Frame L org (impCmd w m) := by
  delta impCmd
  extract_lets x1
  refine Frame.ite ?_ ?_
  · refine refuse_fr (partsIn_sub (by simp only [EvReg.kind]; decide) hL) ?_
    assumption
  · split
    · refine impRetire_fr (partsIn_sub (by decide) hL) ?_
      assumption
    · refine impReturn_fr (partsIn_sub (by decide) hL) ?_
      assumption
    · refine refuse_fr (partsIn_sub (by simp only [EvReg.kind]; decide) hL) ?_
      assumption

theorem returnEngaged_fr {L : List Part} {org : Mach} {b m} (hL : [.msix, .bytes, .mem, .log, .job, .imp, .beams, .sig, .ilk, .hlt, .ev .glb, .ev .job, .ev .imp, .ev .mgt, .outs] ⊆ L) (h_m : Frame L org m) :
    Frame L org (returnEngaged b m) := by
  delta returnEngaged
  refine Frame.ite ?_ ?_
  · refine beamReturn_fr (partsIn_sub (by decide) hL) ?_
    refine impStatus_fr (partsIn_sub (by decide) hL) ?_
    assumption
  · assumption

theorem returnTimeout_fr {L : List Part} {org : Mach} {b m} (hL : [.msix, .imp, .mpl, .cells, .sig, .heads, .ev .glb, .ev .imp, .outs] ⊆ L) (h_m : Frame L org m) :
    Frame L org (returnTimeout b m) := by
  delta returnTimeout
  refine Frame.ite ?_ ?_
  · refine impStatus_fr (partsIn_sub (by decide) hL) ?_
    refine eachM_fr (fun _ _ _ => ?_) ?_
    · refine ctxStop_fr (partsIn_sub (by decide) hL) ?_
      assumption
    · refine onImp_fr (partsIn_sub (by decide) hL) ?_
      assumption
  · assumption

theorem autoReturn_fr {L : List Part} {org : Mach} {b m} (hL : [.msix, .bytes, .mem, .log, .job, .imp, .beams, .cells, .sig, .ilk, .hlt, .ev .glb, .ev .job, .ev .imp, .ev .mgt, .outs] ⊆ L) (h_m : Frame L org m) :
    Frame L org (autoReturn b m) := by
  delta autoReturn
  extract_lets x1 x2
  refine Frame.ite ?_ ?_
  · refine beamReturn_fr (partsIn_sub (by decide) hL) ?_
    refine ctxRestartBeam_fr (partsIn_sub (by decide) hL) ?_
    assumption
  · assumption

theorem impDeferred_fr {L : List Part} {org : Mach} {m} (hL : [.g, .msix, .clk, .boot, .bytes, .mem, .mgt, .log, .time, .job, .imp, .beams, .mpl, .hmap, .cells, .sig, .heads, .stg, .ilk, .ev .glb, .ev .boot, .ev .job, .ev .imp, .ev .beam, .ev .cellArr, .ev .stg, .ev .mem, .ev .hlt, .ev .mgt, .outs, .free] ⊆ L) (h_m : Frame L org m) :
    Frame L org (impDeferred m) := by
  delta impDeferred
  refine slugGone_fr (partsIn_sub (by decide) hL) ?_
  refine entryScans_fr (partsIn_sub (by decide) hL) ?_
  refine scanClose_fr (partsIn_sub (by decide) hL) ?_
  refine impWaiter_fr (partsIn_sub (by decide) hL) ?_
  assumption

theorem scanDone_fr {L : List Part} {org : Mach} {e m} (hL : [.g, .msix, .clk, .boot, .bytes, .mem, .mgt, .log, .time, .job, .imp, .beams, .mpl, .hmap, .cells, .sig, .heads, .stg, .ilk, .ev .glb, .ev .boot, .ev .job, .ev .imp, .ev .beam, .ev .cellArr, .ev .stg, .ev .mem, .ev .hlt, .ev .mgt, .outs, .free] ⊆ L) (h_m : Frame L org m) :
    Frame L org (scanDone e m) := by
  delta scanDone
  split
  · extract_lets x1 x2
    have hx2 : Frame L org x2 := by
      unfold x2
      refine memRead_fr (partsIn_sub (by decide) hL) ?_
      assumption
    clear_value x2
    refine slugGone_fr (partsIn_sub (by decide) hL) ?_
    refine scanEnd_fr (partsIn_sub (by decide) hL) ?_
    assumption
  · refine scanEnd_fr (partsIn_sub (by decide) hL) ?_
    assumption
  · assumption

theorem impRelease_fr {L : List Part} {org : Mach} {p v m} (hL : [.g, .msix, .log, .imp, .ev .glb, .ev .mgt, .outs] ⊆ L) (h_m : Frame L org m) :
    Frame L org (impRelease p v m) := by
  delta impRelease
  extract_lets x1 x2 x3
  have hf_x3 : ∀ a0, Frame L org (x3 a0) := by
    intro a0
    unfold x3
    refine onImpAll_fr (partsIn_sub (by decide) hL) ?_
    assumption
  clear_value x3
  refine Frame.ite ?_ ?_
  · apply hf_x3
  · refine Frame.ite ?_ ?_
    · apply hf_x3
    · refine accErr_fr (partsIn_sub (by decide) hL) ?_
      assumption

theorem execImpChoice_fr {L : List Part} {org : Mach} {b ecc s} (hL : [.g, .msix, .clk, .boot, .bytes, .mem, .mgt, .log, .time, .job, .imp, .beams, .mpl, .hmap, .cells, .sig, .heads, .stg, .ilk, .ev .glb, .ev .boot, .ev .job, .ev .imp, .ev .beam, .ev .cellArr, .ev .stg, .ev .mem, .ev .hlt, .ev .mgt, .outs, .free] ⊆ L) (h_s : Frame L org s.m) :
    OutFrame L org (execImpChoice b ecc s) := by
  delta execImpChoice
  refine act_fr (fun _ _ => ?_) h_s
  refine withEnv_fr (fun _ _ => ?_) ?_
  · replace hL := env_sub hL
    refine clocked_fr (fun _ _ => ?_) ?_
    · refine impChoice_fr (partsIn_sub (by decide) hL) ?_
      assumption
    · assumption
  · assumption

theorem execSlugEnd_fr {L : List Part} {org : Mach} {b env s} (hL : [.g, .msix, .clk, .boot, .bytes, .mem, .mgt, .log, .time, .job, .imp, .beams, .mpl, .hmap, .cells, .sig, .heads, .stg, .ilk, .ev .glb, .ev .boot, .ev .job, .ev .imp, .ev .beam, .ev .cellArr, .ev .stg, .ev .mem, .ev .hlt, .ev .mgt, .outs, .free] ⊆ L) (h_s : Frame L org s.m) :
    OutFrame L org (execSlugEnd b s env) := by
  delta execSlugEnd
  refine act_fr (fun _ _ => ?_) h_s
  refine withEnv_fr (fun _ _ => ?_) ?_
  · replace hL := env_sub hL
    refine clocked_fr (fun _ _ => ?_) ?_
    · refine slugEndOp_fr (partsIn_sub (by decide) hL) ?_
      assumption
    · assumption
  · assumption

theorem execWaitPrioElapsed_fr {L : List Part} {org : Mach} {b s} (hL : [.msix, .imp, .ev .imp, .outs] ⊆ L) (h_s : Frame L org s.m) :
    OutFrame L org (execWaitPrioElapsed b s) := by
  delta execWaitPrioElapsed
  refine act_fr (fun _ _ => ?_) h_s
  refine clocked_fr (fun _ _ => ?_) ?_
  · refine waitPrio_fr (partsIn_sub (by decide) hL) ?_
    assumption
  · assumption

theorem execRetire_fr {L : List Part} {org : Mach} {p hi s} (hL : [.g, .msix, .bytes, .mem, .log, .job, .imp, .beams, .mpl, .cells, .sig, .heads, .ilk, .hlt, .ev .glb, .ev .job, .ev .imp, .ev .beam, .ev .mgt, .outs] ⊆ L) (h_s : Frame L org s.m) :
    OutFrame L org (execRetire p hi s) := by
  delta execRetire
  refine act_fr (fun _ _ => ?_) h_s
  refine writeGate_fr (partsIn_sub (by decide) hL) (fun _ _ => ?_) ?_
  · refine impCmd_fr (partsIn_sub (by decide) hL) ?_
    assumption
  · assumption

theorem execRetirementScanEnd_fr {L : List Part} {org : Mach} {ecc s} (hL : [.g, .msix, .clk, .boot, .bytes, .mem, .mgt, .log, .time, .job, .imp, .beams, .mpl, .hmap, .cells, .sig, .heads, .stg, .ilk, .ev .glb, .ev .boot, .ev .job, .ev .imp, .ev .beam, .ev .cellArr, .ev .stg, .ev .mem, .ev .hlt, .ev .mgt, .outs, .free] ⊆ L) (h_s : Frame L org s.m) :
    OutFrame L org (execRetirementScanEnd ecc s) := by
  delta execRetirementScanEnd
  refine act_fr (fun _ _ => ?_) h_s
  refine withEnv_fr (fun _ _ => ?_) ?_
  · replace hL := env_sub hL
    refine clocked_fr (fun _ _ => ?_) ?_
    · refine scanDone_fr (partsIn_sub (by decide) hL) ?_
      assumption
    · assumption
  · assumption

theorem execReturn_fr {L : List Part} {org : Mach} {p hi s} (hL : [.g, .msix, .bytes, .mem, .log, .job, .imp, .beams, .mpl, .cells, .sig, .heads, .ilk, .hlt, .ev .glb, .ev .job, .ev .imp, .ev .beam, .ev .mgt, .outs] ⊆ L) (h_s : Frame L org s.m) :
    OutFrame L org (execReturn p hi s) := by
  delta execReturn
  refine act_fr (fun _ _ => ?_) h_s
  refine writeGate_fr (partsIn_sub (by decide) hL) (fun _ _ => ?_) ?_
  · refine impCmd_fr (partsIn_sub (by decide) hL) ?_
    assumption
  · assumption

theorem execReturnEngaged_fr {L : List Part} {org : Mach} {b s} (hL : [.msix, .bytes, .mem, .log, .job, .imp, .beams, .sig, .ilk, .hlt, .ev .glb, .ev .job, .ev .imp, .ev .mgt, .outs] ⊆ L) (h_s : Frame L org s.m) :
    OutFrame L org (execReturnEngaged b s) := by
  delta execReturnEngaged
  refine act_fr (fun _ _ => ?_) h_s
  refine clocked_fr (fun _ _ => ?_) ?_
  · refine returnEngaged_fr (partsIn_sub (by decide) hL) ?_
    assumption
  · assumption

theorem execReturnTimeout_fr {L : List Part} {org : Mach} {b s} (hL : [.msix, .imp, .mpl, .cells, .sig, .heads, .ev .glb, .ev .imp, .outs] ⊆ L) (h_s : Frame L org s.m) :
    OutFrame L org (execReturnTimeout b s) := by
  delta execReturnTimeout
  refine act_fr (fun _ _ => ?_) h_s
  refine clocked_fr (fun _ _ => ?_) ?_
  · refine returnTimeout_fr (partsIn_sub (by decide) hL) ?_
    assumption
  · assumption

theorem execBeamAutoReturn_fr {L : List Part} {org : Mach} {b s} (hL : [.msix, .bytes, .mem, .log, .job, .imp, .beams, .cells, .sig, .ilk, .hlt, .ev .glb, .ev .job, .ev .imp, .ev .mgt, .outs] ⊆ L) (h_s : Frame L org s.m) :
    OutFrame L org (execBeamAutoReturn b s) := by
  delta execBeamAutoReturn
  refine act_fr (fun _ _ => ?_) h_s
  refine clocked_fr (fun _ _ => ?_) ?_
  · refine autoReturn_fr (partsIn_sub (by decide) hL) ?_
    assumption
  · assumption

theorem execImpRecRdWrite_fr {L : List Part} {org : Mach} {p v s} (hL : [.g, .msix, .log, .imp, .ev .glb, .ev .mgt, .outs] ⊆ L) (h_s : Frame L org s.m) :
    OutFrame L org (execImpRecRdWrite p v s) := by
  delta execImpRecRdWrite
  refine act_fr (fun _ _ => ?_) h_s
  refine writeGate_fr (partsIn_sub (by decide) hL) (fun _ _ => ?_) ?_
  · refine impRelease_fr (partsIn_sub (by decide) hL) ?_
    assumption
  · assumption

theorem execRecordEntryDeferred_fr {L : List Part} {org : Mach} {env s} (hL : [.g, .msix, .clk, .boot, .bytes, .mem, .mgt, .log, .time, .job, .imp, .beams, .mpl, .hmap, .cells, .sig, .heads, .stg, .ilk, .ev .glb, .ev .boot, .ev .job, .ev .imp, .ev .beam, .ev .cellArr, .ev .stg, .ev .mem, .ev .hlt, .ev .mgt, .outs, .free] ⊆ L) (h_s : Frame L org s.m) :
    OutFrame L org (execRecordEntryDeferred s env) := by
  delta execRecordEntryDeferred
  refine act_fr (fun _ _ => ?_) h_s
  refine withEnv_fr (fun _ _ => ?_) ?_
  · replace hL := env_sub hL
    refine clocked_fr (fun _ _ => ?_) ?_
    · refine impDeferred_fr (partsIn_sub (by decide) hL) ?_
      assumption
    · assumption
  · assumption

end Sys2Proof.Machine
end

