-- ==== Sys2Proof/Laws/Frame/MeltBase.lean ====
section
/-!
SUPPORT. The parts of the device that the operations of Machine/MeltBase.lean can touch: one lemma per operation.
-/

namespace Sys2Proof.Machine

theorem pdEntry_fr {L : List Part} {org : Mach} {b m} (hL : [.g, .msix, .clk, .boot, .bytes, .mem, .log, .beams, .mpl, .hmap, .cells, .sig, .ev .imp, .ev .hmap, .ev .mgt, .outs] ⊆ L) (h_m : Frame L org m) :
    Frame L org (pdEntry b m) := by
  delta pdEntry
  extract_lets x1 x2
  refine Frame.ite ?_ ?_
  · assumption
  · refine onMpl_fr (partsIn_sub (by decide) hL) ?_
    refine ringWrite_fr (partsIn_sub (by decide) hL) ?_
    assumption

theorem emissionEnd_fr {L : List Part} {org : Mach} {b m} (hL : [.g, .msix, .clk, .boot, .bytes, .mem, .log, .beams, .mpl, .hmap, .cells, .sig, .ev .imp, .ev .hmap, .ev .mgt, .outs] ⊆ L) (h_m : Frame L org m) :
    Frame L org (emissionEnd b m) := by
  delta emissionEnd
  extract_lets x1
  have hx1 : Frame L org x1 := by
    unfold x1
    refine pdEntry_fr (partsIn_sub (by decide) hL) ?_
    refine depositEnd_fr (partsIn_sub (by decide) hL) ?_
    assumption
  clear_value x1
  refine onMpl_fr (partsIn_sub (by decide) hL) ?_
  refine onBeam_fr (partsIn_sub (by decide) hL) ?_
  assumption

end Sys2Proof.Machine
end

