-- ==== Sys2Proof/Laws/Frame/MemOps.lean ====
section
/-!
SUPPORT. The parts of the device that the operations of Machine/MemOps.lean can touch: one lemma per operation.
-/

namespace Sys2Proof.Machine

theorem memRefuse_fr {L : List Part} {org : Mach} {m} (hL : [.msix, .ev .glb, .ev .mem, .outs] ⊆ L) (h_m : Frame L org m) :
    Frame L org (memRefuse m) := by
  delta memRefuse
  refine raise_fr (partsIn_sub (by simp only [EvReg.kind]; decide) hL) ?_
  refine cmdError_fr (partsIn_sub (by decide) hL) ?_
  assumption

theorem memCmd_fr {L : List Part} {org : Mach} {w m} (hL : [.msix, .mem, .ev .glb, .ev .mem, .outs] ⊆ L) (h_m : Frame L org m) :
    Frame L org (memCmd w m) := by
  delta memCmd
  refine Frame.ite ?_ ?_
  · refine memRefuse_fr (partsIn_sub (by decide) hL) ?_
    assumption
  · split
    · extract_lets x1 x2
      refine Frame.ite ?_ ?_
      · refine memRefuse_fr (partsIn_sub (by decide) hL) ?_
        assumption
      · refine onCh_fr (partsIn_sub (by decide) hL) ?_
        assumption
    · refine Frame.upd ?_ (.inr rfl) (.inr rfl) (.inr rfl) (.inr rfl) (.inr rfl) (.inr rfl) (.inr rfl) (.inr rfl) (.inr rfl) (.inl (hL (by decide))) (.inr rfl) (.inr rfl) (.inr rfl) (.inr rfl) (.inr rfl) (.inr rfl) (.inr rfl) (.inr rfl) (.inr rfl) (.inr rfl) (.inr rfl) (.inr rfl) (.inr rfl) (.inr rfl) (.inr rfl) (.inr rfl) rfl
      assumption
    · refine memRefuse_fr (partsIn_sub (by decide) hL) ?_
      assumption

theorem retrainRun_fr {L : List Part} {org : Mach} {c m} (hL : [.mem] ⊆ L) (h_m : Frame L org m) :
    Frame L org (retrainRun c m) := by
  delta retrainRun
  refine Frame.ite ?_ ?_
  · assumption
  · refine retrainNow_fr (partsIn_sub (by decide) hL) ?_
    assumption

theorem retrainEnd_fr {L : List Part} {org : Mach} {c ok rd wr m} (hL : [.msix, .mem, .log, .ev .glb, .ev .mem, .ev .mgt, .outs, .free] ⊆ L) (h_m : Frame L org m) :
    Frame L org (retrainEnd c ok rd wr m) := by
  delta retrainEnd
  refine Frame.ite ?_ ?_
  · assumption
  · refine Frame.ite ?_ ?_
    · refine repair_fr (partsIn_sub (by decide) hL) ?_
      refine raise_fr (partsIn_sub (by simp only [EvReg.kind]; decide) hL) ?_
      refine onCh_fr (partsIn_sub (by decide) hL) ?_
      assumption
    · refine logClass_fr (partsIn_sub (by decide) hL) ?_
      refine raise_fr (partsIn_sub (by simp only [EvReg.kind]; decide) hL) ?_
      refine onCh_fr (partsIn_sub (by decide) hL) ?_
      assumption

theorem acceptReads_fr {L : List Part} {org : Mach} {c rs m} (hL : [.mem] ⊆ L) (h_m : Frame L org m) :
    Frame L org (acceptReads c rs m) := by
  delta acceptReads
  refine onCh_fr (partsIn_sub (by decide) hL) ?_
  assumption

theorem refreshDue_fr {L : List Part} {org : Mach} {c bank reads m0} (hL : [.msix, .mem, .ev .mem, .outs] ⊆ L) (h_m0 : Frame L org m0) :
    Frame L org (refreshDue c bank reads m0) := by
  delta refreshDue
  refine Frame.ite ?_ ?_
  · assumption
  · extract_lets x1 x2 x3 x4
    have hx1 : Frame L org x1 := by
      unfold x1
      refine acceptReads_fr (partsIn_sub (by decide) hL) ?_
      assumption
    clear_value x1
    refine Frame.ite ?_ ?_
    · refine onCh_fr (partsIn_sub (by decide) hL) ?_
      assumption
    · refine onCh_fr (partsIn_sub (by decide) hL) ?_
      refine neighboursFirst_fr (partsIn_sub (by decide) hL) ?_
      assumption

theorem drainQueue_fr {L : List Part} {org : Mach} {c reads m0} (hL : [.msix, .mem, .ev .mem, .outs] ⊆ L) (h_m0 : Frame L org m0) :
    Frame L org (drainQueue c reads m0) := by
  delta drainQueue
  extract_lets x1 x2 x3
  have hx1 : Frame L org x1 := by
    unfold x1
    refine acceptReads_fr (partsIn_sub (by decide) hL) ?_
    assumption
  clear_value x1
  refine eachM_fr (fun _ _ _ => ?_) ?_
  · refine rowActivate_fr (partsIn_sub (by decide) hL) ?_
    assumption
  · refine onCh_fr (partsIn_sub (by decide) hL) ?_
    assumption

theorem hotRefresh_fr {L : List Part} {org : Mach} {c bank row m} (hL : [.msix, .mem, .ev .mem, .outs] ⊆ L) (h_m : Frame L org m) :
    Frame L org (hotRefresh c bank row m) := by
  delta hotRefresh
  refine Frame.ite ?_ ?_
  · refine neighbourRefresh_fr (partsIn_sub (by decide) hL) ?_
    assumption
  · assumption

theorem hotWindow_fr {L : List Part} {org : Mach} {m} (hL : [.g, .msix, .clk, .boot, .mem, .log, .beams, .cells, .sig, .ev .imp, .ev .mgt, .outs] ⊆ L) (h_m : Frame L org m) :
    Frame L org (hotWindow m) := by
  delta hotWindow
  refine takeRecord_fr (partsIn_sub (by decide) hL) ?_
  refine onCh_fr (partsIn_sub (by decide) hL) ?_
  refine onCh_fr (partsIn_sub (by decide) hL) ?_
  assumption

theorem scrubStart_fr {L : List Part} {org : Mach} {e m} (hL : [.g, .msix, .clk, .boot, .mem, .mgt, .log, .imp, .beams, .mpl, .cells, .sig, .heads, .stg, .ilk, .ev .glb, .ev .boot, .ev .imp, .ev .cellArr, .ev .stg, .ev .mem, .ev .hlt, .ev .mgt, .outs, .free] ⊆ L) (h_m : Frame L org m) :
    Frame L org (scrubStart e m) := by
  delta scrubStart
  refine Frame.ite ?_ ?_
  · assumption
  · extract_lets x1 x2 x3 x4
    have hx3 : Frame L org x3 := by
      unfold x3
      refine Frame.upd ?_ (.inr rfl) (.inr rfl) (.inr rfl) (.inr rfl) (.inr rfl) (.inr rfl) (.inr rfl) (.inr rfl) (.inr rfl) (.inl (hL (by decide))) (.inr rfl) (.inr rfl) (.inr rfl) (.inr rfl) (.inr rfl) (.inr rfl) (.inr rfl) (.inr rfl) (.inr rfl) (.inr rfl) (.inr rfl) (.inr rfl) (.inr rfl) (.inr rfl) (.inr rfl) (.inr rfl) rfl
      assumption
    clear_value x3
    refine eachM_fr (fun _ _ _ => ?_) ?_
    · refine ueFound_fr (partsIn_sub (by decide) hL) ?_
      assumption
    · refine eachM_fr (fun _ _ _ => ?_) ?_
      · refine ceFound_fr (partsIn_sub (by decide) hL) ?_
        assumption
      · assumption

theorem scrubDone_fr {L : List Part} {org : Mach} {m} (hL : [.msix, .mem, .ev .mem, .outs] ⊆ L) (h_m : Frame L org m) :
    Frame L org (scrubDone m) := by
  delta scrubDone
  refine Frame.ite ?_ ?_
  · assumption
  · refine raise_fr (partsIn_sub (by simp only [EvReg.kind]; decide) hL) ?_
    refine Frame.upd ?_ (.inr rfl) (.inr rfl) (.inr rfl) (.inr rfl) (.inr rfl) (.inr rfl) (.inr rfl) (.inr rfl) (.inr rfl) (.inl (hL (by decide))) (.inr rfl) (.inr rfl) (.inr rfl) (.inr rfl) (.inr rfl) (.inr rfl) (.inr rfl) (.inr rfl) (.inr rfl) (.inr rfl) (.inr rfl) (.inr rfl) (.inr rfl) (.inr rfl) (.inr rfl) (.inr rfl) rfl
    assumption

theorem execMemRetrain_fr {L : List Part} {org : Mach} {p hi s} (hL : [.g, .msix, .mem, .log, .ev .glb, .ev .mem, .ev .mgt, .outs] ⊆ L) (h_s : Frame L org s.m) :
    OutFrame L org (execMemRetrain p hi s) := by
  delta execMemRetrain
  refine act_fr (fun _ _ => ?_) h_s
  refine writeGate_fr (partsIn_sub (by decide) hL) (fun _ _ => ?_) ?_
  · refine memCmd_fr (partsIn_sub (by decide) hL) ?_
    assumption
  · assumption

theorem execScrubNow_fr {L : List Part} {org : Mach} {p hi s} (hL : [.g, .msix, .mem, .log, .ev .glb, .ev .mem, .ev .mgt, .outs] ⊆ L) (h_s : Frame L org s.m) :
    OutFrame L org (execScrubNow p hi s) := by
  delta execScrubNow
  refine act_fr (fun _ _ => ?_) h_s
  refine writeGate_fr (partsIn_sub (by decide) hL) (fun _ _ => ?_) ?_
  · refine memCmd_fr (partsIn_sub (by decide) hL) ?_
    assumption
  · assumption

theorem execRetrainRun_fr {L : List Part} {org : Mach} {c s} (hL : [.mem] ⊆ L) (h_s : Frame L org s.m) :
    OutFrame L org (execRetrainRun c s) := by
  delta execRetrainRun
  refine act_fr (fun _ _ => ?_) h_s
  refine retrainRun_fr (partsIn_sub (by decide) hL) ?_
  assumption

theorem execRefreshDue_fr {L : List Part} {org : Mach} {c bank reads s} (hL : [.msix, .mem, .ev .mem, .outs] ⊆ L) (h_s : Frame L org s.m) :
    OutFrame L org (execRefreshDue c bank reads s) := by
  delta execRefreshDue
  refine act_fr (fun _ _ => ?_) h_s
  refine refreshDue_fr (partsIn_sub (by decide) hL) ?_
  assumption

theorem execWriteQueueDrain_fr {L : List Part} {org : Mach} {c reads s} (hL : [.msix, .mem, .ev .mem, .outs] ⊆ L) (h_s : Frame L org s.m) :
    OutFrame L org (execWriteQueueDrain c reads s) := by
  delta execWriteQueueDrain
  refine act_fr (fun _ _ => ?_) h_s
  refine drainQueue_fr (partsIn_sub (by decide) hL) ?_
  assumption

theorem execHotRowRefresh_fr {L : List Part} {org : Mach} {c bank row s} (hL : [.msix, .mem, .ev .mem, .outs] ⊆ L) (h_s : Frame L org s.m) :
    OutFrame L org (execHotRowRefresh c bank row s) := by
  delta execHotRowRefresh
  refine act_fr (fun _ _ => ?_) h_s
  refine hotRefresh_fr (partsIn_sub (by decide) hL) ?_
  assumption

theorem execHotRowWindow_fr {L : List Part} {org : Mach} {s} (hL : [.g, .msix, .clk, .boot, .mem, .log, .beams, .cells, .sig, .ev .imp, .ev .mgt, .outs] ⊆ L) (h_s : Frame L org s.m) :
    OutFrame L org (execHotRowWindow s) := by
  delta execHotRowWindow
  refine act_fr (fun _ _ => ?_) h_s
  refine hotWindow_fr (partsIn_sub (by decide) hL) ?_
  assumption

theorem execScrubPassStart_fr {L : List Part} {org : Mach} {ecc s} (hL : [.g, .msix, .clk, .boot, .mem, .mgt, .log, .imp, .beams, .mpl, .cells, .sig, .heads, .stg, .ilk, .ev .glb, .ev .boot, .ev .imp, .ev .cellArr, .ev .stg, .ev .mem, .ev .hlt, .ev .mgt, .outs, .free] ⊆ L) (h_s : Frame L org s.m) :
    OutFrame L org (execScrubPassStart ecc s) := by
  delta execScrubPassStart
  refine act_fr (fun _ _ => ?_) h_s
  refine scrubStart_fr (partsIn_sub (by decide) hL) ?_
  assumption

theorem execScrubPassDone_fr {L : List Part} {org : Mach} {s} (hL : [.msix, .mem, .ev .mem, .outs] ⊆ L) (h_s : Frame L org s.m) :
    OutFrame L org (execScrubPassDone s) := by
  delta execScrubPassDone
  refine act_fr (fun _ _ => ?_) h_s
  refine scrubDone_fr (partsIn_sub (by decide) hL) ?_
  assumption

end Sys2Proof.Machine
end

