-- ==== Sys2Proof/Laws/Frame/MgtOps.lean ====
section
/-!
SUPPORT. The parts of the device that the operations of Machine/MgtOps.lean can touch: one lemma per operation.
-/

namespace Sys2Proof.Machine

theorem nvmAppend_fr {L : List Part} {org : Mach} {bad e m} (hL : [.msix, .log, .ev .mgt, .outs] ⊆ L) (h_m : Frame L org m) :
    Frame L org (nvmAppend bad e m) := by
  delta nvmAppend
  extract_lets x1 x2 x3 x4 x5 x6 x7 x8 x9
  have hx9 : Frame L org x9 := by
    unfold x9
    refine Frame.upd ?_ (.inr rfl) (.inr rfl) (.inr rfl) (.inr rfl) (.inr rfl) (.inr rfl) (.inr rfl) (.inr rfl) (.inr rfl) (.inr rfl) (.inr rfl) (.inl (hL (by decide))) (.inr rfl) (.inr rfl) (.inr rfl) (.inr rfl) (.inr rfl) (.inr rfl) (.inr rfl) (.inr rfl) (.inr rfl) (.inr rfl) (.inr rfl) (.inr rfl) (.inr rfl) (.inr rfl) rfl
    assumption
  clear_value x9
  refine Frame.ite ?_ ?_
  · refine Frame.upd ?_ (.inr rfl) (.inr rfl) (.inr rfl) (.inr rfl) (.inr rfl) (.inr rfl) (.inr rfl) (.inr rfl) (.inr rfl) (.inr rfl) (.inr rfl) (.inl (hL (by decide))) (.inr rfl) (.inr rfl) (.inr rfl) (.inr rfl) (.inr rfl) (.inr rfl) (.inr rfl) (.inr rfl) (.inr rfl) (.inr rfl) (.inr rfl) (.inr rfl) (.inr rfl) (.inr rfl) rfl
    assumption
  · refine whenM_fr (fun _ _ => ?_) ?_
    · refine raise_fr (partsIn_sub (by simp only [EvReg.kind]; decide) hL) ?_
      assumption
    · assumption

theorem logFlush_fr {L : List Part} {org : Mach} {bad m} (hL : [.msix, .log, .ev .mgt, .outs] ⊆ L) (h_m : Frame L org m) :
    Frame L org (logFlush bad m) := by
  delta logFlush
  refine eachM_fr (fun _ _ _ => ?_) ?_
  · refine nvmAppend_fr (partsIn_sub (by decide) hL) ?_
    assumption
  · refine Frame.upd ?_ (.inr rfl) (.inr rfl) (.inr rfl) (.inr rfl) (.inr rfl) (.inr rfl) (.inr rfl) (.inr rfl) (.inr rfl) (.inr rfl) (.inr rfl) (.inl (hL (by decide))) (.inr rfl) (.inr rfl) (.inr rfl) (.inr rfl) (.inr rfl) (.inr rfl) (.inr rfl) (.inr rfl) (.inr rfl) (.inr rfl) (.inr rfl) (.inr rfl) (.inr rfl) (.inr rfl) rfl
    assumption

theorem logStageCopy_fr {L : List Part} {org : Mach} {m} (hL : [.bytes, .mem, .log] ⊆ L) (h_m : Frame L org m) :
    Frame L org (logStageCopy m) := by
  delta logStageCopy
  split
  · assumption
  · refine Frame.ite ?_ ?_
    · assumption
    · extract_lets x1 x2
      refine memWrite_fr (partsIn_sub (by decide) hL) ?_
      refine Frame.upd ?_ (.inr rfl) (.inr rfl) (.inr rfl) (.inr rfl) (.inr rfl) (.inr rfl) (.inr rfl) (.inr rfl) (.inr rfl) (.inr rfl) (.inr rfl) (.inl (hL (by decide))) (.inr rfl) (.inr rfl) (.inr rfl) (.inr rfl) (.inr rfl) (.inr rfl) (.inr rfl) (.inr rfl) (.inr rfl) (.inr rfl) (.inr rfl) (.inr rfl) (.inr rfl) (.inr rfl) rfl
      assumption

theorem mbCmd_fr {L : List Part} {org : Mach} {p w m} (hL : [.msix, .mgt, .ev .glb, .outs] ⊆ L) (h_m : Frame L org m) :
    Frame L org (mbCmd p w m) := by
  delta mbCmd
  split
  · assumption
  · refine Frame.ite ?_ ?_
    · refine cmdError_fr (partsIn_sub (by decide) hL) ?_
      assumption
    · refine Frame.ite ?_ ?_
      · refine cmdError_fr (partsIn_sub (by decide) hL) ?_
        assumption
      · refine Frame.upd ?_ (.inr rfl) (.inr rfl) (.inr rfl) (.inr rfl) (.inr rfl) (.inr rfl) (.inr rfl) (.inr rfl) (.inr rfl) (.inr rfl) (.inl (hL (by decide))) (.inr rfl) (.inr rfl) (.inr rfl) (.inr rfl) (.inr rfl) (.inr rfl) (.inr rfl) (.inr rfl) (.inr rfl) (.inr rfl) (.inr rfl) (.inr rfl) (.inr rfl) (.inr rfl) (.inr rfl) rfl
        assumption

theorem mbDone_fr {L : List Part} {org : Mach} {result res m} (hL : [.msix, .mgt, .ev .mgt, .outs] ⊆ L) (h_m : Frame L org m) :
    Frame L org (mbDone result res m) := by
  delta mbDone
  refine raise_fr (partsIn_sub (by simp only [EvReg.kind]; decide) hL) ?_
  refine Frame.upd ?_ (.inr rfl) (.inr rfl) (.inr rfl) (.inr rfl) (.inr rfl) (.inr rfl) (.inr rfl) (.inr rfl) (.inr rfl) (.inr rfl) (.inl (hL (by decide))) (.inr rfl) (.inr rfl) (.inr rfl) (.inr rfl) (.inr rfl) (.inr rfl) (.inr rfl) (.inr rfl) (.inr rfl) (.inr rfl) (.inr rfl) (.inr rfl) (.inr rfl) (.inr rfl) (.inr rfl) rfl
  assumption

theorem netClose_fr {L : List Part} {org : Mach} {m} (hL : [.msix, .mgt, .ev .mgt, .outs] ⊆ L) (h_m : Frame L org m) :
    Frame L org (netClose m) := by
  delta netClose
  extract_lets x1 x2 x3
  have hx2 : Frame L org x2 := by
    unfold x2
    refine Frame.upd ?_ (.inr rfl) (.inr rfl) (.inr rfl) (.inr rfl) (.inr rfl) (.inr rfl) (.inr rfl) (.inr rfl) (.inr rfl) (.inr rfl) (.inl (hL (by decide))) (.inr rfl) (.inr rfl) (.inr rfl) (.inr rfl) (.inr rfl) (.inr rfl) (.inr rfl) (.inr rfl) (.inr rfl) (.inr rfl) (.inr rfl) (.inr rfl) (.inr rfl) (.inr rfl) (.inr rfl) rfl
    assumption
  clear_value x2
  refine Frame.ite ?_ ?_
  · refine raise_fr (partsIn_sub (by simp only [EvReg.kind]; decide) hL) ?_
    refine Frame.upd ?_ (.inr rfl) (.inr rfl) (.inr rfl) (.inr rfl) (.inr rfl) (.inr rfl) (.inr rfl) (.inr rfl) (.inr rfl) (.inr rfl) (.inl (hL (by decide))) (.inr rfl) (.inr rfl) (.inr rfl) (.inr rfl) (.inr rfl) (.inr rfl) (.inr rfl) (.inr rfl) (.inr rfl) (.inr rfl) (.inr rfl) (.inr rfl) (.inr rfl) (.inr rfl) (.inr rfl) rfl
    assumption
  · assumption

theorem mbLogFetch_fr {L : List Part} {org : Mach} {m} (hL : [.msix, .bytes, .mem, .mgt, .ev .mgt, .outs] ⊆ L) (h_m : Frame L org m) :
    Frame L org (mbLogFetch m) := by
  delta mbLogFetch
  extract_lets x1 x2 x3 x4 x5
  have hx5 : Frame L org x5 := by
    unfold x5
    refine memWrite_fr (partsIn_sub (by decide) hL) ?_
    assumption
  clear_value x5
  refine Frame.ite ?_ ?_
  · refine mbDone_fr (partsIn_sub (by decide) hL) ?_
    assumption
  · refine mbDone_fr (partsIn_sub (by decide) hL) ?_
    assumption

theorem mbReply_fr {L : List Part} {org : Mach} {m} (hL : [.msix, .aon, .bytes, .mem, .mgt, .log, .ev .mgt, .outs] ⊆ L) (h_m : Frame L org m) :
    Frame L org (mbReply m) := by
  delta mbReply
  refine Frame.ite ?_ ?_
  · assumption
  · extract_lets x1 x2 x3 x4
    have hx2 : Frame L org x2 := by
      unfold x2
      refine logFlush_fr (partsIn_sub (by decide) hL) ?_
      assumption
    clear_value x2
    split
    · refine mbDone_fr (partsIn_sub (by decide) hL) ?_
      assumption
    · refine mbDone_fr (partsIn_sub (by decide) hL) ?_
      assumption
    · refine mbLogFetch_fr (partsIn_sub (by decide) hL) ?_
      assumption
    · refine mbDone_fr (partsIn_sub (by decide) hL) ?_
      assumption
    · refine Frame.ite ?_ ?_
      · refine mbDone_fr (partsIn_sub (by decide) hL) ?_
        refine netClose_fr (partsIn_sub (by decide) hL) ?_
        assumption
      · refine Frame.ite ?_ ?_
        · refine mbDone_fr (partsIn_sub (by decide) hL) ?_
          assumption
        · refine mbDone_fr (partsIn_sub (by decide) hL) ?_
          refine Frame.upd ?_ (.inr rfl) (.inr rfl) (.inr rfl) (.inr rfl) (.inr rfl) (.inr rfl) (.inr rfl) (.inr rfl) (.inr rfl) (.inr rfl) (.inl (hL (by decide))) (.inr rfl) (.inr rfl) (.inr rfl) (.inr rfl) (.inr rfl) (.inr rfl) (.inr rfl) (.inr rfl) (.inr rfl) (.inr rfl) (.inr rfl) (.inr rfl) (.inr rfl) (.inr rfl) (.inr rfl) rfl
          assumption
    · refine Frame.ite ?_ ?_
      · refine mbDone_fr (partsIn_sub (by decide) hL) ?_
        assumption
      · refine mbDone_fr (partsIn_sub (by decide) hL) ?_
        refine Frame.upd ?_ (.inr rfl) (.inr rfl) (.inr rfl) (.inr rfl) (.inr rfl) (.inl (hL (by decide))) (.inr rfl) (.inr rfl) (.inr rfl) (.inr rfl) (.inr rfl) (.inr rfl) (.inr rfl) (.inr rfl) (.inr rfl) (.inr rfl) (.inr rfl) (.inr rfl) (.inr rfl) (.inr rfl) (.inr rfl) (.inr rfl) (.inr rfl) (.inr rfl) (.inr rfl) (.inr rfl) rfl
        assumption
    · refine mbDone_fr (partsIn_sub (by decide) hL) ?_
      assumption

theorem execEcho_fr {L : List Part} {org : Mach} {p hi s} (hL : [.g, .msix, .mgt, .log, .ev .glb, .ev .mgt, .outs] ⊆ L) (h_s : Frame L org s.m) :
    OutFrame L org (execEcho p hi s) := by
  delta execEcho
  refine act_fr (fun _ _ => ?_) h_s
  refine writeGate_fr (partsIn_sub (by decide) hL) (fun _ _ => ?_) ?_
  · refine mbCmd_fr (partsIn_sub (by decide) hL) ?_
    assumption
  · assumption

theorem execInfo_fr {L : List Part} {org : Mach} {p hi s} (hL : [.g, .msix, .mgt, .log, .ev .glb, .ev .mgt, .outs] ⊆ L) (h_s : Frame L org s.m) :
    OutFrame L org (execInfo p hi s) := by
  delta execInfo
  refine act_fr (fun _ _ => ?_) h_s
  refine writeGate_fr (partsIn_sub (by decide) hL) (fun _ _ => ?_) ?_
  · refine mbCmd_fr (partsIn_sub (by decide) hL) ?_
    assumption
  · assumption

theorem execLogFetch_fr {L : List Part} {org : Mach} {p hi s} (hL : [.g, .msix, .mgt, .log, .ev .glb, .ev .mgt, .outs] ⊆ L) (h_s : Frame L org s.m) :
    OutFrame L org (execLogFetch p hi s) := by
  delta execLogFetch
  refine act_fr (fun _ _ => ?_) h_s
  refine writeGate_fr (partsIn_sub (by decide) hL) (fun _ _ => ?_) ?_
  · refine mbCmd_fr (partsIn_sub (by decide) hL) ?_
    assumption
  · assumption

theorem execLogFlush_fr {L : List Part} {org : Mach} {p hi s} (hL : [.g, .msix, .mgt, .log, .ev .glb, .ev .mgt, .outs] ⊆ L) (h_s : Frame L org s.m) :
    OutFrame L org (execLogFlush p hi s) := by
  delta execLogFlush
  refine act_fr (fun _ _ => ?_) h_s
  refine writeGate_fr (partsIn_sub (by decide) hL) (fun _ _ => ?_) ?_
  · refine mbCmd_fr (partsIn_sub (by decide) hL) ?_
    assumption
  · assumption

theorem execNetArm_fr {L : List Part} {org : Mach} {p hi s} (hL : [.g, .msix, .mgt, .log, .ev .glb, .ev .mgt, .outs] ⊆ L) (h_s : Frame L org s.m) :
    OutFrame L org (execNetArm p hi s) := by
  delta execNetArm
  refine act_fr (fun _ _ => ?_) h_s
  refine writeGate_fr (partsIn_sub (by decide) hL) (fun _ _ => ?_) ?_
  · refine mbCmd_fr (partsIn_sub (by decide) hL) ?_
    assumption
  · assumption

theorem execRtcSet_fr {L : List Part} {org : Mach} {p hi s} (hL : [.g, .msix, .mgt, .log, .ev .glb, .ev .mgt, .outs] ⊆ L) (h_s : Frame L org s.m) :
    OutFrame L org (execRtcSet p hi s) := by
  delta execRtcSet
  refine act_fr (fun _ _ => ?_) h_s
  refine writeGate_fr (partsIn_sub (by decide) hL) (fun _ _ => ?_) ?_
  · refine mbCmd_fr (partsIn_sub (by decide) hL) ?_
    assumption
  · assumption

theorem execMbReply_fr {L : List Part} {org : Mach} {s} (hL : [.msix, .aon, .bytes, .mem, .mgt, .log, .ev .mgt, .outs] ⊆ L) (h_s : Frame L org s.m) :
    OutFrame L org (execMbReply s) := by
  delta execMbReply
  refine act_fr (fun _ _ => ?_) h_s
  refine mbReply_fr (partsIn_sub (by decide) hL) ?_
  assumption

theorem execLogStageCopy_fr {L : List Part} {org : Mach} {s} (hL : [.bytes, .mem, .log] ⊆ L) (h_s : Frame L org s.m) :
    OutFrame L org (execLogStageCopy s) := by
  delta execLogStageCopy
  refine act_fr (fun _ _ => ?_) h_s
  refine logStageCopy_fr (partsIn_sub (by decide) hL) ?_
  assumption

theorem execLogNvmFlush_fr {L : List Part} {org : Mach} {bad s} (hL : [.msix, .log, .ev .mgt, .outs] ⊆ L) (h_s : Frame L org s.m) :
    OutFrame L org (execLogNvmFlush bad s) := by
  delta execLogNvmFlush
  refine act_fr (fun _ _ => ?_) h_s
  refine logFlush_fr (partsIn_sub (by decide) hL) ?_
  assumption

theorem watchdog_fr {L : List Part} {org : Mach} {digestOk m} (hL : [.g, .msix, .clk, .boot, .mem, .mgt, .log, .imp, .beams, .mpl, .cells, .sig, .heads, .stg, .ilk, .ev .glb, .ev .boot, .ev .imp, .ev .cellArr, .ev .stg, .ev .hlt, .ev .mgt, .outs, .free] ⊆ L) (h_m : Frame L org m) :
    Frame L org (watchdog digestOk m) := by
  delta watchdog
  refine Frame.ite ?_ ?_
  · assumption
  · extract_lets x1 x2 x3 x4
    have hx3 : Frame L org x3 := by
      unfold x3
      refine raise_fr (partsIn_sub (by simp only [EvReg.kind]; decide) hL) ?_
      refine Frame.upd ?_ (.inr rfl) (.inr rfl) (.inr rfl) (.inr rfl) (.inr rfl) (.inr rfl) (.inr rfl) (.inr rfl) (.inr rfl) (.inr rfl) (.inl (hL (by decide))) (.inr rfl) (.inr rfl) (.inr rfl) (.inr rfl) (.inr rfl) (.inr rfl) (.inr rfl) (.inr rfl) (.inr rfl) (.inr rfl) (.inr rfl) (.inr rfl) (.inr rfl) (.inr rfl) (.inr rfl) rfl
      assumption
    clear_value x3
    have hx4 : Frame L org x4 := by
      unfold x4
      refine repair_fr (partsIn_sub (by decide) hL) ?_
      assumption
    clear_value x4
    refine Frame.ite ?_ ?_
    · refine faultSafeHold_fr (partsIn_sub (by decide) hL) ?_
      assumption
    · refine Frame.ite ?_ ?_
      · refine mbDone_fr (partsIn_sub (by decide) hL) ?_
        assumption
      · assumption

theorem execMgmtWatchdogExpire_fr {L : List Part} {org : Mach} {digestOk s} (hL : [.g, .msix, .clk, .boot, .mem, .mgt, .log, .imp, .beams, .mpl, .cells, .sig, .heads, .stg, .ilk, .ev .glb, .ev .boot, .ev .imp, .ev .cellArr, .ev .stg, .ev .hlt, .ev .mgt, .outs, .free] ⊆ L) (h_s : Frame L org s.m) :
    OutFrame L org (execMgmtWatchdogExpire digestOk s) := by
  delta execMgmtWatchdogExpire
  refine act_fr (fun _ _ => ?_) h_s
  refine watchdog_fr (partsIn_sub (by decide) hL) ?_
  assumption

theorem netSend_fr {L : List Part} {org : Mach} {ip type id off len data m} (hL : [.outs] ⊆ L) (h_m : Frame L org m) :
    Frame L org (netSend ip type id off len data m) := by
  delta netSend
  refine emit_fr (partsIn_sub (by decide) hL) ?_
  assumption

theorem netBegin_fr {L : List Part} {org : Mach} {sender id len m} (hL : [.mgt, .outs] ⊆ L) (h_m : Frame L org m) :
    Frame L org (netBegin sender id len m) := by
  delta netBegin
  refine Frame.ite ?_ ?_
  · assumption
  · refine Frame.ite ?_ ?_
    · refine netSend_fr (partsIn_sub (by decide) hL) ?_
      assumption
    · refine Frame.upd ?_ (.inr rfl) (.inr rfl) (.inr rfl) (.inr rfl) (.inr rfl) (.inr rfl) (.inr rfl) (.inr rfl) (.inr rfl) (.inr rfl) (.inl (hL (by decide))) (.inr rfl) (.inr rfl) (.inr rfl) (.inr rfl) (.inr rfl) (.inr rfl) (.inr rfl) (.inr rfl) (.inr rfl) (.inr rfl) (.inr rfl) (.inr rfl) (.inr rfl) (.inr rfl) (.inr rfl) rfl
      assumption

theorem netData_fr {L : List Part} {org : Mach} {sender id off bs m} (hL : [.bytes, .mem, .mgt, .outs] ⊆ L) (h_m : Frame L org m) :
    Frame L org (netData sender id off bs m) := by
  delta netData
  split
  · assumption
  · refine Frame.ite ?_ ?_
    · assumption
    · extract_lets x1 x2 x3
      have hx3 : Frame L org x3 := by
        unfold x3
        refine memWrite_fr (partsIn_sub (by decide) hL) ?_
        refine Frame.upd ?_ (.inr rfl) (.inr rfl) (.inr rfl) (.inr rfl) (.inr rfl) (.inr rfl) (.inr rfl) (.inr rfl) (.inr rfl) (.inr rfl) (.inl (hL (by decide))) (.inr rfl) (.inr rfl) (.inr rfl) (.inr rfl) (.inr rfl) (.inr rfl) (.inr rfl) (.inr rfl) (.inr rfl) (.inr rfl) (.inr rfl) (.inr rfl) (.inr rfl) (.inr rfl) (.inr rfl) rfl
        assumption
      clear_value x3
      refine netSend_fr (partsIn_sub (by decide) hL) ?_
      assumption

theorem netEnd_fr {L : List Part} {org : Mach} {sender id m} (hL : [.msix, .boot, .mgt, .ev .glb, .ev .boot, .ev .mgt, .outs] ⊆ L) (h_m : Frame L org m) :
    Frame L org (netEnd sender id m) := by
  delta netEnd
  split
  · assumption
  · refine Frame.ite ?_ ?_
    · assumption
    · refine Frame.ite ?_ ?_
      · refine raise_fr (partsIn_sub (by simp only [EvReg.kind]; decide) hL) ?_
        refine netSend_fr (partsIn_sub (by decide) hL) ?_
        refine Frame.upd ?_ (.inr rfl) (.inr rfl) (.inr rfl) (.inr rfl) (.inr rfl) (.inr rfl) (.inr rfl) (.inr rfl) (.inr rfl) (.inr rfl) (.inl (hL (by decide))) (.inr rfl) (.inr rfl) (.inr rfl) (.inr rfl) (.inr rfl) (.inr rfl) (.inr rfl) (.inr rfl) (.inr rfl) (.inr rfl) (.inr rfl) (.inr rfl) (.inr rfl) (.inr rfl) (.inr rfl) rfl
        assumption
      · extract_lets x1 x2
        refine updStart_fr (partsIn_sub (by decide) hL) ?_
        refine Frame.upd ?_ (.inr rfl) (.inr rfl) (.inr rfl) (.inr rfl) (.inr rfl) (.inr rfl) (.inr rfl) (.inl (hL (by decide))) (.inr rfl) (.inr rfl) (.inr rfl) (.inr rfl) (.inr rfl) (.inr rfl) (.inr rfl) (.inr rfl) (.inr rfl) (.inr rfl) (.inr rfl) (.inr rfl) (.inr rfl) (.inr rfl) (.inr rfl) (.inr rfl) (.inr rfl) (.inr rfl) rfl
        assumption

theorem netLogReq_fr {L : List Part} {org : Mach} {sender id first n m} (hL : [.outs] ⊆ L) (h_m : Frame L org m) :
    Frame L org (netLogReq sender id first n m) := by
  delta netLogReq
  refine Frame.ite ?_ ?_
  · assumption
  · extract_lets x1
    refine netSend_fr (partsIn_sub (by decide) hL) ?_
    assumption

theorem netIdle_fr {L : List Part} {org : Mach} {m} (hL : [.msix, .mgt, .ev .mgt, .outs] ⊆ L) (h_m : Frame L org m) :
    Frame L org (netIdle m) := by
  delta netIdle
  refine Frame.ite ?_ ?_
  · refine raise_fr (partsIn_sub (by simp only [EvReg.kind]; decide) hL) ?_
    refine Frame.upd ?_ (.inr rfl) (.inr rfl) (.inr rfl) (.inr rfl) (.inr rfl) (.inr rfl) (.inr rfl) (.inr rfl) (.inr rfl) (.inr rfl) (.inl (hL (by decide))) (.inr rfl) (.inr rfl) (.inr rfl) (.inr rfl) (.inr rfl) (.inr rfl) (.inr rfl) (.inr rfl) (.inr rfl) (.inr rfl) (.inr rfl) (.inr rfl) (.inr rfl) (.inr rfl) (.inr rfl) rfl
    assumption
  · assumption

theorem ethLos_fr {L : List Part} {org : Mach} {p los m} (hL : [.mgt, .log] ⊆ L) (h_m : Frame L org m) :
    Frame L org (ethLos p los m) := by
  delta ethLos
  extract_lets x1
  refine Frame.upd ?_ (.inr rfl) (.inr rfl) (.inr rfl) (.inr rfl) (.inr rfl) (.inr rfl) (.inr rfl) (.inr rfl) (.inr rfl) (.inr rfl) (.inl (hL (by decide))) (.inl (hL (by decide))) (.inr rfl) (.inr rfl) (.inr rfl) (.inr rfl) (.inr rfl) (.inr rfl) (.inr rfl) (.inr rfl) (.inr rfl) (.inr rfl) (.inr rfl) (.inr rfl) (.inr rfl) (.inr rfl) rfl
  assumption

theorem execUpdBegin_fr {L : List Part} {org : Mach} {sender id len s} (hL : [.mgt, .outs] ⊆ L) (h_s : Frame L org s.m) :
    OutFrame L org (execUpdBegin sender id len s) := by
  delta execUpdBegin
  refine act_fr (fun _ _ => ?_) h_s
  refine netBegin_fr (partsIn_sub (by decide) hL) ?_
  assumption

theorem execUpdData_fr {L : List Part} {org : Mach} {sender id off bytes s} (hL : [.bytes, .mem, .mgt, .outs] ⊆ L) (h_s : Frame L org s.m) :
    OutFrame L org (execUpdData sender id off bytes s) := by
  delta execUpdData
  refine act_fr (fun _ _ => ?_) h_s
  refine netData_fr (partsIn_sub (by decide) hL) ?_
  assumption

theorem execUpdEnd_fr {L : List Part} {org : Mach} {sender id s} (hL : [.msix, .boot, .mgt, .ev .glb, .ev .boot, .ev .mgt, .outs] ⊆ L) (h_s : Frame L org s.m) :
    OutFrame L org (execUpdEnd sender id s) := by
  delta execUpdEnd
  refine act_fr (fun _ _ => ?_) h_s
  refine netEnd_fr (partsIn_sub (by decide) hL) ?_
  assumption

theorem execLogReq_fr {L : List Part} {org : Mach} {sender id first count s} (hL : [.outs] ⊆ L) (h_s : Frame L org s.m) :
    OutFrame L org (execLogReq sender id first count s) := by
  delta execLogReq
  refine act_fr (fun _ _ => ?_) h_s
  refine netLogReq_fr (partsIn_sub (by decide) hL) ?_
  assumption

theorem execNetTransferIdle_fr {L : List Part} {org : Mach} {s} (hL : [.msix, .mgt, .ev .mgt, .outs] ⊆ L) (h_s : Frame L org s.m) :
    OutFrame L org (execNetTransferIdle s) := by
  delta execNetTransferIdle
  refine act_fr (fun _ _ => ?_) h_s
  refine netIdle_fr (partsIn_sub (by decide) hL) ?_
  assumption

theorem execNetWindowClose_fr {L : List Part} {org : Mach} {s} (hL : [.msix, .mgt, .ev .mgt, .outs] ⊆ L) (h_s : Frame L org s.m) :
    OutFrame L org (execNetWindowClose s) := by
  delta execNetWindowClose
  refine act_fr (fun _ _ => ?_) h_s
  refine netClose_fr (partsIn_sub (by decide) hL) ?_
  assumption

theorem execEthLos_fr {L : List Part} {org : Mach} {p los s} (hL : [.mgt, .log] ⊆ L) (h_s : Frame L org s.m) :
    OutFrame L org (execEthLos p los s) := by
  delta execEthLos
  refine act_fr (fun _ _ => ?_) h_s
  refine ethLos_fr (partsIn_sub (by decide) hL) ?_
  assumption

end Sys2Proof.Machine
end

