-- ==== Sys2Proof/Laws/Frame/LaneRx.lean ====
section
/-!
SUPPORT. The parts of the device that the operations of Machine/LaneRx.lean can touch: one lemma per operation.
-/

namespace Sys2Proof.Machine

theorem frameUsed_fr {L : List Part} {org : Mach} {h fseq m} (hL : [.heads] ⊆ L) (h_m : Frame L org m) :
    Frame L org (frameUsed h fseq m) := by
  delta frameUsed
  refine onHead_fr (partsIn_sub (by decide) hL) ?_
  assumption

theorem floodDrop_fr {L : List Part} {org : Mach} {l type b m} (hL : [.msix, .lanes, .heads, .ev .lane, .outs] ⊆ L) (h_m : Frame L org m) :
    Frame L org (floodDrop l type b m) := by
  delta floodDrop
  extract_lets x1 x2
  have hx2 : Frame L org x2 := by
    unfold x2
    refine setBucket_fr (partsIn_sub (by decide) hL) ?_
    refine onLane_fr (partsIn_sub (by decide) hL) ?_
    assumption
  clear_value x2
  refine whenM_fr (fun _ _ => ?_) ?_
  · refine raise_fr (partsIn_sub (by simp only [EvReg.kind]; decide) hL) ?_
    assumption
  · assumption

theorem rxFrame_fr {L : List Part} {org : Mach} {l type f use m} (hL : [.msix, .lanes, .heads, .ev .lane, .outs] ⊆ L) (hf_use : ∀ m, Frame L org m → Frame L org (use m)) (h_m : Frame L org m) :
    Frame L org (rxFrame l type f use m) := by
  delta rxFrame
  extract_lets x1 x2 x3
  split
  · refine Frame.ite ?_ ?_
    · assumption
    · split
      · refine raise_fr (partsIn_sub (by simp only [EvReg.kind]; decide) hL) ?_
        refine onLane_fr (partsIn_sub (by decide) hL) ?_
        assumption
      · refine onLane_fr (partsIn_sub (by decide) hL) ?_
        assumption
      · refine onLane_fr (partsIn_sub (by decide) hL) ?_
        assumption
      · refine Frame.ite ?_ ?_
        · refine onLane_fr (partsIn_sub (by decide) hL) ?_
          assumption
        · refine Frame.ite ?_ ?_
          · assumption
          · refine Frame.ite ?_ ?_
            · refine onLane_fr (partsIn_sub (by decide) hL) ?_
              assumption
            · refine Frame.ite ?_ ?_
              · refine frameUsed_fr (partsIn_sub (by decide) hL) ?_
                refine floodDrop_fr (partsIn_sub (by decide) hL) ?_
                assumption
              · apply hf_use
                refine frameUsed_fr (partsIn_sub (by decide) hL) ?_
                refine setBucket_fr (partsIn_sub (by decide) hL) ?_
                assumption

theorem sigBlock_fr {L : List Part} {org : Mach} {base t bs n m} (hL : [.sig] ⊆ L) (h_m : Frame L org m) :
    Frame L org (sigBlock base t bs n m) := by
  delta sigBlock
  refine eachM_fr (fun _ _ _ => ?_) ?_
  · refine sigWriteAt_fr (partsIn_sub (by decide) hL) ?_
    assumption
  · assumption

theorem execPosFrame_fr {L : List Part} {org : Mach} {l f s} (hL : [.msix, .sig, .lanes, .heads, .ev .lane, .outs] ⊆ L) (h_s : Frame L org s.m) :
    OutFrame L org (execPosFrame l f s) := by
  delta execPosFrame
  refine act_fr (fun _ _ => ?_) h_s
  refine rxFrame_fr (partsIn_sub (by decide) hL) (fun _ _ => ?_) ?_
  · refine sigBlock_fr (partsIn_sub (by decide) hL) ?_
    assumption
  · assumption

theorem execAuxValFrame_fr {L : List Part} {org : Mach} {l f s} (hL : [.msix, .sig, .lanes, .heads, .ev .lane, .outs] ⊆ L) (h_s : Frame L org s.m) :
    OutFrame L org (execAuxValFrame l f s) := by
  delta execAuxValFrame
  refine act_fr (fun _ _ => ?_) h_s
  refine rxFrame_fr (partsIn_sub (by decide) hL) (fun _ _ => ?_) ?_
  · refine sigBlock_fr (partsIn_sub (by decide) hL) ?_
    assumption
  · assumption

theorem imgCheck_fr {L : List Part} {org : Mach} {l m} (hL : [.g, .msix, .clk, .boot, .bytes, .mem, .mgt, .log, .time, .job, .imp, .beams, .mpl, .hmap, .cells, .sig, .heads, .stg, .ilk, .ev .glb, .ev .boot, .ev .job, .ev .imp, .ev .beam, .ev .cellArr, .ev .lane, .ev .stg, .ev .mem, .ev .hlt, .ev .mgt, .outs, .free] ⊆ L) (h_m : Frame L org m) :
    Frame L org (imgCheck l m) := by
  delta imgCheck
  extract_lets x1
  split
  · refine Frame.ite ?_ ?_
    · refine imageArrived_fr (partsIn_sub (by decide) hL) ?_
      refine raise_fr (partsIn_sub (by simp only [EvReg.kind]; decide) hL) ?_
      refine onHead_fr (partsIn_sub (by decide) hL) ?_
      assumption
    · assumption
  · assumption

theorem imgBegin_fr {L : List Part} {org : Mach} {l bs m} (hL : [.g, .msix, .clk, .boot, .bytes, .mem, .mgt, .log, .time, .job, .imp, .beams, .mpl, .hmap, .cells, .sig, .heads, .stg, .ilk, .ev .glb, .ev .boot, .ev .job, .ev .imp, .ev .beam, .ev .cellArr, .ev .lane, .ev .stg, .ev .mem, .ev .hlt, .ev .mgt, .outs, .free] ⊆ L) (h_m : Frame L org m) :
    Frame L org (imgBegin l bs m) := by
  delta imgBegin
  extract_lets x1 x2 x3
  split
  · extract_lets x4 x5
    have hx5 : Frame L org x5 := by
      unfold x5
      refine onHead_fr (partsIn_sub (by decide) hL) ?_
      assumption
    clear_value x5
    refine Frame.ite ?_ ?_
    · refine raise_fr (partsIn_sub (by simp only [EvReg.kind]; decide) hL) ?_
      assumption
    · refine Frame.ite ?_ ?_
      · assumption
      · refine imgCheck_fr (partsIn_sub (by decide) hL) ?_
        refine memWrite_fr (partsIn_sub (by decide) hL) ?_
        assumption

theorem imgSeg_fr {L : List Part} {org : Mach} {l bs m} (hL : [.g, .msix, .clk, .boot, .bytes, .mem, .mgt, .log, .time, .job, .imp, .beams, .mpl, .hmap, .cells, .sig, .heads, .stg, .ilk, .ev .glb, .ev .boot, .ev .job, .ev .imp, .ev .beam, .ev .cellArr, .ev .lane, .ev .stg, .ev .mem, .ev .hlt, .ev .mgt, .outs, .free] ⊆ L) (h_m : Frame L org m) :
    Frame L org (imgSeg l bs m) := by
  delta imgSeg
  extract_lets x1 x2 x3 x4
  split
  · split
    · refine Frame.ite ?_ ?_
      · assumption
      · extract_lets x5
        refine imgCheck_fr (partsIn_sub (by decide) hL) ?_
        refine memWrite_fr (partsIn_sub (by decide) hL) ?_
        refine onHead_fr (partsIn_sub (by decide) hL) ?_
        assumption
    · assumption

theorem execImgBeginFrame_fr {L : List Part} {org : Mach} {l f s} (hL : [.g, .msix, .clk, .boot, .bytes, .mem, .mgt, .log, .time, .job, .imp, .beams, .mpl, .hmap, .cells, .sig, .lanes, .heads, .stg, .ilk, .ev .glb, .ev .boot, .ev .job, .ev .imp, .ev .beam, .ev .cellArr, .ev .lane, .ev .stg, .ev .mem, .ev .hlt, .ev .mgt, .outs, .free] ⊆ L) (h_s : Frame L org s.m) :
    OutFrame L org (execImgBeginFrame l f s) := by
  delta execImgBeginFrame
  refine act_fr (fun _ _ => ?_) h_s
  refine rxFrame_fr (partsIn_sub (by decide) hL) (fun _ _ => ?_) ?_
  · refine imgBegin_fr (partsIn_sub (by decide) hL) ?_
    assumption
  · assumption

theorem execImgSegFrame_fr {L : List Part} {org : Mach} {l f env s} (hL : [.g, .msix, .clk, .boot, .bytes, .mem, .mgt, .log, .time, .job, .imp, .beams, .mpl, .hmap, .cells, .sig, .lanes, .heads, .stg, .ilk, .ev .glb, .ev .boot, .ev .job, .ev .imp, .ev .beam, .ev .cellArr, .ev .lane, .ev .stg, .ev .mem, .ev .hlt, .ev .mgt, .outs, .free] ⊆ L) (h_s : Frame L org s.m) :
    OutFrame L org (execImgSegFrame l f s env) := by
  delta execImgSegFrame
  refine act_fr (fun _ _ => ?_) h_s
  refine withEnv_fr (fun _ _ => ?_) ?_
  · replace hL := env_sub hL
    refine rxFrame_fr (partsIn_sub (by decide) hL) (fun _ _ => ?_) ?_
    · refine imgSeg_fr (partsIn_sub (by decide) hL) ?_
      assumption
    · assumption
  · assumption

end Sys2Proof.Machine
end

