-- ==== Sys2Proof/Laws/Frame/MeltPd.lean ====
section
/-!
SUPPORT. The parts of the device that the operations of Machine/MeltPd.lean can touch: one lemma per operation.
-/

namespace Sys2Proof.Machine

theorem windowValues_fr {L : List Part} {org : Mach} {b k ss m} (hL : [.g, .msix, .clk, .boot, .bytes, .mem, .log, .beams, .mpl, .hmap, .cells, .sig, .ev .imp, .ev .mpl, .ev .hmap, .ev .mgt, .outs] ⊆ L) (h_m : Frame L org m) :
    Frame L org (windowValues b k ss m) := by
  delta windowValues
  extract_lets x1 x2 x3 x4 x5 x6 x7 x8 x9 x10 x11 x12 x13 x14 x15 x16 x17 x18 x19 x20
  have hx18 : Frame L org x18 := by
    unfold x18
    refine onMpl_fr (partsIn_sub (by decide) hL) ?_
    assumption
  clear_value x18
  have hx19 : Frame L org x19 := by
    unfold x19
    refine whenM_fr (fun _ _ => ?_) ?_
    · refine mplRaise_fr (partsIn_sub (by decide) hL) ?_
      assumption
    · assumption
  clear_value x19
  refine whenM_fr (fun _ _ => ?_) ?_
  · refine mplRaise_fr (partsIn_sub (by decide) hL) ?_
    refine onMpl_fr (partsIn_sub (by decide) hL) ?_
    assumption
  · assumption

theorem windowRuns_fr {L : List Part} {org : Mach} {b t m} (hL : [.mpl] ⊆ L) (h_m : Frame L org m) :
    Frame L org (windowRuns b t m) := by
  delta windowRuns
  extract_lets x1 x2 x3 x4 x5
  refine onMpl_fr (partsIn_sub (by decide) hL) ?_
  assumption

theorem windowTrim_fr {L : List Part} {org : Mach} {b t m} (hL : [.mpl] ⊆ L) (h_m : Frame L org m) :
    Frame L org (windowTrim b t m) := by
  delta windowTrim
  extract_lets x1 x2 x3
  refine onMpl_fr (partsIn_sub (by decide) hL) ?_
  assumption

theorem windowSignals_fr {L : List Part} {org : Mach} {b t m} (hL : [.sig] ⊆ L) (h_m : Frame L org m) :
    Frame L org (windowSignals b t m) := by
  delta windowSignals
  extract_lets x1 x2
  refine eachM_fr (fun _ _ _ => ?_) ?_
  · split
    · refine sigWriteRaw_fr (partsIn_sub (by decide) hL) ?_
      assumption
  · assumption

theorem windowRecord_fr {L : List Part} {org : Mach} {b t m} (hL : [.g, .msix, .clk, .boot, .bytes, .mem, .log, .beams, .mpl, .hmap, .cells, .sig, .ev .imp, .ev .hmap, .ev .mgt, .outs] ⊆ L) (h_m : Frame L org m) :
    Frame L org (windowRecord b t m) := by
  delta windowRecord
  extract_lets x1 x2 x3 x4 x5 x6
  have hx6 : Frame L org x6 := by
    unfold x6
    refine onMpl_fr (partsIn_sub (by decide) hL) ?_
    assumption
  clear_value x6
  refine Frame.ite ?_ ?_
  · assumption
  · refine Frame.ite ?_ ?_
    · refine onMpl_fr (partsIn_sub (by decide) hL) ?_
      assumption
    · refine whenM_fr (fun _ _ => ?_) ?_
      · refine pdEntry_fr (partsIn_sub (by decide) hL) ?_
        assumption
      · assumption

theorem windowJudge_fr {L : List Part} {org : Mach} {b k m0} (hL : [.g, .msix, .clk, .boot, .bytes, .mem, .log, .beams, .mpl, .hmap, .cells, .sig, .ev .imp, .ev .mpl, .ev .hmap, .ev .mgt, .outs] ⊆ L) (h_m0 : Frame L org m0) :
    Frame L org (windowJudge b k m0) := by
  delta windowJudge
  extract_lets x1 x2 x3
  have hx1 : Frame L org x1 := by
    unfold x1
    refine takeRecord_fr (partsIn_sub (by decide) hL) ?_
    assumption
  clear_value x1
  refine windowRecord_fr (partsIn_sub (by decide) hL) ?_
  refine windowSignals_fr (partsIn_sub (by decide) hL) ?_
  refine windowTrim_fr (partsIn_sub (by decide) hL) ?_
  refine windowRuns_fr (partsIn_sub (by decide) hL) ?_
  refine windowValues_fr (partsIn_sub (by decide) hL) ?_
  assumption

theorem windowsUpTo_fr {L : List Part} {org : Mach} {b n k m} (hL : [.g, .msix, .clk, .boot, .bytes, .mem, .log, .beams, .mpl, .hmap, .cells, .sig, .ev .imp, .ev .mpl, .ev .hmap, .ev .mgt, .outs] ⊆ L) (h_m : Frame L org m) :
    Frame L org (windowsUpTo b n k m) := by
  induction n generalizing k m with
  | zero => exact h_m
  | succ n ih => exact Frame.ite (ih (windowJudge_fr (partsIn_sub (by decide) hL) h_m)) h_m

theorem pdJudge_fr {L : List Part} {org : Mach} {b m} (hL : [.g, .msix, .clk, .boot, .bytes, .mem, .log, .beams, .mpl, .hmap, .cells, .sig, .ev .imp, .ev .mpl, .ev .hmap, .ev .mgt, .outs] ⊆ L) (h_m : Frame L org m) :
    Frame L org (pdJudge b m) := by
  delta pdJudge
  split
  · assumption
  · refine windowsUpTo_fr (partsIn_sub (by decide) hL) ?_
    assumption

theorem pdArrive_fr {L : List Part} {org : Mach} {b bs m} (hL : [.g, .msix, .clk, .boot, .bytes, .mem, .log, .beams, .mpl, .hmap, .cells, .sig, .ev .imp, .ev .mpl, .ev .hmap, .ev .mgt, .outs] ⊆ L) (h_m : Frame L org m) :
    Frame L org (pdArrive b bs m) := by
  delta pdArrive
  extract_lets x1
  split
  · assumption
  · refine Frame.ite ?_ ?_
    · assumption
    · refine Frame.ite ?_ ?_
      · refine onMpl_fr (partsIn_sub (by decide) hL) ?_
        assumption
      · extract_lets x2 x3
        refine Frame.ite ?_ ?_
        · assumption
        · refine pdJudge_fr (partsIn_sub (by decide) hL) ?_
          refine onMpl_fr (partsIn_sub (by decide) hL) ?_
          assumption

theorem execPdPayload_fr {L : List Part} {org : Mach} {l f s} (hL : [.g, .msix, .clk, .boot, .bytes, .mem, .log, .beams, .mpl, .hmap, .cells, .sig, .lanes, .heads, .ev .imp, .ev .mpl, .ev .hmap, .ev .lane, .ev .mgt, .outs] ⊆ L) (h_s : Frame L org s.m) :
    OutFrame L org (execPdPayload l f s) := by
  delta execPdPayload
  refine act_fr (fun _ _ => ?_) h_s
  refine rxFrame_fr (partsIn_sub (by decide) hL) (fun _ _ => ?_) ?_
  · refine pdArrive_fr (partsIn_sub (by decide) hL) ?_
    assumption
  · assumption

end Sys2Proof.Machine
end

