-- ==== Sys2Proof/Laws/Frame/BeamOps.lean ====
section
/-!
SUPPORT. The parts of the device that the operations of Machine/BeamOps.lean can touch: one lemma per operation.
-/

namespace Sys2Proof.Machine

theorem regReread_fr {L : List Part} {org : Mach} {b m} (hL : [.g, .msix, .clk, .boot, .mem, .mgt, .log, .imp, .beams, .mpl, .cells, .sig, .heads, .stg, .ilk, .ev .glb, .ev .boot, .ev .imp, .ev .cellArr, .ev .stg, .ev .hlt, .ev .mgt, .outs, .free] ⊆ L) (h_m : Frame L org m) :
    Frame L org (regReread b m) := by
  delta regReread
  extract_lets x1 x2 x3 x4
  split
  · refine repair_fr (partsIn_sub (by decide) hL) ?_
    refine onBeam_fr (partsIn_sub (by decide) hL) ?_
    refine Frame.upd ?_ (.inr rfl) (.inr rfl) (.inr rfl) (.inr rfl) (.inr rfl) (.inr rfl) (.inr rfl) (.inl (hL (by decide))) (.inr rfl) (.inr rfl) (.inr rfl) (.inr rfl) (.inr rfl) (.inr rfl) (.inr rfl) (.inr rfl) (.inr rfl) (.inr rfl) (.inr rfl) (.inr rfl) (.inr rfl) (.inr rfl) (.inr rfl) (.inr rfl) (.inr rfl) (.inr rfl) rfl
    assumption
  · refine faultSafeHold_fr (partsIn_sub (by decide) hL) ?_
    assumption

theorem beamResume_fr {L : List Part} {org : Mach} {b m} (hL : [.g, .msix, .clk, .boot, .mem, .log, .imp, .beams, .mpl, .cells, .sig, .ev .boot, .ev .imp, .ev .beam, .ev .mgt, .outs] ⊆ L) (h_m : Frame L org m) :
    Frame L org (beamResume b m) := by
  delta beamResume
  refine Frame.ite ?_ ?_
  · refine resumeBeam_fr (partsIn_sub (by decide) hL) ?_
    assumption
  · assumption

theorem gridFault_fr {L : List Part} {org : Mach} {b node both m} (hL : [.g, .msix, .clk, .boot, .bytes, .mem, .mgt, .log, .job, .imp, .beams, .mpl, .cells, .sig, .heads, .stg, .ilk, .ev .glb, .ev .boot, .ev .job, .ev .imp, .ev .beam, .ev .cellArr, .ev .stg, .ev .hlt, .ev .mgt, .outs, .free] ⊆ L) (h_m : Frame L org m) :
    Frame L org (gridFault b node both m) := by
  delta gridFault
  refine Frame.ite ?_ ?_
  · extract_lets x1
    have hx1 : Frame L org x1 := by
      unfold x1
      refine beamStop_fr (partsIn_sub (by decide) hL) ?_
      refine onBeam_fr (partsIn_sub (by decide) hL) ?_
      assumption
    clear_value x1
    refine Frame.ite ?_ ?_
    · assumption
    · refine beamResume_fr (partsIn_sub (by decide) hL) ?_
      refine regReread_fr (partsIn_sub (by decide) hL) ?_
      assumption
  · refine repair_fr (partsIn_sub (by decide) hL) ?_
    refine raise_fr (partsIn_sub (by simp only [EvReg.kind]; decide) hL) ?_
    refine onBeam_fr (partsIn_sub (by decide) hL) ?_
    assumption

theorem publish_fr {L : List Part} {org : Mach} {b t m} (hL : [.g, .msix, .clk, .boot, .mem, .log, .beams, .cells, .sig, .ev .imp, .ev .beam, .ev .mgt, .outs] ⊆ L) (h_m : Frame L org m) :
    Frame L org (publish b t m) := by
  delta publish
  extract_lets x1 x2 x3 x4 x5 x6 x7 x8
  split
  · split
    · extract_lets x9 x10 x11
      have hx9 : Frame L org x9 := by
        unfold x9
        refine onBeam_fr (partsIn_sub (by decide) hL) ?_
        assumption
      clear_value x9
      have hx11 : Frame L org x11 := by
        unfold x11
        refine eachM_fr (fun _ _ _ => ?_) ?_
        · split
          · refine sigWriteAt_fr (partsIn_sub (by decide) hL) ?_
            assumption
        · assumption
      clear_value x11
      refine sigWriteAt_fr (partsIn_sub (by decide) hL) ?_
      refine sigWriteAt_fr (partsIn_sub (by decide) hL) ?_
      assumption

theorem sampleInstant_fr {L : List Part} {org : Mach} {b grid m} (hL : [.g, .msix, .clk, .boot, .bytes, .mem, .mgt, .log, .job, .imp, .beams, .mpl, .cells, .sig, .heads, .stg, .ilk, .ev .glb, .ev .boot, .ev .job, .ev .imp, .ev .beam, .ev .cellArr, .ev .stg, .ev .hlt, .ev .mgt, .outs, .free] ⊆ L) (h_m : Frame L org m) :
    Frame L org (sampleInstant b grid m) := by
  delta sampleInstant
  refine Frame.ite ?_ ?_
  · assumption
  · extract_lets x1
    have hx1 : Frame L org x1 := by
      unfold x1
      split
      · refine gridFault_fr (partsIn_sub (by decide) hL) ?_
        assumption
      · assumption
    clear_value x1
    refine Frame.ite ?_ ?_
    · assumption
    · refine publish_fr (partsIn_sub (by decide) hL) ?_
      assumption

theorem edgeFire_fr {L : List Part} {org : Mach} {b m} (hL : [.beams, .mpl, .outs] ⊆ L) (h_m : Frame L org m) :
    Frame L org (edgeFire b m) := by
  delta edgeFire
  split
  · assumption
  · refine Frame.ite ?_ ?_
    · assumption
    · extract_lets x1 x2 x3 x4 x5
      have hx1 : Frame L org x1 := by
        unfold x1
        refine setGate_fr (partsIn_sub (by decide) hL) ?_
        refine onBeam_fr (partsIn_sub (by decide) hL) ?_
        assumption
      clear_value x1
      refine Frame.ite ?_ ?_
      · refine onMpl_fr (partsIn_sub (by decide) hL) ?_
        refine onBeam_fr (partsIn_sub (by decide) hL) ?_
        assumption
      · assumption

theorem lookahead_fr {L : List Part} {org : Mach} {b p m} (hL : [.msix, .beams, .ev .beam, .outs] ⊆ L) (h_m : Frame L org m) :
    Frame L org (lookahead b p m) := by
  delta lookahead
  split
  · extract_lets x1
    have hx1 : Frame L org x1 := by
      unfold x1
      refine onBeam_fr (partsIn_sub (by decide) hL) ?_
      assumption
    clear_value x1
    refine whenM_fr (fun _ _ => ?_) ?_
    · refine raise_fr (partsIn_sub (by simp only [EvReg.kind]; decide) hL) ?_
      assumption
    · assumption

theorem dacPut_fr {L : List Part} {org : Mach} {b code m} (hL : [.beams] ⊆ L) (h_m : Frame L org m) :
    Frame L org (dacPut b code m) := by
  delta dacPut
  refine onBeam_fr (partsIn_sub (by decide) hL) ?_
  assumption

theorem laserTrack_fr {L : List Part} {org : Mach} {b t code m} (hL : [.hlt] ⊆ L) (h_m : Frame L org m) :
    Frame L org (laserTrack b t code m) := by
  delta laserTrack
  extract_lets x1
  refine onHlt_fr (partsIn_sub (by decide) hL) ?_
  assumption

theorem guardStep_fr {L : List Part} {org : Mach} {b t req m} (hL : [.mpl, .sig] ⊆ L) (h_m : Frame L org m) :
    Frame L org (guardStep b t req m) := by
  delta guardStep
  extract_lets x1 x2 x3 x4 x5 x6
  have hx6 : Frame L org x6 := by
    unfold x6
    refine onMpl_fr (partsIn_sub (by decide) hL) ?_
    assumption
  clear_value x6
  refine sigWriteAt_fr (partsIn_sub (by decide) hL) ?_
  refine sigPub_fr (partsIn_sub (by decide) hL) ?_
  refine sigWriteAt_fr (partsIn_sub (by decide) hL) ?_
  assumption

theorem dacInstant_fr {L : List Part} {org : Mach} {b m0} (hL : [.g, .msix, .clk, .boot, .bytes, .mem, .log, .beams, .mpl, .hmap, .cells, .sig, .hlt, .ev .imp, .ev .beam, .ev .mpl, .ev .hmap, .ev .mgt, .outs] ⊆ L) (h_m0 : Frame L org m0) :
    Frame L org (dacInstant b m0) := by
  delta dacInstant
  refine Frame.ite ?_ ?_
  · assumption
  · extract_lets x1 x2 x3 x4 x5 x6 x7
    have hx1 : Frame L org x1 := by
      unfold x1
      refine pdJudge_fr (partsIn_sub (by decide) hL) ?_
      refine takeRecord_fr (partsIn_sub (by decide) hL) ?_
      assumption
    clear_value x1
    have hx4 : Frame L org x4 := by
      unfold x4
      refine whenM_fr (fun _ _ => ?_) ?_
      · refine emissionEnd_fr (partsIn_sub (by decide) hL) ?_
        assumption
      · assumption
    clear_value x4
    have hx5 : Frame L org x5 := by
      unfold x5
      refine guardStep_fr (partsIn_sub (by decide) hL) ?_
      refine sigWriteAt_fr (partsIn_sub (by decide) hL) ?_
      refine onBeam_fr (partsIn_sub (by decide) hL) ?_
      assumption
    clear_value x5
    split
    · extract_lets x8 x9 x10 x11 x12 x13 x14 x15 x16 x17
      have hx10 : Frame L org x10 := by
        unfold x10
        refine lookahead_fr (partsIn_sub (by decide) hL) ?_
        assumption
      clear_value x10
      have hx11 : Frame L org x11 := by
        unfold x11
        refine whenM_fr (fun _ _ => ?_) ?_
        · refine onHlt_fr (partsIn_sub (by decide) hL) ?_
          assumption
        · assumption
      clear_value x11
      have hx13 : Frame L org x13 := by
        unfold x13
        refine sigWriteAt_fr (partsIn_sub (by decide) hL) ?_
        refine onBeam_fr (partsIn_sub (by decide) hL) ?_
        assumption
      clear_value x13
      have hx14 : Frame L org x14 := by
        unfold x14
        refine guardStep_fr (partsIn_sub (by decide) hL) ?_
        assumption
      clear_value x14
      split
      · refine laserTrack_fr (partsIn_sub (by decide) hL) ?_
        refine deposit_fr (partsIn_sub (by decide) hL) ?_
        refine dacPut_fr (partsIn_sub (by decide) hL) ?_
        assumption
    · refine laserTrack_fr (partsIn_sub (by decide) hL) ?_
      refine Frame.ite ?_ ?_
      · refine onBeam_fr (partsIn_sub (by decide) hL) ?_
        assumption
      · refine dacPut_fr (partsIn_sub (by decide) hL) ?_
        assumption

theorem laAnswered_fr {L : List Part} {org : Mach} {b late e m} (hL : [.g, .msix, .clk, .boot, .bytes, .mem, .mgt, .log, .imp, .beams, .mpl, .hmap, .cells, .sig, .heads, .stg, .ilk, .ev .glb, .ev .boot, .ev .imp, .ev .hmap, .ev .cellArr, .ev .stg, .ev .mem, .ev .hlt, .ev .mgt, .outs, .free] ⊆ L) (h_m : Frame L org m) :
    Frame L org (laAnswered b late e m) := by
  delta laAnswered
  extract_lets x1 x2 x3
  have hx2 : Frame L org x2 := by
    unfold x2
    refine takeRecord_fr (partsIn_sub (by decide) hL) ?_
    assumption
  clear_value x2
  split
  · refine Frame.ite ?_ ?_
    · assumption
    · extract_lets x4
      split
      · split
        · extract_lets x5 x6 x7 x8 x9 x10
          have hx8 : Frame L org x8 := by
            unfold x8
            refine eachM_fr (fun _ _ _ => ?_) ?_
            · refine memPoke_fr (partsIn_sub (by decide) hL) ?_
              assumption
            · refine eachM_fr (fun _ _ _ => ?_) ?_
              · refine memRead_fr (partsIn_sub (by decide) hL) ?_
                assumption
              · assumption
          clear_value x8
          have hx9 : Frame L org x9 := by
            unfold x9
            refine whenM_fr (fun _ _ => ?_) ?_
            · refine raise_fr (partsIn_sub (by simp only [EvReg.kind]; decide) hL) ?_
              assumption
            · assumption
          clear_value x9
          have hx10 : Frame L org x10 := by
            unfold x10
            refine onBeam_fr (partsIn_sub (by decide) hL) ?_
            assumption
          clear_value x10
          refine Frame.ite ?_ ?_
          · refine raise_fr (partsIn_sub (by simp only [EvReg.kind]; decide) hL) ?_
            refine onHmap_fr (partsIn_sub (by decide) hL) ?_
            assumption
          · assumption
  · assumption

theorem moveAtTarget_fr {L : List Part} {org : Mach} {b m} (hL : [.beams] ⊆ L) (h_m : Frame L org m) :
    Frame L org (moveAtTarget b m) := by
  delta moveAtTarget
  split
  · refine Frame.ite ?_ ?_
    · assumption
    · split
      · refine onBeam_fr (partsIn_sub (by decide) hL) ?_
        assumption
  · assumption

theorem settleElapsed_fr {L : List Part} {org : Mach} {b m} (hL : [.beams] ⊆ L) (h_m : Frame L org m) :
    Frame L org (settleElapsed b m) := by
  delta settleElapsed
  split
  · refine Frame.ite ?_ ?_
    · assumption
    · extract_lets x1
      refine onBeam_fr (partsIn_sub (by decide) hL) ?_
      assumption
  · assumption

theorem runupAtStart_fr {L : List Part} {org : Mach} {b m} (hL : [.beams] ⊆ L) (h_m : Frame L org m) :
    Frame L org (runupAtStart b m) := by
  delta runupAtStart
  refine Frame.ite ?_ ?_
  · refine onBeam_fr (partsIn_sub (by decide) hL) ?_
    assumption
  · assumption

theorem markAtEnd_fr {L : List Part} {org : Mach} {b m} (hL : [.beams] ⊆ L) (h_m : Frame L org m) :
    Frame L org (markAtEnd b m) := by
  delta markAtEnd
  split
  · refine Frame.ite ?_ ?_
    · refine onBeam_fr (partsIn_sub (by decide) hL) ?_
      assumption
    · assumption
  · assumption

theorem stoppingAtRest_fr {L : List Part} {org : Mach} {b m} (hL : [.g, .msix, .clk, .boot, .mem, .mgt, .log, .imp, .beams, .mpl, .cells, .sig, .heads, .stg, .ilk, .ev .glb, .ev .boot, .ev .imp, .ev .beam, .ev .cellArr, .ev .stg, .ev .hlt, .ev .mgt, .outs, .free] ⊆ L) (h_m : Frame L org m) :
    Frame L org (stoppingAtRest b m) := by
  delta stoppingAtRest
  refine Frame.ite ?_ ?_
  · assumption
  · extract_lets x1
    split
    · extract_lets x2
      have hx2 : Frame L org x2 := by
        unfold x2
        refine raise_fr (partsIn_sub (by simp only [EvReg.kind]; decide) hL) ?_
        refine onBeam_fr (partsIn_sub (by decide) hL) ?_
        assumption
      clear_value x2
      refine Frame.ite ?_ ?_
      · refine beamPark_fr (partsIn_sub (by decide) hL) ?_
        assumption
      · refine beamResume_fr (partsIn_sub (by decide) hL) ?_
        refine Frame.ite ?_ ?_
        · refine regReread_fr (partsIn_sub (by decide) hL) ?_
          assumption
        · assumption

theorem driftStale_fr {L : List Part} {org : Mach} {b m} (hL : [.msix, .beams, .ev .beam, .outs] ⊆ L) (h_m : Frame L org m) :
    Frame L org (driftStale b m) := by
  delta driftStale
  refine Frame.ite ?_ ?_
  · refine raise_fr (partsIn_sub (by simp only [EvReg.kind]; decide) hL) ?_
    refine onBeam_fr (partsIn_sub (by decide) hL) ?_
    assumption
  · assumption

theorem execBeamSampleInstant_fr {L : List Part} {org : Mach} {b grid s} (hL : [.g, .msix, .clk, .boot, .bytes, .mem, .mgt, .log, .job, .imp, .beams, .mpl, .cells, .sig, .heads, .stg, .ilk, .ev .glb, .ev .boot, .ev .job, .ev .imp, .ev .beam, .ev .cellArr, .ev .stg, .ev .hlt, .ev .mgt, .outs, .free] ⊆ L) (h_s : Frame L org s.m) :
    OutFrame L org (execBeamSampleInstant b grid s) := by
  delta execBeamSampleInstant
  refine act_fr (fun _ _ => ?_) h_s
  refine clocked_fr (fun _ _ => ?_) ?_
  · refine sampleInstant_fr (partsIn_sub (by decide) hL) ?_
    assumption
  · assumption

theorem execGateEdgeFire_fr {L : List Part} {org : Mach} {b s} (hL : [.beams, .mpl, .outs] ⊆ L) (h_s : Frame L org s.m) :
    OutFrame L org (execGateEdgeFire b s) := by
  delta execGateEdgeFire
  refine act_fr (fun _ _ => ?_) h_s
  refine edgeFire_fr (partsIn_sub (by decide) hL) ?_
  assumption

theorem execDacInstant_fr {L : List Part} {org : Mach} {b s} (hL : [.g, .msix, .clk, .boot, .bytes, .mem, .log, .beams, .mpl, .hmap, .cells, .sig, .hlt, .ev .imp, .ev .beam, .ev .mpl, .ev .hmap, .ev .mgt, .outs] ⊆ L) (h_s : Frame L org s.m) :
    OutFrame L org (execDacInstant b s) := by
  delta execDacInstant
  refine act_fr (fun _ _ => ?_) h_s
  refine clocked_fr (fun _ _ => ?_) ?_
  · refine dacInstant_fr (partsIn_sub (by decide) hL) ?_
    assumption
  · assumption

theorem execLookaheadAnswer_fr {L : List Part} {org : Mach} {b late ecc s} (hL : [.g, .msix, .clk, .boot, .bytes, .mem, .mgt, .log, .imp, .beams, .mpl, .hmap, .cells, .sig, .heads, .stg, .ilk, .ev .glb, .ev .boot, .ev .imp, .ev .hmap, .ev .cellArr, .ev .stg, .ev .mem, .ev .hlt, .ev .mgt, .outs, .free] ⊆ L) (h_s : Frame L org s.m) :
    OutFrame L org (execLookaheadAnswer b late ecc s) := by
  delta execLookaheadAnswer
  refine act_fr (fun _ _ => ?_) h_s
  refine clocked_fr (fun _ _ => ?_) ?_
  · refine laAnswered_fr (partsIn_sub (by decide) hL) ?_
    assumption
  · assumption

theorem execBeamMoveAtTarget_fr {L : List Part} {org : Mach} {b s} (hL : [.beams] ⊆ L) (h_s : Frame L org s.m) :
    OutFrame L org (execBeamMoveAtTarget b s) := by
  delta execBeamMoveAtTarget
  refine act_fr (fun _ _ => ?_) h_s
  refine clocked_fr (fun _ _ => ?_) ?_
  · refine moveAtTarget_fr (partsIn_sub (by decide) hL) ?_
    assumption
  · assumption

theorem execJumpSettleElapsed_fr {L : List Part} {org : Mach} {b s} (hL : [.beams] ⊆ L) (h_s : Frame L org s.m) :
    OutFrame L org (execJumpSettleElapsed b s) := by
  delta execJumpSettleElapsed
  refine act_fr (fun _ _ => ?_) h_s
  refine clocked_fr (fun _ _ => ?_) ?_
  · refine settleElapsed_fr (partsIn_sub (by decide) hL) ?_
    assumption
  · assumption

theorem execRunupAtStart_fr {L : List Part} {org : Mach} {b s} (hL : [.beams] ⊆ L) (h_s : Frame L org s.m) :
    OutFrame L org (execRunupAtStart b s) := by
  delta execRunupAtStart
  refine act_fr (fun _ _ => ?_) h_s
  refine clocked_fr (fun _ _ => ?_) ?_
  · refine runupAtStart_fr (partsIn_sub (by decide) hL) ?_
    assumption
  · assumption

theorem execMarkAtEnd_fr {L : List Part} {org : Mach} {b s} (hL : [.beams] ⊆ L) (h_s : Frame L org s.m) :
    OutFrame L org (execMarkAtEnd b s) := by
  delta execMarkAtEnd
  refine act_fr (fun _ _ => ?_) h_s
  refine clocked_fr (fun _ _ => ?_) ?_
  · refine markAtEnd_fr (partsIn_sub (by decide) hL) ?_
    assumption
  · assumption

theorem execStoppingAtRest_fr {L : List Part} {org : Mach} {b s} (hL : [.g, .msix, .clk, .boot, .mem, .mgt, .log, .imp, .beams, .mpl, .cells, .sig, .heads, .stg, .ilk, .ev .glb, .ev .boot, .ev .imp, .ev .beam, .ev .cellArr, .ev .stg, .ev .hlt, .ev .mgt, .outs, .free] ⊆ L) (h_s : Frame L org s.m) :
    OutFrame L org (execStoppingAtRest b s) := by
  delta execStoppingAtRest
  refine act_fr (fun _ _ => ?_) h_s
  refine clocked_fr (fun _ _ => ?_) ?_
  · refine stoppingAtRest_fr (partsIn_sub (by decide) hL) ?_
    assumption
  · assumption

theorem execDriftStale_fr {L : List Part} {org : Mach} {b s} (hL : [.msix, .beams, .ev .beam, .outs] ⊆ L) (h_s : Frame L org s.m) :
    OutFrame L org (execDriftStale b s) := by
  delta execDriftStale
  refine act_fr (fun _ _ => ?_) h_s
  refine clocked_fr (fun _ _ => ?_) ?_
  · refine driftStale_fr (partsIn_sub (by decide) hL) ?_
    assumption
  · assumption

end Sys2Proof.Machine
end

