-- ==== Sys2Proof/Laws/Frame/CellTrace.lean ====
section
/-!
SUPPORT. The parts of the device that the operations of Machine/CellTrace.lean can touch: one lemma per operation.
-/

namespace Sys2Proof.Machine

theorem onTrc_fr {L : List Part} {org : Mach} {c ch f m} (hL : [.cells] ⊆ L) (h_m : Frame L org m) :
    Frame L org (onTrc c ch f m) := by
  delta onTrc
  refine onCell_fr (partsIn_sub (by decide) hL) ?_
  assumption

theorem deepFlush_fr {L : List Part} {org : Mach} {lost c ch m} (hL : [.msix, .bytes, .mem, .cells, .ev .cellArr, .outs] ⊆ L) (h_m : Frame L org m) :
    Frame L org (deepFlush lost c ch m) := by
  delta deepFlush
  extract_lets x1 x2 x3 x4
  have hx4 : Frame L org x4 := by
    unfold x4
    refine memWrite_fr (partsIn_sub (by decide) hL) ?_
    assumption
  clear_value x4
  refine Frame.ite ?_ ?_
  · refine onTrc_fr (partsIn_sub (by decide) hL) ?_
    assumption
  · refine Frame.ite ?_ ?_
    · refine raise_fr (partsIn_sub (by simp only [EvReg.kind]; decide) hL) ?_
      refine onCells_fr (partsIn_sub (by decide) hL) ?_
      refine onTrc_fr (partsIn_sub (by decide) hL) ?_
      assumption
    · refine onCells_fr (partsIn_sub (by decide) hL) ?_
      refine onTrc_fr (partsIn_sub (by decide) hL) ?_
      assumption

theorem deepPush_fr {L : List Part} {org : Mach} {lost trig ovr c ch w tn m} (hL : [.msix, .bytes, .mem, .cells, .ev .cellArr, .outs] ⊆ L) (h_m : Frame L org m) :
    Frame L org (deepPush lost trig ovr c ch w tn m) := by
  delta deepPush
  refine Frame.ite ?_ ?_
  · assumption
  · extract_lets x1
    have hx1 : Frame L org x1 := by
      unfold x1
      refine onTrc_fr (partsIn_sub (by decide) hL) ?_
      assumption
    clear_value x1
    refine Frame.ite ?_ ?_
    · refine deepFlush_fr (partsIn_sub (by decide) hL) ?_
      assumption
    · assumption

theorem trcCause_fr {L : List Part} {org : Mach} {sel c ch m} (hL : [.cells] ⊆ L) (h_m : Frame L org m) :
    Frame L org (trcCause sel c ch m) := by
  delta trcCause
  extract_lets x1
  refine Frame.ite ?_ ?_
  · refine onTrc_fr (partsIn_sub (by decide) hL) ?_
    assumption
  · assumption

theorem lineFire_fr {L : List Part} {org : Mach} {cmd g m} (hL : [.cells] ⊆ L) (h_m : Frame L org m) :
    Frame L org (lineFire cmd g m) := by
  delta lineFire
  extract_lets x1 x2 x3
  have hx2 : Frame L org x2 := by
    unfold x2
    refine eachM_fr (fun _ _ _ => ?_) ?_
    · split
      · refine trcCause_fr (partsIn_sub (by decide) hL) ?_
        assumption
    · assumption
  clear_value x2
  refine Frame.ite ?_ ?_
  · refine onCells_fr (partsIn_sub (by decide) hL) ?_
    assumption
  · assumption

theorem trcCtxEvent_fr {L : List Part} {org : Mach} {c m} (hL : [.cells] ⊆ L) (h_m : Frame L org m) :
    Frame L org (trcCtxEvent c m) := by
  delta trcCtxEvent
  refine eachM_fr (fun _ _ _ => ?_) ?_
  · refine trcCause_fr (partsIn_sub (by decide) hL) ?_
    assumption
  · assumption

theorem trcRecord_fr {L : List Part} {org : Mach} {lost ovr c ch w tn m} (hL : [.msix, .bytes, .mem, .cells, .ev .cell, .ev .cellArr, .outs] ⊆ L) (h_m : Frame L org m) :
    Frame L org (trcRecord lost ovr c ch w tn m) := by
  delta trcRecord
  extract_lets x1 x2 x3 x4 x5
  have hx4 : Frame L org x4 := by
    unfold x4
    refine onTrc_fr (partsIn_sub (by decide) hL) ?_
    assumption
  clear_value x4
  have hx5 : Frame L org x5 := by
    unfold x5
    refine deepPush_fr (partsIn_sub (by decide) hL) ?_
    assumption
  clear_value x5
  refine whenM_fr (fun _ _ => ?_) ?_
  · refine whenM_fr (fun _ _ => ?_) ?_
    · refine lineFire_fr (partsIn_sub (by decide) hL) ?_
      assumption
    · refine raise_fr (partsIn_sub (by simp only [EvReg.kind]; decide) hL) ?_
      assumption
  · assumption

theorem trcSample_fr {L : List Part} {org : Mach} {lost ovr c ch w tn m} (hL : [.msix, .bytes, .mem, .cells, .ev .cell, .ev .cellArr, .outs] ⊆ L) (h_m : Frame L org m) :
    Frame L org (trcSample lost ovr c ch w tn m) := by
  delta trcSample
  extract_lets x1 x2 x3
  refine Frame.ite ?_ ?_
  · assumption
  · refine Frame.ite ?_ ?_
    · refine onTrc_fr (partsIn_sub (by decide) hL) ?_
      assumption
    · refine trcRecord_fr (partsIn_sub (by decide) hL) ?_
      refine onTrc_fr (partsIn_sub (by decide) hL) ?_
      assumption

theorem traceStop_fr {L : List Part} {org : Mach} {c ch m} (hL : [.msix, .bytes, .mem, .cells, .ev .cellArr, .outs] ⊆ L) (h_m : Frame L org m) :
    Frame L org (traceStop c ch m) := by
  delta traceStop
  extract_lets x1
  refine Frame.ite ?_ ?_
  · refine deepFlush_fr (partsIn_sub (by decide) hL) ?_
    refine onTrc_fr (partsIn_sub (by decide) hL) ?_
    assumption
  · assumption

theorem notchDrop_fr {L : List Part} {org : Mach} {c ch m} (hL : [.hlt] ⊆ L) (h_m : Frame L org m) :
    Frame L org (notchDrop c ch m) := by
  delta notchDrop
  refine Frame.upd ?_ (.inr rfl) (.inr rfl) (.inr rfl) (.inr rfl) (.inr rfl) (.inr rfl) (.inr rfl) (.inr rfl) (.inr rfl) (.inr rfl) (.inr rfl) (.inr rfl) (.inr rfl) (.inr rfl) (.inr rfl) (.inr rfl) (.inr rfl) (.inr rfl) (.inr rfl) (.inr rfl) (.inr rfl) (.inr rfl) (.inr rfl) (.inr rfl) (.inl (hL (by decide))) (.inr rfl) rfl
  assumption

theorem trcCtrlWrite_fr {L : List Part} {org : Mach} {p c ch v m0} (hL : [.g, .msix, .bytes, .mem, .log, .cells, .hlt, .ev .glb, .ev .dma, .ev .boot, .ev .job, .ev .imp, .ev .beam, .ev .mpl, .ev .hmap, .ev .sig, .ev .cell, .ev .cellArr, .ev .lane, .ev .stg, .ev .ilk, .ev .time, .ev .mem, .ev .clk, .ev .pwr, .ev .hlt, .ev .mgt, .regs, .outs] ⊆ L) (h_m0 : Frame L org m0) :
    Frame L org (trcCtrlWrite p c ch v m0) := by
  delta trcCtrlWrite
  extract_lets x1 x2 x3
  have hx1 : Frame L org x1 := by
    unfold x1
    refine whenM_fr (fun _ _ => ?_) ?_
    · refine notchDrop_fr (partsIn_sub (by decide) hL) ?_
      assumption
    · assumption
  clear_value x1
  have hx2 : Frame L org x2 := by
    unfold x2
    refine regSet_fr (partsIn_sub (by decide) hL) ?_
    refine deepFlush_fr (partsIn_sub (by decide) hL) ?_
    assumption
  clear_value x2
  refine Frame.ite ?_ ?_
  · refine accErr_fr (partsIn_sub (by decide) hL) ?_
    assumption
  · refine Frame.ite ?_ ?_
    · refine onTrc_fr (partsIn_sub (by decide) hL) ?_
      assumption
    · refine onTrc_fr (partsIn_sub (by decide) hL) ?_
      assumption

theorem deepCtrlWrite_fr {L : List Part} {org : Mach} {v m} (hL : [.cells, .ev .glb, .ev .dma, .ev .boot, .ev .job, .ev .imp, .ev .beam, .ev .mpl, .ev .hmap, .ev .sig, .ev .cell, .ev .cellArr, .ev .lane, .ev .stg, .ev .ilk, .ev .time, .ev .mem, .ev .clk, .ev .pwr, .ev .hlt, .ev .mgt, .regs] ⊆ L) (h_m : Frame L org m) :
    Frame L org (deepCtrlWrite v m) := by
  delta deepCtrlWrite
  extract_lets x1
  have hx1 : Frame L org x1 := by
    unfold x1
    refine regSet_fr (partsIn_sub (by decide) hL) ?_
    assumption
  clear_value x1
  split
  · refine onCells_fr (partsIn_sub (by decide) hL) ?_
    assumption
  · refine onCells_fr (partsIn_sub (by decide) hL) ?_
    assumption
  · assumption

theorem deepDone_fr {L : List Part} {org : Mach} {m} (hL : [.msix, .cells, .ev .cellArr, .outs] ⊆ L) (h_m : Frame L org m) :
    Frame L org (deepDone m) := by
  delta deepDone
  refine Frame.ite ?_ ?_
  · refine raise_fr (partsIn_sub (by simp only [EvReg.kind]; decide) hL) ?_
    refine onCells_fr (partsIn_sub (by decide) hL) ?_
    assumption
  · assumption

theorem trgWrite_fr {L : List Part} {org : Mach} {w m} (hL : [.msix, .cells, .ev .glb, .ev .cellArr, .outs] ⊆ L) (h_m : Frame L org m) :
    Frame L org (trgWrite w m) := by
  delta trgWrite
  refine Frame.ite ?_ ?_
  · refine refuse_fr (partsIn_sub (by simp only [EvReg.kind]; decide) hL) ?_
    assumption
  · refine eachM_fr (fun _ _ _ => ?_) ?_
    · refine lineFire_fr (partsIn_sub (by decide) hL) ?_
      assumption
    · assumption

theorem sigSelWrite_fr {L : List Part} {org : Mach} {w m} (hL : [.sig, .ev .glb, .ev .dma, .ev .boot, .ev .job, .ev .imp, .ev .beam, .ev .mpl, .ev .hmap, .ev .sig, .ev .cell, .ev .cellArr, .ev .lane, .ev .stg, .ev .ilk, .ev .time, .ev .mem, .ev .clk, .ev .pwr, .ev .hlt, .ev .mgt, .regs] ⊆ L) (h_m : Frame L org m) :
    Frame L org (sigSelWrite w m) := by
  delta sigSelWrite
  extract_lets x1 x2
  have hx1 : Frame L org x1 := by
    unfold x1
    refine regSet_fr (partsIn_sub (by decide) hL) ?_
    assumption
  clear_value x1
  refine Frame.upd ?_ (.inr rfl) (.inr rfl) (.inr rfl) (.inr rfl) (.inr rfl) (.inr rfl) (.inr rfl) (.inr rfl) (.inr rfl) (.inr rfl) (.inr rfl) (.inr rfl) (.inr rfl) (.inr rfl) (.inr rfl) (.inr rfl) (.inr rfl) (.inr rfl) (.inr rfl) (.inl (hL (by decide))) (.inr rfl) (.inr rfl) (.inr rfl) (.inr rfl) (.inr rfl) (.inr rfl) rfl
  assumption

theorem execTraceStop_fr {L : List Part} {org : Mach} {c ch s} (hL : [.msix, .bytes, .mem, .cells, .ev .cellArr, .outs] ⊆ L) (h_s : Frame L org s.m) :
    OutFrame L org (execTraceStop c ch s) := by
  delta execTraceStop
  refine act_fr (fun _ _ => ?_) h_s
  refine traceStop_fr (partsIn_sub (by decide) hL) ?_
  assumption

theorem execTrcCtrlWrite_fr {L : List Part} {org : Mach} {p c ch v s} (hL : [.g, .msix, .bytes, .mem, .log, .cells, .hlt, .ev .glb, .ev .dma, .ev .boot, .ev .job, .ev .imp, .ev .beam, .ev .mpl, .ev .hmap, .ev .sig, .ev .cell, .ev .cellArr, .ev .lane, .ev .stg, .ev .ilk, .ev .time, .ev .mem, .ev .clk, .ev .pwr, .ev .hlt, .ev .mgt, .regs, .outs] ⊆ L) (h_s : Frame L org s.m) :
    OutFrame L org (execTrcCtrlWrite p c ch v s) := by
  delta execTrcCtrlWrite
  refine act_fr (fun _ _ => ?_) h_s
  refine writeGate_fr (partsIn_sub (by decide) hL) (fun _ _ => ?_) ?_
  · refine trcCtrlWrite_fr (partsIn_sub (by decide) hL) ?_
    assumption
  · assumption

theorem execDeepRun_fr {L : List Part} {org : Mach} {p hi s} (hL : [.g, .msix, .log, .cells, .ev .glb, .ev .dma, .ev .boot, .ev .job, .ev .imp, .ev .beam, .ev .mpl, .ev .hmap, .ev .sig, .ev .cell, .ev .cellArr, .ev .lane, .ev .stg, .ev .ilk, .ev .time, .ev .mem, .ev .clk, .ev .pwr, .ev .hlt, .ev .mgt, .regs, .outs] ⊆ L) (h_s : Frame L org s.m) :
    OutFrame L org (execDeepRun p hi s) := by
  delta execDeepRun
  refine act_fr (fun _ _ => ?_) h_s
  refine writeGate_fr (partsIn_sub (by decide) hL) (fun _ _ => ?_) ?_
  · refine deepCtrlWrite_fr (partsIn_sub (by decide) hL) ?_
    assumption
  · assumption

theorem execDeepDone_fr {L : List Part} {org : Mach} {s} (hL : [.msix, .cells, .ev .cellArr, .outs] ⊆ L) (h_s : Frame L org s.m) :
    OutFrame L org (execDeepDone s) := by
  delta execDeepDone
  refine act_fr (fun _ _ => ?_) h_s
  refine deepDone_fr (partsIn_sub (by decide) hL) ?_
  assumption

theorem execCellTrgWrite_fr {L : List Part} {org : Mach} {p v s} (hL : [.g, .msix, .log, .cells, .ev .glb, .ev .cellArr, .ev .mgt, .outs] ⊆ L) (h_s : Frame L org s.m) :
    OutFrame L org (execCellTrgWrite p v s) := by
  delta execCellTrgWrite
  refine act_fr (fun _ _ => ?_) h_s
  refine writeGate_fr (partsIn_sub (by decide) hL) (fun _ _ => ?_) ?_
  · refine trgWrite_fr (partsIn_sub (by decide) hL) ?_
    assumption
  · assumption

theorem execSigSelWrite_fr {L : List Part} {org : Mach} {p v s} (hL : [.g, .msix, .log, .sig, .ev .glb, .ev .dma, .ev .boot, .ev .job, .ev .imp, .ev .beam, .ev .mpl, .ev .hmap, .ev .sig, .ev .cell, .ev .cellArr, .ev .lane, .ev .stg, .ev .ilk, .ev .time, .ev .mem, .ev .clk, .ev .pwr, .ev .hlt, .ev .mgt, .regs, .outs] ⊆ L) (h_s : Frame L org s.m) :
    OutFrame L org (execSigSelWrite p v s) := by
  delta execSigSelWrite
  refine act_fr (fun _ _ => ?_) h_s
  refine writeGate_fr (partsIn_sub (by decide) hL) (fun _ _ => ?_) ?_
  · refine sigSelWrite_fr (partsIn_sub (by decide) hL) ?_
    assumption
  · assumption

end Sys2Proof.Machine
end

