-- ==== Sys2Proof/Laws/Frame/CellOps.lean ====
section
/-!
SUPPORT. The parts of the device that the operations of Machine/CellOps.lean can touch: one lemma per operation.
-/

namespace Sys2Proof.Machine

theorem ownerFault_fr {L : List Part} {org : Mach} {k cell m} (hL : [.g, .msix, .clk, .boot, .bytes, .mem, .mgt, .log, .job, .imp, .beams, .mpl, .cells, .sig, .heads, .stg, .ilk, .ev .glb, .ev .boot, .ev .job, .ev .imp, .ev .beam, .ev .cellArr, .ev .stg, .ev .hlt, .ev .mgt, .outs, .free] ⊆ L) (h_m : Frame L org m) :
    Frame L org (ownerFault k cell m) := by
  delta ownerFault
  split
  · refine retire_fr (partsIn_sub (by decide) hL) ?_
    assumption
  · refine Frame.ite ?_ ?_
    · refine faultSafeHold_fr (partsIn_sub (by decide) hL) ?_
      assumption
    · refine fastFalls_fr (partsIn_sub (by decide) hL) ?_
      assumption

theorem ctxFault_fr {L : List Part} {org : Mach} {hard k m} (hL : [.g, .msix, .clk, .boot, .bytes, .mem, .mgt, .log, .job, .imp, .beams, .mpl, .cells, .sig, .heads, .stg, .ilk, .ev .glb, .ev .boot, .ev .job, .ev .imp, .ev .beam, .ev .cell, .ev .cellArr, .ev .stg, .ev .hlt, .ev .mgt, .outs, .free] ⊆ L) (h_m : Frame L org m) :
    Frame L org (ctxFault hard k m) := by
  delta ctxFault
  split
  · assumption
  · extract_lets x1
    have hx1 : Frame L org x1 := by
      unfold x1
      refine onCtx_fr (partsIn_sub (by decide) hL) ?_
      assumption
    clear_value x1
    refine ownerFault_fr (partsIn_sub (by decide) hL) ?_
    refine trcCtxEvent_fr (partsIn_sub (by decide) hL) ?_
    refine raise_fr (partsIn_sub (by simp only [EvReg.kind]; decide) hL) ?_
    refine safeAct_fr (partsIn_sub (by decide) hL) ?_
    assumption

theorem substWanted_fr {L : List Part} {org : Mach} {c m} (hL : [.msix, .cells, .ev .cellArr, .outs] ⊆ L) (h_m : Frame L org m) :
    Frame L org (substWanted c m) := by
  delta substWanted
  split
  · refine substStart_fr (partsIn_sub (by decide) hL) ?_
    assumption
  · refine Frame.ite ?_ ?_
    · assumption
    · refine onCells_fr (partsIn_sub (by decide) hL) ?_
      assumption

theorem substAuto_fr {L : List Part} {org : Mach} {c m} (hL : [.msix, .cells, .ev .cellArr, .outs] ⊆ L) (h_m : Frame L org m) :
    Frame L org (substAuto c m) := by
  delta substAuto
  refine whenM_fr (fun _ _ => ?_) ?_
  · refine substWanted_fr (partsIn_sub (by decide) hL) ?_
    assumption
  · assumption

theorem ctxRehost_fr {L : List Part} {org : Mach} {d k m} (hL : [.cells] ⊆ L) (h_m : Frame L org m) :
    Frame L org (ctxRehost d k m) := by
  delta ctxRehost
  extract_lets x1 x2
  have hx2 : Frame L org x2 := by
    unfold x2
    refine onCtx_fr (partsIn_sub (by decide) hL) ?_
    assumption
  clear_value x2
  refine Frame.ite ?_ ?_
  · refine onCtx_fr (partsIn_sub (by decide) hL) ?_
    refine ctxStart_fr (partsIn_sub (by decide) hL) ?_
    assumption
  · assumption

theorem hardMove_fr {L : List Part} {org : Mach} {c d ks m} (hL : [.msix, .bytes, .mem, .log, .job, .imp, .beams, .mpl, .cells, .sig, .heads, .ev .glb, .ev .job, .ev .imp, .ev .cell, .ev .mgt, .outs] ⊆ L) (h_m : Frame L org m) :
    Frame L org (hardMove c d ks m) := by
  delta hardMove
  extract_lets x1 x2 x3 x4 x5 x6
  have hx2 : Frame L org x2 := by
    unfold x2
    refine eachM_fr (fun _ _ _ => ?_) ?_
    · refine fastFalls_fr (partsIn_sub (by decide) hL) ?_
      refine safeAct_fr (partsIn_sub (by decide) hL) ?_
      assumption
    · assumption
  clear_value x2
  have hx3 : Frame L org x3 := by
    unfold x3
    refine eachM_fr (fun _ _ _ => ?_) ?_
    · refine onBeam_fr (partsIn_sub (by decide) hL) ?_
      refine beamStop_fr (partsIn_sub (by decide) hL) ?_
      assumption
    · assumption
  clear_value x3
  have hx4 : Frame L org x4 := by
    unfold x4
    refine onCell_fr (partsIn_sub (by decide) hL) ?_
    refine onCell_fr (partsIn_sub (by decide) hL) ?_
    refine eachM_fr (fun _ _ _ => ?_) ?_
    · refine ctxRehost_fr (partsIn_sub (by decide) hL) ?_
      assumption
    · assumption
  clear_value x4
  have hx6 : Frame L org x6 := by
    unfold x6
    refine Frame.ite ?_ ?_
    · assumption
    · refine onCells_fr (partsIn_sub (by decide) hL) ?_
      assumption
  clear_value x6
  refine repair_fr (partsIn_sub (by decide) hL) ?_
  refine raise_fr (partsIn_sub (by simp only [EvReg.kind]; decide) hL) ?_
  refine raise_fr (partsIn_sub (by simp only [EvReg.kind]; decide) hL) ?_
  assumption

theorem hardPath_fr {L : List Part} {org : Mach} {c ks m} (hL : [.g, .msix, .clk, .boot, .bytes, .mem, .mgt, .log, .job, .imp, .beams, .mpl, .cells, .sig, .heads, .stg, .ilk, .ev .glb, .ev .boot, .ev .job, .ev .imp, .ev .beam, .ev .cell, .ev .cellArr, .ev .stg, .ev .hlt, .ev .mgt, .outs, .free] ⊆ L) (h_m : Frame L org m) :
    Frame L org (hardPath c ks m) := by
  delta hardPath
  refine Frame.ite ?_ ?_
  · assumption
  · extract_lets x1
    split
    · refine hardMove_fr (partsIn_sub (by decide) hL) ?_
      assumption
    · refine eachM_fr (fun _ _ _ => ?_) ?_
      · refine Frame.ite ?_ ?_
        · refine ctxFault_fr (partsIn_sub (by decide) hL) ?_
          assumption
        · refine onCtx_fr (partsIn_sub (by decide) hL) ?_
          assumption
      · refine whenM_fr (fun _ _ => ?_) ?_
        · refine raise_fr (partsIn_sub (by simp only [EvReg.kind]; decide) hL) ?_
          assumption
        · assumption

theorem faultedCell_fr {L : List Part} {org : Mach} {c m} (hL : [.cells] ⊆ L) (h_m : Frame L org m) :
    Frame L org (faultedCell c m) := by
  delta faultedCell
  refine Frame.ite ?_ ?_
  · refine toQuarantine_fr (partsIn_sub (by decide) hL) ?_
    assumption
  · refine onCell_fr (partsIn_sub (by decide) hL) ?_
    assumption

theorem hardFault_fr {L : List Part} {org : Mach} {c m0} (hL : [.g, .msix, .clk, .boot, .bytes, .mem, .mgt, .log, .job, .imp, .beams, .mpl, .cells, .sig, .heads, .stg, .ilk, .ev .glb, .ev .boot, .ev .job, .ev .imp, .ev .beam, .ev .cell, .ev .cellArr, .ev .stg, .ev .hlt, .ev .mgt, .outs, .free] ⊆ L) (h_m0 : Frame L org m0) :
    Frame L org (hardFault c m0) := by
  delta hardFault
  extract_lets x1 x2 x3 x4 x5
  have hx2 : Frame L org x2 := by
    unfold x2
    refine raise_fr (partsIn_sub (by simp only [EvReg.kind]; decide) hL) ?_
    refine onCell_fr (partsIn_sub (by decide) hL) ?_
    assumption
  clear_value x2
  have hx4 : Frame L org x4 := by
    unfold x4
    refine onCells_fr (partsIn_sub (by decide) hL) ?_
    assumption
  clear_value x4
  have hx5 : Frame L org x5 := by
    unfold x5
    refine toQuarantine_fr (partsIn_sub (by decide) hL) ?_
    refine hardPath_fr (partsIn_sub (by decide) hL) ?_
    assumption
  clear_value x5
  refine Frame.ite ?_ ?_
  · assumption
  · split
    · split
      · refine Frame.ite ?_ ?_
        · refine faultedCell_fr (partsIn_sub (by decide) hL) ?_
          refine hardMove_fr (partsIn_sub (by decide) hL) ?_
          assumption
        · refine faultedCell_fr (partsIn_sub (by decide) hL) ?_
          refine hardPath_fr (partsIn_sub (by decide) hL) ?_
          assumption
      · refine faultedCell_fr (partsIn_sub (by decide) hL) ?_
        refine hardPath_fr (partsIn_sub (by decide) hL) ?_
        assumption
    · split
      · refine Frame.ite ?_ ?_
        · refine substWanted_fr (partsIn_sub (by decide) hL) ?_
          assumption
        · refine substOver_fr (partsIn_sub (by decide) hL) ?_
          refine raise_fr (partsIn_sub (by simp only [EvReg.kind]; decide) hL) ?_
          assumption
      · refine toQuarantine_fr (partsIn_sub (by decide) hL) ?_
        assumption
    · assumption

theorem substCopied_fr {L : List Part} {org : Mach} {m} (hL : [.cells] ⊆ L) (h_m : Frame L org m) :
    Frame L org (substCopied m) := by
  delta substCopied
  split
  · refine Frame.ite ?_ ?_
    · refine onCells_fr (partsIn_sub (by decide) hL) ?_
      assumption
    · assumption
  · assumption

theorem handedOver_fr {L : List Part} {org : Mach} {x m} (hL : [.msix, .log, .cells, .ev .glb, .ev .cell, .ev .cellArr, .ev .mgt, .outs] ⊆ L) (h_m : Frame L org m) :
    Frame L org (handedOver x m) := by
  delta handedOver
  extract_lets x1
  have hx1 : Frame L org x1 := by
    unfold x1
    refine onCell_fr (partsIn_sub (by decide) hL) ?_
    refine toQuarantine_fr (partsIn_sub (by decide) hL) ?_
    assumption
  clear_value x1
  refine substOver_fr (partsIn_sub (by decide) hL) ?_
  refine repair_fr (partsIn_sub (by decide) hL) ?_
  refine raise_fr (partsIn_sub (by simp only [EvReg.kind]; decide) hL) ?_
  refine raise_fr (partsIn_sub (by simp only [EvReg.kind]; decide) hL) ?_
  assumption

theorem handover_fr {L : List Part} {org : Mach} {k m} (hL : [.msix, .log, .cells, .ev .glb, .ev .cell, .ev .cellArr, .ev .mgt, .outs] ⊆ L) (h_m : Frame L org m) :
    Frame L org (handover k m) := by
  delta handover
  split
  · assumption
  · split
    · assumption
    · extract_lets x1 x2 x3 x4
      have hx3 : Frame L org x3 := by
        unfold x3
        refine onCtx_fr (partsIn_sub (by decide) hL) ?_
        assumption
      clear_value x3
      have hx4 : Frame L org x4 := by
        unfold x4
        refine onCells_fr (partsIn_sub (by decide) hL) ?_
        assumption
      clear_value x4
      refine Frame.ite ?_ ?_
      · assumption
      · refine Frame.ite ?_ ?_
        · refine handedOver_fr (partsIn_sub (by decide) hL) ?_
          refine eachM_fr (fun _ _ _ => ?_) ?_
          · refine onCtx_fr (partsIn_sub (by decide) hL) ?_
            assumption
          · assumption
        · assumption

theorem settleDone_fr {L : List Part} {org : Mach} {k m} (hL : [.g, .msix, .clk, .boot, .mem, .log, .imp, .beams, .mpl, .cells, .sig, .ev .boot, .ev .imp, .ev .beam, .ev .cellArr, .ev .mgt, .outs] ⊆ L) (h_m : Frame L org m) :
    Frame L org (settleDone k m) := by
  delta settleDone
  extract_lets x1 x2 x3
  have hx2 : Frame L org x2 := by
    unfold x2
    refine onCtx_fr (partsIn_sub (by decide) hL) ?_
    assumption
  clear_value x2
  have hx3 : Frame L org x3 := by
    unfold x3
    split
    · refine Frame.ite ?_ ?_
      · refine substOver_fr (partsIn_sub (by decide) hL) ?_
        assumption
      · assumption
    · assumption
  clear_value x3
  refine Frame.ite ?_ ?_
  · assumption
  · split
    · refine Frame.ite ?_ ?_
      · refine beamResume_fr (partsIn_sub (by decide) hL) ?_
        refine onBeam_fr (partsIn_sub (by decide) hL) ?_
        assumption
      · assumption
    · assumption

theorem bankExchange_fr {L : List Part} {org : Mach} {k p tn m} (hL : [.g, .msix, .clk, .boot, .mem, .log, .beams, .cells, .sig, .ev .imp, .ev .mgt, .outs] ⊆ L) (h_m : Frame L org m) :
    Frame L org (bankExchange k p tn m) := by
  delta bankExchange
  refine Frame.ite ?_ ?_
  · extract_lets x1 x2
    have hx1 : Frame L org x1 := by
      unfold x1
      refine takeRecord_fr (partsIn_sub (by decide) hL) ?_
      assumption
    clear_value x1
    refine onCells_fr (partsIn_sub (by decide) hL) ?_
    assumption
  · assumption

theorem shadowSample_fr {L : List Part} {org : Mach} {k agree fresh before run m} (hL : [.msix, .bytes, .mem, .log, .job, .imp, .beams, .mpl, .cells, .sig, .heads, .ev .glb, .ev .job, .ev .imp, .ev .cell, .ev .mgt, .outs] ⊆ L) (h_m : Frame L org m) :
    Frame L org (shadowSample k agree fresh before run m) := by
  delta shadowSample
  split
  · assumption
  · refine Frame.ite ?_ ?_
    · assumption
    · extract_lets x1 x2
      refine Frame.ite ?_ ?_
      · refine onCells_fr (partsIn_sub (by decide) hL) ?_
        assumption
      · refine Frame.ite ?_ ?_
        · refine onCells_fr (partsIn_sub (by decide) hL) ?_
          assumption
        · refine toQuarantine_fr (partsIn_sub (by decide) hL) ?_
          refine hardMove_fr (partsIn_sub (by decide) hL) ?_
          assumption

theorem sampleStart_fr {L : List Part} {org : Mach} {k agree late lost corr m0} (hL : [.g, .msix, .clk, .boot, .bytes, .mem, .log, .job, .imp, .beams, .mpl, .cells, .sig, .heads, .ev .glb, .ev .job, .ev .imp, .ev .sig, .ev .cell, .ev .cellArr, .ev .mgt, .outs] ⊆ L) (h_m0 : Frame L org m0) :
    Frame L org (sampleStart k agree late lost corr m0) := by
  delta sampleStart
  extract_lets x1
  split
  · extract_lets x2
    split
    · assumption
    · refine Frame.ite ?_ ?_
      · assumption
      · extract_lets x3 x4 x5 x6 x7 x8 x9 x10 x11 x12
        have hx3 : Frame L org x3 := by
          unfold x3
          refine bankExchange_fr (partsIn_sub (by decide) hL) ?_
          refine onCell_fr (partsIn_sub (by decide) hL) ?_
          assumption
        clear_value x3
        have hx7 : Frame L org x7 := by
          unfold x7
          refine onCtx_fr (partsIn_sub (by decide) hL) ?_
          assumption
        clear_value x7
        have hx8 : Frame L org x8 := by
          unfold x8
          refine whenM_fr (fun _ _ => ?_) ?_
          · refine raise_fr (partsIn_sub (by simp only [EvReg.kind]; decide) hL) ?_
            assumption
          · assumption
        clear_value x8
        have hx9 : Frame L org x9 := by
          unfold x9
          refine cmdFlush_fr (partsIn_sub (by decide) hL) ?_
          refine eachM_fr (fun _ _ _ => ?_) ?_
          · split
            · refine ctxWrite_fr (partsIn_sub (by decide) hL) ?_
              refine whenM_fr (fun _ _ => ?_) ?_
              · refine raise_fr (partsIn_sub (by simp only [EvReg.kind]; decide) hL) ?_
                assumption
              · assumption
          · assumption
        clear_value x9
        have hx10 : Frame L org x10 := by
          unfold x10
          refine eachM_fr (fun _ _ _ => ?_) ?_
          · split
            · refine trcSample_fr (partsIn_sub (by decide) hL) ?_
              assumption
          · assumption
        clear_value x10
        have hx11 : Frame L org x11 := by
          unfold x11
          refine whenM_fr (fun _ _ => ?_) ?_
          · refine raise_fr (partsIn_sub (by simp only [EvReg.kind]; decide) hL) ?_
            assumption
          · assumption
        clear_value x11
        have hx12 : Frame L org x12 := by
          unfold x12
          refine whenM_fr (fun _ _ => ?_) ?_
          · refine raise_fr (partsIn_sub (by simp only [EvReg.kind]; decide) hL) ?_
            refine onCell_fr (partsIn_sub (by decide) hL) ?_
            assumption
          · assumption
        clear_value x12
        refine shadowSample_fr (partsIn_sub (by decide) hL) ?_
        assumption
  · assumption

theorem sampleOverrun_fr {L : List Part} {org : Mach} {k m0} (hL : [.g, .msix, .clk, .boot, .bytes, .mem, .mgt, .log, .job, .imp, .beams, .mpl, .cells, .sig, .heads, .stg, .ilk, .ev .glb, .ev .boot, .ev .job, .ev .imp, .ev .beam, .ev .cell, .ev .cellArr, .ev .stg, .ev .hlt, .ev .mgt, .outs, .free] ⊆ L) (h_m0 : Frame L org m0) :
    Frame L org (sampleOverrun k m0) := by
  delta sampleOverrun
  extract_lets x1
  split
  · extract_lets x2
    split
    · assumption
    · refine Frame.ite ?_ ?_
      · assumption
      · extract_lets x3 x4 x5 x6 x7
        have hx3 : Frame L org x3 := by
          unfold x3
          refine bankExchange_fr (partsIn_sub (by decide) hL) ?_
          assumption
        clear_value x3
        have hx4 : Frame L org x4 := by
          unfold x4
          refine onCtx_fr (partsIn_sub (by decide) hL) ?_
          assumption
        clear_value x4
        have hx5 : Frame L org x5 := by
          unfold x5
          refine trcCtxEvent_fr (partsIn_sub (by decide) hL) ?_
          refine whenM_fr (fun _ _ => ?_) ?_
          · refine raise_fr (partsIn_sub (by simp only [EvReg.kind]; decide) hL) ?_
            assumption
          · assumption
        clear_value x5
        have hx6 : Frame L org x6 := by
          unfold x6
          refine eachM_fr (fun _ _ _ => ?_) ?_
          · split
            · refine trcSample_fr (partsIn_sub (by decide) hL) ?_
              assumption
          · assumption
        clear_value x6
        have hx7 : Frame L org x7 := by
          unfold x7
          refine onCells_fr (partsIn_sub (by decide) hL) ?_
          assumption
        clear_value x7
        refine Frame.ite ?_ ?_
        · refine ctxFault_fr (partsIn_sub (by decide) hL) ?_
          assumption
        · assumption
  · assumption

theorem autoRestart_fr {L : List Part} {org : Mach} {k m} (hL : [.cells] ⊆ L) (h_m : Frame L org m) :
    Frame L org (autoRestart k m) := by
  delta autoRestart
  split
  · refine Frame.ite ?_ ?_
    · refine ctxStart_fr (partsIn_sub (by decide) hL) ?_
      assumption
    · assumption
  · assumption

theorem katPeriod_fr {L : List Part} {org : Mach} {c m} (hL : [.cells] ⊆ L) (h_m : Frame L org m) :
    Frame L org (katPeriod c m) := by
  delta katPeriod
  refine Frame.ite ?_ ?_
  · refine onCell_fr (partsIn_sub (by decide) hL) ?_
    assumption
  · assumption

theorem katDone_fr {L : List Part} {org : Mach} {c pass m} (hL : [.msix, .bytes, .mem, .log, .job, .imp, .beams, .mpl, .cells, .sig, .heads, .ev .glb, .ev .job, .ev .imp, .ev .cell, .ev .mgt, .outs] ⊆ L) (h_m : Frame L org m) :
    Frame L org (katDone c pass m) := by
  delta katDone
  extract_lets x1 x2 x3 x4 x5
  have hx2 : Frame L org x2 := by
    unfold x2
    refine onCell_fr (partsIn_sub (by decide) hL) ?_
    assumption
  clear_value x2
  have hx3 : Frame L org x3 := by
    unfold x3
    refine whenM_fr (fun _ _ => ?_) ?_
    · refine repair_fr (partsIn_sub (by decide) hL) ?_
      assumption
    · assumption
  clear_value x3
  have hx5 : Frame L org x5 := by
    unfold x5
    refine raise_fr (partsIn_sub (by simp only [EvReg.kind]; decide) hL) ?_
    refine onCell_fr (partsIn_sub (by decide) hL) ?_
    assumption
  clear_value x5
  refine Frame.ite ?_ ?_
  · assumption
  · refine Frame.ite ?_ ?_
    · split
      · refine hardMove_fr (partsIn_sub (by decide) hL) ?_
        assumption
      · assumption
    · refine Frame.ite ?_ ?_
      · refine onCell_fr (partsIn_sub (by decide) hL) ?_
        assumption
      · refine toQuarantine_fr (partsIn_sub (by decide) hL) ?_
        assumption

theorem cellStatus_fr {L : List Part} {org : Mach} {op target code m} (hL : [.msix, .cells, .ev .glb, .ev .cellArr, .outs] ⊆ L) (h_m : Frame L org m) :
    Frame L org (cellStatus op target code m) := by
  delta cellStatus
  extract_lets x1
  have hx1 : Frame L org x1 := by
    unfold x1
    refine onCells_fr (partsIn_sub (by decide) hL) ?_
    assumption
  clear_value x1
  refine whenM_fr (fun _ _ => ?_) ?_
  · refine refuse_fr (partsIn_sub (by simp only [EvReg.kind]; decide) hL) ?_
    assumption
  · assumption

theorem ownCell_fr {L : List Part} {org : Mach} {k m} (hL : [.cells] ⊆ L) (h_m : Frame L org m) :
    Frame L org (ownCell k m) := by
  delta ownCell
  split
  · refine Frame.ite ?_ ?_
    · refine onCell_fr (partsIn_sub (by decide) hL) ?_
      refine onCtx_fr (partsIn_sub (by decide) hL) ?_
      assumption
    · assumption
  · assumption

theorem cellCmdOp_fr {L : List Part} {org : Mach} {op t m} (hL : [.msix, .mpl, .cells, .sig, .heads, .ev .cellArr, .outs] ⊆ L) (h_m : Frame L org m) :
    Frame L org (cellCmdOp op t m).2 := by
  delta cellCmdOp
  extract_lets x1 x2 x3
  split
  · refine Frame.ite2 ?_ ?_
    · refine Frame.mk2 ?_
      refine ctxStart_fr (partsIn_sub (by decide) hL) ?_
      refine ownCell_fr (partsIn_sub (by decide) hL) ?_
      assumption
    · refine Frame.mk2 ?_
      assumption
  · refine Frame.ite2 ?_ ?_
    · refine Frame.mk2 ?_
      assumption
    · refine Frame.ite2 ?_ ?_
      · refine Frame.mk2 ?_
        assumption
      · refine Frame.mk2 ?_
        refine ctxStop_fr (partsIn_sub (by decide) hL) ?_
        assumption
  · refine Frame.ite2 ?_ ?_
    · refine Frame.mk2 ?_
      refine ctxStart_fr (partsIn_sub (by decide) hL) ?_
      refine ownCell_fr (partsIn_sub (by decide) hL) ?_
      assumption
    · refine Frame.mk2 ?_
      assumption
  · refine Frame.ite2 ?_ ?_
    · refine Frame.mk2 ?_
      assumption
    · refine Frame.ite2 ?_ ?_
      · refine Frame.mk2 ?_
        assumption
      · refine Frame.ite2 ?_ ?_
        · refine Frame.mk2 ?_
          assumption
        · refine Frame.mk2 ?_
          refine substWanted_fr (partsIn_sub (by decide) hL) ?_
          assumption
  · refine Frame.ite2 ?_ ?_
    · refine Frame.mk2 ?_
      refine onCell_fr (partsIn_sub (by decide) hL) ?_
      assumption
    · refine Frame.mk2 ?_
      assumption
  · refine Frame.ite2 ?_ ?_
    · refine Frame.mk2 ?_
      refine lineFire_fr (partsIn_sub (by decide) hL) ?_
      assumption
    · refine Frame.mk2 ?_
      assumption

theorem cellCmd_fr {L : List Part} {org : Mach} {w m} (hL : [.msix, .mpl, .cells, .sig, .heads, .ev .glb, .ev .cellArr, .outs] ⊆ L) (h_m : Frame L org m) :
    Frame L org (cellCmd w m) := by
  delta cellCmd
  extract_lets x1 x2
  refine Frame.ite ?_ ?_
  · refine refuse_fr (partsIn_sub (by simp only [EvReg.kind]; decide) hL) ?_
    assumption
  · refine cellStatus_fr (partsIn_sub (by decide) hL) ?_
    refine spareWatch_fr (partsIn_sub (by decide) hL) (fun _ _ => ?_) ?_
    · unfold x2
      refine cellCmdOp_fr (partsIn_sub (by decide) hL) ?_
      assumption
    · assumption

theorem lagClear_fr {L : List Part} {org : Mach} {c slot m} (hL : [.cells] ⊆ L) (h_m : Frame L org m) :
    Frame L org (lagClear c slot m) := by
  delta lagClear
  refine eachM_fr (fun _ _ _ => ?_) ?_
  · refine onCtx_fr (partsIn_sub (by decide) hL) ?_
    assumption
  · assumption

theorem execCellSampleStart_fr {L : List Part} {org : Mach} {k agree late lost corr s} (hL : [.g, .msix, .clk, .boot, .bytes, .mem, .log, .job, .imp, .beams, .mpl, .cells, .sig, .heads, .ev .glb, .ev .job, .ev .imp, .ev .sig, .ev .cell, .ev .cellArr, .ev .mgt, .outs] ⊆ L) (h_s : Frame L org s.m) :
    OutFrame L org (execCellSampleStart k agree late lost corr s) := by
  delta execCellSampleStart
  refine act_fr (fun _ _ => ?_) h_s
  refine spareWatch_fr (partsIn_sub (by decide) hL) (fun _ _ => ?_) ?_
  · refine sampleStart_fr (partsIn_sub (by decide) hL) ?_
    assumption
  · assumption

theorem execCellSampleOverrun_fr {L : List Part} {org : Mach} {k s} (hL : [.g, .msix, .clk, .boot, .bytes, .mem, .mgt, .log, .job, .imp, .beams, .mpl, .cells, .sig, .heads, .stg, .ilk, .ev .glb, .ev .boot, .ev .job, .ev .imp, .ev .beam, .ev .cell, .ev .cellArr, .ev .stg, .ev .hlt, .ev .mgt, .outs, .free] ⊆ L) (h_s : Frame L org s.m) :
    OutFrame L org (execCellSampleOverrun k s) := by
  delta execCellSampleOverrun
  refine act_fr (fun _ _ => ?_) h_s
  refine spareWatch_fr (partsIn_sub (by decide) hL) (fun _ _ => ?_) ?_
  · refine sampleOverrun_fr (partsIn_sub (by decide) hL) ?_
    assumption
  · assumption

theorem execCtxAutoRestart_fr {L : List Part} {org : Mach} {k s} (hL : [.cells] ⊆ L) (h_s : Frame L org s.m) :
    OutFrame L org (execCtxAutoRestart k s) := by
  delta execCtxAutoRestart
  refine act_fr (fun _ _ => ?_) h_s
  refine autoRestart_fr (partsIn_sub (by decide) hL) ?_
  assumption

theorem execCellHardFault_fr {L : List Part} {org : Mach} {c s} (hL : [.g, .msix, .clk, .boot, .bytes, .mem, .mgt, .log, .job, .imp, .beams, .mpl, .cells, .sig, .heads, .stg, .ilk, .ev .glb, .ev .boot, .ev .job, .ev .imp, .ev .beam, .ev .cell, .ev .cellArr, .ev .stg, .ev .hlt, .ev .mgt, .outs, .free] ⊆ L) (h_s : Frame L org s.m) :
    OutFrame L org (execCellHardFault c s) := by
  delta execCellHardFault
  refine act_fr (fun _ _ => ?_) h_s
  refine spareWatch_fr (partsIn_sub (by decide) hL) (fun _ _ => ?_) ?_
  · refine hardFault_fr (partsIn_sub (by decide) hL) ?_
    assumption
  · assumption

theorem execHardSettleDone_fr {L : List Part} {org : Mach} {k s} (hL : [.g, .msix, .clk, .boot, .mem, .log, .imp, .beams, .mpl, .cells, .sig, .ev .boot, .ev .imp, .ev .beam, .ev .cellArr, .ev .mgt, .outs] ⊆ L) (h_s : Frame L org s.m) :
    OutFrame L org (execHardSettleDone k s) := by
  delta execHardSettleDone
  refine act_fr (fun _ _ => ?_) h_s
  refine spareWatch_fr (partsIn_sub (by decide) hL) (fun _ _ => ?_) ?_
  · refine settleDone_fr (partsIn_sub (by decide) hL) ?_
    assumption
  · assumption

theorem execSubstCopyDone_fr {L : List Part} {org : Mach} {s} (hL : [.cells] ⊆ L) (h_s : Frame L org s.m) :
    OutFrame L org (execSubstCopyDone s) := by
  delta execSubstCopyDone
  refine act_fr (fun _ _ => ?_) h_s
  refine substCopied_fr (partsIn_sub (by decide) hL) ?_
  assumption

theorem execShadowHandover_fr {L : List Part} {org : Mach} {k s} (hL : [.msix, .log, .cells, .ev .glb, .ev .cell, .ev .cellArr, .ev .mgt, .outs] ⊆ L) (h_s : Frame L org s.m) :
    OutFrame L org (execShadowHandover k s) := by
  delta execShadowHandover
  refine act_fr (fun _ _ => ?_) h_s
  refine spareWatch_fr (partsIn_sub (by decide) hL) (fun _ _ => ?_) ?_
  · refine handover_fr (partsIn_sub (by decide) hL) ?_
    assumption
  · assumption

theorem execKatPeriodElapsed_fr {L : List Part} {org : Mach} {c s} (hL : [.msix, .cells, .ev .cellArr, .outs] ⊆ L) (h_s : Frame L org s.m) :
    OutFrame L org (execKatPeriodElapsed c s) := by
  delta execKatPeriodElapsed
  refine act_fr (fun _ _ => ?_) h_s
  refine spareWatch_fr (partsIn_sub (by decide) hL) (fun _ _ => ?_) ?_
  · refine katPeriod_fr (partsIn_sub (by decide) hL) ?_
    assumption
  · assumption

theorem execKatDone_fr {L : List Part} {org : Mach} {c pass s} (hL : [.msix, .bytes, .mem, .log, .job, .imp, .beams, .mpl, .cells, .sig, .heads, .ev .glb, .ev .job, .ev .imp, .ev .cell, .ev .cellArr, .ev .mgt, .outs] ⊆ L) (h_s : Frame L org s.m) :
    OutFrame L org (execKatDone c pass s) := by
  delta execKatDone
  refine act_fr (fun _ _ => ?_) h_s
  refine spareWatch_fr (partsIn_sub (by decide) hL) (fun _ _ => ?_) ?_
  · refine katDone_fr (partsIn_sub (by decide) hL) ?_
    assumption
  · assumption

theorem execCellStart_fr {L : List Part} {org : Mach} {p hi s} (hL : [.g, .msix, .log, .mpl, .cells, .sig, .heads, .ev .glb, .ev .cellArr, .ev .mgt, .outs] ⊆ L) (h_s : Frame L org s.m) :
    OutFrame L org (execCellStart p hi s) := by
  delta execCellStart
  refine act_fr (fun _ _ => ?_) h_s
  refine writeGate_fr (partsIn_sub (by decide) hL) (fun _ _ => ?_) ?_
  · refine cellCmd_fr (partsIn_sub (by decide) hL) ?_
    assumption
  · assumption

theorem execCellStop_fr {L : List Part} {org : Mach} {p hi s} (hL : [.g, .msix, .log, .mpl, .cells, .sig, .heads, .ev .glb, .ev .cellArr, .ev .mgt, .outs] ⊆ L) (h_s : Frame L org s.m) :
    OutFrame L org (execCellStop p hi s) := by
  delta execCellStop
  refine act_fr (fun _ _ => ?_) h_s
  refine writeGate_fr (partsIn_sub (by decide) hL) (fun _ _ => ?_) ?_
  · refine cellCmd_fr (partsIn_sub (by decide) hL) ?_
    assumption
  · assumption

theorem execRestart_fr {L : List Part} {org : Mach} {p hi s} (hL : [.g, .msix, .log, .mpl, .cells, .sig, .heads, .ev .glb, .ev .cellArr, .ev .mgt, .outs] ⊆ L) (h_s : Frame L org s.m) :
    OutFrame L org (execRestart p hi s) := by
  delta execRestart
  refine act_fr (fun _ _ => ?_) h_s
  refine writeGate_fr (partsIn_sub (by decide) hL) (fun _ _ => ?_) ?_
  · refine cellCmd_fr (partsIn_sub (by decide) hL) ?_
    assumption
  · assumption

theorem execSubst_fr {L : List Part} {org : Mach} {p hi s} (hL : [.g, .msix, .log, .mpl, .cells, .sig, .heads, .ev .glb, .ev .cellArr, .ev .mgt, .outs] ⊆ L) (h_s : Frame L org s.m) :
    OutFrame L org (execSubst p hi s) := by
  delta execSubst
  refine act_fr (fun _ _ => ?_) h_s
  refine writeGate_fr (partsIn_sub (by decide) hL) (fun _ _ => ?_) ?_
  · refine cellCmd_fr (partsIn_sub (by decide) hL) ?_
    assumption
  · assumption

theorem execTest_fr {L : List Part} {org : Mach} {p hi s} (hL : [.g, .msix, .log, .mpl, .cells, .sig, .heads, .ev .glb, .ev .cellArr, .ev .mgt, .outs] ⊆ L) (h_s : Frame L org s.m) :
    OutFrame L org (execTest p hi s) := by
  delta execTest
  refine act_fr (fun _ _ => ?_) h_s
  refine writeGate_fr (partsIn_sub (by decide) hL) (fun _ _ => ?_) ?_
  · refine cellCmd_fr (partsIn_sub (by decide) hL) ?_
    assumption
  · assumption

theorem execTrig_fr {L : List Part} {org : Mach} {p hi s} (hL : [.g, .msix, .log, .mpl, .cells, .sig, .heads, .ev .glb, .ev .cellArr, .ev .mgt, .outs] ⊆ L) (h_s : Frame L org s.m) :
    OutFrame L org (execTrig p hi s) := by
  delta execTrig
  refine act_fr (fun _ _ => ?_) h_s
  refine writeGate_fr (partsIn_sub (by decide) hL) (fun _ _ => ?_) ?_
  · refine cellCmd_fr (partsIn_sub (by decide) hL) ?_
    assumption
  · assumption

theorem execLagMaxClear_fr {L : List Part} {org : Mach} {p c slot _v s} (hL : [.g, .msix, .log, .cells, .ev .glb, .ev .mgt, .outs] ⊆ L) (h_s : Frame L org s.m) :
    OutFrame L org (execLagMaxClear p c slot _v s) := by
  delta execLagMaxClear
  refine act_fr (fun _ _ => ?_) h_s
  refine writeGate_fr (partsIn_sub (by decide) hL) (fun _ _ => ?_) ?_
  · refine lagClear_fr (partsIn_sub (by decide) hL) ?_
    assumption
  · assumption

end Sys2Proof.Machine
end

