-- ==== Sys2Proof/Laws/Frame/HealthBase.lean ====
section
/-!
SUPPORT. The parts of the device that the operations of Machine/HealthBase.lean can touch: one lemma per operation.
-/

namespace Sys2Proof.Machine

theorem setRef_fr {L : List Part} {org : Mach} {u m} (hL : [.hlt] ⊆ L) (h_m : Frame L org m) :
    Frame L org (setRef u m) := by
  delta setRef
  refine onHlt_fr (partsIn_sub (by decide) hL) ?_
  assumption

theorem calStart_fr {L : List Part} {org : Mach} {u m} (hL : [.hlt] ⊆ L) (h_m : Frame L org m) :
    Frame L org (calStart u m) := by
  delta calStart
  refine Frame.ite ?_ ?_
  · assumption
  · refine onHlt_fr (partsIn_sub (by decide) hL) ?_
    assumption

theorem calCheck_fr {L : List Part} {org : Mach} {us m} (hL : [.hlt] ⊆ L) (h_m : Frame L org m) :
    Frame L org (calCheck us m) := by
  delta calCheck
  refine Frame.ite ?_ ?_
  · assumption
  · refine eachM_fr (fun _ _ _ => ?_) ?_
    · refine whenM_fr (fun _ _ => ?_) ?_
      · refine calStart_fr (partsIn_sub (by decide) hL) ?_
        assumption
      · assumption
    · assumption

theorem calWrite_fr {L : List Part} {org : Mach} {ws m} (hL : [.ev .glb, .ev .dma, .ev .boot, .ev .job, .ev .imp, .ev .beam, .ev .mpl, .ev .hmap, .ev .sig, .ev .cell, .ev .cellArr, .ev .lane, .ev .stg, .ev .ilk, .ev .time, .ev .mem, .ev .clk, .ev .pwr, .ev .hlt, .ev .mgt, .regs] ⊆ L) (h_m : Frame L org m) :
    Frame L org (calWrite ws m) := by
  delta calWrite
  refine eachM_fr (fun _ _ _ => ?_) ?_
  · split
    · refine regSet_fr (partsIn_sub (by decide) hL) ?_
      assumption
  · assumption

theorem calEnd_fr {L : List Part} {org : Mach} {u r atOnce m} (hL : [.msix, .log, .hlt, .ev .glb, .ev .dma, .ev .boot, .ev .job, .ev .imp, .ev .beam, .ev .mpl, .ev .hmap, .ev .sig, .ev .cell, .ev .cellArr, .ev .lane, .ev .stg, .ev .ilk, .ev .time, .ev .mem, .ev .clk, .ev .pwr, .ev .hlt, .ev .mgt, .regs, .outs, .free] ⊆ L) (h_m : Frame L org m) :
    Frame L org (calEnd u r atOnce m) := by
  delta calEnd
  extract_lets x1 x2 x3 x4 x5 x6 x7
  have hx4 : Frame L org x4 := by
    unfold x4
    refine setRef_fr (partsIn_sub (by decide) hL) ?_
    assumption
  clear_value x4
  have hx5 : Frame L org x5 := by
    unfold x5
    refine onHlt_fr (partsIn_sub (by decide) hL) ?_
    assumption
  clear_value x5
  have hx6 : Frame L org x6 := by
    unfold x6
    refine onHlt_fr (partsIn_sub (by decide) hL) ?_
    assumption
  clear_value x6
  refine Frame.ite ?_ ?_
  · refine raise_fr (partsIn_sub (by simp only [EvReg.kind]; decide) hL) ?_
    refine whenM_fr (fun _ _ => ?_) ?_
    · refine calWrite_fr (partsIn_sub (by decide) hL) ?_
      assumption
    · assumption
  · refine raise_fr (partsIn_sub (by simp only [EvReg.kind]; decide) hL) ?_
    refine raise_fr (partsIn_sub (by simp only [EvReg.kind]; decide) hL) ?_
    refine logClass_fr (partsIn_sub (by decide) hL) ?_
    assumption

theorem calRunDone_fr {L : List Part} {org : Mach} {u r m} (hL : [.msix, .log, .hlt, .ev .glb, .ev .dma, .ev .boot, .ev .job, .ev .imp, .ev .beam, .ev .mpl, .ev .hmap, .ev .sig, .ev .cell, .ev .cellArr, .ev .lane, .ev .stg, .ev .ilk, .ev .time, .ev .mem, .ev .clk, .ev .pwr, .ev .hlt, .ev .mgt, .regs, .outs, .free] ⊆ L) (h_m : Frame L org m) :
    Frame L org (calRunDone u r m) := by
  delta calRunDone
  refine Frame.ite ?_ ?_
  · refine calEnd_fr (partsIn_sub (by decide) hL) ?_
    assumption
  · assumption

theorem calStep_fr {L : List Part} {org : Mach} {u m} (hL : [.hlt, .ev .glb, .ev .dma, .ev .boot, .ev .job, .ev .imp, .ev .beam, .ev .mpl, .ev .hmap, .ev .sig, .ev .cell, .ev .cellArr, .ev .lane, .ev .stg, .ev .ilk, .ev .time, .ev .mem, .ev .clk, .ev .pwr, .ev .hlt, .ev .mgt, .regs] ⊆ L) (h_m : Frame L org m) :
    Frame L org (calStep u m) := by
  delta calStep
  split
  · assumption
  · split
    · assumption
    · refine Frame.ite ?_ ?_
      · assumption
      · extract_lets x1
        have hx1 : Frame L org x1 := by
          unfold x1
          split
          · refine regSet_fr (partsIn_sub (by decide) hL) ?_
            assumption
          · assumption
        clear_value x1
        refine Frame.ite ?_ ?_
        · assumption
        · refine onHlt_fr (partsIn_sub (by decide) hL) ?_
          assumption

theorem stageMove_fr {L : List Part} {org : Mach} {st k m} (hL : [.msix, .log, .sig, .hlt, .ev .hlt, .ev .mgt, .outs, .free] ⊆ L) (h_m : Frame L org m) :
    Frame L org (stageMove st k m) := by
  delta stageMove
  extract_lets x1 x2
  have hx1 : Frame L org x1 := by
    unfold x1
    refine onHlt_fr (partsIn_sub (by decide) hL) ?_
    assumption
  clear_value x1
  refine sigPub_fr (partsIn_sub (by decide) hL) ?_
  refine logClass_fr (partsIn_sub (by decide) hL) ?_
  refine raise_fr (partsIn_sub (by simp only [EvReg.kind]; decide) hL) ?_
  assumption

theorem heatSpan_fr {L : List Part} {org : Mach} {m} (hL : [.hlt] ⊆ L) (h_m : Frame L org m) :
    Frame L org (heatSpan m) := by
  delta heatSpan
  extract_lets x1
  refine onHlt_fr (partsIn_sub (by decide) hL) ?_
  assumption

theorem throttleNow_fr {L : List Part} {org : Mach} {m0} (hL : [.msix, .log, .sig, .hlt, .ev .hlt, .ev .mgt, .outs, .free] ⊆ L) (h_m0 : Frame L org m0) :
    Frame L org (throttleNow m0) := by
  delta throttleNow
  extract_lets x1
  have hx1 : Frame L org x1 := by
    unfold x1
    refine heatSpan_fr (partsIn_sub (by decide) hL) ?_
    assumption
  clear_value x1
  split
  · refine Frame.ite ?_ ?_
    · refine raise_fr (partsIn_sub (by simp only [EvReg.kind]; decide) hL) ?_
      refine stageMove_fr (partsIn_sub (by decide) hL) ?_
      assumption
    · assumption
  · refine Frame.ite ?_ ?_
    · refine stageMove_fr (partsIn_sub (by decide) hL) ?_
      assumption
    · assumption
  · assumption

theorem throttleTimer_fr {L : List Part} {org : Mach} {m} (hL : [.msix, .log, .sig, .hlt, .ev .hlt, .ev .mgt, .outs, .free] ⊆ L) (h_m : Frame L org m) :
    Frame L org (throttleTimer m) := by
  delta throttleTimer
  extract_lets x1 x2
  split
  · assumption
  · refine Frame.ite ?_ ?_
    · refine stageMove_fr (partsIn_sub (by decide) hL) ?_
      assumption
    · assumption
  · refine Frame.ite ?_ ?_
    · refine stageMove_fr (partsIn_sub (by decide) hL) ?_
      assumption
    · refine Frame.ite ?_ ?_
      · refine stageMove_fr (partsIn_sub (by decide) hL) ?_
        assumption
      · assumption
  · refine Frame.ite ?_ ?_
    · refine Frame.ite ?_ ?_
      · refine stageMove_fr (partsIn_sub (by decide) hL) ?_
        assumption
      · assumption
    · refine Frame.ite ?_ ?_
      · refine Frame.ite ?_ ?_
        · refine stageMove_fr (partsIn_sub (by decide) hL) ?_
          assumption
        · refine stageMove_fr (partsIn_sub (by decide) hL) ?_
          assumption
      · assumption

end Sys2Proof.Machine
end

