-- ==== Sys2Proof/Laws/Frame/LaneOps.lean ====
section
/-!
SUPPORT. The parts of the device that the operations of Machine/LaneOps.lean can touch: one lemma per operation.
-/

namespace Sys2Proof.Machine

theorem routeSend_fr {L : List Part} {org : Mach} {h route back m} (hL : [.heads, .outs] ⊆ L) (h_m : Frame L org m) :
    Frame L org (routeSend h route back m) := by
  delta routeSend
  refine sendBlock_fr (partsIn_sub (by decide) hL) ?_
  refine onHead_fr (partsIn_sub (by decide) hL) ?_
  assumption

theorem laneSet_fr {L : List Part} {org : Mach} {l st m} (hL : [.lanes] ⊆ L) (h_m : Frame L org m) :
    Frame L org (laneSet l st m) := by
  delta laneSet
  refine onLane_fr (partsIn_sub (by decide) hL) ?_
  assumption

theorem leftUp_fr {L : List Part} {org : Mach} {l st m} (hL : [.msix, .log, .lanes, .heads, .ev .glb, .ev .lane, .ev .mgt, .outs] ⊆ L) (h_m : Frame L org m) :
    Frame L org (leftUp l st m) := by
  delta leftUp
  extract_lets x1 x2 x3 x4
  have hx2 : Frame L org x2 := by
    unfold x2
    refine raise_fr (partsIn_sub (by simp only [EvReg.kind]; decide) hL) ?_
    refine onLane_fr (partsIn_sub (by decide) hL) ?_
    assumption
  clear_value x2
  have hx4 : Frame L org x4 := by
    unfold x4
    refine repair_fr (partsIn_sub (by decide) hL) ?_
    assumption
  clear_value x4
  refine Frame.ite ?_ ?_
  · assumption
  · refine Frame.ite ?_ ?_
    · clear_value x3
      split
      · refine routeSend_fr (partsIn_sub (by decide) hL) ?_
        assumption
      · assumption
    · refine onHead_fr (partsIn_sub (by decide) hL) ?_
      assumption

theorem alignLost_fr {L : List Part} {org : Mach} {h m} (hL : [.msix, .time, .ev .time, .outs] ⊆ L) (h_m : Frame L org m) :
    Frame L org (alignLost h m) := by
  delta alignLost
  extract_lets x1 x2
  have hx2 : Frame L org x2 := by
    unfold x2
    refine onTime_fr (partsIn_sub (by decide) hL) ?_
    assumption
  clear_value x2
  refine whenM_fr (fun _ _ => ?_) ?_
  · refine raise_fr (partsIn_sub (by simp only [EvReg.kind]; decide) hL) ?_
    assumption
  · assumption

theorem lanesGone_fr {L : List Part} {org : Mach} {h m} (hL : [.msix, .bytes, .mem, .log, .time, .job, .imp, .beams, .mpl, .cells, .sig, .heads, .ilk, .ev .job, .ev .imp, .ev .beam, .ev .time, .ev .mgt, .outs] ⊆ L) (h_m : Frame L org m) :
    Frame L org (lanesGone h m) := by
  delta lanesGone
  refine Frame.ite ?_ ?_
  · assumption
  · extract_lets x1
    have hx1 : Frame L org x1 := by
      unfold x1
      refine alignLost_fr (partsIn_sub (by decide) hL) ?_
      assumption
    clear_value x1
    refine Frame.ite ?_ ?_
    · refine retire_fr (partsIn_sub (by decide) hL) ?_
      assumption
    · assumption

theorem laneTo_fr {L : List Part} {org : Mach} {l st m} (hL : [.msix, .bytes, .mem, .log, .time, .job, .imp, .beams, .mpl, .cells, .sig, .lanes, .heads, .ilk, .ev .glb, .ev .job, .ev .imp, .ev .beam, .ev .lane, .ev .time, .ev .mgt, .outs] ⊆ L) (h_m : Frame L org m) :
    Frame L org (laneTo l st m) := by
  delta laneTo
  extract_lets x1 x2
  have hx2 : Frame L org x2 := by
    unfold x2
    refine laneSet_fr (partsIn_sub (by decide) hL) ?_
    assumption
  clear_value x2
  refine Frame.ite ?_ ?_
  · refine lanesGone_fr (partsIn_sub (by decide) hL) ?_
    refine leftUp_fr (partsIn_sub (by decide) hL) ?_
    assumption
  · assumption

theorem laneDetect_fr {L : List Part} {org : Mach} {l m} (hL : [.msix, .bytes, .mem, .log, .time, .job, .imp, .beams, .mpl, .cells, .sig, .lanes, .heads, .ilk, .ev .glb, .ev .job, .ev .imp, .ev .beam, .ev .lane, .ev .time, .ev .mgt, .outs] ⊆ L) (h_m : Frame L org m) :
    Frame L org (laneDetect l m) := by
  delta laneDetect
  refine onLane_fr (partsIn_sub (by decide) hL) ?_
  refine laneTo_fr (partsIn_sub (by decide) hL) ?_
  assumption

theorem laneAttempt_fr {L : List Part} {org : Mach} {l n m} (hL : [.msix, .bytes, .mem, .log, .time, .job, .imp, .beams, .mpl, .cells, .sig, .lanes, .heads, .ilk, .ev .glb, .ev .job, .ev .imp, .ev .beam, .ev .lane, .ev .time, .ev .mgt, .outs] ⊆ L) (h_m : Frame L org m) :
    Frame L org (laneAttempt l n m) := by
  delta laneAttempt
  refine onLane_fr (partsIn_sub (by decide) hL) ?_
  refine laneTo_fr (partsIn_sub (by decide) hL) ?_
  assumption

theorem laneFail_fr {L : List Part} {org : Mach} {l cause more m} (hL : [.msix, .bytes, .mem, .log, .time, .job, .imp, .beams, .mpl, .cells, .sig, .lanes, .heads, .ilk, .ev .glb, .ev .job, .ev .imp, .ev .beam, .ev .lane, .ev .time, .ev .mgt, .outs] ⊆ L) (h_m : Frame L org m) :
    Frame L org (laneFail l cause more m) := by
  delta laneFail
  extract_lets x1
  have hx1 : Frame L org x1 := by
    unfold x1
    refine onLane_fr (partsIn_sub (by decide) hL) ?_
    refine laneTo_fr (partsIn_sub (by decide) hL) ?_
    assumption
  clear_value x1
  refine log_fr (partsIn_sub (by decide) hL) ?_
  refine raise_fr (partsIn_sub (by simp only [EvReg.kind]; decide) hL) ?_
  assumption

theorem trainFails_fr {L : List Part} {org : Mach} {l m} (hL : [.msix, .bytes, .mem, .log, .time, .job, .imp, .beams, .mpl, .cells, .sig, .lanes, .heads, .ilk, .ev .glb, .ev .job, .ev .imp, .ev .beam, .ev .lane, .ev .time, .ev .mgt, .outs] ⊆ L) (h_m : Frame L org m) :
    Frame L org (trainFails l m) := by
  delta trainFails
  extract_lets x1
  refine Frame.ite ?_ ?_
  · assumption
  · refine Frame.ite ?_ ?_
    · refine Frame.ite ?_ ?_
      · refine laneAttempt_fr (partsIn_sub (by decide) hL) ?_
        assumption
      · refine laneDetect_fr (partsIn_sub (by decide) hL) ?_
        assumption
    · refine laneFail_fr (partsIn_sub (by decide) hL) ?_
      assumption

theorem laneRetrains_fr {L : List Part} {org : Mach} {l m} (hL : [.msix, .bytes, .mem, .log, .time, .job, .imp, .beams, .mpl, .cells, .sig, .lanes, .heads, .ilk, .ev .glb, .ev .job, .ev .imp, .ev .beam, .ev .lane, .ev .time, .ev .mgt, .outs] ⊆ L) (h_m : Frame L org m) :
    Frame L org (laneRetrains l m) := by
  delta laneRetrains
  refine Frame.ite ?_ ?_
  · refine laneAttempt_fr (partsIn_sub (by decide) hL) ?_
    refine onLane_fr (partsIn_sub (by decide) hL) ?_
    assumption
  · assumption

theorem laneEnterUp_fr {L : List Part} {org : Mach} {l m} (hL : [.msix, .log, .mpl, .cells, .lanes, .heads, .ev .glb, .ev .lane, .ev .mgt, .outs] ⊆ L) (h_m : Frame L org m) :
    Frame L org (laneEnterUp l m) := by
  delta laneEnterUp
  extract_lets x1 x2 x3 x4 x5 x6 x7
  have hx3 : Frame L org x3 := by
    unfold x3
    refine Frame.ite ?_ ?_
    · assumption
    · refine onHead_fr (partsIn_sub (by decide) hL) ?_
      assumption
  clear_value x3
  have hx4 : Frame L org x4 := by
    unfold x4
    refine raise_fr (partsIn_sub (by simp only [EvReg.kind]; decide) hL) ?_
    refine onLane_fr (partsIn_sub (by decide) hL) ?_
    refine laneSet_fr (partsIn_sub (by decide) hL) ?_
    assumption
  clear_value x4
  have hx6 : Frame L org x6 := by
    unfold x6
    refine configSend_fr (partsIn_sub (by decide) hL) ?_
    assumption
  clear_value x6
  have hx7 : Frame L org x7 := by
    unfold x7
    refine Frame.ite ?_ ?_
    · split
      · refine repair_fr (partsIn_sub (by decide) hL) ?_
        refine onHead_fr (partsIn_sub (by decide) hL) ?_
        assumption
      · unfold id
        refine onHead_fr (partsIn_sub (by decide) hL) ?_
        assumption
    · refine Frame.ite ?_ ?_
      · refine routeSend_fr (partsIn_sub (by decide) hL) ?_
        assumption
      · refine Frame.ite ?_ ?_
        · refine routeSend_fr (partsIn_sub (by decide) hL) ?_
          assumption
        · assumption
  clear_value x7
  refine Frame.ite ?_ ?_
  · refine Frame.ite ?_ ?_
    · refine repair_fr (partsIn_sub (by decide) hL) ?_
      assumption
    · assumption
  · refine whenM_fr (fun _ _ => ?_) ?_
    · refine ctxRestartBeam_fr (partsIn_sub (by decide) hL) ?_
      assumption
    · assumption

theorem signalSeen_fr {L : List Part} {org : Mach} {l m} (hL : [.msix, .bytes, .mem, .log, .time, .job, .imp, .beams, .mpl, .cells, .sig, .lanes, .heads, .ilk, .ev .glb, .ev .job, .ev .imp, .ev .beam, .ev .lane, .ev .time, .ev .mgt, .outs] ⊆ L) (h_m : Frame L org m) :
    Frame L org (signalSeen l m) := by
  delta signalSeen
  extract_lets x1
  have hx1 : Frame L org x1 := by
    unfold x1
    refine onLane_fr (partsIn_sub (by decide) hL) ?_
    assumption
  clear_value x1
  refine Frame.ite ?_ ?_
  · refine laneAttempt_fr (partsIn_sub (by decide) hL) ?_
    assumption
  · assumption

theorem detectTimeout_fr {L : List Part} {org : Mach} {l m} (hL : [.msix, .lanes, .ev .lane, .outs] ⊆ L) (h_m : Frame L org m) :
    Frame L org (detectTimeout l m) := by
  delta detectTimeout
  extract_lets x1
  refine Frame.ite ?_ ?_
  · refine raise_fr (partsIn_sub (by simp only [EvReg.kind]; decide) hL) ?_
    refine onLane_fr (partsIn_sub (by decide) hL) ?_
    assumption
  · assumption

theorem equalised_fr {L : List Part} {org : Mach} {l m} (hL : [.msix, .bytes, .mem, .log, .time, .job, .imp, .beams, .mpl, .cells, .sig, .lanes, .heads, .ilk, .ev .glb, .ev .job, .ev .imp, .ev .beam, .ev .lane, .ev .time, .ev .mgt, .outs] ⊆ L) (h_m : Frame L org m) :
    Frame L org (equalised l m) := by
  delta equalised
  refine Frame.ite ?_ ?_
  · refine laneTo_fr (partsIn_sub (by decide) hL) ?_
    assumption
  · assumption

theorem alignLocked_fr {L : List Part} {org : Mach} {l m} (hL : [.msix, .bytes, .mem, .log, .time, .job, .imp, .beams, .mpl, .cells, .sig, .lanes, .heads, .ilk, .ev .glb, .ev .job, .ev .imp, .ev .beam, .ev .lane, .ev .time, .ev .mgt, .outs] ⊆ L) (h_m : Frame L org m) :
    Frame L org (alignLocked l m) := by
  delta alignLocked
  refine Frame.ite ?_ ?_
  · refine onLane_fr (partsIn_sub (by decide) hL) ?_
    refine laneTo_fr (partsIn_sub (by decide) hL) ?_
    assumption
  · assumption

theorem keyBegin_fr {L : List Part} {org : Mach} {l m} (hL : [.msix, .bytes, .mem, .log, .time, .job, .imp, .beams, .mpl, .cells, .sig, .lanes, .heads, .ilk, .ev .glb, .ev .job, .ev .imp, .ev .beam, .ev .lane, .ev .time, .ev .mgt, .outs, .free] ⊆ L) (h_m : Frame L org m) :
    Frame L org (keyBegin l m) := by
  delta keyBegin
  split
  · rename_i heq
    refine Frame.let2 (l := L) (b := org) heq ?_ (fun _ => ?_)
    · refine drawRandom_fr (partsIn_sub (by decide) hL) ?_
      assumption
    extract_lets x1 x2
    have hx2 : Frame L org x2 := by
      unfold x2
      refine onLane_fr (partsIn_sub (by decide) hL) ?_
      refine laneTo_fr (partsIn_sub (by decide) hL) ?_
      assumption
    clear_value x2
    refine emit_fr (partsIn_sub (by decide) hL) ?_
    assumption

theorem swapPair_fr {L : List Part} {org : Mach} {l m} (hL : [.lanes] ⊆ L) (h_m : Frame L org m) :
    Frame L org (swapPair l m) := by
  delta swapPair
  split
  · refine Frame.ite ?_ ?_
    · refine eachM_fr (fun _ _ _ => ?_) ?_
      · refine onLane_fr (partsIn_sub (by decide) hL) ?_
        assumption
      · assumption
    · assumption
  · assumption

theorem trainBlock_fr {L : List Part} {org : Mach} {l seen port rate ident inverted m} (hL : [.msix, .bytes, .mem, .log, .time, .job, .imp, .beams, .mpl, .cells, .sig, .lanes, .heads, .ilk, .ev .glb, .ev .job, .ev .imp, .ev .beam, .ev .lane, .ev .time, .ev .mgt, .outs, .free] ⊆ L) (h_m : Frame L org m) :
    Frame L org (trainBlock l seen port rate ident inverted m) := by
  delta trainBlock
  extract_lets x1
  refine Frame.ite ?_ ?_
  · refine Frame.ite ?_ ?_
    · refine onLane_fr (partsIn_sub (by decide) hL) ?_
      assumption
    · assumption
  · refine Frame.ite ?_ ?_
    · assumption
    · refine Frame.ite ?_ ?_
      · refine laneFail_fr (partsIn_sub (by decide) hL) ?_
        assumption
      · refine Frame.ite ?_ ?_
        · refine swapPair_fr (partsIn_sub (by decide) hL) ?_
          refine onLane_fr (partsIn_sub (by decide) hL) ?_
          assumption
        · refine Frame.ite ?_ ?_
          · refine onLane_fr (partsIn_sub (by decide) hL) ?_
            assumption
          · refine Frame.ite ?_ ?_
            · refine onLane_fr (partsIn_sub (by decide) hL) ?_
              assumption
            · refine keyBegin_fr (partsIn_sub (by decide) hL) ?_
              assumption

theorem laneHostile_fr {L : List Part} {org : Mach} {cause l m} (hL : [.msix, .log, .lanes, .heads, .ev .glb, .ev .lane, .ev .mgt, .outs] ⊆ L) (h_m : Frame L org m) :
    Frame L org (laneHostile cause l m) := by
  delta laneHostile
  refine Frame.ite ?_ ?_
  · assumption
  · extract_lets x1 x2
    have hx2 : Frame L org x2 := by
      unfold x2
      refine onLane_fr (partsIn_sub (by decide) hL) ?_
      refine laneSet_fr (partsIn_sub (by decide) hL) ?_
      assumption
    clear_value x2
    refine raise_fr (partsIn_sub (by simp only [EvReg.kind]; decide) hL) ?_
    refine whenM_fr (fun _ _ => ?_) ?_
    · refine leftUp_fr (partsIn_sub (by decide) hL) ?_
      assumption
    · assumption

theorem headSilence_fr {L : List Part} {org : Mach} {h m} (hL : [.sig] ⊆ L) (h_m : Frame L org m) :
    Frame L org (headSilence h m) := by
  delta headSilence
  refine eachM_fr (fun _ _ _ => ?_) ?_
  · refine sigInvalidate_fr (partsIn_sub (by decide) hL) ?_
    assumption
  · assumption

theorem sealFail_fr {L : List Part} {org : Mach} {l sfn m} (hL : [.msix, .bytes, .mem, .log, .job, .imp, .beams, .mpl, .cells, .sig, .lanes, .heads, .ilk, .ev .glb, .ev .job, .ev .imp, .ev .beam, .ev .lane, .ev .mgt, .outs] ⊆ L) (h_m : Frame L org m) :
    Frame L org (sealFail l sfn m) := by
  delta sealFail
  extract_lets x1 x2 x3 x4 x5 x6 x7
  have hx2 : Frame L org x2 := by
    unfold x2
    refine eachM_fr (fun _ _ _ => ?_) ?_
    · refine laneHostile_fr (partsIn_sub (by decide) hL) ?_
      assumption
    · assumption
  clear_value x2
  have hx3 : Frame L org x3 := by
    unfold x3
    refine log_fr (partsIn_sub (by decide) hL) ?_
    assumption
  clear_value x3
  have hx4 : Frame L org x4 := by
    unfold x4
    refine headSilence_fr (partsIn_sub (by decide) hL) ?_
    refine onHead_fr (partsIn_sub (by decide) hL) ?_
    assumption
  clear_value x4
  have hx6 : Frame L org x6 := by
    unfold x6
    refine ilkDrive_fr (partsIn_sub (by decide) hL) ?_
    refine onIlk_fr (partsIn_sub (by decide) hL) ?_
    assumption
  clear_value x6
  have hx7 : Frame L org x7 := by
    unfold x7
    refine eachM_fr (fun _ _ _ => ?_) ?_
    · refine sigInvalidate_fr (partsIn_sub (by decide) hL) ?_
      assumption
    · assumption
  clear_value x7
  refine Frame.ite ?_ ?_
  · assumption
  · refine retire_fr (partsIn_sub (by decide) hL) ?_
    refine gateForced_fr (partsIn_sub (by decide) hL) ?_
    assumption

theorem keyBlock_fr {L : List Part} {org : Mach} {l step data m} (hL : [.msix, .bytes, .mem, .log, .time, .job, .imp, .beams, .mpl, .cells, .sig, .lanes, .heads, .ilk, .ev .glb, .ev .job, .ev .imp, .ev .beam, .ev .lane, .ev .time, .ev .mgt, .outs] ⊆ L) (h_m : Frame L org m) :
    Frame L org (keyBlock l step data m) := by
  delta keyBlock
  extract_lets x1 x2 x3 x4
  have hx4 : Frame L org x4 := by
    unfold x4
    refine onLane_fr (partsIn_sub (by decide) hL) ?_
    refine laneTo_fr (partsIn_sub (by decide) hL) ?_
    assumption
  clear_value x4
  refine Frame.ite ?_ ?_
  · assumption
  · refine Frame.ite ?_ ?_
    · refine onLane_fr (partsIn_sub (by decide) hL) ?_
      assumption
    · refine Frame.ite ?_ ?_
      · refine Frame.ite ?_ ?_
        · refine emit_fr (partsIn_sub (by decide) hL) ?_
          assumption
        · refine log_fr (partsIn_sub (by decide) hL) ?_
          refine laneHostile_fr (partsIn_sub (by decide) hL) ?_
          assumption
      · assumption

theorem soakJudge_fr {L : List Part} {org : Mach} {l m} (hL : [.msix, .bytes, .mem, .log, .time, .job, .imp, .beams, .mpl, .cells, .sig, .lanes, .heads, .ilk, .ev .glb, .ev .job, .ev .imp, .ev .beam, .ev .lane, .ev .time, .ev .mgt, .outs] ⊆ L) (h_m : Frame L org m) :
    Frame L org (soakJudge l m) := by
  delta soakJudge
  split
  · refine laneEnterUp_fr (partsIn_sub (by decide) hL) ?_
    assumption
  · refine trainFails_fr (partsIn_sub (by decide) hL) ?_
    assumption
  · assumption

theorem soakEnd_fr {L : List Part} {org : Mach} {l errors m} (hL : [.msix, .bytes, .mem, .log, .time, .job, .imp, .beams, .mpl, .cells, .sig, .lanes, .heads, .ilk, .ev .glb, .ev .job, .ev .imp, .ev .beam, .ev .lane, .ev .time, .ev .mgt, .outs] ⊆ L) (h_m : Frame L org m) :
    Frame L org (soakEnd l errors m) := by
  delta soakEnd
  refine Frame.ite ?_ ?_
  · refine soakJudge_fr (partsIn_sub (by decide) hL) ?_
    refine onLane_fr (partsIn_sub (by decide) hL) ?_
    assumption
  · assumption

theorem soakResult_fr {L : List Part} {org : Mach} {l errors m} (hL : [.msix, .bytes, .mem, .log, .time, .job, .imp, .beams, .mpl, .cells, .sig, .lanes, .heads, .ilk, .ev .glb, .ev .job, .ev .imp, .ev .beam, .ev .lane, .ev .time, .ev .mgt, .outs] ⊆ L) (h_m : Frame L org m) :
    Frame L org (soakResult l errors m) := by
  delta soakResult
  refine Frame.ite ?_ ?_
  · refine soakJudge_fr (partsIn_sub (by decide) hL) ?_
    refine onLane_fr (partsIn_sub (by decide) hL) ?_
    assumption
  · assumption

theorem sealBlock_fr {L : List Part} {org : Mach} {l s m} (hL : [.msix, .bytes, .mem, .log, .job, .imp, .beams, .mpl, .cells, .sig, .lanes, .heads, .ilk, .ev .glb, .ev .job, .ev .imp, .ev .beam, .ev .lane, .ev .mgt, .outs] ⊆ L) (h_m : Frame L org m) :
    Frame L org (sealBlock l s m) := by
  delta sealBlock
  extract_lets x1 x2 x3
  have hx2 : Frame L org x2 := by
    unfold x2
    refine onLane_fr (partsIn_sub (by decide) hL) ?_
    assumption
  clear_value x2
  refine Frame.ite ?_ ?_
  · assumption
  · refine Frame.ite ?_ ?_
    · refine raise_fr (partsIn_sub (by simp only [EvReg.kind]; decide) hL) ?_
      refine onLane_fr (partsIn_sub (by decide) hL) ?_
      assumption
    · refine Frame.ite ?_ ?_
      · refine onLane_fr (partsIn_sub (by decide) hL) ?_
        assumption
      · refine sealFail_fr (partsIn_sub (by decide) hL) ?_
        assumption

theorem signalLoss_fr {L : List Part} {org : Mach} {l m} (hL : [.msix, .bytes, .mem, .log, .time, .job, .imp, .beams, .mpl, .cells, .sig, .lanes, .heads, .ilk, .ev .glb, .ev .job, .ev .imp, .ev .beam, .ev .lane, .ev .time, .ev .mgt, .outs] ⊆ L) (h_m : Frame L org m) :
    Frame L org (signalLoss l m) := by
  delta signalLoss
  extract_lets x1
  have hx1 : Frame L org x1 := by
    unfold x1
    refine onLane_fr (partsIn_sub (by decide) hL) ?_
    assumption
  clear_value x1
  refine Frame.ite ?_ ?_
  · refine laneRetrains_fr (partsIn_sub (by decide) hL) ?_
    assumption
  · refine trainFails_fr (partsIn_sub (by decide) hL) ?_
    assumption

theorem lockLost_fr {L : List Part} {org : Mach} {l m} (hL : [.msix, .bytes, .mem, .log, .time, .job, .imp, .beams, .mpl, .cells, .sig, .lanes, .heads, .ilk, .ev .glb, .ev .job, .ev .imp, .ev .beam, .ev .lane, .ev .time, .ev .mgt, .outs] ⊆ L) (h_m : Frame L org m) :
    Frame L org (lockLost l m) := by
  delta lockLost
  refine Frame.ite ?_ ?_
  · assumption
  · extract_lets x1
    have hx1 : Frame L org x1 := by
      unfold x1
      refine onLane_fr (partsIn_sub (by decide) hL) ?_
      assumption
    clear_value x1
    refine Frame.ite ?_ ?_
    · refine laneRetrains_fr (partsIn_sub (by decide) hL) ?_
      assumption
    · refine trainFails_fr (partsIn_sub (by decide) hL) ?_
      assumption

theorem trainTimeout_fr {L : List Part} {org : Mach} {l m} (hL : [.msix, .bytes, .mem, .log, .time, .job, .imp, .beams, .mpl, .cells, .sig, .lanes, .heads, .ilk, .ev .glb, .ev .job, .ev .imp, .ev .beam, .ev .lane, .ev .time, .ev .mgt, .outs] ⊆ L) (h_m : Frame L org m) :
    Frame L org (trainTimeout l m) := by
  delta trainTimeout
  refine Frame.ite ?_ ?_
  · refine trainFails_fr (partsIn_sub (by decide) hL) ?_
    assumption
  · assumption

theorem crcLimit_fr {L : List Part} {org : Mach} {l m} (hL : [.msix, .bytes, .mem, .log, .time, .job, .imp, .beams, .mpl, .cells, .sig, .lanes, .heads, .ilk, .ev .glb, .ev .job, .ev .imp, .ev .beam, .ev .lane, .ev .time, .ev .mgt, .outs] ⊆ L) (h_m : Frame L org m) :
    Frame L org (crcLimit l m) := by
  delta crcLimit
  split
  · refine Frame.ite ?_ ?_
    · refine laneRetrains_fr (partsIn_sub (by decide) hL) ?_
      assumption
    · assumption
  · assumption

theorem voidLimit_fr {L : List Part} {org : Mach} {l m} (hL : [.msix, .bytes, .mem, .log, .time, .job, .imp, .beams, .mpl, .cells, .sig, .lanes, .heads, .ilk, .ev .glb, .ev .job, .ev .imp, .ev .beam, .ev .lane, .ev .time, .ev .mgt, .outs] ⊆ L) (h_m : Frame L org m) :
    Frame L org (voidLimit l m) := by
  delta voidLimit
  refine Frame.ite ?_ ?_
  · refine laneRetrains_fr (partsIn_sub (by decide) hL) ?_
    assumption
  · assumption

theorem retryElapsed_fr {L : List Part} {org : Mach} {l m} (hL : [.msix, .bytes, .mem, .log, .time, .job, .imp, .beams, .mpl, .cells, .sig, .lanes, .heads, .ilk, .ev .glb, .ev .job, .ev .imp, .ev .beam, .ev .lane, .ev .time, .ev .mgt, .outs] ⊆ L) (h_m : Frame L org m) :
    Frame L org (retryElapsed l m) := by
  delta retryElapsed
  refine Frame.ite ?_ ?_
  · refine laneDetect_fr (partsIn_sub (by decide) hL) ?_
    assumption
  · assumption

theorem routed_fr {L : List Part} {org : Mach} {l fsw m} (hL : [.msix, .log, .heads, .ev .glb, .ev .lane, .ev .mgt, .outs] ⊆ L) (h_m : Frame L org m) :
    Frame L org (routed l fsw m) := by
  delta routed
  extract_lets x1 x2
  split
  · refine Frame.ite ?_ ?_
    · assumption
    · extract_lets x3 x4
      have hx3 : Frame L org x3 := by
        unfold x3
        refine onHead_fr (partsIn_sub (by decide) hL) ?_
        assumption
      clear_value x3
      have hx4 : Frame L org x4 := by
        unfold x4
        refine whenM_fr (fun _ _ => ?_) ?_
        · refine raise_fr (partsIn_sub (by simp only [EvReg.kind]; decide) hL) ?_
          assumption
        · assumption
      clear_value x4
      split
      · refine repair_fr (partsIn_sub (by decide) hL) ?_
        assumption
      · assumption
  · assumption

theorem headFault_fr {L : List Part} {org : Mach} {h code reason m} (hL : [.msix, .bytes, .mem, .log, .job, .imp, .beams, .mpl, .cells, .sig, .heads, .ilk, .ev .job, .ev .imp, .ev .beam, .ev .mgt, .outs] ⊆ L) (h_m : Frame L org m) :
    Frame L org (headFault h code reason m) := by
  delta headFault
  extract_lets x1
  have hx1 : Frame L org x1 := by
    unfold x1
    refine log_fr (partsIn_sub (by decide) hL) ?_
    assumption
  clear_value x1
  refine Frame.ite ?_ ?_
  · refine retire_fr (partsIn_sub (by decide) hL) ?_
    assumption
  · assumption

theorem driftFresh_fr {L : List Part} {org : Mach} {h m} (hL : [.beams] ⊆ L) (h_m : Frame L org m) :
    Frame L org (driftFresh h m) := by
  delta driftFresh
  refine Frame.ite ?_ ?_
  · refine onBeam_fr (partsIn_sub (by decide) hL) ?_
    assumption
  · assumption

theorem statusArrive_fr {L : List Part} {org : Mach} {l f m} (hL : [.msix, .bytes, .mem, .log, .job, .imp, .beams, .mpl, .cells, .sig, .heads, .ilk, .hlt, .ev .job, .ev .imp, .ev .beam, .ev .mgt, .outs] ⊆ L) (h_m : Frame L org m) :
    Frame L org (statusArrive l f m) := by
  delta statusArrive
  extract_lets x1 x2 x3 x4 x5 x6 x7 x8 x9 x10 x11 x12
  have hf_x5 : ∀ a0 a1 m, Frame L org m → Frame L org (x5 a0 a1 m) := by
    intro a0 a1 m hm
    unfold x5
    refine sigWriteAt_fr (partsIn_sub (by decide) hL) ?_
    assumption
  clear_value x5
  have hx9 : Frame L org x9 := by
    unfold x9
    refine Frame.ite ?_ ?_
    · refine sigBlock_fr (partsIn_sub (by decide) hL) ?_
      apply hf_x5
      apply hf_x5
      apply hf_x5
      apply hf_x5
      assumption
    · apply hf_x5
      apply hf_x5
      apply hf_x5
      apply hf_x5
      assumption
  clear_value x9
  have hx11 : Frame L org x11 := by
    unfold x11
    refine onHead_fr (partsIn_sub (by decide) hL) ?_
    refine driftFresh_fr (partsIn_sub (by decide) hL) ?_
    assumption
  clear_value x11
  have hx12 : Frame L org x12 := by
    unfold x12
    refine Frame.ite ?_ ?_
    · refine whenM_fr (fun _ _ => ?_) ?_
      · refine headFault_fr (partsIn_sub (by decide) hL) ?_
        assumption
      · assumption
    · refine Frame.ite ?_ ?_
      · refine whenM_fr (fun _ _ => ?_) ?_
        · refine headFault_fr (partsIn_sub (by decide) hL) ?_
          assumption
        · assumption
      · assumption
  clear_value x12
  refine calCheck_fr (partsIn_sub (by decide) hL) ?_
  assumption

theorem statusTimeout_fr {L : List Part} {org : Mach} {h m} (hL : [.msix, .bytes, .mem, .log, .job, .imp, .beams, .mpl, .cells, .sig, .heads, .ilk, .ev .job, .ev .imp, .ev .beam, .ev .mgt, .outs] ⊆ L) (h_m : Frame L org m) :
    Frame L org (statusTimeout h m) := by
  delta statusTimeout
  refine Frame.ite ?_ ?_
  · refine headFault_fr (partsIn_sub (by decide) hL) ?_
    refine onHead_fr (partsIn_sub (by decide) hL) ?_
    assumption
  · assumption

theorem floodTimeout_fr {L : List Part} {org : Mach} {h m} (hL : [.msix, .bytes, .mem, .log, .job, .imp, .beams, .mpl, .cells, .sig, .heads, .ilk, .ev .job, .ev .imp, .ev .beam, .ev .mgt, .outs] ⊆ L) (h_m : Frame L org m) :
    Frame L org (floodTimeout h m) := by
  delta floodTimeout
  extract_lets x1
  refine Frame.ite ?_ ?_
  · refine whenM_fr (fun _ _ => ?_) ?_
    · refine headFault_fr (partsIn_sub (by decide) hL) ?_
      assumption
    · assumption
  · assumption

theorem releaseCheck_fr {L : List Part} {org : Mach} {b m} (hL : [.heads, .outs] ⊆ L) (h_m : Frame L org m) :
    Frame L org (releaseCheck b m) := by
  delta releaseCheck
  extract_lets x1
  refine Frame.ite ?_ ?_
  · refine releaseSend_fr (partsIn_sub (by decide) hL) ?_
    assumption
  · assumption

theorem laneRefuse_fr {L : List Part} {org : Mach} {l m} (hL : [.msix, .ev .glb, .ev .lane, .outs] ⊆ L) (h_m : Frame L org m) :
    Frame L org (laneRefuse l m) := by
  delta laneRefuse
  refine refuse_fr (partsIn_sub (by simp only [EvReg.kind]; decide) hL) ?_
  assumption

theorem laneCmd_fr {L : List Part} {org : Mach} {l errors w m} (hL : [.msix, .bytes, .mem, .log, .time, .job, .imp, .beams, .mpl, .cells, .sig, .lanes, .heads, .ilk, .ev .glb, .ev .job, .ev .imp, .ev .beam, .ev .lane, .ev .time, .ev .mgt, .outs] ⊆ L) (h_m : Frame L org m) :
    Frame L org (laneCmd l errors w m) := by
  delta laneCmd
  extract_lets x1
  refine Frame.ite ?_ ?_
  · refine laneRefuse_fr (partsIn_sub (by decide) hL) ?_
    assumption
  · split
    · refine Frame.ite ?_ ?_
      · refine Frame.ite ?_ ?_
        · refine laneRefuse_fr (partsIn_sub (by decide) hL) ?_
          assumption
        · refine laneRetrains_fr (partsIn_sub (by decide) hL) ?_
          assumption
      · refine Frame.ite ?_ ?_
        · refine laneDetect_fr (partsIn_sub (by decide) hL) ?_
          assumption
        · refine laneRefuse_fr (partsIn_sub (by decide) hL) ?_
          assumption
    · refine Frame.ite ?_ ?_
      · refine onLane_fr (partsIn_sub (by decide) hL) ?_
        assumption
      · refine laneRefuse_fr (partsIn_sub (by decide) hL) ?_
        assumption
    · refine Frame.ite ?_ ?_
      · refine laneRefuse_fr (partsIn_sub (by decide) hL) ?_
        assumption
      · refine onLane_fr (partsIn_sub (by decide) hL) ?_
        refine laneTo_fr (partsIn_sub (by decide) hL) ?_
        assumption
    · refine Frame.ite ?_ ?_
      · refine laneDetect_fr (partsIn_sub (by decide) hL) ?_
        refine onLane_fr (partsIn_sub (by decide) hL) ?_
        assumption
      · refine laneRefuse_fr (partsIn_sub (by decide) hL) ?_
        assumption
    · refine laneRefuse_fr (partsIn_sub (by decide) hL) ?_
      assumption

theorem laneInject_fr {L : List Part} {org : Mach} {l w m} (hL : [.msix, .lanes, .ev .glb, .ev .lane, .outs] ⊆ L) (h_m : Frame L org m) :
    Frame L org (laneInject l w m) := by
  delta laneInject
  extract_lets x1
  refine Frame.ite ?_ ?_
  · refine laneRefuse_fr (partsIn_sub (by decide) hL) ?_
    assumption
  · refine Frame.ite ?_ ?_
    · refine laneRefuse_fr (partsIn_sub (by decide) hL) ?_
      assumption
    · refine Frame.ite ?_ ?_
      · refine onLane_fr (partsIn_sub (by decide) hL) ?_
        refine emit_fr (partsIn_sub (by decide) hL) ?_
        assumption
      · refine Frame.ite ?_ ?_
        · refine onLane_fr (partsIn_sub (by decide) hL) ?_
          assumption
        · refine emit_fr (partsIn_sub (by decide) hL) ?_
          assumption

theorem execLaneSignalDetect_fr {L : List Part} {org : Mach} {l s} (hL : [.msix, .bytes, .mem, .log, .time, .job, .imp, .beams, .mpl, .cells, .sig, .lanes, .heads, .ilk, .ev .glb, .ev .job, .ev .imp, .ev .beam, .ev .lane, .ev .time, .ev .mgt, .outs] ⊆ L) (h_s : Frame L org s.m) :
    OutFrame L org (execLaneSignalDetect l s) := by
  delta execLaneSignalDetect
  refine act_fr (fun _ _ => ?_) h_s
  refine signalSeen_fr (partsIn_sub (by decide) hL) ?_
  assumption

theorem execLaneDetectTimeout_fr {L : List Part} {org : Mach} {l s} (hL : [.msix, .lanes, .ev .lane, .outs] ⊆ L) (h_s : Frame L org s.m) :
    OutFrame L org (execLaneDetectTimeout l s) := by
  delta execLaneDetectTimeout
  refine act_fr (fun _ _ => ?_) h_s
  refine detectTimeout_fr (partsIn_sub (by decide) hL) ?_
  assumption

theorem execLaneEqualiseDone_fr {L : List Part} {org : Mach} {l s} (hL : [.msix, .bytes, .mem, .log, .time, .job, .imp, .beams, .mpl, .cells, .sig, .lanes, .heads, .ilk, .ev .glb, .ev .job, .ev .imp, .ev .beam, .ev .lane, .ev .time, .ev .mgt, .outs] ⊆ L) (h_s : Frame L org s.m) :
    OutFrame L org (execLaneEqualiseDone l s) := by
  delta execLaneEqualiseDone
  refine act_fr (fun _ _ => ?_) h_s
  refine equalised_fr (partsIn_sub (by decide) hL) ?_
  assumption

theorem execLaneAlignLock_fr {L : List Part} {org : Mach} {l s} (hL : [.msix, .bytes, .mem, .log, .time, .job, .imp, .beams, .mpl, .cells, .sig, .lanes, .heads, .ilk, .ev .glb, .ev .job, .ev .imp, .ev .beam, .ev .lane, .ev .time, .ev .mgt, .outs] ⊆ L) (h_s : Frame L org s.m) :
    OutFrame L org (execLaneAlignLock l s) := by
  delta execLaneAlignLock
  refine act_fr (fun _ _ => ?_) h_s
  refine alignLocked_fr (partsIn_sub (by decide) hL) ?_
  assumption

theorem execTrainBlock_fr {L : List Part} {org : Mach} {l seen port rate ident inverted s} (hL : [.msix, .bytes, .mem, .log, .time, .job, .imp, .beams, .mpl, .cells, .sig, .lanes, .heads, .ilk, .ev .glb, .ev .job, .ev .imp, .ev .beam, .ev .lane, .ev .time, .ev .mgt, .outs, .free] ⊆ L) (h_s : Frame L org s.m) :
    OutFrame L org (execTrainBlock l seen port rate ident inverted s) := by
  delta execTrainBlock
  refine act_fr (fun _ _ => ?_) h_s
  refine trainBlock_fr (partsIn_sub (by decide) hL) ?_
  assumption

theorem execKeyBlock_fr {L : List Part} {org : Mach} {l step data s} (hL : [.msix, .bytes, .mem, .log, .time, .job, .imp, .beams, .mpl, .cells, .sig, .lanes, .heads, .ilk, .ev .glb, .ev .job, .ev .imp, .ev .beam, .ev .lane, .ev .time, .ev .mgt, .outs] ⊆ L) (h_s : Frame L org s.m) :
    OutFrame L org (execKeyBlock l step data s) := by
  delta execKeyBlock
  refine act_fr (fun _ _ => ?_) h_s
  refine keyBlock_fr (partsIn_sub (by decide) hL) ?_
  assumption

theorem execLaneSoakEnd_fr {L : List Part} {org : Mach} {l errors s} (hL : [.msix, .bytes, .mem, .log, .time, .job, .imp, .beams, .mpl, .cells, .sig, .lanes, .heads, .ilk, .ev .glb, .ev .job, .ev .imp, .ev .beam, .ev .lane, .ev .time, .ev .mgt, .outs] ⊆ L) (h_s : Frame L org s.m) :
    OutFrame L org (execLaneSoakEnd l errors s) := by
  delta execLaneSoakEnd
  refine act_fr (fun _ _ => ?_) h_s
  refine soakEnd_fr (partsIn_sub (by decide) hL) ?_
  assumption

theorem execLaneTrainTimeout_fr {L : List Part} {org : Mach} {l s} (hL : [.msix, .bytes, .mem, .log, .time, .job, .imp, .beams, .mpl, .cells, .sig, .lanes, .heads, .ilk, .ev .glb, .ev .job, .ev .imp, .ev .beam, .ev .lane, .ev .time, .ev .mgt, .outs] ⊆ L) (h_s : Frame L org s.m) :
    OutFrame L org (execLaneTrainTimeout l s) := by
  delta execLaneTrainTimeout
  refine act_fr (fun _ _ => ?_) h_s
  refine trainTimeout_fr (partsIn_sub (by decide) hL) ?_
  assumption

theorem execLaneSignalLoss_fr {L : List Part} {org : Mach} {l s} (hL : [.msix, .bytes, .mem, .log, .time, .job, .imp, .beams, .mpl, .cells, .sig, .lanes, .heads, .ilk, .ev .glb, .ev .job, .ev .imp, .ev .beam, .ev .lane, .ev .time, .ev .mgt, .outs] ⊆ L) (h_s : Frame L org s.m) :
    OutFrame L org (execLaneSignalLoss l s) := by
  delta execLaneSignalLoss
  refine act_fr (fun _ _ => ?_) h_s
  refine signalLoss_fr (partsIn_sub (by decide) hL) ?_
  assumption

theorem execLaneLockLost_fr {L : List Part} {org : Mach} {l s} (hL : [.msix, .bytes, .mem, .log, .time, .job, .imp, .beams, .mpl, .cells, .sig, .lanes, .heads, .ilk, .ev .glb, .ev .job, .ev .imp, .ev .beam, .ev .lane, .ev .time, .ev .mgt, .outs] ⊆ L) (h_s : Frame L org s.m) :
    OutFrame L org (execLaneLockLost l s) := by
  delta execLaneLockLost
  refine act_fr (fun _ _ => ?_) h_s
  refine lockLost_fr (partsIn_sub (by decide) hL) ?_
  assumption

theorem execLaneCrcLimit_fr {L : List Part} {org : Mach} {l s} (hL : [.msix, .bytes, .mem, .log, .time, .job, .imp, .beams, .mpl, .cells, .sig, .lanes, .heads, .ilk, .ev .glb, .ev .job, .ev .imp, .ev .beam, .ev .lane, .ev .time, .ev .mgt, .outs] ⊆ L) (h_s : Frame L org s.m) :
    OutFrame L org (execLaneCrcLimit l s) := by
  delta execLaneCrcLimit
  refine act_fr (fun _ _ => ?_) h_s
  refine crcLimit_fr (partsIn_sub (by decide) hL) ?_
  assumption

theorem execLaneVoidLimit_fr {L : List Part} {org : Mach} {l s} (hL : [.msix, .bytes, .mem, .log, .time, .job, .imp, .beams, .mpl, .cells, .sig, .lanes, .heads, .ilk, .ev .glb, .ev .job, .ev .imp, .ev .beam, .ev .lane, .ev .time, .ev .mgt, .outs] ⊆ L) (h_s : Frame L org s.m) :
    OutFrame L org (execLaneVoidLimit l s) := by
  delta execLaneVoidLimit
  refine act_fr (fun _ _ => ?_) h_s
  refine voidLimit_fr (partsIn_sub (by decide) hL) ?_
  assumption

theorem execLaneRetryElapsed_fr {L : List Part} {org : Mach} {l s} (hL : [.msix, .bytes, .mem, .log, .time, .job, .imp, .beams, .mpl, .cells, .sig, .lanes, .heads, .ilk, .ev .glb, .ev .job, .ev .imp, .ev .beam, .ev .lane, .ev .time, .ev .mgt, .outs] ⊆ L) (h_s : Frame L org s.m) :
    OutFrame L org (execLaneRetryElapsed l s) := by
  delta execLaneRetryElapsed
  refine act_fr (fun _ _ => ?_) h_s
  refine retryElapsed_fr (partsIn_sub (by decide) hL) ?_
  assumption

theorem execSealBlock_fr {L : List Part} {org : Mach} {l f s} (hL : [.msix, .bytes, .mem, .log, .job, .imp, .beams, .mpl, .cells, .sig, .lanes, .heads, .ilk, .ev .glb, .ev .job, .ev .imp, .ev .beam, .ev .lane, .ev .mgt, .outs] ⊆ L) (h_s : Frame L org s.m) :
    OutFrame L org (execSealBlock l f s) := by
  delta execSealBlock
  refine act_fr (fun _ _ => ?_) h_s
  refine sealBlock_fr (partsIn_sub (by decide) hL) ?_
  assumption

theorem execSwitchRouted_fr {L : List Part} {org : Mach} {l fsw s} (hL : [.msix, .log, .heads, .ev .glb, .ev .lane, .ev .mgt, .outs] ⊆ L) (h_s : Frame L org s.m) :
    OutFrame L org (execSwitchRouted l fsw s) := by
  delta execSwitchRouted
  refine act_fr (fun _ _ => ?_) h_s
  refine routed_fr (partsIn_sub (by decide) hL) ?_
  assumption

theorem execSwitchSoakResult_fr {L : List Part} {org : Mach} {l errors s} (hL : [.msix, .bytes, .mem, .log, .time, .job, .imp, .beams, .mpl, .cells, .sig, .lanes, .heads, .ilk, .ev .glb, .ev .job, .ev .imp, .ev .beam, .ev .lane, .ev .time, .ev .mgt, .outs] ⊆ L) (h_s : Frame L org s.m) :
    OutFrame L org (execSwitchSoakResult l errors s) := by
  delta execSwitchSoakResult
  refine act_fr (fun _ _ => ?_) h_s
  refine soakResult_fr (partsIn_sub (by decide) hL) ?_
  assumption

theorem execStatusFrame_fr {L : List Part} {org : Mach} {l f s} (hL : [.msix, .bytes, .mem, .log, .job, .imp, .beams, .mpl, .cells, .sig, .lanes, .heads, .ilk, .hlt, .ev .job, .ev .imp, .ev .beam, .ev .lane, .ev .mgt, .outs] ⊆ L) (h_s : Frame L org s.m) :
    OutFrame L org (execStatusFrame l f s) := by
  delta execStatusFrame
  refine act_fr (fun _ _ => ?_) h_s
  refine rxFrame_fr (partsIn_sub (by decide) hL) (fun _ _ => ?_) ?_
  · refine statusArrive_fr (partsIn_sub (by decide) hL) ?_
    assumption
  · assumption

theorem execCmdKeepalive_fr {L : List Part} {org : Mach} {b s} (hL : [.heads, .outs] ⊆ L) (h_s : Frame L org s.m) :
    OutFrame L org (execCmdKeepalive b s) := by
  delta execCmdKeepalive
  refine act_fr (fun _ _ => ?_) h_s
  refine cmdSend_fr (partsIn_sub (by decide) hL) ?_
  assumption

theorem execAuxCmdKeepalive_fr {L : List Part} {org : Mach} {a s} (hL : [.heads, .outs] ⊆ L) (h_s : Frame L org s.m) :
    OutFrame L org (execAuxCmdKeepalive a s) := by
  delta execAuxCmdKeepalive
  refine act_fr (fun _ _ => ?_) h_s
  refine cmdSend_fr (partsIn_sub (by decide) hL) ?_
  assumption

theorem execReleaseSend_fr {L : List Part} {org : Mach} {b s} (hL : [.heads, .outs] ⊆ L) (h_s : Frame L org s.m) :
    OutFrame L org (execReleaseSend b s) := by
  delta execReleaseSend
  refine act_fr (fun _ _ => ?_) h_s
  refine releaseCheck_fr (partsIn_sub (by decide) hL) ?_
  assumption

theorem execStatusTimeout_fr {L : List Part} {org : Mach} {h s} (hL : [.msix, .bytes, .mem, .log, .job, .imp, .beams, .mpl, .cells, .sig, .heads, .ilk, .ev .job, .ev .imp, .ev .beam, .ev .mgt, .outs] ⊆ L) (h_s : Frame L org s.m) :
    OutFrame L org (execStatusTimeout h s) := by
  delta execStatusTimeout
  refine act_fr (fun _ _ => ?_) h_s
  refine statusTimeout_fr (partsIn_sub (by decide) hL) ?_
  assumption

theorem execFloodTimeout_fr {L : List Part} {org : Mach} {h s} (hL : [.msix, .bytes, .mem, .log, .job, .imp, .beams, .mpl, .cells, .sig, .heads, .ilk, .ev .job, .ev .imp, .ev .beam, .ev .mgt, .outs] ⊆ L) (h_s : Frame L org s.m) :
    OutFrame L org (execFloodTimeout h s) := by
  delta execFloodTimeout
  refine act_fr (fun _ _ => ?_) h_s
  refine floodTimeout_fr (partsIn_sub (by decide) hL) ?_
  assumption

theorem execLaneRetrain_fr {L : List Part} {org : Mach} {p l hi s} (hL : [.g, .msix, .bytes, .mem, .log, .time, .job, .imp, .beams, .mpl, .cells, .sig, .lanes, .heads, .ilk, .ev .glb, .ev .job, .ev .imp, .ev .beam, .ev .lane, .ev .time, .ev .mgt, .outs] ⊆ L) (h_s : Frame L org s.m) :
    OutFrame L org (execLaneRetrain p l hi s) := by
  delta execLaneRetrain
  refine act_fr (fun _ _ => ?_) h_s
  refine writeGate_fr (partsIn_sub (by decide) hL) (fun _ _ => ?_) ?_
  · refine laneCmd_fr (partsIn_sub (by decide) hL) ?_
    assumption
  · assumption

theorem execEyeScan_fr {L : List Part} {org : Mach} {p l hi s} (hL : [.g, .msix, .bytes, .mem, .log, .time, .job, .imp, .beams, .mpl, .cells, .sig, .lanes, .heads, .ilk, .ev .glb, .ev .job, .ev .imp, .ev .beam, .ev .lane, .ev .time, .ev .mgt, .outs] ⊆ L) (h_s : Frame L org s.m) :
    OutFrame L org (execEyeScan p l hi s) := by
  delta execEyeScan
  refine act_fr (fun _ _ => ?_) h_s
  refine writeGate_fr (partsIn_sub (by decide) hL) (fun _ _ => ?_) ?_
  · refine laneCmd_fr (partsIn_sub (by decide) hL) ?_
    assumption
  · assumption

theorem execTestEnter_fr {L : List Part} {org : Mach} {p l hi s} (hL : [.g, .msix, .bytes, .mem, .log, .time, .job, .imp, .beams, .mpl, .cells, .sig, .lanes, .heads, .ilk, .ev .glb, .ev .job, .ev .imp, .ev .beam, .ev .lane, .ev .time, .ev .mgt, .outs] ⊆ L) (h_s : Frame L org s.m) :
    OutFrame L org (execTestEnter p l hi s) := by
  delta execTestEnter
  refine act_fr (fun _ _ => ?_) h_s
  refine writeGate_fr (partsIn_sub (by decide) hL) (fun _ _ => ?_) ?_
  · refine laneCmd_fr (partsIn_sub (by decide) hL) ?_
    assumption
  · assumption

theorem execTestExit_fr {L : List Part} {org : Mach} {p l hi errors s} (hL : [.g, .msix, .bytes, .mem, .log, .time, .job, .imp, .beams, .mpl, .cells, .sig, .lanes, .heads, .ilk, .ev .glb, .ev .job, .ev .imp, .ev .beam, .ev .lane, .ev .time, .ev .mgt, .outs] ⊆ L) (h_s : Frame L org s.m) :
    OutFrame L org (execTestExit p l hi errors s) := by
  delta execTestExit
  refine act_fr (fun _ _ => ?_) h_s
  refine writeGate_fr (partsIn_sub (by decide) hL) (fun _ _ => ?_) ?_
  · refine laneCmd_fr (partsIn_sub (by decide) hL) ?_
    assumption
  · assumption

theorem execInjectBitError_fr {L : List Part} {org : Mach} {p l hi s} (hL : [.g, .msix, .log, .lanes, .ev .glb, .ev .lane, .ev .mgt, .outs] ⊆ L) (h_s : Frame L org s.m) :
    OutFrame L org (execInjectBitError p l hi s) := by
  delta execInjectBitError
  refine act_fr (fun _ _ => ?_) h_s
  refine writeGate_fr (partsIn_sub (by decide) hL) (fun _ _ => ?_) ?_
  · refine laneInject_fr (partsIn_sub (by decide) hL) ?_
    assumption
  · assumption

theorem execInjectErrorRate_fr {L : List Part} {org : Mach} {p l hi s} (hL : [.g, .msix, .log, .lanes, .ev .glb, .ev .lane, .ev .mgt, .outs] ⊆ L) (h_s : Frame L org s.m) :
    OutFrame L org (execInjectErrorRate p l hi s) := by
  delta execInjectErrorRate
  refine act_fr (fun _ _ => ?_) h_s
  refine writeGate_fr (partsIn_sub (by decide) hL) (fun _ _ => ?_) ?_
  · refine laneInject_fr (partsIn_sub (by decide) hL) ?_
    assumption
  · assumption

theorem execInjectStop_fr {L : List Part} {org : Mach} {p l hi s} (hL : [.g, .msix, .log, .lanes, .ev .glb, .ev .lane, .ev .mgt, .outs] ⊆ L) (h_s : Frame L org s.m) :
    OutFrame L org (execInjectStop p l hi s) := by
  delta execInjectStop
  refine act_fr (fun _ _ => ?_) h_s
  refine writeGate_fr (partsIn_sub (by decide) hL) (fun _ _ => ?_) ?_
  · refine laneInject_fr (partsIn_sub (by decide) hL) ?_
    assumption
  · assumption

theorem execInjectInvalidHeader_fr {L : List Part} {org : Mach} {p l hi s} (hL : [.g, .msix, .log, .lanes, .ev .glb, .ev .lane, .ev .mgt, .outs] ⊆ L) (h_s : Frame L org s.m) :
    OutFrame L org (execInjectInvalidHeader p l hi s) := by
  delta execInjectInvalidHeader
  refine act_fr (fun _ _ => ?_) h_s
  refine writeGate_fr (partsIn_sub (by decide) hL) (fun _ _ => ?_) ?_
  · refine laneInject_fr (partsIn_sub (by decide) hL) ?_
    assumption
  · assumption

theorem execInjectCrcError_fr {L : List Part} {org : Mach} {p l hi s} (hL : [.g, .msix, .log, .lanes, .ev .glb, .ev .lane, .ev .mgt, .outs] ⊆ L) (h_s : Frame L org s.m) :
    OutFrame L org (execInjectCrcError p l hi s) := by
  delta execInjectCrcError
  refine act_fr (fun _ _ => ?_) h_s
  refine writeGate_fr (partsIn_sub (by decide) hL) (fun _ _ => ?_) ?_
  · refine laneInject_fr (partsIn_sub (by decide) hL) ?_
    assumption
  · assumption

theorem execInjectSealError_fr {L : List Part} {org : Mach} {p l hi s} (hL : [.g, .msix, .log, .lanes, .ev .glb, .ev .lane, .ev .mgt, .outs] ⊆ L) (h_s : Frame L org s.m) :
    OutFrame L org (execInjectSealError p l hi s) := by
  delta execInjectSealError
  refine act_fr (fun _ _ => ?_) h_s
  refine writeGate_fr (partsIn_sub (by decide) hL) (fun _ _ => ?_) ?_
  · refine laneInject_fr (partsIn_sub (by decide) hL) ?_
    assumption
  · assumption

end Sys2Proof.Machine
end

