-- ==== Sys2Proof/Laws/Frame/HealthOps.lean ====
section
/-!
SUPPORT. The parts of the device that the operations of Machine/HealthOps.lean can touch: one lemma per operation.
-/

namespace Sys2Proof.Machine

theorem planRequest_fr {L : List Part} {org : Mach} {q unit value limit m} (hL : [.msix, .log, .ev .glb, .ev .mgt, .outs, .free] ⊆ L) (h_m : Frame L org m) :
    Frame L org (planRequest q unit value limit m) := by
  delta planRequest
  refine raise_fr (partsIn_sub (by simp only [EvReg.kind]; decide) hL) ?_
  refine healthLog_fr (partsIn_sub (by decide) hL) ?_
  assumption

theorem driftCheck_fr {L : List Part} {org : Mach} {c m} (hL : [.msix, .mem, .log, .ev .glb, .ev .mgt, .outs, .free] ⊆ L) (h_m : Frame L org m) :
    Frame L org (driftCheck c m) := by
  delta driftCheck
  extract_lets x1 x2
  split
  · extract_lets x3
    refine Frame.ite ?_ ?_
    · refine planRequest_fr (partsIn_sub (by decide) hL) ?_
      refine onCh_fr (partsIn_sub (by decide) hL) ?_
      assumption
    · assumption

theorem tempRead_fr {L : List Part} {org : Mach} {core io mv m} (hL : [.g, .msix, .clk, .boot, .mem, .log, .beams, .cells, .sig, .hlt, .ev .glb, .ev .imp, .ev .hlt, .ev .mgt, .outs, .free] ⊆ L) (h_m : Frame L org m) :
    Frame L org (tempRead core io mv m) := by
  delta tempRead
  refine Frame.ite ?_ ?_
  · assumption
  · extract_lets x1 x2
    have hx1 : Frame L org x1 := by
      unfold x1
      refine onHlt_fr (partsIn_sub (by decide) hL) ?_
      refine takeRecord_fr (partsIn_sub (by decide) hL) ?_
      assumption
    clear_value x1
    have hx2 : Frame L org x2 := by
      unfold x2
      refine throttleNow_fr (partsIn_sub (by decide) hL) ?_
      assumption
    clear_value x2
    refine driftCheck_fr (partsIn_sub (by decide) hL) ?_
    refine driftCheck_fr (partsIn_sub (by decide) hL) ?_
    refine calCheck_fr (partsIn_sub (by decide) hL) ?_
    assumption

theorem mr4Poll_fr {L : List Part} {org : Mach} {t0 t1 r0 r1 h0 h1 m} (hL : [.msix, .mem, .log, .sig, .hlt, .ev .mem, .ev .hlt, .ev .mgt, .outs, .free] ⊆ L) (h_m : Frame L org m) :
    Frame L org (mr4Poll t0 t1 r0 r1 h0 h1 m) := by
  delta mr4Poll
  refine Frame.ite ?_ ?_
  · assumption
  · extract_lets x1 x2
    have hx1 : Frame L org x1 := by
      unfold x1
      refine onCh_fr (partsIn_sub (by decide) hL) ?_
      refine onCh_fr (partsIn_sub (by decide) hL) ?_
      assumption
    clear_value x1
    have hx2 : Frame L org x2 := by
      unfold x2
      refine whenM_fr (fun _ _ => ?_) ?_
      · refine raise_fr (partsIn_sub (by simp only [EvReg.kind]; decide) hL) ?_
        assumption
      · refine onHlt_fr (partsIn_sub (by decide) hL) ?_
        assumption
    clear_value x2
    refine whenM_fr (fun _ _ => ?_) ?_
    · refine throttleNow_fr (partsIn_sub (by decide) hL) ?_
      assumption
    · assumption

theorem throttleElapsed_fr {L : List Part} {org : Mach} {m} (hL : [.msix, .log, .sig, .hlt, .ev .hlt, .ev .mgt, .outs, .free] ⊆ L) (h_m : Frame L org m) :
    Frame L org (throttleElapsed m) := by
  delta throttleElapsed
  refine whenM_fr (fun _ _ => ?_) ?_
  · refine throttleTimer_fr (partsIn_sub (by decide) hL) ?_
    assumption
  · assumption

theorem thermalShutdown_fr {L : List Part} {org : Mach} {m} (hL : [.g, .msix, .aon, .clk, .boot, .mem, .log, .imp, .beams, .mpl, .cells, .sig, .heads, .stg, .ilk, .hlt, .ev .boot, .ev .imp, .ev .cellArr, .ev .stg, .ev .hlt, .ev .mgt, .outs, .free] ⊆ L) (h_m : Frame L org m) :
    Frame L org (thermalShutdown m) := by
  delta thermalShutdown
  refine Frame.ite ?_ ?_
  · assumption
  · extract_lets x1 x2 x3 x4 x5 x6 x7
    have hx1 : Frame L org x1 := by
      unfold x1
      refine ilkDrive_fr (partsIn_sub (by decide) hL) ?_
      refine onIlk_fr (partsIn_sub (by decide) hL) ?_
      assumption
    clear_value x1
    have hx3 : Frame L org x3 := by
      unfold x3
      refine safeRest_fr (partsIn_sub (by decide) hL) ?_
      refine Frame.upd ?_ (.inr rfl) (.inr rfl) (.inr rfl) (.inr rfl) (.inr rfl) (.inl (hL (by decide))) (.inr rfl) (.inr rfl) (.inr rfl) (.inr rfl) (.inr rfl) (.inr rfl) (.inr rfl) (.inr rfl) (.inr rfl) (.inr rfl) (.inr rfl) (.inr rfl) (.inr rfl) (.inr rfl) (.inr rfl) (.inr rfl) (.inr rfl) (.inr rfl) (.inr rfl) (.inr rfl) rfl
      assumption
    clear_value x3
    have hx5 : Frame L org x5 := by
      unfold x5
      refine pinsFollow_fr (partsIn_sub (by decide) hL) ?_
      refine devSignals_fr (partsIn_sub (by decide) hL) ?_
      refine onHlt_fr (partsIn_sub (by decide) hL) ?_
      refine Frame.upd ?_ (.inr rfl) (.inr rfl) (.inr rfl) (.inl (hL (by decide))) (.inr rfl) (.inr rfl) (.inr rfl) (.inr rfl) (.inr rfl) (.inr rfl) (.inr rfl) (.inr rfl) (.inr rfl) (.inr rfl) (.inr rfl) (.inr rfl) (.inr rfl) (.inr rfl) (.inr rfl) (.inr rfl) (.inr rfl) (.inr rfl) (.inr rfl) (.inr rfl) (.inr rfl) (.inr rfl) rfl
      assumption
    clear_value x5
    refine Frame.upd ?_ (.inr rfl) (.inr rfl) (.inr rfl) (.inl (hL (by decide))) (.inr rfl) (.inr rfl) (.inl (hL (by decide))) (.inr rfl) (.inr rfl) (.inr rfl) (.inr rfl) (.inr rfl) (.inr rfl) (.inr rfl) (.inr rfl) (.inr rfl) (.inr rfl) (.inr rfl) (.inr rfl) (.inr rfl) (.inr rfl) (.inr rfl) (.inr rfl) (.inr rfl) (.inr rfl) (.inr rfl) rfl
    assumption

theorem canary_fr {L : List Part} {org : Mach} {m} (hL : [.g, .msix, .clk, .boot, .mem, .mgt, .log, .imp, .beams, .mpl, .cells, .sig, .heads, .stg, .ilk, .hlt, .ev .glb, .ev .boot, .ev .imp, .ev .cellArr, .ev .stg, .ev .hlt, .ev .mgt, .outs, .free] ⊆ L) (h_m : Frame L org m) :
    Frame L org (canary m) := by
  delta canary
  extract_lets x1 x2 x3 x4 x5 x6
  have hx5 : Frame L org x5 := by
    unfold x5
    refine onHlt_fr (partsIn_sub (by decide) hL) ?_
    assumption
  clear_value x5
  have hx6 : Frame L org x6 := by
    unfold x6
    refine raise_fr (partsIn_sub (by simp only [EvReg.kind]; decide) hL) ?_
    refine onHlt_fr (partsIn_sub (by decide) hL) ?_
    assumption
  clear_value x6
  refine Frame.ite ?_ ?_
  · assumption
  · refine Frame.ite ?_ ?_
    · refine Frame.ite ?_ ?_
      · assumption
      · refine repair_fr (partsIn_sub (by decide) hL) ?_
        refine raise_fr (partsIn_sub (by simp only [EvReg.kind]; decide) hL) ?_
        assumption
    · refine Frame.ite ?_ ?_
      · refine faultSafeHold_fr (partsIn_sub (by decide) hL) ?_
        assumption
      · assumption

theorem vcoreOff_fr {L : List Part} {org : Mach} {mv m} (hL : [.msix, .log, .hlt, .ev .hlt, .ev .mgt, .outs, .free] ⊆ L) (h_m : Frame L org m) :
    Frame L org (vcoreOff mv m) := by
  delta vcoreOff
  extract_lets x1
  refine Frame.ite ?_ ?_
  · refine raise_fr (partsIn_sub (by simp only [EvReg.kind]; decide) hL) ?_
    refine healthLog_fr (partsIn_sub (by decide) hL) ?_
    refine onHlt_fr (partsIn_sub (by decide) hL) ?_
    assumption
  · assumption

theorem touchstone_fr {L : List Part} {org : Mach} {dMax m} (hL : [.msix, .log, .hlt, .ev .hlt, .ev .mgt, .outs, .free] ⊆ L) (h_m : Frame L org m) :
    Frame L org (touchstone dMax m) := by
  delta touchstone
  refine Frame.ite ?_ ?_
  · assumption
  · extract_lets x1 x2
    have hx1 : Frame L org x1 := by
      unfold x1
      refine onHlt_fr (partsIn_sub (by decide) hL) ?_
      assumption
    clear_value x1
    refine whenM_fr (fun _ _ => ?_) ?_
    · refine raise_fr (partsIn_sub (by simp only [EvReg.kind]; decide) hL) ?_
      refine healthLog_fr (partsIn_sub (by decide) hL) ?_
      assumption
    · assumption

theorem cellHourly_fr {L : List Part} {org : Mach} {c m} (hL : [.msix, .log, .cells, .hlt, .ev .glb, .ev .cellArr, .ev .hlt, .ev .mgt, .outs, .free] ⊆ L) (h_m : Frame L org m) :
    Frame L org (cellHourly c m) := by
  delta cellHourly
  extract_lets x1 x2 x3
  have hx3 : Frame L org x3 := by
    unfold x3
    refine onHlt_fr (partsIn_sub (by decide) hL) ?_
    assumption
  clear_value x3
  refine Frame.ite ?_ ?_
  · refine substAuto_fr (partsIn_sub (by decide) hL) ?_
    refine planRequest_fr (partsIn_sub (by decide) hL) ?_
    refine raise_fr (partsIn_sub (by simp only [EvReg.kind]; decide) hL) ?_
    assumption
  · assumption

theorem hourly_fr {L : List Part} {org : Mach} {m} (hL : [.msix, .mem, .log, .cells, .hlt, .ev .glb, .ev .cellArr, .ev .hlt, .ev .mgt, .outs, .free] ⊆ L) (h_m : Frame L org m) :
    Frame L org (hourly m) := by
  delta hourly
  refine Frame.ite ?_ ?_
  · assumption
  · extract_lets x1 x2 x3 x4
    have hx3 : Frame L org x3 := by
      unfold x3
      refine onHlt_fr (partsIn_sub (by decide) hL) ?_
      assumption
    clear_value x3
    have hf_x4 : ∀ m, Frame L org m → Frame L org (x4 m) := by
      intro m hm
      unfold x4
      refine planRequest_fr (partsIn_sub (by decide) hL) ?_
      refine onCh_fr (partsIn_sub (by decide) hL) ?_
      refine onCh_fr (partsIn_sub (by decide) hL) ?_
      refine raise_fr (partsIn_sub (by simp only [EvReg.kind]; decide) hL) ?_
      assumption
    clear_value x4
    refine eachM_fr (fun _ _ _ => ?_) ?_
    · refine cellHourly_fr (partsIn_sub (by decide) hL) ?_
      assumption
    · refine whenM_fr (fun _ _ => ?_) ?_
      · apply hf_x4
        assumption
      · assumption

theorem eyeSchedule_fr {L : List Part} {org : Mach} {m} (hL : [.lanes, .hlt] ⊆ L) (h_m : Frame L org m) :
    Frame L org (eyeSchedule m) := by
  delta eyeSchedule
  extract_lets x1
  split
  · refine Frame.ite ?_ ?_
    · assumption
    · refine onLane_fr (partsIn_sub (by decide) hL) ?_
      refine onHlt_fr (partsIn_sub (by decide) hL) ?_
      assumption
  · assumption

theorem eyeDone_fr {L : List Part} {org : Mach} {l w h m} (hL : [.msix, .log, .lanes, .hlt, .ev .glb, .ev .lane, .ev .hlt, .ev .mgt, .outs, .free] ⊆ L) (h_m : Frame L org m) :
    Frame L org (eyeDone l w h m) := by
  delta eyeDone
  refine Frame.ite ?_ ?_
  · assumption
  · extract_lets x1 x2 x3 x4 x5
    have hx1 : Frame L org x1 := by
      unfold x1
      refine raise_fr (partsIn_sub (by simp only [EvReg.kind]; decide) hL) ?_
      refine onLane_fr (partsIn_sub (by decide) hL) ?_
      assumption
    clear_value x1
    have hx3 : Frame L org x3 := by
      unfold x3
      refine onHlt_fr (partsIn_sub (by decide) hL) ?_
      assumption
    clear_value x3
    refine Frame.ite ?_ ?_
    · split
      · refine planRequest_fr (partsIn_sub (by decide) hL) ?_
        refine raise_fr (partsIn_sub (by simp only [EvReg.kind]; decide) hL) ?_
        refine onHlt_fr (partsIn_sub (by decide) hL) ?_
        assumption
    · assumption

theorem laneRequest_fr {L : List Part} {org : Mach} {l m} (hL : [.msix, .bytes, .mem, .log, .time, .job, .imp, .beams, .mpl, .cells, .sig, .lanes, .heads, .ilk, .hlt, .ev .glb, .ev .job, .ev .imp, .ev .beam, .ev .lane, .ev .time, .ev .mgt, .outs] ⊆ L) (h_m : Frame L org m) :
    Frame L org (laneRequest l m) := by
  delta laneRequest
  extract_lets x1 x2
  refine Frame.ite ?_ ?_
  · assumption
  · refine laneRetrains_fr (partsIn_sub (by decide) hL) ?_
    refine onHlt_fr (partsIn_sub (by decide) hL) ?_
    assumption

theorem onLaser_fr {L : List Part} {org : Mach} {b f m} (hL : [.hlt] ⊆ L) (h_m : Frame L org m) :
    Frame L org (onLaser b f m) := by
  delta onLaser
  refine onHlt_fr (partsIn_sub (by decide) hL) ?_
  assumption

theorem laserSample_fr {L : List Part} {org : Mach} {b m} (hL : [.hlt] ⊆ L) (h_m : Frame L org m) :
    Frame L org (laserSample b m) := by
  delta laserSample
  split
  · assumption
  · extract_lets x1 x2
    refine Frame.ite ?_ ?_
    · refine onLaser_fr (partsIn_sub (by decide) hL) ?_
      assumption
    · assumption

theorem laserUpdate_fr {L : List Part} {org : Mach} {b m} (hL : [.hlt] ⊆ L) (h_m : Frame L org m) :
    Frame L org (laserUpdate b m) := by
  delta laserUpdate
  extract_lets x1 x2
  refine Frame.ite ?_ ?_
  · assumption
  · refine onLaser_fr (partsIn_sub (by decide) hL) ?_
    assumption

theorem laserEval_fr {L : List Part} {org : Mach} {b m} (hL : [.msix, .bytes, .mem, .log, .job, .imp, .beams, .mpl, .cells, .sig, .heads, .ilk, .hlt, .ev .glb, .ev .job, .ev .imp, .ev .beam, .ev .hlt, .ev .mgt, .outs, .free] ⊆ L) (h_m : Frame L org m) :
    Frame L org (laserEval b m) := by
  delta laserEval
  extract_lets x1 x2 x3 x4 x5 x6 x7 x8 x9 x10 x11 x12
  have hx9 : Frame L org x9 := by
    unfold x9
    refine onLaser_fr (partsIn_sub (by decide) hL) ?_
    assumption
  clear_value x9
  have hx10 : Frame L org x10 := by
    unfold x10
    refine onImp_fr (partsIn_sub (by decide) hL) ?_
    assumption
  clear_value x10
  have hx11 : Frame L org x11 := by
    unfold x11
    refine Frame.ite ?_ ?_
    · assumption
    · refine weightsFollow_fr (partsIn_sub (by decide) hL) ?_
      refine repair_fr (partsIn_sub (by decide) hL) ?_
      refine raise_fr (partsIn_sub (by simp only [EvReg.kind]; decide) hL) ?_
      refine raise_fr (partsIn_sub (by simp only [EvReg.kind]; decide) hL) ?_
      assumption
  clear_value x11
  have hx12 : Frame L org x12 := by
    unfold x12
    refine whenM_fr (fun _ _ => ?_) ?_
    · refine raise_fr (partsIn_sub (by simp only [EvReg.kind]; decide) hL) ?_
      assumption
    · assumption
  clear_value x12
  refine Frame.ite ?_ ?_
  · assumption
  · refine Frame.ite ?_ ?_
    · refine retire_fr (partsIn_sub (by decide) hL) ?_
      refine raise_fr (partsIn_sub (by simp only [EvReg.kind]; decide) hL) ?_
      refine healthLog_fr (partsIn_sub (by decide) hL) ?_
      refine onLaser_fr (partsIn_sub (by decide) hL) ?_
      assumption
    · assumption

theorem notchMeasure_fr {L : List Part} {org : Mach} {e peak edge m} (hL : [.g, .msix, .bytes, .mem, .log, .cells, .hlt, .ev .glb, .ev .dma, .ev .boot, .ev .job, .ev .imp, .ev .beam, .ev .mpl, .ev .hmap, .ev .sig, .ev .cell, .ev .cellArr, .ev .lane, .ev .stg, .ev .ilk, .ev .time, .ev .mem, .ev .clk, .ev .pwr, .ev .hlt, .ev .mgt, .regs, .outs, .free] ⊆ L) (h_m : Frame L org m) :
    Frame L org (notchMeasure e peak edge m) := by
  delta notchMeasure
  split
  · assumption
  · split
    · extract_lets x1 x2 x3 x4 x5 x6 x7 x8
      have hx4 : Frame L org x4 := by
        unfold x4
        refine onHlt_fr (partsIn_sub (by decide) hL) ?_
        assumption
      clear_value x4
      refine Frame.ite ?_ ?_
      · assumption
      · refine Frame.ite ?_ ?_
        · refine regSet_fr (partsIn_sub (by decide) hL) ?_
          refine trcCtrlWrite_fr (partsIn_sub (by decide) hL) ?_
          assumption
        · refine Frame.ite ?_ ?_
          · refine raise_fr (partsIn_sub (by simp only [EvReg.kind]; decide) hL) ?_
            refine healthLog_fr (partsIn_sub (by decide) hL) ?_
            assumption
          · refine Frame.ite ?_ ?_
            · refine onHlt_fr (partsIn_sub (by decide) hL) ?_
              assumption
            · assumption
    · assumption

theorem mgmtCommit_fr {L : List Part} {org : Mach} {id ws m} (hL : [.g, .msix, .clk, .boot, .mem, .log, .beams, .cells, .sig, .ev .glb, .ev .boot, .ev .imp, .ev .mgt, .outs] ⊆ L) (h_m : Frame L org m) :
    Frame L org (mgmtCommit id ws m).2 := by
  delta mgmtCommit
  extract_lets x1
  split
  · refine Frame.mk2 ?_
    assumption
  · refine Frame.ite2 ?_ ?_
    · refine Frame.mk2 ?_
      refine recRefuse_fr (partsIn_sub (by decide) hL) ?_
      refine lockErr_fr (partsIn_sub (by decide) hL) ?_
      assumption
    · split
      · refine Frame.mk2 ?_
        refine recRefuse_fr (partsIn_sub (by decide) hL) ?_
        refine accErr_fr (partsIn_sub (by decide) hL) ?_
        assumption
      · refine Frame.mk2 ?_
        refine recAccept_fr (partsIn_sub (by decide) hL) ?_
        assumption

theorem notchCommit_fr {L : List Part} {org : Mach} {e m} (hL : [.g, .msix, .clk, .boot, .mem, .log, .beams, .cells, .sig, .hlt, .ev .glb, .ev .boot, .ev .imp, .ev .hlt, .ev .mgt, .outs] ⊆ L) (h_m : Frame L org m) :
    Frame L org (notchCommit e m) := by
  delta notchCommit
  split
  · extract_lets x1 x2
    refine Frame.ite ?_ ?_
    · assumption
    · split
      · rename_i heq
        refine Frame.let2 (l := L) (b := org) heq ?_ (fun _ => ?_)
        · refine mgmtCommit_fr (partsIn_sub (by decide) hL) ?_
          refine onHlt_fr (partsIn_sub (by decide) hL) ?_
          assumption
        refine Frame.ite ?_ ?_
        · refine repair_fr (partsIn_sub (by decide) hL) ?_
          refine raise_fr (partsIn_sub (by simp only [EvReg.kind]; decide) hL) ?_
          assumption
        · assumption
  · assumption

theorem winCheck_fr {L : List Part} {org : Mach} {c rd wr m} (hL : [.msix, .log, .ev .hlt, .ev .mgt, .outs, .free] ⊆ L) (h_m : Frame L org m) :
    Frame L org (winCheck c rd wr m) := by
  delta winCheck
  extract_lets x1 x2
  refine whenM_fr (fun _ _ => ?_) ?_
  · refine raise_fr (partsIn_sub (by simp only [EvReg.kind]; decide) hL) ?_
    refine healthLog_fr (partsIn_sub (by decide) hL) ?_
    assumption
  · assumption

theorem trainedNow_fr {L : List Part} {org : Mach} {c m} (hL : [.hlt] ⊆ L) (h_m : Frame L org m) :
    Frame L org (trainedNow c m) := by
  delta trainedNow
  refine onHlt_fr (partsIn_sub (by decide) hL) ?_
  assumption

theorem resumeAfter_fr {L : List Part} {org : Mach} {m} (hL : [.g, .msix, .clk, .boot, .bytes, .mem, .mgt, .log, .time, .job, .imp, .beams, .mpl, .hmap, .cells, .sig, .heads, .stg, .ilk, .ev .glb, .ev .boot, .ev .job, .ev .imp, .ev .beam, .ev .cellArr, .ev .stg, .ev .mem, .ev .hlt, .ev .mgt, .outs, .free] ⊆ L) (h_m : Frame L org m) :
    Frame L org (resumeAfter m) := by
  delta resumeAfter
  refine Frame.ite ?_ ?_
  · assumption
  · extract_lets x1
    have hx1 : Frame L org x1 := by
      unfold x1
      refine eachM_fr (fun _ _ _ => ?_) ?_
      · refine onMpl_fr (partsIn_sub (by decide) hL) ?_
        assumption
      · assumption
    clear_value x1
    refine whenM_fr (fun _ _ => ?_) ?_
    · refine jobResume_fr (partsIn_sub (by decide) hL) ?_
      assumption
    · refine onJob_fr (partsIn_sub (by decide) hL) ?_
      assumption

theorem retrainOver_fr {L : List Part} {org : Mach} {c ok rd wr m} (hL : [.g, .msix, .clk, .boot, .bytes, .mem, .mgt, .log, .time, .job, .imp, .beams, .mpl, .hmap, .cells, .sig, .heads, .stg, .ilk, .hlt, .ev .glb, .ev .boot, .ev .job, .ev .imp, .ev .beam, .ev .cellArr, .ev .stg, .ev .mem, .ev .hlt, .ev .mgt, .outs, .free] ⊆ L) (h_m : Frame L org m) :
    Frame L org (retrainOver c ok rd wr m) := by
  delta retrainOver
  refine Frame.ite ?_ ?_
  · assumption
  · refine resumeAfter_fr (partsIn_sub (by decide) hL) ?_
    refine whenM_fr (fun _ _ => ?_) ?_
    · refine winCheck_fr (partsIn_sub (by decide) hL) ?_
      assumption
    · refine trainedNow_fr (partsIn_sub (by decide) hL) ?_
      refine retrainEnd_fr (partsIn_sub (by decide) hL) ?_
      assumption

theorem hltCmd_fr {L : List Part} {org : Mach} {w m} (hL : [.msix, .hlt, .ev .glb, .ev .hlt, .outs] ⊆ L) (h_m : Frame L org m) :
    Frame L org (hltCmd w m) := by
  delta hltCmd
  refine Frame.ite ?_ ?_
  · refine refuse_fr (partsIn_sub (by simp only [EvReg.kind]; decide) hL) ?_
    assumption
  · refine eachM_fr (fun _ _ _ => ?_) ?_
    · refine calStart_fr (partsIn_sub (by decide) hL) ?_
      assumption
    · assumption

theorem execTempRead_fr {L : List Part} {org : Mach} {core io mv s} (hL : [.g, .msix, .clk, .boot, .mem, .log, .beams, .cells, .sig, .hlt, .ev .glb, .ev .imp, .ev .hlt, .ev .mgt, .outs, .free] ⊆ L) (h_s : Frame L org s.m) :
    OutFrame L org (execTempRead core io mv s) := by
  delta execTempRead
  refine act_fr (fun _ _ => ?_) h_s
  refine tempRead_fr (partsIn_sub (by decide) hL) ?_
  assumption

theorem execThrottleTimer_fr {L : List Part} {org : Mach} {s} (hL : [.msix, .log, .sig, .hlt, .ev .hlt, .ev .mgt, .outs, .free] ⊆ L) (h_s : Frame L org s.m) :
    OutFrame L org (execThrottleTimer s) := by
  delta execThrottleTimer
  refine act_fr (fun _ _ => ?_) h_s
  refine throttleElapsed_fr (partsIn_sub (by decide) hL) ?_
  assumption

theorem execThermalShutdown_fr {L : List Part} {org : Mach} {s} (hL : [.g, .msix, .aon, .clk, .boot, .mem, .log, .imp, .beams, .mpl, .cells, .sig, .heads, .stg, .ilk, .hlt, .ev .boot, .ev .imp, .ev .cellArr, .ev .stg, .ev .hlt, .ev .mgt, .outs, .free] ⊆ L) (h_s : Frame L org s.m) :
    OutFrame L org (execThermalShutdown s) := by
  delta execThermalShutdown
  refine act_fr (fun _ _ => ?_) h_s
  refine thermalShutdown_fr (partsIn_sub (by decide) hL) ?_
  assumption

theorem execCanaryLimit_fr {L : List Part} {org : Mach} {s} (hL : [.g, .msix, .clk, .boot, .mem, .mgt, .log, .imp, .beams, .mpl, .cells, .sig, .heads, .stg, .ilk, .hlt, .ev .glb, .ev .boot, .ev .imp, .ev .cellArr, .ev .stg, .ev .hlt, .ev .mgt, .outs, .free] ⊆ L) (h_s : Frame L org s.m) :
    OutFrame L org (execCanaryLimit s) := by
  delta execCanaryLimit
  refine act_fr (fun _ _ => ?_) h_s
  refine canary_fr (partsIn_sub (by decide) hL) ?_
  assumption

theorem execVcoreMismatch_fr {L : List Part} {org : Mach} {mv s} (hL : [.msix, .log, .hlt, .ev .hlt, .ev .mgt, .outs, .free] ⊆ L) (h_s : Frame L org s.m) :
    OutFrame L org (execVcoreMismatch mv s) := by
  delta execVcoreMismatch
  refine act_fr (fun _ _ => ?_) h_s
  refine vcoreOff_fr (partsIn_sub (by decide) hL) ?_
  assumption

theorem execTouchstoneMeasure_fr {L : List Part} {org : Mach} {dMax s} (hL : [.msix, .log, .hlt, .ev .hlt, .ev .mgt, .outs, .free] ⊆ L) (h_s : Frame L org s.m) :
    OutFrame L org (execTouchstoneMeasure dMax s) := by
  delta execTouchstoneMeasure
  refine act_fr (fun _ _ => ?_) h_s
  refine touchstone_fr (partsIn_sub (by decide) hL) ?_
  assumption

theorem execMarginHourlyCheck_fr {L : List Part} {org : Mach} {s} (hL : [.msix, .mem, .log, .cells, .hlt, .ev .glb, .ev .cellArr, .ev .hlt, .ev .mgt, .outs, .free] ⊆ L) (h_s : Frame L org s.m) :
    OutFrame L org (execMarginHourlyCheck s) := by
  delta execMarginHourlyCheck
  refine act_fr (fun _ _ => ?_) h_s
  refine spareWatch_fr (partsIn_sub (by decide) hL) (fun _ _ => ?_) ?_
  · refine hourly_fr (partsIn_sub (by decide) hL) ?_
    assumption
  · assumption

theorem execEyeScanSchedule_fr {L : List Part} {org : Mach} {s} (hL : [.lanes, .hlt] ⊆ L) (h_s : Frame L org s.m) :
    OutFrame L org (execEyeScanSchedule s) := by
  delta execEyeScanSchedule
  refine act_fr (fun _ _ => ?_) h_s
  refine eyeSchedule_fr (partsIn_sub (by decide) hL) ?_
  assumption

theorem execEyeScanDone_fr {L : List Part} {org : Mach} {l w h s} (hL : [.msix, .log, .lanes, .hlt, .ev .glb, .ev .lane, .ev .hlt, .ev .mgt, .outs, .free] ⊆ L) (h_s : Frame L org s.m) :
    OutFrame L org (execEyeScanDone l w h s) := by
  delta execEyeScanDone
  refine act_fr (fun _ _ => ?_) h_s
  refine eyeDone_fr (partsIn_sub (by decide) hL) ?_
  assumption

theorem execLaneRetrainRequest_fr {L : List Part} {org : Mach} {l s} (hL : [.msix, .bytes, .mem, .log, .time, .job, .imp, .beams, .mpl, .cells, .sig, .lanes, .heads, .ilk, .hlt, .ev .glb, .ev .job, .ev .imp, .ev .beam, .ev .lane, .ev .time, .ev .mgt, .outs] ⊆ L) (h_s : Frame L org s.m) :
    OutFrame L org (execLaneRetrainRequest l s) := by
  delta execLaneRetrainRequest
  refine act_fr (fun _ _ => ?_) h_s
  refine laneRequest_fr (partsIn_sub (by decide) hL) ?_
  assumption

theorem execLaserMonSample_fr {L : List Part} {org : Mach} {b s} (hL : [.hlt] ⊆ L) (h_s : Frame L org s.m) :
    OutFrame L org (execLaserMonSample b s) := by
  delta execLaserMonSample
  refine act_fr (fun _ _ => ?_) h_s
  refine laserSample_fr (partsIn_sub (by decide) hL) ?_
  assumption

theorem execLaserRatioUpdate_fr {L : List Part} {org : Mach} {b s} (hL : [.hlt] ⊆ L) (h_s : Frame L org s.m) :
    OutFrame L org (execLaserRatioUpdate b s) := by
  delta execLaserRatioUpdate
  refine act_fr (fun _ _ => ?_) h_s
  refine laserUpdate_fr (partsIn_sub (by decide) hL) ?_
  assumption

theorem execLaserEvaluation_fr {L : List Part} {org : Mach} {b s} (hL : [.msix, .bytes, .mem, .log, .job, .imp, .beams, .mpl, .cells, .sig, .heads, .ilk, .hlt, .ev .glb, .ev .job, .ev .imp, .ev .beam, .ev .hlt, .ev .mgt, .outs, .free] ⊆ L) (h_s : Frame L org s.m) :
    OutFrame L org (execLaserEvaluation b s) := by
  delta execLaserEvaluation
  refine act_fr (fun _ _ => ?_) h_s
  refine laserEval_fr (partsIn_sub (by decide) hL) ?_
  assumption

theorem execNotchMeasure_fr {L : List Part} {org : Mach} {e peak edge s} (hL : [.g, .msix, .bytes, .mem, .log, .cells, .hlt, .ev .glb, .ev .dma, .ev .boot, .ev .job, .ev .imp, .ev .beam, .ev .mpl, .ev .hmap, .ev .sig, .ev .cell, .ev .cellArr, .ev .lane, .ev .stg, .ev .ilk, .ev .time, .ev .mem, .ev .clk, .ev .pwr, .ev .hlt, .ev .mgt, .regs, .outs, .free] ⊆ L) (h_s : Frame L org s.m) :
    OutFrame L org (execNotchMeasure e peak edge s) := by
  delta execNotchMeasure
  refine act_fr (fun _ _ => ?_) h_s
  refine notchMeasure_fr (partsIn_sub (by decide) hL) ?_
  assumption

theorem execNotchRetuneCommit_fr {L : List Part} {org : Mach} {e s} (hL : [.g, .msix, .clk, .boot, .mem, .log, .beams, .cells, .sig, .hlt, .ev .glb, .ev .boot, .ev .imp, .ev .hlt, .ev .mgt, .outs] ⊆ L) (h_s : Frame L org s.m) :
    OutFrame L org (execNotchRetuneCommit e s) := by
  delta execNotchRetuneCommit
  refine act_fr (fun _ _ => ?_) h_s
  refine notchCommit_fr (partsIn_sub (by decide) hL) ?_
  assumption

theorem execCal_fr {L : List Part} {org : Mach} {p hi s} (hL : [.g, .msix, .log, .hlt, .ev .glb, .ev .hlt, .ev .mgt, .outs] ⊆ L) (h_s : Frame L org s.m) :
    OutFrame L org (execCal p hi s) := by
  delta execCal
  refine act_fr (fun _ _ => ?_) h_s
  refine writeGate_fr (partsIn_sub (by decide) hL) (fun _ _ => ?_) ?_
  · refine hltCmd_fr (partsIn_sub (by decide) hL) ?_
    assumption
  · assumption

theorem execCalRunDone_fr {L : List Part} {org : Mach} {u r s} (hL : [.msix, .log, .hlt, .ev .glb, .ev .dma, .ev .boot, .ev .job, .ev .imp, .ev .beam, .ev .mpl, .ev .hmap, .ev .sig, .ev .cell, .ev .cellArr, .ev .lane, .ev .stg, .ev .ilk, .ev .time, .ev .mem, .ev .clk, .ev .pwr, .ev .hlt, .ev .mgt, .regs, .outs, .free] ⊆ L) (h_s : Frame L org s.m) :
    OutFrame L org (execCalRunDone u r s) := by
  delta execCalRunDone
  refine act_fr (fun _ _ => ?_) h_s
  refine calRunDone_fr (partsIn_sub (by decide) hL) ?_
  assumption

theorem execCalStep_fr {L : List Part} {org : Mach} {u s} (hL : [.hlt, .ev .glb, .ev .dma, .ev .boot, .ev .job, .ev .imp, .ev .beam, .ev .mpl, .ev .hmap, .ev .sig, .ev .cell, .ev .cellArr, .ev .lane, .ev .stg, .ev .ilk, .ev .time, .ev .mem, .ev .clk, .ev .pwr, .ev .hlt, .ev .mgt, .regs] ⊆ L) (h_s : Frame L org s.m) :
    OutFrame L org (execCalStep u s) := by
  delta execCalStep
  refine act_fr (fun _ _ => ?_) h_s
  refine calStep_fr (partsIn_sub (by decide) hL) ?_
  assumption

theorem execMr4Poll_fr {L : List Part} {org : Mach} {t0 t1 r0 r1 h0 h1 s} (hL : [.msix, .mem, .log, .sig, .hlt, .ev .mem, .ev .hlt, .ev .mgt, .outs, .free] ⊆ L) (h_s : Frame L org s.m) :
    OutFrame L org (execMr4Poll t0 t1 r0 r1 h0 h1 s) := by
  delta execMr4Poll
  refine act_fr (fun _ _ => ?_) h_s
  refine mr4Poll_fr (partsIn_sub (by decide) hL) ?_
  assumption

theorem execRetrainEnd_fr {L : List Part} {org : Mach} {c ok rd wr env s} (hL : [.g, .msix, .clk, .boot, .bytes, .mem, .mgt, .log, .time, .job, .imp, .beams, .mpl, .hmap, .cells, .sig, .heads, .stg, .ilk, .hlt, .ev .glb, .ev .boot, .ev .job, .ev .imp, .ev .beam, .ev .cellArr, .ev .stg, .ev .mem, .ev .hlt, .ev .mgt, .outs, .free] ⊆ L) (h_s : Frame L org s.m) :
    OutFrame L org (execRetrainEnd c ok rd wr s env) := by
  delta execRetrainEnd
  refine act_fr (fun _ _ => ?_) h_s
  refine withEnv_fr (fun _ _ => ?_) ?_
  · replace hL := env_sub hL
    refine retrainOver_fr (partsIn_sub (by decide) hL) ?_
    assumption
  · assumption

end Sys2Proof.Machine
end

