-- ==== Sys2Proof/Laws/Frame/TimeOps.lean ====
section
/-!
SUPPORT. The parts of the device that the operations of Machine/TimeOps.lean can touch: one lemma per operation.
-/

namespace Sys2Proof.Machine

theorem mapSet_fr {L : List Part} {org : Mach} {t m} (hL : [.time] ⊆ L) (h_m : Frame L org m) :
    Frame L org (mapSet t m) := by
  delta mapSet
  refine onTime_fr (partsIn_sub (by decide) hL) ?_
  assumption

theorem ntStep_fr {L : List Part} {org : Mach} {o m} (hL : [.msix, .log, .time, .ev .time, .ev .mgt, .outs, .free] ⊆ L) (h_m : Frame L org m) :
    Frame L org (ntStep o m) := by
  delta ntStep
  extract_lets x1 x2
  split
  · extract_lets x3
    have hx3 : Frame L org x3 := by
      unfold x3
      refine mapSet_fr (partsIn_sub (by decide) hL) ?_
      assumption
    clear_value x3
    refine logClass_fr (partsIn_sub (by decide) hL) ?_
    refine raise_fr (partsIn_sub (by simp only [EvReg.kind]; decide) hL) ?_
    assumption

theorem mapChange_fr {L : List Part} {org : Mach} {dt sec ns rate m} (hL : [.time] ⊆ L) (h_m : Frame L org m) :
    Frame L org (mapChange dt sec ns rate m) := by
  delta mapChange
  refine Frame.ite ?_ ?_
  · refine mapSet_fr (partsIn_sub (by decide) hL) ?_
    assumption
  · assumption

theorem rtcFollow_fr {L : List Part} {org : Mach} {m} (hL : [.aon] ⊆ L) (h_m : Frame L org m) :
    Frame L org (rtcFollow m) := by
  delta rtcFollow
  refine Frame.ite ?_ ?_
  · refine Frame.upd ?_ (.inr rfl) (.inr rfl) (.inr rfl) (.inr rfl) (.inr rfl) (.inl (hL (by decide))) (.inr rfl) (.inr rfl) (.inr rfl) (.inr rfl) (.inr rfl) (.inr rfl) (.inr rfl) (.inr rfl) (.inr rfl) (.inr rfl) (.inr rfl) (.inr rfl) (.inr rfl) (.inr rfl) (.inr rfl) (.inr rfl) (.inr rfl) (.inr rfl) (.inr rfl) (.inr rfl) rfl
    assumption
  · assumption

theorem servoOffset_fr {L : List Part} {org : Mach} {o m0} (hL : [.g, .msix, .clk, .boot, .mem, .log, .time, .beams, .cells, .sig, .ev .imp, .ev .time, .ev .mgt, .outs, .free] ⊆ L) (h_m0 : Frame L org m0) :
    Frame L org (servoOffset o m0) := by
  delta servoOffset
  extract_lets x1 x2 x3 x4 x5 x6 x7
  have hx1 : Frame L org x1 := by
    unfold x1
    refine takeRecord_fr (partsIn_sub (by decide) hL) ?_
    assumption
  clear_value x1
  have hx6 : Frame L org x6 := by
    unfold x6
    refine onTime_fr (partsIn_sub (by decide) hL) ?_
    assumption
  clear_value x6
  have hx7 : Frame L org x7 := by
    unfold x7
    refine whenM_fr (fun _ _ => ?_) ?_
    · refine ntStep_fr (partsIn_sub (by decide) hL) ?_
      assumption
    · assumption
  clear_value x7
  split
  · refine Frame.ite ?_ ?_
    · refine raise_fr (partsIn_sub (by simp only [EvReg.kind]; decide) hL) ?_
      refine onTime_fr (partsIn_sub (by decide) hL) ?_
      assumption
    · assumption
  · refine Frame.ite ?_ ?_
    · assumption
    · refine onTime_fr (partsIn_sub (by decide) hL) ?_
      assumption
  · assumption

theorem ptpRx_fr {L : List Part} {org : Mach} {p type i m} (hL : [.g, .msix, .aon, .clk, .boot, .mem, .log, .time, .beams, .cells, .sig, .ev .imp, .ev .time, .ev .mgt, .outs, .free] ⊆ L) (h_m : Frame L org m) :
    Frame L org (ptpRx p type i m) := by
  delta ptpRx
  refine Frame.ite ?_ ?_
  · assumption
  · extract_lets x1 x2 x3 x4 x5
    have hx3 : Frame L org x3 := by
      unfold x3
      refine onTime_fr (partsIn_sub (by decide) hL) ?_
      assumption
    clear_value x3
    have hx5 : Frame L org x5 := by
      unfold x5
      refine Frame.ite ?_ ?_
      · refine onTime_fr (partsIn_sub (by decide) hL) ?_
        assumption
      · assumption
    clear_value x5
    split
    · refine Frame.ite ?_ ?_
      · refine rtcFollow_fr (partsIn_sub (by decide) hL) ?_
        refine servoOffset_fr (partsIn_sub (by decide) hL) ?_
        assumption
      · assumption
    · assumption

theorem masterLost_fr {L : List Part} {org : Mach} {m} (hL : [.msix, .log, .time, .ev .time, .ev .mgt, .outs, .free] ⊆ L) (h_m : Frame L org m) :
    Frame L org (masterLost m) := by
  delta masterLost
  refine Frame.ite ?_ ?_
  · refine logClass_fr (partsIn_sub (by decide) hL) ?_
    refine raise_fr (partsIn_sub (by simp only [EvReg.kind]; decide) hL) ?_
    refine onTime_fr (partsIn_sub (by decide) hL) ?_
    assumption
  · assumption

theorem ptpTx_fr {L : List Part} {org : Mach} {p bs udp m} (hL : [.outs] ⊆ L) (h_m : Frame L org m) :
    Frame L org (ptpTx p bs udp m) := by
  delta ptpTx
  refine Frame.ite ?_ ?_
  · assumption
  · extract_lets x1 x2
    refine emit_fr (partsIn_sub (by decide) hL) ?_
    assumption

theorem timeSnap_fr {L : List Part} {org : Mach} {w m} (hL : [.msix, .time, .ev .glb, .ev .time, .outs] ⊆ L) (h_m : Frame L org m) :
    Frame L org (timeSnap w m) := by
  delta timeSnap
  refine Frame.ite ?_ ?_
  · refine cmdError_fr (partsIn_sub (by decide) hL) ?_
    assumption
  · split
    · refine raise_fr (partsIn_sub (by simp only [EvReg.kind]; decide) hL) ?_
      refine onTime_fr (partsIn_sub (by decide) hL) ?_
      assumption

theorem onLaneTime_fr {L : List Part} {org : Mach} {l f m} (hL : [.time] ⊆ L) (h_m : Frame L org m) :
    Frame L org (onLaneTime l f m) := by
  delta onLaneTime
  refine onTime_fr (partsIn_sub (by decide) hL) ?_
  assumption

theorem tsyncOn_fr {L : List Part} {org : Mach} {l m} (hL : [.time, .heads, .outs] ⊆ L) (h_m : Frame L org m) :
    Frame L org (tsyncOn l m) := by
  delta tsyncOn
  extract_lets x1 x2 x3
  have hx3 : Frame L org x3 := by
    unfold x3
    refine sendOn_fr (partsIn_sub (by decide) hL) ?_
    refine bucketCredit_fr (partsIn_sub (by decide) hL) ?_
    assumption
  clear_value x3
  refine onLaneTime_fr (partsIn_sub (by decide) hL) ?_
  assumption

theorem tsyncSend_fr {L : List Part} {org : Mach} {m} (hL : [.time, .heads, .outs] ⊆ L) (h_m : Frame L org m) :
    Frame L org (tsyncSend m) := by
  delta tsyncSend
  refine eachM_fr (fun _ _ _ => ?_) ?_
  · refine tsyncOn_fr (partsIn_sub (by decide) hL) ?_
    assumption
  · assumption

theorem alignJudge_fr {L : List Part} {org : Mach} {h off m} (hL : [.msix, .bytes, .mem, .log, .time, .job, .imp, .beams, .mpl, .cells, .sig, .heads, .ilk, .ev .job, .ev .imp, .ev .beam, .ev .time, .ev .mgt, .outs] ⊆ L) (h_m : Frame L org m) :
    Frame L org (alignJudge h off m) := by
  delta alignJudge
  extract_lets x1 x2 x3 x4 x5 x6 x7 x8
  have hx7 : Frame L org x7 := by
    unfold x7
    refine onTime_fr (partsIn_sub (by decide) hL) ?_
    assumption
  clear_value x7
  have hx8 : Frame L org x8 := by
    unfold x8
    refine whenM_fr (fun _ _ => ?_) ?_
    · refine raise_fr (partsIn_sub (by simp only [EvReg.kind]; decide) hL) ?_
      assumption
    · assumption
  clear_value x8
  refine Frame.dite (fun _ => ?_) (fun _ => ?_)
  · refine Frame.ite ?_ ?_
    · refine retire_fr (partsIn_sub (by decide) hL) ?_
      refine log_fr (partsIn_sub (by decide) hL) ?_
      assumption
    · assumption
  · assumption

theorem tsyncAnswer_fr {L : List Part} {org : Mach} {l f m} (hL : [.g, .msix, .clk, .boot, .bytes, .mem, .log, .time, .job, .imp, .beams, .mpl, .cells, .sig, .heads, .ilk, .ev .job, .ev .imp, .ev .beam, .ev .time, .ev .mgt, .outs] ⊆ L) (h_m : Frame L org m) :
    Frame L org (tsyncAnswer l f m) := by
  delta tsyncAnswer
  extract_lets x1 x2 x3 x4 x5 x6 x7 x8 x9 x10 x11 x12
  have hx2 : Frame L org x2 := by
    unfold x2
    refine takeRecord_fr (partsIn_sub (by decide) hL) ?_
    assumption
  clear_value x2
  have hx12 : Frame L org x12 := by
    unfold x12
    refine onLaneTime_fr (partsIn_sub (by decide) hL) ?_
    assumption
  clear_value x12
  split
  · refine onTime_fr (partsIn_sub (by decide) hL) ?_
    assumption
  · refine Frame.ite ?_ ?_
    · refine alignJudge_fr (partsIn_sub (by decide) hL) ?_
      assumption
    · assumption

theorem execPtpEventRx_fr {L : List Part} {org : Mach} {p type i s} (hL : [.g, .msix, .aon, .clk, .boot, .mem, .log, .time, .beams, .cells, .sig, .ev .imp, .ev .time, .ev .mgt, .outs, .free] ⊆ L) (h_s : Frame L org s.m) :
    OutFrame L org (execPtpEventRx p type i s) := by
  delta execPtpEventRx
  refine act_fr (fun _ _ => ?_) h_s
  refine ptpRx_fr (partsIn_sub (by decide) hL) ?_
  assumption

theorem execPtpTx_fr {L : List Part} {org : Mach} {p bytes udp s} (hL : [.outs] ⊆ L) (h_s : Frame L org s.m) :
    OutFrame L org (execPtpTx p bytes udp s) := by
  delta execPtpTx
  refine act_fr (fun _ _ => ?_) h_s
  refine ptpTx_fr (partsIn_sub (by decide) hL) ?_
  assumption

theorem execMasterLost_fr {L : List Part} {org : Mach} {s} (hL : [.msix, .log, .time, .ev .time, .ev .mgt, .outs, .free] ⊆ L) (h_s : Frame L org s.m) :
    OutFrame L org (execMasterLost s) := by
  delta execMasterLost
  refine act_fr (fun _ _ => ?_) h_s
  refine masterLost_fr (partsIn_sub (by decide) hL) ?_
  assumption

theorem execTimeMapChange_fr {L : List Part} {org : Mach} {dt sec ns rate s} (hL : [.time] ⊆ L) (h_s : Frame L org s.m) :
    OutFrame L org (execTimeMapChange dt sec ns rate s) := by
  delta execTimeMapChange
  refine act_fr (fun _ _ => ?_) h_s
  refine mapChange_fr (partsIn_sub (by decide) hL) ?_
  assumption

theorem execTimeSnap_fr {L : List Part} {org : Mach} {p v s} (hL : [.g, .msix, .log, .time, .ev .glb, .ev .time, .ev .mgt, .outs] ⊆ L) (h_s : Frame L org s.m) :
    OutFrame L org (execTimeSnap p v s) := by
  delta execTimeSnap
  refine act_fr (fun _ _ => ?_) h_s
  refine writeGate_fr (partsIn_sub (by decide) hL) (fun _ _ => ?_) ?_
  · refine timeSnap_fr (partsIn_sub (by decide) hL) ?_
    assumption
  · assumption

theorem execTsyncSend_fr {L : List Part} {org : Mach} {s} (hL : [.time, .heads, .outs] ⊆ L) (h_s : Frame L org s.m) :
    OutFrame L org (execTsyncSend s) := by
  delta execTsyncSend
  refine act_fr (fun _ _ => ?_) h_s
  refine tsyncSend_fr (partsIn_sub (by decide) hL) ?_
  assumption

theorem execTsyncRFrame_fr {L : List Part} {org : Mach} {l f s} (hL : [.g, .msix, .clk, .boot, .bytes, .mem, .log, .time, .job, .imp, .beams, .mpl, .cells, .sig, .lanes, .heads, .ilk, .ev .job, .ev .imp, .ev .beam, .ev .lane, .ev .time, .ev .mgt, .outs] ⊆ L) (h_s : Frame L org s.m) :
    OutFrame L org (execTsyncRFrame l f s) := by
  delta execTsyncRFrame
  refine act_fr (fun _ _ => ?_) h_s
  refine rxFrame_fr (partsIn_sub (by decide) hL) (fun _ _ => ?_) ?_
  · refine tsyncAnswer_fr (partsIn_sub (by decide) hL) ?_
    assumption
  · assumption

end Sys2Proof.Machine
end

