-- ==== Sys2Proof/Laws/Frame/IlkOps.lean ====
section
/-!
SUPPORT. The parts of the device that the operations of Machine/IlkOps.lean can touch: one lemma per operation.
-/

namespace Sys2Proof.Machine

theorem endingSlugs_fr {L : List Part} {org : Mach} {m} (hL : [.g, .msix, .clk, .boot, .bytes, .mem, .mgt, .log, .time, .job, .imp, .beams, .mpl, .hmap, .cells, .sig, .heads, .stg, .ilk, .ev .glb, .ev .boot, .ev .job, .ev .imp, .ev .beam, .ev .cellArr, .ev .stg, .ev .mem, .ev .hlt, .ev .mgt, .outs, .free] ⊆ L) (h_m : Frame L org m) :
    Frame L org (endingSlugs m) := by
  delta endingSlugs
  refine eachM_fr (fun _ _ _ => ?_) ?_
  · refine Frame.ite ?_ ?_
    · assumption
    · refine Frame.ite ?_ ?_
      · refine slugEndOp_fr (partsIn_sub (by decide) hL) ?_
        assumption
      · refine releaseNext_fr (partsIn_sub (by decide) hL) ?_
        refine recordEnd_fr (partsIn_sub (by decide) hL) ?_
        assumption
  · assumption

theorem inhibitJob_fr {L : List Part} {org : Mach} {m} (hL : [.g, .msix, .clk, .boot, .bytes, .mem, .mgt, .log, .time, .job, .imp, .beams, .mpl, .hmap, .cells, .sig, .heads, .stg, .ilk, .ev .glb, .ev .boot, .ev .job, .ev .imp, .ev .beam, .ev .cellArr, .ev .stg, .ev .mem, .ev .hlt, .ev .mgt, .outs, .free] ⊆ L) (h_m : Frame L org m) :
    Frame L org (inhibitJob m) := by
  delta inhibitJob
  refine Frame.ite ?_ ?_
  · assumption
  · split
    · extract_lets x1
      have hx1 : Frame L org x1 := by
        unfold x1
        refine endingSlugs_fr (partsIn_sub (by decide) hL) ?_
        assumption
      clear_value x1
      refine Frame.ite ?_ ?_
      · refine stopExposing_fr (partsIn_sub (by decide) hL) ?_
        assumption
      · assumption
    · refine jobAddCause_fr (partsIn_sub (by decide) hL) ?_
      assumption
    · refine jobAddCause_fr (partsIn_sub (by decide) hL) ?_
      assumption
    · assumption

theorem inhibitFall_fr {L : List Part} {org : Mach} {ch m} (hL : [.g, .msix, .clk, .boot, .bytes, .mem, .mgt, .log, .time, .job, .imp, .beams, .mpl, .hmap, .cells, .sig, .heads, .stg, .ilk, .ev .glb, .ev .boot, .ev .job, .ev .imp, .ev .beam, .ev .cellArr, .ev .stg, .ev .ilk, .ev .mem, .ev .hlt, .ev .mgt, .outs, .free] ⊆ L) (h_m : Frame L org m) :
    Frame L org (inhibitFall ch m) := by
  delta inhibitFall
  refine Frame.ite ?_ ?_
  · assumption
  · extract_lets x1 x2
    have hx2 : Frame L org x2 := by
      unfold x2
      refine onIlk_fr (partsIn_sub (by decide) hL) ?_
      assumption
    clear_value x2
    refine inhibitJob_fr (partsIn_sub (by decide) hL) ?_
    refine pinsFollow_fr (partsIn_sub (by decide) hL) ?_
    refine whenM_fr (fun _ _ => ?_) ?_
    · refine raise_fr (partsIn_sub (by simp only [EvReg.kind]; decide) hL) ?_
      assumption
    · assumption

theorem inhibitRise_fr {L : List Part} {org : Mach} {ch m} (hL : [.ilk] ⊆ L) (h_m : Frame L org m) :
    Frame L org (inhibitRise ch m) := by
  delta inhibitRise
  refine Frame.ite ?_ ?_
  · assumption
  · refine onIlk_fr (partsIn_sub (by decide) hL) ?_
    assumption

theorem latchRearm_fr {L : List Part} {org : Mach} {m} (hL : [.msix, .beams, .ilk, .ev .ilk, .outs] ⊆ L) (h_m : Frame L org m) :
    Frame L org (latchRearm m) := by
  delta latchRearm
  refine Frame.ite ?_ ?_
  · refine pinsFollow_fr (partsIn_sub (by decide) hL) ?_
    refine raise_fr (partsIn_sub (by simp only [EvReg.kind]; decide) hL) ?_
    refine onIlk_fr (partsIn_sub (by decide) hL) ?_
    assumption
  · assumption

theorem discrepancy_fr {L : List Part} {org : Mach} {m} (hL : [.g, .msix, .clk, .boot, .mem, .mgt, .log, .imp, .beams, .mpl, .cells, .sig, .heads, .stg, .ilk, .ev .glb, .ev .boot, .ev .imp, .ev .cellArr, .ev .stg, .ev .ilk, .ev .hlt, .ev .mgt, .outs, .free] ⊆ L) (h_m : Frame L org m) :
    Frame L org (discrepancy m) := by
  delta discrepancy
  refine Frame.ite ?_ ?_
  · assumption
  · extract_lets x1
    have hx1 : Frame L org x1 := by
      unfold x1
      refine ilkDrive_fr (partsIn_sub (by decide) hL) ?_
      refine raise_fr (partsIn_sub (by simp only [EvReg.kind]; decide) hL) ?_
      refine onIlk_fr (partsIn_sub (by decide) hL) ?_
      assumption
    clear_value x1
    refine faultSafeHold_fr (partsIn_sub (by decide) hL) ?_
    assumption

theorem onMod_fr {L : List Part} {org : Mach} {a f m} (hL : [.ilk] ⊆ L) (h_m : Frame L org m) :
    Frame L org (onMod a f m) := by
  delta onMod
  refine onIlk_fr (partsIn_sub (by decide) hL) ?_
  assumption

theorem lampInhibit_fr {L : List Part} {org : Mach} {m} (hL : [.g, .msix, .clk, .boot, .bytes, .mem, .mgt, .log, .time, .job, .imp, .beams, .mpl, .hmap, .cells, .sig, .heads, .stg, .ilk, .ev .glb, .ev .boot, .ev .job, .ev .imp, .ev .beam, .ev .cellArr, .ev .stg, .ev .ilk, .ev .mem, .ev .hlt, .ev .mgt, .outs, .free] ⊆ L) (h_m : Frame L org m) :
    Frame L org (lampInhibit m) := by
  delta lampInhibit
  refine Frame.ite ?_ ?_
  · assumption
  · refine inhibitJob_fr (partsIn_sub (by decide) hL) ?_
    refine pinsFollow_fr (partsIn_sub (by decide) hL) ?_
    refine raise_fr (partsIn_sub (by simp only [EvReg.kind]; decide) hL) ?_
    refine onIlk_fr (partsIn_sub (by decide) hL) ?_
    assumption

theorem modFail_fr {L : List Part} {org : Mach} {a reason m} (hL : [.g, .msix, .clk, .boot, .bytes, .mem, .mgt, .log, .time, .job, .imp, .beams, .mpl, .hmap, .cells, .sig, .heads, .stg, .ilk, .ev .glb, .ev .boot, .ev .job, .ev .imp, .ev .beam, .ev .cellArr, .ev .stg, .ev .ilk, .ev .mem, .ev .hlt, .ev .mgt, .outs, .free] ⊆ L) (h_m : Frame L org m) :
    Frame L org (modFail a reason m) := by
  delta modFail
  extract_lets x1 x2 x3
  have hx2 : Frame L org x2 := by
    unfold x2
    refine raise_fr (partsIn_sub (by simp only [EvReg.kind]; decide) hL) ?_
    refine onMod_fr (partsIn_sub (by decide) hL) ?_
    assumption
  clear_value x2
  have hx3 : Frame L org x3 := by
    unfold x3
    refine log_fr (partsIn_sub (by decide) hL) ?_
    assumption
  clear_value x3
  refine Frame.ite ?_ ?_
  · refine onMod_fr (partsIn_sub (by decide) hL) ?_
    assumption
  · refine whenM_fr (fun _ _ => ?_) ?_
    · refine lampInhibit_fr (partsIn_sub (by decide) hL) ?_
      assumption
    · assumption

theorem pollMissed_fr {L : List Part} {org : Mach} {a m} (hL : [.g, .msix, .clk, .boot, .bytes, .mem, .mgt, .log, .time, .job, .imp, .beams, .mpl, .hmap, .cells, .sig, .heads, .stg, .ilk, .ev .glb, .ev .boot, .ev .job, .ev .imp, .ev .beam, .ev .cellArr, .ev .stg, .ev .ilk, .ev .mem, .ev .hlt, .ev .mgt, .outs, .free] ⊆ L) (h_m : Frame L org m) :
    Frame L org (pollMissed a m) := by
  delta pollMissed
  extract_lets x1 x2
  have hx1 : Frame L org x1 := by
    unfold x1
    refine onMod_fr (partsIn_sub (by decide) hL) ?_
    assumption
  clear_value x1
  have hx2 : Frame L org x2 := by
    unfold x2
    refine raise_fr (partsIn_sub (by simp only [EvReg.kind]; decide) hL) ?_
    refine onIlk_fr (partsIn_sub (by decide) hL) ?_
    assumption
  clear_value x2
  refine Frame.ite ?_ ?_
  · refine modFail_fr (partsIn_sub (by decide) hL) ?_
    assumption
  · assumption

theorem statusReply_fr {L : List Part} {org : Mach} {a ch m} (hL : [.g, .msix, .clk, .boot, .bytes, .mem, .mgt, .log, .time, .job, .imp, .beams, .mpl, .hmap, .cells, .sig, .heads, .stg, .ilk, .ev .glb, .ev .boot, .ev .job, .ev .imp, .ev .beam, .ev .cellArr, .ev .stg, .ev .ilk, .ev .mem, .ev .hlt, .ev .mgt, .outs, .free] ⊆ L) (h_m : Frame L org m) :
    Frame L org (statusReply a ch m) := by
  delta statusReply
  extract_lets x1 x2 x3
  have hx3 : Frame L org x3 := by
    unfold x3
    refine onMod_fr (partsIn_sub (by decide) hL) ?_
    assumption
  clear_value x3
  refine Frame.ite ?_ ?_
  · refine modFail_fr (partsIn_sub (by decide) hL) ?_
    assumption
  · assumption

theorem lampReply_fr {L : List Part} {org : Mach} {a bs m} (hL : [.g, .msix, .clk, .boot, .bytes, .mem, .mgt, .log, .time, .job, .imp, .beams, .mpl, .hmap, .cells, .sig, .heads, .stg, .ilk, .ev .glb, .ev .boot, .ev .job, .ev .imp, .ev .beam, .ev .cellArr, .ev .stg, .ev .ilk, .ev .mem, .ev .hlt, .ev .mgt, .outs, .free] ⊆ L) (h_m : Frame L org m) :
    Frame L org (lampReply a bs m) := by
  delta lampReply
  refine Frame.ite ?_ ?_
  · assumption
  · extract_lets x1 x2 x3 x4 x5 x6
    have hx5 : Frame L org x5 := by
      unfold x5
      refine onMod_fr (partsIn_sub (by decide) hL) ?_
      assumption
    clear_value x5
    have hx6 : Frame L org x6 := by
      unfold x6
      refine onMod_fr (partsIn_sub (by decide) hL) ?_
      assumption
    clear_value x6
    refine Frame.ite ?_ ?_
    · refine pollMissed_fr (partsIn_sub (by decide) hL) ?_
      refine raise_fr (partsIn_sub (by simp only [EvReg.kind]; decide) hL) ?_
      refine onIlk_fr (partsIn_sub (by decide) hL) ?_
      assumption
    · clear_value x1
      split
      · refine statusReply_fr (partsIn_sub (by decide) hL) ?_
        assumption
      · refine Frame.ite ?_ ?_
        · refine modFail_fr (partsIn_sub (by decide) hL) ?_
          assumption
        · assumption
      · refine onIlk_fr (partsIn_sub (by decide) hL) ?_
        assumption
      · assumption

theorem pollSend_fr {L : List Part} {org : Mach} {cmd a m} (hL : [.ilk, .outs] ⊆ L) (h_m : Frame L org m) :
    Frame L org (pollSend cmd a m) := by
  delta pollSend
  refine lampSend_fr (partsIn_sub (by decide) hL) ?_
  refine onMod_fr (partsIn_sub (by decide) hL) ?_
  assumption

theorem rotate_fr {L : List Part} {org : Mach} {m} (hL : [.ilk, .outs] ⊆ L) (h_m : Frame L org m) :
    Frame L org (rotate m) := by
  delta rotate
  extract_lets x1
  split
  · refine pollSend_fr (partsIn_sub (by decide) hL) ?_
    refine onIlk_fr (partsIn_sub (by decide) hL) ?_
    assumption
  · assumption

theorem pollCycle_fr {L : List Part} {org : Mach} {n m} (hL : [.ilk, .outs] ⊆ L) (h_m : Frame L org m) :
    Frame L org (pollCycle n m) := by
  delta pollCycle
  refine Frame.ite ?_ ?_
  · assumption
  · refine repeat_fr (fun _ _ => ?_) ?_
    · refine rotate_fr (partsIn_sub (by decide) hL) ?_
      assumption
    · refine eachM_fr (fun _ _ _ => ?_) ?_
      · refine pollSend_fr (partsIn_sub (by decide) hL) ?_
        assumption
      · assumption

theorem ilkCmd_fr {L : List Part} {org : Mach} {w m} (hL : [.g, .msix, .clk, .boot, .mem, .log, .job, .beams, .cells, .sig, .ilk, .ev .glb, .ev .imp, .ev .ilk, .ev .mgt, .outs] ⊆ L) (h_m : Frame L org m) :
    Frame L org (ilkCmd w m) := by
  delta ilkCmd
  extract_lets x1
  refine Frame.ite ?_ ?_
  · refine refuse_fr (partsIn_sub (by simp only [EvReg.kind]; decide) hL) ?_
    assumption
  · split
    · refine Frame.ite ?_ ?_
      · refine refuse_fr (partsIn_sub (by simp only [EvReg.kind]; decide) hL) ?_
        assumption
      · refine Frame.ite ?_ ?_
        · refine pinsFollow_fr (partsIn_sub (by decide) hL) ?_
          refine raise_fr (partsIn_sub (by simp only [EvReg.kind]; decide) hL) ?_
          refine onIlk_fr (partsIn_sub (by decide) hL) ?_
          assumption
        · assumption
    · refine Frame.ite ?_ ?_
      · refine refuse_fr (partsIn_sub (by simp only [EvReg.kind]; decide) hL) ?_
        assumption
      · refine Frame.ite ?_ ?_
        · refine onJob_fr (partsIn_sub (by decide) hL) ?_
          assumption
        · refine applyScene_fr (partsIn_sub (by decide) hL) ?_
          assumption
    · refine refuse_fr (partsIn_sub (by simp only [EvReg.kind]; decide) hL) ?_
      assumption

theorem alSend_fr {L : List Part} {org : Mach} {m} (hL : [.outs] ⊆ L) (h_m : Frame L org m) :
    Frame L org (alSend m) := by
  delta alSend
  refine Frame.ite ?_ ?_
  · refine emit_fr (partsIn_sub (by decide) hL) ?_
    assumption
  · assumption

theorem gainStep_fr {L : List Part} {org : Mach} {kc t r g m} (hL : [.free] ⊆ L) (h_m : Frame L org m) :
    Frame L org (gainStep kc t r g m).2 := by
  delta gainStep
  refine Frame.ite2 ?_ ?_
  · split
    · rename_i heq
      refine Frame.let2 (l := L) (b := org) heq ?_ (fun _ => ?_)
      · refine drawWord_fr (partsIn_sub (by decide) hL) ?_
        assumption
      refine Frame.mk2 ?_
      assumption
  · refine Frame.mk2 ?_
    assumption

theorem feedbackSend_fr {L : List Part} {org : Mach} {g m} (hL : [.ilk, .outs] ⊆ L) (h_m : Frame L org m) :
    Frame L org (feedbackSend g m) := by
  delta feedbackSend
  extract_lets x1
  refine Frame.ite ?_ ?_
  · assumption
  · refine sendGroup_fr (partsIn_sub (by decide) hL) ?_
    refine onIlk_fr (partsIn_sub (by decide) hL) ?_
    assumption

theorem feedback_fr {L : List Part} {org : Mach} {m0} (hL : [.g, .msix, .clk, .boot, .mem, .log, .beams, .cells, .sig, .ilk, .ev .imp, .ev .ilk, .ev .mgt, .outs, .free] ⊆ L) (h_m0 : Frame L org m0) :
    Frame L org (feedback m0) := by
  delta feedback
  refine Frame.ite ?_ ?_
  · assumption
  · extract_lets x1 x2 x3 x4
    have hx1 : Frame L org x1 := by
      unfold x1
      refine pollSend_fr (partsIn_sub (by decide) hL) ?_
      refine takeRecord_fr (partsIn_sub (by decide) hL) ?_
      assumption
    clear_value x1
    refine Frame.ite ?_ ?_
    · assumption
    · split
      · rename_i heq
        refine Frame.let2 (l := L) (b := org) heq ?_ (fun _ => ?_)
        · refine foldl2_fr (fun _ _ _ => ?_) ?_
          · split
            · rename_i heq
              refine Frame.let2 (l := L) (b := org) heq ?_ (fun _ => ?_)
              · refine gainStep_fr (partsIn_sub (by decide) hL) ?_
                assumption
              refine Frame.mk2 ?_
              assumption
          · refine Frame.mk2 ?_
            assumption
        extract_lets x5 x6 x7
        have hx6 : Frame L org x6 := by
          unfold x6
          refine onIlk_fr (partsIn_sub (by decide) hL) ?_
          assumption
        clear_value x6
        have hx7 : Frame L org x7 := by
          unfold x7
          refine whenM_fr (fun _ _ => ?_) ?_
          · refine raise_fr (partsIn_sub (by simp only [EvReg.kind]; decide) hL) ?_
            assumption
          · assumption
        clear_value x7
        refine eachM_fr (fun _ _ _ => ?_) ?_
        · refine feedbackSend_fr (partsIn_sub (by decide) hL) ?_
          assumption
        · assumption

theorem blink_fr {L : List Part} {org : Mach} {g m} (hL : [.ilk, .outs] ⊆ L) (h_m : Frame L org m) :
    Frame L org (blink g m) := by
  delta blink
  refine Frame.ite ?_ ?_
  · refine sendGroup_fr (partsIn_sub (by decide) hL) ?_
    refine onIlk_fr (partsIn_sub (by decide) hL) ?_
    assumption
  · assumption

theorem execInhibitFall_fr {L : List Part} {org : Mach} {ch s} (hL : [.g, .msix, .clk, .boot, .bytes, .mem, .mgt, .log, .time, .job, .imp, .beams, .mpl, .hmap, .cells, .sig, .heads, .stg, .ilk, .ev .glb, .ev .boot, .ev .job, .ev .imp, .ev .beam, .ev .cellArr, .ev .stg, .ev .ilk, .ev .mem, .ev .hlt, .ev .mgt, .outs, .free] ⊆ L) (h_s : Frame L org s.m) :
    OutFrame L org (execInhibitFall ch s) := by
  delta execInhibitFall
  refine act_fr (fun _ _ => ?_) h_s
  refine inhibitFall_fr (partsIn_sub (by decide) hL) ?_
  assumption

theorem execInhibitRise_fr {L : List Part} {org : Mach} {ch s} (hL : [.ilk] ⊆ L) (h_s : Frame L org s.m) :
    OutFrame L org (execInhibitRise ch s) := by
  delta execInhibitRise
  refine act_fr (fun _ _ => ?_) h_s
  refine inhibitRise_fr (partsIn_sub (by decide) hL) ?_
  assumption

theorem execInputLatchRearm_fr {L : List Part} {org : Mach} {s} (hL : [.msix, .beams, .ilk, .ev .ilk, .outs] ⊆ L) (h_s : Frame L org s.m) :
    OutFrame L org (execInputLatchRearm s) := by
  delta execInputLatchRearm
  refine act_fr (fun _ _ => ?_) h_s
  refine latchRearm_fr (partsIn_sub (by decide) hL) ?_
  assumption

theorem execDiscrepancyFault_fr {L : List Part} {org : Mach} {s} (hL : [.g, .msix, .clk, .boot, .mem, .mgt, .log, .imp, .beams, .mpl, .cells, .sig, .heads, .stg, .ilk, .ev .glb, .ev .boot, .ev .imp, .ev .cellArr, .ev .stg, .ev .ilk, .ev .hlt, .ev .mgt, .outs, .free] ⊆ L) (h_s : Frame L org s.m) :
    OutFrame L org (execDiscrepancyFault s) := by
  delta execDiscrepancyFault
  refine act_fr (fun _ _ => ?_) h_s
  refine discrepancy_fr (partsIn_sub (by decide) hL) ?_
  assumption

theorem execLampAck_fr {L : List Part} {org : Mach} {p hi s} (hL : [.g, .msix, .clk, .boot, .mem, .log, .job, .beams, .cells, .sig, .ilk, .ev .glb, .ev .imp, .ev .ilk, .ev .mgt, .outs] ⊆ L) (h_s : Frame L org s.m) :
    OutFrame L org (execLampAck p hi s) := by
  delta execLampAck
  refine act_fr (fun _ _ => ?_) h_s
  refine writeGate_fr (partsIn_sub (by decide) hL) (fun _ _ => ?_) ?_
  · refine ilkCmd_fr (partsIn_sub (by decide) hL) ?_
    assumption
  · assumption

theorem execScene_fr {L : List Part} {org : Mach} {p hi s} (hL : [.g, .msix, .clk, .boot, .mem, .log, .job, .beams, .cells, .sig, .ilk, .ev .glb, .ev .imp, .ev .ilk, .ev .mgt, .outs] ⊆ L) (h_s : Frame L org s.m) :
    OutFrame L org (execScene p hi s) := by
  delta execScene
  refine act_fr (fun _ _ => ?_) h_s
  refine writeGate_fr (partsIn_sub (by decide) hL) (fun _ _ => ?_) ?_
  · refine ilkCmd_fr (partsIn_sub (by decide) hL) ?_
    assumption
  · assumption

theorem execLampPollCycle_fr {L : List Part} {org : Mach} {n s} (hL : [.ilk, .outs] ⊆ L) (h_s : Frame L org s.m) :
    OutFrame L org (execLampPollCycle n s) := by
  delta execLampPollCycle
  refine act_fr (fun _ _ => ?_) h_s
  refine pollCycle_fr (partsIn_sub (by decide) hL) ?_
  assumption

theorem execLampReply_fr {L : List Part} {org : Mach} {a bytes s} (hL : [.g, .msix, .clk, .boot, .bytes, .mem, .mgt, .log, .time, .job, .imp, .beams, .mpl, .hmap, .cells, .sig, .heads, .stg, .ilk, .ev .glb, .ev .boot, .ev .job, .ev .imp, .ev .beam, .ev .cellArr, .ev .stg, .ev .ilk, .ev .mem, .ev .hlt, .ev .mgt, .outs, .free] ⊆ L) (h_s : Frame L org s.m) :
    OutFrame L org (execLampReply a bytes s) := by
  delta execLampReply
  refine act_fr (fun _ _ => ?_) h_s
  refine lampReply_fr (partsIn_sub (by decide) hL) ?_
  assumption

theorem execLampPollMissed_fr {L : List Part} {org : Mach} {a s} (hL : [.g, .msix, .clk, .boot, .bytes, .mem, .mgt, .log, .time, .job, .imp, .beams, .mpl, .hmap, .cells, .sig, .heads, .stg, .ilk, .ev .glb, .ev .boot, .ev .job, .ev .imp, .ev .beam, .ev .cellArr, .ev .stg, .ev .ilk, .ev .mem, .ev .hlt, .ev .mgt, .outs, .free] ⊆ L) (h_s : Frame L org s.m) :
    OutFrame L org (execLampPollMissed a s) := by
  delta execLampPollMissed
  refine act_fr (fun _ _ => ?_) h_s
  refine Frame.ite ?_ ?_
  · assumption
  · refine pollMissed_fr (partsIn_sub (by decide) hL) ?_
    assumption

theorem execNotMeasuredTimeout_fr {L : List Part} {org : Mach} {a s} (hL : [.g, .msix, .clk, .boot, .bytes, .mem, .mgt, .log, .time, .job, .imp, .beams, .mpl, .hmap, .cells, .sig, .heads, .stg, .ilk, .ev .glb, .ev .boot, .ev .job, .ev .imp, .ev .beam, .ev .cellArr, .ev .stg, .ev .ilk, .ev .mem, .ev .hlt, .ev .mgt, .outs, .free] ⊆ L) (h_s : Frame L org s.m) :
    OutFrame L org (execNotMeasuredTimeout a s) := by
  delta execNotMeasuredTimeout
  refine act_fr (fun _ _ => ?_) h_s
  refine Frame.ite ?_ ?_
  · refine modFail_fr (partsIn_sub (by decide) hL) ?_
    assumption
  · assumption

theorem execAlFrameSend_fr {L : List Part} {org : Mach} {s} (hL : [.outs] ⊆ L) (h_s : Frame L org s.m) :
    OutFrame L org (execAlFrameSend s) := by
  delta execAlFrameSend
  refine act_fr (fun _ _ => ?_) h_s
  refine alSend_fr (partsIn_sub (by decide) hL) ?_
  assumption

theorem execColourFeedback_fr {L : List Part} {org : Mach} {s} (hL : [.g, .msix, .clk, .boot, .mem, .log, .beams, .cells, .sig, .ilk, .ev .imp, .ev .ilk, .ev .mgt, .outs, .free] ⊆ L) (h_s : Frame L org s.m) :
    OutFrame L org (execColourFeedback s) := by
  delta execColourFeedback
  refine act_fr (fun _ _ => ?_) h_s
  refine feedback_fr (partsIn_sub (by decide) hL) ?_
  assumption

theorem execBlinkToggle_fr {L : List Part} {org : Mach} {g s} (hL : [.ilk, .outs] ⊆ L) (h_s : Frame L org s.m) :
    OutFrame L org (execBlinkToggle g s) := by
  delta execBlinkToggle
  refine act_fr (fun _ _ => ?_) h_s
  refine blink_fr (partsIn_sub (by decide) hL) ?_
  assumption

end Sys2Proof.Machine
end

