-- ==== Sys2Proof/Laws/Frame/ClockOps.lean ====
section
/-!
SUPPORT. The parts of the device that the operations of Machine/ClockOps.lean can touch: one lemma per operation.
-/

namespace Sys2Proof.Machine

theorem onClk_fr {L : List Part} {org : Mach} {f m} (hL : [.clk] ⊆ L) (h_m : Frame L org m) :
    Frame L org (onClk f m) := by
  delta onClk
  refine Frame.upd ?_ (.inr rfl) (.inr rfl) (.inr rfl) (.inr rfl) (.inr rfl) (.inr rfl) (.inl (hL (by decide))) (.inr rfl) (.inr rfl) (.inr rfl) (.inr rfl) (.inr rfl) (.inr rfl) (.inr rfl) (.inr rfl) (.inr rfl) (.inr rfl) (.inr rfl) (.inr rfl) (.inr rfl) (.inr rfl) (.inr rfl) (.inr rfl) (.inr rfl) (.inr rfl) (.inr rfl) rfl
  assumption

theorem onAon_fr {L : List Part} {org : Mach} {f m} (hL : [.aon] ⊆ L) (h_m : Frame L org m) :
    Frame L org (onAon f m) := by
  delta onAon
  refine Frame.upd ?_ (.inr rfl) (.inr rfl) (.inr rfl) (.inr rfl) (.inr rfl) (.inl (hL (by decide))) (.inr rfl) (.inr rfl) (.inr rfl) (.inr rfl) (.inr rfl) (.inr rfl) (.inr rfl) (.inr rfl) (.inr rfl) (.inr rfl) (.inr rfl) (.inr rfl) (.inr rfl) (.inr rfl) (.inr rfl) (.inr rfl) (.inr rfl) (.inr rfl) (.inr rfl) (.inr rfl) rfl
  assumption

theorem setLock_fr {L : List Part} {org : Mach} {i v z2} (hL : [.clk] ⊆ L) (h_z2 : Frame L org z2) :
    Frame L org (setLock i v z2) := by
  delta setLock
  refine onClk_fr (partsIn_sub (by decide) hL) ?_
  assumption

theorem xtalFail_fr {L : List Part} {org : Mach} {m} (hL : [.msix, .aon, .clk, .ev .clk, .outs] ⊆ L) (h_m : Frame L org m) :
    Frame L org (xtalFail m) := by
  delta xtalFail
  refine Frame.ite ?_ ?_
  · assumption
  · refine raise_fr (partsIn_sub (by simp only [EvReg.kind]; decide) hL) ?_
    refine onAon_fr (partsIn_sub (by decide) hL) ?_
    refine onClk_fr (partsIn_sub (by decide) hL) ?_
    assumption

theorem xtalQualified_fr {L : List Part} {org : Mach} {m} (hL : [.aon, .clk] ⊆ L) (h_m : Frame L org m) :
    Frame L org (xtalQualified m) := by
  delta xtalQualified
  refine onAon_fr (partsIn_sub (by decide) hL) ?_
  refine onClk_fr (partsIn_sub (by decide) hL) ?_
  assumption

theorem clkOutWrite_fr {L : List Part} {org : Mach} {p c v m} (hL : [.g, .msix, .clk, .log, .ev .glb, .ev .mgt, .outs] ⊆ L) (h_m : Frame L org m) :
    Frame L org (clkOutWrite p c v m) := by
  delta clkOutWrite
  extract_lets x1 x2 x3
  refine Frame.ite ?_ ?_
  · refine accErr_fr (partsIn_sub (by decide) hL) ?_
    assumption
  · refine onClk_fr (partsIn_sub (by decide) hL) ?_
    assumption

theorem switchDone_fr {L : List Part} {org : Mach} {c m} (hL : [.clk] ⊆ L) (h_m : Frame L org m) :
    Frame L org (switchDone c m) := by
  delta switchDone
  extract_lets x1
  split
  · refine Frame.ite ?_ ?_
    · refine onClk_fr (partsIn_sub (by decide) hL) ?_
      assumption
    · assumption
  · assumption

theorem switchStuck_fr {L : List Part} {org : Mach} {c m} (hL : [.msix, .clk, .log, .ev .clk, .ev .mgt, .outs, .free] ⊆ L) (h_m : Frame L org m) :
    Frame L org (switchStuck c m) := by
  delta switchStuck
  extract_lets x1
  refine Frame.ite ?_ ?_
  · assumption
  · refine logClass_fr (partsIn_sub (by decide) hL) ?_
    refine raise_fr (partsIn_sub (by simp only [EvReg.kind]; decide) hL) ?_
    refine onClk_fr (partsIn_sub (by decide) hL) ?_
    assumption

theorem gateRequest_fr {L : List Part} {org : Mach} {p v m} (hL : [.clk] ⊆ L) (h_m : Frame L org m) :
    Frame L org (gateRequest p v m) := by
  delta gateRequest
  refine Frame.ite ?_ ?_
  · assumption
  · extract_lets x1 x2
    refine onClk_fr (partsIn_sub (by decide) hL) ?_
    assumption

theorem gateClose_fr {L : List Part} {org : Mach} {i m} (hL : [.clk] ⊆ L) (h_m : Frame L org m) :
    Frame L org (gateClose i m) := by
  delta gateClose
  refine Frame.ite ?_ ?_
  · refine onClk_fr (partsIn_sub (by decide) hL) ?_
    assumption
  · assumption

theorem gateTimeout_fr {L : List Part} {org : Mach} {i m} (hL : [.msix, .clk, .log, .ev .clk, .ev .mgt, .outs, .free] ⊆ L) (h_m : Frame L org m) :
    Frame L org (gateTimeout i m) := by
  delta gateTimeout
  refine Frame.ite ?_ ?_
  · assumption
  · extract_lets x1
    have hx1 : Frame L org x1 := by
      unfold x1
      refine onClk_fr (partsIn_sub (by decide) hL) ?_
      assumption
    clear_value x1
    refine logClass_fr (partsIn_sub (by decide) hL) ?_
    refine raise_fr (partsIn_sub (by simp only [EvReg.kind]; decide) hL) ?_
    assumption

theorem domainReset_fr {L : List Part} {org : Mach} {m} (hL : [.g, .msix, .boot, .mem, .mgt, .job, .imp, .beams, .mpl, .hmap, .cells, .sig, .lanes, .heads, .stg, .hlt, .ev .glb, .ev .dma, .ev .boot, .ev .job, .ev .imp, .ev .beam, .ev .mpl, .ev .hmap, .ev .sig, .ev .cell, .ev .cellArr, .ev .lane, .ev .stg, .ev .ilk, .ev .time, .ev .mem, .ev .clk, .ev .pwr, .ev .hlt, .ev .mgt, .regs] ⊆ L) (h_m : Frame L org m) :
    Frame L org (domainReset m) := by
  delta domainReset
  refine Frame.upd ?_ (.inr rfl) (.inr rfl) (.inr rfl) (.inl (hL (by decide))) (.inl (hL (by decide))) (.inr rfl) (.inr rfl) (.inl (hL (by decide))) (.inr rfl) (.inl (hL (by decide))) (.inl (hL (by decide))) (.inr rfl) (.inr rfl) (.inl (hL (by decide))) (.inl (hL (by decide))) (.inl (hL (by decide))) (.inl (hL (by decide))) (.inl (hL (by decide))) (.inl (hL (by decide))) (.inl (hL (by decide))) (.inl (hL (by decide))) (.inl (hL (by decide))) (.inl (hL (by decide))) (.inr rfl) (.inl (hL (by decide))) (.inl ⟨fun k => by cases k <;> exact hL (by decide), hL (by decide)⟩) rfl
  assumption

theorem attemptCut_fr {L : List Part} {org : Mach} {m} (hL : [.aon, .boot] ⊆ L) (h_m : Frame L org m) :
    Frame L org (attemptCut m) := by
  delta attemptCut
  refine Frame.ite ?_ ?_
  · refine Frame.upd ?_ (.inr rfl) (.inr rfl) (.inr rfl) (.inr rfl) (.inr rfl) (.inl (hL (by decide))) (.inr rfl) (.inl (hL (by decide))) (.inr rfl) (.inr rfl) (.inr rfl) (.inr rfl) (.inr rfl) (.inr rfl) (.inr rfl) (.inr rfl) (.inr rfl) (.inr rfl) (.inr rfl) (.inr rfl) (.inr rfl) (.inr rfl) (.inr rfl) (.inr rfl) (.inr rfl) (.inr rfl) rfl
    assumption
  · assumption

theorem monitorTrip_fr {L : List Part} {org : Mach} {cause m} (hL : [.g, .msix, .aon, .clk, .boot, .mem, .mgt, .time, .job, .imp, .beams, .mpl, .hmap, .cells, .sig, .lanes, .heads, .stg, .ilk, .hlt, .ev .glb, .ev .dma, .ev .boot, .ev .job, .ev .imp, .ev .beam, .ev .mpl, .ev .hmap, .ev .sig, .ev .cell, .ev .cellArr, .ev .lane, .ev .stg, .ev .ilk, .ev .time, .ev .mem, .ev .clk, .ev .pwr, .ev .hlt, .ev .mgt, .regs, .outs] ⊆ L) (h_m : Frame L org m) :
    Frame L org (monitorTrip cause m) := by
  delta monitorTrip
  refine Frame.ite ?_ ?_
  · assumption
  · extract_lets x1 x2 x3
    have hx1 : Frame L org x1 := by
      unfold x1
      refine ilkDrive_fr (partsIn_sub (by decide) hL) ?_
      refine onClk_fr (partsIn_sub (by decide) hL) ?_
      assumption
    clear_value x1
    have hx2 : Frame L org x2 := by
      unfold x2
      refine onClk_fr (partsIn_sub (by decide) hL) ?_
      assumption
    clear_value x2
    have hx3 : Frame L org x3 := by
      unfold x3
      refine raise_fr (partsIn_sub (by simp only [EvReg.kind]; decide) hL) ?_
      refine domainReset_fr (partsIn_sub (by decide) hL) ?_
      refine attemptCut_fr (partsIn_sub (by decide) hL) ?_
      assumption
    clear_value x3
    refine onTime_fr (partsIn_sub (by decide) hL) ?_
    assumption

theorem fallbackRc_fr {L : List Part} {org : Mach} {m} (hL : [.clk] ⊆ L) (h_m : Frame L org m) :
    Frame L org (fallbackRc m) := by
  delta fallbackRc
  refine Frame.ite ?_ ?_
  · refine onClk_fr (partsIn_sub (by decide) hL) ?_
    assumption
  · assumption

theorem lateStamp_fr {L : List Part} {org : Mach} {m} (hL : [.ilk] ⊆ L) (h_m : Frame L org m) :
    Frame L org (lateStamp m) := by
  delta lateStamp
  refine Frame.ite ?_ ?_
  · refine onIlk_fr (partsIn_sub (by decide) hL) ?_
    assumption
  · assumption

theorem timeSetUp_fr {L : List Part} {org : Mach} {q m} (hL : [.time] ⊆ L) (h_m : Frame L org m) :
    Frame L org (timeSetUp q m) := by
  delta timeSetUp
  extract_lets x1
  refine onTime_fr (partsIn_sub (by decide) hL) ?_
  assumption

theorem fallbackPll_fr {L : List Part} {org : Mach} {gap m} (hL : [.clk, .time, .ilk] ⊆ L) (h_m : Frame L org m) :
    Frame L org (fallbackPll gap m) := by
  delta fallbackPll
  refine Frame.ite ?_ ?_
  · assumption
  · extract_lets x1
    have hx1 : Frame L org x1 := by
      unfold x1
      refine onTime_fr (partsIn_sub (by decide) hL) ?_
      refine timeSetUp_fr (partsIn_sub (by decide) hL) ?_
      assumption
    clear_value x1
    refine lateStamp_fr (partsIn_sub (by decide) hL) ?_
    refine onClk_fr (partsIn_sub (by decide) hL) ?_
    assumption

theorem chamberStart_fr {L : List Part} {org : Mach} {m} (hL : [.cells] ⊆ L) (h_m : Frame L org m) :
    Frame L org (chamberStart m) := by
  delta chamberStart
  refine eachM_fr (fun _ _ _ => ?_) ?_
  · refine ctxStart_fr (partsIn_sub (by decide) hL) ?_
    assumption
  · assumption

theorem fallbackFirmware_fr {L : List Part} {org : Mach} {digestOk m} (hL : [.g, .msix, .clk, .boot, .mem, .mgt, .log, .imp, .beams, .mpl, .cells, .sig, .heads, .stg, .ilk, .ev .glb, .ev .boot, .ev .imp, .ev .cellArr, .ev .stg, .ev .hlt, .ev .mgt, .outs, .free] ⊆ L) (h_m : Frame L org m) :
    Frame L org (fallbackFirmware digestOk m) := by
  delta fallbackFirmware
  refine Frame.ite ?_ ?_
  · assumption
  · refine Frame.ite ?_ ?_
    · refine onClk_fr (partsIn_sub (by decide) hL) ?_
      assumption
    · extract_lets x1
      have hx1 : Frame L org x1 := by
        unfold x1
        refine faultInto_fr (partsIn_sub (by decide) hL) ?_
        refine onClk_fr (partsIn_sub (by decide) hL) ?_
        assumption
      clear_value x1
      refine chamberStart_fr (partsIn_sub (by decide) hL) ?_
      assumption

theorem fallbackTimeout_fr {L : List Part} {org : Mach} {m} (hL : [.clk] ⊆ L) (h_m : Frame L org m) :
    Frame L org (fallbackTimeout m) := by
  delta fallbackTimeout
  refine Frame.ite ?_ ?_
  · refine onClk_fr (partsIn_sub (by decide) hL) ?_
    assumption
  · assumption

theorem backupStopped_fr {L : List Part} {org : Mach} {m} (hL : [.g, .msix, .clk, .boot, .mem, .mgt, .time, .job, .imp, .beams, .mpl, .hmap, .cells, .sig, .lanes, .heads, .stg, .hlt, .ev .glb, .ev .dma, .ev .boot, .ev .job, .ev .imp, .ev .beam, .ev .mpl, .ev .hmap, .ev .sig, .ev .cell, .ev .cellArr, .ev .lane, .ev .stg, .ev .ilk, .ev .time, .ev .mem, .ev .clk, .ev .pwr, .ev .hlt, .ev .mgt, .regs] ⊆ L) (h_m : Frame L org m) :
    Frame L org (backupStopped m) := by
  delta backupStopped
  refine Frame.ite ?_ ?_
  · refine onTime_fr (partsIn_sub (by decide) hL) ?_
    refine onClk_fr (partsIn_sub (by decide) hL) ?_
    refine domainReset_fr (partsIn_sub (by decide) hL) ?_
    assumption
  · assumption

theorem halfDown_fr {L : List Part} {org : Mach} {south m} (hL : [.msix, .bytes, .mem, .log, .time, .job, .imp, .beams, .mpl, .cells, .sig, .lanes, .heads, .ilk, .ev .glb, .ev .job, .ev .imp, .ev .beam, .ev .lane, .ev .time, .ev .mgt, .outs] ⊆ L) (h_m : Frame L org m) :
    Frame L org (halfDown south m) := by
  delta halfDown
  refine eachM_fr (fun _ _ _ => ?_) ?_
  · refine laneDetect_fr (partsIn_sub (by decide) hL) ?_
    assumption
  · assumption

theorem pwmStop_fr {L : List Part} {org : Mach} {m} (hL : [.stg] ⊆ L) (h_m : Frame L org m) :
    Frame L org (pwmStop m) := by
  delta pwmStop
  refine eachM_fr (fun _ _ _ => ?_) ?_
  · refine onAxis_fr (partsIn_sub (by decide) hL) ?_
    assumption
  · assumption

theorem pllUnlock_fr {L : List Part} {org : Mach} {i lost m} (hL : [.g, .msix, .clk, .boot, .bytes, .mem, .mgt, .log, .time, .job, .imp, .beams, .mpl, .cells, .sig, .lanes, .heads, .stg, .ilk, .ev .glb, .ev .dma, .ev .boot, .ev .job, .ev .imp, .ev .beam, .ev .cellArr, .ev .lane, .ev .stg, .ev .time, .ev .mem, .ev .clk, .ev .hlt, .ev .mgt, .outs, .free] ⊆ L) (h_m : Frame L org m) :
    Frame L org (pllUnlock i lost m) := by
  delta pllUnlock
  refine Frame.ite ?_ ?_
  · assumption
  · extract_lets x1 x2 x3 x4 x5
    have hx1 : Frame L org x1 := by
      unfold x1
      refine raise_fr (partsIn_sub (by simp only [EvReg.kind]; decide) hL) ?_
      refine setLock_fr (partsIn_sub (by decide) hL) ?_
      assumption
    clear_value x1
    have hx2 : Frame L org x2 := by
      unfold x2
      refine linkLoss_fr (partsIn_sub (by decide) hL) ?_
      assumption
    clear_value x2
    split
    · refine faultSafeHold_fr (partsIn_sub (by decide) hL) ?_
      assumption
    · refine halfDown_fr (partsIn_sub (by decide) hL) ?_
      assumption
    · refine halfDown_fr (partsIn_sub (by decide) hL) ?_
      assumption
    · refine Frame.upd ?_ (.inr rfl) (.inr rfl) (.inr rfl) (.inr rfl) (.inr rfl) (.inr rfl) (.inr rfl) (.inr rfl) (.inr rfl) (.inr rfl) (.inl (hL (by decide))) (.inl (hL (by decide))) (.inr rfl) (.inr rfl) (.inr rfl) (.inr rfl) (.inr rfl) (.inr rfl) (.inr rfl) (.inr rfl) (.inr rfl) (.inr rfl) (.inr rfl) (.inr rfl) (.inr rfl) (.inr rfl) rfl
      assumption
    · refine faultSafeHold_fr (partsIn_sub (by decide) hL) ?_
      refine pwmStop_fr (partsIn_sub (by decide) hL) ?_
      assumption

theorem pllRelock_fr {L : List Part} {org : Mach} {i m} (hL : [.clk, .stg] ⊆ L) (h_m : Frame L org m) :
    Frame L org (pllRelock i m) := by
  delta pllRelock
  refine Frame.ite ?_ ?_
  · assumption
  · extract_lets x1
    have hx1 : Frame L org x1 := by
      unfold x1
      refine setLock_fr (partsIn_sub (by decide) hL) ?_
      assumption
    clear_value x1
    refine Frame.ite ?_ ?_
    · refine eachM_fr (fun _ _ _ => ?_) ?_
      · refine onAxis_fr (partsIn_sub (by decide) hL) ?_
        assumption
      · assumption
    · assumption

theorem vbatLow_fr {L : List Part} {org : Mach} {low m} (hL : [.msix, .ev .pwr, .outs] ⊆ L) (h_m : Frame L org m) :
    Frame L org (vbatLow low m) := by
  delta vbatLow
  refine whenM_fr (fun _ _ => ?_) ?_
  · refine raise_fr (partsIn_sub (by simp only [EvReg.kind]; decide) hL) ?_
    assumption
  · assumption

theorem powerGoodLost_fr {L : List Part} {org : Mach} {d m} (hL : [.g, .msix, .clk, .boot, .mem, .mgt, .log, .imp, .beams, .mpl, .cells, .sig, .heads, .stg, .ilk, .ev .glb, .ev .boot, .ev .imp, .ev .cellArr, .ev .stg, .ev .pwr, .ev .hlt, .ev .mgt, .outs, .free] ⊆ L) (h_m : Frame L org m) :
    Frame L org (powerGoodLost d m) := by
  delta powerGoodLost
  refine Frame.ite ?_ ?_
  · assumption
  · refine faultSafeHold_fr (partsIn_sub (by decide) hL) ?_
    refine raise_fr (partsIn_sub (by simp only [EvReg.kind]; decide) hL) ?_
    assumption

theorem execXtal32Fail_fr {L : List Part} {org : Mach} {s} (hL : [.msix, .aon, .clk, .ev .clk, .outs] ⊆ L) (h_s : Frame L org s.m) :
    OutFrame L org (execXtal32Fail s) := by
  delta execXtal32Fail
  refine act_fr (fun _ _ => ?_) h_s
  refine xtalFail_fr (partsIn_sub (by decide) hL) ?_
  assumption

theorem execXtal32Qualified_fr {L : List Part} {org : Mach} {s} (hL : [.aon, .clk] ⊆ L) (h_s : Frame L org s.m) :
    OutFrame L org (execXtal32Qualified s) := by
  delta execXtal32Qualified
  refine act_fr (fun _ _ => ?_) h_s
  refine xtalQualified_fr (partsIn_sub (by decide) hL) ?_
  assumption

theorem execClkoutSrcWrite_fr {L : List Part} {org : Mach} {p c v s} (hL : [.g, .msix, .clk, .log, .ev .glb, .ev .mgt, .outs] ⊆ L) (h_s : Frame L org s.m) :
    OutFrame L org (execClkoutSrcWrite p c v s) := by
  delta execClkoutSrcWrite
  refine act_fr (fun _ _ => ?_) h_s
  refine writeGate_fr (partsIn_sub (by decide) hL) (fun _ _ => ?_) ?_
  · refine clkOutWrite_fr (partsIn_sub (by decide) hL) ?_
    assumption
  · assumption

theorem execClkoutSwitchDone_fr {L : List Part} {org : Mach} {c s} (hL : [.clk] ⊆ L) (h_s : Frame L org s.m) :
    OutFrame L org (execClkoutSwitchDone c s) := by
  delta execClkoutSwitchDone
  refine act_fr (fun _ _ => ?_) h_s
  refine switchDone_fr (partsIn_sub (by decide) hL) ?_
  assumption

theorem execSwitchStuck_fr {L : List Part} {org : Mach} {c s} (hL : [.msix, .clk, .log, .ev .clk, .ev .mgt, .outs, .free] ⊆ L) (h_s : Frame L org s.m) :
    OutFrame L org (execSwitchStuck c s) := by
  delta execSwitchStuck
  refine act_fr (fun _ _ => ?_) h_s
  refine switchStuck_fr (partsIn_sub (by decide) hL) ?_
  assumption

theorem execClkGateRequest_fr {L : List Part} {org : Mach} {p v s} (hL : [.g, .msix, .clk, .log, .ev .glb, .ev .mgt, .outs] ⊆ L) (h_s : Frame L org s.m) :
    OutFrame L org (execClkGateRequest p v s) := by
  delta execClkGateRequest
  refine act_fr (fun _ _ => ?_) h_s
  refine writeGate_fr (partsIn_sub (by decide) hL) (fun _ _ => ?_) ?_
  · refine gateRequest_fr (partsIn_sub (by decide) hL) ?_
    assumption
  · assumption

theorem execGateClose_fr {L : List Part} {org : Mach} {i s} (hL : [.clk] ⊆ L) (h_s : Frame L org s.m) :
    OutFrame L org (execGateClose i s) := by
  delta execGateClose
  refine act_fr (fun _ _ => ?_) h_s
  refine gateClose_fr (partsIn_sub (by decide) hL) ?_
  assumption

theorem execGateTimeout_fr {L : List Part} {org : Mach} {i s} (hL : [.msix, .clk, .log, .ev .clk, .ev .mgt, .outs, .free] ⊆ L) (h_s : Frame L org s.m) :
    OutFrame L org (execGateTimeout i s) := by
  delta execGateTimeout
  refine act_fr (fun _ _ => ?_) h_s
  refine gateTimeout_fr (partsIn_sub (by decide) hL) ?_
  assumption

theorem execClockMonitorTrip_fr {L : List Part} {org : Mach} {cause s} (hL : [.g, .msix, .aon, .clk, .boot, .mem, .mgt, .time, .job, .imp, .beams, .mpl, .hmap, .cells, .sig, .lanes, .heads, .stg, .ilk, .hlt, .ev .glb, .ev .dma, .ev .boot, .ev .job, .ev .imp, .ev .beam, .ev .mpl, .ev .hmap, .ev .sig, .ev .cell, .ev .cellArr, .ev .lane, .ev .stg, .ev .ilk, .ev .time, .ev .mem, .ev .clk, .ev .pwr, .ev .hlt, .ev .mgt, .regs, .outs] ⊆ L) (h_s : Frame L org s.m) :
    OutFrame L org (execClockMonitorTrip cause s) := by
  delta execClockMonitorTrip
  refine act_fr (fun _ _ => ?_) h_s
  refine monitorTrip_fr (partsIn_sub (by decide) hL) ?_
  assumption

theorem execFallbackRcQualified_fr {L : List Part} {org : Mach} {s} (hL : [.clk] ⊆ L) (h_s : Frame L org s.m) :
    OutFrame L org (execFallbackRcQualified s) := by
  delta execFallbackRcQualified
  refine act_fr (fun _ _ => ?_) h_s
  refine fallbackRc_fr (partsIn_sub (by decide) hL) ?_
  assumption

theorem execFallbackPllLocked_fr {L : List Part} {org : Mach} {gap s} (hL : [.clk, .time, .ilk] ⊆ L) (h_s : Frame L org s.m) :
    OutFrame L org (execFallbackPllLocked gap s) := by
  delta execFallbackPllLocked
  refine act_fr (fun _ _ => ?_) h_s
  refine fallbackPll_fr (partsIn_sub (by decide) hL) ?_
  assumption

theorem execFallbackFirmwareReady_fr {L : List Part} {org : Mach} {digestOk s} (hL : [.g, .msix, .clk, .boot, .mem, .mgt, .log, .imp, .beams, .mpl, .cells, .sig, .heads, .stg, .ilk, .ev .glb, .ev .boot, .ev .imp, .ev .cellArr, .ev .stg, .ev .hlt, .ev .mgt, .outs, .free] ⊆ L) (h_s : Frame L org s.m) :
    OutFrame L org (execFallbackFirmwareReady digestOk s) := by
  delta execFallbackFirmwareReady
  refine act_fr (fun _ _ => ?_) h_s
  refine fallbackFirmware_fr (partsIn_sub (by decide) hL) ?_
  assumption

theorem execFallbackTimeout_fr {L : List Part} {org : Mach} {s} (hL : [.clk] ⊆ L) (h_s : Frame L org s.m) :
    OutFrame L org (execFallbackTimeout s) := by
  delta execFallbackTimeout
  refine act_fr (fun _ _ => ?_) h_s
  refine fallbackTimeout_fr (partsIn_sub (by decide) hL) ?_
  assumption

theorem execBackupRcStopped_fr {L : List Part} {org : Mach} {s} (hL : [.g, .msix, .clk, .boot, .mem, .mgt, .time, .job, .imp, .beams, .mpl, .hmap, .cells, .sig, .lanes, .heads, .stg, .hlt, .ev .glb, .ev .dma, .ev .boot, .ev .job, .ev .imp, .ev .beam, .ev .mpl, .ev .hmap, .ev .sig, .ev .cell, .ev .cellArr, .ev .lane, .ev .stg, .ev .ilk, .ev .time, .ev .mem, .ev .clk, .ev .pwr, .ev .hlt, .ev .mgt, .regs] ⊆ L) (h_s : Frame L org s.m) :
    OutFrame L org (execBackupRcStopped s) := by
  delta execBackupRcStopped
  refine act_fr (fun _ _ => ?_) h_s
  refine backupStopped_fr (partsIn_sub (by decide) hL) ?_
  assumption

theorem execPllUnlock_fr {L : List Part} {org : Mach} {i lost s} (hL : [.g, .msix, .clk, .boot, .bytes, .mem, .mgt, .log, .time, .job, .imp, .beams, .mpl, .cells, .sig, .lanes, .heads, .stg, .ilk, .ev .glb, .ev .dma, .ev .boot, .ev .job, .ev .imp, .ev .beam, .ev .cellArr, .ev .lane, .ev .stg, .ev .time, .ev .mem, .ev .clk, .ev .hlt, .ev .mgt, .outs, .free] ⊆ L) (h_s : Frame L org s.m) :
    OutFrame L org (execPllUnlock i s lost) := by
  delta execPllUnlock
  refine act_fr (fun _ _ => ?_) h_s
  refine pllUnlock_fr (partsIn_sub (by decide) hL) ?_
  assumption

theorem execPllRelock_fr {L : List Part} {org : Mach} {i s} (hL : [.clk, .stg] ⊆ L) (h_s : Frame L org s.m) :
    OutFrame L org (execPllRelock i s) := by
  delta execPllRelock
  refine act_fr (fun _ _ => ?_) h_s
  refine pllRelock_fr (partsIn_sub (by decide) hL) ?_
  assumption

theorem execVbatLowSample_fr {L : List Part} {org : Mach} {low s} (hL : [.msix, .ev .pwr, .outs] ⊆ L) (h_s : Frame L org s.m) :
    OutFrame L org (execVbatLowSample low s) := by
  delta execVbatLowSample
  refine act_fr (fun _ _ => ?_) h_s
  refine vbatLow_fr (partsIn_sub (by decide) hL) ?_
  assumption

theorem execPowerGoodLost_fr {L : List Part} {org : Mach} {d s} (hL : [.g, .msix, .clk, .boot, .mem, .mgt, .log, .imp, .beams, .mpl, .cells, .sig, .heads, .stg, .ilk, .ev .glb, .ev .boot, .ev .imp, .ev .cellArr, .ev .stg, .ev .pwr, .ev .hlt, .ev .mgt, .outs, .free] ⊆ L) (h_s : Frame L org s.m) :
    OutFrame L org (execPowerGoodLost d s) := by
  delta execPowerGoodLost
  refine act_fr (fun _ _ => ?_) h_s
  refine powerGoodLost_fr (partsIn_sub (by decide) hL) ?_
  assumption

end Sys2Proof.Machine
end

