-- ==== Sys2Proof/Laws/Frame/ResetOps.lean ====
section
/-!
SUPPORT. The parts of the device that the operations of Machine/ResetOps.lean can touch: one lemma per operation.
-/

namespace Sys2Proof.Machine

theorem resetMach_fr {L : List Part} {org : Mach} {dev warm power cause m} (hL : [.g, .msix, .aon, .clk, .boot, .bytes, .mem, .mgt, .log, .time, .job, .imp, .beams, .mpl, .hmap, .cells, .sig, .lanes, .heads, .stg, .ilk, .hlt, .keep, .ev .glb, .ev .dma, .ev .boot, .ev .job, .ev .imp, .ev .beam, .ev .mpl, .ev .hmap, .ev .sig, .ev .cell, .ev .cellArr, .ev .lane, .ev .stg, .ev .ilk, .ev .time, .ev .mem, .ev .clk, .ev .pwr, .ev .hlt, .ev .mgt, .regs] ⊆ L) (h_m : Frame L org m) :
    Frame L org (resetMach dev warm power cause m) := by
  refine h_m.trans (fun p hp => ?_)
  cases p
  case outs => rfl
  case free => rfl
  case env => rfl
  case ev k => cases k <;> exact absurd (hL (by decide)) hp
  all_goals exact absurd (hL (by decide)) hp

theorem retainTime_fr {L : List Part} {org : Mach} {m} (hL : [.aon] ⊆ L) (h_m : Frame L org m) :
    Frame L org (retainTime m) := by
  delta retainTime
  refine onAon_fr (partsIn_sub (by decide) hL) ?_
  assumption

theorem preserveSave_fr {L : List Part} {org : Mach} {m} (hL : [.msix, .aon, .bytes, .mem, .log, .job, .imp, .beams, .sig, .keep, .ev .job, .ev .imp, .ev .mgt, .outs, .free] ⊆ L) (h_m : Frame L org m) :
    Frame L org (preserveSave m).2 := by
  delta preserveSave
  refine Frame.ite2 ?_ ?_
  · refine Frame.ite2 ?_ ?_
    · refine Frame.mk2 ?_
      refine retainTime_fr (partsIn_sub (by decide) hL) ?_
      assumption
    · refine Frame.mk2 ?_
      assumption
  · refine Frame.ite2 ?_ ?_
    · refine Frame.mk2 ?_
      assumption
    · extract_lets x1
      have hx1 : Frame L org x1 := by
        unfold x1
        refine eachM_fr (fun _ _ _ => ?_) ?_
        · refine beamStop_fr (partsIn_sub (by decide) hL) ?_
          assumption
        · assumption
      clear_value x1
      split
      · rename_i heq
        refine Frame.let2 (l := L) (b := org) heq ?_ (fun _ => ?_)
        · refine drawRandom_fr (partsIn_sub (by decide) hL) ?_
          assumption
        extract_lets x2 x3
        have hx3 : Frame L org x3 := by
          unfold x3
          refine retainTime_fr (partsIn_sub (by decide) hL) ?_
          refine onAon_fr (partsIn_sub (by decide) hL) ?_
          assumption
        clear_value x3
        refine Frame.mk2 ?_
        refine Frame.upd ?_ (.inr rfl) (.inr rfl) (.inl (hL (by decide))) (.inr rfl) (.inr rfl) (.inr rfl) (.inr rfl) (.inr rfl) (.inr rfl) (.inr rfl) (.inr rfl) (.inr rfl) (.inr rfl) (.inr rfl) (.inr rfl) (.inr rfl) (.inr rfl) (.inr rfl) (.inr rfl) (.inr rfl) (.inr rfl) (.inr rfl) (.inr rfl) (.inr rfl) (.inr rfl) (.inr rfl) rfl
        assumption

theorem fullReset_fr {L : List Part} {org : Mach} {cause held m} (hL : [.g, .msix, .aon, .clk, .boot, .bytes, .mem, .mgt, .log, .time, .job, .imp, .beams, .mpl, .hmap, .cells, .sig, .lanes, .heads, .stg, .ilk, .hlt, .keep, .ev .glb, .ev .dma, .ev .boot, .ev .job, .ev .imp, .ev .beam, .ev .mpl, .ev .hmap, .ev .sig, .ev .cell, .ev .cellArr, .ev .lane, .ev .stg, .ev .ilk, .ev .time, .ev .mem, .ev .clk, .ev .pwr, .ev .hlt, .ev .mgt, .regs, .outs, .free] ⊆ L) (h_m : Frame L org m) :
    Frame L org (fullReset cause held m) := by
  delta fullReset
  refine Frame.ite ?_ ?_
  · assumption
  · extract_lets x1
    have hx1 : Frame L org x1 := by
      unfold x1
      refine ilkDrive_fr (partsIn_sub (by decide) hL) ?_
      refine onIlk_fr (partsIn_sub (by decide) hL) ?_
      assumption
    clear_value x1
    split
    · rename_i heq
      refine Frame.let2 (l := L) (b := org) heq ?_ (fun _ => ?_)
      · refine Frame.ite2 ?_ ?_
        · refine preserveSave_fr (partsIn_sub (by decide) hL) ?_
          assumption
        · refine Frame.mk2 ?_
          assumption
      extract_lets x2 x3
      have hx2 : Frame L org x2 := by
        unfold x2
        refine resetMach_fr (partsIn_sub (by decide) hL) ?_
        refine attemptCut_fr (partsIn_sub (by decide) hL) ?_
        assumption
      clear_value x2
      refine Frame.upd ?_ (.inr rfl) (.inr rfl) (.inr rfl) (.inl (hL (by decide))) (.inr rfl) (.inr rfl) (.inr rfl) (.inr rfl) (.inr rfl) (.inr rfl) (.inr rfl) (.inr rfl) (.inr rfl) (.inr rfl) (.inr rfl) (.inr rfl) (.inr rfl) (.inr rfl) (.inr rfl) (.inr rfl) (.inr rfl) (.inr rfl) (.inr rfl) (.inr rfl) (.inr rfl) (.inr rfl) rfl
      assumption

theorem resetKey_fr {L : List Part} {org : Mach} {p v m} (hL : [.g, .msix, .aon, .clk, .boot, .bytes, .mem, .mgt, .log, .time, .job, .imp, .beams, .mpl, .hmap, .cells, .sig, .lanes, .heads, .stg, .ilk, .hlt, .keep, .ev .glb, .ev .dma, .ev .boot, .ev .job, .ev .imp, .ev .beam, .ev .mpl, .ev .hmap, .ev .sig, .ev .cell, .ev .cellArr, .ev .lane, .ev .stg, .ev .ilk, .ev .time, .ev .mem, .ev .clk, .ev .pwr, .ev .hlt, .ev .mgt, .regs, .outs, .free] ⊆ L) (h_m : Frame L org m) :
    Frame L org (resetKey p v m) := by
  delta resetKey
  extract_lets x1 x2
  have hf_x2 : ∀ a0 m, Frame L org m → Frame L org (x2 a0 m) := by
    intro a0 m hm
    unfold x2
    refine onPort_fr (partsIn_sub (by decide) hL) ?_
    assumption
  clear_value x2
  refine Frame.ite ?_ ?_
  · apply hf_x2
    assumption
  · refine Frame.ite ?_ ?_
    · refine fullReset_fr (partsIn_sub (by decide) hL) ?_
      assumption
    · refine raise_fr (partsIn_sub (by simp only [EvReg.kind]; decide) hL) ?_
      apply hf_x2
      assumption

theorem keyWindowEnd_fr {L : List Part} {org : Mach} {p m} (hL : [.g, .msix, .ev .glb, .outs] ⊆ L) (h_m : Frame L org m) :
    Frame L org (keyWindowEnd p m) := by
  delta keyWindowEnd
  refine Frame.ite ?_ ?_
  · refine raise_fr (partsIn_sub (by simp only [EvReg.kind]; decide) hL) ?_
    refine onPort_fr (partsIn_sub (by decide) hL) ?_
    assumption
  · assumption

theorem powerBoot_fr {L : List Part} {org : Mach} {cause m} (hL : [.g, .msix, .aon, .clk, .boot, .bytes, .mem, .mgt, .log, .time, .job, .imp, .beams, .mpl, .hmap, .cells, .sig, .lanes, .heads, .stg, .ilk, .hlt, .keep, .ev .glb, .ev .dma, .ev .boot, .ev .job, .ev .imp, .ev .beam, .ev .mpl, .ev .hmap, .ev .sig, .ev .cell, .ev .cellArr, .ev .lane, .ev .stg, .ev .ilk, .ev .time, .ev .mem, .ev .clk, .ev .pwr, .ev .hlt, .ev .mgt, .regs] ⊆ L) (h_m : Frame L org m) :
    Frame L org (powerBoot cause m) := by
  delta powerBoot
  extract_lets x1
  have hx1 : Frame L org x1 := by
    unfold x1
    refine resetMach_fr (partsIn_sub (by decide) hL) ?_
    assumption
  clear_value x1
  refine onAon_fr (partsIn_sub (by decide) hL) ?_
  assumption

theorem powerTry_fr {L : List Part} {org : Mach} {m} (hL : [.g, .msix, .aon, .clk, .boot, .bytes, .mem, .mgt, .log, .time, .job, .imp, .beams, .mpl, .hmap, .cells, .sig, .lanes, .heads, .stg, .ilk, .hlt, .keep, .ev .glb, .ev .dma, .ev .boot, .ev .job, .ev .imp, .ev .beam, .ev .mpl, .ev .hmap, .ev .sig, .ev .cell, .ev .cellArr, .ev .lane, .ev .stg, .ev .ilk, .ev .time, .ev .mem, .ev .clk, .ev .pwr, .ev .hlt, .ev .mgt, .regs] ⊆ L) (h_m : Frame L org m) :
    Frame L org (powerTry m) := by
  delta powerTry
  refine Frame.ite ?_ ?_
  · refine powerBoot_fr (partsIn_sub (by decide) hL) ?_
    assumption
  · assumption

theorem vbatRise_fr {L : List Part} {org : Mach} {m} (hL : [.g, .aon, .clk] ⊆ L) (h_m : Frame L org m) :
    Frame L org (vbatRise m) := by
  delta vbatRise
  refine Frame.ite ?_ ?_
  · assumption
  · extract_lets x1 x2 x3
    have hx1 : Frame L org x1 := by
      unfold x1
      refine Frame.upd ?_ (.inr rfl) (.inr rfl) (.inr rfl) (.inr rfl) (.inr rfl) (.inl (hL (by decide))) (.inr rfl) (.inr rfl) (.inr rfl) (.inr rfl) (.inr rfl) (.inr rfl) (.inr rfl) (.inr rfl) (.inr rfl) (.inr rfl) (.inr rfl) (.inr rfl) (.inr rfl) (.inr rfl) (.inr rfl) (.inr rfl) (.inr rfl) (.inr rfl) (.inr rfl) (.inr rfl) rfl
      assumption
    refine Frame.ite ?_ ?_
    · refine Frame.upd ?_ (.inr rfl) (.inr rfl) (.inr rfl) (.inl (hL (by decide))) (.inr rfl) (.inr rfl) (.inl (hL (by decide))) (.inr rfl) (.inr rfl) (.inr rfl) (.inr rfl) (.inr rfl) (.inr rfl) (.inr rfl) (.inr rfl) (.inr rfl) (.inr rfl) (.inr rfl) (.inr rfl) (.inr rfl) (.inr rfl) (.inr rfl) (.inr rfl) (.inr rfl) (.inr rfl) (.inr rfl) rfl
      assumption
    · assumption

theorem vbatFall_fr {L : List Part} {org : Mach} {m} (hL : [.g, .aon, .clk] ⊆ L) (h_m : Frame L org m) :
    Frame L org (vbatFall m) := by
  delta vbatFall
  extract_lets x1 x2 x3
  have hx1 : Frame L org x1 := by
    unfold x1
    refine onAon_fr (partsIn_sub (by decide) hL) ?_
    assumption
  clear_value x1
  refine Frame.ite ?_ ?_
  · refine Frame.upd ?_ (.inr rfl) (.inr rfl) (.inr rfl) (.inl (hL (by decide))) (.inr rfl) (.inl (hL (by decide))) (.inl (hL (by decide))) (.inr rfl) (.inr rfl) (.inr rfl) (.inr rfl) (.inr rfl) (.inr rfl) (.inr rfl) (.inr rfl) (.inr rfl) (.inr rfl) (.inr rfl) (.inr rfl) (.inr rfl) (.inr rfl) (.inr rfl) (.inr rfl) (.inr rfl) (.inr rfl) (.inr rfl) rfl
    assumption
  · assumption

theorem mainUp_fr {L : List Part} {org : Mach} {refSel m} (hL : [.g, .msix, .aon, .clk, .boot, .bytes, .mem, .mgt, .log, .time, .job, .imp, .beams, .mpl, .hmap, .cells, .sig, .lanes, .heads, .stg, .ilk, .hlt, .keep, .ev .glb, .ev .dma, .ev .boot, .ev .job, .ev .imp, .ev .beam, .ev .mpl, .ev .hmap, .ev .sig, .ev .cell, .ev .cellArr, .ev .lane, .ev .stg, .ev .ilk, .ev .time, .ev .mem, .ev .clk, .ev .pwr, .ev .hlt, .ev .mgt, .regs] ⊆ L) (h_m : Frame L org m) :
    Frame L org (mainUp refSel m) := by
  delta mainUp
  refine Frame.ite ?_ ?_
  · assumption
  · refine powerTry_fr (partsIn_sub (by decide) hL) ?_
    refine onAon_fr (partsIn_sub (by decide) hL) ?_
    assumption

theorem mainLoss_fr {L : List Part} {org : Mach} {m} (hL : [.g, .msix, .aon, .clk, .boot, .bytes, .mem, .mgt, .log, .time, .job, .imp, .beams, .mpl, .hmap, .cells, .sig, .lanes, .heads, .stg, .ilk, .hlt, .keep, .ev .glb, .ev .dma, .ev .boot, .ev .job, .ev .imp, .ev .beam, .ev .mpl, .ev .hmap, .ev .sig, .ev .cell, .ev .cellArr, .ev .lane, .ev .stg, .ev .ilk, .ev .time, .ev .mem, .ev .clk, .ev .pwr, .ev .hlt, .ev .mgt, .regs] ⊆ L) (h_m : Frame L org m) :
    Frame L org (mainLoss m) := by
  delta mainLoss
  refine Frame.ite ?_ ?_
  · assumption
  · extract_lets x1 x2 x3 x4 x5 x6 x7
    have hx2 : Frame L org x2 := by
      unfold x2
      refine attemptCut_fr (partsIn_sub (by decide) hL) ?_
      assumption
    clear_value x2
    have hx5 : Frame L org x5 := by
      unfold x5
      refine Frame.upd ?_ (.inr rfl) (.inr rfl) (.inr rfl) (.inr rfl) (.inr rfl) (.inl (hL (by decide))) (.inr rfl) (.inr rfl) (.inr rfl) (.inr rfl) (.inr rfl) (.inr rfl) (.inr rfl) (.inr rfl) (.inr rfl) (.inr rfl) (.inr rfl) (.inr rfl) (.inr rfl) (.inr rfl) (.inr rfl) (.inr rfl) (.inr rfl) (.inr rfl) (.inr rfl) (.inr rfl) rfl
      assumption
    clear_value x5
    have hx6 : Frame L org x6 := by
      unfold x6
      refine resetMach_fr (partsIn_sub (by decide) hL) ?_
      assumption
    clear_value x6
    refine Frame.upd ?_ (.inr rfl) (.inr rfl) (.inr rfl) (.inr rfl) (.inr rfl) (.inr rfl) (.inl (hL (by decide))) (.inr rfl) (.inr rfl) (.inr rfl) (.inr rfl) (.inr rfl) (.inr rfl) (.inr rfl) (.inr rfl) (.inr rfl) (.inr rfl) (.inr rfl) (.inr rfl) (.inr rfl) (.inr rfl) (.inr rfl) (.inr rfl) (.inr rfl) (.inr rfl) (.inr rfl) rfl
    assumption

theorem wake_fr {L : List Part} {org : Mach} {m} (hL : [.g, .msix, .aon, .clk, .boot, .bytes, .mem, .mgt, .log, .time, .job, .imp, .beams, .mpl, .hmap, .cells, .sig, .lanes, .heads, .stg, .ilk, .hlt, .keep, .ev .glb, .ev .dma, .ev .boot, .ev .job, .ev .imp, .ev .beam, .ev .mpl, .ev .hmap, .ev .sig, .ev .cell, .ev .cellArr, .ev .lane, .ev .stg, .ev .ilk, .ev .time, .ev .mem, .ev .clk, .ev .pwr, .ev .hlt, .ev .mgt, .regs] ⊆ L) (h_m : Frame L org m) :
    Frame L org (wake m) := by
  delta wake
  refine powerTry_fr (partsIn_sub (by decide) hL) ?_
  refine onAon_fr (partsIn_sub (by decide) hL) ?_
  assumption

theorem wakeRequest_fr {L : List Part} {org : Mach} {m} (hL : [.g, .msix, .aon, .clk, .boot, .bytes, .mem, .mgt, .log, .time, .job, .imp, .beams, .mpl, .hmap, .cells, .sig, .lanes, .heads, .stg, .ilk, .hlt, .keep, .ev .glb, .ev .dma, .ev .boot, .ev .job, .ev .imp, .ev .beam, .ev .mpl, .ev .hmap, .ev .sig, .ev .cell, .ev .cellArr, .ev .lane, .ev .stg, .ev .ilk, .ev .time, .ev .mem, .ev .clk, .ev .pwr, .ev .hlt, .ev .mgt, .regs] ⊆ L) (h_m : Frame L org m) :
    Frame L org (wakeRequest m) := by
  delta wakeRequest
  refine Frame.ite ?_ ?_
  · refine wake_fr (partsIn_sub (by decide) hL) ?_
    assumption
  · refine Frame.ite ?_ ?_
    · refine onClk_fr (partsIn_sub (by decide) hL) ?_
      assumption
    · assumption

theorem wakeEdge_fr {L : List Part} {org : Mach} {rising m} (hL : [.g, .msix, .aon, .clk, .boot, .bytes, .mem, .mgt, .log, .time, .job, .imp, .beams, .mpl, .hmap, .cells, .sig, .lanes, .heads, .stg, .ilk, .hlt, .keep, .ev .glb, .ev .dma, .ev .boot, .ev .job, .ev .imp, .ev .beam, .ev .mpl, .ev .hmap, .ev .sig, .ev .cell, .ev .cellArr, .ev .lane, .ev .stg, .ev .ilk, .ev .time, .ev .mem, .ev .clk, .ev .pwr, .ev .hlt, .ev .mgt, .regs] ⊆ L) (h_m : Frame L org m) :
    Frame L org (wakeEdge rising m) := by
  delta wakeEdge
  extract_lets x1
  refine Frame.ite ?_ ?_
  · refine wakeRequest_fr (partsIn_sub (by decide) hL) ?_
    assumption
  · assumption

theorem rtcAlarm_fr {L : List Part} {org : Mach} {m} (hL : [.g, .msix, .aon, .clk, .boot, .bytes, .mem, .mgt, .log, .time, .job, .imp, .beams, .mpl, .hmap, .cells, .sig, .lanes, .heads, .stg, .ilk, .hlt, .keep, .ev .glb, .ev .dma, .ev .boot, .ev .job, .ev .imp, .ev .beam, .ev .mpl, .ev .hmap, .ev .sig, .ev .cell, .ev .cellArr, .ev .lane, .ev .stg, .ev .ilk, .ev .time, .ev .mem, .ev .clk, .ev .pwr, .ev .hlt, .ev .mgt, .regs] ⊆ L) (h_m : Frame L org m) :
    Frame L org (rtcAlarm m) := by
  delta rtcAlarm
  refine Frame.ite ?_ ?_
  · refine wake_fr (partsIn_sub (by decide) hL) ?_
    assumption
  · assumption

theorem resetNLow_fr {L : List Part} {org : Mach} {m} (hL : [.g, .msix, .aon, .clk, .boot, .bytes, .mem, .mgt, .log, .time, .job, .imp, .beams, .mpl, .hmap, .cells, .sig, .lanes, .heads, .stg, .ilk, .hlt, .keep, .ev .glb, .ev .dma, .ev .boot, .ev .job, .ev .imp, .ev .beam, .ev .mpl, .ev .hmap, .ev .sig, .ev .cell, .ev .cellArr, .ev .lane, .ev .stg, .ev .ilk, .ev .time, .ev .mem, .ev .clk, .ev .pwr, .ev .hlt, .ev .mgt, .regs, .outs, .free] ⊆ L) (h_m : Frame L org m) :
    Frame L org (resetNLow m) := by
  delta resetNLow
  refine onAon_fr (partsIn_sub (by decide) hL) ?_
  refine fullReset_fr (partsIn_sub (by decide) hL) ?_
  assumption

theorem flashDriven_fr {L : List Part} {org : Mach} {f m} (hL : [.boot] ⊆ L) (h_m : Frame L org m) :
    Frame L org (flashDriven f m) := by
  delta flashDriven
  refine Frame.ite ?_ ?_
  · assumption
  · refine Frame.upd ?_ (.inr rfl) (.inr rfl) (.inr rfl) (.inr rfl) (.inr rfl) (.inr rfl) (.inr rfl) (.inl (hL (by decide))) (.inr rfl) (.inr rfl) (.inr rfl) (.inr rfl) (.inr rfl) (.inr rfl) (.inr rfl) (.inr rfl) (.inr rfl) (.inr rfl) (.inr rfl) (.inr rfl) (.inr rfl) (.inr rfl) (.inr rfl) (.inr rfl) (.inr rfl) (.inr rfl) rfl
    assumption

theorem resetNRise_fr {L : List Part} {org : Mach} {flash m0} (hL : [.g, .msix, .aon, .clk, .boot, .bytes, .mem, .mgt, .log, .time, .job, .imp, .beams, .mpl, .hmap, .cells, .sig, .lanes, .heads, .stg, .ilk, .hlt, .keep, .ev .glb, .ev .dma, .ev .boot, .ev .job, .ev .imp, .ev .beam, .ev .mpl, .ev .hmap, .ev .sig, .ev .cell, .ev .cellArr, .ev .lane, .ev .stg, .ev .ilk, .ev .time, .ev .mem, .ev .clk, .ev .pwr, .ev .hlt, .ev .mgt, .regs] ⊆ L) (h_m0 : Frame L org m0) :
    Frame L org (resetNRise flash m0) := by
  delta resetNRise
  extract_lets x1 x2 x3
  have hx1 : Frame L org x1 := by
    unfold x1
    split
    · refine flashDriven_fr (partsIn_sub (by decide) hL) ?_
      assumption
    · assumption
  clear_value x1
  refine powerTry_fr (partsIn_sub (by decide) hL) ?_
  refine Frame.upd ?_ (.inr rfl) (.inr rfl) (.inr rfl) (.inl (hL (by decide))) (.inr rfl) (.inl (hL (by decide))) (.inr rfl) (.inr rfl) (.inr rfl) (.inr rfl) (.inr rfl) (.inr rfl) (.inr rfl) (.inr rfl) (.inr rfl) (.inr rfl) (.inr rfl) (.inr rfl) (.inr rfl) (.inr rfl) (.inr rfl) (.inr rfl) (.inr rfl) (.inr rfl) (.inr rfl) (.inr rfl) rfl
  assumption

theorem buildEnter_fr {L : List Part} {org : Mach} {dev cause m} (hL : [.g, .msix, .log, .beams, .sig, .ilk, .ev .glb, .ev .mgt, .outs] ⊆ L) (h_m : Frame L org m) :
    Frame L org (buildEnter dev cause m) := by
  delta buildEnter
  extract_lets x1
  have hx1 : Frame L org x1 := by
    unfold x1
    refine whenM_fr (fun _ _ => ?_) ?_
    · refine onIlk_fr (partsIn_sub (by decide) hL) ?_
      assumption
    · assumption
  clear_value x1
  refine devMove_fr (partsIn_sub (by decide) hL) ?_
  assumption

theorem glbStart_fr {L : List Part} {org : Mach} {proof m} (hL : [.g, .msix, .clk, .boot, .bytes, .mem, .mgt, .log, .time, .job, .imp, .beams, .mpl, .hmap, .cells, .sig, .heads, .stg, .ilk, .ev .glb, .ev .boot, .ev .job, .ev .imp, .ev .beam, .ev .cellArr, .ev .stg, .ev .mem, .ev .hlt, .ev .mgt, .outs, .free] ⊆ L) (h_m : Frame L org m) :
    Frame L org (glbStart proof m) := by
  delta glbStart
  refine Frame.ite ?_ ?_
  · refine cmdError_fr (partsIn_sub (by decide) hL) ?_
    assumption
  · extract_lets x1 x2 x3
    have hx1 : Frame L org x1 := by
      unfold x1
      refine hmStart_fr (partsIn_sub (by decide) hL) ?_
      refine Frame.upd ?_ (.inr rfl) (.inr rfl) (.inr rfl) (.inr rfl) (.inr rfl) (.inr rfl) (.inr rfl) (.inr rfl) (.inr rfl) (.inr rfl) (.inr rfl) (.inr rfl) (.inr rfl) (.inl (hL (by decide))) (.inr rfl) (.inr rfl) (.inr rfl) (.inr rfl) (.inr rfl) (.inr rfl) (.inr rfl) (.inr rfl) (.inr rfl) (.inr rfl) (.inr rfl) (.inr rfl) rfl
      assumption
    clear_value x1
    have hx2 : Frame L org x2 := by
      unfold x2
      refine buildEnter_fr (partsIn_sub (by decide) hL) ?_
      refine onTime_fr (partsIn_sub (by decide) hL) ?_
      assumption
    clear_value x2
    have hx3 : Frame L org x3 := by
      unfold x3
      refine jobMove_fr (partsIn_sub (by decide) hL) ?_
      assumption
    clear_value x3
    refine jobTest_fr (partsIn_sub (by decide) hL) ?_
    refine whenM_fr (fun _ _ => ?_) ?_
    · refine hostAbsentBegin_fr (partsIn_sub (by decide) hL) ?_
      assumption
    · assumption

theorem glbEnd_fr {L : List Part} {org : Mach} {m} (hL : [.g, .msix, .clk, .boot, .mem, .log, .job, .beams, .cells, .sig, .ilk, .ev .glb, .ev .imp, .ev .mgt, .outs] ⊆ L) (h_m : Frame L org m) :
    Frame L org (glbEnd m) := by
  delta glbEnd
  refine Frame.ite ?_ ?_
  · refine layerOver_fr (partsIn_sub (by decide) hL) ?_
    refine devMove_fr (partsIn_sub (by decide) hL) ?_
    refine onJob_fr (partsIn_sub (by decide) hL) ?_
    assumption
  · refine cmdError_fr (partsIn_sub (by decide) hL) ?_
    assumption

theorem glbStandby_fr {L : List Part} {org : Mach} {m} (hL : [.msix, .clk, .log, .heads, .stg, .ev .glb, .ev .stg, .ev .hlt, .ev .mgt, .outs, .free] ⊆ L) (h_m : Frame L org m) :
    Frame L org (glbStandby m) := by
  delta glbStandby
  refine Frame.ite ?_ ?_
  · refine cmdError_fr (partsIn_sub (by decide) hL) ?_
    assumption
  · refine onClk_fr (partsIn_sub (by decide) hL) ?_
    refine axesHalt_fr (partsIn_sub (by decide) hL) ?_
    refine eachM_fr (fun _ _ _ => ?_) ?_
    · refine parkSend_fr (partsIn_sub (by decide) hL) ?_
      assumption
    · assumption

theorem standbyGo_fr {L : List Part} {org : Mach} {m} (hL : [.g, .msix, .aon, .clk, .boot, .bytes, .mem, .mgt, .log, .time, .job, .imp, .beams, .mpl, .hmap, .cells, .sig, .lanes, .heads, .stg, .ilk, .hlt, .keep, .ev .glb, .ev .dma, .ev .boot, .ev .job, .ev .imp, .ev .beam, .ev .mpl, .ev .hmap, .ev .sig, .ev .cell, .ev .cellArr, .ev .lane, .ev .stg, .ev .ilk, .ev .time, .ev .mem, .ev .clk, .ev .pwr, .ev .hlt, .ev .mgt, .regs, .outs] ⊆ L) (h_m : Frame L org m) :
    Frame L org (standbyGo m) := by
  delta standbyGo
  refine Frame.ite ?_ ?_
  · assumption
  · extract_lets x1 x2 x3 x4
    have hx2 : Frame L org x2 := by
      unfold x2
      refine logFlush_fr (partsIn_sub (by decide) hL) ?_
      refine log_fr (partsIn_sub (by decide) hL) ?_
      assumption
    clear_value x2
    have hx3 : Frame L org x3 := by
      unfold x3
      refine onAon_fr (partsIn_sub (by decide) hL) ?_
      assumption
    clear_value x3
    have hx4 : Frame L org x4 := by
      unfold x4
      refine onClk_fr (partsIn_sub (by decide) hL) ?_
      refine resetMach_fr (partsIn_sub (by decide) hL) ?_
      assumption
    clear_value x4
    refine Frame.ite ?_ ?_
    · refine wake_fr (partsIn_sub (by decide) hL) ?_
      assumption
    · assumption

theorem glbSafeHold_fr {L : List Part} {org : Mach} {m} (hL : [.g, .msix, .clk, .boot, .mem, .log, .imp, .beams, .mpl, .cells, .sig, .heads, .stg, .ilk, .ev .glb, .ev .boot, .ev .imp, .ev .cellArr, .ev .stg, .ev .hlt, .ev .mgt, .outs, .free] ⊆ L) (h_m : Frame L org m) :
    Frame L org (glbSafeHold m) := by
  delta glbSafeHold
  refine Frame.ite ?_ ?_
  · refine enterSafe_fr (partsIn_sub (by decide) hL) ?_
    assumption
  · refine cmdError_fr (partsIn_sub (by decide) hL) ?_
    assumption

theorem glbCmd_fr {L : List Part} {org : Mach} {w m} (hL : [.g, .msix, .clk, .boot, .bytes, .mem, .mgt, .log, .time, .job, .imp, .beams, .mpl, .hmap, .cells, .sig, .heads, .stg, .ilk, .ev .glb, .ev .boot, .ev .job, .ev .imp, .ev .beam, .ev .cellArr, .ev .stg, .ev .mem, .ev .hlt, .ev .mgt, .outs, .free] ⊆ L) (h_m : Frame L org m) :
    Frame L org (glbCmd w m) := by
  delta glbCmd
  refine Frame.ite ?_ ?_
  · refine cmdError_fr (partsIn_sub (by decide) hL) ?_
    assumption
  · split
    · refine glbStart_fr (partsIn_sub (by decide) hL) ?_
      assumption
    · refine glbEnd_fr (partsIn_sub (by decide) hL) ?_
      assumption
    · refine glbStandby_fr (partsIn_sub (by decide) hL) ?_
      assumption
    · refine glbSafeHold_fr (partsIn_sub (by decide) hL) ?_
      assumption
    · refine cmdError_fr (partsIn_sub (by decide) hL) ?_
      assumption

theorem execVbatRise_fr {L : List Part} {org : Mach} {s} (hL : [.g, .aon, .clk] ⊆ L) (h_s : Frame L org s.m) :
    OutFrame L org (execVbatRise s) := by
  delta execVbatRise
  refine act_fr (fun _ _ => ?_) h_s
  refine vbatRise_fr (partsIn_sub (by decide) hL) ?_
  assumption

theorem execVbatFall_fr {L : List Part} {org : Mach} {s} (hL : [.g, .aon, .clk] ⊆ L) (h_s : Frame L org s.m) :
    OutFrame L org (execVbatFall s) := by
  delta execVbatFall
  refine act_fr (fun _ _ => ?_) h_s
  refine vbatFall_fr (partsIn_sub (by decide) hL) ?_
  assumption

theorem execMainSupplyUp_fr {L : List Part} {org : Mach} {refSel s} (hL : [.g, .msix, .aon, .clk, .boot, .bytes, .mem, .mgt, .log, .time, .job, .imp, .beams, .mpl, .hmap, .cells, .sig, .lanes, .heads, .stg, .ilk, .hlt, .keep, .ev .glb, .ev .dma, .ev .boot, .ev .job, .ev .imp, .ev .beam, .ev .mpl, .ev .hmap, .ev .sig, .ev .cell, .ev .cellArr, .ev .lane, .ev .stg, .ev .ilk, .ev .time, .ev .mem, .ev .clk, .ev .pwr, .ev .hlt, .ev .mgt, .regs] ⊆ L) (h_s : Frame L org s.m) :
    OutFrame L org (execMainSupplyUp s refSel) := by
  delta execMainSupplyUp
  refine act_fr (fun _ _ => ?_) h_s
  refine mainUp_fr (partsIn_sub (by decide) hL) ?_
  assumption

theorem execMainSupplyLoss_fr {L : List Part} {org : Mach} {s} (hL : [.g, .msix, .aon, .clk, .boot, .bytes, .mem, .mgt, .log, .time, .job, .imp, .beams, .mpl, .hmap, .cells, .sig, .lanes, .heads, .stg, .ilk, .hlt, .keep, .ev .glb, .ev .dma, .ev .boot, .ev .job, .ev .imp, .ev .beam, .ev .mpl, .ev .hmap, .ev .sig, .ev .cell, .ev .cellArr, .ev .lane, .ev .stg, .ev .ilk, .ev .time, .ev .mem, .ev .clk, .ev .pwr, .ev .hlt, .ev .mgt, .regs] ⊆ L) (h_s : Frame L org s.m) :
    OutFrame L org (execMainSupplyLoss s) := by
  delta execMainSupplyLoss
  refine act_fr (fun _ _ => ?_) h_s
  refine mainLoss_fr (partsIn_sub (by decide) hL) ?_
  assumption

theorem execWakeEdge_fr {L : List Part} {org : Mach} {rising s} (hL : [.g, .msix, .aon, .clk, .boot, .bytes, .mem, .mgt, .log, .time, .job, .imp, .beams, .mpl, .hmap, .cells, .sig, .lanes, .heads, .stg, .ilk, .hlt, .keep, .ev .glb, .ev .dma, .ev .boot, .ev .job, .ev .imp, .ev .beam, .ev .mpl, .ev .hmap, .ev .sig, .ev .cell, .ev .cellArr, .ev .lane, .ev .stg, .ev .ilk, .ev .time, .ev .mem, .ev .clk, .ev .pwr, .ev .hlt, .ev .mgt, .regs] ⊆ L) (h_s : Frame L org s.m) :
    OutFrame L org (execWakeEdge rising s) := by
  delta execWakeEdge
  refine act_fr (fun _ _ => ?_) h_s
  refine wakeEdge_fr (partsIn_sub (by decide) hL) ?_
  assumption

theorem execRtcAlarm_fr {L : List Part} {org : Mach} {s} (hL : [.g, .msix, .aon, .clk, .boot, .bytes, .mem, .mgt, .log, .time, .job, .imp, .beams, .mpl, .hmap, .cells, .sig, .lanes, .heads, .stg, .ilk, .hlt, .keep, .ev .glb, .ev .dma, .ev .boot, .ev .job, .ev .imp, .ev .beam, .ev .mpl, .ev .hmap, .ev .sig, .ev .cell, .ev .cellArr, .ev .lane, .ev .stg, .ev .ilk, .ev .time, .ev .mem, .ev .clk, .ev .pwr, .ev .hlt, .ev .mgt, .regs] ⊆ L) (h_s : Frame L org s.m) :
    OutFrame L org (execRtcAlarm s) := by
  delta execRtcAlarm
  refine act_fr (fun _ _ => ?_) h_s
  refine rtcAlarm_fr (partsIn_sub (by decide) hL) ?_
  assumption

theorem execResetNLow_fr {L : List Part} {org : Mach} {s} (hL : [.g, .msix, .aon, .clk, .boot, .bytes, .mem, .mgt, .log, .time, .job, .imp, .beams, .mpl, .hmap, .cells, .sig, .lanes, .heads, .stg, .ilk, .hlt, .keep, .ev .glb, .ev .dma, .ev .boot, .ev .job, .ev .imp, .ev .beam, .ev .mpl, .ev .hmap, .ev .sig, .ev .cell, .ev .cellArr, .ev .lane, .ev .stg, .ev .ilk, .ev .time, .ev .mem, .ev .clk, .ev .pwr, .ev .hlt, .ev .mgt, .regs, .outs, .free] ⊆ L) (h_s : Frame L org s.m) :
    OutFrame L org (execResetNLow s) := by
  delta execResetNLow
  refine act_fr (fun _ _ => ?_) h_s
  refine resetNLow_fr (partsIn_sub (by decide) hL) ?_
  assumption

theorem execResetNRise_fr {L : List Part} {org : Mach} {flash s} (hL : [.g, .msix, .aon, .clk, .boot, .bytes, .mem, .mgt, .log, .time, .job, .imp, .beams, .mpl, .hmap, .cells, .sig, .lanes, .heads, .stg, .ilk, .hlt, .keep, .ev .glb, .ev .dma, .ev .boot, .ev .job, .ev .imp, .ev .beam, .ev .mpl, .ev .hmap, .ev .sig, .ev .cell, .ev .cellArr, .ev .lane, .ev .stg, .ev .ilk, .ev .time, .ev .mem, .ev .clk, .ev .pwr, .ev .hlt, .ev .mgt, .regs] ⊆ L) (h_s : Frame L org s.m) :
    OutFrame L org (execResetNRise s flash) := by
  delta execResetNRise
  refine act_fr (fun _ _ => ?_) h_s
  refine resetNRise_fr (partsIn_sub (by decide) hL) ?_
  assumption

theorem execResetKeyOpen_fr {L : List Part} {org : Mach} {p s} (hL : [.g, .msix, .aon, .clk, .boot, .bytes, .mem, .mgt, .log, .time, .job, .imp, .beams, .mpl, .hmap, .cells, .sig, .lanes, .heads, .stg, .ilk, .hlt, .keep, .ev .glb, .ev .dma, .ev .boot, .ev .job, .ev .imp, .ev .beam, .ev .mpl, .ev .hmap, .ev .sig, .ev .cell, .ev .cellArr, .ev .lane, .ev .stg, .ev .ilk, .ev .time, .ev .mem, .ev .clk, .ev .pwr, .ev .hlt, .ev .mgt, .regs, .outs, .free] ⊆ L) (h_s : Frame L org s.m) :
    OutFrame L org (execResetKeyOpen p s) := by
  delta execResetKeyOpen
  refine act_fr (fun _ _ => ?_) h_s
  refine writeGate_fr (partsIn_sub (by decide) hL) (fun _ _ => ?_) ?_
  · refine resetKey_fr (partsIn_sub (by decide) hL) ?_
    assumption
  · assumption

theorem execResetKeyConfirm_fr {L : List Part} {org : Mach} {p s} (hL : [.g, .msix, .aon, .clk, .boot, .bytes, .mem, .mgt, .log, .time, .job, .imp, .beams, .mpl, .hmap, .cells, .sig, .lanes, .heads, .stg, .ilk, .hlt, .keep, .ev .glb, .ev .dma, .ev .boot, .ev .job, .ev .imp, .ev .beam, .ev .mpl, .ev .hmap, .ev .sig, .ev .cell, .ev .cellArr, .ev .lane, .ev .stg, .ev .ilk, .ev .time, .ev .mem, .ev .clk, .ev .pwr, .ev .hlt, .ev .mgt, .regs, .outs, .free] ⊆ L) (h_s : Frame L org s.m) :
    OutFrame L org (execResetKeyConfirm p s) := by
  delta execResetKeyConfirm
  refine act_fr (fun _ _ => ?_) h_s
  refine writeGate_fr (partsIn_sub (by decide) hL) (fun _ _ => ?_) ?_
  · refine resetKey_fr (partsIn_sub (by decide) hL) ?_
    assumption
  · assumption

theorem execResetKeyInvalid_fr {L : List Part} {org : Mach} {p v s} (hL : [.g, .msix, .aon, .clk, .boot, .bytes, .mem, .mgt, .log, .time, .job, .imp, .beams, .mpl, .hmap, .cells, .sig, .lanes, .heads, .stg, .ilk, .hlt, .keep, .ev .glb, .ev .dma, .ev .boot, .ev .job, .ev .imp, .ev .beam, .ev .mpl, .ev .hmap, .ev .sig, .ev .cell, .ev .cellArr, .ev .lane, .ev .stg, .ev .ilk, .ev .time, .ev .mem, .ev .clk, .ev .pwr, .ev .hlt, .ev .mgt, .regs, .outs, .free] ⊆ L) (h_s : Frame L org s.m) :
    OutFrame L org (execResetKeyInvalid p v s) := by
  delta execResetKeyInvalid
  refine act_fr (fun _ _ => ?_) h_s
  refine writeGate_fr (partsIn_sub (by decide) hL) (fun _ _ => ?_) ?_
  · refine resetKey_fr (partsIn_sub (by decide) hL) ?_
    assumption
  · assumption

theorem execResetKeyWindowEnd_fr {L : List Part} {org : Mach} {p s} (hL : [.g, .msix, .ev .glb, .outs] ⊆ L) (h_s : Frame L org s.m) :
    OutFrame L org (execResetKeyWindowEnd p s) := by
  delta execResetKeyWindowEnd
  refine act_fr (fun _ _ => ?_) h_s
  refine keyWindowEnd_fr (partsIn_sub (by decide) hL) ?_
  assumption

theorem execGlbStart_fr {L : List Part} {org : Mach} {p hi env s} (hL : [.g, .msix, .clk, .boot, .bytes, .mem, .mgt, .log, .time, .job, .imp, .beams, .mpl, .hmap, .cells, .sig, .heads, .stg, .ilk, .ev .glb, .ev .boot, .ev .job, .ev .imp, .ev .beam, .ev .cellArr, .ev .stg, .ev .mem, .ev .hlt, .ev .mgt, .outs, .free] ⊆ L) (h_s : Frame L org s.m) :
    OutFrame L org (execGlbStart p hi s env) := by
  delta execGlbStart
  refine act_fr (fun _ _ => ?_) h_s
  refine withEnv_fr (fun _ _ => ?_) ?_
  · replace hL := env_sub hL
    refine writeGate_fr (partsIn_sub (by decide) hL) (fun _ _ => ?_) ?_
    · refine glbCmd_fr (partsIn_sub (by decide) hL) ?_
      assumption
    · assumption
  · assumption

theorem execGlbEnd_fr {L : List Part} {org : Mach} {p hi s} (hL : [.g, .msix, .clk, .boot, .bytes, .mem, .mgt, .log, .time, .job, .imp, .beams, .mpl, .hmap, .cells, .sig, .heads, .stg, .ilk, .ev .glb, .ev .boot, .ev .job, .ev .imp, .ev .beam, .ev .cellArr, .ev .stg, .ev .mem, .ev .hlt, .ev .mgt, .outs, .free] ⊆ L) (h_s : Frame L org s.m) :
    OutFrame L org (execGlbEnd p hi s) := by
  delta execGlbEnd
  refine act_fr (fun _ _ => ?_) h_s
  refine writeGate_fr (partsIn_sub (by decide) hL) (fun _ _ => ?_) ?_
  · refine glbCmd_fr (partsIn_sub (by decide) hL) ?_
    assumption
  · assumption

theorem execGlbStandby_fr {L : List Part} {org : Mach} {p hi s} (hL : [.g, .msix, .clk, .boot, .bytes, .mem, .mgt, .log, .time, .job, .imp, .beams, .mpl, .hmap, .cells, .sig, .heads, .stg, .ilk, .ev .glb, .ev .boot, .ev .job, .ev .imp, .ev .beam, .ev .cellArr, .ev .stg, .ev .mem, .ev .hlt, .ev .mgt, .outs, .free] ⊆ L) (h_s : Frame L org s.m) :
    OutFrame L org (execGlbStandby p hi s) := by
  delta execGlbStandby
  refine act_fr (fun _ _ => ?_) h_s
  refine writeGate_fr (partsIn_sub (by decide) hL) (fun _ _ => ?_) ?_
  · refine glbCmd_fr (partsIn_sub (by decide) hL) ?_
    assumption
  · assumption

theorem execStandbySequenceResume_fr {L : List Part} {org : Mach} {s} (hL : [.g, .msix, .aon, .clk, .boot, .bytes, .mem, .mgt, .log, .time, .job, .imp, .beams, .mpl, .hmap, .cells, .sig, .lanes, .heads, .stg, .ilk, .hlt, .keep, .ev .glb, .ev .dma, .ev .boot, .ev .job, .ev .imp, .ev .beam, .ev .mpl, .ev .hmap, .ev .sig, .ev .cell, .ev .cellArr, .ev .lane, .ev .stg, .ev .ilk, .ev .time, .ev .mem, .ev .clk, .ev .pwr, .ev .hlt, .ev .mgt, .regs, .outs] ⊆ L) (h_s : Frame L org s.m) :
    OutFrame L org (execStandbySequenceResume s) := by
  delta execStandbySequenceResume
  refine act_fr (fun _ _ => ?_) h_s
  refine standbyGo_fr (partsIn_sub (by decide) hL) ?_
  assumption

theorem execGlbSafeHold_fr {L : List Part} {org : Mach} {p hi s} (hL : [.g, .msix, .clk, .boot, .bytes, .mem, .mgt, .log, .time, .job, .imp, .beams, .mpl, .hmap, .cells, .sig, .heads, .stg, .ilk, .ev .glb, .ev .boot, .ev .job, .ev .imp, .ev .beam, .ev .cellArr, .ev .stg, .ev .mem, .ev .hlt, .ev .mgt, .outs, .free] ⊆ L) (h_s : Frame L org s.m) :
    OutFrame L org (execGlbSafeHold p hi s) := by
  delta execGlbSafeHold
  refine act_fr (fun _ _ => ?_) h_s
  refine writeGate_fr (partsIn_sub (by decide) hL) (fun _ _ => ?_) ?_
  · refine glbCmd_fr (partsIn_sub (by decide) hL) ?_
    assumption
  · assumption

end Sys2Proof.Machine
end

