-- ==== Sys2Proof/Laws/Frame/StageOps.lean ====
section
/-!
SUPPORT. The parts of the device that the operations of Machine/StageOps.lean can touch: one lemma per operation.
-/

namespace Sys2Proof.Machine

theorem stgStatus_fr {L : List Part} {org : Mach} {a op result z3} (hL : [.stg] ⊆ L) (h_z3 : Frame L org z3) :
    Frame L org (stgStatus a op result z3) := by
  delta stgStatus
  refine onAxis_fr (partsIn_sub (by decide) hL) ?_
  assumption

theorem stgRefuse_fr {L : List Part} {org : Mach} {a op result m} (hL : [.msix, .stg, .ev .glb, .ev .stg, .outs] ⊆ L) (h_m : Frame L org m) :
    Frame L org (stgRefuse a op result m) := by
  delta stgRefuse
  refine refuse_fr (partsIn_sub (by simp only [EvReg.kind]; decide) hL) ?_
  refine stgStatus_fr (partsIn_sub (by decide) hL) ?_
  assumption

theorem stgMove_fr {L : List Part} {org : Mach} {a op goal m} (hL : [.msix, .stg, .ev .glb, .ev .stg, .outs] ⊆ L) (h_m : Frame L org m) :
    Frame L org (stgMove a op goal m) := by
  delta stgMove
  extract_lets x1
  refine Frame.ite ?_ ?_
  · refine stgRefuse_fr (partsIn_sub (by decide) hL) ?_
    assumption
  · refine Frame.ite ?_ ?_
    · refine stgRefuse_fr (partsIn_sub (by decide) hL) ?_
      assumption
    · refine Frame.ite ?_ ?_
      · refine stgRefuse_fr (partsIn_sub (by decide) hL) ?_
        assumption
      · refine Frame.ite ?_ ?_
        · refine stgRefuse_fr (partsIn_sub (by decide) hL) ?_
          assumption
        · split
          · refine stgStatus_fr (partsIn_sub (by decide) hL) ?_
            refine moveBegin_fr (partsIn_sub (by decide) hL) ?_
            assumption
          · extract_lets x2
            have hx2 : Frame L org x2 := by
              unfold x2
              refine stgRefuse_fr (partsIn_sub (by decide) hL) ?_
              assumption
            clear_value x2
            refine Frame.ite ?_ ?_
            · refine raise_fr (partsIn_sub (by simp only [EvReg.kind]; decide) hL) ?_
              assumption
            · assumption

theorem stgStop_fr {L : List Part} {org : Mach} {a m} (hL : [.msix, .log, .stg, .ev .glb, .ev .stg, .ev .hlt, .ev .mgt, .outs, .free] ⊆ L) (h_m : Frame L org m) :
    Frame L org (stgStop a m) := by
  delta stgStop
  extract_lets x1 x2
  have hx2 : Frame L org x2 := by
    unfold x2
    refine Frame.ite ?_ ?_
    · refine homeAbort_fr (partsIn_sub (by decide) hL) ?_
      assumption
    · refine axStop_fr (partsIn_sub (by decide) hL) ?_
      assumption
  clear_value x2
  refine Frame.ite ?_ ?_
  · refine stgRefuse_fr (partsIn_sub (by decide) hL) ?_
    assumption
  · refine Frame.ite ?_ ?_
    · refine stgRefuse_fr (partsIn_sub (by decide) hL) ?_
      assumption
    · refine stgStatus_fr (partsIn_sub (by decide) hL) ?_
      assumption

theorem stgResume_fr {L : List Part} {org : Mach} {a m} (hL : [.msix, .stg, .ev .glb, .ev .stg, .outs] ⊆ L) (h_m : Frame L org m) :
    Frame L org (stgResume a m) := by
  delta stgResume
  extract_lets x1
  refine Frame.ite ?_ ?_
  · refine stgRefuse_fr (partsIn_sub (by decide) hL) ?_
    assumption
  · refine stgMove_fr (partsIn_sub (by decide) hL) ?_
    assumption

theorem stgHome_fr {L : List Part} {org : Mach} {a m} (hL : [.g, .msix, .clk, .boot, .mem, .log, .beams, .cells, .sig, .stg, .ev .glb, .ev .imp, .ev .stg, .ev .mgt, .outs] ⊆ L) (h_m : Frame L org m) :
    Frame L org (stgHome a m) := by
  delta stgHome
  extract_lets x1
  refine Frame.ite ?_ ?_
  · refine stgRefuse_fr (partsIn_sub (by decide) hL) ?_
    assumption
  · refine Frame.ite ?_ ?_
    · refine stgRefuse_fr (partsIn_sub (by decide) hL) ?_
      assumption
    · refine Frame.ite ?_ ?_
      · refine stgRefuse_fr (partsIn_sub (by decide) hL) ?_
        assumption
      · refine Frame.ite ?_ ?_
        · refine stgRefuse_fr (partsIn_sub (by decide) hL) ?_
          assumption
        · refine stgStatus_fr (partsIn_sub (by decide) hL) ?_
          refine homeBegin_fr (partsIn_sub (by decide) hL) ?_
          assumption

theorem stgClear_fr {L : List Part} {org : Mach} {a m} (hL : [.msix, .stg, .ev .glb, .ev .stg, .outs] ⊆ L) (h_m : Frame L org m) :
    Frame L org (stgClear a m) := by
  delta stgClear
  extract_lets x1
  refine Frame.ite ?_ ?_
  · refine stgRefuse_fr (partsIn_sub (by decide) hL) ?_
    assumption
  · refine Frame.ite ?_ ?_
    · refine stgRefuse_fr (partsIn_sub (by decide) hL) ?_
      assumption
    · refine stgStatus_fr (partsIn_sub (by decide) hL) ?_
      refine onAxis_fr (partsIn_sub (by decide) hL) ?_
      assumption

theorem stgCmpClear_fr {L : List Part} {org : Mach} {a m} (hL : [.msix, .stg, .ev .glb, .ev .stg, .outs] ⊆ L) (h_m : Frame L org m) :
    Frame L org (stgCmpClear a m) := by
  delta stgCmpClear
  refine Frame.ite ?_ ?_
  · refine stgRefuse_fr (partsIn_sub (by decide) hL) ?_
    assumption
  · refine Frame.ite ?_ ?_
    · refine stgRefuse_fr (partsIn_sub (by decide) hL) ?_
      assumption
    · refine stgStatus_fr (partsIn_sub (by decide) hL) ?_
      refine onAxis_fr (partsIn_sub (by decide) hL) ?_
      assumption

theorem stgCmd_fr {L : List Part} {org : Mach} {a w m} (hL : [.g, .msix, .clk, .boot, .mem, .log, .beams, .cells, .sig, .stg, .ev .glb, .ev .imp, .ev .stg, .ev .hlt, .ev .mgt, .outs, .free] ⊆ L) (h_m : Frame L org m) :
    Frame L org (stgCmd a w m) := by
  delta stgCmd
  refine Frame.ite ?_ ?_
  · refine refuse_fr (partsIn_sub (by simp only [EvReg.kind]; decide) hL) ?_
    assumption
  · split
    · refine stgMove_fr (partsIn_sub (by decide) hL) ?_
      assumption
    · refine stgMove_fr (partsIn_sub (by decide) hL) ?_
      assumption
    · refine stgStop_fr (partsIn_sub (by decide) hL) ?_
      assumption
    · refine stgResume_fr (partsIn_sub (by decide) hL) ?_
      assumption
    · refine stgHome_fr (partsIn_sub (by decide) hL) ?_
      assumption
    · refine stgClear_fr (partsIn_sub (by decide) hL) ?_
      assumption
    · refine stgCmpClear_fr (partsIn_sub (by decide) hL) ?_
      assumption
    · refine refuse_fr (partsIn_sub (by simp only [EvReg.kind]; decide) hL) ?_
      assumption

theorem cmpPush_fr {L : List Part} {org : Mach} {a w m} (hL : [.msix, .stg, .ev .glb, .ev .stg, .outs] ⊆ L) (h_m : Frame L org m) :
    Frame L org (cmpPush a w m) := by
  delta cmpPush
  extract_lets x1 x2 x3 x4
  have hx4 : Frame L org x4 := by
    unfold x4
    refine onAxis_fr (partsIn_sub (by decide) hL) ?_
    assumption
  clear_value x4
  refine Frame.ite ?_ ?_
  · refine refuse_fr (partsIn_sub (by simp only [EvReg.kind]; decide) hL) ?_
    assumption
  · refine Frame.ite ?_ ?_
    · refine raise_fr (partsIn_sub (by simp only [EvReg.kind]; decide) hL) ?_
      assumption
    · refine Frame.ite ?_ ?_
      · refine cmpArm_fr (partsIn_sub (by decide) hL) ?_
        assumption
      · assumption

theorem execMoveAbs_fr {L : List Part} {org : Mach} {p a hi s} (hL : [.g, .msix, .clk, .boot, .mem, .log, .beams, .cells, .sig, .stg, .ev .glb, .ev .imp, .ev .stg, .ev .hlt, .ev .mgt, .outs, .free] ⊆ L) (h_s : Frame L org s.m) :
    OutFrame L org (execMoveAbs p a hi s) := by
  delta execMoveAbs
  refine act_fr (fun _ _ => ?_) h_s
  refine writeGate_fr (partsIn_sub (by decide) hL) (fun _ _ => ?_) ?_
  · refine stgCmd_fr (partsIn_sub (by decide) hL) ?_
    assumption
  · assumption

theorem execMoveRel_fr {L : List Part} {org : Mach} {p a hi s} (hL : [.g, .msix, .clk, .boot, .mem, .log, .beams, .cells, .sig, .stg, .ev .glb, .ev .imp, .ev .stg, .ev .hlt, .ev .mgt, .outs, .free] ⊆ L) (h_s : Frame L org s.m) :
    OutFrame L org (execMoveRel p a hi s) := by
  delta execMoveRel
  refine act_fr (fun _ _ => ?_) h_s
  refine writeGate_fr (partsIn_sub (by decide) hL) (fun _ _ => ?_) ?_
  · refine stgCmd_fr (partsIn_sub (by decide) hL) ?_
    assumption
  · assumption

theorem execAxisStop_fr {L : List Part} {org : Mach} {p a hi s} (hL : [.g, .msix, .clk, .boot, .mem, .log, .beams, .cells, .sig, .stg, .ev .glb, .ev .imp, .ev .stg, .ev .hlt, .ev .mgt, .outs, .free] ⊆ L) (h_s : Frame L org s.m) :
    OutFrame L org (execAxisStop p a hi s) := by
  delta execAxisStop
  refine act_fr (fun _ _ => ?_) h_s
  refine writeGate_fr (partsIn_sub (by decide) hL) (fun _ _ => ?_) ?_
  · refine stgCmd_fr (partsIn_sub (by decide) hL) ?_
    assumption
  · assumption

theorem execAxisResume_fr {L : List Part} {org : Mach} {p a hi s} (hL : [.g, .msix, .clk, .boot, .mem, .log, .beams, .cells, .sig, .stg, .ev .glb, .ev .imp, .ev .stg, .ev .hlt, .ev .mgt, .outs, .free] ⊆ L) (h_s : Frame L org s.m) :
    OutFrame L org (execAxisResume p a hi s) := by
  delta execAxisResume
  refine act_fr (fun _ _ => ?_) h_s
  refine writeGate_fr (partsIn_sub (by decide) hL) (fun _ _ => ?_) ?_
  · refine stgCmd_fr (partsIn_sub (by decide) hL) ?_
    assumption
  · assumption

theorem execHome_fr {L : List Part} {org : Mach} {p a hi s} (hL : [.g, .msix, .clk, .boot, .mem, .log, .beams, .cells, .sig, .stg, .ev .glb, .ev .imp, .ev .stg, .ev .hlt, .ev .mgt, .outs, .free] ⊆ L) (h_s : Frame L org s.m) :
    OutFrame L org (execHome p a hi s) := by
  delta execHome
  refine act_fr (fun _ _ => ?_) h_s
  refine writeGate_fr (partsIn_sub (by decide) hL) (fun _ _ => ?_) ?_
  · refine stgCmd_fr (partsIn_sub (by decide) hL) ?_
    assumption
  · assumption

theorem execClear_fr {L : List Part} {org : Mach} {p a hi s} (hL : [.g, .msix, .clk, .boot, .mem, .log, .beams, .cells, .sig, .stg, .ev .glb, .ev .imp, .ev .stg, .ev .hlt, .ev .mgt, .outs, .free] ⊆ L) (h_s : Frame L org s.m) :
    OutFrame L org (execClear p a hi s) := by
  delta execClear
  refine act_fr (fun _ _ => ?_) h_s
  refine writeGate_fr (partsIn_sub (by decide) hL) (fun _ _ => ?_) ?_
  · refine stgCmd_fr (partsIn_sub (by decide) hL) ?_
    assumption
  · assumption

theorem execCmpClear_fr {L : List Part} {org : Mach} {p a hi s} (hL : [.g, .msix, .clk, .boot, .mem, .log, .beams, .cells, .sig, .stg, .ev .glb, .ev .imp, .ev .stg, .ev .hlt, .ev .mgt, .outs, .free] ⊆ L) (h_s : Frame L org s.m) :
    OutFrame L org (execCmpClear p a hi s) := by
  delta execCmpClear
  refine act_fr (fun _ _ => ?_) h_s
  refine writeGate_fr (partsIn_sub (by decide) hL) (fun _ _ => ?_) ?_
  · refine stgCmd_fr (partsIn_sub (by decide) hL) ?_
    assumption
  · assumption

theorem execCmpPush_fr {L : List Part} {org : Mach} {p a v s} (hL : [.g, .msix, .log, .stg, .ev .glb, .ev .stg, .ev .mgt, .outs] ⊆ L) (h_s : Frame L org s.m) :
    OutFrame L org (execCmpPush p a v s) := by
  delta execCmpPush
  refine act_fr (fun _ _ => ?_) h_s
  refine writeGate_fr (partsIn_sub (by decide) hL) (fun _ _ => ?_) ?_
  · refine cmpPush_fr (partsIn_sub (by decide) hL) ?_
    assumption
  · assumption

theorem motionTake_fr {L : List Part} {org : Mach} {a m0} (hL : [.g, .msix, .clk, .boot, .mem, .log, .beams, .cells, .sig, .stg, .ev .imp, .ev .stg, .ev .mgt, .outs] ⊆ L) (h_m0 : Frame L org m0) :
    Frame L org (motionTake a m0) := by
  delta motionTake
  refine Frame.ite ?_ ?_
  · assumption
  · extract_lets x1 x2 x3 x4 x5
    have hx1 : Frame L org x1 := by
      unfold x1
      refine takeRecord_fr (partsIn_sub (by decide) hL) ?_
      assumption
    clear_value x1
    refine Frame.ite ?_ ?_
    · assumption
    · refine Frame.ite ?_ ?_
      · refine onAxis_fr (partsIn_sub (by decide) hL) ?_
        assumption
      · refine raise_fr (partsIn_sub (by simp only [EvReg.kind]; decide) hL) ?_
        refine onAxis_fr (partsIn_sub (by decide) hL) ?_
        assumption

theorem homingUpdate_fr {L : List Part} {org : Mach} {a h m} (hL : [.msix, .log, .stg, .ev .stg, .ev .hlt, .ev .mgt, .outs, .free] ⊆ L) (h_m : Frame L org m) :
    Frame L org (homingUpdate a h m) := by
  delta homingUpdate
  extract_lets x1 x2 x3 x4 x5 x6 x7
  refine Frame.ite ?_ ?_
  · refine homeAbort_fr (partsIn_sub (by decide) hL) ?_
    assumption
  · refine Frame.ite ?_ ?_
    · refine Frame.ite ?_ ?_
      · refine onAxis_fr (partsIn_sub (by decide) hL) ?_
        assumption
      · refine Frame.ite ?_ ?_
        · refine homeEnd_fr (partsIn_sub (by decide) hL) ?_
          assumption
        · refine onAxis_fr (partsIn_sub (by decide) hL) ?_
          assumption
    · refine onAxis_fr (partsIn_sub (by decide) hL) ?_
      assumption

theorem rateTick_fr {L : List Part} {org : Mach} {a m} (hL : [.stg] ⊆ L) (h_m : Frame L org m) :
    Frame L org (rateTick a m) := by
  delta rateTick
  refine onAxis_fr (partsIn_sub (by decide) hL) ?_
  assumption

theorem profileUpdate_fr {L : List Part} {org : Mach} {a m0} (hL : [.g, .msix, .clk, .boot, .mem, .log, .beams, .cells, .sig, .stg, .ev .imp, .ev .stg, .ev .hlt, .ev .mgt, .outs, .free] ⊆ L) (h_m0 : Frame L org m0) :
    Frame L org (profileUpdate a m0) := by
  delta profileUpdate
  extract_lets x1 x2 x3 x4 x5 x6 x7 x8 x9
  have hx1 : Frame L org x1 := by
    unfold x1
    refine motionTake_fr (partsIn_sub (by decide) hL) ?_
    refine rateTick_fr (partsIn_sub (by decide) hL) ?_
    assumption
  clear_value x1
  split
  · split
    · refine Frame.ite ?_ ?_
      · refine onAxis_fr (partsIn_sub (by decide) hL) ?_
        assumption
      · refine onAxis_fr (partsIn_sub (by decide) hL) ?_
        assumption
  · refine Frame.ite ?_ ?_
    · refine onAxis_fr (partsIn_sub (by decide) hL) ?_
      assumption
    · split
      · refine onAxis_fr (partsIn_sub (by decide) hL) ?_
        assumption
  · split
    · refine homingUpdate_fr (partsIn_sub (by decide) hL) ?_
      assumption
    · assumption
  · assumption

theorem microstep_fr {L : List Part} {org : Mach} {a m} (hL : [.g, .msix, .clk, .boot, .mem, .log, .beams, .cells, .sig, .stg, .ev .imp, .ev .stg, .ev .mgt, .outs] ⊆ L) (h_m : Frame L org m) :
    Frame L org (microstep a m) := by
  delta microstep
  extract_lets x1 x2 x3
  have hx3 : Frame L org x3 := by
    unfold x3
    refine oneStep_fr (partsIn_sub (by decide) hL) ?_
    refine onAxis_fr (partsIn_sub (by decide) hL) ?_
    assumption
  clear_value x3
  refine Frame.ite ?_ ?_
  · assumption
  · refine Frame.ite ?_ ?_
    · refine onAxis_fr (partsIn_sub (by decide) hL) ?_
      assumption
    · assumption

theorem targetReached_fr {L : List Part} {org : Mach} {a m} (hL : [.msix, .log, .stg, .ev .stg, .ev .hlt, .ev .mgt, .outs, .free] ⊆ L) (h_m : Frame L org m) :
    Frame L org (targetReached a m) := by
  delta targetReached
  extract_lets x1
  refine Frame.ite ?_ ?_
  · refine raise_fr (partsIn_sub (by simp only [EvReg.kind]; decide) hL) ?_
    refine moveEnded_fr (partsIn_sub (by decide) hL) ?_
    refine onAxis_fr (partsIn_sub (by decide) hL) ?_
    assumption
  · assumption

theorem moveOn_fr {L : List Part} {org : Mach} {a m} (hL : [.job, .stg] ⊆ L) (h_m : Frame L org m) :
    Frame L org (moveOn a m) := by
  delta moveOn
  refine Frame.ite ?_ ?_
  · extract_lets x1
    have hx1 : Frame L org x1 := by
      unfold x1
      refine onJob_fr (partsIn_sub (by decide) hL) ?_
      assumption
    clear_value x1
    split
    · refine Frame.ite ?_ ?_
      · assumption
      · refine jobMoveAxis_fr (partsIn_sub (by decide) hL) ?_
        assumption
    · assumption
  · assumption

theorem atRest_fr {L : List Part} {org : Mach} {a m} (hL : [.msix, .log, .job, .stg, .ev .stg, .ev .hlt, .ev .mgt, .outs, .free] ⊆ L) (h_m : Frame L org m) :
    Frame L org (atRest a m) := by
  delta atRest
  refine Frame.ite ?_ ?_
  · refine moveOn_fr (partsIn_sub (by decide) hL) ?_
    refine axAtRest_fr (partsIn_sub (by decide) hL) ?_
    assumption
  · assumption

theorem execProfileUpdate_fr {L : List Part} {org : Mach} {a s} (hL : [.g, .msix, .clk, .boot, .mem, .log, .beams, .cells, .sig, .stg, .ev .imp, .ev .stg, .ev .hlt, .ev .mgt, .outs, .free] ⊆ L) (h_s : Frame L org s.m) :
    OutFrame L org (execProfileUpdate a s) := by
  delta execProfileUpdate
  refine act_fr (fun _ _ => ?_) h_s
  refine profileUpdate_fr (partsIn_sub (by decide) hL) ?_
  assumption

theorem execMicrostep_fr {L : List Part} {org : Mach} {a s} (hL : [.g, .msix, .clk, .boot, .mem, .log, .beams, .cells, .sig, .stg, .ev .imp, .ev .stg, .ev .mgt, .outs] ⊆ L) (h_s : Frame L org s.m) :
    OutFrame L org (execMicrostep a s) := by
  delta execMicrostep
  refine act_fr (fun _ _ => ?_) h_s
  refine microstep_fr (partsIn_sub (by decide) hL) ?_
  assumption

theorem execAxisTargetReached_fr {L : List Part} {org : Mach} {a s} (hL : [.msix, .log, .stg, .ev .stg, .ev .hlt, .ev .mgt, .outs, .free] ⊆ L) (h_s : Frame L org s.m) :
    OutFrame L org (execAxisTargetReached a s) := by
  delta execAxisTargetReached
  refine act_fr (fun _ _ => ?_) h_s
  refine targetReached_fr (partsIn_sub (by decide) hL) ?_
  assumption

theorem execAxisAtRest_fr {L : List Part} {org : Mach} {a s} (hL : [.msix, .log, .job, .stg, .ev .stg, .ev .hlt, .ev .mgt, .outs, .free] ⊆ L) (h_s : Frame L org s.m) :
    OutFrame L org (execAxisAtRest a s) := by
  delta execAxisAtRest
  refine act_fr (fun _ _ => ?_) h_s
  refine atRest_fr (partsIn_sub (by decide) hL) ?_
  assumption

theorem encCounts_fr {L : List Part} {org : Mach} {a n m} (hL : [.g, .msix, .clk, .boot, .mem, .log, .beams, .cells, .sig, .stg, .ev .imp, .ev .stg, .ev .mgt, .outs] ⊆ L) (h_m : Frame L org m) :
    Frame L org (encCounts a n m) := by
  delta encCounts
  extract_lets x1 x2 x3 x4 x5 x6 x7
  have hx4 : Frame L org x4 := by
    unfold x4
    refine onAxis_fr (partsIn_sub (by decide) hL) ?_
    assumption
  clear_value x4
  have hx5 : Frame L org x5 := by
    unfold x5
    refine onAxis_fr (partsIn_sub (by decide) hL) ?_
    assumption
  clear_value x5
  have hx6 : Frame L org x6 := by
    unfold x6
    refine onAxis_fr (partsIn_sub (by decide) hL) ?_
    assumption
  clear_value x6
  have hx7 : Frame L org x7 := by
    unfold x7
    refine cmpCross_fr (partsIn_sub (by decide) hL) ?_
    assumption
  clear_value x7
  refine Frame.ite ?_ ?_
  · refine encOutSource_fr (partsIn_sub (by decide) hL) ?_
    assumption
  · refine eachM_fr (fun _ _ _ => ?_) ?_
    · refine encOutSource_fr (partsIn_sub (by decide) hL) ?_
      assumption
    · assumption

theorem quadStep_fr {L : List Part} {org : Mach} {a la lb m} (hL : [.g, .msix, .clk, .boot, .mem, .log, .beams, .cells, .sig, .stg, .ev .imp, .ev .stg, .ev .mgt, .outs] ⊆ L) (h_m : Frame L org m) :
    Frame L org (quadStep a la lb m) := by
  delta quadStep
  extract_lets x1 x2 x3 x4
  have hx4 : Frame L org x4 := by
    unfold x4
    refine onAxis_fr (partsIn_sub (by decide) hL) ?_
    assumption
  clear_value x4
  refine Frame.ite ?_ ?_
  · assumption
  · refine Frame.ite ?_ ?_
    · refine raise_fr (partsIn_sub (by simp only [EvReg.kind]; decide) hL) ?_
      refine onAxis_fr (partsIn_sub (by decide) hL) ?_
      assumption
    · refine Frame.ite ?_ ?_
      · refine encCounts_fr (partsIn_sub (by decide) hL) ?_
        assumption
      · refine Frame.ite ?_ ?_
        · refine encCounts_fr (partsIn_sub (by decide) hL) ?_
          assumption
        · assumption

theorem quadLimit_fr {L : List Part} {org : Mach} {a m} (hL : [.msix, .log, .stg, .ev .stg, .ev .mgt, .outs] ⊆ L) (h_m : Frame L org m) :
    Frame L org (quadLimit a m) := by
  delta quadLimit
  extract_lets x1
  refine Frame.ite ?_ ?_
  · refine encFault_fr (partsIn_sub (by decide) hL) ?_
    assumption
  · assumption

theorem indexEdge_fr {L : List Part} {org : Mach} {a m} (hL : [.msix, .stg, .ev .stg, .outs] ⊆ L) (h_m : Frame L org m) :
    Frame L org (indexEdge a m) := by
  delta indexEdge
  refine Frame.ite ?_ ?_
  · assumption
  · extract_lets x1
    have hx1 : Frame L org x1 := by
      unfold x1
      refine raise_fr (partsIn_sub (by simp only [EvReg.kind]; decide) hL) ?_
      refine onAxis_fr (partsIn_sub (by decide) hL) ?_
      assumption
    clear_value x1
    split
    · refine Frame.ite ?_ ?_
      · refine homeNext_fr (partsIn_sub (by decide) hL) ?_
        refine homeLatch_fr (partsIn_sub (by decide) hL) ?_
        assumption
      · assumption
    · assumption

theorem positionLost_fr {L : List Part} {org : Mach} {a m} (hL : [.msix, .log, .job, .sig, .ev .job, .ev .mgt, .outs] ⊆ L) (h_m : Frame L org m) :
    Frame L org (positionLost a m) := by
  delta positionLost
  refine jobAddCause_fr (partsIn_sub (by decide) hL) ?_
  refine onJob_fr (partsIn_sub (by decide) hL) ?_
  assumption

theorem ssiReading_fr {L : List Part} {org : Mach} {a raw high parityOk m} (hL : [.g, .msix, .clk, .boot, .mem, .log, .job, .beams, .cells, .sig, .stg, .ev .job, .ev .imp, .ev .stg, .ev .mgt, .outs] ⊆ L) (h_m : Frame L org m) :
    Frame L org (ssiReading a raw high parityOk m) := by
  delta ssiReading
  extract_lets x1 x2 x3 x4 x5 x6 x7 x8 x9 x10 x11 x12
  have hx9 : Frame L org x9 := by
    unfold x9
    refine onAxis_fr (partsIn_sub (by decide) hL) ?_
    assumption
  clear_value x9
  have hx12 : Frame L org x12 := by
    unfold x12
    refine encCounts_fr (partsIn_sub (by decide) hL) ?_
    refine onAxis_fr (partsIn_sub (by decide) hL) ?_
    assumption
  clear_value x12
  refine Frame.ite ?_ ?_
  · assumption
  · refine Frame.ite ?_ ?_
    · refine Frame.ite ?_ ?_
      · refine encFault_fr (partsIn_sub (by decide) hL) ?_
        assumption
      · assumption
    · refine Frame.ite ?_ ?_
      · refine positionLost_fr (partsIn_sub (by decide) hL) ?_
        assumption
      · assumption

theorem speedZero_fr {L : List Part} {org : Mach} {a m} (hL : [.stg] ⊆ L) (h_m : Frame L org m) :
    Frame L org (speedZero a m) := by
  delta speedZero
  split
  · refine Frame.ite ?_ ?_
    · assumption
    · refine onAxis_fr (partsIn_sub (by decide) hL) ?_
      assumption
  · refine onAxis_fr (partsIn_sub (by decide) hL) ?_
    assumption

theorem axPublish_fr {L : List Part} {org : Mach} {a m} (hL : [.sig, .stg] ⊆ L) (h_m : Frame L org m) :
    Frame L org (axPublish a m) := by
  delta axPublish
  refine Frame.ite ?_ ?_
  · assumption
  · extract_lets x1 x2
    have hx1 : Frame L org x1 := by
      unfold x1
      refine onAxis_fr (partsIn_sub (by decide) hL) ?_
      assumption
    clear_value x1
    refine sigWrite_fr (partsIn_sub (by decide) hL) ?_
    refine sigWrite_fr (partsIn_sub (by decide) hL) ?_
    refine sigWrite_fr (partsIn_sub (by decide) hL) ?_
    refine sigWrite_fr (partsIn_sub (by decide) hL) ?_
    assumption

theorem stallCheck_fr {L : List Part} {org : Mach} {a m} (hL : [.stg] ⊆ L) (h_m : Frame L org m) :
    Frame L org (stallCheck a m) := by
  delta stallCheck
  refine Frame.ite ?_ ?_
  · assumption
  · extract_lets x1 x2
    refine onAxis_fr (partsIn_sub (by decide) hL) ?_
    assumption

theorem axStall_fr {L : List Part} {org : Mach} {a m} (hL : [.msix, .log, .sig, .stg, .ev .stg, .ev .mgt, .outs] ⊆ L) (h_m : Frame L org m) :
    Frame L org (axStall a m) := by
  delta axStall
  extract_lets x1 x2 x3 x4 x5 x6
  have hx5 : Frame L org x5 := by
    unfold x5
    refine onAxis_fr (partsIn_sub (by decide) hL) ?_
    assumption
  clear_value x5
  have hx6 : Frame L org x6 := by
    unfold x6
    refine raise_fr (partsIn_sub (by simp only [EvReg.kind]; decide) hL) ?_
    refine axFaulted_fr (partsIn_sub (by decide) hL) ?_
    assumption
  clear_value x6
  refine Frame.ite ?_ ?_
  · assumption
  · refine sigWrite_fr (partsIn_sub (by decide) hL) ?_
    assumption

theorem execEncQuadStep_fr {L : List Part} {org : Mach} {a la lb s} (hL : [.g, .msix, .clk, .boot, .mem, .log, .beams, .cells, .sig, .stg, .ev .imp, .ev .stg, .ev .mgt, .outs] ⊆ L) (h_s : Frame L org s.m) :
    OutFrame L org (execEncQuadStep a la lb s) := by
  delta execEncQuadStep
  refine act_fr (fun _ _ => ?_) h_s
  refine quadStep_fr (partsIn_sub (by decide) hL) ?_
  assumption

theorem execQuadErrLimit_fr {L : List Part} {org : Mach} {a s} (hL : [.msix, .log, .stg, .ev .stg, .ev .mgt, .outs] ⊆ L) (h_s : Frame L org s.m) :
    OutFrame L org (execQuadErrLimit a s) := by
  delta execQuadErrLimit
  refine act_fr (fun _ _ => ?_) h_s
  refine quadLimit_fr (partsIn_sub (by decide) hL) ?_
  assumption

theorem execEncIndexEdge_fr {L : List Part} {org : Mach} {a s} (hL : [.msix, .stg, .ev .stg, .outs] ⊆ L) (h_s : Frame L org s.m) :
    OutFrame L org (execEncIndexEdge a s) := by
  delta execEncIndexEdge
  refine act_fr (fun _ _ => ?_) h_s
  refine indexEdge_fr (partsIn_sub (by decide) hL) ?_
  assumption

theorem execSpeedZeroTimeout_fr {L : List Part} {org : Mach} {a s} (hL : [.stg] ⊆ L) (h_s : Frame L org s.m) :
    OutFrame L org (execSpeedZeroTimeout a s) := by
  delta execSpeedZeroTimeout
  refine act_fr (fun _ _ => ?_) h_s
  refine speedZero_fr (partsIn_sub (by decide) hL) ?_
  assumption

theorem execAxisSignalPublish_fr {L : List Part} {org : Mach} {a s} (hL : [.sig, .stg] ⊆ L) (h_s : Frame L org s.m) :
    OutFrame L org (execAxisSignalPublish a s) := by
  delta execAxisSignalPublish
  refine act_fr (fun _ _ => ?_) h_s
  refine axPublish_fr (partsIn_sub (by decide) hL) ?_
  assumption

theorem execStallCheck_fr {L : List Part} {org : Mach} {a s} (hL : [.stg] ⊆ L) (h_s : Frame L org s.m) :
    OutFrame L org (execStallCheck a s) := by
  delta execStallCheck
  refine act_fr (fun _ _ => ?_) h_s
  refine stallCheck_fr (partsIn_sub (by decide) hL) ?_
  assumption

theorem execAxisStall_fr {L : List Part} {org : Mach} {a s} (hL : [.msix, .log, .sig, .stg, .ev .stg, .ev .mgt, .outs] ⊆ L) (h_s : Frame L org s.m) :
    OutFrame L org (execAxisStall a s) := by
  delta execAxisStall
  refine act_fr (fun _ _ => ?_) h_s
  refine axStall_fr (partsIn_sub (by decide) hL) ?_
  assumption

theorem limitAssert_fr {L : List Part} {org : Mach} {a pos m} (hL : [.msix, .log, .stg, .ev .stg, .ev .hlt, .ev .mgt, .outs, .free] ⊆ L) (h_m : Frame L org m) :
    Frame L org (limitAssert a pos m) := by
  delta limitAssert
  extract_lets x1 x2 x3 x4 x5
  have hx2 : Frame L org x2 := by
    unfold x2
    refine onAxis_fr (partsIn_sub (by decide) hL) ?_
    assumption
  clear_value x2
  have hx4 : Frame L org x4 := by
    unfold x4
    refine whenM_fr (fun _ _ => ?_) ?_
    · refine raise_fr (partsIn_sub (by simp only [EvReg.kind]; decide) hL) ?_
      assumption
    · assumption
  clear_value x4
  refine Frame.ite ?_ ?_
  · assumption
  · split
    · refine Frame.ite ?_ ?_
      · assumption
      · refine Frame.ite ?_ ?_
        · refine Frame.ite ?_ ?_
          · refine homeNext_fr (partsIn_sub (by decide) hL) ?_
            assumption
          · assumption
        · refine homeAbort_fr (partsIn_sub (by decide) hL) ?_
          refine whenM_fr (fun _ _ => ?_) ?_
          · refine raise_fr (partsIn_sub (by simp only [EvReg.kind]; decide) hL) ?_
            refine onAxis_fr (partsIn_sub (by decide) hL) ?_
            assumption
          · assumption
    · refine Frame.ite ?_ ?_
      · refine raise_fr (partsIn_sub (by simp only [EvReg.kind]; decide) hL) ?_
        refine axStop_fr (partsIn_sub (by decide) hL) ?_
        refine onAxis_fr (partsIn_sub (by decide) hL) ?_
        assumption
      · assumption

theorem homeReleased_fr {L : List Part} {org : Mach} {cmd meas a m} (hL : [.stg] ⊆ L) (h_m : Frame L org m) :
    Frame L org (homeReleased cmd meas a m) := by
  delta homeReleased
  split
  · split
    · refine homeNext_fr (partsIn_sub (by decide) hL) ?_
      assumption
    · extract_lets x1
      have hx1 : Frame L org x1 := by
        unfold x1
        refine homeLatch_fr (partsIn_sub (by decide) hL) ?_
        assumption
      clear_value x1
      refine Frame.ite ?_ ?_
      · refine onAxis_fr (partsIn_sub (by decide) hL) ?_
        assumption
      · refine homeNext_fr (partsIn_sub (by decide) hL) ?_
        assumption
    · assumption
  · assumption

theorem limitRelease_fr {L : List Part} {org : Mach} {a pos cmd meas m} (hL : [.stg] ⊆ L) (h_m : Frame L org m) :
    Frame L org (limitRelease a pos cmd meas m) := by
  delta limitRelease
  extract_lets x1
  have hx1 : Frame L org x1 := by
    unfold x1
    refine onAxis_fr (partsIn_sub (by decide) hL) ?_
    assumption
  clear_value x1
  split
  · refine Frame.ite ?_ ?_
    · refine homeReleased_fr (partsIn_sub (by decide) hL) ?_
      assumption
    · assumption
  · assumption

theorem homeEdge_fr {L : List Part} {org : Mach} {a on m} (hL : [.stg] ⊆ L) (h_m : Frame L org m) :
    Frame L org (homeEdge a on m) := by
  delta homeEdge
  extract_lets x1
  have hx1 : Frame L org x1 := by
    unfold x1
    refine onAxis_fr (partsIn_sub (by decide) hL) ?_
    assumption
  clear_value x1
  split
  · refine Frame.ite ?_ ?_
    · assumption
    · refine Frame.ite ?_ ?_
      · refine Frame.ite ?_ ?_
        · refine homeNext_fr (partsIn_sub (by decide) hL) ?_
          assumption
        · assumption
      · refine homeReleased_fr (partsIn_sub (by decide) hL) ?_
        assumption
  · assumption

theorem execLimitAssert_fr {L : List Part} {org : Mach} {a pos s} (hL : [.msix, .log, .stg, .ev .stg, .ev .hlt, .ev .mgt, .outs, .free] ⊆ L) (h_s : Frame L org s.m) :
    OutFrame L org (execLimitAssert a pos s) := by
  delta execLimitAssert
  refine act_fr (fun _ _ => ?_) h_s
  refine limitAssert_fr (partsIn_sub (by decide) hL) ?_
  assumption

theorem execLimitRelease_fr {L : List Part} {org : Mach} {a pos cmd meas s} (hL : [.stg] ⊆ L) (h_s : Frame L org s.m) :
    OutFrame L org (execLimitRelease a pos cmd meas s) := by
  delta execLimitRelease
  refine act_fr (fun _ _ => ?_) h_s
  refine limitRelease_fr (partsIn_sub (by decide) hL) ?_
  assumption

theorem execHomeInputEdge_fr {L : List Part} {org : Mach} {a on s} (hL : [.stg] ⊆ L) (h_s : Frame L org s.m) :
    OutFrame L org (execHomeInputEdge a on s) := by
  delta execHomeInputEdge
  refine act_fr (fun _ _ => ?_) h_s
  refine homeEdge_fr (partsIn_sub (by decide) hL) ?_
  assumption

theorem valley_fr {L : List Part} {org : Mach} {m0} (hL : [.g, .msix, .clk, .boot, .mem, .log, .beams, .cells, .sig, .stg, .ev .imp, .ev .mgt, .outs] ⊆ L) (h_m0 : Frame L org m0) :
    Frame L org (valley m0) := by
  delta valley
  refine eachM_fr (fun _ _ _ => ?_) ?_
  · extract_lets x1
    have hx1 : Frame L org x1 := by
      unfold x1
      refine takeRecord_fr (partsIn_sub (by decide) hL) ?_
      assumption
    clear_value x1
    refine Frame.ite ?_ ?_
    · refine onAxis_fr (partsIn_sub (by decide) hL) ?_
      assumption
    · split
      · refine onAxis_fr (partsIn_sub (by decide) hL) ?_
        assumption
  · assumption

theorem holdDelay_fr {L : List Part} {org : Mach} {a m} (hL : [.stg] ⊆ L) (h_m : Frame L org m) :
    Frame L org (holdDelay a m) := by
  delta holdDelay
  refine Frame.ite ?_ ?_
  · refine onAxis_fr (partsIn_sub (by decide) hL) ?_
    assumption
  · assumption

theorem cmpPulseEnd_fr {L : List Part} {org : Mach} {a m} (hL : [.stg, .outs] ⊆ L) (h_m : Frame L org m) :
    Frame L org (cmpPulseEnd a m) := by
  delta cmpPulseEnd
  split
  · refine emit_fr (partsIn_sub (by decide) hL) ?_
    refine onAxis_fr (partsIn_sub (by decide) hL) ?_
    assumption
  · assumption

theorem encOutEmit_fr {L : List Part} {org : Mach} {c m} (hL : [.stg, .outs] ⊆ L) (h_m : Frame L org m) :
    Frame L org (encOutEmit c m) := by
  delta encOutEmit
  extract_lets x1 x2
  split
  · assumption
  · extract_lets x3 x4
    refine emit_fr (partsIn_sub (by decide) hL) ?_
    refine onAxis_fr (partsIn_sub (by decide) hL) ?_
    assumption

theorem execPwmValley_fr {L : List Part} {org : Mach} {s} (hL : [.g, .msix, .clk, .boot, .mem, .log, .beams, .cells, .sig, .stg, .ev .imp, .ev .mgt, .outs] ⊆ L) (h_s : Frame L org s.m) :
    OutFrame L org (execPwmValley s) := by
  delta execPwmValley
  refine act_fr (fun _ _ => ?_) h_s
  refine valley_fr (partsIn_sub (by decide) hL) ?_
  assumption

theorem execHoldDelayElapsed_fr {L : List Part} {org : Mach} {a s} (hL : [.stg] ⊆ L) (h_s : Frame L org s.m) :
    OutFrame L org (execHoldDelayElapsed a s) := by
  delta execHoldDelayElapsed
  refine act_fr (fun _ _ => ?_) h_s
  refine holdDelay_fr (partsIn_sub (by decide) hL) ?_
  assumption

theorem execCmpPulseEnd_fr {L : List Part} {org : Mach} {a s} (hL : [.stg, .outs] ⊆ L) (h_s : Frame L org s.m) :
    OutFrame L org (execCmpPulseEnd a s) := by
  delta execCmpPulseEnd
  refine act_fr (fun _ _ => ?_) h_s
  refine cmpPulseEnd_fr (partsIn_sub (by decide) hL) ?_
  assumption

theorem execEncoutEmit_fr {L : List Part} {org : Mach} {c s} (hL : [.stg, .outs] ⊆ L) (h_s : Frame L org s.m) :
    OutFrame L org (execEncoutEmit c s) := by
  delta execEncoutEmit
  refine act_fr (fun _ _ => ?_) h_s
  refine encOutEmit_fr (partsIn_sub (by decide) hL) ?_
  assumption

end Sys2Proof.Machine
end

