-- ==== Sys2Proof/Laws/Frame/BootOps.lean ====
section
/-!
SUPPORT. The parts of the device that the operations of Machine/BootOps.lean can touch: one lemma per operation.
-/

namespace Sys2Proof.Machine

theorem onBoot_fr {L : List Part} {org : Mach} {f m} (hL : [.boot] ⊆ L) (h_m : Frame L org m) :
    Frame L org (onBoot f m) := by
  delta onBoot
  refine Frame.upd ?_ (.inr rfl) (.inr rfl) (.inr rfl) (.inr rfl) (.inr rfl) (.inr rfl) (.inr rfl) (.inl (hL (by decide))) (.inr rfl) (.inr rfl) (.inr rfl) (.inr rfl) (.inr rfl) (.inr rfl) (.inr rfl) (.inr rfl) (.inr rfl) (.inr rfl) (.inr rfl) (.inr rfl) (.inr rfl) (.inr rfl) (.inr rfl) (.inr rfl) (.inr rfl) (.inr rfl) rfl
  assumption

theorem domainUp_fr {L : List Part} {org : Mach} {d z1} (hL : [.clk] ⊆ L) (h_z1 : Frame L org z1) :
    Frame L org (domainUp d z1) := by
  delta domainUp
  refine onClk_fr (partsIn_sub (by decide) hL) ?_
  assumption

theorem memTrain_fr {L : List Part} {org : Mach} {m} (hL : [.clk, .mem] ⊆ L) (h_m : Frame L org m) :
    Frame L org (memTrain m) := by
  delta memTrain
  refine onCh_fr (partsIn_sub (by decide) hL) ?_
  refine onCh_fr (partsIn_sub (by decide) hL) ?_
  refine setLock_fr (partsIn_sub (by decide) hL) ?_
  refine domainUp_fr (partsIn_sub (by decide) hL) ?_
  assumption

theorem bootHalt_fr {L : List Part} {org : Mach} {m} (hL : [.clk, .boot, .mem] ⊆ L) (h_m : Frame L org m) :
    Frame L org (bootHalt m) := by
  delta bootHalt
  extract_lets x1 x2
  have hx1 : Frame L org x1 := by
    unfold x1
    refine onBoot_fr (partsIn_sub (by decide) hL) ?_
    assumption
  clear_value x1
  have hx2 : Frame L org x2 := by
    unfold x2
    refine whenM_fr (fun _ _ => ?_) ?_
    · refine setLock_fr (partsIn_sub (by decide) hL) ?_
      refine domainUp_fr (partsIn_sub (by decide) hL) ?_
      assumption
    · assumption
  clear_value x2
  refine whenM_fr (fun _ _ => ?_) ?_
  · refine memTrain_fr (partsIn_sub (by decide) hL) ?_
    assumption
  · assumption

theorem attemptBegin_fr {L : List Part} {org : Mach} {x m} (hL : [.msix, .aon, .clk, .boot, .mem, .log, .ev .mgt, .outs, .free] ⊆ L) (h_m : Frame L org m) :
    Frame L org (attemptBegin x m) := by
  delta attemptBegin
  extract_lets x1 x2
  have hx1 : Frame L org x1 := by
    unfold x1
    refine changeStanding_fr (partsIn_sub (by decide) hL) ?_
    assumption
  clear_value x1
  have hx2 : Frame L org x2 := by
    unfold x2
    refine onBoot_fr (partsIn_sub (by decide) hL) ?_
    assumption
  clear_value x2
  refine whenM_fr (fun _ _ => ?_) ?_
  · refine memTrain_fr (partsIn_sub (by decide) hL) ?_
    assumption
  · assumption

theorem bootTry_fr {L : List Part} {org : Mach} {m} (hL : [.msix, .aon, .clk, .boot, .mem, .log, .ev .mgt, .outs, .free] ⊆ L) (h_m : Frame L org m) :
    Frame L org (bootTry m) := by
  delta bootTry
  split
  · refine attemptBegin_fr (partsIn_sub (by decide) hL) ?_
    assumption
  · refine bootHalt_fr (partsIn_sub (by decide) hL) ?_
    assumption

theorem attemptFail_fr {L : List Part} {org : Mach} {cause m} (hL : [.msix, .aon, .clk, .boot, .mem, .log, .ev .mgt, .outs, .free] ⊆ L) (h_m : Frame L org m) :
    Frame L org (attemptFail cause m) := by
  delta attemptFail
  refine Frame.ite ?_ ?_
  · assumption
  · extract_lets x1 x2 x3 x4
    have hx1 : Frame L org x1 := by
      unfold x1
      refine onAon_fr (partsIn_sub (by decide) hL) ?_
      refine onBoot_fr (partsIn_sub (by decide) hL) ?_
      assumption
    clear_value x1
    have hx3 : Frame L org x3 := by
      unfold x3
      refine Frame.ite ?_ ?_
      · refine onBoot_fr (partsIn_sub (by decide) hL) ?_
        assumption
      · assumption
    clear_value x3
    refine bootTry_fr (partsIn_sub (by decide) hL) ?_
    refine Frame.ite ?_ ?_
    · refine Frame.upd ?_ (.inr rfl) (.inr rfl) (.inr rfl) (.inr rfl) (.inr rfl) (.inr rfl) (.inr rfl) (.inr rfl) (.inr rfl) (.inl (hL (by decide))) (.inr rfl) (.inr rfl) (.inr rfl) (.inr rfl) (.inr rfl) (.inr rfl) (.inr rfl) (.inr rfl) (.inr rfl) (.inr rfl) (.inr rfl) (.inr rfl) (.inr rfl) (.inr rfl) (.inr rfl) (.inr rfl) rfl
      assumption
    · assumption

theorem refWaits_fr {L : List Part} {org : Mach} {m} (hL : [.clk] ⊆ L) (h_m : Frame L org m) :
    Frame L org (refWaits m) := by
  delta refWaits
  refine Frame.ite ?_ ?_
  · refine onClk_fr (partsIn_sub (by decide) hL) ?_
    assumption
  · assumption

theorem clocksEnd_fr {L : List Part} {org : Mach} {m} (hL : [.msix, .log, .time, .ilk, .ev .time, .ev .mgt, .outs] ⊆ L) (h_m : Frame L org m) :
    Frame L org (clocksEnd m) := by
  delta clocksEnd
  extract_lets x1 x2 x3
  have hx2 : Frame L org x2 := by
    unfold x2
    refine Frame.ite ?_ ?_
    · refine onTime_fr (partsIn_sub (by decide) hL) ?_
      refine timeSetUp_fr (partsIn_sub (by decide) hL) ?_
      assumption
    · refine onTime_fr (partsIn_sub (by decide) hL) ?_
      assumption
  clear_value x2
  have hx3 : Frame L org x3 := by
    unfold x3
    refine lateStamp_fr (partsIn_sub (by decide) hL) ?_
    refine onTime_fr (partsIn_sub (by decide) hL) ?_
    assumption
  clear_value x3
  refine Frame.ite ?_ ?_
  · refine raise_fr (partsIn_sub (by simp only [EvReg.kind]; decide) hL) ?_
    refine log_fr (partsIn_sub (by decide) hL) ?_
    assumption
  · assumption

theorem selectPhase_fr {L : List Part} {org : Mach} {flashOk m} (hL : [.msix, .aon, .clk, .boot, .mem, .log, .ev .pwr, .ev .mgt, .outs, .free] ⊆ L) (h_m : Frame L org m) :
    Frame L org (selectPhase flashOk m) := by
  delta selectPhase
  extract_lets x1 x2
  have hx1 : Frame L org x1 := by
    unfold x1
    refine standingAtBoot_fr (partsIn_sub (by decide) hL) ?_
    refine setLock_fr (partsIn_sub (by decide) hL) ?_
    refine domainUp_fr (partsIn_sub (by decide) hL) ?_
    assumption
  clear_value x1
  have hx2 : Frame L org x2 := by
    unfold x2
    refine whenM_fr (fun _ _ => ?_) ?_
    · refine raise_fr (partsIn_sub (by simp only [EvReg.kind]; decide) hL) ?_
      assumption
    · assumption
  clear_value x2
  refine Frame.ite ?_ ?_
  · refine bootTry_fr (partsIn_sub (by decide) hL) ?_
    refine readBank_fr (partsIn_sub (by decide) hL) ?_
    refine readBank_fr (partsIn_sub (by decide) hL) ?_
    assumption
  · refine bootHalt_fr (partsIn_sub (by decide) hL) ?_
    refine onAon_fr (partsIn_sub (by decide) hL) ?_
    assumption

theorem refQualified_fr {L : List Part} {org : Mach} {flashOk m} (hL : [.msix, .aon, .clk, .boot, .mem, .log, .time, .ilk, .ev .time, .ev .pwr, .ev .mgt, .outs, .free] ⊆ L) (h_m : Frame L org m) :
    Frame L org (refQualified flashOk m) := by
  delta refQualified
  refine Frame.ite ?_ ?_
  · assumption
  · extract_lets x1
    have hx1 : Frame L org x1 := by
      unfold x1
      refine onClk_fr (partsIn_sub (by decide) hL) ?_
      assumption
    clear_value x1
    refine Frame.ite ?_ ?_
    · refine selectPhase_fr (partsIn_sub (by decide) hL) ?_
      refine clocksEnd_fr (partsIn_sub (by decide) hL) ?_
      assumption
    · assumption

theorem sweepBegin0_fr {L : List Part} {org m : Mach} (hL : [.keep, .mem, .bytes] ⊆ L) (h_m : Frame L org m) :
    Frame L org (sweepBegin0 m) := by
  refine h_m.trans (fun p hp => ?_)
  cases p
  case keep => exact absurd (hL (by decide)) hp
  case mem => exact absurd (hL (by decide)) hp
  case bytes => exact absurd (hL (by decide)) hp
  all_goals first | rfl | exact fun _ _ => rfl

theorem preserveCheck_fr {L : List Part} {org : Mach} {crcOk m} (hL : [.g, .msix, .bytes, .mem, .log, .keep, .ev .mem, .ev .mgt, .outs] ⊆ L) (h_m : Frame L org m) :
    Frame L org (preserveCheck crcOk m) := by
  delta preserveCheck
  refine Frame.ite ?_ ?_
  · refine sweepBegin0_fr (partsIn_sub (by decide) hL) ?_
    assumption
  · extract_lets x1 x2 x3 x4
    have hx4 : Frame L org x4 := by
      unfold x4
      refine raise_fr (partsIn_sub (by simp only [EvReg.kind]; decide) hL) ?_
      refine log_fr (partsIn_sub (by decide) hL) ?_
      refine Frame.upd ?_ (.inr rfl) (.inr rfl) (.inr rfl) (.inl (hL (by decide))) (.inr rfl) (.inr rfl) (.inr rfl) (.inr rfl) (.inr rfl) (.inr rfl) (.inr rfl) (.inr rfl) (.inr rfl) (.inr rfl) (.inr rfl) (.inr rfl) (.inr rfl) (.inr rfl) (.inr rfl) (.inr rfl) (.inr rfl) (.inr rfl) (.inr rfl) (.inr rfl) (.inr rfl) (.inr rfl) rfl
      assumption
    clear_value x4
    refine Frame.ite ?_ ?_
    · refine Frame.upd ?_ (.inr rfl) (.inr rfl) (.inr rfl) (.inr rfl) (.inr rfl) (.inr rfl) (.inr rfl) (.inr rfl) (.inr rfl) (.inl (hL (by decide))) (.inr rfl) (.inr rfl) (.inr rfl) (.inr rfl) (.inr rfl) (.inr rfl) (.inr rfl) (.inr rfl) (.inr rfl) (.inr rfl) (.inr rfl) (.inr rfl) (.inr rfl) (.inr rfl) (.inr rfl) (.inr rfl) rfl
      assumption
    · refine sweepBegin0_fr (partsIn_sub (by decide) hL) ?_
      assumption

theorem trainingDone_fr {L : List Part} {org : Mach} {ok0 ok1 rd0 wr0 rd1 wr1 crcOk m} (hL : [.g, .msix, .aon, .clk, .boot, .bytes, .mem, .log, .hlt, .keep, .ev .mem, .ev .mgt, .outs, .free] ⊆ L) (h_m : Frame L org m) :
    Frame L org (trainingDone ok0 ok1 rd0 wr0 rd1 wr1 crcOk m) := by
  delta trainingDone
  refine Frame.ite ?_ ?_
  · assumption
  · refine Frame.ite ?_ ?_
    · extract_lets x1
      have hx1 : Frame L org x1 := by
        unfold x1
        refine onCh_fr (partsIn_sub (by decide) hL) ?_
        refine onCh_fr (partsIn_sub (by decide) hL) ?_
        assumption
      clear_value x1
      refine attemptFail_fr (partsIn_sub (by decide) hL) ?_
      assumption
    · extract_lets x2 x3 x4 x5
      have hx2 : Frame L org x2 := by
        unfold x2
        refine onCh_fr (partsIn_sub (by decide) hL) ?_
        refine onCh_fr (partsIn_sub (by decide) hL) ?_
        assumption
      clear_value x2
      have hx4 : Frame L org x4 := by
        unfold x4
        refine onHlt_fr (partsIn_sub (by decide) hL) ?_
        refine Frame.upd ?_ (.inr rfl) (.inr rfl) (.inr rfl) (.inr rfl) (.inr rfl) (.inr rfl) (.inr rfl) (.inr rfl) (.inr rfl) (.inl (hL (by decide))) (.inr rfl) (.inr rfl) (.inr rfl) (.inr rfl) (.inr rfl) (.inr rfl) (.inr rfl) (.inr rfl) (.inr rfl) (.inr rfl) (.inr rfl) (.inr rfl) (.inr rfl) (.inr rfl) (.inr rfl) (.inr rfl) rfl
        assumption
      clear_value x4
      have hx5 : Frame L org x5 := by
        unfold x5
        refine preserveCheck_fr (partsIn_sub (by decide) hL) ?_
        assumption
      clear_value x5
      refine Frame.ite ?_ ?_
      · refine onBoot_fr (partsIn_sub (by decide) hL) ?_
        assumption
      · assumption

theorem sweepEnd_fr {L : List Part} {org : Mach} {m} (hL : [.mem] ⊆ L) (h_m : Frame L org m) :
    Frame L org (sweepEnd m) := by
  delta sweepEnd
  refine Frame.ite ?_ ?_
  · refine Frame.upd ?_ (.inr rfl) (.inr rfl) (.inr rfl) (.inr rfl) (.inr rfl) (.inr rfl) (.inr rfl) (.inr rfl) (.inr rfl) (.inl (hL (by decide))) (.inr rfl) (.inr rfl) (.inr rfl) (.inr rfl) (.inr rfl) (.inr rfl) (.inr rfl) (.inr rfl) (.inr rfl) (.inr rfl) (.inr rfl) (.inr rfl) (.inr rfl) (.inr rfl) (.inr rfl) (.inr rfl) rfl
    assumption
  · assumption

theorem recBoot_fr {L : List Part} {org : Mach} {id ws m} (hL : [.boot] ⊆ L) (h_m : Frame L org m) :
    Frame L org (recBoot id ws m) := by
  delta recBoot
  split
  · refine onBoot_fr (partsIn_sub (by decide) hL) ?_
    assumption
  · assumption

theorem recordsApply_fr {L : List Part} {org : Mach} {es m} (hL : [.boot] ⊆ L) (h_m : Frame L org m) :
    Frame L org (recordsApply es m) := by
  delta recordsApply
  extract_lets x1 x2
  have hx2 : Frame L org x2 := by
    unfold x2
    refine eachM_fr (fun _ _ _ => ?_) ?_
    · refine recBoot_fr (partsIn_sub (by decide) hL) ?_
      assumption
    · assumption
  clear_value x2
  refine eachM_fr (fun _ _ _ => ?_) ?_
  · refine recBoot_fr (partsIn_sub (by decide) hL) ?_
    assumption
  · assumption

theorem configDomains_fr {L : List Part} {org : Mach} {m} (hL : [.clk] ⊆ L) (h_m : Frame L org m) :
    Frame L org (configDomains m) := by
  delta configDomains
  extract_lets x1 x2 x3 x4 x5
  have hx2 : Frame L org x2 := by
    unfold x2
    refine domainUp_fr (partsIn_sub (by decide) hL) ?_
    refine domainUp_fr (partsIn_sub (by decide) hL) ?_
    refine domainUp_fr (partsIn_sub (by decide) hL) ?_
    assumption
  clear_value x2
  have hx3 : Frame L org x3 := by
    unfold x3
    refine whenM_fr (fun _ _ => ?_) ?_
    · refine domainUp_fr (partsIn_sub (by decide) hL) ?_
      assumption
    · assumption
  clear_value x3
  have hx4 : Frame L org x4 := by
    unfold x4
    refine whenM_fr (fun _ _ => ?_) ?_
    · refine setLock_fr (partsIn_sub (by decide) hL) ?_
      refine domainUp_fr (partsIn_sub (by decide) hL) ?_
      assumption
    · assumption
  clear_value x4
  have hx5 : Frame L org x5 := by
    unfold x5
    refine whenM_fr (fun _ _ => ?_) ?_
    · refine setLock_fr (partsIn_sub (by decide) hL) ?_
      refine domainUp_fr (partsIn_sub (by decide) hL) ?_
      assumption
    · assumption
  clear_value x5
  refine setLock_fr (partsIn_sub (by decide) hL) ?_
  assumption

theorem cellsPlace_fr {L : List Part} {org : Mach} {failed m} (hL : [.msix, .log, .cells, .ev .cell, .ev .mgt, .outs, .free] ⊆ L) (h_m : Frame L org m) :
    Frame L org (cellsPlace failed m) := by
  delta cellsPlace
  extract_lets x1 x2 x3 x4 x5 x6 x7 x8
  have hx5 : Frame L org x5 := by
    unfold x5
    refine onCells_fr (partsIn_sub (by decide) hL) ?_
    assumption
  clear_value x5
  have hx6 : Frame L org x6 := by
    unfold x6
    refine eachM_fr (fun _ _ _ => ?_) ?_
    · refine onCtx_fr (partsIn_sub (by decide) hL) ?_
      assumption
    · assumption
  clear_value x6
  have hx7 : Frame L org x7 := by
    unfold x7
    refine eachM_fr (fun _ _ _ => ?_) ?_
    · refine raise_fr (partsIn_sub (by simp only [EvReg.kind]; decide) hL) ?_
      assumption
    · assumption
  clear_value x7
  refine eachM_fr (fun _ _ _ => ?_) ?_
  · refine logClass_fr (partsIn_sub (by decide) hL) ?_
    assumption
  · assumption

theorem quoinsPlace_fr {L : List Part} {org : Mach} {m} (hL : [.boot] ⊆ L) (h_m : Frame L org m) :
    Frame L org (quoinsPlace m) := by
  delta quoinsPlace
  extract_lets x1
  refine onBoot_fr (partsIn_sub (by decide) hL) ?_
  assumption

theorem vcoreBoot_fr {L : List Part} {org : Mach} {dMax nB m} (hL : [.msix, .hlt, .ev .hlt, .outs] ⊆ L) (h_m : Frame L org m) :
    Frame L org (vcoreBoot dMax nB m) := by
  delta vcoreBoot
  extract_lets x1 x2
  refine whenM_fr (fun _ _ => ?_) ?_
  · refine raise_fr (partsIn_sub (by simp only [EvReg.kind]; decide) hL) ?_
    assumption
  · refine onHlt_fr (partsIn_sub (by decide) hL) ?_
    assumption

theorem axesUp_fr {L : List Part} {org : Mach} {m} (hL : [.stg] ⊆ L) (h_m : Frame L org m) :
    Frame L org (axesUp m) := by
  delta axesUp
  refine Frame.upd ?_ (.inr rfl) (.inr rfl) (.inr rfl) (.inr rfl) (.inr rfl) (.inr rfl) (.inr rfl) (.inr rfl) (.inr rfl) (.inr rfl) (.inr rfl) (.inr rfl) (.inr rfl) (.inr rfl) (.inr rfl) (.inr rfl) (.inr rfl) (.inr rfl) (.inr rfl) (.inr rfl) (.inr rfl) (.inr rfl) (.inl (hL (by decide))) (.inr rfl) (.inr rfl) (.inr rfl) rfl
  assumption

theorem lanesBegin_fr {L : List Part} {org : Mach} {m} (hL : [.msix, .bytes, .mem, .log, .time, .job, .imp, .beams, .mpl, .cells, .sig, .lanes, .heads, .ilk, .ev .glb, .ev .job, .ev .imp, .ev .beam, .ev .lane, .ev .time, .ev .mgt, .outs] ⊆ L) (h_m : Frame L org m) :
    Frame L org (lanesBegin m) := by
  delta lanesBegin
  refine eachM_fr (fun _ _ _ => ?_) ?_
  · refine laneDetect_fr (partsIn_sub (by decide) hL) ?_
    assumption
  · assumption

theorem followRecords_fr {L : List Part} {org : Mach} {m} (hL : [.clk, .mem, .sig] ⊆ L) (h_m : Frame L org m) :
    Frame L org (followRecords m) := by
  delta followRecords
  extract_lets x1 x2 x3 x4
  have hx3 : Frame L org x3 := by
    unfold x3
    refine Frame.upd ?_ (.inr rfl) (.inr rfl) (.inr rfl) (.inr rfl) (.inr rfl) (.inr rfl) (.inl (hL (by decide))) (.inr rfl) (.inr rfl) (.inl (hL (by decide))) (.inr rfl) (.inr rfl) (.inr rfl) (.inr rfl) (.inr rfl) (.inr rfl) (.inr rfl) (.inr rfl) (.inr rfl) (.inr rfl) (.inr rfl) (.inr rfl) (.inr rfl) (.inr rfl) (.inr rfl) (.inr rfl) rfl
    assumption
  clear_value x3
  have hx4 : Frame L org x4 := by
    unfold x4
    refine sigPub_fr (partsIn_sub (by decide) hL) ?_
    assumption
  clear_value x4
  refine onClk_fr (partsIn_sub (by decide) hL) ?_
  assumption

theorem ethUp_fr {L : List Part} {org : Mach} {m} (hL : [.mgt, .log] ⊆ L) (h_m : Frame L org m) :
    Frame L org (ethUp m) := by
  delta ethUp
  refine ethLos_fr (partsIn_sub (by decide) hL) ?_
  refine ethLos_fr (partsIn_sub (by decide) hL) ?_
  assumption

theorem configure_fr {L : List Part} {org : Mach} {failed es dMax nB cal m} (hL : [.msix, .clk, .boot, .mem, .mgt, .log, .cells, .sig, .hlt, .ev .glb, .ev .dma, .ev .boot, .ev .job, .ev .imp, .ev .beam, .ev .mpl, .ev .hmap, .ev .sig, .ev .cell, .ev .cellArr, .ev .lane, .ev .stg, .ev .ilk, .ev .time, .ev .mem, .ev .clk, .ev .pwr, .ev .hlt, .ev .mgt, .regs, .outs, .free] ⊆ L) (h_m : Frame L org m) :
    Frame L org (configure failed es dMax nB cal m) := by
  delta configure
  extract_lets x1 x2 x3 x4 x5 x6
  have hx1 : Frame L org x1 := by
    unfold x1
    refine bootEntries_fr (partsIn_sub (by decide) hL) ?_
    refine onBoot_fr (partsIn_sub (by decide) hL) ?_
    assumption
  clear_value x1
  have hx2 : Frame L org x2 := by
    unfold x2
    refine recordsApply_fr (partsIn_sub (by decide) hL) ?_
    assumption
  clear_value x2
  have hx3 : Frame L org x3 := by
    unfold x3
    split
    · refine Frame.ite ?_ ?_
      · refine onBoot_fr (partsIn_sub (by decide) hL) ?_
        refine eachM_fr (fun _ _ _ => ?_) ?_
        · refine recBoot_fr (partsIn_sub (by decide) hL) ?_
          assumption
        · assumption
      · assumption
    · assumption
  clear_value x3
  have hx4 : Frame L org x4 := by
    unfold x4
    refine cellsPlace_fr (partsIn_sub (by decide) hL) ?_
    refine configDomains_fr (partsIn_sub (by decide) hL) ?_
    assumption
  clear_value x4
  have hx5 : Frame L org x5 := by
    unfold x5
    refine vcoreBoot_fr (partsIn_sub (by decide) hL) ?_
    refine quoinsPlace_fr (partsIn_sub (by decide) hL) ?_
    assumption
  clear_value x5
  have hx6 : Frame L org x6 := by
    unfold x6
    refine eachM_fr (fun _ _ _ => ?_) ?_
    · refine calEnd_fr (partsIn_sub (by decide) hL) ?_
      assumption
    · assumption
  clear_value x6
  refine followRecords_fr (partsIn_sub (by decide) hL) ?_
  refine ethUp_fr (partsIn_sub (by decide) hL) ?_
  assumption

theorem standingKept_fr {L : List Part} {org : Mach} {k m} (hL : [.log, .time, .imp, .beams, .hmap] ⊆ L) (h_m : Frame L org m) :
    Frame L org (standingKept k m) := by
  delta standingKept
  extract_lets x1 x2 x3 x4 x5 x6
  have hx6 : Frame L org x6 := by
    unfold x6
    refine Frame.upd ?_ (.inr rfl) (.inr rfl) (.inr rfl) (.inr rfl) (.inr rfl) (.inr rfl) (.inr rfl) (.inr rfl) (.inr rfl) (.inr rfl) (.inr rfl) (.inl (hL (by decide))) (.inl (hL (by decide))) (.inr rfl) (.inl (hL (by decide))) (.inr rfl) (.inr rfl) (.inl (hL (by decide))) (.inr rfl) (.inr rfl) (.inr rfl) (.inr rfl) (.inr rfl) (.inr rfl) (.inr rfl) (.inr rfl) rfl
    assumption
  clear_value x6
  refine Frame.upd ?_ (.inr rfl) (.inr rfl) (.inr rfl) (.inr rfl) (.inr rfl) (.inr rfl) (.inr rfl) (.inr rfl) (.inr rfl) (.inr rfl) (.inr rfl) (.inr rfl) (.inr rfl) (.inr rfl) (.inr rfl) (.inl (hL (by decide))) (.inr rfl) (.inr rfl) (.inr rfl) (.inr rfl) (.inr rfl) (.inr rfl) (.inr rfl) (.inr rfl) (.inr rfl) (.inr rfl) rfl
  assumption

theorem formeCheckKept_fr {L : List Part} {org : Mach} {e i m0} (hL : [.g, .msix, .clk, .boot, .mem, .mgt, .log, .job, .imp, .beams, .mpl, .cells, .sig, .heads, .stg, .ilk, .ev .glb, .ev .boot, .ev .job, .ev .imp, .ev .cellArr, .ev .stg, .ev .mem, .ev .hlt, .ev .mgt, .outs, .free] ⊆ L) (h_m0 : Frame L org m0) :
    Frame L org (formeCheckKept e i m0) := by
  delta formeCheckKept
  extract_lets x1 x2
  have hx2 : Frame L org x2 := by
    unfold x2
    refine memRead_fr (partsIn_sub (by decide) hL) ?_
    assumption
  clear_value x2
  refine Frame.ite ?_ ?_
  · assumption
  · split
    · refine freeSlot_fr (partsIn_sub (by decide) hL) ?_
      refine log_fr (partsIn_sub (by decide) hL) ?_
      assumption
    · assumption

theorem autoResumeTry_fr {L : List Part} {org : Mach} {m} (hL : [.g, .msix, .clk, .boot, .bytes, .mem, .mgt, .log, .time, .job, .imp, .beams, .mpl, .hmap, .cells, .sig, .heads, .stg, .ilk, .ev .glb, .ev .boot, .ev .job, .ev .imp, .ev .beam, .ev .cellArr, .ev .stg, .ev .mem, .ev .hlt, .ev .mgt, .outs, .free] ⊆ L) (h_m : Frame L org m) :
    Frame L org (autoResumeTry m) := by
  delta autoResumeTry
  refine Frame.ite ?_ ?_
  · extract_lets x1
    have hx1 : Frame L org x1 := by
      unfold x1
      refine onJob_fr (partsIn_sub (by decide) hL) ?_
      assumption
    clear_value x1
    refine Frame.ite ?_ ?_
    · refine jobResume_fr (partsIn_sub (by decide) hL) ?_
      assumption
    · assumption
  · assumption

theorem jobKept_fr {L : List Part} {org : Mach} {k m} (hL : [.g, .msix, .clk, .boot, .bytes, .mem, .mgt, .log, .time, .job, .imp, .beams, .mpl, .hmap, .cells, .sig, .heads, .stg, .ilk, .ev .glb, .ev .boot, .ev .job, .ev .imp, .ev .beam, .ev .cellArr, .ev .stg, .ev .mem, .ev .hlt, .ev .mgt, .outs, .free] ⊆ L) (h_m : Frame L org m) :
    Frame L org (jobKept k m) := by
  delta jobKept
  extract_lets x1 x2 x3 x4 x5 x6 x7
  have hx6 : Frame L org x6 := by
    unfold x6
    refine onJob_fr (partsIn_sub (by decide) hL) ?_
    refine Frame.upd ?_ (.inr rfl) (.inr rfl) (.inr rfl) (.inr rfl) (.inr rfl) (.inr rfl) (.inr rfl) (.inl (hL (by decide))) (.inr rfl) (.inr rfl) (.inr rfl) (.inr rfl) (.inr rfl) (.inr rfl) (.inr rfl) (.inr rfl) (.inr rfl) (.inr rfl) (.inr rfl) (.inr rfl) (.inr rfl) (.inr rfl) (.inr rfl) (.inr rfl) (.inr rfl) (.inr rfl) rfl
    assumption
  clear_value x6
  have hx7 : Frame L org x7 := by
    unfold x7
    refine eachM_fr (fun _ _ _ => ?_) ?_
    · refine whenM_fr (fun _ _ => ?_) ?_
      · refine onBeam_fr (partsIn_sub (by decide) hL) ?_
        assumption
      · assumption
    · assumption
  clear_value x7
  refine Frame.ite ?_ ?_
  · refine autoResumeTry_fr (partsIn_sub (by decide) hL) ?_
    refine jobMove_fr (partsIn_sub (by decide) hL) ?_
    refine loadSets_fr (partsIn_sub (by decide) hL) ?_
    assumption
  · refine jobTest_fr (partsIn_sub (by decide) hL) ?_
    refine abortSettled_fr (partsIn_sub (by decide) hL) ?_
    refine jobMove_fr (partsIn_sub (by decide) hL) ?_
    refine onJob_fr (partsIn_sub (by decide) hL) ?_
    assumption

theorem warmResume_fr {L : List Part} {org : Mach} {e m} (hL : [.g, .msix, .clk, .boot, .bytes, .mem, .mgt, .log, .time, .job, .imp, .beams, .mpl, .hmap, .cells, .sig, .heads, .stg, .ilk, .keep, .ev .glb, .ev .boot, .ev .job, .ev .imp, .ev .beam, .ev .cellArr, .ev .stg, .ev .mem, .ev .hlt, .ev .mgt, .outs, .free] ⊆ L) (h_m : Frame L org m) :
    Frame L org (warmResume e m) := by
  delta warmResume
  split
  · assumption
  · extract_lets x1 x2
    have hx1 : Frame L org x1 := by
      unfold x1
      refine eachM_fr (fun _ _ _ => ?_) ?_
      · refine formeCheckKept_fr (partsIn_sub (by decide) hL) ?_
        assumption
      · refine Frame.upd ?_ (.inr rfl) (.inr rfl) (.inl (hL (by decide))) (.inr rfl) (.inr rfl) (.inr rfl) (.inr rfl) (.inr rfl) (.inr rfl) (.inr rfl) (.inr rfl) (.inr rfl) (.inr rfl) (.inl (hL (by decide))) (.inr rfl) (.inr rfl) (.inr rfl) (.inr rfl) (.inr rfl) (.inr rfl) (.inr rfl) (.inr rfl) (.inr rfl) (.inr rfl) (.inr rfl) (.inr rfl) rfl
        assumption
    clear_value x1
    have hx2 : Frame L org x2 := by
      unfold x2
      refine jobKept_fr (partsIn_sub (by decide) hL) ?_
      refine buildEnter_fr (partsIn_sub (by decide) hL) ?_
      assumption
    clear_value x2
    refine Frame.ite ?_ ?_
    · refine whenM_fr (fun _ _ => ?_) ?_
      · refine hostAbsentBegin_fr (partsIn_sub (by decide) hL) ?_
        assumption
      · assumption
    · assumption

theorem bankFallback_fr {L : List Part} {org : Mach} {m} (hL : [.msix, .boot, .log, .ev .boot, .ev .mgt, .outs] ⊆ L) (h_m : Frame L org m) :
    Frame L org (bankFallback m) := by
  delta bankFallback
  extract_lets x1 x2 x3
  have hx2 : Frame L org x2 := by
    unfold x2
    refine readBank_fr (partsIn_sub (by decide) hL) ?_
    assumption
  clear_value x2
  refine Frame.ite ?_ ?_
  · refine raise_fr (partsIn_sub (by simp only [EvReg.kind]; decide) hL) ?_
    refine log_fr (partsIn_sub (by decide) hL) ?_
    assumption
  · assumption

theorem autoStart_fr {L : List Part} {org : Mach} {m} (hL : [.cells] ⊆ L) (h_m : Frame L org m) :
    Frame L org (autoStart m) := by
  delta autoStart
  refine eachM_fr (fun _ _ _ => ?_) ?_
  · refine ctxStart_fr (partsIn_sub (by decide) hL) ?_
    assumption
  · assumption

theorem bootDone_fr {L : List Part} {org : Mach} {e m} (hL : [.g, .msix, .aon, .clk, .boot, .bytes, .mem, .mgt, .log, .time, .job, .imp, .beams, .mpl, .hmap, .cells, .sig, .lanes, .heads, .stg, .ilk, .keep, .ev .glb, .ev .boot, .ev .job, .ev .imp, .ev .beam, .ev .cellArr, .ev .lane, .ev .stg, .ev .time, .ev .mem, .ev .hlt, .ev .mgt, .outs, .free] ⊆ L) (h_m : Frame L org m) :
    Frame L org (bootDone e m) := by
  delta bootDone
  extract_lets x1 x2 x3 x4 x5 x6 x7 x8 x9
  have hx3 : Frame L org x3 := by
    unfold x3
    refine changeStanding_fr (partsIn_sub (by decide) hL) ?_
    refine Frame.upd ?_ (.inr rfl) (.inr rfl) (.inr rfl) (.inr rfl) (.inr rfl) (.inl (hL (by decide))) (.inr rfl) (.inr rfl) (.inr rfl) (.inr rfl) (.inr rfl) (.inr rfl) (.inr rfl) (.inr rfl) (.inr rfl) (.inr rfl) (.inr rfl) (.inr rfl) (.inr rfl) (.inr rfl) (.inr rfl) (.inr rfl) (.inr rfl) (.inr rfl) (.inr rfl) (.inr rfl) rfl
    assumption
  clear_value x3
  have hx5 : Frame L org x5 := by
    unfold x5
    refine onBoot_fr (partsIn_sub (by decide) hL) ?_
    refine Frame.upd ?_ (.inr rfl) (.inr rfl) (.inr rfl) (.inl (hL (by decide))) (.inr rfl) (.inr rfl) (.inr rfl) (.inr rfl) (.inr rfl) (.inr rfl) (.inr rfl) (.inr rfl) (.inr rfl) (.inr rfl) (.inr rfl) (.inr rfl) (.inr rfl) (.inr rfl) (.inr rfl) (.inr rfl) (.inr rfl) (.inr rfl) (.inr rfl) (.inr rfl) (.inr rfl) (.inr rfl) rfl
    assumption
  clear_value x5
  have hx6 : Frame L org x6 := by
    unfold x6
    split
    · refine standingKept_fr (partsIn_sub (by decide) hL) ?_
      assumption
    · assumption
  clear_value x6
  have hx7 : Frame L org x7 := by
    unfold x7
    refine eachM_fr (fun _ _ _ => ?_) ?_
    · refine whenM_fr (fun _ _ => ?_) ?_
      · refine onBeam_fr (partsIn_sub (by decide) hL) ?_
        assumption
      · assumption
    · refine axesUp_fr (partsIn_sub (by decide) hL) ?_
      assumption
  clear_value x7
  have hx8 : Frame L org x8 := by
    unfold x8
    refine devMove_fr (partsIn_sub (by decide) hL) ?_
    assumption
  clear_value x8
  have hx9 : Frame L org x9 := by
    unfold x9
    refine applyScene_fr (partsIn_sub (by decide) hL) ?_
    refine lanesBegin_fr (partsIn_sub (by decide) hL) ?_
    refine autoStart_fr (partsIn_sub (by decide) hL) ?_
    assumption
  clear_value x9
  refine warmResume_fr (partsIn_sub (by decide) hL) ?_
  refine bankFallback_fr (partsIn_sub (by decide) hL) ?_
  refine eachM_fr (fun _ _ _ => ?_) ?_
  · refine onImp_fr (partsIn_sub (by decide) hL) ?_
    assumption
  · assumption

theorem bootComplete_fr {L : List Part} {org : Mach} {failed dMax nB cal e m} (hL : [.g, .msix, .aon, .clk, .boot, .bytes, .mem, .mgt, .log, .time, .job, .imp, .beams, .mpl, .hmap, .cells, .sig, .lanes, .heads, .stg, .ilk, .hlt, .keep, .ev .glb, .ev .dma, .ev .boot, .ev .job, .ev .imp, .ev .beam, .ev .mpl, .ev .hmap, .ev .sig, .ev .cell, .ev .cellArr, .ev .lane, .ev .stg, .ev .ilk, .ev .time, .ev .mem, .ev .clk, .ev .pwr, .ev .hlt, .ev .mgt, .regs, .outs, .free] ⊆ L) (h_m : Frame L org m) :
    Frame L org (bootComplete failed dMax nB cal e m) := by
  have hl : ∀ m1, loadIngot m = some m1 → Frame L org m1 := by
    intro m1 h
    simp only [loadIngot, Option.map_eq_some_iff] at h
    obtain ⟨ss, _, rfl⟩ := h
    exact onBoot_fr (partsIn_sub (by decide) hL) (eachM_fr (fun _ _ k => holdSection_fr (partsIn_sub (by decide) hL) k) h_m)
  delta bootComplete
  refine Frame.ite h_m ?_
  split
  · exact attemptFail_fr (partsIn_sub (by decide) hL) h_m
  · rename_i m1 heq
    have h1 := hl m1 heq
    dsimp only
    split
    · exact attemptFail_fr (partsIn_sub (by decide) hL) h1
    · exact Frame.ite (bootDone_fr (partsIn_sub (by decide) hL) (configure_fr (partsIn_sub (by decide) hL) h1)) (attemptFail_fr (partsIn_sub (by decide) hL) h1)

theorem powerGoodTimeout_fr {L : List Part} {org : Mach} {m} (hL : [.msix, .aon, .clk, .boot, .mem, .log, .ev .mgt, .outs, .free] ⊆ L) (h_m : Frame L org m) :
    Frame L org (powerGoodTimeout m) := by
  delta powerGoodTimeout
  refine Frame.ite ?_ ?_
  · assumption
  · extract_lets x1
    have hx1 : Frame L org x1 := by
      unfold x1
      refine whenM_fr (fun _ _ => ?_) ?_
      · refine changeStanding_fr (partsIn_sub (by decide) hL) ?_
        assumption
      · assumption
    clear_value x1
    refine bootHalt_fr (partsIn_sub (by decide) hL) ?_
    assumption

theorem execRefclkQualified_fr {L : List Part} {org : Mach} {flashOk s} (hL : [.msix, .aon, .clk, .boot, .mem, .log, .time, .ilk, .ev .time, .ev .pwr, .ev .mgt, .outs, .free] ⊆ L) (h_s : Frame L org s.m) :
    OutFrame L org (execRefclkQualified flashOk s) := by
  delta execRefclkQualified
  refine act_fr (fun _ _ => ?_) h_s
  refine refQualified_fr (partsIn_sub (by decide) hL) ?_
  assumption

theorem execRefclkWaitTimeout_fr {L : List Part} {org : Mach} {s} (hL : [.clk] ⊆ L) (h_s : Frame L org s.m) :
    OutFrame L org (execRefclkWaitTimeout s) := by
  delta execRefclkWaitTimeout
  refine act_fr (fun _ _ => ?_) h_s
  refine refWaits_fr (partsIn_sub (by decide) hL) ?_
  assumption

theorem execMemTrainingDone_fr {L : List Part} {org : Mach} {ok0 ok1 rd0 wr0 rd1 wr1 crcOk s} (hL : [.g, .msix, .aon, .clk, .boot, .bytes, .mem, .log, .hlt, .keep, .ev .mem, .ev .mgt, .outs, .free] ⊆ L) (h_s : Frame L org s.m) :
    OutFrame L org (execMemTrainingDone ok0 ok1 rd0 wr0 rd1 wr1 crcOk s) := by
  delta execMemTrainingDone
  refine act_fr (fun _ _ => ?_) h_s
  refine trainingDone_fr (partsIn_sub (by decide) hL) ?_
  assumption

theorem execSweepDone_fr {L : List Part} {org : Mach} {s} (hL : [.mem] ⊆ L) (h_s : Frame L org s.m) :
    OutFrame L org (execSweepDone s) := by
  delta execSweepDone
  refine act_fr (fun _ _ => ?_) h_s
  refine sweepEnd_fr (partsIn_sub (by decide) hL) ?_
  assumption

theorem execBootComplete_fr {L : List Part} {org : Mach} {failed dMax nB cal ecc s} (hL : [.g, .msix, .aon, .clk, .boot, .bytes, .mem, .mgt, .log, .time, .job, .imp, .beams, .mpl, .hmap, .cells, .sig, .lanes, .heads, .stg, .ilk, .hlt, .keep, .ev .glb, .ev .dma, .ev .boot, .ev .job, .ev .imp, .ev .beam, .ev .mpl, .ev .hmap, .ev .sig, .ev .cell, .ev .cellArr, .ev .lane, .ev .stg, .ev .ilk, .ev .time, .ev .mem, .ev .clk, .ev .pwr, .ev .hlt, .ev .mgt, .regs, .outs, .free] ⊆ L) (h_s : Frame L org s.m) :
    OutFrame L org (execBootComplete failed dMax nB cal s ecc) := by
  delta execBootComplete
  refine act_fr (fun _ _ => ?_) h_s
  refine withEnv_fr (fun _ _ => ?_) ?_
  · replace hL := env_sub hL
    refine bootComplete_fr (partsIn_sub (by decide) hL) ?_
    assumption
  · assumption

theorem execBootAttemptFail_fr {L : List Part} {org : Mach} {cause s} (hL : [.msix, .aon, .clk, .boot, .mem, .log, .ev .mgt, .outs, .free] ⊆ L) (h_s : Frame L org s.m) :
    OutFrame L org (execBootAttemptFail cause s) := by
  delta execBootAttemptFail
  refine act_fr (fun _ _ => ?_) h_s
  refine attemptFail_fr (partsIn_sub (by decide) hL) ?_
  assumption

theorem execBootWatchdogExpire_fr {L : List Part} {org : Mach} {s} (hL : [.msix, .aon, .clk, .boot, .mem, .log, .ev .mgt, .outs, .free] ⊆ L) (h_s : Frame L org s.m) :
    OutFrame L org (execBootWatchdogExpire s) := by
  delta execBootWatchdogExpire
  refine act_fr (fun _ _ => ?_) h_s
  refine attemptFail_fr (partsIn_sub (by decide) hL) ?_
  assumption

theorem execPowerGoodTimeout_fr {L : List Part} {org : Mach} {s} (hL : [.msix, .aon, .clk, .boot, .mem, .log, .ev .mgt, .outs, .free] ⊆ L) (h_s : Frame L org s.m) :
    OutFrame L org (execPowerGoodTimeout s) := by
  delta execPowerGoodTimeout
  refine act_fr (fun _ _ => ?_) h_s
  refine powerGoodTimeout_fr (partsIn_sub (by decide) hL) ?_
  assumption

theorem execSsiReading_fr {L : List Part} {org : Mach} {a raw high parityOk env s} (hL : [.g, .msix, .clk, .boot, .bytes, .mem, .mgt, .log, .time, .job, .imp, .beams, .mpl, .hmap, .cells, .sig, .heads, .stg, .ilk, .ev .glb, .ev .boot, .ev .job, .ev .imp, .ev .beam, .ev .cellArr, .ev .stg, .ev .mem, .ev .hlt, .ev .mgt, .outs, .free] ⊆ L) (h_s : Frame L org s.m) :
    OutFrame L org (execSsiReading a raw high parityOk s env) := by
  delta execSsiReading
  refine act_fr (fun _ _ => ?_) h_s
  refine withEnv_fr (fun _ _ => ?_) ?_
  · replace hL := env_sub hL
    refine seqM_fr (fun _ _ => ?_) (fun _ _ => ?_) ?_
    · refine ssiReading_fr (partsIn_sub (by decide) hL) ?_
      assumption
    · refine autoResumeTry_fr (partsIn_sub (by decide) hL) ?_
      assumption
    · assumption
  · assumption

end Sys2Proof.Machine
end

