-- ==== Sys2Proof/Laws/Frame/MeltOps.lean ====
section
/-!
SUPPORT. The parts of the device that the operations of Machine/MeltOps.lean can touch: one lemma per operation.
-/

namespace Sys2Proof.Machine

theorem camBegin_fr {L : List Part} {org : Mach} {b bs m} (hL : [.mpl] ⊆ L) (h_m : Frame L org m) :
    Frame L org (camBegin b bs m) := by
  delta camBegin
  extract_lets x1 x2 x3
  split
  · refine Frame.ite ?_ ?_
    · assumption
    · refine onMpl_fr (partsIn_sub (by decide) hL) ?_
      assumption
  · refine onMpl_fr (partsIn_sub (by decide) hL) ?_
    assumption

theorem camLine_fr {L : List Part} {org : Mach} {b bs m} (hL : [.mpl] ⊆ L) (h_m : Frame L org m) :
    Frame L org (camLine b bs m) := by
  delta camLine
  extract_lets x1 x2
  split
  · refine Frame.ite ?_ ?_
    · assumption
    · refine onMpl_fr (partsIn_sub (by decide) hL) ?_
      assumption
  · assumption

theorem frameEntry_fr {L : List Part} {org : Mach} {b f inEm bad m} (hL : [.g, .msix, .clk, .boot, .bytes, .mem, .log, .beams, .mpl, .hmap, .cells, .sig, .ev .imp, .ev .hmap, .ev .mgt, .outs] ⊆ L) (h_m : Frame L org m) :
    Frame L org (frameEntry b f inEm bad m) := by
  delta frameEntry
  extract_lets x1 x2 x3 x4 x5 x6
  refine Frame.ite ?_ ?_
  · assumption
  · refine Frame.ite ?_ ?_
    · refine onMpl_fr (partsIn_sub (by decide) hL) ?_
      assumption
    · refine ringPush_fr (partsIn_sub (by decide) hL) ?_
      refine onMpl_fr (partsIn_sub (by decide) hL) ?_
      assumption

theorem framesReady_fr {L : List Part} {org : Mach} {b m} (hL : [.g, .msix, .clk, .boot, .bytes, .mem, .log, .beams, .mpl, .hmap, .cells, .sig, .ev .imp, .ev .mpl, .ev .hmap, .ev .mgt, .outs] ⊆ L) (h_m : Frame L org m) :
    Frame L org (framesReady b m) := by
  delta framesReady
  split
  · assumption
  · split
    · extract_lets x1 x2 x3 x4 x5
      have hx3 : Frame L org x3 := by
        unfold x3
        refine onMpl_fr (partsIn_sub (by decide) hL) ?_
        assumption
      clear_value x3
      have hx4 : Frame L org x4 := by
        unfold x4
        refine whenM_fr (fun _ _ => ?_) ?_
        · refine onMpl_fr (partsIn_sub (by decide) hL) ?_
          assumption
        · assumption
      clear_value x4
      have hx5 : Frame L org x5 := by
        unfold x5
        refine sigWriteRaw_fr (partsIn_sub (by decide) hL) ?_
        refine sigWriteRaw_fr (partsIn_sub (by decide) hL) ?_
        assumption
      clear_value x5
      refine whenM_fr (fun _ _ => ?_) ?_
      · refine mplRaise_fr (partsIn_sub (by decide) hL) ?_
        assumption
      · refine frameEntry_fr (partsIn_sub (by decide) hL) ?_
        assumption

theorem frameGap_fr {L : List Part} {org : Mach} {b m} (hL : [.g, .msix, .clk, .boot, .bytes, .mem, .log, .beams, .mpl, .hmap, .cells, .sig, .ev .imp, .ev .mpl, .ev .hmap, .ev .mgt, .outs] ⊆ L) (h_m : Frame L org m) :
    Frame L org (frameGap b m) := by
  delta frameGap
  extract_lets x1 x2 x3
  refine Frame.ite ?_ ?_
  · refine mplRaise_fr (partsIn_sub (by decide) hL) ?_
    refine onMpl_fr (partsIn_sub (by decide) hL) ?_
    assumption
  · assumption

theorem noLight_fr {L : List Part} {org : Mach} {b m} (hL : [.g, .msix, .clk, .boot, .bytes, .mem, .log, .beams, .mpl, .hmap, .cells, .sig, .ev .imp, .ev .mpl, .ev .hmap, .ev .mgt, .outs, .free] ⊆ L) (h_m : Frame L org m) :
    Frame L org (noLight b m) := by
  delta noLight
  extract_lets x1
  refine Frame.ite ?_ ?_
  · assumption
  · refine logClass_fr (partsIn_sub (by decide) hL) ?_
    refine mplRaise_fr (partsIn_sub (by decide) hL) ?_
    refine onMpl_fr (partsIn_sub (by decide) hL) ?_
    assumption

theorem backRefl_fr {L : List Part} {org : Mach} {b m} (hL : [.g, .msix, .clk, .boot, .bytes, .mem, .log, .job, .imp, .beams, .mpl, .hmap, .cells, .sig, .heads, .ilk, .ev .job, .ev .imp, .ev .beam, .ev .mpl, .ev .hmap, .ev .mgt, .outs] ⊆ L) (h_m : Frame L org m) :
    Frame L org (backRefl b m) := by
  delta backRefl
  extract_lets x1 x2
  have hx2 : Frame L org x2 := by
    unfold x2
    refine log_fr (partsIn_sub (by decide) hL) ?_
    refine mplRaise_fr (partsIn_sub (by decide) hL) ?_
    refine onMpl_fr (partsIn_sub (by decide) hL) ?_
    assumption
  clear_value x2
  refine Frame.ite ?_ ?_
  · assumption
  · refine whenM_fr (fun _ _ => ?_) ?_
    · refine retire_fr (partsIn_sub (by decide) hL) ?_
      assumption
    · assumption

theorem corrSat_fr {L : List Part} {org : Mach} {b m} (hL : [.g, .msix, .clk, .boot, .bytes, .mem, .log, .beams, .mpl, .hmap, .cells, .sig, .ev .imp, .ev .mpl, .ev .hmap, .ev .mgt, .outs, .free] ⊆ L) (h_m : Frame L org m) :
    Frame L org (corrSat b m) := by
  delta corrSat
  extract_lets x1 x2
  refine Frame.ite ?_ ?_
  · assumption
  · refine logClass_fr (partsIn_sub (by decide) hL) ?_
    refine mplRaise_fr (partsIn_sub (by decide) hL) ?_
    refine onMpl_fr (partsIn_sub (by decide) hL) ?_
    assumption

theorem sweepBegin_fr {L : List Part} {org : Mach} {m} (hL : [.bytes, .hmap] ⊆ L) (h_m : Frame L org m) :
    Frame L org (sweepBegin m) := by
  delta sweepBegin
  refine Frame.ite ?_ ?_
  · assumption
  · refine hmSweep_fr (partsIn_sub (by decide) hL) ?_
    refine onHmap_fr (partsIn_sub (by decide) hL) ?_
    assumption

theorem sweepDone_fr {L : List Part} {org : Mach} {m} (hL : [.hmap] ⊆ L) (h_m : Frame L org m) :
    Frame L org (sweepDone m) := by
  delta sweepDone
  refine Frame.ite ?_ ?_
  · refine onHmap_fr (partsIn_sub (by decide) hL) ?_
    assumption
  · assumption

theorem copyDone_fr {L : List Part} {org : Mach} {m} (hL : [.hmap] ⊆ L) (h_m : Frame L org m) :
    Frame L org (copyDone m) := by
  delta copyDone
  refine onHmap_fr (partsIn_sub (by decide) hL) ?_
  assumption

theorem execCamBegin_fr {L : List Part} {org : Mach} {l f s} (hL : [.msix, .mpl, .lanes, .heads, .ev .lane, .outs] ⊆ L) (h_s : Frame L org s.m) :
    OutFrame L org (execCamBegin l f s) := by
  delta execCamBegin
  refine act_fr (fun _ _ => ?_) h_s
  refine rxFrame_fr (partsIn_sub (by decide) hL) (fun _ _ => ?_) ?_
  · refine camBegin_fr (partsIn_sub (by decide) hL) ?_
    assumption
  · assumption

theorem execCamLine_fr {L : List Part} {org : Mach} {l f s} (hL : [.msix, .mpl, .lanes, .heads, .ev .lane, .outs] ⊆ L) (h_s : Frame L org s.m) :
    OutFrame L org (execCamLine l f s) := by
  delta execCamLine
  refine act_fr (fun _ _ => ?_) h_s
  refine rxFrame_fr (partsIn_sub (by decide) hL) (fun _ _ => ?_) ?_
  · refine camLine_fr (partsIn_sub (by decide) hL) ?_
    assumption
  · assumption

theorem execFrameMetricsReady_fr {L : List Part} {org : Mach} {b s} (hL : [.g, .msix, .clk, .boot, .bytes, .mem, .log, .beams, .mpl, .hmap, .cells, .sig, .ev .imp, .ev .mpl, .ev .hmap, .ev .mgt, .outs] ⊆ L) (h_s : Frame L org s.m) :
    OutFrame L org (execFrameMetricsReady b s) := by
  delta execFrameMetricsReady
  refine act_fr (fun _ _ => ?_) h_s
  refine clocked_fr (fun _ _ => ?_) ?_
  · refine framesReady_fr (partsIn_sub (by decide) hL) ?_
    assumption
  · assumption

theorem execFrameValidTimeout_fr {L : List Part} {org : Mach} {b s} (hL : [.g, .msix, .clk, .boot, .bytes, .mem, .log, .beams, .mpl, .hmap, .cells, .sig, .ev .imp, .ev .mpl, .ev .hmap, .ev .mgt, .outs] ⊆ L) (h_s : Frame L org s.m) :
    OutFrame L org (execFrameValidTimeout b s) := by
  delta execFrameValidTimeout
  refine act_fr (fun _ _ => ?_) h_s
  refine clocked_fr (fun _ _ => ?_) ?_
  · refine frameGap_fr (partsIn_sub (by decide) hL) ?_
    assumption
  · assumption

theorem execNoLight_fr {L : List Part} {org : Mach} {b s} (hL : [.g, .msix, .clk, .boot, .bytes, .mem, .log, .beams, .mpl, .hmap, .cells, .sig, .ev .imp, .ev .mpl, .ev .hmap, .ev .mgt, .outs, .free] ⊆ L) (h_s : Frame L org s.m) :
    OutFrame L org (execNoLight b s) := by
  delta execNoLight
  refine act_fr (fun _ _ => ?_) h_s
  refine clocked_fr (fun _ _ => ?_) ?_
  · refine noLight_fr (partsIn_sub (by decide) hL) ?_
    assumption
  · assumption

theorem execBackrefl_fr {L : List Part} {org : Mach} {b s} (hL : [.g, .msix, .clk, .boot, .bytes, .mem, .log, .job, .imp, .beams, .mpl, .hmap, .cells, .sig, .heads, .ilk, .ev .job, .ev .imp, .ev .beam, .ev .mpl, .ev .hmap, .ev .mgt, .outs] ⊆ L) (h_s : Frame L org s.m) :
    OutFrame L org (execBackrefl b s) := by
  delta execBackrefl
  refine act_fr (fun _ _ => ?_) h_s
  refine clocked_fr (fun _ _ => ?_) ?_
  · refine backRefl_fr (partsIn_sub (by decide) hL) ?_
    assumption
  · assumption

theorem execCorrSat_fr {L : List Part} {org : Mach} {b s} (hL : [.g, .msix, .clk, .boot, .bytes, .mem, .log, .beams, .mpl, .hmap, .cells, .sig, .ev .imp, .ev .mpl, .ev .hmap, .ev .mgt, .outs, .free] ⊆ L) (h_s : Frame L org s.m) :
    OutFrame L org (execCorrSat b s) := by
  delta execCorrSat
  refine act_fr (fun _ _ => ?_) h_s
  refine clocked_fr (fun _ _ => ?_) ?_
  · refine corrSat_fr (partsIn_sub (by decide) hL) ?_
    assumption
  · assumption

theorem execHmapDecaySweep_fr {L : List Part} {org : Mach} {s} (hL : [.bytes, .hmap] ⊆ L) (h_s : Frame L org s.m) :
    OutFrame L org (execHmapDecaySweep s) := by
  delta execHmapDecaySweep
  refine act_fr (fun _ _ => ?_) h_s
  refine clocked_fr (fun _ _ => ?_) ?_
  · refine sweepBegin_fr (partsIn_sub (by decide) hL) ?_
    assumption
  · assumption

theorem execHmapSweepDone_fr {L : List Part} {org : Mach} {s} (hL : [.hmap] ⊆ L) (h_s : Frame L org s.m) :
    OutFrame L org (execHmapSweepDone s) := by
  delta execHmapSweepDone
  refine act_fr (fun _ _ => ?_) h_s
  refine clocked_fr (fun _ _ => ?_) ?_
  · refine sweepDone_fr (partsIn_sub (by decide) hL) ?_
    assumption
  · assumption

theorem execHmapCopyDone_fr {L : List Part} {org : Mach} {s} (hL : [.hmap] ⊆ L) (h_s : Frame L org s.m) :
    OutFrame L org (execHmapCopyDone s) := by
  delta execHmapCopyDone
  refine act_fr (fun _ _ => ?_) h_s
  refine clocked_fr (fun _ _ => ?_) ?_
  · refine copyDone_fr (partsIn_sub (by decide) hL) ?_
    assumption
  · assumption

end Sys2Proof.Machine
end

