-- ==== Sys2Proof/Laws/Frame/RegWrite.lean ====
section
/-!
SUPPORT. The parts of the device that the operations of Machine/RegWrite.lean can touch: one lemma per operation.
-/

namespace Sys2Proof.Machine

theorem sqcWrite_fr {L : List Part} {org : Mach} {e v m} (hL : [.g, .mem, .beams, .ev .glb, .ev .dma, .ev .boot, .ev .job, .ev .imp, .ev .beam, .ev .mpl, .ev .hmap, .ev .sig, .ev .cell, .ev .cellArr, .ev .lane, .ev .stg, .ev .ilk, .ev .time, .ev .mem, .ev .clk, .ev .pwr, .ev .hlt, .ev .mgt, .regs] ⊆ L) (h_m : Frame L org m) :
    Frame L org (sqcWrite e v m) := by
  delta sqcWrite
  extract_lets x1 x2 x3
  have hx1 : Frame L org x1 := by
    unfold x1
    refine regSet_fr (partsIn_sub (by decide) hL) ?_
    assumption
  clear_value x1
  split
  · refine Frame.ite ?_ ?_
    · assumption
    · refine Frame.upd ?_ (.inr rfl) (.inr rfl) (.inr rfl) (.inl (hL (by decide))) (.inr rfl) (.inr rfl) (.inr rfl) (.inr rfl) (.inr rfl) (.inr rfl) (.inr rfl) (.inr rfl) (.inr rfl) (.inr rfl) (.inr rfl) (.inr rfl) (.inr rfl) (.inr rfl) (.inr rfl) (.inr rfl) (.inr rfl) (.inr rfl) (.inr rfl) (.inr rfl) (.inr rfl) (.inr rfl) rfl
      assumption
  · refine Frame.ite ?_ ?_
    · assumption
    · refine Frame.upd ?_ (.inr rfl) (.inr rfl) (.inr rfl) (.inr rfl) (.inr rfl) (.inr rfl) (.inr rfl) (.inr rfl) (.inr rfl) (.inl (hL (by decide))) (.inr rfl) (.inr rfl) (.inr rfl) (.inr rfl) (.inr rfl) (.inr rfl) (.inr rfl) (.inr rfl) (.inr rfl) (.inr rfl) (.inr rfl) (.inr rfl) (.inr rfl) (.inr rfl) (.inr rfl) (.inr rfl) rfl
      assumption
  · refine Frame.ite ?_ ?_
    · assumption
    · refine onBeam_fr (partsIn_sub (by decide) hL) ?_
      assumption
  · assumption

theorem ctrlWrite_fr {L : List Part} {org : Mach} {v m} (hL : [.g] ⊆ L) (h_m : Frame L org m) :
    Frame L org (ctrlWrite v m) := by
  delta ctrlWrite
  refine Frame.ite ?_ ?_
  · refine Frame.upd ?_ (.inr rfl) (.inr rfl) (.inr rfl) (.inl (hL (by decide))) (.inr rfl) (.inr rfl) (.inr rfl) (.inr rfl) (.inr rfl) (.inr rfl) (.inr rfl) (.inr rfl) (.inr rfl) (.inr rfl) (.inr rfl) (.inr rfl) (.inr rfl) (.inr rfl) (.inr rfl) (.inr rfl) (.inr rfl) (.inr rfl) (.inr rfl) (.inr rfl) (.inr rfl) (.inr rfl) rfl
    assumption
  · assumption

theorem msixMod_fr {L : List Part} {org : Mach} {p v m} (hL : [.g, .msix, .log, .ev .glb, .ev .dma, .ev .boot, .ev .job, .ev .imp, .ev .beam, .ev .mpl, .ev .hmap, .ev .sig, .ev .cell, .ev .cellArr, .ev .lane, .ev .stg, .ev .ilk, .ev .time, .ev .mem, .ev .clk, .ev .pwr, .ev .hlt, .ev .mgt, .regs, .outs] ⊆ L) (h_m : Frame L org m) :
    Frame L org (msixMod p v m) := by
  delta msixMod
  refine Frame.ite ?_ ?_
  · refine accErr_fr (partsIn_sub (by decide) hL) ?_
    assumption
  · refine regSet_fr (partsIn_sub (by decide) hL) ?_
    assumption

theorem msixWrite_fr {L : List Part} {org : Mach} {off v m} (hL : [.msix, .outs] ⊆ L) (h_m : Frame L org m) :
    Frame L org (msixWrite off v m) := by
  delta msixWrite
  refine Frame.ite ?_ ?_
  · assumption
  · extract_lets x1 x2 x3 x4
    have hf_x4 : ∀ a0, Frame L org (x4 a0) := by
      intro a0
      unfold x4
      refine Frame.upd ?_ (.inr rfl) (.inr rfl) (.inr rfl) (.inr rfl) (.inl (hL (by decide))) (.inr rfl) (.inr rfl) (.inr rfl) (.inr rfl) (.inr rfl) (.inr rfl) (.inr rfl) (.inr rfl) (.inr rfl) (.inr rfl) (.inr rfl) (.inr rfl) (.inr rfl) (.inr rfl) (.inr rfl) (.inr rfl) (.inr rfl) (.inr rfl) (.inr rfl) (.inr rfl) (.inr rfl) rfl
      assumption
    clear_value x4
    split
    · apply hf_x4
    · apply hf_x4
    · apply hf_x4
    · refine msixMask_fr (partsIn_sub (by decide) hL) ?_
      assumption

theorem ratioWrite_fr {L : List Part} {org : Mach} {b v z2} (hL : [.hlt] ⊆ L) (h_z2 : Frame L org z2) :
    Frame L org (ratioWrite b v z2) := by
  delta ratioWrite
  refine onLaser_fr (partsIn_sub (by decide) hL) ?_
  assumption

theorem argWrite_fr {L : List Part} {org : Mach} {p i v m} (hL : [.mgt] ⊆ L) (h_m : Frame L org m) :
    Frame L org (argWrite p i v m) := by
  delta argWrite
  refine Frame.ite ?_ ?_
  · assumption
  · refine Frame.upd ?_ (.inr rfl) (.inr rfl) (.inr rfl) (.inr rfl) (.inr rfl) (.inr rfl) (.inr rfl) (.inr rfl) (.inr rfl) (.inr rfl) (.inl (hL (by decide))) (.inr rfl) (.inr rfl) (.inr rfl) (.inr rfl) (.inr rfl) (.inr rfl) (.inr rfl) (.inr rfl) (.inr rfl) (.inr rfl) (.inr rfl) (.inr rfl) (.inr rfl) (.inr rfl) (.inr rfl) rfl
    assumption

theorem prbsWrite_fr {L : List Part} {org : Mach} {l v m} (hL : [.lanes, .ev .glb, .ev .dma, .ev .boot, .ev .job, .ev .imp, .ev .beam, .ev .mpl, .ev .hmap, .ev .sig, .ev .cell, .ev .cellArr, .ev .lane, .ev .stg, .ev .ilk, .ev .time, .ev .mem, .ev .clk, .ev .pwr, .ev .hlt, .ev .mgt, .regs] ⊆ L) (h_m : Frame L org m) :
    Frame L org (prbsWrite l v m) := by
  delta prbsWrite
  extract_lets x1 x2
  refine regSet_fr (partsIn_sub (by decide) hL) ?_
  refine whenM_fr (fun _ _ => ?_) ?_
  · refine onLane_fr (partsIn_sub (by decide) hL) ?_
    assumption
  · assumption

theorem heldWrite_fr {L : List Part} {org : Mach} {off v m} (hL : [.hlt, .ev .glb, .ev .dma, .ev .boot, .ev .job, .ev .imp, .ev .beam, .ev .mpl, .ev .hmap, .ev .sig, .ev .cell, .ev .cellArr, .ev .lane, .ev .stg, .ev .ilk, .ev .time, .ev .mem, .ev .clk, .ev .pwr, .ev .hlt, .ev .mgt, .regs] ⊆ L) (h_m : Frame L org m) :
    Frame L org (heldWrite off v m) := by
  delta heldWrite
  split
  · assumption
  · extract_lets x1
    have hx1 : Frame L org x1 := by
      unfold x1
      refine regSet_fr (partsIn_sub (by decide) hL) ?_
      assumption
    clear_value x1
    split
    · refine Frame.ite ?_ ?_
      · refine setRef_fr (partsIn_sub (by decide) hL) ?_
        assumption
      · assumption
    · assumption

theorem lockWrite_fr {L : List Part} {org : Mach} {p off v m} (hL : [.g, .msix, .log, .hlt, .ev .glb, .ev .dma, .ev .boot, .ev .job, .ev .imp, .ev .beam, .ev .mpl, .ev .hmap, .ev .sig, .ev .cell, .ev .cellArr, .ev .lane, .ev .stg, .ev .ilk, .ev .time, .ev .mem, .ev .clk, .ev .pwr, .ev .hlt, .ev .mgt, .regs, .outs] ⊆ L) (h_m : Frame L org m) :
    Frame L org (lockWrite p off v m) := by
  delta lockWrite
  refine Frame.ite ?_ ?_
  · assumption
  · refine Frame.ite ?_ ?_
    · refine lockErr_fr (partsIn_sub (by decide) hL) ?_
      assumption
    · refine heldWrite_fr (partsIn_sub (by decide) hL) ?_
      refine Frame.upd ?_ (.inr rfl) (.inr rfl) (.inr rfl) (.inl (hL (by decide))) (.inr rfl) (.inr rfl) (.inr rfl) (.inr rfl) (.inr rfl) (.inr rfl) (.inr rfl) (.inr rfl) (.inr rfl) (.inr rfl) (.inr rfl) (.inr rfl) (.inr rfl) (.inr rfl) (.inr rfl) (.inr rfl) (.inr rfl) (.inr rfl) (.inr rfl) (.inr rfl) (.inr rfl) (.inr rfl) rfl
      assumption

theorem commitWrite_fr {L : List Part} {org : Mach} {p w m} (hL : [.g, .msix, .clk, .boot, .bytes, .mem, .log, .job, .imp, .beams, .cells, .sig, .ev .glb, .ev .boot, .ev .job, .ev .imp, .ev .mgt, .outs] ⊆ L) (h_m : Frame L org m) :
    Frame L org (commitWrite p w m) := by
  delta commitWrite
  extract_lets x1
  have hx1 : Frame L org x1 := by
    unfold x1
    refine recCommit_fr (partsIn_sub (by decide) hL) ?_
    assumption
  clear_value x1
  refine whenM_fr (fun _ _ => ?_) ?_
  · refine weightsFollow_fr (partsIn_sub (by decide) hL) ?_
    assumption
  · assumption

theorem takeNow_fr {L : List Part} {org : Mach} {id m} (hL : [.g, .msix, .clk, .boot, .bytes, .mem, .log, .job, .imp, .beams, .cells, .sig, .ev .job, .ev .imp, .ev .mgt, .outs] ⊆ L) (h_m : Frame L org m) :
    Frame L org (takeNow id m) := by
  delta takeNow
  extract_lets x1
  have hx1 : Frame L org x1 := by
    unfold x1
    refine recordTake_fr (partsIn_sub (by decide) hL) ?_
    assumption
  clear_value x1
  refine whenM_fr (fun _ _ => ?_) ?_
  · refine weightsFollow_fr (partsIn_sub (by decide) hL) ?_
    assumption
  · assumption

theorem glbWrite_fr {L : List Part} {org : Mach} {p off v m} (hL : [.g, .msix, .aon, .clk, .boot, .bytes, .mem, .mgt, .log, .time, .job, .imp, .beams, .mpl, .hmap, .cells, .sig, .lanes, .heads, .stg, .ilk, .hlt, .keep, .ev .glb, .ev .dma, .ev .boot, .ev .job, .ev .imp, .ev .beam, .ev .mpl, .ev .hmap, .ev .sig, .ev .cell, .ev .cellArr, .ev .lane, .ev .stg, .ev .ilk, .ev .time, .ev .mem, .ev .clk, .ev .pwr, .ev .hlt, .ev .mgt, .regs, .outs, .free] ⊆ L) (h_m : Frame L org m) :
    Frame L org (glbWrite p off v m) := by
  delta glbWrite
  refine Frame.ite ?_ ?_
  · refine ctrlWrite_fr (partsIn_sub (by decide) hL) ?_
    assumption
  · refine Frame.ite ?_ ?_
    · refine glbCmd_fr (partsIn_sub (by decide) hL) ?_
      assumption
    · refine Frame.ite ?_ ?_
      · refine heartbeat_fr (partsIn_sub (by decide) hL) ?_
        assumption
      · refine Frame.ite ?_ ?_
        · refine resetKey_fr (partsIn_sub (by decide) hL) ?_
          assumption
        · refine Frame.ite ?_ ?_
          · refine msixMod_fr (partsIn_sub (by decide) hL) ?_
            assumption
          · refine Frame.ite ?_ ?_
            · refine dmaSize_fr (partsIn_sub (by decide) hL) ?_
              assumption
            · refine Frame.ite ?_ ?_
              · refine dmaTail_fr (partsIn_sub (by decide) hL) ?_
                assumption
              · refine Frame.ite ?_ ?_
                · refine dmaCtrl_fr (partsIn_sub (by decide) hL) ?_
                  assumption
                · refine Frame.ite ?_ ?_
                  · refine msixWrite_fr (partsIn_sub (by decide) hL) ?_
                    assumption
                  · refine heldWrite_fr (partsIn_sub (by decide) hL) ?_
                    assumption

theorem bootWrite_fr {L : List Part} {org : Mach} {p off v m} (hL : [.g, .msix, .aon, .clk, .boot, .bytes, .mem, .mgt, .log, .job, .imp, .beams, .cells, .sig, .hlt, .ev .glb, .ev .dma, .ev .boot, .ev .job, .ev .imp, .ev .beam, .ev .mpl, .ev .hmap, .ev .sig, .ev .cell, .ev .cellArr, .ev .lane, .ev .stg, .ev .ilk, .ev .time, .ev .mem, .ev .clk, .ev .pwr, .ev .hlt, .ev .mgt, .regs, .outs, .free] ⊆ L) (h_m : Frame L org m) :
    Frame L org (bootWrite p off v m) := by
  delta bootWrite
  refine Frame.ite ?_ ?_
  · refine bootCmd_fr (partsIn_sub (by decide) hL) ?_
    assumption
  · refine Frame.ite ?_ ?_
    · refine recSelect_fr (partsIn_sub (by decide) hL) ?_
      assumption
    · refine Frame.ite ?_ ?_
      · refine commitWrite_fr (partsIn_sub (by decide) hL) ?_
        assumption
      · refine Frame.ite ?_ ?_
        · refine quoinAdd_fr (partsIn_sub (by decide) hL) ?_
          assumption
        · refine Frame.ite ?_ ?_
          · refine reloadRequest_fr (partsIn_sub (by decide) hL) ?_
            assumption
          · refine Frame.ite ?_ ?_
            · refine onBoot_fr (partsIn_sub (by decide) hL) ?_
              assumption
            · refine Frame.ite ?_ ?_
              · refine updCmd_fr (partsIn_sub (by decide) hL) ?_
                assumption
              · refine Frame.ite ?_ ?_
                · refine recDataWrite_fr (partsIn_sub (by decide) hL) ?_
                  assumption
                · refine heldWrite_fr (partsIn_sub (by decide) hL) ?_
                  assumption

theorem cellsWrite_fr {L : List Part} {org : Mach} {p off v m} (hL : [.g, .msix, .bytes, .mem, .log, .mpl, .cells, .sig, .heads, .hlt, .ev .glb, .ev .dma, .ev .boot, .ev .job, .ev .imp, .ev .beam, .ev .mpl, .ev .hmap, .ev .sig, .ev .cell, .ev .cellArr, .ev .lane, .ev .stg, .ev .ilk, .ev .time, .ev .mem, .ev .clk, .ev .pwr, .ev .hlt, .ev .mgt, .regs, .outs] ⊆ L) (h_m : Frame L org m) :
    Frame L org (cellsWrite p off v m) := by
  delta cellsWrite
  refine Frame.ite ?_ ?_
  · refine sigSelWrite_fr (partsIn_sub (by decide) hL) ?_
    assumption
  · refine Frame.ite ?_ ?_
    · refine cellCmd_fr (partsIn_sub (by decide) hL) ?_
      assumption
    · refine Frame.ite ?_ ?_
      · refine trgWrite_fr (partsIn_sub (by decide) hL) ?_
        assumption
      · refine Frame.ite ?_ ?_
        · refine deepCtrlWrite_fr (partsIn_sub (by decide) hL) ?_
          assumption
        · refine Frame.ite ?_ ?_
          · extract_lets x1 x2
            refine Frame.ite ?_ ?_
            · refine lagClear_fr (partsIn_sub (by decide) hL) ?_
              assumption
            · refine Frame.ite ?_ ?_
              · refine lagClear_fr (partsIn_sub (by decide) hL) ?_
                assumption
              · refine Frame.ite ?_ ?_
                · refine trcCtrlWrite_fr (partsIn_sub (by decide) hL) ?_
                  assumption
                · refine Frame.ite ?_ ?_
                  · refine trcCtrlWrite_fr (partsIn_sub (by decide) hL) ?_
                    assumption
                  · refine Frame.ite ?_ ?_
                    · refine accErr_fr (partsIn_sub (by decide) hL) ?_
                      assumption
                    · refine heldWrite_fr (partsIn_sub (by decide) hL) ?_
                      assumption
          · refine heldWrite_fr (partsIn_sub (by decide) hL) ?_
            assumption

theorem laneWrite_fr {L : List Part} {org : Mach} {off v m} (hL : [.msix, .bytes, .mem, .log, .time, .job, .imp, .beams, .mpl, .cells, .sig, .lanes, .heads, .ilk, .hlt, .ev .glb, .ev .dma, .ev .boot, .ev .job, .ev .imp, .ev .beam, .ev .mpl, .ev .hmap, .ev .sig, .ev .cell, .ev .cellArr, .ev .lane, .ev .stg, .ev .ilk, .ev .time, .ev .mem, .ev .clk, .ev .pwr, .ev .hlt, .ev .mgt, .regs, .outs] ⊆ L) (h_m : Frame L org m) :
    Frame L org (laneWrite off v m) := by
  delta laneWrite
  extract_lets x1 x2
  refine Frame.ite ?_ ?_
  · refine laneCmd_fr (partsIn_sub (by decide) hL) ?_
    assumption
  · refine Frame.ite ?_ ?_
    · refine prbsWrite_fr (partsIn_sub (by decide) hL) ?_
      assumption
    · refine Frame.ite ?_ ?_
      · refine laneInject_fr (partsIn_sub (by decide) hL) ?_
        assumption
      · refine heldWrite_fr (partsIn_sub (by decide) hL) ?_
        assumption

theorem stgWrite_fr {L : List Part} {org : Mach} {off v m} (hL : [.g, .msix, .clk, .boot, .mem, .log, .beams, .cells, .sig, .stg, .hlt, .ev .glb, .ev .dma, .ev .boot, .ev .job, .ev .imp, .ev .beam, .ev .mpl, .ev .hmap, .ev .sig, .ev .cell, .ev .cellArr, .ev .lane, .ev .stg, .ev .ilk, .ev .time, .ev .mem, .ev .clk, .ev .pwr, .ev .hlt, .ev .mgt, .regs, .outs, .free] ⊆ L) (h_m : Frame L org m) :
    Frame L org (stgWrite off v m) := by
  delta stgWrite
  extract_lets x1 x2
  refine Frame.ite ?_ ?_
  · refine stgCmd_fr (partsIn_sub (by decide) hL) ?_
    assumption
  · refine Frame.ite ?_ ?_
    · refine cmpPush_fr (partsIn_sub (by decide) hL) ?_
      assumption
    · refine heldWrite_fr (partsIn_sub (by decide) hL) ?_
      assumption

theorem clkWrite_fr {L : List Part} {org : Mach} {p off v m} (hL : [.g, .msix, .aon, .clk, .log, .hlt, .ev .glb, .ev .dma, .ev .boot, .ev .job, .ev .imp, .ev .beam, .ev .mpl, .ev .hmap, .ev .sig, .ev .cell, .ev .cellArr, .ev .lane, .ev .stg, .ev .ilk, .ev .time, .ev .mem, .ev .clk, .ev .pwr, .ev .hlt, .ev .mgt, .regs, .outs] ⊆ L) (h_m : Frame L org m) :
    Frame L org (clkWrite p off v m) := by
  delta clkWrite
  refine Frame.ite ?_ ?_
  · refine clkOutWrite_fr (partsIn_sub (by decide) hL) ?_
    assumption
  · refine Frame.ite ?_ ?_
    · refine clkOutWrite_fr (partsIn_sub (by decide) hL) ?_
      assumption
    · refine Frame.ite ?_ ?_
      · refine gateRequest_fr (partsIn_sub (by decide) hL) ?_
        assumption
      · refine Frame.ite ?_ ?_
        · refine onAon_fr (partsIn_sub (by decide) hL) ?_
          assumption
        · refine heldWrite_fr (partsIn_sub (by decide) hL) ?_
          assumption

theorem hltWrite_fr {L : List Part} {org : Mach} {p off v m} (hL : [.msix, .mgt, .hlt, .ev .glb, .ev .dma, .ev .boot, .ev .job, .ev .imp, .ev .beam, .ev .mpl, .ev .hmap, .ev .sig, .ev .cell, .ev .cellArr, .ev .lane, .ev .stg, .ev .ilk, .ev .time, .ev .mem, .ev .clk, .ev .pwr, .ev .hlt, .ev .mgt, .regs, .outs] ⊆ L) (h_m : Frame L org m) :
    Frame L org (hltWrite p off v m) := by
  delta hltWrite
  refine Frame.ite ?_ ?_
  · refine hltCmd_fr (partsIn_sub (by decide) hL) ?_
    assumption
  · refine Frame.ite ?_ ?_
    · refine ratioWrite_fr (partsIn_sub (by decide) hL) ?_
      assumption
    · refine Frame.ite ?_ ?_
      · refine mbCmd_fr (partsIn_sub (by decide) hL) ?_
        assumption
      · refine Frame.ite ?_ ?_
        · refine argWrite_fr (partsIn_sub (by decide) hL) ?_
          assumption
        · refine heldWrite_fr (partsIn_sub (by decide) hL) ?_
          assumption

theorem regWrite_fr {L : List Part} {org : Mach} {p off v m} (hL : [.g, .msix, .aon, .clk, .boot, .bytes, .mem, .mgt, .log, .time, .job, .imp, .beams, .mpl, .hmap, .cells, .sig, .lanes, .heads, .stg, .ilk, .hlt, .keep, .ev .glb, .ev .dma, .ev .boot, .ev .job, .ev .imp, .ev .beam, .ev .mpl, .ev .hmap, .ev .sig, .ev .cell, .ev .cellArr, .ev .lane, .ev .stg, .ev .ilk, .ev .time, .ev .mem, .ev .clk, .ev .pwr, .ev .hlt, .ev .mgt, .regs, .outs, .free] ⊆ L) (h_m : Frame L org m) :
    Frame L org (regWrite p off v m) := by
  delta regWrite
  split
  · refine sqcWrite_fr (partsIn_sub (by decide) hL) ?_
    assumption
  · refine Frame.ite ?_ ?_
    · refine lockWrite_fr (partsIn_sub (by decide) hL) ?_
      assumption
    · refine Frame.ite ?_ ?_
      · refine glbWrite_fr (partsIn_sub (by decide) hL) ?_
        assumption
      · refine Frame.ite ?_ ?_
        · refine bootWrite_fr (partsIn_sub (by decide) hL) ?_
          assumption
        · refine Frame.ite ?_ ?_
          · refine jobCmd_fr (partsIn_sub (by decide) hL) ?_
            assumption
          · refine Frame.ite ?_ ?_
            · refine jobCommit_fr (partsIn_sub (by decide) hL) ?_
              assumption
            · refine Frame.ite ?_ ?_
              · refine impCmd_fr (partsIn_sub (by decide) hL) ?_
                assumption
              · refine Frame.ite ?_ ?_
                · refine impRelease_fr (partsIn_sub (by decide) hL) ?_
                  assumption
                · refine Frame.ite ?_ ?_
                  · refine ringRelease_fr (partsIn_sub (by decide) hL) ?_
                    assumption
                  · refine Frame.ite ?_ ?_
                    · refine cellsWrite_fr (partsIn_sub (by decide) hL) ?_
                      assumption
                    · refine Frame.ite ?_ ?_
                      · refine laneWrite_fr (partsIn_sub (by decide) hL) ?_
                        assumption
                      · refine Frame.ite ?_ ?_
                        · refine stgWrite_fr (partsIn_sub (by decide) hL) ?_
                          assumption
                        · refine Frame.ite ?_ ?_
                          · refine ilkCmd_fr (partsIn_sub (by decide) hL) ?_
                            assumption
                          · refine Frame.ite ?_ ?_
                            · refine timeSnap_fr (partsIn_sub (by decide) hL) ?_
                              assumption
                            · refine Frame.ite ?_ ?_
                              · refine memCmd_fr (partsIn_sub (by decide) hL) ?_
                                assumption
                              · refine Frame.ite ?_ ?_
                                · refine clkWrite_fr (partsIn_sub (by decide) hL) ?_
                                  assumption
                                · refine Frame.ite ?_ ?_
                                  · refine hltWrite_fr (partsIn_sub (by decide) hL) ?_
                                    assumption
                                  · refine heldWrite_fr (partsIn_sub (by decide) hL) ?_
                                    assumption

theorem alarmWrite_fr {L : List Part} {org : Mach} {lo hi z2} (hL : [.aon] ⊆ L) (h_z2 : Frame L org z2) :
    Frame L org (alarmWrite lo hi z2) := by
  delta alarmWrite
  refine onAon_fr (partsIn_sub (by decide) hL) ?_
  assumption

theorem pairWrite_fr {L : List Part} {org : Mach} {p off low lo hi m} (hL : [.g, .msix, .aon, .boot, .log, .job, .ev .glb, .ev .mgt, .outs] ⊆ L) (h_m : Frame L org m) :
    Frame L org (pairWrite p off low lo hi m) := by
  delta pairWrite
  refine Frame.ite ?_ ?_
  · refine winWrite_fr (partsIn_sub (by decide) hL) ?_
    assumption
  · refine Frame.ite ?_ ?_
    · refine dmaRing_fr (partsIn_sub (by decide) hL) ?_
      assumption
    · refine Frame.ite ?_ ?_
      · refine onBoot_fr (partsIn_sub (by decide) hL) ?_
        assumption
      · refine Frame.ite ?_ ?_
        · refine onJob_fr (partsIn_sub (by decide) hL) ?_
          assumption
        · refine Frame.ite ?_ ?_
          · refine alarmWrite_fr (partsIn_sub (by decide) hL) ?_
            assumption
          · assumption

theorem pairLowWrite_fr {L : List Part} {org : Mach} {p off v m} (hL : [.g, .msix, .log, .ev .glb, .ev .mgt, .outs] ⊆ L) (h_m : Frame L org m) :
    Frame L org (pairLowWrite p off v m) := by
  delta pairLowWrite
  refine Frame.ite ?_ ?_
  · assumption
  · extract_lets x1 x2
    have hx2 : Frame L org x2 := by
      unfold x2
      refine whenM_fr (fun _ _ => ?_) ?_
      · refine dropShadow_fr (partsIn_sub (by decide) hL) ?_
        assumption
      · assumption
    clear_value x2
    refine Frame.ite ?_ ?_
    · refine onPort_fr (partsIn_sub (by decide) hL) ?_
      assumption
    · refine accErr_fr (partsIn_sub (by decide) hL) ?_
      assumption

theorem pairHighWrite_fr {L : List Part} {org : Mach} {p off v m} (hL : [.g, .msix, .aon, .boot, .log, .job, .ev .glb, .ev .mgt, .outs] ⊆ L) (h_m : Frame L org m) :
    Frame L org (pairHighWrite p off v m) := by
  delta pairHighWrite
  refine Frame.ite ?_ ?_
  · assumption
  · extract_lets x1 x2
    have hx2 : Frame L org x2 := by
      unfold x2
      refine onPort_fr (partsIn_sub (by decide) hL) ?_
      assumption
    clear_value x2
    split
    · refine Frame.ite ?_ ?_
      · refine Frame.ite ?_ ?_
        · refine pairWrite_fr (partsIn_sub (by decide) hL) ?_
          assumption
        · refine accErr_fr (partsIn_sub (by decide) hL) ?_
          assumption
      · refine Frame.ite ?_ ?_
        · refine shadowMiss_fr (partsIn_sub (by decide) hL) ?_
          refine pairWrite_fr (partsIn_sub (by decide) hL) ?_
          assumption
        · refine accErr_fr (partsIn_sub (by decide) hL) ?_
          assumption
    · refine Frame.ite ?_ ?_
      · refine shadowMiss_fr (partsIn_sub (by decide) hL) ?_
        refine pairWrite_fr (partsIn_sub (by decide) hL) ?_
        assumption
      · refine accErr_fr (partsIn_sub (by decide) hL) ?_
        assumption

theorem readGate_fr {L : List Part} {org : Mach} {p off f m} (hL : [.g, .msix, .log, .ev .glb, .ev .mgt, .outs] ⊆ L) (hf_f : ∀ m, Frame L org m → Frame L org (f m)) (h_m : Frame L org m) :
    Frame L org (readGate p off f m) := by
  delta readGate
  refine Frame.ite ?_ ?_
  · assumption
  · refine Frame.ite ?_ ?_
    · apply hf_f
      assumption
    · refine accErr_fr (partsIn_sub (by decide) hL) ?_
      refine emit_fr (partsIn_sub (by decide) hL) ?_
      assumption

theorem pairLowRead_fr {L : List Part} {org : Mach} {p off m} (hL : [.g, .msix, .outs] ⊆ L) (h_m : Frame L org m) :
    Frame L org (pairLowRead p off m) := by
  delta pairLowRead
  extract_lets x1 x2
  have hx1 : Frame L org x1 := by
    unfold x1
    refine emit_fr (partsIn_sub (by decide) hL) ?_
    assumption
  clear_value x1
  have hx2 : Frame L org x2 := by
    unfold x2
    refine whenM_fr (fun _ _ => ?_) ?_
    · refine onPort_fr (partsIn_sub (by decide) hL) ?_
      assumption
    · assumption
  clear_value x2
  refine Frame.ite ?_ ?_
  · refine onPort_fr (partsIn_sub (by decide) hL) ?_
    assumption
  · assumption

theorem pairHighRead_fr {L : List Part} {org : Mach} {p off m} (hL : [.g, .msix, .log, .ev .glb, .ev .mgt, .outs] ⊆ L) (h_m : Frame L org m) :
    Frame L org (pairHighRead p off m) := by
  delta pairHighRead
  extract_lets x1
  have hx1 : Frame L org x1 := by
    unfold x1
    refine emit_fr (partsIn_sub (by decide) hL) ?_
    assumption
  clear_value x1
  refine Frame.ite ?_ ?_
  · assumption
  · split
    · refine Frame.ite ?_ ?_
      · refine onPort_fr (partsIn_sub (by decide) hL) ?_
        refine emit_fr (partsIn_sub (by decide) hL) ?_
        assumption
      · refine shadowMiss_fr (partsIn_sub (by decide) hL) ?_
        assumption
    · refine shadowMiss_fr (partsIn_sub (by decide) hL) ?_
      assumption

theorem anyWrite_fr {L : List Part} {org : Mach} {p off v be m} (hL : [.g, .msix, .aon, .clk, .boot, .bytes, .mem, .mgt, .log, .time, .job, .imp, .beams, .mpl, .hmap, .cells, .sig, .lanes, .heads, .stg, .ilk, .hlt, .keep, .ev .glb, .ev .dma, .ev .boot, .ev .job, .ev .imp, .ev .beam, .ev .mpl, .ev .hmap, .ev .sig, .ev .cell, .ev .cellArr, .ev .lane, .ev .stg, .ev .ilk, .ev .time, .ev .mem, .ev .clk, .ev .pwr, .ev .hlt, .ev .mgt, .regs, .outs, .free] ⊆ L) (h_m : Frame L org m) :
    Frame L org (anyWrite p off v be m) := by
  delta anyWrite
  refine Frame.ite ?_ ?_
  · refine whenM_fr (fun _ _ => ?_) ?_
    · refine accErr_fr (partsIn_sub (by decide) hL) ?_
      assumption
    · assumption
  · refine Frame.ite ?_ ?_
    · refine pairLowWrite_fr (partsIn_sub (by decide) hL) ?_
      assumption
    · refine Frame.ite ?_ ?_
      · refine pairHighWrite_fr (partsIn_sub (by decide) hL) ?_
        assumption
      · refine writeGate_fr (partsIn_sub (by decide) hL) (fun _ _ => ?_) ?_
        · refine regWrite_fr (partsIn_sub (by decide) hL) ?_
          assumption
        · assumption

theorem pairLongWrite_fr {L : List Part} {org : Mach} {p off v m} (hL : [.g, .msix, .aon, .clk, .boot, .bytes, .mem, .mgt, .log, .time, .job, .imp, .beams, .mpl, .hmap, .cells, .sig, .lanes, .heads, .stg, .ilk, .hlt, .keep, .ev .glb, .ev .dma, .ev .boot, .ev .job, .ev .imp, .ev .beam, .ev .mpl, .ev .hmap, .ev .sig, .ev .cell, .ev .cellArr, .ev .lane, .ev .stg, .ev .ilk, .ev .time, .ev .mem, .ev .clk, .ev .pwr, .ev .hlt, .ev .mgt, .regs, .outs, .free] ⊆ L) (h_m : Frame L org m) :
    Frame L org (pairLongWrite p off v m) := by
  delta pairLongWrite
  extract_lets x1 x2
  refine Frame.ite ?_ ?_
  · refine pairGate_fr (partsIn_sub (by decide) hL) (fun _ _ => ?_) ?_
    · refine pairWrite_fr (partsIn_sub (by decide) hL) ?_
      assumption
    · assumption
  · refine anyWrite_fr (partsIn_sub (by decide) hL) ?_
    refine anyWrite_fr (partsIn_sub (by decide) hL) ?_
    assumption

theorem wordsWrite_fr {L : List Part} {org : Mach} {p off ws m} (hL : [.g, .msix, .aon, .clk, .boot, .bytes, .mem, .mgt, .log, .time, .job, .imp, .beams, .mpl, .hmap, .cells, .sig, .lanes, .heads, .stg, .ilk, .hlt, .keep, .ev .glb, .ev .dma, .ev .boot, .ev .job, .ev .imp, .ev .beam, .ev .mpl, .ev .hmap, .ev .sig, .ev .cell, .ev .cellArr, .ev .lane, .ev .stg, .ev .ilk, .ev .time, .ev .mem, .ev .clk, .ev .pwr, .ev .hlt, .ev .mgt, .regs, .outs, .free] ⊆ L) (h_m : Frame L org m) :
    Frame L org (wordsWrite p off ws m) := by
  induction ws generalizing off m with
  | nil => exact h_m
  | cons v t ih => exact ih (anyWrite_fr (partsIn_sub (by decide) hL) h_m)

theorem longWrite_fr {L : List Part} {org : Mach} {p off v more m} (hL : [.g, .msix, .aon, .clk, .boot, .bytes, .mem, .mgt, .log, .time, .job, .imp, .beams, .mpl, .hmap, .cells, .sig, .lanes, .heads, .stg, .ilk, .hlt, .keep, .ev .glb, .ev .dma, .ev .boot, .ev .job, .ev .imp, .ev .beam, .ev .mpl, .ev .hmap, .ev .sig, .ev .cell, .ev .cellArr, .ev .lane, .ev .stg, .ev .ilk, .ev .time, .ev .mem, .ev .clk, .ev .pwr, .ev .hlt, .ev .mgt, .regs, .outs, .free] ⊆ L) (h_m : Frame L org m) :
    Frame L org (longWrite p off v more m) := by
  delta longWrite
  refine Frame.ite ?_ ?_
  · refine pairLongWrite_fr (partsIn_sub (by decide) hL) ?_
    assumption
  · refine wordsWrite_fr (partsIn_sub (by decide) hL) ?_
    assumption

theorem pairBothRead_fr {L : List Part} {org : Mach} {p off m} (hL : [.g, .msix, .outs] ⊆ L) (h_m : Frame L org m) :
    Frame L org (pairBothRead p off m) := by
  delta pairBothRead
  refine whenM_fr (fun _ _ => ?_) ?_
  · refine onPort_fr (partsIn_sub (by decide) hL) ?_
    assumption
  · refine emit_fr (partsIn_sub (by decide) hL) ?_
    refine emit_fr (partsIn_sub (by decide) hL) ?_
    assumption

theorem anyRead_fr {L : List Part} {org : Mach} {p off z2} (hL : [.g, .msix, .log, .ev .glb, .ev .mgt, .outs] ⊆ L) (h_z2 : Frame L org z2) :
    Frame L org (anyRead p off z2) := by
  delta anyRead
  refine readGate_fr (partsIn_sub (by decide) hL) (fun _ _ => ?_) ?_
  · split
    · refine pairHighRead_fr (partsIn_sub (by decide) hL) ?_
      assumption
    · refine pairLowRead_fr (partsIn_sub (by decide) hL) ?_
      assumption
  · assumption

theorem longRead_fr {L : List Part} {org : Mach} {p off long m} (hL : [.g, .msix, .log, .ev .glb, .ev .mgt, .outs] ⊆ L) (h_m : Frame L org m) :
    Frame L org (longRead p off long m) := by
  delta longRead
  refine Frame.ite ?_ ?_
  · refine readGate_fr (partsIn_sub (by decide) hL) (fun _ _ => ?_) ?_
    · refine pairBothRead_fr (partsIn_sub (by decide) hL) ?_
      assumption
    · assumption
  · refine eachM_fr (fun _ _ _ => ?_) ?_
    · refine anyRead_fr (partsIn_sub (by decide) hL) ?_
      assumption
    · assumption

theorem telemetry_fr {L : List Part} {org : Mach} {m} (hL : [.outs] ⊆ L) (h_m : Frame L org m) :
    Frame L org (telemetry m) := by
  delta telemetry
  refine Frame.ite ?_ ?_
  · refine emit_fr (partsIn_sub (by decide) hL) ?_
    assumption
  · assumption

theorem ainConvert_fr {L : List Part} {org : Mach} {i raw ref m} (hL : [.sig] ⊆ L) (h_m : Frame L org m) :
    Frame L org (ainConvert i raw ref m) := by
  delta ainConvert
  refine Frame.ite ?_ ?_
  · assumption
  · refine sigWrite_fr (partsIn_sub (by decide) hL) ?_
    assumption

theorem gpioSample_fr {L : List Part} {org : Mach} {levels m} (hL : [.sig] ⊆ L) (h_m : Frame L org m) :
    Frame L org (gpioSample levels m) := by
  delta gpioSample
  refine Frame.ite ?_ ?_
  · assumption
  · refine eachM_fr (fun _ _ _ => ?_) ?_
    · refine sigWrite_fr (partsIn_sub (by decide) hL) ?_
      assumption
    · assumption

theorem execRecCommit_fr {L : List Part} {org : Mach} {p v s} (hL : [.g, .msix, .clk, .boot, .bytes, .mem, .log, .job, .imp, .beams, .cells, .sig, .ev .glb, .ev .boot, .ev .job, .ev .imp, .ev .mgt, .outs] ⊆ L) (h_s : Frame L org s.m) :
    OutFrame L org (execRecCommit p v s) := by
  delta execRecCommit
  refine act_fr (fun _ _ => ?_) h_s
  refine writeGate_fr (partsIn_sub (by decide) hL) (fun _ _ => ?_) ?_
  · refine commitWrite_fr (partsIn_sub (by decide) hL) ?_
    assumption
  · assumption

theorem execRecordTake_fr {L : List Part} {org : Mach} {id s} (hL : [.g, .msix, .clk, .boot, .bytes, .mem, .log, .job, .imp, .beams, .cells, .sig, .ev .job, .ev .imp, .ev .mgt, .outs] ⊆ L) (h_s : Frame L org s.m) :
    OutFrame L org (execRecordTake id s) := by
  delta execRecordTake
  refine act_fr (fun _ _ => ?_) h_s
  refine takeNow_fr (partsIn_sub (by decide) hL) ?_
  assumption

theorem execRegisterWrite_fr {L : List Part} {org : Mach} {p off v be env s} (hL : [.g, .msix, .aon, .clk, .boot, .bytes, .mem, .mgt, .log, .time, .job, .imp, .beams, .mpl, .hmap, .cells, .sig, .lanes, .heads, .stg, .ilk, .hlt, .keep, .ev .glb, .ev .dma, .ev .boot, .ev .job, .ev .imp, .ev .beam, .ev .mpl, .ev .hmap, .ev .sig, .ev .cell, .ev .cellArr, .ev .lane, .ev .stg, .ev .ilk, .ev .time, .ev .mem, .ev .clk, .ev .pwr, .ev .hlt, .ev .mgt, .regs, .outs, .free] ⊆ L) (h_s : Frame L org s.m) :
    OutFrame L org (execRegisterWrite p off v be s env) := by
  delta execRegisterWrite
  refine act_fr (fun _ _ => ?_) h_s
  refine withEnv_fr (fun _ _ => ?_) ?_
  · replace hL := env_sub hL
    refine anyWrite_fr (partsIn_sub (by decide) hL) ?_
    assumption
  · assumption

theorem execSqcClearWrite_fr {L : List Part} {org : Mach} {p e v s} (hL : [.g, .msix, .mem, .log, .beams, .ev .glb, .ev .dma, .ev .boot, .ev .job, .ev .imp, .ev .beam, .ev .mpl, .ev .hmap, .ev .sig, .ev .cell, .ev .cellArr, .ev .lane, .ev .stg, .ev .ilk, .ev .time, .ev .mem, .ev .clk, .ev .pwr, .ev .hlt, .ev .mgt, .regs, .outs] ⊆ L) (h_s : Frame L org s.m) :
    OutFrame L org (execSqcClearWrite p e v s) := by
  delta execSqcClearWrite
  refine act_fr (fun _ _ => ?_) h_s
  refine writeGate_fr (partsIn_sub (by decide) hL) (fun _ _ => ?_) ?_
  · refine sqcWrite_fr (partsIn_sub (by decide) hL) ?_
    assumption
  · assumption

theorem execLockFieldWrite_fr {L : List Part} {org : Mach} {p off v s} (hL : [.g, .msix, .log, .hlt, .ev .glb, .ev .dma, .ev .boot, .ev .job, .ev .imp, .ev .beam, .ev .mpl, .ev .hmap, .ev .sig, .ev .cell, .ev .cellArr, .ev .lane, .ev .stg, .ev .ilk, .ev .time, .ev .mem, .ev .clk, .ev .pwr, .ev .hlt, .ev .mgt, .regs, .outs] ⊆ L) (h_s : Frame L org s.m) :
    OutFrame L org (execLockFieldWrite p off v s) := by
  delta execLockFieldWrite
  refine act_fr (fun _ _ => ?_) h_s
  refine writeGate_fr (partsIn_sub (by decide) hL) (fun _ _ => ?_) ?_
  · refine lockWrite_fr (partsIn_sub (by decide) hL) ?_
    assumption
  · assumption

theorem execPairLowRead_fr {L : List Part} {org : Mach} {p off long s} (hL : [.g, .msix, .log, .ev .glb, .ev .mgt, .outs] ⊆ L) (h_s : Frame L org s.m) :
    OutFrame L org (execPairLowRead p off s long) := by
  delta execPairLowRead
  refine act_fr (fun _ _ => ?_) h_s
  refine longRead_fr (partsIn_sub (by decide) hL) ?_
  assumption

theorem execPairHighRead_fr {L : List Part} {org : Mach} {p off s} (hL : [.g, .msix, .log, .ev .glb, .ev .mgt, .outs] ⊆ L) (h_s : Frame L org s.m) :
    OutFrame L org (execPairHighRead p off s) := by
  delta execPairHighRead
  refine act_fr (fun _ _ => ?_) h_s
  refine readGate_fr (partsIn_sub (by decide) hL) (fun _ _ => ?_) ?_
  · refine pairHighRead_fr (partsIn_sub (by decide) hL) ?_
    assumption
  · assumption

theorem execPairLowWrite_fr {L : List Part} {org : Mach} {p off v s} (hL : [.g, .msix, .log, .ev .glb, .ev .mgt, .outs] ⊆ L) (h_s : Frame L org s.m) :
    OutFrame L org (execPairLowWrite p off v s) := by
  delta execPairLowWrite
  refine act_fr (fun _ _ => ?_) h_s
  refine pairLowWrite_fr (partsIn_sub (by decide) hL) ?_
  assumption

theorem execPairHighWrite_fr {L : List Part} {org : Mach} {p off v s} (hL : [.g, .msix, .aon, .boot, .log, .job, .ev .glb, .ev .mgt, .outs] ⊆ L) (h_s : Frame L org s.m) :
    OutFrame L org (execPairHighWrite p off v s) := by
  delta execPairHighWrite
  refine act_fr (fun _ _ => ?_) h_s
  refine pairHighWrite_fr (partsIn_sub (by decide) hL) ?_
  assumption

theorem execPair64bitWrite_fr {L : List Part} {org : Mach} {p off v more env s} (hL : [.g, .msix, .aon, .clk, .boot, .bytes, .mem, .mgt, .log, .time, .job, .imp, .beams, .mpl, .hmap, .cells, .sig, .lanes, .heads, .stg, .ilk, .hlt, .keep, .ev .glb, .ev .dma, .ev .boot, .ev .job, .ev .imp, .ev .beam, .ev .mpl, .ev .hmap, .ev .sig, .ev .cell, .ev .cellArr, .ev .lane, .ev .stg, .ev .ilk, .ev .time, .ev .mem, .ev .clk, .ev .pwr, .ev .hlt, .ev .mgt, .regs, .outs, .free] ⊆ L) (h_s : Frame L org s.m) :
    OutFrame L org (execPair64bitWrite p off v s more env) := by
  delta execPair64bitWrite
  refine act_fr (fun _ _ => ?_) h_s
  refine withEnv_fr (fun _ _ => ?_) ?_
  · replace hL := env_sub hL
    refine longWrite_fr (partsIn_sub (by decide) hL) ?_
    assumption
  · assumption

theorem execTelemetrySend_fr {L : List Part} {org : Mach} {s} (hL : [.outs] ⊆ L) (h_s : Frame L org s.m) :
    OutFrame L org (execTelemetrySend s) := by
  delta execTelemetrySend
  refine act_fr (fun _ _ => ?_) h_s
  refine telemetry_fr (partsIn_sub (by decide) hL) ?_
  assumption

theorem execAinConversion_fr {L : List Part} {org : Mach} {i raw ref s} (hL : [.sig] ⊆ L) (h_s : Frame L org s.m) :
    OutFrame L org (execAinConversion i raw ref s) := by
  delta execAinConversion
  refine act_fr (fun _ _ => ?_) h_s
  refine ainConvert_fr (partsIn_sub (by decide) hL) ?_
  assumption

theorem execGpioSample_fr {L : List Part} {org : Mach} {levels s} (hL : [.sig] ⊆ L) (h_s : Frame L org s.m) :
    OutFrame L org (execGpioSample levels s) := by
  delta execGpioSample
  refine act_fr (fun _ _ => ?_) h_s
  refine gpioSample_fr (partsIn_sub (by decide) hL) ?_
  assumption

end Sys2Proof.Machine
end

