-- ==== Sys2Proof/Laws/Frame/Tick.lean ====
section
/-!
SUPPORT. The parts of the device that the operations of Machine/Tick.lean can touch: one lemma per operation.
-/

namespace Sys2Proof.Machine

theorem tick_fr {L : List Part} {org : Mach} {m} (hL : [.aon, .time] ⊆ L) (h_m : Frame L org m) :
    Frame L org (tick m) := by
  delta tick
  refine Frame.upd ?_ (.inr rfl) (.inr rfl) (.inr rfl) (.inr rfl) (.inr rfl) (.inl (hL (by decide))) (.inr rfl) (.inr rfl) (.inr rfl) (.inr rfl) (.inr rfl) (.inr rfl) (.inl (hL (by decide))) (.inr rfl) (.inr rfl) (.inr rfl) (.inr rfl) (.inr rfl) (.inr rfl) (.inr rfl) (.inr rfl) (.inr rfl) (.inr rfl) (.inr rfl) (.inr rfl) (.inr rfl) rfl
  assumption

end Sys2Proof.Machine
end

