-- ==== Sys2Proof/Laws/Keep.lean ====
section
/-!
SUPPORT. What the shared operations leave alone, part by part.
-/

namespace Sys2Proof.Machine

theorem dev_of_bare {a b : Glob} (h : a.bare = b.bare) : a.dev = b.dev :=
  (congrArg Glob.dev h : a.bare.dev = b.bare.dev)

@[simp] theorem msixSend_aon {v} {m : Mach} : (msixSend v m).aon = m.aon :=
  msixSend_fr (List.Subset.refl _) (Frame.refl _ _) .aon (by simp)

@[simp] theorem msixSend_clk {v} {m : Mach} : (msixSend v m).clk = m.clk :=
  msixSend_fr (List.Subset.refl _) (Frame.refl _ _) .clk (by simp)

@[simp] theorem msixSend_boot {v} {m : Mach} : (msixSend v m).boot = m.boot :=
  msixSend_fr (List.Subset.refl _) (Frame.refl _ _) .boot (by simp)

@[simp] theorem msixSend_time {v} {m : Mach} : (msixSend v m).time = m.time :=
  msixSend_fr (List.Subset.refl _) (Frame.refl _ _) .time (by simp)

@[simp] theorem msixSend_job {v} {m : Mach} : (msixSend v m).job = m.job :=
  msixSend_fr (List.Subset.refl _) (Frame.refl _ _) .job (by simp)

@[simp] theorem msixSend_imp {v} {m : Mach} : (msixSend v m).imp = m.imp :=
  msixSend_fr (List.Subset.refl _) (Frame.refl _ _) .imp (by simp)

@[simp] theorem msixSend_beams {v} {m : Mach} : (msixSend v m).beams = m.beams :=
  msixSend_fr (List.Subset.refl _) (Frame.refl _ _) .beams (by simp)

@[simp] theorem msixSend_mpl {v} {m : Mach} : (msixSend v m).mpl = m.mpl :=
  msixSend_fr (List.Subset.refl _) (Frame.refl _ _) .mpl (by simp)

@[simp] theorem msixSend_hmap {v} {m : Mach} : (msixSend v m).hmap = m.hmap :=
  msixSend_fr (List.Subset.refl _) (Frame.refl _ _) .hmap (by simp)

@[simp] theorem msixSend_cells {v} {m : Mach} : (msixSend v m).cells = m.cells :=
  msixSend_fr (List.Subset.refl _) (Frame.refl _ _) .cells (by simp)

@[simp] theorem msixSend_sig {v} {m : Mach} : (msixSend v m).sig = m.sig :=
  msixSend_fr (List.Subset.refl _) (Frame.refl _ _) .sig (by simp)

@[simp] theorem msixSend_lanes {v} {m : Mach} : (msixSend v m).lanes = m.lanes :=
  msixSend_fr (List.Subset.refl _) (Frame.refl _ _) .lanes (by simp)

@[simp] theorem msixSend_heads {v} {m : Mach} : (msixSend v m).heads = m.heads :=
  msixSend_fr (List.Subset.refl _) (Frame.refl _ _) .heads (by simp)

@[simp] theorem msixSend_stg {v} {m : Mach} : (msixSend v m).stg = m.stg :=
  msixSend_fr (List.Subset.refl _) (Frame.refl _ _) .stg (by simp)

@[simp] theorem msixSend_ilk {v} {m : Mach} : (msixSend v m).ilk = m.ilk :=
  msixSend_fr (List.Subset.refl _) (Frame.refl _ _) .ilk (by simp)

@[simp] theorem msixSend_hlt {v} {m : Mach} : (msixSend v m).hlt = m.hlt :=
  msixSend_fr (List.Subset.refl _) (Frame.refl _ _) .hlt (by simp)

@[simp] theorem msixSend_keep {v} {m : Mach} : (msixSend v m).keep = m.keep :=
  msixSend_fr (List.Subset.refl _) (Frame.refl _ _) .keep (by simp)

@[simp] theorem msixSend_free {v} {m : Mach} : (msixSend v m).free = m.free :=
  msixSend_fr (List.Subset.refl _) (Frame.refl _ _) .free (by simp)

@[simp] theorem msixSend_env {v} {m : Mach} : (msixSend v m).env = m.env :=
  msixSend_fr (List.Subset.refl _) (Frame.refl _ _) .env (by simp)

@[simp] theorem msixSend_dev {v} {m : Mach} : (msixSend v m).g.dev = m.g.dev :=
  dev_of_bare (msixSend_fr (List.Subset.refl _) (Frame.refl _ _) .g (by simp))

@[simp] theorem msixSend_bytes {v} {m : Mach} : (msixSend v m).mem.cells = m.mem.cells :=
  msixSend_fr (List.Subset.refl _) (Frame.refl _ _) .bytes (by simp)

@[simp] theorem msixOccur_aon {v} {m : Mach} : (msixOccur v m).aon = m.aon :=
  msixOccur_fr (List.Subset.refl _) (Frame.refl _ _) .aon (by simp)

@[simp] theorem msixOccur_clk {v} {m : Mach} : (msixOccur v m).clk = m.clk :=
  msixOccur_fr (List.Subset.refl _) (Frame.refl _ _) .clk (by simp)

@[simp] theorem msixOccur_boot {v} {m : Mach} : (msixOccur v m).boot = m.boot :=
  msixOccur_fr (List.Subset.refl _) (Frame.refl _ _) .boot (by simp)

@[simp] theorem msixOccur_time {v} {m : Mach} : (msixOccur v m).time = m.time :=
  msixOccur_fr (List.Subset.refl _) (Frame.refl _ _) .time (by simp)

@[simp] theorem msixOccur_job {v} {m : Mach} : (msixOccur v m).job = m.job :=
  msixOccur_fr (List.Subset.refl _) (Frame.refl _ _) .job (by simp)

@[simp] theorem msixOccur_imp {v} {m : Mach} : (msixOccur v m).imp = m.imp :=
  msixOccur_fr (List.Subset.refl _) (Frame.refl _ _) .imp (by simp)

@[simp] theorem msixOccur_beams {v} {m : Mach} : (msixOccur v m).beams = m.beams :=
  msixOccur_fr (List.Subset.refl _) (Frame.refl _ _) .beams (by simp)

@[simp] theorem msixOccur_mpl {v} {m : Mach} : (msixOccur v m).mpl = m.mpl :=
  msixOccur_fr (List.Subset.refl _) (Frame.refl _ _) .mpl (by simp)

@[simp] theorem msixOccur_hmap {v} {m : Mach} : (msixOccur v m).hmap = m.hmap :=
  msixOccur_fr (List.Subset.refl _) (Frame.refl _ _) .hmap (by simp)

@[simp] theorem msixOccur_cells {v} {m : Mach} : (msixOccur v m).cells = m.cells :=
  msixOccur_fr (List.Subset.refl _) (Frame.refl _ _) .cells (by simp)

@[simp] theorem msixOccur_sig {v} {m : Mach} : (msixOccur v m).sig = m.sig :=
  msixOccur_fr (List.Subset.refl _) (Frame.refl _ _) .sig (by simp)

@[simp] theorem msixOccur_lanes {v} {m : Mach} : (msixOccur v m).lanes = m.lanes :=
  msixOccur_fr (List.Subset.refl _) (Frame.refl _ _) .lanes (by simp)

@[simp] theorem msixOccur_heads {v} {m : Mach} : (msixOccur v m).heads = m.heads :=
  msixOccur_fr (List.Subset.refl _) (Frame.refl _ _) .heads (by simp)

@[simp] theorem msixOccur_stg {v} {m : Mach} : (msixOccur v m).stg = m.stg :=
  msixOccur_fr (List.Subset.refl _) (Frame.refl _ _) .stg (by simp)

@[simp] theorem msixOccur_ilk {v} {m : Mach} : (msixOccur v m).ilk = m.ilk :=
  msixOccur_fr (List.Subset.refl _) (Frame.refl _ _) .ilk (by simp)

@[simp] theorem msixOccur_hlt {v} {m : Mach} : (msixOccur v m).hlt = m.hlt :=
  msixOccur_fr (List.Subset.refl _) (Frame.refl _ _) .hlt (by simp)

@[simp] theorem msixOccur_keep {v} {m : Mach} : (msixOccur v m).keep = m.keep :=
  msixOccur_fr (List.Subset.refl _) (Frame.refl _ _) .keep (by simp)

@[simp] theorem msixOccur_free {v} {m : Mach} : (msixOccur v m).free = m.free :=
  msixOccur_fr (List.Subset.refl _) (Frame.refl _ _) .free (by simp)

@[simp] theorem msixOccur_env {v} {m : Mach} : (msixOccur v m).env = m.env :=
  msixOccur_fr (List.Subset.refl _) (Frame.refl _ _) .env (by simp)

@[simp] theorem msixOccur_dev {v} {m : Mach} : (msixOccur v m).g.dev = m.g.dev :=
  dev_of_bare (msixOccur_fr (List.Subset.refl _) (Frame.refl _ _) .g (by simp))

@[simp] theorem msixOccur_bytes {v} {m : Mach} : (msixOccur v m).mem.cells = m.mem.cells :=
  msixOccur_fr (List.Subset.refl _) (Frame.refl _ _) .bytes (by simp)

@[simp] theorem raise_aon {e} {bit} {m : Mach} : (raise e bit m).aon = m.aon :=
  raise_fr (List.Subset.refl _) (Frame.refl _ _) .aon (by simp)

@[simp] theorem raise_clk {e} {bit} {m : Mach} : (raise e bit m).clk = m.clk :=
  raise_fr (List.Subset.refl _) (Frame.refl _ _) .clk (by simp)

@[simp] theorem raise_boot {e} {bit} {m : Mach} : (raise e bit m).boot = m.boot :=
  raise_fr (List.Subset.refl _) (Frame.refl _ _) .boot (by simp)

@[simp] theorem raise_time {e} {bit} {m : Mach} : (raise e bit m).time = m.time :=
  raise_fr (List.Subset.refl _) (Frame.refl _ _) .time (by simp)

@[simp] theorem raise_job {e} {bit} {m : Mach} : (raise e bit m).job = m.job :=
  raise_fr (List.Subset.refl _) (Frame.refl _ _) .job (by simp)

@[simp] theorem raise_imp {e} {bit} {m : Mach} : (raise e bit m).imp = m.imp :=
  raise_fr (List.Subset.refl _) (Frame.refl _ _) .imp (by simp)

@[simp] theorem raise_beams {e} {bit} {m : Mach} : (raise e bit m).beams = m.beams :=
  raise_fr (List.Subset.refl _) (Frame.refl _ _) .beams (by simp)

@[simp] theorem raise_mpl {e} {bit} {m : Mach} : (raise e bit m).mpl = m.mpl :=
  raise_fr (List.Subset.refl _) (Frame.refl _ _) .mpl (by simp)

@[simp] theorem raise_hmap {e} {bit} {m : Mach} : (raise e bit m).hmap = m.hmap :=
  raise_fr (List.Subset.refl _) (Frame.refl _ _) .hmap (by simp)

@[simp] theorem raise_cells {e} {bit} {m : Mach} : (raise e bit m).cells = m.cells :=
  raise_fr (List.Subset.refl _) (Frame.refl _ _) .cells (by simp)

@[simp] theorem raise_sig {e} {bit} {m : Mach} : (raise e bit m).sig = m.sig :=
  raise_fr (List.Subset.refl _) (Frame.refl _ _) .sig (by simp)

@[simp] theorem raise_lanes {e} {bit} {m : Mach} : (raise e bit m).lanes = m.lanes :=
  raise_fr (List.Subset.refl _) (Frame.refl _ _) .lanes (by simp)

@[simp] theorem raise_heads {e} {bit} {m : Mach} : (raise e bit m).heads = m.heads :=
  raise_fr (List.Subset.refl _) (Frame.refl _ _) .heads (by simp)

@[simp] theorem raise_stg {e} {bit} {m : Mach} : (raise e bit m).stg = m.stg :=
  raise_fr (List.Subset.refl _) (Frame.refl _ _) .stg (by simp)

@[simp] theorem raise_ilk {e} {bit} {m : Mach} : (raise e bit m).ilk = m.ilk :=
  raise_fr (List.Subset.refl _) (Frame.refl _ _) .ilk (by simp)

@[simp] theorem raise_hlt {e} {bit} {m : Mach} : (raise e bit m).hlt = m.hlt :=
  raise_fr (List.Subset.refl _) (Frame.refl _ _) .hlt (by simp)

@[simp] theorem raise_keep {e} {bit} {m : Mach} : (raise e bit m).keep = m.keep :=
  raise_fr (List.Subset.refl _) (Frame.refl _ _) .keep (by simp)

@[simp] theorem raise_free {e} {bit} {m : Mach} : (raise e bit m).free = m.free :=
  raise_fr (List.Subset.refl _) (Frame.refl _ _) .free (by simp)

@[simp] theorem raise_env {e} {bit} {m : Mach} : (raise e bit m).env = m.env :=
  raise_fr (List.Subset.refl _) (Frame.refl _ _) .env (by simp)

@[simp] theorem raise_dev {e} {bit} {m : Mach} : (raise e bit m).g.dev = m.g.dev :=
  dev_of_bare (raise_fr (List.Subset.refl _) (Frame.refl _ _) .g (by simp))

@[simp] theorem raise_bytes {e} {bit} {m : Mach} : (raise e bit m).mem.cells = m.mem.cells :=
  raise_fr (List.Subset.refl _) (Frame.refl _ _) .bytes (by simp)

@[simp] theorem refuse_aon {e} {bit} {m : Mach} : (refuse e bit m).aon = m.aon :=
  refuse_fr (List.Subset.refl _) (Frame.refl _ _) .aon (by simp)

@[simp] theorem refuse_clk {e} {bit} {m : Mach} : (refuse e bit m).clk = m.clk :=
  refuse_fr (List.Subset.refl _) (Frame.refl _ _) .clk (by simp)

@[simp] theorem refuse_boot {e} {bit} {m : Mach} : (refuse e bit m).boot = m.boot :=
  refuse_fr (List.Subset.refl _) (Frame.refl _ _) .boot (by simp)

@[simp] theorem refuse_time {e} {bit} {m : Mach} : (refuse e bit m).time = m.time :=
  refuse_fr (List.Subset.refl _) (Frame.refl _ _) .time (by simp)

@[simp] theorem refuse_job {e} {bit} {m : Mach} : (refuse e bit m).job = m.job :=
  refuse_fr (List.Subset.refl _) (Frame.refl _ _) .job (by simp)

@[simp] theorem refuse_imp {e} {bit} {m : Mach} : (refuse e bit m).imp = m.imp :=
  refuse_fr (List.Subset.refl _) (Frame.refl _ _) .imp (by simp)

@[simp] theorem refuse_beams {e} {bit} {m : Mach} : (refuse e bit m).beams = m.beams :=
  refuse_fr (List.Subset.refl _) (Frame.refl _ _) .beams (by simp)

@[simp] theorem refuse_mpl {e} {bit} {m : Mach} : (refuse e bit m).mpl = m.mpl :=
  refuse_fr (List.Subset.refl _) (Frame.refl _ _) .mpl (by simp)

@[simp] theorem refuse_hmap {e} {bit} {m : Mach} : (refuse e bit m).hmap = m.hmap :=
  refuse_fr (List.Subset.refl _) (Frame.refl _ _) .hmap (by simp)

@[simp] theorem refuse_cells {e} {bit} {m : Mach} : (refuse e bit m).cells = m.cells :=
  refuse_fr (List.Subset.refl _) (Frame.refl _ _) .cells (by simp)

@[simp] theorem refuse_sig {e} {bit} {m : Mach} : (refuse e bit m).sig = m.sig :=
  refuse_fr (List.Subset.refl _) (Frame.refl _ _) .sig (by simp)

@[simp] theorem refuse_lanes {e} {bit} {m : Mach} : (refuse e bit m).lanes = m.lanes :=
  refuse_fr (List.Subset.refl _) (Frame.refl _ _) .lanes (by simp)

@[simp] theorem refuse_heads {e} {bit} {m : Mach} : (refuse e bit m).heads = m.heads :=
  refuse_fr (List.Subset.refl _) (Frame.refl _ _) .heads (by simp)

@[simp] theorem refuse_stg {e} {bit} {m : Mach} : (refuse e bit m).stg = m.stg :=
  refuse_fr (List.Subset.refl _) (Frame.refl _ _) .stg (by simp)

@[simp] theorem refuse_ilk {e} {bit} {m : Mach} : (refuse e bit m).ilk = m.ilk :=
  refuse_fr (List.Subset.refl _) (Frame.refl _ _) .ilk (by simp)

@[simp] theorem refuse_hlt {e} {bit} {m : Mach} : (refuse e bit m).hlt = m.hlt :=
  refuse_fr (List.Subset.refl _) (Frame.refl _ _) .hlt (by simp)

@[simp] theorem refuse_keep {e} {bit} {m : Mach} : (refuse e bit m).keep = m.keep :=
  refuse_fr (List.Subset.refl _) (Frame.refl _ _) .keep (by simp)

@[simp] theorem refuse_free {e} {bit} {m : Mach} : (refuse e bit m).free = m.free :=
  refuse_fr (List.Subset.refl _) (Frame.refl _ _) .free (by simp)

@[simp] theorem refuse_env {e} {bit} {m : Mach} : (refuse e bit m).env = m.env :=
  refuse_fr (List.Subset.refl _) (Frame.refl _ _) .env (by simp)

@[simp] theorem refuse_dev {e} {bit} {m : Mach} : (refuse e bit m).g.dev = m.g.dev :=
  dev_of_bare (refuse_fr (List.Subset.refl _) (Frame.refl _ _) .g (by simp))

@[simp] theorem refuse_bytes {e} {bit} {m : Mach} : (refuse e bit m).mem.cells = m.mem.cells :=
  refuse_fr (List.Subset.refl _) (Frame.refl _ _) .bytes (by simp)

@[simp] theorem cmdError_aon {m : Mach} : (cmdError m).aon = m.aon :=
  cmdError_fr (List.Subset.refl _) (Frame.refl _ _) .aon (by simp)

@[simp] theorem cmdError_clk {m : Mach} : (cmdError m).clk = m.clk :=
  cmdError_fr (List.Subset.refl _) (Frame.refl _ _) .clk (by simp)

@[simp] theorem cmdError_boot {m : Mach} : (cmdError m).boot = m.boot :=
  cmdError_fr (List.Subset.refl _) (Frame.refl _ _) .boot (by simp)

@[simp] theorem cmdError_time {m : Mach} : (cmdError m).time = m.time :=
  cmdError_fr (List.Subset.refl _) (Frame.refl _ _) .time (by simp)

@[simp] theorem cmdError_job {m : Mach} : (cmdError m).job = m.job :=
  cmdError_fr (List.Subset.refl _) (Frame.refl _ _) .job (by simp)

@[simp] theorem cmdError_imp {m : Mach} : (cmdError m).imp = m.imp :=
  cmdError_fr (List.Subset.refl _) (Frame.refl _ _) .imp (by simp)

@[simp] theorem cmdError_beams {m : Mach} : (cmdError m).beams = m.beams :=
  cmdError_fr (List.Subset.refl _) (Frame.refl _ _) .beams (by simp)

@[simp] theorem cmdError_mpl {m : Mach} : (cmdError m).mpl = m.mpl :=
  cmdError_fr (List.Subset.refl _) (Frame.refl _ _) .mpl (by simp)

@[simp] theorem cmdError_hmap {m : Mach} : (cmdError m).hmap = m.hmap :=
  cmdError_fr (List.Subset.refl _) (Frame.refl _ _) .hmap (by simp)

@[simp] theorem cmdError_cells {m : Mach} : (cmdError m).cells = m.cells :=
  cmdError_fr (List.Subset.refl _) (Frame.refl _ _) .cells (by simp)

@[simp] theorem cmdError_sig {m : Mach} : (cmdError m).sig = m.sig :=
  cmdError_fr (List.Subset.refl _) (Frame.refl _ _) .sig (by simp)

@[simp] theorem cmdError_lanes {m : Mach} : (cmdError m).lanes = m.lanes :=
  cmdError_fr (List.Subset.refl _) (Frame.refl _ _) .lanes (by simp)

@[simp] theorem cmdError_heads {m : Mach} : (cmdError m).heads = m.heads :=
  cmdError_fr (List.Subset.refl _) (Frame.refl _ _) .heads (by simp)

@[simp] theorem cmdError_stg {m : Mach} : (cmdError m).stg = m.stg :=
  cmdError_fr (List.Subset.refl _) (Frame.refl _ _) .stg (by simp)

@[simp] theorem cmdError_ilk {m : Mach} : (cmdError m).ilk = m.ilk :=
  cmdError_fr (List.Subset.refl _) (Frame.refl _ _) .ilk (by simp)

@[simp] theorem cmdError_hlt {m : Mach} : (cmdError m).hlt = m.hlt :=
  cmdError_fr (List.Subset.refl _) (Frame.refl _ _) .hlt (by simp)

@[simp] theorem cmdError_keep {m : Mach} : (cmdError m).keep = m.keep :=
  cmdError_fr (List.Subset.refl _) (Frame.refl _ _) .keep (by simp)

@[simp] theorem cmdError_free {m : Mach} : (cmdError m).free = m.free :=
  cmdError_fr (List.Subset.refl _) (Frame.refl _ _) .free (by simp)

@[simp] theorem cmdError_env {m : Mach} : (cmdError m).env = m.env :=
  cmdError_fr (List.Subset.refl _) (Frame.refl _ _) .env (by simp)

@[simp] theorem cmdError_dev {m : Mach} : (cmdError m).g.dev = m.g.dev :=
  dev_of_bare (cmdError_fr (List.Subset.refl _) (Frame.refl _ _) .g (by simp))

@[simp] theorem cmdError_bytes {m : Mach} : (cmdError m).mem.cells = m.mem.cells :=
  cmdError_fr (List.Subset.refl _) (Frame.refl _ _) .bytes (by simp)

@[simp] theorem logAt_aon {t} {code} {sev} {unit} {arg} {m : Mach} : (logAt t code sev unit arg m).aon = m.aon :=
  logAt_fr (List.Subset.refl _) (Frame.refl _ _) .aon (by simp)

@[simp] theorem logAt_clk {t} {code} {sev} {unit} {arg} {m : Mach} : (logAt t code sev unit arg m).clk = m.clk :=
  logAt_fr (List.Subset.refl _) (Frame.refl _ _) .clk (by simp)

@[simp] theorem logAt_boot {t} {code} {sev} {unit} {arg} {m : Mach} : (logAt t code sev unit arg m).boot = m.boot :=
  logAt_fr (List.Subset.refl _) (Frame.refl _ _) .boot (by simp)

@[simp] theorem logAt_time {t} {code} {sev} {unit} {arg} {m : Mach} : (logAt t code sev unit arg m).time = m.time :=
  logAt_fr (List.Subset.refl _) (Frame.refl _ _) .time (by simp)

@[simp] theorem logAt_job {t} {code} {sev} {unit} {arg} {m : Mach} : (logAt t code sev unit arg m).job = m.job :=
  logAt_fr (List.Subset.refl _) (Frame.refl _ _) .job (by simp)

@[simp] theorem logAt_imp {t} {code} {sev} {unit} {arg} {m : Mach} : (logAt t code sev unit arg m).imp = m.imp :=
  logAt_fr (List.Subset.refl _) (Frame.refl _ _) .imp (by simp)

@[simp] theorem logAt_beams {t} {code} {sev} {unit} {arg} {m : Mach} : (logAt t code sev unit arg m).beams = m.beams :=
  logAt_fr (List.Subset.refl _) (Frame.refl _ _) .beams (by simp)

@[simp] theorem logAt_mpl {t} {code} {sev} {unit} {arg} {m : Mach} : (logAt t code sev unit arg m).mpl = m.mpl :=
  logAt_fr (List.Subset.refl _) (Frame.refl _ _) .mpl (by simp)

@[simp] theorem logAt_hmap {t} {code} {sev} {unit} {arg} {m : Mach} : (logAt t code sev unit arg m).hmap = m.hmap :=
  logAt_fr (List.Subset.refl _) (Frame.refl _ _) .hmap (by simp)

@[simp] theorem logAt_cells {t} {code} {sev} {unit} {arg} {m : Mach} : (logAt t code sev unit arg m).cells = m.cells :=
  logAt_fr (List.Subset.refl _) (Frame.refl _ _) .cells (by simp)

@[simp] theorem logAt_sig {t} {code} {sev} {unit} {arg} {m : Mach} : (logAt t code sev unit arg m).sig = m.sig :=
  logAt_fr (List.Subset.refl _) (Frame.refl _ _) .sig (by simp)

@[simp] theorem logAt_lanes {t} {code} {sev} {unit} {arg} {m : Mach} : (logAt t code sev unit arg m).lanes = m.lanes :=
  logAt_fr (List.Subset.refl _) (Frame.refl _ _) .lanes (by simp)

@[simp] theorem logAt_heads {t} {code} {sev} {unit} {arg} {m : Mach} : (logAt t code sev unit arg m).heads = m.heads :=
  logAt_fr (List.Subset.refl _) (Frame.refl _ _) .heads (by simp)

@[simp] theorem logAt_stg {t} {code} {sev} {unit} {arg} {m : Mach} : (logAt t code sev unit arg m).stg = m.stg :=
  logAt_fr (List.Subset.refl _) (Frame.refl _ _) .stg (by simp)

@[simp] theorem logAt_ilk {t} {code} {sev} {unit} {arg} {m : Mach} : (logAt t code sev unit arg m).ilk = m.ilk :=
  logAt_fr (List.Subset.refl _) (Frame.refl _ _) .ilk (by simp)

@[simp] theorem logAt_hlt {t} {code} {sev} {unit} {arg} {m : Mach} : (logAt t code sev unit arg m).hlt = m.hlt :=
  logAt_fr (List.Subset.refl _) (Frame.refl _ _) .hlt (by simp)

@[simp] theorem logAt_keep {t} {code} {sev} {unit} {arg} {m : Mach} : (logAt t code sev unit arg m).keep = m.keep :=
  logAt_fr (List.Subset.refl _) (Frame.refl _ _) .keep (by simp)

@[simp] theorem logAt_free {t} {code} {sev} {unit} {arg} {m : Mach} : (logAt t code sev unit arg m).free = m.free :=
  logAt_fr (List.Subset.refl _) (Frame.refl _ _) .free (by simp)

@[simp] theorem logAt_env {t} {code} {sev} {unit} {arg} {m : Mach} : (logAt t code sev unit arg m).env = m.env :=
  logAt_fr (List.Subset.refl _) (Frame.refl _ _) .env (by simp)

@[simp] theorem logAt_dev {t} {code} {sev} {unit} {arg} {m : Mach} : (logAt t code sev unit arg m).g.dev = m.g.dev :=
  dev_of_bare (logAt_fr (List.Subset.refl _) (Frame.refl _ _) .g (by simp))

@[simp] theorem logAt_bytes {t} {code} {sev} {unit} {arg} {m : Mach} : (logAt t code sev unit arg m).mem.cells = m.mem.cells :=
  logAt_fr (List.Subset.refl _) (Frame.refl _ _) .bytes (by simp)

@[simp] theorem log_aon {code} {sev} {unit} {arg} {m : Mach} : (log code sev unit arg m).aon = m.aon :=
  log_fr (List.Subset.refl _) (Frame.refl _ _) .aon (by simp)

@[simp] theorem log_clk {code} {sev} {unit} {arg} {m : Mach} : (log code sev unit arg m).clk = m.clk :=
  log_fr (List.Subset.refl _) (Frame.refl _ _) .clk (by simp)

@[simp] theorem log_boot {code} {sev} {unit} {arg} {m : Mach} : (log code sev unit arg m).boot = m.boot :=
  log_fr (List.Subset.refl _) (Frame.refl _ _) .boot (by simp)

@[simp] theorem log_time {code} {sev} {unit} {arg} {m : Mach} : (log code sev unit arg m).time = m.time :=
  log_fr (List.Subset.refl _) (Frame.refl _ _) .time (by simp)

@[simp] theorem log_job {code} {sev} {unit} {arg} {m : Mach} : (log code sev unit arg m).job = m.job :=
  log_fr (List.Subset.refl _) (Frame.refl _ _) .job (by simp)

@[simp] theorem log_imp {code} {sev} {unit} {arg} {m : Mach} : (log code sev unit arg m).imp = m.imp :=
  log_fr (List.Subset.refl _) (Frame.refl _ _) .imp (by simp)

@[simp] theorem log_beams {code} {sev} {unit} {arg} {m : Mach} : (log code sev unit arg m).beams = m.beams :=
  log_fr (List.Subset.refl _) (Frame.refl _ _) .beams (by simp)

@[simp] theorem log_mpl {code} {sev} {unit} {arg} {m : Mach} : (log code sev unit arg m).mpl = m.mpl :=
  log_fr (List.Subset.refl _) (Frame.refl _ _) .mpl (by simp)

@[simp] theorem log_hmap {code} {sev} {unit} {arg} {m : Mach} : (log code sev unit arg m).hmap = m.hmap :=
  log_fr (List.Subset.refl _) (Frame.refl _ _) .hmap (by simp)

@[simp] theorem log_cells {code} {sev} {unit} {arg} {m : Mach} : (log code sev unit arg m).cells = m.cells :=
  log_fr (List.Subset.refl _) (Frame.refl _ _) .cells (by simp)

@[simp] theorem log_sig {code} {sev} {unit} {arg} {m : Mach} : (log code sev unit arg m).sig = m.sig :=
  log_fr (List.Subset.refl _) (Frame.refl _ _) .sig (by simp)

@[simp] theorem log_lanes {code} {sev} {unit} {arg} {m : Mach} : (log code sev unit arg m).lanes = m.lanes :=
  log_fr (List.Subset.refl _) (Frame.refl _ _) .lanes (by simp)

@[simp] theorem log_heads {code} {sev} {unit} {arg} {m : Mach} : (log code sev unit arg m).heads = m.heads :=
  log_fr (List.Subset.refl _) (Frame.refl _ _) .heads (by simp)

@[simp] theorem log_stg {code} {sev} {unit} {arg} {m : Mach} : (log code sev unit arg m).stg = m.stg :=
  log_fr (List.Subset.refl _) (Frame.refl _ _) .stg (by simp)

@[simp] theorem log_ilk {code} {sev} {unit} {arg} {m : Mach} : (log code sev unit arg m).ilk = m.ilk :=
  log_fr (List.Subset.refl _) (Frame.refl _ _) .ilk (by simp)

@[simp] theorem log_hlt {code} {sev} {unit} {arg} {m : Mach} : (log code sev unit arg m).hlt = m.hlt :=
  log_fr (List.Subset.refl _) (Frame.refl _ _) .hlt (by simp)

@[simp] theorem log_keep {code} {sev} {unit} {arg} {m : Mach} : (log code sev unit arg m).keep = m.keep :=
  log_fr (List.Subset.refl _) (Frame.refl _ _) .keep (by simp)

@[simp] theorem log_free {code} {sev} {unit} {arg} {m : Mach} : (log code sev unit arg m).free = m.free :=
  log_fr (List.Subset.refl _) (Frame.refl _ _) .free (by simp)

@[simp] theorem log_env {code} {sev} {unit} {arg} {m : Mach} : (log code sev unit arg m).env = m.env :=
  log_fr (List.Subset.refl _) (Frame.refl _ _) .env (by simp)

@[simp] theorem log_dev {code} {sev} {unit} {arg} {m : Mach} : (log code sev unit arg m).g.dev = m.g.dev :=
  dev_of_bare (log_fr (List.Subset.refl _) (Frame.refl _ _) .g (by simp))

@[simp] theorem log_bytes {code} {sev} {unit} {arg} {m : Mach} : (log code sev unit arg m).mem.cells = m.mem.cells :=
  log_fr (List.Subset.refl _) (Frame.refl _ _) .bytes (by simp)

@[simp] theorem bootEntries_aon {m0 : Mach} : (bootEntries m0).aon = m0.aon :=
  bootEntries_fr (List.Subset.refl _) (Frame.refl _ _) .aon (by simp)

@[simp] theorem bootEntries_clk {m0 : Mach} : (bootEntries m0).clk = m0.clk :=
  bootEntries_fr (List.Subset.refl _) (Frame.refl _ _) .clk (by simp)

@[simp] theorem bootEntries_boot {m0 : Mach} : (bootEntries m0).boot = m0.boot :=
  bootEntries_fr (List.Subset.refl _) (Frame.refl _ _) .boot (by simp)

@[simp] theorem bootEntries_time {m0 : Mach} : (bootEntries m0).time = m0.time :=
  bootEntries_fr (List.Subset.refl _) (Frame.refl _ _) .time (by simp)

@[simp] theorem bootEntries_job {m0 : Mach} : (bootEntries m0).job = m0.job :=
  bootEntries_fr (List.Subset.refl _) (Frame.refl _ _) .job (by simp)

@[simp] theorem bootEntries_imp {m0 : Mach} : (bootEntries m0).imp = m0.imp :=
  bootEntries_fr (List.Subset.refl _) (Frame.refl _ _) .imp (by simp)

@[simp] theorem bootEntries_beams {m0 : Mach} : (bootEntries m0).beams = m0.beams :=
  bootEntries_fr (List.Subset.refl _) (Frame.refl _ _) .beams (by simp)

@[simp] theorem bootEntries_mpl {m0 : Mach} : (bootEntries m0).mpl = m0.mpl :=
  bootEntries_fr (List.Subset.refl _) (Frame.refl _ _) .mpl (by simp)

@[simp] theorem bootEntries_hmap {m0 : Mach} : (bootEntries m0).hmap = m0.hmap :=
  bootEntries_fr (List.Subset.refl _) (Frame.refl _ _) .hmap (by simp)

@[simp] theorem bootEntries_cells {m0 : Mach} : (bootEntries m0).cells = m0.cells :=
  bootEntries_fr (List.Subset.refl _) (Frame.refl _ _) .cells (by simp)

@[simp] theorem bootEntries_sig {m0 : Mach} : (bootEntries m0).sig = m0.sig :=
  bootEntries_fr (List.Subset.refl _) (Frame.refl _ _) .sig (by simp)

@[simp] theorem bootEntries_lanes {m0 : Mach} : (bootEntries m0).lanes = m0.lanes :=
  bootEntries_fr (List.Subset.refl _) (Frame.refl _ _) .lanes (by simp)

@[simp] theorem bootEntries_heads {m0 : Mach} : (bootEntries m0).heads = m0.heads :=
  bootEntries_fr (List.Subset.refl _) (Frame.refl _ _) .heads (by simp)

@[simp] theorem bootEntries_stg {m0 : Mach} : (bootEntries m0).stg = m0.stg :=
  bootEntries_fr (List.Subset.refl _) (Frame.refl _ _) .stg (by simp)

@[simp] theorem bootEntries_ilk {m0 : Mach} : (bootEntries m0).ilk = m0.ilk :=
  bootEntries_fr (List.Subset.refl _) (Frame.refl _ _) .ilk (by simp)

@[simp] theorem bootEntries_hlt {m0 : Mach} : (bootEntries m0).hlt = m0.hlt :=
  bootEntries_fr (List.Subset.refl _) (Frame.refl _ _) .hlt (by simp)

@[simp] theorem bootEntries_keep {m0 : Mach} : (bootEntries m0).keep = m0.keep :=
  bootEntries_fr (List.Subset.refl _) (Frame.refl _ _) .keep (by simp)

@[simp] theorem bootEntries_free {m0 : Mach} : (bootEntries m0).free = m0.free :=
  bootEntries_fr (List.Subset.refl _) (Frame.refl _ _) .free (by simp)

@[simp] theorem bootEntries_env {m0 : Mach} : (bootEntries m0).env = m0.env :=
  bootEntries_fr (List.Subset.refl _) (Frame.refl _ _) .env (by simp)

@[simp] theorem bootEntries_dev {m0 : Mach} : (bootEntries m0).g.dev = m0.g.dev :=
  dev_of_bare (bootEntries_fr (List.Subset.refl _) (Frame.refl _ _) .g (by simp))

@[simp] theorem bootEntries_bytes {m0 : Mach} : (bootEntries m0).mem.cells = m0.mem.cells :=
  bootEntries_fr (List.Subset.refl _) (Frame.refl _ _) .bytes (by simp)

@[simp] theorem repairAt_aon {t} {code} {unit} {arg} {m : Mach} : (repairAt t code unit arg m).aon = m.aon :=
  repairAt_fr (List.Subset.refl _) (Frame.refl _ _) .aon (by simp)

@[simp] theorem repairAt_clk {t} {code} {unit} {arg} {m : Mach} : (repairAt t code unit arg m).clk = m.clk :=
  repairAt_fr (List.Subset.refl _) (Frame.refl _ _) .clk (by simp)

@[simp] theorem repairAt_boot {t} {code} {unit} {arg} {m : Mach} : (repairAt t code unit arg m).boot = m.boot :=
  repairAt_fr (List.Subset.refl _) (Frame.refl _ _) .boot (by simp)

@[simp] theorem repairAt_time {t} {code} {unit} {arg} {m : Mach} : (repairAt t code unit arg m).time = m.time :=
  repairAt_fr (List.Subset.refl _) (Frame.refl _ _) .time (by simp)

@[simp] theorem repairAt_job {t} {code} {unit} {arg} {m : Mach} : (repairAt t code unit arg m).job = m.job :=
  repairAt_fr (List.Subset.refl _) (Frame.refl _ _) .job (by simp)

@[simp] theorem repairAt_imp {t} {code} {unit} {arg} {m : Mach} : (repairAt t code unit arg m).imp = m.imp :=
  repairAt_fr (List.Subset.refl _) (Frame.refl _ _) .imp (by simp)

@[simp] theorem repairAt_beams {t} {code} {unit} {arg} {m : Mach} : (repairAt t code unit arg m).beams = m.beams :=
  repairAt_fr (List.Subset.refl _) (Frame.refl _ _) .beams (by simp)

@[simp] theorem repairAt_mpl {t} {code} {unit} {arg} {m : Mach} : (repairAt t code unit arg m).mpl = m.mpl :=
  repairAt_fr (List.Subset.refl _) (Frame.refl _ _) .mpl (by simp)

@[simp] theorem repairAt_hmap {t} {code} {unit} {arg} {m : Mach} : (repairAt t code unit arg m).hmap = m.hmap :=
  repairAt_fr (List.Subset.refl _) (Frame.refl _ _) .hmap (by simp)

@[simp] theorem repairAt_cells {t} {code} {unit} {arg} {m : Mach} : (repairAt t code unit arg m).cells = m.cells :=
  repairAt_fr (List.Subset.refl _) (Frame.refl _ _) .cells (by simp)

@[simp] theorem repairAt_sig {t} {code} {unit} {arg} {m : Mach} : (repairAt t code unit arg m).sig = m.sig :=
  repairAt_fr (List.Subset.refl _) (Frame.refl _ _) .sig (by simp)

@[simp] theorem repairAt_lanes {t} {code} {unit} {arg} {m : Mach} : (repairAt t code unit arg m).lanes = m.lanes :=
  repairAt_fr (List.Subset.refl _) (Frame.refl _ _) .lanes (by simp)

@[simp] theorem repairAt_heads {t} {code} {unit} {arg} {m : Mach} : (repairAt t code unit arg m).heads = m.heads :=
  repairAt_fr (List.Subset.refl _) (Frame.refl _ _) .heads (by simp)

@[simp] theorem repairAt_stg {t} {code} {unit} {arg} {m : Mach} : (repairAt t code unit arg m).stg = m.stg :=
  repairAt_fr (List.Subset.refl _) (Frame.refl _ _) .stg (by simp)

@[simp] theorem repairAt_ilk {t} {code} {unit} {arg} {m : Mach} : (repairAt t code unit arg m).ilk = m.ilk :=
  repairAt_fr (List.Subset.refl _) (Frame.refl _ _) .ilk (by simp)

@[simp] theorem repairAt_hlt {t} {code} {unit} {arg} {m : Mach} : (repairAt t code unit arg m).hlt = m.hlt :=
  repairAt_fr (List.Subset.refl _) (Frame.refl _ _) .hlt (by simp)

@[simp] theorem repairAt_keep {t} {code} {unit} {arg} {m : Mach} : (repairAt t code unit arg m).keep = m.keep :=
  repairAt_fr (List.Subset.refl _) (Frame.refl _ _) .keep (by simp)

@[simp] theorem repairAt_free {t} {code} {unit} {arg} {m : Mach} : (repairAt t code unit arg m).free = m.free :=
  repairAt_fr (List.Subset.refl _) (Frame.refl _ _) .free (by simp)

@[simp] theorem repairAt_env {t} {code} {unit} {arg} {m : Mach} : (repairAt t code unit arg m).env = m.env :=
  repairAt_fr (List.Subset.refl _) (Frame.refl _ _) .env (by simp)

@[simp] theorem repairAt_dev {t} {code} {unit} {arg} {m : Mach} : (repairAt t code unit arg m).g.dev = m.g.dev :=
  dev_of_bare (repairAt_fr (List.Subset.refl _) (Frame.refl _ _) .g (by simp))

@[simp] theorem repairAt_bytes {t} {code} {unit} {arg} {m : Mach} : (repairAt t code unit arg m).mem.cells = m.mem.cells :=
  repairAt_fr (List.Subset.refl _) (Frame.refl _ _) .bytes (by simp)

@[simp] theorem repair_aon {code} {unit} {arg} {m : Mach} : (repair code unit arg m).aon = m.aon :=
  repair_fr (List.Subset.refl _) (Frame.refl _ _) .aon (by simp)

@[simp] theorem repair_clk {code} {unit} {arg} {m : Mach} : (repair code unit arg m).clk = m.clk :=
  repair_fr (List.Subset.refl _) (Frame.refl _ _) .clk (by simp)

@[simp] theorem repair_boot {code} {unit} {arg} {m : Mach} : (repair code unit arg m).boot = m.boot :=
  repair_fr (List.Subset.refl _) (Frame.refl _ _) .boot (by simp)

@[simp] theorem repair_time {code} {unit} {arg} {m : Mach} : (repair code unit arg m).time = m.time :=
  repair_fr (List.Subset.refl _) (Frame.refl _ _) .time (by simp)

@[simp] theorem repair_job {code} {unit} {arg} {m : Mach} : (repair code unit arg m).job = m.job :=
  repair_fr (List.Subset.refl _) (Frame.refl _ _) .job (by simp)

@[simp] theorem repair_imp {code} {unit} {arg} {m : Mach} : (repair code unit arg m).imp = m.imp :=
  repair_fr (List.Subset.refl _) (Frame.refl _ _) .imp (by simp)

@[simp] theorem repair_beams {code} {unit} {arg} {m : Mach} : (repair code unit arg m).beams = m.beams :=
  repair_fr (List.Subset.refl _) (Frame.refl _ _) .beams (by simp)

@[simp] theorem repair_mpl {code} {unit} {arg} {m : Mach} : (repair code unit arg m).mpl = m.mpl :=
  repair_fr (List.Subset.refl _) (Frame.refl _ _) .mpl (by simp)

@[simp] theorem repair_hmap {code} {unit} {arg} {m : Mach} : (repair code unit arg m).hmap = m.hmap :=
  repair_fr (List.Subset.refl _) (Frame.refl _ _) .hmap (by simp)

@[simp] theorem repair_cells {code} {unit} {arg} {m : Mach} : (repair code unit arg m).cells = m.cells :=
  repair_fr (List.Subset.refl _) (Frame.refl _ _) .cells (by simp)

@[simp] theorem repair_sig {code} {unit} {arg} {m : Mach} : (repair code unit arg m).sig = m.sig :=
  repair_fr (List.Subset.refl _) (Frame.refl _ _) .sig (by simp)

@[simp] theorem repair_lanes {code} {unit} {arg} {m : Mach} : (repair code unit arg m).lanes = m.lanes :=
  repair_fr (List.Subset.refl _) (Frame.refl _ _) .lanes (by simp)

@[simp] theorem repair_heads {code} {unit} {arg} {m : Mach} : (repair code unit arg m).heads = m.heads :=
  repair_fr (List.Subset.refl _) (Frame.refl _ _) .heads (by simp)

@[simp] theorem repair_stg {code} {unit} {arg} {m : Mach} : (repair code unit arg m).stg = m.stg :=
  repair_fr (List.Subset.refl _) (Frame.refl _ _) .stg (by simp)

@[simp] theorem repair_ilk {code} {unit} {arg} {m : Mach} : (repair code unit arg m).ilk = m.ilk :=
  repair_fr (List.Subset.refl _) (Frame.refl _ _) .ilk (by simp)

@[simp] theorem repair_hlt {code} {unit} {arg} {m : Mach} : (repair code unit arg m).hlt = m.hlt :=
  repair_fr (List.Subset.refl _) (Frame.refl _ _) .hlt (by simp)

@[simp] theorem repair_keep {code} {unit} {arg} {m : Mach} : (repair code unit arg m).keep = m.keep :=
  repair_fr (List.Subset.refl _) (Frame.refl _ _) .keep (by simp)

@[simp] theorem repair_free {code} {unit} {arg} {m : Mach} : (repair code unit arg m).free = m.free :=
  repair_fr (List.Subset.refl _) (Frame.refl _ _) .free (by simp)

@[simp] theorem repair_env {code} {unit} {arg} {m : Mach} : (repair code unit arg m).env = m.env :=
  repair_fr (List.Subset.refl _) (Frame.refl _ _) .env (by simp)

@[simp] theorem repair_dev {code} {unit} {arg} {m : Mach} : (repair code unit arg m).g.dev = m.g.dev :=
  dev_of_bare (repair_fr (List.Subset.refl _) (Frame.refl _ _) .g (by simp))

@[simp] theorem repair_bytes {code} {unit} {arg} {m : Mach} : (repair code unit arg m).mem.cells = m.mem.cells :=
  repair_fr (List.Subset.refl _) (Frame.refl _ _) .bytes (by simp)

@[simp] theorem logClass_aon {cls} {unit} {arg} {m : Mach} : (logClass cls unit arg m).aon = m.aon :=
  logClass_fr (List.Subset.refl _) (Frame.refl _ _) .aon (by simp)

@[simp] theorem logClass_clk {cls} {unit} {arg} {m : Mach} : (logClass cls unit arg m).clk = m.clk :=
  logClass_fr (List.Subset.refl _) (Frame.refl _ _) .clk (by simp)

@[simp] theorem logClass_boot {cls} {unit} {arg} {m : Mach} : (logClass cls unit arg m).boot = m.boot :=
  logClass_fr (List.Subset.refl _) (Frame.refl _ _) .boot (by simp)

@[simp] theorem logClass_time {cls} {unit} {arg} {m : Mach} : (logClass cls unit arg m).time = m.time :=
  logClass_fr (List.Subset.refl _) (Frame.refl _ _) .time (by simp)

@[simp] theorem logClass_job {cls} {unit} {arg} {m : Mach} : (logClass cls unit arg m).job = m.job :=
  logClass_fr (List.Subset.refl _) (Frame.refl _ _) .job (by simp)

@[simp] theorem logClass_imp {cls} {unit} {arg} {m : Mach} : (logClass cls unit arg m).imp = m.imp :=
  logClass_fr (List.Subset.refl _) (Frame.refl _ _) .imp (by simp)

@[simp] theorem logClass_beams {cls} {unit} {arg} {m : Mach} : (logClass cls unit arg m).beams = m.beams :=
  logClass_fr (List.Subset.refl _) (Frame.refl _ _) .beams (by simp)

@[simp] theorem logClass_mpl {cls} {unit} {arg} {m : Mach} : (logClass cls unit arg m).mpl = m.mpl :=
  logClass_fr (List.Subset.refl _) (Frame.refl _ _) .mpl (by simp)

@[simp] theorem logClass_hmap {cls} {unit} {arg} {m : Mach} : (logClass cls unit arg m).hmap = m.hmap :=
  logClass_fr (List.Subset.refl _) (Frame.refl _ _) .hmap (by simp)

@[simp] theorem logClass_cells {cls} {unit} {arg} {m : Mach} : (logClass cls unit arg m).cells = m.cells :=
  logClass_fr (List.Subset.refl _) (Frame.refl _ _) .cells (by simp)

@[simp] theorem logClass_sig {cls} {unit} {arg} {m : Mach} : (logClass cls unit arg m).sig = m.sig :=
  logClass_fr (List.Subset.refl _) (Frame.refl _ _) .sig (by simp)

@[simp] theorem logClass_lanes {cls} {unit} {arg} {m : Mach} : (logClass cls unit arg m).lanes = m.lanes :=
  logClass_fr (List.Subset.refl _) (Frame.refl _ _) .lanes (by simp)

@[simp] theorem logClass_heads {cls} {unit} {arg} {m : Mach} : (logClass cls unit arg m).heads = m.heads :=
  logClass_fr (List.Subset.refl _) (Frame.refl _ _) .heads (by simp)

@[simp] theorem logClass_stg {cls} {unit} {arg} {m : Mach} : (logClass cls unit arg m).stg = m.stg :=
  logClass_fr (List.Subset.refl _) (Frame.refl _ _) .stg (by simp)

@[simp] theorem logClass_ilk {cls} {unit} {arg} {m : Mach} : (logClass cls unit arg m).ilk = m.ilk :=
  logClass_fr (List.Subset.refl _) (Frame.refl _ _) .ilk (by simp)

@[simp] theorem logClass_hlt {cls} {unit} {arg} {m : Mach} : (logClass cls unit arg m).hlt = m.hlt :=
  logClass_fr (List.Subset.refl _) (Frame.refl _ _) .hlt (by simp)

@[simp] theorem logClass_keep {cls} {unit} {arg} {m : Mach} : (logClass cls unit arg m).keep = m.keep :=
  logClass_fr (List.Subset.refl _) (Frame.refl _ _) .keep (by simp)

@[simp] theorem logClass_env {cls} {unit} {arg} {m : Mach} : (logClass cls unit arg m).env = m.env :=
  logClass_fr (List.Subset.refl _) (Frame.refl _ _) .env (by simp)

@[simp] theorem logClass_dev {cls} {unit} {arg} {m : Mach} : (logClass cls unit arg m).g.dev = m.g.dev :=
  dev_of_bare (logClass_fr (List.Subset.refl _) (Frame.refl _ _) .g (by simp))

@[simp] theorem logClass_bytes {cls} {unit} {arg} {m : Mach} : (logClass cls unit arg m).mem.cells = m.mem.cells :=
  logClass_fr (List.Subset.refl _) (Frame.refl _ _) .bytes (by simp)

@[simp] theorem healthLog_aon {q} {unit} {value} {limit} {m : Mach} : (healthLog q unit value limit m).aon = m.aon :=
  healthLog_fr (List.Subset.refl _) (Frame.refl _ _) .aon (by simp)

@[simp] theorem healthLog_clk {q} {unit} {value} {limit} {m : Mach} : (healthLog q unit value limit m).clk = m.clk :=
  healthLog_fr (List.Subset.refl _) (Frame.refl _ _) .clk (by simp)

@[simp] theorem healthLog_boot {q} {unit} {value} {limit} {m : Mach} : (healthLog q unit value limit m).boot = m.boot :=
  healthLog_fr (List.Subset.refl _) (Frame.refl _ _) .boot (by simp)

@[simp] theorem healthLog_time {q} {unit} {value} {limit} {m : Mach} : (healthLog q unit value limit m).time = m.time :=
  healthLog_fr (List.Subset.refl _) (Frame.refl _ _) .time (by simp)

@[simp] theorem healthLog_job {q} {unit} {value} {limit} {m : Mach} : (healthLog q unit value limit m).job = m.job :=
  healthLog_fr (List.Subset.refl _) (Frame.refl _ _) .job (by simp)

@[simp] theorem healthLog_imp {q} {unit} {value} {limit} {m : Mach} : (healthLog q unit value limit m).imp = m.imp :=
  healthLog_fr (List.Subset.refl _) (Frame.refl _ _) .imp (by simp)

@[simp] theorem healthLog_beams {q} {unit} {value} {limit} {m : Mach} : (healthLog q unit value limit m).beams = m.beams :=
  healthLog_fr (List.Subset.refl _) (Frame.refl _ _) .beams (by simp)

@[simp] theorem healthLog_mpl {q} {unit} {value} {limit} {m : Mach} : (healthLog q unit value limit m).mpl = m.mpl :=
  healthLog_fr (List.Subset.refl _) (Frame.refl _ _) .mpl (by simp)

@[simp] theorem healthLog_hmap {q} {unit} {value} {limit} {m : Mach} : (healthLog q unit value limit m).hmap = m.hmap :=
  healthLog_fr (List.Subset.refl _) (Frame.refl _ _) .hmap (by simp)

@[simp] theorem healthLog_cells {q} {unit} {value} {limit} {m : Mach} : (healthLog q unit value limit m).cells = m.cells :=
  healthLog_fr (List.Subset.refl _) (Frame.refl _ _) .cells (by simp)

@[simp] theorem healthLog_sig {q} {unit} {value} {limit} {m : Mach} : (healthLog q unit value limit m).sig = m.sig :=
  healthLog_fr (List.Subset.refl _) (Frame.refl _ _) .sig (by simp)

@[simp] theorem healthLog_lanes {q} {unit} {value} {limit} {m : Mach} : (healthLog q unit value limit m).lanes = m.lanes :=
  healthLog_fr (List.Subset.refl _) (Frame.refl _ _) .lanes (by simp)

@[simp] theorem healthLog_heads {q} {unit} {value} {limit} {m : Mach} : (healthLog q unit value limit m).heads = m.heads :=
  healthLog_fr (List.Subset.refl _) (Frame.refl _ _) .heads (by simp)

@[simp] theorem healthLog_stg {q} {unit} {value} {limit} {m : Mach} : (healthLog q unit value limit m).stg = m.stg :=
  healthLog_fr (List.Subset.refl _) (Frame.refl _ _) .stg (by simp)

@[simp] theorem healthLog_ilk {q} {unit} {value} {limit} {m : Mach} : (healthLog q unit value limit m).ilk = m.ilk :=
  healthLog_fr (List.Subset.refl _) (Frame.refl _ _) .ilk (by simp)

@[simp] theorem healthLog_hlt {q} {unit} {value} {limit} {m : Mach} : (healthLog q unit value limit m).hlt = m.hlt :=
  healthLog_fr (List.Subset.refl _) (Frame.refl _ _) .hlt (by simp)

@[simp] theorem healthLog_keep {q} {unit} {value} {limit} {m : Mach} : (healthLog q unit value limit m).keep = m.keep :=
  healthLog_fr (List.Subset.refl _) (Frame.refl _ _) .keep (by simp)

@[simp] theorem healthLog_env {q} {unit} {value} {limit} {m : Mach} : (healthLog q unit value limit m).env = m.env :=
  healthLog_fr (List.Subset.refl _) (Frame.refl _ _) .env (by simp)

@[simp] theorem healthLog_dev {q} {unit} {value} {limit} {m : Mach} : (healthLog q unit value limit m).g.dev = m.g.dev :=
  dev_of_bare (healthLog_fr (List.Subset.refl _) (Frame.refl _ _) .g (by simp))

@[simp] theorem healthLog_bytes {q} {unit} {value} {limit} {m : Mach} : (healthLog q unit value limit m).mem.cells = m.mem.cells :=
  healthLog_fr (List.Subset.refl _) (Frame.refl _ _) .bytes (by simp)

@[simp] theorem accessError_aon {cause} {bit} {code} {p} {off} {m : Mach} : (accessError cause bit code p off m).aon = m.aon :=
  accessError_fr (List.Subset.refl _) (Frame.refl _ _) .aon (by simp)

@[simp] theorem accessError_clk {cause} {bit} {code} {p} {off} {m : Mach} : (accessError cause bit code p off m).clk = m.clk :=
  accessError_fr (List.Subset.refl _) (Frame.refl _ _) .clk (by simp)

@[simp] theorem accessError_boot {cause} {bit} {code} {p} {off} {m : Mach} : (accessError cause bit code p off m).boot = m.boot :=
  accessError_fr (List.Subset.refl _) (Frame.refl _ _) .boot (by simp)

@[simp] theorem accessError_time {cause} {bit} {code} {p} {off} {m : Mach} : (accessError cause bit code p off m).time = m.time :=
  accessError_fr (List.Subset.refl _) (Frame.refl _ _) .time (by simp)

@[simp] theorem accessError_job {cause} {bit} {code} {p} {off} {m : Mach} : (accessError cause bit code p off m).job = m.job :=
  accessError_fr (List.Subset.refl _) (Frame.refl _ _) .job (by simp)

@[simp] theorem accessError_imp {cause} {bit} {code} {p} {off} {m : Mach} : (accessError cause bit code p off m).imp = m.imp :=
  accessError_fr (List.Subset.refl _) (Frame.refl _ _) .imp (by simp)

@[simp] theorem accessError_beams {cause} {bit} {code} {p} {off} {m : Mach} : (accessError cause bit code p off m).beams = m.beams :=
  accessError_fr (List.Subset.refl _) (Frame.refl _ _) .beams (by simp)

@[simp] theorem accessError_mpl {cause} {bit} {code} {p} {off} {m : Mach} : (accessError cause bit code p off m).mpl = m.mpl :=
  accessError_fr (List.Subset.refl _) (Frame.refl _ _) .mpl (by simp)

@[simp] theorem accessError_hmap {cause} {bit} {code} {p} {off} {m : Mach} : (accessError cause bit code p off m).hmap = m.hmap :=
  accessError_fr (List.Subset.refl _) (Frame.refl _ _) .hmap (by simp)

@[simp] theorem accessError_cells {cause} {bit} {code} {p} {off} {m : Mach} : (accessError cause bit code p off m).cells = m.cells :=
  accessError_fr (List.Subset.refl _) (Frame.refl _ _) .cells (by simp)

@[simp] theorem accessError_sig {cause} {bit} {code} {p} {off} {m : Mach} : (accessError cause bit code p off m).sig = m.sig :=
  accessError_fr (List.Subset.refl _) (Frame.refl _ _) .sig (by simp)

@[simp] theorem accessError_lanes {cause} {bit} {code} {p} {off} {m : Mach} : (accessError cause bit code p off m).lanes = m.lanes :=
  accessError_fr (List.Subset.refl _) (Frame.refl _ _) .lanes (by simp)

@[simp] theorem accessError_heads {cause} {bit} {code} {p} {off} {m : Mach} : (accessError cause bit code p off m).heads = m.heads :=
  accessError_fr (List.Subset.refl _) (Frame.refl _ _) .heads (by simp)

@[simp] theorem accessError_stg {cause} {bit} {code} {p} {off} {m : Mach} : (accessError cause bit code p off m).stg = m.stg :=
  accessError_fr (List.Subset.refl _) (Frame.refl _ _) .stg (by simp)

@[simp] theorem accessError_ilk {cause} {bit} {code} {p} {off} {m : Mach} : (accessError cause bit code p off m).ilk = m.ilk :=
  accessError_fr (List.Subset.refl _) (Frame.refl _ _) .ilk (by simp)

@[simp] theorem accessError_hlt {cause} {bit} {code} {p} {off} {m : Mach} : (accessError cause bit code p off m).hlt = m.hlt :=
  accessError_fr (List.Subset.refl _) (Frame.refl _ _) .hlt (by simp)

@[simp] theorem accessError_keep {cause} {bit} {code} {p} {off} {m : Mach} : (accessError cause bit code p off m).keep = m.keep :=
  accessError_fr (List.Subset.refl _) (Frame.refl _ _) .keep (by simp)

@[simp] theorem accessError_free {cause} {bit} {code} {p} {off} {m : Mach} : (accessError cause bit code p off m).free = m.free :=
  accessError_fr (List.Subset.refl _) (Frame.refl _ _) .free (by simp)

@[simp] theorem accessError_env {cause} {bit} {code} {p} {off} {m : Mach} : (accessError cause bit code p off m).env = m.env :=
  accessError_fr (List.Subset.refl _) (Frame.refl _ _) .env (by simp)

@[simp] theorem accessError_bytes {cause} {bit} {code} {p} {off} {m : Mach} : (accessError cause bit code p off m).mem.cells = m.mem.cells :=
  accessError_fr (List.Subset.refl _) (Frame.refl _ _) .bytes (by simp)

@[simp] theorem lockErr_aon {z0} {z1} {z2 : Mach} : (lockErr z0 z1 z2).aon = z2.aon :=
  lockErr_fr (List.Subset.refl _) (Frame.refl _ _) .aon (by simp)

@[simp] theorem lockErr_clk {z0} {z1} {z2 : Mach} : (lockErr z0 z1 z2).clk = z2.clk :=
  lockErr_fr (List.Subset.refl _) (Frame.refl _ _) .clk (by simp)

@[simp] theorem lockErr_boot {z0} {z1} {z2 : Mach} : (lockErr z0 z1 z2).boot = z2.boot :=
  lockErr_fr (List.Subset.refl _) (Frame.refl _ _) .boot (by simp)

@[simp] theorem lockErr_time {z0} {z1} {z2 : Mach} : (lockErr z0 z1 z2).time = z2.time :=
  lockErr_fr (List.Subset.refl _) (Frame.refl _ _) .time (by simp)

@[simp] theorem lockErr_job {z0} {z1} {z2 : Mach} : (lockErr z0 z1 z2).job = z2.job :=
  lockErr_fr (List.Subset.refl _) (Frame.refl _ _) .job (by simp)

@[simp] theorem lockErr_imp {z0} {z1} {z2 : Mach} : (lockErr z0 z1 z2).imp = z2.imp :=
  lockErr_fr (List.Subset.refl _) (Frame.refl _ _) .imp (by simp)

@[simp] theorem lockErr_beams {z0} {z1} {z2 : Mach} : (lockErr z0 z1 z2).beams = z2.beams :=
  lockErr_fr (List.Subset.refl _) (Frame.refl _ _) .beams (by simp)

@[simp] theorem lockErr_mpl {z0} {z1} {z2 : Mach} : (lockErr z0 z1 z2).mpl = z2.mpl :=
  lockErr_fr (List.Subset.refl _) (Frame.refl _ _) .mpl (by simp)

@[simp] theorem lockErr_hmap {z0} {z1} {z2 : Mach} : (lockErr z0 z1 z2).hmap = z2.hmap :=
  lockErr_fr (List.Subset.refl _) (Frame.refl _ _) .hmap (by simp)

@[simp] theorem lockErr_cells {z0} {z1} {z2 : Mach} : (lockErr z0 z1 z2).cells = z2.cells :=
  lockErr_fr (List.Subset.refl _) (Frame.refl _ _) .cells (by simp)

@[simp] theorem lockErr_sig {z0} {z1} {z2 : Mach} : (lockErr z0 z1 z2).sig = z2.sig :=
  lockErr_fr (List.Subset.refl _) (Frame.refl _ _) .sig (by simp)

@[simp] theorem lockErr_lanes {z0} {z1} {z2 : Mach} : (lockErr z0 z1 z2).lanes = z2.lanes :=
  lockErr_fr (List.Subset.refl _) (Frame.refl _ _) .lanes (by simp)

@[simp] theorem lockErr_heads {z0} {z1} {z2 : Mach} : (lockErr z0 z1 z2).heads = z2.heads :=
  lockErr_fr (List.Subset.refl _) (Frame.refl _ _) .heads (by simp)

@[simp] theorem lockErr_stg {z0} {z1} {z2 : Mach} : (lockErr z0 z1 z2).stg = z2.stg :=
  lockErr_fr (List.Subset.refl _) (Frame.refl _ _) .stg (by simp)

@[simp] theorem lockErr_ilk {z0} {z1} {z2 : Mach} : (lockErr z0 z1 z2).ilk = z2.ilk :=
  lockErr_fr (List.Subset.refl _) (Frame.refl _ _) .ilk (by simp)

@[simp] theorem lockErr_hlt {z0} {z1} {z2 : Mach} : (lockErr z0 z1 z2).hlt = z2.hlt :=
  lockErr_fr (List.Subset.refl _) (Frame.refl _ _) .hlt (by simp)

@[simp] theorem lockErr_keep {z0} {z1} {z2 : Mach} : (lockErr z0 z1 z2).keep = z2.keep :=
  lockErr_fr (List.Subset.refl _) (Frame.refl _ _) .keep (by simp)

@[simp] theorem lockErr_free {z0} {z1} {z2 : Mach} : (lockErr z0 z1 z2).free = z2.free :=
  lockErr_fr (List.Subset.refl _) (Frame.refl _ _) .free (by simp)

@[simp] theorem lockErr_env {z0} {z1} {z2 : Mach} : (lockErr z0 z1 z2).env = z2.env :=
  lockErr_fr (List.Subset.refl _) (Frame.refl _ _) .env (by simp)

@[simp] theorem lockErr_bytes {z0} {z1} {z2 : Mach} : (lockErr z0 z1 z2).mem.cells = z2.mem.cells :=
  lockErr_fr (List.Subset.refl _) (Frame.refl _ _) .bytes (by simp)

@[simp] theorem accErr_aon {z0} {z1} {z2 : Mach} : (accErr z0 z1 z2).aon = z2.aon :=
  accErr_fr (List.Subset.refl _) (Frame.refl _ _) .aon (by simp)

@[simp] theorem accErr_clk {z0} {z1} {z2 : Mach} : (accErr z0 z1 z2).clk = z2.clk :=
  accErr_fr (List.Subset.refl _) (Frame.refl _ _) .clk (by simp)

@[simp] theorem accErr_boot {z0} {z1} {z2 : Mach} : (accErr z0 z1 z2).boot = z2.boot :=
  accErr_fr (List.Subset.refl _) (Frame.refl _ _) .boot (by simp)

@[simp] theorem accErr_time {z0} {z1} {z2 : Mach} : (accErr z0 z1 z2).time = z2.time :=
  accErr_fr (List.Subset.refl _) (Frame.refl _ _) .time (by simp)

@[simp] theorem accErr_job {z0} {z1} {z2 : Mach} : (accErr z0 z1 z2).job = z2.job :=
  accErr_fr (List.Subset.refl _) (Frame.refl _ _) .job (by simp)

@[simp] theorem accErr_imp {z0} {z1} {z2 : Mach} : (accErr z0 z1 z2).imp = z2.imp :=
  accErr_fr (List.Subset.refl _) (Frame.refl _ _) .imp (by simp)

@[simp] theorem accErr_beams {z0} {z1} {z2 : Mach} : (accErr z0 z1 z2).beams = z2.beams :=
  accErr_fr (List.Subset.refl _) (Frame.refl _ _) .beams (by simp)

@[simp] theorem accErr_mpl {z0} {z1} {z2 : Mach} : (accErr z0 z1 z2).mpl = z2.mpl :=
  accErr_fr (List.Subset.refl _) (Frame.refl _ _) .mpl (by simp)

@[simp] theorem accErr_hmap {z0} {z1} {z2 : Mach} : (accErr z0 z1 z2).hmap = z2.hmap :=
  accErr_fr (List.Subset.refl _) (Frame.refl _ _) .hmap (by simp)

@[simp] theorem accErr_cells {z0} {z1} {z2 : Mach} : (accErr z0 z1 z2).cells = z2.cells :=
  accErr_fr (List.Subset.refl _) (Frame.refl _ _) .cells (by simp)

@[simp] theorem accErr_sig {z0} {z1} {z2 : Mach} : (accErr z0 z1 z2).sig = z2.sig :=
  accErr_fr (List.Subset.refl _) (Frame.refl _ _) .sig (by simp)

@[simp] theorem accErr_lanes {z0} {z1} {z2 : Mach} : (accErr z0 z1 z2).lanes = z2.lanes :=
  accErr_fr (List.Subset.refl _) (Frame.refl _ _) .lanes (by simp)

@[simp] theorem accErr_heads {z0} {z1} {z2 : Mach} : (accErr z0 z1 z2).heads = z2.heads :=
  accErr_fr (List.Subset.refl _) (Frame.refl _ _) .heads (by simp)

@[simp] theorem accErr_stg {z0} {z1} {z2 : Mach} : (accErr z0 z1 z2).stg = z2.stg :=
  accErr_fr (List.Subset.refl _) (Frame.refl _ _) .stg (by simp)

@[simp] theorem accErr_ilk {z0} {z1} {z2 : Mach} : (accErr z0 z1 z2).ilk = z2.ilk :=
  accErr_fr (List.Subset.refl _) (Frame.refl _ _) .ilk (by simp)

@[simp] theorem accErr_hlt {z0} {z1} {z2 : Mach} : (accErr z0 z1 z2).hlt = z2.hlt :=
  accErr_fr (List.Subset.refl _) (Frame.refl _ _) .hlt (by simp)

@[simp] theorem accErr_keep {z0} {z1} {z2 : Mach} : (accErr z0 z1 z2).keep = z2.keep :=
  accErr_fr (List.Subset.refl _) (Frame.refl _ _) .keep (by simp)

@[simp] theorem accErr_free {z0} {z1} {z2 : Mach} : (accErr z0 z1 z2).free = z2.free :=
  accErr_fr (List.Subset.refl _) (Frame.refl _ _) .free (by simp)

@[simp] theorem accErr_env {z0} {z1} {z2 : Mach} : (accErr z0 z1 z2).env = z2.env :=
  accErr_fr (List.Subset.refl _) (Frame.refl _ _) .env (by simp)

@[simp] theorem accErr_bytes {z0} {z1} {z2 : Mach} : (accErr z0 z1 z2).mem.cells = z2.mem.cells :=
  accErr_fr (List.Subset.refl _) (Frame.refl _ _) .bytes (by simp)

@[simp] theorem shadowMiss_aon {z0} {z1} {z2 : Mach} : (shadowMiss z0 z1 z2).aon = z2.aon :=
  shadowMiss_fr (List.Subset.refl _) (Frame.refl _ _) .aon (by simp)

@[simp] theorem shadowMiss_clk {z0} {z1} {z2 : Mach} : (shadowMiss z0 z1 z2).clk = z2.clk :=
  shadowMiss_fr (List.Subset.refl _) (Frame.refl _ _) .clk (by simp)

@[simp] theorem shadowMiss_boot {z0} {z1} {z2 : Mach} : (shadowMiss z0 z1 z2).boot = z2.boot :=
  shadowMiss_fr (List.Subset.refl _) (Frame.refl _ _) .boot (by simp)

@[simp] theorem shadowMiss_time {z0} {z1} {z2 : Mach} : (shadowMiss z0 z1 z2).time = z2.time :=
  shadowMiss_fr (List.Subset.refl _) (Frame.refl _ _) .time (by simp)

@[simp] theorem shadowMiss_job {z0} {z1} {z2 : Mach} : (shadowMiss z0 z1 z2).job = z2.job :=
  shadowMiss_fr (List.Subset.refl _) (Frame.refl _ _) .job (by simp)

@[simp] theorem shadowMiss_imp {z0} {z1} {z2 : Mach} : (shadowMiss z0 z1 z2).imp = z2.imp :=
  shadowMiss_fr (List.Subset.refl _) (Frame.refl _ _) .imp (by simp)

@[simp] theorem shadowMiss_beams {z0} {z1} {z2 : Mach} : (shadowMiss z0 z1 z2).beams = z2.beams :=
  shadowMiss_fr (List.Subset.refl _) (Frame.refl _ _) .beams (by simp)

@[simp] theorem shadowMiss_mpl {z0} {z1} {z2 : Mach} : (shadowMiss z0 z1 z2).mpl = z2.mpl :=
  shadowMiss_fr (List.Subset.refl _) (Frame.refl _ _) .mpl (by simp)

@[simp] theorem shadowMiss_hmap {z0} {z1} {z2 : Mach} : (shadowMiss z0 z1 z2).hmap = z2.hmap :=
  shadowMiss_fr (List.Subset.refl _) (Frame.refl _ _) .hmap (by simp)

@[simp] theorem shadowMiss_cells {z0} {z1} {z2 : Mach} : (shadowMiss z0 z1 z2).cells = z2.cells :=
  shadowMiss_fr (List.Subset.refl _) (Frame.refl _ _) .cells (by simp)

@[simp] theorem shadowMiss_sig {z0} {z1} {z2 : Mach} : (shadowMiss z0 z1 z2).sig = z2.sig :=
  shadowMiss_fr (List.Subset.refl _) (Frame.refl _ _) .sig (by simp)

@[simp] theorem shadowMiss_lanes {z0} {z1} {z2 : Mach} : (shadowMiss z0 z1 z2).lanes = z2.lanes :=
  shadowMiss_fr (List.Subset.refl _) (Frame.refl _ _) .lanes (by simp)

@[simp] theorem shadowMiss_heads {z0} {z1} {z2 : Mach} : (shadowMiss z0 z1 z2).heads = z2.heads :=
  shadowMiss_fr (List.Subset.refl _) (Frame.refl _ _) .heads (by simp)

@[simp] theorem shadowMiss_stg {z0} {z1} {z2 : Mach} : (shadowMiss z0 z1 z2).stg = z2.stg :=
  shadowMiss_fr (List.Subset.refl _) (Frame.refl _ _) .stg (by simp)

@[simp] theorem shadowMiss_ilk {z0} {z1} {z2 : Mach} : (shadowMiss z0 z1 z2).ilk = z2.ilk :=
  shadowMiss_fr (List.Subset.refl _) (Frame.refl _ _) .ilk (by simp)

@[simp] theorem shadowMiss_hlt {z0} {z1} {z2 : Mach} : (shadowMiss z0 z1 z2).hlt = z2.hlt :=
  shadowMiss_fr (List.Subset.refl _) (Frame.refl _ _) .hlt (by simp)

@[simp] theorem shadowMiss_keep {z0} {z1} {z2 : Mach} : (shadowMiss z0 z1 z2).keep = z2.keep :=
  shadowMiss_fr (List.Subset.refl _) (Frame.refl _ _) .keep (by simp)

@[simp] theorem shadowMiss_free {z0} {z1} {z2 : Mach} : (shadowMiss z0 z1 z2).free = z2.free :=
  shadowMiss_fr (List.Subset.refl _) (Frame.refl _ _) .free (by simp)

@[simp] theorem shadowMiss_env {z0} {z1} {z2 : Mach} : (shadowMiss z0 z1 z2).env = z2.env :=
  shadowMiss_fr (List.Subset.refl _) (Frame.refl _ _) .env (by simp)

@[simp] theorem shadowMiss_bytes {z0} {z1} {z2 : Mach} : (shadowMiss z0 z1 z2).mem.cells = z2.mem.cells :=
  shadowMiss_fr (List.Subset.refl _) (Frame.refl _ _) .bytes (by simp)

@[simp] theorem dropShadow_aon {p} {off} {m : Mach} : (dropShadow p off m).aon = m.aon :=
  dropShadow_fr (List.Subset.refl _) (Frame.refl _ _) .aon (by simp)

@[simp] theorem dropShadow_clk {p} {off} {m : Mach} : (dropShadow p off m).clk = m.clk :=
  dropShadow_fr (List.Subset.refl _) (Frame.refl _ _) .clk (by simp)

@[simp] theorem dropShadow_boot {p} {off} {m : Mach} : (dropShadow p off m).boot = m.boot :=
  dropShadow_fr (List.Subset.refl _) (Frame.refl _ _) .boot (by simp)

@[simp] theorem dropShadow_time {p} {off} {m : Mach} : (dropShadow p off m).time = m.time :=
  dropShadow_fr (List.Subset.refl _) (Frame.refl _ _) .time (by simp)

@[simp] theorem dropShadow_job {p} {off} {m : Mach} : (dropShadow p off m).job = m.job :=
  dropShadow_fr (List.Subset.refl _) (Frame.refl _ _) .job (by simp)

@[simp] theorem dropShadow_imp {p} {off} {m : Mach} : (dropShadow p off m).imp = m.imp :=
  dropShadow_fr (List.Subset.refl _) (Frame.refl _ _) .imp (by simp)

@[simp] theorem dropShadow_beams {p} {off} {m : Mach} : (dropShadow p off m).beams = m.beams :=
  dropShadow_fr (List.Subset.refl _) (Frame.refl _ _) .beams (by simp)

@[simp] theorem dropShadow_mpl {p} {off} {m : Mach} : (dropShadow p off m).mpl = m.mpl :=
  dropShadow_fr (List.Subset.refl _) (Frame.refl _ _) .mpl (by simp)

@[simp] theorem dropShadow_hmap {p} {off} {m : Mach} : (dropShadow p off m).hmap = m.hmap :=
  dropShadow_fr (List.Subset.refl _) (Frame.refl _ _) .hmap (by simp)

@[simp] theorem dropShadow_cells {p} {off} {m : Mach} : (dropShadow p off m).cells = m.cells :=
  dropShadow_fr (List.Subset.refl _) (Frame.refl _ _) .cells (by simp)

@[simp] theorem dropShadow_sig {p} {off} {m : Mach} : (dropShadow p off m).sig = m.sig :=
  dropShadow_fr (List.Subset.refl _) (Frame.refl _ _) .sig (by simp)

@[simp] theorem dropShadow_lanes {p} {off} {m : Mach} : (dropShadow p off m).lanes = m.lanes :=
  dropShadow_fr (List.Subset.refl _) (Frame.refl _ _) .lanes (by simp)

@[simp] theorem dropShadow_heads {p} {off} {m : Mach} : (dropShadow p off m).heads = m.heads :=
  dropShadow_fr (List.Subset.refl _) (Frame.refl _ _) .heads (by simp)

@[simp] theorem dropShadow_stg {p} {off} {m : Mach} : (dropShadow p off m).stg = m.stg :=
  dropShadow_fr (List.Subset.refl _) (Frame.refl _ _) .stg (by simp)

@[simp] theorem dropShadow_ilk {p} {off} {m : Mach} : (dropShadow p off m).ilk = m.ilk :=
  dropShadow_fr (List.Subset.refl _) (Frame.refl _ _) .ilk (by simp)

@[simp] theorem dropShadow_hlt {p} {off} {m : Mach} : (dropShadow p off m).hlt = m.hlt :=
  dropShadow_fr (List.Subset.refl _) (Frame.refl _ _) .hlt (by simp)

@[simp] theorem dropShadow_keep {p} {off} {m : Mach} : (dropShadow p off m).keep = m.keep :=
  dropShadow_fr (List.Subset.refl _) (Frame.refl _ _) .keep (by simp)

@[simp] theorem dropShadow_free {p} {off} {m : Mach} : (dropShadow p off m).free = m.free :=
  dropShadow_fr (List.Subset.refl _) (Frame.refl _ _) .free (by simp)

@[simp] theorem dropShadow_env {p} {off} {m : Mach} : (dropShadow p off m).env = m.env :=
  dropShadow_fr (List.Subset.refl _) (Frame.refl _ _) .env (by simp)

@[simp] theorem dropShadow_bytes {p} {off} {m : Mach} : (dropShadow p off m).mem.cells = m.mem.cells :=
  dropShadow_fr (List.Subset.refl _) (Frame.refl _ _) .bytes (by simp)

@[simp] theorem sigPut_aon {n} {s} {m : Mach} : (sigPut n s m).aon = m.aon :=
  sigPut_fr (List.Subset.refl _) (Frame.refl _ _) .aon (by simp)

@[simp] theorem sigPut_clk {n} {s} {m : Mach} : (sigPut n s m).clk = m.clk :=
  sigPut_fr (List.Subset.refl _) (Frame.refl _ _) .clk (by simp)

@[simp] theorem sigPut_boot {n} {s} {m : Mach} : (sigPut n s m).boot = m.boot :=
  sigPut_fr (List.Subset.refl _) (Frame.refl _ _) .boot (by simp)

@[simp] theorem sigPut_time {n} {s} {m : Mach} : (sigPut n s m).time = m.time :=
  sigPut_fr (List.Subset.refl _) (Frame.refl _ _) .time (by simp)

@[simp] theorem sigPut_job {n} {s} {m : Mach} : (sigPut n s m).job = m.job :=
  sigPut_fr (List.Subset.refl _) (Frame.refl _ _) .job (by simp)

@[simp] theorem sigPut_imp {n} {s} {m : Mach} : (sigPut n s m).imp = m.imp :=
  sigPut_fr (List.Subset.refl _) (Frame.refl _ _) .imp (by simp)

@[simp] theorem sigPut_beams {n} {s} {m : Mach} : (sigPut n s m).beams = m.beams :=
  sigPut_fr (List.Subset.refl _) (Frame.refl _ _) .beams (by simp)

@[simp] theorem sigPut_mpl {n} {s} {m : Mach} : (sigPut n s m).mpl = m.mpl :=
  sigPut_fr (List.Subset.refl _) (Frame.refl _ _) .mpl (by simp)

@[simp] theorem sigPut_hmap {n} {s} {m : Mach} : (sigPut n s m).hmap = m.hmap :=
  sigPut_fr (List.Subset.refl _) (Frame.refl _ _) .hmap (by simp)

@[simp] theorem sigPut_cells {n} {s} {m : Mach} : (sigPut n s m).cells = m.cells :=
  sigPut_fr (List.Subset.refl _) (Frame.refl _ _) .cells (by simp)

@[simp] theorem sigPut_lanes {n} {s} {m : Mach} : (sigPut n s m).lanes = m.lanes :=
  sigPut_fr (List.Subset.refl _) (Frame.refl _ _) .lanes (by simp)

@[simp] theorem sigPut_heads {n} {s} {m : Mach} : (sigPut n s m).heads = m.heads :=
  sigPut_fr (List.Subset.refl _) (Frame.refl _ _) .heads (by simp)

@[simp] theorem sigPut_stg {n} {s} {m : Mach} : (sigPut n s m).stg = m.stg :=
  sigPut_fr (List.Subset.refl _) (Frame.refl _ _) .stg (by simp)

@[simp] theorem sigPut_ilk {n} {s} {m : Mach} : (sigPut n s m).ilk = m.ilk :=
  sigPut_fr (List.Subset.refl _) (Frame.refl _ _) .ilk (by simp)

@[simp] theorem sigPut_hlt {n} {s} {m : Mach} : (sigPut n s m).hlt = m.hlt :=
  sigPut_fr (List.Subset.refl _) (Frame.refl _ _) .hlt (by simp)

@[simp] theorem sigPut_keep {n} {s} {m : Mach} : (sigPut n s m).keep = m.keep :=
  sigPut_fr (List.Subset.refl _) (Frame.refl _ _) .keep (by simp)

@[simp] theorem sigPut_outs {n} {s} {m : Mach} : (sigPut n s m).outs = m.outs :=
  sigPut_fr (List.Subset.refl _) (Frame.refl _ _) .outs (by simp)

@[simp] theorem sigPut_free {n} {s} {m : Mach} : (sigPut n s m).free = m.free :=
  sigPut_fr (List.Subset.refl _) (Frame.refl _ _) .free (by simp)

@[simp] theorem sigPut_env {n} {s} {m : Mach} : (sigPut n s m).env = m.env :=
  sigPut_fr (List.Subset.refl _) (Frame.refl _ _) .env (by simp)

@[simp] theorem sigPut_dev {n} {s} {m : Mach} : (sigPut n s m).g.dev = m.g.dev :=
  dev_of_bare (sigPut_fr (List.Subset.refl _) (Frame.refl _ _) .g (by simp))

@[simp] theorem sigPut_bytes {n} {s} {m : Mach} : (sigPut n s m).mem.cells = m.mem.cells :=
  sigPut_fr (List.Subset.refl _) (Frame.refl _ _) .bytes (by simp)

@[simp] theorem sigWriteAt_aon {n} {v} {t} {m : Mach} : (sigWriteAt n v t m).aon = m.aon :=
  sigWriteAt_fr (List.Subset.refl _) (Frame.refl _ _) .aon (by simp)

@[simp] theorem sigWriteAt_clk {n} {v} {t} {m : Mach} : (sigWriteAt n v t m).clk = m.clk :=
  sigWriteAt_fr (List.Subset.refl _) (Frame.refl _ _) .clk (by simp)

@[simp] theorem sigWriteAt_boot {n} {v} {t} {m : Mach} : (sigWriteAt n v t m).boot = m.boot :=
  sigWriteAt_fr (List.Subset.refl _) (Frame.refl _ _) .boot (by simp)

@[simp] theorem sigWriteAt_time {n} {v} {t} {m : Mach} : (sigWriteAt n v t m).time = m.time :=
  sigWriteAt_fr (List.Subset.refl _) (Frame.refl _ _) .time (by simp)

@[simp] theorem sigWriteAt_job {n} {v} {t} {m : Mach} : (sigWriteAt n v t m).job = m.job :=
  sigWriteAt_fr (List.Subset.refl _) (Frame.refl _ _) .job (by simp)

@[simp] theorem sigWriteAt_imp {n} {v} {t} {m : Mach} : (sigWriteAt n v t m).imp = m.imp :=
  sigWriteAt_fr (List.Subset.refl _) (Frame.refl _ _) .imp (by simp)

@[simp] theorem sigWriteAt_beams {n} {v} {t} {m : Mach} : (sigWriteAt n v t m).beams = m.beams :=
  sigWriteAt_fr (List.Subset.refl _) (Frame.refl _ _) .beams (by simp)

@[simp] theorem sigWriteAt_mpl {n} {v} {t} {m : Mach} : (sigWriteAt n v t m).mpl = m.mpl :=
  sigWriteAt_fr (List.Subset.refl _) (Frame.refl _ _) .mpl (by simp)

@[simp] theorem sigWriteAt_hmap {n} {v} {t} {m : Mach} : (sigWriteAt n v t m).hmap = m.hmap :=
  sigWriteAt_fr (List.Subset.refl _) (Frame.refl _ _) .hmap (by simp)

@[simp] theorem sigWriteAt_cells {n} {v} {t} {m : Mach} : (sigWriteAt n v t m).cells = m.cells :=
  sigWriteAt_fr (List.Subset.refl _) (Frame.refl _ _) .cells (by simp)

@[simp] theorem sigWriteAt_lanes {n} {v} {t} {m : Mach} : (sigWriteAt n v t m).lanes = m.lanes :=
  sigWriteAt_fr (List.Subset.refl _) (Frame.refl _ _) .lanes (by simp)

@[simp] theorem sigWriteAt_heads {n} {v} {t} {m : Mach} : (sigWriteAt n v t m).heads = m.heads :=
  sigWriteAt_fr (List.Subset.refl _) (Frame.refl _ _) .heads (by simp)

@[simp] theorem sigWriteAt_stg {n} {v} {t} {m : Mach} : (sigWriteAt n v t m).stg = m.stg :=
  sigWriteAt_fr (List.Subset.refl _) (Frame.refl _ _) .stg (by simp)

@[simp] theorem sigWriteAt_ilk {n} {v} {t} {m : Mach} : (sigWriteAt n v t m).ilk = m.ilk :=
  sigWriteAt_fr (List.Subset.refl _) (Frame.refl _ _) .ilk (by simp)

@[simp] theorem sigWriteAt_hlt {n} {v} {t} {m : Mach} : (sigWriteAt n v t m).hlt = m.hlt :=
  sigWriteAt_fr (List.Subset.refl _) (Frame.refl _ _) .hlt (by simp)

@[simp] theorem sigWriteAt_keep {n} {v} {t} {m : Mach} : (sigWriteAt n v t m).keep = m.keep :=
  sigWriteAt_fr (List.Subset.refl _) (Frame.refl _ _) .keep (by simp)

@[simp] theorem sigWriteAt_outs {n} {v} {t} {m : Mach} : (sigWriteAt n v t m).outs = m.outs :=
  sigWriteAt_fr (List.Subset.refl _) (Frame.refl _ _) .outs (by simp)

@[simp] theorem sigWriteAt_free {n} {v} {t} {m : Mach} : (sigWriteAt n v t m).free = m.free :=
  sigWriteAt_fr (List.Subset.refl _) (Frame.refl _ _) .free (by simp)

@[simp] theorem sigWriteAt_env {n} {v} {t} {m : Mach} : (sigWriteAt n v t m).env = m.env :=
  sigWriteAt_fr (List.Subset.refl _) (Frame.refl _ _) .env (by simp)

@[simp] theorem sigWriteAt_dev {n} {v} {t} {m : Mach} : (sigWriteAt n v t m).g.dev = m.g.dev :=
  dev_of_bare (sigWriteAt_fr (List.Subset.refl _) (Frame.refl _ _) .g (by simp))

@[simp] theorem sigWriteAt_bytes {n} {v} {t} {m : Mach} : (sigWriteAt n v t m).mem.cells = m.mem.cells :=
  sigWriteAt_fr (List.Subset.refl _) (Frame.refl _ _) .bytes (by simp)

@[simp] theorem sigWrite_aon {n} {v} {m : Mach} : (sigWrite n v m).aon = m.aon :=
  sigWrite_fr (List.Subset.refl _) (Frame.refl _ _) .aon (by simp)

@[simp] theorem sigWrite_clk {n} {v} {m : Mach} : (sigWrite n v m).clk = m.clk :=
  sigWrite_fr (List.Subset.refl _) (Frame.refl _ _) .clk (by simp)

@[simp] theorem sigWrite_boot {n} {v} {m : Mach} : (sigWrite n v m).boot = m.boot :=
  sigWrite_fr (List.Subset.refl _) (Frame.refl _ _) .boot (by simp)

@[simp] theorem sigWrite_time {n} {v} {m : Mach} : (sigWrite n v m).time = m.time :=
  sigWrite_fr (List.Subset.refl _) (Frame.refl _ _) .time (by simp)

@[simp] theorem sigWrite_job {n} {v} {m : Mach} : (sigWrite n v m).job = m.job :=
  sigWrite_fr (List.Subset.refl _) (Frame.refl _ _) .job (by simp)

@[simp] theorem sigWrite_imp {n} {v} {m : Mach} : (sigWrite n v m).imp = m.imp :=
  sigWrite_fr (List.Subset.refl _) (Frame.refl _ _) .imp (by simp)

@[simp] theorem sigWrite_beams {n} {v} {m : Mach} : (sigWrite n v m).beams = m.beams :=
  sigWrite_fr (List.Subset.refl _) (Frame.refl _ _) .beams (by simp)

@[simp] theorem sigWrite_mpl {n} {v} {m : Mach} : (sigWrite n v m).mpl = m.mpl :=
  sigWrite_fr (List.Subset.refl _) (Frame.refl _ _) .mpl (by simp)

@[simp] theorem sigWrite_hmap {n} {v} {m : Mach} : (sigWrite n v m).hmap = m.hmap :=
  sigWrite_fr (List.Subset.refl _) (Frame.refl _ _) .hmap (by simp)

@[simp] theorem sigWrite_cells {n} {v} {m : Mach} : (sigWrite n v m).cells = m.cells :=
  sigWrite_fr (List.Subset.refl _) (Frame.refl _ _) .cells (by simp)

@[simp] theorem sigWrite_lanes {n} {v} {m : Mach} : (sigWrite n v m).lanes = m.lanes :=
  sigWrite_fr (List.Subset.refl _) (Frame.refl _ _) .lanes (by simp)

@[simp] theorem sigWrite_heads {n} {v} {m : Mach} : (sigWrite n v m).heads = m.heads :=
  sigWrite_fr (List.Subset.refl _) (Frame.refl _ _) .heads (by simp)

@[simp] theorem sigWrite_stg {n} {v} {m : Mach} : (sigWrite n v m).stg = m.stg :=
  sigWrite_fr (List.Subset.refl _) (Frame.refl _ _) .stg (by simp)

@[simp] theorem sigWrite_ilk {n} {v} {m : Mach} : (sigWrite n v m).ilk = m.ilk :=
  sigWrite_fr (List.Subset.refl _) (Frame.refl _ _) .ilk (by simp)

@[simp] theorem sigWrite_hlt {n} {v} {m : Mach} : (sigWrite n v m).hlt = m.hlt :=
  sigWrite_fr (List.Subset.refl _) (Frame.refl _ _) .hlt (by simp)

@[simp] theorem sigWrite_keep {n} {v} {m : Mach} : (sigWrite n v m).keep = m.keep :=
  sigWrite_fr (List.Subset.refl _) (Frame.refl _ _) .keep (by simp)

@[simp] theorem sigWrite_outs {n} {v} {m : Mach} : (sigWrite n v m).outs = m.outs :=
  sigWrite_fr (List.Subset.refl _) (Frame.refl _ _) .outs (by simp)

@[simp] theorem sigWrite_free {n} {v} {m : Mach} : (sigWrite n v m).free = m.free :=
  sigWrite_fr (List.Subset.refl _) (Frame.refl _ _) .free (by simp)

@[simp] theorem sigWrite_env {n} {v} {m : Mach} : (sigWrite n v m).env = m.env :=
  sigWrite_fr (List.Subset.refl _) (Frame.refl _ _) .env (by simp)

@[simp] theorem sigWrite_dev {n} {v} {m : Mach} : (sigWrite n v m).g.dev = m.g.dev :=
  dev_of_bare (sigWrite_fr (List.Subset.refl _) (Frame.refl _ _) .g (by simp))

@[simp] theorem sigWrite_bytes {n} {v} {m : Mach} : (sigWrite n v m).mem.cells = m.mem.cells :=
  sigWrite_fr (List.Subset.refl _) (Frame.refl _ _) .bytes (by simp)

@[simp] theorem sigWriteRaw_aon {n} {v} {t} {m : Mach} : (sigWriteRaw n v t m).aon = m.aon :=
  sigWriteRaw_fr (List.Subset.refl _) (Frame.refl _ _) .aon (by simp)

@[simp] theorem sigWriteRaw_clk {n} {v} {t} {m : Mach} : (sigWriteRaw n v t m).clk = m.clk :=
  sigWriteRaw_fr (List.Subset.refl _) (Frame.refl _ _) .clk (by simp)

@[simp] theorem sigWriteRaw_boot {n} {v} {t} {m : Mach} : (sigWriteRaw n v t m).boot = m.boot :=
  sigWriteRaw_fr (List.Subset.refl _) (Frame.refl _ _) .boot (by simp)

@[simp] theorem sigWriteRaw_time {n} {v} {t} {m : Mach} : (sigWriteRaw n v t m).time = m.time :=
  sigWriteRaw_fr (List.Subset.refl _) (Frame.refl _ _) .time (by simp)

@[simp] theorem sigWriteRaw_job {n} {v} {t} {m : Mach} : (sigWriteRaw n v t m).job = m.job :=
  sigWriteRaw_fr (List.Subset.refl _) (Frame.refl _ _) .job (by simp)

@[simp] theorem sigWriteRaw_imp {n} {v} {t} {m : Mach} : (sigWriteRaw n v t m).imp = m.imp :=
  sigWriteRaw_fr (List.Subset.refl _) (Frame.refl _ _) .imp (by simp)

@[simp] theorem sigWriteRaw_beams {n} {v} {t} {m : Mach} : (sigWriteRaw n v t m).beams = m.beams :=
  sigWriteRaw_fr (List.Subset.refl _) (Frame.refl _ _) .beams (by simp)

@[simp] theorem sigWriteRaw_mpl {n} {v} {t} {m : Mach} : (sigWriteRaw n v t m).mpl = m.mpl :=
  sigWriteRaw_fr (List.Subset.refl _) (Frame.refl _ _) .mpl (by simp)

@[simp] theorem sigWriteRaw_hmap {n} {v} {t} {m : Mach} : (sigWriteRaw n v t m).hmap = m.hmap :=
  sigWriteRaw_fr (List.Subset.refl _) (Frame.refl _ _) .hmap (by simp)

@[simp] theorem sigWriteRaw_cells {n} {v} {t} {m : Mach} : (sigWriteRaw n v t m).cells = m.cells :=
  sigWriteRaw_fr (List.Subset.refl _) (Frame.refl _ _) .cells (by simp)

@[simp] theorem sigWriteRaw_lanes {n} {v} {t} {m : Mach} : (sigWriteRaw n v t m).lanes = m.lanes :=
  sigWriteRaw_fr (List.Subset.refl _) (Frame.refl _ _) .lanes (by simp)

@[simp] theorem sigWriteRaw_heads {n} {v} {t} {m : Mach} : (sigWriteRaw n v t m).heads = m.heads :=
  sigWriteRaw_fr (List.Subset.refl _) (Frame.refl _ _) .heads (by simp)

@[simp] theorem sigWriteRaw_stg {n} {v} {t} {m : Mach} : (sigWriteRaw n v t m).stg = m.stg :=
  sigWriteRaw_fr (List.Subset.refl _) (Frame.refl _ _) .stg (by simp)

@[simp] theorem sigWriteRaw_ilk {n} {v} {t} {m : Mach} : (sigWriteRaw n v t m).ilk = m.ilk :=
  sigWriteRaw_fr (List.Subset.refl _) (Frame.refl _ _) .ilk (by simp)

@[simp] theorem sigWriteRaw_hlt {n} {v} {t} {m : Mach} : (sigWriteRaw n v t m).hlt = m.hlt :=
  sigWriteRaw_fr (List.Subset.refl _) (Frame.refl _ _) .hlt (by simp)

@[simp] theorem sigWriteRaw_keep {n} {v} {t} {m : Mach} : (sigWriteRaw n v t m).keep = m.keep :=
  sigWriteRaw_fr (List.Subset.refl _) (Frame.refl _ _) .keep (by simp)

@[simp] theorem sigWriteRaw_outs {n} {v} {t} {m : Mach} : (sigWriteRaw n v t m).outs = m.outs :=
  sigWriteRaw_fr (List.Subset.refl _) (Frame.refl _ _) .outs (by simp)

@[simp] theorem sigWriteRaw_free {n} {v} {t} {m : Mach} : (sigWriteRaw n v t m).free = m.free :=
  sigWriteRaw_fr (List.Subset.refl _) (Frame.refl _ _) .free (by simp)

@[simp] theorem sigWriteRaw_env {n} {v} {t} {m : Mach} : (sigWriteRaw n v t m).env = m.env :=
  sigWriteRaw_fr (List.Subset.refl _) (Frame.refl _ _) .env (by simp)

@[simp] theorem sigWriteRaw_dev {n} {v} {t} {m : Mach} : (sigWriteRaw n v t m).g.dev = m.g.dev :=
  dev_of_bare (sigWriteRaw_fr (List.Subset.refl _) (Frame.refl _ _) .g (by simp))

@[simp] theorem sigWriteRaw_bytes {n} {v} {t} {m : Mach} : (sigWriteRaw n v t m).mem.cells = m.mem.cells :=
  sigWriteRaw_fr (List.Subset.refl _) (Frame.refl _ _) .bytes (by simp)

@[simp] theorem sigInvalidate_aon {n} {m : Mach} : (sigInvalidate n m).aon = m.aon :=
  sigInvalidate_fr (List.Subset.refl _) (Frame.refl _ _) .aon (by simp)

@[simp] theorem sigInvalidate_clk {n} {m : Mach} : (sigInvalidate n m).clk = m.clk :=
  sigInvalidate_fr (List.Subset.refl _) (Frame.refl _ _) .clk (by simp)

@[simp] theorem sigInvalidate_boot {n} {m : Mach} : (sigInvalidate n m).boot = m.boot :=
  sigInvalidate_fr (List.Subset.refl _) (Frame.refl _ _) .boot (by simp)

@[simp] theorem sigInvalidate_time {n} {m : Mach} : (sigInvalidate n m).time = m.time :=
  sigInvalidate_fr (List.Subset.refl _) (Frame.refl _ _) .time (by simp)

@[simp] theorem sigInvalidate_job {n} {m : Mach} : (sigInvalidate n m).job = m.job :=
  sigInvalidate_fr (List.Subset.refl _) (Frame.refl _ _) .job (by simp)

@[simp] theorem sigInvalidate_imp {n} {m : Mach} : (sigInvalidate n m).imp = m.imp :=
  sigInvalidate_fr (List.Subset.refl _) (Frame.refl _ _) .imp (by simp)

@[simp] theorem sigInvalidate_beams {n} {m : Mach} : (sigInvalidate n m).beams = m.beams :=
  sigInvalidate_fr (List.Subset.refl _) (Frame.refl _ _) .beams (by simp)

@[simp] theorem sigInvalidate_mpl {n} {m : Mach} : (sigInvalidate n m).mpl = m.mpl :=
  sigInvalidate_fr (List.Subset.refl _) (Frame.refl _ _) .mpl (by simp)

@[simp] theorem sigInvalidate_hmap {n} {m : Mach} : (sigInvalidate n m).hmap = m.hmap :=
  sigInvalidate_fr (List.Subset.refl _) (Frame.refl _ _) .hmap (by simp)

@[simp] theorem sigInvalidate_cells {n} {m : Mach} : (sigInvalidate n m).cells = m.cells :=
  sigInvalidate_fr (List.Subset.refl _) (Frame.refl _ _) .cells (by simp)

@[simp] theorem sigInvalidate_lanes {n} {m : Mach} : (sigInvalidate n m).lanes = m.lanes :=
  sigInvalidate_fr (List.Subset.refl _) (Frame.refl _ _) .lanes (by simp)

@[simp] theorem sigInvalidate_heads {n} {m : Mach} : (sigInvalidate n m).heads = m.heads :=
  sigInvalidate_fr (List.Subset.refl _) (Frame.refl _ _) .heads (by simp)

@[simp] theorem sigInvalidate_stg {n} {m : Mach} : (sigInvalidate n m).stg = m.stg :=
  sigInvalidate_fr (List.Subset.refl _) (Frame.refl _ _) .stg (by simp)

@[simp] theorem sigInvalidate_ilk {n} {m : Mach} : (sigInvalidate n m).ilk = m.ilk :=
  sigInvalidate_fr (List.Subset.refl _) (Frame.refl _ _) .ilk (by simp)

@[simp] theorem sigInvalidate_hlt {n} {m : Mach} : (sigInvalidate n m).hlt = m.hlt :=
  sigInvalidate_fr (List.Subset.refl _) (Frame.refl _ _) .hlt (by simp)

@[simp] theorem sigInvalidate_keep {n} {m : Mach} : (sigInvalidate n m).keep = m.keep :=
  sigInvalidate_fr (List.Subset.refl _) (Frame.refl _ _) .keep (by simp)

@[simp] theorem sigInvalidate_outs {n} {m : Mach} : (sigInvalidate n m).outs = m.outs :=
  sigInvalidate_fr (List.Subset.refl _) (Frame.refl _ _) .outs (by simp)

@[simp] theorem sigInvalidate_free {n} {m : Mach} : (sigInvalidate n m).free = m.free :=
  sigInvalidate_fr (List.Subset.refl _) (Frame.refl _ _) .free (by simp)

@[simp] theorem sigInvalidate_env {n} {m : Mach} : (sigInvalidate n m).env = m.env :=
  sigInvalidate_fr (List.Subset.refl _) (Frame.refl _ _) .env (by simp)

@[simp] theorem sigInvalidate_dev {n} {m : Mach} : (sigInvalidate n m).g.dev = m.g.dev :=
  dev_of_bare (sigInvalidate_fr (List.Subset.refl _) (Frame.refl _ _) .g (by simp))

@[simp] theorem sigInvalidate_bytes {n} {m : Mach} : (sigInvalidate n m).mem.cells = m.mem.cells :=
  sigInvalidate_fr (List.Subset.refl _) (Frame.refl _ _) .bytes (by simp)

@[simp] theorem sigPub_aon {n} {v} {m : Mach} : (sigPub n v m).aon = m.aon :=
  sigPub_fr (List.Subset.refl _) (Frame.refl _ _) .aon (by simp)

@[simp] theorem sigPub_clk {n} {v} {m : Mach} : (sigPub n v m).clk = m.clk :=
  sigPub_fr (List.Subset.refl _) (Frame.refl _ _) .clk (by simp)

@[simp] theorem sigPub_boot {n} {v} {m : Mach} : (sigPub n v m).boot = m.boot :=
  sigPub_fr (List.Subset.refl _) (Frame.refl _ _) .boot (by simp)

@[simp] theorem sigPub_time {n} {v} {m : Mach} : (sigPub n v m).time = m.time :=
  sigPub_fr (List.Subset.refl _) (Frame.refl _ _) .time (by simp)

@[simp] theorem sigPub_job {n} {v} {m : Mach} : (sigPub n v m).job = m.job :=
  sigPub_fr (List.Subset.refl _) (Frame.refl _ _) .job (by simp)

@[simp] theorem sigPub_imp {n} {v} {m : Mach} : (sigPub n v m).imp = m.imp :=
  sigPub_fr (List.Subset.refl _) (Frame.refl _ _) .imp (by simp)

@[simp] theorem sigPub_beams {n} {v} {m : Mach} : (sigPub n v m).beams = m.beams :=
  sigPub_fr (List.Subset.refl _) (Frame.refl _ _) .beams (by simp)

@[simp] theorem sigPub_mpl {n} {v} {m : Mach} : (sigPub n v m).mpl = m.mpl :=
  sigPub_fr (List.Subset.refl _) (Frame.refl _ _) .mpl (by simp)

@[simp] theorem sigPub_hmap {n} {v} {m : Mach} : (sigPub n v m).hmap = m.hmap :=
  sigPub_fr (List.Subset.refl _) (Frame.refl _ _) .hmap (by simp)

@[simp] theorem sigPub_cells {n} {v} {m : Mach} : (sigPub n v m).cells = m.cells :=
  sigPub_fr (List.Subset.refl _) (Frame.refl _ _) .cells (by simp)

@[simp] theorem sigPub_lanes {n} {v} {m : Mach} : (sigPub n v m).lanes = m.lanes :=
  sigPub_fr (List.Subset.refl _) (Frame.refl _ _) .lanes (by simp)

@[simp] theorem sigPub_heads {n} {v} {m : Mach} : (sigPub n v m).heads = m.heads :=
  sigPub_fr (List.Subset.refl _) (Frame.refl _ _) .heads (by simp)

@[simp] theorem sigPub_stg {n} {v} {m : Mach} : (sigPub n v m).stg = m.stg :=
  sigPub_fr (List.Subset.refl _) (Frame.refl _ _) .stg (by simp)

@[simp] theorem sigPub_ilk {n} {v} {m : Mach} : (sigPub n v m).ilk = m.ilk :=
  sigPub_fr (List.Subset.refl _) (Frame.refl _ _) .ilk (by simp)

@[simp] theorem sigPub_hlt {n} {v} {m : Mach} : (sigPub n v m).hlt = m.hlt :=
  sigPub_fr (List.Subset.refl _) (Frame.refl _ _) .hlt (by simp)

@[simp] theorem sigPub_keep {n} {v} {m : Mach} : (sigPub n v m).keep = m.keep :=
  sigPub_fr (List.Subset.refl _) (Frame.refl _ _) .keep (by simp)

@[simp] theorem sigPub_outs {n} {v} {m : Mach} : (sigPub n v m).outs = m.outs :=
  sigPub_fr (List.Subset.refl _) (Frame.refl _ _) .outs (by simp)

@[simp] theorem sigPub_free {n} {v} {m : Mach} : (sigPub n v m).free = m.free :=
  sigPub_fr (List.Subset.refl _) (Frame.refl _ _) .free (by simp)

@[simp] theorem sigPub_env {n} {v} {m : Mach} : (sigPub n v m).env = m.env :=
  sigPub_fr (List.Subset.refl _) (Frame.refl _ _) .env (by simp)

@[simp] theorem sigPub_dev {n} {v} {m : Mach} : (sigPub n v m).g.dev = m.g.dev :=
  dev_of_bare (sigPub_fr (List.Subset.refl _) (Frame.refl _ _) .g (by simp))

@[simp] theorem sigPub_bytes {n} {v} {m : Mach} : (sigPub n v m).mem.cells = m.mem.cells :=
  sigPub_fr (List.Subset.refl _) (Frame.refl _ _) .bytes (by simp)

@[simp] theorem devSignals_aon {m0 : Mach} : (devSignals m0).aon = m0.aon :=
  devSignals_fr (List.Subset.refl _) (Frame.refl _ _) .aon (by simp)

@[simp] theorem devSignals_clk {m0 : Mach} : (devSignals m0).clk = m0.clk :=
  devSignals_fr (List.Subset.refl _) (Frame.refl _ _) .clk (by simp)

@[simp] theorem devSignals_boot {m0 : Mach} : (devSignals m0).boot = m0.boot :=
  devSignals_fr (List.Subset.refl _) (Frame.refl _ _) .boot (by simp)

@[simp] theorem devSignals_time {m0 : Mach} : (devSignals m0).time = m0.time :=
  devSignals_fr (List.Subset.refl _) (Frame.refl _ _) .time (by simp)

@[simp] theorem devSignals_job {m0 : Mach} : (devSignals m0).job = m0.job :=
  devSignals_fr (List.Subset.refl _) (Frame.refl _ _) .job (by simp)

@[simp] theorem devSignals_imp {m0 : Mach} : (devSignals m0).imp = m0.imp :=
  devSignals_fr (List.Subset.refl _) (Frame.refl _ _) .imp (by simp)

@[simp] theorem devSignals_beams {m0 : Mach} : (devSignals m0).beams = m0.beams :=
  devSignals_fr (List.Subset.refl _) (Frame.refl _ _) .beams (by simp)

@[simp] theorem devSignals_mpl {m0 : Mach} : (devSignals m0).mpl = m0.mpl :=
  devSignals_fr (List.Subset.refl _) (Frame.refl _ _) .mpl (by simp)

@[simp] theorem devSignals_hmap {m0 : Mach} : (devSignals m0).hmap = m0.hmap :=
  devSignals_fr (List.Subset.refl _) (Frame.refl _ _) .hmap (by simp)

@[simp] theorem devSignals_cells {m0 : Mach} : (devSignals m0).cells = m0.cells :=
  devSignals_fr (List.Subset.refl _) (Frame.refl _ _) .cells (by simp)

@[simp] theorem devSignals_lanes {m0 : Mach} : (devSignals m0).lanes = m0.lanes :=
  devSignals_fr (List.Subset.refl _) (Frame.refl _ _) .lanes (by simp)

@[simp] theorem devSignals_heads {m0 : Mach} : (devSignals m0).heads = m0.heads :=
  devSignals_fr (List.Subset.refl _) (Frame.refl _ _) .heads (by simp)

@[simp] theorem devSignals_stg {m0 : Mach} : (devSignals m0).stg = m0.stg :=
  devSignals_fr (List.Subset.refl _) (Frame.refl _ _) .stg (by simp)

@[simp] theorem devSignals_ilk {m0 : Mach} : (devSignals m0).ilk = m0.ilk :=
  devSignals_fr (List.Subset.refl _) (Frame.refl _ _) .ilk (by simp)

@[simp] theorem devSignals_hlt {m0 : Mach} : (devSignals m0).hlt = m0.hlt :=
  devSignals_fr (List.Subset.refl _) (Frame.refl _ _) .hlt (by simp)

@[simp] theorem devSignals_keep {m0 : Mach} : (devSignals m0).keep = m0.keep :=
  devSignals_fr (List.Subset.refl _) (Frame.refl _ _) .keep (by simp)

@[simp] theorem devSignals_outs {m0 : Mach} : (devSignals m0).outs = m0.outs :=
  devSignals_fr (List.Subset.refl _) (Frame.refl _ _) .outs (by simp)

@[simp] theorem devSignals_free {m0 : Mach} : (devSignals m0).free = m0.free :=
  devSignals_fr (List.Subset.refl _) (Frame.refl _ _) .free (by simp)

@[simp] theorem devSignals_env {m0 : Mach} : (devSignals m0).env = m0.env :=
  devSignals_fr (List.Subset.refl _) (Frame.refl _ _) .env (by simp)

@[simp] theorem devSignals_dev {m0 : Mach} : (devSignals m0).g.dev = m0.g.dev :=
  dev_of_bare (devSignals_fr (List.Subset.refl _) (Frame.refl _ _) .g (by simp))

@[simp] theorem devSignals_bytes {m0 : Mach} : (devSignals m0).mem.cells = m0.mem.cells :=
  devSignals_fr (List.Subset.refl _) (Frame.refl _ _) .bytes (by simp)

@[simp] theorem memWrite_aon {a} {bs} {m : Mach} : (memWrite a bs m).aon = m.aon :=
  memWrite_fr (List.Subset.refl _) (Frame.refl _ _) .aon (by simp)

@[simp] theorem memWrite_clk {a} {bs} {m : Mach} : (memWrite a bs m).clk = m.clk :=
  memWrite_fr (List.Subset.refl _) (Frame.refl _ _) .clk (by simp)

@[simp] theorem memWrite_boot {a} {bs} {m : Mach} : (memWrite a bs m).boot = m.boot :=
  memWrite_fr (List.Subset.refl _) (Frame.refl _ _) .boot (by simp)

@[simp] theorem memWrite_time {a} {bs} {m : Mach} : (memWrite a bs m).time = m.time :=
  memWrite_fr (List.Subset.refl _) (Frame.refl _ _) .time (by simp)

@[simp] theorem memWrite_job {a} {bs} {m : Mach} : (memWrite a bs m).job = m.job :=
  memWrite_fr (List.Subset.refl _) (Frame.refl _ _) .job (by simp)

@[simp] theorem memWrite_imp {a} {bs} {m : Mach} : (memWrite a bs m).imp = m.imp :=
  memWrite_fr (List.Subset.refl _) (Frame.refl _ _) .imp (by simp)

@[simp] theorem memWrite_beams {a} {bs} {m : Mach} : (memWrite a bs m).beams = m.beams :=
  memWrite_fr (List.Subset.refl _) (Frame.refl _ _) .beams (by simp)

@[simp] theorem memWrite_mpl {a} {bs} {m : Mach} : (memWrite a bs m).mpl = m.mpl :=
  memWrite_fr (List.Subset.refl _) (Frame.refl _ _) .mpl (by simp)

@[simp] theorem memWrite_hmap {a} {bs} {m : Mach} : (memWrite a bs m).hmap = m.hmap :=
  memWrite_fr (List.Subset.refl _) (Frame.refl _ _) .hmap (by simp)

@[simp] theorem memWrite_cells {a} {bs} {m : Mach} : (memWrite a bs m).cells = m.cells :=
  memWrite_fr (List.Subset.refl _) (Frame.refl _ _) .cells (by simp)

@[simp] theorem memWrite_sig {a} {bs} {m : Mach} : (memWrite a bs m).sig = m.sig :=
  memWrite_fr (List.Subset.refl _) (Frame.refl _ _) .sig (by simp)

@[simp] theorem memWrite_lanes {a} {bs} {m : Mach} : (memWrite a bs m).lanes = m.lanes :=
  memWrite_fr (List.Subset.refl _) (Frame.refl _ _) .lanes (by simp)

@[simp] theorem memWrite_heads {a} {bs} {m : Mach} : (memWrite a bs m).heads = m.heads :=
  memWrite_fr (List.Subset.refl _) (Frame.refl _ _) .heads (by simp)

@[simp] theorem memWrite_stg {a} {bs} {m : Mach} : (memWrite a bs m).stg = m.stg :=
  memWrite_fr (List.Subset.refl _) (Frame.refl _ _) .stg (by simp)

@[simp] theorem memWrite_ilk {a} {bs} {m : Mach} : (memWrite a bs m).ilk = m.ilk :=
  memWrite_fr (List.Subset.refl _) (Frame.refl _ _) .ilk (by simp)

@[simp] theorem memWrite_hlt {a} {bs} {m : Mach} : (memWrite a bs m).hlt = m.hlt :=
  memWrite_fr (List.Subset.refl _) (Frame.refl _ _) .hlt (by simp)

@[simp] theorem memWrite_keep {a} {bs} {m : Mach} : (memWrite a bs m).keep = m.keep :=
  memWrite_fr (List.Subset.refl _) (Frame.refl _ _) .keep (by simp)

@[simp] theorem memWrite_outs {a} {bs} {m : Mach} : (memWrite a bs m).outs = m.outs :=
  memWrite_fr (List.Subset.refl _) (Frame.refl _ _) .outs (by simp)

@[simp] theorem memWrite_free {a} {bs} {m : Mach} : (memWrite a bs m).free = m.free :=
  memWrite_fr (List.Subset.refl _) (Frame.refl _ _) .free (by simp)

@[simp] theorem memWrite_env {a} {bs} {m : Mach} : (memWrite a bs m).env = m.env :=
  memWrite_fr (List.Subset.refl _) (Frame.refl _ _) .env (by simp)

@[simp] theorem memWrite_dev {a} {bs} {m : Mach} : (memWrite a bs m).g.dev = m.g.dev :=
  dev_of_bare (memWrite_fr (List.Subset.refl _) (Frame.refl _ _) .g (by simp))

@[simp] theorem onPort_aon {p} {f} {m : Mach} : (onPort p f m).aon = m.aon :=
  onPort_fr (List.Subset.refl _) (Frame.refl _ _) .aon (by simp)

@[simp] theorem onPort_clk {p} {f} {m : Mach} : (onPort p f m).clk = m.clk :=
  onPort_fr (List.Subset.refl _) (Frame.refl _ _) .clk (by simp)

@[simp] theorem onPort_boot {p} {f} {m : Mach} : (onPort p f m).boot = m.boot :=
  onPort_fr (List.Subset.refl _) (Frame.refl _ _) .boot (by simp)

@[simp] theorem onPort_time {p} {f} {m : Mach} : (onPort p f m).time = m.time :=
  onPort_fr (List.Subset.refl _) (Frame.refl _ _) .time (by simp)

@[simp] theorem onPort_job {p} {f} {m : Mach} : (onPort p f m).job = m.job :=
  onPort_fr (List.Subset.refl _) (Frame.refl _ _) .job (by simp)

@[simp] theorem onPort_imp {p} {f} {m : Mach} : (onPort p f m).imp = m.imp :=
  onPort_fr (List.Subset.refl _) (Frame.refl _ _) .imp (by simp)

@[simp] theorem onPort_beams {p} {f} {m : Mach} : (onPort p f m).beams = m.beams :=
  onPort_fr (List.Subset.refl _) (Frame.refl _ _) .beams (by simp)

@[simp] theorem onPort_mpl {p} {f} {m : Mach} : (onPort p f m).mpl = m.mpl :=
  onPort_fr (List.Subset.refl _) (Frame.refl _ _) .mpl (by simp)

@[simp] theorem onPort_hmap {p} {f} {m : Mach} : (onPort p f m).hmap = m.hmap :=
  onPort_fr (List.Subset.refl _) (Frame.refl _ _) .hmap (by simp)

@[simp] theorem onPort_cells {p} {f} {m : Mach} : (onPort p f m).cells = m.cells :=
  onPort_fr (List.Subset.refl _) (Frame.refl _ _) .cells (by simp)

@[simp] theorem onPort_sig {p} {f} {m : Mach} : (onPort p f m).sig = m.sig :=
  onPort_fr (List.Subset.refl _) (Frame.refl _ _) .sig (by simp)

@[simp] theorem onPort_lanes {p} {f} {m : Mach} : (onPort p f m).lanes = m.lanes :=
  onPort_fr (List.Subset.refl _) (Frame.refl _ _) .lanes (by simp)

@[simp] theorem onPort_heads {p} {f} {m : Mach} : (onPort p f m).heads = m.heads :=
  onPort_fr (List.Subset.refl _) (Frame.refl _ _) .heads (by simp)

@[simp] theorem onPort_stg {p} {f} {m : Mach} : (onPort p f m).stg = m.stg :=
  onPort_fr (List.Subset.refl _) (Frame.refl _ _) .stg (by simp)

@[simp] theorem onPort_ilk {p} {f} {m : Mach} : (onPort p f m).ilk = m.ilk :=
  onPort_fr (List.Subset.refl _) (Frame.refl _ _) .ilk (by simp)

@[simp] theorem onPort_hlt {p} {f} {m : Mach} : (onPort p f m).hlt = m.hlt :=
  onPort_fr (List.Subset.refl _) (Frame.refl _ _) .hlt (by simp)

@[simp] theorem onPort_keep {p} {f} {m : Mach} : (onPort p f m).keep = m.keep :=
  onPort_fr (List.Subset.refl _) (Frame.refl _ _) .keep (by simp)

@[simp] theorem onPort_outs {p} {f} {m : Mach} : (onPort p f m).outs = m.outs :=
  onPort_fr (List.Subset.refl _) (Frame.refl _ _) .outs (by simp)

@[simp] theorem onPort_free {p} {f} {m : Mach} : (onPort p f m).free = m.free :=
  onPort_fr (List.Subset.refl _) (Frame.refl _ _) .free (by simp)

@[simp] theorem onPort_env {p} {f} {m : Mach} : (onPort p f m).env = m.env :=
  onPort_fr (List.Subset.refl _) (Frame.refl _ _) .env (by simp)

@[simp] theorem onPort_bytes {p} {f} {m : Mach} : (onPort p f m).mem.cells = m.mem.cells :=
  onPort_fr (List.Subset.refl _) (Frame.refl _ _) .bytes (by simp)

@[simp] theorem stateEntry_aon {old} {cause} {m : Mach} : (stateEntry old cause m).aon = m.aon :=
  stateEntry_fr (List.Subset.refl _) (Frame.refl _ _) .aon (by simp)

@[simp] theorem stateEntry_clk {old} {cause} {m : Mach} : (stateEntry old cause m).clk = m.clk :=
  stateEntry_fr (List.Subset.refl _) (Frame.refl _ _) .clk (by simp)

@[simp] theorem stateEntry_boot {old} {cause} {m : Mach} : (stateEntry old cause m).boot = m.boot :=
  stateEntry_fr (List.Subset.refl _) (Frame.refl _ _) .boot (by simp)

@[simp] theorem stateEntry_time {old} {cause} {m : Mach} : (stateEntry old cause m).time = m.time :=
  stateEntry_fr (List.Subset.refl _) (Frame.refl _ _) .time (by simp)

@[simp] theorem stateEntry_job {old} {cause} {m : Mach} : (stateEntry old cause m).job = m.job :=
  stateEntry_fr (List.Subset.refl _) (Frame.refl _ _) .job (by simp)

@[simp] theorem stateEntry_imp {old} {cause} {m : Mach} : (stateEntry old cause m).imp = m.imp :=
  stateEntry_fr (List.Subset.refl _) (Frame.refl _ _) .imp (by simp)

@[simp] theorem stateEntry_beams {old} {cause} {m : Mach} : (stateEntry old cause m).beams = m.beams :=
  stateEntry_fr (List.Subset.refl _) (Frame.refl _ _) .beams (by simp)

@[simp] theorem stateEntry_mpl {old} {cause} {m : Mach} : (stateEntry old cause m).mpl = m.mpl :=
  stateEntry_fr (List.Subset.refl _) (Frame.refl _ _) .mpl (by simp)

@[simp] theorem stateEntry_hmap {old} {cause} {m : Mach} : (stateEntry old cause m).hmap = m.hmap :=
  stateEntry_fr (List.Subset.refl _) (Frame.refl _ _) .hmap (by simp)

@[simp] theorem stateEntry_cells {old} {cause} {m : Mach} : (stateEntry old cause m).cells = m.cells :=
  stateEntry_fr (List.Subset.refl _) (Frame.refl _ _) .cells (by simp)

@[simp] theorem stateEntry_sig {old} {cause} {m : Mach} : (stateEntry old cause m).sig = m.sig :=
  stateEntry_fr (List.Subset.refl _) (Frame.refl _ _) .sig (by simp)

@[simp] theorem stateEntry_lanes {old} {cause} {m : Mach} : (stateEntry old cause m).lanes = m.lanes :=
  stateEntry_fr (List.Subset.refl _) (Frame.refl _ _) .lanes (by simp)

@[simp] theorem stateEntry_heads {old} {cause} {m : Mach} : (stateEntry old cause m).heads = m.heads :=
  stateEntry_fr (List.Subset.refl _) (Frame.refl _ _) .heads (by simp)

@[simp] theorem stateEntry_stg {old} {cause} {m : Mach} : (stateEntry old cause m).stg = m.stg :=
  stateEntry_fr (List.Subset.refl _) (Frame.refl _ _) .stg (by simp)

@[simp] theorem stateEntry_ilk {old} {cause} {m : Mach} : (stateEntry old cause m).ilk = m.ilk :=
  stateEntry_fr (List.Subset.refl _) (Frame.refl _ _) .ilk (by simp)

@[simp] theorem stateEntry_hlt {old} {cause} {m : Mach} : (stateEntry old cause m).hlt = m.hlt :=
  stateEntry_fr (List.Subset.refl _) (Frame.refl _ _) .hlt (by simp)

@[simp] theorem stateEntry_keep {old} {cause} {m : Mach} : (stateEntry old cause m).keep = m.keep :=
  stateEntry_fr (List.Subset.refl _) (Frame.refl _ _) .keep (by simp)

@[simp] theorem stateEntry_free {old} {cause} {m : Mach} : (stateEntry old cause m).free = m.free :=
  stateEntry_fr (List.Subset.refl _) (Frame.refl _ _) .free (by simp)

@[simp] theorem stateEntry_env {old} {cause} {m : Mach} : (stateEntry old cause m).env = m.env :=
  stateEntry_fr (List.Subset.refl _) (Frame.refl _ _) .env (by simp)

@[simp] theorem stateEntry_dev {old} {cause} {m : Mach} : (stateEntry old cause m).g.dev = m.g.dev :=
  dev_of_bare (stateEntry_fr (List.Subset.refl _) (Frame.refl _ _) .g (by simp))

@[simp] theorem stateEntry_bytes {old} {cause} {m : Mach} : (stateEntry old cause m).mem.cells = m.mem.cells :=
  stateEntry_fr (List.Subset.refl _) (Frame.refl _ _) .bytes (by simp)

@[simp] theorem devMove_aon {new} {cause} {m : Mach} : (devMove new cause m).aon = m.aon :=
  devMove_fr (List.Subset.refl _) (Frame.refl _ _) .aon (by simp)

@[simp] theorem devMove_clk {new} {cause} {m : Mach} : (devMove new cause m).clk = m.clk :=
  devMove_fr (List.Subset.refl _) (Frame.refl _ _) .clk (by simp)

@[simp] theorem devMove_boot {new} {cause} {m : Mach} : (devMove new cause m).boot = m.boot :=
  devMove_fr (List.Subset.refl _) (Frame.refl _ _) .boot (by simp)

@[simp] theorem devMove_time {new} {cause} {m : Mach} : (devMove new cause m).time = m.time :=
  devMove_fr (List.Subset.refl _) (Frame.refl _ _) .time (by simp)

@[simp] theorem devMove_job {new} {cause} {m : Mach} : (devMove new cause m).job = m.job :=
  devMove_fr (List.Subset.refl _) (Frame.refl _ _) .job (by simp)

@[simp] theorem devMove_imp {new} {cause} {m : Mach} : (devMove new cause m).imp = m.imp :=
  devMove_fr (List.Subset.refl _) (Frame.refl _ _) .imp (by simp)

@[simp] theorem devMove_mpl {new} {cause} {m : Mach} : (devMove new cause m).mpl = m.mpl :=
  devMove_fr (List.Subset.refl _) (Frame.refl _ _) .mpl (by simp)

@[simp] theorem devMove_hmap {new} {cause} {m : Mach} : (devMove new cause m).hmap = m.hmap :=
  devMove_fr (List.Subset.refl _) (Frame.refl _ _) .hmap (by simp)

@[simp] theorem devMove_cells {new} {cause} {m : Mach} : (devMove new cause m).cells = m.cells :=
  devMove_fr (List.Subset.refl _) (Frame.refl _ _) .cells (by simp)

@[simp] theorem devMove_lanes {new} {cause} {m : Mach} : (devMove new cause m).lanes = m.lanes :=
  devMove_fr (List.Subset.refl _) (Frame.refl _ _) .lanes (by simp)

@[simp] theorem devMove_heads {new} {cause} {m : Mach} : (devMove new cause m).heads = m.heads :=
  devMove_fr (List.Subset.refl _) (Frame.refl _ _) .heads (by simp)

@[simp] theorem devMove_stg {new} {cause} {m : Mach} : (devMove new cause m).stg = m.stg :=
  devMove_fr (List.Subset.refl _) (Frame.refl _ _) .stg (by simp)

@[simp] theorem devMove_hlt {new} {cause} {m : Mach} : (devMove new cause m).hlt = m.hlt :=
  devMove_fr (List.Subset.refl _) (Frame.refl _ _) .hlt (by simp)

@[simp] theorem devMove_keep {new} {cause} {m : Mach} : (devMove new cause m).keep = m.keep :=
  devMove_fr (List.Subset.refl _) (Frame.refl _ _) .keep (by simp)

@[simp] theorem devMove_free {new} {cause} {m : Mach} : (devMove new cause m).free = m.free :=
  devMove_fr (List.Subset.refl _) (Frame.refl _ _) .free (by simp)

@[simp] theorem devMove_env {new} {cause} {m : Mach} : (devMove new cause m).env = m.env :=
  devMove_fr (List.Subset.refl _) (Frame.refl _ _) .env (by simp)

@[simp] theorem devMove_bytes {new} {cause} {m : Mach} : (devMove new cause m).mem.cells = m.mem.cells :=
  devMove_fr (List.Subset.refl _) (Frame.refl _ _) .bytes (by simp)

@[simp] theorem pinsFollow_aon {m : Mach} : (pinsFollow m).aon = m.aon :=
  pinsFollow_fr (List.Subset.refl _) (Frame.refl _ _) .aon (by simp)

@[simp] theorem pinsFollow_clk {m : Mach} : (pinsFollow m).clk = m.clk :=
  pinsFollow_fr (List.Subset.refl _) (Frame.refl _ _) .clk (by simp)

@[simp] theorem pinsFollow_boot {m : Mach} : (pinsFollow m).boot = m.boot :=
  pinsFollow_fr (List.Subset.refl _) (Frame.refl _ _) .boot (by simp)

@[simp] theorem pinsFollow_time {m : Mach} : (pinsFollow m).time = m.time :=
  pinsFollow_fr (List.Subset.refl _) (Frame.refl _ _) .time (by simp)

@[simp] theorem pinsFollow_job {m : Mach} : (pinsFollow m).job = m.job :=
  pinsFollow_fr (List.Subset.refl _) (Frame.refl _ _) .job (by simp)

@[simp] theorem pinsFollow_imp {m : Mach} : (pinsFollow m).imp = m.imp :=
  pinsFollow_fr (List.Subset.refl _) (Frame.refl _ _) .imp (by simp)

@[simp] theorem pinsFollow_mpl {m : Mach} : (pinsFollow m).mpl = m.mpl :=
  pinsFollow_fr (List.Subset.refl _) (Frame.refl _ _) .mpl (by simp)

@[simp] theorem pinsFollow_hmap {m : Mach} : (pinsFollow m).hmap = m.hmap :=
  pinsFollow_fr (List.Subset.refl _) (Frame.refl _ _) .hmap (by simp)

@[simp] theorem pinsFollow_cells {m : Mach} : (pinsFollow m).cells = m.cells :=
  pinsFollow_fr (List.Subset.refl _) (Frame.refl _ _) .cells (by simp)

@[simp] theorem pinsFollow_sig {m : Mach} : (pinsFollow m).sig = m.sig :=
  pinsFollow_fr (List.Subset.refl _) (Frame.refl _ _) .sig (by simp)

@[simp] theorem pinsFollow_lanes {m : Mach} : (pinsFollow m).lanes = m.lanes :=
  pinsFollow_fr (List.Subset.refl _) (Frame.refl _ _) .lanes (by simp)

@[simp] theorem pinsFollow_heads {m : Mach} : (pinsFollow m).heads = m.heads :=
  pinsFollow_fr (List.Subset.refl _) (Frame.refl _ _) .heads (by simp)

@[simp] theorem pinsFollow_stg {m : Mach} : (pinsFollow m).stg = m.stg :=
  pinsFollow_fr (List.Subset.refl _) (Frame.refl _ _) .stg (by simp)

@[simp] theorem pinsFollow_hlt {m : Mach} : (pinsFollow m).hlt = m.hlt :=
  pinsFollow_fr (List.Subset.refl _) (Frame.refl _ _) .hlt (by simp)

@[simp] theorem pinsFollow_keep {m : Mach} : (pinsFollow m).keep = m.keep :=
  pinsFollow_fr (List.Subset.refl _) (Frame.refl _ _) .keep (by simp)

@[simp] theorem pinsFollow_free {m : Mach} : (pinsFollow m).free = m.free :=
  pinsFollow_fr (List.Subset.refl _) (Frame.refl _ _) .free (by simp)

@[simp] theorem pinsFollow_env {m : Mach} : (pinsFollow m).env = m.env :=
  pinsFollow_fr (List.Subset.refl _) (Frame.refl _ _) .env (by simp)

@[simp] theorem pinsFollow_dev {m : Mach} : (pinsFollow m).g.dev = m.g.dev :=
  dev_of_bare (pinsFollow_fr (List.Subset.refl _) (Frame.refl _ _) .g (by simp))

@[simp] theorem pinsFollow_bytes {m : Mach} : (pinsFollow m).mem.cells = m.mem.cells :=
  pinsFollow_fr (List.Subset.refl _) (Frame.refl _ _) .bytes (by simp)

@[simp] theorem ilkDrive_aon {m : Mach} : (ilkDrive m).aon = m.aon :=
  ilkDrive_fr (List.Subset.refl _) (Frame.refl _ _) .aon (by simp)

@[simp] theorem ilkDrive_clk {m : Mach} : (ilkDrive m).clk = m.clk :=
  ilkDrive_fr (List.Subset.refl _) (Frame.refl _ _) .clk (by simp)

@[simp] theorem ilkDrive_boot {m : Mach} : (ilkDrive m).boot = m.boot :=
  ilkDrive_fr (List.Subset.refl _) (Frame.refl _ _) .boot (by simp)

@[simp] theorem ilkDrive_time {m : Mach} : (ilkDrive m).time = m.time :=
  ilkDrive_fr (List.Subset.refl _) (Frame.refl _ _) .time (by simp)

@[simp] theorem ilkDrive_job {m : Mach} : (ilkDrive m).job = m.job :=
  ilkDrive_fr (List.Subset.refl _) (Frame.refl _ _) .job (by simp)

@[simp] theorem ilkDrive_imp {m : Mach} : (ilkDrive m).imp = m.imp :=
  ilkDrive_fr (List.Subset.refl _) (Frame.refl _ _) .imp (by simp)

@[simp] theorem ilkDrive_mpl {m : Mach} : (ilkDrive m).mpl = m.mpl :=
  ilkDrive_fr (List.Subset.refl _) (Frame.refl _ _) .mpl (by simp)

@[simp] theorem ilkDrive_hmap {m : Mach} : (ilkDrive m).hmap = m.hmap :=
  ilkDrive_fr (List.Subset.refl _) (Frame.refl _ _) .hmap (by simp)

@[simp] theorem ilkDrive_cells {m : Mach} : (ilkDrive m).cells = m.cells :=
  ilkDrive_fr (List.Subset.refl _) (Frame.refl _ _) .cells (by simp)

@[simp] theorem ilkDrive_sig {m : Mach} : (ilkDrive m).sig = m.sig :=
  ilkDrive_fr (List.Subset.refl _) (Frame.refl _ _) .sig (by simp)

@[simp] theorem ilkDrive_lanes {m : Mach} : (ilkDrive m).lanes = m.lanes :=
  ilkDrive_fr (List.Subset.refl _) (Frame.refl _ _) .lanes (by simp)

@[simp] theorem ilkDrive_heads {m : Mach} : (ilkDrive m).heads = m.heads :=
  ilkDrive_fr (List.Subset.refl _) (Frame.refl _ _) .heads (by simp)

@[simp] theorem ilkDrive_stg {m : Mach} : (ilkDrive m).stg = m.stg :=
  ilkDrive_fr (List.Subset.refl _) (Frame.refl _ _) .stg (by simp)

@[simp] theorem ilkDrive_hlt {m : Mach} : (ilkDrive m).hlt = m.hlt :=
  ilkDrive_fr (List.Subset.refl _) (Frame.refl _ _) .hlt (by simp)

@[simp] theorem ilkDrive_keep {m : Mach} : (ilkDrive m).keep = m.keep :=
  ilkDrive_fr (List.Subset.refl _) (Frame.refl _ _) .keep (by simp)

@[simp] theorem ilkDrive_free {m : Mach} : (ilkDrive m).free = m.free :=
  ilkDrive_fr (List.Subset.refl _) (Frame.refl _ _) .free (by simp)

@[simp] theorem ilkDrive_env {m : Mach} : (ilkDrive m).env = m.env :=
  ilkDrive_fr (List.Subset.refl _) (Frame.refl _ _) .env (by simp)

@[simp] theorem ilkDrive_dev {m : Mach} : (ilkDrive m).g.dev = m.g.dev :=
  dev_of_bare (ilkDrive_fr (List.Subset.refl _) (Frame.refl _ _) .g (by simp))

@[simp] theorem ilkDrive_bytes {m : Mach} : (ilkDrive m).mem.cells = m.mem.cells :=
  ilkDrive_fr (List.Subset.refl _) (Frame.refl _ _) .bytes (by simp)

@[simp] theorem lampsFollow_aon {m : Mach} : (lampsFollow m).aon = m.aon :=
  lampsFollow_fr (List.Subset.refl _) (Frame.refl _ _) .aon (by simp)

@[simp] theorem lampsFollow_clk {m : Mach} : (lampsFollow m).clk = m.clk :=
  lampsFollow_fr (List.Subset.refl _) (Frame.refl _ _) .clk (by simp)

@[simp] theorem lampsFollow_boot {m : Mach} : (lampsFollow m).boot = m.boot :=
  lampsFollow_fr (List.Subset.refl _) (Frame.refl _ _) .boot (by simp)

@[simp] theorem lampsFollow_time {m : Mach} : (lampsFollow m).time = m.time :=
  lampsFollow_fr (List.Subset.refl _) (Frame.refl _ _) .time (by simp)

@[simp] theorem lampsFollow_job {m : Mach} : (lampsFollow m).job = m.job :=
  lampsFollow_fr (List.Subset.refl _) (Frame.refl _ _) .job (by simp)

@[simp] theorem lampsFollow_imp {m : Mach} : (lampsFollow m).imp = m.imp :=
  lampsFollow_fr (List.Subset.refl _) (Frame.refl _ _) .imp (by simp)

@[simp] theorem lampsFollow_beams {m : Mach} : (lampsFollow m).beams = m.beams :=
  lampsFollow_fr (List.Subset.refl _) (Frame.refl _ _) .beams (by simp)

@[simp] theorem lampsFollow_mpl {m : Mach} : (lampsFollow m).mpl = m.mpl :=
  lampsFollow_fr (List.Subset.refl _) (Frame.refl _ _) .mpl (by simp)

@[simp] theorem lampsFollow_hmap {m : Mach} : (lampsFollow m).hmap = m.hmap :=
  lampsFollow_fr (List.Subset.refl _) (Frame.refl _ _) .hmap (by simp)

@[simp] theorem lampsFollow_cells {m : Mach} : (lampsFollow m).cells = m.cells :=
  lampsFollow_fr (List.Subset.refl _) (Frame.refl _ _) .cells (by simp)

@[simp] theorem lampsFollow_sig {m : Mach} : (lampsFollow m).sig = m.sig :=
  lampsFollow_fr (List.Subset.refl _) (Frame.refl _ _) .sig (by simp)

@[simp] theorem lampsFollow_lanes {m : Mach} : (lampsFollow m).lanes = m.lanes :=
  lampsFollow_fr (List.Subset.refl _) (Frame.refl _ _) .lanes (by simp)

@[simp] theorem lampsFollow_heads {m : Mach} : (lampsFollow m).heads = m.heads :=
  lampsFollow_fr (List.Subset.refl _) (Frame.refl _ _) .heads (by simp)

@[simp] theorem lampsFollow_stg {m : Mach} : (lampsFollow m).stg = m.stg :=
  lampsFollow_fr (List.Subset.refl _) (Frame.refl _ _) .stg (by simp)

@[simp] theorem lampsFollow_hlt {m : Mach} : (lampsFollow m).hlt = m.hlt :=
  lampsFollow_fr (List.Subset.refl _) (Frame.refl _ _) .hlt (by simp)

@[simp] theorem lampsFollow_keep {m : Mach} : (lampsFollow m).keep = m.keep :=
  lampsFollow_fr (List.Subset.refl _) (Frame.refl _ _) .keep (by simp)

@[simp] theorem lampsFollow_free {m : Mach} : (lampsFollow m).free = m.free :=
  lampsFollow_fr (List.Subset.refl _) (Frame.refl _ _) .free (by simp)

@[simp] theorem lampsFollow_env {m : Mach} : (lampsFollow m).env = m.env :=
  lampsFollow_fr (List.Subset.refl _) (Frame.refl _ _) .env (by simp)

@[simp] theorem lampsFollow_dev {m : Mach} : (lampsFollow m).g.dev = m.g.dev :=
  dev_of_bare (lampsFollow_fr (List.Subset.refl _) (Frame.refl _ _) .g (by simp))

@[simp] theorem lampsFollow_bytes {m : Mach} : (lampsFollow m).mem.cells = m.mem.cells :=
  lampsFollow_fr (List.Subset.refl _) (Frame.refl _ _) .bytes (by simp)

@[simp] theorem ilkStamp_aon {m : Mach} : (ilkStamp m).aon = m.aon :=
  ilkStamp_fr (List.Subset.refl _) (Frame.refl _ _) .aon (by simp)

@[simp] theorem ilkStamp_clk {m : Mach} : (ilkStamp m).clk = m.clk :=
  ilkStamp_fr (List.Subset.refl _) (Frame.refl _ _) .clk (by simp)

@[simp] theorem ilkStamp_boot {m : Mach} : (ilkStamp m).boot = m.boot :=
  ilkStamp_fr (List.Subset.refl _) (Frame.refl _ _) .boot (by simp)

@[simp] theorem ilkStamp_time {m : Mach} : (ilkStamp m).time = m.time :=
  ilkStamp_fr (List.Subset.refl _) (Frame.refl _ _) .time (by simp)

@[simp] theorem ilkStamp_job {m : Mach} : (ilkStamp m).job = m.job :=
  ilkStamp_fr (List.Subset.refl _) (Frame.refl _ _) .job (by simp)

@[simp] theorem ilkStamp_imp {m : Mach} : (ilkStamp m).imp = m.imp :=
  ilkStamp_fr (List.Subset.refl _) (Frame.refl _ _) .imp (by simp)

@[simp] theorem ilkStamp_beams {m : Mach} : (ilkStamp m).beams = m.beams :=
  ilkStamp_fr (List.Subset.refl _) (Frame.refl _ _) .beams (by simp)

@[simp] theorem ilkStamp_mpl {m : Mach} : (ilkStamp m).mpl = m.mpl :=
  ilkStamp_fr (List.Subset.refl _) (Frame.refl _ _) .mpl (by simp)

@[simp] theorem ilkStamp_hmap {m : Mach} : (ilkStamp m).hmap = m.hmap :=
  ilkStamp_fr (List.Subset.refl _) (Frame.refl _ _) .hmap (by simp)

@[simp] theorem ilkStamp_cells {m : Mach} : (ilkStamp m).cells = m.cells :=
  ilkStamp_fr (List.Subset.refl _) (Frame.refl _ _) .cells (by simp)

@[simp] theorem ilkStamp_sig {m : Mach} : (ilkStamp m).sig = m.sig :=
  ilkStamp_fr (List.Subset.refl _) (Frame.refl _ _) .sig (by simp)

@[simp] theorem ilkStamp_lanes {m : Mach} : (ilkStamp m).lanes = m.lanes :=
  ilkStamp_fr (List.Subset.refl _) (Frame.refl _ _) .lanes (by simp)

@[simp] theorem ilkStamp_heads {m : Mach} : (ilkStamp m).heads = m.heads :=
  ilkStamp_fr (List.Subset.refl _) (Frame.refl _ _) .heads (by simp)

@[simp] theorem ilkStamp_stg {m : Mach} : (ilkStamp m).stg = m.stg :=
  ilkStamp_fr (List.Subset.refl _) (Frame.refl _ _) .stg (by simp)

@[simp] theorem ilkStamp_hlt {m : Mach} : (ilkStamp m).hlt = m.hlt :=
  ilkStamp_fr (List.Subset.refl _) (Frame.refl _ _) .hlt (by simp)

@[simp] theorem ilkStamp_keep {m : Mach} : (ilkStamp m).keep = m.keep :=
  ilkStamp_fr (List.Subset.refl _) (Frame.refl _ _) .keep (by simp)

@[simp] theorem ilkStamp_outs {m : Mach} : (ilkStamp m).outs = m.outs :=
  ilkStamp_fr (List.Subset.refl _) (Frame.refl _ _) .outs (by simp)

@[simp] theorem ilkStamp_free {m : Mach} : (ilkStamp m).free = m.free :=
  ilkStamp_fr (List.Subset.refl _) (Frame.refl _ _) .free (by simp)

@[simp] theorem ilkStamp_env {m : Mach} : (ilkStamp m).env = m.env :=
  ilkStamp_fr (List.Subset.refl _) (Frame.refl _ _) .env (by simp)

@[simp] theorem ilkStamp_dev {m : Mach} : (ilkStamp m).g.dev = m.g.dev :=
  dev_of_bare (ilkStamp_fr (List.Subset.refl _) (Frame.refl _ _) .g (by simp))

@[simp] theorem ilkStamp_bytes {m : Mach} : (ilkStamp m).mem.cells = m.mem.cells :=
  ilkStamp_fr (List.Subset.refl _) (Frame.refl _ _) .bytes (by simp)

@[simp] theorem jobMove_aon {st} {causes} {m : Mach} : (jobMove st causes m).aon = m.aon :=
  jobMove_fr (List.Subset.refl _) (Frame.refl _ _) .aon (by simp)

@[simp] theorem jobMove_clk {st} {causes} {m : Mach} : (jobMove st causes m).clk = m.clk :=
  jobMove_fr (List.Subset.refl _) (Frame.refl _ _) .clk (by simp)

@[simp] theorem jobMove_boot {st} {causes} {m : Mach} : (jobMove st causes m).boot = m.boot :=
  jobMove_fr (List.Subset.refl _) (Frame.refl _ _) .boot (by simp)

@[simp] theorem jobMove_time {st} {causes} {m : Mach} : (jobMove st causes m).time = m.time :=
  jobMove_fr (List.Subset.refl _) (Frame.refl _ _) .time (by simp)

@[simp] theorem jobMove_imp {st} {causes} {m : Mach} : (jobMove st causes m).imp = m.imp :=
  jobMove_fr (List.Subset.refl _) (Frame.refl _ _) .imp (by simp)

@[simp] theorem jobMove_beams {st} {causes} {m : Mach} : (jobMove st causes m).beams = m.beams :=
  jobMove_fr (List.Subset.refl _) (Frame.refl _ _) .beams (by simp)

@[simp] theorem jobMove_mpl {st} {causes} {m : Mach} : (jobMove st causes m).mpl = m.mpl :=
  jobMove_fr (List.Subset.refl _) (Frame.refl _ _) .mpl (by simp)

@[simp] theorem jobMove_hmap {st} {causes} {m : Mach} : (jobMove st causes m).hmap = m.hmap :=
  jobMove_fr (List.Subset.refl _) (Frame.refl _ _) .hmap (by simp)

@[simp] theorem jobMove_cells {st} {causes} {m : Mach} : (jobMove st causes m).cells = m.cells :=
  jobMove_fr (List.Subset.refl _) (Frame.refl _ _) .cells (by simp)

@[simp] theorem jobMove_lanes {st} {causes} {m : Mach} : (jobMove st causes m).lanes = m.lanes :=
  jobMove_fr (List.Subset.refl _) (Frame.refl _ _) .lanes (by simp)

@[simp] theorem jobMove_heads {st} {causes} {m : Mach} : (jobMove st causes m).heads = m.heads :=
  jobMove_fr (List.Subset.refl _) (Frame.refl _ _) .heads (by simp)

@[simp] theorem jobMove_stg {st} {causes} {m : Mach} : (jobMove st causes m).stg = m.stg :=
  jobMove_fr (List.Subset.refl _) (Frame.refl _ _) .stg (by simp)

@[simp] theorem jobMove_ilk {st} {causes} {m : Mach} : (jobMove st causes m).ilk = m.ilk :=
  jobMove_fr (List.Subset.refl _) (Frame.refl _ _) .ilk (by simp)

@[simp] theorem jobMove_hlt {st} {causes} {m : Mach} : (jobMove st causes m).hlt = m.hlt :=
  jobMove_fr (List.Subset.refl _) (Frame.refl _ _) .hlt (by simp)

@[simp] theorem jobMove_keep {st} {causes} {m : Mach} : (jobMove st causes m).keep = m.keep :=
  jobMove_fr (List.Subset.refl _) (Frame.refl _ _) .keep (by simp)

@[simp] theorem jobMove_free {st} {causes} {m : Mach} : (jobMove st causes m).free = m.free :=
  jobMove_fr (List.Subset.refl _) (Frame.refl _ _) .free (by simp)

@[simp] theorem jobMove_env {st} {causes} {m : Mach} : (jobMove st causes m).env = m.env :=
  jobMove_fr (List.Subset.refl _) (Frame.refl _ _) .env (by simp)

@[simp] theorem jobMove_dev {st} {causes} {m : Mach} : (jobMove st causes m).g.dev = m.g.dev :=
  dev_of_bare (jobMove_fr (List.Subset.refl _) (Frame.refl _ _) .g (by simp))

@[simp] theorem jobMove_bytes {st} {causes} {m : Mach} : (jobMove st causes m).mem.cells = m.mem.cells :=
  jobMove_fr (List.Subset.refl _) (Frame.refl _ _) .bytes (by simp)

@[simp] theorem jobAddCause_aon {c} {m : Mach} : (jobAddCause c m).aon = m.aon :=
  jobAddCause_fr (List.Subset.refl _) (Frame.refl _ _) .aon (by simp)

@[simp] theorem jobAddCause_clk {c} {m : Mach} : (jobAddCause c m).clk = m.clk :=
  jobAddCause_fr (List.Subset.refl _) (Frame.refl _ _) .clk (by simp)

@[simp] theorem jobAddCause_boot {c} {m : Mach} : (jobAddCause c m).boot = m.boot :=
  jobAddCause_fr (List.Subset.refl _) (Frame.refl _ _) .boot (by simp)

@[simp] theorem jobAddCause_time {c} {m : Mach} : (jobAddCause c m).time = m.time :=
  jobAddCause_fr (List.Subset.refl _) (Frame.refl _ _) .time (by simp)

@[simp] theorem jobAddCause_imp {c} {m : Mach} : (jobAddCause c m).imp = m.imp :=
  jobAddCause_fr (List.Subset.refl _) (Frame.refl _ _) .imp (by simp)

@[simp] theorem jobAddCause_beams {c} {m : Mach} : (jobAddCause c m).beams = m.beams :=
  jobAddCause_fr (List.Subset.refl _) (Frame.refl _ _) .beams (by simp)

@[simp] theorem jobAddCause_mpl {c} {m : Mach} : (jobAddCause c m).mpl = m.mpl :=
  jobAddCause_fr (List.Subset.refl _) (Frame.refl _ _) .mpl (by simp)

@[simp] theorem jobAddCause_hmap {c} {m : Mach} : (jobAddCause c m).hmap = m.hmap :=
  jobAddCause_fr (List.Subset.refl _) (Frame.refl _ _) .hmap (by simp)

@[simp] theorem jobAddCause_cells {c} {m : Mach} : (jobAddCause c m).cells = m.cells :=
  jobAddCause_fr (List.Subset.refl _) (Frame.refl _ _) .cells (by simp)

@[simp] theorem jobAddCause_lanes {c} {m : Mach} : (jobAddCause c m).lanes = m.lanes :=
  jobAddCause_fr (List.Subset.refl _) (Frame.refl _ _) .lanes (by simp)

@[simp] theorem jobAddCause_heads {c} {m : Mach} : (jobAddCause c m).heads = m.heads :=
  jobAddCause_fr (List.Subset.refl _) (Frame.refl _ _) .heads (by simp)

@[simp] theorem jobAddCause_stg {c} {m : Mach} : (jobAddCause c m).stg = m.stg :=
  jobAddCause_fr (List.Subset.refl _) (Frame.refl _ _) .stg (by simp)

@[simp] theorem jobAddCause_ilk {c} {m : Mach} : (jobAddCause c m).ilk = m.ilk :=
  jobAddCause_fr (List.Subset.refl _) (Frame.refl _ _) .ilk (by simp)

@[simp] theorem jobAddCause_hlt {c} {m : Mach} : (jobAddCause c m).hlt = m.hlt :=
  jobAddCause_fr (List.Subset.refl _) (Frame.refl _ _) .hlt (by simp)

@[simp] theorem jobAddCause_keep {c} {m : Mach} : (jobAddCause c m).keep = m.keep :=
  jobAddCause_fr (List.Subset.refl _) (Frame.refl _ _) .keep (by simp)

@[simp] theorem jobAddCause_free {c} {m : Mach} : (jobAddCause c m).free = m.free :=
  jobAddCause_fr (List.Subset.refl _) (Frame.refl _ _) .free (by simp)

@[simp] theorem jobAddCause_env {c} {m : Mach} : (jobAddCause c m).env = m.env :=
  jobAddCause_fr (List.Subset.refl _) (Frame.refl _ _) .env (by simp)

@[simp] theorem jobAddCause_dev {c} {m : Mach} : (jobAddCause c m).g.dev = m.g.dev :=
  dev_of_bare (jobAddCause_fr (List.Subset.refl _) (Frame.refl _ _) .g (by simp))

@[simp] theorem jobAddCause_bytes {c} {m : Mach} : (jobAddCause c m).mem.cells = m.mem.cells :=
  jobAddCause_fr (List.Subset.refl _) (Frame.refl _ _) .bytes (by simp)

@[simp] theorem freeSlot_aon {i} {m : Mach} : (freeSlot i m).aon = m.aon :=
  freeSlot_fr (List.Subset.refl _) (Frame.refl _ _) .aon (by simp)

@[simp] theorem freeSlot_clk {i} {m : Mach} : (freeSlot i m).clk = m.clk :=
  freeSlot_fr (List.Subset.refl _) (Frame.refl _ _) .clk (by simp)

@[simp] theorem freeSlot_boot {i} {m : Mach} : (freeSlot i m).boot = m.boot :=
  freeSlot_fr (List.Subset.refl _) (Frame.refl _ _) .boot (by simp)

@[simp] theorem freeSlot_time {i} {m : Mach} : (freeSlot i m).time = m.time :=
  freeSlot_fr (List.Subset.refl _) (Frame.refl _ _) .time (by simp)

@[simp] theorem freeSlot_imp {i} {m : Mach} : (freeSlot i m).imp = m.imp :=
  freeSlot_fr (List.Subset.refl _) (Frame.refl _ _) .imp (by simp)

@[simp] theorem freeSlot_beams {i} {m : Mach} : (freeSlot i m).beams = m.beams :=
  freeSlot_fr (List.Subset.refl _) (Frame.refl _ _) .beams (by simp)

@[simp] theorem freeSlot_mpl {i} {m : Mach} : (freeSlot i m).mpl = m.mpl :=
  freeSlot_fr (List.Subset.refl _) (Frame.refl _ _) .mpl (by simp)

@[simp] theorem freeSlot_hmap {i} {m : Mach} : (freeSlot i m).hmap = m.hmap :=
  freeSlot_fr (List.Subset.refl _) (Frame.refl _ _) .hmap (by simp)

@[simp] theorem freeSlot_cells {i} {m : Mach} : (freeSlot i m).cells = m.cells :=
  freeSlot_fr (List.Subset.refl _) (Frame.refl _ _) .cells (by simp)

@[simp] theorem freeSlot_lanes {i} {m : Mach} : (freeSlot i m).lanes = m.lanes :=
  freeSlot_fr (List.Subset.refl _) (Frame.refl _ _) .lanes (by simp)

@[simp] theorem freeSlot_heads {i} {m : Mach} : (freeSlot i m).heads = m.heads :=
  freeSlot_fr (List.Subset.refl _) (Frame.refl _ _) .heads (by simp)

@[simp] theorem freeSlot_stg {i} {m : Mach} : (freeSlot i m).stg = m.stg :=
  freeSlot_fr (List.Subset.refl _) (Frame.refl _ _) .stg (by simp)

@[simp] theorem freeSlot_ilk {i} {m : Mach} : (freeSlot i m).ilk = m.ilk :=
  freeSlot_fr (List.Subset.refl _) (Frame.refl _ _) .ilk (by simp)

@[simp] theorem freeSlot_hlt {i} {m : Mach} : (freeSlot i m).hlt = m.hlt :=
  freeSlot_fr (List.Subset.refl _) (Frame.refl _ _) .hlt (by simp)

@[simp] theorem freeSlot_keep {i} {m : Mach} : (freeSlot i m).keep = m.keep :=
  freeSlot_fr (List.Subset.refl _) (Frame.refl _ _) .keep (by simp)

@[simp] theorem freeSlot_free {i} {m : Mach} : (freeSlot i m).free = m.free :=
  freeSlot_fr (List.Subset.refl _) (Frame.refl _ _) .free (by simp)

@[simp] theorem freeSlot_env {i} {m : Mach} : (freeSlot i m).env = m.env :=
  freeSlot_fr (List.Subset.refl _) (Frame.refl _ _) .env (by simp)

@[simp] theorem freeSlot_dev {i} {m : Mach} : (freeSlot i m).g.dev = m.g.dev :=
  dev_of_bare (freeSlot_fr (List.Subset.refl _) (Frame.refl _ _) .g (by simp))

@[simp] theorem freeSlot_bytes {i} {m : Mach} : (freeSlot i m).mem.cells = m.mem.cells :=
  freeSlot_fr (List.Subset.refl _) (Frame.refl _ _) .bytes (by simp)

@[simp] theorem layerOver_aon {m : Mach} : (layerOver m).aon = m.aon :=
  layerOver_fr (List.Subset.refl _) (Frame.refl _ _) .aon (by simp)

@[simp] theorem layerOver_time {m : Mach} : (layerOver m).time = m.time :=
  layerOver_fr (List.Subset.refl _) (Frame.refl _ _) .time (by simp)

@[simp] theorem layerOver_job {m : Mach} : (layerOver m).job = m.job :=
  layerOver_fr (List.Subset.refl _) (Frame.refl _ _) .job (by simp)

@[simp] theorem layerOver_imp {m : Mach} : (layerOver m).imp = m.imp :=
  layerOver_fr (List.Subset.refl _) (Frame.refl _ _) .imp (by simp)

@[simp] theorem layerOver_mpl {m : Mach} : (layerOver m).mpl = m.mpl :=
  layerOver_fr (List.Subset.refl _) (Frame.refl _ _) .mpl (by simp)

@[simp] theorem layerOver_hmap {m : Mach} : (layerOver m).hmap = m.hmap :=
  layerOver_fr (List.Subset.refl _) (Frame.refl _ _) .hmap (by simp)

@[simp] theorem layerOver_lanes {m : Mach} : (layerOver m).lanes = m.lanes :=
  layerOver_fr (List.Subset.refl _) (Frame.refl _ _) .lanes (by simp)

@[simp] theorem layerOver_heads {m : Mach} : (layerOver m).heads = m.heads :=
  layerOver_fr (List.Subset.refl _) (Frame.refl _ _) .heads (by simp)

@[simp] theorem layerOver_stg {m : Mach} : (layerOver m).stg = m.stg :=
  layerOver_fr (List.Subset.refl _) (Frame.refl _ _) .stg (by simp)

@[simp] theorem layerOver_ilk {m : Mach} : (layerOver m).ilk = m.ilk :=
  layerOver_fr (List.Subset.refl _) (Frame.refl _ _) .ilk (by simp)

@[simp] theorem layerOver_hlt {m : Mach} : (layerOver m).hlt = m.hlt :=
  layerOver_fr (List.Subset.refl _) (Frame.refl _ _) .hlt (by simp)

@[simp] theorem layerOver_keep {m : Mach} : (layerOver m).keep = m.keep :=
  layerOver_fr (List.Subset.refl _) (Frame.refl _ _) .keep (by simp)

@[simp] theorem layerOver_free {m : Mach} : (layerOver m).free = m.free :=
  layerOver_fr (List.Subset.refl _) (Frame.refl _ _) .free (by simp)

@[simp] theorem layerOver_env {m : Mach} : (layerOver m).env = m.env :=
  layerOver_fr (List.Subset.refl _) (Frame.refl _ _) .env (by simp)

@[simp] theorem layerOver_bytes {m : Mach} : (layerOver m).mem.cells = m.mem.cells :=
  layerOver_fr (List.Subset.refl _) (Frame.refl _ _) .bytes (by simp)

@[simp] theorem parkSend_aon {reason} {h} {m : Mach} : (parkSend reason h m).aon = m.aon :=
  parkSend_fr (List.Subset.refl _) (Frame.refl _ _) .aon (by simp)

@[simp] theorem parkSend_clk {reason} {h} {m : Mach} : (parkSend reason h m).clk = m.clk :=
  parkSend_fr (List.Subset.refl _) (Frame.refl _ _) .clk (by simp)

@[simp] theorem parkSend_boot {reason} {h} {m : Mach} : (parkSend reason h m).boot = m.boot :=
  parkSend_fr (List.Subset.refl _) (Frame.refl _ _) .boot (by simp)

@[simp] theorem parkSend_time {reason} {h} {m : Mach} : (parkSend reason h m).time = m.time :=
  parkSend_fr (List.Subset.refl _) (Frame.refl _ _) .time (by simp)

@[simp] theorem parkSend_job {reason} {h} {m : Mach} : (parkSend reason h m).job = m.job :=
  parkSend_fr (List.Subset.refl _) (Frame.refl _ _) .job (by simp)

@[simp] theorem parkSend_imp {reason} {h} {m : Mach} : (parkSend reason h m).imp = m.imp :=
  parkSend_fr (List.Subset.refl _) (Frame.refl _ _) .imp (by simp)

@[simp] theorem parkSend_beams {reason} {h} {m : Mach} : (parkSend reason h m).beams = m.beams :=
  parkSend_fr (List.Subset.refl _) (Frame.refl _ _) .beams (by simp)

@[simp] theorem parkSend_mpl {reason} {h} {m : Mach} : (parkSend reason h m).mpl = m.mpl :=
  parkSend_fr (List.Subset.refl _) (Frame.refl _ _) .mpl (by simp)

@[simp] theorem parkSend_hmap {reason} {h} {m : Mach} : (parkSend reason h m).hmap = m.hmap :=
  parkSend_fr (List.Subset.refl _) (Frame.refl _ _) .hmap (by simp)

@[simp] theorem parkSend_cells {reason} {h} {m : Mach} : (parkSend reason h m).cells = m.cells :=
  parkSend_fr (List.Subset.refl _) (Frame.refl _ _) .cells (by simp)

@[simp] theorem parkSend_sig {reason} {h} {m : Mach} : (parkSend reason h m).sig = m.sig :=
  parkSend_fr (List.Subset.refl _) (Frame.refl _ _) .sig (by simp)

@[simp] theorem parkSend_lanes {reason} {h} {m : Mach} : (parkSend reason h m).lanes = m.lanes :=
  parkSend_fr (List.Subset.refl _) (Frame.refl _ _) .lanes (by simp)

@[simp] theorem parkSend_stg {reason} {h} {m : Mach} : (parkSend reason h m).stg = m.stg :=
  parkSend_fr (List.Subset.refl _) (Frame.refl _ _) .stg (by simp)

@[simp] theorem parkSend_ilk {reason} {h} {m : Mach} : (parkSend reason h m).ilk = m.ilk :=
  parkSend_fr (List.Subset.refl _) (Frame.refl _ _) .ilk (by simp)

@[simp] theorem parkSend_hlt {reason} {h} {m : Mach} : (parkSend reason h m).hlt = m.hlt :=
  parkSend_fr (List.Subset.refl _) (Frame.refl _ _) .hlt (by simp)

@[simp] theorem parkSend_keep {reason} {h} {m : Mach} : (parkSend reason h m).keep = m.keep :=
  parkSend_fr (List.Subset.refl _) (Frame.refl _ _) .keep (by simp)

@[simp] theorem parkSend_free {reason} {h} {m : Mach} : (parkSend reason h m).free = m.free :=
  parkSend_fr (List.Subset.refl _) (Frame.refl _ _) .free (by simp)

@[simp] theorem parkSend_env {reason} {h} {m : Mach} : (parkSend reason h m).env = m.env :=
  parkSend_fr (List.Subset.refl _) (Frame.refl _ _) .env (by simp)

@[simp] theorem parkSend_dev {reason} {h} {m : Mach} : (parkSend reason h m).g.dev = m.g.dev :=
  dev_of_bare (parkSend_fr (List.Subset.refl _) (Frame.refl _ _) .g (by simp))

@[simp] theorem parkSend_bytes {reason} {h} {m : Mach} : (parkSend reason h m).mem.cells = m.mem.cells :=
  parkSend_fr (List.Subset.refl _) (Frame.refl _ _) .bytes (by simp)

@[simp] theorem axesHalt_aon {m : Mach} : (axesHalt m).aon = m.aon :=
  axesHalt_fr (List.Subset.refl _) (Frame.refl _ _) .aon (by simp)

@[simp] theorem axesHalt_clk {m : Mach} : (axesHalt m).clk = m.clk :=
  axesHalt_fr (List.Subset.refl _) (Frame.refl _ _) .clk (by simp)

@[simp] theorem axesHalt_boot {m : Mach} : (axesHalt m).boot = m.boot :=
  axesHalt_fr (List.Subset.refl _) (Frame.refl _ _) .boot (by simp)

@[simp] theorem axesHalt_time {m : Mach} : (axesHalt m).time = m.time :=
  axesHalt_fr (List.Subset.refl _) (Frame.refl _ _) .time (by simp)

@[simp] theorem axesHalt_job {m : Mach} : (axesHalt m).job = m.job :=
  axesHalt_fr (List.Subset.refl _) (Frame.refl _ _) .job (by simp)

@[simp] theorem axesHalt_imp {m : Mach} : (axesHalt m).imp = m.imp :=
  axesHalt_fr (List.Subset.refl _) (Frame.refl _ _) .imp (by simp)

@[simp] theorem axesHalt_beams {m : Mach} : (axesHalt m).beams = m.beams :=
  axesHalt_fr (List.Subset.refl _) (Frame.refl _ _) .beams (by simp)

@[simp] theorem axesHalt_mpl {m : Mach} : (axesHalt m).mpl = m.mpl :=
  axesHalt_fr (List.Subset.refl _) (Frame.refl _ _) .mpl (by simp)

@[simp] theorem axesHalt_hmap {m : Mach} : (axesHalt m).hmap = m.hmap :=
  axesHalt_fr (List.Subset.refl _) (Frame.refl _ _) .hmap (by simp)

@[simp] theorem axesHalt_cells {m : Mach} : (axesHalt m).cells = m.cells :=
  axesHalt_fr (List.Subset.refl _) (Frame.refl _ _) .cells (by simp)

@[simp] theorem axesHalt_sig {m : Mach} : (axesHalt m).sig = m.sig :=
  axesHalt_fr (List.Subset.refl _) (Frame.refl _ _) .sig (by simp)

@[simp] theorem axesHalt_lanes {m : Mach} : (axesHalt m).lanes = m.lanes :=
  axesHalt_fr (List.Subset.refl _) (Frame.refl _ _) .lanes (by simp)

@[simp] theorem axesHalt_heads {m : Mach} : (axesHalt m).heads = m.heads :=
  axesHalt_fr (List.Subset.refl _) (Frame.refl _ _) .heads (by simp)

@[simp] theorem axesHalt_ilk {m : Mach} : (axesHalt m).ilk = m.ilk :=
  axesHalt_fr (List.Subset.refl _) (Frame.refl _ _) .ilk (by simp)

@[simp] theorem axesHalt_hlt {m : Mach} : (axesHalt m).hlt = m.hlt :=
  axesHalt_fr (List.Subset.refl _) (Frame.refl _ _) .hlt (by simp)

@[simp] theorem axesHalt_keep {m : Mach} : (axesHalt m).keep = m.keep :=
  axesHalt_fr (List.Subset.refl _) (Frame.refl _ _) .keep (by simp)

@[simp] theorem axesHalt_env {m : Mach} : (axesHalt m).env = m.env :=
  axesHalt_fr (List.Subset.refl _) (Frame.refl _ _) .env (by simp)

@[simp] theorem axesHalt_dev {m : Mach} : (axesHalt m).g.dev = m.g.dev :=
  dev_of_bare (axesHalt_fr (List.Subset.refl _) (Frame.refl _ _) .g (by simp))

@[simp] theorem axesHalt_bytes {m : Mach} : (axesHalt m).mem.cells = m.mem.cells :=
  axesHalt_fr (List.Subset.refl _) (Frame.refl _ _) .bytes (by simp)

@[simp] theorem beamFreeze_aon {b} {m : Mach} : (beamFreeze b m).aon = m.aon :=
  beamFreeze_fr (List.Subset.refl _) (Frame.refl _ _) .aon (by simp)

@[simp] theorem beamFreeze_clk {b} {m : Mach} : (beamFreeze b m).clk = m.clk :=
  beamFreeze_fr (List.Subset.refl _) (Frame.refl _ _) .clk (by simp)

@[simp] theorem beamFreeze_boot {b} {m : Mach} : (beamFreeze b m).boot = m.boot :=
  beamFreeze_fr (List.Subset.refl _) (Frame.refl _ _) .boot (by simp)

@[simp] theorem beamFreeze_time {b} {m : Mach} : (beamFreeze b m).time = m.time :=
  beamFreeze_fr (List.Subset.refl _) (Frame.refl _ _) .time (by simp)

@[simp] theorem beamFreeze_job {b} {m : Mach} : (beamFreeze b m).job = m.job :=
  beamFreeze_fr (List.Subset.refl _) (Frame.refl _ _) .job (by simp)

@[simp] theorem beamFreeze_imp {b} {m : Mach} : (beamFreeze b m).imp = m.imp :=
  beamFreeze_fr (List.Subset.refl _) (Frame.refl _ _) .imp (by simp)

@[simp] theorem beamFreeze_mpl {b} {m : Mach} : (beamFreeze b m).mpl = m.mpl :=
  beamFreeze_fr (List.Subset.refl _) (Frame.refl _ _) .mpl (by simp)

@[simp] theorem beamFreeze_hmap {b} {m : Mach} : (beamFreeze b m).hmap = m.hmap :=
  beamFreeze_fr (List.Subset.refl _) (Frame.refl _ _) .hmap (by simp)

@[simp] theorem beamFreeze_cells {b} {m : Mach} : (beamFreeze b m).cells = m.cells :=
  beamFreeze_fr (List.Subset.refl _) (Frame.refl _ _) .cells (by simp)

@[simp] theorem beamFreeze_sig {b} {m : Mach} : (beamFreeze b m).sig = m.sig :=
  beamFreeze_fr (List.Subset.refl _) (Frame.refl _ _) .sig (by simp)

@[simp] theorem beamFreeze_lanes {b} {m : Mach} : (beamFreeze b m).lanes = m.lanes :=
  beamFreeze_fr (List.Subset.refl _) (Frame.refl _ _) .lanes (by simp)

@[simp] theorem beamFreeze_heads {b} {m : Mach} : (beamFreeze b m).heads = m.heads :=
  beamFreeze_fr (List.Subset.refl _) (Frame.refl _ _) .heads (by simp)

@[simp] theorem beamFreeze_stg {b} {m : Mach} : (beamFreeze b m).stg = m.stg :=
  beamFreeze_fr (List.Subset.refl _) (Frame.refl _ _) .stg (by simp)

@[simp] theorem beamFreeze_ilk {b} {m : Mach} : (beamFreeze b m).ilk = m.ilk :=
  beamFreeze_fr (List.Subset.refl _) (Frame.refl _ _) .ilk (by simp)

@[simp] theorem beamFreeze_hlt {b} {m : Mach} : (beamFreeze b m).hlt = m.hlt :=
  beamFreeze_fr (List.Subset.refl _) (Frame.refl _ _) .hlt (by simp)

@[simp] theorem beamFreeze_keep {b} {m : Mach} : (beamFreeze b m).keep = m.keep :=
  beamFreeze_fr (List.Subset.refl _) (Frame.refl _ _) .keep (by simp)

@[simp] theorem beamFreeze_free {b} {m : Mach} : (beamFreeze b m).free = m.free :=
  beamFreeze_fr (List.Subset.refl _) (Frame.refl _ _) .free (by simp)

@[simp] theorem beamFreeze_env {b} {m : Mach} : (beamFreeze b m).env = m.env :=
  beamFreeze_fr (List.Subset.refl _) (Frame.refl _ _) .env (by simp)

@[simp] theorem beamFreeze_dev {b} {m : Mach} : (beamFreeze b m).g.dev = m.g.dev :=
  dev_of_bare (beamFreeze_fr (List.Subset.refl _) (Frame.refl _ _) .g (by simp))

@[simp] theorem beamFreeze_bytes {b} {m : Mach} : (beamFreeze b m).mem.cells = m.mem.cells :=
  beamFreeze_fr (List.Subset.refl _) (Frame.refl _ _) .bytes (by simp)

@[simp] theorem enterSafe_aon {byFault} {cause} {m : Mach} : (enterSafe byFault cause m).aon = m.aon :=
  enterSafe_fr (List.Subset.refl _) (Frame.refl _ _) .aon (by simp)

@[simp] theorem enterSafe_time {byFault} {cause} {m : Mach} : (enterSafe byFault cause m).time = m.time :=
  enterSafe_fr (List.Subset.refl _) (Frame.refl _ _) .time (by simp)

@[simp] theorem enterSafe_job {byFault} {cause} {m : Mach} : (enterSafe byFault cause m).job = m.job :=
  enterSafe_fr (List.Subset.refl _) (Frame.refl _ _) .job (by simp)

@[simp] theorem enterSafe_hmap {byFault} {cause} {m : Mach} : (enterSafe byFault cause m).hmap = m.hmap :=
  enterSafe_fr (List.Subset.refl _) (Frame.refl _ _) .hmap (by simp)

@[simp] theorem enterSafe_lanes {byFault} {cause} {m : Mach} : (enterSafe byFault cause m).lanes = m.lanes :=
  enterSafe_fr (List.Subset.refl _) (Frame.refl _ _) .lanes (by simp)

@[simp] theorem enterSafe_hlt {byFault} {cause} {m : Mach} : (enterSafe byFault cause m).hlt = m.hlt :=
  enterSafe_fr (List.Subset.refl _) (Frame.refl _ _) .hlt (by simp)

@[simp] theorem enterSafe_keep {byFault} {cause} {m : Mach} : (enterSafe byFault cause m).keep = m.keep :=
  enterSafe_fr (List.Subset.refl _) (Frame.refl _ _) .keep (by simp)

@[simp] theorem enterSafe_env {byFault} {cause} {m : Mach} : (enterSafe byFault cause m).env = m.env :=
  enterSafe_fr (List.Subset.refl _) (Frame.refl _ _) .env (by simp)

@[simp] theorem enterSafe_bytes {byFault} {cause} {m : Mach} : (enterSafe byFault cause m).mem.cells = m.mem.cells :=
  enterSafe_fr (List.Subset.refl _) (Frame.refl _ _) .bytes (by simp)

@[simp] theorem faultSafeHold_aon {z0} {z1} {z2} {z3 : Mach} : (faultSafeHold z0 z1 z2 z3).aon = z3.aon :=
  faultSafeHold_fr (List.Subset.refl _) (Frame.refl _ _) .aon (by simp)

@[simp] theorem faultSafeHold_time {z0} {z1} {z2} {z3 : Mach} : (faultSafeHold z0 z1 z2 z3).time = z3.time :=
  faultSafeHold_fr (List.Subset.refl _) (Frame.refl _ _) .time (by simp)

@[simp] theorem faultSafeHold_job {z0} {z1} {z2} {z3 : Mach} : (faultSafeHold z0 z1 z2 z3).job = z3.job :=
  faultSafeHold_fr (List.Subset.refl _) (Frame.refl _ _) .job (by simp)

@[simp] theorem faultSafeHold_hmap {z0} {z1} {z2} {z3 : Mach} : (faultSafeHold z0 z1 z2 z3).hmap = z3.hmap :=
  faultSafeHold_fr (List.Subset.refl _) (Frame.refl _ _) .hmap (by simp)

@[simp] theorem faultSafeHold_lanes {z0} {z1} {z2} {z3 : Mach} : (faultSafeHold z0 z1 z2 z3).lanes = z3.lanes :=
  faultSafeHold_fr (List.Subset.refl _) (Frame.refl _ _) .lanes (by simp)

@[simp] theorem faultSafeHold_hlt {z0} {z1} {z2} {z3 : Mach} : (faultSafeHold z0 z1 z2 z3).hlt = z3.hlt :=
  faultSafeHold_fr (List.Subset.refl _) (Frame.refl _ _) .hlt (by simp)

@[simp] theorem faultSafeHold_keep {z0} {z1} {z2} {z3 : Mach} : (faultSafeHold z0 z1 z2 z3).keep = z3.keep :=
  faultSafeHold_fr (List.Subset.refl _) (Frame.refl _ _) .keep (by simp)

@[simp] theorem faultSafeHold_env {z0} {z1} {z2} {z3 : Mach} : (faultSafeHold z0 z1 z2 z3).env = z3.env :=
  faultSafeHold_fr (List.Subset.refl _) (Frame.refl _ _) .env (by simp)

@[simp] theorem faultSafeHold_bytes {z0} {z1} {z2} {z3 : Mach} : (faultSafeHold z0 z1 z2 z3).mem.cells = z3.mem.cells :=
  faultSafeHold_fr (List.Subset.refl _) (Frame.refl _ _) .bytes (by simp)

@[simp] theorem faultInto_aon {cause} {code} {unit} {arg} {m : Mach} : (faultInto cause code unit arg m).aon = m.aon :=
  faultInto_fr (List.Subset.refl _) (Frame.refl _ _) .aon (by simp)

@[simp] theorem faultInto_time {cause} {code} {unit} {arg} {m : Mach} : (faultInto cause code unit arg m).time = m.time :=
  faultInto_fr (List.Subset.refl _) (Frame.refl _ _) .time (by simp)

@[simp] theorem faultInto_job {cause} {code} {unit} {arg} {m : Mach} : (faultInto cause code unit arg m).job = m.job :=
  faultInto_fr (List.Subset.refl _) (Frame.refl _ _) .job (by simp)

@[simp] theorem faultInto_hmap {cause} {code} {unit} {arg} {m : Mach} : (faultInto cause code unit arg m).hmap = m.hmap :=
  faultInto_fr (List.Subset.refl _) (Frame.refl _ _) .hmap (by simp)

@[simp] theorem faultInto_lanes {cause} {code} {unit} {arg} {m : Mach} : (faultInto cause code unit arg m).lanes = m.lanes :=
  faultInto_fr (List.Subset.refl _) (Frame.refl _ _) .lanes (by simp)

@[simp] theorem faultInto_hlt {cause} {code} {unit} {arg} {m : Mach} : (faultInto cause code unit arg m).hlt = m.hlt :=
  faultInto_fr (List.Subset.refl _) (Frame.refl _ _) .hlt (by simp)

@[simp] theorem faultInto_keep {cause} {code} {unit} {arg} {m : Mach} : (faultInto cause code unit arg m).keep = m.keep :=
  faultInto_fr (List.Subset.refl _) (Frame.refl _ _) .keep (by simp)

@[simp] theorem faultInto_env {cause} {code} {unit} {arg} {m : Mach} : (faultInto cause code unit arg m).env = m.env :=
  faultInto_fr (List.Subset.refl _) (Frame.refl _ _) .env (by simp)

@[simp] theorem faultInto_bytes {cause} {code} {unit} {arg} {m : Mach} : (faultInto cause code unit arg m).mem.cells = m.mem.cells :=
  faultInto_fr (List.Subset.refl _) (Frame.refl _ _) .bytes (by simp)

@[simp] theorem safeRest_aon {m1 : Mach} : (safeRest m1).aon = m1.aon :=
  safeRest_fr (List.Subset.refl _) (Frame.refl _ _) .aon (by simp)

@[simp] theorem safeRest_time {m1 : Mach} : (safeRest m1).time = m1.time :=
  safeRest_fr (List.Subset.refl _) (Frame.refl _ _) .time (by simp)

@[simp] theorem safeRest_job {m1 : Mach} : (safeRest m1).job = m1.job :=
  safeRest_fr (List.Subset.refl _) (Frame.refl _ _) .job (by simp)

@[simp] theorem safeRest_hmap {m1 : Mach} : (safeRest m1).hmap = m1.hmap :=
  safeRest_fr (List.Subset.refl _) (Frame.refl _ _) .hmap (by simp)

@[simp] theorem safeRest_lanes {m1 : Mach} : (safeRest m1).lanes = m1.lanes :=
  safeRest_fr (List.Subset.refl _) (Frame.refl _ _) .lanes (by simp)

@[simp] theorem safeRest_ilk {m1 : Mach} : (safeRest m1).ilk = m1.ilk :=
  safeRest_fr (List.Subset.refl _) (Frame.refl _ _) .ilk (by simp)

@[simp] theorem safeRest_hlt {m1 : Mach} : (safeRest m1).hlt = m1.hlt :=
  safeRest_fr (List.Subset.refl _) (Frame.refl _ _) .hlt (by simp)

@[simp] theorem safeRest_keep {m1 : Mach} : (safeRest m1).keep = m1.keep :=
  safeRest_fr (List.Subset.refl _) (Frame.refl _ _) .keep (by simp)

@[simp] theorem safeRest_env {m1 : Mach} : (safeRest m1).env = m1.env :=
  safeRest_fr (List.Subset.refl _) (Frame.refl _ _) .env (by simp)

@[simp] theorem safeRest_bytes {m1 : Mach} : (safeRest m1).mem.cells = m1.mem.cells :=
  safeRest_fr (List.Subset.refl _) (Frame.refl _ _) .bytes (by simp)

@[simp] theorem safeSteps_aon {m : Mach} : (safeSteps m).aon = m.aon :=
  safeSteps_fr (List.Subset.refl _) (Frame.refl _ _) .aon (by simp)

@[simp] theorem safeSteps_time {m : Mach} : (safeSteps m).time = m.time :=
  safeSteps_fr (List.Subset.refl _) (Frame.refl _ _) .time (by simp)

@[simp] theorem safeSteps_job {m : Mach} : (safeSteps m).job = m.job :=
  safeSteps_fr (List.Subset.refl _) (Frame.refl _ _) .job (by simp)

@[simp] theorem safeSteps_hmap {m : Mach} : (safeSteps m).hmap = m.hmap :=
  safeSteps_fr (List.Subset.refl _) (Frame.refl _ _) .hmap (by simp)

@[simp] theorem safeSteps_lanes {m : Mach} : (safeSteps m).lanes = m.lanes :=
  safeSteps_fr (List.Subset.refl _) (Frame.refl _ _) .lanes (by simp)

@[simp] theorem safeSteps_hlt {m : Mach} : (safeSteps m).hlt = m.hlt :=
  safeSteps_fr (List.Subset.refl _) (Frame.refl _ _) .hlt (by simp)

@[simp] theorem safeSteps_keep {m : Mach} : (safeSteps m).keep = m.keep :=
  safeSteps_fr (List.Subset.refl _) (Frame.refl _ _) .keep (by simp)

@[simp] theorem safeSteps_env {m : Mach} : (safeSteps m).env = m.env :=
  safeSteps_fr (List.Subset.refl _) (Frame.refl _ _) .env (by simp)

@[simp] theorem safeSteps_bytes {m : Mach} : (safeSteps m).mem.cells = m.mem.cells :=
  safeSteps_fr (List.Subset.refl _) (Frame.refl _ _) .bytes (by simp)

@[simp] theorem jobTest_aon {m : Mach} : (jobTest m).aon = m.aon :=
  jobTest_fr (List.Subset.refl _) (Frame.refl _ _) .aon (by simp)

@[simp] theorem jobTest_lanes {m : Mach} : (jobTest m).lanes = m.lanes :=
  jobTest_fr (List.Subset.refl _) (Frame.refl _ _) .lanes (by simp)

@[simp] theorem jobTest_hlt {m : Mach} : (jobTest m).hlt = m.hlt :=
  jobTest_fr (List.Subset.refl _) (Frame.refl _ _) .hlt (by simp)

@[simp] theorem jobTest_keep {m : Mach} : (jobTest m).keep = m.keep :=
  jobTest_fr (List.Subset.refl _) (Frame.refl _ _) .keep (by simp)

@[simp] theorem jobTest_env {m : Mach} : (jobTest m).env = m.env :=
  jobTest_fr (List.Subset.refl _) (Frame.refl _ _) .env (by simp)

@[simp] theorem exposureCheck_aon {m : Mach} : (exposureCheck m).aon = m.aon :=
  exposureCheck_fr (List.Subset.refl _) (Frame.refl _ _) .aon (by simp)

@[simp] theorem exposureCheck_lanes {m : Mach} : (exposureCheck m).lanes = m.lanes :=
  exposureCheck_fr (List.Subset.refl _) (Frame.refl _ _) .lanes (by simp)

@[simp] theorem exposureCheck_hlt {m : Mach} : (exposureCheck m).hlt = m.hlt :=
  exposureCheck_fr (List.Subset.refl _) (Frame.refl _ _) .hlt (by simp)

@[simp] theorem exposureCheck_keep {m : Mach} : (exposureCheck m).keep = m.keep :=
  exposureCheck_fr (List.Subset.refl _) (Frame.refl _ _) .keep (by simp)

@[simp] theorem exposureCheck_env {m : Mach} : (exposureCheck m).env = m.env :=
  exposureCheck_fr (List.Subset.refl _) (Frame.refl _ _) .env (by simp)

@[simp] theorem slugGone_aon {m : Mach} : (slugGone m).aon = m.aon :=
  slugGone_fr (List.Subset.refl _) (Frame.refl _ _) .aon (by simp)

@[simp] theorem slugGone_lanes {m : Mach} : (slugGone m).lanes = m.lanes :=
  slugGone_fr (List.Subset.refl _) (Frame.refl _ _) .lanes (by simp)

@[simp] theorem slugGone_hlt {m : Mach} : (slugGone m).hlt = m.hlt :=
  slugGone_fr (List.Subset.refl _) (Frame.refl _ _) .hlt (by simp)

@[simp] theorem slugGone_keep {m : Mach} : (slugGone m).keep = m.keep :=
  slugGone_fr (List.Subset.refl _) (Frame.refl _ _) .keep (by simp)

@[simp] theorem slugGone_env {m : Mach} : (slugGone m).env = m.env :=
  slugGone_fr (List.Subset.refl _) (Frame.refl _ _) .env (by simp)

@[simp] theorem retire_aon {b} {cause} {m : Mach} : (retire b cause m).aon = m.aon :=
  retire_fr (List.Subset.refl _) (Frame.refl _ _) .aon (by simp)

@[simp] theorem retire_clk {b} {cause} {m : Mach} : (retire b cause m).clk = m.clk :=
  retire_fr (List.Subset.refl _) (Frame.refl _ _) .clk (by simp)

@[simp] theorem retire_boot {b} {cause} {m : Mach} : (retire b cause m).boot = m.boot :=
  retire_fr (List.Subset.refl _) (Frame.refl _ _) .boot (by simp)

@[simp] theorem retire_time {b} {cause} {m : Mach} : (retire b cause m).time = m.time :=
  retire_fr (List.Subset.refl _) (Frame.refl _ _) .time (by simp)

@[simp] theorem retire_hmap {b} {cause} {m : Mach} : (retire b cause m).hmap = m.hmap :=
  retire_fr (List.Subset.refl _) (Frame.refl _ _) .hmap (by simp)

@[simp] theorem retire_lanes {b} {cause} {m : Mach} : (retire b cause m).lanes = m.lanes :=
  retire_fr (List.Subset.refl _) (Frame.refl _ _) .lanes (by simp)

@[simp] theorem retire_stg {b} {cause} {m : Mach} : (retire b cause m).stg = m.stg :=
  retire_fr (List.Subset.refl _) (Frame.refl _ _) .stg (by simp)

@[simp] theorem retire_hlt {b} {cause} {m : Mach} : (retire b cause m).hlt = m.hlt :=
  retire_fr (List.Subset.refl _) (Frame.refl _ _) .hlt (by simp)

@[simp] theorem retire_keep {b} {cause} {m : Mach} : (retire b cause m).keep = m.keep :=
  retire_fr (List.Subset.refl _) (Frame.refl _ _) .keep (by simp)

@[simp] theorem retire_free {b} {cause} {m : Mach} : (retire b cause m).free = m.free :=
  retire_fr (List.Subset.refl _) (Frame.refl _ _) .free (by simp)

@[simp] theorem retire_env {b} {cause} {m : Mach} : (retire b cause m).env = m.env :=
  retire_fr (List.Subset.refl _) (Frame.refl _ _) .env (by simp)

@[simp] theorem retire_dev {b} {cause} {m : Mach} : (retire b cause m).g.dev = m.g.dev :=
  dev_of_bare (retire_fr (List.Subset.refl _) (Frame.refl _ _) .g (by simp))

@[simp] theorem hostAbsentBegin_aon {reason} {m : Mach} : (hostAbsentBegin reason m).aon = m.aon :=
  hostAbsentBegin_fr (List.Subset.refl _) (Frame.refl _ _) .aon (by simp)

@[simp] theorem hostAbsentBegin_clk {reason} {m : Mach} : (hostAbsentBegin reason m).clk = m.clk :=
  hostAbsentBegin_fr (List.Subset.refl _) (Frame.refl _ _) .clk (by simp)

@[simp] theorem hostAbsentBegin_boot {reason} {m : Mach} : (hostAbsentBegin reason m).boot = m.boot :=
  hostAbsentBegin_fr (List.Subset.refl _) (Frame.refl _ _) .boot (by simp)

@[simp] theorem hostAbsentBegin_time {reason} {m : Mach} : (hostAbsentBegin reason m).time = m.time :=
  hostAbsentBegin_fr (List.Subset.refl _) (Frame.refl _ _) .time (by simp)

@[simp] theorem hostAbsentBegin_imp {reason} {m : Mach} : (hostAbsentBegin reason m).imp = m.imp :=
  hostAbsentBegin_fr (List.Subset.refl _) (Frame.refl _ _) .imp (by simp)

@[simp] theorem hostAbsentBegin_beams {reason} {m : Mach} : (hostAbsentBegin reason m).beams = m.beams :=
  hostAbsentBegin_fr (List.Subset.refl _) (Frame.refl _ _) .beams (by simp)

@[simp] theorem hostAbsentBegin_mpl {reason} {m : Mach} : (hostAbsentBegin reason m).mpl = m.mpl :=
  hostAbsentBegin_fr (List.Subset.refl _) (Frame.refl _ _) .mpl (by simp)

@[simp] theorem hostAbsentBegin_hmap {reason} {m : Mach} : (hostAbsentBegin reason m).hmap = m.hmap :=
  hostAbsentBegin_fr (List.Subset.refl _) (Frame.refl _ _) .hmap (by simp)

@[simp] theorem hostAbsentBegin_cells {reason} {m : Mach} : (hostAbsentBegin reason m).cells = m.cells :=
  hostAbsentBegin_fr (List.Subset.refl _) (Frame.refl _ _) .cells (by simp)

@[simp] theorem hostAbsentBegin_sig {reason} {m : Mach} : (hostAbsentBegin reason m).sig = m.sig :=
  hostAbsentBegin_fr (List.Subset.refl _) (Frame.refl _ _) .sig (by simp)

@[simp] theorem hostAbsentBegin_lanes {reason} {m : Mach} : (hostAbsentBegin reason m).lanes = m.lanes :=
  hostAbsentBegin_fr (List.Subset.refl _) (Frame.refl _ _) .lanes (by simp)

@[simp] theorem hostAbsentBegin_heads {reason} {m : Mach} : (hostAbsentBegin reason m).heads = m.heads :=
  hostAbsentBegin_fr (List.Subset.refl _) (Frame.refl _ _) .heads (by simp)

@[simp] theorem hostAbsentBegin_stg {reason} {m : Mach} : (hostAbsentBegin reason m).stg = m.stg :=
  hostAbsentBegin_fr (List.Subset.refl _) (Frame.refl _ _) .stg (by simp)

@[simp] theorem hostAbsentBegin_ilk {reason} {m : Mach} : (hostAbsentBegin reason m).ilk = m.ilk :=
  hostAbsentBegin_fr (List.Subset.refl _) (Frame.refl _ _) .ilk (by simp)

@[simp] theorem hostAbsentBegin_hlt {reason} {m : Mach} : (hostAbsentBegin reason m).hlt = m.hlt :=
  hostAbsentBegin_fr (List.Subset.refl _) (Frame.refl _ _) .hlt (by simp)

@[simp] theorem hostAbsentBegin_keep {reason} {m : Mach} : (hostAbsentBegin reason m).keep = m.keep :=
  hostAbsentBegin_fr (List.Subset.refl _) (Frame.refl _ _) .keep (by simp)

@[simp] theorem hostAbsentBegin_free {reason} {m : Mach} : (hostAbsentBegin reason m).free = m.free :=
  hostAbsentBegin_fr (List.Subset.refl _) (Frame.refl _ _) .free (by simp)

@[simp] theorem hostAbsentBegin_env {reason} {m : Mach} : (hostAbsentBegin reason m).env = m.env :=
  hostAbsentBegin_fr (List.Subset.refl _) (Frame.refl _ _) .env (by simp)

@[simp] theorem hostAbsentBegin_bytes {reason} {m : Mach} : (hostAbsentBegin reason m).mem.cells = m.mem.cells :=
  hostAbsentBegin_fr (List.Subset.refl _) (Frame.refl _ _) .bytes (by simp)

@[simp] theorem takeLayerRecords_aon {m : Mach} : (takeLayerRecords m).aon = m.aon :=
  takeLayerRecords_fr (List.Subset.refl _) (Frame.refl _ _) .aon (by simp)

@[simp] theorem takeLayerRecords_time {m : Mach} : (takeLayerRecords m).time = m.time :=
  takeLayerRecords_fr (List.Subset.refl _) (Frame.refl _ _) .time (by simp)

@[simp] theorem takeLayerRecords_job {m : Mach} : (takeLayerRecords m).job = m.job :=
  takeLayerRecords_fr (List.Subset.refl _) (Frame.refl _ _) .job (by simp)

@[simp] theorem takeLayerRecords_imp {m : Mach} : (takeLayerRecords m).imp = m.imp :=
  takeLayerRecords_fr (List.Subset.refl _) (Frame.refl _ _) .imp (by simp)

@[simp] theorem takeLayerRecords_mpl {m : Mach} : (takeLayerRecords m).mpl = m.mpl :=
  takeLayerRecords_fr (List.Subset.refl _) (Frame.refl _ _) .mpl (by simp)

@[simp] theorem takeLayerRecords_hmap {m : Mach} : (takeLayerRecords m).hmap = m.hmap :=
  takeLayerRecords_fr (List.Subset.refl _) (Frame.refl _ _) .hmap (by simp)

@[simp] theorem takeLayerRecords_lanes {m : Mach} : (takeLayerRecords m).lanes = m.lanes :=
  takeLayerRecords_fr (List.Subset.refl _) (Frame.refl _ _) .lanes (by simp)

@[simp] theorem takeLayerRecords_heads {m : Mach} : (takeLayerRecords m).heads = m.heads :=
  takeLayerRecords_fr (List.Subset.refl _) (Frame.refl _ _) .heads (by simp)

@[simp] theorem takeLayerRecords_stg {m : Mach} : (takeLayerRecords m).stg = m.stg :=
  takeLayerRecords_fr (List.Subset.refl _) (Frame.refl _ _) .stg (by simp)

@[simp] theorem takeLayerRecords_ilk {m : Mach} : (takeLayerRecords m).ilk = m.ilk :=
  takeLayerRecords_fr (List.Subset.refl _) (Frame.refl _ _) .ilk (by simp)

@[simp] theorem takeLayerRecords_hlt {m : Mach} : (takeLayerRecords m).hlt = m.hlt :=
  takeLayerRecords_fr (List.Subset.refl _) (Frame.refl _ _) .hlt (by simp)

@[simp] theorem takeLayerRecords_keep {m : Mach} : (takeLayerRecords m).keep = m.keep :=
  takeLayerRecords_fr (List.Subset.refl _) (Frame.refl _ _) .keep (by simp)

@[simp] theorem takeLayerRecords_free {m : Mach} : (takeLayerRecords m).free = m.free :=
  takeLayerRecords_fr (List.Subset.refl _) (Frame.refl _ _) .free (by simp)

@[simp] theorem takeLayerRecords_env {m : Mach} : (takeLayerRecords m).env = m.env :=
  takeLayerRecords_fr (List.Subset.refl _) (Frame.refl _ _) .env (by simp)

@[simp] theorem takeLayerRecords_bytes {m : Mach} : (takeLayerRecords m).mem.cells = m.mem.cells :=
  takeLayerRecords_fr (List.Subset.refl _) (Frame.refl _ _) .bytes (by simp)

@[simp] theorem takeRecord_aon {id} {m : Mach} : (takeRecord id m).aon = m.aon :=
  takeRecord_fr (List.Subset.refl _) (Frame.refl _ _) .aon (by simp)

@[simp] theorem takeRecord_time {id} {m : Mach} : (takeRecord id m).time = m.time :=
  takeRecord_fr (List.Subset.refl _) (Frame.refl _ _) .time (by simp)

@[simp] theorem takeRecord_job {id} {m : Mach} : (takeRecord id m).job = m.job :=
  takeRecord_fr (List.Subset.refl _) (Frame.refl _ _) .job (by simp)

@[simp] theorem takeRecord_imp {id} {m : Mach} : (takeRecord id m).imp = m.imp :=
  takeRecord_fr (List.Subset.refl _) (Frame.refl _ _) .imp (by simp)

@[simp] theorem takeRecord_mpl {id} {m : Mach} : (takeRecord id m).mpl = m.mpl :=
  takeRecord_fr (List.Subset.refl _) (Frame.refl _ _) .mpl (by simp)

@[simp] theorem takeRecord_hmap {id} {m : Mach} : (takeRecord id m).hmap = m.hmap :=
  takeRecord_fr (List.Subset.refl _) (Frame.refl _ _) .hmap (by simp)

@[simp] theorem takeRecord_lanes {id} {m : Mach} : (takeRecord id m).lanes = m.lanes :=
  takeRecord_fr (List.Subset.refl _) (Frame.refl _ _) .lanes (by simp)

@[simp] theorem takeRecord_heads {id} {m : Mach} : (takeRecord id m).heads = m.heads :=
  takeRecord_fr (List.Subset.refl _) (Frame.refl _ _) .heads (by simp)

@[simp] theorem takeRecord_stg {id} {m : Mach} : (takeRecord id m).stg = m.stg :=
  takeRecord_fr (List.Subset.refl _) (Frame.refl _ _) .stg (by simp)

@[simp] theorem takeRecord_ilk {id} {m : Mach} : (takeRecord id m).ilk = m.ilk :=
  takeRecord_fr (List.Subset.refl _) (Frame.refl _ _) .ilk (by simp)

@[simp] theorem takeRecord_hlt {id} {m : Mach} : (takeRecord id m).hlt = m.hlt :=
  takeRecord_fr (List.Subset.refl _) (Frame.refl _ _) .hlt (by simp)

@[simp] theorem takeRecord_keep {id} {m : Mach} : (takeRecord id m).keep = m.keep :=
  takeRecord_fr (List.Subset.refl _) (Frame.refl _ _) .keep (by simp)

@[simp] theorem takeRecord_free {id} {m : Mach} : (takeRecord id m).free = m.free :=
  takeRecord_fr (List.Subset.refl _) (Frame.refl _ _) .free (by simp)

@[simp] theorem takeRecord_env {id} {m : Mach} : (takeRecord id m).env = m.env :=
  takeRecord_fr (List.Subset.refl _) (Frame.refl _ _) .env (by simp)

@[simp] theorem takeRecord_bytes {id} {m : Mach} : (takeRecord id m).mem.cells = m.mem.cells :=
  takeRecord_fr (List.Subset.refl _) (Frame.refl _ _) .bytes (by simp)

@[simp] theorem applyScene_aon {s} {m0 : Mach} : (applyScene s m0).aon = m0.aon :=
  applyScene_fr (List.Subset.refl _) (Frame.refl _ _) .aon (by simp)

@[simp] theorem applyScene_time {s} {m0 : Mach} : (applyScene s m0).time = m0.time :=
  applyScene_fr (List.Subset.refl _) (Frame.refl _ _) .time (by simp)

@[simp] theorem applyScene_job {s} {m0 : Mach} : (applyScene s m0).job = m0.job :=
  applyScene_fr (List.Subset.refl _) (Frame.refl _ _) .job (by simp)

@[simp] theorem applyScene_imp {s} {m0 : Mach} : (applyScene s m0).imp = m0.imp :=
  applyScene_fr (List.Subset.refl _) (Frame.refl _ _) .imp (by simp)

@[simp] theorem applyScene_mpl {s} {m0 : Mach} : (applyScene s m0).mpl = m0.mpl :=
  applyScene_fr (List.Subset.refl _) (Frame.refl _ _) .mpl (by simp)

@[simp] theorem applyScene_hmap {s} {m0 : Mach} : (applyScene s m0).hmap = m0.hmap :=
  applyScene_fr (List.Subset.refl _) (Frame.refl _ _) .hmap (by simp)

@[simp] theorem applyScene_lanes {s} {m0 : Mach} : (applyScene s m0).lanes = m0.lanes :=
  applyScene_fr (List.Subset.refl _) (Frame.refl _ _) .lanes (by simp)

@[simp] theorem applyScene_heads {s} {m0 : Mach} : (applyScene s m0).heads = m0.heads :=
  applyScene_fr (List.Subset.refl _) (Frame.refl _ _) .heads (by simp)

@[simp] theorem applyScene_stg {s} {m0 : Mach} : (applyScene s m0).stg = m0.stg :=
  applyScene_fr (List.Subset.refl _) (Frame.refl _ _) .stg (by simp)

@[simp] theorem applyScene_hlt {s} {m0 : Mach} : (applyScene s m0).hlt = m0.hlt :=
  applyScene_fr (List.Subset.refl _) (Frame.refl _ _) .hlt (by simp)

@[simp] theorem applyScene_keep {s} {m0 : Mach} : (applyScene s m0).keep = m0.keep :=
  applyScene_fr (List.Subset.refl _) (Frame.refl _ _) .keep (by simp)

@[simp] theorem applyScene_free {s} {m0 : Mach} : (applyScene s m0).free = m0.free :=
  applyScene_fr (List.Subset.refl _) (Frame.refl _ _) .free (by simp)

@[simp] theorem applyScene_env {s} {m0 : Mach} : (applyScene s m0).env = m0.env :=
  applyScene_fr (List.Subset.refl _) (Frame.refl _ _) .env (by simp)

@[simp] theorem applyScene_bytes {s} {m0 : Mach} : (applyScene s m0).mem.cells = m0.mem.cells :=
  applyScene_fr (List.Subset.refl _) (Frame.refl _ _) .bytes (by simp)

@[simp] theorem axStop_aon {atMax} {keep} {a} {m : Mach} : (axStop atMax keep a m).aon = m.aon :=
  axStop_fr (List.Subset.refl _) (Frame.refl _ _) .aon (by simp)

@[simp] theorem axStop_clk {atMax} {keep} {a} {m : Mach} : (axStop atMax keep a m).clk = m.clk :=
  axStop_fr (List.Subset.refl _) (Frame.refl _ _) .clk (by simp)

@[simp] theorem axStop_boot {atMax} {keep} {a} {m : Mach} : (axStop atMax keep a m).boot = m.boot :=
  axStop_fr (List.Subset.refl _) (Frame.refl _ _) .boot (by simp)

@[simp] theorem axStop_time {atMax} {keep} {a} {m : Mach} : (axStop atMax keep a m).time = m.time :=
  axStop_fr (List.Subset.refl _) (Frame.refl _ _) .time (by simp)

@[simp] theorem axStop_job {atMax} {keep} {a} {m : Mach} : (axStop atMax keep a m).job = m.job :=
  axStop_fr (List.Subset.refl _) (Frame.refl _ _) .job (by simp)

@[simp] theorem axStop_imp {atMax} {keep} {a} {m : Mach} : (axStop atMax keep a m).imp = m.imp :=
  axStop_fr (List.Subset.refl _) (Frame.refl _ _) .imp (by simp)

@[simp] theorem axStop_beams {atMax} {keep} {a} {m : Mach} : (axStop atMax keep a m).beams = m.beams :=
  axStop_fr (List.Subset.refl _) (Frame.refl _ _) .beams (by simp)

@[simp] theorem axStop_mpl {atMax} {keep} {a} {m : Mach} : (axStop atMax keep a m).mpl = m.mpl :=
  axStop_fr (List.Subset.refl _) (Frame.refl _ _) .mpl (by simp)

@[simp] theorem axStop_hmap {atMax} {keep} {a} {m : Mach} : (axStop atMax keep a m).hmap = m.hmap :=
  axStop_fr (List.Subset.refl _) (Frame.refl _ _) .hmap (by simp)

@[simp] theorem axStop_cells {atMax} {keep} {a} {m : Mach} : (axStop atMax keep a m).cells = m.cells :=
  axStop_fr (List.Subset.refl _) (Frame.refl _ _) .cells (by simp)

@[simp] theorem axStop_sig {atMax} {keep} {a} {m : Mach} : (axStop atMax keep a m).sig = m.sig :=
  axStop_fr (List.Subset.refl _) (Frame.refl _ _) .sig (by simp)

@[simp] theorem axStop_lanes {atMax} {keep} {a} {m : Mach} : (axStop atMax keep a m).lanes = m.lanes :=
  axStop_fr (List.Subset.refl _) (Frame.refl _ _) .lanes (by simp)

@[simp] theorem axStop_heads {atMax} {keep} {a} {m : Mach} : (axStop atMax keep a m).heads = m.heads :=
  axStop_fr (List.Subset.refl _) (Frame.refl _ _) .heads (by simp)

@[simp] theorem axStop_ilk {atMax} {keep} {a} {m : Mach} : (axStop atMax keep a m).ilk = m.ilk :=
  axStop_fr (List.Subset.refl _) (Frame.refl _ _) .ilk (by simp)

@[simp] theorem axStop_hlt {atMax} {keep} {a} {m : Mach} : (axStop atMax keep a m).hlt = m.hlt :=
  axStop_fr (List.Subset.refl _) (Frame.refl _ _) .hlt (by simp)

@[simp] theorem axStop_keep {atMax} {keep} {a} {m : Mach} : (axStop atMax keep a m).keep = m.keep :=
  axStop_fr (List.Subset.refl _) (Frame.refl _ _) .keep (by simp)

@[simp] theorem axStop_env {atMax} {keep} {a} {m : Mach} : (axStop atMax keep a m).env = m.env :=
  axStop_fr (List.Subset.refl _) (Frame.refl _ _) .env (by simp)

@[simp] theorem axStop_dev {atMax} {keep} {a} {m : Mach} : (axStop atMax keep a m).g.dev = m.g.dev :=
  dev_of_bare (axStop_fr (List.Subset.refl _) (Frame.refl _ _) .g (by simp))

@[simp] theorem axStop_bytes {atMax} {keep} {a} {m : Mach} : (axStop atMax keep a m).mem.cells = m.mem.cells :=
  axStop_fr (List.Subset.refl _) (Frame.refl _ _) .bytes (by simp)

@[simp] theorem impPut_aon {e0} {m0 : Mach} : (impPut e0 m0).aon = m0.aon :=
  impPut_fr (List.Subset.refl _) (Frame.refl _ _) .aon (by simp)

@[simp] theorem impPut_clk {e0} {m0 : Mach} : (impPut e0 m0).clk = m0.clk :=
  impPut_fr (List.Subset.refl _) (Frame.refl _ _) .clk (by simp)

@[simp] theorem impPut_boot {e0} {m0 : Mach} : (impPut e0 m0).boot = m0.boot :=
  impPut_fr (List.Subset.refl _) (Frame.refl _ _) .boot (by simp)

@[simp] theorem impPut_time {e0} {m0 : Mach} : (impPut e0 m0).time = m0.time :=
  impPut_fr (List.Subset.refl _) (Frame.refl _ _) .time (by simp)

@[simp] theorem impPut_mpl {e0} {m0 : Mach} : (impPut e0 m0).mpl = m0.mpl :=
  impPut_fr (List.Subset.refl _) (Frame.refl _ _) .mpl (by simp)

@[simp] theorem impPut_hmap {e0} {m0 : Mach} : (impPut e0 m0).hmap = m0.hmap :=
  impPut_fr (List.Subset.refl _) (Frame.refl _ _) .hmap (by simp)

@[simp] theorem impPut_cells {e0} {m0 : Mach} : (impPut e0 m0).cells = m0.cells :=
  impPut_fr (List.Subset.refl _) (Frame.refl _ _) .cells (by simp)

@[simp] theorem impPut_lanes {e0} {m0 : Mach} : (impPut e0 m0).lanes = m0.lanes :=
  impPut_fr (List.Subset.refl _) (Frame.refl _ _) .lanes (by simp)

@[simp] theorem impPut_heads {e0} {m0 : Mach} : (impPut e0 m0).heads = m0.heads :=
  impPut_fr (List.Subset.refl _) (Frame.refl _ _) .heads (by simp)

@[simp] theorem impPut_stg {e0} {m0 : Mach} : (impPut e0 m0).stg = m0.stg :=
  impPut_fr (List.Subset.refl _) (Frame.refl _ _) .stg (by simp)

@[simp] theorem impPut_ilk {e0} {m0 : Mach} : (impPut e0 m0).ilk = m0.ilk :=
  impPut_fr (List.Subset.refl _) (Frame.refl _ _) .ilk (by simp)

@[simp] theorem impPut_hlt {e0} {m0 : Mach} : (impPut e0 m0).hlt = m0.hlt :=
  impPut_fr (List.Subset.refl _) (Frame.refl _ _) .hlt (by simp)

@[simp] theorem impPut_keep {e0} {m0 : Mach} : (impPut e0 m0).keep = m0.keep :=
  impPut_fr (List.Subset.refl _) (Frame.refl _ _) .keep (by simp)

@[simp] theorem impPut_free {e0} {m0 : Mach} : (impPut e0 m0).free = m0.free :=
  impPut_fr (List.Subset.refl _) (Frame.refl _ _) .free (by simp)

@[simp] theorem impPut_env {e0} {m0 : Mach} : (impPut e0 m0).env = m0.env :=
  impPut_fr (List.Subset.refl _) (Frame.refl _ _) .env (by simp)

@[simp] theorem impPut_dev {e0} {m0 : Mach} : (impPut e0 m0).g.dev = m0.g.dev :=
  dev_of_bare (impPut_fr (List.Subset.refl _) (Frame.refl _ _) .g (by simp))

@[simp] theorem setLock_aon {i} {v} {z2 : Mach} : (setLock i v z2).aon = z2.aon :=
  setLock_fr (List.Subset.refl _) (Frame.refl _ _) .aon (by simp)

@[simp] theorem setLock_boot {i} {v} {z2 : Mach} : (setLock i v z2).boot = z2.boot :=
  setLock_fr (List.Subset.refl _) (Frame.refl _ _) .boot (by simp)

@[simp] theorem setLock_time {i} {v} {z2 : Mach} : (setLock i v z2).time = z2.time :=
  setLock_fr (List.Subset.refl _) (Frame.refl _ _) .time (by simp)

@[simp] theorem setLock_job {i} {v} {z2 : Mach} : (setLock i v z2).job = z2.job :=
  setLock_fr (List.Subset.refl _) (Frame.refl _ _) .job (by simp)

@[simp] theorem setLock_imp {i} {v} {z2 : Mach} : (setLock i v z2).imp = z2.imp :=
  setLock_fr (List.Subset.refl _) (Frame.refl _ _) .imp (by simp)

@[simp] theorem setLock_beams {i} {v} {z2 : Mach} : (setLock i v z2).beams = z2.beams :=
  setLock_fr (List.Subset.refl _) (Frame.refl _ _) .beams (by simp)

@[simp] theorem setLock_mpl {i} {v} {z2 : Mach} : (setLock i v z2).mpl = z2.mpl :=
  setLock_fr (List.Subset.refl _) (Frame.refl _ _) .mpl (by simp)

@[simp] theorem setLock_hmap {i} {v} {z2 : Mach} : (setLock i v z2).hmap = z2.hmap :=
  setLock_fr (List.Subset.refl _) (Frame.refl _ _) .hmap (by simp)

@[simp] theorem setLock_cells {i} {v} {z2 : Mach} : (setLock i v z2).cells = z2.cells :=
  setLock_fr (List.Subset.refl _) (Frame.refl _ _) .cells (by simp)

@[simp] theorem setLock_sig {i} {v} {z2 : Mach} : (setLock i v z2).sig = z2.sig :=
  setLock_fr (List.Subset.refl _) (Frame.refl _ _) .sig (by simp)

@[simp] theorem setLock_lanes {i} {v} {z2 : Mach} : (setLock i v z2).lanes = z2.lanes :=
  setLock_fr (List.Subset.refl _) (Frame.refl _ _) .lanes (by simp)

@[simp] theorem setLock_heads {i} {v} {z2 : Mach} : (setLock i v z2).heads = z2.heads :=
  setLock_fr (List.Subset.refl _) (Frame.refl _ _) .heads (by simp)

@[simp] theorem setLock_stg {i} {v} {z2 : Mach} : (setLock i v z2).stg = z2.stg :=
  setLock_fr (List.Subset.refl _) (Frame.refl _ _) .stg (by simp)

@[simp] theorem setLock_ilk {i} {v} {z2 : Mach} : (setLock i v z2).ilk = z2.ilk :=
  setLock_fr (List.Subset.refl _) (Frame.refl _ _) .ilk (by simp)

@[simp] theorem setLock_hlt {i} {v} {z2 : Mach} : (setLock i v z2).hlt = z2.hlt :=
  setLock_fr (List.Subset.refl _) (Frame.refl _ _) .hlt (by simp)

@[simp] theorem setLock_keep {i} {v} {z2 : Mach} : (setLock i v z2).keep = z2.keep :=
  setLock_fr (List.Subset.refl _) (Frame.refl _ _) .keep (by simp)

@[simp] theorem setLock_outs {i} {v} {z2 : Mach} : (setLock i v z2).outs = z2.outs :=
  setLock_fr (List.Subset.refl _) (Frame.refl _ _) .outs (by simp)

@[simp] theorem setLock_free {i} {v} {z2 : Mach} : (setLock i v z2).free = z2.free :=
  setLock_fr (List.Subset.refl _) (Frame.refl _ _) .free (by simp)

@[simp] theorem setLock_env {i} {v} {z2 : Mach} : (setLock i v z2).env = z2.env :=
  setLock_fr (List.Subset.refl _) (Frame.refl _ _) .env (by simp)

@[simp] theorem setLock_dev {i} {v} {z2 : Mach} : (setLock i v z2).g.dev = z2.g.dev :=
  dev_of_bare (setLock_fr (List.Subset.refl _) (Frame.refl _ _) .g (by simp))

@[simp] theorem setLock_bytes {i} {v} {z2 : Mach} : (setLock i v z2).mem.cells = z2.mem.cells :=
  setLock_fr (List.Subset.refl _) (Frame.refl _ _) .bytes (by simp)

@[simp] theorem domainUp_aon {d} {z1 : Mach} : (domainUp d z1).aon = z1.aon :=
  domainUp_fr (List.Subset.refl _) (Frame.refl _ _) .aon (by simp)

@[simp] theorem domainUp_boot {d} {z1 : Mach} : (domainUp d z1).boot = z1.boot :=
  domainUp_fr (List.Subset.refl _) (Frame.refl _ _) .boot (by simp)

@[simp] theorem domainUp_time {d} {z1 : Mach} : (domainUp d z1).time = z1.time :=
  domainUp_fr (List.Subset.refl _) (Frame.refl _ _) .time (by simp)

@[simp] theorem domainUp_job {d} {z1 : Mach} : (domainUp d z1).job = z1.job :=
  domainUp_fr (List.Subset.refl _) (Frame.refl _ _) .job (by simp)

@[simp] theorem domainUp_imp {d} {z1 : Mach} : (domainUp d z1).imp = z1.imp :=
  domainUp_fr (List.Subset.refl _) (Frame.refl _ _) .imp (by simp)

@[simp] theorem domainUp_beams {d} {z1 : Mach} : (domainUp d z1).beams = z1.beams :=
  domainUp_fr (List.Subset.refl _) (Frame.refl _ _) .beams (by simp)

@[simp] theorem domainUp_mpl {d} {z1 : Mach} : (domainUp d z1).mpl = z1.mpl :=
  domainUp_fr (List.Subset.refl _) (Frame.refl _ _) .mpl (by simp)

@[simp] theorem domainUp_hmap {d} {z1 : Mach} : (domainUp d z1).hmap = z1.hmap :=
  domainUp_fr (List.Subset.refl _) (Frame.refl _ _) .hmap (by simp)

@[simp] theorem domainUp_cells {d} {z1 : Mach} : (domainUp d z1).cells = z1.cells :=
  domainUp_fr (List.Subset.refl _) (Frame.refl _ _) .cells (by simp)

@[simp] theorem domainUp_sig {d} {z1 : Mach} : (domainUp d z1).sig = z1.sig :=
  domainUp_fr (List.Subset.refl _) (Frame.refl _ _) .sig (by simp)

@[simp] theorem domainUp_lanes {d} {z1 : Mach} : (domainUp d z1).lanes = z1.lanes :=
  domainUp_fr (List.Subset.refl _) (Frame.refl _ _) .lanes (by simp)

@[simp] theorem domainUp_heads {d} {z1 : Mach} : (domainUp d z1).heads = z1.heads :=
  domainUp_fr (List.Subset.refl _) (Frame.refl _ _) .heads (by simp)

@[simp] theorem domainUp_stg {d} {z1 : Mach} : (domainUp d z1).stg = z1.stg :=
  domainUp_fr (List.Subset.refl _) (Frame.refl _ _) .stg (by simp)

@[simp] theorem domainUp_ilk {d} {z1 : Mach} : (domainUp d z1).ilk = z1.ilk :=
  domainUp_fr (List.Subset.refl _) (Frame.refl _ _) .ilk (by simp)

@[simp] theorem domainUp_hlt {d} {z1 : Mach} : (domainUp d z1).hlt = z1.hlt :=
  domainUp_fr (List.Subset.refl _) (Frame.refl _ _) .hlt (by simp)

@[simp] theorem domainUp_keep {d} {z1 : Mach} : (domainUp d z1).keep = z1.keep :=
  domainUp_fr (List.Subset.refl _) (Frame.refl _ _) .keep (by simp)

@[simp] theorem domainUp_outs {d} {z1 : Mach} : (domainUp d z1).outs = z1.outs :=
  domainUp_fr (List.Subset.refl _) (Frame.refl _ _) .outs (by simp)

@[simp] theorem domainUp_free {d} {z1 : Mach} : (domainUp d z1).free = z1.free :=
  domainUp_fr (List.Subset.refl _) (Frame.refl _ _) .free (by simp)

@[simp] theorem domainUp_env {d} {z1 : Mach} : (domainUp d z1).env = z1.env :=
  domainUp_fr (List.Subset.refl _) (Frame.refl _ _) .env (by simp)

@[simp] theorem domainUp_dev {d} {z1 : Mach} : (domainUp d z1).g.dev = z1.g.dev :=
  dev_of_bare (domainUp_fr (List.Subset.refl _) (Frame.refl _ _) .g (by simp))

@[simp] theorem domainUp_bytes {d} {z1 : Mach} : (domainUp d z1).mem.cells = z1.mem.cells :=
  domainUp_fr (List.Subset.refl _) (Frame.refl _ _) .bytes (by simp)

@[simp] theorem changeStanding_clk {x} {f} {m : Mach} : (changeStanding x f m).clk = m.clk :=
  changeStanding_fr (List.Subset.refl _) (Frame.refl _ _) .clk (by simp)

@[simp] theorem changeStanding_time {x} {f} {m : Mach} : (changeStanding x f m).time = m.time :=
  changeStanding_fr (List.Subset.refl _) (Frame.refl _ _) .time (by simp)

@[simp] theorem changeStanding_job {x} {f} {m : Mach} : (changeStanding x f m).job = m.job :=
  changeStanding_fr (List.Subset.refl _) (Frame.refl _ _) .job (by simp)

@[simp] theorem changeStanding_imp {x} {f} {m : Mach} : (changeStanding x f m).imp = m.imp :=
  changeStanding_fr (List.Subset.refl _) (Frame.refl _ _) .imp (by simp)

@[simp] theorem changeStanding_beams {x} {f} {m : Mach} : (changeStanding x f m).beams = m.beams :=
  changeStanding_fr (List.Subset.refl _) (Frame.refl _ _) .beams (by simp)

@[simp] theorem changeStanding_mpl {x} {f} {m : Mach} : (changeStanding x f m).mpl = m.mpl :=
  changeStanding_fr (List.Subset.refl _) (Frame.refl _ _) .mpl (by simp)

@[simp] theorem changeStanding_hmap {x} {f} {m : Mach} : (changeStanding x f m).hmap = m.hmap :=
  changeStanding_fr (List.Subset.refl _) (Frame.refl _ _) .hmap (by simp)

@[simp] theorem changeStanding_cells {x} {f} {m : Mach} : (changeStanding x f m).cells = m.cells :=
  changeStanding_fr (List.Subset.refl _) (Frame.refl _ _) .cells (by simp)

@[simp] theorem changeStanding_sig {x} {f} {m : Mach} : (changeStanding x f m).sig = m.sig :=
  changeStanding_fr (List.Subset.refl _) (Frame.refl _ _) .sig (by simp)

@[simp] theorem changeStanding_lanes {x} {f} {m : Mach} : (changeStanding x f m).lanes = m.lanes :=
  changeStanding_fr (List.Subset.refl _) (Frame.refl _ _) .lanes (by simp)

@[simp] theorem changeStanding_heads {x} {f} {m : Mach} : (changeStanding x f m).heads = m.heads :=
  changeStanding_fr (List.Subset.refl _) (Frame.refl _ _) .heads (by simp)

@[simp] theorem changeStanding_stg {x} {f} {m : Mach} : (changeStanding x f m).stg = m.stg :=
  changeStanding_fr (List.Subset.refl _) (Frame.refl _ _) .stg (by simp)

@[simp] theorem changeStanding_ilk {x} {f} {m : Mach} : (changeStanding x f m).ilk = m.ilk :=
  changeStanding_fr (List.Subset.refl _) (Frame.refl _ _) .ilk (by simp)

@[simp] theorem changeStanding_hlt {x} {f} {m : Mach} : (changeStanding x f m).hlt = m.hlt :=
  changeStanding_fr (List.Subset.refl _) (Frame.refl _ _) .hlt (by simp)

@[simp] theorem changeStanding_keep {x} {f} {m : Mach} : (changeStanding x f m).keep = m.keep :=
  changeStanding_fr (List.Subset.refl _) (Frame.refl _ _) .keep (by simp)

@[simp] theorem changeStanding_env {x} {f} {m : Mach} : (changeStanding x f m).env = m.env :=
  changeStanding_fr (List.Subset.refl _) (Frame.refl _ _) .env (by simp)

@[simp] theorem changeStanding_dev {x} {f} {m : Mach} : (changeStanding x f m).g.dev = m.g.dev :=
  dev_of_bare (changeStanding_fr (List.Subset.refl _) (Frame.refl _ _) .g (by simp))

@[simp] theorem changeStanding_bytes {x} {f} {m : Mach} : (changeStanding x f m).mem.cells = m.mem.cells :=
  changeStanding_fr (List.Subset.refl _) (Frame.refl _ _) .bytes (by simp)

@[simp] theorem readBank_aon {x} {m : Mach} : (readBank x m).aon = m.aon :=
  readBank_fr (List.Subset.refl _) (Frame.refl _ _) .aon (by simp)

@[simp] theorem readBank_clk {x} {m : Mach} : (readBank x m).clk = m.clk :=
  readBank_fr (List.Subset.refl _) (Frame.refl _ _) .clk (by simp)

@[simp] theorem readBank_time {x} {m : Mach} : (readBank x m).time = m.time :=
  readBank_fr (List.Subset.refl _) (Frame.refl _ _) .time (by simp)

@[simp] theorem readBank_job {x} {m : Mach} : (readBank x m).job = m.job :=
  readBank_fr (List.Subset.refl _) (Frame.refl _ _) .job (by simp)

@[simp] theorem readBank_imp {x} {m : Mach} : (readBank x m).imp = m.imp :=
  readBank_fr (List.Subset.refl _) (Frame.refl _ _) .imp (by simp)

@[simp] theorem readBank_beams {x} {m : Mach} : (readBank x m).beams = m.beams :=
  readBank_fr (List.Subset.refl _) (Frame.refl _ _) .beams (by simp)

@[simp] theorem readBank_mpl {x} {m : Mach} : (readBank x m).mpl = m.mpl :=
  readBank_fr (List.Subset.refl _) (Frame.refl _ _) .mpl (by simp)

@[simp] theorem readBank_hmap {x} {m : Mach} : (readBank x m).hmap = m.hmap :=
  readBank_fr (List.Subset.refl _) (Frame.refl _ _) .hmap (by simp)

@[simp] theorem readBank_cells {x} {m : Mach} : (readBank x m).cells = m.cells :=
  readBank_fr (List.Subset.refl _) (Frame.refl _ _) .cells (by simp)

@[simp] theorem readBank_sig {x} {m : Mach} : (readBank x m).sig = m.sig :=
  readBank_fr (List.Subset.refl _) (Frame.refl _ _) .sig (by simp)

@[simp] theorem readBank_lanes {x} {m : Mach} : (readBank x m).lanes = m.lanes :=
  readBank_fr (List.Subset.refl _) (Frame.refl _ _) .lanes (by simp)

@[simp] theorem readBank_heads {x} {m : Mach} : (readBank x m).heads = m.heads :=
  readBank_fr (List.Subset.refl _) (Frame.refl _ _) .heads (by simp)

@[simp] theorem readBank_stg {x} {m : Mach} : (readBank x m).stg = m.stg :=
  readBank_fr (List.Subset.refl _) (Frame.refl _ _) .stg (by simp)

@[simp] theorem readBank_ilk {x} {m : Mach} : (readBank x m).ilk = m.ilk :=
  readBank_fr (List.Subset.refl _) (Frame.refl _ _) .ilk (by simp)

@[simp] theorem readBank_hlt {x} {m : Mach} : (readBank x m).hlt = m.hlt :=
  readBank_fr (List.Subset.refl _) (Frame.refl _ _) .hlt (by simp)

@[simp] theorem readBank_keep {x} {m : Mach} : (readBank x m).keep = m.keep :=
  readBank_fr (List.Subset.refl _) (Frame.refl _ _) .keep (by simp)

@[simp] theorem readBank_outs {x} {m : Mach} : (readBank x m).outs = m.outs :=
  readBank_fr (List.Subset.refl _) (Frame.refl _ _) .outs (by simp)

@[simp] theorem readBank_free {x} {m : Mach} : (readBank x m).free = m.free :=
  readBank_fr (List.Subset.refl _) (Frame.refl _ _) .free (by simp)

@[simp] theorem readBank_env {x} {m : Mach} : (readBank x m).env = m.env :=
  readBank_fr (List.Subset.refl _) (Frame.refl _ _) .env (by simp)

@[simp] theorem readBank_dev {x} {m : Mach} : (readBank x m).g.dev = m.g.dev :=
  dev_of_bare (readBank_fr (List.Subset.refl _) (Frame.refl _ _) .g (by simp))

@[simp] theorem readBank_bytes {x} {m : Mach} : (readBank x m).mem.cells = m.mem.cells :=
  readBank_fr (List.Subset.refl _) (Frame.refl _ _) .bytes (by simp)

@[simp] theorem laneFail_aon {l} {cause} {more} {m : Mach} : (laneFail l cause more m).aon = m.aon :=
  laneFail_fr (List.Subset.refl _) (Frame.refl _ _) .aon (by simp)

@[simp] theorem laneFail_clk {l} {cause} {more} {m : Mach} : (laneFail l cause more m).clk = m.clk :=
  laneFail_fr (List.Subset.refl _) (Frame.refl _ _) .clk (by simp)

@[simp] theorem laneFail_boot {l} {cause} {more} {m : Mach} : (laneFail l cause more m).boot = m.boot :=
  laneFail_fr (List.Subset.refl _) (Frame.refl _ _) .boot (by simp)

@[simp] theorem laneFail_hmap {l} {cause} {more} {m : Mach} : (laneFail l cause more m).hmap = m.hmap :=
  laneFail_fr (List.Subset.refl _) (Frame.refl _ _) .hmap (by simp)

@[simp] theorem laneFail_stg {l} {cause} {more} {m : Mach} : (laneFail l cause more m).stg = m.stg :=
  laneFail_fr (List.Subset.refl _) (Frame.refl _ _) .stg (by simp)

@[simp] theorem laneFail_hlt {l} {cause} {more} {m : Mach} : (laneFail l cause more m).hlt = m.hlt :=
  laneFail_fr (List.Subset.refl _) (Frame.refl _ _) .hlt (by simp)

@[simp] theorem laneFail_keep {l} {cause} {more} {m : Mach} : (laneFail l cause more m).keep = m.keep :=
  laneFail_fr (List.Subset.refl _) (Frame.refl _ _) .keep (by simp)

@[simp] theorem laneFail_free {l} {cause} {more} {m : Mach} : (laneFail l cause more m).free = m.free :=
  laneFail_fr (List.Subset.refl _) (Frame.refl _ _) .free (by simp)

@[simp] theorem laneFail_env {l} {cause} {more} {m : Mach} : (laneFail l cause more m).env = m.env :=
  laneFail_fr (List.Subset.refl _) (Frame.refl _ _) .env (by simp)

@[simp] theorem laneFail_dev {l} {cause} {more} {m : Mach} : (laneFail l cause more m).g.dev = m.g.dev :=
  dev_of_bare (laneFail_fr (List.Subset.refl _) (Frame.refl _ _) .g (by simp))

end Sys2Proof.Machine
end

