-- ==== Sys2Proof/Laws/Shared.lean ====
section
/-!
SUPPORT. What the shared operations change: one or two lemmas for each, which proofs about commands cite instead of unfolding them.
-/

namespace Sys2Proof.Machine

/-- A write that reaches its block is the register's own effect. -/
theorem writeGate_open {m : Mach} {p : Port} {off : Nat} {f : Mach → Mach} (h : WriteOpen m p off) : writeGate p off f m = f m := by
  obtain ⟨h1, h2, h3⟩ := h
  simp only [writeGate, h1, dropShadow, h2, h3]
  rfl

/-- So is a write of both words of a pair. -/
theorem pairGate_open {m : Mach} {p : Port} {off : Nat} {f : Mach → Mach} (h : WriteOpen m p off) : pairGate p off f m = f m := by
  simp only [pairGate, h.2.1]
  exact writeGate_open h

/-- An event register outside the parts that change keeps its events. -/
theorem raised_frame {l : List Part} {m n : Mach} (h : Frame l m n) (e : EvReg) (k : Nat) (hk : .ev e.kind ∉ l) :
    raised n e k = raised m e k := by
  simp only [raised, h (.ev e.kind) hk e rfl]

/-- Any other register held as written, too. -/
theorem regGet_frame {l : List Part} {m n : Mach} (h : Frame l m n) (off : Nat) (ho : ∀ e : EvReg, off ≠ e.off) (hk : .regs ∉ l) :
    regGet n off = regGet m off := h .regs hk off ho

theorem raised_raise_self {e : EvReg} {b : Nat} {m : Mach} (hb : b < 24) : raised (raise e b m) e b = true := by
  simp [raised_raise hb hb]

/-- An event that stands is not taken away by another. -/
theorem raised_raise_of {e e' : EvReg} {b b' : Nat} {m : Mach} (h : raised m e' b' = true) (hb : b < 24) (hb' : b' < 24) :
    raised (raise e b m) e' b' = true := by
  simp [raised_raise hb hb', h]

@[simp] theorem devMove_dev_new {new : DevState} {cause : Nat} {m : Mach} : (devMove new cause m).g.dev = new := by
  simp [devMove, stateEntry, whenM, apply_ite Mach.g, apply_ite Glob.dev]

@[simp] theorem jobMove_job {st : JobState} {c : BitVec 9} {m : Mach} : (jobMove st c m).job = { m.job with st := st, causes := c } := by
  unfold jobMove
  split
  · rename_i h
    rw [← h.1, ← h.2]
  · simp only
    split <;> simp

@[simp] theorem whenM_true {f : Mach → Mach} {m : Mach} : whenM true f m = f m := rfl
@[simp] theorem whenM_false {f : Mach → Mach} {m : Mach} : whenM false f m = m := rfl

/-- A change of the device state raises STATE_CHANGE. -/
theorem raised_devMove {new : DevState} {cause : Nat} {m : Mach} (h : m.clk.fallback ≠ .onBackup) :
    raised (devMove new cause m) .glb 0 = true := by
  have hp : ∀ x : Mach, raised (pinsFollow x) .glb 0 = raised x .glb 0 := fun x =>
    raised_frame (pinsFollow_fr (List.Subset.refl _) (Frame.refl _ x)) _ _ (by simp [EvReg.kind])
  have hd : ∀ x : Mach, raised (devSignals x) .glb 0 = raised x .glb 0 := fun x =>
    raised_frame (devSignals_fr (List.Subset.refl _) (Frame.refl _ x)) _ _ (by simp [EvReg.kind])
  simp only [devMove, hp, hd, stateEntry]
  rw [whenM, if_pos (by simpa using h)]
  exact raised_raise_self (by decide)

end Sys2Proof.Machine
end

