-- ==== Sys2Proof/Laws/State.lean ====
section
/-!
SUPPORT. What each named update of the device does to each part of it, so that no proof unfolds a record update.
-/

namespace Sys2Proof.Laws.State

open Sys2Proof Sys2Proof.Machine

variable (m : Mach)

@[simp] theorem emit_g (o : Output) : (emit o m).g = m.g := rfl
@[simp] theorem emit_aon (o : Output) : (emit o m).aon = m.aon := rfl
@[simp] theorem emit_clk (o : Output) : (emit o m).clk = m.clk := rfl
@[simp] theorem emit_boot (o : Output) : (emit o m).boot = m.boot := rfl
@[simp] theorem emit_mem (o : Output) : (emit o m).mem = m.mem := rfl
@[simp] theorem emit_mgt (o : Output) : (emit o m).mgt = m.mgt := rfl
@[simp] theorem emit_time (o : Output) : (emit o m).time = m.time := rfl
@[simp] theorem emit_job (o : Output) : (emit o m).job = m.job := rfl
@[simp] theorem emit_imp (o : Output) : (emit o m).imp = m.imp := rfl
@[simp] theorem emit_beams (o : Output) : (emit o m).beams = m.beams := rfl
@[simp] theorem emit_mpl (o : Output) : (emit o m).mpl = m.mpl := rfl
@[simp] theorem emit_hmap (o : Output) : (emit o m).hmap = m.hmap := rfl
@[simp] theorem emit_cells (o : Output) : (emit o m).cells = m.cells := rfl
@[simp] theorem emit_sig (o : Output) : (emit o m).sig = m.sig := rfl
@[simp] theorem emit_lanes (o : Output) : (emit o m).lanes = m.lanes := rfl
@[simp] theorem emit_heads (o : Output) : (emit o m).heads = m.heads := rfl
@[simp] theorem emit_stg (o : Output) : (emit o m).stg = m.stg := rfl
@[simp] theorem emit_ilk (o : Output) : (emit o m).ilk = m.ilk := rfl
@[simp] theorem emit_hlt (o : Output) : (emit o m).hlt = m.hlt := rfl
@[simp] theorem emit_keep (o : Output) : (emit o m).keep = m.keep := rfl
@[simp] theorem emit_regs (o : Output) : (emit o m).regs = m.regs := rfl
@[simp] theorem emit_outs (o : Output) : (emit o m).outs = o :: m.outs := rfl
@[simp] theorem emit_free (o : Output) : (emit o m).free = m.free := rfl
@[simp] theorem emit_env (o : Output) : (emit o m).env = m.env := rfl

@[simp] theorem regSet_g (off : Nat) (w : Word) : (regSet off w m).g = m.g := rfl
@[simp] theorem regSet_aon (off : Nat) (w : Word) : (regSet off w m).aon = m.aon := rfl
@[simp] theorem regSet_clk (off : Nat) (w : Word) : (regSet off w m).clk = m.clk := rfl
@[simp] theorem regSet_boot (off : Nat) (w : Word) : (regSet off w m).boot = m.boot := rfl
@[simp] theorem regSet_mem (off : Nat) (w : Word) : (regSet off w m).mem = m.mem := rfl
@[simp] theorem regSet_mgt (off : Nat) (w : Word) : (regSet off w m).mgt = m.mgt := rfl
@[simp] theorem regSet_time (off : Nat) (w : Word) : (regSet off w m).time = m.time := rfl
@[simp] theorem regSet_job (off : Nat) (w : Word) : (regSet off w m).job = m.job := rfl
@[simp] theorem regSet_imp (off : Nat) (w : Word) : (regSet off w m).imp = m.imp := rfl
@[simp] theorem regSet_beams (off : Nat) (w : Word) : (regSet off w m).beams = m.beams := rfl
@[simp] theorem regSet_mpl (off : Nat) (w : Word) : (regSet off w m).mpl = m.mpl := rfl
@[simp] theorem regSet_hmap (off : Nat) (w : Word) : (regSet off w m).hmap = m.hmap := rfl
@[simp] theorem regSet_cells (off : Nat) (w : Word) : (regSet off w m).cells = m.cells := rfl
@[simp] theorem regSet_sig (off : Nat) (w : Word) : (regSet off w m).sig = m.sig := rfl
@[simp] theorem regSet_lanes (off : Nat) (w : Word) : (regSet off w m).lanes = m.lanes := rfl
@[simp] theorem regSet_heads (off : Nat) (w : Word) : (regSet off w m).heads = m.heads := rfl
@[simp] theorem regSet_stg (off : Nat) (w : Word) : (regSet off w m).stg = m.stg := rfl
@[simp] theorem regSet_ilk (off : Nat) (w : Word) : (regSet off w m).ilk = m.ilk := rfl
@[simp] theorem regSet_hlt (off : Nat) (w : Word) : (regSet off w m).hlt = m.hlt := rfl
@[simp] theorem regSet_keep (off : Nat) (w : Word) : (regSet off w m).keep = m.keep := rfl
@[simp] theorem regSet_regs (off : Nat) (w : Word) : (regSet off w m).regs = put regReset m.regs off w := rfl
@[simp] theorem regSet_outs (off : Nat) (w : Word) : (regSet off w m).outs = m.outs := rfl
@[simp] theorem regSet_free (off : Nat) (w : Word) : (regSet off w m).free = m.free := rfl
@[simp] theorem regSet_env (off : Nat) (w : Word) : (regSet off w m).env = m.env := rfl

@[simp] theorem sigPut_g (n : Nat) (v : SigVal) : (sigPut n v m).g = m.g := rfl
@[simp] theorem sigPut_aon (n : Nat) (v : SigVal) : (sigPut n v m).aon = m.aon := rfl
@[simp] theorem sigPut_clk (n : Nat) (v : SigVal) : (sigPut n v m).clk = m.clk := rfl
@[simp] theorem sigPut_boot (n : Nat) (v : SigVal) : (sigPut n v m).boot = m.boot := rfl
@[simp] theorem sigPut_mem (n : Nat) (v : SigVal) : (sigPut n v m).mem = m.mem := rfl
@[simp] theorem sigPut_mgt (n : Nat) (v : SigVal) : (sigPut n v m).mgt = m.mgt := rfl
@[simp] theorem sigPut_time (n : Nat) (v : SigVal) : (sigPut n v m).time = m.time := rfl
@[simp] theorem sigPut_job (n : Nat) (v : SigVal) : (sigPut n v m).job = m.job := rfl
@[simp] theorem sigPut_imp (n : Nat) (v : SigVal) : (sigPut n v m).imp = m.imp := rfl
@[simp] theorem sigPut_beams (n : Nat) (v : SigVal) : (sigPut n v m).beams = m.beams := rfl
@[simp] theorem sigPut_mpl (n : Nat) (v : SigVal) : (sigPut n v m).mpl = m.mpl := rfl
@[simp] theorem sigPut_hmap (n : Nat) (v : SigVal) : (sigPut n v m).hmap = m.hmap := rfl
@[simp] theorem sigPut_cells (n : Nat) (v : SigVal) : (sigPut n v m).cells = m.cells := rfl
@[simp] theorem sigPut_sig (n : Nat) (v : SigVal) : (sigPut n v m).sig = { m.sig with vals := put (fun _ => {}) m.sig.vals n v } := rfl
@[simp] theorem sigPut_lanes (n : Nat) (v : SigVal) : (sigPut n v m).lanes = m.lanes := rfl
@[simp] theorem sigPut_heads (n : Nat) (v : SigVal) : (sigPut n v m).heads = m.heads := rfl
@[simp] theorem sigPut_stg (n : Nat) (v : SigVal) : (sigPut n v m).stg = m.stg := rfl
@[simp] theorem sigPut_ilk (n : Nat) (v : SigVal) : (sigPut n v m).ilk = m.ilk := rfl
@[simp] theorem sigPut_hlt (n : Nat) (v : SigVal) : (sigPut n v m).hlt = m.hlt := rfl
@[simp] theorem sigPut_keep (n : Nat) (v : SigVal) : (sigPut n v m).keep = m.keep := rfl
@[simp] theorem sigPut_regs (n : Nat) (v : SigVal) : (sigPut n v m).regs = m.regs := rfl
@[simp] theorem sigPut_outs (n : Nat) (v : SigVal) : (sigPut n v m).outs = m.outs := rfl
@[simp] theorem sigPut_free (n : Nat) (v : SigVal) : (sigPut n v m).free = m.free := rfl
@[simp] theorem sigPut_env (n : Nat) (v : SigVal) : (sigPut n v m).env = m.env := rfl

@[simp] theorem onImpAll_g (f : Imp → Imp) : (onImpAll f m).g = m.g := rfl
@[simp] theorem onImpAll_aon (f : Imp → Imp) : (onImpAll f m).aon = m.aon := rfl
@[simp] theorem onImpAll_clk (f : Imp → Imp) : (onImpAll f m).clk = m.clk := rfl
@[simp] theorem onImpAll_boot (f : Imp → Imp) : (onImpAll f m).boot = m.boot := rfl
@[simp] theorem onImpAll_mem (f : Imp → Imp) : (onImpAll f m).mem = m.mem := rfl
@[simp] theorem onImpAll_mgt (f : Imp → Imp) : (onImpAll f m).mgt = m.mgt := rfl
@[simp] theorem onImpAll_time (f : Imp → Imp) : (onImpAll f m).time = m.time := rfl
@[simp] theorem onImpAll_job (f : Imp → Imp) : (onImpAll f m).job = m.job := rfl
@[simp] theorem onImpAll_imp (f : Imp → Imp) : (onImpAll f m).imp = f m.imp := rfl
@[simp] theorem onImpAll_beams (f : Imp → Imp) : (onImpAll f m).beams = m.beams := rfl
@[simp] theorem onImpAll_mpl (f : Imp → Imp) : (onImpAll f m).mpl = m.mpl := rfl
@[simp] theorem onImpAll_hmap (f : Imp → Imp) : (onImpAll f m).hmap = m.hmap := rfl
@[simp] theorem onImpAll_cells (f : Imp → Imp) : (onImpAll f m).cells = m.cells := rfl
@[simp] theorem onImpAll_sig (f : Imp → Imp) : (onImpAll f m).sig = m.sig := rfl
@[simp] theorem onImpAll_lanes (f : Imp → Imp) : (onImpAll f m).lanes = m.lanes := rfl
@[simp] theorem onImpAll_heads (f : Imp → Imp) : (onImpAll f m).heads = m.heads := rfl
@[simp] theorem onImpAll_stg (f : Imp → Imp) : (onImpAll f m).stg = m.stg := rfl
@[simp] theorem onImpAll_ilk (f : Imp → Imp) : (onImpAll f m).ilk = m.ilk := rfl
@[simp] theorem onImpAll_hlt (f : Imp → Imp) : (onImpAll f m).hlt = m.hlt := rfl
@[simp] theorem onImpAll_keep (f : Imp → Imp) : (onImpAll f m).keep = m.keep := rfl
@[simp] theorem onImpAll_regs (f : Imp → Imp) : (onImpAll f m).regs = m.regs := rfl
@[simp] theorem onImpAll_outs (f : Imp → Imp) : (onImpAll f m).outs = m.outs := rfl
@[simp] theorem onImpAll_free (f : Imp → Imp) : (onImpAll f m).free = m.free := rfl
@[simp] theorem onImpAll_env (f : Imp → Imp) : (onImpAll f m).env = m.env := rfl

@[simp] theorem onImp_g (b : Fin 12) (f : ImpBeam → ImpBeam) : (onImp b f m).g = m.g := rfl
@[simp] theorem onImp_aon (b : Fin 12) (f : ImpBeam → ImpBeam) : (onImp b f m).aon = m.aon := rfl
@[simp] theorem onImp_clk (b : Fin 12) (f : ImpBeam → ImpBeam) : (onImp b f m).clk = m.clk := rfl
@[simp] theorem onImp_boot (b : Fin 12) (f : ImpBeam → ImpBeam) : (onImp b f m).boot = m.boot := rfl
@[simp] theorem onImp_mem (b : Fin 12) (f : ImpBeam → ImpBeam) : (onImp b f m).mem = m.mem := rfl
@[simp] theorem onImp_mgt (b : Fin 12) (f : ImpBeam → ImpBeam) : (onImp b f m).mgt = m.mgt := rfl
@[simp] theorem onImp_time (b : Fin 12) (f : ImpBeam → ImpBeam) : (onImp b f m).time = m.time := rfl
@[simp] theorem onImp_job (b : Fin 12) (f : ImpBeam → ImpBeam) : (onImp b f m).job = m.job := rfl
@[simp] theorem onImp_imp (b : Fin 12) (f : ImpBeam → ImpBeam) : (onImp b f m).imp = { m.imp with beams := m.imp.beams.set b (f m.imp.beams[b]) } := rfl
@[simp] theorem onImp_beams (b : Fin 12) (f : ImpBeam → ImpBeam) : (onImp b f m).beams = m.beams := rfl
@[simp] theorem onImp_mpl (b : Fin 12) (f : ImpBeam → ImpBeam) : (onImp b f m).mpl = m.mpl := rfl
@[simp] theorem onImp_hmap (b : Fin 12) (f : ImpBeam → ImpBeam) : (onImp b f m).hmap = m.hmap := rfl
@[simp] theorem onImp_cells (b : Fin 12) (f : ImpBeam → ImpBeam) : (onImp b f m).cells = m.cells := rfl
@[simp] theorem onImp_sig (b : Fin 12) (f : ImpBeam → ImpBeam) : (onImp b f m).sig = m.sig := rfl
@[simp] theorem onImp_lanes (b : Fin 12) (f : ImpBeam → ImpBeam) : (onImp b f m).lanes = m.lanes := rfl
@[simp] theorem onImp_heads (b : Fin 12) (f : ImpBeam → ImpBeam) : (onImp b f m).heads = m.heads := rfl
@[simp] theorem onImp_stg (b : Fin 12) (f : ImpBeam → ImpBeam) : (onImp b f m).stg = m.stg := rfl
@[simp] theorem onImp_ilk (b : Fin 12) (f : ImpBeam → ImpBeam) : (onImp b f m).ilk = m.ilk := rfl
@[simp] theorem onImp_hlt (b : Fin 12) (f : ImpBeam → ImpBeam) : (onImp b f m).hlt = m.hlt := rfl
@[simp] theorem onImp_keep (b : Fin 12) (f : ImpBeam → ImpBeam) : (onImp b f m).keep = m.keep := rfl
@[simp] theorem onImp_regs (b : Fin 12) (f : ImpBeam → ImpBeam) : (onImp b f m).regs = m.regs := rfl
@[simp] theorem onImp_outs (b : Fin 12) (f : ImpBeam → ImpBeam) : (onImp b f m).outs = m.outs := rfl
@[simp] theorem onImp_free (b : Fin 12) (f : ImpBeam → ImpBeam) : (onImp b f m).free = m.free := rfl
@[simp] theorem onImp_env (b : Fin 12) (f : ImpBeam → ImpBeam) : (onImp b f m).env = m.env := rfl

@[simp] theorem onBeam_g (b : Fin 12) (f : Beam → Beam) : (onBeam b f m).g = m.g := rfl
@[simp] theorem onBeam_aon (b : Fin 12) (f : Beam → Beam) : (onBeam b f m).aon = m.aon := rfl
@[simp] theorem onBeam_clk (b : Fin 12) (f : Beam → Beam) : (onBeam b f m).clk = m.clk := rfl
@[simp] theorem onBeam_boot (b : Fin 12) (f : Beam → Beam) : (onBeam b f m).boot = m.boot := rfl
@[simp] theorem onBeam_mem (b : Fin 12) (f : Beam → Beam) : (onBeam b f m).mem = m.mem := rfl
@[simp] theorem onBeam_mgt (b : Fin 12) (f : Beam → Beam) : (onBeam b f m).mgt = m.mgt := rfl
@[simp] theorem onBeam_time (b : Fin 12) (f : Beam → Beam) : (onBeam b f m).time = m.time := rfl
@[simp] theorem onBeam_job (b : Fin 12) (f : Beam → Beam) : (onBeam b f m).job = m.job := rfl
@[simp] theorem onBeam_imp (b : Fin 12) (f : Beam → Beam) : (onBeam b f m).imp = m.imp := rfl
@[simp] theorem onBeam_beams (b : Fin 12) (f : Beam → Beam) : (onBeam b f m).beams = m.beams.set b (f m.beams[b]) := rfl
@[simp] theorem onBeam_mpl (b : Fin 12) (f : Beam → Beam) : (onBeam b f m).mpl = m.mpl := rfl
@[simp] theorem onBeam_hmap (b : Fin 12) (f : Beam → Beam) : (onBeam b f m).hmap = m.hmap := rfl
@[simp] theorem onBeam_cells (b : Fin 12) (f : Beam → Beam) : (onBeam b f m).cells = m.cells := rfl
@[simp] theorem onBeam_sig (b : Fin 12) (f : Beam → Beam) : (onBeam b f m).sig = m.sig := rfl
@[simp] theorem onBeam_lanes (b : Fin 12) (f : Beam → Beam) : (onBeam b f m).lanes = m.lanes := rfl
@[simp] theorem onBeam_heads (b : Fin 12) (f : Beam → Beam) : (onBeam b f m).heads = m.heads := rfl
@[simp] theorem onBeam_stg (b : Fin 12) (f : Beam → Beam) : (onBeam b f m).stg = m.stg := rfl
@[simp] theorem onBeam_ilk (b : Fin 12) (f : Beam → Beam) : (onBeam b f m).ilk = m.ilk := rfl
@[simp] theorem onBeam_hlt (b : Fin 12) (f : Beam → Beam) : (onBeam b f m).hlt = m.hlt := rfl
@[simp] theorem onBeam_keep (b : Fin 12) (f : Beam → Beam) : (onBeam b f m).keep = m.keep := rfl
@[simp] theorem onBeam_regs (b : Fin 12) (f : Beam → Beam) : (onBeam b f m).regs = m.regs := rfl
@[simp] theorem onBeam_outs (b : Fin 12) (f : Beam → Beam) : (onBeam b f m).outs = m.outs := rfl
@[simp] theorem onBeam_free (b : Fin 12) (f : Beam → Beam) : (onBeam b f m).free = m.free := rfl
@[simp] theorem onBeam_env (b : Fin 12) (f : Beam → Beam) : (onBeam b f m).env = m.env := rfl

@[simp] theorem onMpl_g (b : Fin 12) (f : Mpl → Mpl) : (onMpl b f m).g = m.g := rfl
@[simp] theorem onMpl_aon (b : Fin 12) (f : Mpl → Mpl) : (onMpl b f m).aon = m.aon := rfl
@[simp] theorem onMpl_clk (b : Fin 12) (f : Mpl → Mpl) : (onMpl b f m).clk = m.clk := rfl
@[simp] theorem onMpl_boot (b : Fin 12) (f : Mpl → Mpl) : (onMpl b f m).boot = m.boot := rfl
@[simp] theorem onMpl_mem (b : Fin 12) (f : Mpl → Mpl) : (onMpl b f m).mem = m.mem := rfl
@[simp] theorem onMpl_mgt (b : Fin 12) (f : Mpl → Mpl) : (onMpl b f m).mgt = m.mgt := rfl
@[simp] theorem onMpl_time (b : Fin 12) (f : Mpl → Mpl) : (onMpl b f m).time = m.time := rfl
@[simp] theorem onMpl_job (b : Fin 12) (f : Mpl → Mpl) : (onMpl b f m).job = m.job := rfl
@[simp] theorem onMpl_imp (b : Fin 12) (f : Mpl → Mpl) : (onMpl b f m).imp = m.imp := rfl
@[simp] theorem onMpl_beams (b : Fin 12) (f : Mpl → Mpl) : (onMpl b f m).beams = m.beams := rfl
@[simp] theorem onMpl_mpl (b : Fin 12) (f : Mpl → Mpl) : (onMpl b f m).mpl = m.mpl.set b (f m.mpl[b]) := rfl
@[simp] theorem onMpl_hmap (b : Fin 12) (f : Mpl → Mpl) : (onMpl b f m).hmap = m.hmap := rfl
@[simp] theorem onMpl_cells (b : Fin 12) (f : Mpl → Mpl) : (onMpl b f m).cells = m.cells := rfl
@[simp] theorem onMpl_sig (b : Fin 12) (f : Mpl → Mpl) : (onMpl b f m).sig = m.sig := rfl
@[simp] theorem onMpl_lanes (b : Fin 12) (f : Mpl → Mpl) : (onMpl b f m).lanes = m.lanes := rfl
@[simp] theorem onMpl_heads (b : Fin 12) (f : Mpl → Mpl) : (onMpl b f m).heads = m.heads := rfl
@[simp] theorem onMpl_stg (b : Fin 12) (f : Mpl → Mpl) : (onMpl b f m).stg = m.stg := rfl
@[simp] theorem onMpl_ilk (b : Fin 12) (f : Mpl → Mpl) : (onMpl b f m).ilk = m.ilk := rfl
@[simp] theorem onMpl_hlt (b : Fin 12) (f : Mpl → Mpl) : (onMpl b f m).hlt = m.hlt := rfl
@[simp] theorem onMpl_keep (b : Fin 12) (f : Mpl → Mpl) : (onMpl b f m).keep = m.keep := rfl
@[simp] theorem onMpl_regs (b : Fin 12) (f : Mpl → Mpl) : (onMpl b f m).regs = m.regs := rfl
@[simp] theorem onMpl_outs (b : Fin 12) (f : Mpl → Mpl) : (onMpl b f m).outs = m.outs := rfl
@[simp] theorem onMpl_free (b : Fin 12) (f : Mpl → Mpl) : (onMpl b f m).free = m.free := rfl
@[simp] theorem onMpl_env (b : Fin 12) (f : Mpl → Mpl) : (onMpl b f m).env = m.env := rfl

@[simp] theorem onLane_g (l : Fin 28) (f : Lane → Lane) : (onLane l f m).g = m.g := rfl
@[simp] theorem onLane_aon (l : Fin 28) (f : Lane → Lane) : (onLane l f m).aon = m.aon := rfl
@[simp] theorem onLane_clk (l : Fin 28) (f : Lane → Lane) : (onLane l f m).clk = m.clk := rfl
@[simp] theorem onLane_boot (l : Fin 28) (f : Lane → Lane) : (onLane l f m).boot = m.boot := rfl
@[simp] theorem onLane_mem (l : Fin 28) (f : Lane → Lane) : (onLane l f m).mem = m.mem := rfl
@[simp] theorem onLane_mgt (l : Fin 28) (f : Lane → Lane) : (onLane l f m).mgt = m.mgt := rfl
@[simp] theorem onLane_time (l : Fin 28) (f : Lane → Lane) : (onLane l f m).time = m.time := rfl
@[simp] theorem onLane_job (l : Fin 28) (f : Lane → Lane) : (onLane l f m).job = m.job := rfl
@[simp] theorem onLane_imp (l : Fin 28) (f : Lane → Lane) : (onLane l f m).imp = m.imp := rfl
@[simp] theorem onLane_beams (l : Fin 28) (f : Lane → Lane) : (onLane l f m).beams = m.beams := rfl
@[simp] theorem onLane_mpl (l : Fin 28) (f : Lane → Lane) : (onLane l f m).mpl = m.mpl := rfl
@[simp] theorem onLane_hmap (l : Fin 28) (f : Lane → Lane) : (onLane l f m).hmap = m.hmap := rfl
@[simp] theorem onLane_cells (l : Fin 28) (f : Lane → Lane) : (onLane l f m).cells = m.cells := rfl
@[simp] theorem onLane_sig (l : Fin 28) (f : Lane → Lane) : (onLane l f m).sig = m.sig := rfl
@[simp] theorem onLane_lanes (l : Fin 28) (f : Lane → Lane) : (onLane l f m).lanes = m.lanes.set l (f m.lanes[l]) := rfl
@[simp] theorem onLane_heads (l : Fin 28) (f : Lane → Lane) : (onLane l f m).heads = m.heads := rfl
@[simp] theorem onLane_stg (l : Fin 28) (f : Lane → Lane) : (onLane l f m).stg = m.stg := rfl
@[simp] theorem onLane_ilk (l : Fin 28) (f : Lane → Lane) : (onLane l f m).ilk = m.ilk := rfl
@[simp] theorem onLane_hlt (l : Fin 28) (f : Lane → Lane) : (onLane l f m).hlt = m.hlt := rfl
@[simp] theorem onLane_keep (l : Fin 28) (f : Lane → Lane) : (onLane l f m).keep = m.keep := rfl
@[simp] theorem onLane_regs (l : Fin 28) (f : Lane → Lane) : (onLane l f m).regs = m.regs := rfl
@[simp] theorem onLane_outs (l : Fin 28) (f : Lane → Lane) : (onLane l f m).outs = m.outs := rfl
@[simp] theorem onLane_free (l : Fin 28) (f : Lane → Lane) : (onLane l f m).free = m.free := rfl
@[simp] theorem onLane_env (l : Fin 28) (f : Lane → Lane) : (onLane l f m).env = m.env := rfl

@[simp] theorem onHead_g (h : Fin 16) (f : Head → Head) : (onHead h f m).g = m.g := rfl
@[simp] theorem onHead_aon (h : Fin 16) (f : Head → Head) : (onHead h f m).aon = m.aon := rfl
@[simp] theorem onHead_clk (h : Fin 16) (f : Head → Head) : (onHead h f m).clk = m.clk := rfl
@[simp] theorem onHead_boot (h : Fin 16) (f : Head → Head) : (onHead h f m).boot = m.boot := rfl
@[simp] theorem onHead_mem (h : Fin 16) (f : Head → Head) : (onHead h f m).mem = m.mem := rfl
@[simp] theorem onHead_mgt (h : Fin 16) (f : Head → Head) : (onHead h f m).mgt = m.mgt := rfl
@[simp] theorem onHead_time (h : Fin 16) (f : Head → Head) : (onHead h f m).time = m.time := rfl
@[simp] theorem onHead_job (h : Fin 16) (f : Head → Head) : (onHead h f m).job = m.job := rfl
@[simp] theorem onHead_imp (h : Fin 16) (f : Head → Head) : (onHead h f m).imp = m.imp := rfl
@[simp] theorem onHead_beams (h : Fin 16) (f : Head → Head) : (onHead h f m).beams = m.beams := rfl
@[simp] theorem onHead_mpl (h : Fin 16) (f : Head → Head) : (onHead h f m).mpl = m.mpl := rfl
@[simp] theorem onHead_hmap (h : Fin 16) (f : Head → Head) : (onHead h f m).hmap = m.hmap := rfl
@[simp] theorem onHead_cells (h : Fin 16) (f : Head → Head) : (onHead h f m).cells = m.cells := rfl
@[simp] theorem onHead_sig (h : Fin 16) (f : Head → Head) : (onHead h f m).sig = m.sig := rfl
@[simp] theorem onHead_lanes (h : Fin 16) (f : Head → Head) : (onHead h f m).lanes = m.lanes := rfl
@[simp] theorem onHead_heads (h : Fin 16) (f : Head → Head) : (onHead h f m).heads = m.heads.set h (f m.heads[h]) := rfl
@[simp] theorem onHead_stg (h : Fin 16) (f : Head → Head) : (onHead h f m).stg = m.stg := rfl
@[simp] theorem onHead_ilk (h : Fin 16) (f : Head → Head) : (onHead h f m).ilk = m.ilk := rfl
@[simp] theorem onHead_hlt (h : Fin 16) (f : Head → Head) : (onHead h f m).hlt = m.hlt := rfl
@[simp] theorem onHead_keep (h : Fin 16) (f : Head → Head) : (onHead h f m).keep = m.keep := rfl
@[simp] theorem onHead_regs (h : Fin 16) (f : Head → Head) : (onHead h f m).regs = m.regs := rfl
@[simp] theorem onHead_outs (h : Fin 16) (f : Head → Head) : (onHead h f m).outs = m.outs := rfl
@[simp] theorem onHead_free (h : Fin 16) (f : Head → Head) : (onHead h f m).free = m.free := rfl
@[simp] theorem onHead_env (h : Fin 16) (f : Head → Head) : (onHead h f m).env = m.env := rfl

@[simp] theorem onAxis_g (a : Fin 8) (f : Axis → Axis) : (onAxis a f m).g = m.g := rfl
@[simp] theorem onAxis_aon (a : Fin 8) (f : Axis → Axis) : (onAxis a f m).aon = m.aon := rfl
@[simp] theorem onAxis_clk (a : Fin 8) (f : Axis → Axis) : (onAxis a f m).clk = m.clk := rfl
@[simp] theorem onAxis_boot (a : Fin 8) (f : Axis → Axis) : (onAxis a f m).boot = m.boot := rfl
@[simp] theorem onAxis_mem (a : Fin 8) (f : Axis → Axis) : (onAxis a f m).mem = m.mem := rfl
@[simp] theorem onAxis_mgt (a : Fin 8) (f : Axis → Axis) : (onAxis a f m).mgt = m.mgt := rfl
@[simp] theorem onAxis_time (a : Fin 8) (f : Axis → Axis) : (onAxis a f m).time = m.time := rfl
@[simp] theorem onAxis_job (a : Fin 8) (f : Axis → Axis) : (onAxis a f m).job = m.job := rfl
@[simp] theorem onAxis_imp (a : Fin 8) (f : Axis → Axis) : (onAxis a f m).imp = m.imp := rfl
@[simp] theorem onAxis_beams (a : Fin 8) (f : Axis → Axis) : (onAxis a f m).beams = m.beams := rfl
@[simp] theorem onAxis_mpl (a : Fin 8) (f : Axis → Axis) : (onAxis a f m).mpl = m.mpl := rfl
@[simp] theorem onAxis_hmap (a : Fin 8) (f : Axis → Axis) : (onAxis a f m).hmap = m.hmap := rfl
@[simp] theorem onAxis_cells (a : Fin 8) (f : Axis → Axis) : (onAxis a f m).cells = m.cells := rfl
@[simp] theorem onAxis_sig (a : Fin 8) (f : Axis → Axis) : (onAxis a f m).sig = m.sig := rfl
@[simp] theorem onAxis_lanes (a : Fin 8) (f : Axis → Axis) : (onAxis a f m).lanes = m.lanes := rfl
@[simp] theorem onAxis_heads (a : Fin 8) (f : Axis → Axis) : (onAxis a f m).heads = m.heads := rfl
@[simp] theorem onAxis_stg (a : Fin 8) (f : Axis → Axis) : (onAxis a f m).stg = m.stg.set a (f m.stg[a]) := rfl
@[simp] theorem onAxis_ilk (a : Fin 8) (f : Axis → Axis) : (onAxis a f m).ilk = m.ilk := rfl
@[simp] theorem onAxis_hlt (a : Fin 8) (f : Axis → Axis) : (onAxis a f m).hlt = m.hlt := rfl
@[simp] theorem onAxis_keep (a : Fin 8) (f : Axis → Axis) : (onAxis a f m).keep = m.keep := rfl
@[simp] theorem onAxis_regs (a : Fin 8) (f : Axis → Axis) : (onAxis a f m).regs = m.regs := rfl
@[simp] theorem onAxis_outs (a : Fin 8) (f : Axis → Axis) : (onAxis a f m).outs = m.outs := rfl
@[simp] theorem onAxis_free (a : Fin 8) (f : Axis → Axis) : (onAxis a f m).free = m.free := rfl
@[simp] theorem onAxis_env (a : Fin 8) (f : Axis → Axis) : (onAxis a f m).env = m.env := rfl

@[simp] theorem onCell_g (c : Fin 128) (f : Cell → Cell) : (onCell c f m).g = m.g := rfl
@[simp] theorem onCell_aon (c : Fin 128) (f : Cell → Cell) : (onCell c f m).aon = m.aon := rfl
@[simp] theorem onCell_clk (c : Fin 128) (f : Cell → Cell) : (onCell c f m).clk = m.clk := rfl
@[simp] theorem onCell_boot (c : Fin 128) (f : Cell → Cell) : (onCell c f m).boot = m.boot := rfl
@[simp] theorem onCell_mem (c : Fin 128) (f : Cell → Cell) : (onCell c f m).mem = m.mem := rfl
@[simp] theorem onCell_mgt (c : Fin 128) (f : Cell → Cell) : (onCell c f m).mgt = m.mgt := rfl
@[simp] theorem onCell_time (c : Fin 128) (f : Cell → Cell) : (onCell c f m).time = m.time := rfl
@[simp] theorem onCell_job (c : Fin 128) (f : Cell → Cell) : (onCell c f m).job = m.job := rfl
@[simp] theorem onCell_imp (c : Fin 128) (f : Cell → Cell) : (onCell c f m).imp = m.imp := rfl
@[simp] theorem onCell_beams (c : Fin 128) (f : Cell → Cell) : (onCell c f m).beams = m.beams := rfl
@[simp] theorem onCell_mpl (c : Fin 128) (f : Cell → Cell) : (onCell c f m).mpl = m.mpl := rfl
@[simp] theorem onCell_hmap (c : Fin 128) (f : Cell → Cell) : (onCell c f m).hmap = m.hmap := rfl
@[simp] theorem onCell_cells (c : Fin 128) (f : Cell → Cell) : (onCell c f m).cells = { m.cells with cells := m.cells.cells.set c (f m.cells.cells[c]) } := rfl
@[simp] theorem onCell_sig (c : Fin 128) (f : Cell → Cell) : (onCell c f m).sig = m.sig := rfl
@[simp] theorem onCell_lanes (c : Fin 128) (f : Cell → Cell) : (onCell c f m).lanes = m.lanes := rfl
@[simp] theorem onCell_heads (c : Fin 128) (f : Cell → Cell) : (onCell c f m).heads = m.heads := rfl
@[simp] theorem onCell_stg (c : Fin 128) (f : Cell → Cell) : (onCell c f m).stg = m.stg := rfl
@[simp] theorem onCell_ilk (c : Fin 128) (f : Cell → Cell) : (onCell c f m).ilk = m.ilk := rfl
@[simp] theorem onCell_hlt (c : Fin 128) (f : Cell → Cell) : (onCell c f m).hlt = m.hlt := rfl
@[simp] theorem onCell_keep (c : Fin 128) (f : Cell → Cell) : (onCell c f m).keep = m.keep := rfl
@[simp] theorem onCell_regs (c : Fin 128) (f : Cell → Cell) : (onCell c f m).regs = m.regs := rfl
@[simp] theorem onCell_outs (c : Fin 128) (f : Cell → Cell) : (onCell c f m).outs = m.outs := rfl
@[simp] theorem onCell_free (c : Fin 128) (f : Cell → Cell) : (onCell c f m).free = m.free := rfl
@[simp] theorem onCell_env (c : Fin 128) (f : Cell → Cell) : (onCell c f m).env = m.env := rfl

@[simp] theorem onCtx_g (k : Fin 256) (f : Ctx → Ctx) : (onCtx k f m).g = m.g := rfl
@[simp] theorem onCtx_aon (k : Fin 256) (f : Ctx → Ctx) : (onCtx k f m).aon = m.aon := rfl
@[simp] theorem onCtx_clk (k : Fin 256) (f : Ctx → Ctx) : (onCtx k f m).clk = m.clk := rfl
@[simp] theorem onCtx_boot (k : Fin 256) (f : Ctx → Ctx) : (onCtx k f m).boot = m.boot := rfl
@[simp] theorem onCtx_mem (k : Fin 256) (f : Ctx → Ctx) : (onCtx k f m).mem = m.mem := rfl
@[simp] theorem onCtx_mgt (k : Fin 256) (f : Ctx → Ctx) : (onCtx k f m).mgt = m.mgt := rfl
@[simp] theorem onCtx_time (k : Fin 256) (f : Ctx → Ctx) : (onCtx k f m).time = m.time := rfl
@[simp] theorem onCtx_job (k : Fin 256) (f : Ctx → Ctx) : (onCtx k f m).job = m.job := rfl
@[simp] theorem onCtx_imp (k : Fin 256) (f : Ctx → Ctx) : (onCtx k f m).imp = m.imp := rfl
@[simp] theorem onCtx_beams (k : Fin 256) (f : Ctx → Ctx) : (onCtx k f m).beams = m.beams := rfl
@[simp] theorem onCtx_mpl (k : Fin 256) (f : Ctx → Ctx) : (onCtx k f m).mpl = m.mpl := rfl
@[simp] theorem onCtx_hmap (k : Fin 256) (f : Ctx → Ctx) : (onCtx k f m).hmap = m.hmap := rfl
@[simp] theorem onCtx_cells (k : Fin 256) (f : Ctx → Ctx) : (onCtx k f m).cells = { m.cells with ctx := m.cells.ctx.set k (f m.cells.ctx[k]) } := rfl
@[simp] theorem onCtx_sig (k : Fin 256) (f : Ctx → Ctx) : (onCtx k f m).sig = m.sig := rfl
@[simp] theorem onCtx_lanes (k : Fin 256) (f : Ctx → Ctx) : (onCtx k f m).lanes = m.lanes := rfl
@[simp] theorem onCtx_heads (k : Fin 256) (f : Ctx → Ctx) : (onCtx k f m).heads = m.heads := rfl
@[simp] theorem onCtx_stg (k : Fin 256) (f : Ctx → Ctx) : (onCtx k f m).stg = m.stg := rfl
@[simp] theorem onCtx_ilk (k : Fin 256) (f : Ctx → Ctx) : (onCtx k f m).ilk = m.ilk := rfl
@[simp] theorem onCtx_hlt (k : Fin 256) (f : Ctx → Ctx) : (onCtx k f m).hlt = m.hlt := rfl
@[simp] theorem onCtx_keep (k : Fin 256) (f : Ctx → Ctx) : (onCtx k f m).keep = m.keep := rfl
@[simp] theorem onCtx_regs (k : Fin 256) (f : Ctx → Ctx) : (onCtx k f m).regs = m.regs := rfl
@[simp] theorem onCtx_outs (k : Fin 256) (f : Ctx → Ctx) : (onCtx k f m).outs = m.outs := rfl
@[simp] theorem onCtx_free (k : Fin 256) (f : Ctx → Ctx) : (onCtx k f m).free = m.free := rfl
@[simp] theorem onCtx_env (k : Fin 256) (f : Ctx → Ctx) : (onCtx k f m).env = m.env := rfl

@[simp] theorem onCells_g (f : Cells → Cells) : (onCells f m).g = m.g := rfl
@[simp] theorem onCells_aon (f : Cells → Cells) : (onCells f m).aon = m.aon := rfl
@[simp] theorem onCells_clk (f : Cells → Cells) : (onCells f m).clk = m.clk := rfl
@[simp] theorem onCells_boot (f : Cells → Cells) : (onCells f m).boot = m.boot := rfl
@[simp] theorem onCells_mem (f : Cells → Cells) : (onCells f m).mem = m.mem := rfl
@[simp] theorem onCells_mgt (f : Cells → Cells) : (onCells f m).mgt = m.mgt := rfl
@[simp] theorem onCells_time (f : Cells → Cells) : (onCells f m).time = m.time := rfl
@[simp] theorem onCells_job (f : Cells → Cells) : (onCells f m).job = m.job := rfl
@[simp] theorem onCells_imp (f : Cells → Cells) : (onCells f m).imp = m.imp := rfl
@[simp] theorem onCells_beams (f : Cells → Cells) : (onCells f m).beams = m.beams := rfl
@[simp] theorem onCells_mpl (f : Cells → Cells) : (onCells f m).mpl = m.mpl := rfl
@[simp] theorem onCells_hmap (f : Cells → Cells) : (onCells f m).hmap = m.hmap := rfl
@[simp] theorem onCells_cells (f : Cells → Cells) : (onCells f m).cells = f m.cells := rfl
@[simp] theorem onCells_sig (f : Cells → Cells) : (onCells f m).sig = m.sig := rfl
@[simp] theorem onCells_lanes (f : Cells → Cells) : (onCells f m).lanes = m.lanes := rfl
@[simp] theorem onCells_heads (f : Cells → Cells) : (onCells f m).heads = m.heads := rfl
@[simp] theorem onCells_stg (f : Cells → Cells) : (onCells f m).stg = m.stg := rfl
@[simp] theorem onCells_ilk (f : Cells → Cells) : (onCells f m).ilk = m.ilk := rfl
@[simp] theorem onCells_hlt (f : Cells → Cells) : (onCells f m).hlt = m.hlt := rfl
@[simp] theorem onCells_keep (f : Cells → Cells) : (onCells f m).keep = m.keep := rfl
@[simp] theorem onCells_regs (f : Cells → Cells) : (onCells f m).regs = m.regs := rfl
@[simp] theorem onCells_outs (f : Cells → Cells) : (onCells f m).outs = m.outs := rfl
@[simp] theorem onCells_free (f : Cells → Cells) : (onCells f m).free = m.free := rfl
@[simp] theorem onCells_env (f : Cells → Cells) : (onCells f m).env = m.env := rfl

@[simp] theorem onIlk_g (f : Ilk → Ilk) : (onIlk f m).g = m.g := rfl
@[simp] theorem onIlk_aon (f : Ilk → Ilk) : (onIlk f m).aon = m.aon := rfl
@[simp] theorem onIlk_clk (f : Ilk → Ilk) : (onIlk f m).clk = m.clk := rfl
@[simp] theorem onIlk_boot (f : Ilk → Ilk) : (onIlk f m).boot = m.boot := rfl
@[simp] theorem onIlk_mem (f : Ilk → Ilk) : (onIlk f m).mem = m.mem := rfl
@[simp] theorem onIlk_mgt (f : Ilk → Ilk) : (onIlk f m).mgt = m.mgt := rfl
@[simp] theorem onIlk_time (f : Ilk → Ilk) : (onIlk f m).time = m.time := rfl
@[simp] theorem onIlk_job (f : Ilk → Ilk) : (onIlk f m).job = m.job := rfl
@[simp] theorem onIlk_imp (f : Ilk → Ilk) : (onIlk f m).imp = m.imp := rfl
@[simp] theorem onIlk_beams (f : Ilk → Ilk) : (onIlk f m).beams = m.beams := rfl
@[simp] theorem onIlk_mpl (f : Ilk → Ilk) : (onIlk f m).mpl = m.mpl := rfl
@[simp] theorem onIlk_hmap (f : Ilk → Ilk) : (onIlk f m).hmap = m.hmap := rfl
@[simp] theorem onIlk_cells (f : Ilk → Ilk) : (onIlk f m).cells = m.cells := rfl
@[simp] theorem onIlk_sig (f : Ilk → Ilk) : (onIlk f m).sig = m.sig := rfl
@[simp] theorem onIlk_lanes (f : Ilk → Ilk) : (onIlk f m).lanes = m.lanes := rfl
@[simp] theorem onIlk_heads (f : Ilk → Ilk) : (onIlk f m).heads = m.heads := rfl
@[simp] theorem onIlk_stg (f : Ilk → Ilk) : (onIlk f m).stg = m.stg := rfl
@[simp] theorem onIlk_ilk (f : Ilk → Ilk) : (onIlk f m).ilk = f m.ilk := rfl
@[simp] theorem onIlk_hlt (f : Ilk → Ilk) : (onIlk f m).hlt = m.hlt := rfl
@[simp] theorem onIlk_keep (f : Ilk → Ilk) : (onIlk f m).keep = m.keep := rfl
@[simp] theorem onIlk_regs (f : Ilk → Ilk) : (onIlk f m).regs = m.regs := rfl
@[simp] theorem onIlk_outs (f : Ilk → Ilk) : (onIlk f m).outs = m.outs := rfl
@[simp] theorem onIlk_free (f : Ilk → Ilk) : (onIlk f m).free = m.free := rfl
@[simp] theorem onIlk_env (f : Ilk → Ilk) : (onIlk f m).env = m.env := rfl

@[simp] theorem onJob_g (f : Job → Job) : (onJob f m).g = m.g := rfl
@[simp] theorem onJob_aon (f : Job → Job) : (onJob f m).aon = m.aon := rfl
@[simp] theorem onJob_clk (f : Job → Job) : (onJob f m).clk = m.clk := rfl
@[simp] theorem onJob_boot (f : Job → Job) : (onJob f m).boot = m.boot := rfl
@[simp] theorem onJob_mem (f : Job → Job) : (onJob f m).mem = m.mem := rfl
@[simp] theorem onJob_mgt (f : Job → Job) : (onJob f m).mgt = m.mgt := rfl
@[simp] theorem onJob_time (f : Job → Job) : (onJob f m).time = m.time := rfl
@[simp] theorem onJob_job (f : Job → Job) : (onJob f m).job = f m.job := rfl
@[simp] theorem onJob_imp (f : Job → Job) : (onJob f m).imp = m.imp := rfl
@[simp] theorem onJob_beams (f : Job → Job) : (onJob f m).beams = m.beams := rfl
@[simp] theorem onJob_mpl (f : Job → Job) : (onJob f m).mpl = m.mpl := rfl
@[simp] theorem onJob_hmap (f : Job → Job) : (onJob f m).hmap = m.hmap := rfl
@[simp] theorem onJob_cells (f : Job → Job) : (onJob f m).cells = m.cells := rfl
@[simp] theorem onJob_sig (f : Job → Job) : (onJob f m).sig = m.sig := rfl
@[simp] theorem onJob_lanes (f : Job → Job) : (onJob f m).lanes = m.lanes := rfl
@[simp] theorem onJob_heads (f : Job → Job) : (onJob f m).heads = m.heads := rfl
@[simp] theorem onJob_stg (f : Job → Job) : (onJob f m).stg = m.stg := rfl
@[simp] theorem onJob_ilk (f : Job → Job) : (onJob f m).ilk = m.ilk := rfl
@[simp] theorem onJob_hlt (f : Job → Job) : (onJob f m).hlt = m.hlt := rfl
@[simp] theorem onJob_keep (f : Job → Job) : (onJob f m).keep = m.keep := rfl
@[simp] theorem onJob_regs (f : Job → Job) : (onJob f m).regs = m.regs := rfl
@[simp] theorem onJob_outs (f : Job → Job) : (onJob f m).outs = m.outs := rfl
@[simp] theorem onJob_free (f : Job → Job) : (onJob f m).free = m.free := rfl
@[simp] theorem onJob_env (f : Job → Job) : (onJob f m).env = m.env := rfl

@[simp] theorem onTime_g (f : TimeSt → TimeSt) : (onTime f m).g = m.g := rfl
@[simp] theorem onTime_aon (f : TimeSt → TimeSt) : (onTime f m).aon = m.aon := rfl
@[simp] theorem onTime_clk (f : TimeSt → TimeSt) : (onTime f m).clk = m.clk := rfl
@[simp] theorem onTime_boot (f : TimeSt → TimeSt) : (onTime f m).boot = m.boot := rfl
@[simp] theorem onTime_mem (f : TimeSt → TimeSt) : (onTime f m).mem = m.mem := rfl
@[simp] theorem onTime_mgt (f : TimeSt → TimeSt) : (onTime f m).mgt = m.mgt := rfl
@[simp] theorem onTime_time (f : TimeSt → TimeSt) : (onTime f m).time = f m.time := rfl
@[simp] theorem onTime_job (f : TimeSt → TimeSt) : (onTime f m).job = m.job := rfl
@[simp] theorem onTime_imp (f : TimeSt → TimeSt) : (onTime f m).imp = m.imp := rfl
@[simp] theorem onTime_beams (f : TimeSt → TimeSt) : (onTime f m).beams = m.beams := rfl
@[simp] theorem onTime_mpl (f : TimeSt → TimeSt) : (onTime f m).mpl = m.mpl := rfl
@[simp] theorem onTime_hmap (f : TimeSt → TimeSt) : (onTime f m).hmap = m.hmap := rfl
@[simp] theorem onTime_cells (f : TimeSt → TimeSt) : (onTime f m).cells = m.cells := rfl
@[simp] theorem onTime_sig (f : TimeSt → TimeSt) : (onTime f m).sig = m.sig := rfl
@[simp] theorem onTime_lanes (f : TimeSt → TimeSt) : (onTime f m).lanes = m.lanes := rfl
@[simp] theorem onTime_heads (f : TimeSt → TimeSt) : (onTime f m).heads = m.heads := rfl
@[simp] theorem onTime_stg (f : TimeSt → TimeSt) : (onTime f m).stg = m.stg := rfl
@[simp] theorem onTime_ilk (f : TimeSt → TimeSt) : (onTime f m).ilk = m.ilk := rfl
@[simp] theorem onTime_hlt (f : TimeSt → TimeSt) : (onTime f m).hlt = m.hlt := rfl
@[simp] theorem onTime_keep (f : TimeSt → TimeSt) : (onTime f m).keep = m.keep := rfl
@[simp] theorem onTime_regs (f : TimeSt → TimeSt) : (onTime f m).regs = m.regs := rfl
@[simp] theorem onTime_outs (f : TimeSt → TimeSt) : (onTime f m).outs = m.outs := rfl
@[simp] theorem onTime_free (f : TimeSt → TimeSt) : (onTime f m).free = m.free := rfl
@[simp] theorem onTime_env (f : TimeSt → TimeSt) : (onTime f m).env = m.env := rfl

@[simp] theorem onHlt_g (f : Hlt → Hlt) : (onHlt f m).g = m.g := rfl
@[simp] theorem onHlt_aon (f : Hlt → Hlt) : (onHlt f m).aon = m.aon := rfl
@[simp] theorem onHlt_clk (f : Hlt → Hlt) : (onHlt f m).clk = m.clk := rfl
@[simp] theorem onHlt_boot (f : Hlt → Hlt) : (onHlt f m).boot = m.boot := rfl
@[simp] theorem onHlt_mem (f : Hlt → Hlt) : (onHlt f m).mem = m.mem := rfl
@[simp] theorem onHlt_mgt (f : Hlt → Hlt) : (onHlt f m).mgt = m.mgt := rfl
@[simp] theorem onHlt_time (f : Hlt → Hlt) : (onHlt f m).time = m.time := rfl
@[simp] theorem onHlt_job (f : Hlt → Hlt) : (onHlt f m).job = m.job := rfl
@[simp] theorem onHlt_imp (f : Hlt → Hlt) : (onHlt f m).imp = m.imp := rfl
@[simp] theorem onHlt_beams (f : Hlt → Hlt) : (onHlt f m).beams = m.beams := rfl
@[simp] theorem onHlt_mpl (f : Hlt → Hlt) : (onHlt f m).mpl = m.mpl := rfl
@[simp] theorem onHlt_hmap (f : Hlt → Hlt) : (onHlt f m).hmap = m.hmap := rfl
@[simp] theorem onHlt_cells (f : Hlt → Hlt) : (onHlt f m).cells = m.cells := rfl
@[simp] theorem onHlt_sig (f : Hlt → Hlt) : (onHlt f m).sig = m.sig := rfl
@[simp] theorem onHlt_lanes (f : Hlt → Hlt) : (onHlt f m).lanes = m.lanes := rfl
@[simp] theorem onHlt_heads (f : Hlt → Hlt) : (onHlt f m).heads = m.heads := rfl
@[simp] theorem onHlt_stg (f : Hlt → Hlt) : (onHlt f m).stg = m.stg := rfl
@[simp] theorem onHlt_ilk (f : Hlt → Hlt) : (onHlt f m).ilk = m.ilk := rfl
@[simp] theorem onHlt_hlt (f : Hlt → Hlt) : (onHlt f m).hlt = f m.hlt := rfl
@[simp] theorem onHlt_keep (f : Hlt → Hlt) : (onHlt f m).keep = m.keep := rfl
@[simp] theorem onHlt_regs (f : Hlt → Hlt) : (onHlt f m).regs = m.regs := rfl
@[simp] theorem onHlt_outs (f : Hlt → Hlt) : (onHlt f m).outs = m.outs := rfl
@[simp] theorem onHlt_free (f : Hlt → Hlt) : (onHlt f m).free = m.free := rfl
@[simp] theorem onHlt_env (f : Hlt → Hlt) : (onHlt f m).env = m.env := rfl

@[simp] theorem onHmap_g (f : Hmap → Hmap) : (onHmap f m).g = m.g := rfl
@[simp] theorem onHmap_aon (f : Hmap → Hmap) : (onHmap f m).aon = m.aon := rfl
@[simp] theorem onHmap_clk (f : Hmap → Hmap) : (onHmap f m).clk = m.clk := rfl
@[simp] theorem onHmap_boot (f : Hmap → Hmap) : (onHmap f m).boot = m.boot := rfl
@[simp] theorem onHmap_mem (f : Hmap → Hmap) : (onHmap f m).mem = m.mem := rfl
@[simp] theorem onHmap_mgt (f : Hmap → Hmap) : (onHmap f m).mgt = m.mgt := rfl
@[simp] theorem onHmap_time (f : Hmap → Hmap) : (onHmap f m).time = m.time := rfl
@[simp] theorem onHmap_job (f : Hmap → Hmap) : (onHmap f m).job = m.job := rfl
@[simp] theorem onHmap_imp (f : Hmap → Hmap) : (onHmap f m).imp = m.imp := rfl
@[simp] theorem onHmap_beams (f : Hmap → Hmap) : (onHmap f m).beams = m.beams := rfl
@[simp] theorem onHmap_mpl (f : Hmap → Hmap) : (onHmap f m).mpl = m.mpl := rfl
@[simp] theorem onHmap_hmap (f : Hmap → Hmap) : (onHmap f m).hmap = f m.hmap := rfl
@[simp] theorem onHmap_cells (f : Hmap → Hmap) : (onHmap f m).cells = m.cells := rfl
@[simp] theorem onHmap_sig (f : Hmap → Hmap) : (onHmap f m).sig = m.sig := rfl
@[simp] theorem onHmap_lanes (f : Hmap → Hmap) : (onHmap f m).lanes = m.lanes := rfl
@[simp] theorem onHmap_heads (f : Hmap → Hmap) : (onHmap f m).heads = m.heads := rfl
@[simp] theorem onHmap_stg (f : Hmap → Hmap) : (onHmap f m).stg = m.stg := rfl
@[simp] theorem onHmap_ilk (f : Hmap → Hmap) : (onHmap f m).ilk = m.ilk := rfl
@[simp] theorem onHmap_hlt (f : Hmap → Hmap) : (onHmap f m).hlt = m.hlt := rfl
@[simp] theorem onHmap_keep (f : Hmap → Hmap) : (onHmap f m).keep = m.keep := rfl
@[simp] theorem onHmap_regs (f : Hmap → Hmap) : (onHmap f m).regs = m.regs := rfl
@[simp] theorem onHmap_outs (f : Hmap → Hmap) : (onHmap f m).outs = m.outs := rfl
@[simp] theorem onHmap_free (f : Hmap → Hmap) : (onHmap f m).free = m.free := rfl
@[simp] theorem onHmap_env (f : Hmap → Hmap) : (onHmap f m).env = m.env := rfl

@[simp] theorem onBoot_g (f : Boot → Boot) : (onBoot f m).g = m.g := rfl
@[simp] theorem onBoot_aon (f : Boot → Boot) : (onBoot f m).aon = m.aon := rfl
@[simp] theorem onBoot_clk (f : Boot → Boot) : (onBoot f m).clk = m.clk := rfl
@[simp] theorem onBoot_boot (f : Boot → Boot) : (onBoot f m).boot = f m.boot := rfl
@[simp] theorem onBoot_mem (f : Boot → Boot) : (onBoot f m).mem = m.mem := rfl
@[simp] theorem onBoot_mgt (f : Boot → Boot) : (onBoot f m).mgt = m.mgt := rfl
@[simp] theorem onBoot_time (f : Boot → Boot) : (onBoot f m).time = m.time := rfl
@[simp] theorem onBoot_job (f : Boot → Boot) : (onBoot f m).job = m.job := rfl
@[simp] theorem onBoot_imp (f : Boot → Boot) : (onBoot f m).imp = m.imp := rfl
@[simp] theorem onBoot_beams (f : Boot → Boot) : (onBoot f m).beams = m.beams := rfl
@[simp] theorem onBoot_mpl (f : Boot → Boot) : (onBoot f m).mpl = m.mpl := rfl
@[simp] theorem onBoot_hmap (f : Boot → Boot) : (onBoot f m).hmap = m.hmap := rfl
@[simp] theorem onBoot_cells (f : Boot → Boot) : (onBoot f m).cells = m.cells := rfl
@[simp] theorem onBoot_sig (f : Boot → Boot) : (onBoot f m).sig = m.sig := rfl
@[simp] theorem onBoot_lanes (f : Boot → Boot) : (onBoot f m).lanes = m.lanes := rfl
@[simp] theorem onBoot_heads (f : Boot → Boot) : (onBoot f m).heads = m.heads := rfl
@[simp] theorem onBoot_stg (f : Boot → Boot) : (onBoot f m).stg = m.stg := rfl
@[simp] theorem onBoot_ilk (f : Boot → Boot) : (onBoot f m).ilk = m.ilk := rfl
@[simp] theorem onBoot_hlt (f : Boot → Boot) : (onBoot f m).hlt = m.hlt := rfl
@[simp] theorem onBoot_keep (f : Boot → Boot) : (onBoot f m).keep = m.keep := rfl
@[simp] theorem onBoot_regs (f : Boot → Boot) : (onBoot f m).regs = m.regs := rfl
@[simp] theorem onBoot_outs (f : Boot → Boot) : (onBoot f m).outs = m.outs := rfl
@[simp] theorem onBoot_free (f : Boot → Boot) : (onBoot f m).free = m.free := rfl
@[simp] theorem onBoot_env (f : Boot → Boot) : (onBoot f m).env = m.env := rfl

@[simp] theorem onAon_g (f : Aon → Aon) : (onAon f m).g = m.g := rfl
@[simp] theorem onAon_aon (f : Aon → Aon) : (onAon f m).aon = f m.aon := rfl
@[simp] theorem onAon_clk (f : Aon → Aon) : (onAon f m).clk = m.clk := rfl
@[simp] theorem onAon_boot (f : Aon → Aon) : (onAon f m).boot = m.boot := rfl
@[simp] theorem onAon_mem (f : Aon → Aon) : (onAon f m).mem = m.mem := rfl
@[simp] theorem onAon_mgt (f : Aon → Aon) : (onAon f m).mgt = m.mgt := rfl
@[simp] theorem onAon_time (f : Aon → Aon) : (onAon f m).time = m.time := rfl
@[simp] theorem onAon_job (f : Aon → Aon) : (onAon f m).job = m.job := rfl
@[simp] theorem onAon_imp (f : Aon → Aon) : (onAon f m).imp = m.imp := rfl
@[simp] theorem onAon_beams (f : Aon → Aon) : (onAon f m).beams = m.beams := rfl
@[simp] theorem onAon_mpl (f : Aon → Aon) : (onAon f m).mpl = m.mpl := rfl
@[simp] theorem onAon_hmap (f : Aon → Aon) : (onAon f m).hmap = m.hmap := rfl
@[simp] theorem onAon_cells (f : Aon → Aon) : (onAon f m).cells = m.cells := rfl
@[simp] theorem onAon_sig (f : Aon → Aon) : (onAon f m).sig = m.sig := rfl
@[simp] theorem onAon_lanes (f : Aon → Aon) : (onAon f m).lanes = m.lanes := rfl
@[simp] theorem onAon_heads (f : Aon → Aon) : (onAon f m).heads = m.heads := rfl
@[simp] theorem onAon_stg (f : Aon → Aon) : (onAon f m).stg = m.stg := rfl
@[simp] theorem onAon_ilk (f : Aon → Aon) : (onAon f m).ilk = m.ilk := rfl
@[simp] theorem onAon_hlt (f : Aon → Aon) : (onAon f m).hlt = m.hlt := rfl
@[simp] theorem onAon_keep (f : Aon → Aon) : (onAon f m).keep = m.keep := rfl
@[simp] theorem onAon_regs (f : Aon → Aon) : (onAon f m).regs = m.regs := rfl
@[simp] theorem onAon_outs (f : Aon → Aon) : (onAon f m).outs = m.outs := rfl
@[simp] theorem onAon_free (f : Aon → Aon) : (onAon f m).free = m.free := rfl
@[simp] theorem onAon_env (f : Aon → Aon) : (onAon f m).env = m.env := rfl

@[simp] theorem onClk_g (f : Clk → Clk) : (onClk f m).g = m.g := rfl
@[simp] theorem onClk_aon (f : Clk → Clk) : (onClk f m).aon = m.aon := rfl
@[simp] theorem onClk_clk (f : Clk → Clk) : (onClk f m).clk = f m.clk := rfl
@[simp] theorem onClk_boot (f : Clk → Clk) : (onClk f m).boot = m.boot := rfl
@[simp] theorem onClk_mem (f : Clk → Clk) : (onClk f m).mem = m.mem := rfl
@[simp] theorem onClk_mgt (f : Clk → Clk) : (onClk f m).mgt = m.mgt := rfl
@[simp] theorem onClk_time (f : Clk → Clk) : (onClk f m).time = m.time := rfl
@[simp] theorem onClk_job (f : Clk → Clk) : (onClk f m).job = m.job := rfl
@[simp] theorem onClk_imp (f : Clk → Clk) : (onClk f m).imp = m.imp := rfl
@[simp] theorem onClk_beams (f : Clk → Clk) : (onClk f m).beams = m.beams := rfl
@[simp] theorem onClk_mpl (f : Clk → Clk) : (onClk f m).mpl = m.mpl := rfl
@[simp] theorem onClk_hmap (f : Clk → Clk) : (onClk f m).hmap = m.hmap := rfl
@[simp] theorem onClk_cells (f : Clk → Clk) : (onClk f m).cells = m.cells := rfl
@[simp] theorem onClk_sig (f : Clk → Clk) : (onClk f m).sig = m.sig := rfl
@[simp] theorem onClk_lanes (f : Clk → Clk) : (onClk f m).lanes = m.lanes := rfl
@[simp] theorem onClk_heads (f : Clk → Clk) : (onClk f m).heads = m.heads := rfl
@[simp] theorem onClk_stg (f : Clk → Clk) : (onClk f m).stg = m.stg := rfl
@[simp] theorem onClk_ilk (f : Clk → Clk) : (onClk f m).ilk = m.ilk := rfl
@[simp] theorem onClk_hlt (f : Clk → Clk) : (onClk f m).hlt = m.hlt := rfl
@[simp] theorem onClk_keep (f : Clk → Clk) : (onClk f m).keep = m.keep := rfl
@[simp] theorem onClk_regs (f : Clk → Clk) : (onClk f m).regs = m.regs := rfl
@[simp] theorem onClk_outs (f : Clk → Clk) : (onClk f m).outs = m.outs := rfl
@[simp] theorem onClk_free (f : Clk → Clk) : (onClk f m).free = m.free := rfl
@[simp] theorem onClk_env (f : Clk → Clk) : (onClk f m).env = m.env := rfl

@[simp] theorem onCh_g (c : Fin 2) (f : MemCh → MemCh) : (onCh c f m).g = m.g := rfl
@[simp] theorem onCh_aon (c : Fin 2) (f : MemCh → MemCh) : (onCh c f m).aon = m.aon := rfl
@[simp] theorem onCh_clk (c : Fin 2) (f : MemCh → MemCh) : (onCh c f m).clk = m.clk := rfl
@[simp] theorem onCh_boot (c : Fin 2) (f : MemCh → MemCh) : (onCh c f m).boot = m.boot := rfl
@[simp] theorem onCh_mem (c : Fin 2) (f : MemCh → MemCh) : (onCh c f m).mem = m.mem.setCh c.val (f (m.mem.ch c.val)) := rfl
@[simp] theorem onCh_mgt (c : Fin 2) (f : MemCh → MemCh) : (onCh c f m).mgt = m.mgt := rfl
@[simp] theorem onCh_time (c : Fin 2) (f : MemCh → MemCh) : (onCh c f m).time = m.time := rfl
@[simp] theorem onCh_job (c : Fin 2) (f : MemCh → MemCh) : (onCh c f m).job = m.job := rfl
@[simp] theorem onCh_imp (c : Fin 2) (f : MemCh → MemCh) : (onCh c f m).imp = m.imp := rfl
@[simp] theorem onCh_beams (c : Fin 2) (f : MemCh → MemCh) : (onCh c f m).beams = m.beams := rfl
@[simp] theorem onCh_mpl (c : Fin 2) (f : MemCh → MemCh) : (onCh c f m).mpl = m.mpl := rfl
@[simp] theorem onCh_hmap (c : Fin 2) (f : MemCh → MemCh) : (onCh c f m).hmap = m.hmap := rfl
@[simp] theorem onCh_cells (c : Fin 2) (f : MemCh → MemCh) : (onCh c f m).cells = m.cells := rfl
@[simp] theorem onCh_sig (c : Fin 2) (f : MemCh → MemCh) : (onCh c f m).sig = m.sig := rfl
@[simp] theorem onCh_lanes (c : Fin 2) (f : MemCh → MemCh) : (onCh c f m).lanes = m.lanes := rfl
@[simp] theorem onCh_heads (c : Fin 2) (f : MemCh → MemCh) : (onCh c f m).heads = m.heads := rfl
@[simp] theorem onCh_stg (c : Fin 2) (f : MemCh → MemCh) : (onCh c f m).stg = m.stg := rfl
@[simp] theorem onCh_ilk (c : Fin 2) (f : MemCh → MemCh) : (onCh c f m).ilk = m.ilk := rfl
@[simp] theorem onCh_hlt (c : Fin 2) (f : MemCh → MemCh) : (onCh c f m).hlt = m.hlt := rfl
@[simp] theorem onCh_keep (c : Fin 2) (f : MemCh → MemCh) : (onCh c f m).keep = m.keep := rfl
@[simp] theorem onCh_regs (c : Fin 2) (f : MemCh → MemCh) : (onCh c f m).regs = m.regs := rfl
@[simp] theorem onCh_outs (c : Fin 2) (f : MemCh → MemCh) : (onCh c f m).outs = m.outs := rfl
@[simp] theorem onCh_free (c : Fin 2) (f : MemCh → MemCh) : (onCh c f m).free = m.free := rfl
@[simp] theorem onCh_env (c : Fin 2) (f : MemCh → MemCh) : (onCh c f m).env = m.env := rfl

@[simp] theorem onPort_g (p : Port) (f : PortSt → PortSt) : (onPort p f m).g = m.g.setPort p (f (m.g.port p)) := rfl
@[simp] theorem onPort_aon (p : Port) (f : PortSt → PortSt) : (onPort p f m).aon = m.aon := rfl
@[simp] theorem onPort_clk (p : Port) (f : PortSt → PortSt) : (onPort p f m).clk = m.clk := rfl
@[simp] theorem onPort_boot (p : Port) (f : PortSt → PortSt) : (onPort p f m).boot = m.boot := rfl
@[simp] theorem onPort_mem (p : Port) (f : PortSt → PortSt) : (onPort p f m).mem = m.mem := rfl
@[simp] theorem onPort_mgt (p : Port) (f : PortSt → PortSt) : (onPort p f m).mgt = m.mgt := rfl
@[simp] theorem onPort_time (p : Port) (f : PortSt → PortSt) : (onPort p f m).time = m.time := rfl
@[simp] theorem onPort_job (p : Port) (f : PortSt → PortSt) : (onPort p f m).job = m.job := rfl
@[simp] theorem onPort_imp (p : Port) (f : PortSt → PortSt) : (onPort p f m).imp = m.imp := rfl
@[simp] theorem onPort_beams (p : Port) (f : PortSt → PortSt) : (onPort p f m).beams = m.beams := rfl
@[simp] theorem onPort_mpl (p : Port) (f : PortSt → PortSt) : (onPort p f m).mpl = m.mpl := rfl
@[simp] theorem onPort_hmap (p : Port) (f : PortSt → PortSt) : (onPort p f m).hmap = m.hmap := rfl
@[simp] theorem onPort_cells (p : Port) (f : PortSt → PortSt) : (onPort p f m).cells = m.cells := rfl
@[simp] theorem onPort_sig (p : Port) (f : PortSt → PortSt) : (onPort p f m).sig = m.sig := rfl
@[simp] theorem onPort_lanes (p : Port) (f : PortSt → PortSt) : (onPort p f m).lanes = m.lanes := rfl
@[simp] theorem onPort_heads (p : Port) (f : PortSt → PortSt) : (onPort p f m).heads = m.heads := rfl
@[simp] theorem onPort_stg (p : Port) (f : PortSt → PortSt) : (onPort p f m).stg = m.stg := rfl
@[simp] theorem onPort_ilk (p : Port) (f : PortSt → PortSt) : (onPort p f m).ilk = m.ilk := rfl
@[simp] theorem onPort_hlt (p : Port) (f : PortSt → PortSt) : (onPort p f m).hlt = m.hlt := rfl
@[simp] theorem onPort_keep (p : Port) (f : PortSt → PortSt) : (onPort p f m).keep = m.keep := rfl
@[simp] theorem onPort_regs (p : Port) (f : PortSt → PortSt) : (onPort p f m).regs = m.regs := rfl
@[simp] theorem onPort_outs (p : Port) (f : PortSt → PortSt) : (onPort p f m).outs = m.outs := rfl
@[simp] theorem onPort_free (p : Port) (f : PortSt → PortSt) : (onPort p f m).free = m.free := rfl
@[simp] theorem onPort_env (p : Port) (f : PortSt → PortSt) : (onPort p f m).env = m.env := rfl

@[simp] theorem onDma_g (n : Fin 4) (f : DmaCh → DmaCh) : (onDma n f m).g = { m.g with dma := m.g.dma.set n (f m.g.dma[n]) } := rfl
@[simp] theorem onDma_aon (n : Fin 4) (f : DmaCh → DmaCh) : (onDma n f m).aon = m.aon := rfl
@[simp] theorem onDma_clk (n : Fin 4) (f : DmaCh → DmaCh) : (onDma n f m).clk = m.clk := rfl
@[simp] theorem onDma_boot (n : Fin 4) (f : DmaCh → DmaCh) : (onDma n f m).boot = m.boot := rfl
@[simp] theorem onDma_mem (n : Fin 4) (f : DmaCh → DmaCh) : (onDma n f m).mem = m.mem := rfl
@[simp] theorem onDma_mgt (n : Fin 4) (f : DmaCh → DmaCh) : (onDma n f m).mgt = m.mgt := rfl
@[simp] theorem onDma_time (n : Fin 4) (f : DmaCh → DmaCh) : (onDma n f m).time = m.time := rfl
@[simp] theorem onDma_job (n : Fin 4) (f : DmaCh → DmaCh) : (onDma n f m).job = m.job := rfl
@[simp] theorem onDma_imp (n : Fin 4) (f : DmaCh → DmaCh) : (onDma n f m).imp = m.imp := rfl
@[simp] theorem onDma_beams (n : Fin 4) (f : DmaCh → DmaCh) : (onDma n f m).beams = m.beams := rfl
@[simp] theorem onDma_mpl (n : Fin 4) (f : DmaCh → DmaCh) : (onDma n f m).mpl = m.mpl := rfl
@[simp] theorem onDma_hmap (n : Fin 4) (f : DmaCh → DmaCh) : (onDma n f m).hmap = m.hmap := rfl
@[simp] theorem onDma_cells (n : Fin 4) (f : DmaCh → DmaCh) : (onDma n f m).cells = m.cells := rfl
@[simp] theorem onDma_sig (n : Fin 4) (f : DmaCh → DmaCh) : (onDma n f m).sig = m.sig := rfl
@[simp] theorem onDma_lanes (n : Fin 4) (f : DmaCh → DmaCh) : (onDma n f m).lanes = m.lanes := rfl
@[simp] theorem onDma_heads (n : Fin 4) (f : DmaCh → DmaCh) : (onDma n f m).heads = m.heads := rfl
@[simp] theorem onDma_stg (n : Fin 4) (f : DmaCh → DmaCh) : (onDma n f m).stg = m.stg := rfl
@[simp] theorem onDma_ilk (n : Fin 4) (f : DmaCh → DmaCh) : (onDma n f m).ilk = m.ilk := rfl
@[simp] theorem onDma_hlt (n : Fin 4) (f : DmaCh → DmaCh) : (onDma n f m).hlt = m.hlt := rfl
@[simp] theorem onDma_keep (n : Fin 4) (f : DmaCh → DmaCh) : (onDma n f m).keep = m.keep := rfl
@[simp] theorem onDma_regs (n : Fin 4) (f : DmaCh → DmaCh) : (onDma n f m).regs = m.regs := rfl
@[simp] theorem onDma_outs (n : Fin 4) (f : DmaCh → DmaCh) : (onDma n f m).outs = m.outs := rfl
@[simp] theorem onDma_free (n : Fin 4) (f : DmaCh → DmaCh) : (onDma n f m).free = m.free := rfl
@[simp] theorem onDma_env (n : Fin 4) (f : DmaCh → DmaCh) : (onDma n f m).env = m.env := rfl

/-- A meaning answers a next state: the device changed, the queue as it was. -/
@[simp] theorem act_eq (s : State) (f : Mach → Mach) : s.act f = .next { s with m := f s.m } := rfl

@[simp] theorem step_cons (m : Mach) (c : Instr) (rest : List Instr) : step { m := m, pending := c :: rest } = exec c { m := m, pending := rest } := rfl

@[simp] theorem step_nil (m : Mach) : step { m := m, pending := [] } = .next { m := tick m, pending := [] } := rfl

end Sys2Proof.Laws.State
end

