-- ==== Sys2Proof/Machine/LaneWire.lean ====
section
/-!
DEFINITION. The line of a lane: frames as blocks, blocks as scrambled bits, stuff bits (R472 to R478). The commands act on frames and
control blocks; these functions say which bits on the wire stand for them, in both directions.
-/

namespace Sys2Proof.Machine

/-- A 130-bit block: whether it is a control block, and its 16 payload bytes (R472). -/
abbrev LineBlock := Bool × List Byte

/-- A payload filled with zero bytes to 16 (R477, R478). -/
def padBlock (bs : List Byte) : List Byte := (bs ++ List.replicate 16 0).take 16

/-- A control block: its type in byte 0, then its contents (R477). -/
def controlBlock (type : Nat) (rest : List Byte) : LineBlock := (true, padBlock (BitVec.ofNat 8 type :: rest))

/-- The block that a transmitter with nothing to send sends (R476). -/
def idleBlock : LineBlock := controlBlock 0x0F []

/-- NBLK of a frame type that the device sends (R480). -/
def downBlocks (type : Nat) : Nat := if type = 0x11 || type = 0x15 then 2 else 1

/-- SOF bytes 0 to 11 (R478). -/
def sofHead (type nblk : Nat) (fseq : BitVec 16) (len : Nat) (stamp : Word) : List Byte :=
  [0x1E, BitVec.ofNat 8 type, BitVec.ofNat 8 nblk, 0] ++ leBytes 2 fseq.toNat ++ leBytes 2 len ++ leBytes 4 stamp.toNat

/-- The data blocks of a payload: 16 bytes each, the last one filled with zeros (R478). -/
def dataBlocks (nblk : Nat) (body : List Byte) : List LineBlock := tab nblk (fun k => (false, padBlock (body.drop (16 * k))))

/-- A frame as its blocks: SOF with the CRC over its bytes 0 to 11 and the payload, then NBLK data blocks (R478) (DEDUCED, log row 110). -/
def frameBlocks (type nblk : Nat) (fseq : BitVec 16) (stamp : Word) (body : List Byte) : List LineBlock :=
  let h := sofHead type nblk fseq body.length stamp
  (true, h ++ leBytes 4 (crc32 (h ++ body)).toNat) :: dataBlocks nblk body

/-- What the device puts on a lane for one output: the lane and its blocks. -/
def lineOf : Output → Option (Nat × List LineBlock)
  | .frame l type fseq stamp body => some (l, frameBlocks type (downBlocks type) fseq stamp body)
  | .block l kind rest => some (l, [controlBlock kind rest])
  | _ => none

/-- A frame read from its blocks: its type and what arrived (R478, R479) (DEDUCED, log row 110). -/
def frameRead (bs : List LineBlock) : Option (Nat × FrameIn) :=
  match bs with
  | (true, h) :: rest =>
    if rdLe h 0 1 ≠ 0x1E then none
    else
      let nblk := rdLe h 2 1
      let len := rdLe h 6 2
      let data := rest.take nblk
      let body := (data.flatMap (·.2)).take len
      let fault : FrameFault :=
        if data.length < nblk || data.any (·.1) then .abort
        else if (crc32 (h.take 12 ++ body)).toNat ≠ rdLe h 12 4 then .crc
        else .none
      some (rdLe h 1 1, { fault := fault, nblk := nblk, fseq := BitVec.ofNat 16 (rdLe h 4 2), stamp := BitVec.ofNat 32 (rdLe h 8 4), bytes := body })
  | _ => none

/-- The payload bits of a block, bit 0 of byte 0 first (R472). -/
def payloadBits (bs : List Byte) : List Bool := bs.flatMap (fun b => tab 8 (fun i => bitOf b i))

/-- The two header bits of a block (R472). -/
def headerBits (control : Bool) : List Bool := [control, !control]

/-- A bit of the scrambled sequence some places back; the history holds the latest first (R473). -/
def lineTap (hist : List Bool) (k : Nat) : Bool := hist.getD (k - 1) false

/-- The scrambler 1 + x^18 + x^23 over payload bits: the new history and the scrambled bits (R473) (DEDUCED, log row 110). -/
def scramble : List Bool → List Bool → List Bool × List Bool
  | hist, [] => (hist, [])
  | hist, d :: t =>
    let s := d ^^ lineTap hist 18 ^^ lineTap hist 23
    let (h, r) := scramble ((s :: hist).take 23) t
    (h, s :: r)

/-- The descrambler: it needs no reset, for its history is what arrived (R473) (DEDUCED, log row 110). -/
def descramble : List Bool → List Bool → List Bool × List Bool
  | hist, [] => (hist, [])
  | hist, s :: t =>
    let (h, r) := descramble ((s :: hist).take 23) t
    (h, (s ^^ lineTap hist 18 ^^ lineTap hist 23) :: r)

/-- Blocks as bits: the header in clear, the payload scrambled across blocks (R472, R473). -/
def blockBits : List Bool → List LineBlock → List Bool
  | _, [] => []
  | hist, (c, bs) :: t =>
    let (h, r) := scramble hist (payloadBits (padBlock bs))
    headerBits c ++ r ++ blockBits h t

/-- Stuff bits: after 24 identical bits on the wire one of the opposite value, which counts as the first of its own run (R474)
(DEDUCED, log row 110). -/
def stuffBits : Bool → Nat → List Bool → List Bool
  | _, _, [] => []
  | last, n, b :: t =>
    let k := if b = last then n + 1 else 1
    if k = 24 then b :: (!b) :: stuffBits (!b) 1 t else b :: stuffBits b k t

/-- The receiver's removal of stuff bits: what is left, and the run errors, where the removed bit equals the 24 before it (R474)
(DEDUCED, log row 110). -/
def unstuffBits : Bool → Nat → List Bool → List Bool × Nat
  | _, _, [] => ([], 0)
  | last, n, b :: t =>
    if n = 24 then
      let (r, e) := unstuffBits b 1 t
      (r, if b = last then e + 1 else e)
    else
      let (r, e) := unstuffBits b (if b = last then n + 1 else 1) t
      (b :: r, e)

/-! ### What a lane sends with no frame (R476, R490, R493, R495, R499) -/

/-- A TRAIN block of the device: SEEN once the head's TRAIN blocks arrive with lock, PORT, RATE and GLB_UID (R477). -/
def trainOut (m : Mach) (l : Fin 28) : LineBlock :=
  controlBlock 0x2D ([BitVec.ofNat 8 (b2n m.lanes[l].locked), BitVec.ofNat 8 (portOf m l), BitVec.ofNat 8 (laneRate m l)] ++ leBytes 8 Config.uid.toNat)

/-- A SEAL block that ends a downstream superframe (R495). -/
def sealOut (ks : BitVec 128) (sfn : BitVec 48) (blocks : List Byte) : LineBlock :=
  controlBlock 0x33 ([0] ++ leBytes 6 sfn.toNat ++ (leBytes 8 (sealTag ks 0 sfn blocks).toNat).reverse)

/-- Taps of a pattern (R499), by PATTERN of LANEl_PRBS (R514). -/
def prbsTaps : Nat → Nat × Nat
  | 0 => (7, 6)
  | 1 => (15, 14)
  | _ => (31, 28)

/-- Bits of a PRBS pattern after a history, latest first (R499) (DEDUCED, log row 110). -/
def prbsBits (pattern : Nat) : Nat → List Bool → List Bool
  | 0, _ => []
  | n + 1, hist =>
    let (a, b) := prbsTaps pattern
    let x := lineTap hist a ^^ lineTap hist b
    x :: prbsBits pattern n ((x :: hist).take a)

/-- 16 payload bytes from 128 bits, bit 0 of byte 0 first (R472). -/
def bitsBytes (bs : List Bool) : List Byte := tab 16 (fun i => BitVec.ofNat 8 ((List.range 8).foldl (fun a j => a + b2n (bs.getD (8 * i + j) false) * 2 ^ j) 0))

/-- The block that a lane sends when no frame, KEY, SWITCH or SEAL block is due: TRAIN in the states that train, a PRBS31 payload in SOAK,
IDLE where frames may go and after a failure, none in OFF or in a raw test (R476, R490, R493, R499); `hist` are the pattern's last bits
(DEDUCED, log row 110). -/
def laneFill (m : Mach) (l : Fin 28) (hist : List Bool) : Option LineBlock :=
  match m.lanes[l].st with
  | .off => none
  | .test => none
  | .detect => some (trainOut m l)
  | .equalise => some (trainOut m l)
  | .align => some (trainOut m l)
  | .ident => some (trainOut m l)
  | .soak => some (false, bitsBytes (prbsBits 2 128 hist))
  | _ => some idleBlock

/-- The bits on the line in a raw test (R499, R514). -/
def rawLine (m : Mach) (l : Fin 28) (n : Nat) (hist : List Bool) : List Bool :=
  if m.lanes[l].st = .test && bitOf (regGet m (0xA0010 + 0x400 * l.val)) 0 then
    prbsBits (fld (regGet m (0xA0010 + 0x400 * l.val)) 5 4) n hist
  else []

end Sys2Proof.Machine
end

