-- ==== Sys2Proof/WellFormed.lean ====
section
/-!
DEFINITION. Which commands are well formed: what the spec's tables and the wires say an operand can be. The meanings are total, and
no meaning relies on it.
-/

namespace Sys2Proof

open Machine

/-- No more data than the descriptor's LENGTH (R90). -/
def Machine.DmaIn.wf (x : DmaIn) : Bool := decide (x.data.length ≤ x.len.toNat)

/-- What host software and the link make of the configuration space (R83). -/
def Machine.PciCfg.wf (c : PciCfg) : Bool :=
  c.bar0.all (fun b => b.toNat % 0x1000000 = 0) && c.bar2.all (fun b => b.toNat % 0x10000000 = 0) && decide (c.payload ∈ [128, 256, 512]) &&
  decide (c.readReq ∈ [128, 256, 512, 1024, 2048, 4096]) && decide (c.width ∈ [1, 2, 4]) && decide (c.rate ∈ [5, 10, 16, 32])

/-- Banks of 48 MB, and boot record sectors of 64 KB in entries of 64 bytes (R112, R114). -/
def Machine.FlashIn.wf (f : FlashIn) : Bool :=
  (f.bankA ++ f.bankB).all (fun c => decide (c.1 < 50331648)) && (f.rec0 ++ f.rec1).all (fun e => decide (e.length = 64)) &&
  decide (f.rec0.length ≤ 1024) && decide (f.rec1.length ≤ 1024)

/-- An offset is `r` above a multiple of `n` (R56, R57, R58). -/
def aligned (off : BitVec 24) (n r : Nat) : Bool := off.toNat % n == r

/-- Channels and descriptors of a list, each channel once (R90). -/
def lostOk (l : List (Fin 4 × DmaIn)) : Bool := l.all (fun o => o.2.wf) && decide ((l.map (·.1)).Nodup)

/-- What a command meets names each channel once (R90). -/
def Machine.Env.wf (e : Env) : Bool := lostOk e.dma

/-- Whether a command is well formed. -/
def Instr.wf : Instr → Bool
  | .vbatRise => true
  | .vbatFall => true
  | .mainSupplyUp _ => true
  | .mainSupplyLoss => true
  | .wakeEdge _ => true
  | .rtcAlarm => true
  | .resetNLow => true
  -- R112, R114
  | .resetNRise flash => flash.all FlashIn.wf
  | .resetKeyOpen _ => true
  | .resetKeyConfirm _ => true
  -- R104
  | .resetKeyInvalid _ v => v != 0xC0DE#32
  | .resetKeyWindowEnd _ => true
  | .refclkQualified _ => true
  | .refclkWaitTimeout => true
  | .memTrainingDone _ _ _ _ _ _ _ => true
  | .sweepDone => true
  -- R134, R739
  | .bootComplete failed _ nB _ _ => decide (nB ≤ 20#5) && decide (failed.Nodup)
  -- R129
  | .bootAttemptFail cause => decide (1#4 ≤ cause) && decide (cause ≤ 11#4)
  | .bootWatchdogExpire => true
  -- R698
  | .powerGoodLost d => d != 0
  | .glbStart _ _ env => env.wf
  | .glbEnd _ _ => true
  | .glbStandby _ _ => true
  | .standbySequenceResume => true
  | .glbSafeHold _ _ => true
  | .hostTimeoutExpire => true
  | .glbHeartbeat _ _ => true
  | .pcieLinkLoss lost => lostOk lost
  | .pcieHotReset lost => lostOk lost
  -- R83
  | .pcieLinkUp cfg => cfg.wf
  | .d3hotEntry => true
  | .d0Return => true
  | .perstNAssert lost => lostOk lost
  -- R56
  | .registerWrite _ off _ _ env => aligned off 4 0 && env.wf
  | .sqcClearWrite _ _ _ => true
  -- R49: the field stands in a register held as written (log row 19)
  | .lockFieldWrite _ off _ => (regRow off.toNat).isSome
  -- R58
  | .pairLowRead _ off long => aligned off 4 0 && decide (off.toNat + 4 * long.toNat < 0x1000000)
  -- R58
  | .pairHighRead _ off => aligned off 4 0
  -- R58
  | .pairLowWrite _ off _ => aligned off 4 0
  -- R58
  | .pairHighWrite _ off _ => aligned off 4 0
  -- R57
  | .pair64bitWrite _ off _ more env => env.wf && aligned off 8 0 && decide (off.toNat + 8 + 4 * more.length ≤ 0x1000000)
  -- R85
  | .bar2Read off len _ => decide (1 ≤ len) && decide (off.toNat + len ≤ 0x10000000)
  -- R85
  | .bar2Write off bytes => decide (bytes ≠ []) && decide (off.toNat + bytes.length ≤ 0x10000000)
  | .windowBaseWrite _ _ _ => true
  | .dmaTailWrite _ _ _ => true
  | .dmaEnable _ _ => true
  | .dmaDisable _ _ => true
  | .dmaSkip _ _ => true
  | .dmaRetry _ _ => true
  | .dmaRingWrite _ _ _ _ _ => true
  -- R90, R97
  | .dmaDescDone n host layer len ctl data hostErr stop ecc others => DmaIn.wf ⟨host, layer, len, ctl, data, hostErr, stop, ecc⟩ && lostOk others && others.all (fun o => decide (o.1 ≠ n))
  | .msixIntervalEnd _ => true
  | .rollback _ _ => true
  | .reinstate _ _ => true
  | .raiseFloor _ _ => true
  | .revokeSlot _ _ => true
  | .recSelect _ _ => true
  | .recDataWrite _ _ _ => true
  | .recCommit _ _ => true
  | .recordTake _ => true
  | .quoinAdd _ _ => true
  | .reloadRequest _ _ => true
  | .reloadArmed => true
  | .reloadSwitch => true
  | .updateWrite _ _ => true
  | .updateCancel _ _ => true
  | .updateStageEnd _ => true
  | .jobCommit _ _ env => env.wf
  | .commitCheckEnd ecc dma => Env.wf ⟨ecc, dma⟩
  | .jobPause _ _ => true
  | .jobStop _ _ => true
  | .jobResume _ _ env => env.wf
  | .jobAbort _ _ => true
  | .jobStart _ _ env => env.wf
  | .jobFlush _ _ => true
  | .abortSettled => true
  | .makeReadyStepEnd env => env.wf
  | .mrTimeout => true
  | .imageTimeout env => env.wf
  | .impChoice _ _ => true
  | .slugEnd _ env => env.wf
  | .waitPrioElapsed _ => true
  | .retire _ _ => true
  | .retirementScanEnd _ => true
  | .returnBeam _ _ => true
  | .returnEngaged _ => true
  | .returnTimeout _ => true
  | .beamAutoReturn _ => true
  | .impRecRdWrite _ _ => true
  | .recordEntryDeferred env => env.wf
  | .beamSampleInstant _ _ => true
  | .gateEdgeFire _ => true
  | .dacInstant _ => true
  | .lookaheadAnswer _ _ _ => true
  | .beamMoveAtTarget _ => true
  | .jumpSettleElapsed _ => true
  | .runupAtStart _ => true
  | .markAtEnd _ => true
  | .stoppingAtRest _ => true
  | .driftStale _ => true
  -- R471, R482
  | .pdPayload l _ => decide (l.val < 24)
  -- R471, R482
  | .camBegin l _ => decide (l.val < 24)
  -- R471, R482
  | .camLine l _ => decide (l.val < 24)
  | .frameMetricsReady _ => true
  | .frameValidTimeout _ => true
  | .noLight _ => true
  | .backrefl _ => true
  | .corrSat _ => true
  | .hmapDecaySweep => true
  | .hmapRecRdWrite _ _ => true
  | .cellSampleStart _ _ _ _ _ => true
  | .cellSampleOverrun _ => true
  | .ctxAutoRestart _ => true
  | .cellHardFault _ => true
  | .hardSettleDone _ => true
  | .substCopyDone => true
  | .shadowHandover _ => true
  | .katPeriodElapsed _ => true
  | .katDone _ _ => true
  | .cellStart _ _ => true
  | .cellStop _ _ => true
  | .restart _ _ => true
  | .subst _ _ => true
  | .test _ _ => true
  | .trig _ _ => true
  | .cellTrgWrite _ _ => true
  | .traceStop _ _ => true
  | .trcCtrlWrite _ _ _ _ => true
  | .deepRun _ _ => true
  | .deepDone => true
  | .lagMaxClear _ _ _ _ => true
  | .sigSelWrite _ _ => true
  | .laneSignalDetect _ => true
  | .laneDetectTimeout _ => true
  | .laneEqualiseDone _ => true
  | .laneAlignLock _ => true
  -- R491
  | .trainBlock _ _ port rate _ _ => decide (port < 256) && decide (rate < 8)
  -- R494
  | .keyBlock _ _ data => decide (data.length ≤ 16)
  | .laneSoakEnd _ _ => true
  | .laneTrainTimeout _ => true
  | .laneSignalLoss _ => true
  | .laneLockLost _ => true
  | .laneCrcLimit _ => true
  | .laneVoidLimit _ => true
  | .laneRetryElapsed _ => true
  -- R496
  | .sealBlock _ f => decide (f.blocks.length = 17391)
  | .switchRouted _ _ => true
  | .switchSoakResult _ _ => true
  -- R471, R482
  | .posFrame l _ => decide (l.val < 24)
  | .statusFrame _ _ => true
  | .tsyncRFrame _ _ => true
  -- R471, R505
  | .auxValFrame l _ => decide (24 ≤ l.val)
  -- R471, R506
  | .imgBeginFrame l _ => decide (24 ≤ l.val)
  -- R471, R506
  | .imgSegFrame l _ env => decide (24 ≤ l.val) && env.wf
  | .cmdKeepalive _ => true
  | .auxCmdKeepalive _ => true
  | .tsyncSend => true
  | .releaseSend _ => true
  | .statusTimeout _ => true
  | .floodTimeout _ => true
  | .laneRetrain _ _ _ => true
  | .eyeScan _ _ _ => true
  | .eyeScanDone _ _ _ => true
  | .testEnter _ _ _ => true
  | .testExit _ _ _ _ => true
  | .injectBitError _ _ _ => true
  | .injectErrorRate _ _ _ => true
  | .injectStop _ _ _ => true
  | .injectInvalidHeader _ _ _ => true
  | .injectCrcError _ _ _ => true
  | .injectSealError _ _ _ => true
  | .moveAbs _ _ _ => true
  | .moveRel _ _ _ => true
  | .axisStop _ _ _ => true
  | .axisResume _ _ _ => true
  | .home _ _ _ => true
  | .clear _ _ _ => true
  | .cmpClear _ _ _ => true
  | .cmpPush _ _ _ => true
  | .profileUpdate _ => true
  | .axisTargetReached _ => true
  | .axisAtRest _ => true
  | .encQuadStep _ _ _ => true
  | .quadErrLimit _ => true
  | .encIndexEdge _ => true
  | .ssiReading _ _ _ _ env => env.wf
  | .axisSignalPublish _ => true
  | .stallCheck _ => true
  | .axisStall _ => true
  | .limitAssert _ _ => true
  | .limitRelease _ _ _ _ => true
  | .homeInputEdge _ _ => true
  | .encoutEmit _ => true
  | .speedZeroTimeout _ => true
  | .holdDelayElapsed _ => true
  | .inhibitFall _ => true
  | .inhibitRise _ => true
  | .inputLatchRearm => true
  | .discrepancyFault => true
  | .lampAck _ _ => true
  | .scene _ _ => true
  | .lampPollCycle _ => true
  -- R594
  | .lampReply a _ => a != 0
  -- R594
  | .lampPollMissed a => a != 0
  -- R594
  | .notMeasuredTimeout a => a != 0
  | .alFrameSend => true
  | .colourFeedback => true
  | .blinkToggle _ => true
  | .ptpEventRx _ _ _ => true
  | .ptpTx _ _ _ => true
  | .masterLost => true
  | .timeMapChange _ _ _ _ => true
  | .timeSnap _ _ => true
  | .xtal32Fail => true
  | .memRetrain _ _ => true
  | .scrubNow _ _ => true
  | .retrainRun _ => true
  | .retrainEnd _ _ _ _ env => env.wf
  | .refreshDue _ _ _ => true
  | .writeQueueDrain _ _ => true
  | .hotRowRefresh _ _ _ => true
  | .hotRowWindow => true
  | .mr4Poll _ _ _ _ _ _ => true
  | .scrubPassStart _ => true
  | .scrubPassDone => true
  -- R688
  | .clockMonitorTrip cause => cause != 0#2
  | .fallbackRcQualified => true
  | .fallbackPllLocked _ => true
  | .fallbackFirmwareReady _ => true
  | .fallbackTimeout => true
  -- R688, R689
  | .pllUnlock i lost => i != 0 && lostOk lost
  -- R688, R689
  | .pllRelock i => i != 0
  | .clkoutSrcWrite _ _ _ => true
  | .clkoutSwitchDone _ => true
  | .switchStuck _ => true
  | .clkGateRequest _ _ => true
  | .gateClose _ => true
  | .gateTimeout _ => true
  | .vbatLowSample _ => true
  | .tempRead _ _ _ => true
  | .throttleTimer => true
  | .thermalShutdown => true
  | .canaryLimit => true
  | .vcoreMismatch _ => true
  | .touchstoneMeasure _ => true
  | .marginHourlyCheck => true
  | .eyeScanSchedule => true
  | .laneRetrainRequest _ => true
  | .laserMonSample _ => true
  | .laserRatioUpdate _ => true
  | .laserEvaluation _ => true
  | .notchMeasure _ _ _ => true
  | .notchRetuneCommit _ => true
  | .cal _ _ => true
  -- R734
  | .calRunDone u _ => decide (u.domain < 5)
  -- R734
  | .calStep u => decide (u.domain < 5)
  | .echo _ _ => true
  | .info _ _ => true
  | .logFetch _ _ => true
  | .logFlush _ _ => true
  | .netArm _ _ => true
  | .rtcSet _ _ => true
  | .mbReply => true
  | .mgmtWatchdogExpire _ => true
  | .logStageCopy => true
  | .logNvmFlush _ => true
  | .updBegin _ _ _ => true
  | .updData _ _ _ _ => true
  | .updEnd _ _ => true
  | .logReq _ _ _ _ => true
  | .netTransferIdle => true
  | .netWindowClose => true
  | .telemetrySend => true
  | .ethLos _ _ => true
  | .xtal32Qualified => true
  | .pwmValley => true
  | .microstep _ => true
  | .cmpPulseEnd _ => true
  | .ainConversion _ _ _ => true
  | .gpioSample _ => true
  | .powerGoodTimeout => true
  | .backupRcStopped => true
  | .hmapCopyDone => true
  | .hmapSweepDone => true
  | .msixUnmask _ => true

end Sys2Proof
end

