-- ==== Sys2Proof/Tests/Slice0.lean ====
section
/-!
SUPPORT. Tests: ill-formed commands, the spec's worked examples, a few single commands, and for every statement of Obligations.lean the
states and operands that meet its hypotheses.
-/

namespace Sys2Proof.Tests

open Sys2Proof Sys2Proof.Machine

set_option maxRecDepth 100000
set_option linter.unusedVariables false

/-! ### States -/

/-- The device in CONFIGURED: supplies, clocks and domains on, the host link up, memory trained. -/
def wOn : Mach :=
  let m := Mach.reset
  { m with
    g := { m.g with
      dev := .configured, linkUp := true, configuredOnce := true,
      pci := { bar0 := some 0x100000000, bar2 := some 0x200000000, msixOn := true } },
    clk := { m.clk with refQual := true, xtalQual := true, lock := 0x3F, domains := 0xFFF },
    time := { m.time with running := true, dt := 5000000000 },
    boot := { m.boot with phase := .done },
    mem := { m.mem with trained := true, ch0 := { m.mem.ch0 with st := .ready }, ch1 := { m.mem.ch1 with st := .ready } },
    ilk := { m.ilk with a := true, b := true, latch := false } }
/-- In BUILDING with an idle job. -/
def wBuild : Mach := { wOn with g := { wOn.g with dev := .building }, job := { wOn.job with st := .idle } }
/-- A context descriptor of cell 0: slot, owner class, beam 0, flags, number of sorts of the program at 448. -/
def wDesc (slot owner flags sorts : Nat) : List Byte :=
  [0, BitVec.ofNat 8 slot, BitVec.ofNat 8 owner, 0, 0, BitVec.ofNat 8 flags, 0, 0] ++ leBytes 4 1000 ++ List.replicate 6 0 ++
    [BitVec.ofNat 8 sorts, 0, 0, 0, 0, 0] ++ leBytes 4 448 ++ List.replicate 100 0
/-- The sections of head 0, fitted, and of the three scan contexts of beam 0, whose program is an input that must be fresh. -/
def wSections (flags sorts : Nat) : List Section :=
  [⟨3, 0, []⟩, ⟨4, 0, []⟩,
    ⟨5, 0xFFFF, [3, 0] ++ List.replicate 62 0 ++ wDesc 0 1 flags sorts ++ wDesc 1 2 flags sorts ++ wDesc 0 3 flags sorts ++ [0, 0, 1, 0, 0, 0, 0, 1]⟩]
/-- In BUILDING with head 0 fitted, every lane UP, and the three scan contexts of beam 0 running and engaged. -/
def wBeam : Mach :=
  { wBuild with
    boot := { wBuild.boot with sections := wSections 4 0 },
    lanes := Vector.replicate 28 { st := .up },
    heads := Vector.replicate 16 { bits := 1 },
    cells := { wBuild.cells with ctx := Vector.replicate 256 { st := .running, engaged := true, cell := some 0 } } }
/-- A device with a list of changes made to it, no command waiting. -/
def wAt (m : Mach) (fs : List (Mach → Mach)) : State := { m := fs.foldl (fun m f => f m) m, pending := [] }
/-- Word `i` of record `id` written. -/
def wRec (id i : Nat) (w : Word) (m : Mach) : Mach :=
  { m with boot := { m.boot with recs := put recDefault m.boot.recs id ((recWords m id).set i w) } }
/-- A preserve block. -/
def wKeep : Preserved :=
  { marker := 0, dev := .building, ver := 0, job := {}, imp := {}, stops := [], axes := Vector.replicate 8 {}, layerOn := false, recs := [],
    map := {}, startAt := none, layerAt := none, layerNo := 0, hmap := {}, logWr := 0 }
/-- A plan whose emission runs. -/
def wPlan : Plan :=
  { work := { src := 0, index := 0 }, pset := 0, forme := 0, segs := [], vm := 0, vj := 0, a := 0, kappa := 0xFFFF, rho := 2 ^ 48, power := 0,
    temp := 0, emit := some (0, 2 ^ 60), on := some 0, off := none, contFrom := true, contInto := true, isDwell := false, skywrite := false,
    wobShape := 0, wobAmp := 0, wobFreq := 0, timing := [], fine := [], set := List.replicate 64 0xFF, start := 0, finish := 2 ^ 60,
    inserted := false }
/-- Exposing, with a galley of one slug for beam 0. -/
def wChoice (m : Mach) : Mach :=
  { m with
    job := { m.job with st := .exposing, active := some 0 }, imp := { m.imp with running := true }, beams := Vector.replicate 12 { st := .idle },
    mem := { m.mem with cells := [(257, 0x20), (260, 1)] } }

/-! ### Ill-formed commands: each check refuses one -/

/-- A frame's data, whatever its type. -/
def wFrame : FrameIn := { nblk := 1, fseq := 0, stamp := 0, bytes := [] }

theorem test_wf_key : Instr.wf (.resetKeyInvalid .host 0xC0DE) = false := by decide
theorem test_wf_quarantined_cells : Instr.wf (.bootComplete [3, 3] 0 0 [] {}) = false ∧ Instr.wf (.bootComplete [] 0 21 [] {}) = false := by decide
theorem test_wf_attempt_cause : Instr.wf (.bootAttemptFail 0) = false ∧ Instr.wf (.bootAttemptFail 12) = false := by decide
theorem test_wf_always_on_domain : Instr.wf (.powerGoodLost 0) = false := by decide
theorem test_wf_register_offset : Instr.wf (.registerWrite .host 0x22 0 0xF {}) = false := by decide
theorem test_wf_lock_offset : Instr.wf (.lockFieldWrite .host 0x2E 0) = false ∧ Instr.wf (.lockFieldWrite .host 0x400000 0) = false := by decide
theorem test_wf_pair_offset :
    Instr.wf (.pairLowRead .host 2 0) = false ∧ Instr.wf (.pairLowRead .host 0xFFFFFC 1) = false ∧ Instr.wf (.pairHighRead .host 6) = false ∧ Instr.wf (.pairLowWrite .host 1 0) = false ∧
    Instr.wf (.pairHighWrite .host 3 0) = false ∧ Instr.wf (.pair64bitWrite .host 4 0 [] {}) = false := by decide
theorem test_wf_window_range :
    Instr.wf (.bar2Read 0xFFFFFFF 2 {}) = false ∧ Instr.wf (.bar2Read 0 0 {}) = false ∧ Instr.wf (.bar2Write 0 []) = false ∧
    Instr.wf (.bar2Write 0xFFFFFFF [0, 0]) = false := by decide
theorem test_wf_descriptor_data :
    Instr.wf (.dmaDescDone 0 0 0 1 0 [0, 0] none 0 {}) = false ∧
    Instr.wf (.dmaDescDone 0 0 0 1 0 [] none 0 {} [(0, { host := 0, layer := 0, len := 1, ctl := 0 })]) = false := by decide
theorem test_wf_lost_descriptors :
    Instr.wf (.pcieLinkLoss [(1, { host := 0, layer := 0, len := 1, ctl := 0 }), (1, { host := 0, layer := 0, len := 1, ctl := 0 })]) = false := by decide
theorem test_wf_config_space : Instr.wf (.pcieLinkUp { bar0 := some 0x1000, width := 4, rate := 16 }) = false := by decide
theorem test_wf_flash : Instr.wf (.resetNRise (some { bankA := [(50331648, 0)], bankB := [], rec0 := [], rec1 := [] })) = false := by decide
theorem test_wf_beam_lane_frames :
    Instr.wf (.pdPayload 24 wFrame) = false ∧ Instr.wf (.camBegin 24 wFrame) = false ∧ Instr.wf (.camLine 27 wFrame) = false ∧
    Instr.wf (.posFrame 24 wFrame) = false := by decide
theorem test_wf_aux_lane_frames :
    Instr.wf (.auxValFrame 23 wFrame) = false ∧ Instr.wf (.imgBeginFrame 0 wFrame) = false ∧ Instr.wf (.imgSegFrame 23 wFrame {}) = false := by
  decide
theorem test_wf_training_block : Instr.wf (.trainBlock 0 true 256 0 0 false) = false ∧ Instr.wf (.trainBlock 0 true 0 8 0 false) = false := by
  decide
theorem test_wf_keying_data : Instr.wf (.keyBlock 0 1 (List.replicate 17 0)) = false := by decide
theorem test_wf_superframe :
    Instr.wf (.sealBlock 0 { blocks := [], sealed := true, dir := 1, sfn := 0, tag := 0, badFrame := false, badHeaders := 0, runErrors := 0, undefined := 0 }) = false := by
  decide
theorem test_wf_lamp_address : Instr.wf (.lampReply 0 []) = false ∧ Instr.wf (.lampPollMissed 0) = false ∧ Instr.wf (.notMeasuredTimeout 0) = false := by
  decide
theorem test_wf_clock_cause : Instr.wf (.clockMonitorTrip 0) = false := by decide
theorem test_wf_pll : Instr.wf (.pllUnlock 0 []) = false ∧ Instr.wf (.pllRelock 0) = false := by decide
theorem test_wf_calibration_domain : Instr.wf (.calRunDone ⟨5, 0⟩ { words := [] }) = false ∧ Instr.wf (.calStep ⟨5, 0⟩) = false := by decide

/-! ### The spec's worked examples -/

/-- The device after a command, with nothing waiting. -/
def after (c : Instr) (m : Mach) : Option Mach := match exec c { m := m, pending := [] } with | .next t => some t.m | _ => none

/-- "Formes, Galleys and Slugs": slug 1 of galley 0, byte by byte. -/
theorem test_slug_of_the_three_beam_forme :
    (fun s : Slug => [(s.type : Int), s.pset, s.group, s.x0, s.y0, s.x1, s.y1, s.part]) (slugOf (leBytes 4 0x20000000 ++ leBytes 4 0xF70F2E80 ++
      leBytes 4 0xF8D8F200 ++ leBytes 4 0xF8405B80 ++ leBytes 4 0xF8D8F200 ++ leBytes 8 0 ++ leBytes 4 7)) =
    [2, 0, 0, -150000000, -120000000, -130000000, -120000000, 7] := by decide

/-- The slug word 0x3041_0000 of the contour arcs: an ARC of PSET 1 in group 1. -/
theorem test_slug_word_of_the_arcs :
    (fun s : Slug => (s.type, s.pset, s.group)) (slugOf (leBytes 4 0x30410000 ++ leBytes 28 0)) = (3, 1, 1) := by decide

/-- Moves of the make-ready example: 30 µm and 60 µm at 20 mm/s² in 77.5 ms and 109.5 ms, and the recoater's 4.817 s. -/
theorem test_make_ready_moves :
    moveTime (30000 * 65536) 1000000 20 / (65536 * 10000) = 7745 ∧ moveTime (60000 * 65536) 1000000 20 / (65536 * 10000) = 10954 ∧
    moveTime (700000000 * 65536) 150000 1000 / (65536 * 1000000) = 4816 := by decide

/-- "Beam Engines": the inserted move of 10 mm takes 863,333.3 ns. -/
theorem test_inserted_move : moveTime (10000000 * 65536) 12000000 400000000 * 10 / 65536 = 8633333 := by decide

/-- The gate-on edge ideal at 7,341,230,913.4 ns falls on step 23 of tick 5,872,984,730. -/
theorem test_gate_edge : placeEdge (73412309134 * 65536 / 10) = 5872984730 * 81920 + 23 * 2560 := by decide

/-- Codes of the power path: 34,640 at κ = 0.8 is 27,712, and with the look-ahead answer 60,292 it is 31,869. -/
theorem test_power_codes :
    Plan.request { wPlan with power := 34640, kappa := 52428 } 0 65535 0 = 27712 ∧ Plan.request { wPlan with power := 34640 } 0 60292 0 = 31869 := by
  decide

/-- "Stage Motion": INC of the recoater's stroke is loaded as 540,431,955,284. -/
theorem test_recoater_increment : incOf (wRec (recStgAxis 1) 1 0x0186A000 wOn) 1 (150000000 * 1000000) = 540431955284 := by decide

/-- Braking distances of the recoater's example: 11.25 mm, 10.08 mm and 2.42 mm. -/
theorem test_braking_distances :
    brakeQ (150000000 * 1000000) 1000 0 = 11250000 * 65536 ∧ brakeQ (110000000 * 1000000) 600 0 / 65536 = 10083333 ∧
    brakeQ (110000000 * 1000000) 2500 0 = 2420000 * 65536 := by decide

/-- "Imposition": water levels of the first run's choices, in ms: 32, 28 and 36. -/
theorem test_water_levels :
    levelGo 24 0 0 [(65535, 8), (65535, 32)] = 32 ∧ levelGo 24 0 0 [(65535, 8), (65535, 24)] = 28 ∧
    levelGo 24 0 0 [(65535, 24), (65535, 24)] = 36 := by decide

/-- "The Loop Cell Array": the heater's PID with the old gains, frozen at IMAX: 65,000. -/
theorem test_pid_frozen :
    (pid 0 0 0 [0x82000000, 0x5A8F5C29, 0, 0, 0, 50000, 0, 65535] true false 30000 150000 0
      { i := 50000 * 65536, w := 1, begun := true, y1 := 150000 }).1 = 65000 := by decide

/-- The heater with the new gains: the windup flag is released and the outputs are 39,830 and 39,693. -/
theorem test_pid_released :
    (fun r : Int × SortSt => (r.1, r.2.w, r.2.i)) (pid 0 0 0 [0x83333333, 0x63333333, 0, 0, 0, 40000, 0, 65535] true false (-200) 180200 0
      { i := 40000 * 65536, w := 1, begun := true, y1 := 150500 }) = (39830, 0, 39990 * 65536) ∧
    (pid 0 0 0 [0x83333333, 0x63333333, 0, 0, 0, 40000, 0, 65535] true false (-350) 180350 0
      { i := 39990 * 65536, begun := true, y1 := 180200 }).1 = 39693 := by decide

/-- "Time": the exchange on lane 8 measures a delay of 96.00 ns and an offset of 37.50 ns, and sends ADJ 0xFFFF_FDA8. -/
theorem test_time_exchange :
    (fun m : Mach => (m.time.lanes[8].delay, m.time.lanes[8].offset, m.time.lanes[8].adj)) (tsyncAnswer 8
      { nblk := 3, fseq := 0, stamp := 0, bytes := [705032704, 705032837, 0x8000, 705034837, 0x8000].zip [4, 4, 4, 4, 16] |>.flatMap (fun e => leBytes e.2 e.1) }
      { wOn with time := { wOn.time with dt := 5000002192, sub := 0, lanes := wOn.time.lanes.set 8 { sent := [(705032704, 5000000000)] } } }) = (1536#32, 600#32, some 0xFFFFFDA8#32) := by decide

/-- "Emission Interlock": the stamp of the door's edge at 9,120,004,517.5 ns, and PERMIT falls. -/
theorem test_door_stamp :
    (after (.inhibitFall false) { wBuild with time := { wBuild.time with dt := 9120004517, sub := 32768 }, ilk := { wBuild.ilk with inhReset := false, permit := true } }).map (fun t =>
      (t.ilk.inhTime, t.ilk.inhSub, t.ilk.latch, permitNow t)) = some (9120004517, 32768, true, false) := by decide

/-- "Management and Log": the bytes of the retirement's entry up to its CRC. -/
theorem test_log_entry :
    (({ seq := 48269, time := 93784512000000, code := 0x3001, sev := 2, unit := 7, arg := [7, 5, 0, 0, 0x9C, 1, 0, 0, 3, 0, 0, 0] } : LogEnt).bytes).take 28 =
      [0x8D, 0xBC, 0, 0, 0, 0xF0, 0x85, 0xE8, 0x4B, 0x55, 0, 0, 0x01, 0x30, 2, 7, 7, 5, 0, 0, 0x9C, 1, 0, 0, 3, 0, 0, 0] := by decide

/-- "Registers and Host Access": clearing GLB_DMA0_EVENT 0x2C00_0005 needs its sequence number. -/
theorem test_sqc_clear :
    (fun v : Word => (after (.sqcClearWrite .host (.dma 0) v) (regSet 0x101C 0x2C000005 wOn)).map (fun t => regGet t 0x101C)) 0x2C000005 =
      some 0x2C000000 ∧
    (fun v : Word => (after (.sqcClearWrite .host (.dma 0) v) (regSet 0x101C 0x2C000005 wOn)).map (fun t => regGet t 0x101C)) 0x2B000005 =
      some 0x2C000005 := by
  decide

/-- "Health": a ratio of 0.94 is compensated by no more than COMP_MAX 1.05 and weighs three quarters. -/
theorem test_laser_compensation :
    laserGain 1009317315 17203 = 17203 ∧ laserWeight 1009317315 15892 13926 / 1000 = 49 := by decide

/-! ### Single commands -/

/-- The key sequence of R104: a full reset by the second word. -/
theorem test_reset_key :
    ((after (.resetKeyOpen .host) wOn).bind (after (.resetKeyConfirm .host))).map (fun t => (t.g.dev, t.g.resetCause)) = some (.boot, 3) := by decide

/-- ECHO answers its arguments (R763). -/
theorem test_echo :
    ((after (.echo .host 0xD900000) { wOn with mgt := { wOn.mgt with mbArgs := (Vector.replicate 8 0).set 2 0x5A } }).bind (after .mbReply)).map
      (fun t => (t.mgt.mbState, t.mgt.mbRes[2])) = some (.done, 0x5A) := by decide

/-- A command without its key is a command error and moves nothing (R71). -/
theorem test_start_without_key :
    (after (.glbStart .host 0 {}) wOn).map (fun t => (t.g.dev, bitOf (regGet t EvReg.glb.off) 2)) = some (.configured, true) := by decide

/-- START takes the device to BUILDING with the job IDLE (R19). -/
theorem test_start : (after (.glbStart .host 0xA600000 {}) wOn).map (fun t => (t.g.dev, t.job.st)) = some (.building, .idle) := by decide

/-- A step takes the front of the queue and leaves the rest. -/
theorem test_step_front :
    (match step { m := wOn, pending := [.rtcAlarm, .mbReply] } with | .next t => t.pending.length | _ => 9) = 1 := by decide

/-- Stuff bits go in after 24 equal bits and come out again (R474). -/
theorem test_stuff_bits :
    (stuffBits false 0 (List.replicate 50 true)).length = 52 ∧
    unstuffBits false 0 (stuffBits false 0 (List.replicate 50 true)) = (List.replicate 50 true, 0) := by decide

/-- The descrambler recovers the payload after 23 bits, whatever its history was (R473). -/
theorem test_scrambler :
    ((descramble (List.replicate 23 true) (scramble [] (payloadBits (idleBlock.2 ++ idleBlock.2))).2).2.drop 23) =
      (payloadBits (idleBlock.2 ++ idleBlock.2)).drop 23 := by decide

/-- A PARK frame read back from its blocks, and with one payload bit wrong (R478, R479). -/
theorem test_frame_blocks :
    frameRead (frameBlocks 0x13 1 7 9 [1, 2]) = some (0x13, { nblk := 1, fseq := 7, stamp := 9, bytes := [1, 2] }) ∧
    (frameRead ((frameBlocks 0x13 1 7 9 [1, 2]).take 1 ++ dataBlocks 1 [1, 3])).map (fun x => x.2.fault) = some .crc := by decide

/-! ### An ingot whose digests match -/

/-- Bytes at consecutive addresses. -/
def wBytes : Nat → List Byte → List Host.Cell
  | _, [] => []
  | a, b :: t => (a, b) :: wBytes (a + 1) t
/-- A section table entry at `o` for the bytes `bs` at `at_`, with `k` added to their digest. -/
def wEntry (o ty at_ k : Nat) (bs : List Byte) : List Host.Cell :=
  wBytes o (leBytes 2 ty ++ [0xFF, 0xFF] ++ leBytes 4 at_ ++ leBytes 4 bs.length) ++ wBytes (o + 32) (leBytes 32 ((Config.sha256 bs).toNat + k)).reverse
/-- A MEMORY_MAP section. -/
def wMap : List Byte :=
  [(0, 0x100000000), (0x100000000, 0x40000000), (0x140000000, 0x10000000), (0x150000000, 0x4000000), (0x154000000, 0x10000000),
    (0x164000000, 0x4000000), (0x168000000, 0x54000000), (0, 0)].flatMap (fun (b, z) => leBytes 8 b ++ leBytes 8 z)
/-- A MACHINE section with no head and no zone. -/
def wMachine : List Byte := [0, 1000000, 0, 1000000, 1].flatMap (leBytes 4) ++ List.replicate 1676 0
/-- A CELL_PROGRAMS section with one context, of class CHAMBER. -/
def wProgs : List Byte :=
  [1, 0, 0, 0, 1] ++ List.replicate 59 0 ++ [0, 0, 7, 0xFF, 0, 0, 0, 0] ++ leBytes 4 1000000 ++ List.replicate 6 0 ++ [1, 0, 0, 0, 0, 0] ++ leBytes 4 192 ++
    leBytes 4 200 ++ List.replicate 96 0 ++ [0, 0, 0, 0, 0, 0, 0, 11]
/-- The head of a bank with those sections, and the bank. -/
def wTable : List Host.Cell := wBytes 6 [3, 0] ++ wEntry 256 9 512 0 wMap ++ wEntry 320 5 1024 0 wProgs ++ wEntry 384 2 2048 0 wMachine
def wGood : List Host.Cell := wTable ++ (wBytes 512 wMap ++ (wBytes 1024 wProgs ++ wBytes 2048 wMachine))
/-- A bank with one section, its digest right for `k = 0`. -/
def wOne (ty k : Nat) (bs : List Byte) : List Host.Cell := wBytes 6 [1, 0] ++ wEntry 256 ty 512 k bs ++ (wBytes 512 bs ++ [])
/-- In BOOT, phase LOAD, with a bank. -/
def wLoad (cells : List Host.Cell) : State :=
  wAt wOn [fun m => { m with g := { m.g with dev := .boot }, boot := { m.boot with phase := .load, attempt := true, bankA := { cells := cells } } }]

theorem look_skip (d : Nat → Byte) (pre t : List Host.Cell) (k : Nat) (h : ∀ c ∈ pre, c.1 ≠ k) : look d (pre ++ t) k = look d t k := by
  induction pre with
  | nil => rfl
  | cons c p ih =>
    have h1 : k ≠ c.1 := fun e => h c (by simp) e.symm
    simp only [List.cons_append, look, if_neg h1]
    exact ih (fun x hx => h x (by simp [hx]))

theorem look_wBytes (d : Nat → Byte) (bs : List Byte) (a i : Nat) (t : List Host.Cell) (h : i < bs.length) : look d (wBytes a bs ++ t) (a + i) = bs[i] := by
  induction bs generalizing a i with
  | nil => exact absurd h (by simp)
  | cons b s ih =>
    cases i with
    | zero => simp [wBytes, look]
    | succ i =>
      have := ih (a + 1) i (by simpa using h)
      rw [show a + 1 + i = a + (i + 1) by omega] at this
      simp only [wBytes, List.cons_append, look, if_neg (show a + (i + 1) ≠ a by omega), this, List.getElem_cons_succ]

theorem reads (pre t : List Host.Cell) (a : Nat) (bs : List Byte) (h : pre.all (fun c => decide (c.1 < a)) = true) :
    bankReader { cells := pre ++ (wBytes a bs ++ t) } a bs.length = bs := by
  apply List.ext_getElem
  · simp [bankReader, lookAll]
  · intro i h1 h2
    simp only [bankReader, lookAll, List.getElem_map, List.getElem_range]
    rw [look_skip _ _ _ _ (fun c hc e => by have := List.all_eq_true.1 h c hc; simp at this; omega), look_wBytes _ _ _ _ _ h2]

theorem beNat_digest (v : Nat) : beNat (leBytes 32 v).reverse = v % 2 ^ 256 := by
  have h' : ∀ n v, leNat (leBytes n v) = v % 256 ^ n := by
    intro n
    induction n with
    | zero => intro v; simp [leBytes, leNat, Nat.mod_one]
    | succ n ih =>
      intro v
      have e : (BitVec.ofNat 8 v).toNat = v % 256 := by rw [BitVec.toNat_ofNat]
      rw [leBytes, leNat, ih, e, Nat.pow_succ, Nat.mul_comm (256 ^ n) 256, Nat.mod_mul]
  rw [beNat, List.reverse_reverse, h', show (256 : Nat) ^ 32 = 2 ^ 256 by decide]

theorem load_one (rd : Reader) (ty inst off len : Nat) (cl : Bool) (bs : List Byte) (h : rd off len = bs) :
    loadSection rd ⟨ty, inst, off, len, cl, beNat (leBytes 32 ((Config.sha256 bs).toNat + 0)).reverse⟩ = some ⟨ty, inst, bs⟩ := by
  simp only [loadSection, h, Nat.add_zero, beNat_digest, Nat.mod_eq_of_lt (Config.sha256 bs).isLt, if_true]

/-- The sections of `wGood`. -/
def wLoaded : List Section := [⟨9, 0xFFFF, wMap⟩, ⟨5, 0xFFFF, wProgs⟩, ⟨2, 0xFFFF, wMachine⟩]

theorem load_good : loadSections (bankReader { cells := wGood }) = some wLoaded := by
  have e : secTable (bankReader { cells := wGood }) =
    [⟨9, 0xFFFF, 512, wMap.length, zeros (bankReader { cells := wGood }) 268 20, beNat (leBytes 32 ((Config.sha256 wMap).toNat + 0)).reverse⟩,
     ⟨5, 0xFFFF, 1024, wProgs.length, zeros (bankReader { cells := wGood }) 332 20, beNat (leBytes 32 ((Config.sha256 wProgs).toNat + 0)).reverse⟩,
     ⟨2, 0xFFFF, 2048, wMachine.length, zeros (bankReader { cells := wGood }) 396 20, beNat (leBytes 32 ((Config.sha256 wMachine).toNat + 0)).reverse⟩] := rfl
  have h1 : bankReader { cells := wGood } 512 wMap.length = wMap := reads wTable _ 512 wMap (by decide)
  have h2 : bankReader { cells := wGood } 1024 wProgs.length = wProgs := by
    have := reads (wTable ++ wBytes 512 wMap) (wBytes 2048 wMachine) 1024 wProgs (by decide)
    rwa [List.append_assoc] at this
  have h3 : bankReader { cells := wGood } 2048 wMachine.length = wMachine := by
    have := reads (wTable ++ (wBytes 512 wMap ++ wBytes 1024 wProgs)) [] 2048 wMachine (by decide)
    rwa [List.append_assoc, List.append_assoc, List.append_nil] at this
  rw [loadSections, e, List.mapM_cons, load_one _ _ _ _ _ _ _ h1, List.mapM_cons, load_one _ _ _ _ _ _ _ h2, List.mapM_cons, load_one _ _ _ _ _ _ _ h3]
  rfl

/-! ### The hypotheses of the statements -/

/-- The hypotheses of `Obligations.SuppliesMoveDevice` are met, clause by clause. -/
theorem witness_SuppliesMoveDevice :
    (∃ (s : State), s.m.aon.vbat = false ∧ s.m.g.dev = DevState.off) ∧
    (∃ (s : State), s.m.g.dev = DevState.standby) ∧
    (∃ (s : State), s.m.g.dev ≠ DevState.standby) ∧
    (∃ (s : State) (r : Bool), s.m.aon.mains = false ∧ s.m.aon.resetN = true ∧ (s.m.g.dev = DevState.off ∨ s.m.g.dev = DevState.standby)) ∧
    (∃ (s : State) (r : Bool), s.m.aon.mains = false ∧ s.m.aon.resetN = false) ∧
    (∃ (s : State) (r : Bool), s.m.aon.mains = true) ∧
    (∃ (s : State), s.m.aon.mains = true ∧ (s.m.g.dev = DevState.boot ∨ inWork s.m = true ∨ s.m.g.dev = DevState.safeHold)) :=
  ⟨⟨wAt wOn [fun m => { m with aon := { m.aon with vbat := false }, g := { m.g with dev := .off } }], by decide⟩,
   ⟨wAt wOn [fun m => { m with g := { m.g with dev := .standby } }], by decide⟩,
   ⟨wAt wOn [], by decide⟩,
   ⟨wAt wOn [fun m => { m with aon := { m.aon with mains := false, resetN := true }, g := { m.g with dev := .off } }], false, by decide⟩,
   ⟨wAt wOn [fun m => { m with aon := { m.aon with mains := false, resetN := false } }], false, by decide⟩,
   ⟨wAt wOn [fun m => { m with aon := { m.aon with mains := true } }], false, by decide⟩,
   ⟨wAt wOn [fun m => { m with aon := { m.aon with mains := true }, g := { m.g with dev := .boot } }], by decide⟩⟩

/-- The hypotheses of `Obligations.WakeFromStandby` are met, clause by clause. -/
theorem witness_WakeFromStandby :
    (∃ (s : State) (c : Instr), s.m.g.dev = DevState.standby ∧ ((∃ rising, c = Instr.wakeEdge rising ∧ bitOf s.m.aon.stby 1 = true ∧ (fld
      s.m.aon.stby 3 2 = 2 ∨ fld s.m.aon.stby 3 2 = 0 ∧ rising = true ∨ fld s.m.aon.stby 3 2 = 1 ∧ rising = false)) ∨ c = Instr.rtcAlarm ∧
      bitOf s.m.aon.stby 4 = true ∧ s.m.aon.rtcRun = true) ∧ (s.m.aon.mains = false ∨ s.m.aon.resetN = false)) ∧
    (∃ (s : State) (c : Instr), s.m.g.dev = DevState.standby ∧ ((∃ rising, c = Instr.wakeEdge rising ∧ bitOf s.m.aon.stby 1 = true ∧ (fld
      s.m.aon.stby 3 2 = 2 ∨ fld s.m.aon.stby 3 2 = 0 ∧ rising = true ∨ fld s.m.aon.stby 3 2 = 1 ∧ rising = false)) ∨ c = Instr.rtcAlarm ∧
      bitOf s.m.aon.stby 4 = true ∧ s.m.aon.rtcRun = true) ∧ s.m.aon.mains = true ∧ s.m.aon.resetN = true) :=
  ⟨⟨wAt wOn [fun m => { m with g := { m.g with dev := .standby }, aon := { m.aon with stby := 0x10, rtcRun := true, mains := false } }],
     .rtcAlarm, by decide⟩,
   ⟨wAt wOn [fun m => { m with g := { m.g with dev := .standby }, aon := { m.aon with stby := 0x10, rtcRun := true } }], .rtcAlarm, by
     decide⟩⟩

/-- The hypotheses of `Obligations.ResetsAndKeys` are met, clause by clause. -/
theorem witness_ResetsAndKeys :
    (∃ (s : State) (p : Port), powered s.m = true ∧ s.m.g.dev ≠ DevState.shutdownLatched ∧ s.m.g.resetHeld = false) ∧
    (∃ (s : State) (p : Port), s.m.g.dev = DevState.boot) ∧
    (∃ (s : State) (p : Port) (f : FlashIn), s.m.g.dev = DevState.boot ∧ s.m.aon.resetN = false) ∧
    (∃ (s : State) (p : Port), WriteOpen s.m p 40) ∧
    (∃ (s : State) (p : Port), WriteOpen s.m p 40 ∧ s.m.g.dev ≠ DevState.shutdownLatched ∧ s.m.g.resetHeld = false ∧ (s.m.g.port
      p).keyOpen = true) ∧
    (∃ (s : State) (p : Port), WriteOpen s.m p 40 ∧ (s.m.g.port p).keyOpen = false) ∧
    (∃ (s : State) (p : Port) (v : BitVec 32), WriteOpen s.m p 40 ∧ v ≠ 49374#32 ∧ v ≠ 61453#32) ∧
    (∃ (s : State) (p : Port), (s.m.g.port p).keyOpen = true) ∧
    (∃ (s : State) (p : Port), (s.m.g.port p).keyOpen = false) :=
  ⟨⟨wAt wOn [fun m => { m with g := { m.g with resetHeld := false } }], .host, by decide⟩,
   ⟨wAt wOn [fun m => { m with g := { m.g with dev := .boot } }], .host, by decide⟩,
   ⟨wAt wOn [fun m => { m with g := { m.g with dev := .boot, resetHeld := true }, aon := { m.aon with resetN := false } }], .host, { bankA := [(0, 1)], bankB := [], rec0 := [], rec1 := [] },
     by decide⟩,
   ⟨wAt wOn [], .host, by decide⟩,
   ⟨wAt wOn [fun m => { m with g := { m.g with resetHeld := false, host := { m.g.host with keyOpen := true } } }], .host, by decide⟩,
   ⟨wAt wOn [fun m => { m with g := { m.g with host := { m.g.host with keyOpen := false } } }], .host, by decide⟩,
   ⟨wAt wOn [], .host, 0, by decide⟩,
   ⟨wAt wOn [fun m => { m with g := { m.g with host := { m.g.host with keyOpen := true } } }], .host, by decide⟩,
   ⟨wAt wOn [fun m => { m with g := { m.g with host := { m.g.host with keyOpen := false } } }], .host, by decide⟩⟩

/-- The hypotheses of `Obligations.DeviceCommands` are met, clause by clause. -/
theorem witness_DeviceCommands :
    (∃ (s : State) (p : Port) (proof : Bool) (e : Env), s.m.clk.fallback = Fallback.none ∧ WriteOpen s.m p 32 ∧ s.m.g.dev =
      DevState.configured ∧ s.m.clk.standby = StandbySeq.none ∧ s.m.job.queue = []) ∧
    (∃ (s : State) (p : Port), s.m.clk.fallback = Fallback.none ∧ WriteOpen s.m p 32 ∧ inBuild s.m = true ∧ (s.m.job.st = JobState.idle ∨
      s.m.job.st = JobState.finished ∨ s.m.job.st = JobState.aborted)) ∧
    (∃ (s : State) (p : Port), s.m.clk.fallback = Fallback.none ∧ WriteOpen s.m p 32 ∧ inBuild s.m = true ∧ s.m.job.st =
      JobState.exposing) ∧
    (∃ (s : State) (p : Port), s.m.clk.fallback = Fallback.none ∧ WriteOpen s.m p 32 ∧ s.m.g.dev = DevState.configured ∧ s.m.clk.standby
      = StandbySeq.none) ∧
    (∃ (s : State) (p : Port), s.m.clk.fallback = Fallback.none ∧ s.m.g.dev = DevState.configured ∧ s.m.clk.standby = StandbySeq.waiting ∧
      standbyReady s.m = true) ∧
    (∃ (s : State) (p : Port), s.m.clk.fallback = Fallback.none ∧ s.m.g.dev = DevState.configured ∧ s.m.clk.standby = StandbySeq.woken ∧
      standbyReady s.m = true ∧ s.m.aon.mains = true ∧ s.m.aon.resetN = true) ∧
    (∃ (s : State) (p : Port), s.m.clk.fallback = Fallback.none ∧ WriteOpen s.m p 32 ∧ inWork s.m = true) ∧
    (∃ (s : State) (p : Port) (hi : BitVec 28) (e : Env) (c : Instr), s.m.clk.fallback = Fallback.none ∧ c ∈ [Instr.glbStart p hi e,
      Instr.glbEnd p hi, Instr.glbStandby p hi, Instr.glbSafeHold p hi] ∧ WriteOpen s.m p 32 ∧ (fld hi 27 20 ≠ 166 ∨ fld hi 19 5 ≠ 0 ∨
      fld hi 3 0 ≠ 0)) :=
  ⟨⟨wAt wOn [fun m => { m with clk := { m.clk with fallback := .none, standby := .none }, g := { m.g with dev := .configured }, job := { m.job with queue := [] } }],
     .host, false, {}, by decide⟩,
   ⟨wAt wBuild [fun m => { m with clk := { m.clk with fallback := .none }, job := { m.job with st := .idle } }], .host, by decide⟩,
   ⟨wAt wBuild [fun m => { m with clk := { m.clk with fallback := .none }, job := { m.job with st := .exposing } }], .host, by decide⟩,
   ⟨wAt wOn [fun m => { m with clk := { m.clk with fallback := .none, standby := .none }, g := { m.g with dev := .configured } }], .host,
     by decide⟩,
   ⟨wAt wOn [fun m => { m with clk := { m.clk with fallback := .none, standby := .waiting }, g := { m.g with dev := .configured } }],
     .host, by decide⟩,
   ⟨wAt wOn [fun m => { m with clk := { m.clk with fallback := .none, standby := .woken }, g := { m.g with dev := .configured }, aon := { m.aon with mains := true, resetN := true } }],
     .host, by decide⟩,
   ⟨wAt wOn [fun m => { m with clk := { m.clk with fallback := .none } }], .host, by decide⟩,
   ⟨wAt wOn [fun m => { m with clk := { m.clk with fallback := .none } }], .host, 0, {}, (Instr.glbStart .host 0 {}), by decide⟩⟩

/-- The hypotheses of `Obligations.HostPresenceAndLink` are met, clause by clause. -/
theorem witness_HostPresenceAndLink :
    (∃ (s : State) (v : Word), WriteOpen s.m Port.mgmt 36) ∧
    (∃ (s : State) (v : Word), WriteOpen s.m Port.host 36 ∧ s.m.g.hostAbsent = false) ∧
    (∃ (s : State) (v : Word), WriteOpen s.m Port.host 36 ∧ s.m.g.hostAbsent = true) ∧
    (∃ (s : State), powered s.m = true ∧ s.m.g.dev ≠ DevState.shutdownLatched ∧ inBuild s.m = false) ∧
    (∃ (s : State), powered s.m = true ∧ inBuild s.m = true ∧ s.m.g.hostAbsent = false) ∧
    (∃ (s : State) (lost : List (Fin 4 × DmaIn)) (c : Instr), c ∈ [Instr.pcieLinkLoss lost, Instr.pcieHotReset lost, Instr.perstNAssert
      lost] ∧ s.m.g.linkUp = true) ∧
    (∃ (s : State) (b : PciCfg), powered s.m = true ∧ domainOn s.m 10 = true ∧ s.m.clk.fallback = Fallback.none ∧ s.m.g.resetHeld = false ∧
      s.m.g.dev ≠ DevState.shutdownLatched) ∧
    (∃ (s : State), s.m.g.linkUp = true ∧ s.m.g.d3hot = false ∧ inBuild s.m = false) ∧
    (∃ (s : State), s.m.g.d3hot = true) :=
  ⟨⟨wAt wOn [], 0, by decide⟩,
   ⟨wAt wOn [fun m => { m with g := { m.g with hostAbsent := false } }], 0, by decide⟩,
   ⟨wAt wOn [fun m => { m with g := { m.g with hostAbsent := true } }], 0, by decide⟩,
   ⟨wAt wOn [], by decide⟩,
   ⟨wAt wBuild [fun m => { m with g := { m.g with hostAbsent := false } }], by decide⟩,
   ⟨wAt wOn [fun m => { m with g := { m.g with linkUp := true } }], [], (Instr.pcieLinkLoss []), by decide⟩,
   ⟨wAt wOn [fun m => { m with clk := { m.clk with fallback := .none }, g := { m.g with resetHeld := false } }], {}, by decide⟩,
   ⟨wAt wOn [fun m => { m with g := { m.g with linkUp := true, d3hot := false } }], by decide⟩,
   ⟨wAt wOn [fun m => { m with g := { m.g with d3hot := true } }], by decide⟩⟩

/-- The hypotheses of `Obligations.MsixModeration` are met, clause by clause. -/
theorem witness_MsixModeration :
    (∃ s : State, ∃ v : Fin 64, ∃ c : Instr, ((c = .msixIntervalEnd v ∧ s.m.g.msix[v].mask = false) ∨ (c = .msixUnmask v ∧
      s.m.g.msix[v].interval = false ∧ WriteOpen s.m .host (0x2000 + 16 * v.val + 12))) ∧ msixLive s.m = true ∧ s.m.g.d3hot = false ∧
      s.m.g.msix[v].pend = true) ∧
    (∃ s : State, ∃ v : Fin 64, ∃ c : Instr, ((c = .msixIntervalEnd v ∧ s.m.g.msix[v].mask = false) ∨ (c = .msixUnmask v ∧
      s.m.g.msix[v].interval = false ∧ WriteOpen s.m .host (0x2000 + 16 * v.val + 12))) ∧ msixLive s.m = true ∧ s.m.g.d3hot = false ∧
      s.m.g.msix[v].pend = false) :=
  ⟨⟨wAt wOn [fun m => { m with g := { m.g with msix := Vector.replicate 64 { mask := false, pend := true } } }], 0, .msixIntervalEnd 0,
     by decide⟩,
   ⟨wAt wOn [], 63, .msixUnmask 63, by decide⟩⟩

/-- The hypotheses of `Obligations.WindowAccess` are met, clause by clause. -/
theorem witness_WindowAccess :
    (∃ (s : State) (off : BitVec 28) (bs : List Byte), bar2Live s.m = true ∧ s.m.mem.trained = true ∧ (inRegion s.m 0 (winBase s.m +
      off.toNat) bs.length = true ∨ inRegion s.m 6 (winBase s.m + off.toNat) bs.length = true) ∧ s.m.g.dev ≠ DevState.safeHold ∧ (guarded
      s.m).any (meets (winBase s.m + off.toNat) bs.length) = false ∧ Memory.wf s.m.mem) ∧
    (∃ (s : State) (off : BitVec 28) (bs : List Byte), bar2Live s.m = true ∧ (s.m.mem.trained = false ∨ (inRegion s.m 0 (winBase s.m +
      off.toNat) bs.length || inRegion s.m 6 (winBase s.m + off.toNat) bs.length) = false ∨ s.m.g.dev = DevState.safeHold ∨ (guarded
      s.m).any (meets (winBase s.m + off.toNat) bs.length) = true)) ∧
    (∃ (s : State) (off : BitVec 28) (n : Nat) (e : Ecc), bar2Live s.m = true ∧ s.m.mem.trained = true) ∧
    (∃ (s : State) (off : BitVec 28) (p : Port) (lo : Word) (hi : Word), WriteOpen s.m p 72 ∧ fld hi 0 0 * 2 ^ 32 + fld lo 31 20 * 2 ^ 20
      ≤ 7247757312) ∧
    (∃ (s : State) (off : BitVec 28) (p : Port) (lo : Word) (hi : Word), WriteOpen s.m p 72 ∧ 7247757312 < fld hi 0 0 * 2 ^ 32 + fld lo
      31 20 * 2 ^ 20) :=
  ⟨⟨wAt wOn [fun m => { m with mem := { m.mem with trained := true } }], 0, [], by decide⟩,
   ⟨wAt wOn [fun m => { m with mem := { m.mem with trained := false } }], 0, [], by decide⟩,
   ⟨wAt wOn [fun m => { m with mem := { m.mem with trained := true } }], 0, 0, {}, by decide⟩,
   ⟨wAt wOn [], 0, .host, 0, 0, by decide⟩,
   ⟨wAt wOn [], 0, .host, 4294967295, 1, by decide⟩⟩

/-- The hypotheses of `Obligations.DmaChannels` are met, clause by clause. -/
theorem witness_DmaChannels :
    (∃ (s : State) (p : Port) (n : Fin 4) (v : Word), WriteOpen s.m p (4108 + 256 * ↑n)) ∧
    (∃ (s : State) (p : Port) (n : Fin 4), WriteOpen s.m p (4116 + 256 * ↑n) ∧ s.m.g.dma[n].st ≠ DmaState.halted) ∧
    (∃ (s : State) (p : Port) (n : Fin 4), WriteOpen s.m p (4116 + 256 * ↑n) ∧ s.m.g.dma[n].st = DmaState.running) ∧
    (∃ (s : State) (p : Port) (n : Fin 4), WriteOpen s.m p (4116 + 256 * ↑n) ∧ s.m.g.dma[n].st = DmaState.halted) ∧
    (∃ (s : State) (p : Port) (n : Fin 4), WriteOpen s.m p (4116 + 256 * ↑n) ∧ s.m.g.dma[n].st = DmaState.halted ∧ s.m.g.dma[n].enable =
      true) ∧
    (∃ (s : State) (p : Port) (n : Fin 4), WriteOpen s.m p (4116 + 256 * ↑n) ∧ s.m.g.dma[n].st = DmaState.halted ∧ s.m.g.dma[n].enable =
      false ∧ s.m.g.dma[n].head ≠ s.m.g.dma[n].tail) ∧
    (∃ (s : State) (p : Port) (n : Fin 4) (lo : Word) (hi : Word), WriteOpen s.m p (4096 + 256 * ↑n) ∧ s.m.g.dma[n].enable = false) ∧
    (∃ (s : State) (p : Port) (n : Fin 4) (lo : BitVec 32) (hi : Word), WriteOpen s.m p (4104 + 256 * ↑n) ∧ s.m.g.dma[n].enable = false ∧
      4 ≤ fld lo 3 0 ∧ fld lo 3 0 ≤ 12) ∧
    (∃ (s : State) (p : Port) (n : Fin 4) (size : Bool) (lo : Word) (hi : Word), WriteOpen s.m p ((if size = true then 4104 else 4096) +
      256 * ↑n) ∧ s.m.g.dma[n].enable = true) ∧
    (∃ (s : State) (n : Fin 4) (x : DmaIn) (others : List (Fin 4 × DmaIn)), s.m.g.dma[n].busy = true ∧ s.m.g.linkUp = true) :=
  ⟨⟨wAt wOn [], .host, 0, 0, by decide⟩,
   ⟨wAt wOn [], .host, 0, by decide⟩,
   ⟨wAt wOn [fun m => { m with g := { m.g with dma := (Vector.replicate _ { st := .running }) } }], .host, 0, by decide⟩,
   ⟨wAt wOn [fun m => { m with g := { m.g with dma := (Vector.replicate _ { st := .halted }) } }], .host, 0, by decide⟩,
   ⟨wAt wOn [fun m => { m with g := { m.g with dma := (Vector.replicate _ { st := .halted, enable := true }) } }], .host, 0, by decide⟩,
   ⟨wAt wOn [fun m => { m with g := { m.g with dma := Vector.replicate 4 { st := .halted, tail := 1 } } }], .host, 0, by decide⟩,
   ⟨wAt wOn [fun m => { m with g := { m.g with dma := (Vector.replicate _ { enable := false }) } }], .host, 0, 0, 0, by decide⟩,
   ⟨wAt wOn [fun m => { m with g := { m.g with dma := (Vector.replicate _ { enable := false }) } }], .host, 0, 8, 0, by decide⟩,
   ⟨wAt wOn [fun m => { m with g := { m.g with dma := Vector.replicate 4 { enable := true } } }], .host, 0, false, 0, 0, by decide⟩,
   ⟨wAt wOn [fun m => { m with g := { m.g with dma := Vector.replicate 4 { st := .running, enable := true, tail := 1 } } }], 0, { host := 0, layer := 0, len := 16, ctl := 3 },
     [], by decide⟩⟩

/-- The hypotheses of `Obligations.SqcOccurrence` are met, clause by clause. -/
theorem witness_SqcOccurrence :
    (∃ (m : Mach) (e : EvReg) (bit : Nat), bit < 24) ∧
    (∃ (m : Mach) (e : EvReg) (bit : Nat) (k : Nat), bit < 24 ∧ k < 24 ∧ k ≠ bit) ∧
    (∃ (m : Mach) (e : EvReg) (bit : Nat) (off : Nat), bit < 24 ∧ off ≠ e.off) :=
  ⟨⟨(wAt wOn []).m, .glb, 0, by decide⟩,
   ⟨(wAt wOn []).m, .glb, 0, 1, by decide⟩,
   ⟨(wAt wOn []).m, .glb, 0, 0, by decide⟩⟩

/-- The hypotheses of `Obligations.SqcClearLosesNothing` are met, clause by clause. -/
theorem witness_SqcClearLosesNothing :
    ∃ (s : State) (p : Port) (e : EvReg) (v : Word), Regs.wf s.m.regs ∧ WriteOpen s.m p e.off :=
  ⟨wAt wOn [], .host, .glb, 0, by decide⟩

/-- The hypotheses of `Obligations.RegisterWrites` are met, clause by clause. -/
theorem witness_RegisterWrites :
    (∃ (s : State) (p : Port) (v : Word) (env : Env), Regs.wf s.m.regs ∧ (s.m.g.locked.any fun x => decide (x.fst = 44)) = false ∧
      WriteOpen s.m p 44) ∧
    (∃ (s : State) (p : Port) (v : Word) (env : Env) (e : EvReg), Regs.wf s.m.regs ∧ s.m.g.locked = [] ∧ WriteOpen s.m p e.en) ∧
    (∃ (s : State) (p : Port) (v : Word) (env : Env) (off : BitVec 24) (be : BitVec 4), be ≠ 15#4 ∧ reaches s.m p = true) ∧
    (∃ (s : State) (p : Port) (v : Word) (env : Env) (off : BitVec 24), 1179648 ≤ off.toNat ∧ off.toNat < 2097152 ∧ reaches s.m p = true ∧
      (s.m.g.port p).wr = none ∧ s.m.g.locked = []) ∧
    (∃ (s : State) (p : Port) (v : Word) (env : Env) (off : BitVec 24) (r : RegRow), regRow off.toNat = some r ∧ Regs.wf s.m.regs ∧
      WriteOpen s.m p off.toNat ∧ (s.m.g.locked.any fun x => decide (x.fst = off.toNat)) = false) ∧
    (∃ (s : State) (p : Port) (v : Word) (env : Env) (off : BitVec 24) (r : RegRow), regRow off.toNat = some r ∧ WriteOpen s.m p
      off.toNat ∧ (s.m.g.locked.any fun x => decide (x.fst = off.toNat)) = true) :=
  ⟨⟨wAt wOn [], .host, 0, {}, by decide⟩,
   ⟨wAt wOn [fun m => { m with g := { m.g with locked := [] } }], .host, 0, {}, .glb, by decide⟩,
   ⟨wAt wOn [], .host, 0, {}, 0, 0, by decide⟩,
   ⟨wAt wOn [fun m => { m with g := { m.g with host := { m.g.host with wr := none }, locked := [] } }], .host, 0, {}, 0x120000, by
     decide⟩,
   ⟨wAt wOn [], .host, 0, {}, 44, _, rfl, by decide⟩,
   ⟨wAt wOn [fun m => { m with g := { m.g with locked := [(44, 0)] } }], .host, 0, {}, 44, _, rfl, by decide⟩⟩

/-- The hypotheses of `Obligations.PairAccess` are met, clause by clause. -/
theorem witness_PairAccess :
    (∃ (s : State) (p : Port) (off : BitVec 24), reaches s.m p = true ∧ answers s.m off.toNat = true ∧ isPair off.toNat = true) ∧
    (∃ (s : State) (p : Port) (off : BitVec 24), reaches s.m p = true ∧ answers s.m off.toNat = true ∧ isPair off.toNat = true) ∧
    (∃ (s : State) (p : Port) (off : BitVec 24) (w : Word), reaches s.m p = true ∧ answers s.m off.toNat = true ∧ isPairHigh off.toNat =
      true ∧ (s.m.g.port p).rd = some (off.toNat - 4, w)) ∧
    (∃ (s : State) (p : Port) (off : BitVec 24), reaches s.m p = true ∧ answers s.m off.toNat = true ∧ isPairHigh off.toNat = true ∧
      (s.m.g.port p).rd = none) ∧
    (∃ (s : State) (p : Port) (off : BitVec 24) (v : Word), reaches s.m p = true ∧ answers s.m off.toNat = true ∧ (s.m.g.port p).wr =
      none) ∧
    (∃ (s : State) (p : Port) (off : BitVec 24) (v : Word) (w : Word) (o : Nat), reaches s.m p = true ∧ answers s.m off.toNat = true ∧
      (s.m.g.port p).wr = some (o, w) ∧ o ≠ off.toNat) ∧
    (∃ (s : State) (p : Port) (off : BitVec 24) (lo : Word) (hi : Word), reaches s.m p = true ∧ answers s.m off.toNat = true ∧ answers
      s.m 76 = true ∧ (s.m.g.port p).wr = some (72, lo) ∧ fld hi 0 0 * 2 ^ 32 + fld lo 31 20 * 2 ^ 20 ≤ 7247757312) ∧
    (∃ (s : State) (p : Port) (off : BitVec 24) (hi : Word), reaches s.m p = true ∧ answers s.m off.toNat = true ∧ answers s.m 76 = true ∧
      (s.m.g.port p).wr = none ∧ fld hi 0 0 * 2 ^ 32 + fld s.m.g.winLo 31 20 * 2 ^ 20 ≤ 7247757312) ∧
    (∃ (s : State) (p : Port) (off : BitVec 24) (v : BitVec 64) (env : Env), reaches s.m p = true ∧ answers s.m off.toNat = true ∧
      answers s.m 72 = true ∧ (s.m.g.port p).wr = none ∧ fld v 32 32 * 2 ^ 32 + fld v 31 20 * 2 ^ 20 ≤ 7247757312) :=
  ⟨⟨wAt wOn [], .host, 8, by decide⟩,
   ⟨wAt wOn [], .host, 72, by decide⟩,
   ⟨wAt wOn [fun m => { m with g := { m.g with host := { m.g.host with rd := some (72, 1) } } }], .host, 76, 1, by decide⟩,
   ⟨wAt wOn [fun m => { m with g := { m.g with host := { m.g.host with rd := none } } }], .host, 76, by decide⟩,
   ⟨wAt wOn [fun m => { m with g := { m.g with host := { m.g.host with wr := none } } }], .host, 0, 0, by decide⟩,
   ⟨wAt wOn [fun m => { m with g := { m.g with host := { m.g.host with wr := some (0x10214, 0) } } }], .host, 72, 0, 0, 0x10214, by
     decide⟩,
   ⟨wAt wOn [fun m => { m with g := { m.g with host := { m.g.host with wr := some (72, 0xFFF00000) } } }], .host, 76, 0xFFF00000, 0, by
     decide⟩,
   ⟨wAt wOn [fun m => { m with g := { m.g with host := { m.g.host with wr := none } } }], .host, 0, 0, by decide⟩,
   ⟨wAt wOn [fun m => { m with g := { m.g with host := { m.g.host with wr := none } } }], .host, 0, 0, {}, by decide⟩⟩

/-- The hypotheses of `Obligations.TelemetryAndInputs` are met, clause by clause. -/
theorem witness_TelemetryAndInputs :
    (∃ (s : State), logAlive s.m = true ∧ netLive s.m = true ∧ recFld s.m recMgtNet 2 31 16 ≠ 0 ∧ recWord s.m recMgtNet 1 ≠ 0) ∧
    (∃ (s : State) (i : Fin 16) (raw : BitVec 12), chamberOn s.m = true) ∧
    (∃ (s : State) (levels : BitVec 32), chamberOn s.m = true) :=
  ⟨⟨wAt wOn [wRec recMgtNet 1 1, wRec recMgtNet 2 0x10000, wRec recMgtNet 3 1], by decide⟩,
   ⟨wAt wOn [], 0, 0, by decide⟩,
   ⟨wAt wOn [], 0, by decide⟩⟩

/-- The hypotheses of `Obligations.RecordsStagedAndCommitted` are met, clause by clause. -/
theorem witness_RecordsStagedAndCommitted :
    (∃ (s : State) (p : Port) (v : Word), WriteOpen s.m p 65792) ∧
    (∃ (s : State) (p : Port) (v : Word) (i : BitVec 8), WriteOpen s.m p (66560 + 4 * i.toNat)) ∧
    (∃ (s : State) (p : Port) (id : BitVec 16) (info : RecInfo), recInfo id.toNat = some info ∧ WriteOpen s.m p 65796 ∧ s.m.g.dev ≠
      DevState.boot ∧ fld (s.m.g.port p).recSel 15 0 = id.toNat ∧ info.cls ≠ RecClass.static ∧ quoined s.m id.toNat = false ∧ recFirstBad
      s.m id.toNat info (s.m.g.port p).recBuf = none ∧ pendingOf s.m id.toNat = none ∧ commitWaits s.m id.toNat info = true) ∧
    (∃ (s : State) (p : Port) (id : BitVec 16) (info : RecInfo), recInfo id.toNat = some info ∧ WriteOpen s.m p 65796 ∧ s.m.g.dev ≠
      DevState.boot ∧ fld (s.m.g.port p).recSel 15 0 = id.toNat ∧ info.cls ≠ RecClass.static ∧ quoined s.m id.toNat = false ∧ recFirstBad
      s.m id.toNat info (s.m.g.port p).recBuf = none ∧ pendingOf s.m id.toNat = none ∧ commitWaits s.m id.toNat info = false) ∧
    (∃ (s : State) (p : Port) (id : BitVec 16) (info : RecInfo), recInfo id.toNat = some info ∧ WriteOpen s.m p 65796 ∧ fld (s.m.g.port
      p).recSel 15 0 = id.toNat ∧ (info.cls = RecClass.static ∨ s.m.g.dev ≠ DevState.boot ∧ quoined s.m id.toNat = true)) ∧
    (∃ (s : State) (p : Port) (id : BitVec 16) (info : RecInfo), recInfo id.toNat = some info ∧ ∃ (v : BitVec 32), WriteOpen s.m p 65796 ∧
      (fld v 31 24 ≠ 92 ∨ fld v 23 16 ≠ 0 ∨ fld v 15 0 ≠ fld (s.m.g.port p).recSel 15 0)) ∧
    (∃ (s : State) (p : Port) (id : BitVec 16) (info : RecInfo), recInfo id.toNat = some info ∧ ∃ (r : PendRec), pendingOf s.m id.toNat =
      some r ∧ r.id = id ∧ (info.cls ≠ RecClass.layer ∨ s.m.boot.layerOn = false) ∧ isCoef id.toNat = false ∧ (info.cls ≠ RecClass.live ∨
      sameSys r.at_ (now s.m) = false)) :=
  ⟨⟨wAt wOn [], .host, 0, by decide⟩,
   ⟨wAt wOn [], .host, 0, 0, by decide⟩,
   ⟨wAt wOn [fun m => { m with boot := { m.boot with layerOn := true }, g := { m.g with host := { m.g.host with recSel := 0x4401, recBuf := [0] } } }],
     .host, 0x4401, _, rfl, by decide⟩,
   ⟨wAt wOn [fun m => { m with g := { m.g with host := { m.g.host with recSel := 0x0C01, recBuf := recDefault 0x0C01 } } }], .host,
     0x0C01, _, rfl, by decide⟩,
   ⟨wAt wOn [fun m => { m with boot := { m.boot with quoinAll := true }, g := { m.g with host := { m.g.host with recSel := 0x0C01 } } }],
     .host, 0x0C01, _, rfl, by decide⟩,
   ⟨wAt wOn [], .host, 0, _, rfl, 0, by decide⟩,
   ⟨wAt wOn [fun m => { m with boot := { m.boot with recPend := [⟨0x4401, recDefault 0x4401, .host, 0, none⟩] } }], .host, 0x4401, _,
     rfl, _, rfl, by decide⟩⟩

/-- The hypotheses of `Obligations.BootCommands` are met, clause by clause. -/
theorem witness_BootCommands :
    (∃ (s : State) (p : Port), WriteOpen s.m p 65600 ∧ inWork s.m = true ∧ (s.m.aon.standing !s.m.boot.bank).writing = false ∧ otherOk
      s.m = true) ∧
    (∃ (s : State) (p : Port) (x : Bool), WriteOpen s.m p 65600 ∧ s.m.boot.attempt = false ∧ (s.m.aon.standing x).writing = false) ∧
    (∃ (s : State) (p : Port), WriteOpen s.m p 65600 ∧ s.m.g.dev = DevState.configured ∧ s.m.boot.floorOk = true ∧ versionFloor s.m <
      BitVec.toNat s.m.boot.ver ∧ s.m.boot.floorWords.length < 16) ∧
    (∃ (s : State) (p : Port) (k : Fin 4), WriteOpen s.m p 65600 ∧ s.m.g.dev = DevState.configured ∧ (∀ (f : Fuse), s.m.boot.revFuse =
      some f → f.good = true)) ∧
    (∃ (s : State) (p : Port) (hi : BitVec 28) (c : Instr), WriteOpen s.m p 65600 ∧ c ∈ [Instr.rollback p hi, Instr.reinstate p hi,
      Instr.raiseFloor p hi, Instr.revokeSlot p hi] ∧ (fld hi 27 20 ≠ 183 ∨ fld hi 11 0 ≠ 0)) ∧
    (∃ (s : State) (p : Port) (id : BitVec 16), WriteOpen s.m p 65808 ∧ id ≠ 65535 ∧ (recInfo id.toNat).isSome = true ∧
      (s.m.boot.quoins.any fun q => decide (q.toNat = id.toNat)) = false ∧ s.m.boot.quoins.length < 256) ∧
    (∃ (s : State) (p : Port), WriteOpen s.m p 65808) ∧
    (∃ (s : State) (p : Port) (v : BitVec 32), WriteOpen s.m p 65808 ∧ (fld v 31 24 ≠ 154 ∨ fld v 23 16 ≠ 0)) :=
  ⟨⟨wAt wOn [fun m => { m with boot := { m.boot with bankB := { state := 0 } } }], .host, by decide⟩,
   ⟨wAt wOn [fun m => { m with boot := { m.boot with attempt := false } }], .host, false, by decide⟩,
   ⟨wAt wOn [fun m => { m with boot := { m.boot with floorOk := true, ver := 1 } }], .host, by decide⟩,
   ⟨wAt wOn [fun m => { m with g := { m.g with dev := .configured } }], .host, 0, by decide⟩,
   ⟨wAt wOn [], .host, 0, (Instr.rollback .host 0), by decide⟩,
   ⟨wAt wOn [], .host, 0, by decide⟩,
   ⟨wAt wOn [], .host, by decide⟩,
   ⟨wAt wOn [], .host, 0, by decide⟩⟩

/-- The hypotheses of `Obligations.SectionReload` are met, clause by clause. -/
theorem witness_SectionReload :
    (∃ (s : State) (p : Port) (h : Fin 12) (mode : Bool), WriteOpen s.m p 66048 ∧ inWork s.m = true ∧ updBusy s.m = false ∧
      s.m.boot.rlState = ReloadState.idle ∧ (s.m.boot.getBank !s.m.boot.bank).state = 0 ∧ hdr (inactiveReader s.m) 16 4 = BitVec.toNat
      s.m.boot.ver ∧ (inactiveEntry s.m 3 ↑h).isSome = true ∧ reloadNeedsReset s.m ↑h = false) ∧
    (∃ (s : State) (p : Port) (h : Fin 12), WriteOpen s.m p 66048 ∧ inWork s.m = true ∧ (updBusy s.m = true ∨ s.m.boot.rlState ≠
      ReloadState.idle)) ∧
    (∃ (s : State) (p : Port) (v : Word), WriteOpen s.m p 66048 ∧ (fld v 31 24 ≠ 62 ∨ fld v 23 18 ≠ 0 ∨ fld v 15 13 ≠ 0 ∨ fld v 11 4 ≠ 0
      ∨ fld v 17 16 = 0 ∨ 12 ≤ fld v 3 0)) ∧
    (∃ (s : State) (ss : List Section), List.mapM (loadSection (inactiveReader s.m)) (List.filterMap (fun ty => inactiveEntry s.m ty
      s.m.boot.rlHead.toNat) (reloadTypes s.m.boot.rlWhat.toNat)) = some ss ∧ s.m.boot.rlState = ReloadState.loading ∧ reloadNow s.m =
      false) ∧
    (∃ (s : State), s.m.boot.rlState = ReloadState.armed ∧ s.m.boot.rlMode = true ∧ s.m.imp.beams[reloadBeam s.m].cur = none) :=
  ⟨⟨wAt wBeam [fun m => { m with boot := { m.boot with ver := 0xFFFFFFFF, bankB := { state := 0, cells := [(6, 1), (7, 0), (256, 3), (257, 0), (258, 0), (259, 0)] } } }],
     .host, 0, false, by decide⟩,
   ⟨wAt wOn [fun m => { m with boot := { m.boot with rlState := .loading } }], .host, 0, by decide⟩,
   ⟨wAt wBeam [fun m => { m with boot := { m.boot with rlState := .loading, bankB := { cells := [(6, 0), (7, 0)] } } }], .host, 0, by
     decide⟩,
   ⟨wAt wBeam [fun m => { m with boot := { m.boot with rlState := .loading } }], _, rfl, by decide⟩,
   ⟨wAt wOn [fun m => { m with boot := { m.boot with rlState := .armed, rlMode := true }, imp := { m.imp with beams := (Vector.replicate _ { cur := none }) } }],
     by decide⟩⟩

/-- The hypotheses of `Obligations.BankUpdate` are met, clause by clause. -/
theorem witness_BankUpdate :
    (∃ (s : State) (p : Port), WriteOpen s.m p 66076 ∧ updAllowed s.m = true ∧ updBusy s.m = false ∧ s.m.boot.rlState = ReloadState.idle ∧
      256 ≤ fld s.m.boot.updLen 25 0 ∧ fld s.m.boot.updLen 25 0 ≤ 50331648 ∧ (inRegion s.m 0 (updSrc s.m) (fld s.m.boot.updLen 25 0) ||
      inRegion s.m 6 (updSrc s.m) (fld s.m.boot.updLen 25 0)) = true ∧ s.m.boot.phase ≠ Phase.halted) ∧
    (∃ (s : State) (p : Port), WriteOpen s.m p 66076 ∧ updBusy s.m = true) ∧
    (∃ (s : State) (p : Port) (hi : BitVec 30) (c : Instr), c ∈ [Instr.updateWrite p hi, Instr.updateCancel p hi] ∧ WriteOpen s.m p 66076 ∧
      (fld hi 29 22 ≠ 212 ∨ fld hi 21 7 ≠ 0 ∨ fld hi 5 0 ≠ 0)) ∧
    (∃ (s : State) (ok : Bool), s.m.boot.updStage = UpdStage.checking) ∧
    (∃ (s : State), s.m.boot.updStage = UpdStage.erasing) ∧
    (∃ (s : State), s.m.boot.updStage = UpdStage.programming) ∧
    (∃ (s : State), (s.m.boot.updStage = UpdStage.erasing ∨ s.m.boot.updStage = UpdStage.programming ∨ s.m.boot.updStage =
      UpdStage.verifying)) ∧
    (∃ (s : State), s.m.boot.updStage = UpdStage.verifying ∧ bankReader (s.m.boot.getBank s.m.boot.updTarget) 0 (fld s.m.boot.updLen 25
      0) = memBytes s.m (updSrc s.m) (fld s.m.boot.updLen 25 0)) ∧
    (∃ (s : State), (s.m.boot.updStage = UpdStage.erasing ∨ s.m.boot.updStage = UpdStage.verifying) ∧ s.m.boot.updSectors.toNat <
      updSectorCount s.m) :=
  ⟨⟨wAt wOn [fun m => { m with boot := { m.boot with updLen := 256 } }], .host, by decide⟩,
   ⟨wAt wOn [fun m => { m with boot := { m.boot with updStage := .checking } }], .host, by decide⟩,
   ⟨wAt wOn [], .host, 0, (Instr.updateWrite .host 0), by decide⟩,
   ⟨wAt wOn [fun m => { m with boot := { m.boot with updStage := .checking } }], false, by decide⟩,
   ⟨wAt wOn [fun m => { m with boot := { m.boot with updStage := .erasing } }], by decide⟩,
   ⟨wAt wOn [fun m => { m with boot := { m.boot with updStage := .programming } }], by decide⟩,
   ⟨wAt wOn [fun m => { m with boot := { m.boot with updStage := .erasing } }], by decide⟩,
   ⟨wAt wOn [fun m => { m with boot := { m.boot with updStage := .verifying } }], by decide⟩,
   ⟨wAt wOn [fun m => { m with boot := { m.boot with updStage := .erasing, updLen := 256 } }], by decide⟩⟩

/-- The hypotheses of `Obligations.BootPhases` are met, clause by clause. -/
theorem witness_BootPhases :
    (∃ (s : State) (ok : Bool), powered s.m = true ∧ s.m.g.resetHeld = false ∧ s.m.clk.refQual = false ∧ s.m.clk.fallback = Fallback.none ∧
      s.m.g.dev = DevState.boot ∧ s.m.boot.phase = Phase.rom ∧ s.m.g.bootWarm = false) ∧
    (∃ (s : State), s.m.g.dev = DevState.boot ∧ s.m.boot.phase = Phase.rom ∧ s.m.clk.refQual = false ∧ s.m.g.resetHeld = false) ∧
    (∃ (s : State) (rd0 : Byte) (wr0 : Byte) (rd1 : Byte) (wr1 : Byte) (crcOk : Bool), s.m.mem.ch0.st = ChState.training ∧ powered s.m =
      true ∧ s.m.g.resetHeld = false ∧ mgmtRuns s.m = true ∧ s.m.g.bootWarm = false) ∧
    (∃ (s : State) (rd0 : Byte) (wr0 : Byte) (rd1 : Byte) (wr1 : Byte) (k : Preserved), s.m.keep = some k ∧ s.m.mem.ch0.st =
      ChState.training ∧ powered s.m = true ∧ s.m.g.resetHeld = false ∧ mgmtRuns s.m = true ∧ s.m.g.bootWarm = true ∧ s.m.aon.retValid =
      true ∧ k.marker = s.m.aon.marker) ∧
    (∃ (s : State) (ok0 : Bool) (ok1 : Bool) (rd0 : Byte) (wr0 : Byte) (rd1 : Byte) (wr1 : Byte) (crcOk : Bool), (ok0 && ok1) = false ∧
      s.m.mem.ch0.st = ChState.training ∧ powered s.m = true ∧ s.m.g.resetHeld = false ∧ mgmtRuns s.m = true ∧ s.m.boot.attempt = true ∧
      s.m.g.dev = DevState.boot) ∧
    (∃ (s : State), s.m.mem.sweeping = true) ∧
    (∃ (s : State) (c : Instr) (cause : BitVec 4), (c = Instr.bootAttemptFail cause ∧ cause ≠ 9 ∨ c = Instr.bootWatchdogExpire ∧ cause =
      10) ∧ s.m.boot.attempt = true ∧ s.m.g.dev = DevState.boot ∧ s.m.mem.trained = true ∧ domainOn s.m 7 = true) ∧
    (∃ (s : State), s.m.g.dev = DevState.boot ∧ s.m.g.resetHeld = false ∧ s.m.boot.phase ≠ Phase.halted) :=
  ⟨⟨wAt wOn [fun m => { m with g := { m.g with resetHeld := false, dev := .boot, bootWarm := false }, clk := { m.clk with refQual := false, fallback := .none }, boot := { m.boot with phase := .rom } }],
     false, by decide⟩,
   ⟨wAt wOn [fun m => { m with g := { m.g with dev := .boot, resetHeld := false }, boot := { m.boot with phase := .rom }, clk := { m.clk with refQual := false } }],
     by decide⟩,
   ⟨wAt wOn [fun m => { m with mem := { m.mem with ch0 := { m.mem.ch0 with st := .training } }, g := { m.g with resetHeld := false, bootWarm := false } }],
     0, 0, 0, 0, false, by decide⟩,
   ⟨wAt wOn [fun m => { m with g := { m.g with dev := .boot, bootWarm := true }, aon := { m.aon with retValid := true }, mem := { m.mem with ch0 := { st := .training } }, keep := some wKeep }],
     0, 0, 0, 0, _, rfl, by decide⟩,
   ⟨wAt wOn [fun m => { m with mem := { m.mem with ch0 := { m.mem.ch0 with st := .training } }, g := { m.g with resetHeld := false, dev := .boot }, boot := { m.boot with attempt := true } }],
     false, false, 0, 0, 0, 0, false, by decide⟩,
   ⟨wAt wOn [fun m => { m with mem := { m.mem with sweeping := true } }], by decide⟩,
   ⟨wAt wOn [fun m => { m with g := { m.g with dev := .boot }, boot := { m.boot with attempt := true } }], .bootWatchdogExpire, 10, by
     decide⟩,
   ⟨wAt wOn [fun m => { m with g := { m.g with dev := .boot, resetHeld := false } }], by decide⟩⟩

/-- The hypotheses of `Obligations.BootCompletes` are met, clause by clause. -/
theorem witness_BootCompletes :
    (∃ (s : State) (failed : List (Fin 128)) (m1 : Mach) (l : List (Nat × List Word)), s.m.boot.attempt = true ∧ s.m.g.dev = .boot ∧ s.m.boot.phase = .load ∧
      s.m.mem.trained = true ∧ s.m.g.resetHeld = false ∧ s.m.mem.preserved = false ∧ loadIngot s.m = some m1 ∧
      recEntries ((secBytes m1 6 0xFFFF).length + 1) (secBytes m1 6 0xFFFF) = some l ∧ configOk (failed.map (·.val)) l (recordsApply l m1) = true) ∧
    (∃ s : State, s.m.boot.attempt = true ∧ s.m.g.dev = .boot ∧ s.m.boot.phase = .load ∧
      s.m.mem.trained = true ∧ s.m.g.resetHeld = false ∧ s.m.mem.preserved = false ∧ loadIngot s.m = none) ∧
    (∃ (s : State) (m1 : Mach), s.m.boot.attempt = true ∧ s.m.g.dev = .boot ∧ s.m.boot.phase = .load ∧
      s.m.mem.trained = true ∧ s.m.g.resetHeld = false ∧ s.m.mem.preserved = false ∧ loadIngot s.m = some m1 ∧
      recEntries ((secBytes m1 6 0xFFFF).length + 1) (secBytes m1 6 0xFFFF) = none) ∧
    (∃ (s : State) (failed : List (Fin 128)) (m1 : Mach) (l : List (Nat × List Word)), s.m.boot.attempt = true ∧ s.m.g.dev = .boot ∧ s.m.boot.phase = .load ∧
      s.m.mem.trained = true ∧ s.m.g.resetHeld = false ∧ s.m.mem.preserved = false ∧ loadIngot s.m = some m1 ∧
      recEntries ((secBytes m1 6 0xFFFF).length + 1) (secBytes m1 6 0xFFFF) = some l ∧ configOk (failed.map (·.val)) l (recordsApply l m1) = false) := by
  have e : loadSections (bankReader ((wLoad wGood).m.boot.getBank (wLoad wGood).m.boot.bank)) = some wLoaded := load_good
  have r6 : bankReader { cells := wOne 6 0 [0, 0, 9, 0] } 512 4 = [0, 0, 9, 0] := reads _ [] 512 _ (by decide)
  have r9 : bankReader { cells := wOne 9 1 [0] } 512 1 = [0] := reads _ [] 512 _ (by decide)
  have e6 : loadSections (bankReader ((wLoad (wOne 6 0 [0, 0, 9, 0])).m.boot.getBank (wLoad (wOne 6 0 [0, 0, 9, 0])).m.boot.bank)) =
      some [⟨6, 0xFFFF, [0, 0, 9, 0]⟩] := by
    have t : secTable (bankReader { cells := wOne 6 0 [0, 0, 9, 0] }) = [⟨6, 0xFFFF, 512, 4, zeros (bankReader { cells := wOne 6 0 [0, 0, 9, 0] }) 268 20,
      beNat (leBytes 32 ((Config.sha256 [0, 0, 9, 0]).toNat + 0)).reverse⟩] := rfl
    show loadSections (bankReader { cells := wOne 6 0 [0, 0, 9, 0] }) = _
    rw [loadSections, t, List.mapM_cons, load_one _ _ _ _ _ _ _ r6]
    rfl
  have e9 : loadSections (bankReader ((wLoad (wOne 9 1 [0])).m.boot.getBank (wLoad (wOne 9 1 [0])).m.boot.bank)) = none := by
    have t : secTable (bankReader { cells := wOne 9 1 [0] }) = [⟨9, 0xFFFF, 512, 1, zeros (bankReader { cells := wOne 9 1 [0] }) 268 20,
      beNat (leBytes 32 ((Config.sha256 [0]).toNat + 1)).reverse⟩] := rfl
    have n : loadSection (bankReader { cells := wOne 9 1 [0] }) ⟨9, 0xFFFF, 512, 1, zeros (bankReader { cells := wOne 9 1 [0] }) 268 20,
        beNat (leBytes 32 ((Config.sha256 [0]).toNat + 1)).reverse⟩ = none := by
      have := (Config.sha256 [0]).isLt
      simp only [loadSection, r9, beNat_digest]
      rw [if_neg (by omega)]
    show loadSections (bankReader { cells := wOne 9 1 [0] }) = _
    rw [loadSections, t, List.mapM_cons, n]
    rfl
  refine ⟨⟨wLoad wGood, [], _, [], rfl, rfl, rfl, rfl, rfl, rfl, by rw [loadIngot, e]; rfl, rfl, by decide⟩,
    ⟨wLoad (wOne 9 1 [0]), rfl, rfl, rfl, rfl, rfl, rfl, by rw [loadIngot, e9]; rfl⟩,
    ⟨wLoad (wOne 6 0 [0, 0, 9, 0]), _, rfl, rfl, rfl, rfl, rfl, rfl, by rw [loadIngot, e6]; rfl, by decide⟩,
    ⟨wLoad wGood, List.finRange 128, _, [], rfl, rfl, rfl, rfl, rfl, rfl, by rw [loadIngot, e]; rfl, rfl, by decide⟩⟩

/-- The hypotheses of `Obligations.FormeCommit` are met, clause by clause. -/
theorem witness_FormeCommit :
    (∃ (s : State) (p : Port) (env : Env) (front : Bool) (i : Fin 64), List.find? (fun i => decide (s.m.job.slots[i].st =
      SlotState.free)) (List.finRange 64) = some i ∧ WriteOpen s.m p 131112 ∧ commitFirst ({ s.m with env := env }) = none) ∧
    (∃ (s : State) (p : Port) (env : Env) (c : Nat) (o : Option Nat), WriteOpen s.m p 131112 ∧ commitFirst ({ s.m with env := env }) =
      some (c, o)) ∧
    (∃ (s : State) (p : Port) (env : Env) (v : BitVec 32), WriteOpen s.m p 131112 ∧ fld v 31 24 ≠ 108) ∧
    (∃ (s : State) (i : Fin 64), checkingSlot s.m = some i ∧ ∃ (env : Env), bitOf s.m.clk.gateClosed 13 = false ∧ s.m.job.st ≠
      JobState.idle ∧ inRegion s.m 0 s.m.job.slots[i].addr s.m.job.slots[i].len = true ∧ overlaps s.m (some i) s.m.job.slots[i].addr
      s.m.job.slots[i].len = false ∧ dmaBusy ({ s.m with env := env }) s.m.job.slots[i].addr s.m.job.slots[i].len = false ∧ formeFail
      (memRead 2 s.m.job.slots[i].addr s.m.job.slots[i].len env.ecc ({ s.m with env := env })) s.m.job.slots[i].addr (formeBad s.m
      s.m.job.slots[i].addr env.ecc) = none) ∧
    (∃ (s : State) (i : Fin 64), checkingSlot s.m = some i ∧ ∃ (env : Env) (x : Nat × Nat), formeFail (memRead 2 s.m.job.slots[i].addr
      s.m.job.slots[i].len env.ecc ({ s.m with env := env })) s.m.job.slots[i].addr (formeBad s.m s.m.job.slots[i].addr env.ecc) = some x ∧
      bitOf s.m.clk.gateClosed 13 = false ∧ s.m.job.st ≠ JobState.idle ∧ inRegion s.m 0 s.m.job.slots[i].addr s.m.job.slots[i].len = true ∧
      overlaps s.m (some i) s.m.job.slots[i].addr s.m.job.slots[i].len = false ∧ dmaBusy ({ s.m with env := env }) s.m.job.slots[i].addr
      s.m.job.slots[i].len = false) :=
  ⟨⟨wAt wOn [fun m => { m with mem := { m.mem with cells := [(0, 0x46), (1, 0x4F), (2, 0x52), (3, 0x4D), (4, 1), (17, 0x20), (21, 0x20), (37, 0x10), (41, 0x10)] } }],
     .host, {}, false, 0, by decide⟩,
   ⟨wAt wOn [fun m => { m with job := { m.job with commitHi := 1 } }], .host, {}, 0x12, none, by decide⟩,
   ⟨wAt wOn [], .host, {}, 0, by decide⟩,
   ⟨wAt wBuild [fun m => { m with job := { m.job with st := .finished, slots := m.job.slots.set 0 { st := .checking, len := 8192 } }, mem := { m.mem with cells := [(20, 0x20), (28, 0x55), (29, 0x8E), (30, 0x3B), (31, 0x01)] } }],
     0, by decide, {}, by decide⟩,
   ⟨wAt wBuild [fun m => { m with job := { m.job with st := .finished, slots := m.job.slots.set 0 { st := .checking, len := 8192 } }, mem := { m.mem with cells := [(24, 1)] } }],
     0, by decide, {}, (0x21, 24), by decide⟩⟩

/-- The hypotheses of `Obligations.JobHalts` are met, clause by clause. -/
theorem witness_JobHalts :
    (∃ (s : State) (p : Port), WriteOpen s.m p 131088 ∧ inBuild s.m = true ∧ s.m.job.st = JobState.makeReady) ∧
    (∃ (s : State) (p : Port), WriteOpen s.m p 131088 ∧ inBuild s.m = true ∧ s.m.job.st = JobState.exposing ∧ anyCurrent s.m = true) ∧
    (∃ (s : State) (p : Port), WriteOpen s.m p 131088 ∧ inBuild s.m = true ∧ s.m.job.st = JobState.exposing ∧ anyCurrent s.m = false) ∧
    (∃ (s : State) (p : Port), WriteOpen s.m p 131088 ∧ inBuild s.m = true ∧ s.m.job.st = JobState.makeReady ∧ s.m.job.imageScene = none) ∧
    (∃ (s : State) (p : Port), WriteOpen s.m p 131088 ∧ inBuild s.m = true ∧ s.m.job.st = JobState.exposing) ∧
    (∃ (s : State) (p : Port), WriteOpen s.m p 131088 ∧ inBuild s.m = true ∧ (s.m.job.st = JobState.makeReady ∨ s.m.job.st =
      JobState.exposing ∨ s.m.job.st = JobState.paused ∨ s.m.job.st = JobState.stopped ∨ s.m.job.st = JobState.idle) ∧ s.m.job.imageScene
      = none) ∧
    (∃ (s : State) (p : Port), WriteOpen s.m p 131088 ∧ inBuild s.m = true ∧ s.m.job.st = JobState.finished) ∧
    (∃ (s : State) (p : Port) (e : Env), WriteOpen s.m p 131088 ∧ inBuild s.m = true ∧ s.m.job.st = JobState.finished) ∧
    (∃ (s : State) (p : Port) (hi : BitVec 28) (e : Env) (c : Instr), WriteOpen s.m p 131088 ∧ inBuild s.m = true ∧ c ∈ [Instr.jobPause p
      hi, Instr.jobStop p hi, Instr.jobResume p hi e, Instr.jobAbort p hi, Instr.jobStart p hi e, Instr.jobFlush p hi] ∧ (fld hi 27 20 ≠
      74 ∨ fld hi 19 0 ≠ 0)) :=
  ⟨⟨wAt wBuild [fun m => { m with job := { m.job with st := .makeReady } }], .host, by decide⟩,
   ⟨wAt wBuild [fun m => { m with job := { m.job with st := .exposing }, imp := { m.imp with beams := Vector.replicate 12 { cur := some { src := 0, index := 0 } } } }],
     .host, by decide⟩,
   ⟨wAt wBuild [fun m => { m with job := { m.job with st := .exposing } }], .host, by decide⟩,
   ⟨wAt wBuild [fun m => { m with job := { m.job with st := .makeReady, imageScene := none } }], .host, by decide⟩,
   ⟨wAt wBuild [fun m => { m with job := { m.job with st := .exposing } }], .host, by decide⟩,
   ⟨wAt wBuild [fun m => { m with job := { m.job with st := .makeReady, imageScene := none } }], .host, by decide⟩,
   ⟨wAt wBuild [fun m => { m with job := { m.job with st := .finished } }], .host, by decide⟩,
   ⟨wAt wBuild [fun m => { m with job := { m.job with st := .finished } }], .host, {}, by decide⟩,
   ⟨wAt wBuild [], .host, 0, {}, (Instr.jobPause .host 0), by decide⟩⟩

/-- The hypotheses of `Obligations.JobGoesOn` are met, clause by clause. -/
theorem witness_JobGoesOn :
    (∃ (s : State) (p : Port) (env : Env), WriteOpen s.m p 131088 ∧ inBuild s.m = true ∧ (s.m.job.st = JobState.paused ∨ s.m.job.st =
      JobState.stopped) ∧ s.m.job.causes = causeHost ∧ s.m.job.toExposing = true ∧ s.m.job.active.isSome = true ∧ s.m.imp.layerOpen =
      true ∧ impFull s.m = false ∧ retrains s.m = false ∧ (∀ (b : Fin 12), s.m.imp.beams[b].interrupted = none) ∧ anyCurrent s.m = true) ∧
    (∃ (s : State) (p : Port) (env : Env), WriteOpen s.m p 131088 ∧ inBuild s.m = true ∧ (s.m.job.st = JobState.paused ∨ s.m.job.st =
      JobState.stopped) ∧ s.m.job.causes = causeHost ∧ s.m.job.toExposing = false ∧ 1 ≤ s.m.job.mrStep ∧ s.m.job.mrStep < 4) ∧
    (∃ (s : State) (p : Port) (env : Env), WriteOpen s.m p 131088 ∧ inBuild s.m = true ∧ (s.m.job.st = JobState.paused ∨ s.m.job.st =
      JobState.stopped) ∧ s.m.job.causes = causeInhibit ∧ inhibitNow s.m = true) ∧
    (∃ (s : State) (p : Port) (env : Env) (i : Fin 64) (q : List (Fin 64)), WriteOpen s.m p 131088 ∧ inBuild s.m = true ∧ s.m.job.st =
      JobState.finished ∧ s.m.job.queue = i :: q ∧ (¬i ∈ q) ∧ s.m.job.slots[i].st = SlotState.queued ∧ s.m.job.pausing = none ∧
      (formeParams s.m s.m.job.slots[i].addr).flags.testBit 2 = false) ∧
    (∃ (s : State) (p : Port) (env : Env), WriteOpen s.m p 131088 ∧ inBuild s.m = true ∧ (∀ (i : Fin 64), i ∈ s.m.job.queue →
      s.m.job.slots[i].st = SlotState.queued)) :=
  ⟨⟨wAt wBuild [fun m => { m with job := { m.job with st := .paused, causes := causeHost, toExposing := true, active := some 0 }, imp := { m.imp with layerOpen := true, beams := Vector.replicate 12 { cur := some { src := 0, index := 0 } } } }],
     .host, {}, by decide⟩,
   ⟨wAt wBuild [fun m => { m with job := { m.job with st := .paused, causes := causeHost, toExposing := false, mrStep := 1 } }], .host,
     {}, by decide⟩,
   ⟨wAt wBuild [fun m => { m with job := { m.job with st := .paused, causes := causeInhibit }, ilk := { m.ilk with latch := true } }],
     .host, {}, by decide⟩,
   ⟨wAt wBuild [fun m => { m with job := { m.job with st := .finished, queue := [0], slots := m.job.slots.set 0 { st := .queued, len := 8192 } } }],
     .host, {}, 0, [], by decide⟩,
   ⟨wAt wBuild [], .host, {}, by decide⟩⟩

/-- The hypotheses of `Obligations.MakeReadyEvents` are met, clause by clause. -/
theorem witness_MakeReadyEvents :
    (∃ (s : State) (env : Env), bitOf s.m.clk.gateClosed 13 = false ∧ s.m.job.st = JobState.aborted ∧ s.m.job.aborting = true ∧
      beamsAtRest s.m = true) ∧
    (∃ (s : State) (env : Env), bitOf s.m.clk.gateClosed 13 = false ∧ s.m.job.st = JobState.makeReady ∧ s.m.job.mrStopped = false ∧ 1 ≤
      s.m.job.mrStep ∧ s.m.job.mrStep ≤ 3 ∧ stepArrived s.m = true ∧ s.m.job.pausing = none) ∧
    (∃ (s : State) (env : Env) (c : BitVec 9), s.m.job.pausing = some c ∧ bitOf s.m.clk.gateClosed 13 = false ∧ s.m.job.st =
      JobState.makeReady ∧ s.m.job.mrStopped = false ∧ 1 ≤ s.m.job.mrStep ∧ s.m.job.mrStep ≤ 3 ∧ stepArrived s.m = true) ∧
    (∃ (s : State) (env : Env), bitOf s.m.clk.gateClosed 13 = false ∧ s.m.job.st = JobState.makeReady ∧ s.m.job.mrStopped = false ∧
      s.m.job.mrStep ≠ 0 ∧ inBuild s.m = true ∧ recFld s.m recMgtFault 0 0 0 = 1) ∧
    (∃ (s : State) (env : Env), bitOf s.m.clk.gateClosed 13 = false ∧ s.m.job.st = JobState.makeReady ∧ s.m.job.mrStopped = false ∧
      s.m.job.mrStep ≠ 0 ∧ inBuild s.m = true ∧ recFld s.m recMgtFault 0 0 0 = 0 ∧ s.m.g.hostAbsent = false) ∧
    (∃ (s : State) (env : Env) (c : BitVec 9), s.m.job.pausing = some c ∧ ∃ (k : Nat), s.m.job.imageScene = some k ∧ bitOf
      s.m.clk.gateClosed 13 = false ∧ s.m.job.st = JobState.makeReady ∧ s.m.job.mrStep = 5) :=
  ⟨⟨wAt wOn [fun m => { m with job := { m.job with st := .aborted, aborting := true } }], {}, by decide⟩,
   ⟨wAt wOn [fun m => { m with job := { m.job with st := .makeReady, mrStopped := false, mrStep := 1, pausing := none } }], {}, by
     decide⟩,
   ⟨wAt wOn [fun m => { m with job := { m.job with st := .makeReady, mrStopped := false, mrStep := 1, pausing := (some 0) } }], {}, _,
     rfl, by decide⟩,
   ⟨wAt wBuild [fun m => { m with job := { m.job with st := .makeReady, mrStep := 1 } }, wRec recMgtFault 0 1], {}, by decide⟩,
   ⟨wAt wBuild [fun m => { m with job := { m.job with st := .makeReady, mrStopped := false, mrStep := 1 }, g := { m.g with hostAbsent := false } }],
     {}, by decide⟩,
   ⟨wAt wOn [fun m => { m with job := { m.job with st := .makeReady, mrStep := 5, imageScene := (some 0), pausing := (some 0) } }], {},
     _, rfl, _, rfl, by decide⟩⟩

/-- The hypotheses of `Obligations.ImpositionChoice` are met, clause by clause. -/
theorem witness_ImpositionChoice :
    (∃ (s : State) (b : Fin 12) (e : Ecc), bitOf s.m.clk.gateClosed 13 = false ∧ mayChoose s.m b = false) ∧
    (∃ (s : State) (b : Fin 12) (k : Fin 12) (env : Env), bitOf s.m.clk.gateClosed 13 = false ∧ inBuild s.m = true ∧ slugOver s.m b =
      true ∧ s.m.imp.beams[b].next = none ∧ k ≠ b ∧ s.m.imp.beams[k].cur.isSome = true) ∧
    (∃ (s : State) (b : Fin 12) (w : Work), s.m.imp.beams[b].next = some w ∧ ∃ (env : Env), bitOf s.m.clk.gateClosed 13 = false ∧ inBuild
      s.m = true ∧ slugOver s.m b = true ∧ impReserve s.m + s.m.imp.deferred.length + 1 < impFree s.m) ∧
    (∃ (s : State) (b : Fin 12) (w : Waiting), s.m.imp.beams[b].wait = some w ∧ bitOf s.m.clk.gateClosed 13 = false ∧ w.blocked = true ∧
      w.prio = false ∧ s.m.imp.running = true ∧ w.since + BitVec.toNat (recWord s.m recImp 3) * 1000 ≤ now s.m) ∧
    (∃ s : State, ∃ b : Fin 12, ∃ e : Ecc, ∃ w : Work, ∃ m m1 : Mach, bitOf s.m.clk.gateClosed 13 = false ∧ mayChoose s.m b = true ∧ m =
      choiceRead e { s.m with env := ⟨e, []⟩ } ∧ mayChoose m b = true ∧ chooseN b e (slugTotal m) m = (some w, m1) ∧ mayChoose m1 b =
      true ∧ m1.imp.beams[b].cur = none) ∧
    (∃ s : State, ∃ b : Fin 12, ∃ e : Ecc, ∃ w : Work, ∃ m m1 : Mach, bitOf s.m.clk.gateClosed 13 = false ∧ mayChoose s.m b = true ∧ m =
      choiceRead e { s.m with env := ⟨e, []⟩ } ∧ mayChoose m b = true ∧ chooseN b e (slugTotal m) m = (some w, m1) ∧ mayChoose m1 b =
      true ∧ m1.imp.beams[b].cur.isSome = true) :=
  ⟨⟨wAt wOn [], 0, {}, by decide⟩,
   ⟨wAt wBuild [fun m => { m with imp := { m.imp with beams := Vector.replicate 12 { cur := some { src := 0, index := 0 } } }, beams := Vector.replicate 12 { st := .mark, plan := some wPlan } }],
     0, 1, {}, by decide⟩,
   ⟨wAt wBuild [fun m => { m with imp := { m.imp with beams := Vector.replicate 12 { cur := some { src := 0, index := 0 }, next := some { src := 0, index := 1 } } }, beams := Vector.replicate 12 { st := .mark, plan := some wPlan } }],
     0, _, rfl, {}, by decide⟩,
   ⟨wAt wBuild [fun m => { m with imp := { m.imp with running := true, beams := Vector.replicate 12 { wait := some ⟨0, false, true, false⟩ } } }],
     0, _, rfl, by decide⟩,
   ⟨wAt wBeam [wChoice], 0, {}, { src := 128, index := 0 }, _, _, by decide, by decide, rfl, by decide, rfl, by decide⟩,
   ⟨wAt wBeam [wChoice, fun m => { m with imp := { m.imp with beams := Vector.replicate 12 { cur := some { src := 0, index := 0 } } } }],
     0, {}, { src := 128, index := 0 }, _, _, by decide, by decide, rfl, by decide, rfl, by decide⟩⟩

/-- The hypotheses of `Obligations.RetireAndReturn` are met, clause by clause. -/
theorem witness_RetireAndReturn :
    (∃ (s : State) (p : Port) (b : Fin 12), WriteOpen s.m p 196624 ∧ inWork s.m = true ∧ fitted s.m ↑b = true ∧ s.m.imp.beams[b].cause =
      0) ∧
    (∃ (s : State) (p : Port) (b : Fin 12), WriteOpen s.m p 196624 ∧ inWork s.m = true ∧ fitted s.m ↑b = true ∧ s.m.imp.beams[b].cause ≠
      0) ∧
    (∃ (s : State) (p : Port) (b : Fin 12), WriteOpen s.m p 196624 ∧ inWork s.m = true ∧ fitted s.m ↑b = true ∧ s.m.imp.beams[b].cause ≠
      0 ∧ s.m.imp.beams[b].cause ≠ 4 ∧ scanBusy s.m b = false ∧ returnReady s.m b = true ∧ (s.m.imp.beams[b].cause = 1 → ctxEngaged s.m b
      = true) ∧ (s.m.imp.beams[b].cause = 5 → ctxEngaged s.m b = true)) ∧
    (∃ (s : State) (p : Port) (b : Fin 12), WriteOpen s.m p 196624 ∧ inWork s.m = true ∧ fitted s.m ↑b = true ∧ s.m.imp.beams[b].cause =
      1 ∧ scanBusy s.m b = false ∧ returnReady s.m b = true ∧ ctxEngaged s.m b = false) ∧
    (∃ (s : State) (p : Port) (b : Fin 12) (hi : BitVec 28) (c : Instr), WriteOpen s.m p 196624 ∧ c ∈ [Instr.retire p hi,
      Instr.returnBeam p hi] ∧ (fld hi 27 20 ≠ 113 ∨ fld hi 19 8 ≠ 0 ∨ fld hi 3 0 ≠ 0 ∨ 12 ≤ fld hi 7 4)) :=
  ⟨⟨wAt wBeam [fun m => { m with imp := { m.imp with beams := (Vector.replicate _ { cause := 0 }) } }], .host, 0, by decide⟩,
   ⟨wAt wBeam [fun m => { m with imp := { m.imp with beams := Vector.replicate 12 { cause := 2 } } }], .host, 0, by decide⟩,
   ⟨wAt wBeam [fun m => { m with imp := { m.imp with beams := Vector.replicate 12 { cause := 2 } } }], .host, 0, by decide⟩,
   ⟨wAt wBeam [fun m => { m with imp := { m.imp with beams := Vector.replicate 12 { cause := 1 } }, cells := { m.cells with ctx := Vector.replicate 256 { st := .stopped, byRetire := true, cell := some 0 } } }],
     .host, 0, by decide⟩,
   ⟨wAt wOn [], .host, 0, 0, (Instr.retire .host 0), by decide⟩⟩

/-- The hypotheses of `Obligations.ReturnsAndScans` are met, clause by clause. -/
theorem witness_ReturnsAndScans :
    (∃ (s : State) (b : Fin 12), bitOf s.m.clk.gateClosed 13 = false ∧ s.m.imp.beams[b].returning = true ∧ inWork s.m = true ∧ ctxEngaged
      s.m b = true) ∧
    (∃ (s : State) (b : Fin 12), bitOf s.m.clk.gateClosed 13 = false ∧ s.m.imp.beams[b].returning = true) ∧
    (∃ (s : State) (b : Fin 12), bitOf s.m.clk.gateClosed 13 = false ∧ (s.m.imp.beams[b].cause = 2 ∨ (s.m.imp.beams[b].cause = 3 ∨
      s.m.imp.beams[b].cause = 6 ∨ s.m.imp.beams[b].cause = 7) ∧ recFld s.m recImp 6 0 0 = 1) ∧ scanBusy s.m b = false ∧ returnReady s.m
      b = true) ∧
    (∃ (s : State) (b : Fin 12) (sc : Scan) (rest : List Scan) (e : Ecc), bitOf s.m.clk.gateClosed 13 = false ∧ s.m.imp.scans = sc ::
      rest ∧ activeAddr s.m = none ∧ s.m.imp.deferred = [] ∧ sc.counts = none ∧ (sc.exposing && inExposure s.m) = false) :=
  ⟨⟨wAt wBeam [fun m => { m with imp := { m.imp with beams := (Vector.replicate _ { returning := true }) } }], 0, by decide⟩,
   ⟨wAt wOn [fun m => { m with imp := { m.imp with beams := (Vector.replicate _ { returning := true }) } }], 0, by decide⟩,
   ⟨wAt wBeam [fun m => { m with imp := { m.imp with beams := (Vector.replicate _ { cause := 2 }) } }], 0, by decide⟩,
   ⟨wAt wOn [fun m => { m with imp := { m.imp with scans := [⟨0, 2, 0, false, none⟩] } }], 0, ⟨0, 2, 0, false, none⟩, [], {}, by decide⟩⟩

/-- The hypotheses of `Obligations.ImpositionRecord` are met, clause by clause. -/
theorem witness_ImpositionRecord :
    (∃ (s : State) (p : Port), WriteOpen s.m p 196656) ∧
    (∃ (s : State) (p : Port) (v : Word), WriteOpen s.m p 196656 ∧ v ≠ s.m.imp.recWr ∧ BitVec.toNat s.m.imp.recRd ≤ BitVec.toNat v ∧
      BitVec.toNat v < impCap s.m ∧ BitVec.toNat v - BitVec.toNat s.m.imp.recRd ≤ s.m.imp.recCount) ∧
    (∃ (s : State) (p : Port) (v : Word), WriteOpen s.m p 196656 ∧ v ≠ s.m.imp.recWr ∧ impCap s.m ≤ BitVec.toNat v) ∧
    (∃ (s : State) (e : ImpEnt), List.find? (impMay s.m) s.m.imp.deferred = some e ∧ ∃ (env : Env), bitOf s.m.clk.gateClosed 13 = false ∧
      s.m.imp.scans = [] ∧ s.m.job.st ≠ JobState.exposing) ∧
    (∃ (s : State) (env : Env), bitOf s.m.clk.gateClosed 13 = false ∧ s.m.imp.deferred = [] ∧ s.m.imp.scans = [] ∧ s.m.job.st ≠
      JobState.exposing) :=
  ⟨⟨wAt wOn [], .host, by decide⟩,
   ⟨wAt wOn [fun m => { m with imp := { m.imp with recCount := 1 } }], .host, 1, by decide⟩,
   ⟨wAt wOn [], .host, 4294967295, by decide⟩,
   ⟨wAt wOn [fun m => { m with imp := { m.imp with deferred := [{ type := 4 }] } }], { type := 4 }, by decide, {}, by decide⟩,
   ⟨wAt wOn [fun m => { m with imp := { m.imp with deferred := [], scans := [] } }], {}, by decide⟩⟩

/-- The hypotheses of `Obligations.BeamMotion` are met, clause by clause. -/
theorem witness_BeamMotion :
    (∃ (s : State) (b : Fin 12) (c : Instr), bitOf s.m.clk.gateClosed ↑b = true ∧ c ∈ [Instr.beamSampleInstant b none, Instr.dacInstant
      b, Instr.beamMoveAtTarget b, Instr.jumpSettleElapsed b, Instr.runupAtStart b, Instr.markAtEnd b, Instr.stoppingAtRest b,
      Instr.driftStale b]) ∧
    (∃ (s : State) (b : Fin 12) (p : Plan), s.m.beams[b].plan = some p ∧ bitOf s.m.clk.gateClosed ↑b = false ∧ inBuild s.m = true ∧
      s.m.beams[b].st = BeamSt.move) ∧
    (∃ (s : State) (b : Fin 12) (p : Plan), s.m.beams[b].plan = some p ∧ bitOf s.m.clk.gateClosed ↑b = false ∧ inBuild s.m = true ∧
      s.m.beams[b].st = BeamSt.settle) ∧
    (∃ (s : State) (b : Fin 12) (p : Plan), s.m.beams[b].plan = some p ∧ bitOf s.m.clk.gateClosed ↑b = false ∧ inBuild s.m = true ∧
      s.m.beams[b].st = BeamSt.runup) ∧
    (∃ (s : State) (b : Fin 12) (p : Plan), s.m.beams[b].plan = some p ∧ bitOf s.m.clk.gateClosed ↑b = false ∧ inBuild s.m = true ∧
      s.m.beams[b].st = BeamSt.mark ∧ BeamSt.runout ∈ segStates p) ∧
    (∃ (s : State) (b : Fin 12) (p : Plan), s.m.beams[b].plan = some p ∧ bitOf s.m.clk.gateClosed ↑b = false ∧ inBuild s.m = true ∧
      s.m.beams[b].st = BeamSt.mark ∧ (¬BeamSt.runout ∈ segStates p)) ∧
    (∃ (s : State) (b : Fin 12), bitOf s.m.clk.gateClosed ↑b = false ∧ s.m.beams[b].st = BeamSt.stopping ∧ s.m.g.dev ≠ DevState.safeHold ∧
      s.m.imp.beams[b].cause = 0 ∧ s.m.beams[b].regFault = false ∧ s.m.job.st ≠ JobState.exposing) ∧
    (∃ (s : State) (b : Fin 12), bitOf s.m.clk.gateClosed ↑b = false ∧ s.m.beams[b].st = BeamSt.stopping ∧ s.m.g.dev ≠ DevState.safeHold ∧
      s.m.imp.beams[b].cause ≠ 0) ∧
    (∃ (s : State) (b : Fin 12), bitOf s.m.clk.gateClosed ↑b = false ∧ inWork s.m = true ∧ headTemp s.m b = none ∧
      s.m.beams[b].driftStale = false) :=
  ⟨⟨wAt wOn [fun m => { m with clk := { m.clk with gateClosed := 0x3FFF } }], 0, (Instr.beamSampleInstant 0 none), by decide⟩,
   ⟨wAt wBuild [fun m => { m with beams := Vector.replicate 12 { st := .move, plan := some wPlan } }], 0, _, rfl, by decide⟩,
   ⟨wAt wBuild [fun m => { m with beams := Vector.replicate 12 { st := .settle, plan := some wPlan } }], 0, _, rfl, by decide⟩,
   ⟨wAt wBuild [fun m => { m with beams := Vector.replicate 12 { st := .runup, plan := some wPlan } }], 0, _, rfl, by decide⟩,
   ⟨wAt wBuild [fun m => { m with beams := Vector.replicate 12 { st := .mark, plan := some { wPlan with segs := [⟨.runout, .line 0 0 10 0, 10, 1, 1, 0, 1, 0, 10⟩] } } }],
     0, _, rfl, by decide⟩,
   ⟨wAt wBuild [fun m => { m with beams := Vector.replicate 12 { st := .mark, plan := some wPlan } }], 0, _, rfl, by decide⟩,
   ⟨wAt wOn [fun m => { m with beams := (Vector.replicate _ { st := .stopping, regFault := false }), imp := { m.imp with beams := (Vector.replicate _ { cause := 0 }) } }],
     0, by decide⟩,
   ⟨wAt wBuild [fun m => { m with imp := { m.imp with beams := Vector.replicate 12 { cause := 1 } }, beams := Vector.replicate 12 { st := .stopping } }],
     0, by decide⟩,
   ⟨wAt wOn [fun m => { m with beams := Vector.replicate _ { driftStale := false } }], 0, by decide⟩⟩

/-- The hypotheses of `Obligations.BeamSamplesAndGate` are met, clause by clause. -/
theorem witness_BeamSamplesAndGate :
    (∃ (s : State) (b : Fin 12), bitOf s.m.clk.gateClosed ↑b = false ∧ inWork s.m = true) ∧
    (∃ (s : State) (b : Fin 12) (g : Option (Word × Bool)), bitOf s.m.clk.gateClosed ↑b = false ∧ inWork s.m = false) ∧
    (∃ (s : State) (b : Fin 12) (node : Word), bitOf s.m.clk.gateClosed ↑b = false ∧ inWork s.m = true) ∧
    (∃ (s : State) (b : Fin 12) (t0 : Nat) (on : Bool) (rest : List (Nat × Bool)), s.m.beams[b].edges = (t0, on) :: rest ∧ inBuild s.m =
      true ∧ t0 / tickQ * tickQ ≤ nowQ s.m) ∧
    (∃ (s : State) (b : Fin 12), (s.m.beams[b].edges = [] ∨ ∀ (e : Nat × Bool), e ∈ s.m.beams[b].edges.head? → nowQ s.m < e.fst / tickQ *
      tickQ)) :=
  ⟨⟨wAt wOn [], 0, by decide⟩,
   ⟨wAt Mach.reset [], 0, none, by decide⟩,
   ⟨wAt wOn [], 0, 0, by decide⟩,
   ⟨wAt wBuild [fun m => { m with beams := Vector.replicate 12 { edges := [(0, true)] } }], 0, 0, true, [], by decide⟩,
   ⟨wAt wOn [fun m => { m with beams := (Vector.replicate _ { edges := [] }) }], 0, by decide⟩⟩

/-- The hypotheses of `Obligations.BeamPower` are met, clause by clause. -/
theorem witness_BeamPower :
    (∃ (s : State) (b : Fin 12) (m : Mach), m = pdJudge b (takeRecord (recMplLoop ↑b) s.m) ∧ ∃ (p : Plan), dacEmission m b (dacFloor (now
      m)) = some p ∧ bitOf s.m.clk.gateClosed ↑b = false ∧ inWork s.m = true) ∧
    (∃ (s : State) (b : Fin 12) (m : Mach), m = pdJudge b (takeRecord (recMplLoop ↑b) s.m) ∧ bitOf s.m.clk.gateClosed ↑b = false ∧ inWork
      s.m = true ∧ dacEmission m b (dacFloor (now m)) = none) ∧
    (∃ (s : State) (b : Fin 12) (m : Mach), m = pdJudge b (takeRecord (recMplLoop ↑b) s.m) ∧ ∃ (p : Plan), dacEmission s.m b (dacFloor
      (now s.m) + 500) = some p ∧ ∃ (late : Bool) (e : Ecc), bitOf s.m.clk.gateClosed ↑b = false ∧ inWork s.m = true ∧ psFlag p.set 2 =
      true) ∧
    (∃ (s : State) (b : Fin 12) (m : Mach), m = pdJudge b (takeRecord (recMplLoop ↑b) s.m) ∧ ∃ (late : Bool) (e : Ecc), bitOf
      s.m.clk.gateClosed ↑b = false ∧ inWork s.m = true ∧ dacEmission s.m b (dacFloor (now s.m) + 500) = none) :=
  ⟨⟨wAt wBeam [fun m => { m with beams := Vector.replicate 12 { plan := some wPlan } }], 0, _, rfl, _, rfl, by decide⟩,
   ⟨wAt wOn [], 0, _, rfl, by decide⟩,
   ⟨wAt wBeam [fun m => { m with beams := Vector.replicate 12 { plan := some wPlan } }], 0, _, rfl, _, rfl, false, {}, by decide⟩,
   ⟨wAt wOn [], 0, _, rfl, false, {}, by decide⟩⟩

/-- The hypotheses of `Obligations.MeltPoolWindows` are met, clause by clause. -/
theorem witness_MeltPoolWindows :
    (∃ (s : State) (l : Fin 28) (f : FrameIn) (n : Nat), pdSlotOf (now s.m) (rdLe f.bytes 0 1) = some n ∧ FrameOk s.m l 2 f ∧
      (s.m.mpl[laneBeam l].slots.any fun x => decide (x.n = n)) = false ∧ 100 * n + 75 + 2000 < now s.m) ∧
    (∃ (s : State) (l : Fin 28) (f : FrameIn) (n : Nat), pdSlotOf (now s.m) (rdLe f.bytes 0 1) = some n ∧ ∃ (w : Nat), s.m.mpl[laneBeam
      l].window = some w ∧ FrameOk s.m l 2 f ∧ (s.m.mpl[laneBeam l].slots.any fun x => decide (x.n = n)) = false ∧ now s.m ≤ 100 * n + 75
      + 2000 ∧ w < n / 10) ∧
    (∃ (s : State) (l : Fin 28) (f : FrameIn) (n : Nat), pdSlotOf (now s.m) (rdLe f.bytes 0 1) = some n ∧ FrameOk s.m l 2 f ∧
      (s.m.mpl[laneBeam l].slots.any fun x => decide (x.n = n)) = true) ∧
    (∃ (m : Mach) (b : Fin 12) (k : Nat) (m1 : Mach), m1 = takeRecord (recMplFront ↑b) m) ∧
    (∃ (m : Mach) (b : Fin 12) (k : Nat) (m1 : Mach), m1 = takeRecord (recMplFront ↑b) m ∧ (List.filter (fun x => decide (x.n / 10 = k))
      m1.mpl[b].slots).length ≠ 10) ∧
    (∃ (m : Mach) (b : Fin 12) (k : Nat) (m1 : Mach), m1 = takeRecord (recMplFront ↑b) m ∧ (List.filter (fun x => decide (x.n / 10 = k))
      m1.mpl[b].slots).length = 10) :=
  ⟨⟨wAt wBeam [], 0, { nblk := 1, fseq := 0, stamp := 0, bytes := List.replicate 16 0 }, _, rfl, by decide⟩,
   ⟨wAt wBeam [fun m => { m with time := { m.time with dt := 3000 }, mpl := Vector.replicate 12 { window := some 0 } }], 0, { nblk := 1, fseq := 0, stamp := 0, bytes := List.replicate 16 20 },
     _, rfl, _, rfl, by decide⟩,
   ⟨wAt wBeam [fun m => { m with mpl := Vector.replicate 12 { slots := [⟨49999872, []⟩] } }], 0, { nblk := 1, fseq := 0, stamp := 0, bytes := List.replicate 16 0 },
     _, rfl, by decide⟩,
   ⟨(wAt wOn []).m, 0, 0, _, rfl⟩,
   ⟨(wAt wOn []).m, 0, 0, _, rfl, by decide⟩,
   ⟨(wAt wBeam [fun m => { m with mpl := Vector.replicate 12 { slots := tab 10 (fun i => ⟨i, List.replicate 12 1⟩) } }]).m, 0, 0, _, rfl,
     by decide⟩⟩

/-- The hypotheses of `Obligations.CameraFrames` are met, clause by clause. -/
theorem witness_CameraFrames :
    (∃ (s : State) (l : Fin 28) (f : FrameIn), FrameOk s.m l 4 f ∧ throttled s.m = false ∧ (∀ (old : CamFrame), s.m.mpl[laneBeam l].frame
      = some old → 0 < seqDiff (BitVec.ofNat 16 (rdLe f.bytes 0 2)) old.seq)) ∧
    (∃ (s : State) (l : Fin 28) (f : FrameIn) (g : CamFrame), s.m.mpl[laneBeam l].frame = some g ∧ FrameOk s.m l 5 f ∧ g.seq =
      BitVec.ofNat 16 (rdLe f.bytes 0 2) ∧ rdLe f.bytes 2 1 < 128 ∧ (g.lines.any fun x => decide (x.fst = rdLe f.bytes 2 1)) = false) ∧
    (∃ (s : State) (l : Fin 28) (f : FrameIn) (g : CamFrame), s.m.mpl[laneBeam l].frame = some g ∧ FrameOk s.m l 5 f ∧ g.seq ≠
      BitVec.ofNat 16 (rdLe f.bytes 0 2)) ∧
    (∃ (s : State) (b : Fin 12) (f : CamFrame), s.m.mpl[b].complete1 = some f ∧ bitOf s.m.clk.gateClosed ↑b = false) ∧
    (∃ (s : State) (b : Fin 12), bitOf s.m.clk.gateClosed ↑b = false ∧ s.m.mpl[b].complete1 = none) ∧
    (∃ (s : State) (b : Fin 12) (t0 : Nat), s.m.mpl[b].frameAt = some t0 ∧ bitOf s.m.clk.gateClosed ↑b = false ∧ s.m.mpl[b].frameValid =
      true ∧ (if throttled s.m = true then 6000000000 else 3000000000) ≤ (now s.m - t0) * BitVec.toNat s.m.mpl[b].camRate) ∧
    (∃ (s : State) (b : Fin 12) (t0 : Nat), s.m.mpl[b].frameAt = some t0 ∧ bitOf s.m.clk.gateClosed ↑b = false ∧ (now s.m - t0) *
      BitVec.toNat s.m.mpl[b].camRate < if throttled s.m = true then 6000000000 else 3000000000) :=
  ⟨⟨wAt wBeam [], 1, { nblk := 1, fseq := 0, stamp := 0, bytes := List.replicate 16 0 }, by decide⟩,
   ⟨wAt wBeam [fun m => { m with mpl := Vector.replicate 12 { frame := some { seq := 0, start := 0, exposure := 0, lines := [] } } }], 1,
     { nblk := 11, fseq := 0, stamp := 0, bytes := List.replicate 164 0 }, _, rfl, by decide⟩,
   ⟨wAt wBeam [fun m => { m with mpl := Vector.replicate 12 { frame := some { seq := 1, start := 0, exposure := 0, lines := [] } } }], 1,
     { nblk := 11, fseq := 0, stamp := 0, bytes := List.replicate 164 0 }, _, rfl, by decide⟩,
   ⟨wAt wBeam [fun m => { m with mpl := Vector.replicate 12 { frame := some { seq := 0, start := 0, exposure := 0, lines := tab 128 (fun i => (i, [])) } } }],
     0, _, rfl, by decide⟩,
   ⟨wAt wOn [], 0, by decide⟩,
   ⟨wAt wOn [fun m => { m with mpl := (Vector.replicate _ { frameValid := true, frameAt := (some 0) }) }], 0, _, rfl, by decide⟩,
   ⟨wAt Mach.reset [fun m => { m with mpl := (Vector.replicate _ { frameAt := (some 0) }) }], 0, _, rfl, by decide⟩⟩

/-- The hypotheses of `Obligations.MeltPoolConditions` are met, clause by clause. -/
theorem witness_MeltPoolConditions :
    (∃ (s : State) (b : Fin 12), bitOf s.m.clk.gateClosed ↑b = false ∧ s.m.mpl[b].noLight = false ∧ s.m.mpl[b].darkRun ≠ 0 ∧ BitVec.toNat
      (recWord s.m (recMplFront ↑b) 5) ≤ s.m.mpl[b].darkRun) ∧
    (∃ (s : State) (b : Fin 12), bitOf s.m.clk.gateClosed ↑b = false ∧ s.m.mpl[b].noLight = true) ∧
    (∃ (s : State) (b : Fin 12), bitOf s.m.clk.gateClosed ↑b = false ∧ s.m.mpl[b].backrefl = false ∧ s.m.mpl[b].brRun ≠ 0 ∧ recFld s.m
      (recMplFront ↑b) 7 31 16 ≤ s.m.mpl[b].brRun) ∧
    (∃ (s : State) (b : Fin 12), bitOf s.m.clk.gateClosed ↑b = false ∧ s.m.mpl[b].backrefl = true) ∧
    (∃ (s : State) (b : Fin 12), bitOf s.m.clk.gateClosed ↑b = false ∧ s.m.mpl[b].corrRaised ≠ some (emissionKey s.m b (now s.m)) ∧
      s.m.mpl[b].satRun ≠ 0 ∧ 2 * BitVec.toNat (recWord s.m (recMplLoop ↑b) 3) ≤ s.m.mpl[b].satRun) ∧
    (∃ (s : State) (b : Fin 12), bitOf s.m.clk.gateClosed ↑b = false ∧ s.m.mpl[b].corrRaised = some (emissionKey s.m b (now s.m))) :=
  ⟨⟨wAt wOn [fun m => { m with mpl := Vector.replicate 12 { darkRun := 1000000 } }], 0, by decide⟩,
   ⟨wAt wOn [fun m => { m with mpl := Vector.replicate _ { noLight := true } }], 0, by decide⟩,
   ⟨wAt wOn [fun m => { m with mpl := Vector.replicate 12 { brRun := 1000000 } }], 0, by decide⟩,
   ⟨wAt wOn [fun m => { m with mpl := Vector.replicate _ { backrefl := true } }], 0, by decide⟩,
   ⟨wAt wOn [fun m => { m with mpl := Vector.replicate 12 { satRun := 1000000 } }], 0, by decide⟩,
   ⟨wAt wOn [fun m => { m with mpl := (Vector.replicate _ { corrRaised := (some 0) }) }], 0, by decide⟩⟩

/-- The hypotheses of `Obligations.HeatMap` are met, clause by clause. -/
theorem witness_HeatMap :
    (∃ (s : State), bitOf s.m.clk.gateClosed 12 = false ∧ Memory.wf s.m.mem ∧ inWork s.m = true ∧ s.m.hmap.sweeping = false) ∧
    (∃ (s : State), bitOf s.m.clk.gateClosed 12 = false ∧ s.m.hmap.sweeping = true) ∧
    (∃ (s : State), bitOf s.m.clk.gateClosed 12 = false) ∧
    (∃ (s : State) (c : Instr), bitOf s.m.clk.gateClosed 12 = true ∧ c ∈ [Instr.hmapDecaySweep, Instr.hmapSweepDone, Instr.hmapCopyDone]) ∧
    (∃ (s : State) (p : Port), WriteOpen s.m p 385040) ∧
    (∃ (s : State) (p : Port) (v : Word), WriteOpen s.m p 385040 ∧ v ≠ s.m.hmap.wr ∧ BitVec.toNat s.m.hmap.rd < BitVec.toNat v ∧
      BitVec.toNat v < ringCap s.m ∧ BitVec.toNat v - BitVec.toNat s.m.hmap.rd ≤ s.m.hmap.count) ∧
    (∃ (s : State) (p : Port) (v : Word), WriteOpen s.m p 385040 ∧ v ≠ s.m.hmap.wr ∧ ringCap s.m ≤ BitVec.toNat v) :=
  ⟨⟨wAt wOn [fun m => { m with hmap := { m.hmap with sweeping := false } }], by decide⟩,
   ⟨wAt wOn [fun m => { m with hmap := { m.hmap with sweeping := true } }], by decide⟩,
   ⟨wAt wOn [], by decide⟩,
   ⟨wAt wOn [fun m => { m with clk := { m.clk with gateClosed := 0x3FFF } }], (Instr.hmapDecaySweep), by decide⟩,
   ⟨wAt wOn [], .host, by decide⟩,
   ⟨wAt wOn [fun m => { m with hmap := { m.hmap with count := 1 } }], .host, 1, by decide⟩,
   ⟨wAt wOn [], .host, 4294967295, by decide⟩⟩

/-- The hypotheses of `Obligations.CellSamples` are met, clause by clause. -/
theorem witness_CellSamples :
    (∃ (s : State) (k : Fin 256) (d : CtxDesc), ctxOf s.m k = some d ∧ ∃ (cell : Fin 128), s.m.cells.ctx[k].cell = some cell ∧ ∃ (tn :
      Nat), sampleAt s.m d = some tn ∧ ∃ (agree : Bool) (late : Bool) (lost : Bool) (corr : Nat), s.m.cells.ctx[k].st = CtxState.running ∧
      s.m.cells.ctx[k].last ≠ some tn ∧ pendingOf s.m (recCoef ↑k) = none ∧ s.m.cells.subst = none ∧ allFresh s.m d (progOf s.m d) tn =
      true ∧ sampleMay s.m cell k d tn = true) ∧
    (∃ (s : State) (k : Fin 256) (d : CtxDesc), ctxOf s.m k = some d ∧ ∃ (cell : Fin 128), s.m.cells.ctx[k].cell = some cell ∧ ∃ (tn :
      Nat), sampleAt s.m d = some tn ∧ ∃ (agree : Bool) (late : Bool) (lost : Bool) (corr : Nat), s.m.cells.ctx[k].st = CtxState.running ∧
      s.m.cells.ctx[k].last ≠ some tn ∧ pendingOf s.m (recCoef ↑k) = none ∧ s.m.cells.subst = none ∧ allFresh s.m d (progOf s.m d) tn =
      true ∧ sampleMay s.m cell k d tn = false) ∧
    (∃ (s : State) (k : Fin 256) (d : CtxDesc), ctxOf s.m k = some d ∧ ∃ (cell : Fin 128), s.m.cells.ctx[k].cell = some cell ∧ ∃ (tn :
      Nat), sampleAt s.m d = some tn ∧ ∃ (agree : Bool) (late : Bool) (lost : Bool) (corr : Nat), s.m.cells.ctx[k].st = CtxState.running ∧
      s.m.cells.ctx[k].last ≠ some tn ∧ pendingOf s.m (recCoef ↑k) = none ∧ s.m.cells.subst = none ∧ allFresh s.m d (progOf s.m d) tn =
      false ∧ latestStart s.m cell d tn ≤ ↑(nowQ s.m)) ∧
    (∃ (s : State) (k : Fin 256) (d : CtxDesc), ctxOf s.m k = some d ∧ ∃ (cell : Fin 128), s.m.cells.ctx[k].cell = some cell ∧ ∃ (tn :
      Nat), sampleAt s.m d = some tn ∧ ∃ (agree : Bool) (late : Bool) (lost : Bool) (corr : Nat), s.m.cells.ctx[k].st = CtxState.running ∧
      s.m.cells.ctx[k].last ≠ some tn ∧ pendingOf s.m (recCoef ↑k) = none ∧ s.m.cells.subst = none ∧ allFresh s.m d (progOf s.m d) tn =
      false ∧ latestStart s.m cell d tn ≤ ↑(nowQ s.m) ∧ s.m.cells.ctx[k].engaged = true ∧ s.m.cells.ctx[k].ovrRun + 1 < d.limit) ∧
    (∃ (s : State) (k : Fin 256) (d : CtxDesc), ctxOf s.m k = some d ∧ ∃ (cell : Fin 128), s.m.cells.ctx[k].cell = some cell ∧ ∃ (tn :
      Nat), sampleAt s.m d = some tn ∧ ∃ (agree : Bool) (late : Bool) (lost : Bool) (corr : Nat), s.m.cells.ctx[k].st = CtxState.running ∧
      s.m.cells.ctx[k].last ≠ some tn ∧ pendingOf s.m (recCoef ↑k) = none ∧ s.m.cells.subst = none ∧ allFresh s.m d (progOf s.m d) tn =
      false ∧ latestStart s.m cell d tn ≤ ↑(nowQ s.m) ∧ s.m.cells.ctx[k].engaged = true ∧ d.limit ≤ s.m.cells.ctx[k].ovrRun + 1) ∧
    (∃ (s : State) (k : Fin 256) (d : CtxDesc), ctxOf s.m k = some d ∧ ∃ (cell : Fin 128), s.m.cells.ctx[k].cell = some cell ∧
      s.m.cells.ctx[k].st = CtxState.faulted ∧ d.autoRestart = true ∧ s.m.cells.ctx[k].hard = false ∧ mayStart s.m k = true) ∧
    (∃ (s : State) (k : Fin 256) (d : CtxDesc), ctxOf s.m k = some d ∧ ∃ (cell : Fin 128), s.m.cells.ctx[k].cell = some cell ∧
      d.autoRestart = false) :=
  ⟨⟨wAt wBeam [fun m => { m with time := { m.time with dt := 5000000000 }, boot := { m.boot with sections := wSections 4 0 }, cells := { m.cells with ctx := Mach.reset.cells.ctx.setIfInBounds 0 { st := .running, cell := some 0 } } }],
     0, _, rfl, _, rfl, _, rfl, false, false, false, 0, by decide⟩,
   ⟨wAt wBeam [fun m => { m with boot := { m.boot with sections := wSections 4 0 }, cells := { m.cells with ctx := Vector.replicate 256 { st := .running, cell := some 0 } } }],
     0, _, rfl, _, rfl, _, rfl, false, false, false, 0, by decide⟩,
   ⟨wAt wBeam [fun m => { m with time := { m.time with dt := 5000000999 }, boot := { m.boot with sections := wSections 4 1 }, cells := { m.cells with ctx := Mach.reset.cells.ctx.setIfInBounds 0 { st := .running, cell := some 0 } } }],
     0, _, rfl, _, rfl, _, rfl, false, false, false, 0, by decide⟩,
   ⟨wAt wBeam [fun m => { m with time := { m.time with dt := 5000000999 }, boot := { m.boot with sections := wSections 4 1 }, cells := { m.cells with ctx := Mach.reset.cells.ctx.setIfInBounds 0 { st := .running, engaged := true, cell := some 0 } } }],
     0, _, rfl, _, rfl, _, rfl, false, false, false, 0, by decide⟩,
   ⟨wAt wBeam [fun m => { m with time := { m.time with dt := 5000000999 }, boot := { m.boot with sections := wSections 4 1 }, cells := { m.cells with ctx := Mach.reset.cells.ctx.setIfInBounds 0 { st := .running, engaged := true, ovrRun := 3, cell := some 0 } } }],
     0, _, rfl, _, rfl, _, rfl, false, false, false, 0, by decide⟩,
   ⟨wAt wBeam [fun m => { m with boot := { m.boot with sections := wSections 6 0 }, cells := { m.cells with ctx := Vector.replicate 256 { st := .faulted, cell := some 0 } } }],
     0, _, rfl, _, rfl, by decide⟩,
   ⟨wAt wBeam [fun m => { m with cells := { m.cells with ctx := (Vector.replicate _ { cell := (some 0) }) } }], 0, _, rfl, _, rfl, by
     decide⟩⟩

/-- The hypotheses of `Obligations.CellCommands` are met, clause by clause. -/
theorem witness_CellCommands :
    (∃ (s : State) (p : Port) (k : Fin 256) (c : Fin 128), WriteOpen s.m p 458752 ∧ s.m.cells.ctx[k].st = CtxState.stopped ∧ mayStart s.m
      k = true ∧ hasCell s.m k = true) ∧
    (∃ (s : State) (p : Port) (k : Fin 256) (c : Fin 128), WriteOpen s.m p 458752 ∧ s.m.cells.ctx[k].st = CtxState.running) ∧
    (∃ (s : State) (p : Port) (k : Fin 256) (c : Fin 128), WriteOpen s.m p 458752 ∧ s.m.cells.ctx[k].st = CtxState.running ∧ stopRefused
      s.m k = false) ∧
    (∃ (s : State) (p : Port) (k : Fin 256) (c : Fin 128), WriteOpen s.m p 458752 ∧ s.m.cells.ctx[k].st = CtxState.running ∧ stopRefused
      s.m k = true) ∧
    (∃ (s : State) (p : Port) (k : Fin 256) (c : Fin 128), WriteOpen s.m p 458752 ∧ s.m.cells.ctx[k].st = CtxState.faulted ∧ mayStart s.m
      k = true ∧ hasCell s.m k = true) ∧
    (∃ (s : State) (p : Port) (k : Fin 256) (c : Fin 128), WriteOpen s.m p 458752 ∧ s.m.cells.cells[c].st = CellState.active ∧
      substitutable s.m c = true ∧ s.m.cells.subst = none ∧ spares s.m ≠ []) ∧
    (∃ (s : State) (p : Port) (k : Fin 256) (c : Fin 128), WriteOpen s.m p 458752 ∧ s.m.cells.cells[c].st = CellState.spare) ∧
    (∃ (s : State) (p : Port) (k : Fin 256) (c : Fin 128) (g : Fin 4), WriteOpen s.m p 458752) ∧
    (∃ (s : State) (p : Port) (k : Fin 256) (c : Fin 128) (hi : BitVec 28) (i : Instr), WriteOpen s.m p 458752 ∧ i ∈ [Instr.cellStart p
      hi, Instr.cellStop p hi, Instr.restart p hi, Instr.subst p hi, Instr.test p hi, Instr.trig p hi] ∧ (fld hi 27 20 ≠ 142 ∨ fld hi 19
      12 ≠ 0 ∨ fld hi 3 0 ≠ 0)) :=
  ⟨⟨wAt wBeam [fun m => { m with boot := { m.boot with sections := wSections 4 0 }, cells := { m.cells with ctx := Vector.replicate 256 { st := .stopped, cell := some 0 } } }],
     .host, 0, 0, by decide⟩,
   ⟨wAt wOn [fun m => { m with cells := { m.cells with ctx := (Vector.replicate _ { st := .running }) } }], .host, 0, 0, by decide⟩,
   ⟨wAt wOn [fun m => { m with cells := { m.cells with ctx := (Vector.replicate _ { st := .running }) } }], .host, 0, 0, by decide⟩,
   ⟨wAt wBeam [fun m => { m with job := { m.job with st := .exposing } }], .host, 0, 0, by decide⟩,
   ⟨wAt wBeam [fun m => { m with boot := { m.boot with sections := wSections 4 0 }, cells := { m.cells with ctx := Vector.replicate 256 { st := .faulted, cell := some 0 } } }],
     .host, 0, 0, by decide⟩,
   ⟨wAt wOn [fun m => { m with cells := { m.cells with cells := (Vector.replicate 128 { st := .spare }).set 0 { st := .active } } }],
     .host, 0, 0, by decide⟩,
   ⟨wAt wOn [fun m => { m with cells := { m.cells with cells := (Vector.replicate _ { st := .spare }) } }], .host, 0, 0, by decide⟩,
   ⟨wAt wOn [], .host, 0, 0, 0, by decide⟩,
   ⟨wAt wOn [], .host, 0, 0, 0, (Instr.cellStart .host 0), by decide⟩⟩

/-- The hypotheses of `Obligations.CellArrayEvents` are met, clause by clause. -/
theorem witness_CellArrayEvents :
    (∃ (s : State) (c : Fin 128) (k : Fin 256), (s.m.cells.cells[c].st = CellState.off ∨ s.m.cells.cells[c].st = CellState.failed)) ∧
    (∃ (s : State) (c : Fin 128) (k : Fin 256), s.m.cells.cells[c].st = CellState.active ∧ s.m.cells.subst = none ∧ recFld s.m recCellSub
      5 0 0 = 0) ∧
    (∃ (s : State) (c : Fin 128) (k : Fin 256), s.m.cells.ctx[k].st = CtxState.running ∧ s.m.cells.ctx[k].settle = some 0 ∧
      s.m.cells.subst = none ∧ scanBeam s.m k = none) ∧
    (∃ (s : State) (c : Fin 128) (k : Fin 256) (b : Fin 12), scanBeam s.m k = some b ∧ s.m.cells.ctx[k].st = CtxState.running ∧
      s.m.cells.ctx[k].settle = some 0 ∧ s.m.cells.subst = none ∧ s.m.job.st ≠ JobState.exposing ∧ (∀ (j : Fin 256), j ∈ beamCtx s.m b
      scanClasses → j ≠ k → s.m.cells.ctx[j].settle = none)) ∧
    (∃ (s : State) (c : Fin 128) (k : Fin 256) (x : Subst), s.m.cells.subst = some x ∧ x.stage = 1) ∧
    (∃ (s : State) (c : Fin 128) (k : Fin 256) (x : Subst), s.m.cells.subst = some x ∧ ∃ (e : ShadowCtx), List.find? (fun y => decide
      (y.ctx = ↑k)) x.ctxs = some e ∧ x.stage = 2 ∧ e.handed = false ∧ s.m.cells.ctx[k].st = CtxState.running ∧ recFld s.m recCellSub 0
      15 0 ≤ e.matched ∧ (∃ y, y ∈ x.ctxs ∧ y.ctx ≠ ↑k ∧ y.handed = false ∧ s.m.cells.ctx[Fin.ofNat 256 y.ctx].st = CtxState.running)) ∧
    (∃ (s : State) (c : Fin 128) (k : Fin 256) (x : Subst), s.m.cells.subst = some x ∧ ∃ (e : ShadowCtx), x.stage = 2 ∧ x.ctxs = [e] ∧
      e.ctx = ↑k ∧ e.handed = false ∧ s.m.cells.ctx[k].st = CtxState.running ∧ recFld s.m recCellSub 0 15 0 ≤ e.matched) ∧
    (∃ (s : State) (c : Fin 128) (k : Fin 256), s.m.cells.cells[c].st = CellState.spare ∧ recWord s.m recCellSub 4 ≠ 0) ∧
    (∃ (s : State) (c : Fin 128) (k : Fin 256), s.m.cells.cells[c].st ≠ CellState.spare) ∧
    (∃ (s : State) (c : Fin 128) (k : Fin 256), s.m.cells.cells[c].st = CellState.testing ∧ s.m.g.configuredOnce = true ∧ orphans s.m =
      none) ∧
    (∃ (s : State) (c : Fin 128) (k : Fin 256), s.m.cells.cells[c].st = CellState.testing ∧ s.m.g.configuredOnce = true ∧
      s.m.cells.cells[c].kat ≠ 2) ∧
    (∃ (s : State) (c : Fin 128) (k : Fin 256), s.m.cells.cells[c].st = CellState.testing ∧ s.m.g.configuredOnce = true ∧
      s.m.cells.cells[c].kat = 2) :=
  ⟨⟨wAt wOn [fun m => { m with cells := { m.cells with cells := (Vector.replicate _ { st := .off }) } }], 0, 0, by decide⟩,
   ⟨wAt wOn [fun m => { m with cells := { m.cells with cells := Vector.replicate 128 { st := .active } } }, wRec recCellSub 5 0], 0, 0,
     by decide⟩,
   ⟨wAt wOn [fun m => { m with cells := { m.cells with ctx := (Vector.replicate _ { st := .running, settle := (some 0) }), subst := none } }],
     0, 0, by decide⟩,
   ⟨wAt wBeam [fun m => { m with cells := { m.cells with ctx := m.cells.ctx.set 0 { st := .running, cell := some 0, settle := some 0 } } }],
     0, 0, _, rfl, by decide⟩,
   ⟨wAt wOn [fun m => { m with cells := { m.cells with subst := some ⟨0, 1, 0, 1, []⟩ } }], 0, 0, _, rfl, by decide⟩,
   ⟨wAt wBeam [fun m => { m with cells := { m.cells with subst := some ⟨0, 1, 0, 2, [{ ctx := 0, matched := 65535 }, { ctx := 1 }]⟩ } }], 0, 0, _, rfl, _, rfl, by decide⟩,
   ⟨wAt wBeam [fun m => { m with cells := { m.cells with subst := some ⟨0, 1, 0, 2, [{ ctx := 0, matched := 65535 }]⟩ } }], 0, 0, _, rfl, { ctx := 0, matched := 65535 }, by decide⟩,
   ⟨wAt wOn [fun m => { m with cells := { m.cells with cells := (Vector.replicate _ { st := .spare }) } }], 0, 0, by decide⟩,
   ⟨wAt wOn [], 0, 0, by decide⟩,
   ⟨wAt wOn [fun m => { m with cells := { m.cells with cells := (Vector.replicate _ { st := .testing }) }, g := { m.g with configuredOnce := true } }],
     0, 0, by decide⟩,
   ⟨wAt wOn [fun m => { m with cells := { m.cells with cells := (Vector.replicate _ { st := .testing }) }, g := { m.g with configuredOnce := true } }],
     0, 0, by decide⟩,
   ⟨wAt wOn [fun m => { m with cells := { m.cells with cells := (Vector.replicate _ { st := .testing, kat := 2 }) }, g := { m.g with configuredOnce := true } }],
     0, 0, by decide⟩⟩

/-- The hypotheses of `Obligations.CellTraces` are met, clause by clause. -/
theorem witness_CellTraces :
    (∃ (s : State) (p : Port) (c : Fin 128) (ch : Fin 2), (trcOf s.m c ch).st = 2 ∧ (trcOf s.m c ch).post = 0) ∧
    (∃ (s : State) (p : Port) (c : Fin 128) (ch : Fin 2), (trcOf s.m c ch).post ≠ 0) ∧
    (∃ (s : State) (p : Port) (c : Fin 128) (ch : Fin 2) (v : Word), Regs.wf s.m.regs ∧ WriteOpen s.m p (offTrc c ch) ∧ (bitOf v 14 =
      false ∨ (deepStreams s.m).length < 16)) ∧
    (∃ (s : State) (p : Port) (c : Fin 128) (ch : Fin 2) (v : Word), WriteOpen s.m p (offTrc c ch) ∧ bitOf v 14 = true ∧ bitOf (trcCtrl
      s.m c ch) 14 = false ∧ 16 ≤ (deepStreams s.m).length) ∧
    (∃ (s : State) (p : Port) (c : Fin 128) (hi : BitVec 30), Regs.wf s.m.regs ∧ WriteOpen s.m p 458784) ∧
    (∃ (s : State) (p : Port) (c : Fin 128), s.m.cells.deepSt = 2 ∧ s.m.cells.deepPost = 0) ∧
    (∃ (s : State) (p : Port) (c : Fin 128), s.m.cells.deepPost ≠ 0) ∧
    (∃ (s : State) (p : Port) (c : Fin 128) (v : Word), WriteOpen s.m p 458768 ∧ fld v 31 4 ≠ 0) ∧
    (∃ (s : State) (p : Port) (c : Fin 128) (v : Word) (g : Nat), fld (regGet s.m 458784) 3 2 = g ∧ WriteOpen s.m p 458768 ∧ g < 4 ∧ fld
      v 31 4 = 0 ∧ bitOf v g = true ∧ s.m.cells.deepSt = 1) ∧
    (∃ (s : State) (p : Port) (c : Fin 128) (slot : Bool) (v : Word), WriteOpen s.m p (offLagMax c slot)) ∧
    (∃ (s : State) (p : Port) (c : Fin 128) (v : Word), Regs.wf s.m.regs ∧ WriteOpen s.m p 393216) :=
  ⟨⟨wAt wOn [fun m => { m with cells := { m.cells with cells := Vector.replicate 128 { trc0 := { st := 2 } } } }], .host, 0, 0, by
     decide⟩,
   ⟨wAt wOn [fun m => { m with cells := { m.cells with cells := Vector.replicate 128 { trc0 := { st := 2, post := 1 } } } }], .host, 0,
     0, by decide⟩,
   ⟨wAt wOn [], .host, 0, 0, 0, by decide⟩,
   ⟨wAt wOn [fun m => { m with regs := (List.range 16).map fun i => (0x80100 + 0x400 * i, 0x4000) }], .host, 20, 0, 0x4000, by decide⟩,
   ⟨wAt wOn [], .host, 0, 0, by decide⟩,
   ⟨wAt wOn [fun m => { m with cells := { m.cells with deepSt := 2, deepPost := 0 } }], .host, 0, by decide⟩,
   ⟨wAt wOn [fun m => { m with cells := { m.cells with deepPost := 1 } }], .host, 0, by decide⟩,
   ⟨wAt wOn [], .host, 0, 16, by decide⟩,
   ⟨wAt wOn [fun m => { m with cells := { m.cells with deepSt := 1 } }], .host, 0, 1, _, rfl, by decide⟩,
   ⟨wAt wOn [], .host, 0, false, 0, by decide⟩,
   ⟨wAt wOn [], .host, 0, 0, by decide⟩⟩

/-- The hypotheses of `Obligations.LaneTraining` are met, clause by clause. -/
theorem witness_LaneTraining :
    (∃ (s : State) (l : Fin 28), s.m.lanes[l].st = LaneState.detect) ∧
    (∃ (s : State) (l : Fin 28), s.m.lanes[l].st = LaneState.detect ∧ s.m.lanes[l].signal = false ∧ s.m.lanes[l].noPartner = false ∧
      laneStays s.m l 10000000 = true) ∧
    (∃ (s : State) (l : Fin 28), s.m.lanes[l].st = LaneState.equalise) ∧
    (∃ (s : State) (l : Fin 28), s.m.lanes[l].st = LaneState.align) ∧
    (∃ (s : State) (l : Fin 28) (seen : Bool) (port : Nat) (rate : Nat) (ident : BitVec 64), s.m.lanes[l].st = LaneState.align) ∧
    (∃ (s : State) (l : Fin 28) (ident : BitVec 64), s.m.lanes[l].st = LaneState.ident ∧ ident.toNat = headId s.m l ∧
      s.m.lanes[l].trained + 1 < 16) ∧
    (∃ (s : State) (l : Fin 28) (ident : BitVec 64), s.m.lanes[l].st = LaneState.ident ∧ ident.toNat = headId s.m l ∧ 16 ≤
      s.m.lanes[l].trained + 1) ∧
    (∃ (s : State) (l : Fin 28) (seen : Bool) (port : Nat) (rate : Nat) (ident : BitVec 64), s.m.lanes[l].st = LaneState.ident ∧
      ident.toNat ≠ headId s.m l) ∧
    (∃ (s : State) (l : Fin 28), s.m.lanes[l].st.trains = true ∧ laneStays s.m l (trainTime s.m l) = true ∧ s.m.lanes[l].attempt.toNat <
      trainTries s.m ∧ s.m.lanes[l].signal = true) ∧
    (∃ (s : State) (l : Fin 28), s.m.lanes[l].st.trains = true ∧ laneStays s.m l (trainTime s.m l) = true ∧ trainTries s.m ≤
      s.m.lanes[l].attempt.toNat ∧ s.m.lanes[l].signal = true) ∧
    (∃ (s : State) (l : Fin 28), (s.m.lanes[l].st.trains = false ∨ laneStays s.m l (trainTime s.m l) = false)) ∧
    (∃ (s : State) (l : Fin 28), s.m.lanes[l].st = LaneState.failed ∧ recFld s.m recLane 3 0 0 = 1 ∧ laneStays s.m l (BitVec.toNat
      (recWord s.m recLane 2) * 1000000000) = true) :=
  ⟨⟨wAt wOn [fun m => { m with lanes := Vector.replicate _ { st := .detect } }], 0, by decide⟩,
   ⟨wAt wOn [fun m => { m with lanes := Vector.replicate _ { st := .detect, signal := false, noPartner := false } }], 0, by decide⟩,
   ⟨wAt wOn [fun m => { m with lanes := Vector.replicate _ { st := .equalise } }], 0, by decide⟩,
   ⟨wAt wOn [fun m => { m with lanes := Vector.replicate _ { st := .align } }], 0, by decide⟩,
   ⟨wAt wOn [fun m => { m with lanes := Vector.replicate _ { st := .align } }], 0, false, 0, 0, 0, by decide⟩,
   ⟨wAt wOn [fun m => { m with lanes := Vector.replicate _ { st := .ident } }], 0, 0, by decide⟩,
   ⟨wAt wOn [fun m => { m with lanes := Vector.replicate 28 { st := .ident, trained := 15 } }], 0, 0, by decide⟩,
   ⟨wAt wOn [fun m => { m with lanes := Vector.replicate _ { st := .ident } }], 0, false, 0, 0, 1, by decide⟩,
   ⟨wAt wOn [fun m => { m with lanes := Vector.replicate 28 { st := .equalise, signal := true } }], 0, by decide⟩,
   ⟨wAt wOn [fun m => { m with lanes := Vector.replicate 28 { st := .equalise, signal := true, attempt := 15 } }], 0, by decide⟩,
   ⟨wAt wOn [], 0, by decide⟩,
   ⟨wAt wOn [fun m => { m with lanes := Vector.replicate 28 { st := .failed } }, wRec recLane 3 1, wRec recLane 2 1], 0, by decide⟩⟩

/-- The hypotheses of `Obligations.LaneSecurity` are met, clause by clause. -/
theorem witness_LaneSecurity :
    (∃ (s : State) (l : Fin 28) (data : List Byte), data.length = 12 ∧ s.m.lanes[l].st = LaneState.keying ∧ s.m.lanes[l].key.step = 1) ∧
    (∃ (s : State) (l : Fin 28) (data : List Byte), data.length = 12 ∧ s.m.lanes[l].st = LaneState.keying ∧ s.m.lanes[l].key.step = 2) ∧
    (∃ (s : State) (l : Fin 28), s.m.lanes[l].st = LaneState.soak ∧ s.m.lanes[l].soakHead = some 0 ∧ laneStays s.m l (trainTime s.m l) =
      true) ∧
    (∃ (s : State) (l : Fin 28) (n : Nat), s.m.lanes[l].st = LaneState.soak ∧ s.m.lanes[l].soakHead = none ∧ laneStays s.m l (trainTime
      s.m l) = true) ∧
    (∃ (s : State) (l : Fin 28), s.m.lanes[l].st = LaneState.soak ∧ s.m.lanes[l].soakDev = some 0) ∧
    (∃ (s : State) (l : Fin 28) (w : Word), s.m.lanes[l].st = LaneState.soak ∧ s.m.lanes[l].soakDev = none) ∧
    (∃ (s : State) (l : Fin 28) (f : SealIn), (s.m.lanes[l].st = LaneState.up ∨ s.m.lanes[l].st = LaneState.soak) ∧ (f.badHeaders ≠ 0 ∨
      f.runErrors ≠ 0 ∨ f.badFrame = true ∨ f.sealed = false)) ∧
    (∃ (s : State) (l : Fin 28) (f : SealIn), (s.m.lanes[l].st = LaneState.up ∨ s.m.lanes[l].st = LaneState.soak) ∧ f.badHeaders = 0 ∧
      f.runErrors = 0 ∧ f.badFrame = false ∧ f.sealed = true) ∧
    (∃ (s : State) (l : Fin 28) (c : Instr), s.m.lanes[l].st = LaneState.up ∧ (c = Instr.laneSignalLoss l ∨ c = Instr.laneCrcLimit l ∧ ∃
      t0, s.m.lanes[l].crcTimes[BitVec.toNat (recWord s.m recLane 4)]? = some t0 ∧ now s.m ≤ t0 + 1000000000)) ∧
    (∃ (s : State) (l : Fin 28), s.m.lanes[l].st = LaneState.up ∧ 4 ≤ s.m.lanes[l].voids) ∧
    (∃ (s : State) (l : Fin 28), s.m.lanes[l].st = LaneState.up ∧ s.m.lanes[l].locked = true) ∧
    (∃ (s : State) (l : Fin 28), s.m.lanes[l].crcTimes.length ≤ BitVec.toNat (recWord s.m recLane 4)) ∧
    (∃ (s : State) (l : Fin 28), s.m.lanes[l].voids < 4) ∧
    (∃ (s : State) (l : Fin 28), s.m.lanes[l].locked = false) ∧
    (∃ (s : State) (l : Fin 28) (c : CamSwitch), s.m.heads[laneHead l].switch = some c ∧ ∃ (fsw : BitVec 16), s.m.lanes[l].st =
      LaneState.up ∧ c.fsw = none) :=
  ⟨⟨wAt wOn [fun m => { m with lanes := Vector.replicate 28 { st := .keying, key := { step := 1 } } }], 0, (List.replicate 12 0), by
     decide⟩,
   ⟨wAt wOn [fun m => { m with lanes := Vector.replicate 28 { st := .keying, key := { step := 2 } } }], 0, (List.replicate 12 0), by
     decide⟩,
   ⟨wAt wOn [fun m => { m with lanes := (Vector.replicate _ { st := .soak, soakHead := (some 0) }) }], 0, by decide⟩,
   ⟨wAt wOn [fun m => { m with lanes := (Vector.replicate _ { st := .soak, soakHead := none }) }], 0, 0, by decide⟩,
   ⟨wAt wOn [fun m => { m with lanes := (Vector.replicate _ { st := .soak, soakDev := (some 0) }) }], 0, by decide⟩,
   ⟨wAt wOn [fun m => { m with lanes := (Vector.replicate _ { st := .soak, soakDev := none }) }], 0, 0, by decide⟩,
   ⟨wAt wOn [fun m => { m with lanes := Vector.replicate _ { st := .up } }], 0, { blocks := [], sealed := false, dir := 0, sfn := 0, tag := 0, badFrame := false, badHeaders := 0, runErrors := 0, undefined := 0 },
     by decide⟩,
   ⟨wAt wOn [fun m => { m with lanes := Vector.replicate _ { st := .up } }], 0, { blocks := [], sealed := true, dir := 0, sfn := 0, tag := 0, badFrame := false, badHeaders := 0, runErrors := 0, undefined := 0 },
     by decide⟩,
   ⟨wAt wBeam [], 0, .laneSignalLoss 0, by decide⟩,
   ⟨wAt wOn [fun m => { m with lanes := Vector.replicate _ { st := .up, voids := 4 } }], 0, by decide⟩,
   ⟨wAt wOn [fun m => { m with lanes := Vector.replicate _ { st := .up, locked := true } }], 0, by decide⟩,
   ⟨wAt wOn [], 0, by decide⟩,
   ⟨wAt wOn [], 0, by decide⟩,
   ⟨wAt wOn [fun m => { m with lanes := Vector.replicate _ { locked := false } }], 0, by decide⟩,
   ⟨wAt wBeam [fun m => { m with heads := Vector.replicate 16 { switch := some ⟨true, none, none⟩ } }], 0, _, rfl, 0, by decide⟩⟩

/-- The hypotheses of `Obligations.LaneFrames` are met, clause by clause. -/
theorem witness_LaneFrames :
    (∃ (s : State) (l : Fin 28) (f : FrameIn) (env : Env) (e : Nat × Instr), e ∈ frameRows l f env ∧ s.m.lanes[l].st = LaneState.up ∧
      f.fault = FrameFault.crc) ∧
    (∃ (s : State) (l : Fin 28) (f : FrameIn) (env : Env) (e : Nat × Instr), e ∈ frameRows l f env ∧ s.m.lanes[l].st = LaneState.up ∧
      f.fault = FrameFault.abort) ∧
    (∃ (s : State) (l : Fin 28) (f : FrameIn) (env : Env) (e : Nat × Instr), e ∈ frameRows l f env ∧ s.m.lanes[l].st = LaneState.up ∧
      f.fault = FrameFault.undefined) ∧
    (∃ (s : State) (l : Fin 28) (f : FrameIn) (env : Env) (e : Nat × Instr), e ∈ frameRows l f env ∧ s.m.lanes[l].st = LaneState.up ∧
      f.fault = FrameFault.none ∧ (frameFits (laneHead l) e.fst = false ∨ f.nblk ≠ (frameShape e.fst).fst)) ∧
    (∃ (s : State) (l : Fin 28) (f : FrameIn) (env : Env) (e : Nat × Instr), e ∈ frameRows l f env ∧ s.m.lanes[l].st ≠ LaneState.up) ∧
    (∃ (s : State) (l : Fin 28) (f : FrameIn) (env : Env), FrameOk s.m l 1 f) ∧
    (∃ (s : State) (l : Fin 28) (f : FrameIn) (env : Env), FrameOk s.m l 8 f) ∧
    (∃ (s : State) (l : Fin 28) (f : FrameIn) (env : Env) (b : Fin 12), FrameOk s.m l 3 f ∧ laneHead l = beamHead b ∧ (rdLe f.bytes 4
      2).testBit 2 = false ∧ (rdLe f.bytes 4 2).testBit 1 = false) ∧
    (∃ (s : State) (l : Fin 28) (f : FrameIn) (env : Env) (b : Fin 12), FrameOk s.m l 3 f ∧ laneHead l = beamHead b ∧ (rdLe f.bytes 4
      2).testBit 2 = true ∧ beamLive s.m b = true) ∧
    (∃ (s : State) (l : Fin 28) (f : FrameIn) (env : Env), FrameOk s.m l 9 f ∧ 0 < rdLe f.bytes 2 2 * rdLe f.bytes 4 2 * rdLe f.bytes 6 1 ∧
      rdLe f.bytes 2 2 * rdLe f.bytes 4 2 * rdLe f.bytes 6 1 ≤ (imgBuf s.m (laneHead l)).snd - 64 ∧ s.m.heads[laneHead l].imgTag = some
      (BitVec.ofNat 32 (rdLe f.bytes 8 4)) ∧ (rdLe f.bytes 6 1 = 1 ∨ rdLe f.bytes 6 1 = 2)) ∧
    (∃ (s : State) (l : Fin 28) (f : FrameIn) (env : Env), FrameOk s.m l 9 f ∧ 0 < rdLe f.bytes 2 2 * rdLe f.bytes 4 2 * rdLe f.bytes 6 1 ∧
      (imgBuf s.m (laneHead l)).snd - 64 < rdLe f.bytes 2 2 * rdLe f.bytes 4 2 * rdLe f.bytes 6 1) ∧
    (∃ (s : State) (l : Fin 28) (f : FrameIn) (env : Env) (i : Image), s.m.heads[laneHead l].img = some i ∧ FrameOk s.m l 10 f ∧
      Memory.wf s.m.mem ∧ i.void = false ∧ i.seq = BitVec.ofNat 16 (rdLe f.bytes 0 2) ∧ rdLe f.bytes 2 2 < i.height ∧ rdLe f.bytes 4 4 +
      rdLe f.bytes 8 2 ≤ i.width * i.bpp ∧ ({ i with got := i.got ++ [(rdLe f.bytes 2 2 * (i.width * i.bpp) + rdLe f.bytes 4 4, rdLe f.bytes 8 2)] }
      : Image).whole = false) :=
  ⟨⟨wAt wOn [fun m => { m with lanes := Vector.replicate _ { st := .up } }], 0, { fault := .crc, nblk := 1, fseq := 0, stamp := 0, bytes := [] },
     {}, ((1, Instr.posFrame 0 { fault := .crc, nblk := 1, fseq := 0, stamp := 0, bytes := [] })), by decide⟩,
   ⟨wAt wOn [fun m => { m with lanes := Vector.replicate _ { st := .up } }], 0, { fault := .abort, nblk := 1, fseq := 0, stamp := 0, bytes := [] },
     {}, ((1, Instr.posFrame 0 { fault := .abort, nblk := 1, fseq := 0, stamp := 0, bytes := [] })), by decide⟩,
   ⟨wAt wOn [fun m => { m with lanes := Vector.replicate _ { st := .up } }], 0, { fault := .undefined, nblk := 1, fseq := 0, stamp := 0, bytes := [] },
     {}, ((1, Instr.posFrame 0 { fault := .undefined, nblk := 1, fseq := 0, stamp := 0, bytes := [] })), by decide⟩,
   ⟨wAt wOn [fun m => { m with lanes := Vector.replicate _ { st := .up } }], 0, { nblk := 1, fseq := 0, stamp := 0, bytes := List.replicate 0 0 },
     {}, ((1, Instr.posFrame 0 { nblk := 1, fseq := 0, stamp := 0, bytes := List.replicate 0 0 })), by decide⟩,
   ⟨wAt wOn [], 0, { fault := .crc, nblk := 1, fseq := 0, stamp := 0, bytes := [] }, {}, ((1, Instr.posFrame 0 { fault := .crc, nblk := 1, fseq := 0, stamp := 0, bytes := [] })),
     by decide⟩,
   ⟨wAt wBeam [], 0, { nblk := 2, fseq := 0, stamp := 0, bytes := List.replicate 24 0 }, {}, by decide⟩,
   ⟨wAt wBeam [], 27, { nblk := 2, fseq := 0, stamp := 0, bytes := List.replicate 32 0 }, {}, by decide⟩,
   ⟨wAt wBeam [], 0, { nblk := 2, fseq := 0, stamp := 0, bytes := List.replicate 24 0 }, {}, 0, by decide⟩,
   ⟨wAt wBeam [], 0, { nblk := 2, fseq := 0, stamp := 0, bytes := List.replicate 24 4 }, {}, 0, by decide⟩,
   ⟨wAt wBeam [fun m => { m with boot := { m.boot with sections := [⟨7, 0, List.replicate 40 0 ++ [0, 0, 1, 0, 0, 0, 0, 0]⟩] }, heads := Vector.replicate 16 { imgTag := some 0 } }],
     24, { nblk := 1, fseq := 0, stamp := 0, bytes := [0, 0, 1, 0, 1, 0, 1, 0, 0, 0, 0, 0, 0, 0, 0, 0] }, {}, by decide⟩,
   ⟨wAt wBeam [], 27, { nblk := 1, fseq := 0, stamp := 0, bytes := List.replicate 16 1 }, {}, by decide⟩,
   ⟨wAt wBeam [fun m => { m with boot := { m.boot with sections := [⟨7, 0, List.replicate 40 0 ++ [0, 0, 1, 0, 0, 0, 0, 0]⟩] }, heads := Vector.replicate 16 { img := some ⟨0, 2, 2, 1, 0, false, []⟩ } }],
     24, { nblk := 15, fseq := 0, stamp := 0, bytes := [0, 0, 0, 0, 0, 0, 0, 0, 1, 0, 0, 0, 0, 0, 0, 0, 7] }, {}, _, rfl, by decide⟩⟩

/-- The hypotheses of `Obligations.LaneSending` are met, clause by clause. -/
theorem witness_LaneSending :
    (∃ (s : State) (h : Fin 16) (c : Instr), ((∃ b, h = beamHead b ∧ c = Instr.cmdKeepalive b) ∨ ∃ a : Fin 4, h.val = 12 + a.val ∧ c =
      Instr.auxCmdKeepalive a) ∧ headUp s.m h = true) ∧
    (∃ (s : State) (h : Fin 16) (c : Instr), ((∃ b, h = beamHead b ∧ c = Instr.cmdKeepalive b) ∨ ∃ a : Fin 4, h.val = 12 + a.val ∧ c =
      Instr.auxCmdKeepalive a) ∧ headUp s.m h = false) ∧
    (∃ (s : State) (b : Fin 12), inWork s.m = true ∧ headUp s.m (beamHead b) = true ∧ s.m.heads[beamHead b].released = false ∧ beamLive
      s.m b = true ∧ ctxEngaged s.m b = true) ∧
    (∃ (s : State) (b : Fin 12), (beamLive s.m b = false ∨ ctxEngaged s.m b = false)) ∧
    (∃ (s : State) (b : Fin 12), beamLive s.m b = true ∧ headUp s.m (beamHead b) = true ∧ s.m.heads[beamHead b].silent = false ∧
      s.m.heads[beamHead b].statusAt + BitVec.toNat (recWord s.m recLane 5) * 1000 ≤ now s.m) ∧
    (∃ (s : State) (b : Fin 12), beamLive s.m b = true ∧ (s.m.heads[beamHead b].buckets.any fun x => match x.snd.dropping with | some t => decide (t + BitVec.toNat (recWord s.m recLane 6) * 1000000 < now s.m) | none => false)
      = true) ∧
    (∃ (s : State) (h : Fin 16), s.m.heads[h].silent = true) ∧
    (∃ (s : State) (h : Fin 16), (s.m.heads[h].buckets.all fun x => x.snd.dropping.isNone) = true) :=
  ⟨⟨wAt wBeam [], 12, .auxCmdKeepalive 0, .inr ⟨0, by decide, rfl⟩, by decide⟩,
   ⟨wAt wOn [], 12, .auxCmdKeepalive 0, .inr ⟨0, by decide, rfl⟩, by decide⟩,
   ⟨wAt wBeam [fun m => { m with lanes := (Vector.replicate _ { st := .up }), heads := Vector.replicate _ { released := false } }], 0, by
     decide⟩,
   ⟨wAt wOn [], 0, by decide⟩,
   ⟨wAt wBeam [fun m => { m with lanes := (Vector.replicate _ { st := .up }), heads := Vector.replicate _ { silent := false } }], 0, by
     decide⟩,
   ⟨wAt wBeam [fun m => { m with heads := Vector.replicate 16 { bits := 1, buckets := [(1, { dropping := some 0 })] } }], 0, by decide⟩,
   ⟨wAt wOn [fun m => { m with heads := Vector.replicate _ { silent := true } }], 0, by decide⟩,
   ⟨wAt wOn [], 0, by decide⟩⟩

/-- The hypotheses of `Obligations.LaneCommands` are met, clause by clause. -/
theorem witness_LaneCommands :
    (∃ (s : State) (p : Port) (l : Fin 28), WriteOpen s.m p (offLaneCmd l) ∧ s.m.lanes[l].st = LaneState.up ∧ (liveExposing s.m l = false
      ∨ (List.filter (laneUp s.m) (headLanes (laneHead l))).length ≠ 1)) ∧
    (∃ (s : State) (p : Port) (l : Fin 28), WriteOpen s.m p (offLaneCmd l) ∧ s.m.lanes[l].st = LaneState.failed) ∧
    (∃ (s : State) (p : Port) (l : Fin 28), WriteOpen s.m p (offLaneCmd l) ∧ s.m.lanes[l].st = LaneState.up ∧ liveExposing s.m l = true ∧
      (List.filter (laneUp s.m) (headLanes (laneHead l))).length = 1) ∧
    (∃ (s : State) (p : Port) (l : Fin 28), WriteOpen s.m p (offLaneCmd l) ∧ s.m.lanes[l].st ≠ LaneState.up ∧ s.m.lanes[l].st ≠
      LaneState.failed) ∧
    (∃ (s : State) (p : Port) (l : Fin 28), WriteOpen s.m p (offLaneCmd l) ∧ s.m.lanes[l].locked = true) ∧
    (∃ (s : State) (p : Port) (l : Fin 28), WriteOpen s.m p (offLaneCmd l) ∧ s.m.lanes[l].locked = false) ∧
    (∃ (s : State) (p : Port) (l : Fin 28), WriteOpen s.m p (offLaneCmd l) ∧ s.m.lanes[l].st ≠ LaneState.hostile ∧ s.m.lanes[l].st ≠
      LaneState.up) ∧
    (∃ (s : State) (p : Port) (l : Fin 28), WriteOpen s.m p (offLaneCmd l) ∧ (s.m.lanes[l].st = LaneState.hostile ∨ s.m.lanes[l].st =
      LaneState.up)) ∧
    (∃ (s : State) (p : Port) (l : Fin 28) (n : Nat), WriteOpen s.m p (offLaneCmd l) ∧ s.m.lanes[l].st = LaneState.test) ∧
    (∃ (s : State) (p : Port) (l : Fin 28) (n : Nat), WriteOpen s.m p (offLaneCmd l) ∧ s.m.lanes[l].st ≠ LaneState.test) ∧
    (∃ (s : State) (p : Port) (l : Fin 28) (hi : BitVec 28) (n : Nat) (c : Instr), WriteOpen s.m p (offLaneCmd l) ∧ c ∈
      [Instr.laneRetrain p l hi, Instr.eyeScan p l hi, Instr.testEnter p l hi, Instr.testExit p l hi n] ∧ hi ≠ 45088768) ∧
    (∃ (s : State) (p : Port) (l : Fin 28) (e : Nat × Instr), WriteOpen s.m p (offLaneInject l) ∧ liveExposing s.m l = false ∧
      s.m.lanes[l].st ≠ LaneState.soak ∧ e ∈ [(1, Instr.injectBitError p l 62914560), (4, Instr.injectInvalidHeader p l 62914560), (5,
      Instr.injectCrcError p l 62914560)]) ∧
    (∃ (s : State) (p : Port) (l : Fin 28) (n : Fin 16), WriteOpen s.m p (offLaneInject l) ∧ liveExposing s.m l = false ∧ s.m.lanes[l].st
      ≠ LaneState.soak) ∧
    (∃ (s : State) (p : Port) (l : Fin 28), WriteOpen s.m p (offLaneInject l) ∧ liveExposing s.m l = false ∧ s.m.lanes[l].st ≠
      LaneState.soak) ∧
    (∃ (s : State) (p : Port) (l : Fin 28), WriteOpen s.m p (offLaneInject l) ∧ liveExposing s.m l = false ∧ s.m.lanes[l].st ≠
      LaneState.soak ∧ s.m.g.dev ≠ DevState.building) ∧
    (∃ (s : State) (p : Port) (l : Fin 28), WriteOpen s.m p (offLaneInject l) ∧ s.m.g.dev = DevState.building) ∧
    (∃ (s : State) (p : Port) (l : Fin 28) (hi : BitVec 28) (c : Instr), WriteOpen s.m p (offLaneInject l) ∧ c ∈ [Instr.injectBitError p
      l hi, Instr.injectErrorRate p l hi, Instr.injectStop p l hi, Instr.injectInvalidHeader p l hi, Instr.injectCrcError p l hi,
      Instr.injectSealError p l hi] ∧ (fld hi 27 20 ≠ 60 ∨ fld hi 19 8 ≠ 0 ∨ fld hi 3 0 ≠ 0 ∨ liveExposing s.m l = true ∨ s.m.lanes[l].st
      = LaneState.soak)) ∧
    (∃ (s : State) (p : Port) (l : Fin 28) (w : Byte) (h : Byte), s.m.lanes[l].scanning = true) ∧
    (∃ (s : State) (p : Port) (l : Fin 28) (w : Byte) (h : Byte), s.m.lanes[l].scanning = false) :=
  ⟨⟨wAt wOn [fun m => { m with lanes := Vector.replicate _ { st := .up } }], .host, 0, by decide⟩,
   ⟨wAt wOn [fun m => { m with lanes := Vector.replicate _ { st := .failed } }], .host, 0, by decide⟩,
   ⟨wAt wBeam [fun m => { m with job := { m.job with st := .exposing }, lanes := Mach.reset.lanes.setIfInBounds 0 { st := .up } }],
     .host, 0, by decide⟩,
   ⟨wAt wOn [], .host, 0, by decide⟩,
   ⟨wAt wOn [fun m => { m with lanes := Vector.replicate _ { locked := true } }], .host, 0, by decide⟩,
   ⟨wAt wOn [fun m => { m with lanes := Vector.replicate _ { locked := false } }], .host, 0, by decide⟩,
   ⟨wAt wOn [], .host, 0, by decide⟩,
   ⟨wAt wOn [fun m => { m with lanes := Vector.replicate _ { st := .hostile } }], .host, 0, by decide⟩,
   ⟨wAt wOn [fun m => { m with lanes := Vector.replicate _ { st := .test } }], .host, 0, 0, by decide⟩,
   ⟨wAt wOn [], .host, 0, 0, by decide⟩,
   ⟨wAt wOn [], .host, 0, 0, 0, (Instr.laneRetrain .host 0 0), by decide⟩,
   ⟨wAt wOn [], .host, 0, ((1, Instr.injectBitError .host 0 62914560)), by decide⟩,
   ⟨wAt wOn [], .host, 0, 0, by decide⟩,
   ⟨wAt wOn [], .host, 0, by decide⟩,
   ⟨wAt wOn [], .host, 0, by decide⟩,
   ⟨wAt wOn [fun m => { m with g := { m.g with dev := .building } }], .host, 0, by decide⟩,
   ⟨wAt wOn [], .host, 0, 0, (Instr.injectBitError .host 0 0), by decide⟩,
   ⟨wAt wOn [fun m => { m with lanes := Vector.replicate _ { scanning := true } }], .host, 0, 0, 0, by decide⟩,
   ⟨wAt wOn [fun m => { m with lanes := Vector.replicate _ { scanning := false } }], .host, 0, 0, 0, by decide⟩⟩

/-- The hypotheses of `Obligations.StageCommands` are met, clause by clause. -/
theorem witness_StageCommands :
    (∃ (s : State) (p : Port) (a : Fin 8) (op : Nat) (c : Instr) (tgt : Int), WriteOpen s.m p (offStgCmd a) ∧ s.m.stg[a].st =
      AxState.idle ∧ inWork s.m = true ∧ jobOwned s.m a = false ∧ (op = 1 ∧ c = Instr.moveAbs p a 91226112 ∧ tgt = stgTarget s.m a ∨ op =
      2 ∧ c = Instr.moveRel p a 91226112 ∧ tgt = posCmd s.m a + stgTarget s.m a ∨ op = 4 ∧ c = Instr.axisResume p a 91226112 ∧ tgt =
      s.m.stg[a].goal ∧ s.m.stg[a].remain.isSome = true) ∧ moveCheck s.m a tgt = 1) ∧
    (∃ (s : State) (p : Port) (a : Fin 8) (op : Nat) (c : Instr) (tgt : Int), WriteOpen s.m p (offStgCmd a) ∧ s.m.stg[a].st =
      AxState.idle ∧ inWork s.m = true ∧ jobOwned s.m a = false ∧ (op = 1 ∧ c = Instr.moveAbs p a 91226112 ∧ tgt = stgTarget s.m a ∨ op =
      2 ∧ c = Instr.moveRel p a 91226112 ∧ tgt = posCmd s.m a + stgTarget s.m a ∨ op = 4 ∧ c = Instr.axisResume p a 91226112 ∧ tgt =
      s.m.stg[a].goal ∧ s.m.stg[a].remain.isSome = true) ∧ moveCheck s.m a tgt ≠ 1) ∧
    (∃ (s : State) (p : Port) (a : Fin 8), WriteOpen s.m p (offStgCmd a) ∧ s.m.stg[a].st = AxState.idle ∧ inWork s.m = true ∧ jobOwned
      s.m a = false ∧ s.m.stg[a].remain = none) ∧
    (∃ (s : State) (p : Port) (a : Fin 8), WriteOpen s.m p (offStgCmd a) ∧ s.m.stg[a].st = AxState.idle ∧ inWork s.m = true ∧ jobOwned
      s.m a = false ∧ pendingOf s.m (recStgHome ↑a) = none ∧ recFld s.m (recStgHome ↑a) 0 2 0 ≠ 4 ∧ recFld s.m (recStgHome ↑a) 0 2 0 ≠ 5) ∧
    (∃ (s : State) (p : Port) (a : Fin 8), WriteOpen s.m p (offStgCmd a) ∧ s.m.stg[a].st = AxState.idle ∧ inWork s.m = true ∧ jobOwned
      s.m a = false ∧ pendingOf s.m (recStgHome ↑a) = none ∧ recFld s.m (recStgHome ↑a) 0 2 0 = 4) ∧
    (∃ (s : State) (p : Port) (a : Fin 8) (c : Instr), WriteOpen s.m p (offStgCmd a) ∧ c ∈ [Instr.moveAbs p a 91226112, Instr.moveRel p a
      91226112, Instr.axisResume p a 91226112, Instr.home p a 91226112] ∧ s.m.stg[a].st = AxState.off) ∧
    (∃ (s : State) (p : Port) (a : Fin 8) (c : Instr), WriteOpen s.m p (offStgCmd a) ∧ c ∈ [Instr.moveAbs p a 91226112, Instr.moveRel p a
      91226112, Instr.axisResume p a 91226112, Instr.home p a 91226112] ∧ s.m.stg[a].st ≠ AxState.off ∧ inWork s.m = false) ∧
    (∃ (s : State) (p : Port) (a : Fin 8) (c : Instr), WriteOpen s.m p (offStgCmd a) ∧ c ∈ [Instr.moveAbs p a 91226112, Instr.moveRel p a
      91226112, Instr.axisResume p a 91226112, Instr.home p a 91226112] ∧ s.m.stg[a].st = AxState.moving ∧ inWork s.m = true) ∧
    (∃ (s : State) (p : Port) (a : Fin 8) (c : Instr), WriteOpen s.m p (offStgCmd a) ∧ c ∈ [Instr.moveAbs p a 91226112, Instr.moveRel p a
      91226112, Instr.axisResume p a 91226112, Instr.home p a 91226112] ∧ s.m.stg[a].st = AxState.idle ∧ inWork s.m = true ∧ jobOwned s.m
      a = true) ∧
    (∃ (s : State) (p : Port) (a : Fin 8), WriteOpen s.m p (offStgCmd a) ∧ inWork s.m = true ∧ s.m.stg[a].st = AxState.moving ∧
      s.m.stg[a].v ≠ 0) ∧
    (∃ (s : State) (p : Port) (a : Fin 8), WriteOpen s.m p (offStgCmd a) ∧ inWork s.m = true ∧ s.m.stg[a].st = AxState.fault) ∧
    (∃ (s : State) (p : Port) (a : Fin 8), WriteOpen s.m p (offStgCmd a) ∧ s.m.stg[a].st = AxState.idle) ∧
    (∃ (s : State) (p : Port) (a : Fin 8), WriteOpen s.m p (offStgCmd a) ∧ inWork s.m = true ∧ s.m.stg[a].st ≠ AxState.off) ∧
    (∃ (s : State) (p : Port) (a : Fin 8) (hi : BitVec 28) (c : Instr), WriteOpen s.m p (offStgCmd a) ∧ hi ≠ 91226112 ∧ c ∈
      [Instr.moveAbs p a hi, Instr.moveRel p a hi, Instr.axisStop p a hi, Instr.axisResume p a hi, Instr.home p a hi, Instr.clear p a hi,
      Instr.cmpClear p a hi]) ∧
    (∃ (s : State) (p : Port) (a : Fin 8) (w : Word), WriteOpen s.m p (721028 + 2048 * ↑a) ∧ fld w 31 24 = 109 ∧ fld w 23 8 = 0 ∧ (fld w
      1 0 = 1 ∨ fld w 1 0 = 2) ∧ s.m.stg[a].cmp.list ≠ [] ∧ s.m.stg[a].cmp.list.length < 64) ∧
    (∃ (s : State) (p : Port) (a : Fin 8) (w : Word), WriteOpen s.m p (721028 + 2048 * ↑a) ∧ fld w 31 24 = 109 ∧ fld w 23 8 = 0 ∧ (fld w
      1 0 = 1 ∨ fld w 1 0 = 2) ∧ 64 ≤ s.m.stg[a].cmp.list.length) ∧
    (∃ (s : State) (p : Port) (a : Fin 8) (w : Word), WriteOpen s.m p (721028 + 2048 * ↑a) ∧ (fld w 31 24 ≠ 109 ∨ fld w 23 8 ≠ 0 ∨ fld w
      1 0 = 0 ∨ fld w 1 0 = 3)) :=
  ⟨⟨wAt wOn [fun m => { m with stg := Vector.replicate 8 { st := .idle, remain := some 0, posUnknown := false } }], .host, 0, 4,
     .axisResume .host 0 0x5700000, 0, by decide⟩,
   ⟨wAt wOn [fun m => { m with stg := Vector.replicate 8 { st := .idle, homed := true, posUnknown := false, remain := some 0, goal := 1000000000000 } }],
     .host, 0, 4, .axisResume .host 0 0x5700000, 1000000000000, by decide⟩,
   ⟨wAt wOn [fun m => { m with stg := (Vector.replicate _ { st := .idle, remain := none }) }], .host, 0, by decide⟩,
   ⟨wAt wOn [fun m => { m with stg := Vector.replicate _ { st := .idle } }], .host, 0, by decide⟩,
   ⟨wAt wOn [fun m => { m with stg := Vector.replicate 8 { st := .idle } }, wRec (recStgHome 0) 0 4], .host, 0, by decide⟩,
   ⟨wAt wOn [fun m => { m with stg := Vector.replicate _ { st := .off } }], .host, 0, (Instr.moveAbs .host 0 91226112), by decide⟩,
   ⟨wAt wOn [fun m => { m with stg := Vector.replicate 8 { st := .idle } }, fun m => { m with g := { m.g with dev := .safeHold } }],
     .host, 0, (Instr.moveAbs .host 0 91226112), by decide⟩,
   ⟨wAt wOn [fun m => { m with stg := Vector.replicate _ { st := .moving } }], .host, 0, (Instr.moveAbs .host 0 91226112), by decide⟩,
   ⟨wAt wOn [fun m => { m with stg := Vector.replicate 8 { st := .idle } }, fun m => { m with g := { m.g with dev := .building }, job := { m.job with st := .makeReady } },
     wRec recJob 0 0], .host, 0, (Instr.moveAbs .host 0 91226112), by decide⟩,
   ⟨wAt wOn [fun m => { m with stg := Vector.replicate _ { st := .moving, v := 1 } }], .host, 0, by decide⟩,
   ⟨wAt wOn [fun m => { m with stg := Vector.replicate _ { st := .fault } }], .host, 0, by decide⟩,
   ⟨wAt wOn [fun m => { m with stg := Vector.replicate _ { st := .idle } }], .host, 0, by decide⟩,
   ⟨wAt wOn [fun m => { m with stg := Vector.replicate 8 { st := .idle } }], .host, 0, by decide⟩,
   ⟨wAt wOn [], .host, 0, 0, (Instr.moveAbs .host 0 0), by decide⟩,
   ⟨wAt wOn [fun m => { m with stg := Vector.replicate 8 { cmp := { list := [⟨0, true, 0⟩] } } }], .host, 0, 0x6D000001, by decide⟩,
   ⟨wAt wOn [fun m => { m with stg := Vector.replicate 8 { cmp := { list := List.replicate 64 ⟨0, true, 0⟩ } } }], .host, 0, 0x6D000001,
     by decide⟩,
   ⟨wAt wOn [], .host, 0, 0, by decide⟩⟩

/-- The hypotheses of `Obligations.StageMotion` are met, clause by clause. -/
theorem witness_StageMotion :
    (∃ (s : State) (a : Fin 8), s.m.stg[a].st = AxState.moving ∧ pendingOf s.m (recStgMotion ↑a) = none) ∧
    (∃ (s : State) (a : Fin 8), s.m.stg[a].st = AxState.stopping ∧ s.m.stg[a].stopMax = true ∧ pendingOf s.m (recStgMotion ↑a) = none) ∧
    (∃ (s : State) (a : Fin 8), s.m.stg[a].st = AxState.moving ∧ carries s.m.stg[a] = true ∧ s.m.stg[a].cmd ≠ s.m.stg[a].target) ∧
    (∃ (s : State) (a : Fin 8), (axMoving s.m.stg[a].st = false ∨ carries s.m.stg[a] = false)) ∧
    (∃ (s : State) (a : Fin 8), s.m.stg[a].st = AxState.moving ∧ s.m.stg[a].cmd = s.m.stg[a].target) ∧
    (∃ (s : State) (a : Fin 8), s.m.stg[a].cmd ≠ s.m.stg[a].target) ∧
    (∃ (s : State) (a : Fin 8) (r : Int), s.m.stg[a].remain = some r ∧ s.m.stg[a].st = AxState.stopping ∧ s.m.stg[a].v = 0 ∧ (¬a ∈
      s.m.job.mrPending) ∧ s.m.stg[a].stopFault = none ∧ s.m.stg[a].cmd ≠ s.m.stg[a].remainTarget) ∧
    (∃ (s : State) (a : Fin 8) (c : BitVec 4), s.m.stg[a].stopFault = some c ∧ s.m.stg[a].st = AxState.stopping ∧ s.m.stg[a].v = 0 ∧ (¬a
      ∈ s.m.job.mrPending)) ∧
    (∃ (s : State) (a : Fin 8), s.m.stg[a].v ≠ 0) ∧
    (∃ (s : State) (a : Fin 8) (pos : Bool), s.m.stg[a].dirPos = pos ∧ s.m.stg[a].st = AxState.moving ∧ s.m.stg[a].homing = none ∧
      s.m.stg[a].v ≠ 0 ∧ s.m.stg[a].cmd ≠ s.m.stg[a].target) ∧
    (∃ (s : State) (a : Fin 8) (pos : Bool), s.m.stg[a].st = AxState.off) ∧
    (∃ (s : State) (a : Fin 8) (pos : Bool) (cmd : Int) (meas : Int), s.m.stg[a].homing = none) ∧
    (∃ (s : State) (a : Fin 8) (on : Bool), s.m.stg[a].homing = none) ∧
    (∃ (s : State) (a : Fin 8), s.m.stg[a].st = AxState.moving ∧ recFld s.m (recStgGuard ↑a) 1 7 0 ≠ 0 ∧ recFld s.m (recStgGuard ↑a) 1 7
      0 ≤ s.m.stg[a].stallRun) ∧
    (∃ (s : State) (a : Fin 8), s.m.stg[a].stallRun < recFld s.m (recStgGuard ↑a) 1 7 0) ∧
    (∃ (s : State) (a : Fin 8), s.m.boot.recPend = []) ∧
    (∃ (s : State) (a : Fin 8), s.m.stg[a].st = AxState.idle) ∧
    (∃ (s : State) (a : Fin 8) (l : Bool), s.m.stg[a].cmp.pulse = some l) ∧
    (∃ (s : State) (a : Fin 8) (c : Fin 2) (f : Bool) (q : List Bool), a.val = c.val ∧ s.m.stg[a].enc.queue = f :: q) :=
  ⟨⟨wAt wOn [fun m => { m with stg := Vector.replicate _ { st := .moving } }], 0, by decide⟩,
   ⟨wAt wOn [fun m => { m with stg := Vector.replicate _ { st := .stopping, stopMax := true } }], 0, by decide⟩,
   ⟨wAt wOn [fun m => { m with stg := Vector.replicate 8 { st := .moving, target := 5, inc := 2 ^ 48 } }], 0, by decide⟩,
   ⟨wAt wOn [], 0, by decide⟩,
   ⟨wAt wOn [fun m => { m with stg := Vector.replicate 8 { st := .moving } }], 0, by decide⟩,
   ⟨wAt wOn [fun m => { m with stg := Vector.replicate 8 { st := .moving, target := 5 } }], 0, by decide⟩,
   ⟨wAt wOn [fun m => { m with stg := Vector.replicate 8 { st := .stopping, remain := some 1, remainTarget := 5 } }], 0, _, rfl, by
     decide⟩,
   ⟨wAt wOn [fun m => { m with stg := (Vector.replicate _ { st := .stopping, v := 0, stopFault := (some 0) }) }], 0, _, rfl, by decide⟩,
   ⟨wAt wOn [fun m => { m with stg := Vector.replicate _ { v := 1 } }], 0, by decide⟩,
   ⟨wAt wOn [fun m => { m with stg := Vector.replicate 8 { st := .moving, v := 1, target := 5 } }], 0, _, rfl, by decide⟩,
   ⟨wAt wOn [fun m => { m with stg := Vector.replicate _ { st := .off } }], 0, false, by decide⟩,
   ⟨wAt wOn [fun m => { m with stg := (Vector.replicate _ { homing := none }) }], 0, false, 0, 0, by decide⟩,
   ⟨wAt wOn [fun m => { m with stg := (Vector.replicate _ { homing := none }) }], 0, false, by decide⟩,
   ⟨wAt wOn [fun m => { m with stg := Vector.replicate 8 { st := .moving, stallRun := 3 } }, wRec (recStgGuard 0) 1 2], 0, by decide⟩,
   ⟨wAt wOn [], 0, by decide⟩,
   ⟨wAt wOn [fun m => { m with boot := { m.boot with recPend := [] } }], 0, by decide⟩,
   ⟨wAt wOn [fun m => { m with stg := Vector.replicate _ { st := .idle } }], 0, by decide⟩,
   ⟨wAt wOn [fun m => { m with stg := (Vector.replicate _ { cmp := { pulse := (some default) } }) }], 0, _, rfl⟩,
   ⟨wAt wOn [fun m => { m with stg := Vector.replicate 8 { enc := { queue := [true] } } }], 0, 0, true, [], by decide⟩⟩

/-- The hypotheses of `Obligations.StageSensing` are met, clause by clause. -/
theorem witness_StageSensing :
    (∃ (s : State) (a : Fin 8) (la : Bool) (lb : Bool), lb = s.m.stg[a].encB ∧ s.m.stg[a].st ≠ AxState.off ∧ encType s.m a = 1 ∧ la ≠
      s.m.stg[a].encA) ∧
    (∃ (s : State) (a : Fin 8) (la : Bool), la = s.m.stg[a].encA ∧ ∃ (lb : Bool), s.m.stg[a].st ≠ AxState.off ∧ encType s.m a = 1 ∧ lb ≠
      s.m.stg[a].encB) ∧
    (∃ (s : State) (a : Fin 8) (la : Bool) (lb : Bool), s.m.stg[a].st ≠ AxState.off ∧ encType s.m a = 1 ∧ la ≠ s.m.stg[a].encA ∧ lb ≠
      s.m.stg[a].encB) ∧
    (∃ (s : State) (a : Fin 8), s.m.stg[a].st ≠ AxState.off ∧ s.m.stg[a].st = AxState.idle ∧ recFld s.m (recStgGuard ↑a) 1 23 16 <
      (List.filter (fun t => decide (now s.m < t + 1000000)) s.m.stg[a].qerrAt).length) ∧
    (∃ (s : State) (a : Fin 8), s.m.stg[a].st ≠ AxState.off ∧ s.m.stg[a].qerrAt = []) ∧
    (∃ (s : State) (a : Fin 8), s.m.stg[a].st ≠ AxState.off ∧ s.m.stg[a].homing = none) ∧
    (∃ (s : State) (a : Fin 8) (raw : BitVec 32) (parity : Bool) (e : Env), s.m.stg[a].st ≠ AxState.off ∧ encType s.m a = 2 ∧
      s.m.job.autoResume = false ∧ s.m.stg[a].ssiBad + 1 < 3) ∧
    (∃ (s : State) (a : Fin 8) (raw : BitVec 32) (parity : Bool) (e : Env), s.m.stg[a].st ≠ AxState.off ∧ encType s.m a = 2 ∧
      s.m.job.autoResume = false ∧ 3 ≤ s.m.stg[a].ssiBad + 1 ∧ s.m.stg[a].st = AxState.idle) ∧
    (∃ (s : State) (a : Fin 8) (raw : BitVec 32) (parity : Bool) (e : Env), s.m.stg[a].st ≠ AxState.off ∧ encType s.m a = 2 ∧
      s.m.job.autoResume = false ∧ s.m.stg[a].ssiLast = none ∧ s.m.g.bootWarm = false) ∧
    (∃ (s : State) (a : Fin 8), s.m.stg[a].st ≠ AxState.off ∧ domainOn s.m 11 = true) ∧
    (∃ (s : State) (a : Fin 8), s.m.stg[a].st ≠ AxState.off ∧ encType s.m a ≠ 0) ∧
    (∃ (s : State) (a : Fin 8), s.m.stg[a].st ≠ AxState.off ∧ (∀ (c : Nat × Bool), s.m.stg[a].lastAt = some c → c.fst + BitVec.toNat
      (recWord s.m (recStgGuard ↑a) 8) * 1000000 ≤ now s.m)) ∧
    (∃ (s : State) (a : Fin 8) (c : Nat × Bool), s.m.stg[a].lastAt = some c ∧ s.m.stg[a].st ≠ AxState.off ∧ now s.m < c.fst +
      BitVec.toNat (recWord s.m (recStgGuard ↑a) 8) * 1000000) :=
  ⟨⟨wAt wOn [fun m => { m with stg := Vector.replicate 8 { st := .idle } }, wRec (recStgAxis 0) 0 4], 0, true, _, rfl, by decide⟩,
   ⟨wAt wOn [fun m => { m with stg := Vector.replicate 8 { st := .idle } }, wRec (recStgAxis 0) 0 4], 0, _, rfl, true, by decide⟩,
   ⟨wAt wOn [fun m => { m with stg := Vector.replicate 8 { st := .idle } }, wRec (recStgAxis 0) 0 4], 0, true, true, by decide⟩,
   ⟨wAt wOn [fun m => { m with stg := Vector.replicate 8 { st := .idle, qerrAt := List.replicate 300 4999999999 } }], 0, by decide⟩,
   ⟨wAt wOn [fun m => { m with stg := Vector.replicate 8 { st := .idle } }, wRec (recStgAxis 0) 0 4], 0, by decide⟩,
   ⟨wAt wOn [fun m => { m with stg := Vector.replicate 8 { st := .idle } }, wRec (recStgAxis 0) 0 4], 0, by decide⟩,
   ⟨wAt wOn [fun m => { m with stg := Vector.replicate 8 { st := .idle } }, wRec (recStgAxis 0) 0 8], 0, 0, false, {}, by decide⟩,
   ⟨wAt wOn [fun m => { m with stg := Vector.replicate 8 { st := .idle, ssiBad := 2 } }, wRec (recStgAxis 0) 0 8], 0, 0, false, {}, by
     decide⟩,
   ⟨wAt wOn [fun m => { m with stg := Vector.replicate 8 { st := .idle } }, wRec (recStgAxis 0) 0 8], 0, 0, false, {}, by decide⟩,
   ⟨wAt wOn [fun m => { m with stg := Vector.replicate 8 { st := .idle } }, wRec (recStgAxis 0) 0 0], 0, by decide⟩,
   ⟨wAt wOn [fun m => { m with stg := Vector.replicate 8 { st := .idle } }, wRec (recStgAxis 0) 0 4], 0, by decide⟩,
   ⟨wAt wOn [fun m => { m with stg := Vector.replicate 8 { st := .idle } }, wRec (recStgAxis 0) 0 4], 0, by decide⟩,
   ⟨wAt wOn [fun m => { m with stg := Vector.replicate 8 { st := .idle, lastAt := some (4999999999, true) } }], 0, _, rfl, by decide⟩⟩

/-- The hypotheses of `Obligations.InterlockInputs` are met, clause by clause. -/
theorem witness_InterlockInputs :
    (∃ (s : State) (ch : Bool), s.m.aon.mains = true) ∧
    (∃ (s : State) (ch : Bool), s.m.aon.mains = false) ∧
    (∃ (s : State), s.m.aon.mains = true ∧ s.m.ilk.a = true ∧ s.m.ilk.b = true ∧ s.m.ilk.latch = true ∧ s.m.ilk.disc = false) ∧
    (∃ (s : State), (s.m.ilk.a = false ∨ s.m.ilk.b = false ∨ s.m.ilk.latch = false)) ∧
    (∃ (s : State), s.m.aon.mains = true ∧ s.m.ilk.a ≠ s.m.ilk.b ∧ s.m.ilk.disc = false ∧ inWork s.m = true) ∧
    (∃ (s : State), s.m.ilk.a = s.m.ilk.b) ∧
    (∃ (s : State) (p : Port), WriteOpen s.m p 786448 ∧ lampsProved s.m = true ∧ s.m.ilk.lampInh = true) ∧
    (∃ (s : State) (p : Port), WriteOpen s.m p 786448 ∧ lampsProved s.m = false) ∧
    (∃ (s : State) (p : Port) (n : Fin 16), WriteOpen s.m p 786448 ∧ ↑n ≠ 0 ∧ inWork s.m = true ∧ s.m.job.st ≠ JobState.makeReady) ∧
    (∃ (s : State) (p : Port) (n : Fin 256), WriteOpen s.m p 786448 ∧ (↑n = 0 ∨ 15 < ↑n ∨ s.m.g.dev = DevState.safeHold)) ∧
    (∃ (s : State) (p : Port) (hi : BitVec 28) (c : Instr), WriteOpen s.m p 786448 ∧ c ∈ [Instr.lampAck p hi, Instr.scene p hi] ∧ (fld hi
      27 20 ≠ 227 ∨ fld hi 11 0 ≠ 0)) :=
  ⟨⟨wAt wOn [fun m => { m with aon := { m.aon with mains := true } }], false, by decide⟩,
   ⟨wAt wOn [fun m => { m with aon := { m.aon with mains := false } }], false, by decide⟩,
   ⟨wAt wOn [fun m => { m with aon := { m.aon with mains := true }, ilk := { m.ilk with a := true, b := true, latch := true, disc := false } }],
     by decide⟩,
   ⟨wAt wOn [fun m => { m with ilk := { m.ilk with a := false } }], by decide⟩,
   ⟨wAt wOn [fun m => { m with ilk := { m.ilk with b := false } }], by decide⟩,
   ⟨wAt wOn [], by decide⟩,
   ⟨wAt wOn [fun m => { m with ilk := { m.ilk with lampInh := true } }], .host, by decide⟩,
   ⟨wAt wOn [wRec recLampGroups 0 2, wRec recLampGroups 1 0x10000], .host, by decide⟩,
   ⟨wAt wOn [], .host, 1, by decide⟩,
   ⟨wAt wOn [], .host, 0, by decide⟩,
   ⟨wAt wOn [], .host, 0, (Instr.lampAck .host 0), by decide⟩⟩

/-- The hypotheses of `Obligations.LampBus` are met, clause by clause. -/
theorem witness_LampBus :
    (∃ (s : State) (n : BitVec 4), busOn s.m = true) ∧
    (∃ (s : State) (n : BitVec 4), busOn s.m = false) ∧
    (∃ (s : State) (a : Fin 32) (data : List Byte), busOn s.m = true ∧ data.length = 6 ∧ 2 ∈ s.m.ilk.mods[a].polled ∧ (∀ (c : Nat), c < 4
      → chState (BitVec.ofNat 16 (rdLe data 0 2)) c ≤ 1)) ∧
    (∃ (s : State) (a : Fin 32) (data : List Byte) (c : Nat), busOn s.m = true ∧ data.length = 6 ∧ 2 ∈ s.m.ilk.mods[a].polled ∧ c < 4 ∧
      chState (BitVec.ofNat 16 (rdLe data 0 2)) c = 3) ∧
    (∃ (s : State) (a : Fin 32), s.m.ilk.mods[a].polled ≠ [] ∧ busOn s.m = true) ∧
    (∃ (s : State) (a : Fin 32), s.m.ilk.mods[a].polled ≠ []) ∧
    (∃ (s : State) (a : Fin 32), s.m.ilk.mods[a].polled = []) ∧
    (∃ (s : State) (a : Fin 32), s.m.ilk.mods[a].notMeasured = true) ∧
    (∃ (s : State) (a : Fin 32), s.m.ilk.mods[a].notMeasured = false) ∧
    (∃ (s : State), busOn s.m = true ∧ recFld s.m recLampBus 1 8 8 = 1) ∧
    (∃ (s : State), recFld s.m recLampBus 1 8 8 = 0) ∧
    (∃ (s : State), busOn s.m = true ∧ sensorAddr s.m ≠ 0) ∧
    (∃ (s : State), sensorAddr s.m = 0) ∧
    (∃ (s : State) (g : Fin 8), busOn s.m = true ∧ followsPattern s.m ↑g = true ∧ bitOf (grpWord s.m (16 * ↑g + 12)) (displayNow s.m) =
      true) :=
  ⟨⟨wAt wOn [wRec recLampGroups 0 2, wRec recLampGroups 1 0x10000, fun m => { m with lanes := m.lanes }], 0, by decide⟩,
   ⟨wAt Mach.reset [], 0, by decide⟩,
   ⟨wAt wOn [fun m => { m with ilk := { m.ilk with mods := Vector.replicate 32 { polled := [2] } } }], 0, (List.replicate 6 0), by
     decide⟩,
   ⟨wAt wOn [fun m => { m with ilk := { m.ilk with mods := Vector.replicate 32 { polled := [2] } } }], 0, (List.replicate 6 0x33), 0, by
     decide⟩,
   ⟨wAt wOn [fun m => { m with ilk := { m.ilk with mods := (Vector.replicate _ { polled := [0] }) } }], 0, by decide⟩,
   ⟨wAt wOn [fun m => { m with ilk := { m.ilk with mods := (Vector.replicate _ { polled := [0] }) } }], 0, by decide⟩,
   ⟨wAt wOn [fun m => { m with ilk := { m.ilk with mods := (Vector.replicate _ { polled := [] }) } }], 0, by decide⟩,
   ⟨wAt wOn [fun m => { m with ilk := { m.ilk with mods := (Vector.replicate _ { notMeasured := true }) } }], 0, by decide⟩,
   ⟨wAt wOn [fun m => { m with ilk := { m.ilk with mods := (Vector.replicate _ { notMeasured := false }) } }], 0, by decide⟩,
   ⟨wAt wOn [wRec recLampBus 1 0x100], by decide⟩,
   ⟨wAt wOn [], by decide⟩,
   ⟨wAt wOn [wRec recLampBus 1 1], by decide⟩,
   ⟨wAt wOn [], by decide⟩,
   ⟨wAt wOn [wRec recLampGroups 1 0x10000, wRec recLampGroups 12 1], 0, by decide⟩⟩

/-- The hypotheses of `Obligations.NetworkTime` are met, clause by clause. -/
theorem witness_NetworkTime :
    (∃ (s : State) (p : Fin 2) (type : BitVec 4) (i : ServoIn), ptpOn s.m p = true ∧ i.offset = none) ∧
    (∃ (s : State) (p : Fin 2) (type : BitVec 4), type = 0 ∧ ∃ (i : ServoIn) (o : Word), i.offset = some o ∧ ptpOn s.m p = true ∧
      s.m.time.servo = Servo.locked ∧ pendingOf s.m recTimeServo = none) ∧
    (∃ (s : State) (p : Fin 2) (type : BitVec 4), type = 0 ∧ ∃ (i : ServoIn) (o : Word), i.offset = some o ∧ ptpOn s.m p = true ∧
      s.m.time.servo = Servo.acquiring ∧ s.m.time.stepDue = false ∧ pendingOf s.m recTimeServo = none ∧ (BitVec.toInt o).natAbs ≤
      BitVec.toNat (recWord s.m recTimeServo 0)) ∧
    (∃ (s : State) (p : Fin 2) (type : BitVec 4) (i : ServoIn), ptpOn s.m p = false) ∧
    (∃ (s : State) (p : Fin 2) (bytes : List Byte) (udp : Option (BitVec 16)), ptpOn s.m p = true) ∧
    (∃ (s : State), (s.m.time.servo = Servo.acquiring ∨ s.m.time.servo = Servo.locked)) ∧
    (∃ (s : State), (s.m.time.servo = Servo.free ∨ s.m.time.servo = Servo.holdover)) ∧
    (∃ (s : State) (dt : BitVec 64) (sec : BitVec 48) (ns : Word) (rate : Word), (s.m.time.servo = Servo.acquiring ∨ s.m.time.servo =
      Servo.locked) ∧ s.m.time.running = true ∧ BitVec.toNat ns < 1000000000) ∧
    (∃ (s : State) (dt : BitVec 64) (sec : BitVec 48) (ns : Word) (rate : Word), (s.m.time.servo = Servo.acquiring ∨ s.m.time.servo =
      Servo.locked) ∧ s.m.time.running = true ∧ 1000000000 ≤ BitVec.toNat ns) ∧
    (∃ (s : State) (p : Port), WriteOpen s.m p 852032) ∧
    (∃ (s : State) (p : Port) (v : Word), WriteOpen s.m p 852032 ∧ v ≠ 486539264) ∧
    (∃ (s : State) (l : Fin 28) (f : FrameIn), FrameOk s.m l 6 f ∧ (s.m.time.lanes[l].sent.any fun e => decide (e.fst = BitVec.ofNat 32
      (rdLe f.bytes 0 4))) = false) ∧
    (∃ (s : State) (l : Fin 28) (f : FrameIn), FrameOk s.m l 6 f ∧ (s.m.time.lanes[l].sent.any fun e => decide (e.fst = BitVec.ofNat 32
      (rdLe f.bytes 0 4)) && decide (now s.m ≤ e.snd + 10000)) = true ∧ pendingOf s.m recTimeLink = none) :=
  ⟨⟨wAt wOn [fun m => { m with time := { m.time with running := true } }, wRec recTimePtp 0 0x300], 0, 0, { portState := 0, utc := 0 },
     by decide⟩,
   ⟨wAt wOn [fun m => { m with time := { m.time with servo := .locked } }, wRec recTimePtp 0 0x300], 0, _, rfl, { portState := 9, utc := 0, selected := true, offset := some 0 },
     _, rfl, by decide⟩,
   ⟨wAt wOn [fun m => { m with time := { m.time with servo := .acquiring } }, wRec recTimePtp 0 0x300], 0, _, rfl, { portState := 9, utc := 0, selected := true, offset := some 0 },
     _, rfl, by decide⟩,
   ⟨wAt wOn [], 0, 0, { portState := 0, utc := 0 }, by decide⟩,
   ⟨wAt wOn [fun m => { m with time := { m.time with running := true } }, wRec recTimePtp 0 0x300], 0, [], none, by decide⟩,
   ⟨wAt wOn [fun m => { m with time := { m.time with servo := .acquiring } }], by decide⟩,
   ⟨wAt wOn [fun m => { m with time := { m.time with servo := .free } }], by decide⟩,
   ⟨wAt wOn [fun m => { m with time := { m.time with servo := .acquiring, running := true } }], 0, 0, 0, 0, by decide⟩,
   ⟨wAt wOn [fun m => { m with time := { m.time with servo := .acquiring, running := true } }], 0, 0, 4294967295, 0, by decide⟩,
   ⟨wAt wOn [], .host, by decide⟩,
   ⟨wAt wOn [], .host, 0, by decide⟩,
   ⟨wAt wBeam [], 0, { nblk := 2, fseq := 0, stamp := 0, bytes := List.replicate 24 0 }, by decide⟩,
   ⟨wAt wBeam [fun m => { m with time := { m.time with lanes := Vector.replicate 28 { sent := [(0, 5000000000)] } } }], 0, { nblk := 2, fseq := 0, stamp := 0, bytes := List.replicate 24 0 },
     by decide⟩⟩

/-- The hypotheses of `Obligations.LayerMemory` are met, clause by clause. -/
theorem witness_LayerMemory :
    (∃ (s : State) (c : Fin 2) (p : Port), WriteOpen s.m p 917632 ∧ (s.m.mem.ch ↑c).retrainPend = false ∧ (s.m.mem.ch ↑c).st ≠
      ChState.retraining) ∧
    (∃ (s : State) (c : Fin 2) (p : Port), WriteOpen s.m p 917632 ∧ ((s.m.mem.ch ↑c).retrainPend = true ∨ (s.m.mem.ch ↑c).st =
      ChState.retraining)) ∧
    (∃ (s : State) (c : Fin 2) (p : Port), WriteOpen s.m p 917632) ∧
    (∃ (s : State) (c : Fin 2) (p : Port) (hi : BitVec 28) (i : Instr), WriteOpen s.m p 917632 ∧ i ∈ [Instr.memRetrain p hi,
      Instr.scrubNow p hi] ∧ (fld hi 27 20 ≠ 156 ∨ fld hi 19 13 ≠ 0 ∨ fld hi 11 0 ≠ 0)) ∧
    (∃ (s : State) (c : Fin 2), (s.m.mem.ch ↑c).retrainPend = true ∧ (s.m.mem.ch ↑c).st = ChState.ready ∧ (inBuild s.m = false ∨
      s.m.job.st ≠ JobState.exposing)) ∧
    (∃ (s : State) (c : Fin 2), (s.m.mem.ch ↑c).retrainPend = true ∧ (s.m.mem.ch ↑c).st = ChState.ready ∧ inBuild s.m = true ∧ s.m.job.st
      = JobState.exposing) ∧
    (∃ (s : State) (c : Fin 2) (rd : Byte) (wr : Byte) (e : Env), (s.m.mem.ch ↑c).st = ChState.retraining ∧ s.m.job.resumeWaits = false) ∧
    (∃ (s : State) (c : Fin 2) (ok : Bool) (rd : Byte) (wr : Byte) (e : Env), (s.m.mem.ch ↑c).st ≠ ChState.retraining) ∧
    (∃ (s : State) (c : Fin 2) (bank : Fin 16) (reads : List RdReq), (s.m.mem.ch ↑c).st ≠ ChState.ready) ∧
    (∃ (s : State) (c : Fin 2) (bank : Fin 16) (reads : List RdReq), (s.m.mem.ch ↑c).st = ChState.ready ∧ look (fun x => 0) (s.m.mem.ch
      ↑c).postponed ↑bank < 8 ∧ ((∃ k, k ∈ (s.m.mem.ch ↑c).writeQ ∧ bankOf k = ↑bank) ∨ ∃ r, r ∈ (s.m.mem.ch ↑c).readQ ++ (s.m.mem.ch
      ↑c).readWait ∧ bankOf r.block = ↑bank)) ∧
    (∃ (s : State) (c : Fin 2) (bank : Fin 16) (reads : List RdReq), (s.m.mem.ch ↑c).st = ChState.ready ∧ (look (fun x => 0) (s.m.mem.ch
      ↑c).postponed ↑bank = 8 ∨ (∀ (k : Nat), k ∈ (s.m.mem.ch ↑c).writeQ → bankOf k ≠ ↑bank) ∧ reads = [] ∧ (s.m.mem.ch ↑c).readQ = [] ∧
      (s.m.mem.ch ↑c).readWait = [])) ∧
    (∃ (s : State) (c : Fin 2), (s.m.mem.ch ↑c).readQ = [] ∧ (s.m.mem.ch ↑c).readWait = []) ∧
    (∃ (s : State) (c : Fin 2) (reads : List RdReq), ((∃ r, r ∈ reads ∧ chanOf r.block = ↑c) ∨ (s.m.mem.ch ↑c).readQ ≠ [] ∨ (s.m.mem.ch
      ↑c).readWait ≠ [])) ∧
    (∃ (s : State) (c : Fin 2) (bank : Fin 16) (row : BitVec 16), (s.m.mem.ch ↑c).st = ChState.ready ∧ (↑bank, row.toNat) ∈ (s.m.mem.ch
      ↑c).nbr) ∧
    (∃ (s : State) (c : Fin 2) (bank : Fin 16) (row : BitVec 16), (¬(↑bank, row.toNat) ∈ (s.m.mem.ch ↑c).nbr)) ∧
    (∃ (s : State) (c : Fin 2), s.m.boot.recPend = []) ∧
    (∃ (s : State) (c : Fin 2) (t0 : Byte) (t1 : Byte) (r0 : BitVec 4) (r1 : BitVec 4) (h0 : Bool) (h1 : Bool), s.m.mem.trained = true) ∧
    (∃ (s : State) (c : Fin 2), s.m.mem.trained = true ∧ s.m.mem.poison = []) ∧
    (∃ (s : State) (c : Fin 2) (e : Ecc), s.m.mem.trained = true) ∧
    (∃ (s : State) (c : Fin 2) (e : Ecc), s.m.mem.trained = false) ∧
    (∃ (s : State) (c : Fin 2), s.m.mem.scrubbing = true) ∧
    (∃ (s : State) (c : Fin 2), s.m.mem.scrubbing = false) :=
  ⟨⟨wAt wOn [fun m => { m with mem := { m.mem with ch0 := { m.mem.ch0 with retrainPend := false } } }], 0, .host, by decide⟩,
   ⟨wAt wOn [fun m => { m with mem := { m.mem with ch0 := { m.mem.ch0 with retrainPend := true } } }], 0, .host, by decide⟩,
   ⟨wAt wOn [], 0, .host, by decide⟩,
   ⟨wAt wOn [], 0, .host, 0, (Instr.memRetrain .host 0), by decide⟩,
   ⟨wAt wOn [fun m => { m with mem := { m.mem with ch0 := { m.mem.ch0 with retrainPend := true, st := .ready } } }], 0, by decide⟩,
   ⟨wAt wBuild [fun m => { m with mem := { m.mem with ch0 := { m.mem.ch0 with retrainPend := true, st := .ready } }, job := { m.job with st := .exposing } }],
     0, by decide⟩,
   ⟨wAt wOn [fun m => { m with mem := { m.mem with ch0 := { m.mem.ch0 with st := .retraining } }, job := { m.job with resumeWaits := false } }],
     0, 0, 0, {}, by decide⟩,
   ⟨wAt wOn [], 0, false, 0, 0, {}, by decide⟩,
   ⟨wAt Mach.reset [], 0, 0, [], by decide⟩,
   ⟨wAt wOn [fun m => { m with mem := { m.mem with ch0 := { m.mem.ch0 with writeQ := [0] } } }], 0, 0, [], by decide⟩,
   ⟨wAt wOn [fun m => { m with mem := { m.mem with ch0 := { m.mem.ch0 with writeQ := List.range 48 } } }], 0, 1, [], by decide⟩,
   ⟨wAt wOn [fun m => { m with mem := { m.mem with ch0 := { m.mem.ch0 with readQ := [], readWait := [] } } }], 0, by decide⟩,
   ⟨wAt wOn [fun m => { m with mem := { m.mem with ch0 := { m.mem.ch0 with readQ := [⟨0, 0⟩], writeQ := List.range 48 } } }], 0, [], by
     decide⟩,
   ⟨wAt wOn [fun m => { m with mem := { m.mem with ch0 := { m.mem.ch0 with nbr := [(0, 0)] } } }], 0, 0, 0, by decide⟩,
   ⟨wAt wOn [], 0, 0, 0, by decide⟩,
   ⟨wAt wOn [fun m => { m with boot := { m.boot with recPend := [] } }], 0, by decide⟩,
   ⟨wAt wOn [fun m => { m with mem := { m.mem with trained := true } }], 0, 0, 0, 0, 0, false, false, by decide⟩,
   ⟨wAt wOn [fun m => { m with mem := { m.mem with trained := true, poison := [] } }], 0, by decide⟩,
   ⟨wAt wOn [fun m => { m with mem := { m.mem with trained := true } }], 0, {}, by decide⟩,
   ⟨wAt wOn [fun m => { m with mem := { m.mem with trained := false } }], 0, {}, by decide⟩,
   ⟨wAt wOn [fun m => { m with mem := { m.mem with scrubbing := true } }], 0, by decide⟩,
   ⟨wAt wOn [fun m => { m with mem := { m.mem with scrubbing := false } }], 0, by decide⟩⟩

/-- The hypotheses of `Obligations.ClocksAndSupplies` are met, clause by clause. -/
theorem witness_ClocksAndSupplies :
    (∃ (s : State) (cause : BitVec 2), monitorActs s.m = true) ∧
    (∃ (s : State) (cause : BitVec 2), monitorActs s.m = false) ∧
    (∃ (s : State), s.m.clk.fallback = Fallback.rcWait) ∧
    (∃ (s : State) (gap : BitVec 64), s.m.clk.fallback = Fallback.pllWait) ∧
    (∃ (s : State), s.m.clk.fallback = Fallback.firmwareWait ∧ inWork s.m = true) ∧
    (∃ (s : State), s.m.clk.fallback = Fallback.firmwareWait) ∧
    (∃ (s : State), (s.m.clk.fallback = Fallback.rcWait ∨ s.m.clk.fallback = Fallback.pllWait)) ∧
    (∃ (s : State) (c : Instr), s.m.clk.fallback = Fallback.none ∧ c ∈ [Instr.fallbackRcQualified, Instr.fallbackPllLocked 0,
      Instr.fallbackFirmwareReady true, Instr.fallbackTimeout, Instr.backupRcStopped]) ∧
    (∃ (s : State), s.m.clk.rootRef = 3 ∧ s.m.clk.fallback ≠ Fallback.none) ∧
    (∃ (s : State) (i : Fin 6) (lost : List (Fin 4 × DmaIn)), ↑i ≠ 0 ∧ monitorActs s.m = true ∧ pllLocked s.m ↑i = true) ∧
    (∃ (s : State) (i : Fin 6), ↑i ≠ 0 ∧ monitorActs s.m = true ∧ pllLocked s.m ↑i = false) ∧
    (∃ (s : State), s.m.aon.mains = true) ∧
    (∃ (s : State) (p : Port) (c : Fin 2) (v : Word), WriteOpen s.m p (983056 + 4 * ↑c) ∧ (s.m.clk.out c).pend = none) ∧
    (∃ (s : State) (p : Port) (c : Fin 2) (v : Word), WriteOpen s.m p (983056 + 4 * ↑c) ∧ (s.m.clk.out c).pend ≠ none) ∧
    (∃ (s : State) (c : Fin 2) (src : BitVec 2), (s.m.clk.out c).pend = some src ∧ sourceRuns s.m (s.m.clk.out c).src = true ∧ sourceRuns
      s.m src = true) ∧
    (∃ (s : State) (c : Fin 2) (src : BitVec 2), (s.m.clk.out c).pend = some src ∧ (sourceRuns s.m (s.m.clk.out c).src = false ∨
      sourceRuns s.m src = false)) ∧
    (∃ (s : State) (c : Fin 2) (src : BitVec 2), (s.m.clk.out c).pend = some src ∧ (s.m.clk.out c).stuck = false) ∧
    (∃ (s : State) (c : Fin 2), (s.m.clk.out c).pend = none) ∧
    (∃ (s : State) (v : Word), WriteOpen s.m Port.mgmt 983072) ∧
    (∃ (s : State) (v : Word), WriteOpen s.m Port.host 983072) ∧
    (∃ (s : State) (i : Fin 14), bitOf s.m.clk.gateReq ↑i = true) ∧
    (∃ (s : State) (i : Fin 14), bitOf s.m.clk.gateReq ↑i = false) ∧
    (∃ (s : State) (i : Fin 14), bitOf s.m.clk.gateReq ↑i = true ∧ bitOf s.m.clk.gateClosed ↑i = false) ∧
    (∃ (s : State) (d : Fin 12), powered s.m = true ∧ domainOn s.m ↑d = true ∧ inWork s.m = true) ∧
    (∃ (s : State) (d : Fin 12), domainOn s.m ↑d = false) :=
  ⟨⟨wAt wOn [], 0, by decide⟩,
   ⟨wAt Mach.reset [], 0, by decide⟩,
   ⟨wAt wOn [fun m => { m with clk := { m.clk with fallback := .rcWait } }], by decide⟩,
   ⟨wAt wOn [fun m => { m with clk := { m.clk with fallback := .pllWait } }], 0, by decide⟩,
   ⟨wAt wOn [fun m => { m with clk := { m.clk with fallback := .firmwareWait } }], by decide⟩,
   ⟨wAt wOn [fun m => { m with clk := { m.clk with fallback := .firmwareWait } }], by decide⟩,
   ⟨wAt wOn [fun m => { m with clk := { m.clk with fallback := .rcWait } }], by decide⟩,
   ⟨wAt wOn [fun m => { m with clk := { m.clk with fallback := .none } }], (Instr.fallbackRcQualified), by decide⟩,
   ⟨wAt wOn [fun m => { m with clk := { m.clk with rootRef := 3, fallback := .rcWait } }], by decide⟩,
   ⟨wAt wOn [], 1, [], by decide⟩,
   ⟨wAt wOn [fun m => { m with clk := { m.clk with lock := 1 } }], 1, by decide⟩,
   ⟨wAt wOn [fun m => { m with aon := { m.aon with mains := true } }], by decide⟩,
   ⟨wAt wOn [fun m => { m with clk := { m.clk with out0 := { m.clk.out0 with pend := none } } }], .host, 0, 0, by decide⟩,
   ⟨wAt wOn [fun m => { m with clk := { m.clk with out0 := { m.clk.out0 with pend := (some 0) } } }], .host, 0, 0, by decide⟩,
   ⟨wAt wOn [fun m => { m with clk := { m.clk with out0 := { m.clk.out0 with pend := (some 0) } } }], 0, _, rfl, by decide⟩,
   ⟨wAt Mach.reset [fun m => { m with clk := { m.clk with out0 := { pend := some 2 } } }], 0, _, rfl, by decide⟩,
   ⟨wAt wOn [fun m => { m with clk := { m.clk with out0 := { m.clk.out0 with pend := (some 0), stuck := false } } }], 0, _, rfl, by
     decide⟩,
   ⟨wAt wOn [fun m => { m with clk := { m.clk with out0 := { m.clk.out0 with pend := none } } }], 0, by decide⟩,
   ⟨wAt wOn [], 0, by decide⟩,
   ⟨wAt wOn [], 0, by decide⟩,
   ⟨wAt wOn [fun m => { m with clk := { m.clk with gateReq := 0x3FFF } }], 0, by decide⟩,
   ⟨wAt wOn [], 0, by decide⟩,
   ⟨wAt wOn [fun m => { m with clk := { m.clk with gateReq := 0x3FFF } }], 0, by decide⟩,
   ⟨wAt wOn [], 0, by decide⟩,
   ⟨wAt Mach.reset [], 8, by decide⟩⟩

/-- The hypotheses of `Obligations.HealthWatch` are met, clause by clause. -/
theorem witness_HealthWatch :
    (∃ (s : State) (core : BitVec 16) (io : BitVec 16) (mv : BitVec 16), logAlive s.m = true ∧ pendingOf s.m recHltTherm = none) ∧
    (∃ (s : State), logAlive s.m = true ∧ s.m.hlt.stage = Stage.ask ∧ heldFor s.m s.m.hlt.hotSince (BitVec.toNat (recWord s.m recHltTherm
      1)) = true) ∧
    (∃ (s : State), logAlive s.m = true ∧ s.m.hlt.stage = Stage.reduce ∧ heldFor s.m s.m.hlt.hotSince (BitVec.toNat (recWord s.m
      recHltTherm 2)) = true) ∧
    (∃ (s : State), logAlive s.m = true ∧ s.m.hlt.stage = Stage.slow ∧ heldFor s.m s.m.hlt.hotSince (BitVec.toNat (recWord s.m
      recHltTherm 3)) = true ∧ s.m.hlt.kappaM < 10) ∧
    (∃ (s : State), logAlive s.m = true ∧ s.m.hlt.stage = Stage.slow ∧ heldFor s.m s.m.hlt.hotSince (BitVec.toNat (recWord s.m
      recHltTherm 3)) = false ∧ recovered s.m = true) ∧
    (∃ (s : State), logAlive s.m = true ∧ s.m.hlt.stage = Stage.reduce ∧ heldFor s.m s.m.hlt.hotSince (BitVec.toNat (recWord s.m
      recHltTherm 2)) = false ∧ recovered s.m = true) ∧
    (∃ (s : State), logAlive s.m = true ∧ (s.m.hlt.stage = Stage.normal ∨ heldFor s.m s.m.hlt.hotSince 0 = false ∧ heldFor s.m
      s.m.hlt.coolSince 0 = false)) ∧
    (∃ (s : State), logAlive s.m = true ∧ powered s.m = true) ∧
    (∃ (s : State), logAlive s.m = true ∧ s.m.hlt.vcore.toNat < recFld s.m recHltPlan 0 4 0 ∧ (∀ (at_ : Nat), s.m.hlt.raisedAt = some at_
      → at_ + 10000000000 ≤ now s.m)) ∧
    (∃ (s : State), logAlive s.m = true ∧ recFld s.m recHltPlan 0 4 0 ≤ s.m.hlt.vcore.toNat) ∧
    (∃ (s : State) (mv : BitVec 16), logAlive s.m = true ∧ 15 < ((↑mv.toNat : Int) - (720 + 5 * ↑s.m.hlt.vcore.toNat)).natAbs) ∧
    (∃ (s : State) (mv : BitVec 16), logAlive s.m = true ∧ ((↑mv.toNat : Int) - (720 + 5 * ↑s.m.hlt.vcore.toNat)).natAbs ≤ 15) ∧
    (∃ (s : State) (d : Word), logAlive s.m = true) ∧
    (∃ (s : State), logAlive s.m = true) ∧
    (∃ (s : State) (l : Fin 28), logAlive s.m = true ∧ s.m.hlt.eyeNext = ↑l ∧ laneUp s.m l = true) ∧
    (∃ (s : State), logAlive s.m = true ∧ (∀ (l : Fin 28), laneUp s.m l = false)) ∧
    (∃ (s : State) (l : Fin 28), logAlive s.m = true ∧ ↑l ∈ s.m.hlt.laneWait ∧ laneUp s.m l = true ∧ mayRetrain s.m l = true ∧ (∀ (e :
      Nat × Nat), e ∈ s.m.hlt.laneReqAt → e.fst ≠ ↑l)) ∧
    (∃ (s : State) (l : Fin 28), logAlive s.m = true ∧ (¬↑l ∈ s.m.hlt.laneWait ∨ laneUp s.m l = false ∨ mayRetrain s.m l = false)) :=
  ⟨⟨wAt wOn [], 0, 0, 0, by decide⟩,
   ⟨wAt wOn [fun m => { m with hlt := { m.hlt with stage := .ask, hotSince := some 0 } }, wRec recHltTherm 1 1], by decide⟩,
   ⟨wAt wOn [fun m => { m with hlt := { m.hlt with stage := .reduce, hotSince := some 0 } }, wRec recHltTherm 2 1], by decide⟩,
   ⟨wAt wOn [fun m => { m with hlt := { m.hlt with stage := .slow, hotSince := some 0 } }, wRec recHltTherm 3 1], by decide⟩,
   ⟨wAt wOn [fun m => { m with hlt := { m.hlt with stage := .slow, kappaM := 3, coolSince := some 0 } }, wRec recHltTherm 4 1], by
     decide⟩,
   ⟨wAt wOn [fun m => { m with hlt := { m.hlt with stage := .reduce, coolSince := some 0 } }, wRec recHltTherm 4 1], by decide⟩,
   ⟨wAt wOn [fun m => { m with hlt := { m.hlt with vcore := 31 } }], by decide⟩,
   ⟨wAt wOn [], by decide⟩,
   ⟨wAt wOn [], by decide⟩,
   ⟨wAt wOn [fun m => { m with hlt := { m.hlt with vcore := 31 } }], by decide⟩,
   ⟨wAt wOn [], 0, by decide⟩,
   ⟨wAt wOn [], 800, by decide⟩,
   ⟨wAt wOn [], 0, by decide⟩,
   ⟨wAt wBeam [fun m => { m with hlt := { m.hlt with laneWait := [0] } }], by decide⟩,
   ⟨wAt wBeam [], 0, by decide⟩,
   ⟨wAt wOn [], by decide⟩,
   ⟨wAt wBeam [fun m => { m with hlt := { m.hlt with laneWait := [0] } }], 0, by decide⟩,
   ⟨wAt wOn [], 0, by decide⟩⟩

/-- The hypotheses of `Obligations.LasersAndCalibration` are met, clause by clause. -/
theorem witness_LasersAndCalibration :
    (∃ (s : State) (b : Fin 12) (sig : Nat), monSig s.m b = some sig ∧ logAlive s.m = true ∧ s.m.beams[b].gate = true ∧ 0 <
      s.m.hlt.lasers[b].code * pMax s.m b ∧ s.m.hlt.lasers[b].since + BitVec.toNat (recWord s.m (recHltLaser ↑b) 3) * 1000 ≤ now s.m) ∧
    (∃ (s : State) (b : Fin 12) (sig : Nat), monSig s.m b = some sig ∧ logAlive s.m = true ∧ s.m.beams[b].gate = false) ∧
    (∃ (s : State) (b : Fin 12) (sig : Nat), monSig s.m b = some sig ∧ logAlive s.m = true ∧ s.m.hlt.lasers[b].n ≠ 0) ∧
    (∃ (s : State) (b : Fin 12) (sig : Nat), monSig s.m b = some sig ∧ logAlive s.m = true ∧ s.m.hlt.lasers[b].n = 0) ∧
    (∃ (s : State) (b : Fin 12) (sig : Nat), monSig s.m b = some sig ∧ logAlive s.m = true ∧ s.m.g.dev ≠ DevState.proof) ∧
    (∃ (s : State) (b : Fin 12) (sig : Nat), monSig s.m b = some sig ∧ logAlive s.m = true ∧ s.m.g.dev = DevState.proof) ∧
    (∃ (s : State) (b : Fin 12) (c : Instr), monSig s.m b = none ∧ c ∈ [Instr.laserMonSample b, Instr.laserRatioUpdate b,
      Instr.laserEvaluation b]) ∧
    (∃ (s : State) (e : Fin 64) (k : Fin 256) (kk : Nat) (ch : Fin 2) (tune : Nat) (drift : Nat) (c : Fin 128), s.m.cells.ctx[k].cell =
      some c ∧ ∃ (d : CtxDesc), ctxOf s.m k = some d ∧ ∃ (peak : Word) (edge : Bool), notchEntry s.m ↑e = some (k, kk, ch, tune, drift) ∧
      logAlive s.m = true ∧ s.m.job.st = JobState.exposing ∧ d.beam < 12 ∧ beamLive s.m (Fin.ofNat 12 d.beam) = true ∧ Regs.wf s.m.regs ∧
      (¬(↑e, ↑c, ↑ch) ∈ s.m.hlt.notch)) ∧
    (∃ (s : State) (e : Fin 64) (k : Fin 256) (kk : Nat) (ch : Fin 2) (tune : Nat) (drift : Nat) (c : Fin 128), s.m.cells.ctx[k].cell =
      some c ∧ ∃ (d : CtxDesc), ctxOf s.m k = some d ∧ ∃ (peak : Word), notchEntry s.m ↑e = some (k, kk, ch, tune, drift) ∧ logAlive s.m
      = true ∧ s.m.job.st = JobState.exposing ∧ d.beam < 12 ∧ beamLive s.m (Fin.ofNat 12 d.beam) = true ∧ (↑e, ↑c, ↑ch) ∈ s.m.hlt.notch) ∧
    (∃ (s : State) (e : Fin 64) (k : Fin 256) (kk : Nat) (ch : Fin 2) (tune : Nat) (drift : Nat) (c : Fin 128), s.m.cells.ctx[k].cell =
      some c ∧ ∃ (d : CtxDesc), ctxOf s.m k = some d ∧ ∃ (peak : Word), notchEntry s.m ↑e = some (k, kk, ch, tune, drift) ∧ logAlive s.m
      = true ∧ s.m.job.st = JobState.exposing ∧ d.beam < 12 ∧ beamLive s.m (Fin.ofNat 12 d.beam) = true ∧ (↑e, ↑c, ↑ch) ∈ s.m.hlt.notch ∧
      tune * 1000 + BitVec.toNat ((bankOfCtx s.m k).getD kk 0) < BitVec.toNat peak ∧ BitVec.toNat peak ≤ BitVec.toNat ((ctxBank (cellSec
      s.m) d).getD kk 0) + drift * 1000 ∧ BitVec.toNat ((ctxBank (cellSec s.m) d).getD kk 0) ≤ BitVec.toNat peak + drift * 1000) ∧
    (∃ (s : State) (e : Fin 64) (peak : Word) (edge : Bool), notchEntry s.m ↑e = none) ∧
    (∃ (s : State) (e : Fin 64) (k : Fin 256) (kk : Nat) (ch : Fin 2) (tune : Nat) (drift : Nat) (i : Nat) (f : Nat), notchEntry s.m ↑e =
      some (k, kk, ch, tune, drift) ∧ List.find? (fun r => decide (r.fst = ↑e)) s.m.hlt.retune = some (i, f) ∧ s.m.g.dev =
      DevState.configured ∧ pendingOf s.m (recCoef ↑k) = none) ∧
    (∃ (s : State) (e : Fin 64), s.m.hlt.retune = []) ∧
    (∃ (s : State) (p : Port) (hi : BitVec 28), WriteOpen s.m p 1048640 ∧ fld hi 27 20 = 163 ∧ fld hi 19 9 = 0 ∧ fld hi 3 0 = 0 ∧
      s.m.g.dev ≠ DevState.safeHold) ∧
    (∃ (s : State) (p : Port) (hi : BitVec 28), WriteOpen s.m p 1048640 ∧ (fld hi 27 20 ≠ 163 ∨ fld hi 19 9 ≠ 0 ∨ fld hi 3 0 ≠ 0 ∨
      s.m.g.dev = DevState.safeHold)) ∧
    (∃ (s : State) (u : CalUnit) (r : CalMeas), (s.m.hlt.runs.any fun x => decide (x.unit = u) && x.target.isNone) = true ∧ assay s.m u r
      = true) ∧
    (∃ (s : State) (u : CalUnit) (r : CalMeas), (s.m.hlt.runs.any fun x => decide (x.unit = u) && x.target.isNone) = true ∧ assay s.m u r
      = false) ∧
    (∃ (s : State) (u : CalUnit) (r : CalMeas), calBusy s.m u = false) ∧
    (∃ (s : State) (u : CalUnit) (run : CalRun), List.find? (fun x => decide (x.unit = u)) s.m.hlt.runs = some run ∧ ∃ (ws : List (Nat ×
      Word)), run.target = some ws ∧ Regs.wf s.m.regs ∧ u.domain ≠ domDac) :=
  ⟨⟨wAt wBeam [fun m => { m with boot := { m.boot with sections := [⟨4, 0, List.replicate 12 0 ++ [1, 0, 0, 0]⟩] }, beams := Vector.replicate 12 { gate := true }, hlt := { m.hlt with lasers := Vector.replicate 12 { code := 1 } } },
     wRec (recHltLaser 0) 0 100], 0, _, rfl, by decide⟩,
   ⟨wAt wBeam [wRec (recHltLaser 0) 0 100], 0, _, rfl, by decide⟩,
   ⟨wAt wBeam [fun m => { m with hlt := { m.hlt with lasers := Vector.replicate 12 { n := 1 } } }, wRec (recHltLaser 0) 0 100], 0, _,
     rfl, by decide⟩,
   ⟨wAt wBeam [wRec (recHltLaser 0) 0 100], 0, _, rfl, by decide⟩,
   ⟨wAt wBeam [wRec (recHltLaser 0) 0 100], 0, _, rfl, by decide⟩,
   ⟨wAt wBeam [fun m => { m with g := { m.g with dev := .proof } }, wRec (recHltLaser 0) 0 100], 0, _, rfl, by decide⟩,
   ⟨wAt wOn [], 0, (Instr.laserMonSample 0), by decide⟩,
   ⟨wAt wBeam [fun m => { m with job := { m.job with st := .exposing }, hlt := { m.hlt with notch := [] } }, wRec recHltNotch 0 0x20000,
     wRec recHltNotch 1 0x640001], 0, 0, 0, 0, 1, 100, _, rfl, _, rfl, 0, false, by decide⟩,
   ⟨wAt wBeam [fun m => { m with job := { m.job with st := .exposing }, hlt := { m.hlt with notch := [(0, 0, 0)] } }, wRec recHltNotch 0
     0x20000, wRec recHltNotch 1 0x640001], 0, 0, 0, 0, 1, 100, _, rfl, _, rfl, 0, by decide⟩,
   ⟨wAt wBeam [fun m => { m with job := { m.job with st := .exposing }, hlt := { m.hlt with notch := [(0, 0, 0)] } }, wRec recHltNotch 0
     0x20000, wRec recHltNotch 1 0x640001], 0, 0, 0, 0, 1, 100, _, rfl, _, rfl, 2000, by decide⟩,
   ⟨wAt wOn [], 0, 0, false, by decide⟩,
   ⟨wAt wOn [fun m => { m with hlt := { m.hlt with retune := [(0, 5)] } }, wRec recHltNotch 0 0x20000, wRec recHltNotch 1 0x640001], 0,
     0, 0, 0, 1, 100, 0, 5, by decide⟩,
   ⟨wAt wOn [fun m => { m with hlt := { m.hlt with retune := [] } }], 0, by decide⟩,
   ⟨wAt wOn [], .host, 0xA300010, by decide⟩,
   ⟨wAt wOn [], .host, 0, by decide⟩,
   ⟨wAt wOn [fun m => { m with hlt := { m.hlt with runs := [⟨{ domain := 4, index := 0 }, false, none⟩] } }], { domain := 4, index := 0 },
     { words := [0] }, by decide⟩,
   ⟨wAt wOn [fun m => { m with hlt := { m.hlt with runs := [⟨{ domain := 4, index := 0 }, false, none⟩] } }], { domain := 4, index := 0 },
     { words := [] }, by decide⟩,
   ⟨wAt wOn [], { domain := 0, index := 0 }, { words := [] }, by decide⟩,
   ⟨wAt wOn [fun m => { m with hlt := { m.hlt with runs := [⟨{ domain := 4, index := 0 }, false, some [(0x100180, 1)]⟩] } }], { domain := 4, index := 0 },
     _, rfl, _, rfl, by decide⟩⟩

/-- The hypotheses of `Obligations.Mailbox` are met, clause by clause. -/
theorem witness_Mailbox :
    (∃ (s : State) (e : Nat × (Port → BitVec 28 → Instr)) (tag : Fin 256), e ∈ [(1, Instr.echo), (2, Instr.info), (3, Instr.logFetch),
      (4, Instr.logFlush), (5, Instr.netArm), (6, Instr.rtcSet)] ∧ WriteOpen s.m Port.host 1114128 ∧ s.m.mgt.mbState ≠ MbState.busy) ∧
    (∃ (s : State) (e : Nat × (Port → BitVec 28 → Instr)) (hi : BitVec 28), e ∈ [(1, Instr.echo), (2, Instr.info), (3, Instr.logFetch),
      (4, Instr.logFlush), (5, Instr.netArm), (6, Instr.rtcSet)] ∧ WriteOpen s.m Port.host 1114128 ∧ (s.m.mgt.mbState = MbState.busy ∨
      fld hi 27 20 ≠ 217 ∨ fld hi 11 0 ≠ 0)) ∧
    (∃ (s : State) (e : Nat × (Port → BitVec 28 → Instr)) (hi : BitVec 28), e ∈ [(1, Instr.echo), (2, Instr.info), (3, Instr.logFetch),
      (4, Instr.logFlush), (5, Instr.netArm), (6, Instr.rtcSet)] ∧ WriteOpen s.m Port.mgmt 1114128) ∧
    (∃ (s : State), s.m.mgt.mbState ≠ MbState.busy) ∧
    (∃ (s : State), s.m.mgt.mbState = MbState.busy) ∧
    (∃ (s : State), powered s.m = true ∧ s.m.mgt.wdogCount = 0) ∧
    (∃ (s : State), powered s.m = true ∧ inWork s.m = true) ∧
    (∃ (s : State) (e : LogEnt) (q : List LogEnt), s.m.mgt.ring = e :: q ∧ Memory.wf s.m.mem ∧ s.m.mem.trained = true ∧ hostHeld s.m =
      false ∧ stageCap s.m ≠ 0) ∧
    (∃ (s : State), s.m.mgt.ring = []) :=
  ⟨⟨wAt wOn [], (1, .echo), 0, .head _, by decide⟩,
   ⟨wAt wOn [fun m => { m with mgt := { m.mgt with mbState := .busy } }], (1, .echo), 0, .head _, by decide⟩,
   ⟨wAt wOn [], (1, .echo), 0, .head _, by decide⟩,
   ⟨wAt wOn [], by decide⟩,
   ⟨wAt wOn [fun m => { m with mgt := { m.mgt with mbState := .busy } }], by decide⟩,
   ⟨wAt wOn [fun m => { m with mgt := { m.mgt with wdogCount := 0 } }], by decide⟩,
   ⟨wAt wOn [], by decide⟩,
   ⟨wAt wOn [fun m => { m with mgt := { m.mgt with ring := [⟨0, 0, 0, 0, 0, []⟩] } }], ⟨0, 0, 0, 0, 0, []⟩, [], by decide⟩,
   ⟨wAt wOn [fun m => { m with mgt := { m.mgt with ring := [] } }], by decide⟩⟩

/-- The hypotheses of `Obligations.NetTransfers` are met, clause by clause. -/
theorem witness_NetTransfers :
    (∃ (s : State) (sender : BitVec 32) (id : Word) (len : Word), netArmed s.m = false) ∧
    (∃ (s : State) (sender : BitVec 32) (id : Word) (len : Word), netArmed s.m = true ∧ 256 ≤ BitVec.toNat len ∧ BitVec.toNat len ≤
      50331648 ∧ BitVec.toNat len ≤ (region s.m 6).snd ∧ updBusy s.m = false ∧ s.m.boot.rlState = ReloadState.idle ∧ s.m.mgt.xfer = none) ∧
    (∃ (s : State) (sender : BitVec 32) (id : Word) (len : Word), netArmed s.m = true ∧ (BitVec.toNat len < 256 ∨ 50331648 < BitVec.toNat
      len ∨ s.m.mgt.xfer.isSome = true)) ∧
    (∃ (s : State) (x : NetXfer), s.m.mgt.xfer = some x ∧ ∃ (off : Word) (bs : List Byte), Memory.wf s.m.mem ∧ netArmed s.m = true ∧ 1 ≤
      bs.length ∧ bs.length ≤ 1024 ∧ BitVec.toNat off + bs.length ≤ x.len) ∧
    (∃ (s : State) (x : NetXfer), s.m.mgt.xfer = some x ∧ ∃ (off : Word) (bs : List Byte) (sender : BitVec 32) (id : Word), (sender ≠
      x.sender ∨ id ≠ x.id)) ∧
    (∃ (s : State) (x : NetXfer), s.m.mgt.xfer = some x ∧ ∃ (off : Word) (bs : List Byte), netArmed s.m = true ∧ x.len ≤ gapless
      x.got.length x.got 0 ∧ (updBusy s.m = true ∨ s.m.boot.rlState ≠ ReloadState.idle)) ∧
    (∃ (s : State) (x : NetXfer), s.m.mgt.xfer = some x ∧ ∃ (off : Word) (bs : List Byte), netArmed s.m = true ∧ x.len ≤ gapless
      x.got.length x.got 0 ∧ updBusy s.m = false ∧ s.m.boot.rlState = ReloadState.idle ∧ updAllowed s.m = true ∧ 256 ≤ x.len ∧ x.len ≤
      50331648 ∧ x.len ≤ (region s.m 6).snd ∧ (region s.m 6).fst % 64 = 0 ∧ (region s.m 6).fst < 2 ^ 33) ∧
    (∃ (s : State) (sender : BitVec 32) (id : Word) (first : Word) (count : Word), netLive s.m = true ∧ recFld s.m recMgtNet 0 1 1 = 1 ∧
      1 ≤ BitVec.toNat count ∧ BitVec.toNat count ≤ 32) ∧
    (∃ (s : State) (sender : BitVec 32) (id : Word) (first : Word) (count : Word), recFld s.m recMgtNet 0 1 1 = 0) ∧
    (∃ (s : State), s.m.mgt.xfer.isSome = true ∧ updBusy s.m = false) ∧
    (∃ (s : State), s.m.mgt.xfer = none) :=
  ⟨⟨wAt wOn [], 0, 0, 0, by decide⟩,
   ⟨wAt wOn [fun m => { m with mgt := { m.mgt with netWindow := some 100 } }, wRec recMgtNet 0 1, wRec recMgtNet 3 1], 0, 0, 256, by
     decide⟩,
   ⟨wAt wOn [fun m => { m with mgt := { m.mgt with netWindow := some 100 } }, wRec recMgtNet 0 1, wRec recMgtNet 3 1], 0, 0, 0, by
     decide⟩,
   ⟨wAt wOn [fun m => { m with mgt := { m.mgt with netWindow := some 100, xfer := some ⟨0, 0, 256, []⟩ } }, wRec recMgtNet 0 1, wRec
     recMgtNet 3 1], _, rfl, 0, [1], by decide⟩,
   ⟨wAt wOn [fun m => { m with mgt := { m.mgt with netWindow := some 100, xfer := some ⟨0, 0, 256, []⟩ } }, wRec recMgtNet 0 2, wRec
     recMgtNet 3 1], _, rfl, 0, [], 1, 0, by decide⟩,
   ⟨wAt wOn [fun m => { m with boot := { m.boot with updStage := .checking }, mgt := { m.mgt with netWindow := some 100, xfer := some ⟨0, 0, 256, [(0, 256)]⟩ } },
     wRec recMgtNet 0 1, wRec recMgtNet 3 1], _, rfl, 0, [], by decide⟩,
   ⟨wAt wOn [fun m => { m with mgt := { m.mgt with netWindow := some 100, xfer := some ⟨0, 0, 256, [(0, 256)]⟩ } }, wRec recMgtNet 0 1,
     wRec recMgtNet 3 1], _, rfl, 0, [], by decide⟩,
   ⟨wAt wOn [wRec recMgtNet 0 2, wRec recMgtNet 3 1], 0, 0, 0, 1, by decide⟩,
   ⟨wAt wOn [], 0, 0, 0, 0, by decide⟩,
   ⟨wAt wOn [fun m => { m with mgt := { m.mgt with xfer := some ⟨0, 0, 256, []⟩ } }], by decide⟩,
   ⟨wAt wOn [fun m => { m with mgt := { m.mgt with xfer := none } }], by decide⟩⟩

/-- The hypotheses of `Obligations.StepRunsFront` are met, clause by clause. -/
theorem witness_StepRunsFront :
    ∃ (s : State), s.pending = [] :=
  ⟨wAt wOn [], by decide⟩

/-- The hypotheses of `Obligations.GoodKept` are met, clause by clause. -/
theorem witness_GoodKept :
    ∃ s : State, ∃ t : State, Mach.Good s.m ∧ step s = .next t :=
  ⟨State.reset, _, ⟨by decide, by decide, by decide, by decide, by decide⟩, rfl⟩

/-- The hypotheses of `Obligations.FusesWriteOnce` are met, clause by clause. -/
theorem witness_FusesWriteOnce :
    (∃ (m : Mach), m.boot.floors = []) ∧
    (∃ (m : Mach) (k : Nat), k < 4) ∧
    (∃ m : Mach, ∃ w : Fuse, w ∈ m.boot.floors) ∧
    (∃ s : State, ∃ t : State, ∃ k : Nat, step s = .next t ∧ bitOf s.m.boot.revoked k = true) :=
  ⟨⟨(wAt wOn []).m, by decide⟩,
   ⟨(wAt wOn []).m, 0, by decide⟩,
   ⟨(wAt wOn [fun m => { m with boot := { m.boot with floorWords := [fuseOf 1] } }]).m, fuseOf 1, by simp [Boot.floors, wAt, Fuse.good,
     fuseOf]⟩,
   ⟨wAt wOn [fun m => { m with boot := { m.boot with revFuse := some (fuseOf 8) } }], _, 3, rfl, by simp [Boot.revoked, wAt, Fuse.good,
     fuseOf, bitOf, Nat.testBit]⟩⟩

end Sys2Proof.Tests
end

section
/-!
The occurrence rule of the event registers (R47): the sequence number beside the bits that `raised_raise` and `regGet_raise_ne` give.
-/

namespace Sys2Proof.Machine

/-- The sequence number of an event register after one more occurrence: the event bits below it never carry into it. -/
theorem fld_sqcRaise_seq (w : Word) (bit : Nat) : fld (sqcRaise w bit) 31 24 = (fld w 31 24 + 1) % 256 := by
  have hw : ((fld w 31 24 + 1) % 256) * 2 ^ 24 + (fld w 23 0 ||| 2 ^ bit) % 2 ^ 24 < 2 ^ 32 := by omega
  rw [sqcRaise, fld, BitVec.toNat_ofNat, Nat.mod_eq_of_lt hw, Nat.shiftRight_eq_div_pow]
  omega

/-- Settles O9: the sequence number from `fld_sqcRaise_seq`, the bits from `raised_raise`, the frame from `regGet_raise_ne`. -/
theorem sqcOccurrence : Obligations.SqcOccurrence := by
  intro m e bit hbit
  refine ⟨?_, ?_, fun k hk hne => ?_, fun off hoff => regGet_raise_ne hoff⟩
  · rw [regGet_raise_self hbit, fld_sqcRaise_seq]
  · simp [raised_raise hbit hbit]
  · simp [raised_raise hbit hk, hne.symm]

end Sys2Proof.Machine
end

section
/-!
The fuses (R125, R126): the version floor as a maximum over the floor words that read as programmed, and what `Evolves` says of it and
of the slots. `step_evolves` carries `exec_ev` from one command to one step.
-/

namespace Sys2Proof.Machine

/-- The fold of the definition as the library's maximum of a list. -/
theorem versionFloor_eq_max? (m : Mach) : versionFloor m = (m.boot.floors.map (·.v.toNat)).max?.getD 0 := by
  rw [versionFloor, ← List.foldl_map, List.foldl_max, Nat.zero_max]

theorem versionFloor_eq_zero {m : Mach} (h : m.boot.floors = []) : versionFloor m = 0 := by
  simp [versionFloor_eq_max?, h]

theorem le_versionFloor {m : Mach} {w : Fuse} (h : w ∈ m.boot.floors) : w.v.toNat ≤ versionFloor m := by
  rw [versionFloor_eq_max?]
  exact List.le_max?_getD_of_mem (List.mem_map_of_mem h)

theorem exists_versionFloor_eq {m : Mach} (h : m.boot.floors ≠ []) : ∃ w ∈ m.boot.floors, versionFloor m = w.v.toNat := by
  have hne : m.boot.floors.map (·.v.toNat) ≠ [] := by simpa using h
  obtain ⟨v, hv⟩ := Option.isSome_iff_exists.1 (List.isSome_max?_of_ne_nil hne)
  obtain ⟨w, hw, rfl⟩ := List.mem_map.1 (List.max?_mem hv)
  exact ⟨w, hw, by rw [versionFloor_eq_max?, hv]; rfl⟩

theorem slotUsable_iff {m : Mach} {k : Nat} :
    slotUsable m k = true ↔ (Config.keyHash k).isSome = true ∧ bitOf m.boot.revoked k = false := by
  simp [slotUsable]

theorem slotUsable_eq_false_of_revoked {m : Mach} {k : Nat} (h : bitOf m.boot.revoked k = true) : slotUsable m k = false := by
  simp [slotUsable, h]

/-- Programmed words stay, so those that pass their check stay among the words the maximum is taken over. -/
theorem Evolves.versionFloor_le {m m' : Mach} (h : Evolves m m') : versionFloor m ≤ versionFloor m' := by
  by_cases hf : m.boot.floors = []
  · rw [versionFloor_eq_zero hf]
    exact Nat.zero_le _
  · obtain ⟨w, hw, hmax⟩ := exists_versionFloor_eq hf
    have hw' : w ∈ m'.boot.floors := (h.floors.filter Fuse.good).subset hw
    rw [hmax]
    exact le_versionFloor hw'

/-- One step: the tick of an empty queue, or the command at its front. -/
theorem step_evolves {s t : State} (h : step s = .next t) : Evolves s.m t.m := by
  obtain ⟨m, pending⟩ := s
  cases pending with
  | nil =>
    cases h
    exact tick_ev (Evolves.refl _)
  | cons c rest => exact exec_ev c ⟨m, rest⟩ t h

/-- Settles O60: the floor and the slots from the lemmas above, the steps from `step_evolves`. -/
theorem fusesWriteOnce : Obligations.FusesWriteOnce := by
  refine ⟨fun m => ⟨versionFloor_eq_zero, fun _ => le_versionFloor, exists_versionFloor_eq, fun _ _ => slotUsable_iff⟩, fun s t hst => ?_⟩
  have h := step_evolves hst
  refine ⟨h.floors, h.versionFloor_le, fun k hk => ?_, h.outs, h.free⟩
  have hk' := h.revoked k hk
  exact ⟨hk', slotUsable_eq_false_of_revoked hk'⟩

end Sys2Proof.Machine
end
